-- ==== Sys2Proof/Word.lean ====
section
/-! DEFINITION. The word types of the BL-6440: a register word is 64 bits (18 R507), memory is addressed in bytes. -/
namespace Sys2Proof

/-- A register word, a Ramest word or a general register: 64 bits (02 R25, 03 R57). -/
abbrev Word := BitVec 64

/-- A byte of memory or of a frame. -/
abbrev Byte := BitVec 8

end Sys2Proof
end

