-- ==== Sys2Proof/Machine/Bits.lean ====
section
/-! DEFINITION. Bit fields, byte order, saturation, sparse maps and indexed arrays: the helpers every layer uses. -/
namespace Sys2Proof.Machine
open Sys2Proof

/-- Bits hi:lo of a number, as a number (00 R6: bit 0 is the least significant). -/
def bitsN (w hi lo : Nat) : Nat := (w >>> lo) % 2 ^ (hi + 1 - lo)

/-- Bits hi:lo of a word, as a number. -/
def bits (w : Word) (hi lo : Nat) : Nat := bitsN w.toNat hi lo

/-- Bit i of a word. -/
def bit (w : Word) (i : Nat) : Bool := w.toNat.testBit i

/-- A flag as a bit. -/
def b1 (b : Bool) : Nat := if b then 1 else 0

/-- A word assembled from fields (lo, width, value); each value is cut to its width. -/
def fields (l : List (Nat × Nat × Nat)) : Word :=
  BitVec.ofNat 64 (l.foldl (fun acc f => acc + (f.2.2 % 2 ^ f.2.1) * 2 ^ f.1) 0)

/-- The word w with bits hi:lo replaced by v. -/
def setBits (w : Word) (hi lo v : Nat) : Word :=
  BitVec.ofNat 64 (w.toNat - bits w hi lo * 2 ^ lo + (v % 2 ^ (hi + 1 - lo)) * 2 ^ lo)

/-- A number as a word. -/
def wd (n : Nat) : Word := BitVec.ofNat 64 n

/-- Saturation of a count at n bits. -/
def sat (n x : Nat) : Nat := if x < 2 ^ n then x else 2 ^ n - 1

/-- A saturating count plus k. -/
def satAdd (n x k : Nat) : Nat := sat n (x + k)

/-- The low n bits of x as a two's-complement number. -/
def signedN (n x : Nat) : Int :=
  let y := x % 2 ^ n
  if y < 2 ^ (n - 1) then (y : Int) else (y : Int) - (2 ^ n : Nat)

/-- An integer cut to n bits, as the natural number that those bits are. -/
def cutN (n : Nat) (x : Int) : Nat := (x % ((2 ^ n : Nat) : Int)).toNat

/-- An integer wrapped into n-bit two's complement. -/
def wrapN (n : Nat) (x : Int) : Int := signedN n (cutN n x)

/-- An integer as a 64-bit word, sign-extended. -/
def wdI (x : Int) : Word := BitVec.ofNat 64 (cutN 64 x)

/-- A word read as a signed 64-bit number. -/
def sgn (w : Word) : Int := signedN 64 w.toNat

/-- Floor of a/b rounded to nearest, a half up. -/
def roundDiv (a b : Nat) : Nat := if b = 0 then 0 else (2 * a + b) / (2 * b)

/-- Little-endian bytes of a number (00 R6). -/
def toLE : Nat → Nat → List Byte
  | 0, _ => []
  | n + 1, v => BitVec.ofNat 8 v :: toLE n (v / 256)

/-- The number a list of bytes spells, least significant first. -/
def leNat : List Byte → Nat
  | [] => 0
  | b :: l => b.toNat + 256 * leNat l

/-- Bytes lo to lo+n−1 of a list, as a little-endian number; absent bytes read as 0. -/
def leAt (l : List Byte) (lo n : Nat) : Nat := leNat ((l.drop lo).take n)

/-- One byte of a list, 0 beyond its end. -/
def byteAt (l : List Byte) (i : Nat) : Nat := (l.getD i 0).toNat

/-- n zero bytes. -/
def zeros (n : Nat) : List Byte := List.replicate n 0

/-- The first n bytes of a list, filled up with zeros. -/
def padTo (n : Nat) (l : List Byte) : List Byte := (l ++ zeros (n - l.length)).take n

/-- The element i of an indexed array; the type's default beyond its end. -/
def vget {α : Type} {n : Nat} [Inhabited α] (v : Vector α n) (i : Nat) : α :=
  if h : i < n then v[i] else default

/-- The array with element i replaced; unchanged where i lies beyond its end. -/
def vset {α : Type} {n : Nat} (v : Vector α n) (i : Nat) (x : α) : Vector α n := v.setIfInBounds i x

/-- The array with element i changed by f. -/
def vmod {α : Type} {n : Nat} [Inhabited α] (v : Vector α n) (i : Nat) (f : α → α) : Vector α n :=
  vset v i (f (vget v i))

/-- A sparse map: pairs of key and value, keys strictly rising, no pair that holds its key's default. -/
abbrev SMap (β : Type) := List (Nat × β)

/-- The value of a key; d where the map lists none. -/
def SMap.get {β : Type} : SMap β → β → Nat → β
  | [], d, _ => d
  | (k', v) :: l, d, k => if k' = k then v else if k < k' then d else SMap.get l d k

/-- The map with key k removed. -/
def SMap.del {β : Type} : SMap β → Nat → SMap β
  | [], _ => []
  | (k', v) :: l, k => if k' = k then l else if k < k' then (k', v) :: l else (k', v) :: SMap.del l k

/-- The map with key k put to v, whatever v is. -/
def SMap.put {β : Type} : SMap β → Nat → β → SMap β
  | [], k, v => [(k, v)]
  | (k', v') :: l, k, v =>
    if k' = k then (k, v) :: l else if k < k' then (k, v) :: (k', v') :: l else (k', v') :: SMap.put l k v

/-- The map with key k put to v, where d is the key's default: a default is not listed. -/
def SMap.set {β : Type} [DecidableEq β] (m : SMap β) (d : β) (k : Nat) (v : β) : SMap β :=
  if v = d then SMap.del m k else SMap.put m k v

/-- The entry of a key, if the map lists one. -/
def SMap.find {β : Type} : SMap β → Nat → Option β
  | [], _ => none
  | (k', v) :: l, k => if k' = k then some v else if k < k' then none else SMap.find l k

/-- A set of numbers as a list: x added once. -/
def addOnce (x : Nat) (l : List Nat) : List Nat := if l.contains x then l else l ++ [x]

/-- The numbers below n that satisfy p, rising. -/
def those (n : Nat) (p : Nat → Bool) : List Nat := (List.range n).filter p

/-- How many numbers below n satisfy p. -/
def countN (n : Nat) (p : Nat → Bool) : Nat := (those n p).length

/-- A mask whose bit i is p i, for i below n. -/
def maskN (n : Nat) (p : Nat → Bool) : Nat := (those n p).foldl (fun a i => a + 2 ^ i) 0

/-- The first of the requesters after `last`, counting upward and wrapping in n: rotating priority (01 R19). -/
def rotPick (n last : Nat) (p : Nat → Bool) : Option Nat :=
  ((List.range n).map (fun i => (last + 1 + i) % n)).find? p

end Sys2Proof.Machine
end

