-- ==== Sys2Proof/Syntax.lean ====
section
/-! DEFINITION. The commands of the block: one constructor of Instr per row of spec/opcode_table.json, and the types of their operands. -/
namespace Sys2Proof
open Sys2Proof.Machine

/-- A byte that a host writes into its own memory, which the device reaches by DMA (11 R333). -/
structure HostWrite where
  fn : Fin 4
  addr : Nat
  byte : Byte
deriving DecidableEq, Repr, Inhabited

/-- What happens around the block since the command before: how much time passes, in quanta of 0.2 ns
(an LCLK tick is 4 quanta, an SCLK cycle 5), and what the hosts write into their memories.
[log 2: DESIGN CHOICE] -/
structure Env where
  dt : Nat := 0
  hostWrites : List HostWrite := []
deriving DecidableEq, Repr, Inhabited

/-- How a register write reaches the block (18 R508): through BAR0 of function f as its direct session, or as a word of
REG_WRITE (`auth` false) or AUTH_WRITE (`auth` true) of session n. -/
inductive Writer where
  | bar0 (f : Fin 4)
  | cmd (n : Fin 256) (auth : Bool)
deriving DecidableEq, Repr, Inhabited

/-- Where a message comes from: a session page or the open page of a PCIe function (11 R332, 18 R512), or an Ifeud
datagram at a logical Ethernet port from an address and a UDP port (11 R334, R335). -/
inductive Path where
  | pcie (f : Fin 4) (openPage : Bool)
  | net (q : Fin 8) (addr : Nat) (udp : Nat)
deriving DecidableEq, Repr, Inhabited

/-- A command message (11 R337) but for its OP, which the row gives. `reserved` holds every reserved bit of the header
as sent, so a well-formed header has 0 there.
[log 85: DESIGN CHOICE] -/
structure Msg where
  path : Path := .pcie 0 false
  session : Nat := 0
  auth : Bool := false
  direct : Bool := false
  counter : Nat := 0
  xid : Nat := 0
  len : Nat := 0
  reserved : Nat := 0
  payload : List Byte := []
  tag : List Byte := []
deriving DecidableEq, Repr, Inhabited

/-- A downstream line frame (07 R215). Drop codes are a sparse map from nozzle to code; absent nozzles carry 0. -/
structure LineFrame where
  line : Nat := 0
  spit : Bool := false
  energy : Nat := 0
  seq : Nat := 0
  codes : SMap Nat := []
deriving DecidableEq, Repr, Inhabited

/-- A downstream table frame (07 R216); `reserved` is not 0 where a reserved bit is not. Set-points are a sparse map from 8·nozzle + code within the frame's 128
nozzles; absent ones are 0. -/
structure TableFrame where
  bank : Nat := 0
  index : Nat := 0
  band : Nat := 0
  seq : Nat := 0
  reserved : Nat := 0
  points : SMap Nat := []
deriving DecidableEq, Repr, Inhabited

/-- The operation of a control frame (07 R218). -/
inductive CtlOp where
  | hwrite | hread | sync | drop
deriving DecidableEq, Repr, Inhabited

/-- A downstream control frame (07 R218), with its payload. -/
structure CtlFrame where
  op : CtlOp := .hread
  id : Nat := 0
  seq : Nat := 0
  addr : Nat := 0
  len : Nat := 0
  data : List Byte := []
deriving DecidableEq, Repr, Inhabited

/-- One item of a downstream lane. -/
inductive DownItem where
  | fire (blank : Bool) (tag : Nat)
  | line (f : LineFrame)
  | table (f : TableFrame)
  | ctl (f : CtlFrame)
deriving DecidableEq, Repr, Inhabited

/-- A telemetry frame (07 R229). -/
structure Telem where
  tseq : Nat := 0
  dseq : Nat := 0
  liveBank : Nat := 0
  bank0v : Bool := false
  bank1v : Bool := false
  doubt : Bool := false
  fault : Bool := false
  senseV : Bool := false
  temps : List (Option Int) := []
  vsup : Nat := 0
  vlog : Nat := 0
  missCnt : Nat := 0
  missTag : Nat := 0
  senseWin : Nat := 0
  derr : Nat := 0
  sense : SMap Nat := []
deriving DecidableEq, Repr, Inhabited

/-- An acknowledgement frame (07 R230). -/
structure Ack where
  index : Nat := 0
  bank : Nat := 0
  status : Nat := 0
  seq : Nat := 0
deriving DecidableEq, Repr, Inhabited

/-- A response frame (07 R231). -/
structure Resp where
  write : Bool := false
  id : Nat := 0
  status : Nat := 0
  addr : Nat := 0
  data : List Byte := []
deriving DecidableEq, Repr, Inhabited

/-- One frame of an upstream lane. -/
inductive UpFrame where
  | telem (t : Telem)
  | ack (a : Ack)
  | resp (r : Resp)
deriving DecidableEq, Repr, Inhabited

/-- How a DMA read ends (11 R333): with its bytes, or with a completion timeout, Unsupported Request, Completer Abort or poison. -/
inductive DmaEnd where
  | ok
  | timeout
  | ur
  | ca
  | poison
deriving DecidableEq, Repr, Inhabited

/-- What the input pins of a camera port show at an edge of PCLK (08 R251). -/
structure CamPins where
  data : BitVec 16 := 0
  fval : Bool := false
  lval : Bool := false
  dval : Bool := false
deriving DecidableEq, Repr, Inhabited

/-- One cycle of PCLK: the pins at its rising and at its falling edge. -/
structure CamCycle where
  rise : CamPins := {}
  fall : CamPins := {}
deriving DecidableEq, Repr, Inhabited

/-- How an I2C transaction ends (08 R283). -/
inductive I2cEnd where
  | ok (data : Nat)
  | nack
  | timeout
deriving DecidableEq, Repr, Inhabited

/-- A command of the block. The first operand of each says what happens around the block since the command before. -/
inductive Instr where
  /-- NOP (R72): Ramest instruction that does nothing for one tick. -/
  | nop (e : Env) (q : Fin 16)
  /-- HALT (R72): Stops the context, first closing any swath it owns as endswath does. -/
  | halt (e : Env) (q : Fin 16)
  /-- JMP (R72): Sets PC to IMM or gA. -/
  | jmp (e : Env) (q : Fin 16)
  /-- BRC (R72): Branches to IMM when the condition code in CF holds. -/
  | brc (e : Env) (q : Fin 16)
  /-- CALL (R72): Pushes the return address and jumps, faulting with STACK or PCRANGE. -/
  | call (e : Env) (q : Fin 16)
  /-- RET (R72): Pops the call stack into PC. -/
  | ret (e : Env) (q : Fin 16)
  /-- LOOP (R72): Decrements gA and branches while it stays nonzero. -/
  | loop (e : Env) (q : Fin 16)
  /-- FENCE (R73): Waits until the selected line-queue, commit, motion and camera conditions hold. -/
  | fence (e : Env) (q : Fin 16)
  /-- LDI (R74): Loads a sign-extended immediate, or the high bits with flag H. -/
  | ldi (e : Env) (q : Fin 16)
  /-- ADD (R74): Adds modulo 2^64 and sets Z, N and C. -/
  | add (e : Env) (q : Fin 16)
  /-- SUB (R74): Subtracts modulo 2^64 and sets Z, N and C. -/
  | sub (e : Env) (q : Fin 16)
  /-- AND (R74): Bitwise and, setting Z and N. -/
  | andI (e : Env) (q : Fin 16)
  /-- OR (R74): Bitwise or, setting Z and N. -/
  | orI (e : Env) (q : Fin 16)
  /-- CMP (R74): Sets flags as sub without writing a register. -/
  | cmp (e : Env) (q : Fin 16)
  /-- MOV (R74): Copies gB, or a special source with flag S. -/
  | mov (e : Env) (q : Fin 16)
  /-- LDST (R75): Loads one status word chosen by a selector. -/
  | ldst (e : Env) (q : Fin 16)
  /-- LDT (R76): Loads a tick count or device-time value. -/
  | ldt (e : Env) (q : Fin 16)
  /-- LDPOS (R77): Loads a position item of an encoder channel or of the own placer. -/
  | ldpos (e : Env) (q : Fin 16)
  /-- SWATH (R78): Opens a swath with first line F at position gB after its ordered checks. -/
  | swath (e : Env) (q : Fin 16)
  /-- LINES (R79): Appends a printed-lines entry to the line queue. -/
  | lines (e : Env) (q : Fin 16)
  /-- BLANK (R79): Appends a blank-lines entry to the line queue. -/
  | blank (e : Env) (q : Fin 16)
  /-- SPIT (R79): Appends a spit-lines entry naming a spit pattern. -/
  | spit (e : Env) (q : Fin 16)
  /-- LINE_QUEUE_APPEND (R39): A waiting lines, blank or spit instruction appends its entry when a queue entry frees. -/
  | lineQueueAppend (e : Env) (q : Fin 16)
  /-- ENDSWATH (R81): Begins waiting for the line queue to empty and the last line event to be sent. -/
  | endswath (e : Env) (q : Fin 16)
  /-- SWATH_END (R41): The swath closes when its last queued line event is sent, posting SWATH_END. -/
  | swathEnd (e : Env) (q : Fin 16)
  /-- PITCH (R82): Sets the line pitch for the next swath. -/
  | pitch (e : Env) (q : Fin 16)
  /-- ROWDLY (R82): Selects the row-delay set for the next swath. -/
  | rowdly (e : Env) (q : Fin 16)
  /-- ENERGY (R82): Sets the band mode of the segment for the next swath. -/
  | energy (e : Env) (q : Fin 16)
  /-- WAITPOS (R84): Waits for the encoder count to reach a position. -/
  | waitpos (e : Env) (q : Fin 16)
  /-- WAITTIME (R85): Waits for a tick count or device time. -/
  | waittime (e : Env) (q : Fin 16)
  /-- WAITEV (R86): Waits for event bits, optionally clearing them. -/
  | waitev (e : Env) (q : Fin 16)
  /-- WAITAX (R87): Waits for an axis to stand still with an empty queue. -/
  | waitax (e : Env) (q : Fin 16)
  /-- WAIT_COMPLETE (R83): A pending wait's condition is decided and the wait completes with T clear. -/
  | waitComplete (e : Env) (q : Fin 16) (c : Fin 64)
  /-- WAIT_TIMEOUT (R83): A pending wait's timeout expires and the wait completes with T set. -/
  | waitTimeout (e : Env) (q : Fin 16) (c : Fin 64)
  /-- SIGNAL (R88): Sets signal bits in target sequencers and optionally posts a SIGNAL record. -/
  | signal (e : Env) (q : Fin 16)
  /-- MARK (R89): Posts a MARK record with LN, SW and the time-stamp. -/
  | mark (e : Env) (q : Fin 16)
  /-- PROGRAM_COMMIT (R90): Requests a commit of the session's staged set at a line boundary, optionally compare-and-commit. -/
  | programCommit (e : Env) (q : Fin 16)
  /-- YIELD (R72): Offers the sequencer to a READY context of the same or higher level. -/
  | yieldI (e : Env) (q : Fin 16)
  /-- MOVE (R91): Queues a relative or absolute move of an axis. -/
  | move (e : Env) (q : Fin 16)
  /-- VEL (R316): Sets the axis velocity at once, also during a move. -/
  | vel (e : Env) (q : Fin 16)
  /-- ACC (R316): Sets the axis acceleration. -/
  | acc (e : Env) (q : Fin 16)
  /-- STOP (R317): Discards the queued move and decelerates the axis to standstill. -/
  | stop (e : Env) (q : Fin 16)
  /-- HOME (R320): Runs a built-in homing sequence on an axis. -/
  | home (e : Env) (q : Fin 16)
  /-- CAMTRIG (R92): Requests one frame from a camera, stamped with SW and LN. -/
  | camtrig (e : Env) (q : Fin 16)
  /-- CAMSET (R93): Requests a camera settings record and returns its generation. -/
  | camset (e : Env) (q : Fin 16)
  /-- CONTEXT_DISPATCH (R32): The dispatcher picks the highest-level READY context under the swath rule. -/
  | contextDispatch (e : Env) (q : Fin 16)
  /-- CONTEXT_SAVE_DONE (R36): A context save to the context store completes. -/
  | contextSaveDone (e : Env) (q : Fin 16)
  /-- CONTEXT_RESTORE_DONE (R36): A context restore completes and the context runs. -/
  | contextRestoreDone (e : Env) (q : Fin 16)
  /-- SEQ_SIGNAL (R31): Host write that sets signal bits of one sequencer. -/
  | seqSignal (e : Env) (w : Writer) (q : Fin 16) (sigs : Fin 256)
  /-- SEQ_GSIGNAL (R25): Host write that sets signal bits in every masked sequencer in one tick. -/
  | seqGsignal (e : Env) (w : Writer) (mask : Fin 65536) (sigs : Fin 256)
  /-- SEQ_EVBITS_CLEAR (R86): Host write of 1 clears event bits, losing to a same-tick set. -/
  | seqEvbitsClear (e : Env) (w : Writer) (q : Fin 16) (mask : BitVec 32)
  /-- ENCODER_EDGE (R140): A quadrature sample changes the count, direction and speed estimate. -/
  | encoderEdge (e : Env) (c : Fin 4) (a b : Bool)
  /-- PHASE_WINDOW_END (R143): End of a 1 ms window posts the counted later PHASE occurrences in one record. -/
  | phaseWindowEnd (e : Env) (c : Fin 4)
  /-- ENC_LOS (R144): A receiver fault lasting 100 ns puts the channel in loss of signal. -/
  | encLos (e : Env) (c : Fin 4)
  /-- ENC_LOS_CLEAR (R144): After 1 ms of valid levels loss of signal clears. -/
  | encLosClear (e : Env) (c : Fin 4)
  /-- STILL (R147): STILLTO expires without an advancing edge and the channel goes STILL. -/
  | still (e : Env) (c : Fin 4)
  /-- SSI_FRAME_START (R150): The SSI frame period elapses and the device waits for the data line ready. -/
  | ssiFrameStart (e : Env) (c : Fin 4)
  /-- SSI_TIMEOUT (R151): The data line is not ready within SSITO and the frame is skipped. -/
  | ssiTimeout (e : Env) (c : Fin 4)
  /-- SSI_FRAME_DONE (R150): An SSI frame's bits are read and its difference is added to the count. -/
  | ssiFrameDone (e : Env) (c : Fin 4) (value : BitVec 32) (stopLow : Bool)
  /-- Z_EDGE (R154): A rising index edge latches the count into ZLATCH. -/
  | zEdge (e : Env) (c : Fin 4) (level : Bool)
  /-- ENC_REBASE (R169): POS.ENCCTL REBASE sets the count to VALUE, refused while a swath on the channel is open. -/
  | encRebase (e : Env) (w : Writer) (c : Fin 4) (value : BitVec 48) (clrq : Bool)
  /-- ENC_CLRQ (R169): POS.ENCCTL CLRQ clears QERRTOT. -/
  | encClrq (e : Env) (w : Writer) (c : Fin 4)
  /-- LINE_EVENT (R157): The count passes the high-water mark and the placer decides line events for reached boundaries. -/
  | lineEvent (e : Env) (q : Fin 16)
  /-- FIRE_INSTANT (R158): The scheduled instant of row trigger 0 arrives and FIR inserts FIRE or FIRE-BLANK. -/
  | fireInstant (e : Env) (q : Fin 16)
  /-- ROW_TRIGGER (R175): A row trigger k of a line reaches its own boundary and its fire symbol is sent. -/
  | rowTrigger (e : Env) (q : Fin 16) (p : Fin 64)
  /-- READ_POINT (R106): At a line's read point the device reads the ring, routes the line and starts its frame. -/
  | readPoint (e : Env) (q : Fin 16)
  /-- CARAVAN_DESCRIPTOR (R354): The stream reads and checks the next Caravan descriptor. -/
  | caravanDescriptor (e : Env) (p : Fin 64)
  /-- INDEX_BLOCK (R120): An index walk reads an index block and selects Dunes by line. -/
  | indexBlock (e : Env) (p : Fin 64)
  /-- STREAM_FETCH (R99): The stream issues reads while its buffer has room and the next Dune is admissible. -/
  | streamFetch (e : Env) (p : Fin 64)
  /-- DUNE_HEADER (R112): A Dune header arrives and passes or fails the ordered checks. -/
  | duneHeader (e : Env) (p : Fin 64)
  /-- ENGINE_GRANT (R122): A free decompression engine is granted to a requesting stream. -/
  | engineGrant (e : Env) (g : Fin 16)
  /-- DUNE_DECODE_DONE (R103): An engine finishes a Dune and its slots become VALID together. -/
  | duneDecodeDone (e : Env) (p : Fin 64)
  /-- ENGINE_ABANDON (R124): No input byte for 2,048 ticks, or with `ecc` an uncorrectable error in its dictionary memory,
  makes the engine abandon its Dune. -/
  | engineAbandon (e : Env) (p : Fin 64) (ecc : Bool)
  /-- STREAM_EN (R132): LDP.STRCFG write enabling or stopping the stream. -/
  | streamEn (e : Env) (w : Writer) (p : Fin 64) (en haltErr : Bool)
  /-- RING_FLUSH (R135): LDP.RINGCTL FLUSH frees every slot and sets the new base, refused in a swath. -/
  | ringFlush (e : Env) (w : Writer) (p : Fin 64) (newBase : BitVec 32) (clr : Bool)
  /-- LDP_CLRCNT (R135): LDP.RINGCTL CLRCNT clears the port's LDP counts. -/
  | ldpClrcnt (e : Env) (w : Writer) (p : Fin 64)
  /-- TELEMETRY_FRAME (R232): A valid telemetry frame reaches LCLK and updates HTEMP, VSUP, sense and counts. -/
  | telemetryFrame (e : Env) (p : Fin 64) (rx : List Nat)
  /-- TELTO_EXPIRY (R186): No telemetry within TELTO makes the port stale and blank. -/
  | teltoExpiry (e : Env) (p : Fin 64)
  /-- ACK_FRAME (R189): A table-frame acknowledgement reaches LCLK. -/
  | ackFrame (e : Env) (p : Fin 64) (rx : List Nat)
  /-- ACK_TIMEOUT (R189): A table frame is not acknowledged within 50 µs and is sent again. -/
  | ackTimeout (e : Env) (p : Fin 64)
  /-- PUSH_START (R192): FIR starts a push when the target differs from the live band and the bank is free. -/
  | pushStart (e : Env) (p : Fin 64)
  /-- BAND_LOAD_DONE (R189): The band's 128 KiB load into the staged copy completes. -/
  | bandLoadDone (e : Env) (p : Fin 64)
  /-- PUSH_RETRY (R193): 1 ms after a failed push FIR restarts it for the current target. -/
  | pushRetry (e : Env) (p : Fin 64)
  /-- TABLE_FRAME_SEND (R220): KL starts a table frame in a gap where it fits. -/
  | tableFrameSend (e : Env) (p : Fin 64)
  /-- CONTROL_FRAME_SEND (R219): KL starts a pending HREAD or HWRITE control frame in a gap. -/
  | controlFrameSend (e : Env) (p : Fin 64)
  /-- RESPONSE_FRAME (R231): A head response frame to HREAD or HWRITE is received. -/
  | responseFrame (e : Env) (p : Fin 64) (rx : List Nat)
  /-- RESPONSE_TIMEOUT (R244): No head response within 50 µs ends the access with timeout. -/
  | responseTimeout (e : Env) (p : Fin 64)
  /-- UPSTREAM_VOID (R232): A void upstream frame is discarded and counted. -/
  | upstreamVoid (e : Env) (p : Fin 64) (rx : List Nat)
  /-- MISS_WINDOW_END (R233): End of a 1 ms window posts counted MISS, UP_CRC or DOWN_ERR records. -/
  | missWindowEnd (e : Env) (p : Fin 64)
  /-- HVCTL_ON (R200): Request to raise an HVEN group, accepted only when safe and authorised. -/
  | hvctlOn (e : Env) (w : Writer) (mask : Fin 256)
  /-- HVCTL_OFF (R200): Drops an HVEN group at once. -/
  | hvctlOff (e : Env) (w : Writer) (mask : Fin 256)
  /-- HVSETTLE_EXPIRY (R200): HVSETTLE elapses after a group rose and HVOK sets. -/
  | hvsettleExpiry (e : Env) (g : Fin 8)
  /-- FIR_CLRCNT (R204): FIR.PORTCTL CLRCNT clears FIR.CNT of the port. -/
  | firClrcnt (e : Env) (w : Writer) (p : Fin 64)
  /-- SAFE_N_ASSERT (R201): Three low SAFE_n samples drop all HVEN and blank every port. -/
  | safeNAssert (e : Env)
  /-- SAFE_N_RELEASE (R201): SAFE_n high for 10 ms releases the cause. -/
  | safeNRelease (e : Env)
  /-- PORT_UP (R248): KL.PORTCTL UP starts bring-up from DOWN or FAULT. -/
  | portUp (e : Env) (w : Writer) (p : Fin 64)
  /-- PORT_DOWN (R248): KL.PORTCTL DOWN takes the port down in any state. -/
  | portDown (e : Env) (w : Writer) (p : Fin 64)
  /-- PORT_CAL (R242): KL.PORTCTL CAL starts lane calibration of a READY port outside a swath. -/
  | portCal (e : Env) (w : Writer) (p : Fin 64)
  /-- KL_CLRCNT (R248): KL.PORTCTL CLRCNT clears the link counts. -/
  | klClrcnt (e : Env) (w : Writer) (p : Fin 64)
  /-- LANE_CAL_DONE (R243): Lane calibration ends, applying the chosen preset and returning the port to READY. -/
  | laneCalDone (e : Env) (p : Fin 64)
  /-- WAKE_DONE (R240): 64 clean upstream IDLE symbols move the port to IDENT. -/
  | wakeDone (e : Env) (p : Fin 64)
  /-- WAKE_TIMEOUT (R240): WAKE does not finish in 500 µs and the port goes to FAULT. -/
  | wakeTimeout (e : Env) (p : Fin 64)
  /-- IDENT_TIMEOUT (R240): Identification does not finish in 50 µs and the port goes to FAULT. -/
  | identTimeout (e : Env) (p : Fin 64)
  /-- CONFIG_DONE (R240): 1 µs after DROP in CONFIG the port enters PUSH. -/
  | configDone (e : Env) (p : Fin 64)
  /-- LINK_LOST (R241): No valid upstream frame for LOSTO takes the port to FAULT. -/
  | linkLost (e : Env) (p : Fin 64)
  /-- PORT_AUTO_RETRY (R240): With AUTO, 100 ms in FAULT restarts bring-up at WAKE. -/
  | portAutoRetry (e : Env) (p : Fin 64)
  /-- PRBS_START (R249): KL.PRBS RUN = 1 puts the port in TEST with repeated PRBS runs. -/
  | prbsStart (e : Env) (w : Writer) (p : Fin 64) (pat : Fin 4) (inv : Bool)
  /-- PRBS_STOP (R249): KL.PRBS RUN = 0 returns the port to WAKE. -/
  | prbsStop (e : Env) (w : Writer) (p : Fin 64)
  /-- PRBS_RUN_END (R238): A PRBS run of DUR µs ends and both ends realign. -/
  | prbsRunEnd (e : Env) (p : Fin 64) (upFlips downFlips : List Nat)
  /-- EYE_SWEEP (R239): A 1 ms eye sweep completes and KL.EYE is written. -/
  | eyeSweep (e : Env) (p : Fin 64) (width : Fin 65) (height : Fin 256)
  /-- HREG_ACCESS (R250): KL.HREGCMD write queues one HREAD or HWRITE to the head. -/
  | hregAccess (e : Env) (w : Writer) (p : Fin 64) (addr : BitVec 24) (write : Bool) (len : Fin 128)
  /-- HEAD_FIRE_SYMBOL (R222): Head receives a fire symbol and assigns it to a line and row trigger. -/
  | headFireSymbol (e : Env) (p : Fin 64) (noise : List (Nat × Nat))
  /-- HEAD_LINE_FRAME (R223): Head receives a line frame and holds it for its tag. -/
  | headLineFrame (e : Env) (p : Fin 64) (noise : List (Nat × Nat))
  /-- HEAD_TABLE_FRAME (R225): Head receives a table frame, writes its bank and acknowledges it. -/
  | headTableFrame (e : Env) (p : Fin 64) (noise : List (Nat × Nat))
  /-- HEAD_SYNC (R222): Head receives SYNC, resets tags and row counts and leaves DOUBT. -/
  | headSync (e : Env) (p : Fin 64) (noise : List (Nat × Nat))
  /-- HEAD_DROP (R218): Head receives DROP and discards held line frames and row counts. -/
  | headDrop (e : Env) (p : Fin 64) (noise : List (Nat × Nat))
  /-- HEAD_CONTROL_FRAME (R231): Head receives HREAD or HWRITE and responds. -/
  | headControlFrame (e : Env) (p : Fin 64) (noise : List (Nat × Nat)) (busy : Bool)
  /-- HEAD_TELEMETRY_SEND (R229): Every 10 µs the head sends a telemetry frame. -/
  | headTelemetrySend (e : Env) (p : Fin 64) (temps : List (Option Int)) (vsup vlog : BitVec 16) (win : Fin 8) (sense : SMap Nat) (fault : Bool)
  /-- CAM_LINE (R267): A camera line enters the input buffer, dropping the newest frame at the high mark. -/
  | camLine (e : Env) (c : Fin 4) (cycles : List CamCycle)
  /-- FRAME_START (R252): FVAL becomes active and a frame begins, answering an outstanding pulse. -/
  | frameStart (e : Env) (c : Fin 4)
  /-- FRAME_END (R253): FVAL becomes inactive; a malformed frame is dropped with FORMAT. -/
  | frameEnd (e : Env) (c : Fin 4)
  /-- LINE_SLOT (R266): The pipeline grants a line slot to a camera with a complete buffered line. -/
  | lineSlot (e : Env) (u : Fin 2)
  /-- FRAME_COMPLETE (R275): A frame's last line leaves stage 8 and outputs, statistics and result record are final. -/
  | frameComplete (e : Env) (c : Fin 4)
  /-- CAM_NOCLK (R254): No PCLK edge for 1 µs drops the frame and ends triggers. -/
  | camNoclk (e : Env) (c : Fin 4)
  /-- CAM_CLOCK_RETURN (R254): The first PCLK edge returns the port to WAITSYNC. -/
  | camClockReturn (e : Env) (c : Fin 4)
  /-- CAM_TRIG (R255): CAM.CTL TRIG places a host trigger request. -/
  | camTrig (e : Env) (w : Writer) (c : Fin 4)
  /-- POSITION_TRIGGER (R258): The count reaches the next trigger position and a request is placed. -/
  | positionTrigger (e : Env) (c : Fin 4)
  /-- TRIG_PULSE (R255): The next accepted request is pulsed on TRIG. -/
  | trigPulse (e : Env) (c : Fin 4)
  /-- TRIG_TIMEOUT (R256): No frame start answers the pulse within TRIGTO and the request ends. -/
  | trigTimeout (e : Env) (c : Fin 4)
  /-- CAM_SETREQ (R261): CAM.CTL SETREQ requests a settings record and assigns a generation. -/
  | camSetreq (e : Env) (w : Writer) (c : Fin 4) (record : Fin 256)
  /-- SETTINGS_WINDOW (R262): A frame's settings window opens and a pending record write begins. -/
  | settingsWindow (e : Env) (c : Fin 4)
  /-- SETTINGS_WRITE_DONE (R262): The STOP of the record's last entry completes the settings write. -/
  | settingsWriteDone (e : Env) (c : Fin 4) (failed : Option (Fin 16))
  /-- CAM_POP (R276): CAM.CTL POP discards the oldest result record. -/
  | camPop (e : Env) (w : Writer) (c : Fin 4)
  /-- CAM_CLRCNT (R282): CAM.CTL CLRCNT clears CAM.CNT. -/
  | camClrcnt (e : Env) (w : Writer) (c : Fin 4)
  /-- I2C_COMMAND (R283): CAM.I2CCMD starts a direct bus transaction, refused with EN = 1. -/
  | i2cCommand (e : Env) (w : Writer) (c : Fin 4) (addr : Fin 128) (read : Bool) (nbytes : Fin 8) (data : BitVec 48)
  /-- I2C_DONE (R283): A direct bus transaction ends with data, NACK or timeout. -/
  | i2cDone (e : Env) (c : Fin 4) (res : I2cEnd)
  /-- PTRIG_SKIP_WINDOW (R258): End of a 1 ms window posts counted skipped position triggers. -/
  | ptrigSkipWindow (e : Env) (c : Fin 4)
  /-- VISION_RESULT (R285): A completed frame's vision result reaches the health engine and is used for one purpose. -/
  | visionResult (e : Env)
  /-- HEALTH_APPLY (R290): At the apply tick all OUT changes of one frame take effect together. -/
  | healthApply (e : Env)
  /-- SENSE_APPLY (R291): 16 ticks after telemetry, sense-route OUT changes take effect. -/
  | senseApply (e : Env) (p : Fin 64)
  /-- TEST_APPLY (R298): Return-test results apply together and TEST_DONE is posted. -/
  | testApply (e : Env)
  /-- NZCTL_OUT (R293): HLT.NZCTL OP 1 sets HOUT of one nozzle. -/
  | nzctlOut (e : Env) (w : Writer) (p : Fin 64) (j : Fin 8192)
  /-- NZCTL_RELEASE (R293): HLT.NZCTL OP 2 clears HOUT of one nozzle. -/
  | nzctlRelease (e : Env) (w : Writer) (p : Fin 64) (j : Fin 8192)
  /-- TEST_ARM (R297): HLT.TESTCTL ARM = 1 arms a return test. -/
  | testArm (e : Env) (w : Writer) (cam : Fin 4) (q : Fin 16) (stride phase : Fin 128) (bg th : Fin 65536)
  /-- TEST_DISARM (R297): HLT.TESTCTL ARM = 0 disarms the test. -/
  | testDisarm (e : Env) (w : Writer) 
  /-- ALIGN_ARM (R299): HLT.ALCTL ARM = 1 arms the alignment unit. -/
  | alignArm (e : Env) (w : Writer) (cam : Fin 4) (q : Fin 16) (nmark : Fin 2048) (bg minMass : Fin 65536)
  /-- ALIGN_DISARM (R299): HLT.ALCTL ARM = 0 disarms the alignment unit. -/
  | alignDisarm (e : Env) (w : Writer) 
  /-- MOT_CMD_MOVE (R328): Host MOT.CMD relative move. -/
  | motCmdMove (e : Env) (w : Writer) (a : Fin 8) (value : BitVec 48)
  /-- MOT_CMD_MOVE_A (R328): Host MOT.CMD absolute move. -/
  | motCmdMoveA (e : Env) (w : Writer) (a : Fin 8) (value : BitVec 48)
  /-- MOT_CMD_VEL (R328): Host MOT.CMD velocity change. -/
  | motCmdVel (e : Env) (w : Writer) (a : Fin 8) (value : BitVec 32)
  /-- MOT_CMD_ACC (R328): Host MOT.CMD acceleration change. -/
  | motCmdAcc (e : Env) (w : Writer) (a : Fin 8) (value : BitVec 32)
  /-- MOT_CMD_STOP (R328): Host MOT.CMD stop. -/
  | motCmdStop (e : Env) (w : Writer) (a : Fin 8)
  /-- MOT_CMD_HOME (R328): Host MOT.CMD homing sequence. -/
  | motCmdHome (e : Env) (w : Writer) (a : Fin 8) (sel : Fin 4)
  /-- AXIS_EN (R328): MOT.AXCTL EN asserts ENA and zeroes the phase count. -/
  | axisEn (e : Env) (w : Writer) (a : Fin 8)
  /-- AXIS_DIS (R328): MOT.AXCTL DIS disables the axis at standstill. -/
  | axisDis (e : Env) (w : Writer) (a : Fin 8)
  /-- AXIS_RELEASE (R321): MOT.AXCTL RELEASE returns a HELD axis to IDLE once its cause is gone. -/
  | axisRelease (e : Env) (w : Writer) (a : Fin 8)
  /-- DECEL_START (R313): The remaining distance reaches the braking distance and deceleration begins. -/
  | decelStart (e : Env) (a : Fin 8)
  /-- MICROSTEP_SWITCH (R311): At a phase-aligned point the microstep level changes by one. -/
  | microstepSwitch (e : Env) (a : Fin 8)
  /-- MOVE_END (R313): The axis reaches its target at the floor and the queued move starts. -/
  | moveEnd (e : Env) (a : Fin 8)
  /-- HOME_INDEX (R320): A Z edge during INDEX homing sets HOMEPOS. -/
  | homeIndex (e : Env) (a : Fin 8)
  /-- HOME_FAIL (R320): HDIST is travelled without a Z edge and homing fails. -/
  | homeFail (e : Env) (a : Fin 8)
  /-- SESSION_OPEN (R341): Opens a session and returns its number, nonce and lease. -/
  | sessionOpen (e : Env) (m : Msg)
  /-- SESSION_CONFIRM (R341): Confirms a keyed session and starts its lease. -/
  | sessionConfirm (e : Env) (m : Msg)
  /-- SESSION_CLOSE (R341): Closes the session and sends its resources through the quarantine. -/
  | sessionClose (e : Env) (m : Msg)
  /-- HEARTBEAT (R346): Renews the lease only. -/
  | heartbeat (e : Env) (m : Msg)
  /-- REVOKE_SESSION (R383): Steward revokes a session into quarantine. -/
  | revokeSession (e : Env) (m : Msg)
  /-- REVOKE_UNIT (R383): Steward sends one unit through quarantine. -/
  | revokeUnit (e : Env) (m : Msg)
  /-- KEY_INSTALL (R344): Writes a root key and ceiling into a key slot. -/
  | keyInstall (e : Env) (m : Msg)
  /-- KEY_ERASE (R344): Clears a key slot and revokes sessions derived from it. -/
  | keyErase (e : Env) (m : Msg)
  /-- NET_SET (R515): Sets the address of a logical Ethernet port. -/
  | netSet (e : Env) (m : Msg)
  /-- CLAIM (R382): Claims resources all or none. -/
  | claim (e : Env) (m : Msg)
  /-- RELEASE (R382): Releases resources all or none. -/
  | release (e : Env) (m : Msg)
  /-- MEM_ALLOC (R348): Allocates zero-filled DRAM pages within the quota. -/
  | memAlloc (e : Env) (m : Msg)
  /-- MEM_FREE (R348): Frees owned, unpinned DRAM pages all or none. -/
  | memFree (e : Env) (m : Msg)
  /-- PT_SET (R348): Sets the session's page-table root and invalidates its translations. -/
  | ptSet (e : Env) (m : Msg)
  /-- TLB_INVAL (R351): Invalidates cached translations of a range. -/
  | tlbInval (e : Env) (m : Msg)
  /-- FAULT_RESUME (R353): Restarts a STALLED stream at the access it was fetching. -/
  | faultResume (e : Env) (m : Msg)
  /-- MEM_WRITE (R513): Writes bytes through the session's translation. -/
  | memWrite (e : Env) (m : Msg)
  /-- MEM_READ (R513): Reads bytes through the session's translation. -/
  | memRead (e : Env) (m : Msg)
  /-- CTX_LOAD (R516): Loads a program image into a FREE context. -/
  | ctxLoad (e : Env) (m : Msg)
  /-- CTX_ARM (R516): Arms the emergency context with registers from the payload. -/
  | ctxArm (e : Env) (m : Msg)
  /-- CTX_START (R516): Makes a context READY, or starts an ARMED emergency context. -/
  | ctxStart (e : Env) (m : Msg)
  /-- CTX_STOP (R516): Halts or frees a context, aborting any swath it owns. -/
  | ctxStop (e : Env) (m : Msg)
  /-- COMMIT (R370): Host request to commit the session's staged set at a line of a sequencer. -/
  | commit (e : Env) (m : Msg)
  /-- STAGE_DISCARD (R368): Drops the session's unsealed staged changes. -/
  | stageDiscard (e : Env) (m : Msg)
  /-- SNAPSHOT (R379): Writes one snapshot on demand with optional table ranges. -/
  | snapshot (e : Env) (m : Msg)
  /-- CAL_RESTORE (R453): Applies a saved calibration record under the contract. -/
  | calRestore (e : Env) (m : Msg)
  /-- CAL_LANE (R444): Starts lane equalisation calibration of a port. -/
  | calLane (e : Env) (m : Msg)
  /-- CAL_ALIGN (R445): Starts printed alignment of a sequencer with a camera. -/
  | calAlign (e : Env) (m : Msg)
  /-- CAL_DARK (R444): Starts black-level calibration of a camera. -/
  | calDark (e : Env) (m : Msg)
  /-- CAL_FLAT (R444): Starts flat-field calibration of a camera. -/
  | calFlat (e : Env) (m : Msg)
  /-- CAL_TEMPTRIM (R444): Starts die temperature sensor trim. -/
  | calTemptrim (e : Env) (m : Msg)
  /-- CAL_DRAMRT (R444): Starts retraining of a DRAM channel. -/
  | calDramrt (e : Env) (m : Msg)
  /-- CAL_ABORT (R442): Ends the calibration of a run slot before its result is applied. -/
  | calAbort (e : Env) (m : Msg)
  /-- CAL_DONE (R443): A calibration ends, tests plausibility and applies its result as one commit or nothing. -/
  | calDone (e : Env) (r : Fin 4) (lanes : List (BitVec 256 × BitVec 256))
  /-- CAL_TIMEOUT (R441): The calibration's TIMEOUT expires. -/
  | calTimeout (e : Env) (r : Fin 4)
  /-- REPAIR_ROW (R409): REPAIR OP 1 repairs a row at the next test window. -/
  | repairRow (e : Env) (m : Msg)
  /-- REPAIR_RETEST (R409): REPAIR OP 2 retests the row's slice and repairs on failure. -/
  | repairRetest (e : Env) (m : Msg)
  /-- NV_WRITE (R452): Writes a host record to the non-volatile store. -/
  | nvWrite (e : Env) (m : Msg)
  /-- NV_READ (R452): Reads a record of the non-volatile store. -/
  | nvRead (e : Env) (m : Msg)
  /-- FW_STAGE (R475): Copies, authenticates and writes a firmware image to the unused bank. -/
  | fwStage (e : Env) (m : Msg)
  /-- FW_SWITCH (R476): Waits for quiescence and restarts the management cores from the staged bank. -/
  | fwSwitch (e : Env) (m : Msg)
  /-- FW_PROBATION_END (R477): After 10 s of probation the new bank is kept or the device falls back. -/
  | fwProbationEnd (e : Env) (passed : Bool)
  /-- REG_READ (R513): Command that reads register words. -/
  | regRead (e : Env) (m : Msg)
  /-- REG_WRITE (R515): Command that writes register words in order, stopping at the first refusal. -/
  | regWrite (e : Env) (m : Msg)
  /-- AUTH_WRITE (R339): Authenticated write of one register reserved for critical writes. -/
  | authWrite (e : Env) (m : Msg)
  /-- REGISTER_WRITE (R508): Direct-session write to a register or table entry without a row of its own, including staging writes. -/
  | registerWrite (e : Env) (f : Fin 4) (addr : BitVec 27) (data : List Byte)
  /-- WINDOW_ACCESS (R331): Access to the BAR0 memory window through the direct session's translation. -/
  | windowAccess (e : Env) (f : Fin 4) (offset : BitVec 27) (write : Bool) (data : List Byte)
  /-- CMD_OVERRUN (R332): A CMDDB write while BUSY is ignored and reported. -/
  | cmdOverrun (e : Env) (n : Fin 256)
  /-- EVRD_WRITE (R486): Host moves its queue read index within the held records. -/
  | evrdWrite (e : Env) (n : Fin 256) (index : Fin 4096)
  /-- EVACK (R336): An Ifeud EVACK releases acknowledged event records. -/
  | evack (e : Env) (m : Msg) (index : Fin 4096)
  /-- EVENTS_SEND (R336): The device sends queued records in an EVENTS datagram. -/
  | eventsSend (e : Env) (n : Fin 256)
  /-- EVENTS_RESEND (R336): Unacknowledged records are resent after 10 ms. -/
  | eventsResend (e : Env) (n : Fin 256)
  /-- DATAGRAM_DISCARD (R334): A malformed or foreign Ifeud datagram is discarded and counted. -/
  | datagramDiscard (e : Env) (datagram : List Byte)
  /-- CARAVAN_START (R360): XLT.CVCTL START begins a chain for a stream that holds none. -/
  | caravanStart (e : Env) (w : Writer) (p : Fin 64) (va : BitVec 42)
  /-- CARAVAN_KICK (R356): XLT.CVCTL KICK makes the stream read the tail's NEXT again. -/
  | caravanKick (e : Env) (w : Writer) (p : Fin 64)
  /-- CARAVAN_CANCEL (R360): XLT.CVCTL CANCEL discards the chain at once. -/
  | caravanCancel (e : Env) (w : Writer) (p : Fin 64)
  /-- TABLE_WALK_DONE (R350): A translation walk completes, filling the cache or faulting. -/
  | tableWalkDone (e : Env) (host : DmaEnd)
  /-- LEASE_LAPSE (R346): LEASE ms pass without renewal and the session is closed into quarantine. -/
  | leaseLapse (e : Env) (n : Fin 256)
  /-- KENNEL_CUTOFF (R383): At 2 ms DMA still in flight is cut off. -/
  | kennelCutoff (e : Env) (n : Fin 256)
  /-- KENNEL_RELEASE (R383): At 20 ms pins end, release commits are made and resources return to the pool. -/
  | kennelRelease (e : Env) (n : Fin 256)
  /-- CONFIRM_TIMEOUT (R341): An OPENING session not confirmed within 1 s is closed. -/
  | confirmTimeout (e : Env) (n : Fin 256)
  /-- COMMIT_VALIDATE (R371): Validation of an accepted set completes or refuses it. -/
  | commitValidate (e : Env) (n : Fin 256)
  /-- CATCHUP_DONE (R375): Catch-up of a committed unit's staged bank ends. -/
  | catchupDone (e : Env) (u : Fin 101)
  /-- COMMIT_POINT (R374): At the commit point the whole staged set becomes live and the generation rises. -/
  | commitPoint (e : Env) (n : Fin 256)
  /-- COMMIT_TIMEOUT (R376): A request not committed within CTO is withdrawn. -/
  | commitTimeout (e : Env) (n : Fin 256)
  /-- SNAPSHOT_PERIODIC (R379): Every 1 ms a periodic snapshot is written to the next slot. -/
  | snapshotPeriodic (e : Env) (n : Fin 256)
  /-- DRAM_REFRESH (R397): A refresh interval elapses and the rank is refreshed or postponed. -/
  | dramRefresh (e : Env) (ch : Fin 4) (busy : Bool)
  /-- DRAM_TEMP_POLL (R397): Every 1 ms the DRAM temperature report sets the refresh rate. -/
  | dramTempPoll (e : Env) (ch : Fin 4) (hot : Bool)
  /-- DRAM_POWERDOWN (R398): An idle rank enters power-down after PDTIMER. -/
  | dramPowerdown (e : Env) (ch : Fin 4) (rank : Fin 2)
  /-- PATROL_SCRUB (R401): The patrol scrub reads a burst, correcting words and retiring pages. -/
  | patrolScrub (e : Env) (burst : BitVec 30) (corrected : Nat) (ue : Bool)
  /-- ZERO_FILL (R392): Background zero-fill of DRAM pages runs and completes. -/
  | zeroFill (e : Env) (page : BitVec 20)
  /-- ECC_WRITEBACK (R403): A corrected SRAM word is written back in an idle cycle. -/
  | eccWriteback (e : Env) (word : BitVec 24)
  /-- TABLE_HEAL (R406): A bad live table word is healed from its staged bank. -/
  | tableHeal (e : Env) (word : BitVec 24)
  /-- SHEEPDOG_WINDOW (R411): An in-service test window opens on the next slice with redirect and save. -/
  | sheepdogWindow (e : Env)
  /-- SHEEPDOG_WINDOW_END (R413): The window's test, repair and restore end and the redirect is removed. -/
  | sheepdogWindowEnd (e : Env) (fail : Option (BitVec 24 × Fin 72 × Fin 7))
  /-- DICT_TEST (R414): An engine's dictionary memory is taken out and tested. -/
  | dictTest (e : Env) (g : Fin 16)
  /-- DICT_TEST_DONE (R414): The dictionary test ends and the engine returns or stays out. -/
  | dictTestDone (e : Env) (g : Fin 16) (pass : Bool)
  /-- FLIP_ARM (R407): MEM.FLIPCTL write arms a one-shot flip mask. -/
  | flipArm (e : Env) (w : Writer) (ctl : Word)
  /-- ECC_WINDOW_END (R417): End of a 1 ms window posts counted corrected-error records. -/
  | eccWindowEnd (e : Env) (sram : Bool) (k : Fin 5)
  /-- PTP_SYNC (R429): A Sync or Follow_Up drives the servo to step or slew device time. -/
  | ptpSync (e : Env) (port : Fin 8) (domain : Fin 256) (ident : Word) (portNo : Fin 65536) (logInt : Int) (origin ingress correction : Int)
  /-- PTP_ANNOUNCE (R425): An Announce is used by the best master algorithm. -/
  | ptpAnnounce (e : Env) (port : Fin 8) (domain : Fin 256) (ident : Word) (portNo : Fin 65536) (prio : List Nat) (steps : Nat) (logInt : Int) (utcOff : Int) (ptpTs : Bool)
  /-- PTP_DELAY_RESP (R425): A Delay_Resp or Pdelay response updates the path delay. -/
  | ptpDelayResp (e : Env) (port : Fin 8) (domain : Fin 256) (seqId : Nat) (t1 t2 t3 t4 : Int)
  /-- PTP_PDELAY_REQ (R428): A received Pdelay_Req is answered one-step. -/
  | ptpPdelayReq (e : Env) (port : Fin 8) (domain : Fin 256) (seqId : Nat) (ingress : Int)
  /-- PTP_DELAY_REQ_SEND (R428): At its interval the device sends a Delay_Req or Pdelay_Req. -/
  | ptpDelayReqSend (e : Env)
  /-- PTP_DISCARD (R426): An unsupported or foreign PTP message is discarded. -/
  | ptpDiscard (e : Env)
  /-- SYNC_TIMEOUT (R431): No Sync for SYNCTO intervals enters HOLDOVER. -/
  | syncTimeout (e : Env)
  /-- ANNOUNCE_TIMEOUT (R431): The Announce receipt timeout enters HOLDOVER. -/
  | announceTimeout (e : Env)
  /-- PTP_LINK_LOSS (R431): The PTP port loses its link and enters HOLDOVER. -/
  | ptpLinkLoss (e : Env)
  /-- TIME_SET (R432): TIM.SETNS steps device time by hand. -/
  | timeSet (e : Env) (w : Writer) (ns : BitVec 32)
  /-- NOWSEC_READ (R424): A read of TIM.NOWSEC latches the nanoseconds of the same tick. -/
  | nowsecRead (e : Env)
  /-- FEED_MONITOR_SAMPLE (R459): Every 10 µs feed voltage and current are sampled and checked. -/
  | feedMonitorSample (e : Env) (f : Fin 14) (mv cur : Fin 65536)
  /-- FEED_TRIP (R461): A feed trips; SHARED load moves or a STANDBY switch-over begins with hold. -/
  | feedTrip (e : Env) (f : Fin 14)
  /-- GAP_RELEASE (R461): The rail in window for 200 ns releases hold and time is compensated. -/
  | gapRelease (e : Env)
  /-- FEED_FAIL (R459): A feed outside the window for 100 µs becomes FAILED. -/
  | feedFail (e : Env) (f : Fin 14)
  /-- FEED_SYNC (R465): A feed in window 100 ms becomes STANDBY. -/
  | feedSync (e : Env) (f : Fin 14)
  /-- SHARE_IMBAL (R460): A SHARED imbalance lasting 1 s is reported. -/
  | shareImbal (e : Env) (r : Fin 7)
  /-- LOAD_TRANSFER_TEST (R464): Every TESTH hours a standby feed is proven under load. -/
  | loadTransferTest (e : Env) (r : Fin 7)
  /-- LOAD_TRANSFER_END (R464): After 10 ms the test passes or fails the standby feed. -/
  | loadTransferEnd (e : Env) (r : Fin 7) (pass : Bool)
  /-- FEED_RESHARE (R465): PWS.FEEDCTL RESHARE rejoins a rail's repaired feed. -/
  | feedReshare (e : Env) (w : Writer) (r : Fin 7)
  /-- VSAFE_TEST (R468): PWS.FEEDCTL VSTEST transfers the island to the unselected feed. -/
  | vsafeTest (e : Env) (w : Writer) (stay : Bool)
  /-- VSAFE_TEST_END (R468): After 10 s the VSAFE test ends with its result. -/
  | vsafeTestEnd (e : Env) (res : Fin 3)
  /-- PWS_CLRCNT (R481): PWS.FEEDCTL CLRCNT clears the rail counts. -/
  | pwsClrcnt (e : Env) (w : Writer) 
  /-- VSAFE_LOST (R467): Both VSAFE feeds are lost and the safe island stops. -/
  | vsafeLost (e : Env)
  /-- VSAFE_RESTORE (R467): A VSAFE feed in window 10 ms restarts the island with zero counts. -/
  | vsafeRestore (e : Env)
  /-- REFCLK_LOST (R470): REFCLK out of tolerance applies a fail-safe cause. -/
  | refclkLost (e : Env)
  /-- REFCLK_RESTORE (R470): REFCLK valid 10 ms relocks the PLLs and clears the cause. -/
  | refclkRestore (e : Env)
  /-- DIE_SENSOR_SAMPLE (R474): Die sensors are sampled every 1 ms, posting DIE_WARM or applying DIE_HOT. -/
  | dieSensorSample (e : Env) (readings : Vector Int 16)
  /-- BOARD_SENSOR_SAMPLE (R474): Board diodes are sampled every 10 ms and BOARD_TEMP posted. -/
  | boardSensorSample (e : Env) (td0 td1 : Int) (v0 v1 : Bool)
  /-- THERMTRIP (R474): At 125 °C THERMTRIP_n falls and a latch is set. -/
  | thermtrip (e : Env)
  /-- COLD_START (R472): PORST_n rises and cold start runs its steps. -/
  | coldStart (e : Env) (bifPins : Fin 4) (chCap : Nat) (ranks : Fin 2) (mts : Nat) (lanes : List (BitVec 256 × BitVec 256)) (vsafeA : Bool) (bankOk : Vector Bool 2) (ver : Vector (Fin 65536) 2) (badRows : List Nat)
  /-- WARM_RESET (R498): WRST_n low resets the data and management planes. -/
  | warmReset (e : Env) (bankOk : Bool) (badRows : List Nat)
  /-- DEVICE_READY (R472): Cold or warm start completes and the device reaches READY. -/
  | deviceReady (e : Env)
  /-- PERST (R471): A PCIe segment reset quarantines the function's sessions. -/
  | perst (e : Env) (f : Fin 4)
  /-- MGMT_LOST (R493): No management heartbeat for 500 ms applies MGMT_LOST. -/
  | mgmtLost (e : Env)
  /-- MGMT_RESUME (R347): The management plane resumes and held requests and leases restart. -/
  | mgmtResume (e : Env)
  /-- EVQ_GAP (R488): With two free slots after a loss, a GAP record is written. -/
  | evqGap (e : Env) (n : Fin 256)
  /-- MSIX_UNMASK (R519): Clearing a mask sends pending MSI-X messages. -/
  | msixUnmask (e : Env) (f : Fin 4) (v : Option (Fin 2048))
  /-- SSI_DATA_READY (R150): The SSI data line goes high within SSITO and the device clocks the frame's NBITS + 1 periods. -/
  | ssiDataReady (e : Env) (c : Fin 4)
  /-- CRUISE (R313): The ramp reaches the velocity in force and the axis enters CRUISE. -/
  | cruise (e : Env) (a : Fin 8)
  /-- PRBS_RUN_START (R238): 2 µs after the K29.7 of the HWRITE that sets PRBSRUN, both ends switch the lane to raw PRBS. -/
  | prbsRunStart (e : Env) (p : Fin 64)
  /-- HEAD_SYMBOL_ALIGNMENT (R211): The head-side receiver gains symbol alignment from K28.5 and begins upstream IDLE, then telemetry within 10 µs. -/
  | headSymbolAlignment (e : Env) (p : Fin 64) (offset : Fin 10)
  /-- HEAD_POWER_UP (R225): A head powers up with both banks invalid, treating any fire symbol as DOUBT until SYNC. -/
  | headPowerUp (e : Env) (p : Fin 64) (hid0 hid1 hcap : Word) (rowmap : SMap Nat)
  /-- NET_ADDRESS_CHANGE (R515): 1 ms after the NET_SET response the new address of port q takes effect and Ifeud sessions bound to the old address enter quarantine. -/
  | netAddressChange (e : Env) (port : Fin 8)
  /-- PORST_N_LOW (R471): PORST_n low resets the whole device, safe island included. -/
  | porstNLow (e : Env)
  /-- DMA_READ_COMPLETION (R333): A device read of host memory or DRAM completes, delivering Dune or descriptor bytes to the stream buffer or, on a completion timeout, UR, CA, poison or DRAM_UE, a HOSTERR fault that stalls the stream. -/
  | dmaReadCompletion (e : Env) (p : Fin 64) (res : DmaEnd)
deriving DecidableEq, Repr, Inhabited

end Sys2Proof
end

