-- ==== Sys2Proof/Decode.lean ====
section
/-! DEFINITION. The commands that a word spells by the opcode table's bits: no row of the table gives bits. -/
namespace Sys2Proof
open Sys2Proof.Machine

/-- The command a word of nbits bits spells. The opcode table lists the commands by name alone and gives no row any
bits (Ramest words are data that the sequencers fetch: Sys2Proof.Machine.Operands decodes them), so no word spells one.
[log 3: DESIGN CHOICE] -/
def decodeTableWord (_nbits _w : Nat) : Option Instr := none

end Sys2Proof
end

