-- ==== Sys2Proof/Config.lean ====
section
/-! DEFINITION. What one device fixes that the spec leaves to it, and the free values: opaque constants, of which nothing is known. -/
namespace Sys2Proof.Config
open Sys2Proof

/-- The device serial number of GLB.SERIAL (18 R509: per device). A free value. -/
opaque serial : Word

/-- The random bytes of the k-th device nonce (11 R341, R343). A free value per draw. -/
opaque nonce : Nat → BitVec 128

/-- OP in the header of an EVENTS message (11 R336, R337): no opcode is named for it. A free value. -/
opaque eventsOp : Nat

/-- The authenticity check of a firmware image (16 R475), by outside standards: left free.
[log 10: DESIGN CHOICE] -/
opaque imageAuthentic : List Byte → Bool

/-- The version number a firmware image carries (16 R475). Left free: the image's layout is not given.
[log 10: DESIGN CHOICE] -/
opaque imageVersion : List Byte → Nat

/-- Which SRAM word holds the table word at a BAR0 address, in the live bank or (true) the staged one (13 R402 gives the
partitions and not the layout inside them): left free.
[log 107: DESIGN CHOICE] -/
opaque tableIndex : Nat → Bool → Nat

/-- Which SRAM word holds a word of the program store, or (true) of the context store (13 R402 gives the partitions and
not the layout inside them): left free.
[log 107: DESIGN CHOICE] -/
opaque storeIndex : Nat → Bool → Nat

/-- Which SRAM word holds the tag of slot k of ring p (13 R402 gives the rings' places and not the tags'): left free.
[log 107: DESIGN CHOICE] -/
opaque tagIndex : Nat → Nat → Nat

/-- The first of the 16,384 SRAM words of one of the two energy copies of port p (06 R182; 13 R402 gives the partition and not
the layout inside it): left free.
[log 107: DESIGN CHOICE] -/
opaque energyIndex : Nat → Bool → Nat

/-- The SRAM word that holds the counter of session n (13 R402 gives the partitions and not the layout inside them): left free.
[log 107: DESIGN CHOICE] -/
opaque sessionIndex : Nat → Nat
/-- Whether word k of that memory is working memory of the management cores: left free.
[log 107: DESIGN CHOICE] -/
opaque isWork : Nat → Bool

/-- Whether an error of three or more flipped bits is detected (13 R403, R407 give the code's properties for one and two
bits only): left free. Arguments: data mask, check mask.
[log 107: DESIGN CHOICE] -/
opaque flipDetected : Nat → Nat → Bool

/-- The data that an undetected error of three or more bits reads as: the stored data, data mask, check mask. Left free.
[log 107: DESIGN CHOICE] -/
opaque flipData : Nat → Nat → Nat → Nat

/-- Whether a row of the SRAM (key 512·macro + row) is repaired by fuse, and the spare columns used (13 R408: per device). Free. -/
opaque fusedRow : Nat → Bool
opaque fusedCols : Nat

/-- Whether the k-th check of a slot just written to the non-volatile store passes (15 R451). A free value.
[log 133: DESIGN CHOICE] -/
opaque nvCheck : Nat → Bool

/-- The code stream (payload and number of codes) that the coding engine emits for a block of bytes (08 R273: the parse is
the encoder's own). Left free; the model uses it only where it decodes to the block and keeps the rate rule.
[log 63: DESIGN CHOICE] -/
opaque codeStream : List Byte → List Byte × Nat

/-- The neighbour above and below a frame of one line in column x (08 R268 gives its mirror image, which such a frame
does not have). Left free.
[log 62: DESIGN CHOICE] -/
opaque edgePixel : Nat → BitVec 16

/-- Item k of the PARAM bytes of an ALIGN calibration, in the order NMARK, BG, MINMASS, I, PPL, PPP, STEPN, XDIR, YDIR,
SHIFTEN, MAXDD, MAXSHIFT, RESMAX (15 R445 names the items and not where they lie): left free.
[log 123: DESIGN CHOICE] -/
opaque alignParam : List Byte → Nat → Nat

/-- The delay code that a training sweep without a passing code leaves in force (13 R393 gives none). Left free.
[log 111: DESIGN CHOICE] -/
opaque noCentre : Fin 256

/-- A value the spec leaves undefined, the k-th one drawn.
[log 9: DESIGN CHOICE] -/
opaque freeWord : Nat → Word

end Sys2Proof.Config
end

