-- ==== Sys2Proof/Machine/Crypto.lean ====
section
/-! DEFINITION. CRC-32C (04 R110), SHA-256, HMAC and HKDF, by which tags and session keys are computed (11 R338, R343), and AES-256-GCM, by
which a root key travels (11 R344). -/
namespace Sys2Proof.Machine
open Sys2Proof

/-- Eight steps of the reflected CRC register with polynomial 0x1EDC6F41 (bit-reversed 0x82F63B78). -/
def crcStep : Nat → Nat → Nat
  | 0, c => c
  | k + 1, c => crcStep k (if c % 2 = 1 then (c / 2) ^^^ 0x82F63B78 else c / 2)

/-- CRC-32C (04 R110): reflected in and out, initial value and final XOR all ones. -/
def crc32c (l : List Byte) : Nat :=
  (l.foldl (fun c b => crcStep 8 (c ^^^ b.toNat)) 0xFFFFFFFF) ^^^ 0xFFFFFFFF

/-- The round constants of SHA-256 (FIPS 180-4). -/
def shaK : List Nat :=
  [0x428a2f98,0x71374491,0xb5c0fbcf,0xe9b5dba5,0x3956c25b,0x59f111f1,0x923f82a4,0xab1c5ed5,
   0xd807aa98,0x12835b01,0x243185be,0x550c7dc3,0x72be5d74,0x80deb1fe,0x9bdc06a7,0xc19bf174] ++
  [0xe49b69c1,0xefbe4786,0x0fc19dc6,0x240ca1cc,0x2de92c6f,0x4a7484aa,0x5cb0a9dc,0x76f988da,
   0x983e5152,0xa831c66d,0xb00327c8,0xbf597fc7,0xc6e00bf3,0xd5a79147,0x06ca6351,0x14292967] ++
  [0x27b70a85,0x2e1b2138,0x4d2c6dfc,0x53380d13,0x650a7354,0x766a0abb,0x81c2c92e,0x92722c85,
   0xa2bfe8a1,0xa81a664b,0xc24b8b70,0xc76c51a3,0xd192e819,0xd6990624,0xf40e3585,0x106aa070] ++
  [0x19a4c116,0x1e376c08,0x2748774c,0x34b0bcb5,0x391c0cb3,0x4ed8aa4a,0x5b9cca4f,0x682e6ff3,
   0x748f82ee,0x78a5636f,0x84c87814,0x8cc70208,0x90befffa,0xa4506ceb,0xbef9a3f7,0xc67178f2]

/-- The initial hash value of SHA-256. -/
def shaInit : List (BitVec 32) :=
  [0x6a09e667, 0xbb67ae85, 0x3c6ef372, 0xa54ff53a, 0x510e527f, 0x9b05688c, 0x1f83d9ab, 0x5be0cd19]

/-- A big-endian number of a list of bytes. -/
def beNat (l : List Byte) : Nat := l.foldl (fun a b => 256 * a + b.toNat) 0

/-- The n big-endian bytes of a number. -/
def toBE (n v : Nat) : List Byte := (toLE n v).reverse

/-- The message schedule: the last 16 words (newest first) extended n times. -/
def shaSchedule : Nat → List (BitVec 32) → List (BitVec 32)
  | 0, w => w
  | n + 1, w =>
    let a := w.getD 14 0
    let b := w.getD 1 0
    let s0 := a.rotateRight 7 ^^^ a.rotateRight 18 ^^^ (a >>> 3)
    let s1 := b.rotateRight 17 ^^^ b.rotateRight 19 ^^^ (b >>> 10)
    shaSchedule n ((w.getD 15 0 + s0 + w.getD 6 0 + s1) :: w)

/-- One round over the eight working words. -/
def shaRound (h : List (BitVec 32)) (kw : BitVec 32 × BitVec 32) : List (BitVec 32) :=
  match h with
  | [a, b, c, d, e, f, g, hh] =>
    let s1 := e.rotateRight 6 ^^^ e.rotateRight 11 ^^^ e.rotateRight 25
    let ch := (e &&& f) ^^^ (~~~ e &&& g)
    let t1 := hh + s1 + ch + kw.1 + kw.2
    let s0 := a.rotateRight 2 ^^^ a.rotateRight 13 ^^^ a.rotateRight 22
    let mj := (a &&& b) ^^^ (a &&& c) ^^^ (b &&& c)
    [t1 + s0 + mj, a, b, c, d + t1, e, f, g]
  | _ => h

/-- The words of a 64-byte block, first to last. -/
def blockWords : Nat → List Byte → List (BitVec 32)
  | 0, _ => []
  | n + 1, l => BitVec.ofNat 32 (beNat (l.take 4)) :: blockWords n (l.drop 4)

/-- One block into the hash. -/
def shaBlock (h : List (BitVec 32)) (blk : List Byte) : List (BitVec 32) :=
  let w := (shaSchedule 48 (blockWords 16 blk).reverse).reverse
  let r := ((shaK.map (BitVec.ofNat 32)).zip w).foldl shaRound h
  (h.zip r).map (fun p => p.1 + p.2)

/-- n blocks of a padded message. -/
def shaBlocks : Nat → List (BitVec 32) → List Byte → List (BitVec 32)
  | 0, h, _ => h
  | n + 1, h, l => shaBlocks n (shaBlock h (l.take 64)) (l.drop 64)

/-- SHA-256. -/
def sha256 (m : List Byte) : List Byte :=
  let padded := m ++ [0x80] ++ zeros ((119 - m.length % 64) % 64) ++ toBE 8 (8 * m.length)
  (shaBlocks (padded.length / 64) shaInit padded).flatMap (fun w => toBE 4 w.toNat)

/-- HMAC-SHA-256. -/
def hmac (key m : List Byte) : List Byte :=
  let k := padTo 64 (if key.length ≤ 64 then key else sha256 key)
  sha256 (k.map (· ^^^ 0x5c) ++ sha256 (k.map (· ^^^ 0x36) ++ m))

/-- The first 32 bytes of HKDF-SHA-256 (RFC 5869): extract, then one block of expand. -/
def hkdf (salt ikm info : List Byte) : List Byte :=
  hmac (hmac (if salt.isEmpty then zeros 32 else salt) ikm) (info ++ [1])

/-! ## AES-256-GCM (FIPS 197, NIST SP 800-38D) -/

/-- A byte times x in the field of AES. -/
def aesDouble (b : Nat) : Nat := if b < 128 then 2 * b else (2 * b) ^^^ 0x11B

/-- n steps of the product of two bytes, by the bits of `a`. -/
def aesMulSteps : Nat → Nat → Nat → Nat
  | 0, _, _ => 0
  | n + 1, a, b => (if a % 2 = 1 then b else 0) ^^^ aesMulSteps n (a / 2) (aesDouble b)
def aesMul (a b : Nat) : Nat := aesMulSteps 8 a b

/-- The inverse of a byte, as its 254th power; 0 for 0. -/
def aesInv (b : Nat) : Nat :=
  (List.range 6).foldl (fun r _ => aesMul (aesMul r r) b) b |> fun r => aesMul r r

/-- SubBytes of one byte. -/
def aesSub (b : Nat) : Nat :=
  let i := aesInv b
  let turn := fun k => (i * 2 ^ k % 256) ||| (i * 2 ^ k / 256)
  i ^^^ turn 1 ^^^ turn 2 ^^^ turn 3 ^^^ turn 4 ^^^ 0x63

/-- Two lists of bytes added. -/
def xorAll (a b : List Nat) : List Nat := List.zipWith (· ^^^ ·) a b

/-- Round constants 1 to 7. -/
def aesRcon (i : Nat) : Nat := 2 ^ (i - 1)

/-- The key schedule: words of 4 bytes, newest first, n more of them, of which the next has number i. -/
def aesExpand : Nat → Nat → List (List Nat) → List (List Nat)
  | 0, _, w => w
  | n + 1, i, w =>
    let t := w.getD 0 []
    let t := if i % 8 = 0 then xorAll ((t.drop 1 ++ t.take 1).map aesSub) [aesRcon (i / 8), 0, 0, 0]
      else if i % 8 = 4 then t.map aesSub else t
    aesExpand n (i + 1) (xorAll (w.getD 7 []) t :: w)

/-- A list cut into pieces of k, n of them. -/
def pieces (k : Nat) : Nat → List Nat → List (List Nat)
  | 0, _ => []
  | n + 1, l => l.take k :: pieces k n (l.drop k)

/-- The 15 round keys. -/
def aesKeys (key : List Nat) : List (List Nat) := pieces 16 15 (aesExpand 52 8 (pieces 4 8 key).reverse).reverse.flatten

/-- SubBytes and ShiftRows of a state in column order. -/
def aesShift (l : List Nat) : List Nat := (List.range 16).map (fun i => aesSub (l.getD ((i + 4 * (i % 4)) % 16) 0))

/-- MixColumns of one column. -/
def aesMix (c : List Nat) : List Nat :=
  (List.range 4).map (fun i =>
    aesMul 2 (c.getD i 0) ^^^ aesMul 3 (c.getD ((i + 1) % 4) 0) ^^^ c.getD ((i + 2) % 4) 0 ^^^ c.getD ((i + 3) % 4) 0)

/-- AES-256 of one block. -/
def aesBlock (key block : List Nat) : List Nat :=
  let ks := aesKeys key
  let s := (((ks.drop 1).take 13)).foldl (fun s k => xorAll (((pieces 4 4 (aesShift s)).map aesMix).flatten) k)
    (xorAll block (ks.getD 0 []))
  xorAll (aesShift s) (ks.getD 14 [])

/-- A number of n big-endian bytes as a list, and back. -/
def beList (n v : Nat) : List Nat := (toBE n v).map (·.toNat)
def ofBeList (l : List Nat) : Nat := l.foldl (fun a b => 256 * a + b) 0

/-- n steps of the product of two blocks in the field of GHASH, from the highest bit of x. -/
def ghashSteps : Nat → Nat → Nat → Nat → Nat
  | 0, _, _, z => z
  | n + 1, x, v, z =>
    ghashSteps n x (if v % 2 = 1 then (v / 2) ^^^ (0xE1 * 2 ^ 120) else v / 2) (if x.testBit n then z ^^^ v else z)
def ghashMul (x v : Nat) : Nat := ghashSteps 128 x v 0

/-- GHASH of whole blocks under h. -/
def ghash (h : Nat) (blocks : List Nat) : Nat := blocks.foldl (fun y b => ghashMul (y ^^^ b) h) 0

/-- Blocks of 16 bytes, the last filled with zeros, as numbers. -/
def blockNums (l : List Nat) : List Nat :=
  (pieces 16 ((l.length + 15) / 16) l).map (fun b => ofBeList (b ++ List.replicate (16 - b.length) 0))

/-- AES-256-GCM decryption without further data (11 R344): the key, a 12-byte nonce, the bytes and a 16-byte tag; none where the
tag does not match. -/
def gcmOpen (key nonce body tag : List Byte) : Option (List Byte) :=
  let k := key.map (·.toNat)
  let ctr := fun i => aesBlock k (nonce.map (·.toNat) ++ beList 4 (i + 1))
  let c := body.map (·.toNat)
  let h := ofBeList (aesBlock k (List.replicate 16 0))
  let t := xorAll (ctr 0) (beList 16 (ghash h (blockNums c ++ [8 * c.length])))
  if tag.map (·.toNat) = t then
    some ((xorAll c (((List.range ((c.length + 15) / 16)).map (fun i => ctr (i + 1))).flatten)).map (BitVec.ofNat 8))
  else none

/-- The bytes of an ASCII text. -/
def ascii (t : String) : List Byte := t.toList.map (fun c => BitVec.ofNat 8 c.toNat)

end Sys2Proof.Machine
end

