-- ==== Sys2Proof/Machine/State.lean ====
section
/-! DEFINITION. The state of the block: every register, queue, buffer, counter, mode and pin the spec gives it, as plain data; reset; faults and refusals. -/
namespace Sys2Proof.Machine
open Sys2Proof

/-! ## Sequencers (02, 03) -/

/-- Context states (02 R29). -/
inductive CtxSt where
  | free | loaded | armed | ready | running | waiting | halted | faulted
deriving DecidableEq, Repr, Inhabited

/-- Kinds of a line-queue entry (02 R39). -/
inductive LnKind where
  | lines | blank | spit
deriving DecidableEq, Repr, Inhabited

/-- A line-queue entry: kind, line events left, spit pattern (03 R80). -/
structure LnEntry where
  kind : LnKind := .lines
  left : Nat := 0
  pat : Nat := 0
deriving DecidableEq, Repr, Inhabited

/-- What a pending wait waits for (03 R73, R79, R81, R84-R87; `closing` is the wait of halt). -/
inductive WaitKind where
  | pos (c : Nat) (target : Int) (atMost : Bool)
  | tick (t : Nat)
  | devTime (packed : Nat)
  | ev (mask : Nat) (all clear : Bool)
  | ax (a : Nat)
  | fence (l c m k : Bool)
  | append (e : LnEntry)
  | endswath
  | closing
deriving DecidableEq, Repr, Inhabited

/-- A pending wait: what for, and the tick in which its timeout expires (03 R83). -/
structure Wait where
  kind : WaitKind
  deadline : Option Nat
deriving DecidableEq, Repr, Inhabited

/-- One of the 64 contexts of a sequencer (02 R28, R29). -/
structure Ctx where
  st : CtxSt := .free
  prio : Nat := 0
  attr : Nat := 0
  session : Nat := 0
  err : Nat := 0
  nwords : Nat := 0
  entry : Nat := 0
  pc : Nat := 0
  g : Vector Word 16 := Vector.replicate 16 0
  z : Bool := false
  n : Bool := false
  c : Bool := false
  t : Bool := false
  stack : List Nat := []
  wait : Option Wait := none
  readyAt : Nat := 0
  axes : List Nat := []
deriving DecidableEq, Repr, Inhabited

/-- What the dispatcher is doing (02 R36): nothing, saving the resident context, or restoring one. -/
inductive Disp where
  | idle
  | saving (since : Nat)
  | restoring (c : Nat) (since : Nat)
deriving DecidableEq, Repr, Inhabited

/-- A run of lines with one cause (17 R538): first line, its time-stamp, and the count. -/
structure Run where
  first : Nat := 0
  time : Word := 0
  count : Nat := 0
deriving DecidableEq, Repr, Inhabited

/-- Swath states (02 R27). -/
inductive SwSt where
  | closed | opened
deriving DecidableEq, Repr, Inhabited

/-- States of a ring slot (04). -/
inductive SlotSt where
  | free | pending | valid
deriving DecidableEq, Repr, Inhabited

/-- A ring slot: line tag, packing, state and the line's packed bytes (04 R102, R111). -/
structure Slot where
  st : SlotSt := .free
  line : Nat := 0
  pack : Nat := 0
  data : List Byte := []
deriving DecidableEq, Repr, Inhabited

/-- A line ring: base B, the slots that are not FREE, the line whose read point has passed, the LATE run, and its
uncorrectable words: 384·slot + word, and 98304 + slot for a slot's tag (04 R102-R108). -/
structure Ring where
  base : Nat := 0
  slots : SMap Slot := []
  readDone : Option Nat := none
  lateRun : Option Run := none
  bad : List Nat := []
deriving DecidableEq, Repr, Inhabited

/-- What the line events of one tick changed in a sequencer, as it stood before them: an abort in that tick wins and takes
it back (02 R42). The rings are (port, base, slot of the line, read-done line). -/
structure LineUndo where
  at_ : Nat := 0
  lnq : List LnEntry := []
  ln : Nat := 0
  nEvents : Nat := 0
  nUnder : Nat := 0
  nLate : Nat := 0
  nOther : Nat := 0
  otherLn : Option Nat := none
  lastStamp : Word := 0
  underrun : Option Run := none
  overRun : Option Run := none
  speedRun : Option Run := none
  overrun : Nat := 0
  overspeed : Nat := 0
  lastFire : Option Nat := none
  rings : List (Nat × Ring) := []
deriving DecidableEq, Repr, Inhabited

/-- A sequencer's own state (02 R25-R53, 03 R75-R82). `setNow` holds the event bits set in tick `setAt` (03 R86), `doneAt`
the instant in which the swath's last line was sent, `aborted` the instant and the owner of the latest abort, `printed` the
instant and the context of the latest append (03 R79). -/
structure Seq where
  swst : SwSt := .closed
  doubt : Bool := false
  doubtAt : Nat := 0
  resident : Option Nat := none
  disp : Disp := .idle
  lastRan : Vector Nat 4 := Vector.replicate 4 63
  freeAt : Nat := 0
  lnq : List LnEntry := []
  ln : Nat := 0
  swCnt : Nat := 0
  sw : Nat := 0
  owner : Option Nat := none
  abortRec : Word := 0
  faultRec : Word := 0
  evbits : Nat := 0
  commitRec : Word := 0
  commitBy : Option Nat := none
  pitch : Nat := 0
  rowdly : Nat := 0
  bandMode : Nat := 0
  swF : Nat := 0
  swP0 : Int := 0
  swPitch : Nat := 0
  swRowdly : Nat := 0
  swEnc : Nat := 0
  swBack : Bool := false
  swNoInterp : Bool := false
  swMinPer : Nat := 6250
  swPorts : List Nat := []
  excluded : List Nat := []
  gone : List Nat := []
  nLate : Nat := 0
  nUnder : Nat := 0
  nOther : Nat := 0
  otherLn : Option Nat := none
  nEvents : Nat := 0
  lastStamp : Word := 0
  underrun : Option Run := none
  readLn : Option Nat := none
  swD : SMap Nat := []
  moved : List Nat := []
  setAt : Nat := 0
  setNow : Nat := 0
  doneAt : Nat := 0
  aborted : Option (Nat × Nat) := none
  printed : Option (Nat × Nat) := none
  lineUndo : Option LineUndo := none
deriving DecidableEq, Repr, Inhabited

/-! ## Line data path (04) -/

/-- Stream states (04 R133). -/
inductive StrSt where
  | idle | fetch | waitRing | waitEng | decode | stalled | stopped
deriving DecidableEq, Repr, Inhabited

/-- A Dune header as read (04 R110). -/
structure Dune where
  addr : Nat := 0
  first : Nat := 0
  lines : Nat := 0
  pack : Nat := 0
  stored : Bool := false
  clen : Nat := 0
  ncodes : Nat := 0
  ucrc : Nat := 0
deriving DecidableEq, Repr, Inhabited

/-- What a stream reads next within its chain (04 R96, R120; 11 R354). -/
inductive StrStep where
  | none
  | descriptor (va : Nat)
  | next
  | extent (pos left : Nat)
  | indexBlock (va : Nat)
  | indexEntry (va i : Nat)
deriving DecidableEq, Repr, Inhabited

/-- The descriptor in hand (11 R354). -/
structure Desc where
  va : Nat := 0
  walk : Bool := false
  notify : Bool := false
  tag : Nat := 0
  s : Nat := 0
  e : Nat := 0
  next : Nat := 0
deriving DecidableEq, Repr, Inhabited

/-- An index entry in hand (04 R119): first line, lines, format byte, address, length in 16-byte units. -/
structure IxEntry where
  first : Nat := 0
  lines : Nat := 0
  fmt : Nat := 0
  addr : Nat := 0
  len16 : Nat := 0
deriving DecidableEq, Repr, Inhabited

/-- A DMA read in flight (11 R355): address and length, where they translate to, whether its bytes will be
discarded, and whether it used a translation that has been invalidated since (11 R351). -/
structure DmaRead where
  va : Nat := 0
  len : Nat := 0
  dram : Bool := false
  addr : Nat := 0
  fn : Nat := 0
  dead : Bool := false
  old : Bool := false
deriving DecidableEq, Repr, Inhabited

/-- An input stream (04 R96-R101, R132, R133) with its Caravan (11 R354-R356): `reached` says that its index walk has come
to the first entry whose lines reach S, and a Dune of `doneLines` lines from `doneFirst` became VALID last, at `doneAt`.
[log 28: DEDUCED] -/
structure Stream where
  en : Bool := false
  haltErr : Bool := false
  st : StrSt := .stopped
  beforeStall : StrSt := .idle
  chain : Nat := 0
  startVa : Nat := 0
  tail : Nat := 0
  count : Nat := 0
  desc : Option Desc := none
  step : StrStep := .none
  entry : Option IxEntry := none
  block : List IxEntry := []
  blockNext : Nat := 0
  blockLast : Nat := 0
  dune : Option Dune := none
  reached : Bool := false
  fetched : List Byte := []
  issued : Nat := 0
  reads : List DmaRead := []
  lastLine : Option Nat := none
  eng : Nat := 0
  engEcc : Nat := 0
  fetchAgain : Bool := false
  doneAt : Nat := 0
  doneFirst : Nat := 0
  doneLines : Nat := 0
  consumed : Bool := false
  fresh : Bool := true
  lastByte : Nat := 0
  cnt : Nat := 0
  late : Nat := 0
  lateArr : Nat := 0
  duneErr : Nat := 0
  ringUe : Nat := 0
  subLost : Nat := 0
  skipped : Nat := 0
  slow : Nat := 0
  faultRec : Word := 0
deriving DecidableEq, Repr, Inhabited

/-- A decompression engine (04 R122-R124, 13 R414). -/
structure Engine where
  owner : Option Nat := none
  out : Bool := false
  testing : Option Nat := none
  dictAt : Nat := 0
  doneAt : Nat := 0
  freeAt : Nat := 0
deriving DecidableEq, Repr, Inhabited

/-! ## Position (05) -/

/-- Motion status of an encoder channel (05 R147). -/
inductive EncSt where
  | still | starting | moving
deriving DecidableEq, Repr, Inhabited

/-- What the SSI interface of a channel is doing (05 R149, R150). -/
inductive SsiSt where
  | idle
  | waiting (since : Nat)
  | clocking (sample : Nat)
deriving DecidableEq, Repr, Inhabited

/-- A line of a swath that the placer has decided and whose symbols are not all sent (05 R157, 06 R174-R177):
the line, its kind, the instant of row trigger 0 on the pins, whether row trigger 0 is blank, the next row trigger,
for each later one already decided its instant and whether it is blank, and the instant of its LINE_EVENT. -/
structure Sched where
  line : Nat := 0
  kind : LnKind := .lines
  blank : Bool := false
  fireAt : Nat := 0
  sent0 : Bool := false
  counted : Bool := false
  rows : SMap (Nat × Bool) := []
  next : SMap Nat := []
  at_ : Nat := 0
deriving DecidableEq, Repr, Inhabited

/-- A counted edge or SSI frame on its way to the placer (05 R163): the count after it, when its edge was at the
pins, PERIOD, direction and status in that sample, and whether the edge is an advancing one (05 R145). -/
structure Sample where
  count : Int := 0
  at_ : Nat := 0
  period : Nat := 0
  back : Bool := false
  moving : Bool := false
  adv : Bool := false
  ssi : Bool := false
deriving DecidableEq, Repr, Inhabited

/-- The values of an encoder channel that LCLK has a copy of (05 R148, R154, R163, R170). -/
structure EncVal where
  count : Int := 0
  back : Bool := false
  st : EncSt := .still
  period : Nat := 0
  lastAdv : Option Nat := none
  los : Bool := false
  ssiErr : Bool := false
  qerr : Nat := 0
  revPos : Int := 0
  zLatch : Int := 0
deriving DecidableEq, Repr, Inhabited

/-- An encoder channel in SCLK (05 R140-R154, R170), and the copy of its values that has reached LCLK. Positions are 48-bit
two's complement. -/
structure Enc extends EncVal where
  seen : EncVal := {}
  ab : Nat := 0
  ext : Int := 0
  lastAdvCount : Int := 0
  losAt : Nat := 0
  z : Bool := false
  phaseAt : Option Nat := none
  phaseMore : Nat := 0
  ssi : SsiSt := .idle
  ssiPrev : Option Nat := none
  ssiStart : Nat := 0
deriving DecidableEq, Repr, Inhabited

/-- The line placer of a sequencer (05 R155-R162, R170).
[log 37: DEDUCED] -/
structure Placer where
  hwm : Int := 0
  qerrSw : Nat := 0
  overrun : Nat := 0
  overspeed : Nat := 0
  lastFire : Option Nat := none
  overRun : Option Run := none
  speedRun : Option Run := none
  openAt : Nat := 0
  inq : List Sample := []
  sched : List Sched := []
deriving DecidableEq, Repr, Inhabited

/-! ## Firing and energy (06) -/

/-- The firing block's device-wide state (06 R200, R201, R205). -/
structure Fire where
  hven : Vector Bool 8 := Vector.replicate 8 false
  roseAt : Vector Nat 8 := Vector.replicate 8 0
  hvok : Vector Bool 8 := Vector.replicate 8 false
  safeIn : Bool := false
  safeHighAt : Option Nat := some 0
deriving DecidableEq, Repr, Inhabited

/-- Why a push runs (06 R192-R196). -/
inductive PushWhy where
  | band | reload | commit | bringUp | release
deriving DecidableEq, Repr, Inhabited

/-- Where one table frame of a push stands (06 R189). -/
structure PushFrame where
  attempts : Nat := 0
  sentAt : Option Nat := none
  acked : Bool := false
deriving DecidableEq, Repr, Inhabited

/-- A push in progress (06 R189-R194): band, bank, why, whether it sends the live copy as it is (06 R196), whether the load has
ended and where it came from, the frames, and whether it is complete and waits for its commit. -/
structure Push where
  why : PushWhy := .band
  band : Nat := 0
  bank : Nat := 0
  since : Nat := 0
  direct : Bool := false
  loaded : Bool := false
  newBase : Option Word := none
  session : Nat := 0
  frames : Vector PushFrame 64 := Vector.replicate 64 {}
  done : Bool := false
deriving DecidableEq, Repr, Inhabited

/-- What the read point of a line left for its fire symbols on a port (06 R172, R173); `freed` after an abort, which counts
its unsent symbols as sent (06 R191). -/
structure PortLine where
  line : Nat := 0
  framed : Bool := false
  bank : Nat := 0
  rt : Nat := 1
  counted : Bool := false
  blank0 : Bool := false
  gap : Bool := false
  freed : Bool := false
deriving DecidableEq, Repr, Inhabited

/-- The firing state of a head port (06 R182-R199, R207). Set-points are sparse maps keyed 8·nozzle + code. `sliceOn` says
that a slice error or failed push held at the latest read point, `bankTo` when the last fire symbol of each bank is sent, `copy`
which of the two copies is live, `liveErr` and `stagedBad` their uncorrectable words, and `pendBand` the band changes that await
a read point. -/
structure FirePort where
  band : Nat := 0
  target : Nat := 0
  bank : Nat := 0
  mode : Nat := 0
  push : Option Push := none
  retryAt : Option Nat := none
  commitReady : Bool := false
  hot : Bool := false
  hotNew : Bool := false
  sliceErr : Bool := false
  released : Bool := false
  vrange : Bool := false
  stale : Bool := true
  hv : Bool := false
  es : Nat := 0
  htemp : Int := 0
  vsup : Nat := 0
  tempValid : Bool := false
  lastTel : Option Nat := none
  hotLn : Nat := 0
  vln : Nat := 0
  rowOvr : Nat := 0
  bandChg : Nat := 0
  live : SMap Nat := []
  staged : SMap Nat := []
  copy : Bool := false
  liveErr : List Nat := []
  liveBad : Bool := false
  stagedBad : List Nat := []
  sliceOn : Bool := false
  bankTo : Vector Nat 2 := Vector.replicate 2 0
  pendBand : List (Nat × Nat) := []
  vRun : Option Run := none
  staleRun : Option Run := none
  lines : List PortLine := []
  pins : List Nat := []
  pinsNew : List Nat := []
deriving DecidableEq, Repr, Inhabited

/-! ## Kwady Link (07) -/

/-- Port states (07 R240). -/
inductive KlSt where
  | down | wake | ident | config | push | ready | cal | test | fault
deriving DecidableEq, Repr, Inhabited

/-- An item on a downstream lane: when its first symbol starts and its last one ends, and the fire symbols inserted into it,
each before the symbol of that number, with its kind and tag (07 R212). -/
structure LaneItem where
  start : Nat := 0
  at_ : Nat := 0
  item : DownItem
  cuts : List (Nat × Bool × Nat) := []
deriving DecidableEq, Repr, Inhabited

/-- A head register access in progress (07 R244, R250): address, write, words, identifier, when it was sent. -/
structure HeadAcc where
  addr : Nat := 0
  write : Bool := false
  len : Nat := 0
  id : Nat := 0
  data : List Byte := []
  sentAt : Option Nat := none
  host : Bool := true
deriving DecidableEq, Repr, Inhabited

/-- What a lane calibration found of a preset (07 R242, R243): no upstream error, the head's checker locked within 5 µs, and
the downstream errors that the head's answer gave of a locked checker. -/
structure CalRes where
  upOk : Bool := false
  soon : Bool := false
  down : Option Nat := none
deriving DecidableEq, Repr, Inhabited

/-- A 1 ms window of counted records (07 R233, 13 R417): when it opened, and how many came after the first. -/
structure Window where
  since : Option Nat := none
  more : Nat := 0
deriving DecidableEq, Repr, Inhabited

/-- A head port (07 R240-R250). Its lane is free of a K30.7 from `busyTo` on and had running disparity `rd` (true: positive) at
`rdAt`; the HWRITE of the next PRBS run ends at `prbsAt`, and a lane calibration has made `calRes` of its runs. -/
structure KlPort where
  st : KlSt := .down
  since : Nat := 0
  faultDet : Nat := 0
  doubt : Bool := false
  hbank : Bool := false
  bank0v : Bool := false
  bank1v : Bool := false
  dseq : Nat := 0
  miss : Nat := 0
  upCrc : Nat := 0
  downErr : Nat := 0
  aborts : Nat := 0
  prevMiss : Option Nat := none
  prevDerr : Option Nat := none
  prbs : Word := 0
  lockUp : Bool := false
  lockDn : Bool := false
  upErr : Nat := 0
  downBits : Nat := 0
  prbsAt : Option Nat := none
  prbsSince : Option Nat := none
  calRes : List CalRes := []
  eye : Word := 0
  eyeAt : Nat := 0
  rxeq : Word := 0
  headId : Word := 0
  hid1 : Word := 0
  hcap : Word := 0
  hbusy : Bool := false
  hdone : Bool := false
  hstatus : Nat := 0
  acc : Option HeadAcc := none
  hdat : List Byte := List.replicate 256 0
  nextId : Nat := 0
  seqNo : Nat := 0
  lane : List LaneItem := []
  busyTo : Nat := 0
  rd : Bool := false
  rdAt : Nat := 0
  up : List UpFrame := []
  lastRead : Option Nat := none
  prevRead : Option Nat := none
  lastUp : Option Nat := none
  slotLast : Nat := 1
  wMiss : Window := {}
  wUp : Window := {}
  wDown : Window := {}
deriving DecidableEq, Repr, Inhabited

/-- One bank of a head (07 R225): its set-points, the mask of received frames, and whether it is valid. -/
structure HeadBank where
  points : SMap Nat := []
  mask : Nat := 0
  valid : Bool := false
deriving DecidableEq, Repr, Inhabited

/-- A pulse that a head fired (06 R183, 07 R223): line, row trigger, nozzle, width and waveform. -/
structure Pulse where
  line : Nat
  row : Nat
  nozzle : Nat
  width : Nat
  wave : Nat
deriving DecidableEq, Repr, Inhabited

/-- A head-side receiver (07 R221-R231). E is 256 while no tag is expected: after power-up or DROP and before SYNC. Its latest
telemetry frame was sent at `telAt`, and in the latest PRBS run its checker locked at bit `lockAt`. -/
structure Head where
  aligned : Bool := false
  e : Nat := 256
  rt : Nat := 1
  k : SMap Nat := []
  doubt : Bool := false
  held : List LineFrame := []
  cur : SMap LineFrame := []
  bank0 : HeadBank := {}
  bank1 : HeadBank := {}
  liveBank : Nat := 0
  miss : Nat := 0
  missTag : Nat := 0
  derr : Nat := 0
  tseq : Nat := 0
  dseq : Nat := 0
  hid0 : Word := 0
  hid1 : Word := 0
  hcap : Word := 0
  hctl : Word := 0
  hprbserr : Word := 0
  lockAt : Option Nat := none
  telAt : Option Nat := none
  rowmap : SMap Nat := []
  pulses : List Pulse := []
deriving DecidableEq, Repr, Inhabited

/-! ## Sessions, events, translation (11, 17, 18) -/

/-- Session classes (11 R342). -/
inductive Class where
  | observer | production | maintenance | steward
deriving DecidableEq, Repr, Inhabited

/-- Session states (11 R360). -/
inductive SessSt where
  | free | opening | confirmed | kennel
deriving DecidableEq, Repr, Inhabited

/-- An event record (17 R482). -/
structure EvRec where
  type : Nat := 2
  error : Nat := 0
  source : Nat := 0
  flags : Nat := 0
  time : Word := 0
  line : Nat := 0
  swath : Nat := 0
  detail : Word := 0
deriving DecidableEq, Repr, Inhabited

/-- The records lost at a full queue and not yet reported by a GAP (17 R488). -/
structure Loss where
  count : Nat := 0
  flags : Nat := 0
  time : Word := 0
  line : Nat := 0
  swath : Nat := 0
deriving DecidableEq, Repr, Inhabited

/-- A session's event queue (17 R486-R489): index EVRD, the records held from there (EVWR lies past them), the loss
count, and the counts of MGT.EVQSTAT; the `fresh` latest records still have to be written to DRAM; for Ifeud how many records
were sent and when (11 R336).
[log 97: DEDUCED] -/
structure EvQueue where
  rd : Nat := 0
  held : List EvRec := []
  fresh : Nat := 0
  loss : Option Loss := none
  dropped : Nat := 0
  ce : Nat := 0
  ue : Nat := 0
  sent : Nat := 0
  sentAt : Nat := 0
deriving DecidableEq, Repr, Inhabited

/-- A response message (11 R337). -/
structure Rsp where
  op : Nat := 0
  session : Nat := 0
  auth : Bool := false
  counter : Nat := 0
  xid : Nat := 0
  status : Nat := 0
  payload : List Byte := []
  tag : List Byte := []
deriving DecidableEq, Repr, Inhabited

/-- A kept response with the request it answered (11 R335). -/
structure Kept where
  xid : Nat := 0
  counter : Nat := 0
  tag : List Byte := []
  rsp : Rsp := {}
deriving DecidableEq, Repr, Inhabited

/-- Staged values and request of a session (12 R365-R378, R388). `units` is the staged set outside the sealed set. -/
structure Stage where
  units : List Nat := []
  sealedUnits : List Nat := []
  isSealed : Bool := false
  overflow : Bool := false
  overflowPosted : Bool := false
deriving DecidableEq, Repr, Inhabited

/-- A pending commit request (12 R369-R377). -/
structure Req where
  seq : Nat := 0
  line : Nat := 0
  cas : Bool := false
  base : Nat := 0
  program : Bool := false
  at_ : Nat := 0
  validated : Bool := false
  release : Bool := false
deriving DecidableEq, Repr, Inhabited

/-- A quarantine in progress (12 R383): when it began and how far it has come. -/
structure Kennel where
  entry : Nat := 0
  drained : Bool := false
deriving DecidableEq, Repr, Inhabited

/-- A session (11 R335-R348, R360; 12 R379, R388). -/
structure Sess where
  st : SessSt := .free
  cls : Class := .observer
  net : Bool := false
  fn : Nat := 0
  peer : Nat := 0
  peerPort : Nat := 0
  slot : Nat := 0
  keyed : Bool := false
  key : List Byte := []
  lease : Nat := 0
  quota : Nat := 0
  lastCtr : Nat := 0
  badTags : Nat := 0
  maxDgram : Nat := 0
  ethPort : Nat := 0
  commissioning : Bool := false
  openAt : Nat := 0
  renewAt : Nat := 0
  root : Word := 0
  fault : Word := 0
  busy : Bool := false
  done : Bool := false
  status : Nat := 0
  rsp : Rsp := {}
  kept : List Kept := []
  invals : List (Nat × Msg) := []
  evq : EvQueue := {}
  stage : Stage := {}
  req : Option Req := none
  crec : Word := 0
  snapK : Nat := 0
  snapAt : Nat := 0
  kennel : Option Kennel := none
deriving DecidableEq, Repr, Inhabited

/-- A key slot (11 R343): root key and class ceiling. -/
structure KeySlot where
  used : Bool := false
  key : List Byte := []
  ceil : Nat := 0
deriving DecidableEq, Repr, Inhabited

/-- A cached translation (11 R350): session, VA page, target, page address, writable. -/
structure TlbEntry where
  session : Nat := 0
  vpage : Nat := 0
  dram : Bool := false
  ppage : Nat := 0
  w : Bool := false
deriving DecidableEq, Repr, Inhabited

/-- Who asked for a translation (11 R352). -/
inductive Asker where
  | stream (p : Nat)
  | camera (c : Nat)
  | fir (p : Nat)
  | command
deriving DecidableEq, Repr, Inhabited

/-- A table walk in flight (11 R350). -/
structure Walk where
  session : Nat := 0
  va : Nat := 0
  write : Bool := false
  asker : Asker := .command
deriving DecidableEq, Repr, Inhabited

/-- The open page of a PCIe function (18 R512): BUSY, DONE, STATUS and the latest response. -/
structure OpenPage where
  busy : Bool := false
  done : Bool := false
  status : Nat := 0
  rsp : Rsp := {}
deriving DecidableEq, Repr, Inhabited

/-- The translation block and the hosts' links (11 R329, R350, R360). Sets of the cache are sparse, entries of a set
oldest first; `walkWait` are the streams that wait for a walk, and `walkLast` the one that got the latest. -/
structure Xlt where
  sets : SMap (List TlbEntry) := []
  walks : List Walk := []
  hits : Nat := 0
  misses : Nat := 0
  walkWait : Nat := 0
  walkLast : Nat := 63
  netDropped : Nat := 0
  netResent : Nat := 0
  dropWr : Vector Nat 4 := Vector.replicate 4 0
  direct : Vector (Option Nat) 4 := Vector.replicate 4 none
  bifurc : Nat := 0
  bifBad : Bool := false
  openPage : Vector OpenPage 4 := Vector.replicate 4 {}
  held : List (Nat × Nat × Msg) := []
deriving DecidableEq, Repr, Inhabited

/-- A commit's catch-up of a unit (12 R375). -/
structure Catchup where
  unit : Nat := 0
  since : Nat := 0
deriving DecidableEq, Repr, Inhabited

/-- One unit of a session that a unit revocation sends through the quarantine (12 R383). -/
structure UnitRev where
  unit : Nat := 0
  session : Nat := 0
  entry : Nat := 0
  drained : Bool := false
deriving DecidableEq, Repr, Inhabited

/-- Generations, claims, holds, staged bytes and live registers (12 R361-R382). `live` and `staged` are keyed by the
BAR0 address of the 8-byte word; `live` lists words that differ from their reset value. -/
structure Mgt where
  gen : Nat := 1
  cTick : Nat := 0
  unitGen : Vector Nat 101 := Vector.replicate 101 1
  claims : Vector (Option Nat) 101 := Vector.replicate 101 none
  holds : Vector (Option Nat) 101 := Vector.replicate 101 none
  live : SMap Word := []
  staged : SMap Word := []
  catchups : List Catchup := []
  revs : List UnitRev := []
  badTab : List (Nat × Bool) := []
deriving DecidableEq, Repr, Inhabited

/-- Fail-safe causes and the recovery ladder (17 R490-R493, R504). -/
structure Safe where
  emerg : Nat := 0
  tmax : Nat := 0
  safeN : Bool := false
  dieHot : Bool := false
  refclk : Bool := false
  vsafe : Bool := false
  mgmt : Bool := false
  latch : Nat := 0
  trainFail : Bool := false
  warms : Nat := 0
  warmMs : Nat := 0
  colds : Nat := 0
  mgmtDown : Option Nat := none
deriving DecidableEq, Repr, Inhabited

/-- Where start-up stands (16 R471-R473, 17 R498): held in reset by PORST_n, cold or warm start running, READY, or
BOOTFAIL. -/
inductive Phase where
  | off | cold | warm | ready | bootFail
deriving DecidableEq, Repr, Inhabited

/-- An MSI-X vector of a function (18 R518). -/
structure Vec where
  addr : Nat := 0
  data : Nat := 0
  masked : Bool := true
deriving DecidableEq, Repr, Inhabited

/-- The MSI-X state of a PCIe function (18 R518, R519). -/
structure Msix where
  enabled : Bool := false
  fmask : Bool := false
  table : SMap Vec := []
  pending : List Nat := []
deriving DecidableEq, Repr, Inhabited

/-- A logical Ethernet port (18 R515): its address, and a change that has not taken effect yet. -/
structure NetPort where
  addr : List Byte := []
  change : Option (List Byte) := none
  changeAt : Nat := 0
deriving DecidableEq, Repr, Inhabited

/-- A PTP message that departs (14 R425, R428): 0 Delay_Req and 1 Pdelay_Req with `time` their originTimestamp in 2^-16 ns, 2
Pdelay_Resp with `time` what is added to its correctionField; TRANSPORT, the VLAN tag, the destination address, the port of
event messages, and how the UDP checksum is kept valid: 0 over IPv4, by 2 appended bytes over IPv6. -/
structure PtpTx where
  kind : Nat := 0
  port : Nat := 0
  transport : Nat := 0
  vlan : Option Nat := none
  dest : List Byte := []
  udp : Option Nat := none
  sum0 : Bool := false
  pad : Nat := 0
  domain : Nat := 0
  seqId : Nat := 0
  time : Nat := 0
deriving DecidableEq, Repr, Inhabited

/-- What the block sends out in a command (the outputs of the LATEST command only). -/
inductive Out where
  | msix (f v addr data : Nat)
  | response (r : Rsp)
  | datagram (r : Rsp) (peer port : Nat)
  | events (n first : Nat) (recs : List EvRec) (msg : Rsp)
  | aer (f : Nat) (kind : DmaEnd)
  | trig (c : Nat) (level : Bool)
  | step (a : Nat) (back : Bool)
  | ssiClock (c periods : Nat)
  | ptp (m : PtpTx)
  | i2c (c addr : Nat) (read : Bool) (bytes : Nat) (data : List Byte)
  | display (c : Nat) (line : List Nat)
  | window (f : Nat) (data : List Byte) (poison : Bool := false)
deriving DecidableEq, Repr, Inhabited

/-! ## Cameras (08) -/

/-- Camera port states (08 R254). -/
inductive CamSt where
  | off | waitSync | run | noClk
deriving DecidableEq, Repr, Inhabited

/-- Where a trigger request comes from (08 R255): sequencer and context, the position trigger, or the host. -/
inductive TrigSrc where
  | program (q c : Nat)
  | position
  | host
deriving DecidableEq, Repr, Inhabited

/-- An accepted trigger request (08 R255, R260): its source, its tick, and the SW, LN and count of that tick. -/
structure TrigReq where
  src : TrigSrc := .host
  at_ : Nat := 0
  sw : Nat := 0
  ln : Nat := 0
  pos : Int := 0
deriving DecidableEq, Repr, Inhabited

/-- An arming of the return test or of the alignment unit, and its instant (09 R297, R299). -/
structure Arm where
  cam : Nat := 0
  seq : Nat := 0
  a : Nat := 0
  b : Nat := 0
  bg : Nat := 0
  th : Nat := 0
  at_ : Nat := 0
deriving DecidableEq, Repr, Inhabited

/-- A frame on its way (08 R251-R276): number, start, stamp, generation, the request it answers, the sequencer it is
stamped for, the configuration and tables latched at its start, the outputs skipped, the lines complete in the input
buffer and the lines the pipeline has taken; `gap` is the cause of a dropped frame whose record waits for its turn. -/
structure Frame where
  no : Nat := 0
  startAt : Nat := 0
  time : Word := 0
  sw : Nat := 0
  ln : Nat := 0
  gen : Nat := 0
  doubt : Bool := false
  req : Option TrigReq := none
  seq : Nat := 0
  port : Word := 0
  outCfg : Word := 0
  ring : List Word := []
  skip : List Nat := []
  tab : SMap Word := []
  buf : List (List Nat) := []
  done : List (List Nat) := []
  ended : Bool := false
  align : Option Arm := none
  cal : Bool := false
  bad : Option Nat := none
  gap : Option Nat := none
deriving DecidableEq, Repr, Inhabited

/-- A written settings generation that is still to apply (08 R263): the frame starts left, the number, whether the write
failed, and when it completed. -/
structure NextGen where
  left : Nat := 0
  gen : Nat := 0
  doubt : Bool := false
  at_ : Nat := 0
deriving DecidableEq, Repr, Inhabited

/-- A pending settings request (08 R261, R262): record, generation, who asked, when, and once its write has begun its
instant and the bytes of each transaction. -/
structure SetReq where
  record : Nat := 0
  gen : Nat := 0
  src : TrigSrc := .host
  at_ : Nat := 0
  begun : Nat := 0
  writing : Option (List (List Byte)) := none
deriving DecidableEq, Repr, Inhabited

/-- A camera port (08 R251-R283). `trigEnd` is where the latest TRIG pulse ends, `leaving` the requests whose end is on its
way to LCLK, `winFrom` the frame starts whose settings window is still to open; `i2cAt`, `i2cRd` and `i2cN` are the
beginning, the direction and the byte count of the latest direct bus transaction. -/
structure Cam where
  st : CamSt := .off
  fval : Bool := false
  gen : Nat := 0
  lastGen : Nat := 0
  nextGens : List NextGen := []
  frameCnt : Nat := 0
  lastDone : Nat := 0
  doneGen : Nat := 0
  dropped : Nat := 0
  format : Nat := 0
  trigTo : Nat := 0
  ringFull : Nat := 0
  pend : Option SetReq := none
  setFail : Bool := false
  setDoubt : Bool := false
  failIdx : Nat := 0
  i2cBusy : Bool := false
  i2cDone : Bool := false
  i2cNack : Bool := false
  i2cTo : Bool := false
  i2cData : Nat := 0
  i2cAt : Nat := 0
  i2cRd : Bool := false
  i2cN : Nat := 0
  queue : List TrigReq := []
  pulse : Option TrigReq := none
  answered : Bool := false
  pulseAt : Nat := 0
  trigEnd : Nat := 0
  leaving : List TrigReq := []
  winFrom : List Nat := []
  ptK : Nat := 0
  ptSkip : Window := {}
  wFull : Window := {}
  frames : List Frame := []
  wr : Vector Nat 3 := Vector.replicate 3 0
  rd : Vector Nat 3 := Vector.replicate 3 0
  rq : List EvRec := []
  rqLost : Option EvRec := none
deriving DecidableEq, Repr, Inhabited

/-- An image pipeline (08 R266, R267): the camera that won the latest line slot, and the clock of the latest drop. -/
structure Pipe where
  last : Nat := 1
  dropAt : Option Nat := none
deriving DecidableEq, Repr, Inhabited

/-! ## Nozzle health (09) -/

/-- The health state of a nozzle (09 R305 NZSTATE). -/
structure Nozzle where
  hout : Bool := false
  cause : Nat := 0
  tfail : Nat := 0
  sense : Nat := 0
  nrcnt : Nat := 0
  senseBad : Bool := false
deriving DecidableEq, Repr, Inhabited

/-- The vision result of a completed frame (08 R274, R275; 09 R285); `at_` is its completion, and once it has reached LCLK its
arrival, and `arm` the return test that takes it. -/
structure VisRes where
  cam : Nat := 0
  no : Nat := 0
  seq : Nat := 0
  program : Bool := false
  doubt : Bool := false
  align : Bool := false
  nbins : Nat := 0
  means : SMap Nat := []
  at_ : Nat := 0
  arm : Option Arm := none
deriving DecidableEq, Repr, Inhabited

/-- Changes that wait for their tick (09 R290, R291, R298): nozzles to put OUT with the cause, or to return. -/
structure Apply where
  at_ : Nat := 0
  outs : List (Nat × Nat) := []
  cause : Nat := 1
deriving DecidableEq, Repr, Inhabited

/-- The outcome of a return test that waits for its tick (09 R298). -/
structure TestEnd where
  at_ : Nat := 0
  returned : List (Nat × Nat) := []
  failed : List (Nat × Nat) := []
  ambig : Nat := 0
  bins : List Nat := []
  arm : Arm := {}
deriving DecidableEq, Repr, Inhabited

/-- The health engine (09 R285-R305). Nozzles are keyed 8192·p + j, scores 65536·m + 16384·c + b. `visq` holds results on their
way to LCLK, `waitq` those that wait for the engine; `justOut` are the nozzles put OUT in the apply tick `justAt`, and
`sensePorts` the ports whose sense codes set sense-bad flags. -/
structure Health where
  nz : SMap Nozzle := []
  score : SMap Nat := []
  flips : Vector Nat 64 := Vector.replicate 64 0
  returns : Vector Nat 64 := Vector.replicate 64 0
  test : Option Arm := none
  testDone : Bool := false
  returned : Nat := 0
  failed : Nat := 0
  ambig : Nat := 0
  al : Option Arm := none
  alDone : Bool := false
  nFound : Nat := 0
  nMiss : Nat := 0
  alRes : SMap Word := []
  alPort : SMap Word := []
  visq : List VisRes := []
  waitq : List VisRes := []
  lastApply : Nat := 0
  applies : List Apply := []
  senses : List Apply := []
  justAt : Nat := 0
  justOut : List (Nat × Nat) := []
  sensePorts : Nat := 0
  testEnd : Option TestEnd := none
  headSeen : Vector (Option (Word × Word)) 64 := Vector.replicate 64 none
deriving DecidableEq, Repr, Inhabited

/-! ## Motion (10) -/

/-- What a motion command asks (10 R315-R320). -/
inductive MotOp where
  | move (abs : Bool) (v : Int)
  | vel (v : Nat)
  | acc (v : Nat)
  | stop
  | home (sel : Nat)
deriving DecidableEq, Repr, Inhabited

/-- Axis states (10 R327). -/
inductive AxSt where
  | disabled | idle | accel | cruise | decel | homing | held
deriving DecidableEq, Repr, Inhabited

/-- Where a homing sequence stands (10 R320): its only or first approach, slowing after its Z edge, backing off, the second
approach, or slowing to its end. -/
inductive HomeLeg where
  | first | slowing | back | second | final
deriving DecidableEq, Repr, Inhabited

/-- An axis (10 R306-R328). A queued move is a target, or (with true) a displacement from where a stop ends. `v` carries 16 fraction bits; `accum` is
the 32-bit accumulator. STEP rose last in cycle `riseAt` with phase count `risePhase`, `stepsDue` steps wait for cycle
`riseFrom`; `zPos` is the position at the arrival of a Z edge; the axis stands still with an empty queue since `stillAt`. -/
structure Axis where
  st : AxSt := .disabled
  queued : Option (Bool × Int) := none
  homed : Bool := false
  back : Bool := false
  level : Nat := 0
  err : Nat := 0
  pos : Int := 0
  v : Nat := 0
  vel : Nat := 0
  acc : Nat := 0
  accNext : Option Nat := none
  accum : Nat := 0
  phase : Nat := 0
  target : Int := 0
  floor : Nat := 0
  stopping : Bool := false
  homeSeq : Nat := 0
  leg : HomeLeg := .first
  travelled : Nat := 0
  causes : List Nat := []
  cmdBusy : Bool := false
  cmdDone : Bool := false
  cmdErr : Nat := 0
  slow : Bool := false
  owed : Bool := false
  lvlAt : Option Nat := none
  riseAt : Option Nat := none
  risePhase : Nat := 0
  riseFrom : Nat := 0
  stepsDue : Nat := 0
  zPos : Option Int := none
  stillAt : Nat := 0
deriving DecidableEq, Repr, Inhabited

/-! ## Memory and integrity (13) -/

/-- States of a DRAM channel (13 R420). -/
inductive ChSt where
  | init | trained | retrain | failed
deriving DecidableEq, Repr, Inhabited

/-- A DRAM channel (13 R397, R398, R420). -/
structure Chan where
  st : ChSt := .init
  hotRef : Bool := false
  pd : Nat := 0
  minEye : Nat := 0
  retrains : Nat := 0
  ce : Nat := 0
  ue : Nat := 0
  patrol : Nat := 0
  derr : Word := 0
  postponed : Nat := 0
  lastReq : Vector Nat 2 := Vector.replicate 2 0
  lastRef : Nat := 0
  trres : Vector Word 10 := Vector.replicate 10 0
  wCe : Window := {}
  pollAt : Option Nat := none
deriving DecidableEq, Repr, Inhabited

/-- A pending REPAIR (13 R409): word index, operation, and the session that asked. -/
structure Repair where
  word : Nat := 0
  op : Nat := 1
  session : Nat := 0
  msg : Msg := {}
deriving DecidableEq, Repr, Inhabited

/-- An open test window (13 R411): slice, when it opened, the repair it serves. -/
structure TestWin where
  slice : Nat := 0
  since : Nat := 0
  repair : Option Repair := none
deriving DecidableEq, Repr, Inhabited

/-- Memory state (13 R389-R420). `sramOne` lists words with one wrong bit and that bit, `sramCe` corrected words that
await their write-back; `rows` maps 512·macro + row to the spare row that replaces it, and `spares` counts the spare rows used per macro.
`turn` is the slice of the next window in turn, `sessBad` lists sessions with an uncorrectable word of
state, `nzBad` nozzles with one (key 8192·port + nozzle), `defects` the defective cells found and not repaired: word and bit. -/
structure MemSt where
  dok : Bool := false
  zfDone : Bool := false
  chFail : Nat := 0
  chCap : Nat := 16
  ranks : Nat := 0
  mts : Nat := 6400
  retired : List Nat := []
  retireDue : List Nat := []
  filled : List Nat := []
  owner : SMap Nat := []
  ch : Vector Chan 4 := Vector.replicate 4 {}
  secCe : Vector Nat 5 := Vector.replicate 5 0
  secUe : Vector Nat 5 := Vector.replicate 5 0
  wSec : Vector Window 5 := Vector.replicate 5 {}
  serr : Word := 0
  bistRec : Word := 0
  slice : Nat := 0
  turn : Nat := 0
  passes : Nat := 0
  fails : Nat := 0
  lastWin : Nat := 0
  win : Option TestWin := none
  repairs : List Repair := []
  rows : SMap Nat := []
  spares : SMap Nat := []
  soft : Nat := 0
  sramCe : List Nat := []
  sramOne : List (Nat × Nat) := []
  sessBad : List Nat := []
  nzBad : List Nat := []
  defects : List (Nat × Nat) := []
deriving DecidableEq, Repr, Inhabited

/-! ## Time (14) -/

/-- PTP port states (14 R430). -/
inductive PtpSt where
  | disabled | listening | uncalibrated | slave | holdover
deriving DecidableEq, Repr, Inhabited

/-- A master heard by Announce (14 R425): who sent, its data set in the order of comparison, steps, how many Announces
came in its window, when the latest came and the announced interval. -/
structure PtpMaster where
  ident : Word := 0
  port : Nat := 0
  prio : List Nat := []
  steps : Nat := 0
  heard : Nat := 1
  seenAt : Nat := 0
  interval : Int := 0
deriving DecidableEq, Repr, Inhabited

/-- The time base (14 R421-R438). `t` is device time in units of 0.8 ns·2^−40; offsets are in 2^−16 ns, the servo's
integral in 2^−31 ns; `rateNext` replaces `rate` after tick `rateAt`. -/
structure Tim where
  t : Nat := 0
  rate : Int := 0
  rateNext : Int := 0
  rateAt : Nat := 0
  integ : Int := 0
  offset : Int := 0
  mpd : Int := 0
  mpdValid : Bool := false
  st : PtpSt := .disabled
  locks : Nat := 0
  oddSync : Bool := false
  oddAnn : Bool := false
  ptpTs : Bool := false
  utcOff : Int := 0
  parent : Option PtpMaster := none
  masters : List PtpMaster := []
  holdLast : Nat := 0
  holdAll : Nat := 0
  holdSince : Option Nat := none
  syncs : Nat := 0
  discards : Nat := 0
  steps : Nat := 0
  holds : Nat := 0
  setSec : Nat := 0
  nowLatch : Option Word := none
  lastSync : Nat := 0
  syncInt : Int := 0
  lastAnn : Nat := 0
  annInt : Int := 0
  rateLimitAt : Option Nat := none
  reqAt : Option Nat := none
  reqSeq : Nat := 0
  reqOut : Bool := false
deriving DecidableEq, Repr, Inhabited

/-! ## Calibration and the non-volatile store (15) -/

/-- States of a run slot (15 R457). -/
inductive CalSt where
  | free | running | closing
deriving DecidableEq, Repr, Inhabited

/-- A calibration run slot (15 R439-R443, R457). -/
structure CalRun where
  st : CalSt := .free
  proc : Nat := 0
  target : Nat := 0
  target2 : Nat := 0
  session : Nat := 0
  save : Bool := false
  since : Nat := 0
  timeout : Nat := 0
  param : List Byte := []
  held : List Nat := []
  frames : List Frame := []
  tSum : Int := 0
  tCnt : Nat := 0
  tLo : Int := 0
  tHi : Int := 0
  aborted : Bool := false
  timedOut : Bool := false
  resCode : Nat := 0
  q1 : Nat := 0
  q2 : Nat := 0
  y0 : Nat := 0
deriving DecidableEq, Repr, Inhabited

/-- The calibration engine (15 R440, R457). -/
structure CalSys where
  runs : Vector CalRun 4 := Vector.replicate 4 {}
  dtTrim : Int := 0
  nvWrites : Nat := 0
  nvCrc : Nat := 0
  nvFail : Nat := 0
deriving DecidableEq, Repr, Inhabited

/-- One slot of a record as its bytes give it (15 R449, R450): valid, or not; erased where every byte is 0. -/
structure NvSlot where
  version : Nat := 0
  payload : List Byte := []
  valid : Bool := false
  erased : Bool := true
deriving DecidableEq, Repr, Inhabited

/-- A record of the non-volatile store with its two slots (15 R448-R451) and when it was last written. -/
structure NvRec where
  a : NvSlot := {}
  b : NvSlot := {}
  wroteAt : Option Nat := none
deriving DecidableEq, Repr, Inhabited

/-- The non-volatile store (15 R448): its bytes, and by RID when a record was last written (15 R451). -/
structure Nv where
  mram : List Host.Cell := []
  wrote : SMap Nat := []
deriving DecidableEq, Repr, Inhabited

/-! ## Power, clocks, start-up (16) -/

/-- Feed states (16 R459). -/
inductive FeedSt where
  | absent | sync | active | standby | failed
deriving DecidableEq, Repr, Inhabited

/-- A supply feed (16 R459, R481): `sampAt` its latest sample, `overAt` since when its current is above the limit of 19 R522. -/
structure Feed where
  st : FeedSt := .absent
  mv : Nat := 0
  cur : Nat := 0
  xfer : Nat := 0
  inWin : Bool := false
  since : Nat := 0
  sampAt : Option Nat := none
  overAt : Option Nat := none
deriving DecidableEq, Repr, Inhabited

/-- Counts and timers of a rail (16 R460, R464, R481). -/
structure Rail where
  switches : Nat := 0
  fails : Nat := 0
  tests : Nat := 0
  tfails : Nat := 0
  imbalSince : Option Nat := none
  imbalPosted : Option Nat := none
  testing : Option Nat := none
  lastTest : Nat := 0
deriving DecidableEq, Repr, Inhabited

/-- A switch-over gap in progress (16 R461): when it began, and a mask of its rails (bit 0 VDDC, bit 1 VDDQ). -/
structure Gap where
  since : Nat := 0
  rails : Nat := 0
  trip : Nat := 0
deriving DecidableEq, Repr, Inhabited

/-- Firmware states (16 R481 FWSTAT). -/
inductive FwSt where
  | idle | staging | switching | probation
deriving DecidableEq, Repr, Inhabited

/-- Power, temperature, start-up and firmware (16). -/
structure Pws where
  feeds : Vector Feed 14 := Vector.replicate 14 {}
  rails : Vector Rail 7 := Vector.replicate 7 {}
  safeFeed : Nat := 0
  refOk : Bool := false
  vstRun : Option Nat := none
  vstStay : Bool := false
  vsRes : Nat := 0
  gap : Option Gap := none
  gapRec : Word := 0
  lastGap : Nat × Nat := (0, 0)
  gaps : List (Nat × Nat) := []
  tmax : Int := 0
  sensor : Nat := 0
  h90 : Nat := 0
  dieAt : Option Nat := none
  boardAt : Option Nat := none
  warnOn : Bool := false
  td : Vector Int 2 := Vector.replicate 2 0
  tv : Vector Bool 2 := Vector.replicate 2 false
  bWarn : Vector Bool 2 := Vector.replicate 2 false
  trip : Bool := false
  tripLatch : Bool := false
  thermPin : Bool := true
  step : Nat := 0
  bank : Nat := 0
  fallback : Bool := false
  bootFail : Bool := false
  bootTrip : Bool := false
  bootMs : Nat := 0
  bootAt : Nat := 0
  fwBank : Nat := 0
  fwSel : Nat := 0
  fwStaged : Bool := false
  fwSt : FwSt := .idle
  fwAt : Nat := 0
  fwVer : Nat := 0
  fwOther : Nat := 0
  fwMin : Nat := 0
  fwMsg : Option (Nat × Msg) := none
  fwWait : Option Nat := none
deriving DecidableEq, Repr, Inhabited

/-! ## Happenings on their way (01 R17) -/

/-- What crosses from one clock domain to another, or follows a fixed number of ticks after its cause (01 R17): the bits of
`signal` (02 R36), the levels of A and B or of Z after pad and sampler, and what SCLK decided on its way to LCLK (05 R163): the
channel's values, event bits, QERR, loss of signal, wrap and the placers' sample; an advancing edge at the placer (05 R158); a
rebase (05 R169); a motion command (10 R314); a Z edge at the axes (10 R320); the entry of a quarantine (12 R383); the start of a
frame of a camera, and the end of a request, with its frame or without one (08 R257, R260).
[log 12: DESIGN CHOICE] -/
inductive Due where
  | signal (targets mask : Nat)
  | pins (c : Nat) (a b : Bool)
  | zpin (c : Nat) (level : Bool)
  | seen (c : Nat) (v : EncVal) (bits : Nat) (qerr doubt wrap : Bool) (smp : Option Sample)
  | pull (c : Nat) (t : Nat)
  | rebase (c : Nat) (v : Option Int) (clrq : Bool) (n since : Nat)
  | motion (a : Nat) (op : MotOp)
  | zedge (c : Nat)
  | flush (n : Nat) (units : List Nat) (whole : Bool)
  | frameIn (c no : Nat)
  | reqEnd (c : Nat) (r : TrigReq) (done : Bool)
deriving DecidableEq, Repr, Inhabited

/-- Such a happening and its instant. -/
structure Timed where
  at_ : Nat := 0
  what : Due
deriving DecidableEq, Repr, Inhabited

/-! ## The machine -/

/-- The whole block: every piece of state the spec gives it, and the queue of waiting commands. -/
structure State where
  pending : List Instr := []
  now : Nat := 0
  tickBase : Nat := 0
  out : List Out := []
  draws : Nat := 0
  agenda : List Timed := []
  gapTime : Nat := 0
  phase : Phase := .cold
  dram : List Host.Cell := []
  dramUe : List Nat := []
  dramCe : List Nat := []
  hostMem : Vector (List Host.Cell) 4 := Vector.replicate 4 []
  pstore : SMap Word := []
  pstoreBad : List Nat := []
  ctxBad : List Nat := []
  seq : Vector Seq 16 := Vector.replicate 16 {}
  ctx : Vector (Vector Ctx 64) 16 := Vector.replicate 16 (Vector.replicate 64 {})
  str : Vector Stream 64 := Vector.replicate 64 {}
  ring : Vector Ring 64 := Vector.replicate 64 {}
  eng : Vector Engine 16 := Vector.replicate 16 {}
  engLast : Nat := 63
  enc : Vector Enc 4 := Vector.replicate 4 {}
  place : Vector Placer 16 := Vector.replicate 16 {}
  fire : Fire := {}
  fp : Vector FirePort 64 := Vector.replicate 64 {}
  kl : Vector KlPort 64 := Vector.replicate 64 {}
  head : Vector Head 64 := Vector.replicate 64 {}
  cam : Vector Cam 4 := Vector.replicate 4 {}
  pipe : Vector Pipe 2 := Vector.replicate 2 {}
  hlt : Health := {}
  ax : Vector Axis 8 := Vector.replicate 8 {}
  sess : Vector Sess 256 := Vector.replicate 256 {}
  keys : Vector KeySlot 16 := Vector.replicate 16 {}
  xlt : Xlt := {}
  mgt : Mgt := {}
  safe : Safe := {}
  mem : MemSt := {}
  tim : Tim := {}
  cal : CalSys := {}
  nv : Nv := {}
  pws : Pws := {}
  msix : Vector Msix 4 := Vector.replicate 4 {}
  net : Vector NetPort 8 := Vector.replicate 8 {}
deriving DecidableEq, Repr, Inhabited

/-- The machine right after reset: PORST_n has just risen (16 R472, R499), every register at the value the spec gives
and at the value the assumption log names where it gives none.
[log 7: DESIGN CHOICE] -/
def State.reset : State := {}

/-- Why a step could stop with a fault. No command of the spec stops the block, so none is raised: the block reports
every error in its registers, responses and records, which are next states.
[log 11: DEDUCED] -/
inductive Fault where
  /-- Raised by no command (safe: it is never answered). -/
  | none
deriving DecidableEq, Repr

/-- Why a command has no meaning in the model.
[log 11: DEDUCED] -/
inductive Refusal where
  /-- Raised by the arm of a command that has no meaning yet (safe: the model stops where the block goes on). -/
  | notModelled (mnemonic : String)
deriving DecidableEq, Repr

end Sys2Proof.Machine
end

