-- ==== Sys2Proof/Machine/Regs.lean ====
section
/-! DEFINITION. The register map (18 R505-R510): every entry of the register index with its access, reset value, defined bits and unit (12 R365), and the committed and staged words. -/
namespace Sys2Proof.Machine
open Sys2Proof

/-- Access codes (00 R7). -/
inductive Acc where
  | ro | rw | ms | w1c | wo
deriving DecidableEq, Repr, Inhabited

/-- One entry of the register index (18 R510): its name, BAR0 address, bytes from one instance to the next, instances,
access, whether it is a table or window, reset value and defined bits of each 8-byte word; and, for an MS entry, its
unit: `u0` plus (offset / udiv) mod `umod` (12 R365). -/
structure RegRow where
  name : String
  base : Nat
  stride : Nat := 8
  count : Nat := 1
  acc : Acc := .ro
  table : Bool := false
  reset : Nat := 0
  mask : Nat := 0
  u0 : Nat := 100
  udiv : Nat := 1
  umod : Nat := 1
deriving DecidableEq, Repr, Inhabited

/-- All 64 bits. -/
def all64 : Nat := 0xFFFFFFFFFFFFFFFF

/-- An RO entry. -/
def rowRO (name : String) (base : Nat) (count : Nat := 1) (stride : Nat := 8) (table : Bool := false) : RegRow :=
  { name := name, base := base, count := count, stride := stride, table := table }

/-- An MS register of `count` instances, one per unit from u0. -/
def rowMS (name : String) (base count reset mask u0 : Nat) : RegRow :=
  { name := name, base := base, count := count, acc := .ms, reset := reset, mask := mask, u0 := u0,
    udiv := 8, umod := count }

/-- An MS table: bytes per entry, entries, mask of each 8-byte word, unit rule. -/
def rowTab (name : String) (base stride count mask u0 udiv umod : Nat) : RegRow :=
  { name := name, base := base, stride := stride, count := count, acc := .ms, table := true, mask := mask,
    u0 := u0, udiv := udiv, umod := umod }

/-- A WO register. -/
def rowWO (name : String) (base : Nat) (count : Nat := 1) : RegRow :=
  { name := name, base := base, count := count, acc := .wo }

/-- An RW register or window. -/
def rowRW (name : String) (base mask : Nat) (count : Nat := 1) (stride : Nat := 8) (table : Bool := false) : RegRow :=
  { name := name, base := base, mask := mask, count := count, stride := stride, acc := .rw, table := table }

/-- GLB and MGT (18 R509, R510). -/
def regsGlbMgt : List RegRow :=
  [ rowRO "GLB.ID" 0x0, rowRO "GLB.SERIAL" 0x8, rowRO "GLB.CAP" 0x10, rowRO "GLB.STAT" 0x18, rowRO "GLB.FN" 0x20,
    rowRO "GLB.TICK" 0x28,
    rowRW "GLB.MSIXTAB" 0x00080000 all64 2048 16 true,
    rowRO "GLB.MSIXPBA" 0x00090000 256 1 true,
    rowRO "MGT.GEN" 0x00100000, rowRO "MGT.CTICK" 0x00100008, rowRO "MGT.SHADOW" 0x00100010,
    rowMS "MGT.CCFG" 0x00100018 1 0x7D0 0xFFFF 100,
    rowRO "MGT.SAFESTAT" 0x00100020,
    { rowRW "MGT.SAFELATCH" 0x00100028 0x3FFFFFFF with acc := .w1c },
    rowRO "MGT.LADDER" 0x00100030, rowRO "MGT.UNITGEN" 0x00101000 101, rowRO "MGT.STAGE" 0x00102000 256,
    rowRO "MGT.CREC" 0x00102800 256, rowRW "MGT.SNAPCFG" 0x00103000 0x0000FFFFFFFF001F 256,
    rowRO "MGT.EVQSTAT" 0x00103800 256 ]

/-- SEQ, LDP, FIR and KL (18 R510). -/
def regsPlane : List RegRow :=
  [ rowRO "SEQ.GSTAT" 0x01000000, { rowRO "SEQ.PSTORE" 0x01000008 with reset := 0x80000 }, rowWO "SEQ.GSIGNAL" 0x01000010,
    rowMS "SEQ.CFG" 0x01000100 16 0 0x0000003F000FFF03 64,
    rowMS "SEQ.PORTMAP" 0x01000180 16 0 all64 64,
    rowRO "SEQ.STATUS" 0x01000200 16, rowRO "SEQ.LN" 0x01000280 16, rowRO "SEQ.SW" 0x01000300 16,
    rowRO "SEQ.ABORTREC" 0x01000380 16, rowRO "SEQ.FAULTREC" 0x01000400 16,
    { rowRW "SEQ.EVBITS" 0x01000480 0xFFFFFFFF 16 with acc := .w1c },
    rowWO "SEQ.SIGNAL" 0x01000500 16, rowRO "SEQ.COMMITREC" 0x01000580 16,
    rowMS "SEQ.ETRIG" 0x01000600 16 0 0xFFFFFFFF 64,
    rowRO "SEQ.CTX" 0x01001000 1024,
    rowRO "LDP.GSTAT" 0x02000000, rowRW "LDP.STRCFG" 0x02000100 3 64, rowRO "LDP.STRSTAT" 0x02000300 64,
    rowRO "LDP.RINGSTAT" 0x02000500 64, rowWO "LDP.RINGCTL" 0x02000700 64,
    rowMS "LDP.PACKMAP" 0x02000900 64 0x3211 0x7777 0,
    rowRO "LDP.CNT" 0x02000B00 64, rowRO "LDP.FAULTREC" 0x02000D00 64, rowRO "LDP.CNT2" 0x02000F00 64,
    rowTab "LDP.ALIGNTAB" 0x02200000 2 524288 0xDFFFDFFFDFFFDFFF 0 16384 64,
    rowTab "LDP.SUBTAB" 0x02400000 4 524288 0x1FFFFFFF1FFFFFFF 0 32768 64,
    rowRO "FIR.GSTAT" 0x02800000, rowWO "FIR.HVCTL" 0x02800008, rowMS "FIR.HVCFG" 0x02800010 1 0x14 0x3FF 100,
    rowMS "FIR.PORTCFG" 0x02800100 64 0x11 0x1F 0, rowMS "FIR.VCFG" 0x02800300 64 0x00320000 0xFFFFFF 0,
    rowMS "FIR.THERM" 0x02800500 64 0x0005463C 0xFFFFF 0,
    rowMS "FIR.BANDTH" 0x02800700 64 0x00FFFFFFFFFFFFFF 0x00FFFFFFFFFFFFFF 0,
    rowMS "FIR.ETBASE" 0x02800900 64 0 0x0000FFFFFFF00001 0,
    rowRO "FIR.PORTSTAT" 0x02800B00 64, rowRO "FIR.CNT" 0x02800D00 64, rowWO "FIR.PORTCTL" 0x02800F00 64,
    rowTab "FIR.ROWDLY" 0x02900000 2 131072 0x0FFF0FFF0FFF0FFF 0 16 64,
    rowTab "FIR.SPITTAB" 0x02A00000 8 16384 0x3FFFFF7 0 8 64,
    rowRO "KL.GSTAT" 0x03000000, rowMS "KL.REFCFG" 0x03000008 1 0 0xFFFF 100,
    rowMS "KL.PORTCFG" 0x03000100 64 0x00640020 0x00FF00FF 0, rowMS "KL.TXEQ" 0x03000300 64 0x800 0x1F0F 0,
    rowRO "KL.PORTSTAT" 0x03000500 64, rowWO "KL.PORTCTL" 0x03000700 64, rowRO "KL.CNT" 0x03000900 64,
    rowRW "KL.PRBS" 0x03000B00 0xF 64, rowRO "KL.PRBSERR" 0x03000D00 64, rowRO "KL.EYE" 0x03000F00 64,
    rowRO "KL.RXEQ" 0x03001100 64, rowRO "KL.HEADID" 0x03001300 64, rowWO "KL.HREGCMD" 0x03001500 64,
    rowRO "KL.HREGSTAT" 0x03001700 64, rowRW "KL.HREGDAT" 0x03100000 all64 64 256 true ]

/-- POS, MOT and CAM (18 R506, R510). -/
def regsPosMotCam : List RegRow :=
  [ rowMS "POS.ENCCFG" 0x03400000 4 0x6400 0x3FFF0F 80,
    rowMS "POS.SSICFG" 0x03400040 4 0 0xFFFFFF00FFFFFF7F 80,
    rowWO "POS.ENCCTL" 0x03400080 4, rowRO "POS.COUNT" 0x03400100 4, rowRO "POS.SPEED" 0x03400140 4,
    rowRO "POS.ENCSTAT" 0x03400180 4, rowRO "POS.REVPOS" 0x034001C0 4, rowRO "POS.ZLATCH" 0x03400200 4,
    rowMS "POS.PLCFG" 0x03400400 16 0x186A0000 0xFFFF0003 64,
    rowRO "POS.HWM" 0x03400480 16, rowRO "POS.PLSTAT" 0x03400500 16,
    rowRO "MOT.GSTAT" 0x03500000, rowMS "MOT.AXCFG" 0x03500100 8 0x14A0 0xFFFFFFFF7 84,
    rowMS "MOT.RESCFG" 0x03500140 8 0 0x0FFFFFFFFFFFFFFF 84, rowMS "MOT.PROF" 0x03500180 8 0xA7C6 all64 84,
    rowMS "MOT.LIMLO" 0x035001C0 8 0 0xFFFFFFFFFFFF 84, rowMS "MOT.LIMHI" 0x03500200 8 0 0xFFFFFFFFFFFF 84,
    rowMS "MOT.HOMECFG" 0x03500240 8 0 0x0FFFFFFFFFFFFFF7 84, rowMS "MOT.HOMEPOS" 0x03500280 8 0 0xFFFFFFFFFFFF 84,
    rowRO "MOT.AXSTAT" 0x03500300 8, rowRO "MOT.POS" 0x03500340 8, rowRO "MOT.VEL" 0x03500380 8,
    rowRO "MOT.ACC" 0x035003C0 8, rowWO "MOT.CMD" 0x03500400 8, rowRO "MOT.CMDSTAT" 0x03500440 8,
    rowWO "MOT.AXCTL" 0x03500480 8,
    rowRO "CAM.GSTAT" 0x03600000, rowMS "CAM.PORTCFG" 0x03600100 4 0 0x000FFFFF7FFF1FFF 92,
    rowMS "CAM.TRIGCFG" 0x03600120 4 0x27100A00 0xFFFFFF0FFFFFFF01 92,
    rowMS "CAM.PTRIGPOS" 0x03600140 4 0 0xFFFFFFFFFFFF 92,
    rowMS "CAM.SETCFG" 0x03600160 4 0x0001F40019000000 0x00FFFFFFFF07037F 92,
    rowMS "CAM.OUTCFG" 0x03600180 4 0 0xFFFFF777 92,
    rowRO "CAM.STAT" 0x036001A0 4, rowRO "CAM.FRAME" 0x036001C0 4, rowRO "CAM.CNT" 0x036001E0 4,
    rowWO "CAM.CTL" 0x03600200 4, rowRO "CAM.SETSTAT" 0x03600220 4, rowWO "CAM.I2CCMD" 0x03600240 4,
    rowRO "CAM.I2CSTAT" 0x03600260 4, rowRO "CAM.LASTFR" 0x03600280 4,
    { name := "CAM.RING", base := 0x03600300, stride := 8, count := 16, acc := .ms, mask := 0x0000FFFFFFFF001F,
      u0 := 92, udiv := 32, umod := 4 },
    rowRW "CAM.RINGPTR" 0x03600400 0xFFFFFFFF00000000 16,
    rowRO "CAM.RQ" 0x03601000 4 32 true,
    rowTab "CAM.SETTAB" 0x03700000 64 1024 all64 92 16384 4,
    rowTab "CAM.CORR" 0x06200000 256 4 all64 92 256 4,
    rowTab "CAM.GAMMA" 0x06300000 2 4096 all64 92 2048 4,
    rowTab "CAM.DEFECT" 0x06400000 4 32768 0xFFFFBFFFFFFFBFFF 92 32768 4,
    rowTab "CAM.FLAT" 0x06500000 2 65536 all64 92 32768 4,
    rowTab "CAM.BINTAB" 0x06600000 2 65536 all64 92 32768 4 ]

/-- HLT, MEM, XLT, TIM, PWS and CAL (18 R510). -/
def regsRest : List RegRow :=
  [ rowRO "HLT.GSTAT" 0x03800000, rowWO "HLT.NZCTL" 0x03800008, rowWO "HLT.TESTCTL" 0x03800010,
    rowRO "HLT.TESTSTAT" 0x03800018, rowWO "HLT.ALCTL" 0x03800020, rowRO "HLT.ALSTAT" 0x03800028,
    rowMS "HLT.SEQCFG" 0x03800100 16 0 7 64, rowMS "HLT.POL" 0x03800180 4 0 0xF00003FFFF1FFFFF 96,
    rowMS "HLT.PORTCFG" 0x03800200 64 6 0x1FFF000F 0,
    rowRO "HLT.CNT" 0x03800400 64, rowRO "HLT.ALPORT" 0x03800600 64,
    rowTab "HLT.BINMAP" 0x03900000 4 262144 0x1F3F1FFF1F3F1FFF 96 262144 4,
    rowTab "HLT.REFTAB" 0x03A00000 2 262144 all64 96 131072 4,
    rowRO "HLT.SCORE" 0x03B00000 262144 1 true,
    rowRO "HLT.NZSTATE" 0x03C00000 524288 2 true,
    rowTab "HLT.MARKTAB" 0x03D00000 16 1024 all64 100 1 1,
    rowRO "HLT.ALRES" 0x03D10000 1024 8 true,
    rowRO "MEM.GSTAT" 0x04000000, rowRO "MEM.DRAMINFO" 0x04000008,
    rowMS "MEM.CHCFG" 0x04000010 1 0x0C1810C8 0x7FFF1FFF 100, rowMS "MEM.SDCFG" 0x04000018 1 0x0103E807 0xFFFFFF07 100,
    rowRO "MEM.SDSTAT" 0x04000020, rowRO "MEM.BISTREC" 0x04000028, rowRO "MEM.OASIS" 0x04000030,
    rowRO "MEM.SERR" 0x04000038,
    rowRW "MEM.FLIPMASK" 0x04000040 all64, rowRW "MEM.FLIPCTL" 0x04000048 0x000FFFFFFFFF07FF,
    rowRO "MEM.CHSTAT" 0x04000100 4, rowRO "MEM.DECC" 0x04000120 4, rowRO "MEM.DERR" 0x04000140 4,
    rowRO "MEM.SECC" 0x04000200 5, rowRO "MEM.TRRES" 0x04000400 40,
    rowRO "XLT.GSTAT" 0x04800000, rowRO "XLT.KEYSTAT" 0x04800008, rowRO "XLT.TLBSTAT" 0x04800010,
    rowRO "XLT.NETSTAT" 0x04800018, rowRO "XLT.FNSTAT" 0x04800100 4, rowRW "XLT.FNWIN" 0x04800120 0x0000FFFFFFFF0000 4,
    rowRO "XLT.SESS" 0x04801000 256, rowRO "XLT.LASTCTR" 0x04801800 256, rowRO "XLT.PTROOT" 0x04802000 256,
    rowRO "XLT.FAULT" 0x04802800 256, rowWO "XLT.CVCTL" 0x04803000 64, rowRO "XLT.CVSTAT" 0x04803200 64,
    rowRO "TIM.GSTAT" 0x05000000, rowMS "TIM.PTPCFG" 0x05000008 1 0x43000000 0x0000FFFFFFFFFF7F 100,
    rowMS "TIM.SERVOCFG" 0x05000010 1 0x64000A41 0x1FFFFFFFFFF 100,
    rowRO "TIM.NOWSEC" 0x05000018, rowRO "TIM.NOWNS" 0x05000020, rowRO "TIM.RATE" 0x05000028,
    rowRO "TIM.OFFSET" 0x05000030, rowRO "TIM.MPD" 0x05000038, rowRO "TIM.PARENT" 0x05000040,
    rowRO "TIM.PARENTPORT" 0x05000048, rowRO "TIM.HOLD" 0x05000050, rowRO "TIM.CNT" 0x05000058,
    rowRW "TIM.SETSEC" 0x05000060 0xFFFFFFFFFFFF, rowWO "TIM.SETNS" 0x05000068,
    rowMS "TIM.ASYM" 0x05000070 1 0 0xFFFFFFFF 100,
    { rowMS "TIM.LATCOR" 0x05000100 8 0 0xFFFFFFFF 100 with umod := 1 },
    rowRO "PWS.GSTAT" 0x05100000, rowMS "PWS.FEEDCFG" 0x05100008 1 0x001E1800 0xFFFF0F 100,
    rowWO "PWS.FEEDCTL" 0x05100010, rowMS "PWS.THCFG" 0x05100018 1 0xFFFF6E5F 0xFFFFFFFF 100,
    rowRO "PWS.DIESTAT" 0x05100020, rowRO "PWS.BOARDT" 0x05100028, rowRO "PWS.GAPREC" 0x05100030,
    rowRO "PWS.BOOTSTAT" 0x05100038, rowRO "PWS.FWSTAT" 0x05100040, rowRO "PWS.FEEDSTAT" 0x05100100 14,
    rowRO "PWS.RAILCNT" 0x05100200 7,
    rowRO "CAL.GSTAT" 0x05200000, rowRO "CAL.DTTRIM" 0x05200008, rowRO "CAL.NVSTAT" 0x05200010,
    rowRO "CAL.RUN" 0x05200100 4 16, rowRO "CAL.RES" 0x05200108 4 16 ]

/-- The register index (18 R510). -/
def regTable : List RegRow := regsGlbMgt ++ regsPlane ++ regsPosMotCam ++ regsRest

/-- The address lies in the entry: in its bytes for a table or window, in the 8 bytes of an instance for a register. -/
def RegRow.has (r : RegRow) (a : Nat) : Bool :=
  r.base ≤ a && a < r.base + r.stride * r.count && (r.table || (a - r.base) % r.stride < 8)

/-- The instance an address lies in. -/
def RegRow.idx (r : RegRow) (a : Nat) : Nat := (a - r.base) / r.stride

/-- The entry of an address, if the index lists one (00 R8). A camera has three rings, so a fourth is not listed. -/
def regAt (a : Nat) : Option RegRow :=
  if 0x03600300 ≤ a && a < 0x03600480 && 24 ≤ a % 32 then none else regTable.find? (·.has a)

/-- The unit of an MS address (12 R365). -/
def RegRow.unit (r : RegRow) (a : Nat) : Nat := r.u0 + (a - r.base) / r.udiv % r.umod

/-- The defined bits of the 8-byte word at `a` (00 R8): every other bit is reserved, reads as 0 and ignores writes.
SETTAB, CORR and MARKTAB have words of unlike layout (08 R284, 09 R305). -/
def RegRow.wmask (r : RegRow) (a : Nat) : Nat :=
  if r.base = 0x03700000 then (if (a - r.base) % 64 < 8 then 0xFFFFFFFF000003FF else all64)
  else if r.base = 0x06200000 then
    let o := (a - r.base) % 256 / 8 * 8
    if o = 0 then all64
    else if o = 8 then 0xFFFFFFFF
    else if o < 0x58 then 0x0FFF0FFF0FFF0FFF
    else if o < 0x60 then 0
    else if o < 0x70 then all64
    else if o = 0x70 then 0xFFFF
    else 0
  else if r.base = 0x03D00000 then (if (a - r.base) % 16 < 8 then all64 else 0x7BFFFFF)
  else r.mask

/-- The reset value of the word at `a` (18 R510). -/
def resetWord (a : Nat) : Word :=
  match regAt a with
  | some r => wd r.reset
  | none => 0

/-- The 8-byte word that an address lies in. -/
def wordAddr (a : Nat) : Nat := a / 8 * 8

/-- The value in force of the MS or plain RW word at `a` (12 R361). -/
def State.reg (s : State) (a : Nat) : Word := s.mgt.live.get (resetWord a) a

/-- The staged value of the word at `a`: the staged one where a session has staged it, else the value in force (12 R375). -/
def State.stagedReg (s : State) (a : Nat) : Word := (s.mgt.staged.find a).getD (s.reg a)

/-- The word at `a` put in force; a word at its reset value is not listed. -/
def State.setReg (s : State) (a : Nat) (v : Word) : State :=
  { s with mgt := { s.mgt with live := s.mgt.live.set (resetWord a) a v } }

/-- Bits hi:lo of the word in force at `a`. -/
def State.rf (s : State) (a hi lo : Nat) : Nat := bits (s.reg a) hi lo

/-- A table entry of `n` bytes at byte address `a`, from the values in force. -/
def State.tab (s : State) (a n : Nat) : Nat :=
  bitsN (s.reg (wordAddr a)).toNat (8 * (a % 8) + 8 * n - 1) (8 * (a % 8))

/-- A table entry as staged. -/
def State.stab (s : State) (a n : Nat) : Nat :=
  bitsN (s.stagedReg (wordAddr a)).toNat (8 * (a % 8) + 8 * n - 1) (8 * (a % 8))

end Sys2Proof.Machine
end

