-- ==== Sys2Proof/Machine/Together.lean ====
section
/-! DEFINITION. Commands that come in the same LCLK tick or instant as this one, for the coincidences that the spec decides (01 R18). -/
namespace Sys2Proof.Machine
open Sys2Proof

/-- What happens around the block before a command. -/
def envOf (i : Instr) : Env :=
  match i with
  | .safeNAssert e | .safeNRelease e | .visionResult e | .healthApply e | .testApply e | .sheepdogWindow e
  | .ptpDelayReqSend e | .ptpDiscard e | .syncTimeout e | .announceTimeout e | .ptpLinkLoss e | .nowsecRead e
  | .gapRelease e | .vsafeLost e | .vsafeRestore e | .refclkLost e | .refclkRestore e | .thermtrip e | .deviceReady e
  | .mgmtLost e | .mgmtResume e | .porstNLow e => e
  | .nop e _ | .halt e _ | .jmp e _ | .brc e _ | .call e _ | .ret e _ | .loop e _ | .fence e _ | .ldi e _ | .add e _
  | .sub e _ | .andI e _ | .orI e _ | .cmp e _ | .mov e _ | .ldst e _ | .ldt e _ | .ldpos e _ | .swath e _ | .lines e _
  | .blank e _ | .spit e _ | .lineQueueAppend e _ | .endswath e _ | .swathEnd e _ | .pitch e _ | .rowdly e _
  | .energy e _ | .waitpos e _ | .waittime e _ | .waitev e _ | .waitax e _ | .signal e _ | .mark e _
  | .programCommit e _ | .yieldI e _ | .move e _ | .vel e _ | .acc e _ | .stop e _ | .home e _ | .camtrig e _
  | .camset e _ | .contextDispatch e _ | .contextSaveDone e _ | .contextRestoreDone e _ | .phaseWindowEnd e _
  | .encLos e _ | .encLosClear e _ | .still e _ | .ssiFrameStart e _ | .ssiTimeout e _ | .lineEvent e _
  | .fireInstant e _ | .readPoint e _ | .caravanDescriptor e _ | .indexBlock e _ | .streamFetch e _ | .duneHeader e _
  | .engineGrant e _ | .duneDecodeDone e _ | .teltoExpiry e _ | .ackTimeout e _ | .pushStart e _ | .bandLoadDone e _
  | .pushRetry e _ | .tableFrameSend e _ | .controlFrameSend e _ | .responseTimeout e _ | .missWindowEnd e _
  | .hvsettleExpiry e _ | .laneCalDone e _ | .wakeDone e _ | .wakeTimeout e _ | .identTimeout e _ | .configDone e _
  | .linkLost e _ | .portAutoRetry e _ | .frameStart e _ | .frameEnd e _ | .lineSlot e _ | .frameComplete e _
  | .camNoclk e _ | .camClockReturn e _ | .positionTrigger e _ | .trigPulse e _ | .trigTimeout e _ | .settingsWindow e _
  | .ptrigSkipWindow e _ | .senseApply e _ | .testDisarm e _ | .alignDisarm e _ | .decelStart e _ | .microstepSwitch e _
  | .moveEnd e _ | .homeIndex e _ | .homeFail e _ | .sessionOpen e _ | .sessionConfirm e _ | .sessionClose e _
  | .heartbeat e _ | .revokeSession e _ | .revokeUnit e _ | .keyInstall e _ | .keyErase e _ | .netSet e _ | .claim e _
  | .release e _ | .memAlloc e _ | .memFree e _ | .ptSet e _ | .tlbInval e _ | .faultResume e _ | .memWrite e _
  | .memRead e _ | .ctxLoad e _ | .ctxArm e _ | .ctxStart e _ | .ctxStop e _ | .commit e _ | .stageDiscard e _
  | .snapshot e _ | .calRestore e _ | .calLane e _ | .calAlign e _ | .calDark e _ | .calFlat e _ | .calTemptrim e _
  | .calDramrt e _ | .calAbort e _ | .calTimeout e _ | .repairRow e _ | .repairRetest e _ | .nvWrite e _ | .nvRead e _
  | .fwStage e _ | .fwSwitch e _ | .fwProbationEnd e _ | .regRead e _ | .regWrite e _ | .authWrite e _ | .cmdOverrun e _
  | .eventsSend e _ | .eventsResend e _ | .datagramDiscard e _ | .tableWalkDone e _ | .leaseLapse e _
  | .kennelCutoff e _ | .kennelRelease e _ | .confirmTimeout e _ | .commitValidate e _ | .catchupDone e _
  | .commitPoint e _ | .commitTimeout e _ | .snapshotPeriodic e _ | .zeroFill e _ | .eccWriteback e _ | .tableHeal e _
  | .sheepdogWindowEnd e _ | .dictTest e _ | .feedTrip e _ | .feedFail e _ | .feedSync e _ | .shareImbal e _
  | .loadTransferTest e _ | .vsafeTestEnd e _ | .pwsClrcnt e _ | .dieSensorSample e _ | .perst e _ | .evqGap e _
  | .ssiDataReady e _ | .cruise e _ | .prbsRunStart e _ | .netAddressChange e _ => e
  | .waitComplete e _ _ | .waitTimeout e _ _ | .zEdge e _ _ | .encClrq e _ _ | .rowTrigger e _ _ | .engineAbandon e _ _
  | .ldpClrcnt e _ _ | .telemetryFrame e _ _ | .ackFrame e _ _ | .responseFrame e _ _ | .upstreamVoid e _ _
  | .hvctlOn e _ _ | .hvctlOff e _ _ | .firClrcnt e _ _ | .portUp e _ _ | .portDown e _ _ | .portCal e _ _
  | .klClrcnt e _ _ | .prbsStop e _ _ | .headFireSymbol e _ _ | .headLineFrame e _ _ | .headTableFrame e _ _
  | .headSync e _ _ | .headDrop e _ _ | .camLine e _ _ | .camTrig e _ _ | .settingsWriteDone e _ _ | .camPop e _ _
  | .camClrcnt e _ _ | .i2cDone e _ _ | .motCmdStop e _ _ | .axisEn e _ _ | .axisDis e _ _ | .axisRelease e _ _
  | .calDone e _ _ | .evrdWrite e _ _ | .evack e _ _ | .caravanKick e _ _ | .caravanCancel e _ _ | .dramRefresh e _ _
  | .dramTempPoll e _ _ | .dramPowerdown e _ _ | .dictTestDone e _ _ | .flipArm e _ _ | .eccWindowEnd e _ _
  | .timeSet e _ _ | .loadTransferEnd e _ _ | .feedReshare e _ _ | .vsafeTest e _ _ | .warmReset e _ _
  | .msixUnmask e _ _ | .headSymbolAlignment e _ _ | .dmaReadCompletion e _ _ => e
  | .seqSignal e _ _ _ | .seqGsignal e _ _ _ | .seqEvbitsClear e _ _ _ | .encoderEdge e _ _ _ | .ssiFrameDone e _ _ _
  | .prbsRunEnd e _ _ _ | .eyeSweep e _ _ _ | .headControlFrame e _ _ _ | .camSetreq e _ _ _ | .nzctlOut e _ _ _
  | .nzctlRelease e _ _ _ | .motCmdMove e _ _ _ | .motCmdMoveA e _ _ _ | .motCmdVel e _ _ _ | .motCmdAcc e _ _ _
  | .motCmdHome e _ _ _ | .registerWrite e _ _ _ | .caravanStart e _ _ _ | .patrolScrub e _ _ _
  | .feedMonitorSample e _ _ _ => e
  | .encRebase e _ _ _ _ | .streamEn e _ _ _ _ | .ringFlush e _ _ _ _ | .prbsStart e _ _ _ _ | .windowAccess e _ _ _ _
  | .ptpPdelayReq e _ _ _ _ | .boardSensorSample e _ _ _ _ => e
  | .hregAccess e _ _ _ _ _ | .headPowerUp e _ _ _ _ _ => e
  | .i2cCommand e _ _ _ _ _ _ | .alignArm e _ _ _ _ _ _ => e
  | .headTelemetrySend e _ _ _ _ _ _ _ | .testArm e _ _ _ _ _ _ _ | .ptpDelayResp e _ _ _ _ _ _ _ => e
  | .ptpSync e _ _ _ _ _ _ _ _ => e
  | .ptpAnnounce e _ _ _ _ _ _ _ _ _ | .coldStart e _ _ _ _ _ _ _ _ _ => e

/-- The LCLK tick counter (03 R76): ticks of 0.8 ns since READY; `now` counts quanta of 0.2 ns. -/
def State.ticks (s : State) : Nat := (s.now - s.tickBase) / 4

/-- The first and the last quantum of the present tick. -/
def State.tickStart (s : State) : Nat := s.tickBase + 4 * s.ticks
def State.tickEnd (s : State) : Nat := s.tickStart + 3

/-- Instant t lies in the present LCLK tick. -/
def State.sameTick (s : State) (t : Nat) : Bool := (t - s.tickBase) / 4 == s.ticks

/-- The commands of a queue that come up to d quanta after now. -/
def within (d : Nat) : List Instr → List Instr
  | [] => []
  | c :: l => if (envOf c).dt ≤ d then c :: within (d - (envOf c).dt) l else []

/-- The commands still to come in the present LCLK tick.
[log 6: DESIGN CHOICE] -/
def State.together (s : State) : List Instr := within (3 - (s.now - s.tickBase) % 4) s.pending

/-- The commands still to come in this very instant.
[log 6: DESIGN CHOICE] -/
def State.atOnce (s : State) : List Instr := within 0 s.pending

end Sys2Proof.Machine
end

