-- ==== Sys2Proof/Machine/Ops.lean ====
section
/-! DEFINITION. The shared operations: indexed parts of the state, time, memory, MSI-X, event records and queues, claims and fail-safe causes. -/
namespace Sys2Proof.Machine
open Sys2Proof

/-! ## Parts of the state -/

/-- Sequencer q changed by f. -/
def State.modSeq (s : State) (q : Nat) (f : Seq → Seq) : State := { s with seq := vmod s.seq q f }
/-- Context c of sequencer q. -/
def State.ctxOf (s : State) (q c : Nat) : Ctx := vget (vget s.ctx q) c
/-- Context c of sequencer q changed by f. -/
def State.modCtx (s : State) (q c : Nat) (f : Ctx → Ctx) : State := { s with ctx := vmod s.ctx q (fun v => vmod v c f) }
/-- Stream p changed by f. -/
def State.modStr (s : State) (p : Nat) (f : Stream → Stream) : State := { s with str := vmod s.str p f }
/-- The line ring of port p changed by f. -/
def State.modRing (s : State) (p : Nat) (f : Ring → Ring) : State := { s with ring := vmod s.ring p f }
/-- Engine g changed by f. -/
def State.modEng (s : State) (g : Nat) (f : Engine → Engine) : State := { s with eng := vmod s.eng g f }
/-- Encoder channel c changed by f. -/
def State.modEnc (s : State) (c : Nat) (f : Enc → Enc) : State := { s with enc := vmod s.enc c f }
/-- The placer of sequencer q changed by f. -/
def State.modPlace (s : State) (q : Nat) (f : Placer → Placer) : State := { s with place := vmod s.place q f }
/-- The firing state of port p changed by f. -/
def State.modFp (s : State) (p : Nat) (f : FirePort → FirePort) : State := { s with fp := vmod s.fp p f }
/-- The link state of port p changed by f. -/
def State.modKl (s : State) (p : Nat) (f : KlPort → KlPort) : State := { s with kl := vmod s.kl p f }
/-- Head p changed by f. -/
def State.modHead (s : State) (p : Nat) (f : Head → Head) : State := { s with head := vmod s.head p f }
/-- Camera c changed by f. -/
def State.modCam (s : State) (c : Nat) (f : Cam → Cam) : State := { s with cam := vmod s.cam c f }
/-- Axis a changed by f. -/
def State.modAx (s : State) (a : Nat) (f : Axis → Axis) : State := { s with ax := vmod s.ax a f }
/-- Session n changed by f. -/
def State.modSess (s : State) (n : Nat) (f : Sess → Sess) : State := { s with sess := vmod s.sess n f }
/-- Session n. -/
def State.ses (s : State) (n : Nat) : Sess := vget s.sess n
/-- The health engine changed by f. -/
def State.modHlt (s : State) (f : Health → Health) : State := { s with hlt := f s.hlt }
/-- The generations, claims and staged words changed by f. -/
def State.modMgt (s : State) (f : Mgt → Mgt) : State := { s with mgt := f s.mgt }
/-- The memory blocks changed by f. -/
def State.modMem (s : State) (f : MemSt → MemSt) : State := { s with mem := f s.mem }
/-- The translation block changed by f. -/
def State.modXlt (s : State) (f : Xlt → Xlt) : State := { s with xlt := f s.xlt }
/-- The time base changed by f. -/
def State.modTim (s : State) (f : Tim → Tim) : State := { s with tim := f s.tim }
/-- Power and start-up changed by f. -/
def State.modPws (s : State) (f : Pws → Pws) : State := { s with pws := f s.pws }
/-- The fail-safe causes changed by f. -/
def State.modSafe (s : State) (f : Safe → Safe) : State := { s with safe := f s.safe }

/-- f run for each element of a list, in order. -/
def State.each {α : Type} (s : State) (l : List α) (f : State → α → State) : State := l.foldl f s

/-- f where b holds. -/
def State.when (s : State) (b : Bool) (f : State → State) : State := if b then f s else s

/-- A value that the spec leaves open, drawn afresh: nothing is known of it.
[log 9: DESIGN CHOICE] -/
def State.draw (s : State) : State × Word := ({ s with draws := s.draws + 1 }, Config.freeWord s.draws)

/-! ## Time -/

/-- Quanta in an LCLK tick, in a microsecond and in a millisecond. -/
def qTick : Nat := 4
def qUs : Nat := 5000
def qMs : Nat := 5000000

/-- Device time in nanoseconds (14 R421), from units of 0.8 ns · 2^−40. -/
def State.devNs (s : State) : Nat := s.tim.t * 4 / (5 * 2 ^ 40)

/-- The 2^−16 ns fraction of device time. -/
def State.devFrac (s : State) : Nat := s.tim.t * 4 * 65536 / (5 * 2 ^ 40) % 65536

/-- Device time in the PACKED form (03 R76): bits 31:0 of the seconds, then the nanoseconds. -/
def packNs (ns : Nat) : Word := wd (ns / 1000000000 % 2 ^ 32 * 2 ^ 32 + ns % 1000000000)

/-- The time-stamp of an event decided now (14 R434).
[log 120: DEDUCED] -/
def State.stamp (s : State) : Word := packNs s.devNs

/-- How much of the time from t to now the gated domains were held in switch-over gaps (16 R461).
[log 41: DEDUCED] -/
def State.heldFrom (s : State) (t : Nat) : Nat :=
  let here := match s.pws.gap with | some g => [(g.since, s.now)] | none => []
  (s.pws.gaps ++ here).foldl (fun n g => n + (g.2 - max t g.1)) 0

/-- A deadline of a command that the spec times exactly: d quanta after t have passed in the gated domains, which stand still
in a switch-over gap (16 R461).
[log 5: DESIGN CHOICE] -/
def State.due (s : State) (t d : Nat) : Bool := t + d + s.heldFrom t ≤ s.now

/-- Such a deadline in the safe island or outside the device, which no gap holds (16 R461, R462).
[log 5: DESIGN CHOICE] -/
def State.dueFree (s : State) (t d : Nat) : Bool := t + d ≤ s.now

/-! ## Memory -/

/-- A byte of a memory; a byte that nothing has written reads as 0.
[log 8: DESIGN CHOICE] -/
def memByte (m : List Host.Cell) (a : Nat) : Byte := SMap.get m 0 a

/-- A memory with one byte written; a byte of 0 is not listed.
[log 8: DESIGN CHOICE] -/
def memPut (m : List Host.Cell) (a : Nat) (b : Byte) : List Host.Cell := SMap.set m 0 a b

/-- n bytes from address a. -/
def memRead (m : List Host.Cell) (a n : Nat) : List Byte := (List.range n).map (fun i => memByte m (a + i))

/-- Bytes written from address a. -/
def memWrite (m : List Host.Cell) (a : Nat) : List Byte → List Host.Cell
  | [] => m
  | b :: l => memWrite (memPut m a b) (a + 1) l

/-- A memory with every byte from a up to a + n made 0. -/
def memClear (m : List Host.Cell) (a n : Nat) : List Host.Cell := m.filter (fun c => !(a ≤ c.1 && c.1 < a + n))

/-- Canonical form: addresses strictly rising from `lo`, and no listed byte equal to 0. -/
def Memory.wfFrom : Nat → List Host.Cell → Bool
  | _, [] => true
  | lo, (a, b) :: l => lo ≤ a && b != 0 && Memory.wfFrom (a + 1) l

/-- The canonical form of a memory: equal memories are equal lists.
[log 8: DESIGN CHOICE] -/
def Memory.wf (m : List Host.Cell) : Bool := Memory.wfFrom 0 m

/-! ## MSI-X (18 R518, R519) -/

/-- An output recorded for this command. -/
def State.emit (s : State) (o : Out) : State := { s with out := s.out ++ [o] }

/-- The vector of function f is sent already by this command. -/
def State.sentVec (s : State) (f v : Nat) : Bool :=
  s.out.any (fun o => match o with | .msix f' v' _ _ => f' == f && v' == v | _ => false)

/-- Vector v raised on function f: sent at most once per command, or kept pending while it or the function is masked.
[log 96: PRESUMED] -/
def State.raise (s : State) (f v : Nat) : State :=
  let m := vget s.msix f
  let e := SMap.get m.table ({} : Vec) v
  if !m.enabled then s
  else if m.fmask || e.masked then
    { s with msix := vset s.msix f { m with pending := addOnce v m.pending } }
  else if s.sentVec f v then s
  else s.emit (.msix f v e.addr e.data)

/-- A device-wide vector raised on every function. -/
def State.raiseAll (s : State) (v : Nat) : State := s.each (List.range 4) (fun s f => s.raise f v)

/-- Vector 4·n + k of a PCIe session n; an Ifeud session has none. -/
def State.raiseSess (s : State) (n k : Nat) : State :=
  if (s.ses n).net then s else s.raise (s.ses n).fn (4 * n + k)

/-! ## Sessions and claims -/

/-- Session n is CONFIRMED. -/
def State.confirmed (s : State) (n : Nat) : Bool := (s.ses n).st == .confirmed

/-- The open Steward session (11 R341). -/
def State.steward (s : State) : Option Nat :=
  (List.range 256).find? (fun n => s.confirmed n && (s.ses n).cls == .steward)

/-- The session that holds the claim of unit u (12 R365, R382). -/
def State.holder (s : State) (u : Nat) : Option Nat := vget s.mgt.claims u

/-- Session n holds the claim of unit u. -/
def State.holds (s : State) (n u : Nat) : Bool := s.holder u == some n

/-- Unit numbers (12 R365). -/
def uSeq (q : Nat) : Nat := 64 + q
def uAx (a : Nat) : Nat := 84 + a
def uCam (c : Nat) : Nat := 92 + c

/-- Session n is of class Maintenance or Steward. -/
def State.maint (s : State) (n : Nat) : Bool := (s.ses n).cls == .maintenance || (s.ses n).cls == .steward

/-- The unit of a BAR0 address (12 R365). -/
def unitAt (a : Nat) : Nat := match regAt a with | some r => r.unit a | none => 100

/-! ## Segments -/

/-- Port p belongs to the segment of sequencer q by the committed map (01 R23). -/
def State.inSegment (s : State) (q p : Nat) : Bool := bit (s.reg (0x01000180 + 8 * q)) p

/-- The sequencer of port p: the one whose open swath binds it, else the one whose map names it. -/
def State.segOf (s : State) (p : Nat) : Option Nat :=
  ((List.range 16).find? (fun q => (vget s.seq q).swst == .opened && (vget s.seq q).swPorts.contains p)).or
    ((List.range 16).find? (fun q => s.inSegment q p))

/-- Port p is bound by an open swath. -/
def State.portOpen (s : State) (p : Nat) : Bool :=
  (List.range 16).any (fun q => (vget s.seq q).swst == .opened && (vget s.seq q).swPorts.contains p)

/-- The sequencer that camera c's frames are stamped for (08 R260): PORTCFG[SEQ]. -/
def State.camSeq (s : State) (c : Nat) : Nat := s.rf (0x03600100 + 8 * c) 51 48

/-- The sequencer whose line and swath a record of unit u carries (01 R12): a port's, its own, or a camera's. -/
def State.unitSeq (s : State) (u : Nat) : Option Nat :=
  if u < 64 then s.segOf u else if u < 80 then some (u - 64) else if 92 ≤ u && u < 96 then some (s.camSeq (u - 92)) else none

/-! ## Event records (17 R482-R489) -/

/-- A record decided now. `q` is the sequencer whose LINE and SWATH it carries; without one both are 0 and LV is 0.
[log 24: DEDUCED; log 120: DEDUCED] -/
def State.ev (s : State) (type error source : Nat) (q : Option Nat := none) (detail : Word := 0) (flags : Nat := 0)
    (line : Option Nat := none) : EvRec :=
  match q with
  | some q =>
    { type := type, error := error, source := source, flags := flags ||| 0x100, time := s.stamp,
      line := line.getD (vget s.seq q).ln, swath := (vget s.seq q).sw, detail := detail }
  | none => { type := type, error := error, source := source, flags := flags, time := s.stamp, detail := detail }

/-- The GAP record of the records lost (17 R488). -/
def gapRec (l : Loss) : EvRec :=
  { type := 1, error := 0x011A, flags := l.flags, time := l.time, line := l.line, swath := l.swath, detail := wd l.count }

/-- A record dropped at a full queue. -/
def EvQueue.drop (q : EvQueue) (r : EvRec) : EvQueue :=
  { q with dropped := satAdd 16 q.dropped 1,
           loss := match q.loss with
             | none => some { count := 1, flags := r.flags &&& 0x100, time := r.time, line := r.line, swath := r.swath }
             | some l => some { l with count := l.count + 1 } }

/-- The GAP written where it is owed and two slots are free. -/
def EvQueue.settle (q : EvQueue) : EvQueue :=
  match q.loss with
  | some l => if q.held.length + 2 ≤ 4095 then { q with held := q.held ++ [gapRec l], fresh := q.fresh + 1, loss := none } else q
  | none => q

/-- A record enters a queue, or is dropped and counted (17 R488). -/
def EvQueue.push (q : EvQueue) (r : EvRec) : EvQueue :=
  let q := q.settle
  if q.loss.isNone && q.held.length < 4095 then { q with held := q.held ++ [r], fresh := q.fresh + 1 } else q.drop r

/-- Session n's queue replaced, with the vectors that the change raises (18 R518). -/
def State.setEvq (s : State) (n : Nat) (q' : EvQueue) : State :=
  let q := (s.ses n).evq
  let s := s.modSess n (fun x => { x with evq := q' })
  let s := s.when (q.held.isEmpty && !q'.held.isEmpty) (fun s => s.raiseSess n 1)
  s.when ((q.loss.isNone && q'.loss.isSome) || (q.held.length < 3072 && 3072 ≤ q'.held.length))
    (fun s => s.raiseSess n 3)

/-- The read index moved to i, where i lies among the records that EVWR has passed (17 R486, R487). -/
def EvQueue.moveRd (q : EvQueue) (i : Nat) : EvQueue :=
  let k := (i + 4096 - q.rd) % 4096
  if q.held.length - q.fresh < k then q
  else EvQueue.settle { q with rd := i, held := q.held.drop k, sent := q.sent - k }

/-- The EVRD writes and EVACKs for session n in this very instant, which take effect before a record that finds the queue full
(17 R488).
[log 6: DESIGN CHOICE] -/
def State.rdFirst (s : State) (n : Nat) : State :=
  s.each s.atOnce (fun s c => match c with
    | .evrdWrite _ m i => if m.val = n && !(s.ses n).net then s.setEvq n ((s.ses n).evq.moveRd i) else s
    | .evack _ m i => match m.path with
      | .net _ addr udp =>
        if m.session = n && (s.ses n).net && (s.ses n).peer == addr && (s.ses n).peerPort == udp then
          s.setEvq n ((s.ses n).evq.moveRd i)
        else s
      | .pcie _ _ => s
    | _ => s)

/-- A record posted to session n; a session that is free or in quarantine receives none (12 R383).
[log 145: DEDUCED] -/
def State.postTo (s : State) (n : Nat) (r : EvRec) : State :=
  if (s.ses n).st == .opening || (s.ses n).st == .confirmed then
    let s := s.when (4094 ≤ (s.ses n).evq.held.length || (s.ses n).evq.loss.isSome) (fun s => s.rdFirst n)
    s.setEvq n ((s.ses n).evq.push r)
  else s

/-- A record posted to an optional session, else to the Steward, else discarded (17 R485, rules 4 and 5). -/
def State.postOr (s : State) (n : Option Nat) (r : EvRec) : State :=
  match n.or s.steward with
  | some n => s.postTo n r
  | none => s

/-- A record posted to the holder of unit u (17 R485, rule 4). -/
def State.postUnit (s : State) (u : Nat) (r : EvRec) : State := s.postOr (s.holder u) r

/-- A record posted to the Steward's queue (17 R485, rule 1). -/
def State.postSteward (s : State) (r : EvRec) : State := s.postOr none r

/-- A record posted to every CONFIRMED session (17 R485, rule 2). -/
def State.postAll (s : State) (r : EvRec) : State :=
  s.each (those 256 s.confirmed) (fun s n => s.postTo n r)

/-- An error code posted to session n as an EVENT record (18 R508). -/
def State.postErr (s : State) (n code source : Nat) (detail : Word := 0) : State :=
  s.postTo n (s.ev 2 code source none detail)

/-! ## Fail-safe causes (17 R490-R493) -/

/-- The SAFESTAT word (17 R504). -/
def State.safestat (s : State) : Word :=
  fields [(0, 16, s.safe.emerg), (16, 8, s.safe.tmax), (24, 1, b1 s.safe.safeN), (25, 1, b1 s.safe.dieHot),
    (26, 1, b1 s.safe.refclk), (27, 1, b1 s.safe.vsafe), (28, 1, b1 s.safe.mgmt)]

/-- FAULT_n is high (17 R491, R492). -/
def State.faultHigh (s : State) : Bool :=
  s.phase == .ready && s.safe.emerg == 0 && !s.safe.dieHot && !s.safe.refclk && !s.safe.vsafe && !s.safe.mgmt
    && !s.safe.trainFail && !s.pws.trip

/-- Every port blanks: a device-wide cause holds (17 R491). -/
def State.allBlank (s : State) : Bool :=
  s.safe.safeN || s.safe.dieHot || s.safe.refclk || s.safe.vsafe || s.safe.mgmt || s.pws.trip || s.phase != .ready

/-- Vectors SAFE and FAULTN where SAFESTAT or the level of FAULT_n has changed since s0 (18 R518). -/
def State.safeVecs (s s0 : State) : State :=
  let s := s.when (s.safestat != s0.safestat) (fun s => s.raiseAll 1025)
  s.when (s.faultHigh != s0.faultHigh) (fun s => s.raiseAll 1026)

/-- A cause begins: its bits are set in SAFESTAT by f and in SAFELATCH, and FAILSAFE_SET is posted (17 R490). -/
def State.causeSet (s : State) (code source latch : Nat) (q : Option Nat) (f : Safe → Safe) : State :=
  let s' := s.modSafe (fun x => { f x with latch := x.latch ||| latch })
  (s'.postAll (s'.ev 13 code source q 0 0x200)).safeVecs s

/-- A cause clears: f clears its bit, and FAILSAFE_CLEAR is posted (17 R490). -/
def State.causeClear (s : State) (code source : Nat) (q : Option Nat) (f : Safe → Safe) : State :=
  let s' := s.modSafe f
  (s'.postAll (s'.ev 14 code source q 0 0x200)).safeVecs s

/-! ## Windows of counted records (07 R233, 13 R417) -/

/-- A record counted in its 1 ms window: the first opens the window and is posted at once, the others are counted.
[log 151: DEDUCED] -/
def Window.hit (w : Window) (now : Nat) : Window × Bool :=
  match w.since with
  | none => ({ since := some now, more := 0 }, true)
  | some t => ({ since := some t, more := w.more + 1 }, false)

end Sys2Proof.Machine
end

