-- ==== Sys2Proof/Machine/Motion.lean ====
section
/-! DEFINITION. The motion block (10): the rate multiplier, ramps, commands, homing and halts of the eight axes. -/
namespace Sys2Proof.Machine
open Sys2Proof

/-! ## Configuration in force (10 R326, R327) -/

def State.axVstart (s : State) (a : Nat) : Nat := s.rf (0x03500180 + 8 * a) 31 0
def State.axVmax (s : State) (a : Nat) : Nat := s.rf (0x03500180 + 8 * a) 63 32
def State.axLimLo (s : State) (a : Nat) : Int := signedN 48 (s.rf (0x035001C0 + 8 * a) 47 0)
def State.axLimHi (s : State) (a : Nat) : Int := signedN 48 (s.rf (0x03500200 + 8 * a) 47 0)
def State.axHomePos (s : State) (a : Nat) : Int := signedN 48 (s.rf (0x03500280 + 8 * a) 47 0)
/-- HOMECFG: direction (true = decreasing), speed in V units, distance and back-off in units. -/
def State.homeBack (s : State) (a : Nat) : Bool := bit (s.reg (0x03500240 + 8 * a)) 0
def State.homeVel (s : State) (a : Nat) : Nat := s.rf (0x03500240 + 8 * a) 19 4 * 4096
def State.homeDist (s : State) (a : Nat) : Nat := s.rf (0x03500240 + 8 * a) 43 20 * 32
def State.homeOff (s : State) (a : Nat) : Nat := s.rf (0x03500240 + 8 * a) 59 44 * 32
/-- TH1–TH3 of RESCFG in V units; 0 where the level is unused. -/
def State.axTh (s : State) (a i : Nat) : Nat :=
  if i = 0 then 0 else s.rf (0x03500140 + 8 * a) (11 + 16 * i) (16 * i - 4) * 4096

/-- STEPW and DIRSU in STEPCLK cycles, and the resolution of the level in force: one step is 2^r units (10 R326). -/
def State.axStepW (s : State) (a : Nat) : Nat := s.rf (0x03500100 + 8 * a) 7 4
def State.axDirSu (s : State) (a : Nat) : Nat := s.rf (0x03500100 + 8 * a) 15 8
def State.axRes (s : State) (a : Nat) : Nat :=
  let l := (vget s.ax a).level
  s.rf (0x03500140 + 8 * a) (3 * l + 2) (3 * l)

/-- STEPCLK's own time in quanta: it does not run in a switch-over gap (10 R322). -/
def State.axTime (s : State) : Nat := (match s.pws.gap with | some g => g.since | none => s.now) - s.gapTime

/-- The number of the STEPCLK cycle: 10 ns, 50 quanta. -/
def State.stepCyc (s : State) : Nat := s.axTime / 50

/-- The instant of the STEPCLK edge k + 1 edges from now (10 R314). -/
def State.stepEdge (s : State) (k : Nat) : Nat := s.now + (50 - s.axTime % 50) + 50 * k

/-! ## One STEPCLK cycle -/

/-- The axis is moving (10 R325 GSTAT). -/
def Axis.moving (x : Axis) : Bool :=
  x.st == .accel || x.st == .cruise || x.st == .decel || x.st == .homing

/-- Standstill with an empty queue (03 R87). -/
def Axis.still (x : Axis) : Bool := !x.moving && x.queued.isNone

/-- The velocity the axis moves towards: the floor where it slows, else the velocity of its phase. -/
def Axis.goal (x : Axis) : Nat :=
  if x.st == .decel || x.stopping then x.floor else x.vel

/-- v brought towards g by acc, in units of 2^−16 V LSB (10 R309). -/
def ramp (v g acc : Nat) : Nat :=
  let g := g * 65536
  if v < g then min g (v + acc) else max g (v - acc)

/-- The axis has nowhere further to go in this leg: its target is reached, or its ramp to standstill has ended. -/
def Axis.atEnd (x : Axis) : Bool :=
  if x.stopping then x.v ≤ x.floor * 65536 else x.pos == x.target

/-- In cycle k the oldest step that is due rises, where DIRSU has passed and the pulse before it has been low for STEPW cycles
(10 R307, R310, R311); `r` is the resolution, `w` STEPW.
[log 77: DESIGN CHOICE] -/
def Axis.rise (r w k : Nat) (x : Axis) : Axis :=
  let free := match x.riseAt with | some t => t + 2 * w ≤ k | none => true
  if 0 < x.stepsDue && x.riseFrom ≤ k && free then
    { x with riseAt := some k, stepsDue := x.stepsDue - 1, risePhase := (x.phase / 2 ^ r - (x.stepsDue - 1)) * 2 ^ r }
  else x

/-- One unit emitted (10 R308, R309): the position and the phase count advance, and a step is due where the phase count
is a multiple of 2^r.
[log 77: DESIGN CHOICE] -/
def Axis.unit (r : Nat) (x : Axis) : Axis :=
  let n := x.phase + 1
  { x with pos := x.pos + (if x.back then -1 else 1), phase := n, travelled := x.travelled + 1,
           stepsDue := if n % 2 ^ r = 0 then x.stepsDue + 1 else x.stepsDue }

/-- STEPCLK cycle k of a move: V is added to the accumulator, a carry emits one unit, and V follows its ramp (10 R308, R309).
An axis at its target or at the end of its ramp emits no further unit. `hv` is the homing velocity.
[log 77: DESIGN CHOICE; log 78: DEDUCED] -/
def Axis.cycle (hv r w k : Nat) (x : Axis) : Axis :=
  if x.atEnd then x.rise r w k
  else
    let a := x.accum + x.v / 65536
    let g := if x.st == .homing && !x.stopping then
        (if x.leg == .second || x.slow then x.floor else hv) else x.goal
    let x := { x with accum := a % 2 ^ 32, v := ramp x.v g x.acc }
    (if a < 2 ^ 32 then x else x.unit r).rise r w k

/-- n cycles from cycle k on: those of a move, or those in which an axis at standstill lets a step rise that still waits. -/
def Axis.cycles (hv r w : Nat) : Nat → Nat → Axis → Axis
  | 0, _, x => x
  | n + 1, k, x => Axis.cycles hv r w n (k + 1) (if x.moving then x.cycle hv r w k else x.rise r w k)

/-! ## Starting and ending a move -/

/-- DIR set at the start of a move; where it changes, the first STEP waits until cycle `lead` (10 R307). -/
def Axis.face (x : Axis) (back : Bool) (lead : Nat) : Axis :=
  { x with back := back, riseFrom := if back == x.back then x.riseFrom else max x.riseFrom lead }

/-- A move from standstill to a target (10 R313, R315): the floor is min(VSTART, velocity in force).
[log 78: DEDUCED] -/
def Axis.start (x : Axis) (vstart vel : Nat) (target : Int) (lead : Nat) : Axis :=
  if target = x.pos then x
  else
    let fl := min vstart vel
    { x.face (target < x.pos) lead with
      st := .accel, target := target, floor := fl, v := fl * 65536, stopping := false, travelled := 0 }

/-- An `acc` accepted while slowing applies from the next move (10 R316). -/
def Axis.nextAcc (x : Axis) : Axis := { x with acc := x.accNext.getD x.acc, accNext := none }

/-- Standstill: the queued move starts, or the axis is IDLE. -/
def Axis.finish (x : Axis) (vstart lead : Nat) : Axis :=
  let x := { x.nextAcc with st := .idle, v := 0, stopping := false, zPos := none }
  match x.queued with
  | none => x
  | some (rel, t) => { x with queued := none }.start vstart x.vel (if rel then x.pos + t else t) lead

/-- The braking distance from the present speed at rate acc (10 R313), in units: (V² − floor²) / 2A with V in units of
2^−32 per cycle and A in 2^−48 per cycle². -/
def Axis.braking (x : Axis) (acc : Nat) : Nat :=
  let v := x.v / 65536
  if acc = 0 then 0 else (v * v - x.floor * x.floor) * 65536 / (2 * acc) / 2 ^ 32

/-- Units left to the target. -/
def Axis.left (x : Axis) : Nat := (x.target - x.pos).natAbs

/-- Axis a changed by f, with the instant in which it came to stand still with an empty queue (10 R314). -/
def State.modAxis (s : State) (a : Nat) (f : Axis → Axis) : State :=
  s.modAx a (fun x => let y := f x
    { y with stillAt := if y.still && !x.still then s.now else y.stillAt })

/-! ## Halts (10 R321) -/

/-- A cause that holds every axis is in force (17 R491). -/
def State.stepCause (s : State) : Bool :=
  s.safe.safeN || s.safe.dieHot || s.safe.refclk || s.safe.vsafe || s.safe.mgmt || s.pws.trip

/-- A cause that held axis a still holds. -/
def State.axCause (s : State) (a : Nat) : Bool :=
  s.stepCause || (vget s.ax a).causes.any (fun q => s.safe.emerg.testBit q)

/-- Axis a halted: HELD, its move and queue gone; above the floor it loses HOMED and posts HALT_LOSS. `q` names the
sequencer of an EMERG_FAULT. -/
def State.haltAxis (s : State) (a : Nat) (q : Option Nat) : State :=
  let x := vget s.ax a
  if x.st == .disabled then s
  else
    let loss := x.moving && x.floor < x.v / 65536
    let hom := x.homed && !loss && !(x.st == .homing)
    let cs := match q with | some q => addOnce q x.causes | none => x.causes
    let s := s.modAxis a (fun x => { x.nextAcc with
      st := .held, queued := none, v := 0, stopping := false, homed := hom, causes := cs, stepsDue := 0, zPos := none })
    s.when loss (fun s => s.postUnit (uAx a) (s.ev 2 0x080A a))

/-- Every axis halted (17 R491). -/
def State.haltAll (s : State) : State := s.each (List.range 8) (fun s a => s.haltAxis a none)

/-! ## Camera triggers under a cause (08 R259) -/

def camTrigAddr (c : Nat) : Nat := 0x03600120 + 8 * c


/-- A fail-safe cause stops the triggers of camera c: one that stops every camera, or an EMERG_FAULT of the sequencer
that CAM.PORTCFG[c][SEQ] names (17 R491). -/
def State.trigStopped (s : State) (c : Nat) : Bool :=
  s.safe.dieHot || s.safe.refclk || s.safe.vsafe || s.safe.mgmt || s.pws.trip || s.phase != .ready ||
    s.safe.emerg.testBit (s.camSeq c)

/-- A record about a request, to the session that made it: the context's, or the holder of the camera (17 R485). -/
def State.camPost (s : State) (c : Nat) (src : TrigSrc) (code : Nat) (detail : Word := 0) : State :=
  match src with
  | .program q k => s.postOr (some (s.ctxOf q k).session) (s.ev 2 code c (some q) detail)
  | _ => s.postUnit (uCam c) (s.ev 2 code c (some (s.camSeq c)) detail)

/-- The level of pin TRIG of camera c (08 R255, R280). -/
def State.trigPin (s : State) (c : Nat) : Bool := (s.now < (vget s.cam c).trigEnd) != bit (s.reg (camTrigAddr c)) 0

/-- TRIG of camera c inactive from now on (08 R254, R259). -/
def State.trigCut (s : State) (c : Nat) : State :=
  if s.now < (vget s.cam c).trigEnd then
    (s.modCam c (fun x => { x with trigEnd := s.now })).emit (.trig c (bit (s.reg (camTrigAddr c)) 0))
  else s

/-- The triggers of a camera that a cause stops (08 R259): TRIG is inactive and queued requests end without a frame; a
`camtrig` accepted in this very tick is refused after all (08 R277). -/
def State.trigStop (s : State) (c : Nat) : State :=
  if !s.trigStopped c then s
  else
    let l := (vget s.cam c).queue
    let s := (s.trigCut c).modCam c (fun x => { x with queue := [] })
    s.each l (fun s r => match r.src with
      | .program q k =>
        if s.sameTick r.at_ then (s.camPost c r.src 0x0904 1).modCtx q k (fun y => { y with t := true })
        else s.camPost c r.src 0x090D
      | _ => s.camPost c r.src 0x090D)

/-- Triggers stopped on every camera that a cause stops. -/
def State.trigStopAll (s : State) : State := s.each (List.range 4) State.trigStop

/-! ## Commands (10 R314-R320) -/

/-- The position a relative move counts from (03 R91): the target of the move ahead, the present position at standstill,
or where the ramp of a stop ends. -/
def Axis.from_ (x : Axis) : Int :=
  if !x.moving then x.pos
  else if x.stopping then
    x.pos + (if x.back then -(x.braking x.acc : Int) else (x.braking x.acc : Int))
  else x.target

/-- Why a command is refused, or 0 (10 R315-R320), in the order HELD, DISABLED, BUSY, then the command's own rules.
[log 80: DEDUCED] -/
def State.motRefusal (s : State) (a : Nat) (cls : Class) (op : MotOp) : Nat :=
  let x := vget s.ax a
  if x.st == .held then 0x0807
  else if x.st == .disabled then 0x0808
  else match op with
  | .stop => 0
  | .home _ =>
    if x.st == .homing then 0x0801 else if cls != .maintenance then 0x0804 else if !x.still then 0x0801 else 0
  | .vel v =>
    if x.st == .homing then 0x0801 else if v = 0 || s.axVmax a < v then 0x0805 else 0
  | .acc v =>
    if x.st == .homing then 0x0801
    else if v = 0 then 0x0805
    else if (x.st == .accel || x.st == .cruise) && x.left < x.braking v then 0x0805
    else 0
  | .move abs v =>
    let t := if abs then v else x.from_ + v
    if x.st == .homing then 0x0801
    else if !abs && v = 0 then 0
    else if x.queued.isSome then 0x0801
    else if x.vel = 0 || x.acc = 0 then 0x0805
    else if t < -(2 ^ 47 : Int) || (2 ^ 47 : Int) ≤ t then 0x0805
    else if cls == .production && !x.homed then 0x0803
    else if cls == .production && (t < s.axLimLo a || s.axLimHi a < t) then 0x0802
    else 0

/-- A homing leg begun at the floor towards `back`, bounded by `dist` units (10 R320).
[log 78: DEDUCED] -/
def Axis.homeLeg (x : Axis) (leg : HomeLeg) (back : Bool) (fl dist lead : Nat) : Axis :=
  { x.face back lead with
    st := .homing, leg := leg, floor := fl, v := fl * 65536, stopping := false, slow := false, travelled := 0,
    zPos := none, target := x.pos + (if back then -(dist : Int) else (dist : Int)) }

/-- The first cycle in which a STEP may rise after a change of DIR now. -/
def State.axLead (s : State) (a : Nat) : Nat := s.stepCyc + s.axDirSu a

/-- The effect of an accepted command, at its STEPCLK edge (10 R314-R320, R323): an axis that is HELD or DISABLED by then is
left alone, and an axis that has arrived is not stopped.
[log 76: DEDUCED; log 79: DEDUCED; log 81: DEDUCED] -/
def State.motApply (s : State) (a : Nat) (op : MotOp) : State :=
  let vs := s.axVstart a
  let lead := s.axLead a
  let st := (vget s.ax a).st
  if st == .held || st == .disabled then s
  else match op with
  | .vel v => s.modAxis a (fun x =>
      { x with vel := v, st := if x.st == .cruise && x.v != v * 65536 then .accel else x.st })
  | .acc v => s.modAxis a (fun x =>
      if x.st == .decel then { x with accNext := some v } else { x with acc := v, accNext := none })
  | .stop => s.modAxis a (fun x =>
      let x := { x with queued := none }
      if (x.st == .accel || x.st == .cruise) && x.atEnd then x
      else if x.st == .accel || x.st == .cruise then { x with st := .decel, stopping := true }
      else if x.st == .homing then { x with st := .decel, stopping := true, homed := false }
      else x)
  | .move abs v => s.modAxis a (fun x =>
      if !abs && v = 0 then x
      else if !x.moving then x.start vs x.vel (if abs then v else x.pos + v) lead
      else if !abs && x.stopping then { x with queued := some (true, v) }
      else { x with queued := some (false, if abs then v else x.from_ + v) })
  | .home sel =>
    let fl := min vs (s.homeVel a)
    let back := s.homeBack a
    if sel = 0 then s.modAxis a (fun x => { x with pos := s.axHomePos a, homed := true })
    else s.modAxis a (fun x => ({ x with homed := false, homeSeq := sel }).homeLeg .first back fl (s.homeDist a) lead)

/-- A happening put on its way: it comes in its turn, at instant t.
[log 12: DESIGN CHOICE] -/
def State.after (s : State) (t : Nat) (d : Due) : State :=
  { s with agenda := s.agenda.filter (fun x => x.at_ ≤ t) ++ [{ at_ := t, what := d }] ++ s.agenda.filter (fun x => t < x.at_) }

/-- The commands of axis a that have been accepted and await their STEPCLK edge. -/
def State.axAwaits (s : State) (a : Nat) : List MotOp :=
  s.agenda.filterMap (fun d => match d.what with | .motion b op => if b = a then some op else none | _ => none)

/-- The state that a command of axis a is decided against: that of the latest edge, with the commands accepted since.
[log 76: DEDUCED] -/
def State.axAhead (s : State) (a : Nat) : State := s.each (s.axAwaits a) (fun s op => s.motApply a op)

/-- Standstill with an empty queue as LCLK sees it: 5 ticks after the deciding edge, and no accepted command on its way
(10 R314).
[log 76: DEDUCED] -/
def State.axStill (s : State) (a : Nat) : Bool :=
  (vget (s.axAhead a).ax a).still && s.due (vget s.ax a).stillAt (5 * qTick)

/-- A command decided (10 R314): accepted, to take effect at the next STEPCLK edge, or refused with a record of its code to
session n, with line and swath of the sequencer q whose context asked.
[log 76: DEDUCED] -/
def State.motion (s : State) (a n : Nat) (op : MotOp) (q : Option Nat := none) : State × Nat :=
  let code := (s.axAhead a).motRefusal a (s.ses n).cls op
  if code = 0 then (s.after (s.stepEdge 0) (.motion a op), 0)
  else ((s.modAx a (fun x => { x with err := code })).postTo n (s.ev 2 code a q), code)

/-- A host's MOT.CMD write by session n: the result goes to CMDSTAT (10 R328).
[log 76: DEDUCED] -/
def State.hostMotion (s : State) (a n : Nat) (op : MotOp) : State × Nat :=
  let r := s.motion a n op
  (r.1.modAx a (fun x => { x with cmdBusy := false, cmdDone := true, cmdErr := r.2 }), r.2)

/-- AXCTL EN, DIS and RELEASE (10 R321, R328) by session n. An axis enabled while a cause holds its outputs is HELD
(17 R490).
[log 83: DEDUCED] -/
def State.axisEn (s : State) (a : Nat) : State × Nat :=
  (s.modAxis a (fun x => if x.st == .disabled then
      { x with st := if s.axCause a then .held else .idle, phase := 0, lvlAt := none, riseAt := none, stepsDue := 0 } else x), 0)
/-- DIS of MOT.AXCTL[a] (10 R328): refused while the axis moves; else the axis is DISABLED at level 0, not homed, without a queued move.
[log 79: DEDUCED] -/
def State.axisDis (s : State) (a n : Nat) : State × Nat :=
  let x := vget s.ax a
  if x.moving || !(s.axAwaits a).isEmpty then ((s.modAx a (fun x => { x with err := 0x0801 })).postErr n 0x0801 a, 0x0801)
  else (s.modAxis a (fun x => { x with st := .disabled, homed := false, queued := none, level := 0, stepsDue := 0 }), 0)
/-- RELEASE of MOT.AXCTL[a] (10 R321): out of HELD once the cause is gone. -/
def State.axisRelease (s : State) (a n : Nat) : State × Nat :=
  if (vget s.ax a).st != .held then (s, 0)
  else if s.axCause a then ((s.modAx a (fun x => { x with err := 0x0807 })).postErr n 0x0807 a, 0x0807)
  else (s.modAxis a (fun x => { x with st := .idle, causes := [] }), 0)

/-! ## Time -/

/-- The axes after the STEPCLK cycles from k0 on (10 R308, R322): an axis that moves, or whose last steps still wait.
[log 77: DESIGN CHOICE] -/
def State.advanceAxes (s : State) (k0 : Nat) : State :=
  let n := s.stepCyc - k0
  s.each (List.range 8) (fun s a =>
    let x := vget s.ax a
    if x.moving then s.modAx a (fun _ => x.cycles (s.homeVel a) (s.axRes a) (s.axStepW a) n k0)
    else if 0 < x.stepsDue then s.modAx a (fun _ => x.cycles 0 (s.axRes a) (s.axStepW a) (min n 8192) k0)
    else s)

/-- Device time after the ticks from k0 to k1 (14 R421, R429): a new RATE applies from the tick after `rateAt`.
[log 118: DEDUCED] -/
def Tim.advance (t : Tim) (k0 k1 : Nat) : Tim :=
  let n1 := min k1 (max k0 t.rateAt) - k0
  let n2 := k1 - k0 - n1
  { t with t := t.t + cutN 128 ((n1 : Int) * (2 ^ 40 + t.rate)) + cutN 128 ((n2 : Int) * (2 ^ 40 + t.rateNext)),
           rate := if t.rateAt ≤ k1 then t.rateNext else t.rate }

/-- Time passes up to instant t: device time and the axes advance; a switch-over gap counts in device time with its own length
(14 R423).
[log 5: DESIGN CHOICE] -/
def State.passTo (s : State) (t : Nat) : State :=
  let k0 := s.stepCyc
  let t0 := s.ticks
  let s := { s with now := max s.now t }
  let s := if s.phase != .ready then s
    else if s.pws.gap.isSome then s.modTim (fun x => { x with t := x.t + (s.ticks - t0) * 2 ^ 40 })
    else s.modTim (fun x => x.advance t0 s.ticks)
  s.advanceAxes k0

/-- One idle tick.
[log 1: DESIGN CHOICE] -/
def idleEnv : Env := { dt := 4 }

end Sys2Proof.Machine
end

