-- ==== Sys2Proof/Machine/Wire.lean ====
section
/-! DEFINITION. What a Kwady lane carries (07 R209-R218, R229-R231, R238): the 8b/10b code, the bytes and CRC-32 of each frame, and the PRBS patterns and checkers. -/
namespace Sys2Proof.Machine
open Sys2Proof

/-! ## Symbols (07 R209, R210) -/

/-- The control symbols of the link (07 R210): K28.5, K28.1, K28.3, K27.7, K23.7, K28.0, K29.7 and K30.7. -/
inductive Ctl where
  | idle | fire | fireBlank | sol | sot | soc | eof | abort
deriving DecidableEq, Repr, Inhabited

/-- A character: a byte, or a control symbol. -/
inductive Sym where
  | byte (b : Byte)
  | ctl (c : Ctl)
deriving DecidableEq, Repr, Inhabited

/-- Every control symbol. -/
def allCtl : List Ctl := [.idle, .fire, .fireBlank, .sol, .sot, .soc, .eof, .abort]

/-- x and y of a character's name Dx.y or Kx.y. -/
def Ctl.xy : Ctl → Nat × Nat
  | .idle => (28, 5) | .fire => (28, 1) | .fireBlank => (28, 3) | .sol => (27, 7) | .sot => (23, 7) | .soc => (28, 0)
  | .eof => (29, 7) | .abort => (30, 7)

/-- The 6-bit code of x at negative running disparity, bit a lowest (IEEE 802.3 clause 36).
[log 49: DEDUCED] -/
def code6 : List Nat :=
  [57, 46, 45, 35, 43, 37, 38, 7, 39, 41, 42, 11, 44, 13, 14, 58] ++
  [54, 49, 50, 19, 52, 21, 22, 23, 51, 25, 26, 27, 28, 29, 30, 53]

/-- The 4-bit codes of y at negative running disparity, of a byte and of a control symbol, bit f lowest.
[log 49: DEDUCED] -/
def code4 : List Nat := [13, 9, 10, 3, 11, 5, 6, 7]
def code4k : List Nat := [13, 6, 5, 3, 11, 10, 9, 14]

/-- The number of 1 bits among the low n of x. -/
def ones (n x : Nat) : Nat := countN n (fun i => x.testBit i)

/-- The 6-bit code of x at running disparity rd (true: positive); K28 has a code of its own. -/
def six (k28 : Bool) (x : Nat) (rd : Bool) : Nat :=
  let c := if k28 then 60 else code6.getD x 0
  if rd && (ones 6 c ≠ 3 || (x == 7 && !k28)) then 63 - c else c

/-- The 4-bit code of y after x; a byte ends in the alternate code of .7 where the plain one would make a run of five. -/
def four (k : Bool) (x y : Nat) (rd : Bool) : Nat :=
  if k then (if rd then 15 - code4k.getD y 0 else code4k.getD y 0)
  else if y = 7 && (if rd then [11, 13, 14].contains x else [17, 18, 20].contains x) then (if rd then 1 else 14)
  else
    let c := code4.getD y 0
    if rd && (ones 4 c ≠ 2 || y == 3) then 15 - c else c

/-- The running disparity after n bits of code c: as before where it is balanced. -/
def disparity (n : Nat) (rd : Bool) (c : Nat) : Bool := rd != (2 * ones n c != n)

/-- The 10-bit code of a character, bit a (sent first) lowest, and the running disparity after it (07 R209). -/
def encSym (rd : Bool) (c : Sym) : Nat × Bool :=
  let (k, x, y) := match c with
    | .byte b => (false, b.toNat % 32, b.toNat / 32)
    | .ctl c => (true, c.xy.1, c.xy.2)
  let a := six (k && x == 28) x rd
  let rd1 := disparity 6 rd a
  let f := four k x y rd1
  (a + 64 * f, disparity 4 rd1 f)

/-- The character whose code at running disparity rd is `code`; none is a code or disparity error, and so is a control symbol
that the link does not use (07 R210). -/
def decSym (rd : Bool) (code : Nat) : Option Sym :=
  match allCtl.find? (fun c => (encSym rd (.ctl c)).1 == code) with
  | some c => some (.ctl c)
  | none =>
    match (List.range 32).find? (fun x => six false x rd == code % 64) with
    | none => none
    | some x =>
      let rd1 := disparity 6 rd (code % 64)
      ((List.range 8).find? (fun y => four false x y rd1 == code / 64)).map (fun y => .byte (BitVec.ofNat 8 (x + 32 * y)))

/-- The running disparity that a receiver takes from a code: its own where the code is balanced. -/
def rdAfter (rd : Bool) (code : Nat) : Bool :=
  if ones 10 code = 5 then rd else decide (5 < ones 10 code)

/-- The codes of characters from running disparity rd on.
[log 49: DEDUCED] -/
def encSyms : Bool → List Sym → List Nat
  | _, [] => []
  | rd, c :: l => (encSym rd c).1 :: encSyms (encSym rd c).2 l

/-- The running disparity after characters. -/
def rdOver (rd : Bool) (l : List Sym) : Bool := l.foldl (fun rd c => (encSym rd c).2) rd

/-- The characters of received codes. -/
def decSyms : Bool → List Nat → List (Option Sym)
  | _, [] => []
  | rd, c :: l => decSym rd c :: decSyms (rdAfter rd c) l

/-! ## Frames (07 R213) -/

/-- Eight steps of the reflected register of the IEEE 802.3 CRC-32, polynomial 0x04C11DB7. -/
def ieeeStep : Nat → Nat → Nat
  | 0, c => c
  | k + 1, c => ieeeStep k (if c % 2 = 1 then (c / 2) ^^^ 0xEDB88320 else c / 2)

/-- The IEEE 802.3 CRC-32 of bytes (07 R213). -/
def crc32 (l : List Byte) : Nat := (l.foldl (fun c b => ieeeStep 8 (c ^^^ b.toNat)) 0xFFFFFFFF) ^^^ 0xFFFFFFFF

/-- A frame: its start symbol, header and payload, CRC, and K29.7. -/
def frameSyms (start : Ctl) (body : List Byte) : List Sym :=
  .ctl start :: (body ++ toLE 4 (crc32 body)).map .byte ++ [.ctl .eof]

/-- What a receiver makes of a frame's characters: its start and body; ended by K30.7; or void (07 R213, R214). -/
inductive Seen where
  | frame (start : Ctl) (body : List Byte)
  | ended
  | bad
deriving DecidableEq, Repr, Inhabited

/-- The byte of a character. -/
def symByte : Option Sym → Option Byte
  | some (.byte b) => some b
  | _ => none

/-- A frame read from its characters, start to end.
[log 49: DEDUCED] -/
def readFrame (l : List (Option Sym)) : Seen :=
  match l with
  | some (.ctl start) :: r =>
    let d := r.dropLast.filterMap symByte
    let whole := d.length + 1 == r.length
    match r.getLast? with
    | some (some (.ctl .abort)) => if whole then .ended else .bad
    | some (some (.ctl .eof)) =>
      let body := d.take (d.length - 4)
      if whole && 4 ≤ d.length && leNat (d.drop (d.length - 4)) == crc32 body then .frame start body else .bad
    | _ => .bad
  | _ => .bad

/-! ## Packed fields -/

/-- A sparse map of n values of w bits each as one number, value j at bit w·j (04 R111). -/
def packMap (w : Nat) (m : SMap Nat) : Nat := m.foldl (fun a x => a + x.2 % 2 ^ w * 2 ^ (w * x.1)) 0

/-- The sparse map that such a number holds. -/
def unpackMap (w n v : Nat) : SMap Nat := ((List.range n).map (fun j => (j, v >>> (w * j) % 2 ^ w))).filter (fun x => x.2 != 0)

/-! ## Downstream frames (07 R215, R216, R218) -/

/-- The code of a control frame's operation. -/
def ctlCode : CtlOp → Nat
  | .hwrite => 1 | .hread => 2 | .sync => 3 | .drop => 4

/-- The characters of an item.
[log 49: DEDUCED] -/
def itemChars : DownItem → List Sym
  | .fire b t => [.ctl (if b then .fireBlank else .fire), .byte (BitVec.ofNat 8 t)]
  | .line f => frameSyms .sol (toLE 4 f.line ++ toLE 2 (b1 f.spit) ++ toLE 2 f.energy ++ toLE 2 f.seq ++ zeros 6 ++
      toLE 3072 (packMap 3 f.codes))
  | .table f => frameSyms .sot (toLE 1 (f.bank % 2 + 2 * f.reserved) ++ toLE 1 f.index ++ toLE 1 f.band ++ zeros 1 ++ toLE 2 f.seq ++
      zeros 10 ++ toLE 2048 (packMap 16 f.points))
  | .ctl f => frameSyms .soc (toLE 1 (ctlCode f.op) ++ toLE 1 f.id ++ toLE 2 f.seq ++ toLE 3 f.addr ++ toLE 1 f.len ++ f.data)

/-- The frame that a start symbol and a body spell on a downstream lane; none is a void frame: a wrong length, or an
operation that R218 does not name. -/
def parseDown (start : Ctl) (l : List Byte) : Option DownItem :=
  match start with
  | .sol =>
    if l.length ≠ 3088 then none
    else some (.line { line := leAt l 0 4, spit := leAt l 4 2 % 2 == 1, energy := leAt l 6 2, seq := leAt l 8 2,
                       codes := unpackMap 3 8192 (leAt l 16 3072) })
  | .sot =>
    if l.length ≠ 2064 then none
    else
      let extra := leAt l 0 1 / 2 + leAt l 2 1 / 8 + leAt l 3 1 + leAt l 6 10
      some (.table { bank := leAt l 0 1 % 2, index := leAt l 1 1, band := leAt l 2 1 % 8, seq := leAt l 4 2,
                     reserved := extra, points := unpackMap 16 1024 (leAt l 16 2048) })
  | .soc =>
    let n := leAt l 7 1
    let op := ([.hwrite, .hread, .sync, .drop] : List CtlOp).find? (fun o => ctlCode o == leAt l 0 1)
    match op with
    | none => none
    | some o =>
      let size := if o == .hwrite || o == .sync then 4 * n else 0
      if l.length ≠ 8 + size then none
      else some (.ctl { op := o, id := leAt l 1 1, seq := leAt l 2 2, addr := leAt l 4 3, len := n, data := l.drop 8 })
  | _ => none

/-! ## Upstream frames (07 R229-R231) -/

/-- A temperature field: 1/16 °C, signed. -/
def tempField (t : Option Int) : Nat := cutN 16 (t.getD 0)

/-- The characters of an upstream frame.
[log 49: DEDUCED] -/
def upChars : UpFrame → List Sym
  | .telem t => frameSyms .sol (toLE 2 t.tseq ++ toLE 2 t.dseq ++
      toLE 1 (t.liveBank % 2 + 2 * b1 t.bank0v + 4 * b1 t.bank1v + 8 * b1 t.doubt + 16 * b1 t.fault + 32 * b1 t.senseV) ++
      toLE 1 (maskN 8 (fun i => (t.temps.getD i none).isSome)) ++ t.temps.flatMap (fun x => toLE 2 (tempField x)) ++
      toLE 2 t.vsup ++ toLE 2 t.vlog ++ toLE 2 t.missCnt ++ toLE 1 t.missTag ++ toLE 1 t.senseWin ++ toLE 2 t.derr ++
      toLE 256 (packMap 2 t.sense))
  | .ack a => frameSyms .sot (toLE 1 a.index ++ toLE 1 a.bank ++ toLE 1 a.status ++ zeros 1 ++ toLE 2 a.seq ++ zeros 2)
  | .resp r => frameSyms .soc (toLE 1 (if r.write then 1 else 2) ++ toLE 1 r.id ++ toLE 1 r.status ++ zeros 1 ++
      toLE 3 r.addr ++ zeros 1 ++ r.data)

/-- The frame that a start symbol and a body spell on an upstream lane; none is a void frame. -/
def parseUp (start : Ctl) (l : List Byte) : Option UpFrame :=
  match start with
  | .sol =>
    if l.length ≠ 288 then none
    else
      let st := leAt l 4 1
      some (.telem {
        tseq := leAt l 0 2, dseq := leAt l 2 2, liveBank := st % 2, bank0v := st.testBit 1, bank1v := st.testBit 2,
        doubt := st.testBit 3, fault := st.testBit 4, senseV := st.testBit 5,
        temps := (List.range 8).map (fun i => if (leAt l 5 1).testBit i then some (signedN 16 (leAt l (6 + 2 * i) 2)) else none),
        vsup := leAt l 22 2, vlog := leAt l 24 2, missCnt := leAt l 26 2, missTag := leAt l 28 1, senseWin := leAt l 29 1 % 8,
        derr := leAt l 30 2, sense := unpackMap 2 1024 (leAt l 32 256) })
  | .sot =>
    if l.length ≠ 8 then none
    else some (.ack { index := leAt l 0 1, bank := leAt l 1 1, status := leAt l 2 1, seq := leAt l 4 2 })
  | .soc =>
    if l.length < 8 || (leAt l 0 1 ≠ 1 && leAt l 0 1 ≠ 2) then none
    else some (.resp { write := leAt l 0 1 == 1, id := leAt l 1 1, status := leAt l 2 1, addr := leAt l 4 3, data := l.drop 8 })
  | _ => none

/-- What the device makes of the codes of an upstream frame (07 R232): a frame, one ended by K30.7, or a void one. -/
inductive UpSeen where
  | frame (f : UpFrame)
  | ended
  | bad
deriving DecidableEq, Repr, Inhabited

/-- The codes of an upstream frame read; its start symbol tells the running disparity it begins at.
[log 49: DEDUCED] -/
def readUp (rx : List Nat) : UpSeen :=
  let rd := match rx.head? with | some c => (decSym false c).isNone | none => false
  match readFrame (decSyms rd rx) with
  | .frame start body => (match parseUp start body with | some f => .frame f | none => .bad)
  | .ended => .ended
  | .bad => .bad

/-! ## PRBS (07 R238) -/

/-- The two taps of pattern PAT (07 R238): PRBS7, PRBS15, PRBS23 and PRBS31. -/
def prbsTaps (pat : Nat) : Nat × Nat := [(7, 6), (15, 14), (23, 18), (31, 28)].getD pat (7, 6)

/-- The next bit of a pattern after the bits in `reg`, the latest lowest. -/
def prbsBit (pat reg : Nat) : Bool := reg.testBit ((prbsTaps pat).1 - 1) != reg.testBit ((prbsTaps pat).2 - 1)

/-- A register of the pattern's length with a bit shifted in. -/
def prbsShift (pat reg : Nat) (b : Bool) : Nat := (2 * reg + b1 b) % 2 ^ (prbsTaps pat).1

/-- A checker: its register, error-free bits in a row, whether it is locked, when it locked first, its count, and the places
of the errors among the latest 1,024 bits. -/
structure Checker where
  reg : Nat := 0
  good : Nat := 0
  locked : Bool := false
  lockAt : Option Nat := none
  errs : Nat := 0
  recent : List Nat := []
deriving DecidableEq, Repr, Inhabited

/-- Bit i received (07 R238): a checker that is not locked seeds itself from what it receives and locks after 64 error-free
bits; a locked one runs by itself, counts every error, and unlocks at 64 errors in 1,024 bits.
[log 50: DESIGN CHOICE] -/
def Checker.take (pat i : Nat) (b : Bool) (x : Checker) : Checker :=
  let p := prbsBit pat x.reg
  if x.locked then
    let r := (if b == p then x.recent else i :: x.recent).filter (fun j => i < j + 1024)
    let x := { x with reg := prbsShift pat x.reg p, errs := if b == p then x.errs else satAdd 32 x.errs 1, recent := r }
    if 64 ≤ r.length then { x with locked := false, good := 0, recent := [] } else x
  else
    let g := if b == p && x.reg ≠ 0 then x.good + 1 else 0
    let x := { x with reg := prbsShift pat x.reg b, good := g }
    if 64 ≤ g then { x with locked := true, lockAt := x.lockAt.or (some i) } else x

/-- A run of n bits from a generator on a lane that turns over the bits named in `flips`. INV inverts the pattern at both
ends.
[log 50: DESIGN CHOICE] -/
def prbsRun (pat n : Nat) (flips : List Nat) : Checker :=
  ((List.range n).foldl (fun (a : Nat × Checker) i =>
    let b := prbsBit pat a.1
    (prbsShift pat a.1 b, a.2.take pat i (b != flips.contains i))) (2 ^ (prbsTaps pat).1 - 1, {})).2

end Sys2Proof.Machine
end

