-- ==== Sys2Proof/Machine/Lane.lean ====
section
/-! DEFINITION. The downstream lanes (07 R209-R220): frames, fire symbols, aborts by K30.7 and the gap rule. -/
namespace Sys2Proof.Machine
open Sys2Proof

/-- Port p is in service: READY (07 R240). -/
def State.inService (s : State) (p : Nat) : Bool := (vget s.kl p).st == .ready

/-- The length of a frame in symbols, inserted fire symbols apart (07 R213-R218); a fire symbol is a pair. -/
def itemSymbols : DownItem → Nat
  | .fire _ _ => 2
  | .line _ => 3094
  | .table _ => 2070
  | .ctl f => 14 + f.data.length

/-- The item is a fire symbol. -/
def itemFire : DownItem → Bool
  | .fire _ _ => true
  | _ => false

/-- The item is a line frame. -/
def itemLine : DownItem → Bool
  | .line _ => true
  | _ => false

/-- The item is a table frame, or a control frame other than SYNC and DROP.
[log 161: DEDUCED] -/
def itemGap : DownItem → Bool
  | .table _ => true
  | .ctl f => f.op == .hwrite || f.op == .hread
  | _ => false

/-- The instant from which the lane is free of frames and of K30.7. -/
def State.laneFree (s : State) (p : Nat) : Nat :=
  let k := vget s.kl p
  (k.lane.filter (fun i => !itemFire i.item)).foldl (fun t i => max t i.at_) (max s.now k.busyTo)

/-- A lane with an item put in at its place in time. -/
def laneInsert (i : LaneItem) : List LaneItem → List LaneItem
  | [] => [i]
  | j :: l => if i.at_ < j.at_ then i :: j :: l else j :: laneInsert i l

/-- A frame with the sequence number n (07 R217). -/
def itemSeq (n : Nat) : DownItem → DownItem
  | .fire b t => .fire b t
  | .line f => .line { f with seq := n }
  | .table f => .table { f with seq := n }
  | .ctl f => .ctl { f with seq := n }

/-- A fire symbol inserted into a frame that has begun: the rest of the frame follows 2 ticks later (07 R212). -/
def LaneItem.insert (i f : LaneItem) : LaneItem :=
  match f.item with
  | .fire b t => { i with at_ := i.at_ + 2 * qTick, cuts := i.cuts ++ [((f.start - i.start) / qTick - 2 * i.cuts.length, b, t)] }
  | _ => i

/-- A frame placed from instant t on among the fire symbols of its lane: it starts behind one that is due then, and later ones
are inserted into it (07 R212). -/
def placeFrame (fires : List LaneItem) (t : Nat) (it : DownItem) : LaneItem :=
  let t := fires.foldl (fun t f => if f.start ≤ t && t < f.at_ then f.at_ else t) t
  fires.foldl (fun i f => if t < f.start && f.start < i.at_ then i.insert f else i)
    { start := t, at_ := t + qTick * itemSymbols it, item := it }

/-- A frame placed on the lane of port p where it is free from instant t on. It takes the next SEQ (07 R217).
[log 49: DEDUCED] -/
def State.sendFrom (s : State) (p t : Nat) (it : DownItem) : State :=
  let k := vget s.kl p
  let i := placeFrame (k.lane.filter (fun i => itemFire i.item)) (max t (s.laneFree p)) (itemSeq k.seqNo it)
  s.modKl p (fun k => { k with seqNo := (k.seqNo + 1) % 65536, lane := laneInsert i k.lane })

/-- A frame placed on the lane of port p as soon as it is free. -/
def State.sendFrame (s : State) (p : Nat) (it : DownItem) : State := s.sendFrom p s.now it

/-- When a fire symbol of port p due at instant t starts: 2 ticks at least after the one before it (06 R176). -/
def State.fireStart (s : State) (p t : Nat) : Nat :=
  ((vget s.kl p).lane.filter (fun i => itemFire i.item)).foldl (fun t i => max t i.at_) t

/-- An item of a lane as a fire symbol f finds it, which is later than any other; `free` is when the frame before ends. -/
def LaneItem.around (i f : LaneItem) (free : Nat) : LaneItem :=
  if itemFire i.item || i.at_ ≤ f.start then i
  else if i.start < f.start then i.insert f
  else
    let t := max (max i.start f.at_) free
    { i with start := t, at_ := t + (i.at_ - i.start) }

/-- A fire symbol of port p due at instant t: a frame symbol that is due with it goes 2 ticks later, inside a frame or at its
start (06 R176; 07 R212).
[log 49: DEDUCED] -/
def State.sendFire (s : State) (p t : Nat) (blank : Bool) (tag : Nat) : State :=
  let t := s.fireStart p t
  let f : LaneItem := { start := t, at_ := t + 2 * qTick, item := .fire blank (tag % 256) }
  let l := ((vget s.kl p).lane.foldl (fun (a : Nat × List LaneItem) i =>
    let j := i.around f a.1
    (if itemFire i.item then a.1 else j.at_, a.2 ++ [j])) (0, [])).2
  s.modKl p (fun k => { k with lane := laneInsert f l })

/-! ## Running disparity (07 R209) -/

/-- The characters of an item as they are sent: with the fire symbols inserted into it. -/
def LaneItem.chars (i : LaneItem) : List Sym :=
  (itemChars i.item).zipIdx.flatMap (fun x =>
    (i.cuts.filter (·.1 == x.2)).flatMap (fun c => itemChars (.fire c.2.1 c.2.2)) ++ [x.1])

/-- The running disparity of the lane as the symbol at instant t starts: IDLE, which fills the lane, turns it over. -/
def KlPort.rdBefore (k : KlPort) (t : Nat) : Bool := k.rd != ((t - k.rdAt) / qTick % 2 == 1)

/-- Characters sent from instant t on have passed. -/
def KlPort.passed (k : KlPort) (t : Nat) (l : List Sym) : KlPort :=
  { k with rd := rdOver (k.rdBefore t) l, rdAt := t + qTick * l.length }

/-! ## Frames ended by K30.7 (07 R214, R217) -/

/-- Frames of a lane that are not complete at instant t take numbers from n on. -/
def renumber (t : Nat) : Nat → List LaneItem → List LaneItem
  | _, [] => []
  | n, i :: l =>
    if itemFire i.item || i.at_ ≤ t then i :: renumber t n l
    else { i with item := itemSeq (n % 65536) i.item } :: renumber t (n + 1) l

/-- A frame that has begun ended by K30.7 at instant t: counted, and the next frame may start in the next tick. -/
def KlPort.abort (t : Nat) (k : KlPort) (i : LaneItem) : KlPort :=
  { k.passed i.start (i.chars.take ((t - i.start) / qTick) ++ [.ctl .abort]) with
    aborts := satAdd 16 k.aborts 1, busyTo := t + qTick }

/-- Frames of port p that satisfy f and are not complete end (07 R214, R217, R220): one that has begun by K30.7, and the numbers
of all are used again. A table frame and a head register access so ended are sent again.
[log 49: DEDUCED] -/
def State.laneCut (s : State) (p : Nat) (f : DownItem → Bool) : State :=
  let k := vget s.kl p
  let gone := fun (i : LaneItem) => !itemFire i.item && f i.item && s.now < i.at_
  let cut := k.lane.filter gone
  if cut.isEmpty then s
  else
    let left := k.lane.filter (fun i => !gone i)
    let n := cut.length + left.countP (fun i => !itemFire i.item && s.now < i.at_)
    let k := (cut.filter (fun i => i.start < s.now)).foldl (KlPort.abort s.now) k
    let s := s.modKl p (fun _ => { k with
      lane := renumber s.now (k.seqNo + 65536 - n % 65536) left,
      seqNo := (k.seqNo + 65536 - cut.length % 65536) % 65536 })
    s.each cut (fun s i =>
      match i.item with
      | .table f => s.modFp p (fun x => { x with push := x.push.map (fun u =>
          { u with frames := vmod u.frames f.index (fun w => { w with attempts := w.attempts - 1, sentAt := none }) }) })
      | .ctl f => if f.op == .hread || f.op == .hwrite then
          s.modKl p (fun k => { k with acc := k.acc.map (fun a => if a.id = f.id then { a with sentAt := none } else a) })
        else s
      | _ => s)

/-- The port leaves READY (07 R214, R241): its frames end, and fire symbols not begun are not sent. -/
def State.laneDown (s : State) (p : Nat) : State :=
  (s.laneCut p (fun i => !itemFire i)).modKl p (fun k => { k with
    lane := k.lane.filter (fun i => !(itemFire i.item && s.now < i.start)) })

/-- SYNC (07 R218, R219): its payload is the first line F and the row triggers of the port; a table or control frame on the
lane ends.
[log 161: DEDUCED] -/
def State.sendSync (s : State) (p f rt : Nat) : State :=
  (s.laneCut p (fun i => !itemLine i)).sendFrame p (.ctl { op := .sync, len := 2, data := toLE 4 f ++ toLE 4 (rt % 256) })

/-- A line frame that begins and, as its routing ends after 16 ticks with an uncorrectable error, ends with K30.7 (04 R125;
07 R214): it takes no number.
[log 49: DEDUCED] -/
def State.sendVoid (s : State) (p : Nat) (f : LineFrame) : State :=
  let s := s.laneCut p itemGap
  let t := s.laneFree p
  s.modKl p (fun k => { k.passed t ((itemChars (itemSeq k.seqNo (.line f))).take 16 ++ [.ctl .abort]) with
    aborts := satAdd 16 k.aborts 1, busyTo := t + 17 * qTick })

/-- DROP (07 R218, R219): after the K30.7 of a line frame in progress.
[log 161: DEDUCED] -/
def State.sendDrop (s : State) (p : Nat) : State :=
  if s.inService p then (s.laneCut p itemLine).sendFrame p (.ctl { op := .drop }) else s

/-- A table or control frame of L symbols fits in the gap now (07 R220). -/
def State.gapFits (s : State) (p L : Nat) : Bool :=
  s.laneFree p ≤ s.now &&
    (if s.portOpen p then
      match (vget s.kl p).prevRead, (vget s.kl p).lastRead with
      | some a, some b =>
        let T := (b - a) / 4
        s.now / 4 + L + 2 * s.rf (0x02800100 + 8 * p) 3 0 + 64 ≤ b / 4 + T - T / 16
      | _, _ => false
    else true)

/-- The latest two read points of port p (07 R220). -/
def State.noteRead (s : State) (p : Nat) : State :=
  s.modKl p (fun k => { k with prevRead := k.lastRead, lastRead := some s.now })

end Sys2Proof.Machine
end

