-- ==== Sys2Proof/Machine/Swath.lean ====
section
/-! DEFINITION. Swaths, event bits, context faults and the emergency context (02 R25-R56), and the withdrawal of commit requests. -/
namespace Sys2Proof.Machine
open Sys2Proof

/-! ## Runs of lines (17 R538) -/

/-- A run after a line that has its cause (`hit`) or has not, and the run that the line ends.
[log 144: DEDUCED] -/
def runStep (r : Option Run) (hit : Bool) (line : Nat) (t : Word) : Option Run × Option Run :=
  match r, hit with
  | none, false => (none, none)
  | none, true => (some { first := line, time := t, count := 1 }, none)
  | some r, true => (some { r with count := r.count + 1 }, none)
  | some r, false => (none, some r)

/-- The record of a run that has ended, of unit u and source src, for sequencer q.
[log 144: DEDUCED] -/
def State.postRun (s : State) (r : Option Run) (code u src q : Nat) : State :=
  match r with
  | none => s
  | some r => s.postUnit u { s.ev 2 code src (some q) (wd (r.count % 2 ^ 32)) 0x400 (some r.first) with time := r.time }

/-- Every run of the swath of sequencer q ended (17 R538): by the swath's close or abort.
[log 144: DEDUCED] -/
def State.endRuns (s : State) (q : Nat) : State :=
  let x := vget s.seq q
  let pl := vget s.place q
  let s := s.postRun x.underrun 0x0309 (uSeq q) q q
  let s := s.postRun pl.overRun 0x0705 (uSeq q) q q
  let s := s.postRun pl.speedRun 0x0706 (uSeq q) q q
  let s := (s.modSeq q (fun x => { x with underrun := none })).modPlace q
    (fun p => { p with overRun := none, speedRun := none })
  s.each x.swPorts (fun s p =>
    let s := s.postRun (vget s.ring p).lateRun 0x0401 p p q
    let s := s.postRun (vget s.fp p).vRun 0x0503 p p q
    let s := s.postRun (vget s.fp p).staleRun 0x0504 p p q
    (s.modRing p (fun r => { r with lateRun := none })).modFp p (fun f => { f with vRun := none, staleRun := none }))

/-! ## Time-stamps of lines (14 R433) -/

/-- The time-stamp of instant t, in quanta, at the rate in force.
[log 120: DEDUCED] -/
def State.stampAt (s : State) (t : Nat) : Word :=
  packNs (((s.tim.t : Int) + ((t : Int) - s.now) * (2 ^ 40 + s.tim.rate) / 4).toNat * 4 / (5 * 2 ^ 40))

/-- A run that begins with line n, given the time-stamp of that line (17 R538). -/
def runAgain (r : Option Run) (n : Nat) (w : Word) : Option Run :=
  r.map (fun r => if r.first = n then { r with time := w } else r)

/-- Line n of the swath of q has its fire instant at t: LASTLINE, where n is the latest line, and the runs that begin with
it carry that instant (14 R433; 17 R538).
[log 120: DEDUCED] -/
def State.restamp (s : State) (q n t : Nat) : State :=
  let w := s.stampAt t
  let s := s.modSeq q (fun x => { x with
    underrun := runAgain x.underrun n w, lastStamp := if x.ln = n then w else x.lastStamp })
  let s := s.modPlace q (fun p => { p with overRun := runAgain p.overRun n w, speedRun := runAgain p.speedRun n w })
  s.each (vget s.seq q).swPorts (fun s p =>
    (s.modRing p (fun r => { r with lateRun := runAgain r.lateRun n w })).modFp p (fun f => { f with
      vRun := runAgain f.vRun n w, staleRun := runAgain f.staleRun n w }))

/-! ## The swath -/

/-- The next line of sequencer q's swath that has no line event yet. -/
def Seq.nextLine (x : Seq) : Nat := x.swF + x.nEvents

/-- Every line event of the swath is sent, to the last of its row triggers, and its queue is empty (02 R41, 06 R177).
[log 6: DESIGN CHOICE] -/
def State.swathDone (s : State) (q : Nat) : Bool :=
  (vget s.seq q).lnq.isEmpty && (vget s.place q).sched.isEmpty && (vget s.seq q).doneAt ≤ s.now

/-- The ports of sequencer q's open swath that take part in it. -/
def Seq.live (x : Seq) : List Nat := x.swPorts.filter (fun p => !x.excluded.contains p)

/-- A pending wait of context c ended with flag T := t: it is READY, and PC names the next word (02 R29). -/
def State.endWait (s : State) (q c : Nat) (t : Bool) : State :=
  s.modCtx q c (fun x => { x with st := .ready, wait := none, t := t, readyAt := s.now, pc := x.pc + 1 })

/-- Context c of q stopped in state HALTED. -/
def State.haltCtx (s : State) (q c : Nat) : State :=
  s.modCtx q c (fun x => { x with st := .halted, wait := none })

/-- The session that owns context c of sequencer q. -/
def State.ctxSess (s : State) (q c : Nat) : Nat := (s.ctxOf q c).session

/-- The owner of the open swath of q, with its session. -/
def State.ownerSess (s : State) (q : Nat) : Option Nat := (vget s.seq q).owner.map (s.ctxSess q)

/-- The unsealing of a staged set (12 R369): the sealed set and the next one form the staged set again. -/
def Stage.unseal (g : Stage) : Stage :=
  { g with units := g.sealedUnits.foldl (fun l u => addOnce u l) g.units, sealedUnits := [], isSealed := false }

/-- The CREC word (12 R388). -/
def crecWord (actln state : Nat) (insw : Bool) (seq : Nat) (prog : Bool) (err : Nat) : Word :=
  fields [(0, 32, actln), (32, 3, state), (35, 1, b1 insw), (36, 4, seq), (40, 1, b1 prog), (48, 16, err)]

/-- A port without a commit's push and without the pins of its new region (06 R180, R194). -/
def FirePort.dropCommit (f : FirePort) : FirePort :=
  { f with pinsNew := [], push := f.push.filter (fun u => u.why != .commit) }

/-- The end of a commit request without effect (12 R369, R376, R378): state 3 withdrawn or 4 refused with its code, in
CREC and for a program request in COMMITREC, where that still records it; the set is unsealed, its pins and pushes end and the
outcome is posted. Event bit COMMIT_WD of a program request is set by the caller.
[log 45: DEDUCED] -/
def State.endReq (s : State) (n state code : Nat) : State :=
  match (s.ses n).req with
  | none => s
  | some r =>
    let s := s.each ((s.ses n).stage.sealedUnits.filter (· < 64)) (fun s p => s.modFp p FirePort.dropCommit)
    let s := s.modSess n (fun x => { x with
      req := none, stage := x.stage.unseal, crec := crecWord 0 state false r.seq r.program code })
    let s := s.when (r.program && (vget s.seq r.seq).commitBy == some n) (fun s => s.modSeq r.seq (fun x =>
      { x with commitRec := fields [(32, 3, state), (48, 16, if state = 4 then code else 0)] }))
    s.postTo n (s.ev 9 code r.seq (some r.seq) 0 0 (some r.line))

/-- The last line number of the swath (02 R41): F − 1 modulo 2^32 where it had no line event. -/
def Seq.lastLine (x : Seq) : Nat := (x.swF + x.nEvents + 2 ^ 32 - 1) % 2 ^ 32

/-- The context numbered ECTX of sequencer q (02 R31). -/
def State.ectx (s : State) (q : Nat) : Nat := s.rf (0x01000100 + 8 * q) 37 32

/-- The owner is in `endswath` or in the closing wait of `halt`.
[log 16: DEDUCED] -/
def State.ownerClosing (s : State) (q : Nat) : Bool :=
  match (vget s.seq q).owner with
  | none => false
  | some c => match (s.ctxOf q c).wait with
    | some w => w.kind == .endswath || w.kind == .closing
    | none => false

/-- Event bits set without a look at ETRIG; those set in the present tick are kept apart (03 R86). -/
def State.evOr (s : State) (q mask : Nat) : State := s.modSeq q (fun x => { x with
  evbits := x.evbits ||| mask, setAt := s.now,
  setNow := (if s.sameTick x.setAt then x.setNow else 0) ||| mask })

/-- What the end of a swath does to its owner's wait (02 R44, R72, R81): `endswath` and an append that waited complete,
with T set by an abort; the closing wait of `halt` halts the context. -/
def State.ownerEnd (s : State) (q : Nat) (abort : Bool) : State :=
  match (vget s.seq q).owner with
  | none => s
  | some c => match (s.ctxOf q c).wait with
    | some w => match w.kind with
      | .endswath => s.endWait q c abort
      | .append _ => s.endWait q c true
      | .closing => (s.modCtx q c (fun x => { x with pc := x.pc + 1 })).haltCtx q c
      | _ => s
    | none => s

/-- The swath closes (02 R41), its record stamped as its last line (14 R433); SWATH_END, event bit 11, is set by the caller.
[log 120: DEDUCED] -/
def State.closeCore (s : State) (q : Nat) : State :=
  let s := s.endRuns q
  let x := vget s.seq q
  let s := match s.ownerSess q with
    | some n =>
      let r := s.ev 5 0 q (some q) (wd (sat 32 x.nEvents)) 0 (some x.lastLine)
      s.postTo n { r with time := if x.nEvents = 0 then r.time else x.lastStamp }
    | none => s
  let s := s.ownerEnd q false
  s.modSeq q (fun x => { x with swst := .closed, owner := none })

/-- The k-th line of sequencer q's swath is line n. -/
def Seq.lineIdx (x : Seq) (n : Nat) : Nat := (n + 2 ^ 32 - x.swF) % 2 ^ 32

/-- A ring whose read position goes back to where it stood before the lines of the present tick, with their slots. -/
def Ring.back (r old : Ring) (lines : List Nat) : Ring :=
  { r with
    base := old.base, readDone := old.readDone,
    slots := lines.foldl (fun m n => match SMap.find old.slots (n % 256) with
      | some sl => SMap.put m (n % 256) sl
      | none => SMap.del m (n % 256)) r.slots }

/-- The line events that sequencer q decided in the present tick count as never decided (02 R42, R56): LN, the ring bases,
the line queue and the lines' marks are as before them, and their fire instants are gone.
[log 6: DESIGN CHOICE] -/
def State.undoLines (s : State) (q : Nat) : State :=
  let x := vget s.seq q
  match x.lineUndo with
  | none => s
  | some u =>
    if !s.sameTick u.at_ then s
    else
      let lines := (List.range (x.nEvents - u.nEvents)).map (fun i => (x.swF + u.nEvents + i) % 2 ^ 32)
      let s := s.modSeq q (fun x => { x with
        lnq := u.lnq, ln := u.ln, nEvents := u.nEvents, nUnder := u.nUnder, nLate := u.nLate, nOther := u.nOther,
        otherLn := u.otherLn, lastStamp := u.lastStamp, underrun := u.underrun, lineUndo := none })
      let s := s.modPlace q (fun p => { p with
        overRun := u.overRun, speedRun := u.speedRun, overrun := u.overrun, overspeed := u.overspeed, lastFire := u.lastFire,
        sched := p.sched.filter (fun d => x.lineIdx d.line < u.nEvents) })
      s.each u.rings (fun s r => s.modRing r.1 (fun y => y.back r.2 lines))

/-- The swath aborts with a cause (02 R42-R44, R49; 06 R177; 07 R219): line events already decided send their row
trigger 0, every other row trigger is dropped, heads receive DROP, and pending commit requests on q are withdrawn.
SWATH_ABORT and COMMIT_WD, event bits 12 and 9, are set by the caller; answers whether a program request was withdrawn.
[log 6: DESIGN CHOICE; log 48: DEDUCED] -/
def State.abortCore (s : State) (q cause : Nat) : State :=
  let s := (s.undoLines q).endRuns q
  let x := vget s.seq q
  let first := x.nextLine
  let own := x.owner.getD 0
  let s := match s.ownerSess q with
    | some n => s.postTo n (s.ev 6 cause q (some q) 0 0 (some first))
    | none => s
  let s := (s.ownerEnd q true).when (match x.printed with | some (t, c) => s.sameTick t && c == own | none => false)
    (fun s => s.modCtx q own (fun y => { y with t := true }))
  let s := s.modSeq q (fun x => { x with
    swst := .closed, owner := none, lnq := [], aborted := some (s.now, own), printed := none,
    abortRec := fields [(0, 32, first), (32, 16, cause), (48, 6, own)] })
  let keep := ((vget s.place q).sched.filter (fun d => !d.sent0)).map (fun d => { d with rows := [], next := [] })
  let s := s.modPlace q (fun p => { p with inq := [], sched := keep })
  let s := s.each x.live (fun s p =>
    (s.sendDrop p).modFp p (fun f => { f with
      bankTo := Vector.replicate 2 0,
      lines := (f.lines.filter (fun l => keep.any (fun d => d.line == l.line))).map (fun l => { l with freed := true }) }))
  s.each (those 256 (fun n => match (s.ses n).req with | some r => r.seq == q | none => false))
    (fun s n => s.endReq n 3 0x0315)

/-- A program's request is pending on q. -/
def State.progReq (s : State) (q : Nat) : Bool :=
  (List.range 256).any (fun n => match (s.ses n).req with | some r => r.seq == q && r.program | none => false)

/-- Every line event of the swath was sent before the present tick, and only the owner's `endswath` is outstanding (02 R45);
where the last one is sent in this tick an abort wins (03 R81). -/
def State.closesFirst (s : State) (q : Nat) : Bool :=
  s.swathDone q && s.ownerClosing q && !s.sameTick (vget s.seq q).doneAt

/-- The armed context c of q becomes READY (02 R31); an open swath aborts with 0x0314, or closes where every line
event is sent and only the owner's `endswath` is outstanding (02 R45). -/
def State.emergCore (s : State) (q c : Nat) : State :=
  let s := s.modCtx q c (fun x => { x with st := .ready, readyAt := s.now })
  if (vget s.seq q).swst == .opened then
    if s.closesFirst q then (s.closeCore q).evOr q 0x800
    else
      let wd := s.progReq q
      ((s.abortCore q 0x0314).evOr q 0x1000).when wd (fun s => s.evOr q 0x200)
  else s

/-- Event bits set in sequencer q (02 R47): an occurrence of a bit that ETRIG selects starts an armed emergency context
(02 R31). -/
def State.setEv (s : State) (q mask : Nat) : State :=
  let s := s.evOr q mask
  if mask &&& s.rf (0x01000600 + 8 * q) 31 0 ≠ 0 && (s.ctxOf q (s.ectx q)).st == .armed then s.emergCore q (s.ectx q) else s

/-- The swath of q closes. -/
def State.closeSwath (s : State) (q : Nat) : State :=
  if (vget s.seq q).swst == .opened then (s.closeCore q).setEv q 0x800 else s

/-- The swath of q aborts with a cause. Where every line event is sent and only `endswath` is outstanding it closes
instead (02 R45). -/
def State.abortSwath (s : State) (q cause : Nat) : State :=
  if (vget s.seq q).swst != .opened then s
  else if s.closesFirst q then s.closeSwath q
  else
    let wd := s.progReq q
    (s.abortCore q cause).setEv q (if wd then 0x1200 else 0x1000)

/-- A request of session n ends without effect, and a program's sets COMMIT_WD on its sequencer.
[log 99: DEDUCED] -/
def State.dropReq (s : State) (n state code : Nat) : State :=
  match (s.ses n).req with
  | none => s
  | some r => (s.endReq n state code).when r.program (fun s => s.setEv r.seq 0x200)

/-- The swath of q becomes position-doubtful, once (05 R161): line events decided from this tick on send FIRE-BLANK, and the
record names the first of them. -/
def State.makeDoubt (s : State) (q : Nat) : State :=
  let x := vget s.seq q
  if x.swst == .opened && !x.doubt then
    let first := match (vget s.place q).sched.find? (fun d => s.sameTick d.at_) with | some d => d.line | none => x.nextLine
    let s := (s.modSeq q (fun x => { x with doubt := true, doubtAt := s.now })).modPlace q (fun p => { p with
      sched := p.sched.map (fun d => if s.sameTick d.at_ then { d with blank := true } else d) })
    let s := s.postUnit (uSeq q) (s.ev 2 0x0702 q (some q) 0 0 (some first))
    s.setEv q 0x8000
  else s

/-- Line n counted in SWCOUNT as another line-level defect, once (03 R75; 17 R494).
[log 31: DEDUCED] -/
def State.noteOther (s : State) (q n : Nat) : State :=
  s.modSeq q (fun x => if x.otherLn == some n then x else { x with nOther := x.nOther + 1, otherLn := some n })

/-- Lines that are framed for port p and have not sent row trigger 0 as p leaves the open swath of q are blank (07 R241). -/
def State.cutLines (s : State) (q p : Nat) : State :=
  let framed := fun (n : Nat) => (vget s.fp p).lines.any (fun l => l.line == n && l.framed)
  let cut := (vget s.place q).sched.filter (fun d => !d.sent0 && !d.counted && framed d.line)
  let s := s.modSeq q (fun x => { x with nOther := x.nOther + cut.length })
  let s := s.modPlace q (fun pl => { pl with
    sched := pl.sched.map (fun d => if cut.contains d then { d with counted := true } else d) })
  match (vget s.seq q).readLn with
  | some n => if n == (vget s.seq q).nextLine % 2 ^ 32 && framed n then s.noteOther q n else s
  | none => s

/-- A READY port takes no further part in the open swath that binds it (07 R241). -/
def State.quitSwath (s : State) (p : Nat) : State :=
  s.each (those 16 (fun q => (vget s.seq q).swst == .opened && (vget s.seq q).live.contains p))
    (fun s q => (s.cutLines q p).modSeq q (fun x => { x with excluded := addOnce p x.excluded, gone := addOnce p x.gone }))

/-! ## Contexts -/

/-- Context c of q has its swath open. -/
def State.ownsSwath (s : State) (q c : Nat) : Bool :=
  (vget s.seq q).swst == .opened && (vget s.seq q).owner == some c

/-- EMERG_FAULT on q (02 R54, 17 R491): axes that its contexts commanded are held. -/
def State.emergFault (s : State) (q : Nat) : State :=
  let s := s.each (vget s.seq q).moved (fun s a => s.haltAxis a (some q))
  (s.causeSet 0x0316 q (2 ^ q) (some q) (fun x => { x with emerg := x.emerg ||| 2 ^ q })).trigStopAll

/-- Context c of q faults at address pc (02 R51, R54). DETAIL of the record is the FAULTREC word.
[log 18: DESIGN CHOICE] -/
def State.ctxFault (s : State) (q c code pc : Nat) : State :=
  let w := fields [(0, 16, code), (16, 6, c), (32, 19, pc)]
  let s := (s.modCtx q c (fun x => { x with st := .faulted, err := code, pc := pc, wait := none })).modSeq q
    (fun x => { x with faultRec := w })
  let s := s.postTo (s.ctxSess q c) (s.ev 3 code q (some q) w)
  let s := s.when (s.ownsSwath q c) (fun s => s.abortSwath q code)
  s.when ((s.ctxOf q c).attr == 2) (fun s => s.emergFault q)

/-- The key of a word of context c's image in the program store. -/
def pKey (q c i : Nat) : Nat := (64 * q + c) * 524288 + i

/-- Free words of the program store (02 R25). -/
def State.pFree (s : State) : Nat :=
  524288 - (List.range 16).foldl (fun a q => (List.range 64).foldl (fun a c => a + (s.ctxOf q c).nwords) a) 0

/-- Context c of q goes to FREE: its words return to the store (02 R55, 18 R516). -/
def State.freeCtx (s : State) (q c : Nat) : State :=
  let lo := pKey q c 0
  let s := { s with pstore := s.pstore.filter (fun w => !(lo ≤ w.1 && w.1 < lo + 524288)),
                    pstoreBad := s.pstoreBad.filter (fun k => !(lo ≤ k && k < lo + 524288)),
                    ctxBad := s.ctxBad.filter (· != 64 * q + c) }
  let s := s.modCtx q c (fun _ => {})
  s.modSeq q (fun x => if x.resident == some c then { x with resident := none } else x)

/-! ## What a quarantine's entry does in LCLK (12 R383) -/

/-- Staged words and holds of units dropped; a hold of a calibration (256 and above, 15 R440) stays. -/
def State.dropUnits (s : State) (units : List Nat) : State :=
  s.modMgt (fun m => { m with
    staged := m.staged.filter (fun x => !units.contains (unitAt x.1)),
    badTab := m.badTab.filter (fun b => !(b.2 && units.contains (unitAt b.1))),
    holds := Vector.ofFn (fun u : Fin 101 =>
      if units.contains u && (vget m.holds u).all (· < 256) then none else vget m.holds u) })

/-- The contexts of session n on the sequencers that f names, as (sequencer, context). -/
def State.ctxsOf (s : State) (n : Nat) (f : Nat → Bool) : List (Nat × Nat) :=
  (those 16 f).flatMap (fun q =>
    (those 64 (fun c => (s.ctxOf q c).st != .free && s.ctxSess q c == n)).map (fun c => (q, c)))

/-- The swath of q is owned by one of the contexts, or binds one of the units. -/
def State.swathHit (s : State) (q : Nat) (cs : List (Nat × Nat)) (units : List Nat) : Bool :=
  (vget s.seq q).swst == .opened && (cs.any (fun x => x.1 == q && s.ownsSwath q x.2) || units.contains (uSeq q) ||
    (vget s.seq q).swPorts.any units.contains)

/-- The entry of a quarantine reaches LCLK (12 R383): swaths abort, the contexts flush to FREE, a pending commit request is
withdrawn, and the staged set is dropped.
[log 101: DEDUCED; log 102: DEDUCED] -/
def State.flush (s : State) (n : Nat) (units : List Nat) (whole : Bool) : State :=
  let cs := s.ctxsOf n (fun q => whole || units.contains (uSeq q))
  let s := s.each (List.range 16) (fun s q => s.when (s.swathHit q cs units) (fun s => s.abortSwath q 0x030B))
  let s := s.each cs (fun s x => s.freeCtx x.1 x.2)
  let g := (s.ses n).stage
  let s := s.when (whole || g.sealedUnits.any units.contains) (fun s => s.dropReq n 3 0x0315)
  let drop := if whole then (s.ses n).stage.units ++ (s.ses n).stage.sealedUnits else units
  (s.dropUnits drop).modSess n (fun x => { x with stage :=
    if whole then {} else { x.stage with units := x.stage.units.filter (fun u => !units.contains u) } })

end Sys2Proof.Machine
end

