-- ==== Sys2Proof/Machine/Channel.lean ====
section
/-! DEFINITION. The encoder channels in SCLK and what of them reaches LCLK (05 R140-R154, R163, R537). -/
namespace Sys2Proof.Machine
open Sys2Proof

/-! ## Configuration in force (05 R167, R168) -/

def State.encSsi (s : State) (c : Nat) : Bool := bit (s.reg (0x03400000 + 8 * c)) 0
def State.encInv (s : State) (c : Nat) : Bool := bit (s.reg (0x03400000 + 8 * c)) 1
def State.encZen (s : State) (c : Nat) : Bool := bit (s.reg (0x03400000 + 8 * c)) 2
def State.encPten (s : State) (c : Nat) : Bool := bit (s.reg (0x03400000 + 8 * c)) 3
/-- STILLTO in quanta. -/
def State.encStillTo (s : State) (c : Nat) : Nat := s.rf (0x03400000 + 8 * c) 21 8 * 100 * qUs
def State.ssiBits (s : State) (c : Nat) : Nat := s.rf (0x03400040 + 8 * c) 5 0
def State.ssiGray (s : State) (c : Nat) : Bool := bit (s.reg (0x03400040 + 8 * c)) 6
/-- One SSI clock period in quanta: (CLKDIV + 1) · 2 ns. -/
def State.ssiClk (s : State) (c : Nat) : Nat := (s.rf (0x03400040 + 8 * c) 15 8 + 1) * 10
/-- The SSI frame period in quanta. -/
def State.ssiPeriod (s : State) (c : Nat) : Nat := s.rf (0x03400040 + 8 * c) 31 16 * 50
/-- SSITO in quanta. -/
def State.ssiTo (s : State) (c : Nat) : Nat := s.rf (0x03400040 + 8 * c) 47 40 * qUs
def State.ssiMax (s : State) (c : Nat) : Nat := s.rf (0x03400040 + 8 * c) 63 48

/-- The sequencers bound to channel c (05 R537). -/
def State.boundTo (s : State) (c : Nat) : List Nat := those 16 (fun q => s.rf (0x01000100 + 8 * q) 1 0 == c)

/-- The sequencers with an open swath placed from channel c. -/
def State.placedFrom (s : State) (c : Nat) : List Nat :=
  those 16 (fun q => (vget s.seq q).swst == .opened && (vget s.seq q).swEnc == c)

/-- The safe island runs: it has power, and 2 ms of a cold start have passed (16 R472).
[log 35: DEDUCED] -/
def State.islandUp (s : State) : Bool :=
  !s.safe.vsafe && s.phase != .off && (s.phase != .cold || 2 * qMs ≤ s.now)

/-! ## Records (05 R537) -/

/-- A record of channel c: one per bound sequencer, or one without a line to the Steward. -/
def State.postEnc (s : State) (c code : Nat) (detail : Word := 0) (flags : Nat := 0) : State :=
  match s.boundTo c with
  | [] => s.postSteward (s.ev 2 code c none detail flags)
  | qs => s.each qs (fun s q => s.postUnit (uSeq q) (s.ev 2 code c (some q) detail flags))

/-! ## From SCLK to LCLK (05 R156, R161, R163) -/

/-- Ticks from the encoder edge to the fire trigger (00 R3, 05 R158).
[log 34: DEDUCED] -/
def fireTicks : Nat := 25

/-- The fixed-latency instant of a sample (05 R158, R160). -/
def Sample.fixed (m : Sample) : Nat := m.at_ + fireTicks * qTick

/-- What SCLK has decided on channel c now is in LCLK 5 ticks later: the values, event bits, a QERR, a loss of signal, a wrap,
and a sample for the placers (05 R163).
[log 34: DEDUCED] -/
def State.toLclk (s : State) (c : Nat) (bits : Nat := 0) (qerr : Bool := false) (doubt : Bool := false) (wrap : Bool := false)
    (smp : Option Sample := none) : State :=
  s.after (s.now + 5 * qTick) (.seen c (vget s.enc c).toEncVal bits qerr doubt wrap smp)

/-- a lies beyond b in a direction (05 R155). -/
def beyond (back : Bool) (a b : Int) : Bool := if back then a < b else b < a

/-- A sample in LCLK for the swath of q (05 R156): it waits for its line event where its count goes beyond all before it; in the
tick of opening it moves HWM alone. -/
def State.queueSample (s : State) (q : Nat) (m : Sample) : State :=
  let back := (vget s.seq q).swBack
  s.modPlace q (fun p =>
    let far := p.inq.foldl (fun f x => if beyond back x.count f then x.count else f) p.hwm
    if !beyond back m.count far then p
    else if s.sameTick p.openAt then { p with hwm := m.count }
    else { p with inq := p.inq ++ [m] })

/-- QERRSW of each swath placed from channel c rises by one; one above its tolerance becomes position-doubtful (05 R161).
[log 37: DEDUCED] -/
def State.qerrCount (s : State) (c : Nat) : State :=
  s.each (those 16 (fun q => 0 < (vget s.seq q).swCnt && (vget s.seq q).swEnc == c)) (fun s q =>
    let s := s.modPlace q (fun p => { p with qerrSw := p.qerrSw + 1 })
    if s.rf (0x01000100 + 8 * q) 15 8 < (vget s.place q).qerrSw then s.makeDoubt q else s)

/-- What SCLK decided arrives in LCLK (05 R146, R156, R161, R163): an advancing edge is at the placer 5 ticks later (05 R158). -/
def State.seenIn (s : State) (c : Nat) (v : EncVal) (bits : Nat) (qerr doubt wrap : Bool) (smp : Option Sample) : State :=
  let s := s.modEnc c (fun x => { x with seen := v })
  let s := if bits = 0 then s else s.each (s.boundTo c) (fun s q => s.setEv q bits)
  let s := s.when qerr (fun s => s.qerrCount c)
  let s := s.when doubt (fun s => s.each (s.placedFrom c) State.makeDoubt)
  let s := s.when wrap (fun s => s.each (s.placedFrom c) (fun s q =>
    (s.makeDoubt q).postUnit (uSeq q) (s.ev 2 0x070D q (some q))))
  match smp with
  | none => s
  | some m => (s.each (s.placedFrom c) (fun s q => s.queueSample q m)).when (m.adv && !m.ssi)
      (fun s => s.after (s.now + 5 * qTick) (.pull c m.fixed))

/-! ## QERR (05 R143, R151) -/

/-- QERRTOT rises by one. -/
def State.qerrHit (s : State) (c : Nat) : State :=
  (s.modEnc c (fun x => { x with qerr := satAdd 32 x.qerr 1 })).toLclk c 0 true

/-! ## Counted edges and frames (05 R145-R147, R152) -/

/-- A channel after a counted edge or frame to count c at instant t (05 R145, R147): an advancing edge, a reversal, or
jitter. `frame` takes PERIOD per count, as SSI does (05 R152).
[log 36: DEDUCED] -/
def Enc.edge (x : Enc) (c : Int) (t : Nat) (frame : Bool) : Enc :=
  let d := wrapN 48 (c - x.ext)
  let d := if x.back then -d else d
  if 0 < d then
    let n := if frame then max 1 (wrapN 48 (c - x.lastAdvCount)).natAbs else 1
    { x with
      count := c, ext := c, lastAdv := some t, lastAdvCount := c,
      st := if x.st == .still then .starting else .moving,
      period := if x.st == .still then x.period else (t - x.lastAdv.getD t) / 5 / n }
  else if d ≤ -2 then
    { x with
      count := c, revPos := x.ext, back := !x.back, ext := c, st := .starting,
      lastAdv := some t, lastAdvCount := c }
  else { x with count := c }

/-- The edge is a reversal. -/
def Enc.reverses (x : Enc) (c : Int) : Bool :=
  let d := wrapN 48 (c - x.ext)
  (if x.back then -d else d) ≤ -2

/-- The edge is an advancing edge, a reversal included (05 R145). -/
def Enc.advances (x : Enc) (c : Int) : Bool :=
  let d := wrapN 48 (c - x.ext)
  0 < (if x.back then -d else d) || x.reverses c

/-- The count of channel c moves by k, decided in SCLK now; its edge was at the pins, or its frame sampled, at instant t:
direction, speed, records, and the sample for the placers (05 R145-R147, R152, R156, R160, R161). -/
def State.encMove (s : State) (c : Nat) (k : Int) (t : Nat) (frame : Bool) : State :=
  let x := vget s.enc c
  let n := x.count + k
  let c' := wrapN 48 n
  let x' := x.edge c' t frame
  let s := s.modEnc c (fun _ => x')
  let s := s.when (x.reverses c') (fun s => s.postEnc c 0x0703 (wdI x'.revPos))
  s.toLclk c (if x.reverses c' then 0x10000 else 0) false false (n ≠ c') (some
    { count := c', at_ := if frame then s.now else t, period := x'.period, back := x'.back, moving := x'.st == .moving,
      adv := x.advances c', ssi := frame })

/-! ## Quadrature (05 R140-R144) -/

/-- The place of a sample in the forward order 00, 10, 11, 01. -/
def quadIndex (a b : Bool) : Nat :=
  match a, b with
  | false, false => 0
  | true, false => 1
  | true, true => 2
  | false, true => 3

/-- A double transition (05 R143): QERRTOT rises; PHASE is posted, or counted in the window that is open.
[log 160: DEDUCED] -/
def State.phase701 (s : State) (c : Nat) : State :=
  let s := s.qerrHit c
  match (vget s.enc c).phaseAt with
  | none => (s.modEnc c (fun x => { x with phaseAt := some s.now, phaseMore := 0 })).postEnc c 0x0701
  | some _ => s.modEnc c (fun x => { x with phaseMore := x.phaseMore + 1 })

/-- Ticks from an edge at the pins to its count in SCLK: pad, receiver, sampling and decode (05 R163).
[log 34: DEDUCED] -/
def sampleTicks : Nat := 7

/-- A sample of A and B decoded (05 R140). -/
def State.encSample (s : State) (c : Nat) (a b : Bool) : State :=
  let x := vget s.enc c
  if !s.islandUp || s.encSsi c || x.los then s
  else
    let i := quadIndex a b
    let s := s.modEnc c (fun x => { x with ab := i })
    match (i + 4 - x.ab) % 4 with
    | 0 => s
    | 2 => s.phase701 c
    | d => s.encMove c (if (d == 1) == s.encInv c then -1 else 1) (s.now - sampleTicks * qTick) false

/-- The levels on ENCOUTn (05 R153): A, B and Z as last read, low with PTEN = 0 and in SSI mode. -/
def State.encOut (s : State) (c : Nat) : Bool × Bool × Bool :=
  let x := vget s.enc c
  if s.encPten c && !s.encSsi c then (x.ab == 1 || x.ab == 2, x.ab == 2 || x.ab == 3, x.z) else (false, false, false)

/-- The end of a PHASE window (05 R143).
[log 160: DEDUCED] -/
def State.phaseEnd (s : State) (c : Nat) : State :=
  let x := vget s.enc c
  match x.phaseAt with
  | none => s
  | some t =>
    if t + qMs ≤ s.now then
      (s.modEnc c (fun x => { x with phaseAt := none, phaseMore := 0 })).when (0 < x.phaseMore)
        (fun s => s.postEnc c 0x0701 (wd x.phaseMore) 0x400)
    else s

/-- Loss of signal (05 R144, R161). -/
def State.loseSignal (s : State) (c : Nat) : State :=
  if !s.islandUp || (vget s.enc c).los then s
  else
    ((s.modEnc c (fun x => { x with los := true, losAt := s.now })).postEnc c 0x0707).toLclk c 0 false true

/-- 1 ms of valid levels (05 R144). -/
def State.regainSignal (s : State) (c : Nat) : State :=
  let x := vget s.enc c
  if s.islandUp && x.los && x.losAt + qMs ≤ s.now then
    (s.modEnc c (fun x => { x with los := false })).toLclk c
  else s

/-- Standstill (05 R147).
[log 36: DEDUCED] -/
def State.standStill (s : State) (c : Nat) : State :=
  let x := vget s.enc c
  match x.lastAdv with
  | none => s
  | some t =>
    if x.st != .still && t + s.encStillTo c ≤ s.now && s.islandUp then
      ((s.modEnc c (fun x => { x with st := .still })).postEnc c 0x0704).toLclk c 0x20000
    else s

/-- A sample of Z (05 R154; 10 R320): a rising edge latches the count, and reaches the axes 2 STEPCLK cycles later. In SSI mode
Z is not used (05 R149). -/
def State.zSample (s : State) (c : Nat) (level : Bool) : State :=
  let x := vget s.enc c
  if !s.islandUp then s
  else if s.encSsi c || !level || x.z then s.modEnc c (fun x => { x with z := level })
  else
    let s := s.modEnc c (fun x => { x with z := true, zLatch := if s.encZen c then x.count else x.zLatch })
    (s.toLclk c).after (s.stepEdge 2) (.zedge c)

/-! ## SSI (05 R149-R152) -/

/-- Gray code of n bits to binary. -/
def grayToBin : Nat → Nat → Nat
  | 0, g => g
  | n + 1, g => grayToBin n (g ^^^ (g >>> (2 ^ n)))

/-- A failed frame (05 R151). -/
def State.ssiFail (s : State) (c code : Nat) : State :=
  let s := s.modEnc c (fun x => { x with ssiErr := true, ssi := .idle })
  (s.qerrHit c).postEnc c code

/-- The frame period elapses (05 R149, R150 step 1). -/
def State.ssiStart (s : State) (c : Nat) : State :=
  let x := vget s.enc c
  if s.islandUp && s.encSsi c && x.ssi == .idle && x.ssiStart + s.ssiPeriod c ≤ s.now then
    s.modEnc c (fun x => { x with ssi := .waiting s.now, ssiStart := s.now })
  else s

/-- The data line is high (05 R150 steps 2 and 3): the clock runs, and its first falling edge is the sample instant. -/
def State.ssiReady (s : State) (c : Nat) : State :=
  match (vget s.enc c).ssi with
  | .waiting t =>
    if s.now ≤ t + s.ssiTo c then
      (s.modEnc c (fun x => { x with ssi := .clocking s.now })).emit (.ssiClock c (s.ssiBits c + 1))
    else s
  | _ => s

/-- The data line was not ready in SSITO (05 R151). -/
def State.ssiTimedOut (s : State) (c : Nat) : State :=
  match (vget s.enc c).ssi with
  | .waiting t => if t + s.ssiTo c ≤ s.now then s.ssiFail c 0x0708 else s
  | _ => s

/-- The bits of a frame are read (05 R150 steps 4 and 5, R151, R152).
[log 36: DEDUCED] -/
def State.ssiDone (s : State) (c : Nat) (value : BitVec 32) (stopLow : Bool) : State :=
  let x := vget s.enc c
  match x.ssi with
  | .clocking t =>
    if t + (s.ssiBits c + 1) * s.ssiClk c ≤ s.now then
      let nb := s.ssiBits c
      let raw := value.toNat % 2 ^ nb
      let v := if s.ssiGray c then grayToBin 5 (raw) % 2 ^ nb else raw
      let d := wrapN nb ((v : Int) - (x.ssiPrev.getD v : Nat))
      let s := s.modEnc c (fun x => { x with ssiPrev := some v, ssi := .idle })
      if !stopLow then s.ssiFail c 0x0709
      else if s.ssiMax c ≠ 0 && s.ssiMax c < d.natAbs then s.ssiFail c 0x070A
      else
        let s := s.modEnc c (fun x => { x with ssiErr := false })
        if x.los || d = 0 then s.toLclk c else s.encMove c d t true
    else s
  | _ => s

/-! ## Rebase (05 R169) -/

/-- An accepted rebase or CLRQ applies in SCLK.
[log 36: DEDUCED] -/
def State.rebaseIn (s : State) (c : Nat) (v : Option Int) (clrq : Bool) : State :=
  let s := match v with
    | some k => s.modEnc c (fun x => { x with count := k, ext := k, lastAdvCount := x.lastAdvCount + (k - x.count) })
    | none => s
  (s.when clrq (fun s => s.modEnc c (fun x => { x with qerr := 0 }))).toLclk c

end Sys2Proof.Machine
end

