-- ==== Sys2Proof/Machine/Dram.lean ====
section
/-! DEFINITION. Device DRAM and SRAM words as their code sees them: reads and writes, corrected and uncorrectable errors, and the one-shot flip mask (13 R399-R407). -/
namespace Sys2Proof.Machine
open Sys2Proof

/-- Bytes of installed DRAM (13 R389, R419): CHCAP in units of 256 MiB, four channels. -/
def State.dramTop (s : State) : Nat := s.mem.chCap * 2 ^ 30

/-- The channel of a DRAM address (13 R390). -/
def dramCh (a : Nat) : Nat := a / 128 % 4

/-- Channel ch changed by f. -/
def State.modCh (s : State) (ch : Nat) (f : Chan → Chan) : State := s.modMem (fun m => { m with ch := vmod m.ch ch f })

/-- A record of class 0x0B: to the session whose request caused it, else to every CONFIRMED session (17 R485).
[log 109: DEDUCED] -/
def State.postMem (s : State) (n : Option Nat) (r : EvRec) : State :=
  match n with
  | some n => s.postTo n r
  | none => s.postAll r

/-- MEM.DERR (13 R420). -/
def derrWord (a : Nat) (ue patrol : Bool) : Word := fields [(0, 36, a / 64 * 64), (36, 1, b1 ue), (37, 1, b1 patrol)]

/-- Page pg retired (13 R401): never allocated again. -/
def State.retirePage (s : State) (pg : Nat) : State :=
  if s.mem.retired.contains pg then s
  else
    let s := s.modMem (fun m => { m with
      retired := m.retired ++ [pg], filled := m.filled.filter (· != pg), retireDue := m.retireDue.filter (· != pg) })
    s.postAll (s.ev 2 0x0B0A (dramCh (pg * 65536)) none (wd (pg * 65536)))

/-- An uncorrectable error at DRAM address a (13 R400, R401): counted, recorded and posted; its page is retired at once
where it is free, else when it is freed.
[log 109: DEDUCED] -/
def State.dramUeHit (s : State) (a : Nat) (patrol : Bool) (n : Option Nat) : State :=
  let ch := dramCh a
  let s := s.modCh ch (fun c => { c with ue := satAdd 16 c.ue 1, derr := derrWord a true patrol })
  let s := s.postMem n (s.ev 2 0x0B04 ch none (wd a))
  let pg := a / 65536
  if pg < 4096 then s
  else if SMap.get s.mem.owner 0 pg = 0 then s.retirePage pg
  else s.modMem (fun m => { m with retireDue := addOnce pg m.retireDue })

/-- A corrected error at DRAM address a (13 R399, R417): counted, and posted or counted in its 1 ms window. -/
def State.dramCeHit (s : State) (a : Nat) (patrol : Bool) : State :=
  let ch := dramCh a
  let r := (vget s.mem.ch ch).wCe.hit s.now
  let s := s.modCh ch (fun c => { c with
    ce := satAdd 32 c.ce 1, patrol := if patrol then satAdd 16 c.patrol 1 else c.patrol,
    derr := derrWord a false patrol, wCe := r.1 })
  s.when r.2 (fun s => s.postAll (s.ev 2 0x0B03 ch none 1))

/-- The DRAM words of n bytes from a that are listed in l. -/
def wordsIn (l : List Nat) (a n : Nat) : List Nat := l.filter (fun w => a / 4 ≤ w && 4 * w < a + n)

/-- The rank of a DRAM address (13 R390). -/
def State.dramRank (s : State) (a : Nat) : Nat := if s.mem.ranks = 1 && s.dramTop / 2 ≤ a then 1 else 0

/-- A request of n bytes from a reaches the controller (13 R398): its ranks leave power-down.
[log 113: DESIGN CHOICE] -/
def State.dramTouch (s : State) (a n : Nat) : State :=
  let r := s.dramRank a
  s.each (those 4 (fun ch => 512 ≤ n || (List.range 5).any (fun i => 128 * i < n + a % 128 && dramCh (a + 128 * i) == ch)))
    (fun s ch => s.modCh ch (fun c => { c with
      pd := c.pd &&& (3 - 2 ^ r), lastReq := vset c.lastReq r s.now }))

/-- n bytes read from DRAM: corrected words are corrected and written back; an uncorrectable word fails the read, and is
reported for session n where its request caused the read.
[log 108: DEDUCED] -/
def State.dramRead (s : State) (a len : Nat) (n : Option Nat) : State × Option (List Byte) :=
  let s := s.dramTouch a len
  let ce := wordsIn s.dramCe a len
  let s := s.each ce (fun s w => s.dramCeHit (4 * w) false)
  let s := { s with dramCe := s.dramCe.filter (fun w => !ce.contains w) }
  match wordsIn s.dramUe a len with
  | [] => (s, some (memRead s.dram a len))
  | w :: _ => (s.dramUeHit (4 * w) false n, none)

/-! ## The flip mask (13 R407) -/

/-- Fields of FLIPCTL and the mask. -/
def State.flipArmed (s : State) (dram : Bool) : Bool := bit (s.reg 0x04000048) 8 && bit (s.reg 0x04000048) 9 == dram
def State.flipFilter (s : State) : Bool := bit (s.reg 0x04000048) 10
def State.flipAddr (s : State) : Nat := s.rf 0x04000048 51 16
def State.flipMask (s : State) : Nat := (s.reg 0x04000040).toNat
def State.flipChk (s : State) : Nat := s.rf 0x04000048 7 0

/-- The mask is used: ARM clears, USED sets, FLIP_USED is posted with the address. -/
def State.flipUse (s : State) (a : Nat) : State :=
  let w := s.reg 0x04000048
  let s := s.setReg 0x04000048 (setBits (setBits w 8 8 0) 11 11 1)
  s.postAll (s.ev 2 0x0B0C 0 none (wd a))

/-- The effect of the mask on DRAM word w, which has just been written.
[log 107: DESIGN CHOICE] -/
def State.flipDramWord (s : State) (w : Nat) : State :=
  let m := s.flipMask % 2 ^ 32
  let k := s.flipChk
  let bitsUp := ones 32 m + ones 8 k
  let s := s.flipUse (4 * w)
  if bitsUp = 0 then s
  else if bitsUp = 1 then { s with dramCe := addOnce w s.dramCe }
  else if bitsUp = 2 || Config.flipDetected m k then { s with dramUe := addOnce w s.dramUe }
  else { s with dram := memWrite s.dram (4 * w) (toLE 4 (Config.flipData (leNat (memRead s.dram (4 * w) 4)) m k)) }

/-- The read part of a write that covers word w in part (13 R399, R400): a wrong bit is corrected and counted; an
uncorrectable word is counted and reported. -/
def State.rmwRead (s : State) (w : Nat) : State :=
  if s.dramUe.contains w then s.dramUeHit (4 * w) false none
  else if s.dramCe.contains w then
    let s := s.dramCeHit (4 * w) false
    { s with dramCe := s.dramCe.filter (· != w) }
  else s

/-- Bytes written to DRAM (13 R399): whole aligned words lose an error, a word written in part is read first, and an
uncorrectable one stays uncorrectable; an armed flip mask takes the first word, or the word it names. -/
def State.dramWrite (s : State) (a : Nat) (l : List Byte) : State :=
  let whole := fun w => a ≤ 4 * w && 4 * w + 4 ≤ a + l.length
  let s := s.dramTouch a l.length
  let s := s.each ((wordsIn (s.dramUe ++ s.dramCe) a l.length).filter (fun w => !whole w)) State.rmwRead
  let s := { s with dram := memWrite s.dram a l,
                    dramUe := s.dramUe.filter (fun w => !whole w), dramCe := s.dramCe.filter (fun w => !whole w) }
  if !s.flipArmed true || l.isEmpty then s
  else if s.flipFilter then
    let w := s.flipAddr / 4
    if a / 4 ≤ w && 4 * w < a + l.length then s.flipDramWord w else s
  else s.flipDramWord (a / 4)

/-! ## The event queues in DRAM (13 R391; 17 R486, R489) -/

/-- The 32 bytes of an event record (17 R482), and the record that some bytes are. -/
def EvRec.bytes (r : EvRec) : List Byte :=
  toLE 2 r.type ++ toLE 2 r.error ++ toLE 2 r.source ++ toLE 2 r.flags ++ toLE 8 r.time.toNat ++ toLE 4 r.line ++
    toLE 4 r.swath ++ toLE 8 r.detail.toNat
def recordOf (l : List Byte) : EvRec :=
  { type := leAt l 0 2, error := leAt l 2 2, source := leAt l 4 2, flags := leAt l 6 2, time := wd (leAt l 8 8),
    line := leAt l 16 4, swath := leAt l 20 4, detail := wd (leAt l 24 8) }

/-- The DRAM address of record i of session n's queue. -/
def evAddr (n i : Nat) : Nat := 0x20000 * n + 32 * (i % 4096)

/-- Record j of those that session n's queue holds goes to DRAM; what a flip mask makes of it is what the queue holds.
[log 97: DEDUCED] -/
def State.evStore (s : State) (n j : Nat) : State :=
  let q := (s.ses n).evq
  let a := evAddr n (q.rd + j)
  let s := s.dramWrite a (q.held.getD j {}).bytes
  let r := recordOf (memRead s.dram a 32)
  { s with dram := memClear s.dram a 32 }.modSess n (fun x => { x with evq := { x.evq with held := x.evq.held.set j r } })

/-- What posted a record (17 R487): the kind of the resource and its instance. Port records come from three blocks.
[log 145: DEDUCED] -/
def EvRec.source2 (r : EvRec) : Nat × Nat :=
  let c := r.error / 256
  (if r.type = 12 then 4 else if 3 ≤ r.type && r.type ≤ 9 then 3 else if r.type = 11 then 14
    else if c = 5 || c = 6 then 4 else c, r.source % 256)

/-- Record a goes before b of another source (17 R487): the lower class byte, then the lower SOURCE.
[log 145: DEDUCED] -/
def EvRec.before (a b : EvRec) : Bool :=
  a.error / 256 < b.error / 256 || (a.error / 256 == b.error / 256 && a.source < b.source)

/-- The record that enters a queue next of those posted in one tick (17 R487): among the first of each source with the time-stamp
of the oldest, up to a GAP, the one that goes before the others. -/
def nextRecord (l : List EvRec) (h : EvRec) : EvRec :=
  let run := l.takeWhile (fun r => r.type != 1)
  let firsts := (run.zipIdx.filter (fun x =>
    x.1.time == h.time && !(run.take x.2).any (fun r => r.source2 == x.1.source2))).map (·.1)
  firsts.foldl (fun b r => if r.before b then r else b) (firsts.headD h)

/-- The records of one tick in the order in which they enter a queue (17 R487). -/
def mergeRecords : Nat → List EvRec → List EvRec
  | 0, l => l
  | _, [] => []
  | k + 1, h :: l => let r := nextRecord (h :: l) h; r :: mergeRecords k ((h :: l).erase r)

/-- The fresh records of session n's queue go to DRAM.
[log 97: DEDUCED; log 145: DEDUCED] -/
def State.evFlush (s : State) (n : Nat) : State :=
  let q := (s.ses n).evq
  let s := s.modSess n (fun x => { x with evq := { x.evq with
    fresh := 0, held := x.evq.held.take (x.evq.held.length - x.evq.fresh) ++
      mergeRecords x.evq.fresh (x.evq.held.drop (x.evq.held.length - x.evq.fresh)) } })
  s.each (List.range q.fresh) (fun s i => s.evStore n (q.held.length - q.fresh + i))

/-- Every fresh record goes to DRAM, as EVWR passes it only then (17 R487). -/
def State.evFlushAll (s : State) : State :=
  s.each ((s.sess.toList.zipIdx.filter (fun x => 0 < x.1.evq.fresh)).map (·.2)) State.evFlush

/-- A record with an uncorrectable word, as it is read (17 R489). -/
def eccRec : EvRec := { type := 1, error := 0x011B, detail := 1 }

/-- Record j of those that session n's queue holds, as EVWIN shows it. -/
def State.evwin (s : State) (n j : Nat) : EvRec :=
  let q := (s.ses n).evq
  if (wordsIn s.dramUe (evAddr n (q.rd + j)) 32).isEmpty then q.held.getD j {} else eccRec

/-- Record j read from DRAM (17 R489): corrected words count, and a record with an uncorrectable word is another one.
[log 97: DEDUCED] -/
def State.evFetch (s : State) (n j : Nat) : State × EvRec :=
  let a := evAddr n ((s.ses n).evq.rd + j)
  let r := s.evwin n j
  let ce := (wordsIn s.dramCe a 32).length
  let d := s.dramRead a 32 none
  (d.1.modSess n (fun x => { x with evq := { x.evq with
    ce := satAdd 16 x.evq.ce ce, ue := satAdd 16 x.evq.ue (if d.2.isNone then 1 else 0) } }), r)

/-! ## SRAM words (13 R402-R407) -/

/-- The partition of a word index (13 R402). -/
def sramPart (w : Nat) : Nat :=
  if w < 0x600000 then 0 else if w < 0x900000 then 1 else if w < 0xA80000 then 2 else 3

/-- The first word of slot n of ring p: 384 words per slot. -/
def slotWord (p n : Nat) : Nat := 0x18000 * p + 384 * (n % 256)

/-- An uncorrectable word of slot k or its tag, if there is one (04 R108). -/
def Ring.badIn (r : Ring) (k : Nat) : Option Nat := r.bad.find? (fun x => (384 * k ≤ x && x < 384 * k + 384) || x == 98304 + k)

/-- The SRAM word of an entry of `Ring.bad`. -/
def ringWord (p x : Nat) : Nat := if x < 98304 then 98304 * p + x else Config.tagIndex p (x - 98304)

/-- Partition k's counts changed by an uncorrectable word w; SRAM_UE is posted (13 R405). -/
def State.sramUeHit (s : State) (w k : Nat) : State :=
  let s := s.modMem (fun m => { m with
    secUe := vmod m.secUe k (fun c => satAdd 16 c 1),
    serr := fields [(0, 24, w), (24, 7, 127), (31, 1, 1), (32, 3, k)] })
  s.postAll (s.ev 2 0x0B02 k none (wd w))

/-- A corrected bit of word w in partition k (13 R403, R417). -/
def State.sramCeHit (s : State) (w k b : Nat) : State :=
  let r := (vget s.mem.wSec k).hit s.now
  let s := s.modMem (fun m => { m with
    secCe := vmod m.secCe k (fun c => satAdd 32 c 1), wSec := vset m.wSec k r.1,
    serr := fields [(0, 24, w), (24, 7, b), (32, 3, k)] })
  s.when r.2 (fun s => s.postAll (s.ev 2 0x0B01 k none 1))

/-- What an armed mask does to a write of SRAM words: nothing, wrong bit b in word w, or an uncorrectable word w. -/
inductive Flipped where
  | none
  | one (w b : Nat)
  | bad (w : Nat)
deriving DecidableEq, Repr, Inhabited

/-- The lowest bit of a code word that the masks name: data bits 0-63, check bits 64-71. -/
def flipBit (mask chk : Nat) : Nat :=
  ((List.range 72).find? (fun b => if b < 64 then mask.testBit b else chk.testBit (b - 64))).getD 0

/-- The mask on a write of n SRAM words from w (13 R407): the lowest, or the one that it names.
[log 107: DESIGN CHOICE] -/
def State.flipSram (s : State) (w n : Nat) : State × Flipped :=
  let hit := if s.flipFilter then w ≤ s.flipAddr && s.flipAddr < w + n else 0 < n
  if !s.flipArmed false || !hit then (s, .none)
  else
    let t := if s.flipFilter then s.flipAddr else w
    let bitsUp := ones 64 s.flipMask + ones 8 s.flipChk
    let det := Config.flipDetected s.flipMask s.flipChk
    let b := flipBit s.flipMask s.flipChk
    let s := s.flipUse t
    if bitsUp = 0 then (s, .none)
    else if bitsUp = 1 then (s, .one t b)
    else if bitsUp = 2 || det then (s, .bad t)
    else (s, .none)

/-- A write of n SRAM words from w: earlier errors are gone, defective cells and the flip mask leave new ones; answers the
words that are now uncorrectable (04 R108; 13 R403, R407). A defective cell is taken to hold the wrong value.
[log 107: DESIGN CHOICE] -/
def State.sramWrite (s : State) (w n : Nat) : State × List Nat :=
  let here := fun (x : Nat) => w ≤ x && x < w + n
  let r := s.flipSram w n
  let cells := s.mem.defects.filter (fun x => here x.1)
  let cells := match r.2 with
    | .one x b => if cells.contains (x, b) then cells else (x, b) :: cells
    | _ => cells
  let bad := cells.foldl (fun l x => if 2 ≤ (cells.map (·.1)).count x.1 then addOnce x.1 l else l)
    (match r.2 with | .bad x => [x] | _ => [])
  (r.1.modMem (fun m => { m with
    sramOne := cells.filter (fun x => !bad.contains x.1) ++ m.sramOne.filter (fun x => !here x.1),
    sramCe := m.sramCe.filter (fun x => !here x) }), bad)

/-- The single-bit errors among n words from w corrected as they are read: counted, and their write-back is due
(13 R403). A defective cell stays wrong after it (13 R408). -/
def State.sramRead (s : State) (w n : Nat) : State :=
  let l := s.mem.sramOne.filter (fun x => w ≤ x.1 && x.1 < w + n)
  let s := s.each l (fun s x => s.sramCeHit x.1 (sramPart x.1) x.2)
  s.modMem (fun m => { m with
    sramOne := m.sramOne.filter (fun x => !l.contains x || m.defects.contains x),
    sramCe := l.foldl (fun c x => addOnce x.1 c) m.sramCe })

/-- A live table word at BAR0 address a is uncorrectable (13 R405). -/
def State.tabBad (s : State) (a : Nat) : Bool := s.mgt.badTab.contains (wordAddr a, false)

end Sys2Proof.Machine
end

