-- ==== Sys2Proof/Machine/Arrive.lean ====
section
/-! DEFINITION. What happens around the block before a command: time passes, what was on its way comes in its turn (01 R17), moving axes advance, and the hosts write their memories. -/
namespace Sys2Proof.Machine
open Sys2Proof

/-! ## The placers' advancing edges (05 R158) -/

/-- An advancing edge moves a later interpolated instant to its own fixed-latency instant (05 R158). -/
def Placer.pull (pl : Placer) (t : Nat) : Placer :=
  { pl with
    lastFire := pl.lastFire.map (fun f => min f t),
    sched := pl.sched.map (fun d => { d with
      fireAt := if d.sent0 then d.fireAt else min d.fireAt t,
      rows := d.rows.map (fun r => (r.1, min r.2.1 t, r.2.2)) }) }

/-- Instants of lines that moved from `old` to the schedule of now, stamped anew (14 R433).
[log 120: DEDUCED] -/
def State.restampAll (s : State) (q : Nat) (old : List Sched) : State :=
  s.each ((vget s.place q).sched.filter (fun d => old.any (fun c => c.line == d.line && c.fireAt != d.fireAt)))
    (fun s d => s.restamp q d.line d.fireAt)

/-- An advancing edge of channel c with fixed-latency instant t reaches the placers of its open swaths. -/
def State.pullIn (s : State) (c t : Nat) : State :=
  s.each (s.placedFrom c) (fun s q => (s.modPlace q (fun p => p.pull t)).restampAll q (vget s.place q).sched)

/-- A Z edge of channel c arrives at the axes that home on it (10 R320). -/
def State.zedgeIn (s : State) (c : Nat) : State :=
  s.each (List.range 8) (fun s a => s.modAx a (fun x =>
    if x.st == .homing && 2 ≤ x.homeSeq && !x.stopping && s.rf (0x03500240 + 8 * a) 2 1 == c && x.zPos.isNone then
      { x with zPos := some x.pos } else x))

/-! ## Frames and requests of the cameras (08 R257, R260) -/

/-- Frame `no` of camera c starts in LCLK: an own SW and LN it has only if it answers no program and no position. -/
def State.frameIn (s : State) (c no : Nat) : State :=
  let x := vget s.seq (s.camSeq c)
  s.modCam c (fun m => { m with frames := m.frames.map (fun f =>
    if f.no = no && f.req.all (fun r => r.src == .host) then { f with sw := x.sw, ln := x.ln } else f) })

/-- The end of request r of camera c is known in LCLK: its place is free, and a completed frame sets the event bit of the
sequencer whose program asked (02 R47). -/
def State.reqEnd (s : State) (c : Nat) (r : TrigReq) (done : Bool) : State :=
  let s := s.modCam c (fun x => { x with leaving := x.leaving.erase r })
  match r.src with
  | .program q _ => if done then s.setEv q (2 ^ (18 + c)) else s
  | _ => s

/-! ## The agenda -/

/-- What comes in its turn, now (01 R17).
[log 12: DESIGN CHOICE] -/
def State.happen (s : State) (d : Due) : State :=
  match d with
  | .signal targets mask => s.each (those 16 targets.testBit) (fun s q => s.setEv q mask)
  | .pins c a b => s.encSample c a b
  | .zpin c level => s.zSample c level
  | .seen c v bits qerr doubt wrap smp => s.seenIn c v bits qerr doubt wrap smp
  | .pull c t => s.pullIn c t
  | .rebase c v clrq _ _ => s.rebaseIn c v clrq
  | .motion a op => s.motApply a op
  | .zedge c => s.zedgeIn c
  | .flush n units whole => s.flush n units whole
  | .frameIn c no => s.frameIn c no
  | .reqEnd c r done => s.reqEnd c r done

/-- It comes in SCLK, which runs on in a switch-over gap (16 R461, R462). -/
def Due.island : Due → Bool
  | .pins _ _ _ => true
  | .zpin _ _ => true
  | .rebase _ _ _ _ _ => true
  | _ => false

/-- What a channel has in SCLK, or on its way from there, kept where LCLK is reset: its values arrive, and cause nothing else. -/
def Due.scl : Due → Option Due
  | .seen c v _ _ _ _ _ => some (.seen c v 0 false false false none)
  | .pins c a b => some (.pins c a b)
  | .zpin c l => some (.zpin c l)
  | .rebase c v k n t => some (.rebase c v k n t)
  | _ => none

/-- The agenda of SCLK alone. -/
def sclOnly (l : List Timed) : List Timed := l.filterMap (fun d => d.what.scl.map (fun w => { d with what := w }))

/-- The next happening up to instant t; in a gap only SCLK goes on. -/
def State.nextDue (s : State) (t : Nat) : Option Timed :=
  s.agenda.find? (fun d => d.at_ ≤ t && (s.pws.gap.isNone || d.what.island))

/-- Up to `fuel` happenings that come up to instant t, each at its instant.
[log 12: DESIGN CHOICE] -/
def State.runDue (s : State) (t : Nat) : Nat → State
  | 0 => s
  | fuel + 1 => match s.nextDue t with
    | none => s
    | some d => ((({ s with agenda := s.agenda.erase d } : State).passTo d.at_).happen d.what).runDue t fuel

/-- Everything that comes up to instant t: what a happening puts on its way, and what that puts on its way, included.
[log 12: DESIGN CHOICE] -/
def State.settle (s : State) (t : Nat) : State := s.runDue t (4 * s.agenda.length)

/-- What happens around the block before a command: event records of earlier ticks reach DRAM, what is due comes, time passes, the hosts
write their memories, and the outputs of the command before are gone.
[log 1: DESIGN CHOICE; log 2: DESIGN CHOICE; log 5: DESIGN CHOICE] -/
def State.arrive (s : State) (e : Env) : State :=
  let t := s.now + e.dt
  let s : State := { s with out := [] }
  let s := if s.sameTick t then s else s.evFlushAll
  let s := (s.settle t).passTo t
  { s with hostMem := e.hostWrites.foldl (fun m (w : HostWrite) => vmod m w.fn (fun l => memPut l w.addr w.byte)) s.hostMem }

end Sys2Proof.Machine
end

