-- ==== Sys2Proof/Machine/Access.lean ====
section
/-! DEFINITION. Register writes: which session a write acts as, the critical registers, and refusals (11 R331, R339; 18 R508). -/
namespace Sys2Proof.Machine
open Sys2Proof

/-- A refusal: its code is posted to the writing session n, and nothing changes (18 R508).
[log 148: DEDUCED] -/
def State.refuse (s : State) (n code src : Nat) (detail : Word := 0) : State × Nat := (s.postErr n code src detail, code)

/-- The session that a write acts as (11 R331): the direct session of the function, or the session of the command. -/
def State.writer (s : State) (w : Writer) : Option Nat :=
  match w with
  | .bar0 f => vget s.xlt.direct f
  | .cmd n _ => if s.confirmed n then some n else none

/-- A discarded write of function f, counted in XLT.FNSTAT[f][DROPWR] (11 R331, 18 R507). -/
def State.dropWr (s : State) (f : Nat) : State :=
  s.modXlt (fun x => { x with dropWr := vmod x.dropWr f (fun k => satAdd 32 k 1) })

/-- The write carries AUTH: only AUTH_WRITE does for the registers that 11 R339 reserves. -/
def writerAuth (w : Writer) : Bool := match w with | .cmd _ a => a | .bar0 _ => false

/-- A register write `op`, done as the session it acts as. Before READY a write is discarded (16 R472); with no direct
session it is counted (11 R331); a critical register is written through AUTH_WRITE alone (11 R339). -/
def State.asWriter (s : State) (w : Writer) (crit : Bool) (op : State → Nat → State × Nat) : State :=
  if s.phase != .ready then s
  else match s.writer w with
  | none => match w with | .bar0 f => s.dropWr f | .cmd _ _ => s
  | some n => if crit && !writerAuth w then s.postErr n 0x010A 0 else (op s n).1

/-- An operation that a rights rule allows, or the refusal RIGHTS (11 R342, 18 R508). -/
def State.ifRight (s : State) (ok : Bool) (n src : Nat) (op : State → State × Nat) : State × Nat :=
  if ok then op s else s.refuse n 0x0102 src

/-- Any class but Observer. -/
def State.acting (s : State) (n : Nat) : Bool := (s.ses n).cls != .observer

/-- Session n is the Steward. -/
def State.isSteward (s : State) (n : Nat) : Bool := (s.ses n).cls == .steward

end Sys2Proof.Machine
end

