-- ==== Sys2Proof/Machine/Encoder.lean ====
section
/-! DEFINITION. The commands of the encoder channels and their registers (05 R148, R163, R169, R170). -/
namespace Sys2Proof.Machine
open Sys2Proof

/-! ## Writes (05 R169) and status words (05 R148, R170) -/

/-- POS.ENCCTL[c] written by session n: accepted, it applies in the SCLK cycle that begins 2 cycles after the tick.
[log 34: DEDUCED] -/
def State.wrEncCtl (s : State) (n c : Nat) (v : Word) : State × Nat :=
  s.ifRight (s.acting n) n c (fun s =>
    let rebase := bit v 48
    if rebase && !(s.placedFrom c).isEmpty then s.refuse n 0x070B c
    else
      (s.after ((s.now + 4) / 5 * 5 + 10)
        (.rebase c (if rebase then some (signedN 48 (bits v 47 0)) else none) (bit v 49) n s.now), 0))

/-- POS.SPEED bits 31:0 (05 R147, R148).
[log 36: DEDUCED] -/
def State.speed (s : State) (c : Nat) : Nat :=
  let x := (vget s.enc c).seen
  if x.st == .moving then sat 32 (roundDiv 65536000 (max x.period ((s.now - 5 * qTick - x.lastAdv.getD 0) / 5))) else 0

/-- POS.ENCSTAT (05 R170). -/
def State.encStat (s : State) (c : Nat) : Word :=
  let x := (vget s.enc c).seen
  fields [(0, 2, match x.st with | .still => 0 | .starting => 1 | .moving => 2), (2, 1, b1 x.back), (3, 1, b1 x.los),
    (4, 1, b1 x.ssiErr), (8, 32, x.qerr)]

/-- POS.PLSTAT (05 R170). -/
def State.plStat (s : State) (q : Nat) : Word :=
  let p := vget s.place q
  fields [(0, 16, sat 16 p.qerrSw), (16, 16, sat 16 p.overrun), (32, 16, sat 16 p.overspeed)]

/-! ## Meanings -/

/-- The levels of A and B at the pins change: they are sampled and decoded 7 ticks later (05 R163).
[log 34: DEDUCED] -/
def State.pinsMove (s : State) (c : Nat) (a b : Bool) : State := s.after (s.now + sampleTicks * qTick) (.pins c a b)

/-- The level of Z at the pins changes: it is sampled with A and B, whose edges of the same SCLK cycle count before it (05 R154). -/
def State.zMove (s : State) (c : Nat) (level : Bool) : State :=
  s.after (s.now / 5 * 5 + 4 + sampleTicks * qTick) (.zpin c level)

/-- ENCODER_EDGE (05 R140). -/
def execEncoderEdge (e : Env) (c : Fin 4) (a b : Bool) (s : State) : Host.Outcome State Fault Refusal :=
  .next ((s.arrive e).pinsMove c a b)
/-- PHASE_WINDOW_END (05 R143). -/
def execPhaseWindowEnd (e : Env) (c : Fin 4) (s : State) : Host.Outcome State Fault Refusal :=
  .next ((s.arrive e).phaseEnd c)
/-- ENC_LOS (05 R144). -/
def execEncLos (e : Env) (c : Fin 4) (s : State) : Host.Outcome State Fault Refusal := .next ((s.arrive e).loseSignal c)
/-- ENC_LOS_CLEAR (05 R144). -/
def execEncLosClear (e : Env) (c : Fin 4) (s : State) : Host.Outcome State Fault Refusal :=
  .next ((s.arrive e).regainSignal c)
/-- STILL (05 R147). -/
def execStill (e : Env) (c : Fin 4) (s : State) : Host.Outcome State Fault Refusal := .next ((s.arrive e).standStill c)
/-- SSI_FRAME_START (05 R150). -/
def execSsiFrameStart (e : Env) (c : Fin 4) (s : State) : Host.Outcome State Fault Refusal :=
  .next ((s.arrive e).ssiStart c)
/-- SSI_DATA_READY (05 R150). -/
def execSsiDataReady (e : Env) (c : Fin 4) (s : State) : Host.Outcome State Fault Refusal :=
  .next ((s.arrive e).ssiReady c)
/-- SSI_TIMEOUT (05 R151). -/
def execSsiTimeout (e : Env) (c : Fin 4) (s : State) : Host.Outcome State Fault Refusal :=
  .next ((s.arrive e).ssiTimedOut c)
/-- SSI_FRAME_DONE (05 R150). -/
def execSsiFrameDone (e : Env) (c : Fin 4) (value : BitVec 32) (stopLow : Bool) (s : State) :
    Host.Outcome State Fault Refusal := .next ((s.arrive e).ssiDone c value stopLow)
/-- Z_EDGE (05 R154). -/
def execZEdge (e : Env) (c : Fin 4) (level : Bool) (s : State) : Host.Outcome State Fault Refusal :=
  .next ((s.arrive e).zMove c level)
/-- ENC_REBASE (05 R169). -/
def execEncRebase (e : Env) (w : Writer) (c : Fin 4) (value : BitVec 48) (clrq : Bool) (s : State) :
    Host.Outcome State Fault Refusal :=
  .next ((s.arrive e).asWriter w false (fun s n =>
    s.wrEncCtl n c (fields [(0, 48, value.toNat), (48, 1, 1), (49, 1, b1 clrq)])))
/-- ENC_CLRQ (05 R169). -/
def execEncClrq (e : Env) (w : Writer) (c : Fin 4) (s : State) : Host.Outcome State Fault Refusal :=
  .next ((s.arrive e).asWriter w false (fun s n => s.wrEncCtl n c (fields [(49, 1, 1)])))

end Sys2Proof.Machine
end

