-- ==== Sys2Proof/Machine/Fire.lean ====
section
/-! DEFINITION. The firing block but for its read points (06): pushes of width tables, temperature bands and limits, and the high-voltage enables. -/
namespace Sys2Proof.Machine
open Sys2Proof

/-! ## Configuration in force (06 R206) -/

def State.firRT (s : State) (p : Nat) : Nat := s.rf (0x02800100 + 8 * p) 3 0
def State.firESEN (s : State) (p : Nat) : Bool := bit (s.reg (0x02800100 + 8 * p)) 4
def State.firVNOM (s : State) (p : Nat) : Nat := s.rf (0x02800300 + 8 * p) 15 0
def State.firTELTO (s : State) (p : Nat) : Nat := s.rf (0x02800300 + 8 * p) 23 16
def State.firTLIM (s : State) (p : Nat) : Int := s.rf (0x02800500 + 8 * p) 7 0
def State.firTMAX (s : State) (p : Nat) : Int := s.rf (0x02800500 + 8 * p) 15 8
def State.firTHYS (s : State) (p : Nat) : Int := s.rf (0x02800500 + 8 * p) 19 16
/-- Threshold THc in °C, c = 1 to 7. -/
def State.firTH (s : State) (p c : Nat) : Nat := s.rf (0x02800700 + 8 * p) (8 * c - 1) (8 * c - 8)
def etBase (p : Nat) : Nat := 0x02800900 + 8 * p
def State.hvSettle (s : State) : Nat := s.rf 0x02800010 9 0

/-- The port's telemetry is stale (06 R186): none within TELTO µs, none yet, or no valid temperature in the latest. -/
def State.telStale (s : State) (p : Nat) : Bool :=
  let f := vget s.fp p
  !f.tempValid || (match f.lastTel with
    | none => true
    | some t => t + s.firTELTO p * qUs < s.now)

/-! ## Temperature bands (06 R188) -/

/-- The largest band whose threshold h reaches; a threshold of 255 disables its band and those above it. -/
def State.bandUp (s : State) (p : Nat) (h : Int) : Nat :=
  (List.range 8).foldl (fun u c =>
    if c = 0 then 0
    else if (List.range (c + 1)).any (fun k => 0 < k && s.firTH p k == 255) then u
    else if h ≥ 16 * (s.firTH p c : Int) then c else u) 0

/-- The band after the way down with 1 °C hysteresis, from band b. -/
def State.bandDown (s : State) (p : Nat) (h : Int) : Nat → Nat
  | 0 => 0
  | b + 1 => if h < 16 * (s.firTH p (b + 1) : Int) - 16 then s.bandDown p h b else b + 1

/-- The target band that a valid temperature moves to in mode AUTO. -/
def State.bandMove (s : State) (p : Nat) (h : Int) (b : Nat) : Nat :=
  let up := s.bandUp p h
  if b < up then up else s.bandDown p h b

/-! ## Pushes (06 R189-R196) -/

/-- The port waits for a commit's push (06 R194): a sealed and validated set changes its ETBASE. -/
def State.commitPushWanted (s : State) (p : Nat) : Bool :=
  match (List.range 256).find? (fun n => (s.ses n).stage.isSealed && (s.ses n).stage.sealedUnits.contains p &&
      (match (s.ses n).req with | some r => r.validated | none => false)) with
  | some _ => s.stagedReg (etBase p) != s.reg (etBase p) &&
      !(match (vget s.fp p).push with | some u => u.why == .commit | none => false)
  | none => false

/-- Why port p wants a push now, if it does: bring-up; else nothing while the restart of a push that made the port blank
is due; else a reload, a release, a band change or retry, and last a commit, which waits for any restart (06 R192-R196,
12 R383).
[log 45: DEDUCED] -/
def State.pushWanted (s : State) (p : Nat) : Option PushWhy :=
  let f := vget s.fp p
  let k := vget s.kl p
  if k.st == .push then some .bringUp
  else if k.st != .ready || (f.retryAt.isSome && (f.sliceErr || f.released)) then none
  else if f.liveBad then some .reload
  else if f.released then some .release
  else if f.target != f.band || f.sliceErr then some .band
  else if f.retryAt.isNone && s.commitPushWanted p then some .commit
  else none

/-- The last fire symbol of every line that names the bank has been sent by instant t (06 R191).
[log 48: DEDUCED] -/
def FirePort.bankFree (f : FirePort) (b t : Nat) : Bool :=
  !f.lines.any (fun l => l.framed && !l.freed && l.bank == b) && vget f.bankTo b ≤ t

/-- Uncorrectable words of port p's live copy found (06 R195; 13 R405): the port is blank from the next read point, and
SLICE_ECC is posted, until the live band is reloaded. -/
def State.sliceEcc (s : State) (p : Nat) (words : List Nat) : State :=
  if words.isEmpty then s
  else
    let was := (vget s.fp p).liveBad
    let s := s.each words (fun s w => s.sramUeHit w (sramPart w))
    (s.modFp p (fun f => { f with liveBad := true })).when (!was)
      (fun s => s.postUnit p (s.ev 2 0x0506 p (s.segOf p)))

/-- A push begun (06 R189, R195, R196): the bring-up push sends the live copy to bank 0 and needs no load, unless that copy has
an error. -/
def State.startPush (s : State) (p : Nat) (why : PushWhy) : State :=
  let s := if why == .bringUp then s.sliceEcc p (vget s.fp p).liveErr else s
  s.modFp p (fun f =>
    let direct : Bool := why == .bringUp && !f.liveBad
    { f with
      staged := if direct then f.live else [], stagedBad := [], retryAt := none,
      push := some { why := why, band := (if why == .band then f.target else f.band),
                     bank := (if why == .bringUp then 0 else 1 - f.bank), since := s.now, direct := direct, loaded := direct,
                     newBase := if why == .commit then some (s.stagedReg (etBase p)) else none } })

/-- A push to port p that an error of the staged copy, or a new live copy, makes start again (06 R195, R196).
[log 45: DEDUCED] -/
def State.pushAgain (s : State) (p : Nat) : State :=
  match (vget s.fp p).push with
  | none => s
  | some u => s.startPush p u.why

/-- Uncorrectable words of the staged copy found (06 R195): the push starts again. -/
def State.stagedEcc (s : State) (p : Nat) (words : List Nat) : State :=
  if words.isEmpty then s else (s.each words (fun s w => s.sramUeHit w (sramPart w))).pushAgain p

/-- PUSH_START (06 R192): a wanted push starts when no other is in progress and its bank is free; a commit's push gives
way to any other (06 R194). -/
def State.pushStart (s : State) (p : Nat) : State :=
  let f := vget s.fp p
  match s.pushWanted p with
  | none => s
  | some why =>
    let free := match f.push with
      | none => true
      | some u => u.why == .commit && why != .commit
    if free && f.bankFree (if why == .bringUp then 0 else 1 - f.bank) s.now then s.startPush p why else s

/-- The set-points of band b in a region of 16 pinned pages (06 R180): those that are not 0, keyed 8·j + c. -/
def State.loadBand (s : State) (pages : List Nat) (b : Nat) : SMap Nat :=
  ((List.range 65536).map (fun i =>
    let o := 131072 * b + 2 * i
    let a := pages.getD (o / 65536) 0 * 65536 + o % 65536
    (i, leNat (memRead s.dram a 2)))).filter (fun x => x.2 != 0)

/-- A word of the band in the region is uncorrectable. -/
def State.bandBad (s : State) (pages : List Nat) (b : Nat) : Bool :=
  s.dramUe.any (fun w => pages.zipIdx.any (fun pg => pg.1 == 4 * w / 65536 && (65536 * pg.2) / 131072 == b))

/-- A port goes to FAULT with a step (07 R240): LINK_DOWN from READY, else BRINGUP_FAIL; its frames end. -/
def State.portFault (s : State) (p det : Nat) : State :=
  let ready := s.inService p
  let s := s.laneDown p
  let s := s.modKl p (fun k => { k with st := .fault, since := s.now, faultDet := det })
  let s := s.modFp p (fun f => { f with push := none, retryAt := none })
  let s := s.postUnit p (s.ev 2 (if ready then 0x0601 else 0x0606) p (s.segOf p) (wd det))
  s.when ready (fun s => s.quitSwath p)

/-- A READY port leaves READY for state st without an error (07 R241). -/
def State.leaveReady (s : State) (p : Nat) (st : KlSt) : State :=
  let ready := s.inService p
  let s := s.laneDown p
  let s := s.modKl p (fun k => { k with st := st, since := s.now })
  let s := s.modFp p (fun f => { f with push := none, retryAt := none })
  s.when ready (fun s => s.quitSwath p)

/-- A push fails (06 R193): PUSH_FAIL, and a restart 1 ms later; a band change or reload makes the port blank. A bring-up
push that fails takes the port to FAULT with FAULTDET 4 (07 R240).
[log 45: DEDUCED] -/
def State.pushFail (s : State) (p : Nat) : State :=
  match (vget s.fp p).push with
  | none => s
  | some u =>
    let s := s.postUnit p (s.ev 2 0x0505 p (s.segOf p))
    if u.why == .bringUp then s.portFault p 4
    else s.modFp p (fun f => { f with
      push := none, retryAt := some (s.now + qMs),
      sliceErr := f.sliceErr || u.why == .band || u.why == .reload,
      liveBad := f.liveBad && u.why != .reload })

/-- PUSH_RETRY (06 R193): 1 ms after a failure the push starts again, for the target of that instant. -/
def State.pushRetry (s : State) (p : Nat) : State :=
  match (vget s.fp p).retryAt with
  | none => s
  | some t => if t ≤ s.now then (s.modFp p (fun f => { f with retryAt := none })).pushStart p else s

/-- BAND_LOAD_DONE (06 R181, R182, R189): the band loaded from the region in force, or from a commit's new region; zeros
without a region or at a release; an uncorrectable word fails the push.
[log 47: DESIGN CHOICE] -/
def State.bandLoadDone (s : State) (p : Nat) : State :=
  let f := vget s.fp p
  match f.push with
  | none => s
  | some u =>
    if u.loaded then s
    else
      let on := match u.newBase with
        | some w => bit w 0
        | none => bit (s.reg (etBase p)) 0 && u.why != .release
      let pages := if u.newBase.isSome then f.pinsNew else f.pins
      if on && s.bandBad pages u.band then s.pushFail p
      else
        let r := s.sramWrite (Config.energyIndex p !f.copy) 16384
        r.1.modFp p (fun f => { f with
          staged := if on then s.loadBand pages u.band else [], stagedBad := r.2,
          push := some { u with loaded := true } })

/-- The head switches to the pushed bank (06 R190): the staged copy, where it was loaded, is live. A change of band is kept for
the BAND_CHANGE of the next line read. -/
def FirePort.switch (f : FirePort) (u : Push) : FirePort :=
  { f with
    live := f.staged, copy := f.copy != !u.direct, liveErr := if u.direct then f.liveErr else f.stagedBad,
    liveBad := false, band := u.band, bank := u.bank, push := none, sliceErr := false,
    released := f.released && u.why != .release,
    pendBand := if u.band != f.band then f.pendBand ++ [(f.band, u.band)] else f.pendBand }

/-- A push is complete (06 R190, R192, R194, R196).
[log 45: DEDUCED] -/
def State.pushDone (s : State) (p : Nat) : State :=
  let f := vget s.fp p
  match f.push with
  | none => s
  | some u =>
    if !f.stagedBad.isEmpty then s.stagedEcc p f.stagedBad
    else match u.why with
    | .bringUp =>
      (s.modFp p (fun f => f.switch u)).modKl p
        (fun k => { k with st := .ready, since := s.now, lastUp := some s.now })
    | .band => s.modFp p (fun f => if f.target = u.band then f.switch u else { f with push := none })
    | .commit => s.modFp p (fun f => { f with push := some { u with done := true } })
    | _ => s.modFp p (fun f => f.switch u)

/-- A table frame of the push is to be sent again, or has failed its fourth attempt (06 R189, R193). -/
def State.frameRetry (s : State) (p i : Nat) : State :=
  match (vget s.fp p).push with
  | none => s
  | some u =>
    if 4 ≤ (vget u.frames i).attempts then s.pushFail p
    else s.modFp p (fun f => { f with
      push := some { u with frames := vmod u.frames i (fun w => { w with sentAt := none }) } })

/-- An acknowledgement reaches FIR (06 R189; 07 R230): positive, or negative with a NAK record. -/
def State.pushAck (s : State) (p : Nat) (a : Ack) : State :=
  match (vget s.fp p).push with
  | none => s
  | some u =>
    let w := vget u.frames a.index
    if !u.loaded || u.done || a.bank ≠ u.bank || w.acked || w.attempts = 0 || 64 ≤ a.index then s
    else if a.status ≠ 0 then
      (s.postUnit p (s.ev 2 0x0605 p (s.segOf p) (wd (a.index + 256 * a.status)))).frameRetry p a.index
    else
      let fr := vmod u.frames a.index (fun w => { w with acked := true, sentAt := none })
      let s := s.modFp p (fun f => { f with push := some { u with frames := fr } })
      if (List.range 64).all (fun i => (vget fr i).acked) then s.pushDone p else s

/-- ACK_TIMEOUT (06 R189): a table frame not acknowledged within 50 µs of its end is sent again.
[log 46: DESIGN CHOICE] -/
def State.ackTimeout (s : State) (p : Nat) : State :=
  match (vget s.fp p).push with
  | none => s
  | some u =>
    match (List.range 64).find? (fun i => match (vget u.frames i).sentAt with
        | some t => s.due t (50 * qUs) | none => false) with
    | some i => s.frameRetry p i
    | none => s

/-- The next table frame to send. -/
def Push.nextFrame (u : Push) : Option Nat :=
  if !u.loaded || u.done then none
  else (List.range 64).find? (fun i => let w := vget u.frames i; !w.acked && w.sentAt.isNone && w.attempts < 4)

/-- Frame i of the staged copy (07 R216). -/
def FirePort.tableFrame (f : FirePort) (u : Push) (i : Nat) : TableFrame :=
  { bank := u.bank, index := i, band := u.band,
    points := (f.staged.filter (fun x => 1024 * i ≤ x.1 && x.1 < 1024 * i + 1024)).map (fun x => (x.1 - 1024 * i, x.2)) }

/-- A host access or identification waits for the lane and may start now (07 R219, R220). -/
def State.ctlReady (s : State) (p : Nat) : Bool :=
  let k := vget s.kl p
  match k.acc with
  | some a => a.sentAt.isNone && (k.st == .ready || k.st == .ident) && s.gapFits p (14 + a.data.length)
  | none => false

/-- TABLE_FRAME_SEND (07 R219, R220): the next table frame starts where it fits, in rotation with control frames.
[log 46: DESIGN CHOICE] -/
def State.tableFrameSend (s : State) (p : Nat) : State :=
  let f := vget s.fp p
  let k := vget s.kl p
  match f.push with
  | none => s
  | some u => match u.nextFrame with
    | none => s
    | some i =>
      if !(k.st == .ready || k.st == .push || k.st == .cal) || !s.gapFits p 2070 || (s.ctlReady p && k.slotLast == 0) then s
      else if let some w := f.stagedBad.find? (fun w => (w - Config.energyIndex p !f.copy) / 256 == i) then s.stagedEcc p [w]
      else
        let s := (s.sendFrame p (.table (f.tableFrame u i))).modKl p (fun k => { k with slotLast := 0 })
        let fr := vmod u.frames i (fun w => { w with attempts := w.attempts + 1, sentAt := some (s.laneFree p) })
        s.modFp p (fun f => { f with push := some { u with frames := fr } })

/-! ## High voltage (06 R199-R201) -/

/-- Groups in a mask drop (06 R200); their ports stay blank until a swath opens after they have risen and settled. -/
def State.hvDrop (s : State) (mask : Nat) : State :=
  { s with fire := { s.fire with
             hven := Vector.ofFn (fun g : Fin 8 => vget s.fire.hven g && !mask.testBit g),
             hvok := Vector.ofFn (fun g : Fin 8 => vget s.fire.hvok g && !mask.testBit g) },
           fp := Vector.ofFn (fun p : Fin 64 => let f := vget s.fp p; { f with hv := f.hv && !mask.testBit (p.val / 8) }) }

/-- SAFE_n has been high for at least 10 ms, and no other cause that holds HVEN is in force.
[log 43: DEDUCED] -/
def State.hvSafe (s : State) : Bool :=
  (match s.fire.safeHighAt with | some t => t + 10 * qMs ≤ s.now | none => false) &&
    !s.fire.safeIn && !s.safe.safeN && !s.safe.dieHot && !s.safe.vsafe && !s.safe.mgmt && !s.pws.trip

/-- The port's head is cool enough to resume (06 R198, R200).
[log 21: DEDUCED] -/
def State.cool (s : State) (p : Nat) : Bool := (vget s.fp p).htemp < 16 * (s.firTLIM p - s.firTHYS p)

/-- One bit of HVCTL[ON] written by session n (06 R200): the detail of a refusal, or 0.
[log 43: DEDUCED] -/
def State.hvRefusal (s : State) (g n : Nat) : Nat :=
  let ports := (List.range 8).map (8 * g + ·)
  if !s.hvSafe then 1
  else if !ports.all (fun p => !s.telStale p && s.cool p) then 2
  else if (s.ses n).cls != .steward && !ports.all (fun p => s.holds n p) then 3
  else 0

/-- HVCTL[ON] of group g by session n (06 R200): the group rises, or HV_REFUSED is posted. -/
def State.hvOn (s : State) (g n : Nat) : State × Nat :=
  let d := s.hvRefusal g n
  if d ≠ 0 then (s.postErr n 0x0507 g (wd d), 0x0507)
  else
    let up := !vget s.fire.hven g
    let s := s.when up (fun s => { s with fire := { s.fire with
      hven := vset s.fire.hven g true, roseAt := vset s.fire.roseAt g s.now } })
    (s.when (s.safe.tmax.testBit g) (fun s =>
      s.causeClear 0x0502 g none (fun x => { x with tmax := x.tmax &&& (0xFF - 2 ^ g) })), 0)

/-- HVSETTLE_EXPIRY (06 R200, R205). -/
def State.hvSettled (s : State) (g : Nat) : State :=
  if vget s.fire.hven g && vget s.fire.roseAt g + s.hvSettle * qMs ≤ s.now then
    { s with fire := { s.fire with hvok := vset s.fire.hvok g true } }
  else s

/-! ## Device-wide causes (17 R491) -/

/-- A device-wide cause arrives: HVEN and step outputs go to their harmless states. -/
def State.globalCause (s : State) (code latch : Nat) (hv : Bool) (f : Safe → Safe) : State :=
  let s := s.when hv (fun s => s.hvDrop 0xFF)
  (s.haltAll.causeSet code 0 latch none f).trigStopAll

/-- SAFE_N_ASSERT (06 R201). -/
def State.safeAssert (s : State) : State :=
  if s.fire.safeIn then s
  else
    let s := { s with fire := { s.fire with safeIn := true, safeHighAt := none } }
    s.globalCause 0x0F01 (2 ^ 24) true (fun x => { x with safeN := true })

/-- SAFE_N_RELEASE (06 R201): 10 ms of high samples. -/
def State.safeRelease (s : State) : State :=
  if !s.fire.safeIn then s
  else
    let s := { s with fire := { s.fire with safeIn := false, safeHighAt := some (s.now - 10 * qMs) } }
    s.causeClear 0x0F01 0 none (fun x => { x with safeN := false })

/-! ## Telemetry in FIR (06 R188, R197-R199) -/

/-- A sample reaches FIR: its target band, TLIM and TMAX are decided. -/
def State.firSample (s : State) (p : Nat) (h : Option Int) (vsup : Nat) : State :=
  let s := s.modFp p (fun f => { f with
    tempValid := h.isSome, htemp := h.getD f.htemp, vsup := vsup, lastTel := some s.now })
  match h with
  | none => s
  | some h =>
    let s := s.modFp p (fun f => if f.mode = 0 then { f with target := s.bandMove p h f.target } else f)
    let s := s.when (h ≥ 16 * s.firTLIM p) (fun s => s.modFp p (fun f =>
      if f.hot then f else { f with hot := true, hotNew := true }))
    if h ≥ 16 * s.firTMAX p then
      let g := p / 8
      let s := s.modFp p (fun f => if f.hot then f else { f with hot := true, hotNew := true })
      let s := s.hvDrop (2 ^ g)
      let s := s.postUnit p (s.ev 2 0x0502 p (s.segOf p))
      if s.safe.tmax.testBit g then s
      else
        s.causeSet 0x0502 g (2 ^ (16 + g)) none (fun x => { x with tmax := x.tmax ||| 2 ^ g })
    else s

end Sys2Proof.Machine
end

