-- ==== Sys2Proof/Machine/Axes.lean ====
section
/-! DEFINITION. The axes' own steps and the host's commands to them (10 R308-R328). -/
namespace Sys2Proof.Machine
open Sys2Proof

/-! ## A move's phases (10 R311, R313, R317, R320) -/

/-- CRUISE (10 R313): the ramp has reached the velocity in force. -/
def State.axCruise (s : State) (a : Nat) : State :=
  s.modAx a (fun x => if x.st == .accel && x.v == x.vel * 65536 then { x with st := .cruise } else x)

/-- DECEL_START (10 R313): the remaining distance is at most the braking distance. A homing leg that ends at a position
slows in the same way (10 R320).
[log 77: DESIGN CHOICE] -/
def State.axDecel (s : State) (a : Nat) : State :=
  s.modAx a (fun x =>
    if x.left ≤ x.braking x.acc && !x.stopping then
      if x.st == .accel || x.st == .cruise then { x with st := .decel }
      else if x.st == .homing && (x.homeSeq = 1 || x.leg == .back) then { x with slow := true }
      else x
    else x)

/-- Threshold i of RESCFG in its own units; 0 where it, or one below it, is 0 (10 R311). -/
def State.axThRaw (s : State) (a i : Nat) : Nat :=
  if (List.range i).all (fun k => s.axTh a (k + 1) ≠ 0) then s.axTh a i / 4096 else 0

/-- STEP of axis a is high: a pulse lasts STEPW cycles (10 R307). -/
def State.axStep (s : State) (a : Nat) : Bool :=
  match (vget s.ax a).riseAt with | some k => decide (s.stepCyc < k + s.axStepW a) | none => false

/-- The axis is at a phase-aligned point (10 R311): the latest STEP has fallen and left a full step, and the level has not
changed at it. -/
def State.axAligned (s : State) (a : Nat) : Bool :=
  let x := vget s.ax a
  x.riseAt.isSome && !s.axStep a && x.stepsDue = 0 && x.risePhase % 32 = 0 && x.lvlAt != some x.risePhase

/-- Level l is reached at the falling edge of the STEP pulse last risen. -/
def Axis.atLevel (x : Axis) (l lead : Nat) : Axis :=
  { x with level := l, lvlAt := some x.risePhase, riseFrom := max x.riseFrom (lead + 1) }

/-- MICROSTEP_SWITCH (10 R311): one level at a phase-aligned point. MSEL changes in the next cycle, and the next STEP rises
DIRSU cycles after it or later.
[log 77: DESIGN CHOICE] -/
def State.axLevel (s : State) (a : Nat) : State :=
  let x := vget s.ax a
  let v := x.v / 65536
  let up := s.axThRaw a (x.level + 1)
  let dn := s.axThRaw a x.level
  if !x.moving || !s.axAligned a then s
  else if x.level < 3 && up ≠ 0 && up * 4096 ≤ v then
    s.modAx a (fun x => x.atLevel (x.level + 1) (s.axLead a))
  else if 0 < x.level && v < (dn - dn / 20) * 4096 then
    s.modAx a (fun x => x.atLevel (x.level - 1) (s.axLead a))
  else s

/-- The end of a homing sequence: the axis is HOMED and stands still. -/
def Axis.homeDone (x : Axis) (vstart lead : Nat) : Axis :=
  ({ x with homed := true, homeSeq := 0, slow := false }).finish vstart lead

/-- MOVE_END (10 R313, R315, R317, R320): at its target, or at the end of its ramp, the axis stands still; a homing
sequence goes on to its next leg or ends.
[log 81: DEDUCED; log 82: DEDUCED] -/
def State.axEnd (s : State) (a : Nat) : State :=
  let vs := s.axVstart a
  let fl := min vs (s.homeVel a)
  let lead := s.axLead a
  s.modAxis a (fun x =>
    if !x.moving || !x.atEnd then x
    else if x.st != .homing then ({ x with target := x.pos }).finish vs lead
    else if x.homeSeq = 1 then ({ x with pos := s.axHomePos a }).homeDone vs lead
    else if x.stopping then
      if x.homeSeq = 3 && x.leg == .slowing then x.homeLeg .back (!s.homeBack a) fl (s.homeOff a) lead
      else x.homeDone vs lead
    else if x.leg == .back then x.homeLeg .second (s.homeBack a) fl (s.homeDist a) lead
    else x)

/-- HOME_INDEX (10 R320): a rising Z edge of encoder HENC has arrived; the position at its arrival becomes HOMEPOS, and the
axis slows.
[log 82: DEDUCED] -/
def State.axIndex (s : State) (a : Nat) : State :=
  s.modAx a (fun x => match x.zPos with
    | some p =>
      if x.st == .homing && 2 ≤ x.homeSeq && !x.stopping && (x.leg == .first || x.leg == .second) then
        { x with
          pos := s.axHomePos a + (x.pos - p), stopping := true, zPos := none,
          leg := if x.leg == .first && x.homeSeq = 3 then .slowing else .final }
      else x
    | none => x)

/-- HOME_FAIL (10 R320): HDIST travelled in one approach without a Z edge; an edge that has arrived wins (10 R323).
[log 82: DEDUCED] -/
def State.axHomeFail (s : State) (a : Nat) : State :=
  let x := vget s.ax a
  if x.st == .homing && 2 ≤ x.homeSeq && !x.stopping && (x.leg == .first || x.leg == .second) &&
      s.homeDist a ≤ x.travelled && x.zPos.isNone then
    (s.modAx a (fun x => { x with st := .decel, stopping := true, homed := false, homeSeq := 0, err := 0x0806 })).postUnit
      (uAx a) (s.ev 2 0x0806 a)
  else s

/-! ## Host writes (10 R328) -/

/-- MOT.CMD[a] written by session n: refused without the axis claim.
[log 84: DEDUCED] -/
def State.wrMotCmd (s : State) (n a : Nat) (v : Word) : State × Nat :=
  if !s.holds n (uAx a) then s.refuse n 0x0804 a
  else if (vget s.ax a).cmdBusy then s.refuse n 0x0801 a
  else
    let val := signedN 48 (bits v 47 0)
    match bits v 51 48 with
    | 1 => s.hostMotion a n (.move false val)
    | 2 => s.hostMotion a n (.move true val)
    | 3 => s.hostMotion a n (.vel (bits v 31 0))
    | 4 => s.hostMotion a n (.acc (bits v 31 0))
    | 5 => s.hostMotion a n .stop
    | 6 => s.hostMotion a n (.home (bits v 53 52))
    | _ => (s, 0)

/-- MOT.AXCTL[a] written by session n.
[log 84: DEDUCED] -/
def State.wrAxCtl (s : State) (n a : Nat) (v : Word) : State × Nat :=
  if !s.holds n (uAx a) then s.refuse n 0x0804 a
  else
    let r := if bit v 0 then s.axisEn a else (s, 0)
    let r2 := if bit v 1 then r.1.axisDis a n else r
    if bit v 2 then
      let r3 := r2.1.axisRelease a n
      (r3.1, if r2.2 = 0 then r3.2 else r2.2)
    else r2

/-! ## Outputs and status words (10 R306, R307, R312, R325-R328) -/

/-- STEP, DIR, ENA, MSEL and the duty of IREF on the pins of axis a; a disabled axis drives STEP and MSEL low (10 R306, R307,
R312, R326). -/
def State.axPins (s : State) (a : Nat) : Bool × Bool × Bool × Nat × Nat :=
  let x := vget s.ax a
  let c := s.reg (0x03500100 + 8 * a)
  if x.st == .disabled then (false, xor x.back (bit c 1), bit c 2, 0, 0)
  else (xor (s.axStep a) (bit c 0), xor x.back (bit c 1), !bit c 2, x.level,
    if x.st == .homing && x.homeSeq = 1 then bits c 35 26 else bits c 25 16)

/-- MOT.GSTAT. -/
def State.motGstat (s : State) : Word :=
  fields [(0, 8, maskN 8 (fun a => (vget s.ax a).moving)), (8, 8, maskN 8 (fun a => (vget s.ax a).homed)),
    (16, 8, maskN 8 (fun a => (vget s.ax a).st == .held))]

/-- MOT.AXSTAT (10 R327). -/
def State.axStat (s : State) (a : Nat) : Word :=
  let x := vget s.ax a
  fields [(0, 3, match x.st with
      | .disabled => 0 | .idle => 1 | .accel => 2 | .cruise => 3 | .decel => 4 | .homing => 5 | .held => 6),
    (3, 1, b1 x.queued.isSome), (4, 1, b1 x.homed), (5, 1, b1 x.back), (6, 2, x.level), (16, 16, x.err)]

/-- MOT.VEL. -/
def State.axVelWord (s : State) (a : Nat) : Word :=
  let x := vget s.ax a
  fields [(0, 32, x.v / 65536), (32, 32, x.vel)]

/-- MOT.CMDSTAT (10 R328). -/
def State.cmdStat (s : State) (a : Nat) : Word :=
  let x := vget s.ax a
  fields [(0, 1, b1 x.cmdBusy), (1, 1, b1 x.cmdDone), (16, 16, x.cmdErr)]

/-! ## Meanings -/

/-- A host's MOT.CMD write. -/
def State.motCmd (s : State) (w : Writer) (a op : Nat) (v : Nat) (sel : Nat := 0) : State :=
  s.asWriter w true (fun s n => s.wrMotCmd n a (fields [(0, 48, v), (48, 4, op), (52, 2, sel)]))

/-- MOT_CMD_MOVE (10 R328). -/
def execMotCmdMove (e : Env) (w : Writer) (a : Fin 8) (value : BitVec 48) (s : State) : Host.Outcome State Fault Refusal :=
  .next ((s.arrive e).motCmd w a 1 value.toNat)
/-- MOT_CMD_MOVE_A (10 R328). -/
def execMotCmdMoveA (e : Env) (w : Writer) (a : Fin 8) (value : BitVec 48) (s : State) : Host.Outcome State Fault Refusal :=
  .next ((s.arrive e).motCmd w a 2 value.toNat)
/-- MOT_CMD_VEL (10 R328). -/
def execMotCmdVel (e : Env) (w : Writer) (a : Fin 8) (value : BitVec 32) (s : State) : Host.Outcome State Fault Refusal :=
  .next ((s.arrive e).motCmd w a 3 value.toNat)
/-- MOT_CMD_ACC (10 R328). -/
def execMotCmdAcc (e : Env) (w : Writer) (a : Fin 8) (value : BitVec 32) (s : State) : Host.Outcome State Fault Refusal :=
  .next ((s.arrive e).motCmd w a 4 value.toNat)
/-- MOT_CMD_STOP (10 R328). -/
def execMotCmdStop (e : Env) (w : Writer) (a : Fin 8) (s : State) : Host.Outcome State Fault Refusal :=
  .next ((s.arrive e).motCmd w a 5 0)
/-- MOT_CMD_HOME (10 R328). -/
def execMotCmdHome (e : Env) (w : Writer) (a : Fin 8) (sel : Fin 4) (s : State) : Host.Outcome State Fault Refusal :=
  .next ((s.arrive e).motCmd w a 6 0 sel)
/-- AXIS_EN (10 R328). -/
def execAxisEn (e : Env) (w : Writer) (a : Fin 8) (s : State) : Host.Outcome State Fault Refusal :=
  .next ((s.arrive e).asWriter w true (fun s n => s.wrAxCtl n a 1))
/-- AXIS_DIS (10 R328). -/
def execAxisDis (e : Env) (w : Writer) (a : Fin 8) (s : State) : Host.Outcome State Fault Refusal :=
  .next ((s.arrive e).asWriter w true (fun s n => s.wrAxCtl n a 2))
/-- AXIS_RELEASE (10 R321). -/
def execAxisRelease (e : Env) (w : Writer) (a : Fin 8) (s : State) : Host.Outcome State Fault Refusal :=
  .next ((s.arrive e).asWriter w true (fun s n => s.wrAxCtl n a 4))
/-- CRUISE (10 R313). -/
def execCruise (e : Env) (a : Fin 8) (s : State) : Host.Outcome State Fault Refusal := .next ((s.arrive e).axCruise a)
/-- DECEL_START (10 R313). -/
def execDecelStart (e : Env) (a : Fin 8) (s : State) : Host.Outcome State Fault Refusal := .next ((s.arrive e).axDecel a)
/-- MICROSTEP_SWITCH (10 R311). -/
def execMicrostepSwitch (e : Env) (a : Fin 8) (s : State) : Host.Outcome State Fault Refusal := .next ((s.arrive e).axLevel a)
/-- MOVE_END (10 R313). -/
def execMoveEnd (e : Env) (a : Fin 8) (s : State) : Host.Outcome State Fault Refusal := .next ((s.arrive e).axEnd a)
/-- HOME_INDEX (10 R320). -/
def execHomeIndex (e : Env) (a : Fin 8) (s : State) : Host.Outcome State Fault Refusal := .next ((s.arrive e).axIndex a)
/-- HOME_FAIL (10 R320). -/
def execHomeFail (e : Env) (a : Fin 8) (s : State) : Host.Outcome State Fault Refusal := .next ((s.arrive e).axHomeFail a)

end Sys2Proof.Machine
end

