-- ==== Sys2Proof/Machine/Health.lean ====
section
/-! DEFINITION. The nozzle health engine (09 R285-R298, R305): scoring, the sense route, host commands, return tests and the arming of the alignment unit. -/
namespace Sys2Proof.Machine
open Sys2Proof

/-! ## Nozzles (09 R292, R305) -/

/-- Nozzle j of port p. -/
def State.nz (s : State) (p j : Nat) : Nozzle := SMap.get s.hlt.nz {} (8192 * p + j)

/-- Nozzle j of port p changed by f. -/
def State.modNz (s : State) (p j : Nat) (f : Nozzle → Nozzle) : State :=
  s.modHlt (fun h => { h with nz := SMap.set h.nz {} (8192 * p + j) (f (s.nz p j)) })

/-- The SRAM word of nozzle k = 8192·port + nozzle in NZSTATE. -/
def nzWord (k : Nat) : Nat := Config.tableIndex (0x03C00000 + 2 * k) false

/-- An uncorrectable word of NZSTATE found (13 R405): counted, and rewritten with HOUT = 1 and CAUSE HOST; what its other fields
take is left free.
[log 107: DESIGN CHOICE] -/
def State.nzEcc (s : State) (k : Nat) : State :=
  let d := (s.sramUeHit (nzWord k) (sramPart (nzWord k))).draw
  (d.1.modMem (fun m => { m with nzBad := m.nzBad.filter (· != k) })).modNz (k / 8192) (k % 8192) (fun _ => {
    hout := true, cause := 3, tfail := bits d.2 2 0, sense := bits d.2 4 3, nrcnt := bits d.2 7 5, senseBad := bit d.2 8 })

/-- The uncorrectable words of port p's nozzles found as its lines read them. -/
def State.nzRead (s : State) (p : Nat) : State :=
  s.each (s.mem.nzBad.filter (fun k => k / 8192 == p)) (fun s k => s.nzEcc k)

/-- The health-OUT nozzles of port p: OUTNOW. -/
def State.outNow (s : State) (p : Nat) : Nat :=
  (s.hlt.nz.filter (fun x => x.1 / 8192 == p && x.2.hout)).length

/-- The detail of a record of nozzles: the first one and how many.
[log 71: DESIGN CHOICE] -/
def nzDetail (l : List Nat) : Word := fields [(0, 32, l.headD 0), (32, 32, l.length)]

/-- Nozzles of port p put OUT with a cause (09 R290); those that are OUT already stay as they are.
[log 71: DESIGN CHOICE; log 72: DEDUCED] -/
def State.putOut (s : State) (p : Nat) (js : List Nat) (cause : Nat) : State :=
  let js := js.filter (fun j => !(s.nz p j).hout)
  if js.isEmpty then s
  else
    let s := s.each js (fun s j => s.modNz p j (fun x => { x with hout := true, cause := cause }))
    let s := s.modHlt (fun h => { h with flips := vmod h.flips p (fun k => satAdd 16 k js.length) })
    let q := s.segOf p
    let s := match q with | some q => s.setEv q 0x400000 | none => s
    s.postUnit p (s.ev 2 0x0A01 p q (nzDetail js))

/-- Nozzles of port p returned to service: NOZZLE_IN.
[log 71: DESIGN CHOICE] -/
def State.putIn (s : State) (p : Nat) (js : List Nat) : State :=
  let js := js.filter (fun j => (s.nz p j).hout)
  if js.isEmpty then s
  else
    let s := s.each js (fun s j => s.modNz p j (fun x => { x with hout := false, cause := 0 }))
    let s := s.modHlt (fun h => { h with returns := vmod h.returns p (fun k => satAdd 16 k js.length) })
    s.postUnit p (s.ev 2 0x0A02 p (s.segOf p) (nzDetail js))

/-- MAXOUT of port p; 0 sets no limit.
[log 69: DEDUCED] -/
def State.maxOut (s : State) (p : Nat) : Nat := s.rf (0x03800200 + 8 * p) 28 16

/-- Nozzles that a sense window or a frame has already taken, and that are still IN. -/
def State.takenOuts (s : State) : List (Nat × Nat) :=
  ((s.hlt.senses ++ s.hlt.applies).flatMap (·.outs)).eraseDups.filter (fun x => !(s.nz x.1 x.2).hout)

/-- Candidates admitted up to MAXOUT of their ports and to `top` in all (09 R289), with the ports that met MAXOUT. A nozzle that
is taken already counts once.
[log 69: DEDUCED] -/
def State.outAllowed (s : State) (top : Nat) (cands : List (Nat × Nat)) : List (Nat × Nat) × List Nat :=
  let taken := s.takenOuts
  cands.foldl (fun acc c =>
    let n := s.outNow c.1 + ((taken ++ acc.1.filter (fun x => !taken.contains x)).filter (fun x => x.1 == c.1)).length
    if acc.1.contains c then acc
    else if !taken.contains c && s.maxOut c.1 ≠ 0 && s.maxOut c.1 ≤ n then (acc.1, addOnce c.1 acc.2)
    else if top ≤ acc.1.length then acc
    else (acc.1 ++ [c], acc.2)) ([], [])

/-- OUT_LIMIT, once per port.
[log 72: DEDUCED] -/
def State.outLimit (s : State) (ports : List Nat) : State :=
  s.each ports (fun s p => s.postUnit p (s.ev 2 0x0A04 p (s.segOf p)))

/-- Every nozzle of a list put OUT, port by port. -/
def State.putOutAll (s : State) (l : List (Nat × Nat)) (cause : Nat) : State :=
  s.each (those 64 (fun p => l.any (fun x => x.1 == p))) (fun s p =>
    s.putOut p ((l.filter (fun x => x.1 == p)).map (·.2)) cause)

/-! ## The sense route (09 R291, R297) -/

/-- A nozzle after a sense code.
[log 70: DEDUCED] -/
def Nozzle.sensed (x : Nozzle) (code : Nat) (testing route : Bool) : Nozzle :=
  { x with
    sense := code, senseBad := x.senseBad || (testing && 2 ≤ code),
    nrcnt := if !route then x.nrcnt else if code = 3 then min 7 (x.nrcnt + 1) else 0 }

/-- A sense window w of telemetry: codes are kept, and with SENSEOUT the nozzles whose no-response count has reached
SENSEN go OUT 16 ticks later.
[log 70: DEDUCED] -/
def State.senseWindow (s : State) (p w : Nat) (codes : SMap Nat) : State :=
  let cfg := s.reg (0x03800200 + 8 * p)
  let route := bit cfg 0
  let n := bits cfg 3 1
  let tp := s.hlt.sensePorts.testBit p
  let s := s.each (List.range 1024) (fun s i =>
    s.modNz p (1024 * w + i) (fun x => x.sensed (SMap.get codes 0 i) tp route))
  let cands := ((List.range 1024).filter (fun i =>
    let x := s.nz p (1024 * w + i)
    route && SMap.get codes 0 i == 3 && n ≤ x.nrcnt && !x.hout)).map (fun i => (p, 1024 * w + i))
  let a := s.outAllowed 8192 cands
  let s := s.outLimit a.2
  if a.1.isEmpty then s
  else s.modHlt (fun h => { h with senses := h.senses ++ [{ at_ := s.now + 16 * qTick, outs := a.1, cause := 2 }] })


/-! ## Bins and scoring (09 R286-R290) -/

/-- A bin's entry in BINMAP: port, first nozzle, count. -/
def State.binMap (s : State) (k : Nat) : Nat × Nat × Nat :=
  let e := s.tab (0x03900000 + 4 * k) 4
  (bitsN e 21 16, bitsN e 12 0, bitsN e 28 24)

/-- The nozzles of a bin. -/
def State.binNozzles (s : State) (k : Nat) : List (Nat × Nat) :=
  let e := s.binMap k
  (List.range e.2.2).map (fun i => (e.1, e.2.1 + i))

/-- A field of the policy of map set m. -/
def State.pol (s : State) (m hi lo : Nat) : Nat := s.rf (0x03800180 + 8 * m) hi lo

/-- The score of a bin key. -/
def State.score (s : State) (k : Nat) : Nat := SMap.get s.hlt.score 0 k

/-- The hit flag of bin b (09 R287); none where it is not scored. -/
def State.binHit (s : State) (m base nb : Nat) (means : SMap Nat) (b : Nat) : Option Bool :=
  if (s.binMap (base + b)).2.2 = 0 then none
  else
    let mean := SMap.get means 0 b
    let ref : Option Nat :=
      if s.pol m 17 17 = 1 then some (s.tab (0x03A00000 + 2 * (base + b)) 2)
      else
        let nr := s.pol m 20 18
        let ns := (List.range (2 * nr + 1)).filter (fun i =>
          nr ≤ b + i && i ≠ nr && b + i - nr < nb && (s.binMap (base + b + i - nr)).2.2 ≠ 0 &&
            s.score (base + b + i - nr) < s.pol m 31 24)
        if ns.isEmpty then none
        else some (roundDiv (ns.foldl (fun a i => a + SMap.get means 0 (b + i - nr)) 0) ns.length)
    ref.map (fun r =>
      let d : Int := if s.pol m 16 16 = 0 then (r : Int) - mean else (mean : Int) - r
      decide ((s.pol m 15 0 : Int) ≤ d))

/-- The bin allows nozzle x as a candidate under ACTION (09 R289). -/
def State.candidate (s : State) (m : Nat) (x : Nat × Nat) : Bool :=
  let z := s.nz x.1 x.2
  !z.hout && (match s.pol m 41 40 with | 1 => 2 ≤ z.sense | 2 => true | _ => false)

/-- A scoring frame (09 R287-R290).
[log 71: DESIGN CHOICE; log 72: DEDUCED] -/
def State.scoreFrame (s : State) (r : VisRes) : State :=
  let m := s.rf (0x03800100 + 8 * r.seq) 2 1
  let base := 65536 * m + 16384 * r.cam
  let hits := (List.range r.nbins).map (fun b => (b, s.binHit m base r.nbins r.means b))
  let scored := hits.filter (fun h => h.2.isSome)
  let nhit := (hits.filter (fun h => h.2 == some true)).length
  let g := s.pol m 63 60
  if g ≠ 0 && scored.length * g / 16 < nhit then
    s.postUnit (uCam r.cam) (s.ev 2 0x0A05 r.cam (some r.seq) (wd r.no))
  else
    let top := s.pol m 31 24
    let upd := scored.map (fun h =>
      let S := s.score (base + h.1)
      (h.1, S, if h.2 == some true then min 255 (S + s.pol m 35 32) else S - min S (s.pol m 39 36)))
    let s := s.modHlt (fun x => { x with score := upd.foldl (fun l u => SMap.set l 0 (base + u.1) u.2.2) x.score })
    let failing := those r.nbins (fun b => (s.binMap (base + b)).2.2 ≠ 0 && top ≤ s.score (base + b))
    let cands := failing.map (fun b => (b, (s.binNozzles (base + b)).filter (s.candidate m)))
    let s := s.each (upd.filter (fun u => u.2.1 < top && top ≤ u.2.2)) (fun s u =>
      if cands.any (fun c => c.1 == u.1 && !c.2.isEmpty) then s
      else s.postUnit (uCam r.cam) (s.ev 2 0x0A03 r.cam (some r.seq) (fields [(0, 32, r.no), (32, 14, u.1), (48, 2, r.cam)])))
    let a := s.outAllowed 4096 (cands.flatMap (fun c => c.2))
    let s := s.outLimit a.2
    let at_ := max r.at_ s.hlt.lastApply + qTick * ((r.nbins + 3) / 4 + a.1.length + 16)
    s.modHlt (fun h => { h with lastApply := at_, applies := h.applies ++ [{ at_ := at_, outs := a.1, cause := 1 }] })

/-! ## Return tests (09 R298) -/

/-- What a test says of a nozzle of a bin. -/
inductive TestSays where
  | nothing | ambig | failed | returned
deriving DecidableEq, Repr, Inhabited

/-- The outcome for nozzle x of a bin with spitting set `spit`. -/
def State.testNozzle (s : State) (spit : List (Nat × Nat)) (mark : Bool) (x : Nat × Nat) : TestSays :=
  let z := s.nz x.1 x.2
  if !z.hout || !(z.cause = 1 || z.cause = 2) || !spit.contains x then .nothing
  else if 1 < spit.length then .ambig
  else if z.senseBad || !mark then .failed
  else .returned

/-- A test frame: its outcome waits for its tick. -/
def State.testFrame (s : State) (r : VisRes) (a : Arm) : State :=
  let m := s.rf (0x03800100 + 8 * a.seq) 2 1
  let base := 65536 * m + 16384 * r.cam
  let out := (List.range r.nbins).flatMap (fun b =>
    let l := s.binNozzles (base + b)
    let spit := l.filter (fun x => x.2 % a.a == a.b)
    let mean := SMap.get r.means 0 b
    let d : Int := if s.pol m 16 16 = 1 then (a.bg : Int) - mean else (mean : Int) - a.bg
    l.map (fun x => (b, x, s.testNozzle spit (decide ((a.th : Int) ≤ d)) x)))
  let pick := fun k => out.filter (fun o => o.2.2 == k)
  let at_ := max r.at_ s.hlt.lastApply + qTick * ((r.nbins + 3) / 4 + (pick .returned).length + 16)
  let te : TestEnd := {
    at_ := at_, returned := (pick .returned).map (·.2.1), failed := (pick .failed).map (·.2.1),
    ambig := (pick .ambig).length, bins := (pick .returned).map (fun o => base + o.1), arm := a }
  s.modHlt (fun h => { h with lastApply := at_, testEnd := some te })

/-! ## The engine: one frame after another, and its apply ticks (09 R285, R290, R301) -/

/-- The engine has a frame in hand until its apply tick. -/
def State.engineBusy (s : State) : Bool := !s.hlt.applies.isEmpty || s.hlt.testEnd.isSome

/-- The frames that wait are processed, one at a time. -/
def State.engineRun (s : State) : Nat → State
  | 0 => s
  | fuel + 1 =>
    if s.engineBusy then s
    else match s.hlt.waitq with
    | [] => s
    | r :: l =>
      let s := s.modHlt (fun h => { h with waitq := l })
      (match r.arm with
      | some a => s.testFrame r a
      | none => s.scoreFrame r).engineRun fuel

/-- Every frame that waits, as far as the frame in hand allows.
[log 74: DEDUCED] -/
def State.engineNext (s : State) : State := s.engineRun s.hlt.waitq.length

/-- The nozzles of a change put OUT in its apply tick, and remembered as such (09 R301). -/
def State.applyOuts (s : State) (a : Apply) : State :=
  (s.putOutAll a.outs a.cause).modHlt (fun h => { h with
    justOut := (if h.justAt = a.at_ then h.justOut else []) ++ a.outs, justAt := a.at_ })

/-- Nozzle j of port p is put OUT in an apply tick that is the present tick. -/
def State.justOut (s : State) (p j : Nat) : Bool := s.sameTick s.hlt.justAt && s.hlt.justOut.contains (p, j)

/-- The frame in hand has its apply tick, where that is at t or before; the next frame follows. -/
def State.frameApply (s : State) (t : Nat) : State :=
  match s.hlt.applies with
  | [] => s
  | a :: l => if a.at_ ≤ t then ((s.modHlt (fun h => { h with applies := l })).applyOuts a).engineNext else s

/-- HEALTH_APPLY (09 R290). -/
def State.healthApply (s : State) : State := s.frameApply s.now

/-- SENSE_APPLY (09 R291): of a nozzle that a frame puts OUT in this tick, the cause is CAMERA (09 R301). -/
def State.senseApply (s : State) (p : Nat) : State :=
  match s.hlt.senses.find? (fun a => a.at_ ≤ s.now && a.outs.any (fun x => x.1 == p)) with
  | none => s
  | some a => ((s.modHlt (fun h => { h with senses := h.senses.erase a })).frameApply s.tickEnd).applyOuts a

/-- The outcome of a test applies: a nozzle that the host has put OUT since, or released, is left alone.
[log 74: DEDUCED] -/
def State.testResult (s : State) (t : TestEnd) : State :=
  let back := t.returned.filter (fun x => (s.nz x.1 x.2).hout && (s.nz x.1 x.2).cause != 3)
  let s := s.each t.failed (fun s x => s.modNz x.1 x.2 (fun z => { z with tfail := min 7 (z.tfail + 1) }))
  let s := s.each (those 64 (fun p => back.any (fun x => x.1 == p))) (fun s p =>
    s.putIn p ((back.filter (fun x => x.1 == p)).map (·.2)))
  let s := s.each back (fun s x => s.modNz x.1 x.2 (fun z => { z with nrcnt := 0 }))
  let bins := ((t.returned.zip t.bins).filter (fun x => back.contains x.1)).map (·.2)
  let s := s.modHlt (fun h => { h with
    score := bins.foldl (fun l k => SMap.set l 0 k 0) h.score,
    testEnd := none, test := h.test.filter (fun a => a != t.arm), testDone := true, returned := sat 16 back.length,
    failed := sat 16 t.failed.length, ambig := sat 16 t.ambig })
  s.postUnit (uCam t.arm.cam) (s.ev 2 0x0A06 t.arm.cam (some t.arm.seq) (fields [(0, 32, back.length), (32, 32, t.failed.length)]))

/-- The test in hand has its apply tick, where that is at t or before; the next frame follows. -/
def State.testApplyBy (s : State) (t : Nat) : State :=
  match s.hlt.testEnd with
  | some e => if e.at_ ≤ t then (s.testResult e).engineNext else s
  | none => s

/-- TEST_APPLY (09 R298).
[log 72: DEDUCED] -/
def State.testApply (s : State) : State := s.testApplyBy s.now

/-- Everything whose apply tick is at t or before, frames ahead of sense windows (09 R301). -/
def State.healthBy (s : State) (t : Nat) : State :=
  let s := s.each (List.range (s.hlt.waitq.length + 1)) (fun s _ => (s.frameApply t).testApplyBy t)
  s.each (s.hlt.senses.filter (fun a => a.at_ ≤ t)) (fun s a =>
    (s.modHlt (fun h => { h with senses := h.senses.erase a })).applyOuts a)

/-- What applied before this tick, and what applies up to its end: a read point in an apply tick sees the new state (09 R301). -/
def State.healthBefore (s : State) : State := if s.tickStart = 0 then s else s.healthBy (s.tickStart - 1)
def State.healthNow (s : State) : State := s.healthBy s.tickEnd

/-- A vision result that has reached LCLK waits for the engine. -/
def State.engineTake (s : State) (r : VisRes) : State := (s.modHlt (fun h => { h with waitq := h.waitq ++ [r] })).engineNext

/-- The tick in which a result reaches LCLK. -/
def State.arrivalTick (s : State) (r : VisRes) : Nat := (r.at_ + 6 * qTick - s.tickBase) / 4

/-- VISION_RESULT (09 R285): the oldest result that has reached LCLK, of two in one tick that of P0, is given its purpose.
[log 74: DEDUCED] -/
def State.visionResult (s : State) : State :=
  match s.hlt.visq with
  | [] => s
  | h :: _ =>
    if s.ticks < s.arrivalTick h then s
    else
      let r := (s.hlt.visq.find? (fun r => r.cam < 2 && s.arrivalTick r == s.arrivalTick h)).getD h
      let s := (s.modHlt (fun h => { h with visq := h.visq.erase r })).healthBefore
      if r.doubt || r.align || r.nbins = 0 then s
      else
        let r := { r with at_ := s.now }
        let test := s.hlt.test.filter (fun a =>
          a.cam == r.cam && a.seq == r.seq && r.program && s.hlt.testEnd.isNone && !s.hlt.waitq.any (fun x => x.arm == some a))
        match test with
        | some a => s.engineTake { r with arm := some a }
        | none => if s.rf (0x03800100 + 8 * r.seq) 0 0 = 1 then s.engineTake r else s

/-! ## Host commands and new heads (09 R293, R294, R297, R299) -/

/-- HLT.NZCTL written by session n: in its apply tick a nozzle goes OUT, whatever the host releases (09 R301).
[log 73: DEDUCED] -/
def State.wrNzCtl (s : State) (n : Nat) (v : Word) : State × Nat :=
  let j := bits v 12 0
  let p := bits v 21 16
  let op := bits v 25 24
  if op = 0 || op = 3 then (s, 0)
  else if !s.isSteward n && !s.holds n p then s.refuse n 0x0A0A p 1
  else if bits (vget s.kl p).headId 47 32 ≤ j then s.refuse n 0x0A0A p 2
  else if op = 1 then
    if (s.nz p j).hout then (s.modNz p j (fun x => { x with cause := 3 }), 0) else (s.putOut p [j] 3, 0)
  else
    let s := s.healthBefore
    if s.justOut p j then (s.modNz p j (fun x => { x with nrcnt := 0 }), 0)
    else ((s.putIn p [j]).modNz p j (fun x => { x with hout := false, cause := 0, nrcnt := 0 }), 0)

/-- HLT.TESTCTL written by session n (09 R297). -/
def State.wrTestCtl (s : State) (n : Nat) (v : Word) : State × Nat :=
  let c := bits v 2 1
  let q := bits v 7 4
  if !bit v 0 then if s.acting n then (s.modHlt (fun h => { h with test := none }), 0) else s.refuse n 0x0102 0
  else if s.hlt.test.isSome || !s.holds n (uCam c) || !s.holds n (uSeq q) then s.refuse n 0x0A08 c
  else
    let s := s.modHlt (fun h => { h with
      test := some { cam := c, seq := q, a := bits v 14 8 + 1, b := bits v 21 15, bg := bits v 47 32, th := bits v 63 48,
                     at_ := s.now },
      testDone := false, sensePorts := h.sensePorts ||| maskN 64 (s.inSegment q) })
    let nz := s.hlt.nz.map (fun x => (x.1, if s.inSegment q (x.1 / 8192) then { x.2 with senseBad := false } else x.2))
    (s.modHlt (fun h => { h with nz := nz.filter (fun x => x.2 != {}) }), 0)

/-- HLT.ALCTL written by session n (09 R299). -/
def State.wrAlCtl (s : State) (n : Nat) (v : Word) : State × Nat :=
  let c := bits v 2 1
  let q := bits v 7 4
  if !bit v 0 then if s.acting n then (s.modHlt (fun h => { h with al := none }), 0) else s.refuse n 0x0102 0
  else if s.hlt.al.isSome || !s.holds n (uCam c) || !s.holds n (uSeq q) then s.refuse n 0x0A08 c
  else (s.modHlt (fun h => { h with
    al := some { cam := c, seq := q, a := bits v 18 8, bg := bits v 47 32, th := bits v 63 48, at_ := s.now },
    alDone := false }), 0)

/-- NEW_HEAD_CLEAR (09 R294): a port reaches READY with a head of another identity; the changes of an apply tick that is this
very tick are the new head's (09 R301). -/
def State.newHead (s : State) (p : Nat) : State :=
  let k := vget s.kl p
  let id := (k.headId, k.hid1)
  let changed := match vget s.hlt.headSeen p with | some old => old != id | none => false
  let s := s.modHlt (fun h => { h with headSeen := vset h.headSeen p (some id) })
  if !changed then s
  else
    let s := s.healthBefore
    let nz := s.hlt.nz.map (fun x =>
      (x.1, if x.1 / 8192 == p then
        let kept := x.2.hout && s.justOut p (x.1 % 8192)
        { x.2 with hout := kept, cause := if kept then x.2.cause else 0, tfail := 0, nrcnt := 0 }
      else x.2))
    s.modHlt (fun h => { h with nz := nz.filter (fun x => x.2 != {}) })

/-! ## Status words (09 R303, R305) -/

def State.hltGstat (s : State) : Word :=
  fields [(0, 20, (s.hlt.nz.filter (fun x => x.2.hout)).length), (20, 1, b1 s.hlt.test.isSome), (21, 1, b1 s.hlt.al.isSome)]
def State.testStat (s : State) : Word :=
  fields [(0, 1, b1 s.hlt.test.isSome), (1, 1, b1 s.hlt.testDone), (16, 16, s.hlt.returned), (32, 16, s.hlt.failed),
    (48, 16, s.hlt.ambig)]
def State.alStat (s : State) : Word :=
  fields [(0, 1, b1 s.hlt.al.isSome), (1, 1, b1 s.hlt.alDone), (16, 11, s.hlt.nFound), (32, 11, s.hlt.nMiss)]
def State.hltCnt (s : State) (p : Nat) : Word :=
  fields [(0, 16, sat 16 (s.outNow p)), (16, 16, vget s.hlt.flips p), (32, 16, vget s.hlt.returns p)]
/-- An NZSTATE entry. -/
def Nozzle.word (x : Nozzle) : Nat :=
  (fields [(0, 1, b1 x.hout), (1, 2, x.cause), (3, 3, x.tfail), (6, 2, x.sense), (8, 3, x.nrcnt), (11, 1, b1 x.senseBad)]).toNat

/-! ## Meanings -/

/-- VISION_RESULT (09 R285). -/
def execVisionResult (e : Env) (s : State) : Host.Outcome State Fault Refusal := .next (s.arrive e).visionResult
/-- HEALTH_APPLY (09 R290). -/
def execHealthApply (e : Env) (s : State) : Host.Outcome State Fault Refusal := .next (s.arrive e).healthApply
/-- SENSE_APPLY (09 R291). -/
def execSenseApply (e : Env) (p : Fin 64) (s : State) : Host.Outcome State Fault Refusal := .next ((s.arrive e).senseApply p)
/-- TEST_APPLY (09 R298). -/
def execTestApply (e : Env) (s : State) : Host.Outcome State Fault Refusal := .next (s.arrive e).testApply
/-- A write of HLT.NZCTL with command op for nozzle j of port p. -/
def State.nzOp (p j op : Nat) (s : State) (n : Nat) : State × Nat := s.wrNzCtl n (fields [(0, 13, j), (16, 6, p), (24, 2, op)])
/-- A write of HLT.TESTCTL that arms. -/
def State.testOp (cam q stride phase bg th : Nat) (s : State) (n : Nat) : State × Nat :=
  s.wrTestCtl n (fields [(0, 1, 1), (1, 2, cam), (4, 4, q), (8, 7, stride), (15, 7, phase), (32, 16, bg), (48, 16, th)])
/-- A write of HLT.ALCTL that arms. -/
def State.alignOp (cam q nmark bg minMass : Nat) (s : State) (n : Nat) : State × Nat :=
  s.wrAlCtl n (fields [(0, 1, 1), (1, 2, cam), (4, 4, q), (8, 11, nmark), (32, 16, bg), (48, 16, minMass)])

/-- NZCTL_OUT (09 R293). -/
def execNzctlOut (e : Env) (w : Writer) (p : Fin 64) (j : Fin 8192) (s : State) : Host.Outcome State Fault Refusal :=
  .next ((s.arrive e).asWriter w true (State.nzOp p j 1))
/-- NZCTL_RELEASE (09 R293). -/
def execNzctlRelease (e : Env) (w : Writer) (p : Fin 64) (j : Fin 8192) (s : State) : Host.Outcome State Fault Refusal :=
  .next ((s.arrive e).asWriter w true (State.nzOp p j 2))
/-- TEST_ARM (09 R297). -/
def execTestArm (e : Env) (w : Writer) (cam : Fin 4) (q : Fin 16) (stride phase : Fin 128) (bg th : Fin 65536) (s : State) :
    Host.Outcome State Fault Refusal :=
  .next ((s.arrive e).asWriter w false (State.testOp cam q stride phase bg th))
/-- TEST_DISARM (09 R297). -/
def execTestDisarm (e : Env) (w : Writer) (s : State) : Host.Outcome State Fault Refusal :=
  .next ((s.arrive e).asWriter w false (fun s n => s.wrTestCtl n 0))
/-- ALIGN_ARM (09 R299). -/
def execAlignArm (e : Env) (w : Writer) (cam : Fin 4) (q : Fin 16) (nmark : Fin 2048) (bg minMass : Fin 65536) (s : State) :
    Host.Outcome State Fault Refusal :=
  .next ((s.arrive e).asWriter w false (State.alignOp cam q nmark bg minMass))
/-- ALIGN_DISARM (09 R299). -/
def execAlignDisarm (e : Env) (w : Writer) (s : State) : Host.Outcome State Fault Refusal :=
  .next ((s.arrive e).asWriter w false (fun s n => s.wrAlCtl n 0))

end Sys2Proof.Machine
end

