-- ==== Sys2Proof/Machine/Kwady.lean ====
section
/-! DEFINITION. Kwady Link, the device's side (07): port states, upstream frames, head register accesses, link tests and lane calibration. -/
namespace Sys2Proof.Machine
open Sys2Proof

/-! ## Configuration in force (07 R247) -/

def State.klTXEN (s : State) (p : Nat) : Bool := bit (s.reg (0x03000100 + 8 * p)) 0
def State.klAUTO (s : State) (p : Nat) : Bool := bit (s.reg (0x03000100 + 8 * p)) 5
def State.klCTLEFRZ (s : State) (p : Nat) : Bool := bit (s.reg (0x03000100 + 8 * p)) 6
def State.klDFEFRZ (s : State) (p : Nat) : Bool := bit (s.reg (0x03000100 + 8 * p)) 7
def State.klLOSTO (s : State) (p : Nat) : Nat := s.rf (0x03000100 + 8 * p) 23 16
def txeqAddr (p : Nat) : Nat := 0x03000300 + 8 * p

/-- The segment of port p has an open swath, or one binds the port (07 R242). -/
def State.segOpen (s : State) (p : Nat) : Bool :=
  s.portOpen p || (List.range 16).any (fun q => s.inSegment q p && (vget s.seq q).swst == .opened)

/-- Port p takes part in an open swath (02 R38). -/
def State.inSwath (s : State) (p : Nat) : Bool :=
  (List.range 16).any (fun q => (vget s.seq q).swst == .opened && (vget s.seq q).live.contains p)

/-- The port receives upstream symbols as frames: its receiver is aligned (07 R211), and it carries no raw PRBS. -/
def KlPort.receives (k : KlPort) : Bool :=
  k.st == .ident || k.st == .config || k.st == .push || k.st == .ready ||
    ((k.st == .cal || k.st == .test) && k.prbsSince.isNone)

/-! ## Windows of counted records (07 R233) -/

/-- A record of port p counted in its window: the first is posted at once.
[log 151: DEDUCED] -/
def State.klRecord (s : State) (p code : Nat) (w : Window) (put : KlPort → Window → KlPort) (line : Option Nat := none) :
    State :=
  let h := w.hit s.now
  let s := s.modKl p (fun k => put k h.1)
  s.when h.2 (fun s => s.postUnit p (s.ev 2 code p (s.segOf p) 0 0 line))

/-- The end of a window: the records counted in it are posted as one, with their count.
[log 151: DEDUCED] -/
def State.klWindowEnd (s : State) (p code : Nat) (w : Window) (put : KlPort → Window → KlPort) : State :=
  match w.since with
  | none => s
  | some t =>
    if s.now < t + qMs then s
    else
      let s := s.modKl p (fun k => put k {})
      s.when (w.more != 0) (fun s => s.postUnit p (s.ev 2 code p (s.segOf p) (wd w.more) 0x400))

/-- MISS_WINDOW_END. -/
def State.missWindowEnd (s : State) (p : Nat) : State :=
  let k := vget s.kl p
  let s := s.klWindowEnd p 0x0602 k.wMiss (fun k w => { k with wMiss := w })
  let s := s.klWindowEnd p 0x0603 k.wUp (fun k w => { k with wUp := w })
  s.klWindowEnd p 0x0604 k.wDown (fun k w => { k with wDown := w })

/-! ## The upstream equaliser (07 R237) -/

/-- The equaliser has adapted further: values that the spec leaves open, except where a freeze holds them.
[log 51: DESIGN CHOICE] -/
def State.rxAdapt (s : State) (p : Nat) : State :=
  let d := s.draw
  let k := vget s.kl p
  let c := if s.klCTLEFRZ p then bits k.rxeq 4 0 else bits d.2 4 0
  let t := if s.klDFEFRZ p then bits k.rxeq 63 16 else bits d.2 63 16
  d.1.modKl p (fun k => { k with rxeq := fields [(0, 5, c), (16, 48, t)] })

/-! ## Port states (07 R240, R241) -/

/-- A host's head access ends without a response: STATUS 0xFF and HREG_ERR (07 R245, R250).
[log 55: DEDUCED] -/
def State.hregLost (s : State) (p : Nat) : State :=
  match (vget s.kl p).acc with
  | none => s
  | some a =>
    let s := s.modKl p (fun k => { k with acc := none })
    if a.host then
      (s.modKl p (fun k => { k with hbusy := false, hstatus := 0xFF })).postUnit p (s.ev 2 0x060B p (s.segOf p) (wd 0xFF))
    else s

/-- A port enters WAKE: downstream IDLE, SEQ 0, and adaptation from CTLE code 8 and zero taps unless frozen.
[log 51: DESIGN CHOICE] -/
def State.wake (s : State) (p : Nat) : State :=
  let s := (s.leaveReady p .wake).hregLost p
  let c := s.klCTLEFRZ p
  let t := s.klDFEFRZ p
  s.modKl p (fun k => { k with
    seqNo := 0, lane := [], busyTo := 0, rd := false, rdAt := s.now, prbsAt := none, prbsSince := none, up := [], lastUp := none, prevMiss := none, prevDerr := none, doubt := false,
    rxeq := fields [(0, 5, if c then bits k.rxeq 4 0 else 8), (16, 48, if t then bits k.rxeq 63 16 else 0)] })

/-- UP (07 R248): acts only in DOWN or FAULT with TXEN = 1. -/
def State.portUp (s : State) (p : Nat) : State :=
  let k := vget s.kl p
  if (k.st == .down || k.st == .fault) && s.klTXEN p then s.wake p else s

/-- DOWN (07 R248): acts in every state; the head loses its alignment. -/
def State.portDown (s : State) (p : Nat) : State :=
  let s := (s.leaveReady p .down).hregLost p
  (s.modHead p (fun h => { h with aligned := false })).modKl p (fun k => { k with prbs := k.prbs &&& 0xE, prbsSince := none })

/-- WAKE_DONE (07 R240): identification begins with an HREAD of HD.HID0 to HD.HCAP. -/
def State.wakeDone (s : State) (p : Nat) : State :=
  if (vget s.kl p).st != .wake then s
  else (s.rxAdapt p).modKl p (fun k => { k with
    st := .ident, since := s.now, nextId := (k.nextId + 1) % 256,
    acc := some { addr := 0, len := 6, id := k.nextId, host := false } })

/-- A bring-up step that has lasted d quanta fails with its FAULTDET (07 R240). -/
def State.bringupTimeout (s : State) (p : Nat) (st : KlSt) (d det : Nat) : State :=
  let k := vget s.kl p
  if k.st == st && s.due k.since d then (s.hregLost p).portFault p det else s

/-- CONFIG_DONE (07 R240): 1 µs after DROP the live copy is pushed. -/
def State.configDone (s : State) (p : Nat) : State :=
  let k := vget s.kl p
  if k.st == .config && s.due k.since qUs then
    (s.modKl p (fun k => { k with st := .push, since := s.now })).pushStart p
  else s

/-- LINK_LOST (07 R241, R243): no valid upstream frame for LOSTO µs; a calibration has 350 µs to return the port.
[log 52: DEDUCED] -/
def State.linkLost (s : State) (p : Nat) : State :=
  let k := vget s.kl p
  let quiet := match k.lastUp with | some t => s.due t (s.klLOSTO p * qUs) | none => s.due k.since (s.klLOSTO p * qUs)
  if quiet && (k.st == .ready || (k.st == .cal && s.due k.since (350 * qUs))) then (s.hregLost p).portFault p 5 else s

/-- PORT_AUTO_RETRY (07 R240). -/
def State.autoRetry (s : State) (p : Nat) : State :=
  let k := vget s.kl p
  if k.st == .fault && s.klAUTO p && s.klTXEN p && s.due k.since (100 * qMs) then s.wake p else s

/-! ## Upstream frames (07 R232, R233) -/

/-- A valid upstream frame has arrived; those that the head sent before it are gone (07 R231). -/
def State.upFrame (s : State) (p : Nat) (f : UpFrame) : State :=
  s.modKl p (fun k => { k with
    up := if k.up.contains f then (k.up.dropWhile (· != f)).tail else k.up, lastUp := some s.now })

/-- The highest line not above `ln` with low 8 bits `tag` (07 R233). -/
def missLine (ln tag : Nat) : Nat := ln - (ln + 256 - tag % 256) % 256

/-- How far a wrapping 16-bit count of the head has risen since the frame before. -/
def countRise (prev : Option Nat) (now : Nat) : Nat :=
  match prev with | some m => (now + 65536 - m % 65536) % 65536 | none => 0

/-- The temperature of a telemetry frame: its highest valid TEMPi (07 R232). -/
def telemTemp (t : Telem) : Option Int :=
  t.temps.foldl (fun m x => match m, x with
    | some a, some b => some (max a b)
    | none, x => x
    | m, none => m) none

/-- TELEMETRY_FRAME (07 R232, R233; 06 R188, R197-R199; 09 R291).
[log 57: DESIGN CHOICE] -/
def State.telemetry (s : State) (p : Nat) (t : Telem) : State :=
  let k := vget s.kl p
  if !k.receives then s
  else
    let s := (s.upFrame p (.telem t)).rxAdapt p
    let dm := countRise k.prevMiss t.missCnt
    let dd := countRise k.prevDerr t.derr
    let s := s.modKl p (fun k => { k with
      dseq := t.dseq, hbank := t.liveBank % 2 == 1, bank0v := t.bank0v, bank1v := t.bank1v, doubt := t.doubt,
      miss := satAdd 16 k.miss dm, downErr := satAdd 16 k.downErr dd,
      prevMiss := some t.missCnt, prevDerr := some t.derr })
    let s := s.when (dm != 0) (fun s =>
      let ln := (s.segOf p).map (fun q => missLine (vget s.seq q).ln t.missTag)
      s.klRecord p 0x0602 (vget s.kl p).wMiss (fun k w => { k with wMiss := w }) ln)
    let s := s.when (dd != 0) (fun s => s.klRecord p 0x0604 (vget s.kl p).wDown (fun k w => { k with wDown := w }))
    let s := s.when (t.doubt && !k.doubt) (fun s => s.postUnit p (s.ev 2 0x0607 p (s.segOf p)))
    let s := s.firSample p (telemTemp t) t.vsup
    let s := s.modFp p (fun f => { f with stale := (telemTemp t).isNone })
    let s := s.when t.senseV (fun s => s.senseWindow p (t.senseWin % 8) t.sense)
    if t.fault && k.st == .ready then
      (s.postUnit p (s.ev 2 0x0608 p (s.segOf p))).portFault p 6
    else s

/-- UPSTREAM_VOID (07 R232, R233). -/
def State.upVoid (s : State) (p : Nat) : State :=
  let k := vget s.kl p
  if !k.receives then s
  else
    let s := s.modKl p (fun k => { k with upCrc := satAdd 16 k.upCrc 1, up := k.up.tail })
    s.klRecord p 0x0603 k.wUp (fun k w => { k with wUp := w })

/-- The codes of an upstream frame arrive (07 R213, R214, R232): `act` says what a frame does; a void one is counted, and one
ended by K30.7 is not. -/
def State.upSymbols (s : State) (p : Nat) (rx : List Nat) (act : State → UpFrame → State) : State :=
  if !(vget s.kl p).receives then s
  else match readUp rx with
  | .frame f => act s f
  | .ended => s.modKl p (fun k => { k with up := k.up.tail })
  | .bad => s.upVoid p

/-- ACK_FRAME (06 R189, R190; 07 R232, R240; 09 R294): the last acknowledgement of a bring-up push makes the port READY. -/
def State.ackFrame (s : State) (p : Nat) (a : Ack) : State :=
  let k := vget s.kl p
  if !k.receives then s
  else
    let s := (s.upFrame p (.ack a)).pushAck p a
    s.when (k.st != .ready && (vget s.kl p).st == .ready) (fun s => s.newHead p)

/-- The response of the identification (07 R240): HEADID is written; an impossible head gives FAULTDET 3. -/
def State.identified (s : State) (p : Nat) (d : List Byte) : State :=
  let id := wd (leAt d 0 8)
  let nnoz := bits id 47 32
  if nnoz = 0 || 8192 < nnoz || 8 < bits id 51 48 || bits id 63 56 ≠ 1 then s.portFault p 3
  else (s.modKl p (fun k => { k with
    headId := id, hid1 := wd (leAt d 8 8), hcap := wd (leAt d 16 8), st := .config, since := s.now })).sendFrame p (.ctl { op := .drop })

/-- The head's answer about the latest PRBS run (07 R242, R249): its errors are added in a test, or kept with the preset in a
calibration, where its checker was locked. -/
def State.prbsAnswer (s : State) (p : Nat) (d : List Byte) : State :=
  let lock := (leAt d 4 4).testBit 0
  let n := leAt d 0 4
  s.modKl p (fun k =>
    if k.st == .test then { k with downBits := satAdd 32 k.downBits n, lockDn := lock }
    else match k.calRes.getLast? with
    | some r => { k with calRes := k.calRes.dropLast ++ [{ r with down := if lock then some n else none }] }
    | none => k)

/-- RESPONSE_FRAME (07 R231, R232, R240, R242, R249, R250). -/
def State.respFrame (s : State) (p : Nat) (r : Resp) : State :=
  let k := vget s.kl p
  if !k.receives then s
  else
    let s := s.upFrame p (.resp r)
    match k.acc with
    | none => s
    | some a =>
      if a.sentAt.isNone || r.id ≠ a.id || r.write ≠ a.write || r.addr ≠ a.addr then s
      else
        let s := s.modKl p (fun k => { k with acc := none })
        if a.host then
          let s := s.modKl p (fun k => { k with
            hbusy := false, hdone := true, hstatus := r.status % 256,
            hdat := if !a.write && r.status = 0 then padTo (4 * a.len) r.data ++ k.hdat.drop (4 * a.len) else k.hdat })
          s.when (r.status != 0) (fun s => s.postUnit p (s.ev 2 0x060B p (s.segOf p) (wd (r.status % 256))))
        else if k.st == .ident && r.status = 0 then s.identified p r.data
        else if (k.st == .test || k.st == .cal) && r.status = 0 then s.prbsAnswer p r.data
        else s

/-- RESPONSE_TIMEOUT (07 R244, R245, R250): 50 µs after the access was sent. -/
def State.respTimeout (s : State) (p : Nat) : State :=
  match (vget s.kl p).acc with
  | some a => match a.sentAt with
    | some t => if a.host && s.due t (50 * qUs) then s.hregLost p else s
    | none => s
  | none => s

/-! ## Control frames and head register accesses (07 R219, R220, R250) -/

/-- CONTROL_FRAME_SEND: the waiting HREAD or HWRITE starts where it fits, in rotation with table frames. -/
def State.ctlFrameSend (s : State) (p : Nat) : State :=
  let k := vget s.kl p
  match k.acc with
  | none => s
  | some a =>
    let table := match (vget s.fp p).push with | some u => u.nextFrame.isSome && s.gapFits p 2070 | none => false
    if !s.ctlReady p || (table && k.slotLast == 1) then s
    else
      let s := s.sendFrame p (.ctl { op := if a.write then .hwrite else .hread, id := a.id, addr := a.addr, len := a.len,
                                     data := a.data })
      let t := s.laneFree p
      s.modKl p (fun k => { k with slotLast := 1, acc := some { a with sentAt := some t } })

/-- KL.HREGCMD[p] written by session n (07 R250): address, write, words.
[log 55: DEDUCED] -/
def State.hregCmd (s : State) (p n addr : Nat) (write : Bool) (len : Nat) : State × Nat :=
  let k := vget s.kl p
  if k.hbusy || k.st != .ready || (write && s.inSwath p) then s.refuse n 0x0609 p
  else if len = 0 || 64 < len || addr % 4 ≠ 0 || (write && addr < 0x10000) then s.refuse n 0x060B p
  else (s.modKl p (fun k => { k with
      hbusy := true, hdone := false, nextId := (k.nextId + 1) % 256,
      acc := some { addr := addr, write := write, len := len, id := k.nextId,
                    data := if write then k.hdat.take (4 * len) else [] } }), 0)

/-- The write of a KL register of port p by session n (07 R246). -/
def State.klHolder (s : State) (p n : Nat) (op : State → State × Nat) : State × Nat := s.ifRight (s.holds n p) n p op

def State.wrHregCmd (s : State) (p n : Nat) (v : Word) : State × Nat :=
  s.klHolder p n (fun s => s.hregCmd p n (bits v 23 0) (bit v 24) (bits v 38 32))

/-! ## Link tests (07 R238, R249) -/

/-- The head supports pattern `pat` (07 R228): PRBS7 and PRBS31 always, the others where HCAP states them. -/
def KlPort.patOk (k : KlPort) (pat : Nat) : Bool :=
  pat == 0 || pat == 3 || (pat == 1 && bit k.hcap 0) || (pat == 2 && bit k.hcap 1)

/-- An HWRITE of HD.HCTL with PRBSRUN, PAT and INV in `v` and DUR, which the lane starts from instant t on (07 R228, R238). -/
def State.prbsArm (s : State) (p v dur t : Nat) : State :=
  let s := s.sendFrom p t (.ctl { op := .hwrite, id := (vget s.kl p).nextId, addr := 0x18, len := 2, data := toLE 8 (v + dur * 256) })
  let e := s.laneFree p
  s.modKl p (fun k => { k with prbsAt := some e, nextId := (k.nextId + 1) % 256 })

/-- The port enters TEST; the HWRITE that sets HD.HCTL[PRBSRUN] goes out. -/
def State.prbsBegin (s : State) (p : Nat) (v : Nat) : State :=
  let s := (s.leaveReady p .test).modKl p (fun k => { k with
    prbs := wd (v % 16), lockUp := false, lockDn := false, prbsSince := none, acc := none })
  s.prbsArm p (v % 16) 250 s.now

/-- KL.PRBS[p] written by session n (07 R249).
[log 56: DEDUCED] -/
def State.wrPrbs (s : State) (p n : Nat) (v : Word) : State × Nat :=
  s.klHolder p n (fun s =>
    let k := vget s.kl p
    if bit v 0 && (k.st != .ready || s.inSwath p) then s.refuse n 0x0609 p
    else if !k.patOk (bits v 2 1) then s.refuse n 0x060C p
    else if bit v 0 then (s.prbsBegin p (bits v 3 0), 0)
    else
      let s := s.modKl p (fun k => { k with prbs := wd (bits v 3 0), prbsAt := none, prbsSince := none })
      (if k.st == .test then s.wake p else s, 0))

/-- The length of the port's PRBS runs in µs (07 R242, R249). -/
def KlPort.prbsDur (k : KlPort) : Nat := if k.st == .cal then 40 else 250

/-- PRBS_RUN_START (07 R238): 2 µs after the HWRITE both ends run. -/
def State.prbsRunStart (s : State) (p : Nat) : State :=
  let k := vget s.kl p
  match k.prbsAt with
  | none => s
  | some t =>
    if (k.st == .test || k.st == .cal) && s.due t (2 * qUs) then
      s.modKl p (fun k => { k with prbsAt := none, prbsSince := some s.now })
    else s

/-- The head's part of a run that has ended (07 R228, R238): it ran where HD.HCTL said so. -/
def Head.prbsDone (h : Head) (x : Checker) : Head :=
  if bit h.hctl 0 then
    { h with hprbserr := fields [(0, 32, x.errs), (32, 1, b1 x.lockAt.isSome)], lockAt := x.lockAt }
  else h

/-- PRBS_RUN_END (07 R238, R242, R249): after DUR the lanes, which turned over the bits named, send IDLE again; 5 µs later an
HREAD of HD.HPRBSERR goes out, and then the HWRITE of the next run, which starts 20 µs after this one's end in a test, and with the
next preset in a calibration.
[log 50: DESIGN CHOICE] -/
def State.prbsRunEnd (s : State) (p : Nat) (upFlips downFlips : List Nat) : State :=
  let k := vget s.kl p
  match k.prbsSince with
  | none => s
  | some t =>
    if !(k.st == .test || k.st == .cal) || !s.due t (k.prbsDur * qUs) then s
    else
      let pat := if k.st == .cal then 3 else bits k.prbs 2 1
      let up := prbsRun pat (3125 * k.prbsDur) upFlips
      let down := prbsRun pat (12500 * k.prbsDur) downFlips
      let h := (vget s.head p).prbsDone down
      let soon : Bool := match h.lockAt with | some i => i ≤ 62500 | none => false
      let s := (s.modHead p (fun _ => h)).modKl p (fun k => { k with
        prbsSince := none, nextId := (k.nextId + 1) % 256,
        acc := some { addr := 0x20, len := 2, id := k.nextId, sentAt := some (s.now + 5 * qUs), host := false } })
      let s := s.sendFrom p (s.now + 5 * qUs) (.ctl { op := .hread, id := k.nextId, addr := 0x20, len := 2 })
      if k.st == .test then
        (s.modKl p (fun k => { k with upErr := satAdd 32 k.upErr up.errs, lockUp := up.locked })).prbsArm p (bits k.prbs 3 0) 250
          (s.now + 18 * qUs - 22 * qTick)
      else
        let s := s.modKl p (fun k => { k with
          calRes := k.calRes ++ [{ upOk := up.lockAt.isSome && up.errs == 0, soon := soon }] })
        if k.calRes.length < 2 then s.prbsArm p 7 40 (k.since + 55 * (k.calRes.length + 1) * qUs) else s

/-- EYE_SWEEP (07 R239): one sweep every 1 ms while the port is READY.
[log 50: DESIGN CHOICE] -/
def State.eyeSweep (s : State) (p width height : Nat) : State :=
  let k := vget s.kl p
  if s.inService p && s.due (max k.since k.eyeAt) qMs then
    s.modKl p (fun k => { k with eye := fields [(0, 7, width), (7, 1, 1), (8, 8, height)], eyeAt := s.now })
  else s

/-! ## Lane calibration (07 R242, R243) -/

/-- A calibration accepted: the port leaves READY, DROP is sent, and the first preset's run is armed. -/
def State.calBegin (s : State) (p : Nat) : State :=
  let s := ((s.leaveReady p .cal).sendFrame p (.ctl { op := .drop })).modKl p (fun k => { k with
    calRes := [], prbsSince := none, acc := none })
  s.prbsArm p 7 40 s.now

/-- The port may be calibrated (07 R242). -/
def State.calOk (s : State) (p : Nat) : Bool := s.inService p && !s.segOpen p

/-- The presets of R242: PRE and POST. -/
def calPreset (i : Nat) : Nat × Nat := (2 * i, 8 + 4 * i)

/-- PRE and POST that drive the downstream lane of port p (07 R236, R242): TXEQ in force, or the preset under test. -/
def State.txeqNow (s : State) (p : Nat) : Nat × Nat :=
  let k := vget s.kl p
  if k.st == .cal && k.calRes.length < 3 then calPreset k.calRes.length
  else (s.rf (txeqAddr p) 3 0, s.rf (txeqAddr p) 12 8)

/-- Every run of a calibration found the head's checker locked within 5 µs (07 R243).
[log 50: DESIGN CHOICE] -/
def KlPort.calLocked (k : KlPort) : Bool := k.calRes.length == 3 && k.calRes.all (·.soon)

/-- The chosen preset and its downstream errors (07 R243): the fewest errors among those with a locked head checker
and no upstream error, the lower POST between equals. -/
def KlPort.calChoice (k : KlPort) : Option (Nat × Nat) :=
  k.calRes.zipIdx.foldl (fun best r =>
    match r.1.down, best with
    | some e, some (j, d) => if r.1.upOk && e < d then some (r.2, e) else some (j, d)
    | some e, none => if r.1.upOk then some (r.2, e) else none
    | none, b => b) none

/-- The calibration's measurement is over (07 R242): the port goes to the push of its live copy. -/
def State.laneReturn (s : State) (p : Nat) : State := (s.modKl p (fun k => { k with st := .push, since := s.now })).pushStart p

/-! ## Register writes (07 R246, R248; 06 R200, R204) -/

/-- CLRCNT. -/
def State.klClear (s : State) (p : Nat) : State :=
  s.modKl p (fun k => { k with miss := 0, upCrc := 0, downErr := 0, aborts := 0, upErr := 0, downBits := 0 })

/-- KL.PORTCTL[p] written by session n.
[log 56: DEDUCED] -/
def State.wrKlPortCtl (s : State) (p n : Nat) (v : Word) : State × Nat :=
  s.klHolder p n (fun s =>
    let s := s.when (bit v 3) (fun s => s.klClear p)
    let s := s.when (bit v 0) (fun s => s.portUp p)
    let s := s.when (bit v 1) (fun s => s.portDown p)
    if bit v 2 then (if s.calOk p then (s.calBegin p, 0) else s.refuse n 0x0609 p) else (s, 0))

/-- FIR.HVCTL written by session n: OFF wins over ON for a group. -/
def State.wrHvCtl (s : State) (n : Nat) (v : Word) : State × Nat :=
  s.ifRight (s.acting n) n 0 (fun s =>
    let off := bits v 15 8
    let s := s.hvDrop off
    (those 8 (fun g => bit v g && !off.testBit g)).foldl (fun r g =>
      let x := r.1.hvOn g n
      (x.1, if r.2 = 0 then x.2 else r.2)) (s, 0))

/-- FIR.PORTCTL[p] written by session n. -/
def State.wrFirPortCtl (s : State) (p n : Nat) (v : Word) : State × Nat :=
  s.ifRight (s.holds n p) n p (fun s =>
    (s.when (bit v 0) (fun s => s.modFp p (fun f => { f with hotLn := 0, vln := 0, rowOvr := 0, bandChg := 0 })), 0))

/-! ## Read words (07 R248-R250; 06 R205) -/

/-- The code of a port state (07 R240). -/
def klCode : KlSt → Nat
  | .down => 0 | .wake => 1 | .ident => 2 | .config => 3 | .push => 4 | .ready => 5 | .cal => 6 | .test => 7 | .fault => 8

def State.klPortStat (s : State) (p : Nat) : Word :=
  let k := vget s.kl p
  fields [(0, 4, klCode k.st), (4, 1, b1 k.doubt), (5, 1, b1 k.hbank), (6, 1, b1 k.bank0v), (7, 1, b1 k.bank1v),
    (8, 4, k.faultDet), (16, 16, k.dseq)]
def State.klCnt (s : State) (p : Nat) : Word :=
  let k := vget s.kl p
  fields [(0, 16, k.miss), (16, 16, k.upCrc), (32, 16, k.downErr), (48, 16, k.aborts)]
def State.klPrbs (s : State) (p : Nat) : Word :=
  let k := vget s.kl p
  fields [(0, 4, bits k.prbs 3 0), (4, 1, b1 k.lockUp), (5, 1, b1 k.lockDn)]
def State.klPrbsErr (s : State) (p : Nat) : Word :=
  let k := vget s.kl p
  fields [(0, 32, k.upErr), (32, 32, k.downBits)]
def State.hregStat (s : State) (p : Nat) : Word :=
  let k := vget s.kl p
  fields [(0, 1, b1 k.hbusy), (1, 1, b1 k.hdone), (8, 8, k.hstatus)]
def State.klGstat (s : State) : Word := wd (maskN 64 s.inService)
def State.firGstat (s : State) : Word :=
  fields [(0, 8, maskN 8 (fun g => vget s.fire.hven g)), (8, 8, maskN 8 (fun g => vget s.fire.hvok g)),
    (16, 1, b1 s.fire.safeIn)]

/-! ## Commands -/

/-- TELTO_EXPIRY (06 R186). -/
def State.teltoExpiry (s : State) (p : Nat) : State := if s.telStale p then s.modFp p (fun f => { f with stale := true }) else s

def execTeltoExpiry (e : Env) (p : Fin 64) (s : State) : Host.Outcome State Fault Refusal := .next ((s.arrive e).teltoExpiry p)
def execTelemetryFrame (e : Env) (p : Fin 64) (rx : List Nat) (s : State) : Host.Outcome State Fault Refusal :=
  .next ((s.arrive e).upSymbols p rx (fun s f => match f with | .telem t => s.telemetry p t | _ => s))
def execAckFrame (e : Env) (p : Fin 64) (rx : List Nat) (s : State) : Host.Outcome State Fault Refusal :=
  .next ((s.arrive e).upSymbols p rx (fun s f => match f with | .ack a => s.ackFrame p a | _ => s))
def execAckTimeout (e : Env) (p : Fin 64) (s : State) : Host.Outcome State Fault Refusal := .next ((s.arrive e).ackTimeout p)
def execPushStart (e : Env) (p : Fin 64) (s : State) : Host.Outcome State Fault Refusal := .next ((s.arrive e).pushStart p)
def execBandLoadDone (e : Env) (p : Fin 64) (s : State) : Host.Outcome State Fault Refusal := .next ((s.arrive e).bandLoadDone p)
def execPushRetry (e : Env) (p : Fin 64) (s : State) : Host.Outcome State Fault Refusal := .next ((s.arrive e).pushRetry p)
def execTableFrameSend (e : Env) (p : Fin 64) (s : State) : Host.Outcome State Fault Refusal :=
  .next ((s.arrive e).tableFrameSend p)
def execControlFrameSend (e : Env) (p : Fin 64) (s : State) : Host.Outcome State Fault Refusal :=
  .next ((s.arrive e).ctlFrameSend p)
def execResponseFrame (e : Env) (p : Fin 64) (rx : List Nat) (s : State) : Host.Outcome State Fault Refusal :=
  .next ((s.arrive e).upSymbols p rx (fun s f => match f with | .resp r => s.respFrame p r | _ => s))
def execResponseTimeout (e : Env) (p : Fin 64) (s : State) : Host.Outcome State Fault Refusal := .next ((s.arrive e).respTimeout p)
def execUpstreamVoid (e : Env) (p : Fin 64) (rx : List Nat) (s : State) : Host.Outcome State Fault Refusal :=
  .next ((s.arrive e).upSymbols p rx (fun s _ => s))
def execMissWindowEnd (e : Env) (p : Fin 64) (s : State) : Host.Outcome State Fault Refusal :=
  .next ((s.arrive e).missWindowEnd p)
def execHvctlOn (e : Env) (w : Writer) (mask : Fin 256) (s : State) : Host.Outcome State Fault Refusal :=
  .next ((s.arrive e).asWriter w true (fun s n => s.wrHvCtl n (wd mask)))
def execHvctlOff (e : Env) (w : Writer) (mask : Fin 256) (s : State) : Host.Outcome State Fault Refusal :=
  .next ((s.arrive e).asWriter w true (fun s n => s.wrHvCtl n (wd (256 * mask))))
def execHvsettleExpiry (e : Env) (g : Fin 8) (s : State) : Host.Outcome State Fault Refusal := .next ((s.arrive e).hvSettled g)
def execFirClrcnt (e : Env) (w : Writer) (p : Fin 64) (s : State) : Host.Outcome State Fault Refusal :=
  .next ((s.arrive e).asWriter w false (fun s n => s.wrFirPortCtl p n 1))
def execSafeNAssert (e : Env) (s : State) : Host.Outcome State Fault Refusal := .next (s.arrive e).safeAssert
def execSafeNRelease (e : Env) (s : State) : Host.Outcome State Fault Refusal := .next (s.arrive e).safeRelease
def execPortUp (e : Env) (w : Writer) (p : Fin 64) (s : State) : Host.Outcome State Fault Refusal :=
  .next ((s.arrive e).asWriter w true (fun s n => s.wrKlPortCtl p n 1))
def execPortDown (e : Env) (w : Writer) (p : Fin 64) (s : State) : Host.Outcome State Fault Refusal :=
  .next ((s.arrive e).asWriter w true (fun s n => s.wrKlPortCtl p n 2))
def execPortCal (e : Env) (w : Writer) (p : Fin 64) (s : State) : Host.Outcome State Fault Refusal :=
  .next ((s.arrive e).asWriter w true (fun s n => s.wrKlPortCtl p n 4))
def execKlClrcnt (e : Env) (w : Writer) (p : Fin 64) (s : State) : Host.Outcome State Fault Refusal :=
  .next ((s.arrive e).asWriter w true (fun s n => s.wrKlPortCtl p n 8))
def execWakeDone (e : Env) (p : Fin 64) (s : State) : Host.Outcome State Fault Refusal := .next ((s.arrive e).wakeDone p)
def execWakeTimeout (e : Env) (p : Fin 64) (s : State) : Host.Outcome State Fault Refusal :=
  .next ((s.arrive e).bringupTimeout p .wake (500 * qUs) 1)
def execIdentTimeout (e : Env) (p : Fin 64) (s : State) : Host.Outcome State Fault Refusal :=
  .next ((s.arrive e).bringupTimeout p .ident (50 * qUs) 2)
def execConfigDone (e : Env) (p : Fin 64) (s : State) : Host.Outcome State Fault Refusal := .next ((s.arrive e).configDone p)
def execLinkLost (e : Env) (p : Fin 64) (s : State) : Host.Outcome State Fault Refusal := .next ((s.arrive e).linkLost p)
def execPortAutoRetry (e : Env) (p : Fin 64) (s : State) : Host.Outcome State Fault Refusal := .next ((s.arrive e).autoRetry p)
def execPrbsStart (e : Env) (w : Writer) (p : Fin 64) (pat : Fin 4) (inv : Bool) (s : State) :
    Host.Outcome State Fault Refusal :=
  .next ((s.arrive e).asWriter w false (fun s n => s.wrPrbs p n (fields [(0, 1, 1), (1, 2, pat), (3, 1, b1 inv)])))
def execPrbsStop (e : Env) (w : Writer) (p : Fin 64) (s : State) : Host.Outcome State Fault Refusal :=
  .next ((s.arrive e).asWriter w false (fun s n => s.wrPrbs p n (wd (bits (vget s.kl p).prbs 3 1 * 2))))
def execPrbsRunStart (e : Env) (p : Fin 64) (s : State) : Host.Outcome State Fault Refusal := .next ((s.arrive e).prbsRunStart p)
def execPrbsRunEnd (e : Env) (p : Fin 64) (upFlips downFlips : List Nat) (s : State) : Host.Outcome State Fault Refusal :=
  .next ((s.arrive e).prbsRunEnd p upFlips downFlips)
def execEyeSweep (e : Env) (p : Fin 64) (width : Fin 65) (height : Fin 256) (s : State) : Host.Outcome State Fault Refusal :=
  .next ((s.arrive e).eyeSweep p width height)
def execHregAccess (e : Env) (w : Writer) (p : Fin 64) (addr : BitVec 24) (write : Bool) (len : Fin 128) (s : State) :
    Host.Outcome State Fault Refusal :=
  .next ((s.arrive e).asWriter w false (fun s n => s.wrHregCmd p n (fields [(0, 24, addr.toNat), (24, 1, b1 write), (32, 7, len)])))

end Sys2Proof.Machine
end

