-- ==== Sys2Proof/Machine/Head.lean ====
section
/-! DEFINITION. The head-side receiver (07 R221-R231): tags and row counts, line and table frames, its register space and its upstream frames. -/
namespace Sys2Proof.Machine
open Sys2Proof

/-! ## Symbols and frames off the lane -/

/-- The first item of port p's lane, once its last symbol has been sent.
[log 49: DEDUCED] -/
def State.laneItem (s : State) (p : Nat) : Option LaneItem :=
  match (vget s.kl p).lane with
  | i :: _ => if i.at_ ≤ s.now then some i else none
  | [] => none

/-- A fire symbol of the lane lies inside a frame that is still on it, with which its characters are counted. -/
def KlPort.inFrame (k : KlPort) (i : LaneItem) : Bool :=
  itemFire i.item && k.lane.any (fun j => !itemFire j.item && j.start < i.start && i.start < j.at_)

/-- That item taken off the lane. -/
def State.laneTake (s : State) (p : Nat) (i : LaneItem) : State :=
  s.modKl p (fun k => { (if k.inFrame i then k else k.passed i.start i.chars) with lane := k.lane.tail })

/-- Void frames and code and disparity errors are counted (07 R229 DERR). -/
def Head.bad (h : Head) (n : Nat) : Head := { h with derr := (h.derr + n) % 65536 }

/-- What the head reads of characters sent from running disparity tx on, where the lane turns over bits of their codes: `noise`
lists symbols, counted from i, and the bits of each; rx is the disparity that the head has seen. -/
def rxSyms (noise : List (Nat × Nat)) : Nat → Bool → Bool → List Sym → List (Option Sym)
  | _, _, _, [] => []
  | i, tx, rx, c :: l =>
    let a := encSym tx c
    let code := noise.foldl (fun m x => if x.1 = i then m ^^^ x.2 % 1024 else m) a.1
    decSym rx code :: rxSyms noise (i + 1) a.2 (rdAfter rx code) l

/-- The receiver takes fire symbols out of a frame with their tags (07 R212). -/
def dropFires : List (Option Sym) → List (Option Sym)
  | [] => []
  | some (.ctl .fire) :: _ :: l => dropFires l
  | some (.ctl .fireBlank) :: _ :: l => dropFires l
  | c :: l => c :: dropFires l

/-- What the head reads of an item: the item, or none for a void one; and how much it counts in DERR (07 R213, R214, R229). -/
def State.headRead? (s : State) (p : Nat) (i : LaneItem) (noise : List (Nat × Nat)) : Option DownItem × Nat :=
  if noise.isEmpty then (some i.item, 0)
  else
    let rd := (vget s.kl p).rdBefore i.start
    let l := rxSyms noise 0 rd rd i.chars
    let errs := l.countP (·.isNone)
    if itemFire i.item then
      match l with
      | [some (.ctl .fire), some (.byte b)] => (some (.fire false b.toNat), errs)
      | [some (.ctl .fireBlank), some (.byte b)] => (some (.fire true b.toNat), errs)
      | _ => (none, errs)
    else match readFrame (dropFires l) with
    | .frame start body => (match parseDown start body with | some x => (some x, errs) | none => (none, errs + 1))
    | .ended => (none, errs)
    | .bad => (none, errs + 1)

/-- An item received by port p's head where it is one that `want` names: `act` says what a valid one does, and `void` what else a
void one does. -/
def State.headTake (s : State) (p : Nat) (noise : List (Nat × Nat)) (want : DownItem → Bool) (void : Head → Head)
    (act : State → DownItem → State) : State :=
  match s.laneItem p with
  | none => s
  | some i =>
    if !want i.item then s
    else
      let r := s.headRead? p i noise
      let s := s.laneTake p i
      if !(vget s.head p).aligned then s
      else
        let s := s.modHead p (fun h => h.bad r.2)
        match r.1 with
        | some x => act s x
        | none => s.modHead p void

/-- DOUBT (07 R224): every held line frame is discarded. -/
def Head.toDoubt (h : Head) : Head := { h with doubt := true, held := [], cur := [] }

/-- Bank b. -/
def Head.bank (h : Head) (b : Nat) : HeadBank := if b = 0 then h.bank0 else h.bank1
def Head.setBank (h : Head) (b : Nat) (x : HeadBank) : Head := if b = 0 then { h with bank0 := x } else { h with bank1 := x }

/-- The bank that a line frame names (06 R187). -/
def frameBank (f : LineFrame) : Nat := f.energy / 4096 % 2

/-- How many nozzles the head has (07 R228 NNOZ). -/
def Head.nnoz (h : Head) : Nat := bits h.hid0 47 32

/-! ## Firing (07 R221-R223; 06 R179, R183) -/

/-- The row trigger of nozzle j. -/
def Head.row (h : Head) (j : Nat) : Nat :=
  let r := SMap.get h.rowmap 0 j % 8
  if h.rt ≤ r then 0 else r

/-- The pulse of nozzle j for drop code c of frame f, if it fires. -/
def Head.pulse (h : Head) (f : LineFrame) (row j c : Nat) : Option Pulse :=
  let sp := SMap.get (h.bank (frameBank f)).points 0 (8 * j + c)
  let w := min 2047 ((sp % 2048 * (f.energy % 4096) + 1024) / 2048)
  if c % 8 = 0 || w = 0 || h.nnoz ≤ j || h.row j ≠ row then none
  else some { line := f.line, row := row, nozzle := j, width := w, wave := sp / 2048 % 8 }

/-- A row trigger fires the nozzles of its row. -/
def Head.fireRow (h : Head) (tag row : Nat) : Head :=
  match SMap.find h.cur tag with
  | none => h
  | some f => { h with liveBank := frameBank f, pulses := f.codes.filterMap (fun x => h.pulse f row x.1 (x.2 % 8)) }

/-- Row trigger 0 of tag t: E advances, and the line's frame is the held one whose bank is valid; without one, a MISS.
[log 53: DEDUCED] -/
def Head.openLine (h : Head) (t : Nat) : Head :=
  let h := { h with e := (t + 1) % 256 }
  match h.held.find? (fun f => f.line % 256 == t && (h.bank (frameBank f)).valid) with
  | some f => { h with cur := SMap.put h.cur t f }
  | none => { h with miss := (h.miss + 1) % 65536, missTag := t }

/-- k(t) after a row trigger; at RT the line is complete and its frame released. -/
def Head.countRow (h : Head) (t k : Nat) : Head :=
  if k < h.rt then { h with k := SMap.put h.k t k }
  else { h with k := SMap.del h.k t, cur := SMap.del h.cur t, held := h.held.filter (fun f => f.line % 256 != t) }

/-- A fire symbol with tag t (07 R222).
[log 58: DEDUCED] -/
def Head.fireSymbol (h : Head) (blank : Bool) (t : Nat) : Head :=
  let h := { h with pulses := [] }
  if h.doubt then h
  else
    let k := SMap.get h.k 0 t
    if k = 0 && t = h.e then
      let h := h.openLine t
      (if blank then h else h.fireRow t 0).countRow t 1
    else if 0 < k && k < h.rt then (if blank then h else h.fireRow t k).countRow t (k + 1)
    else h.toDoubt

/-- HEAD_FIRE_SYMBOL (07 R222, R224). -/
def State.headFire (s : State) (p : Nat) (noise : List (Nat × Nat)) : State :=
  s.headTake p noise itemFire (fun h => { h.toDoubt with pulses := [] }) (fun s x =>
    match x with
    | .fire b t => s.modHead p (fun h => h.fireSymbol b t)
    | _ => s)

/-! ## Line frames (07 R223, R226) -/

/-- The tag t lies behind E: its row trigger 0 has passed.
[log 54: DEDUCED] -/
def Head.late (h : Head) (t : Nat) : Bool := h.e < 256 && 128 ≤ (t + 256 - h.e) % 256

/-- A valid line frame: it replaces a held one of its tag; in DOUBT, behind its row trigger 0 or without space it is discarded. -/
def Head.lineFrame (h : Head) (f : LineFrame) : Head :=
  let t := f.line % 256
  let rest := h.held.filter (fun g => g.line % 256 != t)
  let h := { h with dseq := f.seq }
  if h.doubt || h.late t || 20 ≤ rest.length then h else { h with held := rest ++ [f] }

/-- HEAD_LINE_FRAME. -/
def State.headLine (s : State) (p : Nat) (noise : List (Nat × Nat)) : State :=
  s.headTake p noise itemLine id (fun s x =>
    match x with
    | .line f => s.modHead p (fun h => h.lineFrame f)
    | _ => s)

/-! ## Table frames (07 R225, R230) -/

/-- The bank after an accepted table frame. -/
def HeadBank.accept (b : HeadBank) (f : TableFrame) : HeadBank :=
  let lo := 1024 * f.index
  let b := if b.valid then { b with valid := false, mask := 0 } else b
  let pts := (b.points.filter (fun x => x.1 < lo || lo + 1024 ≤ x.1))
  let mask := b.mask ||| 2 ^ f.index
  { points := f.points.foldl (fun m x => SMap.set m 0 (lo + x.1 % 1024) x.2) pts, mask := mask, valid := mask == 2 ^ 64 - 1 }

/-- The head's answer to a table frame: ACK, BANKBUSY or BADINDEX. -/
def Head.tableStatus (h : Head) (f : TableFrame) : Nat :=
  if 64 ≤ f.index || f.reserved ≠ 0 then 2 else if h.held.any (fun g => frameBank g == f.bank) then 1 else 0

/-- HEAD_TABLE_FRAME. -/
def State.headTable (s : State) (p : Nat) (noise : List (Nat × Nat)) : State :=
  s.headTake p noise (fun x => match x with | .table _ => true | _ => false) id (fun s x =>
    match x with
    | .table f =>
      let st := (vget s.head p).tableStatus f
      let s := s.modHead p (fun h =>
        let h := { h with dseq := f.seq }
        if st = 0 then h.setBank f.bank ((h.bank f.bank).accept f) else h)
      s.modKl p (fun k => { k with up := k.up ++ [.ack { index := f.index, bank := f.bank, status := st, seq := f.seq }] })
    | _ => s)

/-! ## SYNC and DROP (07 R218, R222) -/

/-- SYNC: its payload holds the first line and RT. -/
def Head.sync (h : Head) (f : CtlFrame) : Head :=
  { h with dseq := f.seq, e := leAt f.data 0 4 % 256, rt := leAt f.data 4 1, k := [], held := [], cur := [], doubt := false }

/-- DROP: no tag is expected until the next SYNC.
[log 58: DEDUCED] -/
def Head.dropAll (h : Head) (f : CtlFrame) : Head := { h with dseq := f.seq, e := 256, k := [], held := [], cur := [] }

/-- A SYNC or DROP frame. -/
def State.headCtl (s : State) (p : Nat) (op : CtlOp) (noise : List (Nat × Nat)) (act : Head → CtlFrame → Head) : State :=
  s.headTake p noise (fun x => match x with | .ctl f => f.op == op | _ => false) id (fun s x =>
    match x with
    | .ctl f => if f.op == op then s.modHead p (fun h => act h f) else s
    | _ => s)

/-! ## The register space (07 R228, R231) -/

/-- What lies at a byte address: 0 nothing, 1 read-only, 2 read-write, 3 the maker's. -/
def headSpace (a : Nat) : Nat :=
  if a < 0x18 then 1 else if a < 0x20 then 2 else if a < 0x28 then 1
  else if 0x10000 ≤ a && a < 0x11000 then 2
  else if 0x800000 ≤ a && a < 0x1000000 then 3
  else 0

/-- The status of an access to `len` words from `a`. -/
def headStatus (write : Bool) (a len : Nat) : Nat :=
  let ks := (List.range len).map (fun i => headSpace (a + 4 * i))
  if ks.contains 0 then 1 else if write && ks.contains 1 then 2 else 0

/-- Byte a of the registers. -/
def Head.byte (h : Head) (a : Nat) : Byte :=
  if 0x10000 ≤ a then
    let j := 2 * (a - 0x10000)
    BitVec.ofNat 8 (SMap.get h.rowmap 0 j % 8 + 16 * (SMap.get h.rowmap 0 (j + 1) % 8))
  else
    let w := [h.hid0, h.hid1, h.hcap, h.hctl, h.hprbserr].getD (a / 8) 0
    BitVec.ofNat 8 (bits w (8 * (a % 8) + 7) (8 * (a % 8)))

/-- Byte a written: a read-write byte of HCTL or ROWMAP. -/
def Head.put (h : Head) (a : Nat) (b : Byte) : Head :=
  if 0x10000 ≤ a && a < 0x11000 then
    let j := 2 * (a - 0x10000)
    { h with rowmap := SMap.set (SMap.set h.rowmap 0 j (b.toNat % 8)) 0 (j + 1) (b.toNat / 16 % 8) }
  else if 0x18 ≤ a && a < 0x20 then
    let i := 8 * (a - 0x18)
    { h with hctl := setBits h.hctl (i + 7) i b.toNat &&& 0xFF0F }
  else h

/-- The bytes read from `a`: the maker's own space reads as values that the spec leaves open.
[log 57: DESIGN CHOICE] -/
def State.headRead (s : State) (p a : Nat) : Nat → State × List Byte
  | 0 => (s, [])
  | n + 1 =>
    let d := s.draw
    let x := if 0x800000 ≤ a then (d.1, BitVec.ofNat 8 d.2.toNat) else (s, (vget s.head p).byte a)
    let r := x.1.headRead p (a + 1) n
    (r.1, x.2 :: r.2)

/-- HEAD_CONTROL_FRAME (07 R228, R231); `busy` where the head cannot serve it, for reasons that are its maker's.
[log 57: DESIGN CHOICE] -/
def State.headAccess (s : State) (p : Nat) (noise : List (Nat × Nat)) (busy : Bool) : State :=
  s.headTake p noise (fun x => match x with | .ctl f => f.op == .hwrite || f.op == .hread | _ => false) id (fun s x =>
    match x with
    | .ctl f =>
      let wr := f.op == .hwrite
      let st := if headStatus wr f.addr f.len ≠ 0 then headStatus wr f.addr f.len else if busy then 3 else 0
      let s := s.modHead p (fun h =>
        let h := { h with dseq := f.seq }
        if wr && st = 0 then f.data.zipIdx.foldl (fun h x => h.put (f.addr + x.2) x.1) h else h)
      let r := if !wr && st = 0 then s.headRead p f.addr (4 * f.len) else (s, [])
      r.1.modKl p (fun k => { k with up := k.up ++ [.resp { write := wr, id := f.id, status := st, addr := f.addr, data := r.2 }] })
    | _ => s)

/-! ## Telemetry, alignment, power (07 R211, R229) -/

/-- The telemetry frame of a head.
[log 57: DESIGN CHOICE] -/
def Head.telem (h : Head) (temps : List (Option Int)) (vsup vlog win : Nat) (sense : SMap Nat) (fault : Bool) : Telem :=
  { tseq := h.tseq, dseq := h.dseq, liveBank := h.liveBank, bank0v := h.bank0.valid, bank1v := h.bank1.valid,
    doubt := h.doubt, fault := fault, senseV := bit h.hcap 12, temps := temps.take 8, vsup := vsup, vlog := vlog,
    missCnt := h.miss, missTag := h.missTag, senseWin := win, derr := h.derr,
    sense := if bit h.hcap 12 then sense else [] }

/-- HEAD_TELEMETRY_SEND (07 R229): at the earliest 9.5 µs after the frame before. -/
def State.headTelemetry (s : State) (p : Nat) (temps : List (Option Int)) (vsup vlog win : Nat) (sense : SMap Nat) (fault : Bool) :
    State :=
  let h := vget s.head p
  if !h.aligned || (match h.telAt with | some t => !s.dueFree t 47500 | none => false) then s
  else (s.modHead p (fun h => { h with tseq := (h.tseq + 1) % 65536, telAt := some s.now })).modKl p (fun k =>
    { k with up := k.up ++ [.telem (h.telem temps vsup vlog win sense fault)] })

/-- HEAD_SYMBOL_ALIGNMENT (07 R211): a comma `offset` bits off the head's boundary. It aligns a head that is not aligned while the
device sends IDLE during bring-up; in an aligned one it counts as a code violation unless it lies on the boundary. -/
def State.headAlign (s : State) (p offset : Nat) : State :=
  if (vget s.head p).aligned then s.modHead p (fun h => h.bad (if offset = 0 then 0 else 1))
  else if (vget s.kl p).st == .wake then s.modHead p (fun h => { h with aligned := true, telAt := none })
  else s

/-- HEAD_POWER_UP: both banks invalid, no tag expected, and the head's own identity and geometry.
[log 57: DESIGN CHOICE] -/
def State.headPower (s : State) (p : Nat) (hid0 hid1 hcap : Word) (rowmap : SMap Nat) : State :=
  s.modHead p (fun _ => { hid0 := hid0, hid1 := hid1, hcap := hcap, rowmap := rowmap })

/-! ## Commands -/

def execHeadFireSymbol (e : Env) (p : Fin 64) (noise : List (Nat × Nat)) (s : State) : Host.Outcome State Fault Refusal :=
  .next ((s.arrive e).headFire p noise)
def execHeadLineFrame (e : Env) (p : Fin 64) (noise : List (Nat × Nat)) (s : State) : Host.Outcome State Fault Refusal :=
  .next ((s.arrive e).headLine p noise)
def execHeadTableFrame (e : Env) (p : Fin 64) (noise : List (Nat × Nat)) (s : State) : Host.Outcome State Fault Refusal :=
  .next ((s.arrive e).headTable p noise)
def execHeadSync (e : Env) (p : Fin 64) (noise : List (Nat × Nat)) (s : State) : Host.Outcome State Fault Refusal :=
  .next ((s.arrive e).headCtl p .sync noise Head.sync)
def execHeadDrop (e : Env) (p : Fin 64) (noise : List (Nat × Nat)) (s : State) : Host.Outcome State Fault Refusal :=
  .next ((s.arrive e).headCtl p .drop noise Head.dropAll)
def execHeadControlFrame (e : Env) (p : Fin 64) (noise : List (Nat × Nat)) (busy : Bool) (s : State) : Host.Outcome State Fault Refusal :=
  .next ((s.arrive e).headAccess p noise busy)
def execHeadTelemetrySend (e : Env) (p : Fin 64) (temps : List (Option Int)) (vsup vlog : BitVec 16) (win : Fin 8)
    (sense : SMap Nat) (fault : Bool) (s : State) : Host.Outcome State Fault Refusal :=
  .next ((s.arrive e).headTelemetry p temps vsup.toNat vlog.toNat win sense fault)
def execHeadSymbolAlignment (e : Env) (p : Fin 64) (offset : Fin 10) (s : State) : Host.Outcome State Fault Refusal :=
  .next ((s.arrive e).headAlign p offset)
def execHeadPowerUp (e : Env) (p : Fin 64) (hid0 hid1 hcap : Word) (rowmap : SMap Nat) (s : State) :
    Host.Outcome State Fault Refusal :=
  .next ((s.arrive e).headPower p hid0 hid1 hcap rowmap)

end Sys2Proof.Machine
end

