-- ==== Sys2Proof/Machine/Xlt.lean ====
section
/-! DEFINITION. Address translation (11 R348-R352): table walks, the translation cache, faults, and accesses to a session's device-virtual space. -/
namespace Sys2Proof.Machine
open Sys2Proof

/-- Session n holds DRAM page pg (11 R348). -/
def State.pageHeld (s : State) (n pg : Nat) : Bool := SMap.get s.mem.owner 0 pg == n + 1

/-- Why an entry's target cannot be used at byte offset `off`, if it cannot: TARGET or OWNER (11 R349). -/
def State.ptrBad (s : State) (n e off : Nat) : Option Nat :=
  let pa := e / 65536 * 65536 + off
  if !e.testBit 2 then (if (s.ses n).net then some 0x0203 else none)
  else if s.dramTop ≤ pa then some 0x0203
  else if !s.pageHeld n (pa / 65536) then some 0x0204
  else none

/-- A failed walk: its code, and the DRAM address of an uncorrectable table word. -/
abbrev WalkErr := Nat × Option Nat

/-- The table entry at offset `off` behind pointer e of session n; `hostOk` says how reads of host memory end. -/
def State.readEntry (s : State) (n e off : Nat) (hostOk : Bool) : Except WalkErr Nat :=
  let pa := e / 65536 * 65536 + off
  match s.ptrBad n e off with
  | some c => .error (c, none)
  | none =>
    if e.testBit 2 then
      match wordsIn s.dramUe pa 8 with
      | w :: _ => .error (0x0205, some (4 * w))
      | [] => .ok (leNat (memRead s.dram pa 8))
    else if hostOk then .ok (leNat (memRead (vget s.hostMem (s.ses n).fn) pa 8))
    else .error (0x0205, none)

/-- A walk of both levels for VA (11 R348, R349).
[log 94: DEDUCED] -/
def State.walk (s : State) (n va : Nat) (wr hostOk : Bool) : Except WalkErr TlbEntry :=
  let root := (s.ses n).root.toNat
  if !root.testBit 0 then .error (0x020A, none)
  else match s.readEntry n root (8 * (va / 2 ^ 32)) hostOk with
  | .error c => .error c
  | .ok e1 =>
    if !e1.testBit 0 then .error (0x0201, none)
    else match s.readEntry n e1 (8 * (va / 65536 % 65536)) hostOk with
    | .error c => .error (if wr && !e1.testBit 1 then (0x0202, c.2) else c)
    | .ok e2 =>
      let w := e1.testBit 1 && e2.testBit 1
      if !e2.testBit 0 then .error (0x0201, none)
      else if wr && !w then .error (0x0202, none)
      else match s.ptrBad n e2 (va % 65536) with
      | some c => .error (c, none)
      | none => .ok { session := n, vpage := va / 65536, dram := e2.testBit 2, ppage := e2 / 65536, w := w }

/-! ## The cache (11 R350) -/

/-- The set of a page. -/
def tlbSet (n vpage : Nat) : Nat := (vpage % 512) ^^^ n

/-- The entries of a set, oldest use first. -/
def State.tlbWays (s : State) (n vpage : Nat) : List TlbEntry := SMap.get s.xlt.sets [] (tlbSet n vpage)

/-- The cached entry that permits an access. -/
def State.tlbHit (s : State) (n va : Nat) (wr : Bool) : Option TlbEntry :=
  (s.tlbWays n (va / 65536)).find? (fun e => e.session == n && e.vpage == va / 65536 && (!wr || e.w))

/-- An entry entered or used: it is the newest of its set, of which 8 are kept. -/
def State.tlbUse (s : State) (e : TlbEntry) : State :=
  let l := (s.tlbWays e.session e.vpage).filter (fun x => !(x.session == e.session && x.vpage == e.vpage)) ++ [e]
  let l := l.drop (l.length - 8)
  s.modXlt (fun x => { x with sets := SMap.set x.sets [] (tlbSet e.session e.vpage) l })

/-- Cached translations of session n for the pages that satisfy f dropped (11 R351). -/
def State.tlbDrop (s : State) (n : Nat) (f : Nat → Bool) : State :=
  s.modXlt (fun x => { x with
    sets := (x.sets.map (fun k => (k.1, k.2.filter (fun e => !(e.session == n && f e.vpage))))).filter
      (fun k => !k.2.isEmpty) })

/-! ## Faults (11 R349, R352) -/

/-- A translation fault of session n: XLT.FAULT, the XFAULT vector (18 R518) and a record with the requester in SOURCE. -/
def State.xltFault (s : State) (n va code kind unit : Nat) : State :=
  let s := s.modSess n (fun x => { x with fault := fields [(0, 48, va), (48, 8, code), (56, 6, unit), (62, 2, kind)] })
  let u := if kind = 1 then uCam unit else if kind = 3 then 100 else unit
  (s.raiseSess n 2).postTo n (s.ev 2 code (unit + 256 * kind) (s.unitSeq u) (wd va))

/-- A translation made in place, with its counts. -/
def State.xlate (s : State) (n va : Nat) (wr hostOk : Bool) : State × Except WalkErr TlbEntry :=
  match s.tlbHit n va wr with
  | some e => ((s.modXlt (fun x => { x with hits := satAdd 32 x.hits 1 })).tlbUse e, .ok e)
  | none =>
    let s := s.modXlt (fun x => { x with misses := satAdd 32 x.misses 1 })
    match s.walk n va wr hostOk with
    | .ok e => (s.tlbUse e, .ok e)
    | .error c => (s, .error c)

/-- A fault of a walk reported: the fault record, and DRAM_UE where a table word was uncorrectable. -/
def State.walkFault (s : State) (n va kind unit : Nat) (c : WalkErr) : State :=
  let s := match c.2 with
    | some a => s.dramUeHit a false (if kind = 3 then some n else none)
    | none => s
  s.xltFault n va c.1 kind unit

/-- A piece of an access: where it lies, and how many bytes. -/
structure Piece where
  dram : Bool := false
  addr : Nat := 0
  len : Nat := 0
deriving DecidableEq, Repr, Inhabited

/-- The pieces of `len` bytes from VA, page by page, translated for session n; a fault is reported and ends it. -/
def State.pieces (s : State) (n kind unit : Nat) (wr : Bool) : Nat → Nat → Nat → State × Except Nat (List Piece)
  | 0, _, _ => (s, .ok [])
  | k + 1, va, len =>
    if len = 0 then (s, .ok [])
    else
      let va := va % 2 ^ 48
      let here := min len (65536 - va % 65536)
      match s.xlate n va wr true with
      | (s, .error c) => (s.walkFault n va kind unit c, .error c.1)
      | (s, .ok e) =>
        match s.pieces n kind unit wr k (va + here) (len - here) with
        | (s, .error c) => (s, .error c)
        | (s, .ok l) => (s, .ok ({ dram := e.dram, addr := e.ppage * 65536 + va % 65536, len := here } :: l))

/-- The pieces of an access of any length.
[log 94: DEDUCED] -/
def State.access (s : State) (n kind unit : Nat) (wr : Bool) (va len : Nat) : State × Except Nat (List Piece) :=
  s.pieces n kind unit wr (len / 65536 + 2) va len

/-- The bytes of translated pieces; an uncorrectable DRAM word ends the read with 0x0B04. -/
def State.readPieces (s : State) (n kind : Nat) : List Piece → State × Except Nat (List Byte)
  | [] => (s, .ok [])
  | p :: l =>
    let r := if p.dram then s.dramRead p.addr p.len (if kind = 3 then some n else none)
      else (s, some (memRead (vget s.hostMem (s.ses n).fn) p.addr p.len))
    match r with
    | (s, none) => (s, .error 0x0B04)
    | (s, some b) =>
      match s.readPieces n kind l with
      | (s, .error c) => (s, .error c)
      | (s, .ok b') => (s, .ok (b ++ b'))

/-- `len` bytes of session n's space from VA.
[log 30: DESIGN CHOICE] -/
def State.vread (s : State) (n kind unit va len : Nat) : State × Except Nat (List Byte) :=
  match s.access n kind unit false va len with
  | (s, .error c) => (s, .error c)
  | (s, .ok l) => s.readPieces n kind l

/-- Bytes written to translated pieces. -/
def State.writePieces (s : State) (n : Nat) : List Piece → List Byte → State
  | [], _ => s
  | p :: l, b =>
    let here := b.take p.len
    let s := if p.dram then s.dramWrite p.addr here
      else { s with hostMem := vmod s.hostMem (s.ses n).fn (fun m => memWrite m p.addr here) }
    s.writePieces n l (b.drop p.len)

/-- Bytes written to session n's space from VA: every page is translated before the first byte is written.
[log 94: DEDUCED] -/
def State.vwrite (s : State) (n kind unit va : Nat) (b : List Byte) : State × Nat :=
  match s.access n kind unit true va b.length with
  | (s, .error c) => (s, c)
  | (s, .ok l) => (s.writePieces n l b, 0)

end Sys2Proof.Machine
end

