-- ==== Sys2Proof/Machine/Stream.lean ====
section
/-! DEFINITION. Streams, Caravans, index walks, Dunes, decompression engines and line rings (04 R96-R124, R132-R135; 11 R350-R356). -/
namespace Sys2Proof.Machine
open Sys2Proof

/-! ## Records -/

/-- A record of stream p whose line field holds `line` (04 R100, R112): with LV where a segment holds the port.
[log 24: DEDUCED] -/
def State.lineRec (s : State) (p code line : Nat) (detail : Word := 0) : EvRec :=
  match s.segOf p with
  | some q => s.ev 2 code p (some q) detail 0 (some line)
  | none => { s.ev 2 code p none detail with line := line }

/-- A Dune or index error (04 R112, R138): posted, and written to LDP.FAULTREC.
[log 156: DEDUCED] -/
def State.strErr (s : State) (p code line : Nat) : State :=
  (s.modStr p (fun x => { x with faultRec := fields [(0, 16, code), (16, 32, line)] })).postUnit p (s.lineRec p code line)

/-- The line that a fault names where no Dune is known (04 R100). -/
def State.strLine (s : State) (p : Nat) : Nat :=
  let x := vget s.str p
  match x.lastLine, x.fresh with
  | some l, false => (l + 1) % 2 ^ 32
  | _, _ => (vget s.ring p).base

/-! ## Rings (04 R102-R104) -/

/-- The slot that line n uses. -/
def Ring.slot (r : Ring) (n : Nat) : Slot := SMap.get r.slots {} (n % 256)

/-- The slot of line n replaced; a FREE slot is not listed. -/
def Ring.put (r : Ring) (n : Nat) (x : Slot) : Ring := { r with slots := SMap.set r.slots {} (n % 256) x }

/-- The slots that satisfy f become FREE. -/
def Ring.drop (r : Ring) (f : Slot → Bool) : Ring := { r with slots := r.slots.filter (fun x => !f x.2) }

/-- A Dune of L lines from D is admissible (04 R103). -/
def Ring.admits (r : Ring) (D L : Nat) : Bool :=
  D + L - 1 ≤ r.base + 255 &&
    (List.range L).all (fun i => let x := r.slot (D + i); x.st == .free || x.line < r.base)

/-- Bytes of a line by packing (04 R111). -/
def lineBytes (pack : Nat) : Nat := 1024 * (3 - pack)

/-- Bytes of a Dune's uncompressed data. -/
def Dune.u (d : Dune) : Nat := d.lines * lineBytes d.pack

/-- Bytes of a Dune in its extent, padding included (04 R96). -/
def Dune.len (d : Dune) : Nat := (32 + d.clen + 15) / 16 * 16

/-- Ticks that an engine takes for a Dune (04 R118, R123). -/
def Dune.slow (d : Dune) : Bool := !d.stored && 5 * d.u / 12 < d.ncodes
/-- Ticks that the decode of a Dune takes (04 R123).
[log 29: DEDUCED] -/
def Dune.ticks (d : Dune) : Nat := if d.slow then 40 + d.ncodes else 40 + (5 * d.u + 11) / 12

/-! ## The code stream (04 R113-R117) -/

/-- Width of code number k. -/
def codeWidth (k : Nat) : Nat := if k = 0 then 9 else max 9 (Nat.log2 (min (257 + k) 65535) + 1)

/-- The decoder's state: position, dictionary entries from 258 on, the code before, output so far (last byte first). -/
structure Lzw where
  k : Nat := 0
  i : Nat := 0
  dict : List (List Byte) := []
  prev : Option (List Byte) := none
  out : List Byte := []
deriving DecidableEq, Repr, Inhabited

/-- The string of a code (04 R116). -/
def Lzw.entry (z : Lzw) (c : Nat) : List Byte := if c < 256 then [BitVec.ofNat 8 c] else z.dict.getD (c - 258) []

/-- A string put out, with the entry it adds. -/
def Lzw.emit (z : Lzw) (w : Nat) (str : List Byte) (add : List (List Byte)) : Lzw :=
  { k := z.k + 1, i := z.i + w, dict := z.dict ++ add, prev := some str, out := str.reverse ++ z.out }

/-- The decoder (04 R116) on the payload's number, with at most `n` codes left to read: the output, or none where R117
raises DUNE_CODE.
[log 29: DEDUCED] -/
def lzwRun (data clen u : Nat) : Nat → Lzw → Option (List Byte)
  | 0, _ => none
  | n + 1, z =>
    let w := codeWidth z.k
    let c := (data >>> z.i) % 2 ^ w
    let next := 258 + z.dict.length
    if 8 * clen < z.i + w || u < z.out.length then none
    else if c = 257 then
      if n = 0 && z.out.length = u && (z.i + w + 7) / 8 = clen then some z.out.reverse else none
    else if c = 256 then lzwRun data clen u n { i := z.i + w, out := z.out }
    else match z.prev with
    | none => if 255 < c then none else lzwRun data clen u n (z.emit w (z.entry c) [])
    | some pr =>
      if c < next then
        let str := z.entry c
        lzwRun data clen u n (z.emit w str (if next < 65536 then [pr ++ str.take 1] else []))
      else if c = next && next < 65536 then
        let str := pr ++ pr.take 1
        lzwRun data clen u n (z.emit w str [str])
      else none

/-- The uncompressed data of a Dune's payload, or the error it raises (04 R117). -/
def Dune.decode (d : Dune) (payload : List Byte) : Except Nat (List Byte) :=
  let out := if d.stored then some payload else lzwRun (leNat payload) d.clen d.u d.ncodes {}
  match out with
  | none => .error 0x0403
  | some o => if crc32c o = d.ucrc then .ok o else .error 0x0404

/-! ## Caravans (11 R354-R356) -/

/-- What stream p reads next: nothing is fetched of it yet, and reads in flight will be discarded. -/
def State.strGo (s : State) (p : Nat) (step : StrStep) (st : StrSt) : State :=
  s.modStr p (fun x => { x with
    step := step, st := if x.st == .stalled || x.st == .stopped then x.st else st, dune := none, fetched := [],
    issued := 0, reads := x.reads.map (fun r => { r with dead := true }) })

/-- The chain has ended: the stream is IDLE, and a KICK reads on (11 R354, R356).
[log 25: DEDUCED] -/
def State.strEnd (s : State) (p : Nat) : State :=
  (s.strGo p .none .idle).modStr p (fun x => { x with chain := 2, fetchAgain := false, desc := none, entry := none, block := [] })

/-- The stream reads the next descriptor, at va, or the tail's NEXT again (11 R356). -/
def State.strNext (s : State) (p next : Nat) : State :=
  if next ≠ 0 then s.strGo p (.descriptor next) .fetch
  else if (vget s.str p).fetchAgain then
    (s.modStr p (fun x => { x with fetchAgain := false })).strGo p .next .fetch
  else s.strEnd p

/-- The descriptor in hand is consumed (11 R355).
[log 25: DEDUCED] -/
def State.strConsume (s : State) (p : Nat) (report : Bool) : State :=
  match (vget s.str p).desc with
  | none => s
  | some d =>
    let s := s.modStr p (fun x => { x with
      tail := d.va, count := (x.count + 1) % 65536, consumed := true, desc := none, entry := none, block := [] })
    let s := s.when (report && d.notify) (fun s => s.postUnit p (s.ev 12 0 p (s.segOf p) (wd d.tag)))
    s.strNext p d.next

/-- CARAVAN_DESCRIPTOR (11 R354, R356): a descriptor or a NEXT field that has been read.
[log 25: DEDUCED] -/
def State.readDesc (s : State) (p : Nat) : State :=
  let x := vget s.str p
  match x.step with
  | .next =>
    if x.st != .fetch || x.fetched.length < 8 then s
    else
      let nx := leAt x.fetched 0 8
      if nx ≥ 2 ^ 48 || nx % 64 ≠ 0 then (s.postUnit p (s.ev 2 0x0208 p (s.segOf p))).strEnd p else s.strNext p nx
  | .descriptor va =>
    if x.st != .fetch || x.fetched.length < 64 then s
    else
      let b := x.fetched
      let bad := s.postUnit p (s.ev 2 0x0208 p (s.segOf p))
      if crc32c (b.take 60) ≠ leAt b 60 4 then bad.strEnd p
      else
        let ty := byteAt b 0
        let addr := leAt b 8 8
        let len := leAt b 16 4
        let S := leAt b 20 4
        let E := leAt b 24 4
        let nx := leAt b 28 8
        let ok := byteAt b 1 < 2 && leAt b 2 2 = 0 && addr < 2 ^ 48 && addr % 16 = 0 && nx < 2 ^ 48 && nx % 64 = 0 &&
          leAt b 36 24 = 0 &&
          (if ty = 1 then len % 16 = 0 && 48 ≤ len && S = 0 && E = 0 else ty = 2 && len = 0 && S ≤ E)
        let d : Desc := { va := va, walk := ty == 2, notify := byteAt b 1 % 2 == 1, tag := leAt b 4 4, s := S, e := E, next := nx }
        if !ok then
          if nx < 2 ^ 48 && nx % 64 = 0 then (bad.modStr p (fun x => { x with desc := some d })).strConsume p false
          else bad.strEnd p
        else (s.modStr p (fun x => { x with desc := some d, reached := false })).strGo p
          (if ty = 1 then .extent addr len else .indexBlock addr) .fetch
  | _ => s

/-! ## Index walks (04 R119-R121) -/

/-- The next entry of the walk, the next block, or its end. -/
def State.nextEntry (s : State) (p : Nat) : State :=
  let x := vget s.str p
  match x.desc, x.block with
  | some d, e :: l =>
    if d.e < e.first then s.strConsume p true
    else (s.modStr p (fun x => { x with entry := some e, block := l })).strGo p (.indexEntry e.addr 0) .fetch
  | some _, [] => if x.blockNext = 0 then s.strConsume p true else s.strGo p (.indexBlock x.blockNext) .fetch
  | none, _ => s

/-- Entry i of an index block. -/
def ixEntry (b : List Byte) (i : Nat) : IxEntry :=
  let o := 32 + 16 * i
  { first := leAt b o 4, lines := byteAt b (o + 4), fmt := byteAt b (o + 5), addr := leAt b (o + 8) 6, len16 := leAt b (o + 14) 2 }

/-- The entries are in strictly increasing FIRSTLN order. -/
def ixOrdered : List IxEntry → Bool
  | a :: b :: l => a.first < b.first && ixOrdered (b :: l)
  | _ => true

/-- INDEX_BLOCK (04 R120, R121).
[log 155: DEDUCED] -/
def State.readIndex (s : State) (p : Nat) : State :=
  let x := vget s.str p
  match x.step, x.desc with
  | .indexBlock _, some d =>
    if x.st != .fetch || x.fetched.length < 4096 then s
    else
      let b := x.fetched
      let n := byteAt b 5
      let es := (List.range n).map (ixEntry b)
      let ok := leAt b 0 4 = 0x58444944 && byteAt b 4 = 1 && 1 ≤ n && n ≤ 254 && byteAt b 6 = p && byteAt b 7 = 0 &&
        leAt b 14 2 = 0 && leAt b 20 8 = 0 && leAt b 28 4 = crc32c (b.take 28 ++ (b.take 4096).drop 32) &&
        (List.range n).all (fun i => leAt b (32 + 16 * i + 6) 2 = 0) && ixOrdered es
      if !ok then (s.strErr p 0x040B d.s).strConsume p true
      else
        let nx := leAt b 8 6
        let keep := if x.reached then es
          else if leAt b 16 4 < d.s then [] else es.dropWhile (fun e => e.first + e.lines ≤ d.s)
        (s.modStr p (fun x => { x with
          block := keep, blockNext := nx, blockLast := leAt b 16 4, reached := x.reached || !keep.isEmpty })).nextEntry p
  | _, _ => s

/-! ## Reading on after a Dune -/

/-- The stream moves past `len` bytes at its place in the chain. -/
def State.strAdvance (s : State) (p len : Nat) : State :=
  match (vget s.str p).step with
  | .extent pos left => if left ≤ len then s.strConsume p true else s.strGo p (.extent (pos + len) (left - len)) .fetch
  | .indexEntry _ _ => s.nextEntry p
  | _ => s

/-- A stream whose EN is 0, or that halts on an error, is STOPPED (04 R112, R132).
[log 158: DEDUCED] -/
def State.strStop (s : State) (p : Nat) (err : Bool) : State :=
  s.modStr p (fun x => if !x.en || (err && x.haltErr) then { x with st := .stopped } else x)

/-- A Dune is discarded with an error (04 R112): counted, and passed over. -/
def State.dropDune (s : State) (p code first len : Nat) : State :=
  let s := (s.strErr p code first).modStr p (fun x => { x with duneErr := satAdd 16 x.duneErr 1 })
  (s.strAdvance p len).strStop p true

/-! ## Dune headers (04 R98, R99, R112) -/

/-- The header of a Dune. -/
def duneOf (addr : Nat) (b : List Byte) : Dune :=
  { addr := addr, first := leAt b 4 4, lines := byteAt b 8, pack := byteAt b 9 % 4, stored := (byteAt b 9).testBit 2,
    clen := leAt b 12 4, ncodes := leAt b 16 4, ucrc := leAt b 20 4 }

/-- The first check that a header fails (04 R112): its code, and whether the rest of the extent goes with it. -/
def State.duneCheck (s : State) (p : Nat) (b : List Byte) (d : Dune) (left : Option Nat) (e : Option IxEntry) :
    Option (Nat × Bool) :=
  let hdr := leAt b 0 4 = 0x454E5544 && byteAt b 11 = 1 && leAt b 28 4 = crc32c (b.take 28) && byteAt b 9 < 8 &&
    byteAt b 10 < 64 && leAt b 24 4 = 0
  let top := if d.pack = 0 then 21 else if d.pack = 1 then 32 else 64
  let size := d.pack ≠ 3 && 1 ≤ d.lines && d.lines ≤ top &&
    (if d.stored then d.clen = d.u && d.ncodes = 0 else 1 ≤ d.clen && d.clen ≤ 65536 && 1 ≤ d.ncodes) &&
    (match e with
      | some e => e.lines = byteAt b 8 && e.fmt = byteAt b 9 && 16 * e.len16 = d.len
      | none => true)
  if !hdr then some (0x0402, true)
  else if left.any (fun l => l < d.len) then some (0x0407, true)
  else if byteAt b 10 ≠ p then some (0x0406, false)
  else if !size then some (0x0407, false)
  else if (vget s.str p).lastLine.any (fun l => d.first ≤ l) then some (0x0405, false)
  else none

/-- A Dune that the stream has accepted is behind it: the order check goes by it (04 R98).
[log 26: DEDUCED] -/
def State.strAccept (s : State) (p : Nat) (d : Dune) : State :=
  s.modStr p (fun x => { x with lastLine := some (d.first + d.lines - 1), fresh := false, engEcc := 0 })

/-- A Dune whose last line lies below the ring base is skipped (04 R99, R103). -/
def State.skipDune (s : State) (p : Nat) (d : Dune) : State :=
  let s := (s.strAccept p d).modStr p (fun x => { x with skipped := satAdd 16 x.skipped 1 })
  (s.strAdvance p d.len).strStop p false

/-- Where the stream stands with an accepted Dune: it skips it, waits for the ring, reads on, or requests an engine
(04 R103, R122). -/
def State.strSettle (s : State) (p : Nat) : State :=
  let x := vget s.str p
  match x.dune with
  | some d =>
    if x.st == .fetch || x.st == .waitRing || x.st == .waitEng then
      if d.first + d.lines ≤ (vget s.ring p).base then s.skipDune p d
      else
        let st : StrSt := if !(vget s.ring p).admits d.first d.lines then .waitRing
          else if min 16384 d.len ≤ x.fetched.length then .waitEng else .fetch
        s.modStr p (fun x => { x with st := st })
    else s
  | none => s

/-- DUNE_HEADER (04 R99, R102, R112).
[log 156: DEDUCED] -/
def State.readHeader (s : State) (p : Nat) : State :=
  let x := vget s.str p
  let at_ : Option (Nat × Option Nat) := match x.step with
    | .extent pos left => some (pos, some left)
    | .indexEntry va _ => some (va, none)
    | _ => none
  match at_ with
  | none => s
  | some (pos, left) =>
    if x.st != .fetch || x.dune.isSome then s
    else if left.any (fun l => l < 32) then
      (s.strErr p 0x0407 (s.strLine p)).strConsume p true
    else if x.fetched.length < 32 then s
    else
      let b := x.fetched
      let d := duneOf pos b
      match s.duneCheck p b d left x.entry with
      | some (c, rest) => s.dropDune p c d.first (if rest then 2 ^ 33 else d.len)
      | none =>
        let r := vget s.ring p
        let s := s.when (!s.portOpen p && r.slots.isEmpty) (fun s =>
          s.modRing p (fun r => { r with base := d.first, readDone := none }))
        (s.modStr p (fun x => { x with dune := some d })).strSettle p

/-! ## Engines (04 R122-R124) -/

/-- The engine that decodes stream p's Dune is free again, from instant t on. -/
def State.engFree (s : State) (p t : Nat) : State :=
  { s with eng := s.eng.map (fun g => if g.owner == some p then { g with owner := none, freeAt := t } else g) }

/-- The first instant of the next LCLK tick. -/
def State.nextTick (s : State) : Nat := s.tickBase + qTick * (s.ticks + 1)

/-- An engine lets go of stream p's Dune (04 R124): its PENDING slots are FREE, and the engine is free in the next tick. -/
def State.engDrop (s : State) (p : Nat) : State :=
  (s.engFree p s.nextTick).modRing p (fun r => r.drop (fun x => x.st == .pending))

/-- A Dune in decode is abandoned (04 R124): its slots and engine are free, and it is fetched again from its header.
[log 158: DEDUCED] -/
def State.strAbandon (s : State) (p : Nat) : State :=
  let s := s.engDrop p
  s.strGo p (vget s.str p).step .fetch

/-- ENGINE_GRANT (04 R122): engine g, free and in service, goes to the next requesting stream in rotation. -/
def State.grant (s : State) (g : Nat) : State :=
  let x := vget s.eng g
  if x.owner.isSome || x.out || x.testing.isSome || s.now < x.freeAt then s
  else match rotPick 64 s.engLast (fun p => (vget s.str p).st == .waitEng) with
  | none => s
  | some p =>
    match (vget s.str p).dune with
    | none => s
    | some d =>
      if d.first + d.lines ≤ (vget s.ring p).base || !(vget s.ring p).admits d.first d.lines then s.strSettle p
      else
        let s := { s with engLast := p }
        let s := s.modEng g (fun x => { x with owner := some p, doneAt := s.now + 4 * d.ticks })
        let s := s.modStr p (fun x => { x with st := .decode, eng := g, lastByte := s.now })
        s.modRing p (fun r => (List.range d.lines).foldl (fun r i =>
          r.put (d.first + i) { st := .pending, line := d.first + i, pack := d.pack }) r)

/-- One line of a decoded Dune reaches its slot (04 R103, R104): VALID, or a late arrival. -/
def State.ringStore (s : State) (p : Nat) (d : Dune) (data : List Byte) (i : Nat) : State :=
  let r := vget s.ring p
  let n := d.first + i
  let lb := lineBytes d.pack
  if n < r.base || (n = r.base && r.readDone == some n) then
    (s.modRing p (fun r => r.put n {})).modStr p (fun x => { x with lateArr := satAdd 16 x.lateArr 1 })
  else
    let k := n % 256
    let u := s.sramWrite (slotWord p n) (lb / 8)
    let g := u.1.sramWrite (Config.tagIndex p k) 1
    let bad := u.2.map (· - 98304 * p) ++ (if g.2.isEmpty then [] else [98304 + k])
    g.1.modRing p (fun r =>
      let r' := r.put n { st := .valid, line := n, pack := d.pack, data := (data.drop (lb * i)).take lb }
      { r' with bad := bad ++ r.bad.filter (fun x => !((384 * k ≤ x && x < 384 * k + lb / 8) || x == 98304 + k)) })

/-- A flush of stream p's ring comes in this tick (04 R130).
[log 6: DESIGN CHOICE] -/
def State.flushComes (s : State) (p : Nat) : Bool :=
  s.together.any (fun c => match c with
    | .ringFlush _ _ k _ _ => k.val == p
    | .authWrite _ m => leAt m.payload 0 4 == 0x02000700 + 8 * p && (byteAt m.payload 12).testBit 0
    | _ => false)

/-- DUNE_DECODE_DONE (04 R103, R104, R117, R118): a flush in the same tick wins (04 R130).
[log 26: DEDUCED; log 29: DEDUCED; log 154: DEDUCED; log 156: DEDUCED; log 159: DEDUCED] -/
def State.decodeDone (s : State) (p : Nat) : State :=
  let x := vget s.str p
  match x.dune with
  | none => s
  | some d =>
    let g := vget s.eng x.eng
    if x.st != .decode || x.fetched.length < 32 + d.clen || s.now < g.doneAt || s.flushComes p then s
    else
      let s := s.engFree p s.now
      match d.decode ((x.fetched.drop 32).take d.clen) with
      | .error c =>
        let s := (s.modRing p (fun r => r.drop (fun x => x.st == .pending))).strAccept p d
        s.dropDune p c d.first d.len
      | .ok data =>
        let s := s.each (List.range d.lines) (fun s i => s.ringStore p d data i)
        let s := (s.strAccept p d).modStr p (fun x => { x with doneAt := s.now, doneFirst := d.first, doneLines := d.lines })
        let s := s.when d.slow (fun s =>
          (s.modStr p (fun x => { x with slow := satAdd 16 x.slow 1 })).postUnit p (s.lineRec p 0x040A d.first))
        (s.strAdvance p d.len).strStop p false

/-- An uncorrectable error in the dictionary memory of stream p's engine (04 R124): the Dune is abandoned, and discarded the
second time.
[log 156: DEDUCED; log 159: DEDUCED] -/
def State.engineEcc (s : State) (p : Nat) : State :=
  let x := vget s.str p
  match x.dune with
  | some d =>
    if x.st != .decode then s
    else
      let s := s.strErr p 0x0410 d.first
      if x.engEcc = 0 then (s.strAbandon p).modStr p (fun x => { x with engEcc := 1 })
      else
        let s := ((s.engDrop p).strAccept p d).modStr p (fun x => { x with duneErr := satAdd 16 x.duneErr 1 })
        (s.strAdvance p d.len).strStop p true
  | none => s

/-- A byte of stream p's Dune arrives in this tick (04 R130).
[log 6: DESIGN CHOICE] -/
def State.byteComes (s : State) (p : Nat) : Bool :=
  (match (vget s.str p).reads with | r :: _ => !r.dead | [] => false) && s.together.any (fun c => match c with
    | .dmaReadCompletion _ k res => k.val == p && res == .ok
    | _ => false)

/-- ENGINE_ABANDON (04 R124): no input byte for 2,048 ticks; a byte in that tick wins (04 R130).
[log 156: DEDUCED] -/
def State.starve (s : State) (p : Nat) : State :=
  let x := vget s.str p
  match x.dune with
  | some d =>
    if x.st == .decode && x.fetched.length < 32 + d.clen && s.due x.lastByte (2048 * qTick) && !s.byteComes p then
      (s.strErr p 0x040C d.first).strAbandon p
    else s
  | none => s

/-! ## Fetching (04 R99, R100; 11 R352, R353, R355) -/

/-- Bytes of the Dune in decode that the engine has taken from the input buffer: in even measure over the decode.
[log 27: DESIGN CHOICE] -/
def State.strEaten (s : State) (p : Nat) : Nat :=
  let x := vget s.str p
  match x.dune with
  | some d =>
    let begun := (vget s.eng x.eng).doneAt - qTick * d.ticks
    min x.fetched.length (d.len * min d.ticks ((s.now - begun) / qTick) / d.ticks)
  | none => 0

/-- How many bytes the stream wants of what it reads, and where they start: as many as its buffer has room for (04 R99).
[log 27: DESIGN CHOICE] -/
def State.strWant (s : State) (p : Nat) : Option (Nat × Nat) :=
  let x := vget s.str p
  if !(x.st == .fetch || x.st == .waitRing || x.st == .waitEng || x.st == .decode) then none
  else
    let duneLen := match x.dune with
      | none => 32
      | some d => if x.st == .decode then min d.len (s.strEaten p + 16384)
        else if (vget s.ring p).admits d.first d.lines then min 16384 d.len else 32
    match x.step with
    | .none => none
    | .descriptor va => some (va, 64)
    | .next => some (x.tail + 28, 8)
    | .indexBlock va => some (va, 4096)
    | .extent pos left => if left < 32 then none else some (pos, duneLen)
    | .indexEntry va _ => some (va, duneLen)

/-- The stream stalls on a translation fault (04 R100; 11 R352), after a Dune that becomes VALID in this tick (04 R130). -/
def State.strStall (s : State) (p n va : Nat) (c : WalkErr) : State :=
  let s := s.decodeDone p
  let x := vget s.str p
  let inDune := match x.step with | .extent _ _ => true | .indexEntry _ _ => true | _ => false
  let line := if inDune && 8 ≤ x.fetched.length then leAt x.fetched 4 4 else s.strLine p
  let s := s.walkFault n va 0 p c
  let s := if x.st == .decode then s.strAbandon p else s.strGo p x.step .fetch
  let s := s.modStr p (fun x => { x with st := .stalled })
  let s := s.postUnit p (s.lineRec p 0x0409 line)
  match (List.range 16).find? (fun q => s.inSegment q p) with
  | some q => s.setEv q 0x1000000
  | none => s

/-- Reads of host memory in flight of function f (11 R329). -/
def State.hostReads (s : State) (f : Nat) : Nat :=
  (List.range 64).foldl (fun a p => a + ((vget s.str p).reads.filter (fun r => !r.dram && r.fn == f)).length) 0

/-- Reads issued one after another: up to 512 bytes each, within a page, at most 32 in flight (11 R355) and 512 of host memory
per function (11 R329). A page that the cache does not hold is walked first, by one of 16 walks (11 R350).
[log 27: DESIGN CHOICE] -/
def State.issue (s : State) (p n base want : Nat) : Nat → State
  | 0 => s
  | k + 1 =>
    let x := vget s.str p
    if want ≤ x.issued || 32 ≤ x.reads.length then s
    else
      let va := (base + x.issued) % 2 ^ 48
      let len := min (min 512 (want - x.issued)) (65536 - va % 65536)
      match s.tlbHit n va false with
      | some e =>
        if !e.dram && 512 ≤ s.hostReads (s.ses n).fn then s
        else
        let s := (s.modXlt (fun x => { x with hits := satAdd 32 x.hits 1 })).tlbUse e
        let rd : DmaRead := { va := va, len := len, dram := e.dram, addr := e.ppage * 65536 + va % 65536, fn := (s.ses n).fn }
        (s.modStr p (fun x => { x with issued := x.issued + len, reads := x.reads ++ [rd] })).issue p n base want k
      | none =>
        if s.xlt.walks.any (fun w => w.asker == .stream p) then s
        else if 16 ≤ s.xlt.walks.length then s.modXlt (fun x => { x with walkWait := x.walkWait ||| 2 ^ p })
        else s.modXlt (fun x => { x with
          misses := satAdd 32 x.misses 1, walks := x.walks ++ [{ session := n, va := va, asker := .stream p }] })

/-- STREAM_FETCH (04 R99). -/
def State.strFetch (s : State) (p : Nat) : State :=
  let s := s.strSettle p
  match s.holder p, s.strWant p with
  | some n, some (base, want) => s.issue p n base want 64
  | _, _ => s

/-- A walk that has ended makes room for the next stream that waits for one, in rotation (11 R350). -/
def State.walkGrant (s : State) : State :=
  match rotPick 64 s.xlt.walkLast s.xlt.walkWait.testBit with
  | none => s
  | some p => (s.modXlt (fun x => { x with walkWait := x.walkWait ^^^ 2 ^ p, walkLast := p })).strFetch p

/-- A failed read of function f's host memory is reported there (11 R333). -/
def State.aer (s : State) (f : Nat) (r : DmaEnd) : State := if r == .ok then s else s.emit (.aer f r)

/-- TABLE_WALK_DONE (11 R350, R352): the oldest walk fills the cache, or its stream stalls.
[log 30: DESIGN CHOICE] -/
def State.walkDone (s : State) (host : DmaEnd) : State :=
  match s.xlt.walks with
  | [] => s
  | w :: l =>
    let hostOk := host == .ok
    let s := (s.modXlt (fun x => { x with walks := l })).walkGrant
    let s := s.when (!(s.ses w.session).net) (fun s => s.aer (s.ses w.session).fn host)
    match s.walk w.session w.va w.write hostOk with
    | .ok e => s.tlbUse e
    | .error c =>
      match w.asker with
      | .stream p => if (s.strWant p).isSome then s.strStall p w.session w.va c else s
      | _ => s.walkFault w.session w.va 3 0 c

/-- DMA_READ_COMPLETION (11 R333, R349): the oldest read delivers its bytes, or a HOSTERR fault stalls the stream.
[log 30: DESIGN CHOICE] -/
def State.readDone (s : State) (p : Nat) (e : DmaEnd) : State :=
  let x := vget s.str p
  match x.reads with
  | [] => s
  | r :: l =>
    let s := s.modStr p (fun x => { x with reads := l })
    let s := s.when (!r.dram) (fun s => s.aer r.fn e)
    let res := if e != .ok then (s, none)
      else if r.dram then s.dramRead r.addr r.len none
      else (s, some (memRead (vget s.hostMem r.fn) r.addr r.len))
    if r.dead then res.1
    else match res.2 with
    | some b => (res.1.modStr p (fun x => { x with fetched := x.fetched ++ b, lastByte := s.now })).strSettle p
    | none =>
      match s.holder p with
      | some n => res.1.strStall p n r.va (0x0206, none)
      | none => res.1

/-- FAULT_RESUME of stream p (04 R100; 11 R353). -/
def State.strResume (s : State) (p : Nat) : State :=
  s.modStr p (fun x => if x.st == .stalled then
    { x with st := if !x.en then .stopped else if x.chain = 1 then .fetch else .idle } else x)

/-! ## Control (04 R132, R135; 11 R360) -/

/-- LDP.STRCFG[p] (04 R132).
[log 158: DEDUCED] -/
def State.strCfg (s : State) (p : Nat) (en haltErr : Bool) : State :=
  let x := vget s.str p
  let s := s.modStr p (fun x => { x with en := en, haltErr := haltErr })
  if en then s.modStr p (fun x => if x.st == .stopped then { x with st := if x.chain = 1 then .fetch else .idle } else x)
  else if x.st == .decode || x.st == .stalled then s
  else (s.strGo p x.step .stopped).modStr p (fun x => { x with st := .stopped })

/-- The session that holds HPp writes STRCFG (04 R131). -/
def State.wrStrCfg (s : State) (n p : Nat) (v : Word) : State × Nat :=
  s.ifRight (s.holds n p) n p (fun s => (s.strCfg p (bit v 0) (bit v 1), 0))

/-- The ring of p flushed (04 R102, R135). -/
def State.ringFlushTo (s : State) (p base : Nat) : State :=
  let s := if (vget s.str p).st == .decode then s.strAbandon p else s
  let s := s.modRing p (fun r => { r with base := base, slots := [], readDone := none, bad := [] })
  s.modStr p (fun x => { x with lastLine := none, fresh := true })

/-- LDP.RINGCTL[p] (04 R135). -/
def State.wrRingCtl (s : State) (n p : Nat) (v : Word) : State × Nat :=
  s.ifRight (s.holds n p) n p (fun s =>
    if bit v 32 && s.portOpen p then s.refuse n 0x040D p
    else
      let s := s.when (bit v 32) (fun s => s.ringFlushTo p (bits v 31 0))
      (s.when (bit v 33) (fun s => s.modStr p (fun x => { x with
        late := 0, lateArr := 0, duneErr := 0, ringUe := 0, subLost := 0, skipped := 0, slow := 0 })), 0))

/-- The chain of stream p discarded at once (11 R360 CANCEL, 04 R101); a Dune that becomes VALID in this tick stays (11 R357). -/
def State.strCancel (s : State) (p : Nat) : State :=
  let s := s.decodeDone p
  let s := if (vget s.str p).st == .decode then s.strAbandon p else s
  (s.strGo p .none .idle).modStr p (fun x => { x with
    chain := 0, fetchAgain := false, consumed := false, desc := none, entry := none, block := [],
    st := if !x.en then .stopped else .idle })

/-- XLT.CVCTL[p] (11 R356, R360). -/
def State.wrCvCtl (s : State) (n p : Nat) (v : Word) : State × Nat :=
  s.ifRight (s.holds n p) n p (fun s =>
    let x := vget s.str p
    let va := bits v 47 6 * 64
    match bits v 49 48 with
    | 1 =>
      if x.chain ≠ 0 then (s, 0)
      else
        let s := s.modStr p (fun x => { x with chain := 1, startVa := va, consumed := false, fetchAgain := false })
        (s.strGo p (.descriptor va) .fetch, 0)
    | 2 =>
      if x.chain = 2 then
        let s := s.modStr p (fun x => { x with chain := 1 })
        (s.strGo p (if x.consumed then .next else .descriptor x.startVa) .fetch, 0)
      else if x.chain = 1 then (s.modStr p (fun x => { x with fetchAgain := true }), 0)
      else (s, 0)
    | 3 => (s.strCancel p, 0)
    | _ => (s, 0))

/-! ## Status words -/

/-- LDP.STRSTAT (04 R133).
[log 27: DESIGN CHOICE; log 28: DEDUCED] -/
def State.strStat (s : State) (p : Nat) : Word :=
  let x := vget s.str p
  let st := match x.st with
    | .idle => 0 | .fetch => 1 | .waitRing => 2 | .waitEng => 3 | .decode => 4 | .stalled => 5 | .stopped => 6
  fields [(0, 3, if !x.en && x.st == .idle then 6 else st), (8, 4, if x.st == .decode then x.eng else 0),
    (16, 15, if x.st == .decode then x.fetched.length - s.strEaten p else min 16384 x.fetched.length),
    (32, 32, match x.dune with | some d => d.first | none => 0)]

/-- LDP.RINGSTAT (04 R134). -/
def State.ringStat (s : State) (p : Nat) : Word :=
  let r := vget s.ring p
  fields [(0, 32, r.base), (32, 9, (r.slots.filter (fun x => x.2.st == .valid)).length),
    (41, 1, b1 (r.slots.any (fun x => x.2.st == .pending))), (42, 1, b1 (s.portOpen p))]

/-- XLT.CVSTAT (11 R360). -/
def State.cvStat (s : State) (p : Nat) : Word :=
  let x := vget s.str p
  fields [(0, 42, x.tail / 64), (42, 16, x.count), (58, 2, x.chain)]

/-! ## Meanings -/

/-- CARAVAN_DESCRIPTOR (11 R354). -/
def execCaravanDescriptor (e : Env) (p : Fin 64) (s : State) : Host.Outcome State Fault Refusal := .next ((s.arrive e).readDesc p)
/-- INDEX_BLOCK (04 R120). -/
def execIndexBlock (e : Env) (p : Fin 64) (s : State) : Host.Outcome State Fault Refusal := .next ((s.arrive e).readIndex p)
/-- STREAM_FETCH (04 R99). -/
def execStreamFetch (e : Env) (p : Fin 64) (s : State) : Host.Outcome State Fault Refusal := .next ((s.arrive e).strFetch p)
/-- DUNE_HEADER (04 R112). -/
def execDuneHeader (e : Env) (p : Fin 64) (s : State) : Host.Outcome State Fault Refusal := .next ((s.arrive e).readHeader p)
/-- ENGINE_GRANT (04 R122). -/
def execEngineGrant (e : Env) (g : Fin 16) (s : State) : Host.Outcome State Fault Refusal := .next ((s.arrive e).grant g)
/-- DUNE_DECODE_DONE (04 R103). -/
def execDuneDecodeDone (e : Env) (p : Fin 64) (s : State) : Host.Outcome State Fault Refusal := .next ((s.arrive e).decodeDone p)
/-- ENGINE_ABANDON (04 R124). -/
def execEngineAbandon (e : Env) (p : Fin 64) (ecc : Bool) (s : State) : Host.Outcome State Fault Refusal :=
  let s := s.arrive e
  .next (if ecc then s.engineEcc p else s.starve p)
/-- STREAM_EN (04 R132). -/
def execStreamEn (e : Env) (w : Writer) (p : Fin 64) (en haltErr : Bool) (s : State) : Host.Outcome State Fault Refusal :=
  .next ((s.arrive e).asWriter w false (fun s n => s.wrStrCfg n p (fields [(0, 1, b1 en), (1, 1, b1 haltErr)])))
/-- RING_FLUSH (04 R135). -/
def execRingFlush (e : Env) (w : Writer) (p : Fin 64) (newBase : BitVec 32) (clr : Bool) (s : State) :
    Host.Outcome State Fault Refusal :=
  .next ((s.arrive e).asWriter w true (fun s n =>
    s.wrRingCtl n p (fields [(0, 32, newBase.toNat), (32, 1, 1), (33, 1, b1 clr)])))
/-- LDP_CLRCNT (04 R135). -/
def execLdpClrcnt (e : Env) (w : Writer) (p : Fin 64) (s : State) : Host.Outcome State Fault Refusal :=
  .next ((s.arrive e).asWriter w true (fun s n => s.wrRingCtl n p (fields [(33, 1, 1)])))
/-- TABLE_WALK_DONE (11 R350). -/
def execTableWalkDone (e : Env) (host : DmaEnd) (s : State) : Host.Outcome State Fault Refusal :=
  .next ((s.arrive e).walkDone host)
/-- CARAVAN_START (11 R360). -/
def execCaravanStart (e : Env) (w : Writer) (p : Fin 64) (va : BitVec 42) (s : State) : Host.Outcome State Fault Refusal :=
  .next ((s.arrive e).asWriter w false (fun s n => s.wrCvCtl n p (fields [(6, 42, va.toNat), (48, 2, 1)])))
/-- CARAVAN_KICK (11 R356). -/
def execCaravanKick (e : Env) (w : Writer) (p : Fin 64) (s : State) : Host.Outcome State Fault Refusal :=
  .next ((s.arrive e).asWriter w false (fun s n => s.wrCvCtl n p (fields [(48, 2, 2)])))
/-- CARAVAN_CANCEL (11 R360). -/
def execCaravanCancel (e : Env) (w : Writer) (p : Fin 64) (s : State) : Host.Outcome State Fault Refusal :=
  .next ((s.arrive e).asWriter w false (fun s n => s.wrCvCtl n p (fields [(48, 2, 3)])))

end Sys2Proof.Machine
end

