-- ==== Sys2Proof/Machine/Image.lean ====
section
/-! DEFINITION. The image pipelines (08 R268-R274): correction stages, and the display, coding and vision records of a frame. -/
namespace Sys2Proof.Machine
open Sys2Proof

/-! ## The configuration a frame latched (08 R269, R280, R281, R284) -/

/-- The table entry of n bytes at byte address a, as latched. -/
def Frame.ft (f : Frame) (a n : Nat) : Nat :=
  bitsN (SMap.get f.tab 0 (wordAddr a)).toNat (8 * (a % 8) + 8 * n - 1) (8 * (a % 8))

def Frame.W (f : Frame) : Nat := bits f.port 30 16
def Frame.H (f : Frame) : Nat := bits f.port 47 32
def Frame.dw (f : Frame) : Nat := 8 + bits f.port 9 6
def Frame.cfa (f : Frame) : Nat := bits f.port 12 10
def Frame.nbins (f : Frame) : Nat := bits f.outCfg 31 16
def Frame.nbands (f : Frame) : Nat := bits f.outCfg 15 12 + 1
def Frame.scale (f : Frame) : Nat := 2 ^ bits f.outCfg 2 1

/-- BLACK, gains, cross-talk and matrix of camera c. -/
def corrAddr (c : Nat) : Nat := 0x06200000 + 256 * c
def Frame.black (f : Frame) (c φ : Nat) : Nat := f.ft (corrAddr c + 2 * φ) 2
def Frame.gain (f : Frame) (c k : Nat) : Int := signedN 16 (f.ft (corrAddr c + 8 + 2 * k) 2)
def Frame.xt (f : Frame) (c φ i : Nat) : Int := signedN 12 (f.ft (corrAddr c + 16 + 2 * (9 * φ + i)) 2)
def Frame.ccm (f : Frame) (c r k : Nat) : Int := signedN 16 (f.ft (corrAddr c + 0x60 + 2 * (3 * r + k)) 2)
def Frame.flat (f : Frame) (c x : Nat) : Int := signedN 16 (f.ft (0x06500000 + 32768 * c + 2 * x) 2)
def Frame.gammaD (f : Frame) (c i : Nat) : Int := signedN 16 (f.ft (0x06300000 + 2048 * c + 2 * i) 2)
def Frame.binOf (f : Frame) (c x : Nat) : Nat := f.ft (0x06600000 + 32768 * c + 2 * x) 2

/-- The defect list of camera c: up to the first entry with V = 0. -/
def Frame.defects (f : Frame) (c : Nat) : List (Nat × Nat) :=
  (((List.range 8192).map (fun e => f.ft (0x06400000 + 32768 * c + 4 * e) 4)).takeWhile (fun e => e.testBit 15)).map
    (fun e => (bitsN e 13 0, bitsN e 31 16))

/-! ## Pixels and phases (08 R251, R268) -/

/-- Clamp to 16 bits. -/
def clamp16 (v : Int) : Nat := (max 0 (min 65535 v)).toNat

/-- The pins show LVAL active, or a pixel, under a port configuration (08 R251, R280). -/
def pinsInLine (p : CamPins) (port : Word) : Bool := p.lval != bit port 3
def pinsInFrame (p : CamPins) (port : Word) : Bool := p.fval != bit port 2
def pinPixels (p : CamPins) (port : Word) : List Nat :=
  if pinsInFrame p port && pinsInLine p port && (!bit port 4 || p.dval) then
    let d := p.data.toNat
    if bit port 5 then [d % 256, d / 256] else [d % 2 ^ (8 + bits port 9 6)]
  else []

/-- What the port samples in a cycle of PCLK. -/
def sampledPins (k : CamCycle) (port : Word) : CamPins := if bit port 1 then k.fall else k.rise

/-- The pixels of some cycles, and whether LVAL is active in one, or is so while FVAL is inactive (08 R253). -/
def linePixels (port : Word) (l : List CamCycle) : List Nat := l.flatMap (fun k => pinPixels (sampledPins k port) port)
def lineSeen (port : Word) (l : List CamCycle) : Bool := l.any (fun k => pinsInLine (sampledPins k port) port)
def lineStray (port : Word) (l : List CamCycle) : Bool :=
  l.any (fun k => pinsInLine (sampledPins k port) port && !pinsInFrame (sampledPins k port) port)

/-- The sample at x, y as taken, and left-aligned to 16 bits. -/
def Frame.sample (f : Frame) (x y : Nat) : Nat := (f.done.getD y []).getD x 0
def Frame.raw (f : Frame) (x y : Nat) : Nat := f.sample x y * 2 ^ (16 - f.dw)

/-- The phase of a pixel. -/
def phase (x y : Nat) : Nat := 2 * (y % 2) + x % 2

/-- The mirror image of a coordinate outside 0 to n − 1. -/
def mirror (n : Nat) (i : Int) : Nat := if i < 0 then (-i).toNat else if (n : Int) ≤ i then (2 * n - 2 - i).toNat else i.toNat

/-- The colour at phase φ under a CFA code: 0 R, 1 G, 2 B. -/
def cfaColour (cfa φ : Nat) : Nat :=
  (match cfa with
  | 1 => [0, 1, 1, 2]
  | 2 => [1, 0, 2, 1]
  | 3 => [1, 2, 0, 1]
  | _ => [2, 1, 1, 0]).getD φ 0

/-- MONO: code 0, and the codes that are not used. -/
def Frame.mono (f : Frame) : Bool := !(1 ≤ f.cfa && f.cfa ≤ 4)

/-! ## Stages 1 to 5 -/

def Frame.s1 (f : Frame) (c x y : Nat) : Nat := f.raw x y - f.black c (phase x y)

/-- The stage value of a neighbour, mirrored at the edges. A frame of one line has no mirror image above or below.
[log 62: DESIGN CHOICE] -/
def Frame.near (f : Frame) (v : Nat → Nat → Nat) (x y : Int) : Nat :=
  let y' := mirror f.H y
  if f.H ≤ y' then (Config.edgePixel (mirror f.W x)).toNat else v (mirror f.W x) y'

/-- The nine offsets, by 3(dy + 1) + (dx + 1). -/
def offsets : List (Int × Int) := (List.range 9).map (fun i => (((i % 3 : Nat) : Int) - 1, ((i / 3 : Nat) : Int) - 1))

def Frame.s2 (f : Frame) (c x y : Nat) : Nat :=
  let sum : Int := offsets.zipIdx.foldl (fun (a : Int) o =>
    a + f.xt c (phase x y) o.2 * (f.near (f.s1 c) (x + o.1.1) (y + o.1.2) : Int)) 0
  clamp16 (f.s1 c x y + (sum + 512) / 1024)

/-- v × (16,384 + g) / 16,384, rounded half up. -/
def gained (v : Nat) (g : Int) : Nat := clamp16 ((2 * (v : Int) * (16384 + g) + 16384) / 32768)

def Frame.s3 (f : Frame) (c x y : Nat) : Nat :=
  let v := f.s2 c x y
  let φ := phase x y
  if f.mono || cfaColour f.cfa φ ≠ 1 then v
  else
    let red := cfaColour f.cfa (2 * (y % 2)) == 0 || cfaColour f.cfa (2 * (y % 2) + 1) == 0
    gained v (f.gain c (if red then 0 else 1))

def Frame.s4 (f : Frame) (c : Nat) (defects : List (Nat × Nat)) (x y : Nat) : Nat :=
  if !defects.contains (x, y) then f.s3 c x y
  else if x < 2 then f.s3 c (x + 2) y
  else if f.W ≤ x + 2 then f.s3 c (x - 2) y
  else (f.s3 c (x - 2) y + f.s3 c (x + 2) y + 1) / 2

def Frame.s5 (f : Frame) (c : Nat) (defects : List (Nat × Nat)) (x y : Nat) : Nat := gained (f.s4 c defects x y) (f.flat c x)

/-! ## Stages 6 to 8 -/

/-- Stage 6: the three channels of a pixel. -/
def Frame.s6 (f : Frame) (v : Nat → Nat → Nat) (x y : Nat) : List Nat :=
  if f.mono then [v x y, v x y, v x y]
  else
    (List.range 3).map (fun k =>
      if cfaColour f.cfa (phase x y) = k then v x y
      else
        let l := offsets.filterMap (fun o =>
          let x' := mirror f.W ((x : Int) + o.1)
          let y' := mirror f.H ((y : Int) + o.2)
          if cfaColour f.cfa (phase x' y') = k then some (v x' y') else none)
        roundDiv (l.foldl (· + ·) 0) l.length)

/-- Stage 7. -/
def Frame.s7 (f : Frame) (c : Nat) (p : List Nat) : List Nat :=
  if f.mono then p
  else (List.range 3).map (fun r =>
    let sum : Int := (List.range 3).foldl (fun (a : Int) k => a + f.ccm c r k * (p.getD k 0 : Int)) 0
    clamp16 ((p.getD r 0 : Int) + (sum + 2048) / 4096))

/-- Stage 8. -/
def Frame.s8 (f : Frame) (c v : Nat) : Nat := (max 0 (min 255 (((v / 64 / 4 : Nat) : Int) + f.gammaD c (v / 64)))).toNat

/-- The vision channel of a stage-7 pixel (08 R274). -/
def Frame.vision (f : Frame) (p : List Nat) : Nat :=
  match bits f.outCfg 10 9 with
  | 0 => (77 * p.getD 0 0 + 150 * p.getD 1 0 + 29 * p.getD 2 0 + 128) / 256
  | k => p.getD (k - 1) 0

/-- The stages of a whole frame: stage 5, stage 7 and the vision channel, as lines. -/
structure Planes where
  p1 : List (List Nat) := []
  p5 : List (List Nat) := []
  p7 : List (List (List Nat)) := []
  vis : List (List Nat) := []
deriving DecidableEq, Repr, Inhabited

/-- A plane of lines computed from a function of x and y. -/
def Frame.plane {α : Type} (f : Frame) (v : Nat → Nat → α) : List (List α) :=
  (List.range f.H).map (fun y => (List.range f.W).map (fun x => v x y))

/-- The value of a plane. -/
def at2 (p : List (List Nat)) (x y : Nat) : Nat := (p.getD y []).getD x 0

/-- The planes that the pipeline makes of a frame of camera c once it is complete (08 R268-R272): corrected, filtered and mapped.
[log 60: DEDUCED] -/
def Frame.planes (f : Frame) (c : Nat) : Planes :=
  let d := f.defects c
  let p5 := f.plane (f.s5 c d)
  let p7 := f.plane (fun x y => f.s7 c (f.s6 (at2 p5) x y))
  { p1 := f.plane (f.s1 c), p5 := p5, p7 := p7, vis := p7.map (fun l => l.map f.vision) }

/-! ## Output records (08 R271-R274) -/

/-- A record's 32-byte header. -/
def Frame.header (f : Frame) (c magic w h fmt len nbins : Nat) : List Byte :=
  let b := toLE 4 magic ++ toLE 4 f.no ++ toLE 4 f.gen ++ toLE 2 w ++ toLE 2 h ++ toLE 1 c ++ toLE 1 fmt ++ toLE 1 f.cfa ++
    zeros 1 ++ toLE 4 len ++ toLE 2 nbins ++ zeros 2
  b ++ toLE 4 (crc32c b)

/-- Bytes padded with zeros to a multiple of 16. -/
def pad16 (l : List Byte) : List Byte := l ++ zeros ((16 - l.length % 16) % 16)

/-- The display record: box means of the gamma output, each line padded to 16 bytes. -/
def Frame.display (f : Frame) (c : Nat) (P : Planes) : List Byte :=
  let s := f.scale
  let w := (f.W + s - 1) / s
  let h := (f.H + s - 1) / s
  let ch := if f.mono then 1 else 3
  let px (X Y k : Nat) : Nat :=
    let l := (List.range s).flatMap (fun dy => (List.range s).filterMap (fun dx =>
      let x := X * s + dx
      let y := Y * s + dy
      if x < f.W && y < f.H then some (f.s8 c (((P.p7.getD y []).getD x []).getD k 0)) else none))
    roundDiv (l.foldl (· + ·) 0) l.length
  let body := (List.range h).flatMap (fun Y =>
    pad16 ((List.range w).flatMap (fun X => (List.range ch).map (fun k => BitVec.ofNat 8 (px X Y k)))))
  f.header c 0x50534944 w h (if f.mono then 0 else 1) (32 + body.length) 0 ++ body

/-- The samples of a line for the coding output (08 R273). -/
def Frame.codeLine (f : Frame) (P : Planes) (y : Nat) : List Nat :=
  let v := (List.range f.W).map (fun x => if bit f.outCfg 5 then at2 P.p5 x y else f.raw x y)
  if bit f.outCfg 6 then v.zipIdx.map (fun a => if a.2 < 2 then a.1 else (a.1 + 65536 - v.getD (a.2 - 2) 0) % 65536) else v

/-- Lines of a block. -/
def Frame.blockLines (f : Frame) : Nat := min 255 (65536 / (2 * max 1 f.W))

/-- A block of the coding output: a code stream of the engine's own parse where it decodes to the data and keeps the rate
rule (04 R113-R118), else STORED.
[log 63: DESIGN CHOICE] -/
def codeBlock (c first n : Nat) (data : List Byte) : List Byte :=
  let z := Config.codeStream data
  let ok := z.2 ≤ 5 * data.length / 12 && 0 < z.1.length && z.1.length ≤ 65536 &&
    lzwRun (leNat z.1) z.1.length data.length z.2 {} == some data
  let payload := if ok then z.1 else data
  let b := toLE 4 0x4B4C4243 ++ toLE 4 first ++ toLE 1 n ++ toLE 1 (if ok then 0 else 4) ++ toLE 1 c ++ toLE 1 1 ++
    toLE 4 payload.length ++ toLE 4 (if ok then z.2 else 0) ++ toLE 4 (crc32c data) ++ zeros 4
  b ++ toLE 4 (crc32c b) ++ pad16 payload

/-- The first line and the number of lines of each block. -/
def Frame.blocks (f : Frame) : List (Nat × Nat) :=
  let r := f.blockLines
  (List.range ((f.H + r - 1) / r)).map (fun i => (i * r, min r (f.H - i * r)))

def Frame.coding (f : Frame) (c : Nat) (P : Planes) : List Byte :=
  let body := f.blocks.flatMap (fun b =>
    codeBlock c b.1 b.2 ((List.range b.2).flatMap (fun i => (f.codeLine P (b.1 + i)).flatMap (toLE 2))))
  f.header c 0x45444F43 f.W f.H (f.dw + 32 * b1 (bit f.outCfg 6) + 64 * b1 (bit f.outCfg 5)) (32 + body.length) 0 ++ body

/-- Sum and count of the vision channel over the columns of a bin in rows lo to hi − 1. -/
def Frame.binMean (_f : Frame) (P : Planes) (cols : List Nat) (lo hi : Nat) : Nat :=
  let sum := (List.range (hi - lo)).foldl (fun a i => cols.foldl (fun a x => a + at2 P.vis x (lo + i)) a) 0
  if cols.isEmpty then 0 else roundDiv sum (cols.length * (hi - lo))

/-- The columns of bin b. -/
def Frame.binCols (f : Frame) (c b : Nat) : List Nat := those f.W (fun x => f.binOf c x == b + 1)

/-- The band means of a bin. -/
def Frame.bandMeans (f : Frame) (P : Planes) (cols : List Nat) : List Nat :=
  (List.range f.nbands).map (fun b => f.binMean P cols (b * f.H / f.nbands) ((b + 1) * f.H / f.nbands))

/-- MEAN of every bin: the vision result that the health engine takes (08 R275). -/
def Frame.means (f : Frame) (c : Nat) (P : Planes) : SMap Nat :=
  ((List.range f.nbins).map (fun b => (b, f.binMean P (f.binCols c b) 0 f.H))).filter (fun x => x.2 != 0)

/-- How many pixels of a plane satisfy t. -/
def countPx (p : List (List Nat)) (t : Nat → Bool) : Nat := p.foldl (fun a l => a + (l.filter t).length) 0

def Frame.visionRec (f : Frame) (c : Nat) (P : Planes) : List Byte :=
  let cols := (List.range f.nbins).map (f.binCols c)
  let bands := cols.map (f.bandMeans P)
  let profile := (cols.zip bands).flatMap (fun b =>
    let hi := b.2.foldl max 0
    toLE 2 (f.binMean P b.1 0 f.H) ++ toLE 2 (hi - b.2.foldl min hi))
  let streak := (List.range f.nbands).flatMap (fun k => bands.flatMap (fun l => toLE 2 (l.getD k 0)))
  let hist := (List.range 256).flatMap (fun k => toLE 4 (countPx P.vis (fun v => v / 256 == k)))
  let sums := (List.range 4).flatMap (fun φ => toLE 8 ((P.p1.zipIdx).foldl (fun a l =>
    l.1.zipIdx.foldl (fun a v => if phase v.2 l.2 = φ then a + v.1 else a) a) 0))
  let satC := (List.range f.H).foldl (fun a y => a + countN f.W (fun x => f.sample x y == 2 ^ f.dw - 1)) 0
  let body := profile ++ streak ++ hist ++ sums ++ toLE 8 satC ++ toLE 8 (f.W * f.H) ++ zeros 16
  f.header c 0x4E534956 f.W f.H (bits f.outCfg 10 9 + 16 * bits f.outCfg 15 12) (32 + body.length) f.nbins ++ body

/-- Output k is enabled for the frame: display, coding, or vision with bins (08 R281). -/
def Frame.enabled (f : Frame) (k : Nat) : Bool :=
  match k with
  | 0 => bit f.outCfg 0
  | 1 => bit f.outCfg 4
  | _ => bit f.outCfg 8 && f.nbins != 0

/-- The worst-case length of record k (08 R270-R274). -/
def Frame.worst (f : Frame) (k : Nat) : Nat :=
  match k with
  | 0 =>
    let s := f.scale
    32 + (f.H + s - 1) / s * (((f.W + s - 1) / s * (if f.mono then 1 else 3) + 15) / 16 * 16)
  | 1 => f.blocks.foldl (fun a b => a + 32 + 2 * f.W * b.2 + 15) 32
  | _ => 32 + 4 * f.nbins + 2 * f.nbands * f.nbins + 1024 + 32 + 8 + 8 + 16

/-- Record k. -/
def Frame.record (f : Frame) (c : Nat) (P : Planes) (k : Nat) : List Byte :=
  match k with
  | 0 => f.display c P
  | 1 => f.coding c P
  | _ => f.visionRec c P

end Sys2Proof.Machine
end

