-- ==== Sys2Proof/Machine/Camera.lean ====
section
/-! DEFINITION. The camera ports (08): frames, triggers, settings, line slots, drops, outputs and result queues, and the alignment measurement (09 R299, R300). -/
namespace Sys2Proof.Machine
open Sys2Proof

/-! ## Configuration in force (08 R280, R281) -/

def camPortAddr (c : Nat) : Nat := 0x03600100 + 8 * c
def State.camEN (s : State) (c : Nat) : Bool := bit (s.reg (camPortAddr c)) 0
def State.camSEQ (s : State) (c : Nat) : Nat := s.rf (camPortAddr c) 51 48
def ringAddr (c k : Nat) : Nat := 0x03600300 + 32 * c + 8 * k

/-- A BAR0 address lies in a pipeline table of camera c. -/
def camTable (c a : Nat) : Bool :=
  (0x06200000 + 256 * c ≤ a && a < 0x06200000 + 256 * (c + 1)) ||
  (0x06300000 + 2048 * c ≤ a && a < 0x06300000 + 2048 * (c + 1)) ||
  (0x06400000 + 32768 * c ≤ a && a < 0x06400000 + 32768 * (c + 1)) ||
  (0x06500000 + 32768 * c ≤ a && a < 0x06500000 + 32768 * (c + 1)) ||
  (0x06600000 + 32768 * c ≤ a && a < 0x06600000 + 32768 * (c + 1))

/-- The result queue in order (08 R276). -/
def Cam.pushRes (x : Cam) (r : EvRec) : Cam :=
  match x.rqLost with
  | none => if x.rq.length < 256 then { x with rq := x.rq ++ [r] } else
      { x with rqLost := some { type := 1, error := 0x0909, source := r.source % 4, time := r.time, line := r.line,
                                swath := r.swath, detail := fields [(0, 32, bits r.detail 31 0), (32, 32, 1)] } }
  | some g =>
    if x.rq.length + 2 ≤ 256 then { x with rq := x.rq ++ [g, r], rqLost := none }
    else { x with rqLost := some { g with detail := fields [(0, 32, bits g.detail 31 0), (32, 32, bits g.detail 63 32 + 1)] } }

/-- The GAP record of a dropped frame. -/
def Frame.gapRecord (f : Frame) (c cause : Nat) : EvRec :=
  { type := 1, error := cause, source := c, time := f.time, line := f.ln, swath := f.sw,
    detail := fields [(0, 32, f.no), (32, 32, 1)] }

/-- The code of a trigger source, and its sequencer (08 R276). -/
def TrigSrc.code : TrigSrc → Nat
  | .program _ _ => 1
  | .position => 2
  | .host => 3
def srcSeq : TrigSrc → Nat
  | .program q _ => q
  | _ => 0

/-- Records of dropped frames enter the result queue as soon as every earlier frame has its own. -/
def Cam.flush (c : Nat) : Nat → Cam → Cam
  | 0, x => x
  | n + 1, x =>
    match x.frames with
    | f :: l => (match f.gap with
      | some g => Cam.flush c n { x.pushRes (f.gapRecord c g) with frames := l }
      | none => x)
    | [] => x
def State.camFlush (s : State) (c : Nat) : State := s.modCam c (fun x => Cam.flush c x.frames.length x)

/-! ## Frames in flight -/

/-- The frame that the port receives. -/
def Cam.receiving (x : Cam) : Option Frame :=
  match x.frames.getLast? with
  | some f => if f.ended || f.gap.isSome then none else some f
  | none => none

/-- Frame number `no` of camera c changed. -/
def State.modFrame (s : State) (c no : Nat) (g : Frame → Frame) : State :=
  s.modCam c (fun x => { x with frames := x.frames.map (fun f => if f.no = no && f.gap.isNone then g f else f) })

/-- From LCLK to PCLK: 2 PCLK cycles of at least 4 ns.
[log 162: DEDUCED] -/
def pclkIn : Nat := 40
/-- From a pipeline to LCLK: 6 ticks.
[log 162: DEDUCED] -/
def pipeOut : Nat := 6 * qTick
/-- From PCLK to LCLK by way of the pipeline clock: 4 pipeline clocks and 6 ticks.
[log 162: DEDUCED] -/
def pclkOut : Nat := 67 + 6 * qTick

/-- The pipeline clock, 300 MHz, in which instant t lies. -/
def pipeClk (t : Nat) : Nat := t * 3 / 50

/-- Request r of camera c has ended, with a completed frame or without one, d quanta away from LCLK (08 R257). -/
def State.endRequest (s : State) (c : Nat) (done : Bool) (d : Nat) (r : TrigReq) : State :=
  (s.modCam c (fun x => { x with leaving := x.leaving ++ [r] })).after (s.now + d) (.reqEnd c r done)

/-- A frame dropped whole with a cause: nothing of it becomes visible, and its request ends (08 R253, R254, R267). -/
def State.dropFrame (s : State) (c : Nat) (f : Frame) (cause : Nat) : State :=
  let s := s.modCam c (fun x =>
    if !f.ended && x.answered then { x with pulse := none, answered := false } else x)
  let s := (s.modFrame c f.no (fun f => { f with gap := some cause, buf := [], done := [], tab := [], req := none })).camFlush c
  s.each f.req.toList (fun s r => s.endRequest c false pipeOut r)

/-- The newest frame in flight on pipeline u: of two starts in one pipeline clock, that of the higher camera (08 R267). -/
def State.newest (s : State) (u : Nat) : Option (Nat × Frame) :=
  let l := [2 * u, 2 * u + 1].flatMap (fun c => ((vget s.cam c).frames.filter (·.gap.isNone)).map (fun f => (c, f)))
  l.foldl (fun b x => match b with
    | some y => if pipeClk y.2.startAt ≤ pipeClk x.2.startAt then some x else some y
    | none => some x) none

/-! ## Triggers (08 R255-R259) -/

/-- The place of a source is occupied: a request of it waits, is pulsed, is answered by a frame in flight, or its end is
not yet known in LCLK.
[log 65: DEDUCED] -/
def Cam.occupied (x : Cam) (src : TrigSrc) : Bool :=
  let same : TrigSrc → Bool := fun t => match t, src with
    | .program q _, .program q' _ => q == q'
    | .position, .position => true
    | .host, .host => true
    | _, _ => false
  x.queue.any (fun r => same r.src) || x.pulse.any (fun r => same r.src) || x.leaving.any (fun r => same r.src) ||
    x.frames.any (fun f => f.req.any (fun r => same r.src))

/-- Why a request is refused: 1 triggers stopped, 3 place occupied, else 0.
[log 65: DEDUCED] -/
def State.trigRefusal (s : State) (c : Nat) (src : TrigSrc) : Nat :=
  if s.trigStopped c then 1 else if (vget s.cam c).occupied src then 3 else 0

/-- A request accepted, stamped for sequencer q. -/
def State.trigAccept (s : State) (c : Nat) (src : TrigSrc) (q : Nat) (pos : Int := 0) : State :=
  let r : TrigReq := { src := src, at_ := s.now, sw := (vget s.seq q).sw, ln := (vget s.seq q).ln, pos := pos }
  s.modCam c (fun x => { x with queue := x.queue ++ [r] })

/-- TRIG_PULSE (08 R255): 10 ticks after acceptance, once the pulse before has been answered and that frame has ended; TRIG
stays active for TRIGW × 100 ns. -/
def State.trigPulse (s : State) (c : Nat) : State :=
  let x := vget s.cam c
  match x.queue, x.pulse with
  | r :: l, none =>
    if s.due r.at_ (10 * qTick) && x.st != .off && !s.trigStopped c then
      (s.modCam c (fun x => { x with
        queue := l, pulse := some r, answered := false, pulseAt := s.now,
        trigEnd := s.now + 500 * s.rf (camTrigAddr c) 15 8 })).emit (.trig c (!bit (s.reg (camTrigAddr c)) 0))
    else s
  | _, _ => s

/-- A frame start of camera c comes in this very instant.
[log 6: DESIGN CHOICE] -/
def State.startsNow (s : State) (c : Nat) : Bool :=
  let x := vget s.cam c
  !x.fval && (x.st == .waitSync || x.st == .run) && s.atOnce.any (fun i => match i with
    | .frameStart _ k => k.val == c
    | _ => false)

/-- TRIG_TIMEOUT (08 R256): TRIGTO × 1,000 PCLK cycles, of at least 4 ns, after the pulse; a frame start in the expiring cycle
answers the pulse (08 R277).
[log 59: DESIGN CHOICE] -/
def State.trigTimeout (s : State) (c : Nat) : State :=
  let x := vget s.cam c
  match x.pulse with
  | some r =>
    let to_ := s.rf (camTrigAddr c) 31 16
    if x.answered || to_ = 0 || !s.due x.pulseAt (to_ * 20000) || s.startsNow c then s
    else ((s.modCam c (fun x => { x with pulse := none, trigTo := satAdd 16 x.trigTo 1 })).camPost c r.src 0x0902).endRequest
      c false pclkOut r
  | none => s

/-- Skipped positions counted (08 R258).
[log 66: DEDUCED] -/
def State.ptSkipped (s : State) (c n : Nat) : State :=
  if n = 0 then s
  else s.modCam c (fun x => { x with ptSkip := { since := some (x.ptSkip.since.getD s.now), more := x.ptSkip.more + n } })

/-- POSITION_TRIGGER (08 R258): the channel's count in LCLK has reached or passed P_k.
[log 65: DEDUCED] -/
def State.positionTrigger (s : State) (c : Nat) : State :=
  let w := s.reg (camTrigAddr c)
  let int := bits w 63 40
  if !bit w 32 || int = 0 then s
  else
    let pos := (vget s.enc (bits w 34 33)).seen.count
    let start := signedN 48 (s.rf (0x03600140 + 8 * c) 47 0)
    let d := if bit w 35 then start - pos else pos - start
    let k := (vget s.cam c).ptK
    if d < (k * int : Nat) then s
    else
      let last := d.toNat / int
      let s := s.modCam c (fun x => { x with ptK := last + 1 })
      match s.trigRefusal c .position with
      | 0 => (s.trigAccept c .position (s.camSEQ c) pos).ptSkipped c (last - k)
      | 1 => (s.camPost c .position 0x0904 1).ptSkipped c (last - k)
      | _ => s.ptSkipped c (last - k + 1)

/-- PTRIG_SKIP_WINDOW: the positions skipped in a window, as one record.
[log 66: DEDUCED] -/
def State.ptSkipWindow (s : State) (c : Nat) : State :=
  let w := (vget s.cam c).ptSkip
  match w.since with
  | some t =>
    if s.due t qMs then
      (s.modCam c (fun x => { x with ptSkip := {} })).postUnit (uCam c) (s.ev 2 0x090C c (some (s.camSeq c)) (wd w.more) 0x400)
    else s
  | none => s

/-! ## Frame start, lines, frame end (08 R252-R254, R260, R263, R267, R269, R270) -/

/-- The generations after a frame start at t: those whose start number is reached apply, the latest of them last; a start
in the cycle of a write's completion does not count for it (08 R263, R277).
[log 68: DEDUCED] -/
def Cam.genStep (x : Cam) (t : Nat) : Cam :=
  let l := x.nextGens.map (fun g => if g.at_ = t then g else { g with left := g.left - 1 })
  match (l.filter (fun g => g.left = 0)).getLast? with
  | some g =>
    { x with gen := g.gen, setDoubt := g.doubt,
             nextGens := (l.filter (fun h => h.left != 0)).filter (fun h => g.gen < h.gen) }
  | none => { x with nextGens := l }

/-- The free space of ring k of camera c (08 R270). -/
def State.ringFree (s : State) (c k : Nat) : Nat :=
  let n := s.rf (ringAddr c k) 4 0
  if n = 0 then 0
  else
    let size := 2 ^ n
    let x := vget s.cam c
    size - (vget x.wr k + size - vget x.rd k % size) % size - 16

/-- The alignment unit takes the frame (09 R285): it answers a program request of the armed sequencer on the armed camera. -/
def State.alignFrame (s : State) (c : Nat) (req : Option TrigReq) (doubt : Bool) : Option Arm :=
  match s.hlt.al, req with
  | some a, some r => if !doubt && a.cam == c && (match r.src with | .program q _ => q == a.seq | _ => false) then some a else none
  | _, _ => none

/-- The run slot of a DARK or FLAT calibration that takes the frames of camera c (15 R444). -/
def State.calCam (s : State) (c : Nat) : Option Nat :=
  (List.range 4).find? (fun r => let u := vget s.cal.runs r; u.st == .running && (u.proc == 3 || u.proc == 4) && u.target == c)

/-- What a frame latches at its start (08 R269): port, outputs, rings and tables; outputs that are off, or whose ring has no
room, are skipped. -/
def State.latch (s : State) (c : Nat) (f : Frame) : Frame :=
  let f := { f with
    port := s.reg (camPortAddr c), outCfg := s.reg (0x03600180 + 8 * c),
    ring := (List.range 3).map (fun k => s.reg (ringAddr c k)),
    tab := s.mgt.live.filter (fun w => camTable c w.1),
    bad := (s.mgt.badTab.find? (fun (w : Nat × Bool) => !w.2 && camTable c w.1)).map Prod.fst }
  { f with skip := (List.range 3).filter (fun k => s.rf (ringAddr c k) 4 0 == 0 || (f.enabled k && s.ringFree c k < f.worst k)) }

/-- A commit that reaches the pipeline in the clock of a frame's start applies to that frame (08 R269, R277). -/
def State.relatch (s : State) (c : Nat) : State :=
  s.modCam c (fun x => { x with frames := x.frames.map (fun f =>
    if pipeClk f.startAt = pipeClk s.now && f.gap.isNone then s.latch c f else f) })

/-- A frame starts in an enabled port.
[log 61: DEDUCED; log 64: DEDUCED] -/
def State.frameBegin (s : State) (c : Nat) : State :=
  let s := s.modCam c (fun x => { x.genStep s.now with
    st := .run, fval := true, frameCnt := (x.frameCnt + 1) % 2 ^ 32, winFrom := x.winFrom ++ [s.now] })
  let x := vget s.cam c
  let req := if x.answered then none else x.pulse
  let q := s.camSEQ c
  let own : Bool := match req with | some r => r.src != .host | none => false
  let seq := match req with | some r => (match r.src with | .program k _ => k | _ => q) | none => q
  let f := s.latch c {
    no := x.frameCnt, startAt := s.now, time := s.stamp,
    sw := if own then (req.getD {}).sw else (vget s.seq q).sw,
    ln := if own then (req.getD {}).ln else (vget s.seq q).ln,
    gen := x.gen, doubt := x.setDoubt, req := req, seq := seq,
    align := s.alignFrame c req x.setDoubt, cal := (s.calCam c).isSome }
  let full := f.skip.filter (fun k => f.ring.getD k 0 &&& 0x1F != 0)
  let s := (s.modCam c (fun x => { x with
    answered := x.answered || x.pulse.isSome, frames := x.frames ++ [f],
    ringFull := satAdd 16 x.ringFull full.length })).after (s.now + pclkOut) (.frameIn c f.no)
  if full.isEmpty then s
  else
    let w := (vget s.cam c).wFull
    let open_ := match w.since with | some t => !s.due t qMs | none => false
    if open_ then s
    else (s.modCam c (fun x => { x with wFull := { since := some s.now } })).postUnit (uCam c)
      (s.ev 2 0x0908 c (some (s.camSeq c)) (wd full.length))

/-- FRAME_START (08 R252, R254): a frame, but in OFF and NOCLK, where only the level of FVAL is kept; ignored while FVAL
is active already.
[log 59: DESIGN CHOICE; log 67: DEDUCED] -/
def State.frameStart (s : State) (c : Nat) : State :=
  let x := vget s.cam c
  if x.fval then s
  else if x.st == .off || x.st == .noClk then s.modCam c (fun x => { x with fval := true })
  else s.frameBegin c

/-- A frame in progress of camera c is malformed (08 R253). -/
def State.malformed (s : State) (c : Nat) (f : Frame) : State :=
  ((s.modCam c (fun x => { x with format := satAdd 16 x.format 1 })).postUnit (uCam c)
    (s.ev 2 0x0905 c (some (s.camSeq c)) (wd f.no))).dropFrame c f 0x0905

/-- At the high mark of camera c the newest frame of its pipeline is dropped, one at most in a pipeline clock (08 R267). -/
def State.highMark (s : State) (c : Nat) : State :=
  let u := c / 2
  if ((vget s.cam c).frames.foldl (fun a f => a + f.buf.length) 0) < 7 || (vget s.pipe u).dropAt == some (pipeClk s.now) then s
  else match s.newest u with
    | some (d, g) =>
      let s := { s with pipe := vmod s.pipe u (fun p => { p with dropAt := some (pipeClk s.now) }) }
      ((s.modCam d (fun x => { x with dropped := satAdd 16 x.dropped 1 })).postUnit (uCam d)
        (s.ev 2 0x0901 d (some (s.camSeq d)) (wd g.no))).dropFrame d g 0x0901
    | none => s

/-- CAM_LINE (08 R251, R253, R267): the cycles of a line, each as the port samples it. A line of another length, or LVAL active
outside a frame, makes the frame malformed; at the high mark the newest frame of the pipeline is dropped.
[log 59: DESIGN CHOICE] -/
def State.camLine (s : State) (c : Nat) (l : List CamCycle) : State :=
  let x := vget s.cam c
  if x.st != .run || !lineSeen (x.receiving.elim (s.reg (camPortAddr c)) (·.port)) l then s
  else
    if !x.fval then
      match (x.frames.filter (·.gap.isNone)).getLast? with
      | some f => s.malformed c f
      | none => s
    else match x.receiving with
    | none => s
    | some f =>
      let px := linePixels f.port l
      if lineStray f.port l || px.length ≠ f.W then s.malformed c f
      else (s.highMark c).modFrame c f.no (fun f => { f with buf := f.buf ++ [px] })

/-- FRAME_END (08 R252, R253, R255): a frame of another height is malformed; the pulse that it answered is over.
[log 59: DESIGN CHOICE; log 67: DEDUCED] -/
def State.frameEnd (s : State) (c : Nat) : State :=
  let x := vget s.cam c
  if !x.fval then s
  else
    let s := s.modCam c (fun x => { x with fval := false })
    let s := match x.receiving with
      | none => s
      | some f =>
        if f.buf.length + f.done.length = f.H then s.modFrame c f.no (fun f => { f with ended := true })
        else ((s.modCam c (fun x => { x with format := satAdd 16 x.format 1 })).postUnit (uCam c)
          (s.ev 2 0x0905 c (some (s.camSeq c)) (wd f.no))).dropFrame c f 0x0905
    s.modCam c (fun x => if x.answered then { x with pulse := none, answered := false } else x)

/-- LINE_SLOT (08 R266): the oldest buffered line of the camera after the last winner. -/
def State.lineSlot (s : State) (u : Nat) : State :=
  let ready := fun i => (vget s.cam (2 * u + i)).frames.any (fun f => !f.buf.isEmpty)
  match rotPick 2 (vget s.pipe u).last ready with
  | none => s
  | some i =>
    let c := 2 * u + i
    let s := { s with pipe := vmod s.pipe u (fun p => { p with last := i }) }
    match (vget s.cam c).frames.find? (fun f => !f.buf.isEmpty) with
    | some f => s.modFrame c f.no (fun f => { f with buf := f.buf.tail, done := f.done ++ [f.buf.headD []] })
    | none => s

/-- CAM_NOCLK (08 R254, R257): the frame in progress and every outstanding trigger end. -/
def State.camNoclk (s : State) (c : Nat) : State :=
  let x := vget s.cam c
  if x.st == .off || x.st == .noClk then s
  else
    let s := match x.receiving with
      | some f => s.dropFrame c f 0x0906
      | none => s
    let ends := (vget s.cam c).queue ++ (if (vget s.cam c).answered then [] else (vget s.cam c).pulse.toList)
    let s := (s.modCam c (fun x => { x with
      st := .noClk, queue := [], pulse := none, answered := false, winFrom := [] })).postUnit (uCam c)
        (s.ev 2 0x0906 c (some (s.camSeq c)))
    s.each ends (fun s r => s.endRequest c false pipeOut r)

/-- CAM_CLOCK_RETURN (08 R254). -/
def State.clockReturn (s : State) (c : Nat) : State :=
  s.modCam c (fun x => if x.st == .noClk then { x with st := .waitSync } else x)

/-- A change of PORTCFG[EN] takes effect (08 R254): the frame in progress is dropped with DISABLED. -/
def State.camEnable (s : State) (c : Nat) (on : Bool) : State :=
  let x := vget s.cam c
  if on then s.modCam c (fun x => if x.st == .off then { x with st := .waitSync } else x)
  else
    let s := match x.receiving with
      | some f => s.dropFrame c f 0x0910
      | none => s
    (s.trigCut c).modCam c (fun x => { x with st := .off, winFrom := [] })

/-! ## The alignment measurement (09 R299, R300) -/

/-- A fraction: a numerator and a positive denominator. -/
abbrev Frac := Int × Nat

/-- The integer square root, of numbers below 2^64. -/
def isqrt (n : Nat) : Nat :=
  (List.range 32).reverse.foldl (fun r b => if (r + 2 ^ b) * (r + 2 ^ b) ≤ n then r + 2 ^ b else r) 0

/-- One mark's result: port, row trigger, and its offset where it is found. -/
structure MarkRes where
  i : Nat
  port : Nat
  row : Nat
  found : Option (Int × Int)
deriving DecidableEq, Repr

/-- The measurement of mark i with entry words w0 and w1; `dark` is POL = 1. -/
def markMeasure (f : Frame) (P : Planes) (bg minMass : Nat) (dark : Bool) (w0 w1 : Word) (i : Nat) : MarkRes :=
  let xe := bits w0 31 0
  let ye := bits w0 63 32
  let wx := 256 * bits w1 7 0
  let wy := 256 * bits w1 15 8
  let weight := fun x y => let v := at2 P.vis x y; if dark then bg - v else v - bg
  let ys := those f.H (fun y => ye ≤ 256 * y + wy && 256 * y ≤ ye + wy)
  let xs := those f.W (fun x => xe ≤ 256 * x + wx && 256 * x ≤ xe + wx)
  let sum := fun (g : Nat → Nat → Nat) => ys.foldl (fun a y => xs.foldl (fun a x => a + g x y * weight x y) a) 0
  let mass := sum (fun _ _ => 1)
  let xc : Int := roundDiv (256 * sum (fun x _ => x)) mass
  let yc : Int := roundDiv (256 * sum (fun _ y => y)) mass
  let inside := (xe : Int) - wx + 256 ≤ xc && xc ≤ (xe : Int) + wx - 256 && (ye : Int) - wy + 256 ≤ yc && yc ≤ (ye : Int) + wy - 256
  { i := i, port := bits w1 21 16, row := bits w1 26 24,
    found := if 0 < mass && minMass * 65536 ≤ mass && inside then some (xc - xe, yc - ye) else none }

/-- The mean of some offsets in 1/16 pixel, rounded half up. -/
def mean16 (l : List Int) : Int := let n : Int := l.length; (2 * l.foldl (· + ·) 0 + 16 * n) / (32 * n)

/-- The sum of squared deviations from the mean, as a fraction. -/
def sqDev (l : List Int) : Frac :=
  let n := l.length
  let t := l.foldl (· + ·) 0
  (n * l.foldl (fun a x => a + x * x) 0 - t * t, n)

def Frac.add (a b : Frac) : Frac := (a.1 * b.2 + b.1 * a.2, a.2 * b.2)

/-- RESID of a port's found marks: row trigger and offset of each. -/
def resid (l : List (Nat × Int × Int)) : Nat :=
  let rows := (those 8 (fun r => l.any (fun m => m.1 == r))).map (fun r => sqDev ((l.filter (fun m => m.1 == r)).map (fun m => m.2.2)))
  let v := rows.foldl Frac.add (sqDev (l.map (fun m => m.2.1)))
  (isqrt (v.1 / (64 * l.length * v.2 : Nat)).toNat + 1) / 2

/-- ALPORT of a port with found marks; `my0` stands for MY where no mark of row trigger 0 was found.
[log 75: DESIGN CHOICE] -/
def alPortWord (l : List (Nat × Int × Int)) (my0 : Nat) : Word :=
  let r0 := l.filter (fun m => m.1 == 0)
  fields [(0, 16, cutN 16 (mean16 (l.map (fun m => m.2.1)))),
    (16, 16, if r0.isEmpty then my0 else cutN 16 (mean16 (r0.map (fun m => m.2.2)))),
    (32, 16, sat 16 (resid l)), (48, 8, sat 8 l.length), (56, 1, 1)]

/-- The alignment frame of camera c is complete: it is measured as the arming that took it says, and that arming ends.
[log 75: DESIGN CHOICE] -/
def State.alignMeasure (s : State) (c : Nat) (f : Frame) (P : Planes) : State :=
  match f.align with
  | none => s
  | some a =>
    let m := s.rf (0x03800100 + 8 * a.seq) 2 1
    let dark := s.pol m 16 16 == 1
    let marks := (those (min 1024 a.a) (fun i => bit (s.reg (0x03D00008 + 16 * i)) 23)).map (fun i =>
      markMeasure f P a.bg a.th dark (s.reg (0x03D00000 + 16 * i)) (s.reg (0x03D00008 + 16 * i)) i)
    let found := marks.filterMap (fun r => r.found.map (fun d => (r, d)))
    let res : SMap Word := found.map (fun x =>
      (x.1.i, fields [(0, 24, cutN 24 x.2.1), (24, 24, cutN 24 x.2.2), (63, 1, 1)]))
    let d := s.draw
    let s := d.1
    let ports : SMap Word := (those 64 (fun p => found.any (fun x => x.1.port == p))).map (fun p =>
      (p, alPortWord ((found.filter (fun x => x.1.port == p)).map (fun x => (x.1.row, x.2))) (bits d.2 15 0)))
    let nf := found.length
    let nm := marks.length - nf
    (s.modHlt (fun h => { h with
      al := h.al.filter (fun b => b != a), alDone := true, nFound := nf, nMiss := nm, alRes := res, alPort := ports })).postUnit (uCam c)
      (s.ev 2 0x0A07 c (some a.seq) (fields [(0, 32, nf), (32, 32, nm)]))

/-! ## Completion (08 R257, R265, R270-R276) -/

/-- A DARK or FLAT calibration holds camera c: the health engine uses none of its frames (15 R444). -/
def State.camWithheld (s : State) (c : Nat) : Bool :=
  (List.range 4).any (fun r => let u := vget s.cal.runs r; u.st != .free && (u.proc == 3 || u.proc == 4) && u.target == c)

/-- Bytes written to ring k of camera c, as register word w lays it, from WR, wrapping; the code of a fault, or 0. -/
def State.ringWrite (s : State) (c k : Nat) (w : Word) (b : List Byte) : State × Nat :=
  match s.holder (uCam c) with
  | none => (s, 0x0907)
  | some n =>
    let size := 2 ^ bits w 4 0
    let base := bits w 47 16 * 65536
    let wr := vget (vget s.cam c).wr k % size
    let here := size - wr
    let r := s.vwrite n 1 c (base + wr) (b.take here)
    if r.2 ≠ 0 || b.length ≤ here then r else r.1.vwrite n 1 c base (b.drop here)

/-- Output k of a completed frame: whether its record is valid.
[log 60: DEDUCED] -/
def State.frameOutput (s : State) (c : Nat) (f : Frame) (P : Planes) (k : Nat) : State × Bool :=
  if !f.enabled k || f.skip.contains k then (s, false)
  else
    let b := pad16 (f.record c P k)
    let w := f.ring.getD k 0
    let r := s.ringWrite c k w b
    if r.2 ≠ 0 then (r.1.postUnit (uCam c) (r.1.ev 2 0x0907 c (some (s.camSeq c)) (wd k)), false)
    else
      (r.1.modCam c (fun x => { x with wr := vmod x.wr k (fun a => (a + b.length) % 2 ^ bits w 4 0) }), true)

/-- The FRAME record (08 R276). -/
def Frame.result (f : Frame) (c : Nat) (v0 v1 v2 : Bool) : EvRec :=
  let src := match f.req with | some r => 16 * srcSeq r.src + 256 * r.src.code | none => 0
  { type := 10, source := c + src, flags := b1 v0 + 2 * b1 v1 + 4 * b1 v2 + 8 * b1 f.doubt, time := f.time, line := f.ln,
    swath := f.sw, detail := fields [(0, 32, f.no), (32, 32, f.gen)] }

/-- A bad live word of the health tables that a frame of camera c uses (13 R405): the bins and references of its map set, and
under an alignment the marks. -/
def State.hltBad (s : State) (c : Nat) (f : Frame) : Option Nat :=
  let k := 65536 * s.rf (0x03800100 + 8 * f.seq) 2 1 + 16384 * c
  let used := fun a => (0x03900000 + 4 * k ≤ a && a < 0x03900000 + 4 * (k + 16384)) ||
    (0x03A00000 + 2 * k ≤ a && a < 0x03A00000 + 2 * (k + 16384)) ||
    (f.align.isSome && 0x03D00000 ≤ a && a < 0x03D04000)
  (s.mgt.badTab.find? (fun w => !w.2 && used w.1)).map (·.1)

/-- The frame's result for the health engine.
[log 64: DEDUCED] -/
def State.visionTo (s : State) (c : Nat) (f : Frame) (P : Planes) : State :=
  let prog := match f.req with | some r => r.src.code == 1 | none => false
  if let some a := f.bad.or (s.hltBad c f) then
    let w := Config.tableIndex a false
    let s := s.sramUeHit w (sramPart w)
    s.postUnit (unitAt a) (s.ev 2 0x0B09 c none (wd f.no))
  else if s.camWithheld c then s
  else
    let s := s.alignMeasure c f P
    s.modHlt (fun h => { h with visq := h.visq ++ [{
      cam := c, no := f.no, seq := f.seq, program := prog, doubt := f.doubt, align := f.align.isSome, nbins := f.nbins,
      means := f.means c P, at_ := s.now }] })

/-- A frame that a calibration took is complete: it goes to that calibration. -/
def State.calFrame (s : State) (c : Nat) (f : Frame) : State :=
  match s.calCam c with
  | some r => if f.cal && f.bad.isNone then
      { s with cal := { s.cal with runs := vmod s.cal.runs r (fun u => { u with frames := u.frames ++ [f] }) } }
    else s
  | none => s

/-- FRAME_COMPLETE: the oldest frame of camera c whose lines have all left the pipeline.
[log 60: DEDUCED] -/
def State.frameComplete (s : State) (c : Nat) : State :=
  match (vget s.cam c).frames with
  | [] => s
  | f :: _ =>
    if !f.ended || !f.buf.isEmpty || f.gap.isSome then s
    else
      let P := f.planes c
      let r0 := s.frameOutput c f P 0
      let r1 := r0.1.frameOutput c f P 1
      let r2 := r1.1.frameOutput c f P 2
      let s := r2.1.modCam c (fun x => { x.pushRes (f.result c r0.2 r1.2 r2.2) with
        frames := x.frames.tail, lastDone := f.no, doneGen := f.gen })
      let s := s.camFlush c
      let s := s.each f.req.toList (fun s r => s.endRequest c true pipeOut r)
      (s.calFrame c f).visionTo c f P

/-! ## Settings (08 R261-R264) -/

/-- A settings request accepted: its generation. -/
def State.setAccept (s : State) (c rec_ : Nat) (src : TrigSrc) : State :=
  s.modCam c (fun x =>
    let g := (x.lastGen + 1) % 2 ^ 32
    { x with lastGen := g, pend := some { record := rec_, gen := g, src := src, at_ := s.now } })

/-- The transactions of a settings record in force: each one's register address and value bytes. -/
def State.setRecord (s : State) (c r : Nat) : List (List Byte) :=
  let a := 0x03700000 + 64 * (256 * c + r)
  let n := min 15 (s.tab a 1 % 16)
  let cfg := s.tab (a + 1) 1
  let big := fun (two : Bool) v => if two then toBE 2 v else toBE 1 v
  (List.range n).map (fun i =>
    let e := s.tab (a + 4 * (i + 1)) 4
    big (cfg.testBit 0) (e % 65536) ++ big (cfg.testBit 1) (e / 65536))

/-- A bit time of the control bus of camera c (08 R281 SPEED). -/
def State.bitTime (s : State) (c : Nat) : Nat := [50000, 12500, 5000].getD (s.rf (0x03600160 + 8 * c) 9 8) 50000

/-- The bit times of a transaction of n bytes after the address byte, and of transactions one after another (08 R262).
[log 162: DEDUCED] -/
def busBits (n : Nat) : Nat := 9 * (n + 1) + 2
def recordBits (tx : List (List Byte)) : Nat := tx.foldl (fun a b => a + busBits b.length) (tx.length - 1)

/-- The bit times before a record's write can end: all of it, or up to the address byte of the failed entry.
[log 162: DEDUCED] -/
def writeBits (tx : List (List Byte)) (fail : Option Nat) : Nat :=
  match fail with
  | none => recordBits tx
  | some i =>
    let before := tx.take (max 1 i - 1)
    recordBits before + (if before.isEmpty then 0 else 1) + 10

/-- A record's write has ended, without failure or at an entry: when its bit times have passed.
[log 68: DEDUCED] -/
def State.setDone (s : State) (c : Nat) (fail : Option Nat) : State :=
  match (vget s.cam c).pend with
  | none => s
  | some q =>
    match q.writing with
    | none => s
    | some tx =>
      if !s.due q.begun (writeBits tx fail * s.bitTime c) then s
      else
      let L := s.rf (0x03600160 + 8 * c) 18 16 + 1
      let addr := s.rf (0x03600160 + 8 * c) 6 0
      let sent := match fail with | some i => tx.take (max 1 i) | none => tx
      let s := s.each sent (fun s b => s.emit (.i2c c addr false b.length b))
      match fail with
      | none => s.modCam c (fun x => { x with
          pend := none, setFail := false, setDoubt := false,
          nextGens := x.nextGens.map (fun g => { g with doubt := false }) ++ [{ left := L, gen := q.gen, at_ := s.now }] })
      | some i =>
        (s.modCam c (fun x => { x with
          pend := none, setFail := true, failIdx := i, nextGens := x.nextGens ++ [{ left := L, gen := q.gen, doubt := true, at_ := s.now }] })).camPost c q.src 0x0903
          (wd q.gen)

/-- The window of the oldest frame whose window is still to open can open (08 R262): WINDLY × 1,000 PCLK cycles, of at least
4 ns, after that frame's start.
[log 59: DESIGN CHOICE] -/
def State.windowDue (s : State) (c : Nat) : Bool :=
  (vget s.cam c).winFrom.head?.any (fun t => s.due t (s.rf (0x03600160 + 8 * c) 39 24 * 20000))

/-- SETTINGS_WINDOW (08 R262): the settings window of a frame opens, and the write of a record whose request has reached PCLK
begins; a record without entries is complete.
[log 59: DESIGN CHOICE] -/
def State.settingsWindow (s : State) (c : Nat) : State :=
  if !s.windowDue c then s
  else
    let s := s.modCam c (fun x => { x with winFrom := x.winFrom.tail })
    let x := vget s.cam c
    match x.pend with
    | none => s
    | some q =>
      if x.st != .run || q.writing.isSome || !s.due q.at_ pclkIn then s
      else
        let tx := s.setRecord c q.record
        let s := s.modCam c (fun x => { x with pend := some { q with writing := some tx, begun := s.now } })
        if tx.isEmpty then s.setDone c none else s

/-! ## Register writes (08 R279, R281-R283) -/

/-- CAM.CTL[c] written by session n.
[log 65: DEDUCED] -/
def State.wrCamCtl (s : State) (c n : Nat) (v : Word) : State × Nat :=
  s.ifRight (s.holds n (uCam c)) n c (fun s =>
    let s := s.when (bit v 2) (fun s => s.modCam c (fun x => { x with rq := x.rq.tail }))
    let s := s.when (bit v 3) (fun s => s.modCam c (fun x => { x with dropped := 0, format := 0, trigTo := 0, ringFull := 0 }))
    let r : State × Nat :=
      if !bit v 0 then (s, 0)
      else
        let d := s.trigRefusal c .host
        if d ≠ 0 then s.refuse n 0x0904 c (wd d) else (s.trigAccept c .host (s.camSEQ c), 0)
    if !bit v 1 then r
    else if (vget r.1.cam c).pend.isSome then r.1.refuse n 0x0904 c 2
    else (r.1.setAccept c (bits v 15 8) .host, r.2))

/-- CAM.I2CCMD[c] written by session n: one transaction begins (08 R283).
[log 163: DESIGN CHOICE] -/
def State.wrI2c (s : State) (c n : Nat) (v : Word) : State × Nat :=
  s.ifRight (s.holds n (uCam c)) n c (fun s =>
    if s.camEN c || (vget s.cam c).i2cBusy then s.refuse n 0x090A c
    else
      let b := min 6 (bits v 10 8)
      let data := if bit v 7 then [] else toLE b (bits v 63 16)
      ((s.modCam c (fun x => { x with
        i2cBusy := true, i2cDone := false, i2cNack := false, i2cTo := false, i2cAt := s.now, i2cRd := bit v 7, i2cN := b })).emit
        (.i2c c (bits v 6 0) (bit v 7) b data), 0))

/-- The time before a direct transaction can end so (08 R262, R283): all its bytes, its address byte, or 10 ms. -/
def State.i2cTime (s : State) (c : Nat) (r : I2cEnd) : Nat :=
  match r with
  | .ok _ => busBits (vget s.cam c).i2cN * s.bitTime c
  | .nack => 10 * s.bitTime c
  | .timeout => 10 * qMs

/-- I2C_DONE (08 R283): a read brings its NBYTES bytes.
[log 163: DESIGN CHOICE] -/
def State.i2cDone (s : State) (c : Nat) (r : I2cEnd) : State :=
  s.modCam c (fun x =>
    if !x.i2cBusy || !s.due x.i2cAt (s.i2cTime c r) then x
    else
      let x := { x with i2cBusy := false, i2cDone := true }
      match r with
      | .ok d => if x.i2cRd then { x with i2cData := d % 2 ^ (8 * x.i2cN) } else x
      | .nack => { x with i2cNack := true }
      | .timeout => { x with i2cTo := true })

/-- CAM.RINGPTR[c][k] written by session n: RD. -/
def State.wrRingPtr (s : State) (c k n : Nat) (v : Word) : State × Nat :=
  s.ifRight (s.holds n (uCam c)) n c (fun s => (s.modCam c (fun x => { x with rd := vset x.rd k (bits v 63 32) }), 0))

/-! ## Read words (08 R282, R283) -/

def camCode : CamSt → Nat
  | .off => 0 | .waitSync => 1 | .run => 2 | .noClk => 3
def State.camGstat (s : State) : Word :=
  fields [(0, 4, maskN 4 (fun c => (vget s.cam c).st == .run)), (4, 4, maskN 4 s.trigStopped)]
def State.camStat (s : State) (c : Nat) : Word :=
  let x := vget s.cam c
  fields [(0, 3, camCode x.st), (3, 1, b1 (s.trigStopped c)), (4, 1, b1 (x.st == .run && x.fval)), (32, 32, x.gen)]
def State.camFrame (s : State) (c : Nat) : Word :=
  let x := vget s.cam c
  fields [(0, 32, x.frameCnt), (32, 32, x.lastDone)]
def State.camLast (s : State) (c : Nat) : Word :=
  let x := vget s.cam c
  fields [(0, 32, x.doneGen), (32, 32, x.lastDone)]
def State.camCnt (s : State) (c : Nat) : Word :=
  let x := vget s.cam c
  fields [(0, 16, x.dropped), (16, 16, x.format), (32, 16, x.trigTo), (48, 16, x.ringFull)]
def State.camSetStat (s : State) (c : Nat) : Word :=
  let x := vget s.cam c
  fields [(0, 1, b1 x.pend.isSome), (1, 1, b1 x.setFail), (2, 1, b1 x.setDoubt), (8, 4, x.failIdx), (32, 32, x.lastGen)]
def State.i2cStat (s : State) (c : Nat) : Word :=
  let x := vget s.cam c
  fields [(0, 1, b1 x.i2cBusy), (1, 1, b1 x.i2cDone), (2, 1, b1 x.i2cNack), (3, 1, b1 x.i2cTo), (16, 48, x.i2cData)]
def State.camRingPtr (s : State) (c k : Nat) : Word :=
  let x := vget s.cam c
  fields [(0, 32, vget x.wr k), (32, 32, vget x.rd k)]

/-! ## Commands -/

def execFrameStart (e : Env) (c : Fin 4) (s : State) : Host.Outcome State Fault Refusal := .next ((s.arrive e).frameStart c)
def execCamLine (e : Env) (c : Fin 4) (cycles : List CamCycle) (s : State) : Host.Outcome State Fault Refusal :=
  .next ((s.arrive e).camLine c cycles)
def execFrameEnd (e : Env) (c : Fin 4) (s : State) : Host.Outcome State Fault Refusal := .next ((s.arrive e).frameEnd c)
def execLineSlot (e : Env) (u : Fin 2) (s : State) : Host.Outcome State Fault Refusal := .next ((s.arrive e).lineSlot u)
def execFrameComplete (e : Env) (c : Fin 4) (s : State) : Host.Outcome State Fault Refusal :=
  .next ((s.arrive e).frameComplete c)
def execCamNoclk (e : Env) (c : Fin 4) (s : State) : Host.Outcome State Fault Refusal := .next ((s.arrive e).camNoclk c)
def execCamClockReturn (e : Env) (c : Fin 4) (s : State) : Host.Outcome State Fault Refusal := .next ((s.arrive e).clockReturn c)
def execPositionTrigger (e : Env) (c : Fin 4) (s : State) : Host.Outcome State Fault Refusal :=
  .next ((s.arrive e).positionTrigger c)
def execTrigPulse (e : Env) (c : Fin 4) (s : State) : Host.Outcome State Fault Refusal := .next ((s.arrive e).trigPulse c)
def execTrigTimeout (e : Env) (c : Fin 4) (s : State) : Host.Outcome State Fault Refusal := .next ((s.arrive e).trigTimeout c)
def execPtrigSkipWindow (e : Env) (c : Fin 4) (s : State) : Host.Outcome State Fault Refusal :=
  .next ((s.arrive e).ptSkipWindow c)
def execSettingsWindow (e : Env) (c : Fin 4) (s : State) : Host.Outcome State Fault Refusal :=
  .next ((s.arrive e).settingsWindow c)
def execSettingsWriteDone (e : Env) (c : Fin 4) (failed : Option (Fin 16)) (s : State) : Host.Outcome State Fault Refusal :=
  .next ((s.arrive e).setDone c (failed.map (·.val)))
def execCamTrig (e : Env) (w : Writer) (c : Fin 4) (s : State) : Host.Outcome State Fault Refusal :=
  .next ((s.arrive e).asWriter w false (fun s n => s.wrCamCtl c n 1))
def execCamSetreq (e : Env) (w : Writer) (c : Fin 4) (record : Fin 256) (s : State) : Host.Outcome State Fault Refusal :=
  .next ((s.arrive e).asWriter w false (fun s n => s.wrCamCtl c n (wd (2 + 256 * record))))
def execCamPop (e : Env) (w : Writer) (c : Fin 4) (s : State) : Host.Outcome State Fault Refusal :=
  .next ((s.arrive e).asWriter w false (fun s n => s.wrCamCtl c n 4))
def execCamClrcnt (e : Env) (w : Writer) (c : Fin 4) (s : State) : Host.Outcome State Fault Refusal :=
  .next ((s.arrive e).asWriter w false (fun s n => s.wrCamCtl c n 8))
def execI2cCommand (e : Env) (w : Writer) (c : Fin 4) (addr : Fin 128) (read : Bool) (nbytes : Fin 8) (data : BitVec 48)
    (s : State) : Host.Outcome State Fault Refusal :=
  .next ((s.arrive e).asWriter w false (fun s n =>
    s.wrI2c c n (fields [(0, 7, addr), (7, 1, b1 read), (8, 3, nbytes), (16, 48, data.toNat)])))
def execI2cDone (e : Env) (c : Fin 4) (res : I2cEnd) (s : State) : Host.Outcome State Fault Refusal :=
  .next ((s.arrive e).i2cDone c res)

end Sys2Proof.Machine
end

