-- ==== Sys2Proof/Machine/NvStore.lean ====
section
/-! DEFINITION. The non-volatile store (15 R448-R454): records with two slots, writing and reading a record. -/
namespace Sys2Proof.Machine
open Sys2Proof

/-- The slot size of a record, or 0 where no record has that RID (15 R448). -/
def nvSlotSize (rid : Nat) : Nat :=
  if rid < 0x10 then 256
  else if 0x100 ≤ rid && rid < 0x700 then 128
  else if (0x1000 ≤ rid && rid < 0x1040) || (0x1100 ≤ rid && rid < 0x1104) || rid = 0x1200 then 256
  else if 0x2000 ≤ rid && rid < 0x2040 then 32768
  else if 0x3000 ≤ rid && rid < 0x3004 then 65536
  else if 0x8000 ≤ rid && rid < 0x8090 then 32768
  else 0

/-- A host record (15 R448, R452). -/
def nvHost (rid : Nat) : Bool := 0x8000 ≤ rid && rid < 0x8090

/-- A calibration record (15 R448). -/
def nvCal (rid : Nat) : Bool := 0x1000 ≤ rid && rid < 0x4000 && nvSlotSize rid != 0

/-- A repair record. -/
def nvRepair (rid : Nat) : Bool := 0x100 ≤ rid && rid < 0x700

/-- The address of slot A, or of slot B, of a record (15 R448). -/
def nvAddr (rid : Nat) (b : Bool) : Nat :=
  let area := if rid < 0x100 then (0x010000, 0) else if rid < 0x1000 then (0x020000, 0x100)
    else if rid < 0x1100 then (0x080000, 0x1000) else if rid < 0x1200 then (0x088000, 0x1100)
    else if rid < 0x2000 then (0x088800, 0x1200) else if rid < 0x3000 then (0x100000, 0x2000)
    else if rid < 0x8000 then (0x500000, 0x3000) else (0x700000, 0x8000)
  area.1 + 2 * nvSlotSize rid * (rid - area.2) + (if b then nvSlotSize rid else 0)

/-- n bytes of the store from byte i of a record's slot. -/
def State.nvBytes (s : State) (rid : Nat) (b : Bool) (i n : Nat) : List Byte := memRead s.nv.mram (nvAddr rid b + i) n

/-- Cells of the store at the n addresses from a. -/
def State.nvCells (s : State) (a n : Nat) : List Host.Cell := s.nv.mram.filter (fun c => a ≤ c.1 && c.1 < a + n)

/-- A slot as its bytes give it (15 R449, R450).
[log 133: DESIGN CHOICE] -/
def State.nvSlot (s : State) (rid : Nat) (b : Bool) : NvSlot :=
  let h := s.nvBytes rid b 0 16
  let len := leAt h 12 4
  let here := leAt h 0 4 = 0x4352564E && leAt h 4 2 = rid && byteAt h 6 = 1 && len + 20 ≤ nvSlotSize rid
  let ok := here && leNat (s.nvBytes rid b (16 + len) 4) = crc32c (s.nvBytes rid b 0 (16 + len))
  { version := leAt h 8 4, payload := if ok then s.nvBytes rid b 16 len else [], valid := ok,
    erased := (s.nvCells (nvAddr rid b) (nvSlotSize rid)).isEmpty }

/-- Record RID. -/
def State.nvRec (s : State) (rid : Nat) : NvRec :=
  { a := s.nvSlot rid false, b := s.nvSlot rid true, wroteAt := SMap.find s.nv.wrote rid }

/-- The bytes of a slot with that version and payload, CHECK last (15 R449). -/
def nvImage (rid version : Nat) (payload : List Byte) : List Byte :=
  let l := toLE 4 0x4352564E ++ toLE 2 rid ++ toLE 1 1 ++ toLE 1 0 ++ toLE 4 version ++ toLE 4 payload.length ++ payload
  l ++ toLE 4 (crc32c l)

/-- The instant of a write of record RID. -/
def State.nvStamp (s : State) (rid : Nat) : State := { s with nv := { s.nv with wrote := SMap.put s.nv.wrote rid s.now } }

/-- Both slots of record RID erased (11 R344). -/
def State.nvErase (s : State) (rid : Nat) : State :=
  ({ s with nv := { s.nv with mram := memClear s.nv.mram (nvAddr rid false) (2 * nvSlotSize rid) } } : State).nvStamp rid

/-- Version v is newer than w (15 R450). -/
def verNewer (v w : Nat) : Bool := let d := (v + 2 ^ 32 - w % 2 ^ 32) % 2 ^ 32; 1 ≤ d && d < 2 ^ 31

/-- The current slot is B (15 R450). -/
def NvRec.curB (r : NvRec) : Bool := r.b.valid && (!r.a.valid || verNewer r.b.version r.a.version)

/-- The current slot, if the record is not absent. -/
def NvRec.current (r : NvRec) : Option NvSlot := if r.curB then some r.b else if r.a.valid then some r.a else none

/-- A slot written, read back, and written once more where the check fails (15 R451); whether a check passed. Where both
fail the slot holds another CHECK.
[log 133: DESIGN CHOICE] -/
def State.nvPutChecked (s : State) (rid : Nat) (b : Bool) (version : Nat) (payload : List Byte) : State × Bool :=
  let ok := Config.nvCheck s.draws || Config.nvCheck (s.draws + 1)
  let l := nvImage rid version payload
  let l := if ok then l else l.take (l.length - 4) ++ (l.drop (l.length - 4)).map (fun x => ~~~x)
  ({ s with draws := s.draws + 2, nv := { s.nv with mram := memWrite s.nv.mram (nvAddr rid b) l } }, ok)

/-- A record written (15 R451) for session n, or for the device itself: the slot that is not current takes the new version;
where both attempts fail NV_WFAIL is posted and the previous slot stays current. -/
def State.nvWrite (s : State) (rid : Nat) (payload : List Byte) (n : Option Nat) : State × Bool :=
  let r := s.nvRec rid
  let ver := match r.current with | some c => (c.version + 1) % 2 ^ 32 | none => 0
  let toB := r.current.isSome && !r.curB
  let w := s.nvPutChecked rid toB ver payload
  let s := w.1.nvStamp rid
  let s := { s with cal := { s.cal with nvWrites := satAdd 32 s.cal.nvWrites 1 } }
  if w.2 then (s, true)
  else
    let s := { s with cal := { s.cal with nvFail := satAdd 16 s.cal.nvFail 1 } }
    let r := s.ev 2 0x0B11 0 none (wd rid)
    (match n with | some n => s.postTo n r | none => s.postAll r, false)

/-- The device accepts at most one write of a record per second (15 R451). -/
def State.nvRate (s : State) (rid : Nat) : Bool :=
  match SMap.find s.nv.wrote rid with | some t => s.now < t + 1000 * qMs | none => false

/-- A record read: its current payload. A record with one valid slot and a bad one posts NV_CRC, and the bad slot is
rewritten from the current one (15 R450).
[log 133: DESIGN CHOICE] -/
def State.nvRead (s : State) (rid : Nat) : State × Option (List Byte) :=
  let r := s.nvRec rid
  match r.current with
  | none => (s, none)
  | some c =>
    let bad := if r.curB then !r.a.valid && !r.a.erased else !r.b.valid && !r.b.erased
    if !bad then (s, some c.payload)
    else
      let s := { s with cal := { s.cal with nvCrc := satAdd 16 s.cal.nvCrc 1 } }
      let s := s.postAll (s.ev 2 0x0B10 0 none (wd rid))
      ((s.nvPutChecked rid (!r.curB) c.version c.payload).1, some c.payload)

/-- A key slot whose two record slots are both invalid and not both erased is faulty (15 R450). -/
def State.keyFaulty (s : State) (k : Nat) : Bool :=
  let r := s.nvRec k
  !r.a.valid && !r.b.valid && !(r.a.erased && r.b.erased)

def State.nvStat (s : State) : Word := fields [(0, 32, s.cal.nvWrites), (32, 16, s.cal.nvCrc), (48, 16, s.cal.nvFail)]

end Sys2Proof.Machine
end

