-- ==== Sys2Proof/Machine/Memory.lean ====
section
/-! DEFINITION. Memory in service (13): refresh, power-down, patrol scrub, zero-fill, healing, in-service tests and repairs of the SRAM. -/
namespace Sys2Proof.Machine
open Sys2Proof

/-! ## Configuration in force (13 R419) -/

def chCfgAddr : Nat := 0x04000010
def sdCfgAddr : Nat := 0x04000018

/-- The channel runs: it is TRAINED, or retraining. -/
def Chan.runs (c : Chan) : Bool := c.st == .trained || c.st == .retrain

/-! ## Refresh and power-down (13 R397, R398) -/

/-- The refresh interval of a channel: 3.9 µs, or 1.95 µs above 85 °C. -/
def Chan.interval (c : Chan) : Nat := if c.hotRef then 9750 else 19500

/-- DRAM_REFRESH: an interval has elapsed; with requests queued or a switch-over gap the refresh is postponed where
REFPOST allows it, else it wakes the ranks.
[log 113: DESIGN CHOICE] -/
def State.refresh (s : State) (ch : Nat) (busy : Bool) : State :=
  let c := vget s.mem.ch ch
  if !c.runs || !s.due c.lastRef c.interval then s
  else if (busy || s.pws.gap.isSome) && c.postponed < s.rf chCfgAddr 12 10 then
    s.modCh ch (fun c => { c with lastRef := s.now, postponed := c.postponed + 1 })
  else s.modCh ch (fun c => { c with lastRef := s.now, postponed := 0, pd := 0, lastReq := Vector.replicate 2 s.now })

/-- DRAM_TEMP_POLL, every 1 ms (13 R397). -/
def State.tempPoll (s : State) (ch : Nat) (hot : Bool) : State :=
  if (vget s.mem.ch ch).pollAt.all (fun t => s.due t qMs) then
    s.modCh ch (fun c => { c with hotRef := hot, pollAt := some s.now })
  else s

/-- DRAM_POWERDOWN: rank r has received no request for PDTIMER × 10 ns.
[log 113: DESIGN CHOICE] -/
def State.powerDown (s : State) (ch r : Nat) : State :=
  let c := vget s.mem.ch ch
  let t := s.rf chCfgAddr 9 0
  if t ≠ 0 && c.runs && r ≤ s.mem.ranks && s.due (vget c.lastReq r) (50 * t) then
    s.modCh ch (fun c => { c with pd := c.pd ||| 2 ^ r })
  else s

/-! ## Patrol scrub and zero-fill (13 R392, R401) -/

/-- PATROL_SCRUB of a 64-byte burst: the corrected words are written back; an uncorrectable one is recorded and its page
retired. A new uncorrectable word is taken to be the burst's first.
[log 108: DEDUCED] -/
def State.patrol (s : State) (burst corrected : Nat) (ue : Bool) : State :=
  let a := 64 * burst
  if !s.mem.dok || s.dramTop ≤ a then s
  else
    let s := s.dramTouch a 64
    let ce := wordsIn s.dramCe a 64
    let s := s.each ce (fun s w => s.dramCeHit (4 * w) true)
    let s := { s with dramCe := s.dramCe.filter (fun w => !ce.contains w) }
    let s := s.each (List.range corrected) (fun s _ => s.dramCeHit a true)
    let s := s.when ue (fun s => { s with dramUe := addOnce (a / 4) s.dramUe })
    match wordsIn s.dramUe a 64 with
    | [] => s
    | w :: _ => s.dramUeHit (4 * w) true none

/-- Page pg is neither reserved, owned nor retired. -/
def State.pageFree (s : State) (pg : Nat) : Bool :=
  4096 ≤ pg && 65536 * pg < s.dramTop && SMap.get s.mem.owner 0 pg == 0 && !s.mem.retired.contains pg

/-- A page filled with zeros. -/
def State.fillPage (s : State) (pg : Nat) : State :=
  let inPg := fun w => w / 16384 == pg
  { s with dram := memClear s.dram (65536 * pg) 65536, dramUe := s.dramUe.filter (fun w => !inPg w),
           dramCe := s.dramCe.filter (fun w => !inPg w) }

/-- ZERO_FILL: a free page is filled and can be allocated; ZFDONE sets when every free page is filled. -/
def State.zeroFill (s : State) (pg : Nat) : State :=
  if !s.mem.dok || !s.pageFree pg then s
  else
    let s := (s.fillPage pg).modMem (fun m => { m with filled := addOnce pg m.filled })
    let all := (List.range (s.dramTop / 65536)).all (fun p => !s.pageFree p || s.mem.filled.contains p)
    s.modMem (fun m => { m with zfDone := m.zfDone || all })

/-! ## Write-back and healing (13 R403, R406) -/

/-- ECC_WRITEBACK: the corrected word is written back. -/
def State.writeBack (s : State) (w : Nat) : State := s.modMem (fun m => { m with sramCe := m.sramCe.filter (· != w) })

/-- The keys of a map. -/
def keysOf {β : Type} (m : SMap β) : List Nat := List.map Prod.fst m

/-- What port p holds in word w, a ring slot, a tag or a word of an energy copy, is uncorrectable. -/
def State.spoilPort (s : State) (w p : Nat) : State :=
  let tags := (List.range 256).filter (fun k => Config.tagIndex p k == w)
  let words := (if w < 0x600000 && w / 98304 == p then [w % 98304] else []) ++ tags.map (98304 + ·)
  (s.modRing p (fun r => { r with bad := words.foldl (fun l x => addOnce x l) r.bad })).modFp p (fun f =>
    let here := fun (k : Bool) => Config.energyIndex p k ≤ w && w < Config.energyIndex p k + 16384
    { f with
      liveErr := if here f.copy then addOnce w f.liveErr else f.liveErr,
      stagedBad := if here (!f.copy) && f.push.isSome then addOnce w f.stagedBad else f.stagedBad })

/-- The table words that word w holds are uncorrectable. A word that nothing has written is not checked (13 R404). -/
def State.spoilTab (s : State) (w : Nat) : State :=
  let table := fun (a : Nat) => match regAt a with | some r => r.table | none => false
  let live := (keysOf s.mgt.live).filter table
  let all := live ++ (keysOf s.mgt.staged).filter table
  let bad := (live.filter (fun a => Config.tableIndex a false == w)).map (fun a => (a, false)) ++
    (all.filter (fun a => Config.tableIndex a true == w)).map (fun a => (a, true))
  s.modMgt (fun m => { m with badTab := bad ++ m.badTab.filter (fun b => !bad.contains b) })

/-- What word w holds of programs, saved contexts, sessions and nozzles is uncorrectable. -/
def State.spoilStore (s : State) (w : Nat) : State :=
  let prog := (keysOf s.pstore).filter (fun k => Config.storeIndex k false == w)
  let saved := (List.range 1024).filter (fun i => Config.storeIndex i true ≤ w && w < Config.storeIndex i true + 128)
  let ses := (List.range 256).filter (fun n => Config.sessionIndex n == w)
  let noz := (keysOf s.hlt.nz).filter (fun k => nzWord k == w)
  let s := { s with
    pstoreBad := prog.foldl (fun l k => addOnce k l) s.pstoreBad,
    ctxBad := saved.foldl (fun l i => addOnce i l) s.ctxBad }
  s.modMem (fun m => { m with
    sessBad := ses.foldl (fun l n => addOnce n l) m.sessBad, nzBad := noz.foldl (fun l k => addOnce k l) m.nzBad })

/-- SRAM word w has become uncorrectable: what it holds is marked, and the next read or test window finds it (13 R405). The
management cores' working memory is read all the time: they restart (01 R13).
[log 107: DESIGN CHOICE] -/
def State.spoil (s : State) (w : Nat) : State :=
  let s := (((s.each (List.range 64) (fun s p => s.spoilPort w p)).spoilTab w).spoilStore w)
  if Config.isWork w then (s.sramUeHit w (sramPart w)).modSafe (fun x => { x with mgmtDown := some s.now }) else s

/-- A write of n SRAM words from w whose content stays as it was, as a heal and the restore of a test window make: new wrong bits
come as `State.sramWrite` says.
[log 107: DESIGN CHOICE] -/
def State.sramPut (s : State) (w n : Nat) : State :=
  let r := s.sramWrite w n
  r.1.each r.2 (fun s w => s.spoil w)

/-- The unit is in a session's staged or sealed set. -/
def State.unitStaged (s : State) (u : Nat) : Bool :=
  (List.range 256).any (fun n => let g := (s.ses n).stage; g.units.contains u || g.sealedUnits.contains u)

/-- The two banks of a unit are equal: no session stages it, and it is not in catch-up.
[log 114: DEDUCED] -/
def State.banksEqual (s : State) (u : Nat) : Bool := !s.unitStaged u && !s.mgt.catchups.any (fun c => c.unit == u)

/-- TABLE_HEAL: a bad table word is copied from the other bank of its unit, where the banks are equal and the other word
is good.
[log 106: DEDUCED; log 114: DEDUCED] -/
def State.heal (s : State) (w : Nat) : State :=
  let ok := fun (b : Nat × Bool) =>
    Config.tableIndex b.1 b.2 == w && s.banksEqual (unitAt b.1) && !s.mgt.badTab.contains (b.1, !b.2)
  if s.mgt.badTab.any ok then (s.modMgt (fun m => { m with badTab := m.badTab.filter (fun b => !ok b) })).sramPut w 1 else s

/-! ## In-service tests (13 R410-R413) -/

/-- Macro and row of a word, and the key of a row. -/
def rowKey (w : Nat) : Nat := w / 8192 * 512 + w % 8192 / 16

/-- Spare rows used in macro k by fuse, and by fuse and in service (13 R408). -/
def fusedSpares (k : Nat) : Nat := min 4 (countN 512 (fun r => Config.fusedRow (512 * k + r)))
def State.macroSpares (s : State) (k : Nat) : Nat := fusedSpares k + SMap.get s.mem.spares 0 k
def State.sparesUsed (s : State) (w : Nat) : Nat := s.macroSpares (w / 8192)

/-- The slices that pending repairs name come first; then the turn goes on. -/
def State.nextRepair (s : State) : Option Repair := s.mem.repairs.head?

/-- What a window's save finds in its slice (13 R405, R411): single-bit errors are corrected; uncorrectable words of
rings, energy copies (06 R195) and tables are reported.
[log 109: DEDUCED; log 112: DEDUCED] -/
def State.windowSave (s : State) (slice : Nat) : State :=
  let lo := 512 * slice
  let s := s.sramRead lo 512
  let s := s.each (List.range 64) (fun s p =>
    s.each (((vget s.ring p).bad.map (ringWord p)).filter (fun w => lo ≤ w && w < lo + 512)) (fun s w =>
      s.sramUeHit w (sramPart w)))
  let here := fun (l : List Nat) => l.filter (fun w => lo ≤ w && w < lo + 512)
  let s := s.each (List.range 64) (fun s p => (s.sliceEcc p (here (vget s.fp p).liveErr)).stagedEcc p (here (vget s.fp p).stagedBad))
  let s := s.each (s.mem.nzBad.filter (fun k => nzWord k / 512 == slice)) (fun s k => s.nzEcc k)
  s.each (s.mgt.badTab.filter (fun b => Config.tableIndex b.1 b.2 / 512 == slice)) (fun s b =>
    let w := Config.tableIndex b.1 b.2
    (s.sramUeHit w (sramPart w)).postUnit (unitAt b.1) (s.ev 2 0x0B09 (unitAt b.1 % 64) (s.unitSeq (unitAt b.1)) (wd b.1)))

/-- SHEEPDOG_WINDOW (13 R410): a window opens INTERVAL µs after the one before, on the slice of a pending repair, else
on the next in turn.
[log 110: DEDUCED] -/
def State.sheepdog (s : State) : State :=
  let cfg := s.reg sdCfgAddr
  if s.mem.win.isSome || s.phase != .ready || !s.due s.mem.lastWin (bits cfg 23 8 * qUs) then s
  else match s.nextRepair with
  | some r =>
    let i := r.word / 512
    (s.modMem (fun m => { m with
      win := some { slice := i, since := s.now, repair := some r }, slice := i, lastWin := s.now })).windowSave i
  | none =>
    if !bit cfg 0 then s
    else
      let i := s.mem.turn
      (s.modMem (fun m => { m with
        win := some { slice := i, since := s.now }, slice := i, lastWin := s.now,
        turn := (i + 1) % 24576 })).windowSave i

/-- The rows repaired in macro k, as the payload of its repair record.
[log 122: DESIGN CHOICE] -/
def State.repairPayload (s : State) (k : Nat) : List Byte :=
  (s.mem.rows.filter (fun x => x.1 / 512 == k)).flatMap (fun x => toLE 2 (x.1 % 512) ++ toLE 1 x.2)

/-- The row of word w mapped to a free spare row of its macro; whether one was free (13 R408, R413).
[log 110: DEDUCED] -/
def State.repairRow (s : State) (w : Nat) (n : Option Nat) : State × Bool :=
  let k := w / 8192
  let u := s.sparesUsed w
  if 4 ≤ u then (s.postMem n (s.ev 2 0x0B07 0 none (wd w)), false)
  else
    let s := s.modMem (fun m => { m with
      defects := m.defects.filter (fun d => rowKey d.1 != rowKey w), rows := SMap.put m.rows (rowKey w) u, spares := SMap.put m.spares k (SMap.get m.spares 0 k + 1),
      soft := if (SMap.find m.rows (rowKey w)).isSome then m.soft else m.soft + 1 })
    let s := s.postMem n (s.ev 2 0x0B06 0 none (wd w))
    ((s.nvWrite (0x100 + k) (s.repairPayload k) none).1, true)

/-- The pass uses a checkerboard (13 R412). -/
def State.checkerPass (s : State) : Bool := bit (s.reg sdCfgAddr) 2 && s.mem.passes % 2 == 1

/-- SHEEPDOG_WINDOW_END (13 R411, R413) after 1,552 ticks: the first failure, if any, is recorded and its row repaired
where AUTOREP or a REPAIR asks for it; the restore writes the slice. Answers the repair that the window served.
[log 110: DEDUCED; log 112: DEDUCED] -/
def State.windowEnd (s : State) (fail : Option (Nat × Nat × Nat)) : State × Option Repair :=
  match s.mem.win with
  | none => (s, none)
  | some w =>
    if !s.due w.since (1552 * qTick) then (s, none)
    else
      let n := w.repair.map (·.session)
      let last := w.slice = 24575 && w.repair.isNone
      let s := s.modMem (fun m => { m with
        win := none, repairs := if w.repair.isSome then m.repairs.tail else m.repairs })
      let s := match fail with
        | some (x, b, el) =>
          let word := 512 * w.slice + x % 512
          let auto := bit (s.reg sdCfgAddr) 1
          let bg := s.checkerPass
          let s := s.modMem (fun m => { m with fails := satAdd 16 m.fails 1 })
          let s := s.postMem n (s.ev 2 0x0B05 0 none (fields [(0, 24, word), (24, 7, b)]))
          let r := if auto || w.repair.isSome then s.repairRow word n else (s, false)
          let out := if !(auto || w.repair.isSome) then 3 else if r.2 then 1 else 2
          let s := if r.2 then r.1 else r.1.modMem (fun m => { m with defects := (word, b) :: m.defects.filter (· != (word, b)) })
          let s := s.modMem (fun m => { m with
            bistRec := fields [(0, 24, word), (24, 7, b), (32, 3, el), (35, 1, b1 bg), (36, 2, out)] })
          match w.repair with
          | some q => if q.op = 1 && rowKey q.word != rowKey word then (s.repairRow q.word n).1 else s
          | none => s
        | none => match w.repair with
          | some r => if r.op = 1 then (s.repairRow r.word n).1 else s
          | none => s
      ((s.modMem (fun m => { m with passes := if last then (m.passes + 1) % 2 ^ 32 else m.passes })).sramPut (512 * w.slice) 512, w.repair)

/-- Why REPAIR is refused, or 0 (13 R409).
[log 110: DEDUCED] -/
def State.repairRefusal (s : State) (word op : Nat) : Nat :=
  if 0xC00000 ≤ word then 2
  else if op = 1 && ((SMap.find s.mem.rows (rowKey word)).isSome || Config.fusedRow (rowKey word)) then 3
  else if 4 ≤ s.sparesUsed word then 1
  else 0

/-! ## Dictionary tests (13 R414) -/

/-- DICT_TEST: engine g is taken out of the rotation at its next free tick. -/
def State.dictTest (s : State) (g : Nat) : State :=
  let x := vget s.eng g
  let busy := (List.range 16).any (fun i => (vget s.eng i).testing.isSome)
  if busy || x.out || x.owner.isSome || !s.due x.dictAt (s.rf sdCfgAddr 31 24 * 3600 * 1000 * qMs) then s
  else s.modEng g (fun x => { x with out := true, testing := some s.now, dictAt := s.now })

/-- DICT_TEST_DONE: the engine returns, or posts BIST_FAIL and stays out. -/
def State.dictDone (s : State) (g : Nat) (pass : Bool) : State :=
  if (vget s.eng g).testing.isNone then s
  else if pass then s.modEng g (fun x => { x with out := false, testing := none })
  else (s.modEng g (fun x => { x with testing := none })).postAll
    (s.ev 2 0x0B05 0 none (fields [(0, 24, 0xFFFFFF), (32, 8, g)]))

/-! ## The flip mask and windows of corrected errors (13 R407, R417) -/

/-- MEM.FLIPMASK and MEM.FLIPCTL written by session n: only the Steward's write has an effect. -/
def State.wrFlipMask (s : State) (n : Nat) (v : Word) : State × Nat :=
  s.ifRight (s.isSteward n) n 0 (fun s => (s.setReg 0x04000040 v, 0))
def State.wrFlipCtl (s : State) (n : Nat) (v : Word) : State × Nat :=
  s.ifRight (s.isSteward n) n 0 (fun s =>
    let used := if bit v 8 then 0 else s.rf 0x04000048 11 11
    (s.setReg 0x04000048 (setBits (v &&& wd 0x000FFFFFFFFF07FF) 11 11 used), 0))

/-- ECC_WINDOW_END: the corrected errors counted in a window of a partition or a channel are posted as one record. -/
def State.eccWindowEnd (s : State) (sram : Bool) (k : Nat) : State :=
  let w := if sram then vget s.mem.wSec k else (vget s.mem.ch k).wCe
  match w.since with
  | none => s
  | some t =>
    if !s.due t qMs then s
    else
      let s := if sram then s.modMem (fun m => { m with wSec := vset m.wSec k {} }) else s.modCh k (fun c => { c with wCe := {} })
      s.when (w.more != 0) (fun s => s.postAll (s.ev 2 (if sram then 0x0B01 else 0x0B03) k none (wd w.more) 0x400))

/-! ## Read words (13 R419, R420) -/

def State.memGstat (s : State) : Word :=
  fields [(0, 1, b1 s.mem.dok), (1, 1, b1 s.mem.zfDone), (4, 4, s.mem.chFail), (8, 1, b1 s.mem.win.isSome),
    (16, 20, s.mem.retired.length)]
def State.dramInfo (s : State) : Word :=
  fields [(0, 8, s.mem.chCap), (8, 1, s.mem.ranks), (16, 16, s.mem.mts), (32, 20, 16384 * s.mem.chCap - 4096 - s.mem.retired.length)]
def State.sdStat (s : State) : Word := fields [(0, 15, s.mem.slice), (16, 32, s.mem.passes), (48, 16, s.mem.fails)]
def State.oasis (s : State) : Word :=
  let used := (List.range 1536).foldl (fun a k => a + min 4 (s.macroSpares k)) 0
  fields [(0, 16, used), (16, 16, 6144 - used), (32, 16, Config.fusedCols), (48, 16, s.mem.soft)]
def chCode : ChSt → Nat
  | .init => 0 | .trained => 1 | .retrain => 2 | .failed => 3
def State.chStat (s : State) (k : Nat) : Word :=
  let c := vget s.mem.ch k
  fields [(0, 2, chCode c.st), (2, 1, b1 c.hotRef), (3, 2, c.pd), (16, 7, c.minEye), (32, 32, c.retrains)]
def State.dEcc (s : State) (k : Nat) : Word :=
  let c := vget s.mem.ch k
  fields [(0, 32, c.ce), (32, 16, c.ue), (48, 16, c.patrol)]
def State.sEcc (s : State) (k : Nat) : Word := fields [(0, 32, vget s.mem.secCe k), (32, 16, vget s.mem.secUe k)]

/-! ## Commands -/

def execDramRefresh (e : Env) (ch : Fin 4) (busy : Bool) (s : State) : Host.Outcome State Fault Refusal :=
  .next ((s.arrive e).refresh ch busy)
def execDramTempPoll (e : Env) (ch : Fin 4) (hot : Bool) (s : State) : Host.Outcome State Fault Refusal :=
  .next ((s.arrive e).tempPoll ch hot)
def execDramPowerdown (e : Env) (ch : Fin 4) (rank : Fin 2) (s : State) : Host.Outcome State Fault Refusal :=
  .next ((s.arrive e).powerDown ch rank)
def execPatrolScrub (e : Env) (burst : BitVec 30) (corrected : Nat) (ue : Bool) (s : State) : Host.Outcome State Fault Refusal :=
  .next ((s.arrive e).patrol burst.toNat (min 16 corrected) ue)
def execZeroFill (e : Env) (page : BitVec 20) (s : State) : Host.Outcome State Fault Refusal :=
  .next ((s.arrive e).zeroFill page.toNat)
def execEccWriteback (e : Env) (word : BitVec 24) (s : State) : Host.Outcome State Fault Refusal :=
  .next ((s.arrive e).writeBack word.toNat)
def execTableHeal (e : Env) (word : BitVec 24) (s : State) : Host.Outcome State Fault Refusal :=
  .next ((s.arrive e).heal word.toNat)
def execDictTest (e : Env) (g : Fin 16) (s : State) : Host.Outcome State Fault Refusal := .next ((s.arrive e).dictTest g)
def execDictTestDone (e : Env) (g : Fin 16) (pass : Bool) (s : State) : Host.Outcome State Fault Refusal :=
  .next ((s.arrive e).dictDone g pass)
def execFlipArm (e : Env) (w : Writer) (ctl : Word) (s : State) : Host.Outcome State Fault Refusal :=
  .next ((s.arrive e).asWriter w false (fun s n => s.wrFlipCtl n ctl))
def execEccWindowEnd (e : Env) (sram : Bool) (k : Fin 5) (s : State) : Host.Outcome State Fault Refusal :=
  .next ((s.arrive e).eccWindowEnd sram k)

end Sys2Proof.Machine
end

