-- ==== Sys2Proof/Machine/Time.lean ====
section
/-! DEFINITION. The time base (14): steps, the servo, the PTP port's states, and the register words of TIM. -/
namespace Sys2Proof.Machine
open Sys2Proof

/-! ## Configuration in force (14 R438) -/

def ptpAddr : Nat := 0x05000008
def servoAddr : Nat := 0x05000010
def State.ptpEN (s : State) : Bool := bit (s.reg ptpAddr) 0
def State.ptpP2P (s : State) : Bool := bit (s.reg ptpAddr) 1
def State.ptpPORT (s : State) : Nat := s.rf ptpAddr 6 4
/-- INGRESS of the port in use, in units of 2^-16 ns (14 R427).
[log 116: DEDUCED] -/
def State.latIn (s : State) : Int := signedN 16 (s.rf (0x05000100 + 8 * s.ptpPORT) 15 0) * 4096
/-- EGRESS of the port in use, in units of 2^-16 ns (14 R427).
[log 116: DEDUCED] -/
def State.latOut (s : State) : Int := signedN 16 (s.rf (0x05000100 + 8 * s.ptpPORT) 31 16) * 4096
def State.asym (s : State) : Int := signedN 32 (s.rf 0x05000070 31 0)

/-- 2^k s in quanta. -/
def secPow (k : Int) : Nat := if 0 ≤ k then 1000 * qMs * 2 ^ k.toNat else 1000 * qMs / 2 ^ (-k).toNat

/-- The largest RATE (14 R421): ±500 ppm. -/
def rateMax : Int := 549755813

/-- Units of device time in 2^−16 ns and in 1 ns. -/
def uFrac : Nat := 5 * 2 ^ 22
def uNs : Nat := 5 * 2 ^ 38

/-- Device time in 2^−16 ns. -/
def State.devF (s : State) : Nat := s.tim.t / uFrac

/-! ## Steps (14 R422, R432) -/

/-- Records of the present tick stamped anew: those with stamp `old` carry the time of now (14 R434, R435). -/
def State.restampTick (s : State) (old : Word) : State :=
  { s with sess := s.sess.map (fun x =>
      let k := x.evq.held.length - x.evq.fresh
      { x with evq := { x.evq with held := x.evq.held.take k ++ (x.evq.held.drop k).map (fun r =>
          if r.time = old then { r with time := s.stamp } else r) } }) }

/-- Device time stepped by d, in 2^−16 ns: TIME_STEP with the exact step, to session n where its request made it. Events of the
tick carry the new time.
[log 121: DEDUCED] -/
def State.stepTime (s : State) (d : Int) (n : Option Nat) : State :=
  let old := s.stamp
  let s := (s.modTim (fun t => { t with
    t := ((t.t : Int) + d * uFrac).toNat, steps := satAdd 16 t.steps 1 })).restampTick old
  s.postMem n (s.ev 2 0x0C01 0 none (wdI d))

/-- TIM.SETSEC and TIM.SETNS written by session n.
[log 121: DEDUCED] -/
def State.wrSetSec (s : State) (n : Nat) (v : Word) : State × Nat :=
  s.ifRight (s.isSteward n) n 0 (fun s => (s.modTim (fun t => { t with setSec := bits v 47 0 }), 0))
/-- A write of TIM.SETNS by session n: device time is set by hand (14 R432).
[log 121: DEDUCED] -/
def State.wrSetNs (s : State) (n : Nat) (v : Word) : State × Nat :=
  let ns := bits v 31 0
  if s.ptpEN || 1000000000 ≤ ns || !s.isSteward n then s.refuse n 0x0C06 0
  else
    let target := (s.tim.setSec * 1000000000 + ns) * 65536
    let d : Int := (target : Int) - s.devF
    let s := s.stepTime d (some n)
    (s.modTim (fun t => { t with t := target * uFrac }), 0)

/-- TIM.NOWNS of this tick (14 R424). -/
def State.nowNs (s : State) : Word := wd (s.devF % (1000000000 * 65536))

/-- NOWSEC_READ: the nanoseconds of the same tick are latched.
[log 119: DEDUCED] -/
def State.nowSecRead (s : State) : State := s.modTim (fun t => { t with nowLatch := some s.nowNs })

/-! ## Port states (14 R430, R431) -/

/-- A record of the PTP port. -/
def State.timPost (s : State) (code : Nat) : State := s.postAll (s.ev 2 code 0)

/-- HOLDOVER entered: RATE stays and the clock free-runs. -/
def State.holdover (s : State) : State :=
  if s.tim.st == .uncalibrated || s.tim.st == .slave then
    (s.modTim (fun t => { t with
      st := .holdover, locks := 0, holds := satAdd 16 t.holds 1, holdSince := some s.now })).timPost 0x0C03
  else s

/-- Seconds of the holdover in progress. -/
def State.holdSecs (s : State) : Nat := match s.tim.holdSince with | some t => (s.now - t) / (1000 * qMs) | none => 0

/-- HOLDOVER left. -/
def State.holdEnd (s : State) : State :=
  s.modTim (fun t => { t with
    st := .uncalibrated, locks := 0, holdSince := none, holdLast := sat 32 s.holdSecs, holdAll := satAdd 32 t.holdAll s.holdSecs })

/-- An offset decides the port's state: 16 in a row within ±LOCKTH lock it; one outside unlocks it.
[log 117: DEDUCED] -/
def State.lockStep (s : State) (o : Int) : State :=
  let s := s.when (s.tim.st == .holdover) State.holdEnd
  let inside : Bool := decide (o.natAbs ≤ s.rf servoAddr 39 24 * 65536)
  let k := if inside then s.tim.locks + 1 else 0
  if !inside then s.modTim (fun t => { t with locks := 0, st := .uncalibrated })
  else if s.tim.st == .uncalibrated && 16 ≤ k then (s.modTim (fun t => { t with locks := k, st := .slave })).timPost 0x0C02
  else s.modTim (fun t => { t with locks := min 16 k })

/-! ## The servo (14 R429) -/

/-- The fractional rate y·2^40 for X = o·2^−kp + i in 2^−31 ns and interval 2^k s, rounded.
[log 117: DEDUCED] -/
def servoRate (X : Int) (k : Int) : Int :=
  let num := -X * 2 ^ 9 * (if k < 0 then 2 ^ (-k).toNat else 1)
  let den : Int := 1000000000 * (if 0 ≤ k then 2 ^ k.toNat else 1)
  (2 * num + den) / (2 * den)

/-- A new RATE: clamped, with RATE_LIMIT at most once per second; it reaches LCLK 8 ticks later.
[log 117: DEDUCED; log 118: DEDUCED] -/
def State.setRate (s : State) (r : Int) (force : Bool) : State :=
  let c := max (-rateMax) (min rateMax r)
  let s := s.modTim (fun t => { t with rateNext := c, rateAt := s.ticks + 8 })
  let recent := match s.tim.rateLimitAt with | some t => !s.due t (1000 * qMs) | none => false
  if (c ≠ r || force) && !recent then (s.modTim (fun t => { t with rateLimitAt := some s.now })).timPost 0x0C05 else s

/-- The servo on an offset o with interval 2^k s. With NOBACK a backward step in SLAVE is replaced by slewing at the clamp.
[log 117: DEDUCED] -/
def State.servo (s : State) (o : Int) (k : Int) : State :=
  let cfg := s.reg servoAddr
  let far : Bool := decide (bits cfg 23 8 * 1000 * 65536 < o.natAbs)
  let noback := bit cfg 40 && decide (0 < o) && s.tim.st == .slave
  if far && !noback then (s.stepTime (-o) none).modTim (fun t => { t with integ := 0 })
  else
    let i := s.tim.integ + o * 2 ^ (15 - bits cfg 7 4)
    let s := s.modTim (fun t => { t with integ := i })
    if far then s.setRate (-rateMax) true else s.setRate (servoRate (o * 2 ^ (15 - bits cfg 3 0) + i) k) false

/-! ## Messages (14 R425-R431) -/

/-- A message at the PTP port while PTP is on. -/
def State.ptpHere (s : State) (q : Nat) : Bool := s.ptpEN && s.ptpPORT == q && s.phase == .ready

/-- A discarded message (14 R426). -/
def State.ptpDiscard (s : State) : State :=
  if s.ptpEN && s.phase == .ready then s.modTim (fun t => { t with discards := satAdd 16 t.discards 1 }) else s

/-- A message of the PTP port: of the configured domain, or discarded. -/
def State.ptpMsg (s : State) (q domain : Nat) (f : State → State) : State :=
  if !s.ptpHere q then s else if domain ≠ s.rf ptpAddr 15 8 then s.ptpDiscard else f s

/-- PTP_SYNC: a Sync of the parent, with its precise origin time.
[log 116: DEDUCED] -/
def State.ptpSync (s : State) (q domain : Nat) (ident : Word) (portNo : Nat) (k origin ingress corr : Int) : State :=
  s.ptpMsg q domain (fun s =>
    match s.tim.parent with
    | none => s
    | some p =>
      if p.ident ≠ ident || p.port ≠ portNo then s
      else
        let s := s.modTim (fun t => { t with
          syncs := satAdd 16 t.syncs 1, lastSync := s.now, syncInt := k, oddSync := k < -7 || 1 < k })
        if !s.tim.mpdValid then s
        else
          let o := ingress + s.latIn - origin - corr - s.tim.mpd - s.asym
          ((s.modTim (fun t => { t with offset := o })).servo o k).lockStep o)

/-- The order of the best master clock algorithm: by data set, then steps, then sender.
[log 115: PRESUMED] -/
def PtpMaster.key (m : PtpMaster) : List Nat := m.prio ++ [m.steps, m.ident.toNat, m.port]
def lexLt : List Nat → List Nat → Bool
  | [], [] => false
  | [], _ => true
  | _, [] => false
  | a :: l, b :: r => a < b || (a = b && lexLt l r)

/-- The best qualified master: one heard twice within four of its intervals.
[log 115: PRESUMED] -/
def bestMaster (l : List PtpMaster) : Option PtpMaster :=
  (l.filter (fun m => 2 ≤ m.heard)).foldl (fun b m => match b with
    | some x => if lexLt m.key x.key then some m else some x
    | none => some m) none

/-- The parent replaced: a path delay measured end to end is no longer valid. -/
def State.newParent (s : State) (m : PtpMaster) : State :=
  s.modTim (fun t => { t with
    parent := some m, mpdValid := t.mpdValid && s.ptpP2P, lastSync := s.now, lastAnn := m.seenAt, annInt := m.interval })

/-- The master selection after an Announce.
[log 115: PRESUMED] -/
def State.selectMaster (s : State) : State :=
  match bestMaster s.tim.masters with
  | none => s
  | some m =>
    let same := match s.tim.parent with | some p => p.ident == m.ident && p.port == m.port | none => false
    if s.tim.st == .listening then (s.newParent m).modTim (fun t => { t with st := .uncalibrated, locks := 0 })
    else if same then s.modTim (fun t => { t with parent := some m })
    else if s.tim.st == .disabled then s
    else ((s.newParent m).timPost 0x0C04).holdover

/-- PTP_ANNOUNCE.
[log 115: PRESUMED] -/
def State.ptpAnnounce (s : State) (q domain : Nat) (ident : Word) (portNo : Nat) (prio : List Nat) (steps : Nat) (k utcOff : Int)
    (ptpTs : Bool) : State :=
  s.ptpMsg q domain (fun s =>
    let mine := fun (m : PtpMaster) => m.ident == ident && m.port == portNo
    let heard := match s.tim.masters.find? mine with
      | some m => if s.due m.seenAt (4 * secPow k) && s.now ≠ m.seenAt + 4 * secPow k then 1 else m.heard + 1
      | none => 1
    let m : PtpMaster := { ident := ident, port := portNo, prio := prio, steps := steps, heard := min 2 heard,
                           seenAt := s.now, interval := k }
    let s := s.modTim (fun t => { t with masters := t.masters.filter (fun x => !mine x) ++ [m] })
    let s := s.selectMaster
    match s.tim.parent with
    | some p =>
      if mine p then s.modTim (fun t => { t with
        lastAnn := s.now, annInt := k, oddAnn := k < -3 || 3 < k, utcOff := utcOff, ptpTs := ptpTs })
      else s
    | none => s)

/-- PTP_DELAY_RESP: the answer to the outstanding request, with the four time-stamps; those that the device took are
corrected by LATCOR.
[log 116: DEDUCED] -/
def State.ptpDelayResp (s : State) (q domain seqId : Nat) (t1 t2 t3 t4 : Int) : State :=
  s.ptpMsg q domain (fun s =>
    if !s.tim.reqOut || seqId ≠ s.tim.reqSeq then s
    else
      s.modTim (fun t => { t with mpd := ((t2 - t1) + (t4 - t3) + s.latIn - s.latOut) / 2, mpdValid := true, reqOut := false }))

/-- An event message as it departs (14 R425, R428): its addresses by TRANSPORT, peer delay messages to their own. -/
def State.ptpTx (s : State) (kind seqId time : Nat) : PtpTx :=
  let w := s.reg ptpAddr
  let tr := bits w 3 2
  let dest := match tr, kind with
    | 0, 0 => [0x01, 0x1B, 0x19, 0, 0, 0]
    | 0, _ => [0x01, 0x80, 0xC2, 0, 0, 0x0E]
    | 1, 0 => [224, 0, 1, 129]
    | 1, _ => [224, 0, 0, 107]
    | _, 0 => [0xFF, 0x0E, 0, 0, 0, 0, 0, 0, 0, 0, 0, 0, 0, 0, 0x01, 0x81]
    | _, _ => [0xFF, 0x02, 0, 0, 0, 0, 0, 0, 0, 0, 0, 0, 0, 0, 0, 0x6B]
  { kind := kind, port := bits w 6 4, transport := tr,
    vlan := if bit w 44 then some (bits w 47 45 * 2 ^ 13 + bits w 43 32) else none, dest := dest,
    udp := if tr = 0 then none else some 319, sum0 := tr == 1, pad := if tr = 2 then 2 else 0,
    domain := bits w 15 8, seqId := seqId, time := time }

/-- PTP_PDELAY_REQ: answered in one step with the residence time, where the mechanism is peer to peer. -/
def State.ptpPdelayReq (s : State) (q domain seqId : Nat) (ingress : Int) : State :=
  s.ptpMsg q domain (fun s =>
    if !s.ptpP2P then s.ptpDiscard
    else s.emit (.ptp (s.ptpTx 2 seqId (cutN 64 ((s.devF : Int) + s.latOut - (ingress + s.latIn))))))

/-- PTP_DELAY_REQ_SEND: at 2^LOGMINDELAY s, a Delay_Req to the parent or a Pdelay_Req, with its egress time. -/
def State.ptpReqSend (s : State) : State :=
  let p2p := s.ptpP2P
  let due := match s.tim.reqAt with
    | some t => s.due t (secPow (signedN 8 (s.rf ptpAddr 23 16)))
    | none => true
  if !s.ptpEN || s.tim.st == .disabled || !due || (!p2p && s.tim.parent.isNone) then s
  else
    let k := (s.tim.reqSeq + 1) % 65536
    (s.modTim (fun t => { t with reqAt := some s.now, reqSeq := k, reqOut := true })).emit
      (.ptp (s.ptpTx (b1 p2p) k (cutN 80 ((s.devF : Int) + s.latOut))))

/-- The sender is the parent. -/
def State.isParent (s : State) (ident : Word) (portNo : Nat) : Bool := s.tim.parent.any (fun p => p.ident == ident && p.port == portNo)

/-- A Sync of the parent arrives in this very instant.
[log 6: DESIGN CHOICE] -/
def State.syncComes (s : State) : Bool :=
  s.atOnce.any (fun c => match c with
    | .ptpSync _ q d ident k _ _ _ _ => s.ptpHere q && d.val == s.rf ptpAddr 15 8 && s.isParent ident k
    | _ => false)

/-- An Announce of the parent arrives in this very instant.
[log 6: DESIGN CHOICE] -/
def State.annComes (s : State) : Bool :=
  s.atOnce.any (fun c => match c with
    | .ptpAnnounce _ q d ident k _ _ _ _ _ => s.ptpHere q && d.val == s.rf ptpAddr 15 8 && s.isParent ident k
    | _ => false)

/-- SYNC_TIMEOUT: a Sync of the expiring cycle wins (14 R431). -/
def State.syncTimeout (s : State) : State :=
  if s.due s.tim.lastSync (s.rf ptpAddr 31 28 * secPow s.tim.syncInt) && !s.syncComes then s.holdover else s

/-- ANNOUNCE_TIMEOUT: the parent is no longer a candidate; an Announce of the expiring cycle wins (14 R431).
[log 115: PRESUMED] -/
def State.annTimeout (s : State) : State :=
  if s.due s.tim.lastAnn (s.rf ptpAddr 27 24 * secPow s.tim.annInt) && s.tim.parent.isSome && !s.annComes then
    (s.modTim (fun t => { t with masters := t.masters.filter (fun m => match t.parent with
      | some p => !(m.ident == p.ident && m.port == p.port) | none => true) })).holdover
  else s

/-- A change of PTPCFG[EN] in force (14 R430): LISTENING, or DISABLED with no master. -/
def State.ptpEnable (s : State) (on : Bool) : State :=
  s.modTim (fun t =>
    if on then { t with st := .listening, parent := none, masters := [], mpdValid := false, locks := 0, reqAt := none, reqOut := false }
    else { t with st := .disabled, parent := none, masters := [], mpdValid := false, locks := 0, holdSince := none,
                  holdLast := if t.holdSince.isSome then sat 32 s.holdSecs else t.holdLast,
                  holdAll := satAdd 32 t.holdAll s.holdSecs, reqOut := false })

/-! ## Read words (14 R437, R438) -/

def ptpCode : PtpSt → Nat
  | .disabled => 0 | .listening => 1 | .uncalibrated => 2 | .slave => 3 | .holdover => 4
def State.timGstat (s : State) : Word :=
  fields [(0, 3, ptpCode s.tim.st), (3, 1, b1 (s.tim.oddSync || s.tim.oddAnn)), (4, 1, b1 s.tim.ptpTs),
    (16, 16, cutN 16 s.tim.utcOff)]
def State.nowSec (s : State) : Word := wd (s.devF / (1000000000 * 65536) % 2 ^ 48)
def State.timParent (s : State) : Word := match s.tim.parent with | some p => p.ident | none => 0
def State.timParentPort (s : State) : Word :=
  match s.tim.parent with | some p => fields [(0, 16, p.port), (16, 8, p.steps)] | none => 0
def State.timHold (s : State) : Word :=
  fields [(0, 32, if s.tim.holdSince.isSome then sat 32 s.holdSecs else s.tim.holdLast), (32, 32, satAdd 32 s.tim.holdAll s.holdSecs)]
def State.timCnt (s : State) : Word :=
  fields [(0, 16, s.tim.syncs), (16, 16, s.tim.discards), (32, 16, s.tim.steps), (48, 16, s.tim.holds)]

/-! ## Commands -/

def execPtpSync (e : Env) (port : Fin 8) (domain : Fin 256) (ident : Word) (portNo : Fin 65536) (logInt : Int)
    (origin ingress correction : Int) (s : State) : Host.Outcome State Fault Refusal :=
  .next ((s.arrive e).ptpSync port domain ident portNo logInt origin ingress correction)
def execPtpAnnounce (e : Env) (port : Fin 8) (domain : Fin 256) (ident : Word) (portNo : Fin 65536) (prio : List Nat) (steps : Nat)
    (logInt : Int) (utcOff : Int) (ptpTs : Bool) (s : State) : Host.Outcome State Fault Refusal :=
  .next ((s.arrive e).ptpAnnounce port domain ident portNo prio steps logInt utcOff ptpTs)
def execPtpDelayResp (e : Env) (port : Fin 8) (domain : Fin 256) (seqId : Nat) (t1 t2 t3 t4 : Int) (s : State) :
    Host.Outcome State Fault Refusal :=
  .next ((s.arrive e).ptpDelayResp port domain seqId t1 t2 t3 t4)
def execPtpPdelayReq (e : Env) (port : Fin 8) (domain : Fin 256) (seqId : Nat) (ingress : Int) (s : State) :
    Host.Outcome State Fault Refusal :=
  .next ((s.arrive e).ptpPdelayReq port domain seqId ingress)
def execPtpDelayReqSend (e : Env) (s : State) : Host.Outcome State Fault Refusal := .next (s.arrive e).ptpReqSend
def execPtpDiscard (e : Env) (s : State) : Host.Outcome State Fault Refusal := .next (s.arrive e).ptpDiscard
def execSyncTimeout (e : Env) (s : State) : Host.Outcome State Fault Refusal := .next (s.arrive e).syncTimeout
def execAnnounceTimeout (e : Env) (s : State) : Host.Outcome State Fault Refusal := .next (s.arrive e).annTimeout
def execPtpLinkLoss (e : Env) (s : State) : Host.Outcome State Fault Refusal := .next (s.arrive e).holdover
def execNowsecRead (e : Env) (s : State) : Host.Outcome State Fault Refusal := .next (s.arrive e).nowSecRead

end Sys2Proof.Machine
end

