-- ==== Sys2Proof/Machine/Power.lean ====
section
/-! DEFINITION. Power feeds, the safe island, temperatures, start-up and the two resets (16; 17 R491-R500). -/
namespace Sys2Proof.Machine
open Sys2Proof

/-! ## Configuration in force (16 R481) -/

def feedCfgAddr : Nat := 0x05100008
def thCfgAddr : Nat := 0x05100018

/-- Rail r runs in STANDBY mode: only VDDC (0) and VDDQ (3) can (16 R458). -/
def State.railStandby (s : State) (r : Nat) : Bool :=
  (r == 0 && bit (s.reg feedCfgAddr) 0) || (r == 3 && bit (s.reg feedCfgAddr) 2)

/-- The side that PRIM names for rail r. -/
def railPrim (w : Word) (r : Nat) : Nat := if r = 0 then bits w 1 1 else bits w 3 3

/-- The other feed of the same rail. -/
def otherFeed (f : Nat) : Nat := if f % 2 = 0 then f + 1 else f - 1

def State.feed (s : State) (f : Nat) : Feed := vget s.pws.feeds f
def State.modFeed (s : State) (f : Nat) (g : Feed → Feed) : State := s.modPws (fun x => { x with feeds := vmod x.feeds f g })
def State.modRail (s : State) (r : Nat) (g : Rail → Rail) : State := s.modPws (fun x => { x with rails := vmod x.rails r g })

/-- A feed in a new state; every change raises vector 1027 (18 R518). -/
def State.setFeed (s : State) (f : Nat) (st : FeedSt) : State :=
  if (s.feed f).st == st then s else (s.modFeed f (fun x => { x with st := st })).raiseAll 1027

/-- A feed carries load or can. -/
def Feed.ready (x : Feed) : Bool := x.st == .active || x.st == .standby

/-- A record of class 0x0D that no request caused (17 R485). -/
def State.postPws (s : State) (code src : Nat) (detail : Word := 0) : State := s.postAll (s.ev 2 code src none detail)

/-! ## Loss of power (16 R461, R471; 17 R499) -/

/-- The device without power or held by PORST_n: what it keeps is the non-volatile store with the counts, the selected
bank and the anti-rollback minimum in it, and a thermal-trip latch that VSAFE has kept. Heads lose their symbol alignment.
[log 143: DEDUCED] -/
def State.unpowered (s : State) : State :=
  { State.reset with
    pending := s.pending, now := s.now, out := s.out, draws := s.draws, hostMem := s.hostMem, nv := s.nv, phase := .off,
    head := Vector.ofFn (fun p : Fin 64 => { vget s.head p with aligned := false }),
    fire := { safeIn := s.fire.safeIn, safeHighAt := s.fire.safeHighAt },
    safe := { colds := s.safe.colds },
    pws := { h90 := s.pws.h90, fwSel := s.pws.fwSel, fwMin := s.pws.fwMin, tripLatch := s.pws.tripLatch } }

/-! ## Loss of the safe island and of REFCLK (16 R467, R470) -/

/-- Every open swath becomes position-doubtful now (05 R161). -/
def State.doubtAll (s : State) : State := s.each (List.range 16) (fun s q => s.makeDoubt q)

/-- Both VSAFE feeds are lost: the safe island stops under the fail-safe cause VSAFE_LOST (16 R467). -/
def State.vsafeDown (s : State) : State :=
  if s.safe.vsafe then s
  else
    let s := (s.hvDrop 0xFF).modPws (fun x => { x with vstRun := none, tripLatch := false })
    let s := (s.haltAll.causeSet 0x0D0C 6 (2 ^ 27) none (fun x => { x with vsafe := true })).trigStopAll
    s.doubtAll

/-- VSAFE_LOST (16 R467). -/
def State.vsafeLost (s : State) : State :=
  if s.phase == .off then s else ((s.setFeed 12 .failed).setFeed 13 .failed).vsafeDown

/-- VSAFE_RESTORE (16 R466, R467): a feed in window for 10 ms; the selector takes VSAFE_A where it is in window. The
island restarts with its counts at 0, DIR forward and STILL. -/
def State.vsafeRestore (s : State) : State :=
  let ok := fun f => (s.feed f).inWin && s.dueFree (s.feed f).since (10 * qMs)
  if !s.safe.vsafe || !(ok 12 || ok 13) then s
  else
    let a := (s.feed 12).inWin
    let f := if a then 12 else 13
    let s := s.setFeed f .active
    let s := s.when (s.feed (otherFeed f)).inWin (fun s => s.setFeed (otherFeed f) .sync)
    let s := { s with enc := Vector.ofFn (fun c : Fin 4 => { ab := (vget s.enc c).ab, z := (vget s.enc c).z }),
                      agenda := s.agenda.filter (fun d => d.what.scl.isNone),
                      fire := { s.fire with safeHighAt := if s.fire.safeIn then none else some s.now } }
    let s := s.modPws (fun x => { x with safeFeed := f - 12 })
    (s.postPws 0x0D0C 6).causeClear 0x0D0C 6 none (fun x => { x with vsafe := false })

/-- REFCLK_LOST (16 R470): HVEN is not dropped. -/
def State.refclkLost (s : State) : State :=
  if s.phase == .off || s.safe.refclk then s
  else
    let s := s.modPws (fun x => { x with refOk := false })
    (s.globalCause 0x0D08 (2 ^ 26) false (fun x => { x with refclk := true })).doubtAll

/-- REFCLK_RESTORE (16 R470).
[log 142: DEDUCED] -/
def State.refclkRestore (s : State) : State :=
  if !s.safe.refclk then s
  else (s.modPws (fun x => { x with refOk := true })).causeClear 0x0D08 0 none (fun x => { x with refclk := false })

/-! ## Feeds (16 R459-R465) -/

/-- A feed is FAILED: FEED_LOST, and the failure is counted.
[log 138: DEDUCED] -/
def State.feedLost (s : State) (f : Nat) : State :=
  ((s.setFeed f .failed).modRail (f / 2) (fun x => { x with fails := satAdd 16 x.fails 1 })).postPws 0x0D01 (f / 2) (wd f)

/-- A VSAFE test ends with VSRES (1 PASS, 2 NOSTART, 3 SAG): the selector returns to a feed that is still STANDBY, unless a
PASS is to stay, and VSAFE_TEST is posted (16 R468). Without one a lost feed stops the safe island (16 R467).
[log 139: DEDUCED] -/
def State.vstEnd (s : State) (res : Nat) : State :=
  let f := 12 + s.pws.safeFeed
  let back := (s.feed (otherFeed f)).st == .standby
  let s := s.modPws (fun x => { x with vstRun := none, vsRes := res })
  let s := if res = 1 then s else s.feedLost f
  let s := if !back || (res == 1 && s.pws.vstStay) then s
    else
      let s := if res = 1 then s.setFeed f .standby else s
      (s.setFeed (otherFeed f) .active).modPws (fun x => { x with safeFeed := 1 - x.safeFeed })
  let s := s.postSteward (s.ev 2 0x0D0D 6 none (wd res))
  s.when (res != 1 && !back) State.vsafeDown

/-- Frames on the lanes as a gap begins (16 R462, R463): they end with K30.7, and a line whose frame is cut is blank. -/
def State.gapCut (s : State) : State :=
  s.each (List.range 64) (fun s p =>
    let cut := (vget s.kl p).lane.filterMap (fun i => match i.item with
      | .line f => if s.now < i.at_ then some f.line else none
      | _ => none)
    (s.laneCut p (fun i => !itemFire i)).modFp p (fun f => { f with
      lines := f.lines.map (fun l => if cut.contains l.line then { l with framed := false, gap := true } else l) }))

/-- The carrying feed f of rail r is lost (16 R460, R461, R466): the other feed of a SHARED rail carries on; in STANDBY
mode a switch-over begins; the safe island's selector transfers. Without a ready feed the rail is lost, and with it the
device, or for VSAFE the safe island.
[log 139: DEDUCED] -/
def State.carrierLost (s : State) (f : Nat) : State :=
  let r := f / 2
  let o := s.feed (otherFeed f)
  if r = 6 then
    match s.pws.vstRun with
    | some t => s.vstEnd (if s.dueFree t qUs then 3 else 2)
    | none =>
      let s := s.feedLost f
      if o.st == .standby then
        (s.setFeed (otherFeed f) .active).modPws (fun x => { x with safeFeed := 1 - x.safeFeed })
      else s.vsafeDown
  else if !s.railStandby r then if o.st == .active then s.feedLost f else s.unpowered
  else if o.st != .standby then s.unpowered
  else
    let m := if r = 0 then 1 else 2
    let s := (s.feedLost f).setFeed (otherFeed f) .active
    let s := s.modRail r (fun x => { x with switches := satAdd 16 x.switches 1, testing := none })
    match s.pws.gap with
    | some g => s.modPws (fun x => { x with gap := some { g with rails := g.rails ||| m, trip := s.now } })
    | none => s.gapCut.modPws (fun x => { x with gap := some { since := s.now, rails := m, trip := s.now } })

/-- A feed trips or fails (16 R459). -/
def State.feedDown (s : State) (f : Nat) : State :=
  match (s.feed f).st with
  | .absent | .failed => s
  | .sync | .standby => (s.feedLost f).modRail (f / 2) (fun x => { x with testing := none })
  | .active => s.carrierLost f

/-- FEED_SYNC (16 R465): 100 ms of continuous window. -/
def State.feedSync (s : State) (f : Nat) : State :=
  let x := s.feed f
  if x.st == .sync && x.inWin && s.dueFree x.since (100 * qMs) then (s.setFeed f .standby).postPws 0x0D04 (f / 2) (wd f) else s

/-- FEED_TRIP (16 R459, R461): the other feed that completes its 100 ms in this cycle is STANDBY first (16 R478). -/
def State.feedTrip (s : State) (f : Nat) : State :=
  if s.phase == .off then s
  else ((s.feedSync (otherFeed f)).modFeed f (fun x => { x with inWin := false, since := s.now })).feedDown f

/-- FEED_FAIL: a feed has been outside its window for 100 µs (16 R459). -/
def State.feedFail (s : State) (f : Nat) : State :=
  let x := s.feed f
  if s.phase == .off || x.inWin || !s.dueFree x.since (100 * qUs) then s else s.feedDown f

/-- The currents of a SHARED rail depart from an equal share by more than SHARETOL % (16 R460).
[log 137: DESIGN CHOICE] -/
def State.imbalanced (s : State) (r : Nat) : Bool :=
  let a := s.feed (2 * r)
  let b := s.feed (2 * r + 1)
  a.st == .active && b.st == .active && !s.railStandby r && r < 6 &&
    s.rf feedCfgAddr 23 16 * (a.cur + b.cur) < 100 * (if a.cur < b.cur then b.cur - a.cur else a.cur - b.cur)

/-- The state of a feed after a sample (16 R459, R465): during cold start a feed in window comes up, later it waits in SYNC.
[log 136: DEDUCED] -/
def State.sampled (s : State) (f : Nat) (inWin : Bool) : FeedSt :=
  match (s.feed f).st, inWin with
  | .absent, true =>
    if s.phase == .cold then (if f / 2 = 6 && f % 2 ≠ s.pws.safeFeed then .standby else .active) else .sync
  | .failed, true => .sync
  | .sync, false => .failed
  | st, _ => st

/-- The nominal voltage of rail r in mV (16 R458), and its maximum current in 10 mA (19 R522). -/
def railMv (r : Nat) : Nat := [750, 850, 1200, 1100, 1800, 3300, 1800].getD r 0
def railMax (r : Nat) : Nat := [8500, 2000, 200, 500, 100, 32, 25].getD r 0

/-- A voltage of rail r within ±5 % of nominal (16 R459). -/
def inWindow (r mv : Nat) : Bool := 95 * railMv r ≤ 100 * mv && 100 * mv ≤ 105 * railMv r

/-- A current above 110 % of the maximum of rail r (19 R522). -/
def overLoad (r cur : Nat) : Bool := 110 * railMax r < 100 * cur

/-- FEED_MONITOR_SAMPLE (16 R459, R460; 19 R522), every 10 µs: voltage in mV, current in 10 mA. A feed whose current is above
110 % of the rail's maximum for 1 ms has failed. -/
def State.feedSample (s : State) (f mv cur : Nat) : State :=
  if s.phase == .off || !(s.feed f).sampAt.all (fun t => s.dueFree t (10 * qUs)) then s
  else
    let r := f / 2
    let inWin := inWindow r mv
    let s := s.modFeed f (fun x => { x with
      mv := mv, cur := cur, inWin := inWin, since := if x.inWin == inWin then x.since else s.now, sampAt := some s.now,
      overAt := if overLoad r cur then some (x.overAt.getD s.now) else none })
    let s := s.setFeed f (s.sampled f inWin)
    let s := s.when ((s.feed f).overAt.any (fun t => s.dueFree t qMs) && (s.feed f).ready) (fun s => s.feedDown f)
    s.modRail r (fun x => { x with imbalSince := if s.imbalanced r then some (x.imbalSince.getD s.now) else none })

/-- SHARE_IMBAL (16 R460): an imbalance of 1 s, posted at most once per hour and rail. -/
def State.shareImbal (s : State) (r : Nat) : State :=
  let x := vget s.pws.rails r
  match x.imbalSince with
  | none => s
  | some t =>
    let again := match x.imbalPosted with | none => true | some u => s.dueFree u (3600 * 1000 * qMs)
    if s.dueFree t (1000 * qMs) && again then
      (s.modRail r (fun x => { x with imbalPosted := some s.now })).postPws 0x0D0B r
    else s

/-- The standby feed of rail r, if it is ready (16 R464). -/
def State.standbyFeed (s : State) (r : Nat) : Option Nat := [2 * r, 2 * r + 1].find? (fun f => (s.feed f).st == .standby)

/-- LOAD_TRANSFER_TEST (16 R464): every TESTH hours in STANDBY mode. -/
def State.loadTest (s : State) (r : Nat) : State :=
  let x := vget s.pws.rails r
  if s.phase == .ready && s.railStandby r && x.testing.isNone && (s.standbyFeed r).isSome &&
      s.dueFree x.lastTest (s.rf feedCfgAddr 15 8 * 3600 * 1000 * qMs) then
    s.modRail r (fun x => { x with testing := some s.now, lastTest := s.now })
  else s

/-- The carrying feed of rail r trips in this very instant.
[log 6: DESIGN CHOICE] -/
def State.tripComes (s : State) (r : Nat) : Bool :=
  s.atOnce.any (fun c => match c with
    | .feedTrip _ f => f.val / 2 == r && (s.feed f).st == .active
    | _ => false)

/-- LOAD_TRANSFER_END after 10 ms; a trip of the active feed in the same cycle ends the test uncounted (16 R464, R478).
[log 138: DEDUCED] -/
def State.loadTestEnd (s : State) (r : Nat) (pass : Bool) : State :=
  match (vget s.pws.rails r).testing, s.standbyFeed r with
  | some t, some f =>
    if !s.dueFree t (10 * qMs) || s.tripComes r then s
    else if pass then
      (s.modFeed f (fun x => { x with xfer := 1 })).modRail r (fun x => { x with testing := none, tests := satAdd 16 x.tests 1 })
    else
      let s := (s.setFeed f .failed).modFeed f (fun x => { x with xfer := 2 })
      (s.modRail r (fun x => { x with testing := none, tfails := satAdd 16 x.tfails 1 })).postPws 0x0D05 r (wd f)
  | _, _ => s

/-- A ready feed is ACTIVE. -/
def State.feedUp (s : State) (f : Nat) : State := s.when (s.feed f).ready (fun s => s.setFeed f .active)

/-- A commit of FEEDCFG has replaced the word `old` (16 R465): a rail whose mode or PRIM changed takes its new roles.
[log 136: DEDUCED] -/
def State.feedModes (s : State) (old : Word) : State :=
  let new := s.reg feedCfgAddr
  s.each [0, 3] (fun s r =>
    let b := if r = 0 then 0 else 2
    if bits new (b + 1) b = bits old (b + 1) b then s
    else if s.railStandby r then
      let f := 2 * r + railPrim new r
      let s := s.feedUp f
      let s := s.when (s.feed (otherFeed f)).ready (fun s => s.setFeed (otherFeed f) .standby)
      s.modRail r (fun x => { x with lastTest := s.now, imbalSince := none })
    else
      ((s.feedUp (2 * r)).feedUp (2 * r + 1)).modRail r (fun x => { x with testing := none }))

/-- The feeds that a new FEEDCFG word needs are ready (16 R465). -/
def State.feedsReady (s : State) (new : Word) : Bool :=
  let old := s.reg feedCfgAddr
  [0, 3].all (fun r =>
    let b := if r = 0 then 0 else 2
    bits new (b + 1) b = bits old (b + 1) b ||
      (if bit new b then (s.feed (2 * r + railPrim new r)).ready
       else (s.feed (2 * r)).ready && (s.feed (2 * r + 1)).ready))

/-- RESHARE of rail r (16 R465). -/
def State.reshare (s : State) (r : Nat) : State :=
  if r < 6 && !s.railStandby r then
    match s.standbyFeed r with
    | some f => s.setFeed f .active
    | none => s
  else s

/-- VSTEST (16 R468): the conditions, else VSRES = REFUSED and nothing changes.
[log 139: DEDUCED] -/
def State.vsTest (s : State) (stay : Bool) : State :=
  let f := 12 + s.pws.safeFeed
  let ok := s.fire.safeIn && s.fire.hven.toList.all (· == false) && s.seq.toList.all (fun q => q.swst == .closed) &&
    s.ax.toList.all (fun x => !x.moving) && (s.feed (otherFeed f)).st == .standby && s.pws.vstRun.isNone
  if !ok then s.modPws (fun x => { x with vsRes := 4 })
  else
    let s := (s.setFeed f .standby).setFeed (otherFeed f) .active
    s.modPws (fun x => { x with safeFeed := 1 - x.safeFeed, vstRun := some s.now, vstStay := stay })

/-- VSAFE_TEST_END: 0 PASS after 10 s, 1 a trip in the transfer, 2 a trip in the 10 s (16 R468). -/
def State.vsTestEnd (s : State) (res : Nat) : State :=
  match s.pws.vstRun with
  | none => s
  | some t => if res = 0 && !s.dueFree t (10000 * qMs) then s else s.vstEnd (res + 1)

/-- PWS.FEEDCTL written by session n (16 R480, R481): the Steward's write alone. -/
def State.wrFeedCtl (s : State) (n : Nat) (v : Word) : State × Nat :=
  s.ifRight (s.isSteward n) n 0 (fun s =>
    let s := s.when (bit v 3) (fun s => s.modPws (fun x => { x with
      rails := x.rails.map (fun r => { r with switches := 0, fails := 0, tests := 0, tfails := 0 }) }))
    let s := s.when (bit v 0) (fun s => s.reshare (bits v 6 4))
    (s.when (bit v 1) (fun s => s.vsTest (bit v 2)), 0))

/-! ## Temperatures (16 R474) -/

/-- THERMTRIP_n falls and its latch is set: the outputs as under DIE_HOT (17 R491).
[log 140: DEDUCED] -/
def State.thermTrip (s : State) : State :=
  if s.phase == .off || s.pws.trip then s
  else
    let s' := (s.hvDrop 0xFF).modPws (fun x => { x with trip := true, tripLatch := true, thermPin := false })
    (s'.haltAll.trigStopAll).safeVecs s

/-- A sample of the die's temperature, uncorrected, taken by a running TEMPTRIM (15 R444): the hottest sensor's.
[log 128: DESIGN CHOICE] -/
def CalRun.sampled (u : CalRun) (t : Int) : CalRun :=
  if u.proc = 5 && u.st == .running then
    { u with tSum := u.tSum + t, tCnt := u.tCnt + 1, tLo := if u.tCnt = 0 then t else min u.tLo t,
             tHi := if u.tCnt = 0 then t else max u.tHi t }
  else u

/-- DIE_SENSOR_SAMPLE of 16 readings in 1/16 °C, every 1 ms, corrected by CAL.DTTRIM (16 R474). -/
def State.dieSample (s : State) (l : List Int) : State :=
  if s.phase == .off || !s.pws.dieAt.all (fun t => s.due t qMs) then s
  else
    let raw := l.foldl max (l.headD 0)
    let s := ({ s with cal := { s.cal with runs := s.cal.runs.map (fun u => u.sampled raw) } } : State).modPws (fun x => { x with
      dieAt := some s.now })
    let l := l.map (· + s.cal.dtTrim)
    let m := l.foldl max (l.headD 0)
    let i := (l.findIdx? (· == m)).getD 0
    let s := s.modPws (fun x => { x with tmax := m, sensor := i, h90 := if 1440 < m then x.h90 + 1 else x.h90 })
    let warn : Int := 16 * s.rf thCfgAddr 7 0
    let hot : Int := 16 * s.rf thCfgAddr 15 8
    let s :=
      if s.pws.warnOn then s.modPws (fun x => { x with warnOn := !decide (m < warn - 32) })
      else if warn ≤ m then (s.modPws (fun x => { x with warnOn := true })).postPws 0x0D06 0
      else s
    if s.safe.dieHot then
      if m < hot - 80 then s.causeClear 0x0D07 0 none (fun x => { x with dieHot := false }) else s
    else if hot ≤ m then s.globalCause 0x0D07 (2 ^ 25) true (fun x => { x with dieHot := true })
    else s

/-- Board sensor k read: BOARD_TEMP once per crossing, with 2 °C hysteresis; a threshold of 255 is off. -/
def State.boardOne (s : State) (k : Nat) (t : Int) (v : Bool) : State :=
  let thr := s.rf thCfgAddr (23 + 8 * k) (16 + 8 * k)
  let s := s.modPws (fun x => { x with td := vset x.td k t, tv := vset x.tv k v })
  if !v || thr = 255 then s
  else if vget s.pws.bWarn k then
    if t < 16 * (thr : Int) - 32 then s.modPws (fun x => { x with bWarn := vset x.bWarn k false }) else s
  else if 16 * (thr : Int) < t then (s.modPws (fun x => { x with bWarn := vset x.bWarn k true })).postPws 0x0D09 k
  else s

/-- BOARD_SENSOR_SAMPLE, every 10 ms (16 R474). -/
def State.boardSample (s : State) (t0 t1 : Int) (v0 v1 : Bool) : State :=
  if s.phase == .off || !s.pws.boardAt.all (fun t => s.due t (10 * qMs)) then s
  else ((s.boardOne 0 t0 v0).boardOne 1 t1 v1).modPws (fun x => { x with boardAt := some s.now })

/-- MGMT_LOST (17 R493): no heartbeat for 500 ms; it holds until a warm reset.
[log 147: DEDUCED] -/
def State.mgmtLost (s : State) : State :=
  if s.phase != .ready || s.safe.mgmt then s
  else (s.globalCause 0x0F02 (2 ^ 28) true (fun x => { x with mgmt := true })).modSafe
    (fun x => { x with mgmtDown := some (x.mgmtDown.getD s.now) })

/-! ## Start-up (16 R472, R473; 13 R389-R394; 15 R453) -/

/-- The longest run of passing codes of a sweep (13 R393): its first code and its length; of equal ones the first.
[log 111: DESIGN CHOICE] -/
def eyeRun (pass : BitVec 256) : Nat × Nat :=
  let z := (List.range 256).foldl (fun (z : Nat × Nat × Nat) i =>
    if pass.getLsbD i then
      let k := z.2.2 + 1
      if z.2.1 < k then (i + 1 - k, k, k) else (z.1, z.2.1, k)
    else (z.1, z.2.1, 0)) (0, 0, 0)
  (z.1, z.2.1)

/-- The midpoint of a run, rounded down (13 R393); of a sweep without a passing code the spec gives none.
[log 111: DESIGN CHOICE] -/
def eyeCentre (r : Nat × Nat) : Nat := if r.2 = 0 then Config.noCentre.val else r.1 + (r.2 - 1) / 2

/-- The plausibility check of a sweep (13 R394). -/
def sweepOk (trmin : Nat) (r : Nat × Nat) : Bool := trmin ≤ r.2 && 0 < r.2 && r.1 ≠ 0 && r.1 + r.2 ≤ 255

/-- The TRRES word that a lane's read and write sweeps give (13 R393, R394, R420). -/
def laneResult (trmin : Nat) (sw : BitVec 256 × BitVec 256) : Word :=
  let a := eyeRun sw.1
  let b := eyeRun sw.2
  fields [(0, 7, sat 7 a.2), (8, 8, eyeCentre a), (16, 7, sat 7 b.2), (24, 8, eyeCentre b),
    (32, 1, b1 (sweepOk trmin a && sweepOk trmin b))]

/-- Channel ch trained with the sweep results of its ten lanes. -/
def State.trainChan (s : State) (lanes : List (BitVec 256 × BitVec 256)) (ch : Nat) : State :=
  let trmin := s.rf chCfgAddr 30 24
  let l := (List.range 10).map (fun i => laneResult trmin (lanes.getD (10 * ch + i) (0, 0)))
  let ok := l.all (fun w => bit w 32)
  let eye := (l.flatMap (fun w => [bits w 6 0, bits w 22 16])).foldl min 127
  (s.modCh ch (fun c => { c with
    st := if ok then .trained else .failed, minEye := eye, lastRef := s.now, lastReq := Vector.replicate 2 s.now,
    trres := Vector.ofFn (fun i : Fin 10 => l.getD i 0) })).modMem
      (fun m => { m with chFail := if ok then m.chFail else m.chFail ||| 2 ^ ch })

/-- The configuration is one of those that the device accepts (13 R389). -/
def dramSupported (cap mts : Nat) : Bool := 16 ≤ cap && cap ≤ 64 && (mts = 6400 || mts = 5600 || mts = 4800)

/-- DRAM training (13 R389, R393, R394). -/
def State.train (s : State) (cap ranks mts : Nat) (lanes : List (BitVec 256 × BitVec 256)) : State :=
  let s := s.modMem (fun m => { m with chCap := cap, ranks := ranks, mts := mts })
  if !dramSupported cap mts then s.modSafe (fun x => { x with trainFail := true })
  else
    let s := s.each (List.range 4) (fun s ch => s.trainChan lanes ch)
    if s.mem.chFail = 0 then s.modMem (fun m => { m with dok := true }) else s.modSafe (fun x => { x with trainFail := true })

/-- The soft repairs that a record of macro k lists (13 R408; 15 R453): three bytes each, row and spare row.
[log 122: DESIGN CHOICE] -/
def softRepairs : Nat → List Byte → List (Nat × Nat)
  | k, a :: b :: c :: l => (512 * k + leNat [a, b] % 512, c.toNat) :: softRepairs k l
  | _, _ => []

/-- The NV load (15 R453; 16 R472): soft repairs, key slots and TEMPTRIM. -/
def State.nvLoad (s : State) : State :=
  let s := s.each (those 1536 (fun k => !(s.nvCells (0x020000 + 256 * k) 256).isEmpty)) (fun s k =>
    let r := s.nvRead (0x100 + k)
    let l := softRepairs k (r.2.getD [])
    r.1.modMem (fun m => { m with
      rows := l.foldl (fun a x => SMap.put a x.1 x.2) m.rows, 
      spares := SMap.set m.spares 0 k (l.foldl (fun a x => max a (x.2 + 1)) 0 - fusedSpares k), soft := m.soft + l.length }))
  let s := s.each (List.range 16) (fun s k =>
    let r := s.nvRead k
    let slot : KeySlot := match r.2 with
      | some (c :: key) => if key.length = 32 then { used := true, key := key, ceil := c.toNat % 4 } else {}
      | _ => {}
    { r.1 with keys := vset r.1.keys k slot })
  let r := s.nvRead 0x1200
  { r.1 with cal := { r.1.cal with dtTrim := match r.2 with | some l => signedN 16 (leAt l 0 2) | none => 0 } }

/-- A row that the destructive test finds failing is repaired, or recorded with "no spare" (13 R415). The bit and the
element of the failure are free values.
[log 111: DESIGN CHOICE] -/
def State.bistRow (s : State) (key : Nat) : State :=
  let w := key / 512 * 8192 + key % 512 * 16
  let d := s.draw
  let r := d.1.repairRow w none
  let rec_ := fields [(0, 24, w), (24, 7, bits d.2 5 0), (32, 3, bits d.2 8 6 % 6), (36, 2, if r.2 then 1 else 2)]
  r.1.modMem (fun m => { m with bistRec := rec_ })

/-- The boot ROM's choice of a firmware bank (16 R473): the selected one, else the other, else none. -/
def bootBank (sel min : Nat) (ok : Vector Bool 2) (ver : Vector (Fin 65536) 2) : Option Nat :=
  let good := fun b => vget ok b && min ≤ (vget ver b).val
  if good sel then some sel else if good (1 - sel) then some (1 - sel) else none

/-- COLD_START (16 R472): PORST_n rises. Its steps up to step 11 run, or start-up ends in BOOTFAIL.
[log 134: DESIGN CHOICE] -/
def State.coldStart (s : State) (pins : Nat) (cap ranks mts : Nat) (lanes : List (BitVec 256 × BitVec 256)) (vsafeA : Bool) (ok : Vector Bool 2)
    (ver : Vector (Fin 65536) 2) (badRows : List Nat) : State :=
  if !(s.phase == .off || (s.phase == .cold && s.pws.step == 0)) then s
  else
    let trip := s.pws.tripLatch
    let s := { s.unpowered with phase := .cold }
    let f := if vsafeA then 12 else 13
    let s := s.modPws (fun x => { x with tripLatch := false, bootTrip := trip, bootAt := s.now, safeFeed := f - 12, refOk := true })
    let s := (s.modFeed f (fun x => { x with st := .active, inWin := true, since := s.now })).modSafe
      (fun x => { x with colds := satAdd 16 x.colds 1 })
    let s := s.modXlt (fun x => { x with bifurc := if pins = 3 then 0 else pins, bifBad := pins == 3 })
    let s := s.nvLoad.each badRows (fun s k => if k < 786432 then s.bistRow k else s)
    match bootBank s.pws.fwSel s.pws.fwMin ok ver with
    | none => { s with phase := .bootFail }.modPws (fun x => { x with step := 4, bootFail := true })
    | some b =>
      let s := s.modPws (fun x => { x with
        bank := b, fallback := b != x.fwSel, fwBank := b, fwVer := (vget ver b).val, fwOther := (vget ver (1 - b)).val, step := 11 })
      s.train cap ranks mts lanes

/-- The timers that count from READY. -/
def State.readyTimers (s : State) : State :=
  { s with
    tickBase := s.now, tim := {}, eng := s.eng.map (fun g => { g with dictAt := s.now }),
    mem := { s.mem with lastWin := s.now, ch := s.mem.ch.map (fun c => { c with lastRef := s.now, lastReq := Vector.replicate 2 s.now }) },
    pws := { s.pws with rails := s.pws.rails.map (fun r => { r with lastTest := s.now }) } }

/-- DEVICE_READY (16 R472; 17 R498): the end of a cold or warm start.
[log 134: DESIGN CHOICE] -/
def State.deviceReady (s : State) : State :=
  let ms := (s.now - s.pws.bootAt) / qMs
  if s.phase == .cold && s.pws.step == 11 then
    let s' := { s.readyTimers with phase := .ready }.modPws (fun x => { x with step := 15, bootMs := sat 16 ms })
    (s'.raiseAll 1024).safeVecs s
  else if s.phase == .warm then
    let s' := { s.readyTimers with phase := .ready }.modPws (fun x => { x with step := 15 })
    let s' := s'.modSafe (fun x => { x with warms := satAdd 16 x.warms 1, warmMs := sat 16 ms })
    (s'.raiseAll 1024).safeVecs s
  else s

/-! ## Warm reset (17 R498, R500) -/

/-- An axis through a warm reset: its enable, position and phase stay; it is HELD, and a moving one loses HOMED and owes
HALT_LOSS to the first session that claims it.
[log 83: DEDUCED] -/
def Axis.warm (x : Axis) : Axis :=
  { st := if x.st == .disabled then .disabled else .held, homed := x.homed && !x.moving, pos := x.pos, phase := x.phase,
    level := x.level, back := x.back, owed := x.owed || x.moving }

/-- An address of the firmware image banks (13 R391). -/
def inImageBanks (a : Nat) : Bool := 0x02000000 ≤ a && a < 0x06000000

/-- The memory blocks through a warm reset: training, repairs and retired pages stay; every other page is to be filled.
[log 135: DEDUCED] -/
def MemSt.warm (m : MemSt) : MemSt :=
  { dok := m.dok, chFail := m.chFail, chCap := m.chCap, ranks := m.ranks, mts := m.mts,
    retired := m.retireDue.foldl (fun l p => addOnce p l) m.retired,
    ch := m.ch.map (fun c => { st := if c.st == .retrain then .trained else c.st, minEye := c.minEye, trres := c.trres }) }

/-- The device as a warm reset leaves it, before the calibration and repair records are loaded (17 R498, R500): what
the safe island holds, the heads, the axes, MSI-X, training and repairs and the image banks stay.
[log 135: DEDUCED] -/
def State.warmed (s : State) : State :=
  let probe := s.pws.fwBank != s.pws.fwSel && s.pws.fwSt == .probation
  let axes := fun (a : Nat) => 0x03500100 ≤ a && a < 0x03500180
  { State.reset with
    pending := s.pending, now := s.now, out := s.out, draws := s.draws, hostMem := s.hostMem, nv := s.nv, phase := .warm,
    enc := s.enc, agenda := sclOnly s.agenda, msix := s.msix, head := s.head, ax := s.ax.map Axis.warm, mem := s.mem.warm,
    dram := s.dram.filter (fun c => inImageBanks c.1),
    dramUe := s.dramUe.filter (fun w => inImageBanks (4 * w)),
    dramCe := s.dramCe.filter (fun w => inImageBanks (4 * w)),
    fire := { safeIn := s.fire.safeIn, safeHighAt := s.fire.safeHighAt },
    mgt := { live := s.mgt.live.filter (fun x => axes x.1) },
    xlt := { bifurc := s.xlt.bifurc, bifBad := s.xlt.bifBad },
    safe := { s.safe with emerg := 0, tmax := 0, mgmt := false, mgmtDown := none, latch := s.safe.latch ||| 2 ^ 29 },
    pws := { s.pws with
      rails := Vector.replicate 7 {}, gap := none, gapRec := 0, lastGap := (0, 0), gaps := [], dieAt := none, boardAt := none, vsRes := 0, tmax := 0, sensor := 0,
      warnOn := false, td := Vector.replicate 2 0, tv := Vector.replicate 2 false, bWarn := Vector.replicate 2 false,
      step := 11, bootAt := s.now, fwSt := .idle, fwAt := 0, fwMsg := none, fwWait := none,
      fwBank := if probe then s.pws.fwSel else s.pws.fwBank,
      fwVer := if probe then s.pws.fwOther else s.pws.fwVer,
      fwOther := if probe then s.pws.fwVer else s.pws.fwOther } }

/-- WARM_RESET (17 R498, R500): the rows that the destructive test finds failing are repaired (13 R415).
[log 135: DEDUCED] -/
def State.warmReset (s : State) (badRows : List Nat) : State :=
  if !(s.phase == .ready || s.phase == .warm) then s
  else (s.warmed.nvLoad.each badRows (fun s k => if k < 786432 then s.bistRow k else s)).safeVecs s

/-- PORST_N_LOW (16 R471). -/
def State.porstLow (s : State) : State := s.unpowered

/-! ## Read words (16 R481; 17 R504) -/

def State.pwsGstat (s : State) : Word :=
  let redun := maskN 7 (fun r => (s.feed (2 * r)).ready && (s.feed (2 * r + 1)).ready)
  fields [(0, 7, redun), (7, 1, s.pws.safeFeed), (8, 1, b1 s.pws.refOk), (9, 1, b1 s.safe.dieHot),
    (10, 1, b1 s.pws.vstRun.isSome), (11, 3, s.pws.vsRes)]
def State.dieStat (s : State) : Word :=
  fields [(0, 16, cutN 16 s.pws.tmax), (16, 4, s.pws.sensor), (32, 32, sat 32 (s.pws.h90 / 3600000))]
def State.boardT (s : State) : Word :=
  fields [(0, 16, cutN 16 (vget s.pws.td 0)), (16, 1, b1 (vget s.pws.tv 0)), (32, 16, cutN 16 (vget s.pws.td 1)),
    (48, 1, b1 (vget s.pws.tv 1))]
def State.bootStat (s : State) : Word :=
  fields [(0, 4, s.pws.step), (4, 1, s.pws.bank), (5, 1, b1 s.pws.fallback), (6, 1, b1 s.pws.bootFail),
    (7, 1, b1 s.pws.bootTrip), (16, 16, s.pws.bootMs)]
def fwCode : FwSt → Nat
  | .idle => 0 | .staging => 1 | .switching => 2 | .probation => 3
def State.fwStat (s : State) : Word :=
  fields [(0, 1, s.pws.fwBank), (1, 1, b1 s.pws.fwStaged), (2, 2, fwCode s.pws.fwSt), (16, 16, s.pws.fwVer),
    (32, 16, s.pws.fwOther), (48, 16, s.pws.fwMin)]
def feedCode : FeedSt → Nat
  | .absent => 0 | .sync => 1 | .active => 2 | .standby => 3 | .failed => 4
def State.feedStat (s : State) (f : Nat) : Word :=
  let x := s.feed f
  fields [(0, 3, feedCode x.st), (8, 16, x.mv), (32, 16, x.cur), (48, 2, x.xfer)]
def State.railCnt (s : State) (r : Nat) : Word :=
  let x := vget s.pws.rails r
  fields [(0, 16, x.switches), (16, 16, x.fails), (32, 16, x.tests), (48, 16, x.tfails)]
def State.ladder (s : State) : Word := fields [(0, 16, s.safe.warms), (16, 16, s.safe.warmMs), (32, 16, s.safe.colds)]

/-! ## Commands -/

def execFeedMonitorSample (e : Env) (f : Fin 14) (mv cur : Fin 65536) (s : State) : Host.Outcome State Fault Refusal :=
  .next ((s.arrive e).feedSample f mv cur)
def execFeedTrip (e : Env) (f : Fin 14) (s : State) : Host.Outcome State Fault Refusal := .next ((s.arrive e).feedTrip f)
def execFeedFail (e : Env) (f : Fin 14) (s : State) : Host.Outcome State Fault Refusal := .next ((s.arrive e).feedFail f)
def execFeedSync (e : Env) (f : Fin 14) (s : State) : Host.Outcome State Fault Refusal := .next ((s.arrive e).feedSync f)
def execShareImbal (e : Env) (r : Fin 7) (s : State) : Host.Outcome State Fault Refusal := .next ((s.arrive e).shareImbal r)
def execLoadTransferTest (e : Env) (r : Fin 7) (s : State) : Host.Outcome State Fault Refusal := .next ((s.arrive e).loadTest r)
def execLoadTransferEnd (e : Env) (r : Fin 7) (pass : Bool) (s : State) : Host.Outcome State Fault Refusal :=
  .next ((s.arrive e).loadTestEnd r pass)
def execFeedReshare (e : Env) (w : Writer) (r : Fin 7) (s : State) : Host.Outcome State Fault Refusal :=
  .next ((s.arrive e).asWriter w false (fun s n => s.wrFeedCtl n (fields [(0, 1, 1), (4, 3, r)])))
def execVsafeTest (e : Env) (w : Writer) (stay : Bool) (s : State) : Host.Outcome State Fault Refusal :=
  .next ((s.arrive e).asWriter w false (fun s n => s.wrFeedCtl n (fields [(1, 1, 1), (2, 1, b1 stay)])))
def execVsafeTestEnd (e : Env) (res : Fin 3) (s : State) : Host.Outcome State Fault Refusal := .next ((s.arrive e).vsTestEnd res)
def execPwsClrcnt (e : Env) (w : Writer) (s : State) : Host.Outcome State Fault Refusal :=
  .next ((s.arrive e).asWriter w false (fun s n => s.wrFeedCtl n 8))
def execVsafeLost (e : Env) (s : State) : Host.Outcome State Fault Refusal := .next (s.arrive e).vsafeLost
def execVsafeRestore (e : Env) (s : State) : Host.Outcome State Fault Refusal := .next (s.arrive e).vsafeRestore
def execRefclkLost (e : Env) (s : State) : Host.Outcome State Fault Refusal := .next (s.arrive e).refclkLost
def execRefclkRestore (e : Env) (s : State) : Host.Outcome State Fault Refusal := .next (s.arrive e).refclkRestore
def execThermtrip (e : Env) (s : State) : Host.Outcome State Fault Refusal := .next (s.arrive e).thermTrip
def execMgmtLost (e : Env) (s : State) : Host.Outcome State Fault Refusal := .next (s.arrive e).mgmtLost
def execPorstNLow (e : Env) (s : State) : Host.Outcome State Fault Refusal := .next (s.arrive e).porstLow
def execDeviceReady (e : Env) (s : State) : Host.Outcome State Fault Refusal := .next (s.arrive e).deviceReady
def execDieSensorSample (e : Env) (readings : Vector Int 16) (s : State) : Host.Outcome State Fault Refusal :=
  .next ((s.arrive e).dieSample readings.toList)
def execBoardSensorSample (e : Env) (td0 td1 : Int) (v0 v1 : Bool) (s : State) : Host.Outcome State Fault Refusal :=
  .next ((s.arrive e).boardSample td0 td1 v0 v1)
def execColdStart (e : Env) (bifPins : Fin 4) (chCap : Nat) (ranks : Fin 2) (mts : Nat) (lanes : List (BitVec 256 × BitVec 256)) (vsafeA : Bool)
    (bankOk : Vector Bool 2) (ver : Vector (Fin 65536) 2) (badRows : List Nat) (s : State) : Host.Outcome State Fault Refusal :=
  .next ((s.arrive e).coldStart bifPins chCap ranks mts lanes vsafeA bankOk ver badRows)
/-- An image in DRAM that fails authentication is read again from the flash, which takes time alone (17 R498). -/
def execWarmReset (e : Env) (_bankOk : Bool) (badRows : List Nat) (s : State) : Host.Outcome State Fault Refusal :=
  .next ((s.arrive e).warmReset badRows)

end Sys2Proof.Machine
end

