-- ==== Sys2Proof/Machine/Commit.lean ====
section
/-! DEFINITION. Commits (12 R361-R378): the staged set, acceptance, validation, readiness and what takes effect at the commit point. -/
namespace Sys2Proof.Machine
open Sys2Proof

/-! ## The staged set -/

/-- The staged words of a list of units. -/
def State.wordsOf (s : State) (units : List Nat) : SMap Word := s.mgt.staged.filter (fun x => units.contains (unitAt x.1))

/-- A word as it would be with the set in force. -/
def State.withSet (s : State) (words : SMap Word) (a : Nat) : Word := (SMap.find words a).getD (s.reg a)

/-- A staged register, which takes an entry of the register shadow; table words take none (12 R367). -/
def isShadow (a : Nat) : Bool := match regAt a with | some r => !r.table | none => false

/-- Shadow entries that session n holds, and those in use (12 R367, R387). -/
def State.entries (s : State) (n : Nat) : Nat :=
  let g := (s.ses n).stage
  ((s.wordsOf (g.units ++ g.sealedUnits)).filter (fun x => isShadow x.1)).length
def State.shadowUsed (s : State) : Nat := (s.mgt.staged.filter (fun x => isShadow x.1)).length

/-! ## Acceptance (12 R369, R370) -/

/-- A request of session n for sequencer q at line L refused at acceptance: its code and line posted (12 R378).
[log 99: DEDUCED] -/
def State.commitRefuse (s : State) (n q line code : Nat) : State :=
  s.postTo n (s.ev 9 code q (some q) 0 0 (some line))

/-- A commit request of session n for sequencer q at line L: its code, 0 where it is accepted and the set is sealed. A
refusal for an OVERFLOW set is also the outcome in CREC (12 R388).
[log 99: DEDUCED] -/
def State.commitAccept (s : State) (n q line : Nat) (cas : Bool) (base : Nat) (prog : Bool) : State × Nat :=
  let g := (s.ses n).stage
  if (s.ses n).req.isSome then (s.commitRefuse n q line 0x0115, 0x0115)
  else if g.overflow then
    ((s.modSess n (fun x => { x with crec := crecWord 0 4 false q prog 0x0111 })).commitRefuse n q line 0x0111, 0x0111)
  else
    let r : Req := { seq := q, line := line, cas := cas, base := base, program := prog, at_ := s.now }
    (s.modSess n (fun x => { x with
      req := some r, crec := crecWord 0 1 false q prog 0,
      stage := { x.stage with sealedUnits := x.stage.units, units := [], isSealed := true } }), 0)

/-- The request of a program (03 R90): its outcome in COMMITREC and COMMIT_WD; answers whether it was accepted.
[log 99: DEDUCED] -/
def State.commitProgram (s : State) (n q line : Nat) (cas : Bool) (base : Nat) : State × Bool :=
  let r := s.commitAccept n q line cas base true
  if r.2 = 0 then (r.1.modSeq q (fun x => { x with commitRec := fields [(32, 3, 1)], commitBy := some n }), true)
  else if r.2 = 0x0111 then
    (r.1.modSeq q (fun x => { x with commitRec := fields [(32, 3, 4), (48, 16, r.2)], commitBy := none })
      |>.setEv q 0x200, false)
  else (r.1, false)

/-! ## Validation (12 R371) -/

/-- x lies from lo to hi. -/
def inr (x lo hi : Nat) : Bool := lo ≤ x && x ≤ hi

/-- The 16-bit entries of a word. -/
def halves (w : Word) : List Nat := [bits w 15 0, bits w 31 16, bits w 47 32, bits w 63 48]

/-- FIR words (06 R205-R208). `view` is the state with the set in force. -/
def firOk (view : Nat → Word) (a : Nat) (w : Word) : Bool :=
  if a = 0x02800010 then inr (bits w 9 0) 1 1000
  else if inr a 0x02800100 0x028002FF then inr (bits w 3 0) 1 8
  else if inr a 0x02800300 0x028004FF then inr (bits w 15 0) 1 65535 && inr (bits w 23 16) 20 255
  else if inr a 0x02800500 0x028006FF then
    inr (bits w 19 16) 1 15 && bits w 19 16 < bits w 7 0 && bits w 7 0 < bits w 15 8 && bits w 15 8 ≤ 150
  else if inr a 0x02800700 0x028008FF then
    (List.range 6).all (fun i => bits w (8 * i + 7) (8 * i) ≤ bits w (8 * i + 15) (8 * i + 8))
  else if inr a 0x02900000 0x0293FFFF then
    let p := (a - 0x02900000) / 16 % 64
    let b := a / 16 * 16
    let rt := bits (view (0x02800100 + 8 * p)) 3 0
    let d := (halves (view b) ++ halves (view (b + 8))).map (· % 4096)
    d.headD 0 = 0 && (List.range 7).all (fun k => rt ≤ k + 1 || d.getD k 0 ≤ d.getD (k + 1) 0)
  else if inr a 0x02A00000 0x02A1FFFF then bits w 17 11 ≤ bits w 10 4
  else true

/-- KL words (07 R236, R247). -/
def klOk (a : Nat) (w : Word) : Bool :=
  if inr a 0x03000100 0x030002FF then inr (bits w 23 16) 20 255
  else if inr a 0x03000300 0x030004FF then bits w 3 0 + bits w 12 8 + 24 ≤ 63
  else true

/-- SSI parameters (05 R149, R168). -/
def ssiOk (w : Word) : Bool :=
  inr (bits w 5 0) 8 32 && inr (bits w 15 8) 19 255 && 50 ≤ bits w 31 16 && inr (bits w 47 40) 1 255 &&
    (bits w 5 0 + 1) * (bits w 15 8 + 1) * 2 ≤ 10 * bits w 31 16

/-- POS words (05 R167, R168). -/
def posOk (view : Nat → Word) (a : Nat) (w : Word) : Bool :=
  if inr a 0x03400000 0x0340001F then inr (bits w 21 8) 1 10000 && (!bit w 0 || ssiOk (view (a + 0x40)))
  else if inr a 0x03400040 0x0340005F then !bit (view (a - 0x40)) 0 || ssiOk w
  else true

/-- The levels of RESCFG (10 R310, R311, R326): every RES is at most 5; in use, TH and RES rise, and no level steps above
5 MHz. -/
def levelsOk (res prof : Word) : Bool :=
  let th := fun i => bits res (11 + 16 * i) (16 * i - 4)
  let r := fun i => bits res (3 * i + 2) (3 * i)
  let top := if th 1 = 0 then 0 else if th 2 = 0 then 1 else if th 3 = 0 then 2 else 3
  let speed := fun i => if i < top then th (i + 1) * 4096 else bits prof 63 32
  (List.range 4).all (fun i => r i ≤ 5) && (List.range (top + 1)).all (fun i => (i = 0 || (r (i - 1) < r i && (i = 1 || th (i - 1) < th i))) &&
    20 * speed i ≤ 2 ^ 32 * 2 ^ r i)

/-- MOT words (10 R309-R311, R326).
[log 81: DEDUCED] -/
def motOk (view : Nat → Word) (a : Nat) (w : Word) : Bool :=
  if inr a 0x03500100 0x0350013F then inr (bits w 7 4) 1 10 && inr (bits w 15 8) 1 255
  else if inr a 0x03500140 0x0350017F then levelsOk w (view (a + 0x40))
  else if inr a 0x03500180 0x035001BF then
    inr (bits w 31 0) 1 (2 ^ 31) && bits w 63 32 ≤ 2 ^ 31 && levelsOk (view (a - 0x40)) w
  else true

/-- CAM words (08 R279-R284): PORTCFG only with EN = 1, vision ranges only with NBINS ≠ 0. -/
def camOk (view : Nat → Word) (a : Nat) (w : Word) : Bool :=
  let vision := fun (out port : Word) =>
    bits out 31 16 = 0 || (bits out 31 16 ≤ 16384 && bits out 15 12 + 1 ≤ bits port 47 32)
  if inr a 0x03600100 0x0360011F then
    !bit w 0 || (bits w 9 6 ≤ 8 && (!bit w 5 || bits w 9 6 = 0) && bits w 12 10 ≤ 4 &&
      inr (bits w 30 16) 16 16384 && bits w 30 16 % 2 = 0 && 1 ≤ bits w 47 32 &&
      (bits w 12 10 = 0 || bits w 47 32 % 2 = 0) && vision (view (a + 0x80)) w)
  else if inr a 0x03600120 0x0360013F then 1 ≤ bits w 15 8 && (!bit w 32 || 1 ≤ bits w 63 40)
  else if inr a 0x03600160 0x0360017F then bits w 9 8 ≠ 3 && 1 ≤ bits w 55 40
  else if inr a 0x03600180 0x0360019F then vision w (view (a - 0x80))
  else if inr a 0x03600300 0x0360037F then bits w 4 0 = 0 || inr (bits w 4 0) 16 30
  else if inr a 0x03700000 0x0370FFFF then a % 64 ≠ 0 || bits w 7 0 ≤ 15
  else if inr a 0x06600000 0x0661FFFF then
    let nb := bits (view (0x03600180 + 8 * ((a - 0x06600000) / 32768))) 31 16
    nb = 0 || (halves w).all (· ≤ nb)
  else true

/-- A POL word (09 R289, R304). -/
def polOk (w : Word) : Bool :=
  1 ≤ bits w 15 0 && (bit w 17 || 1 ≤ bits w 20 18) && 1 ≤ bits w 31 24 && 1 ≤ bits w 35 32 && bits w 41 40 ≠ 3

/-- A BINMAP entry (09 R286). -/
def binOk (e : Nat) : Bool := bitsN e 28 24 ≤ 16 && bitsN e 12 0 + bitsN e 28 24 ≤ 8192

/-- HLT words (09 R303-R305): POL only of a map set that a sequencer with EN = 1 names. -/
def hltOk (view : Nat → Word) (a : Nat) (w : Word) : Bool :=
  if inr a 0x03800100 0x0380017F then !bit w 0 || polOk (view (0x03800180 + 8 * bits w 2 1))
  else if inr a 0x03800180 0x0380019F then
    let m := (a - 0x03800180) / 8
    polOk w || !(List.range 16).any (fun q => let c := view (0x03800100 + 8 * q); bit c 0 && bits c 2 1 == m)
  else if inr a 0x03800200 0x038003FF then inr (bits w 3 1) 1 7
  else if inr a 0x03900000 0x039FFFFF then binOk (bits w 31 0) && binOk (bits w 63 32)
  else if inr a 0x03D00000 0x03D03FFF then
    a % 16 = 0 || (inr (bits w 7 0) 1 64 && inr (bits w 15 8) 1 64)
  else true

/-- MEM words (13 R419). -/
def memOk (a : Nat) (w : Word) : Bool :=
  if a = chCfgAddr then bits w 12 10 ≤ 4 && 1 ≤ bits w 23 16 && inr (bits w 30 24) 4 48
  else if a = sdCfgAddr then 100 ≤ bits w 23 8 && 1 ≤ bits w 31 24
  else true

/-- TIM words (14 R437, R438). -/
def timOk (a : Nat) (w : Word) : Bool :=
  if a = ptpAddr then
    bits w 3 2 ≠ 3 && bits w 15 8 ≤ 239 && (let d := signedN 8 (bits w 23 16); -7 ≤ d && d ≤ 5) &&
      inr (bits w 27 24) 2 10 && inr (bits w 31 28) 2 15
  else if a = servoAddr then 1 ≤ bits w 23 8 && 1 ≤ bits w 39 24
  else true

/-- PWS words (16 R481). -/
def pwsOk (a : Nat) (w : Word) : Bool :=
  let board := fun x => x ≤ 150 || x = 255
  if a = feedCfgAddr then 1 ≤ bits w 15 8 && inr (bits w 23 16) 5 50
  else if a = thCfgAddr then
    inr (bits w 7 0) 60 120 && inr (bits w 15 8) 90 120 && bits w 7 0 < bits w 15 8 && board (bits w 23 16) && board (bits w 31 24)
  else true

/-- The CFGRANGE code that a staged word earns, or 0.
[log 98: DEDUCED] -/
def rangeCode (view : Nat → Word) (a : Nat) (w : Word) : Nat :=
  let c := fun (ok : Bool) (code : Nat) => if ok then 0 else code
  if inr a 0x02800000 0x02FFFFFF then c (firOk view a w) 0x050A
  else if inr a 0x03000000 0x033FFFFF then c (klOk a w) 0x060C
  else if inr a 0x03400000 0x034FFFFF then c (posOk view a w) 0x070C
  else if inr a 0x03500000 0x035FFFFF then c (motOk view a w) 0x0809
  else if inr a 0x03600000 0x037FFFFF || inr a 0x06200000 0x067FFFFF then c (camOk view a w) 0x090B
  else if inr a 0x03800000 0x03FFFFFF then c (hltOk view a w) 0x0A09
  else if inr a 0x04000000 0x047FFFFF then c (memOk a w) 0x0B0E
  else if inr a 0x05000000 0x050FFFFF then c (timOk a w) 0x0C07
  else if inr a 0x05100000 0x051FFFFF then c (pwsOk a w) 0x0D0A
  else 0

/-- Table words in force whose check depends on a register of the set: row-delay sets on RT, bins on NBINS.
[log 98: DEDUCED] -/
def State.dependents (s : State) (words : SMap Word) : SMap Word :=
  s.mgt.live.filter (fun x =>
    (inr x.1 0x02900000 0x0293FFFF && (SMap.find words (0x02800100 + 8 * ((x.1 - 0x02900000) / 16 % 64))).isSome) ||
    (inr x.1 0x06600000 0x0661FFFF && (SMap.find words (0x03600180 + 8 * ((x.1 - 0x06600000) / 32768))).isSome))

/-- The reference-mode limits (07 R235). -/
def refLimitsOk (view : Nat → Word) : Bool :=
  let users := fun n => countN 64 (fun p => let w := view (0x03000100 + 8 * p); bit w 1 && bits w 4 2 == n)
  (List.range 8).all (fun n => users n ≤ 2 && (users n == 0 || bit (view 0x03000008) n))

/-- A port is in the maps of two sequencers (02 R23). -/
def overlaps (view : Nat → Word) : Bool :=
  (List.range 64).any (fun p => 2 ≤ countN 16 (fun q => bit (view (0x01000180 + 8 * q)) p))

/-- The 16 pages of an energy-table region, pinned for session n (06 R180); none where a page does not translate or lies
outside device DRAM. -/
def State.pinPages (s : State) (n p : Nat) (w : Word) : State × Option (List Nat) :=
  if !bit w 0 then (s, some [])
  else match s.access n 2 p false (bits w 47 20 * 2 ^ 20) (2 ^ 20) with
  | (s, .error _) => (s, none)
  | (s, .ok l) => (s, if l.all (·.dram) then some (l.map (fun x => x.addr / 65536)) else none)

/-- The ports whose ETBASE a set changes. -/
def State.etbPorts (s : State) (words : SMap Word) : List Nat :=
  those 64 (fun p => match SMap.find words (etBase p) with | some w => w != s.reg (etBase p) | none => false)

/-- New energy-table regions pinned, or the code ETB_INVALID. -/
def State.pinAll (s : State) (n : Nat) (words : SMap Word) : List Nat → State × Nat
  | [] => (s, 0)
  | p :: l => match s.pinPages n p (s.withSet words (etBase p)) with
    | (s, none) => (s, 0x0509)
    | (s, some pages) => (s.modFp p (fun f => { f with pinsNew := pages })).pinAll n words l

/-- COMMIT_VALIDATE (12 R371; 01 R13: not during a management-plane interruption): range checks, REFLIMIT, OVERLAP, FEED_NOTREADY, then the pins of new regions.
[log 98: DEDUCED; log 147: DEDUCED] -/
def State.commitValidate (s : State) (n : Nat) : State :=
  match (s.ses n).req with
  | none => s
  | some r =>
    if r.validated || s.safe.mgmtDown.isSome then s
    else
      let words := s.wordsOf (s.ses n).stage.sealedUnits
      let view := s.withSet words
      let range := ((words ++ s.dependents words).map (fun x => rangeCode view x.1 (view x.1))).find? (· != 0)
      let has := fun lo hi => words.any (fun x => inr x.1 lo hi)
      let code := match range with
        | some c => c
        | none =>
          if has 0x03000008 0x030002FF && !refLimitsOk view then 0x060A
          else if has 0x01000180 0x010001FF && overlaps view then 0x0310
          else if !s.feedsReady (view feedCfgAddr) then 0x0D10
          else 0
      let t := if code = 0 then s.pinAll n words (s.etbPorts words) else (s, code)
      if t.2 = 0 then t.1.modSess n (fun x => { x with req := some { r with validated := true } })
      else t.1.dropReq n 4 t.2

/-! ## Readiness (12 R372) -/

/-- Sequencer q has its swath open. -/
def State.swOpen (s : State) (q : Nat) : Bool := (vget s.seq q).swst == .opened

/-- A changed word defers its commit (02 R24; 05 R166; 07 R235; 10 R325). -/
def State.defers (s : State) (a : Nat) (w : Word) : Bool :=
  let old := s.reg a
  if w = old then false
  else if inr a 0x01000180 0x010001FF then s.swOpen ((a - 0x01000180) / 8)
  else if inr a 0x01000100 0x0100017F then bits w 1 0 != bits old 1 0 && s.swOpen ((a - 0x01000100) / 8)
  else if inr a 0x03400000 0x0340005F then
    (List.range 16).any (fun q => s.swOpen q && (vget s.seq q).swEnc == (a - 0x03400000) / 8 % 8)
  else if inr a 0x03000100 0x030002FF then bits w 4 1 != bits old 4 1 && s.segOpen ((a - 0x03000100) / 8)
  else if inr a 0x03000300 0x030004FF then s.segOpen ((a - 0x03000300) / 8)
  else if a = 0x03000008 then
    (List.range 64).any (fun p =>
      let c := s.reg (0x03000100 + 8 * p)
      let n := bits c 4 2
      bit c 1 && (bit w n != bit old n || bit w (8 + n) != bit old (8 + n)) && s.segOpen p)
  else if inr a 0x03500100 0x0350017F then (vget s.ax ((a - 0x03500100) / 8 % 8)).moving
  else false

/-- The commit's push into port p's inactive bank is complete and no band change, reload or restart is due, or the port needs
none (06 R194, R202). -/
def State.pushReady (s : State) (p : Nat) : Bool :=
  let f := vget s.fp p
  !s.inService p || (match f.push with
    | some u => u.why == .commit && u.done && u.newBase == some (s.stagedReg (etBase p)) && u.band == f.band &&
        f.target == f.band && !(f.sliceErr || f.liveBad || f.released) && f.retryAt.isNone
    | none => false)

/-- The validated set of session n is ready. -/
def State.setReady (s : State) (n : Nat) : Bool :=
  match (s.ses n).req with
  | none => false
  | some r =>
    let units := (s.ses n).stage.sealedUnits
    let words := s.wordsOf units
    r.validated && !s.mgt.catchups.any (fun c => units.contains c.unit) &&
      (s.etbPorts words).all s.pushReady && !words.any (fun x => s.defers x.1 x.2)

/-! ## The commit point (12 R373, R374) -/

/-- A changed ETBASE takes effect on port p (06 R190, R194-R196): a READY port switches to the pushed bank; any other
has the new region's table as its live copy, which bring-up pushes, from the beginning where it has begun. -/
def State.etbSwitch (s : State) (p : Nat) : State :=
  let f := vget s.fp p
  let on := bit (s.reg (etBase p)) 0
  let s := s.modFp p (fun f => { f with pins := f.pinsNew, pinsNew := [], released := false })
  match f.push.filter (fun u => u.why == .commit && u.done) with
  | some u => s.modFp p (fun f => f.switch u)
  | none =>
    let r := s.sramWrite (Config.energyIndex p f.copy) 16384
    let s := r.1.modFp p (fun f => { f with live := if on then s.loadBand f.pins f.band else [], liveErr := r.2, liveBad := false })
    let s := if on && s.bandBad f.pinsNew f.band then
        (s.modFp p (fun f => { f with liveBad := true })).postUnit p (s.ev 2 0x0506 p (s.segOf p))
      else s
    s.pushAgain p

/-- What a committed word does at once beyond being in force (07 R235, R240; 08 R254, R258; 14 R430; 16 R465).
[log 36: DEDUCED] -/
def State.commitHook (s : State) (a : Nat) (old new : Word) : State :=
  let s := s.each ((List.range 4).filter (fun c =>
    camTable c a || a = camPortAddr c || a = 0x03600180 + 8 * c || (List.range 3).any (fun k => a == ringAddr c k))) State.relatch
  if inr a 0x02800900 0x02800AFF then if old = new then s else s.etbSwitch ((a - 0x02800900) / 8)
  else if inr a 0x03000100 0x030002FF then
    let p := (a - 0x03000100) / 8
    if bit old 0 && !bit new 0 then s.portDown p
    else if !bit old 0 && bit new 0 then s.portUp p
    else if bits old 4 1 ≠ bits new 4 1 && s.inService p then s.wake p
    else s
  else if a = 0x03000008 then
    s.each (those 64 (fun p =>
      let c := s.reg (0x03000100 + 8 * p)
      let n := bits c 4 2
      bit c 1 && (bit new n != bit old n || bit new (8 + n) != bit old (8 + n)) && s.inService p)) State.wake
  else if inr a 0x03400000 0x0340001F then
    if bit old 0 = bit new 0 then s
    else s.modEnc ((a - 0x03400000) / 8) (fun x => { x with ssi := .idle, ssiPrev := none, ssiErr := false })
  else if inr a 0x03600100 0x0360011F then
    if bit old 0 = bit new 0 then s else s.camEnable ((a - 0x03600100) / 8) (bit new 0)
  else if inr a 0x03600120 0x0360013F then
    if !bit old 32 && bit new 32 then s.modCam ((a - 0x03600120) / 8) (fun x => { x with ptK := 0 }) else s
  else if inr a 0x03600140 0x0360015F then s.modCam ((a - 0x03600140) / 8) (fun x => { x with ptK := 0 })
  else if a = ptpAddr then if bit old 0 = bit new 0 then s else s.ptpEnable (bit new 0)
  else if a = feedCfgAddr then s.feedModes old
  else s

/-- The flip mask on a write of the staged bank's word at `a`; a register's staged value lies in no table (13 R405, R407).
[log 107: DESIGN CHOICE] -/
def State.flipStaged (s : State) (a : Nat) : State :=
  if isShadow a then s
  else
    let r := s.sramWrite (Config.tableIndex a true) 1
    if r.2.isEmpty then r.1
    else r.1.modMgt (fun m => { m with badTab := (a, true) :: m.badTab.filter (· != (a, true)) })

/-- Units and words made live in one tick (12 R374): the generation rises, the banks change places, and catch-up begins,
which writes the words into the staged bank (12 R375).
The staged words and holds of the units in `drop` end. -/
def State.goLive (s : State) (units drop : List Nat) (words : SMap Word) : State :=
  let s := s.modMgt (fun m => { m with
    gen := m.gen + 1, cTick := s.ticks,
    unitGen := Vector.ofFn (fun u : Fin 101 => if units.contains u then m.gen + 1 else vget m.unitGen u),
    badTab := m.badTab.filter (fun b => !units.contains (unitAt b.1)),
    catchups := m.catchups ++ units.map (fun u => { unit := u, since := s.now }) })
  ((s.each words (fun s x => s.setReg x.1 x.2)).dropUnits drop).each words (fun s x => s.flipStaged x.1)

/-- A set made live, with what its words do at once. -/
def State.makeLive (s : State) (units : List Nat) (words : SMap Word) : State :=
  (s.goLive units units words).each words (fun t x => t.commitHook x.1 (s.reg x.1) x.2)

/-- A quarantine entry that ends session n's request reaches LCLK in this tick (12 R383, R385). -/
def State.entryComes (s : State) (n : Nat) : Bool :=
  s.agenda.any (fun d => match d.what with
    | .flush m us whole => m == n && s.sameTick d.at_ && (whole || (s.ses n).stage.sealedUnits.any us.contains)
    | _ => false)

/-- The commit of session n at line `line` (12 R373-R378), inside a swath or not: a quarantine entry of the tick withdraws it,
and STALE, an uncorrectable staged word and a port that another commit has put into another map since validation refuse it (02 R23; 12 R377; 13 R405).
[log 106: DEDUCED] -/
def State.commitDo (s : State) (n line : Nat) (insw : Bool) : State :=
  match (s.ses n).req with
  | none => s
  | some r =>
    let units := (s.ses n).stage.sealedUnits
    let stale := r.cas && units.any (fun u => r.base < vget s.mgt.unitGen u)
    let bad := s.mgt.badTab.any (fun b => b.2 && units.contains (unitAt b.1))
    let words := s.wordsOf units
    let twice := words.any (fun x => inr x.1 0x01000180 0x010001FF) && overlaps (s.withSet words)
    if s.entryComes n then s.dropReq n 3 0x0315
    else if stale then s.dropReq n 4 0x0112
    else if bad then s.dropReq n 4 0x0B09
    else if twice then s.dropReq n 4 0x0310
    else
      let s := s.makeLive units words
      let s := s.modSess n (fun x => { x with
        req := none, crec := crecWord line 2 insw r.seq r.program 0,
        stage := { x.stage with sealedUnits := [], isSealed := false } })
      let s := s.when (r.program && (vget s.seq r.seq).commitBy == some n) (fun s => s.modSeq r.seq (fun x =>
        { x with commitRec := fields [(0, 32, line), (32, 3, 2)] }))
      let s := s.postTo n (s.ev 9 0 r.seq (some r.seq) (wd s.mgt.gen) 0 (some line))
      s.when r.program (fun s => s.setEv r.seq 0x100)

/-- The due commits of sequencer q at a boundary of line n, in the order of their sessions (12 R373, R385).
[log 100: DESIGN CHOICE] -/
def State.boundary (s : State) (q line : Nat) : State :=
  s.each (List.range 256) (fun s n => match (s.ses n).req with
    | some r => if r.seq = q && r.line ≤ line && s.setReady n then s.commitDo n line true else s
    | none => s)

/-- A commit of session n on a sequencer without an open swath, in the tick in which its set is ready (02 R48).
[log 100: DESIGN CHOICE] -/
def State.commitIdle (s : State) (n : Nat) : State :=
  match (s.ses n).req with
  | some r => if !s.swOpen r.seq && s.setReady n then s.commitDo n (vget s.seq r.seq).ln false else s
  | none => s

/-- The sets of sessions up to n that are ready without an open swath commit, the lower session first (12 R385). -/
def State.commitReady (s : State) (n : Nat) : State := s.each (List.range (n + 1)) State.commitIdle

/-- COMMIT_TIMEOUT (12 R376): CTO ms after acceptance; a commit point in the same tick wins.
[log 100: DESIGN CHOICE] -/
def State.commitTimeout (s : State) (n : Nat) : State :=
  let s := s.commitReady n
  let cto := s.rf 0x00100018 15 0
  match (s.ses n).req with
  | some r => if cto ≠ 0 && s.due r.at_ (cto * qMs) then s.dropReq n 3 0x0116 else s
  | none => s

/-- CATCHUP_DONE (12 R375): the staged bank of unit u holds the live bank again.
[log 105: DEDUCED] -/
def State.catchupDone (s : State) (u : Nat) : State :=
  s.modMgt (fun m => { m with catchups := m.catchups.filter (fun c => c.unit != u) })

/-! ## Staging and discarding (12 R366-R369, R382) -/

/-- The word at `a` as session n staged it, else the value in force (00 R7). -/
def State.stagedBy (s : State) (n a : Nat) : Word :=
  let g := (s.ses n).stage
  if (g.units ++ g.sealedUnits).contains (unitAt a) then s.stagedReg a else s.reg a

/-- The code of a refused staging write of unit u (18 R508): an axis has its own (10 R324). -/
def stageCode (u : Nat) : Nat := if 84 ≤ u && u < 92 then 0x0804 else 0x0102

/-- The class or claim that staging unit u asks for (12 R365). -/
def State.mayStage (s : State) (n u : Nat) : Bool :=
  if u < 80 || (84 ≤ u && u < 96) then s.holds n u else s.maint n

/-- A unit that its first staging write holds (12 R366). -/
def holdUnit (u : Nat) : Bool := (80 ≤ u && u < 84) || 96 ≤ u

/-- Session n's staged set is marked OVERFLOW; its first refused write posts the one record (12 R367). -/
def State.overflowed (s : State) (n : Nat) : State :=
  let s := s.when (!(s.ses n).stage.overflowPosted) (fun s => s.postErr n 0x0117 n)
  s.modSess n (fun x => { x with stage := { x.stage with overflow := true, overflowPosted := true } })

/-- A staging write of the bytes selected by `mask` of the word at `a` by session n: its code, 0 where it is staged.
[log 106: DEDUCED] -/
def State.stageWord (s : State) (n a : Nat) (mask v : Nat) : State × Nat :=
  match regAt a with
  | none => (s, 0)
  | some r =>
    let u := r.unit a
    let g := (s.ses n).stage
    if !s.mayStage n u then s.refuse n (stageCode u) (if 84 ≤ u && u < 92 then u - 84 else u)
    else if (match vget s.mgt.holds u with | some m => m != n | none => false) then s.refuse n 0x0113 u
    else if g.sealedUnits.contains u then s.refuse n 0x0114 u
    else
      let fresh := !r.table && (s.mgt.staged.find a).isNone
      if fresh && (512 ≤ s.entries n || 2048 ≤ s.shadowUsed) then (s.overflowed n, 0x0117)
      else
        let w := (s.stagedBy n a).toNat
        let m := mask &&& r.wmask a
        let new := wd ((w - (w &&& m)) + (v &&& m))
        let s := s.modMgt (fun x => { x with
          staged := x.staged.put a new, badTab := x.badTab.filter (· != (a, true)),
          holds := if holdUnit u then vset x.holds u (some n) else x.holds })
        ((s.flipStaged a).modSess n (fun x => { x with stage := { x.stage with units := addOnce u x.stage.units } }), 0)

/-- STAGE_DISCARD (12 R368): the units outside a sealed set. -/
def State.stageDiscard (s : State) (n : Nat) : State :=
  (s.dropUnits (s.ses n).stage.units).modSess n (fun x => { x with
    stage := { x.stage with units := [], overflow := false, overflowPosted := false } })

/-- Read words (12 R387, R388). -/
def State.stageStat (s : State) (n : Nat) : Word :=
  let g := (s.ses n).stage
  let us := g.units ++ g.sealedUnits
  fields [(0, 7, us.length), (8, 10, s.entries n), (20, 1, b1 g.overflow), (21, 1, b1 g.isSealed),
    (22, 1, b1 (us.any (fun u => s.mgt.catchups.any (fun c => c.unit == u))))]

/-! ## Commands -/

def execCatchupDone (e : Env) (u : Fin 101) (s : State) : Host.Outcome State Fault Refusal := .next ((s.arrive e).catchupDone u)

end Sys2Proof.Machine
end

