-- ==== Sys2Proof/Machine/Line.lean ====
section
/-! DEFINITION. The lines of a swath: read points and routing (04 R106-R108, R125-R128), the placer (05 R155-R162), fire instants and row triggers (06 R172-R178), and the switch-over gap (16 R461-R463). -/
namespace Sys2Proof.Machine
open Sys2Proof

/-! ## Routing (04 R125-R128) -/

/-- Packed code j, of w bits, of a line (04 R111). -/
def slotCode (d : Array Byte) (w j : Nat) : Nat :=
  let i := w * j / 8
  ((d.getD i 0).toNat + 256 * (d.getD (i + 1) 0).toNat) >>> (w * j % 8) % 2 ^ w

/-- Unpacking (04 R126): the drop code that a packed code stands for. -/
def State.unpack (s : State) (p pack c : Nat) : Nat :=
  let m := s.reg (0x02000900 + 8 * p)
  if c = 0 || pack = 0 then c
  else if pack = 2 then bits m 2 0
  else bits m (4 * c + 2) (4 * c)

/-- Entry j of port p in LDP.SUBTAB (04 R139). -/
def State.subTab (s : State) (p j : Nat) : Nat := s.tab (0x02400000 + 4 * (8192 * p + j)) 4

/-- The OUT in force of nozzle j (09 R292): committed OUT, or HOUT of the health engine. -/
def State.outNz (s : State) (p j : Nat) : Bool := (s.subTab p j).testBit 28 || (s.nz p j).hout

/-- The alignment map (04 R127): the output code of nozzle j from the input codes. -/
def State.aligned (s : State) (p : Nat) (code : Nat → Nat) (j : Nat) : Nat :=
  let e := s.tab (0x02200000 + 2 * (8192 * p + j)) 2
  if e.testBit 14 then 0 else if e.testBit 15 then code (e % 8192) else code j

/-- The first nozzle that SUB0 reaches from k, before j comes again, whose OUT is 0 and whose code is 0. -/
def State.groupSub (s : State) (p j : Nat) (m : SMap Nat) : Nat → Nat → Option Nat
  | 0, _ => none
  | n + 1, k =>
    if k = j then none
    else if !s.outNz p k && SMap.get m 0 k = 0 then some k
    else s.groupSub p j m n (s.subTab p k % 8192)

/-- The target of the drop of OUT nozzle j on line n, if there is one (04 R128).
[log 157: DEDUCED] -/
def State.subTarget (s : State) (p n j : Nat) (m : SMap Nat) : Option Nat :=
  let e := s.subTab p j
  match bitsN e 27 26 with
  | 1 => s.groupSub p j m 8192 (e % 8192)
  | 2 =>
    let k := if n % 2 = 0 then e % 8192 else bitsN e 25 13
    if !s.outNz p k && SMap.get m 0 k = 0 then some k else none
  | _ => none

/-- Substitution (04 R128): the codes of OUT nozzles moved, in rising j; and how many were lost. -/
def State.substitute (s : State) (p n : Nat) (m : SMap Nat) : SMap Nat × Nat :=
  (those 8192 (s.outNz p)).foldl (fun (acc : SMap Nat × Nat) j =>
    let c := SMap.get acc.1 0 j
    if c = 0 then acc
    else
      let m := SMap.del acc.1 j
      match s.subTarget p n j m with
      | some k => (SMap.put m k c, acc.2)
      | none => (m, acc.2 + 1)) (m, 0)

/-- Routing of a ring line (04 R125-R128): the drop codes that are not 0, and how many were lost. -/
def State.route (s : State) (p n : Nat) (sl : Slot) : SMap Nat × Nat :=
  let d := sl.data.toArray
  let code := fun j => s.unpack p sl.pack (slotCode d (3 - sl.pack) j)
  let m : SMap Nat := ((List.range 8192).map (fun j => (j, s.aligned p code j))).filter (fun x => x.2 != 0)
  s.substitute p n m

/-- The payload of spit line n with pattern i (06 R178), `k` lines after F. -/
def State.spitCodes (s : State) (p i k : Nat) : SMap Nat :=
  let e := s.tab (0x02A00000 + 8 * (64 * (i % 256) + p)) 8
  let code := bitsN e 2 0
  ((List.range 8192).filter (fun j =>
    code != 0 && (j + bitsN e 24 18 * k) % (bitsN e 10 4 + 1) == bitsN e 17 11 && (e.testBit 25 || !s.outNz p j))).map
    (fun j => (j, code))

/-! ## Blank causes (06 R173; 17 R491) -/

/-- The head's HOT and high-voltage state and SAFE_n. -/
def State.hotCause (s : State) (p : Nat) : Bool := (vget s.fp p).hot || !(vget s.fp p).hv || s.safe.safeN

/-- The swath of q is position-doubtful in LCLK by instant t (05 R161). -/
def State.doubtful (s : State) (q t : Nat) : Bool :=
  (vget s.seq q).doubt && decide (((vget s.seq q).doubtAt - s.tickBase) / qTick ≤ (t - s.tickBase) / qTick)

/-- The port is blank by a slice error, a failed push or a release (06 R193, R195; 12 R383): the first two from the next read
point on. -/
def FirePort.noTable (f : FirePort) : Bool := f.released || (f.sliceOn && (f.sliceErr || f.liveBad))

/-- A cause holds as FIR schedules a fire symbol of port p for sequencer q (06 R173, R177; 17 R491).
[log 42: DEDUCED] -/
def State.fireCause (s : State) (q p : Nat) : Bool :=
  s.hotCause p || s.allBlank || s.safe.emerg.testBit q || s.doubtful q s.now || s.telStale p || (vget s.fp p).noTable

/-- The first line that a HOT port blanks (06 R197).
[log 44: DEDUCED] -/
def State.headHot (s : State) (q p n : Nat) : State :=
  let f := vget s.fp p
  if f.hot && f.hotNew then
    let s := s.modFp p (fun f => { f with hotNew := false })
    (s.setEv q 0x4000).postUnit p (s.ev 2 0x0501 p (some q) 0 0 (some n))
  else s

/-- A line that HOT, a group that is down or SAFE_n blanks on port p (06 R207).
[log 44: DEDUCED] -/
def State.hotLine (s : State) (q p n : Nat) : State :=
  (s.modFp p (fun f => { f with hotLn := satAdd 16 f.hotLn 1 })).headHot q p n

/-! ## The read point (04 R106-R108, 06 R172-R190) -/

/-- Line n on port p: whether it is LATE (04 R107, 17 R538). -/
def State.lateStep (s : State) (q p n : Nat) (hit : Bool) : State :=
  let r := runStep (vget s.ring p).lateRun hit n s.stamp
  let s := (s.modRing p (fun x => { x with lateRun := r.1 })).postRun r.2 0x0401 p p q
  if hit then (s.modStr p (fun x => { x with late := satAdd 16 x.late 1 })).setEv q 0x2000 else s

/-- Line n on port p: whether it is stale and whether its scale is out of range (06 R185, R186). -/
def State.scaleStep (s : State) (q p n : Nat) (stale vbad : Bool) : State :=
  let f := vget s.fp p
  let a := runStep f.staleRun stale n s.stamp
  let b := runStep f.vRun vbad n s.stamp
  let s := s.modFp p (fun f => { f with
    staleRun := a.1, vRun := b.1, vln := if stale || vbad then satAdd 16 f.vln 1 else f.vln })
  (s.postRun a.2 0x0504 p p q).postRun b.2 0x0503 p p q

/-- ES of port p (06 R184); none where it is out of range for want of a supply. -/
def State.esOf (s : State) (p : Nat) : Option Nat :=
  let v := (vget s.fp p).vsup
  if !s.firESEN p then some 2048
  else if v = 0 then none
  else some ((4096 * s.firVNOM p * s.firVNOM p + v * v) / (2 * v * v))

/-- The head switches band with line n (06 R190): each change since the read point before is posted and counted. -/
def State.bandChange (s : State) (q p n : Nat) : State :=
  let l := (vget s.fp p).pendBand
  let s := s.modFp p (fun f => { f with pendBand := [], bandChg := satAdd 16 f.bandChg l.length })
  s.each l (fun s b => s.postUnit p (s.ev 2 0x0508 p (some q) (wd (b.1 + 256 * b.2)) 0 (some n)))

/-- A bad live word of a table that line n of port p is routed or framed with (13 R405), in the address range from lo.
[log 33: DEDUCED] -/
def State.badWord (s : State) (lo n : Nat) : Option Nat :=
  (s.mgt.badTab.find? (fun b => !b.2 && lo ≤ b.1 && b.1 < lo + n)).map (·.1)

/-- The read of a bad table word reported (13 R405).
[log 33: DEDUCED] -/
def State.tableEcc (s : State) (q p n a : Nat) : State :=
  let w := Config.tableIndex a false
  (s.sramUeHit w (sramPart w)).postUnit p (s.ev 2 0x0B09 p (some q) (wd a) 0 (some n))

/-- What port p would send for line n: the codes, or none where the line is blank by what is read; and whether LATE.
[log 33: DEDUCED] -/
def State.readLine (s : State) (q p n : Nat) (ent : LnEntry) : State × Option (SMap Nat) × Bool :=
  let row := s.badWord (0x02900000 + 1024 * (vget s.seq q).swRowdly + 16 * p) 16
  match ent.kind with
  | .blank => (s, none, false)
  | .spit =>
    let a := 0x02A00000 + 8 * (64 * (ent.pat % 256) + p)
    if s.tabBad a || row.isSome then (s.tableEcc q p n (row.getD a), none, false)
    else (s, some (s.spitCodes p ent.pat (vget s.seq q).nEvents), false)
  | .lines =>
    let sl := SMap.get (vget s.ring p).slots {} (n % 256)
    if sl.st != .valid || sl.line ≠ n then (s, none, true)
    else if let some x := (vget s.ring p).badIn (n % 256) then
      let w := ringWord p x
      let s := s.sramUeHit w (sramPart w)
      let s := s.modStr p (fun x => { x with ringUe := satAdd 16 x.ringUe 1 })
      (s.postUnit p (s.ev 2 0x0408 p (some q) 0 0 (some n)), none, false)
    else
      let s := (s.sramRead (slotWord p n) 384).sramRead (Config.tagIndex p (n % 256)) 1
      match (s.badWord (0x02200000 + 16384 * p) 16384).or ((s.badWord (0x02400000 + 32768 * p) 32768).or row) with
      | some a => (s.tableEcc q p n a, none, false)
      | none =>
        let r := s.route p n sl
        (s.modStr p (fun x => { x with subLost := sat 32 (x.subLost + r.2) }), some r.1, false)

/-- A line that FIR will not frame, or has framed with bank b, kept for its fire symbols. -/
def State.keepLine (s : State) (p n : Nat) (framed counted : Bool) : State :=
  let rt := s.firRT p
  s.modFp p (fun f => { f with
    lines := f.lines ++ [{ line := n, framed := framed, bank := f.bank, rt := rt, counted := counted }] })

/-- Line n of sequencer q read on port p, after a Dune that becomes VALID in this tick (04 R130; 06 R172, R173, R184-R187): framed or not; whether it is LATE, and whether
another cause blanks it.
[log 42: DEDUCED; log 161: DEDUCED] -/
def State.readPort (s : State) (q n : Nat) (ent : LnEntry) (p : Nat) : State × Bool × Bool :=
  let s := (((s.decodeDone p).nzRead p).bandChange q p n).modFp p (fun f => { f with sliceOn := f.sliceErr || f.liveBad })
  if ent.kind == .blank then
    (((s.lateStep q p n false).scaleStep q p n false false).keepLine p n false false, false, false)
  else
    let rd := s.readLine q p n ent
    let s := rd.1.lateStep q p n rd.2.2
    let stale := s.telStale p
    let es := s.esOf p
    let vbad : Bool := !stale && (match es with | some e => e < 1024 || 3072 < e | none => true)
    let s := s.scaleStep q p n stale vbad
    let s := s.modFp p (fun f => { f with
      stale := stale, vrange := if stale then f.vrange else vbad, es := if stale then f.es else es.getD f.es })
    let f := vget s.fp p
    let hot := s.hotCause p
    let s := if hot then s.hotLine q p n else s
    let blank := stale || vbad || f.noTable || hot || s.doubtful q s.now
    let frame : LineFrame := { line := n, spit := ent.kind == .spit, energy := f.es % 4096 + 4096 * f.bank + 8192 * f.band }
    match rd.2.1 with
    | some codes =>
      if blank then (s.keepLine p n false hot, false, true)
      else (((s.laneCut p itemGap).sendFrame p (.line { frame with codes := codes })).keepLine p n true false, false, false)
    | none =>
      let s := if ent.kind == .lines && !rd.2.2 && !blank then s.sendVoid p frame else s
      (s.keepLine p n false hot, rd.2.2, true)

/-- The line whose read point is due in the swath of q (04, before R106): its entry is queued and the line before it is
decided. A switch-over gap holds it.
[log 32: DEDUCED] -/
def State.readDue (s : State) (q : Nat) : Option Nat :=
  let x := vget s.seq q
  let n := x.nextLine % 2 ^ 32
  if x.swst == .opened && !x.lnq.isEmpty && x.readLn != some n && s.pws.gap.isNone then some n else none

/-- READ_POINT: due commits first (12 R373), then every port of the swath in turn.
[log 31: DEDUCED] -/
def State.readPoint (s : State) (q : Nat) : State :=
  match s.readDue q with
  | none => s
  | some n =>
    let s := (s.boundary q n).healthNow
    let x := vget s.seq q
    match x.lnq.head? with
    | none => s
    | some ent =>
      let u := runStep x.underrun false n s.stamp
      let s := (s.modSeq q (fun x => { x with readLn := some n, underrun := u.1 })).postRun u.2 0x0309 (uSeq q) q q
      let s := s.each x.swPorts (fun s p => (s.noteRead p).modRing p (fun r => { r with readDone := some n }))
      let r := x.live.foldl (fun (acc : State × Bool × Bool) p =>
        let a := acc.1.readPort q n ent p
        (a.1, acc.2.1 || a.2.1, acc.2.2 || a.2.2)) (s, false, false)
      let s := r.1
      if r.2.1 then s.modSeq q (fun x => { x with nLate := x.nLate + 1, otherLn := some n })
      else if r.2.2 || (ent.kind != .blank && !x.gone.isEmpty) then s.noteOther q n
      else s

/-! ## The placer (05 R155-R160, 06 R175) -/

/-- Where a boundary stands against a sample: not reached; reached, with the fire instant; or passed by more than one count. -/
inductive Reach where
  | ahead
  | hit (fire : Nat)
  | late
deriving DecidableEq, Repr, Inhabited

/-- Ticks from an edge at the pins to its line event, and to its fire symbol on the pins (05 R163).
[log 34: DEDUCED] -/
def decideTicks : Nat := 17
/-- Interpolation applies (05 R158). -/
def Seq.interp (x : Seq) (m : Sample) : Bool := !m.ssi && m.moving && m.back == x.swBack && !x.swNoInterp

/-- How far a sample stands past the boundary of the k-th line after F with row delay d, in 2^−40 counts (05 R155, 06 R175).
[log 38: DEDUCED] -/
def Seq.past (x : Seq) (m : Sample) (k d : Nat) : Int :=
  let sg : Int := if x.swBack then -1 else 1
  sg * ((m.count - x.swP0) * 2 ^ 40) - (k * x.swPitch * 256 + d * x.swPitch : Nat)

/-- The rules of R157 and R158 for that boundary; `first` says that SSI has not yet taken a line from this frame (R160).
[log 38: DEDUCED] -/
def Seq.reach (x : Seq) (m : Sample) (k d : Nat) (first : Bool) : Reach :=
  let e := x.past m k d
  if 0 ≤ e then
    if m.ssi then (if first then .hit m.fixed else .late)
    else if 2 ^ 40 < e then .late else .hit m.fixed
  else if x.interp m && -e < 2 ^ 40 then
    .hit (m.fixed + qTick * roundDiv (5 * ((-e).toNat / 256) * m.period) (4 * 2 ^ 32))
  else .ahead

/-- One line taken from the line queue (02 R39, R47): LNQ_LOW where an entry leaves and the occupancy falls to LNQLOW. -/
def State.consume (s : State) (q : Nat) : State :=
  match (vget s.seq q).lnq with
  | [] => s
  | e :: l =>
    if 1 < e.left then s.modSeq q (fun x => { x with lnq := { e with left := e.left - 1 } :: l })
    else
      let s := s.modSeq q (fun x => { x with lnq := l })
      if l.length = s.rf (0x01000100 + 8 * q) 19 16 then s.setEv q 0x400 else s

/-- Line n is an UNDERRUN line (02 R40; 04 R107): no port reads it. -/
def State.underrunLine (s : State) (q n : Nat) : State :=
  let s := s.boundary q n
  let x := vget s.seq q
  let u := runStep x.underrun true n s.stamp
  let s := (s.modSeq q (fun x => { x with underrun := u.1, nUnder := x.nUnder + 1, otherLn := some n })).postRun u.2 0x0309 (uSeq q) q q
  s.each x.live (fun s p =>
    ((s.lateStep q p n false).scaleStep q p n false false).keepLine p n false false)

/-- OVERRUN and OVERSPEED of line n (05 R157, R159, R170).
[log 40: DEDUCED] -/
def State.speedStep (s : State) (q n : Nat) (late speed : Bool) : State :=
  let pl := vget s.place q
  let a := runStep pl.overRun late n s.stamp
  let b := runStep pl.speedRun speed n s.stamp
  let s := s.modPlace q (fun p => { p with
    overRun := a.1, speedRun := b.1, overrun := p.overrun + b1 late, overspeed := p.overspeed + b1 speed })
  let s := (s.postRun a.2 0x0705 (uSeq q) q q).postRun b.2 0x0706 (uSeq q) q q
  if late || speed then s.noteOther q n else s

/-- What the next line event of q would change, as it stands, kept for an abort in this tick (02 R42). -/
def State.saveLines (s : State) (q : Nat) : State :=
  let x := vget s.seq q
  let pl := vget s.place q
  if (match x.lineUndo with | some u => s.sameTick u.at_ | none => false) then s
  else s.modSeq q (fun x => { x with lineUndo := some {
    at_ := s.now, lnq := x.lnq, ln := x.ln, nEvents := x.nEvents, nUnder := x.nUnder, nLate := x.nLate, nOther := x.nOther,
    otherLn := x.otherLn, lastStamp := x.lastStamp, underrun := x.underrun, overRun := pl.overRun, speedRun := pl.speedRun,
    overrun := pl.overrun, overspeed := pl.overspeed, lastFire := pl.lastFire,
    rings := x.swPorts.map (fun p => (p, vget s.ring p)) } })

/-- The line event of the next line of q (02 R39; 05 R157-R161): `over` for FIRE-BLANK as overrun, `gap` for FIRE-BLANK
as a feed gap (05 R162), `fire` the instant of row trigger 0, `at_` when it is decided.
[log 32: DEDUCED] -/
def State.lineEvent (s : State) (q at_ fire : Nat) (late gap : Bool) : State :=
  let n := (vget s.seq q).nextLine % 2 ^ 32
  let s := (if (vget s.seq q).lnq.isEmpty then s else s.readPoint q).saveLines q
  let empty := (vget s.seq q).lnq.isEmpty
  let s := if empty then s.underrunLine q n else s
  let kind : LnKind := match (vget s.seq q).lnq.head? with | some e => e.kind | none => .blank
  let s := s.consume q
  let x := vget s.seq q
  let speed : Bool := match (vget s.place q).lastFire with
    | some t => fire < t + x.swMinPer * qTick
    | none => false
  let s := s.speedStep q n late speed
  let s := if gap then s.noteOther q n else s
  let d : Sched := { line := n, kind := kind, blank := late || gap || speed || empty || s.doubtful q at_, fireAt := fire,
                     counted := (vget s.seq q).otherLn == some n, at_ := s.now }
  let s := s.modPlace q (fun p => { p with lastFire := some fire, sched := p.sched ++ [d] })
  let s := (s.modSeq q (fun x => { x with ln := n, nEvents := x.nEvents + 1 })).restamp q n fire
  s.each x.swPorts (fun s p => s.modRing p (fun r => { r with
    base := (n + 1) % 2 ^ 32, slots := SMap.del r.slots (n % 256), readDone := none }))

/-- The lines that a sample reaches, in order (05 R157); at most `fuel`. `gap` says that the count moved in a gap. -/
def State.placeLines (s : State) (q : Nat) (m : Sample) (gap : Bool) : Nat → Bool → State
  | 0, _ => s
  | fuel + 1, first =>
    let x := vget s.seq q
    if x.swst != .opened then s
    else match x.reach m x.nEvents 0 first with
      | .ahead => s
      | .hit t =>
        let held := gap && 0 ≤ x.past m x.nEvents 0
        let t := if gap then max t (s.now + fireTicks * qTick) else t
        (s.lineEvent q (m.at_ + decideTicks * qTick) t false held).placeLines q m gap fuel false
      | .late =>
        let t := if gap then s.now + fireTicks * qTick else m.fixed
        (s.lineEvent q (m.at_ + decideTicks * qTick) t (!gap) gap).placeLines q m gap fuel false

/-- How many lines of the swath lie up to a sample, and one more. -/
def Seq.fuel (x : Seq) (m : Sample) : Nat :=
  let c := x.past m 0 0
  if x.swPitch = 0 || c < 0 then 2 else c.toNat / (x.swPitch * 256) + 2 - x.nEvents

/-- What is kept of line n for port p. -/
def FirePort.line? (f : FirePort) (n : Nat) : Option PortLine := f.lines.find? (fun l => l.line == n)

/-- Row triggers of the port's line n; one where none is kept. -/
def State.rowsOf (s : State) (p n : Nat) : Nat := match (vget s.fp p).line? n with | some l => l.rt | none => 1

/-- Row trigger k of port p decided for each line that waits for it, as a sample reaches its boundary (06 R175).
[log 39: DEDUCED] -/
def State.placeRow (s : State) (q : Nat) (m : Sample) (gap : Bool) (p k : Nat) : State :=
  let x := vget s.seq q
  let d := SMap.get x.swD 0 (8 * p + k)
  let r := (vget s.place q).sched.foldl (fun (acc : List Sched × Bool × Nat) c =>
    if s.rowsOf p c.line ≤ k || (SMap.find c.rows (8 * p + k)).isSome then (acc.1 ++ [c], acc.2)
    else
      let lo := fun t => if gap then max t (s.now + fireTicks * qTick) else t
      match x.reach m (x.lineIdx c.line) d acc.2.1 with
      | .ahead => (acc.1 ++ [c], acc.2)
      | .hit t =>
        let held := gap && 0 ≤ x.past m (x.lineIdx c.line) d
        (acc.1 ++ [{ c with rows := SMap.put c.rows (8 * p + k) (lo t, held) }], false, acc.2.2)
      | .late => (acc.1 ++ [{ c with rows := SMap.put c.rows (8 * p + k) (lo m.fixed, true) }], false,
          if gap then acc.2.2 else acc.2.2 + 1)) ([], true, 0)
  (s.modPlace q (fun pl => { pl with sched := r.1 })).modFp p (fun f => { f with rowOvr := satAdd 16 f.rowOvr r.2.2 })

/-- Every row trigger from 1 that a sample reaches. -/
def State.placeRows (s : State) (q : Nat) (m : Sample) (gap : Bool) : State :=
  s.each (vget s.seq q).live (fun s p => s.each [1, 2, 3, 4, 5, 6, 7] (fun s k => s.placeRow q m gap p k))

/-- A sample taken by the placer (05 R156): HWM takes its count, then the lines and rows it reaches are decided.
[log 41: DEDUCED] -/
def State.takeSample (s : State) (q : Nat) (m : Sample) (gap : Bool) : State :=
  let x := vget s.seq q
  let old := (vget s.place q).sched
  let s := (s.modPlace q (fun p =>
    let p := if m.adv && !m.ssi && !gap then p.pull m.fixed else p
    { p with hwm := m.count })).restampAll q old
  (s.placeLines q m gap (x.fuel m) true).placeRows q m gap

/-- LINE_EVENT: the oldest sample whose 17 ticks have passed (05 R163). A gap holds the placer (05 R162). -/
def State.lineEvents (s : State) (q : Nat) : State :=
  match (vget s.place q).inq with
  | [] => s
  | m :: l =>
    if (vget s.seq q).swst != .opened || s.pws.gap.isSome || !s.due m.at_ (decideTicks * qTick) then s
    else (s.modPlace q (fun p => { p with inq := l })).takeSample q m false

/-! ## Fire symbols (06 R172-R177) -/

/-- The fire symbol of row trigger k of a line on port p (06 R177), scheduled 8 ticks before instant t.
[log 42: DEDUCED] -/
def State.fireSymbol (s : State) (q p n t k : Nat) (blank : Bool) (counted : Bool) : State × Bool :=
  let f := vget s.fp p
  let l : PortLine := (f.line? n).getD { line := n }
  let hot := s.hotCause p
  let cause := s.fireCause q p
  let b := blank || !l.framed || cause || (k != 0 && l.blank0)
  let s := if hot && l.framed && !l.counted then s.hotLine q p n else s
  let sent := s.fireStart p t + 2 * qTick
  let s := s.modFp p (fun f => { f with
    bankTo := if l.framed && !l.freed then vmod f.bankTo l.bank (max sent) else f.bankTo,
    lines := f.lines.map (fun x =>
      if x.line == n then { x with counted := x.counted || (hot && x.framed), blank0 := if k = 0 then b else x.blank0 } else x) })
  ((s.modSeq q (fun x => { x with doneAt := max x.doneAt sent })).sendFire p t b n, counted || (l.framed && cause))

/-- The line is done (06 R177): every row trigger of every port is sent, or an abort has dropped those left. -/
def State.lineDone (s : State) (q : Nat) (d : Sched) : Bool :=
  d.sent0 && ((vget s.seq q).swst != .opened ||
    (vget s.seq q).live.all (fun p => s.rowsOf p d.line ≤ SMap.get d.next 1 p))

/-- Lines that are done leave the placer and FIR. -/
def State.settleLines (s : State) (q : Nat) : State :=
  let x := vget s.seq q
  let gone := (vget s.place q).sched.filter (s.lineDone q)
  let s := s.when (!gone.isEmpty) (fun s => s.modSeq q (fun x => { x with doneAt := max x.doneAt s.now }))
  let s := s.modPlace q (fun p => { p with sched := p.sched.filter (fun d => !s.lineDone q d) })
  s.each x.swPorts (fun s p => s.modFp p (fun f => { f with
    lines := f.lines.filter (fun l => !gone.any (fun d => d.line == l.line)) }))

/-- The next row trigger from 1 of port p for a line whose row trigger 0 is sent, where its boundary is reached: its instant, and
whether it is blank. -/
def State.nextRow (s : State) (p : Nat) (d : Sched) : Option (Nat × Bool) :=
  let k := SMap.get d.next 1 p
  if d.sent0 && k < s.rowsOf p d.line then SMap.find d.rows (8 * p + k) else none

/-- The next row trigger of line d on port p sent. -/
def State.sendRow (s : State) (q p : Nat) (d : Sched) : State :=
  match s.nextRow p d with
  | none => s
  | some r =>
    let k := SMap.get d.next 1 p
    let a := s.fireSymbol q p d.line r.1 k (d.blank || r.2) false
    let s := if a.2 && !d.counted then a.1.modSeq q (fun x => { x with nOther := x.nOther + 1 }) else a.1
    s.modPlace q (fun pl => { pl with sched := pl.sched.map (fun c =>
      if c.line == d.line then { c with next := SMap.put c.next p (k + 1), counted := c.counted || a.2 } else c) })

/-- The first line of q that has a row trigger of port p due before instant t. -/
def State.rowBefore (s : State) (q p t : Nat) : Option Sched :=
  (vget s.place q).sched.find? (fun d => match s.nextRow p d with | some r => r.1 < t | none => false)

/-- Row triggers of port p due before instant t sent in the order of their lines, at most `fuel`: those of earlier lines go
before a row trigger 0 that they overlap (06 R176). -/
def State.rowsFirst (s : State) (q p t : Nat) : Nat → State
  | 0 => s
  | fuel + 1 => match s.rowBefore q p t with
    | none => s
    | some d => (s.sendRow q p d).rowsFirst q p t fuel

/-- FIRE_INSTANT: row trigger 0 of the first line that has not sent it, 8 ticks before its instant (05 R158), in a tick after
that of its line event, which an abort of that tick would undo (02 R42). -/
def State.fireInstant (s : State) (q : Nat) : State :=
  match (vget s.place q).sched.find? (fun d => !d.sent0) with
  | none => s
  | some d =>
    if s.now + 8 * qTick < d.fireAt || s.sameTick d.at_ || s.pws.gap.isSome then s
    else
      let r := (vget s.seq q).live.foldl (fun (acc : State × Bool) p =>
        (acc.1.rowsFirst q p (d.fireAt + 2 * qTick) (8 * (vget s.place q).sched.length)).fireSymbol q p d.line d.fireAt 0 d.blank
          acc.2) (s, false)
      let s := if r.2 && !d.counted then r.1.modSeq q (fun x => { x with nOther := x.nOther + 1 }) else r.1
      (s.modPlace q (fun p => { p with sched := p.sched.map (fun c =>
        if c.line == d.line && !c.sent0 then { c with sent0 := true, counted := c.counted || r.2 } else c) })).settleLines q

/-- ROW_TRIGGER: the next row trigger from 1 of port p that is due; one of an earlier line that it overlaps goes first
(06 R175-R177). -/
def State.rowTrigger (s : State) (q p : Nat) : State :=
  if s.pws.gap.isSome || !(vget s.seq q).live.contains p then s
  else match (s.rowBefore q p (s.now + 8 * qTick + 1)).bind (s.nextRow p) with
  | none => s
  | some r => match s.rowBefore q p (r.1 + 2 * qTick) with
    | none => s
    | some d => (s.sendRow q p d).settleLines q

/-! ## The switch-over gap (05 R162, 16 R461-R463) -/

/-- A sequencer with an open swath after a gap: the lines it passed and those whose frames it interrupted are blank.
[log 41: DEDUCED] -/
def State.gapLines (s : State) (q ns : Nat) : State × Nat :=
  let x := vget s.seq q
  if x.swst != .opened then (s, 0)
  else
    let inq := (vget s.place q).inq
    let cut := x.live.foldl (fun (l : List Nat) p =>
      (vget s.fp p).lines.foldl (fun l y => if y.gap then addOnce y.line l else l) l) []
    let s := s.each cut (fun s n => s.noteOther q n)
    let s := s.each x.live (fun s p => s.modFp p (fun f => { f with lines := f.lines.map (fun y => { y with gap := false }) }))
    let before := x.nEvents
    let s := match inq.getLast? with
      | none => s
      | some m => (s.modPlace q (fun p => { p with inq := p.inq.drop inq.length })).takeSample q m true
    let passed := match inq.getLast? with
      | none => []
      | some m => (List.range ((vget s.seq q).nEvents - before)).filter (fun i => 0 ≤ x.past m (before + i) 0)
    let lines := passed.foldl (fun l i => addOnce ((x.swF + before + i) % 2 ^ 32) l) cut
    if lines.isEmpty then (s, 0)
    else
      let s := (s.setEv q 0x800000)
      let r := s.ev 2 0x0D03 q (some q) (fields [(0, 32, lines.length), (32, 16, ns)]) 0 (some (lines.headD 0))
      (s.postUnit (uSeq q) r, lines.length)

/-- Instants still to come at the start of a gap lie later by its length.
[log 41: DEDUCED] -/
def Placer.shift (pl : Placer) (t d : Nat) : Placer :=
  let mv := fun x => if t < x then x + d else x
  { pl with
    lastFire := pl.lastFire.map mv,
    sched := pl.sched.map (fun c => { c with
      fireAt := if c.sent0 then c.fireAt else mv c.fireAt, rows := c.rows.map (fun r => (r.1, mv r.2.1, r.2.2)) }) }

/-- The held domains go on where they stopped (16 R461): what was on its way in them comes later by the gap, STEPCLK did not run
(10 R322), instructions, engines, retries and apply ticks come later by the gap, and what SCLK decided in the gap is in LCLK at once (05 R162).
[log 41: DEDUCED] -/
def State.resume (s : State) (since len : Nat) : State :=
  let late := fun (d : Timed) => since < d.at_ && !d.what.island && (match d.what with | .seen .. => false | _ => true)
  let mv := fun (t : Nat) => if since < t then t + len else t
  (({ s with
    gapTime := s.gapTime + len, agenda := s.agenda.filter (fun d => !late d),
    seq := s.seq.map (fun x => { x with freeAt := mv x.freeAt }),
    eng := s.eng.map (fun g => { g with doneAt := mv g.doneAt, freeAt := mv g.freeAt }),
    fp := s.fp.map (fun f => { f with retryAt := f.retryAt.map mv }),
    hlt := { s.hlt with
      applies := s.hlt.applies.map (fun a => { a with at_ := mv a.at_ }),
      senses := s.hlt.senses.map (fun a => { a with at_ := mv a.at_ }),
      testEnd := s.hlt.testEnd.map (fun a => { a with at_ := mv a.at_ }) } } : State)).each
    (s.agenda.filter late) (fun s d => s.after (d.at_ + len) d.what)

/-- GAP_RELEASE: hold ends 200 ns or more after the latest trip (16 R461).
[log 41: DEDUCED; log 138: DEDUCED] -/
def State.gapRelease (s : State) : State :=
  match s.pws.gap with
  | none => s
  | some g =>
    let len := s.now - g.since
    if s.now < g.trip + 1000 then s
    else
      let ns := len / 5
      let s := ((s.modPws (fun x => { x with gap := none, lastGap := (g.since, s.now), gaps := x.gaps ++ [(g.since, s.now)] })).resume g.since len).settle s.now
      let s := s.each (List.range 16) (fun s q =>
        (s.modPlace q (fun p => p.shift g.since len)).restampAll q (vget s.place q).sched)
      let r := (List.range 16).foldl (fun (acc : State × Nat) q =>
        let a := acc.1.gapLines q ns
        (a.1, acc.2 + a.2)) (s, 0)
      let s := r.1.modPws (fun x => { x with gapRec := fields [(0, 16, ns), (16, 2, g.rails), (32, 32, r.2)] })
      s.postAll (s.ev 2 0x0D02 0 none (fields [(0, 16, ns), (16, 2, g.rails)]))

/-! ## The commit point (12 R373, R374) -/

/-- COMMIT_POINT of session n's set: at the read point of an open swath's next line, or, with no swath open, in the tick
in which the set is ready; of sets that commit in one tick the lower session's comes first (12 R385). -/
def State.commitPoint (s : State) (n : Nat) : State :=
  match (s.ses n).req with
  | none => s
  | some r =>
    let s := s.commitReady n
    if !s.swOpen r.seq then s
    else match s.readDue r.seq with
      | none => s
      | some line => if r.line ≤ line && s.setReady n then s.boundary r.seq line else s

/-! ## The line queue and the end of a swath (02 R39, R41) -/

/-- A wait for room in the line queue ends when an entry is free (02 R39; 03 R79). -/
def State.lineQueueAppend (s : State) (q : Nat) : State :=
  let x := vget s.seq q
  match x.owner with
  | none => s
  | some c => match (s.ctxOf q c).wait with
    | some w => match w.kind with
      | .append e =>
        if x.swst == .opened && x.lnq.length < 16 then
          (s.modSeq q (fun x => { x with lnq := x.lnq ++ [e], printed := some (s.now, c) })).endWait q c false
        else s
      | _ => s
    | none => s

/-- SWATH_END: the swath closes when its owner asks for it and its last line event is sent (02 R41). -/
def State.swathEnd (s : State) (q : Nat) : State :=
  if (vget s.seq q).swst == .opened && s.swathDone q && s.ownerClosing q then s.closeSwath q else s

/-! ## Commands -/

def execLineEvent (e : Env) (q : Fin 16) (s : State) : Host.Outcome State Fault Refusal := .next ((s.arrive e).lineEvents q)
def execFireInstant (e : Env) (q : Fin 16) (s : State) : Host.Outcome State Fault Refusal := .next ((s.arrive e).fireInstant q)
def execRowTrigger (e : Env) (q : Fin 16) (p : Fin 64) (s : State) : Host.Outcome State Fault Refusal :=
  .next ((s.arrive e).rowTrigger q p)
def execGapRelease (e : Env) (s : State) : Host.Outcome State Fault Refusal := .next (s.arrive e).gapRelease
def execLineQueueAppend (e : Env) (q : Fin 16) (s : State) : Host.Outcome State Fault Refusal :=
  .next ((s.arrive e).lineQueueAppend q)
def execSwathEnd (e : Env) (q : Fin 16) (s : State) : Host.Outcome State Fault Refusal := .next ((s.arrive e).swathEnd q)

end Sys2Proof.Machine
end

