-- ==== Sys2Proof/Machine/Flags.lean ====
section
/-! DEFINITION. The flags of a context: every flag computation and condition code of Ramest (03 R66-R68). -/
namespace Sys2Proof.Machine
open Sys2Proof

/-- Carry out of bit 63 of a sum (03 R66). -/
def carryOut (a b : Word) : Bool := 2 ^ 64 ≤ a.toNat + b.toNat

/-- Z, N and C of `add` (03 R66). -/
def Ctx.addFlags (x : Ctx) (a b : Word) : Ctx :=
  { x with z := a + b == 0, n := (a + b).msb, c := carryOut a b }

/-- Z, N and C of `sub` and `cmp` (03 R66): equality, signed less, unsigned less. -/
def Ctx.subFlags (x : Ctx) (a b : Word) : Ctx :=
  { x with z := a - b == 0, n := a.slt b, c := a.ult b }

/-- Z and N of `and` and `or`; C is unchanged (03 R66). -/
def Ctx.logicFlags (x : Ctx) (r : Word) : Ctx := { x with z := r == 0, n := r.msb }

/-- The condition code cf of `brc` holds (03 R68). Codes 13 to 15 are none. -/
def Ctx.cond (x : Ctx) (cf : Nat) : Bool :=
  match cf with
  | 0 => true
  | 1 => x.z
  | 2 => !x.z
  | 3 => x.n
  | 4 => !x.n
  | 5 => !x.n && !x.z
  | 6 => x.n || x.z
  | 7 => x.c
  | 8 => !x.c
  | 9 => !x.c && !x.z
  | 10 => x.c || x.z
  | 11 => x.t
  | 12 => !x.t
  | _ => false

end Sys2Proof.Machine
end

