-- ==== Sys2Proof/Machine/Operands.lean ====
section
/-! DEFINITION. The fields of a Ramest word and every operand form (03 R57-R60, R69). -/
namespace Sys2Proof.Machine
open Sys2Proof

/-- A Ramest word as its fields (03 R57). -/
structure Ram where
  op : Nat := 0
  cf : Nat := 0
  a : Nat := 0
  b : Nat := 0
  imm : Nat := 0
deriving DecidableEq, Repr, Inhabited

/-- The fields of a word. -/
def ramOf (w : Word) : Ram :=
  { op := bits w 63 56, cf := bits w 55 52, a := bits w 51 48, b := bits w 47 44, imm := bits w 43 0 }

/-- The assigned opcodes (03 R71). -/
def ramOpcodes : List Nat :=
  [0x00, 0x01, 0x02, 0x03, 0x04, 0x05, 0x06, 0x07, 0x10, 0x11, 0x12, 0x13, 0x14, 0x15, 0x16, 0x17, 0x18, 0x19,
   0x20, 0x21, 0x22, 0x23, 0x24, 0x25, 0x26, 0x27, 0x30, 0x31, 0x32, 0x33, 0x34, 0x38, 0x39,
   0x40, 0x41, 0x42, 0x43, 0x44, 0x45, 0x50, 0x51]

/-- Flag bit k of a word (03 R60). -/
def Ram.flag (i : Ram) (k : Nat) : Bool := i.cf.testBit k

/-- Only the named flags, fields and immediate bits may be nonzero (03 R58): `cf` and `imm` are masks, `a` and `b` say
whether the fields are used. -/
def Ram.only (i : Ram) (cf : Nat) (a b : Bool) (imm : Nat) : Bool :=
  i.cf &&& cf == i.cf && (a || i.a == 0) && (b || i.b == 0) && i.imm &&& imm == i.imm

/-- The 44 bits of an immediate. -/
def imm44 : Nat := 2 ^ 44 - 1

/-- IMM sign-extended from bit 43 (03 R69). -/
def Ram.simm (i : Ram) : Word := wdI (signedN 44 i.imm)

/-- Register r of a context; g0 reads as 0 (03 R69). -/
def Ctx.rd (x : Ctx) (r : Nat) : Word := if r = 0 then 0 else vget x.g r

/-- Register r of a context written; a write to g0 is discarded. -/
def Ctx.wr (x : Ctx) (r : Nat) (v : Word) : Ctx := if r = 0 then x else { x with g := vset x.g r v }

/-- The second operand of an arithmetic instruction: gB, or with flag I the immediate sign-extended (03 R74). -/
def Ctx.src (x : Ctx) (i : Ram) : Word := if i.flag 0 then i.simm else x.rd i.b

/-- The form of an arithmetic instruction: with flag I field B is 0, without it IMM is 0. -/
def Ram.arith (i : Ram) : Bool := if i.flag 0 then i.only 1 true false imm44 else i.only 0 true true 0

/-- A code address: gA with flag R, else IMM (03 R63, R72). -/
def Ctx.target (x : Ctx) (i : Ram) : Nat := if i.flag 0 then (x.rd i.a).toNat else i.imm

/-- The form of `jmp` and `call`. -/
def Ram.jump (i : Ram) : Bool := if i.flag 0 then i.only 1 true false 0 else i.only 0 false false imm44

/-- The count of `lines` and `blank`: IMM with flag I, else gA (03 R79). -/
def Ctx.count (x : Ctx) (i : Ram) : Nat := if i.flag 0 then i.imm else (x.rd i.a).toNat

/-- The form of `lines` and `blank`. -/
def Ram.counted (i : Ram) : Bool := if i.flag 0 then i.only 1 false false imm44 else i.only 0 true false 0

/-- The position operand gA or gB as a signed count (03 R69). -/
def Ctx.rdI (x : Ctx) (r : Nat) : Int := sgn (x.rd r)

end Sys2Proof.Machine
end

