-- ==== Sys2Proof/Machine/SeqWords.lean ====
section
/-! DEFINITION. The words of the sequencers' and FIR's read-only registers (02 R25-R29, R45-R53; 03 R75; 06 R205, R207). -/
namespace Sys2Proof.Machine
open Sys2Proof

/-- The number of a context state (02 R29). -/
def ctxStCode : CtxSt → Nat
  | .free => 0 | .loaded => 1 | .armed => 2 | .ready => 3 | .running => 4 | .waiting => 5 | .halted => 6 | .faulted => 7

/-- SEQ.CTX[64·q + c] (02 R29). -/
def State.ctxWord (s : State) (q c : Nat) : Word :=
  let x := s.ctxOf q c
  fields [(0, 3, ctxStCode x.st), (3, 2, x.prio), (5, 2, x.attr), (8, 8, x.session),
    (16, 19, if x.st == .free then 0 else x.pc), (36, 16, x.err)]

/-- The running context of sequencer q. -/
def State.running (s : State) (q : Nat) : Option Nat :=
  match (vget s.seq q).resident with
  | some c => if (s.ctxOf q c).st == .running then some c else none
  | none => none

/-- The emergency context of q is running or waiting.
[log 15: DEDUCED] -/
def State.emRun (s : State) (q : Nat) : Bool :=
  (List.range 64).any (fun c => let x := s.ctxOf q c; x.attr == 2 && (x.st == .running || x.st == .waiting))

/-- SEQ.STATUS[q] (02 R27).
[log 15: DEDUCED; log 16: DEDUCED] -/
def State.seqStatus (s : State) (q : Nat) : Word :=
  let x := vget s.seq q
  fields [(0, 2, if x.swst != .opened then 0 else if s.ownerClosing q then 2 else 1), (2, 1, b1 x.doubt),
    (3, 1, b1 (s.running q).isSome), (4, 6, (s.running q).getD 0), (16, 5, x.lnq.length),
    (24, 1, b1 ((s.ctxOf q (s.ectx q)).st == .armed)), (25, 1, b1 (s.emRun q))]

/-- SEQ.GSTAT (02 R25): swaths open, and emergency contexts running.
[log 15: DEDUCED] -/
def State.seqGstat (s : State) : Word :=
  fields [(0, 16, maskN 16 (fun q => (vget s.seq q).swst == .opened)), (16, 16, maskN 16 s.emRun)]

/-- The LNQ word (03 R75). -/
def State.lnqWord (s : State) (q : Nat) : Word :=
  let l := (vget s.seq q).lnq
  match l with
  | [] => 0
  | e :: _ => fields [(0, 5, l.length), (5, 2, match e.kind with | .lines => 1 | .blank => 2 | .spit => 3), (32, 32, e.left)]

/-- The SWCOUNT word (03 R75). -/
def State.swCount (s : State) (q : Nat) : Word :=
  let x := vget s.seq q
  fields [(0, 16, sat 16 x.nLate), (16, 16, sat 16 x.nUnder), (32, 16, sat 16 x.nOther)]

/-- FIR.PORTSTAT[p] (06 R207). -/
def State.firPortStat (s : State) (p : Nat) : Word :=
  let f := vget s.fp p
  fields [(0, 3, f.band), (3, 3, f.target), (6, 1, f.bank), (7, 1, b1 (f.push.any (fun u => !u.done))), (8, 1, b1 f.hot),
    (9, 1, b1 (vget s.fire.hvok (p / 8))), (10, 1, b1 (s.telStale p)), (11, 1, b1 f.vrange),
    (12, 1, b1 (f.sliceErr || f.liveBad || f.released)), (16, 12, f.es), (32, 16, cutN 16 f.htemp), (48, 16, f.vsup)]

/-- FIR.CNT[p] (06 R207). -/
def State.firCnt (s : State) (p : Nat) : Word :=
  let f := vget s.fp p
  fields [(0, 16, f.hotLn), (16, 16, f.vln), (32, 16, f.rowOvr), (48, 16, f.bandChg)]

end Sys2Proof.Machine
end

