-- ==== Sys2Proof/Machine/Context.lean ====
section
/-! DEFINITION. Running Ramest programs: dispatch, save and restore (02 R32-R36), fetch and its faults (03 R61-R65, R535), the common course of every instruction, and the swath's opening (02 R37, R38). -/
namespace Sys2Proof.Machine
open Sys2Proof

/-! ## Dispatch (02 R32-R36) -/

/-- Context c may take sequencer q now: READY for 4 ticks, and allowed by the swath rule (02 R35, R36). -/
def State.eligible (s : State) (q c : Nat) : Bool :=
  let x := s.ctxOf q c
  x.st == .ready && s.due x.readyAt (4 * qTick) &&
    ((vget s.seq q).swst != .opened || (vget s.seq q).owner == some c || x.attr != 0)

/-- The eligible context that R32 picks among those of level `lo` and above. -/
def State.pick (s : State) (q lo : Nat) : Option Nat :=
  [3, 2, 1, 0].foldl (fun r l => match r with
    | some c => some c
    | none => if l < lo then none
      else rotPick 64 (vget (vget s.seq q).lastRan l) (fun c => s.eligible q c && (s.ctxOf q c).prio == l)) none

/-- Context c, which is resident, runs from now on. -/
def State.runCtx (s : State) (q c : Nat) : State :=
  let l := (s.ctxOf q c).prio
  (s.modCtx q c (fun x => { x with st := .running })).modSeq q (fun x => { x with
    disp := .idle, resident := some c, lastRan := vset x.lastRan l c, freeAt := s.now })

/-- The resident context still has a state to save.
[log 14: DESIGN CHOICE] -/
def State.toSave (s : State) (q : Nat) : Bool :=
  match (vget s.seq q).resident with
  | some c => let t := (s.ctxOf q c).st; t == .ready || t == .waiting || t == .running
  | none => false

/-- The running context gives way: it is READY, and its save begins. -/
def State.giveWay (s : State) (q c : Nat) : State :=
  (s.modCtx q c (fun x => { x with st := .ready, readyAt := s.now })).modSeq q (fun x => { x with disp := .saving s.now })

/-- The sequencer turns to context c: at once where it is resident, else by a save or a restore.
[log 14: DESIGN CHOICE] -/
def State.turnTo (s : State) (q c : Nat) : State :=
  if (vget s.seq q).resident == some c then s.runCtx q c
  else if s.toSave q then s.modSeq q (fun x => { x with disp := .saving s.now })
  else s.modSeq q (fun x => { x with resident := none, disp := .restoring c s.now })

/-- Sequencer q stands at an instruction boundary (03 R64): the tick in which its next instruction begins. -/
def State.atBoundary (s : State) (q : Nat) : Bool :=
  decide ((vget s.seq q).freeAt ≤ s.now && s.now < (vget s.seq q).freeAt + qTick)

/-- A context of a higher level than c is to run: it goes before the restore of c that is under way.
[log 14: DESIGN CHOICE] -/
def State.overtake (s : State) (q c : Nat) : State :=
  match s.pick q ((s.ctxOf q c).prio + 1) with
  | some d => s.modSeq q (fun x => { x with disp := .restoring d s.now })
  | none => s

/-- CONTEXT_DISPATCH: with no running context, the one that R32 picks; else one of a higher level, at the running
context's next instruction boundary (02 R34; 03 R64), or in place of one that is being restored (02 R36). -/
def State.dispatch (s : State) (q : Nat) : State :=
  if s.pws.gap.isSome || s.phase != .ready then s
  else match (vget s.seq q).disp with
  | .saving _ => s
  | .restoring c _ => s.overtake q c
  | .idle => match s.running q with
    | none => match s.pick q 0 with
      | some c => s.turnTo q c
      | none => s
    | some r => if s.atBoundary q && (s.pick q ((s.ctxOf q r).prio + 1)).isSome then s.giveWay q r else s

/-- The words of the context store slot of context c of q. -/
def ctxStoreIdx (q c : Nat) : Nat := 64 * q + c

/-- CONTEXT_SAVE_DONE: 64 ticks; an armed flip mask may hit the slot (13 R407). Then the dispatcher picks again.
[log 14: DESIGN CHOICE] -/
def State.saveDone (s : State) (q : Nat) : State :=
  match (vget s.seq q).disp with
  | .saving t =>
    if !s.due t (64 * qTick) || s.pws.gap.isSome then s
    else
      let c := (vget s.seq q).resident.getD 0
      let r := s.sramWrite (Config.storeIndex (ctxStoreIdx q c) true) 128
      let s := { r.1 with
        ctxBad := (if r.2.isEmpty then [] else [ctxStoreIdx q c]) ++ r.1.ctxBad.filter (· != ctxStoreIdx q c) }
      let s := s.modSeq q (fun x => { x with resident := none, disp := .idle })
      match s.pick q 0 with
      | some d => s.turnTo q d
      | none => s
  | _ => s

/-- CONTEXT_RESTORE_DONE: 64 ticks; the context runs, or faults where its slot is uncorrectable (13 R405).
[log 14: DESIGN CHOICE] -/
def State.restoreDone (s : State) (q : Nat) : State :=
  match (vget s.seq q).disp with
  | .restoring c t =>
    if !s.due t (64 * qTick) || s.pws.gap.isSome then s
    else
      let s := s.modSeq q (fun x => { x with disp := .idle })
      if (s.ctxOf q c).st != .ready then s
      else if s.ctxBad.contains (ctxStoreIdx q c) then
        let w := Config.storeIndex (ctxStoreIdx q c) true
        (s.sramUeHit w (sramPart w)).ctxFault q c 0x0B08 (s.ctxOf q c).pc
      else (s.sramRead (Config.storeIndex (ctxStoreIdx q c) true) 128).runCtx q c
  | _ => s

/-! ## Fetch and the course of an instruction (03 R61-R65, R535) -/

/-- What the running context of a sequencer fetches. -/
inductive Fetched where
  | idle
  | fault (c code pc : Nat)
  | word (c : Nat) (i : Ram)
deriving DecidableEq, Repr, Inhabited

/-- The fetch of sequencer q (03 R59, R63, R65).
[log 4: DESIGN CHOICE] -/
def State.fetch (s : State) (q : Nat) : Fetched :=
  if s.phase != .ready || s.pws.gap.isSome || (vget s.seq q).disp != .idle then .idle
  else match s.running q with
  | none => .idle
  | some c =>
    let x := s.ctxOf q c
    if x.nwords ≤ x.pc then .fault c 0x030A x.pc
    else if s.pstoreBad.contains (pKey q c x.pc) then .fault c 0x0304 x.pc
    else
      let i := ramOf (SMap.get s.pstore 0 (pKey q c x.pc))
      if ramOpcodes.contains i.op then .word c i else .fault c 0x0301 x.pc

/-- What an instruction does: it faults, completes with PC at the next word or at a target, enters a wait with its
timeout in ticks, or leaves a state that is final as it stands. -/
inductive Effect where
  | fault (code : Nat)
  | next (s : State)
  | jump (s : State) (pc : Nat)
  | hold (s : State) (k : WaitKind) (timeout : Nat)
  | final (s : State)

/-- The condition that a pending wait waits for holds (03 R73, R84-R87). Waits on the swath end by their own commands.
[log 22: DEDUCED] -/
def State.waitHolds (s : State) (q c : Nat) (k : WaitKind) : Bool :=
  match k with
  | .pos ch t atMost => let n := (vget s.enc ch).seen.count; if atMost then n ≤ t else t ≤ n
  | .tick t => t ≤ s.ticks
  | .devTime p => p ≤ s.stamp.toNat
  | .ev m all _ => let b := (vget s.seq q).evbits &&& m; if all then b == m else b != 0
  | .ax a => s.axStill a
  | .fence l co m k =>
    (!l || (vget s.seq q).swst != .opened || s.swathDone q) &&
      (!co || (s.ses (s.ctxSess q c)).req.isNone) &&
      (!m || (s.ctxOf q c).axes.all s.axStill) &&
      (!k || (List.range 4).all (fun n =>
        let x := vget s.cam n
        let own : TrigReq → Bool := fun r => r.src == .program q c
        !(x.queue.any own || x.pulse.any own || x.leaving.any own || x.frames.any (fun f => f.req.any own))))
  | .append _ | .endswath | .closing => false

/-- What a completed wait does besides (03 R86): flag C of `waitev` clears the mask bits that are set. -/
def State.waitClears (s : State) (q : Nat) (k : WaitKind) : State :=
  match k with
  | .ev m _ true => s.modSeq q (fun x => { x with evbits := x.evbits - (x.evbits &&& m) })
  | _ => s

/-- The end of an instruction of context c whose last tick is now: the next begins in the tick that follows. -/
def State.retire (s : State) (q c pc : Nat) : State :=
  (s.modCtx q c (fun x => { x with pc := pc })).modSeq q (fun x => { x with freeAt := s.now + qTick })

/-- The wait of an instruction whose last entry tick is now and which has `entry` entry ticks (03 R83).
[log 13: DEDUCED] -/
def State.enterWait (s : State) (q c entry : Nat) (k : WaitKind) (timeout : Nat) : State :=
  let pc := (s.ctxOf q c).pc + 1
  if s.waitHolds q c k then ((s.waitClears q k).modCtx q c (fun x => { x with t := false })).retire q c pc
  else if timeout == 1 || timeout == 2 then (s.modCtx q c (fun x => { x with t := true })).retire q c pc
  else s.modCtx q c (fun x => { x with
    st := .waiting,
    wait := some { kind := k, deadline := if timeout = 0 then none else some (s.now - (entry - 1) * qTick + timeout * qTick) } })

/-- What the effect of an instruction at context c of q leaves. -/
def State.complete (s : State) (q c ticks : Nat) (r : Effect) : State :=
  let pc := (s.ctxOf q c).pc
  match r with
  | .fault code => s.ctxFault q c code pc
  | .next s' => s'.retire q c (pc + 1)
  | .jump s' t => if (s.ctxOf q c).nwords ≤ t then s.ctxFault q c 0x030A pc else s'.retire q c t
  | .hold s' k timeout => s'.enterWait q c ticks k timeout
  | .final s' => s'

/-- One instruction of sequencer q (03 R61, R535): the running context's word is fetched; where it has opcode `op`, its
`ticks` have passed since the instruction before, and no fault comes first, it has its effect. `safe` says that a
swath-safe context may execute it, `form` that its fields are legal.
[log 3: DESIGN CHOICE; log 4: DESIGN CHOICE] -/
def State.ramest (s : State) (q op : Nat) (safe : Bool) (ticks : Ctx → Ram → Nat) (form : Ram → Bool)
    (eff : State → Nat → Ctx → Ram → Effect) : State :=
  match s.fetch q with
  | .idle => s
  | .fault c code pc =>
    if s.now < (vget s.seq q).freeAt then s
    else
      let w := Config.storeIndex (pKey q c pc) false
      ((s.when (code == 0x0304) (fun s => s.sramUeHit w (sramPart w))).when (code == 0x0301)
        (fun s => s.sramRead w 1)).ctxFault q c code pc
  | .word c i =>
    let x := s.ctxOf q c
    let n := ticks x i
    if i.op ≠ op || s.now < (vget s.seq q).freeAt + (n - 1) * qTick then s
    else
      let s := s.sramRead (Config.storeIndex (pKey q c x.pc) false) 1
      if !safe && x.attr == 1 then s.ctxFault q c 0x0303 x.pc
      else if !form i then s.ctxFault q c 0x0302 x.pc
      else s.complete q c n (eff s c x i)

/-- A fixed number of ticks. -/
def takes (n : Nat) : Ctx → Ram → Nat := fun _ _ => n

/-- The tick of deadline t is past: a deadline that fell in the latest gap expires in the tick of its release (16 R461). -/
def State.expired (s : State) (t : Nat) : Bool :=
  let g := s.pws.lastGap
  let t := if g.1 ≤ t && t < g.2 then g.2 else t
  t < s.now && !s.sameTick t

/-- WAIT_COMPLETE: the condition of a pending wait is decided, in the tick of its deadline or before it (03 R83). -/
def State.waitComplete (s : State) (q c : Nat) : State :=
  let x := s.ctxOf q c
  match x.st, x.wait with
  | .waiting, some w =>
    if s.pws.gap.isNone && s.waitHolds q c w.kind && !w.deadline.any s.expired then
      (s.waitClears q w.kind).endWait q c false
    else s
  | _, _ => s

/-- WAIT_TIMEOUT: the timeout expires; the condition wins where it holds in the tick of expiry (03 R83).
[log 6: DESIGN CHOICE] -/
def State.waitTimeout (s : State) (q c : Nat) : State :=
  let x := s.ctxOf q c
  match x.st, x.wait with
  | .waiting, some w => match w.deadline with
    | some t =>
      if s.now < t || s.pws.gap.isSome then s
      else if s.waitHolds q c w.kind && !s.expired t then (s.waitClears q w.kind).endWait q c false
      else s.endWait q c true
    | none => s
  | _, _ => s

/-! ## The opening of a swath (02 R37, R38; 05 R156; 06 R188, R198, R200; 07 R219) -/

/-- Lines below f that became VALID on port p in this very tick: late arrivals of a swath that opens in it (04 R130). -/
def State.justDone (s : State) (p f : Nat) : Nat :=
  let x := vget s.str p
  if x.doneLines ≠ 0 && s.sameTick x.doneAt then
    ((vget s.ring p).slots.filter (fun y => y.2.st == .valid && y.2.line < f && x.doneFirst ≤ y.2.line &&
      y.2.line < x.doneFirst + x.doneLines)).length
  else 0

/-- What an opening swath does on one of its ports: the ring drops lines below F (02 R37), band mode, HOT, the
high-voltage state, SYNC.
[log 20: DEDUCED; log 21: DEDUCED] -/
def State.openPort (s : State) (q n f : Nat) (p : Nat) : State :=
  let cut := s.justDone p f
  let s := s.modRing p (fun r => { r with
    base := f, readDone := none, lateRun := none,
    slots := r.slots.filter (fun x => x.2.st == .pending || f ≤ x.2.line) })
  let s := s.modStr p (fun x => { x with fresh := true, lateArr := satAdd 16 x.lateArr cut })
  let g := p / 8
  let mode := (vget s.seq q).bandMode
  let up := vget s.fire.hven g && s.dueFree (vget s.fire.roseAt g) (s.hvSettle * qMs)
  let stays := (vget s.fp p).hot && !s.cool p
  let fresh := (vget s.fp p).hotNew
  let s := s.modFp p (fun x => { x with
    mode := mode, target := if mode = 0 then x.target else mode - 8, hv := up, hot := stays, hotNew := false,
    lines := [], vRun := none, staleRun := none })
  let s := s.modKl p (fun k => { k with lastRead := none, prevRead := none })
  let s := if stays then
      (s.when fresh (fun s => s.setEv q 0x4000)).postUnit p (s.ev 2 0x0501 p (some q) 0 0 (some f))
    else s
  if s.inService p then s.sendSync p f (s.firRT p)
  else s.postTo n (s.ev 2 0x0313 p (some q) 0)

/-- The row delays of a swath's ports, keyed 8·p + k (06 R175, R208). -/
def State.rowDelays (s : State) (set : Nat) (ports : List Nat) : SMap Nat :=
  (ports.flatMap (fun p => (List.range 8).map (fun k =>
    (8 * p + k, s.tab (0x02900000 + 2 * (512 * set + 8 * p + k)) 2 % 4096)))).filter (fun x => x.2 != 0)

/-- Rebases of channel c accepted in the present tick: the opening of a swath in it wins, and they are refused (05 R164). -/
def State.rebaseLost (s : State) (c : Nat) : State :=
  let hit := fun (d : Timed) => match d.what with | .rebase k (some _) _ _ t => k == c && s.sameTick t | _ => false
  let s' := { s with agenda := s.agenda.filter (fun d => !hit d) }
  s'.each (s.agenda.filter hit) (fun s d => match d.what with | .rebase _ _ _ n _ => s.postErr n 0x070B c | _ => s)

/-- A swath opens for context c of q with first line f at position p0.
[log 17: DEDUCED] -/
def State.openSwath (s : State) (q c f : Nat) (p0 : Int) : State :=
  let x := vget s.seq q
  let n := s.ctxSess q c
  let ports := those 64 (s.inSegment q)
  let ch := s.rf (0x01000100 + 8 * q) 1 0
  let pl := s.reg (0x03400400 + 8 * q)
  let back := bit pl 0
  let cnt := (x.swCnt + 1) % 2 ^ 28
  let at0 := (vget s.enc ch).seen.count
  let start := if back then p0 + 1 else p0 - 1
  let s := s.modSeq q (fun x => { x with
    swst := .opened, doubt := false, owner := some c, lnq := [], swCnt := cnt, sw := q * 2 ^ 28 + cnt,
    swF := f, swP0 := p0, swPitch := x.pitch, swRowdly := x.rowdly, swEnc := ch, swBack := back,
    swNoInterp := bit pl 1, swMinPer := max 6250 (bits pl 31 16), swPorts := ports,
    excluded := ports.filter (fun p => !s.inService p), gone := [], nLate := 0, nUnder := 0, nOther := 0,
    otherLn := none, nEvents := 0, underrun := none, readLn := none, doneAt := 0, aborted := none, printed := none,
    lineUndo := none, swD := s.rowDelays x.rowdly ports })
  let s := s.modPlace q (fun _ => { hwm := if beyond back at0 start then at0 else start, openAt := s.now })
  let s := s.rebaseLost ch
  let s := s.postTo n (s.ev 4 0 q (some q) 0 0 (some f))
  let s := s.each ports (fun s p => s.openPort q n f p)
  if (vget s.enc ch).seen.los then s.makeDoubt q else s

/-- The ports of sequencer q's segment are all claimed by session n (02 R37). -/
def State.segClaimed (s : State) (q n : Nat) : Bool := (those 64 (s.inSegment q)).all (fun p => s.holds n p)

/-! ## Commands -/

def execContextDispatch (e : Env) (q : Fin 16) (s : State) : Host.Outcome State Fault Refusal := .next ((s.arrive e).dispatch q)
def execContextSaveDone (e : Env) (q : Fin 16) (s : State) : Host.Outcome State Fault Refusal := .next ((s.arrive e).saveDone q)
def execContextRestoreDone (e : Env) (q : Fin 16) (s : State) : Host.Outcome State Fault Refusal :=
  .next ((s.arrive e).restoreDone q)
def execWaitComplete (e : Env) (q : Fin 16) (c : Fin 64) (s : State) : Host.Outcome State Fault Refusal :=
  .next ((s.arrive e).waitComplete q c)
def execWaitTimeout (e : Env) (q : Fin 16) (c : Fin 64) (s : State) : Host.Outcome State Fault Refusal :=
  .next ((s.arrive e).waitTimeout q c)

end Sys2Proof.Machine
end

