-- ==== Sys2Proof/Machine/Arith.lean ====
section
/-! DEFINITION. The arithmetic and move instructions of Ramest (03 R66, R74). -/
namespace Sys2Proof.Machine
open Sys2Proof

/-- `ldi`: the immediate, or with flag H the high 20 bits. -/
def ldiValue (x : Ctx) (i : Ram) : Word :=
  if i.flag 0 then setBits (x.rd i.a) 63 44 i.imm else i.simm

/-- `ldi`. -/
def stepLdi (s : State) (q c : Nat) (x : Ctx) (i : Ram) : Effect :=
  .next (s.modCtx q c (fun y => y.wr i.a (ldiValue x i)))

/-- `add`. -/
def stepAdd (s : State) (q c : Nat) (x : Ctx) (i : Ram) : Effect :=
  .next (s.modCtx q c (fun y => (y.addFlags (x.rd i.a) (x.src i)).wr i.a (x.rd i.a + x.src i)))

/-- `sub`. -/
def stepSub (s : State) (q c : Nat) (x : Ctx) (i : Ram) : Effect :=
  .next (s.modCtx q c (fun y => (y.subFlags (x.rd i.a) (x.src i)).wr i.a (x.rd i.a - x.src i)))

/-- `and`. -/
def stepAnd (s : State) (q c : Nat) (x : Ctx) (i : Ram) : Effect :=
  .next (s.modCtx q c (fun y => (y.logicFlags (x.rd i.a &&& x.src i)).wr i.a (x.rd i.a &&& x.src i)))

/-- `or`. -/
def stepOr (s : State) (q c : Nat) (x : Ctx) (i : Ram) : Effect :=
  .next (s.modCtx q c (fun y => (y.logicFlags (x.rd i.a ||| x.src i)).wr i.a (x.rd i.a ||| x.src i)))

/-- `cmp`. -/
def stepCmp (s : State) (q c : Nat) (x : Ctx) (i : Ram) : Effect :=
  .next (s.modCtx q c (fun y => y.subFlags (x.rd i.a) (x.src i)))

/-- What `mov` copies: gB, or with flag S a special source. -/
def State.movValue (s : State) (q c : Nat) (x : Ctx) (i : Ram) : Word :=
  if !i.flag 0 then x.rd i.b
  else match i.b with
  | 0 => wd x.pc
  | 1 => wd (vget s.seq q).ln
  | 2 => wd (vget s.seq q).sw
  | _ => fields [(0, 6, c), (8, 4, q), (16, 8, x.session)]

/-- `mov`. -/
def stepMov (s : State) (q c : Nat) (x : Ctx) (i : Ram) : Effect :=
  .next (s.modCtx q c (fun y => y.wr i.a (s.movValue q c x i)))

/-- LDI (03 R74). -/
def execLdi (e : Env) (q : Fin 16) (s : State) : Host.Outcome State Fault Refusal :=
  .next ((s.arrive e).ramest q 0x10 true (takes 1)
    (fun i => i.only 1 true false (if i.flag 0 then 2 ^ 20 - 1 else imm44)) (fun s c => stepLdi s q c))
/-- ADD (03 R74). -/
def execAdd (e : Env) (q : Fin 16) (s : State) : Host.Outcome State Fault Refusal :=
  .next ((s.arrive e).ramest q 0x11 true (takes 1) Ram.arith (fun s c => stepAdd s q c))
/-- SUB (03 R74). -/
def execSub (e : Env) (q : Fin 16) (s : State) : Host.Outcome State Fault Refusal :=
  .next ((s.arrive e).ramest q 0x12 true (takes 1) Ram.arith (fun s c => stepSub s q c))
/-- AND (03 R74). -/
def execAndI (e : Env) (q : Fin 16) (s : State) : Host.Outcome State Fault Refusal :=
  .next ((s.arrive e).ramest q 0x13 true (takes 1) Ram.arith (fun s c => stepAnd s q c))
/-- OR (03 R74). -/
def execOrI (e : Env) (q : Fin 16) (s : State) : Host.Outcome State Fault Refusal :=
  .next ((s.arrive e).ramest q 0x14 true (takes 1) Ram.arith (fun s c => stepOr s q c))
/-- CMP (03 R74). -/
def execCmp (e : Env) (q : Fin 16) (s : State) : Host.Outcome State Fault Refusal :=
  .next ((s.arrive e).ramest q 0x15 true (takes 1) Ram.arith (fun s c => stepCmp s q c))
/-- MOV (03 R74). -/
def execMov (e : Env) (q : Fin 16) (s : State) : Host.Outcome State Fault Refusal :=
  .next ((s.arrive e).ramest q 0x16 true (takes 1)
    (fun i => i.only 1 true true 0 && (!i.flag 0 || i.b < 4)) (fun s c => stepMov s q c))

end Sys2Proof.Machine
end

