-- ==== Sys2Proof/Machine/Driving.lean ====
section
/-! DEFINITION. The motion and camera instructions of Ramest (03 R70, R91-R93). -/
namespace Sys2Proof.Machine
open Sys2Proof

/-- A motion instruction on an axis (03 R67, R70, R91): the axis claim, then the motion block's answer in T. The axis
counts as commanded by the context and the sequencer.
[log 19: DEDUCED] -/
def State.drive (s : State) (q c a : Nat) (x : Ctx) (op : MotOp) : Effect :=
  if !s.holds x.session (uAx a) then .fault 0x0308
  else
    let s := s.modCtx q c (fun y => { y with axes := addOnce a y.axes })
    let s := s.modSeq q (fun y => { y with moved := addOnce a y.moved })
    let r := s.motion a x.session op (some q)
    .next (r.1.modCtx q c (fun y => { y with t := r.2 != 0 }))

/-- `move`: |gA| is below 2^40. -/
def stepMove (s : State) (q c : Nat) (x : Ctx) (i : Ram) : Effect :=
  let v := x.rdI i.a
  if 2 ^ 40 ≤ v.natAbs then .fault 0x0302 else s.drive q c i.imm x (.move (i.flag 0) v)

/-- `vel`: gA[63:32] is 0. -/
def stepVel (s : State) (q c : Nat) (x : Ctx) (i : Ram) : Effect :=
  let v := (x.rd i.a).toNat
  if 2 ^ 32 ≤ v then .fault 0x0302 else s.drive q c i.imm x (.vel v)

/-- `acc`: gA[63:32] is 0. -/
def stepAcc (s : State) (q c : Nat) (x : Ctx) (i : Ram) : Effect :=
  let v := (x.rd i.a).toNat
  if 2 ^ 32 ≤ v then .fault 0x0302 else s.drive q c i.imm x (.acc v)

/-- `stop`. -/
def stepStop (s : State) (q c : Nat) (x : Ctx) (i : Ram) : Effect := s.drive q c i.imm x .stop

/-- `home`: sequence IMM[5:4]. -/
def stepHome (s : State) (q c : Nat) (x : Ctx) (i : Ram) : Effect := s.drive q c (i.imm % 8) x (.home (i.imm / 16))

/-- `camtrig` (03 R92; 08 R255, R259): a refusal sets T and posts CAM_REFUSED. -/
def stepCamtrig (s : State) (q c : Nat) (x : Ctx) (i : Ram) : Effect :=
  let k := i.imm
  if !s.holds x.session (uCam k) then .fault 0x0308
  else
    let src : TrigSrc := .program q c
    let d := s.trigRefusal k src
    let s := if d ≠ 0 then s.camPost k src 0x0904 (wd d) else s.trigAccept k src q
    .next (s.modCtx q c (fun y => { y with t := d != 0 }))

/-- `camset` (03 R93; 08 R261): the generation assigned goes to gB. -/
def stepCamset (s : State) (q c : Nat) (x : Ctx) (i : Ram) : Effect :=
  let k := i.imm
  let v := (x.rd i.a).toNat
  if 256 ≤ v then .fault 0x0302
  else if !s.holds x.session (uCam k) then .fault 0x0308
  else if (vget s.cam k).pend.isSome then
    .next ((s.camPost k (.program q c) 0x0904 2).modCtx q c (fun y => { y with t := true }))
  else
    let s := s.setAccept k v (.program q c)
    .next (s.modCtx q c (fun y => { y.wr i.b (wd (vget s.cam k).lastGen) with t := false }))

/-- MOVE (03 R91). -/
def execMove (e : Env) (q : Fin 16) (s : State) : Host.Outcome State Fault Refusal :=
  .next ((s.arrive e).ramest q 0x40 false (takes 4) (fun i => i.only 1 true false 7) (fun s c => stepMove s q c))
/-- VEL (03 R91). -/
def execVel (e : Env) (q : Fin 16) (s : State) : Host.Outcome State Fault Refusal :=
  .next ((s.arrive e).ramest q 0x41 false (takes 4) (fun i => i.only 0 true false 7) (fun s c => stepVel s q c))
/-- ACC (03 R91). -/
def execAcc (e : Env) (q : Fin 16) (s : State) : Host.Outcome State Fault Refusal :=
  .next ((s.arrive e).ramest q 0x42 false (takes 4) (fun i => i.only 0 true false 7) (fun s c => stepAcc s q c))
/-- STOP (03 R91). -/
def execStop (e : Env) (q : Fin 16) (s : State) : Host.Outcome State Fault Refusal :=
  .next ((s.arrive e).ramest q 0x43 false (takes 4) (fun i => i.only 0 false false 7) (fun s c => stepStop s q c))
/-- HOME (03 R91). -/
def execHome (e : Env) (q : Fin 16) (s : State) : Host.Outcome State Fault Refusal :=
  .next ((s.arrive e).ramest q 0x44 false (takes 4) (fun i => i.only 0 false false 0x37) (fun s c => stepHome s q c))
/-- CAMTRIG (03 R92). -/
def execCamtrig (e : Env) (q : Fin 16) (s : State) : Host.Outcome State Fault Refusal :=
  .next ((s.arrive e).ramest q 0x50 true (takes 2) (fun i => i.only 0 false false 3) (fun s c => stepCamtrig s q c))
/-- CAMSET (03 R93). -/
def execCamset (e : Env) (q : Fin 16) (s : State) : Host.Outcome State Fault Refusal :=
  .next ((s.arrive e).ramest q 0x51 true (takes 4) (fun i => i.only 0 true true 3) (fun s c => stepCamset s q c))

end Sys2Proof.Machine
end

