-- ==== Sys2Proof/Machine/Kennel.lean ====
section
/-! DEFINITION. The quarantine (12 R383, R384): its entry, the drain of DMA, and the release, for a session or for one unit. -/
namespace Sys2Proof.Machine
open Sys2Proof

/-! ## Entry -/

/-- The units that session n holds. -/
def State.unitsOf (s : State) (n : Nat) : List Nat := those 101 (s.holds n)

/-- Requests of a camera that end without a frame (10 R319, 12 R383): those of the contexts, and where the camera itself
is revoked the others too. -/
def State.camCut (s : State) (c : Nat) (cs : List (Nat × Nat)) (all : Bool) : State :=
  let cut := fun (src : TrigSrc) => match src with
    | .program q k => cs.contains (q, k)
    | _ => all
  s.modCam c (fun x =>
    let x := { x with queue := x.queue.filter (fun r => !cut r.src) }
    match x.pulse with
    | some r => if cut r.src && !x.answered then { x with pulse := none } else x
    | none => x)

/-- A calibration of the session, or of a revoked unit, ends without effect (15 R442). -/
def State.calCut (s : State) (n : Nat) (whole : Bool) (units : List Nat) : State :=
  { s with cal := { s.cal with runs := s.cal.runs.map (fun r =>
      let u := if r.proc = 1 then [r.target] else if r.proc = 2 then [uSeq r.target, uCam r.target2]
        else if r.proc = 3 || r.proc = 4 then [uCam r.target] else []
      if r.st != .free && ((whole && r.session == n) || u.any units.contains) then { r with st := .closing, aborted := true } else r) } }

/-- The quarantine of session n, or (without `whole`) of some of its units, is entered: streams, axes, camera requests and
calibrations stop, and 8 ticks later, when the entry reaches LCLK, its contexts, swaths and requests end (12 R383).
[log 101: DEDUCED; log 102: DEDUCED] -/
def State.quarantine (s : State) (n : Nat) (units : List Nat) (whole : Bool) : State :=
  let cs := s.ctxsOf n (fun q => whole || units.contains (uSeq q))
  let s := s.after (s.now + 8 * qTick) (.flush n units whole)
  let s := s.each (units.filter (· < 64)) State.strCancel
  let s := s.each (those 8 (fun a => units.contains (uAx a))) (fun s a =>
    if s.motRefusal a .production .stop = 0 then s.after (s.stepEdge 0) (.motion a .stop) else s)
  let s := s.each (List.range 4) (fun s c => s.camCut c cs (units.contains (uCam c)))
  s.calCut n whole units

/-! ## The drain -/

/-- A DMA access for one of the ports, or a table walk of the session, is in flight. -/
def State.inFlight (s : State) (n : Nat) (units : List Nat) (whole : Bool) : Bool :=
  (units.filter (· < 64)).any (fun p => !(vget s.str p).reads.isEmpty) ||
    (whole && s.xlt.walks.any (fun w => w.session == n))

/-- After the drain (04 R101; 07 R219): translations of the session are invalidated, rings flush, DROP is sent, result
queues empty. Accesses still in flight are cut off. -/
def State.drain (s : State) (n : Nat) (units : List Nat) (whole : Bool) : State :=
  let s := s.when whole (fun s =>
    (s.tlbDrop n (fun _ => true)).modXlt (fun x => { x with walks := x.walks.filter (fun w => w.session != n) }))
  let s := s.each (units.filter (· < 64)) (fun s p =>
    let s := (s.ringFlushTo p (vget s.ring p).base).modStr p (fun x => { x with reads := [] })
    s.when (s.inService p) (fun s => s.sendDrop p))
  s.each (those 4 (fun c => units.contains (uCam c))) (fun s c => s.modCam c (fun x => { x with rq := [], rqLost := none }))

/-- The quarantine of session n or one of its units drains once its entry has reached LCLK and nothing is in flight.
[log 101: DEDUCED] -/
def State.drainIf (s : State) (n : Nat) : State :=
  let here := fun (t : Nat) => s.due t (8 * qTick)
  let s := match (s.ses n).kennel with
    | some k => if k.drained || !here k.entry || s.inFlight n (s.unitsOf n) true then s
        else (s.drain n (s.unitsOf n) true).modSess n (fun x => { x with kennel := some { k with drained := true } })
    | none => s
  s.each (s.mgt.revs.filter (fun r => r.session == n && !r.drained && here r.entry)) (fun s r =>
    if s.inFlight n [r.unit] false then s
    else (s.drain n [r.unit] false).modMgt (fun m => { m with
      revs := m.revs.map (fun x => if x.unit == r.unit then { x with drained := true } else x) }))

/-- Session n enters the quarantine: it is open no longer (12 R383).
[log 101: DEDUCED] -/
def State.kennelEnter (s : State) (n : Nat) : State :=
  if (s.ses n).st == .free || (s.ses n).st == .kennel then s
  else
    let s := s.modSess n (fun x => { x with st := .kennel, kennel := some { entry := s.now }, invals := [] })
    let s := s.modXlt (fun x => { x with direct := x.direct.map (fun d => if d == some n then none else d) })
    s.quarantine n (s.unitsOf n) true

/-- One unit enters the quarantine; its session stays open. A unit that no session holds stays as it is.
[log 102: DEDUCED] -/
def State.unitRevoke (s : State) (u : Nat) : State :=
  match s.holder u with
  | none => s
  | some n =>
    let s := s.modMgt (fun m => { m with
      claims := vset m.claims u none, revs := m.revs ++ [{ unit := u, session := n, entry := s.now }] })
    s.quarantine n [u] false

/-- The reads of port p's stream that complete in this very instant: the completion wins over the cut-off (12 R385).
[log 6: DESIGN CHOICE] -/
def State.completing (s : State) (p : Nat) : Nat :=
  (s.atOnce.filter (fun c => match c with
    | .dmaReadCompletion _ k _ => k.val == p
    | _ => false)).length

/-- DMA of session n's units that is still in flight is cut off and reported (12 R383); `whole` takes its walks as well. -/
def State.dmaCut (s : State) (n : Nat) (units : List Nat) (whole : Bool) : State :=
  let ports := (units.filter (· < 64)).filter (fun p => s.completing p < (vget s.str p).reads.length)
  let walks := whole && s.xlt.walks.any (fun w => w.session == n) && !s.atOnce.any (fun c => match c with
    | .tableWalkDone _ _ => true
    | _ => false)
  s.when (!ports.isEmpty || walks) (fun s =>
    ((s.postSteward (s.ev 2 0x0118 n)).each ports (fun s p =>
      s.modStr p (fun x => { x with reads := x.reads.take (s.completing p) }))).modXlt
      (fun x => { x with walks := x.walks.filter (fun w => !walks || w.session != n) }))

/-- KENNEL_CUTOFF (12 R383): 2 ms after entry, DMA still in flight is cut off and reported; the drain follows. -/
def State.kennelCutoff (s : State) (n : Nat) : State :=
  let s := match (s.ses n).kennel with
    | some k => if !k.drained && s.due k.entry (2 * qMs) then s.dmaCut n (s.unitsOf n) true else s
    | none => s
  let s := s.each (s.mgt.revs.filter (fun r => r.session == n && !r.drained && s.due r.entry (2 * qMs)))
    (fun s r => s.dmaCut n [r.unit] false)
  s.drainIf n

/-! ## Release -/

/-- Ports whose energy-table region session n owned: its pinned pages are the session's.
[log 103: DEDUCED] -/
def State.regionsOf (s : State) (n : Nat) : List Nat :=
  those 64 (fun p => bit (s.reg (etBase p)) 0 && (vget s.fp p).pins.any (s.pageHeld n))

/-- The release commits (06 R196; 12 R383, R384): EN = 0 for the ports. A READY port keeps its live copy until the push of
the all-zero table is complete.
[log 103: DEDUCED] -/
def State.releasePorts (s : State) (ports : List Nat) : State :=
  if ports.isEmpty then s
  else
    let s := s.goLive ports [] (ports.map (fun p => (etBase p, setBits (s.reg (etBase p)) 0 0 0)))
    s.each ports (fun s p =>
      let ready := s.inService p
      let s := s.modFp p (fun f => { f with
        pins := [], pinsNew := [], released := ready, live := if ready then f.live else [],
        liveErr := if ready then f.liveErr else [], liveBad := ready && f.liveBad })
      if ready then s else s.pushAgain p)

/-- Every DRAM page of session n returns to the free pool, to be filled with zeros again (12 R384; 13 R401). -/
def State.freePages (s : State) (pages : List Nat) : State :=
  let due := s.mem.retireDue.filter pages.contains
  let s := s.modMem (fun m => { m with
    owner := m.owner.filter (fun x => !pages.contains x.1), filled := m.filled.filter (fun p => !pages.contains p) })
  s.each due State.retirePage

/-- The pages of session n. -/
def State.pagesOf (s : State) (n : Nat) : List Nat := (s.mem.owner.filter (fun x => x.2 == n + 1)).map (·.1)

/-- An uncorrectable word of session n's state (13 R405): reported, and the session enters the quarantine. -/
def State.sessionEcc (s : State) (n : Nat) : State :=
  ((s.sramUeHit (Config.sessionIndex n) (sramPart (Config.sessionIndex n))).kennelEnter n).modMem (fun m => { m with
    sessBad := m.sessBad.filter (· != n) })

/-- KENNEL_RELEASE (12 R383): once the drain is done, 20 ms after entry at the latest, which the sender keeps; its commit does not begin in a
management-plane interruption (01 R13), so the release follows it.
[log 99: DEDUCED; log 101: DEDUCED] -/
def State.kennelRelease (s : State) (n : Nat) : State :=
  if s.safe.mgmtDown.isSome then s
  else
  let s := s.drainIf n
  let s := match (s.ses n).kennel with
    | some k =>
      if !k.drained then s
      else
        let s := (s.releasePorts (s.regionsOf n)).freePages (s.pagesOf n)
        let s := s.modMgt (fun m => { m with claims := m.claims.map (fun h => if h == some n then none else h) })
        let s := s.modSess n (fun x => { crec := x.crec })
        s.postSteward (s.ev 2 0x0119 n)
    | none => s
  s.each (s.mgt.revs.filter (fun r => r.session == n && r.drained)) (fun s r =>
    let s := s.releasePorts ((s.regionsOf n).filter (· == r.unit))
    let s := s.modMgt (fun m => { m with revs := m.revs.filter (fun x => x.unit != r.unit) })
    s.postSteward (s.ev 2 0x0119 n none (wd r.unit)))

/-- PERST of function f (16 R471; 18 R519): its sessions enter the quarantine, and pending MSI-X bits are discarded. -/
def State.perst (s : State) (f : Nat) : State :=
  let s := { s with msix := vmod s.msix f (fun m => { m with pending := [] }) }
  s.each (those 256 (fun n => !(s.ses n).net && (s.ses n).fn == f)) State.kennelEnter

/-- NET_ADDRESS_CHANGE (18 R515): 1 ms after the response the new address is in force, and sessions of the old one enter
the quarantine. -/
def State.netChange (s : State) (q : Nat) : State :=
  let x := vget s.net q
  match x.change with
  | none => s
  | some a =>
    if !s.due x.changeAt qMs then s
    else
      let s := { s with net := vset s.net q { addr := a } }
      s.each (those 256 (fun n => (s.ses n).net && (s.ses n).ethPort == q)) State.kennelEnter

/-! ## Commands -/

def execKennelCutoff (e : Env) (n : Fin 256) (s : State) : Host.Outcome State Fault Refusal := .next ((s.arrive e).kennelCutoff n)
def execPerst (e : Env) (f : Fin 4) (s : State) : Host.Outcome State Fault Refusal := .next ((s.arrive e).perst f)
def execNetAddressChange (e : Env) (port : Fin 8) (s : State) : Host.Outcome State Fault Refusal := .next ((s.arrive e).netChange port)

end Sys2Proof.Machine
end

