-- ==== Sys2Proof/Machine/Message.lean ====
section
/-! DEFINITION. Messages (11 R337-R340; 18 R511-R514): layouts, the checks of a request, responses, and requests held during a management-plane interruption. -/
namespace Sys2Proof.Machine
open Sys2Proof

/-! ## Layouts (18 R513, R514) -/

/-- Bytes a to b are 0. -/
def zeroAt (l : List Byte) (a b : Nat) : Bool := leAt l a (b + 1 - a) == 0

/-- A device-virtual address: bits 63:48 are 0 (11 R349). -/
def vaOk (v : Nat) : Bool := v < 2 ^ 48

/-- The count of a kind of resource, and its first unit (12 R382). -/
def kindCount (k : Nat) : Nat := if k = 0 then 64 else if k = 1 then 16 else if k = 2 then 8 else if k = 3 then 4 else 0
def kindUnit (k i : Nat) : Nat := if k = 0 then i else if k = 1 then uSeq i else if k = 2 then uAx i else uCam i

/-- An entry of the table range of SNAPSHOT lies inside one MS table (18 R514). -/
def rangeOk (a n : Nat) : Bool :=
  match regAt a with
  | some r => r.acc == .ms && r.table && a + n ≤ r.base + r.stride * r.count
  | none => false

/-- The critical commands (11 R339, 18 R513). -/
def critical (op : Nat) : Bool :=
  [0x0002, 0x0005, 0x0006, 0x0007, 0x0008, 0x0100, 0x0101, 0x0200, 0x0201, 0x0202, 0x0300, 0x0301, 0x0302, 0x0303, 0x0400,
   0x0403, 0x0404, 0x0500, 0x0502, 0x0503, 0x0602].contains op

/-- The least class that has the right to a command (11 R342): 0 Observer to 3 Steward.
[log 92: DEDUCED] -/
def leastClass (op : Nat) : Nat :=
  if [0x0005, 0x0006, 0x0007, 0x0008, 0x0500, 0x0502, 0x0503].contains op then 3
  else if op = 0x0403 || op = 0x0404 then 2
  else if inr op 0x0100 0x0202 || inr op 0x0300 0x0303 || op = 0x0400 || op = 0x0501 then 1
  else 0

def classCode : Class → Nat
  | .observer => 0 | .production => 1 | .maintenance => 2 | .steward => 3

/-! ## Tags (11 R337, R338) -/

/-- The header and payload of a message, as the tag covers them. -/
def msgBytes (op : Nat) (auth direct : Bool) (session counter xid status : Nat) (payload : List Byte) : List Byte :=
  toLE 2 op ++ toLE 1 (b1 auth + 2 * b1 direct) ++ zeros 1 ++ toLE 2 session ++ toLE 2 payload.length ++ toLE 8 counter ++
    toLE 4 xid ++ toLE 2 status ++ zeros 10 ++ payload

/-- The tag under a key: the first 16 bytes of HMAC-SHA-256. -/
def tagOf (key bytes : List Byte) : List Byte := (hmac key bytes).take 16

end Sys2Proof.Machine

namespace Sys2Proof
open Sys2Proof.Machine

/-- The message came by Ifeud. -/
def Msg.net (m : Msg) : Bool := match m.path with | .net _ _ _ => true | .pcie _ _ => false

/-- The most payload bytes of a message (11 R337). -/
def Msg.limit (m : Msg) : Nat := if m.net then 8192 else 4032

/-- Byte i and the n-byte field at i of the payload. -/
def Msg.b (m : Msg) (i : Nat) : Nat := byteAt m.payload i
def Msg.f (m : Msg) (i n : Nat) : Nat := leAt m.payload i n

/-- The header is well formed (11 R337): `op` is the row's, so only reserved bits, LEN, DIRECT and COUNTER remain.
[log 85: DESIGN CHOICE] -/
def Msg.headOk (m : Msg) (op : Nat) : Bool :=
  m.reserved == 0 && m.len == m.payload.length && m.len ≤ m.limit && (m.auth || m.counter == 0) &&
    m.counter < 2 ^ 64 && m.xid < 2 ^ 32 && (!m.direct || (op == 1 && !m.net)) &&
    (if op = 1 then m.session == 0xFFFF else m.session < 256)

/-- SNAPSHOT's ranges as (address, bytes). -/
def Msg.ranges (m : Msg) : List (Nat × Nat) := (List.range (m.b 8)).map (fun i => (m.f (16 + 16 * i) 8, m.f (24 + 16 * i) 8))

/-- The layout of a command's payload (18 R511, R513-R515; 15 R439). `sub` is the KIND, OP or PROC that the row stands for.
[log 85: DESIGN CHOICE] -/
def Msg.bodyOk (m : Msg) (op sub : Nat) : Bool :=
  let l := m.payload
  let n := l.length
  if op = 0x0001 then
    n == 24 && m.b 0 < 4 && (m.f 2 2 == 0 || inr (m.f 2 2) 10 10000) && (m.net || m.f 4 2 == 0) && zeroAt l 6 7
  else if op = 0x0005 then n == 4 && m.b 0 == sub && m.b 2 < 101 && zeroAt l 3 3
  else if op = 0x0006 then n == 64 && m.b 0 < 16 && m.b 1 < 4 && zeroAt l 2 15
  else if op = 0x0007 then n == 4 && m.b 0 < 16 && zeroAt l 1 3
  else if op = 0x0008 then n == 64 && m.b 0 < 8 && m.b 1 < 8 && zeroAt l 10 15 && zeroAt l 32 63
  else if op = 0x0100 || op = 0x0101 then
    inr (m.b 0) 1 64 && n == 4 + 2 * m.b 0 && zeroAt l 1 3 &&
      (List.range (m.b 0)).all (fun i => m.b (5 + 2 * i) < kindCount (m.b (4 + 2 * i)))
  else if op = 0x0200 then n == 4 && inr (m.f 0 4) 1 1000
  else if op = 0x0201 then 4 ≤ n && n == 4 + 4 * m.f 0 4
  else if op = 0x0202 then n == 8 && m.f 0 2 / 8 == 0 && (!(m.b 0).testBit 2 || m.f 0 8 < 2 ^ 36)
  else if op = 0x0203 then n == 16 && vaOk (m.f 0 8) && m.f 0 8 % 65536 == 0 && m.f 8 8 % 65536 == 0
  else if op = 0x0204 then n == 4 && m.b 0 < 64 && zeroAt l 1 3
  else if op = 0x0205 then 8 ≤ n && vaOk (m.f 0 8)
  else if op = 0x0206 then n == 12 && vaOk (m.f 0 8) && m.f 8 4 ≤ m.limit
  else if op = 0x0300 then n == 16 && m.b 0 < 16 && m.b 1 < 64 && m.b 2 < 4 && zeroAt l 3 3 && vaOk (m.f 8 8) && m.f 8 8 % 8 == 0
  else if op = 0x0301 || op = 0x0302 then n == 128 && m.b 0 < 16 && m.b 1 < 64 && zeroAt l 4 7
  else if op = 0x0303 then n == 4 && m.b 0 < 16 && m.b 1 < 64 && m.b 2 < 2 && zeroAt l 3 3
  else if op = 0x0400 then
    n == 16 && m.b 0 < 16 && m.b 1 < 2 && zeroAt l 2 3 && ((m.b 1).testBit 0 || m.f 8 8 == 0)
  else if op = 0x0402 then
    m.b 8 ≤ 4 && n == 16 + 16 * m.b 8 && vaOk (m.f 0 8) && m.f 0 8 % 16 == 0 && zeroAt l 9 15 &&
      m.ranges.all (fun r => rangeOk r.1 r.2) && m.ranges.foldl (fun a r => a + r.2) 0 ≤ 2 ^ 22
  else if op = 0x0403 then
    n == 64 && m.b 0 == sub && m.b 3 < 2 && inr (m.f 4 4) 1 600000 && (m.b 2 == 0 || sub == 2)
  else if op = 0x0404 then n == 8 && m.b 4 == sub && zeroAt l 5 7
  else if op = 0x0500 then n == 16 && zeroAt l 2 3 && vaOk (m.f 8 8)
  else if op = 0x0501 then n == 16 && zeroAt l 2 7 && vaOk (m.f 8 8)
  else if op = 0x0502 then n == 16 && vaOk (m.f 0 8) && m.f 8 4 ≤ 2 ^ 25 && zeroAt l 12 15
  else if op = 0x0600 then n == 8 && m.f 0 4 % 8 == 0 && inr (m.f 4 2) 1 (if m.net then 1024 else 504) && zeroAt l 6 7
  else if op = 0x0601 then
    m.f 0 4 % 8 == 0 && inr (m.f 4 2) 1 (if m.net then 1023 else 503) && n == 8 + 8 * m.f 4 2 && zeroAt l 6 7
  else if op = 0x0602 then n == 16 && m.f 0 4 % 8 == 0 && zeroAt l 4 7
  else n == 0

/-- The tag that a request should carry. -/
def Msg.tagOk (m : Msg) (key : List Byte) (op : Nat) : Bool :=
  m.tag == tagOf key (msgBytes op true m.direct m.session m.counter m.xid 0 m.payload)

end Sys2Proof

namespace Sys2Proof.Machine
open Sys2Proof

/-! ## Responses (11 R337) -/

/-- A response. -/
def response (op session : Nat) (auth : Bool) (counter xid status : Nat) (payload key : List Byte) : Rsp :=
  let b := msgBytes (op + 0x8000) auth false session counter xid status payload
  { op := op + 0x8000, session := session, auth := auth, counter := counter, xid := xid, status := status, payload := payload,
    tag := if auth then tagOf key b else [] }

/-- The bytes of a response, as RSPBUF shows them. -/
def Rsp.bytes (r : Rsp) : List Byte :=
  msgBytes r.op r.auth false r.session r.counter r.xid r.status r.payload ++ r.tag

/-- The response to request m of session n (11 R335, R337; 18 R518): to the session page, with vector RSP, or to the address
of the request, where it is kept if `keep`.
[log 88: DEDUCED] -/
def State.reply (s : State) (n op : Nat) (m : Msg) (status : Nat) (payload : List Byte) (keep : Bool) : State :=
  let x := s.ses n
  let auth := m.auth && x.keyed
  let r := response op n auth (if auth then m.counter else 0) m.xid status payload x.key
  match m.path with
  | .pcie _ _ =>
    (s.modSess n (fun x => { x with busy := false, done := true, status := status, rsp := r })).raiseSess n 0
  | .net _ addr udp =>
    let k : Kept := { xid := m.xid, counter := m.counter, tag := m.tag, rsp := r }
    let s := s.when keep (fun s => s.modSess n (fun x => { x with
      kept := (x.kept ++ [k]).drop (x.kept.length + 1 - 64) }))
    s.emit (.datagram r addr udp)

/-! ## The checks of a request (11 R340) -/

/-- What the checks say: refuse with a code, answer again from the store, or execute. `kept` says that the request passed
step 5, so that its response is kept. -/
inductive Verdict where
  | refuse (code : Nat) (kept : Bool)
  | again (r : Rsp)
  | pass
deriving DecidableEq, Repr, Inhabited

/-- A refusal with BADTAG; the sixteenth in a row revokes the session with AUTH_LOCK.
[log 90: DEDUCED] -/
def State.badTag (s : State) (n : Nat) : State :=
  let k := (s.ses n).badTags + 1
  if k < 16 then s.modSess n (fun x => { x with badTags := k })
  else (s.postErr n 0x010E n).kennelEnter n

/-- Steps 4 and 5: the tag, a request answered before, and the counter.
[log 88: DEDUCED; log 90: DEDUCED] -/
def State.authStep (s : State) (n op : Nat) (m : Msg) : State × Verdict :=
  let x := s.ses n
  if m.auth && !(x.keyed && m.tagOk x.key op) then (s.badTag n, .refuse 0x0103 false)
  else match (if x.net then x.kept.find? (fun k => k.xid == m.xid && k.counter == m.counter && k.tag == m.tag) else none) with
  | some k => (s, .again k.rsp)
  | none =>
    if !m.auth then (s, .pass)
    else if x.lastCtr = 2 ^ 64 - 1 then (s, .refuse 0x010D false)
    else if m.counter ≤ x.lastCtr then (s, .refuse 0x0104 false)
    else (s.modSess n (fun x => { x with lastCtr := m.counter, badTags := 0 }), .pass)

/-- Step 7 (11 R342, R345): a session of the commissioning state has KEY_INSTALL into slot 0 with ceiling Steward alone. -/
def State.mayCommand (s : State) (n op : Nat) (m : Msg) : Bool :=
  let x := s.ses n
  if x.commissioning then op == 6 && m.b 0 == 0 && m.b 1 == 3 else leastClass op ≤ classCode x.cls

/-- Steps 2 to 7 for session n, which is OPENING or CONFIRMED; a request that passes renews the lease (11 R346). `form` says
that the payload keeps the command's layout. -/
def State.checkMsg (s : State) (n op : Nat) (m : Msg) (form : Bool) : State × Verdict :=
  let x := s.ses n
  if !(m.headOk op && form) then (s, .refuse 0x010C false)
  else if !m.auth && x.keyed && (critical op || x.net) then (s, .refuse 0x010A false)
  else
    let a := s.authStep n op m
    if a.2 != .pass then a
    else if x.st != .confirmed && op != 2 then (a.1, .refuse 0x0109 true)
    else if !a.1.mayCommand n op m then (a.1, .refuse 0x0102 true)
    else (a.1.modSess n (fun x => { x with renewAt := s.now }), .pass)

/-- What a command answers: the new state and, unless its response comes later, the status and the response payload. -/
abbrev Answer := State × Option (Nat × List Byte)

/-- A status without a payload. -/
def State.say (s : State) (status : Nat) : Answer := (s, some (status, []))

/-- The management cores' own writes for an accepted request (13 R405, R407): the session's state takes its counter, and
the working memory a word; the flip mask may make either uncorrectable, which the next read of it finds. A bad working
memory restarts the cores: a management-plane interruption (01 R13).
[log 107: DESIGN CHOICE] -/
def State.mgmtWrites (s : State) (n : Nat) : State :=
  let r := s.sramWrite (Config.sessionIndex n) 1
  let s := if r.2.isEmpty then r.1 else r.1.modMem (fun m => { m with sessBad := addOnce n m.sessBad })
  if !(s.flipFilter && Config.isWork s.flipAddr) then s
  else
    let w := s.flipAddr
    let r := s.sramWrite w 1
    if r.2.isEmpty then r.1.sramRead w 1
    else (r.1.sramUeHit w (sramPart w)).modSafe (fun x => { x with mgmtDown := some s.now })

/-- Request m of session n decided (11 R536). A session whose state has an uncorrectable word enters the quarantine first
(13 R405).
[log 86: DESIGN CHOICE; log 149: DEDUCED] -/
def State.decideMsg (s : State) (n op : Nat) (m : Msg) (form : Bool) (act : State → Nat → Answer) : State :=
  let s := s.when (s.mem.sessBad.contains n) (fun s => s.sessionEcc n)
  if (s.ses n).st == .kennel || (s.ses n).st == .free then s.reply n op m 0x0101 [] false
  else match s.checkMsg n op m form with
  | (s, .refuse c k) => s.reply n op m c [] k
  | (s, .again r) => match m.path with
    | .net _ addr udp => (s.modXlt (fun x => { x with netResent := satAdd 32 x.netResent 1 })).emit (.datagram r addr udp)
    | .pcie _ _ => s
  | (s, .pass) => match act (s.mgmtWrites n) n with
    | (s, some r) => s.reply n op m r.1 (if r.1 = 0 || !r.2.isEmpty then r.2 else []) true
    | (s, none) => s.modSess n (fun x => { x with busy := !x.net })

/-- The request that a command brings: opcode, the KIND, OP or PROC that its row stands for, and the message. -/
def requestOf (i : Instr) : Option (Nat × Nat × Msg) :=
  match i with
  | .regRead _ m => some (0x0600, 0, m)
  | .sessionConfirm _ m => some (0x0002, 0, m)
  | .sessionClose _ m => some (0x0003, 0, m)
  | .heartbeat _ m => some (0x0004, 0, m)
  | .revokeSession _ m => some (0x0005, 0, m)
  | .keyInstall _ m => some (0x0006, 0, m)
  | .keyErase _ m => some (0x0007, 0, m)
  | .netSet _ m => some (0x0008, 0, m)
  | .snapshot _ m => some (0x0402, 0, m)
  | .regWrite _ m => some (0x0601, 0, m)
  | .authWrite _ m => some (0x0602, 0, m)
  | .claim _ m => some (0x0100, 0, m)
  | .release _ m => some (0x0101, 0, m)
  | .memAlloc _ m => some (0x0200, 0, m)
  | .memFree _ m => some (0x0201, 0, m)
  | .ptSet _ m => some (0x0202, 0, m)
  | .tlbInval _ m => some (0x0203, 0, m)
  | .faultResume _ m => some (0x0204, 0, m)
  | .memWrite _ m => some (0x0205, 0, m)
  | .memRead _ m => some (0x0206, 0, m)
  | .commit _ m => some (0x0400, 0, m)
  | .stageDiscard _ m => some (0x0401, 0, m)
  | .nvWrite _ m => some (0x0500, 0, m)
  | .nvRead _ m => some (0x0501, 0, m)
  | .fwStage _ m => some (0x0502, 0, m)
  | .fwSwitch _ m => some (0x0503, 0, m)
  | .calRestore _ m => some (0x0403, 0, m)
  | .ctxLoad _ m => some (0x0300, 0, m)
  | .ctxArm _ m => some (0x0301, 0, m)
  | .ctxStart _ m => some (0x0302, 0, m)
  | .ctxStop _ m => some (0x0303, 0, m)
  | .revokeUnit _ m => some (0x0005, 1, m)
  | .repairRow _ m => some (0x0404, 1, m)
  | .repairRetest _ m => some (0x0404, 2, m)
  | .calLane _ m => some (0x0403, 1, m)
  | .calAlign _ m => some (0x0403, 2, m)
  | .calDark _ m => some (0x0403, 3, m)
  | .calFlat _ m => some (0x0403, 4, m)
  | .calTemptrim _ m => some (0x0403, 5, m)
  | .calDramrt _ m => some (0x0403, 6, m)
  | .calAbort _ m => some (0x0403, 0xFF, m)
  | _ => none

/-- Message m comes by the path of session n (11 R332, R335). -/
def State.comesFrom (s : State) (n : Nat) (m : Msg) : Bool :=
  let x := s.ses n
  m.session == n && (match m.path with
    | .pcie f open_ => !open_ && !x.net && x.fn == f.val && !x.busy
    | .net _ addr udp => x.net && x.peer == addr && x.peerPort == udp)

/-- A request of session n whose opcode satisfies p comes in this very instant and passes its checks (11 R357).
[log 6: DESIGN CHOICE] -/
def State.passesNow (s : State) (n : Nat) (p : Nat → Bool) : Bool :=
  s.atOnce.any (fun i => match requestOf i with
    | some (op, sub, m) => p op && s.comesFrom n m && (s.checkMsg n op m (m.bodyOk op sub)).2 == .pass
    | none => false)

/-- A CMDDB write while BUSY is 1 (11 R332). -/
def State.overrun (s : State) (n : Nat) : State := s.postErr n 0x010B n

/-- A response without a session of its own (11 R340 step 1): NOSESSION to a datagram, or in the open page.
[log 88: DEDUCED] -/
def State.noSession (s : State) (op : Nat) (m : Msg) : State :=
  let r := response op m.session false 0 m.xid 0x0101 [] []
  match m.path with
  | .net _ addr udp => s.emit (.datagram r addr udp)
  | .pcie f _ => s.modXlt (fun x => { x with
      openPage := vmod x.openPage f (fun o => { o with busy := false, done := true, status := 0x0101, rsp := r }) })

/-- The 8 bytes ahead of the message in a datagram (11 R334). -/
def ifeudPrefix (type : Nat) : List Byte := toLE 4 0x44554649 ++ toLE 1 1 ++ toLE 1 type ++ zeros 2

/-- The bytes of a RESPONSE and of an EVENTS datagram. -/
def Rsp.datagram (type : Nat) (r : Rsp) : List Byte := ifeudPrefix type ++ r.bytes

/-- A datagram is discarded without reply for its form (11 R334): MAGIC, VERSION, TYPE or a length that disagrees with LEN. -/
def datagramBad (d : List Byte) : Bool :=
  leAt d 0 4 != 0x44554649 || leAt d 4 1 != 1 || !inr (leAt d 5 1) 1 4 || d.length < 40 ||
    d.length != 40 + leAt d 14 2 + (if (byteAt d 10).testBit 0 then 16 else 0)

/-- A discarded datagram (11 R334, R335). -/
def State.netDrop (s : State) : State := s.modXlt (fun x => { x with netDropped := satAdd 32 x.netDropped 1 })

/-- A request during a management-plane interruption is held, 64 per session (11 R347). -/
def State.holdMsg (s : State) (n op sub : Nat) (m : Msg) : State :=
  if 64 ≤ (s.xlt.held.filter (fun r => r.2.2.session == n)).length then s
  else (s.modXlt (fun x => { x with held := x.held ++ [(op, sub, m)] })).modSess n (fun x => { x with busy := !x.net })

/-- Request m of session n is decided, or held during a management-plane interruption (11 R347).
[log 86: DESIGN CHOICE] -/
def State.takeMsg (s : State) (n op sub : Nat) (m : Msg) (act : State → Nat → Answer) : State :=
  if s.safe.mgmtDown.isSome then s.holdMsg n op sub m else s.decideMsg n op m (m.bodyOk op sub) act

/-- Request m as it reaches the device (11 R332, R335, R340 step 1, R347; 18 R512): any command but SESSION_OPEN.
[log 85: DESIGN CHOICE; log 89: DEDUCED] -/
def State.command (s : State) (op : Nat) (m : Msg) (sub : Nat) (act : State → Nat → Answer) : State :=
  let n := m.session
  let x := s.ses n
  if s.phase != .ready then s
  else match m.path with
  | .pcie f true => if (vget s.xlt.openPage f).busy then s else s.noSession op m
  | .pcie f false =>
    if 256 ≤ n || x.st == .free || x.net || x.fn != f.val then s
    else if x.busy then s.overrun n
    else s.takeMsg n op sub m act
  | .net _ addr udp =>
    if 256 ≤ n || x.st == .free || x.st == .kennel || !x.net then s.noSession op m
    else if x.peer != addr || x.peerPort != udp then s.netDrop
    else s.takeMsg n op sub m act

end Sys2Proof.Machine
end

