-- ==== Sys2Proof/Machine/Session.lean ====
section
/-! DEFINITION. Opening, confirming, closing and revoking sessions, keys, network addresses and event queues (11 R334-R347; 17 R486-R489; 18 R515, R519). -/
namespace Sys2Proof.Machine
open Sys2Proof

/-! ## Opening (11 R341-R345) -/

/-- The commissioning state (11 R345): every key slot is empty. -/
def State.commission (s : State) : Bool := (List.range 16).all (fun k => !(vget s.keys k).used && !s.keyFaulty k)

/-- The class of a code. -/
def classOf (k : Nat) : Class := if k = 0 then .observer else if k = 1 then .production else if k = 2 then .maintenance else .steward

/-- Session n is open or opening. -/
def State.isOpen (s : State) (n : Nat) : Bool := (s.ses n).st == .opening || (s.ses n).st == .confirmed

/-- Key slot k serves class c. -/
def State.keyServes (s : State) (k c : Nat) : Bool := k < 16 && (vget s.keys k).used && !s.keyFaulty k && c ≤ (vget s.keys k).ceil

/-- The open asks for the session of the commissioning state. -/
def State.commOpen (s : State) (m : Msg) : Bool := s.commission && !m.net && m.b 0 == 3 && m.b 1 == 0xFF

/-- Why SESSION_OPEN is refused, or 0 (11 R340, R341, R345).
[log 87: DEDUCED] -/
def State.openRefusal (s : State) (m : Msg) : Nat :=
  let c := m.b 0
  let f := match m.path with | .pcie f _ => f.val | .net _ _ _ => 0
  if !(m.headOk 1 && m.bodyOk 1 0 && !m.auth) || (c = 0 && m.b 1 ≠ 0xFF) then 0x010C
  else if s.commission && m.net then 0x0102
  else if c ≠ 0 && !s.commOpen m && !s.keyServes (m.b 1) c then 0x0105
  else if !(List.range 256).any (fun n => (s.ses n).st == .free) then 0x0106
  else if c = 3 && (List.range 256).any (fun n => s.isOpen n && s.isSteward n) then 0x0107
  else if m.direct && c = 0 then 0x0102
  else if m.direct && (vget s.xlt.direct f).isSome then 0x010F
  else 0

/-- The session key K (11 R343). -/
def sessionKey (root hnonce dnonce : List Byte) (n c : Nat) : List Byte :=
  hkdf (hnonce ++ dnonce) root (ascii "BL-6440 session v1" ++ toLE 2 n ++ toLE 1 c ++ toLE 8 Config.serial.toNat)

/-- The session opened as number n with the device nonce `dn`. -/
def State.opened (s : State) (m : Msg) (n : Nat) (dn : List Byte) : Sess :=
  let c := m.b 0
  let slot := m.b 1
  let keyed := slot < 16
  let x : Sess := { crec := (s.ses n).crec, cls := classOf c, slot := slot % 16, keyed := keyed,
                    key := if keyed then sessionKey (vget s.keys slot).key ((m.payload.drop 8).take 16) dn n c else [],
                    lease := if m.f 2 2 = 0 then 500 else m.f 2 2, st := if keyed then .opening else .confirmed,
                    commissioning := s.commOpen m, openAt := s.now, renewAt := s.now }
  match m.path with
  | .pcie f _ => { x with fn := f.val }
  | .net q addr udp => { x with net := true, fn := q.val / 2, ethPort := q.val, peer := addr, peerPort := udp, maxDgram := m.f 4 2 }

/-- SESSION_OPEN executed: the new state, the status, the session number and the response payload. -/
def State.openSession (s : State) (m : Msg) : State × Nat × Nat × List Byte :=
  let code := s.openRefusal m
  if code ≠ 0 then (s, code, 0xFFFF, [])
  else
    let n := ((List.range 256).find? (fun n => (s.ses n).st == .free)).getD 0
    let dn := toLE 16 (Config.nonce s.draws).toNat
    let x := s.opened m n dn
    let s := { s with draws := s.draws + 1, sess := vset s.sess n x }
    let s := match m.path with
      | .pcie f _ => s.when m.direct (fun s => s.modXlt (fun t => { t with direct := vset t.direct f (some n) }))
      | .net _ _ _ => s
    (s, 0, n, toLE 2 n ++ toLE 2 x.lease ++ zeros 4 ++ dn)

/-- SESSION_OPEN decided: the response goes to the open page, or to the address of the request (18 R512). -/
def State.decideOpen (s : State) (m : Msg) : State :=
  let o := s.openSession m
  let s := o.1
  let r := response 1 o.2.2.1 false 0 m.xid o.2.1 o.2.2.2 []
  match m.path with
  | .pcie f _ => s.modXlt (fun x => { x with
      openPage := vset x.openPage f { busy := false, done := true, status := o.2.1, rsp := r } })
  | .net _ addr udp => s.emit (.datagram r addr udp)

/-- SESSION_OPEN as it reaches the device. On a session page, which names a session, it breaks the header's form.
[log 87: DEDUCED] -/
def State.sessionOpen (s : State) (m : Msg) : State :=
  if s.phase != .ready then s
  else match m.path with
  | .pcie f true =>
    if (vget s.xlt.openPage f).busy then s
    else if s.safe.mgmtDown.isSome then
      (s.holdMsg 0xFFFF 1 0 m).modXlt (fun x => { x with openPage := vmod x.openPage f (fun o => { o with busy := true }) })
    else s.decideOpen m
  | .pcie _ false => s.command 1 m 0 (fun s _ => s.say 0x010C)
  | .net _ _ _ => if s.safe.mgmtDown.isSome then s.holdMsg 0xFFFF 1 0 m else s.decideOpen m

/-! ## Confirming, closing, revoking -/

/-- SESSION_CONFIRM (11 R341). -/
def State.doConfirm (s : State) (n : Nat) : Answer :=
  (s.modSess n (fun x => { x with st := .confirmed, renewAt := s.now })).say 0

/-- SESSION_CLOSE (11 R341). -/
def State.doClose (s : State) (n : Nat) : Answer := (s.kennelEnter n).say 0

/-- REVOKE of a session (12 R383): the Steward's own is refused with RIGHTS.
[log 102: DEDUCED] -/
def State.doRevokeSession (s : State) (n : Nat) (m : Msg) : Answer :=
  if m.b 1 = n then s.say 0x0102
  else if !s.isOpen (m.b 1) then s.say 0x0101
  else (s.kennelEnter (m.b 1)).say 0

/-- REVOKE of a unit (12 R383). -/
def State.doRevokeUnit (s : State) (m : Msg) : Answer := (s.unitRevoke (m.b 2)).say 0

/-! ## Keys and addresses (11 R343-R345; 18 R515) -/

/-- The root key that KEY_INSTALL carries: in clear in the commissioning state, else wrapped (11 R344). -/
def State.keyOf (s : State) (n : Nat) (m : Msg) : Option (List Byte) :=
  let x := s.ses n
  let body := (m.payload.drop 16).take 32
  let tag := m.payload.drop 48
  if x.commissioning then some body
  else gcmOpen (hkdf [] x.key (ascii "BL-6440 key wrap")) (toLE 8 m.counter ++ zeros 4) body tag

/-- KEY_INSTALL (11 R344, R345).
[log 91: DEDUCED; log 122: DESIGN CHOICE] -/
def State.doKeyInstall (s : State) (n : Nat) (m : Msg) : Answer :=
  let k := m.b 0
  let comm := (s.ses n).commissioning
  if comm && !zeroAt m.payload 48 63 then s.say 0x010C
  else match s.keyOf n m with
  | none => s.say 0x0103
  | some key =>
    if s.nvRate k then s.say 0x0B12
    else
      let w := s.nvWrite k (toLE 1 (m.b 1) ++ key) (some n)
      if !w.2 then w.1.say 0x0B11
      else
        let s := { w.1 with keys := vset w.1.keys k { used := true, key := key, ceil := m.b 1 } }
        (s.when comm (fun s => s.kennelEnter n)).say 0

/-- KEY_ERASE (11 R344): sessions derived from the slot are revoked, but for the one that issues the erase.
[log 91: DEDUCED] -/
def State.doKeyErase (s : State) (n : Nat) (m : Msg) : Answer :=
  let k := m.b 0
  let s := { s.nvErase k with keys := vset s.keys k {} }
  (s.each (those 256 (fun j => j != n && s.isOpen j && (s.ses j).keyed && (s.ses j).slot == k)) State.kennelEnter).say 0

/-- NET_SET (18 R515). -/
def State.doNetSet (s : State) (m : Msg) : Answer :=
  ({ s with net := vmod s.net (m.b 0) (fun x => { x with change := some m.payload, changeAt := s.now }) }).say 0

/-! ## Leases (11 R341, R346) -/

/-- LEASE_LAPSE (11 R346): LEASE ms without a renewal; a renewal in this very instant wins (11 R357). During a management-plane
interruption the timers stop (11 R347).
[log 90: DEDUCED] -/
def State.leaseLapse (s : State) (n : Nat) : State :=
  let x := s.ses n
  if x.st == .confirmed && s.safe.mgmtDown.isNone && s.due x.renewAt (x.lease * qMs) && !s.passesNow n (fun _ => true) then
    let s := s.when (x.cls != .steward) (fun s => s.postSteward (s.ev 2 0x0108 n))
    s.kennelEnter n
  else s

/-- CONFIRM_TIMEOUT (11 R341): an OPENING session not confirmed within 1 s is closed and its number is free; a SESSION_CONFIRM in
this very instant wins (11 R357). -/
def State.confirmTimeout (s : State) (n : Nat) : State :=
  let x := s.ses n
  if x.st == .opening && s.due x.openAt (1000 * qMs) && !s.passesNow n (· == 2) then
    (s.modSess n (fun x => { crec := x.crec })).modXlt (fun x => { x with
      direct := x.direct.map (fun d => if d == some n then none else d) })
  else s

/-! ## Event queues (11 R332, R336; 17 R486-R488) -/

/-- The read index of session n's queue moved to i, where i lies among the records held; EVQ is raised where records are
left (11 R332; 18 R519). -/
def State.evRead (s : State) (n i : Nat) : State :=
  let q := (s.ses n).evq
  if !s.isOpen n || q.held.length - q.fresh < (i + 4096 - q.rd) % 4096 then s
  else
    let q' := q.moveRd i
    let s := s.setEvq n q'
    s.when (!q'.held.isEmpty) (fun s => s.raiseSess n 1)

/-- EVRD_WRITE, through the session page of a PCIe session. -/
def State.evrdWrite (s : State) (n i : Nat) : State := if (s.ses n).net then s else s.evRead n i

/-- EVACK of an Ifeud session from the address it is bound to (11 R335, R336).
[log 88: DEDUCED] -/
def State.evack (s : State) (m : Msg) (i : Nat) : State :=
  let x := s.ses m.session
  match m.path with
  | .pcie _ _ => s
  | .net _ addr udp =>
    if s.phase != .ready then s
    else if 256 ≤ m.session || !s.isOpen m.session || !x.net || x.peer != addr || x.peerPort != udp then s.netDrop
    else s.evRead m.session i

/-- How many records a datagram of session n takes (11 R334, R336). -/
def State.evMax (s : State) (n : Nat) : Nat :=
  let x := s.ses n
  min 255 ((x.maxDgram - (if x.keyed then 56 else 40)) / 32)

/-- The message of an EVENTS datagram (11 R336, R338): the index of its first record is its XID and, where the session has a
key, its COUNTER. -/
def eventsMsg (x : Sess) (n first : Nat) (l : List EvRec) : Rsp :=
  let b := l.flatMap EvRec.bytes
  let ctr := if x.keyed then first else 0
  { op := Config.eventsOp, session := n, auth := x.keyed, counter := ctr, xid := first, payload := b,
    tag := if x.keyed then tagOf x.key (msgBytes Config.eventsOp true false n ctr first 0 b) else [] }

/-- `k` records of session n's queue, from the j-th held, read and sent. -/
def State.evSend (s : State) (n j k : Nat) : State :=
  let q := (s.ses n).evq
  let m := min k (q.held.length - q.fresh - j)
  if !(s.ses n).net || !s.isOpen n || m = 0 then s
  else
    let r := (List.range m).foldl (fun (a : State × List EvRec) i =>
      let x := a.1.evFetch n (j + i)
      (x.1, a.2 ++ [x.2])) (s, [])
    (r.1.modSess n (fun x => { x with evq := { x.evq with sent := max x.evq.sent (j + m), sentAt := s.now } })).emit
      (.events n ((q.rd + j) % 4096) r.2 (eventsMsg (s.ses n) n ((q.rd + j) % 4096) r.2))

/-- EVENTS_SEND: the records not sent yet. -/
def State.eventsSend (s : State) (n : Nat) : State := s.evSend n (s.ses n).evq.sent (s.evMax n)

/-- EVENTS_RESEND: 10 ms without an EVACK, oldest first. -/
def State.eventsResend (s : State) (n : Nat) : State :=
  let q := (s.ses n).evq
  if q.sent = 0 || !s.due q.sentAt (10 * qMs) then s else s.evSend n 0 (min q.sent (s.evMax n))

/-- EVQ_GAP (17 R488). -/
def State.evqGap (s : State) (n : Nat) : State := s.setEvq n (s.ses n).evq.settle

/-! ## MSI-X (18 R518, R519) -/

/-- Pending vectors of function f whose masks are clear are sent.
[log 96: PRESUMED] -/
def State.msixFlush (s : State) (f : Nat) : State :=
  let m := vget s.msix f
  if !m.enabled || m.fmask then s
  else
    let go := m.pending.filter (fun v => !(SMap.get m.table ({} : Vec) v).masked)
    let s := { s with msix := vset s.msix f { m with pending := m.pending.filter (fun v => !go.contains v) } }
    s.each go (fun s v => let e := SMap.get m.table ({} : Vec) v; s.emit (.msix f v e.addr e.data))

/-- MSIX_UNMASK: the mask of vector v, or of the function with its enable.
[log 96: PRESUMED] -/
def State.msixUnmask (s : State) (f : Nat) (v : Option Nat) : State :=
  let s := { s with msix := vmod s.msix f (fun m => match v with
    | none => { m with enabled := true, fmask := false }
    | some v => { m with table := SMap.set m.table {} v { SMap.get m.table ({} : Vec) v with masked := false } }) }
  s.msixFlush f

/-! ## Commands -/

def execSessionOpen (e : Env) (m : Msg) (s : State) : Host.Outcome State Fault Refusal := .next ((s.arrive e).sessionOpen m)
def execSessionConfirm (e : Env) (m : Msg) (s : State) : Host.Outcome State Fault Refusal :=
  .next ((s.arrive e).command 0x0002 m 0 State.doConfirm)
def execSessionClose (e : Env) (m : Msg) (s : State) : Host.Outcome State Fault Refusal :=
  .next ((s.arrive e).command 0x0003 m 0 State.doClose)
def execLeaseLapse (e : Env) (n : Fin 256) (s : State) : Host.Outcome State Fault Refusal := .next ((s.arrive e).leaseLapse n)
def execConfirmTimeout (e : Env) (n : Fin 256) (s : State) : Host.Outcome State Fault Refusal := .next ((s.arrive e).confirmTimeout n)
/-- HEARTBEAT renews the lease, as every request that passes does (11 R346). -/
def execHeartbeat (e : Env) (m : Msg) (s : State) : Host.Outcome State Fault Refusal :=
  .next ((s.arrive e).command 0x0004 m 0 (fun s _ => s.say 0))
def execRevokeSession (e : Env) (m : Msg) (s : State) : Host.Outcome State Fault Refusal :=
  .next ((s.arrive e).command 0x0005 m 0 (fun s n => s.doRevokeSession n m))
def execRevokeUnit (e : Env) (m : Msg) (s : State) : Host.Outcome State Fault Refusal :=
  .next ((s.arrive e).command 0x0005 m 1 (fun s _ => s.doRevokeUnit m))
def execKeyInstall (e : Env) (m : Msg) (s : State) : Host.Outcome State Fault Refusal :=
  .next ((s.arrive e).command 0x0006 m 0 (fun s n => s.doKeyInstall n m))
def execKeyErase (e : Env) (m : Msg) (s : State) : Host.Outcome State Fault Refusal :=
  .next ((s.arrive e).command 0x0007 m 0 (fun s n => s.doKeyErase n m))
def execNetSet (e : Env) (m : Msg) (s : State) : Host.Outcome State Fault Refusal :=
  .next ((s.arrive e).command 0x0008 m 0 (fun s _ => s.doNetSet m))
def execCmdOverrun (e : Env) (n : Fin 256) (s : State) : Host.Outcome State Fault Refusal :=
  .next (if ((s.arrive e).ses n).busy then (s.arrive e).overrun n else s.arrive e)
def execEvrdWrite (e : Env) (n : Fin 256) (index : Fin 4096) (s : State) : Host.Outcome State Fault Refusal :=
  .next ((s.arrive e).evrdWrite n index)
def execEvack (e : Env) (m : Msg) (index : Fin 4096) (s : State) : Host.Outcome State Fault Refusal :=
  .next ((s.arrive e).evack m index)
def execEventsSend (e : Env) (n : Fin 256) (s : State) : Host.Outcome State Fault Refusal := .next ((s.arrive e).eventsSend n)
def execEventsResend (e : Env) (n : Fin 256) (s : State) : Host.Outcome State Fault Refusal := .next ((s.arrive e).eventsResend n)
def execDatagramDiscard (e : Env) (d : List Byte) (s : State) : Host.Outcome State Fault Refusal :=
  .next ((s.arrive e).when (datagramBad d) State.netDrop)
def execEvqGap (e : Env) (n : Fin 256) (s : State) : Host.Outcome State Fault Refusal := .next ((s.arrive e).evqGap n)
def execMsixUnmask (e : Env) (f : Fin 4) (v : Option (Fin 2048)) (s : State) : Host.Outcome State Fault Refusal :=
  .next ((s.arrive e).msixUnmask f (v.map (·.val)))

end Sys2Proof.Machine
end

