-- ==== Sys2Proof/Machine/Claims.lean ====
section
/-! DEFINITION. Claims, device memory and translations as commands (11 R348-R353; 12 R382), and commit, repair, store and firmware commands. -/
namespace Sys2Proof.Machine
open Sys2Proof

/-! ## CLAIM and RELEASE (12 R382) -/

/-- The units that CLAIM and RELEASE name, with their entries. -/
def claimUnits (m : Msg) : List (Nat × Nat × Nat) :=
  (List.range (m.b 0)).map (fun i => let k := m.b (4 + 2 * i); let x := m.b (5 + 2 * i); (kindUnit k x, k, x))

/-- The unit is held by another session, or is in quarantine. -/
def State.claimed (s : State) (n u : Nat) : Bool :=
  (match s.holder u with | some h => h != n | none => false) || s.mgt.revs.any (fun r => r.unit == u)

/-- A unit claimed by session n; a claimed axis that owes a HALT_LOSS reports it (10 R321).
[log 83: DEDUCED] -/
def State.claimUnit (s : State) (n u : Nat) : State :=
  let s := s.modMgt (fun m => { m with claims := vset m.claims u (some n) })
  if 84 ≤ u && u < 92 && (vget s.ax (u - 84)).owed then
    (s.modAx (u - 84) (fun x => { x with owed := false })).postTo n (s.ev 2 0x080A (u - 84))
  else s

/-- The units that CLAIMs of lower sessions take in this very instant (01 R19): those that wait directly behind this command,
pass their checks and find their units free.
[log 86: DESIGN CHOICE] -/
def State.rivalUnits (s : State) (n : Nat) : List Nat :=
  ((s.pending.map (fun c => match c with
    | .claim e m => if e.dt = 0 then some m else none
    | _ => none)).takeWhile Option.isSome).flatMap (fun o => match o with
      | some m =>
        let us := (claimUnits m).map (·.1)
        if m.session < n && (s.ses m.session).st == .confirmed && !us.any (s.claimed m.session) &&
            (s.checkMsg m.session 0x0100 m (m.bodyOk 0x0100 0)).2 == .pass then us else []
      | none => [])

/-- Quarantines that release their units in this very instant: a CLAIM is decided after them (12 R385).
[log 6: DESIGN CHOICE] -/
def State.releaseFirst (s : State) : State :=
  s.each s.atOnce (fun s c => match c with
    | .kennelRelease _ n => s.kennelRelease n
    | _ => s)

/-- CLAIM: all or none; BUSY names the first conflicting entry. Of claims in one instant the lower session's wins (01 R19).
[log 149: DEDUCED] -/
def State.doClaim (s : State) (n : Nat) (m : Msg) : Answer :=
  let s := s.releaseFirst
  match (claimUnits m).find? (fun x => s.claimed n x.1 || (s.rivalUnits n).contains x.1) with
  | some x => (s, some (0x010F, toLE 1 x.2.1 ++ toLE 1 x.2.2))
  | none => (s.each (claimUnits m) (fun s x => s.claimUnit n x.1)).say 0

/-- The port or sequencer is bound by an open swath of session n. -/
def State.boundBy (s : State) (n u : Nat) : Bool :=
  (List.range 16).any (fun q => s.swOpen q && s.ownerSess q == some n && (u == uSeq q || (vget s.seq q).swPorts.contains u))

/-- RELEASE: all or none; SEALED and BUSY refuse it as a whole. A unit that the session does not hold stays as it is.
[log 104: DEDUCED] -/
def State.doRelease (s : State) (n : Nat) (m : Msg) : Answer :=
  let us := ((claimUnits m).map (·.1)).filter (s.holds n)
  if us.any (s.ses n).stage.sealedUnits.contains then s.say 0x0114
  else if us.any (s.boundBy n) then s.say 0x010F
  else
    let s := (s.dropUnits us).modSess n (fun x => { x with stage := { x.stage with
      units := x.stage.units.filter (fun u => !us.contains u) } })
    (s.modMgt (fun g => { g with claims := us.foldl (fun c u => vset c u none) g.claims })).say 0

/-! ## MEM_ALLOC and MEM_FREE (11 R348; 13 R392) -/

/-- The first k free pages from page pg on, of `fuel` pages looked at. -/
def State.freePagesFrom (s : State) : Nat → Nat → Nat → List Nat
  | 0, _, _ => []
  | _, 0, _ => []
  | fuel + 1, k + 1, pg =>
    if s.pageFree pg then pg :: s.freePagesFrom fuel k (pg + 1) else s.freePagesFrom fuel (k + 1) (pg + 1)

/-- MEM_ALLOC: QUOTA beyond the quota or the free DRAM; the pages are filled with zeros before they are allocated.
[log 95: DEDUCED] -/
def State.doMemAlloc (s : State) (n : Nat) (m : Msg) : Answer :=
  let k := m.f 0 4
  let pages := s.freePagesFrom (s.dramTop / 65536 - 4096) k 4096
  if !s.mem.dok || (s.ses n).quota < (s.pagesOf n).length + k || pages.length < k then s.say 0x0110
  else
    let s := s.each pages (fun s pg => s.when (!s.mem.filled.contains pg) (fun s => s.fillPage pg))
    let s := s.modMem (fun x => { x with
      owner := pages.foldl (fun o pg => SMap.put o pg (n + 1)) x.owner, filled := x.filled.filter (fun p => !pages.contains p) })
    (s, some (0, toLE 4 k ++ pages.flatMap (toLE 4)))

/-- The pages of a table that a pointer names, where it lies in DRAM. -/
def tablePages (e : Nat) : List Nat :=
  if e.testBit 0 && e.testBit 2 then (List.range 8).map (fun i => e / 65536 + i) else []

/-- The pages that hold tables in use by session n's root. -/
def State.rootPages (s : State) (n : Nat) : List Nat :=
  let root := (s.ses n).root.toNat
  let e1 := fun i => if root.testBit 2 then leNat (memRead s.dram (root / 65536 * 65536 + 8 * i) 8)
    else leNat (memRead (vget s.hostMem (s.ses n).fn) (root / 65536 * 65536 + 8 * i) 8)
  let used := if root.testBit 2 then s.dram else vget s.hostMem (s.ses n).fn
  let base := root / 65536 * 65536
  let idx := ((used.filter (fun c => base ≤ c.1 && c.1 < base + 524288)).map (fun c => (c.1 - base) / 8)).foldl
    (fun l i => addOnce i l) []
  if root.testBit 0 then tablePages root ++ idx.flatMap (fun i => tablePages (e1 i)) else []

/-- The page is pinned by an energy-table region (06 R180). -/
def State.pinned (s : State) (pg : Nat) : Bool :=
  (List.range 64).any (fun p => (vget s.fp p).pins.contains pg || (vget s.fp p).pinsNew.contains pg)

/-- MEM_FREE: all or none; OWNER, then PINNED. -/
def State.doMemFree (s : State) (n : Nat) (m : Msg) : Answer :=
  let pages := (List.range (m.f 0 4)).map (fun i => m.f (4 + 4 * i) 4)
  let tables := s.rootPages n
  if !pages.all (s.pageHeld n) then s.say 0x0204
  else if pages.any (fun pg => s.pinned pg || tables.contains pg) then s.say 0x0207
  else
    let s := s.modXlt (fun x => { x with
      sets := (x.sets.map (fun k => (k.1, k.2.filter (fun e => !(e.session == n && e.dram && pages.contains e.ppage))))).filter
        (fun k => !k.2.isEmpty) })
    (s.freePages pages).say 0

/-! ## PT_SET, TLB_INVAL, FAULT_RESUME (11 R348, R351, R353) -/

/-- Translations of session n for the pages that satisfy f invalidated: walks are discarded and repeat, and reads in flight
that used them are marked.
[log 93: DEDUCED] -/
def State.invalidate (s : State) (n : Nat) (f : Nat → Bool) : State :=
  let s := (s.tlbDrop n f).modXlt (fun x => { x with walks := x.walks.filter (fun w => !(w.session == n && f (w.va / 65536))) })
  s.each (those 64 (s.holds n)) (fun s p => s.modStr p (fun x => { x with
    reads := x.reads.map (fun r => if f (r.va / 65536) then { r with old := true } else r) }))

/-- A DMA access of session n that used a discarded translation is in flight. -/
def State.oldReads (s : State) (n : Nat) : Bool :=
  (those 64 (s.holds n)).any (fun p => (vget s.str p).reads.any (·.old))

/-- The response of TLB_INVAL or PT_SET: at once, or once those accesses have completed.
[log 93: DEDUCED] -/
def State.invalAnswer (s : State) (n op : Nat) (m : Msg) : Answer :=
  if s.oldReads n then (s.modSess n (fun x => { x with invals := x.invals ++ [(op, m)] }), none) else s.say 0

/-- PT_SET. -/
def State.doPtSet (s : State) (n : Nat) (m : Msg) : Answer :=
  ((s.modSess n (fun x => { x with root := wd (m.f 0 8) })).invalidate n (fun _ => true)).invalAnswer n 0x0202 m

/-- TLB_INVAL of a range, or with length 0 of the whole space. -/
def State.doTlbInval (s : State) (n : Nat) (m : Msg) : Answer :=
  let lo := m.f 0 8 / 65536
  let k := m.f 8 8 / 65536
  (s.invalidate n (fun v => k == 0 || (lo ≤ v && v < lo + k))).invalAnswer n 0x0203 m

/-- FAULT_RESUME: the stream's port must be claimed (11 R353).
[log 92: DEDUCED] -/
def State.doFaultResume (s : State) (n : Nat) (m : Msg) : Answer :=
  if s.holds n (m.b 0) then (s.strResume (m.b 0)).say 0 else s.say 0x0102

/-- After a DMA read has completed: invalidations that waited for it are answered, and quarantines drain.
[log 93: DEDUCED] -/
def State.readSettled (s : State) : State :=
  s.each (List.range 256) (fun s n =>
    let s := if !(s.ses n).invals.isEmpty && !s.oldReads n then
        let l := (s.ses n).invals
        (s.modSess n (fun x => { x with invals := [] })).each l (fun s r => s.reply n r.1 r.2 0 [] true)
      else s
    if (s.ses n).kennel.isSome || s.mgt.revs.any (fun r => r.session == n) then s.drainIf n else s)

/-! ## MEM_WRITE and MEM_READ (18 R513) -/

/-- MEM_WRITE. -/
def State.doMemWrite (s : State) (n : Nat) (m : Msg) : Answer :=
  let r := s.vwrite n 3 0 (m.f 0 8) (m.payload.drop 8)
  r.1.say r.2

/-- The most response payload bytes that fit the session's datagrams (11 R334).
[log 95: DEDUCED] -/
def State.rspLimit (s : State) (n : Nat) : Nat :=
  let x := s.ses n
  if x.net then min 8192 (x.maxDgram - 56) else 4032

/-- MEM_READ: D within the response payload limit. -/
def State.doMemRead (s : State) (n : Nat) (m : Msg) : Answer :=
  if s.rspLimit n < m.f 8 4 then s.say 0x010C
  else match s.vread n 3 0 (m.f 0 8) (m.f 8 4) with
  | (s, .ok b) => (s, some (0, b))
  | (s, .error c) => s.say c

/-! ## COMMIT, STAGE_DISCARD, REPAIR (12 R368-R370; 13 R409) -/

/-- COMMIT. -/
def State.doCommit (s : State) (n : Nat) (m : Msg) : Answer :=
  let r := s.commitAccept n (m.b 0) (m.f 4 4) ((m.b 1).testBit 0) (m.f 8 8) false
  r.1.say r.2

/-- STAGE_DISCARD. -/
def State.doDiscard (s : State) (n : Nat) : Answer := (s.stageDiscard n).say 0

/-- REPAIR: refused, or pending until the test window of its slice (13 R409); the response follows that window. -/
def State.doRepair (s : State) (n : Nat) (m : Msg) : Answer :=
  let w := m.f 0 4
  let d := s.repairRefusal w (m.b 4)
  if d ≠ 0 then (s.postTo n (s.ev 2 0x0B0D 0 none (wd d))).say 0x0B0D
  else (s.modMem (fun x => { x with repairs := x.repairs ++ [{ word := w, op := m.b 4, session := n, msg := m }] }), none)

/-- SHEEPDOG_WINDOW (13 R405, R410): its save also finds uncorrectable words of session state. -/
def State.sheepdogStart (s : State) : State :=
  let t := s.sheepdog
  match t.mem.win with
  | some w => if s.mem.win.isSome then t
    else t.each (t.mem.sessBad.filter (fun n => Config.sessionIndex n / 512 == w.slice)) State.sessionEcc
  | none => t

/-- SHEEPDOG_WINDOW_END: the window ends, and a repair that it served is answered. -/
def State.sheepdogEnd (s : State) (fail : Option (Nat × Nat × Nat)) : State :=
  match s.windowEnd fail with
  | (s, some r) => if s.isOpen r.session then s.reply r.session 0x0404 r.msg 0 [] true else s
  | (s, none) => s

/-! ## The non-volatile store (15 R452) -/

/-- NV_WRITE of a host record. -/
def State.doNvWrite (s : State) (n : Nat) (m : Msg) : Answer :=
  let rid := m.f 0 2
  let len := m.f 4 4
  if !nvHost rid || 32748 < len then s.say 0x0B13
  else if s.nvRate rid then s.say 0x0B12
  else match s.vread n 3 0 (m.f 8 8) len with
  | (s, .error c) => s.say c
  | (s, .ok b) =>
    let w := s.nvWrite rid b (some n)
    w.1.say (if w.2 then 0 else 0x0B11)

/-- The session may read the record (15 R452): host records, and for a Steward calibration and repair records.
[log 92: DEDUCED] -/
def State.mayNvRead (s : State) (n rid : Nat) : Bool := nvHost rid || (s.isSteward n && (nvCal rid || nvRepair rid))

/-- NV_READ. -/
def State.doNvRead (s : State) (n : Nat) (m : Msg) : Answer :=
  let rid := m.f 0 2
  if !s.mayNvRead n rid then s.say 0x0102
  else match s.nvRead rid with
  | (s, none) => s.say 0x0B14
  | (s, some b) =>
    let r := s.vwrite n 3 0 (m.f 8 8) b
    if r.2 ≠ 0 then r.1.say r.2 else (r.1, some (0, toLE 4 b.length))

/-! ## Firmware (16 R475-R477) -/

/-- The firmware state changed, with vector FW (18 R518). -/
def State.fwTo (s : State) (st : FwSt) : State := (s.modPws (fun x => { x with fwSt := st, fwAt := s.now })).raiseAll 1028

/-- FW_STAGE: the image is copied, authenticated and written to the bank not in use; a failure posts FW_AUTH and leaves that
bank invalid.
[log 141: DEDUCED] -/
def State.doFwStage (s : State) (n : Nat) (m : Msg) : Answer :=
  if s.pws.fwSt != .idle then s.say 0x0D0F
  else match s.vread n 3 0 (m.f 0 8) (m.f 8 4) with
  | (s, .error c) => s.say c
  | (s, .ok b) =>
    let s := ((s.fwTo .staging).dramWrite (0x02000000 + 2 ^ 25 * (1 - s.pws.fwBank)) b).fwTo .idle
    let v := Config.imageVersion b % 65536
    if Config.imageAuthentic b && s.pws.fwMin ≤ v then (s.modPws (fun x => { x with fwStaged := true, fwOther := v })).say 0
    else ((s.modPws (fun x => { x with fwStaged := false, fwOther := 0 })).postTo n (s.ev 2 0x0D0E (1 - s.pws.fwBank))).say 0x0D0E

/-- The management plane is quiet (16 R476), and no COMMIT is accepted in this very cycle (16 R478).
[log 141: DEDUCED] -/
def State.mgmtQuiet (s : State) : Bool :=
  !s.atOnce.any (fun c => match c with
    | .commit _ _ => true
    | _ => false) &&
  !(List.range 256).any (fun k => (s.ses k).kennel.isSome || (match (s.ses k).req with | some r => !r.validated | none => false)) &&
    s.mgt.revs.isEmpty

/-- The management cores restart from the staged bank (16 R476).
[log 141: DEDUCED] -/
def State.fwRestart (s : State) : State :=
  let s := (s.fwTo .switching).fwTo .probation
  let s := s.modPws (fun x => { x with
    fwBank := 1 - x.fwBank, fwVer := x.fwOther, fwOther := x.fwVer, fwWait := none, fwStaged := false })
  s.modSafe (fun x => { x with mgmtDown := some s.now })

/-- A firmware switch that waits (16 R476): it begins once the management plane is quiet, and where 100 ms have passed
since the command it is refused.
[log 141: DEDUCED] -/
def State.fwPoll (s : State) : State :=
  match s.pws.fwWait, s.pws.fwMsg with
  | some t, some (n, m) =>
    if s.safe.mgmtDown.isSome then s
    else if s.due t (100 * qMs + 4) then
      let s := s.modPws (fun x => { x with fwWait := none, fwMsg := none })
      if s.isOpen n then s.reply n 0x0503 m 0x0D0F [] true else s
    else if s.mgmtQuiet then s.fwRestart
    else s
  | _, _ => s

/-- FW_SWITCH: once the management plane is quiet the cores restart from the staged bank; the response follows probation.
[log 141: DEDUCED] -/
def State.doFwSwitch (s : State) (n : Nat) (m : Msg) : Answer :=
  if s.pws.fwWait.isSome then s.say 0x0D0F
  else if !s.pws.fwStaged || s.pws.fwSt != .idle then s.say 0x0D0E
  else ((s.modPws (fun x => { x with fwWait := some s.now, fwMsg := some (n, m) })).fwPoll, none)

/-- The response that FW_SWITCH owes goes out, after FW_FALLBACK where the device has switched back (16 R477). -/
def State.fwAnswer (s : State) (passed : Bool) : State :=
  match s.pws.fwMsg with
  | none => s
  | some (n, m) =>
    let s := s.modPws (fun x => { x with fwMsg := none })
    let s := s.when (!passed) (fun s => s.postTo n (s.ev 2 0x0D11 s.pws.fwBank))
    if s.isOpen n then s.reply n 0x0503 m (if passed then 0 else 0x0D11) [] true else s

/-- FW_PROBATION_END (16 R477): 10 s after the switch the new bank is kept, or the device switches back.
[log 141: DEDUCED] -/
def State.probationEnd (s : State) (passed : Bool) : State :=
  if s.pws.fwSt != .probation || (passed && !s.due s.pws.fwAt (10000 * qMs)) then s
  else
    let s := s.fwTo .idle
    let s := if passed then s.modPws (fun x => { x with fwSel := x.fwBank, fwMin := max x.fwMin x.fwVer })
      else (s.modPws (fun x => { x with
          fwBank := 1 - x.fwBank, fwVer := x.fwOther, fwOther := x.fwVer })).modSafe
        (fun x => { x with mgmtDown := some s.now })
    s.fwAnswer passed

/-! ## Commands -/

def execClaim (e : Env) (m : Msg) (s : State) : Host.Outcome State Fault Refusal :=
  .next ((s.arrive e).command 0x0100 m 0 (fun s n => s.doClaim n m))
def execRelease (e : Env) (m : Msg) (s : State) : Host.Outcome State Fault Refusal :=
  .next ((s.arrive e).command 0x0101 m 0 (fun s n => s.doRelease n m))
def execMemAlloc (e : Env) (m : Msg) (s : State) : Host.Outcome State Fault Refusal :=
  .next ((s.arrive e).command 0x0200 m 0 (fun s n => s.doMemAlloc n m))
def execMemFree (e : Env) (m : Msg) (s : State) : Host.Outcome State Fault Refusal :=
  .next ((s.arrive e).command 0x0201 m 0 (fun s n => s.doMemFree n m))
def execPtSet (e : Env) (m : Msg) (s : State) : Host.Outcome State Fault Refusal :=
  .next ((s.arrive e).command 0x0202 m 0 (fun s n => s.doPtSet n m))
def execTlbInval (e : Env) (m : Msg) (s : State) : Host.Outcome State Fault Refusal :=
  .next ((s.arrive e).command 0x0203 m 0 (fun s n => s.doTlbInval n m))
def execFaultResume (e : Env) (m : Msg) (s : State) : Host.Outcome State Fault Refusal :=
  .next ((s.arrive e).command 0x0204 m 0 (fun s n => s.doFaultResume n m))
def execMemWrite (e : Env) (m : Msg) (s : State) : Host.Outcome State Fault Refusal :=
  .next ((s.arrive e).command 0x0205 m 0 (fun s n => s.doMemWrite n m))
def execMemRead (e : Env) (m : Msg) (s : State) : Host.Outcome State Fault Refusal :=
  .next ((s.arrive e).command 0x0206 m 0 (fun s n => s.doMemRead n m))
def execCommit (e : Env) (m : Msg) (s : State) : Host.Outcome State Fault Refusal :=
  .next ((s.arrive e).command 0x0400 m 0 (fun s n => s.doCommit n m))
def execStageDiscard (e : Env) (m : Msg) (s : State) : Host.Outcome State Fault Refusal :=
  .next ((s.arrive e).command 0x0401 m 0 State.doDiscard)
def execRepairRow (e : Env) (m : Msg) (s : State) : Host.Outcome State Fault Refusal :=
  .next ((s.arrive e).command 0x0404 m 1 (fun s n => s.doRepair n m))
def execRepairRetest (e : Env) (m : Msg) (s : State) : Host.Outcome State Fault Refusal :=
  .next ((s.arrive e).command 0x0404 m 2 (fun s n => s.doRepair n m))
def execNvWrite (e : Env) (m : Msg) (s : State) : Host.Outcome State Fault Refusal :=
  .next ((s.arrive e).command 0x0500 m 0 (fun s n => s.doNvWrite n m))
def execNvRead (e : Env) (m : Msg) (s : State) : Host.Outcome State Fault Refusal :=
  .next ((s.arrive e).command 0x0501 m 0 (fun s n => s.doNvRead n m))
def execFwStage (e : Env) (m : Msg) (s : State) : Host.Outcome State Fault Refusal :=
  .next ((s.arrive e).command 0x0502 m 0 (fun s n => s.doFwStage n m))
def execFwSwitch (e : Env) (m : Msg) (s : State) : Host.Outcome State Fault Refusal :=
  .next ((s.arrive e).command 0x0503 m 0 (fun s n => s.doFwSwitch n m))
def execCommitValidate (e : Env) (n : Fin 256) (s : State) : Host.Outcome State Fault Refusal :=
  .next ((s.arrive e).commitValidate n).fwPoll
def execKennelRelease (e : Env) (n : Fin 256) (s : State) : Host.Outcome State Fault Refusal :=
  .next ((s.arrive e).kennelRelease n).fwPoll
def execFwProbationEnd (e : Env) (passed : Bool) (s : State) : Host.Outcome State Fault Refusal :=
  .next ((s.arrive e).probationEnd passed)
def execSheepdogWindow (e : Env) (s : State) : Host.Outcome State Fault Refusal := .next (s.arrive e).sheepdogStart
def execSheepdogWindowEnd (e : Env) (fail : Option (BitVec 24 × Fin 72 × Fin 7)) (s : State) : Host.Outcome State Fault Refusal :=
  .next ((s.arrive e).sheepdogEnd (fail.map (fun x => (x.1.toNat, x.2.1.val, x.2.2.val))))
/-- DMA_READ_COMPLETION (11 R333, R351; 12 R383). -/
def execDmaReadCompletion (e : Env) (p : Fin 64) (res : DmaEnd) (s : State) : Host.Outcome State Fault Refusal :=
  .next ((s.arrive e).readDone p res).readSettled

end Sys2Proof.Machine
end

