-- ==== Sys2Proof/Machine/Cal.lean ====
section
/-! DEFINITION. Calibration (15 R439-R447, R453): run slots, the procedures of the catalogue, their results and their commit, RESTORE and ABORT; the end of a lane calibration (07 R243). -/
namespace Sys2Proof.Machine
open Sys2Proof

/-! ## Run slots (15 R440, R442) -/

def State.run (s : State) (r : Nat) : CalRun := vget s.cal.runs r
def State.modRun (s : State) (r : Nat) (f : CalRun → CalRun) : State :=
  { s with cal := { s.cal with runs := vmod s.cal.runs r f } }

/-- The unit whose record has that RID: a port or a camera; none for TEMPTRIM (15 R448).
[log 132: DEDUCED] -/
def ridUnits (rid : Nat) : List Nat :=
  if rid < 0x1100 then [rid - 0x1000] else if rid < 0x1200 then [uCam (rid - 0x1100)] else if rid < 0x2000 then []
  else if rid < 0x3000 then [rid - 0x2000] else [uCam (rid - 0x3000)]

/-- The units whose claims a calibration asks for.
[log 132: DEDUCED] -/
def calClaims (proc t t2 rid : Nat) : List Nat :=
  match proc with
  | 0 => if nvCal rid then ridUnits rid else []
  | 1 => [t]
  | 2 => [uSeq t, uCam t2]
  | 3 | 4 => [uCam t]
  | _ => []

/-- What a calibration has as its targets: units, 200 and above for a DRAM channel, 210 for the sensor trim. -/
def calTargets (proc t t2 rid : Nat) : List Nat :=
  match proc with
  | 5 => [210]
  | 6 => [200 + t]
  | 0 => if rid = 0x1200 then [210] else calClaims 0 t t2 rid
  | _ => calClaims proc t t2 rid

/-- The record that a run names. -/
def CalRun.rid (u : CalRun) : Nat := leAt u.param 0 2

/-- The units that a result can write (15 R440, R444). -/
def State.calUnits (s : State) (proc t rid : Nat) : List Nat :=
  match proc with
  | 0 => calClaims 0 0 0 rid
  | 1 => [t]
  | 2 => those 64 (s.inSegment t)
  | 3 | 4 => [uCam t]
  | _ => []

/-- The payload's targets exist and its parameters keep the catalogue's form: unused bytes are 0, NF is 1 to 64.
[log 124: DEDUCED] -/
def calForm (m : Msg) (proc : Nat) : Bool :=
  let l := m.payload
  let t := m.b 1
  match proc with
  | 0 => zeroAt l 10 63
  | 1 => t < 64 && zeroAt l 8 63
  | 2 => t < 16 && m.b 2 < 4
  | 3 => t < 4 && inr (m.b 8) 1 64 && m.b 9 = 0 && zeroAt l 12 63
  | 4 => t < 4 && inr (m.b 8) 1 64 && zeroAt l 10 63
  | 5 => zeroAt l 10 63
  | 6 => t < 4 && zeroAt l 8 63
  | _ => t < 4 && zeroAt l 8 63

/-- A target of the calibration is in calibration already. -/
def State.calTaken (s : State) (ts : List Nat) : Bool :=
  (List.range 4).any (fun r => let u := s.run r
    u.st != .free && (calTargets u.proc u.target u.target2 u.rid).any ts.contains)

/-- The holds of the calibrations as their run slots have them (15 R440). -/
def State.calHolds (s : State) : State :=
  s.modMgt (fun m => { m with holds := Vector.ofFn (fun u : Fin 101 =>
    match (List.range 4).find? (fun r => (s.run r).st != .free && (s.run r).held.contains u) with
    | some r => some (256 + r)
    | none => if (vget m.holds u).all (· < 256) then vget m.holds u else none) })

/-- The end of the calibration in slot r (15 R443): CAL.RES, the CAL_DONE record, and the end of its hold. -/
def State.calEnd (s : State) (r code q1 q2 : Nat) (y0 : Nat := 0) : State :=
  let u := s.run r
  let s := (s.modRun r (fun _ => { resCode := code, q1 := sat 16 q1, q2 := sat 16 q2, y0 := sat 16 y0 })).calHolds
  s.postTo u.session (s.ev 11 code r none (fields [(0, 32, sat 16 q1), (32, 32, sat 16 q2)]))

/-- The end of a calibration that has measured nothing: its quality figures are free values.
[log 127: DESIGN CHOICE] -/
def State.calEndOpen (s : State) (r code : Nat) : State :=
  let d := s.draw
  d.1.calEnd r code (bits d.2 15 0) (bits d.2 31 16)

/-- The code of a calibration that was cut. -/
def CalRun.cutCode (u : CalRun) : Nat := if u.aborted then 0x0E0D else 0x0E0C

/-- The result of slot r is in force as a commit of its own (15 R443).
[log 129: DEDUCED] -/
def State.calCommit (s : State) (r : Nat) (words : SMap Word) : State := s.makeLive (s.run r).held words

/-- A record saved for slot r where SAVE asks for it (15 R443, R451).
[log 133: DESIGN CHOICE] -/
def State.calSave (s : State) (r rid : Nat) (payload : List Byte) : State :=
  let u := s.run r
  if !u.save then s
  else if s.nvRate rid then s.postTo u.session (s.ev 2 0x0B12 r none (wd rid))
  else (s.nvWrite rid payload (some u.session)).1

/-! ## Identities (15 R453) -/

def State.portIdent (s : State) (p : Nat) : List Byte := toLE 8 (vget s.kl p).headId.toNat
def State.camIdent (s : State) (c : Nat) : List Byte :=
  let w := s.reg (camPortAddr c)
  toLE 1 (bits w 12 10) ++ toLE 2 (bits w 30 16) ++ toLE 2 (bits w 47 32)

/-- n words from address a, as bytes. -/
def State.wordBytes (s : State) (a n : Nat) : List Byte := (List.range n).flatMap (fun i => toLE 8 (s.reg (a + 8 * i)).toNat)

/-- n words from address a, out of bytes. -/
def bytesWords (a n : Nat) (l : List Byte) : SMap Word := (List.range n).map (fun i => (a + 8 * i, wd (leAt l (8 * i) 8)))

def rowDlyAddr (i p : Nat) : Nat := 0x02900000 + 1024 * i + 16 * p
def alignTabAddr (p : Nat) : Nat := 0x02200000 + 16384 * p
def flatAddr (c : Nat) : Nat := 0x06500000 + 32768 * c

/-- The payload of a record as the device writes it: the identity of the target, then the values.
[log 122: DESIGN CHOICE] -/
def State.recordOf (s : State) (rid set : Nat) : List Byte :=
  if rid < 0x1100 then s.portIdent (rid - 0x1000) ++ s.wordBytes (txeqAddr (rid - 0x1000)) 1
  else if rid < 0x1200 then s.camIdent (rid - 0x1100) ++ s.wordBytes (corrAddr (rid - 0x1100)) 1
  else if rid < 0x2000 then toLE 2 (cutN 16 s.cal.dtTrim)
  else if rid < 0x3000 then
    let p := rid - 0x2000
    s.portIdent p ++ toLE 2 set ++ s.wordBytes (rowDlyAddr set p) 2 ++ s.wordBytes (alignTabAddr p) 2048
  else s.camIdent (rid - 0x3000) ++ s.wordBytes (flatAddr (rid - 0x3000)) 4096

/-- The identity of the record's target agrees with the one stored. -/
def State.sameIdent (s : State) (rid : Nat) (l : List Byte) : Bool :=
  let here := match ridUnits rid with
    | u :: _ => if u < 64 then s.portIdent u else s.camIdent (u - 92)
    | [] => []
  l.take here.length == here

/-- The words that a record restores.
[log 122: DESIGN CHOICE] -/
def recordWords (rid : Nat) (l : List Byte) : SMap Word :=
  if rid < 0x1100 then bytesWords (txeqAddr (rid - 0x1000)) 1 (l.drop 8)
  else if rid < 0x1200 then bytesWords (corrAddr (rid - 0x1100)) 1 (l.drop 5)
  else if rid < 0x2000 then []
  else if rid < 0x3000 then
    let p := rid - 0x2000
    bytesWords (rowDlyAddr (leAt l 8 2 % 256) p) 2 (l.drop 10) ++ bytesWords (alignTabAddr p) 2048 (l.drop 26)
  else bytesWords (flatAddr (rid - 0x3000)) 4096 (l.drop 5)

/-- RESTORE in slot r (15 R453).
[log 132: DEDUCED] -/
def State.calRestore (s : State) (r : Nat) : State :=
  let rid := (s.run r).rid
  if !nvCal rid then s.calEndOpen r 0x0E0E
  else match s.nvRead rid with
  | (s, none) => s.calEndOpen r 0x0E0E
  | (s, some l) =>
    if !s.sameIdent rid l then s.calEndOpen r 0x0E09
    else
      let s := s.calCommit r (recordWords rid l)
      let s := if rid = 0x1200 then { s with cal := { s.cal with dtTrim := signedN 16 (leAt l 0 2) } } else s
      s.calEndOpen r 0

/-! ## Acceptance (15 R440, R441, R444, R445) -/

/-- The code of the precondition that is violated, or 0.
[log 125: DEDUCED; log 132: DEDUCED] -/
def State.calPre (s : State) (proc t : Nat) (units : List Nat) (rid : Nat) : Nat :=
  let busy : Bool := match proc with
    | 0 => rid < 0x1100 && nvCal rid && s.segOpen (rid - 0x1000)
    | 1 => !s.calOk t
    | 6 => (List.range 16).any s.swOpen || (vget s.mem.ch t).st != .trained
    | _ => false
  if busy then 0x0E02
  else if proc = 2 && s.hlt.al.isSome then 0x0E01
  else if units.any s.unitStaged then 0x0E03
  else 0

/-- The items of ALIGN's PARAM (15 R445); where they lie is a free value.
[log 123: DESIGN CHOICE] -/
def CalRun.item (u : CalRun) (k : Nat) : Nat := Config.alignParam u.param k

/-- A calibration whose precondition holds begins. -/
def State.calStart (s : State) (r : Nat) : State :=
  let u := s.run r
  match u.proc with
  | 0 => s.calRestore r
  | 1 => s.calBegin u.target
  | 2 => s.modHlt (fun h => { h with
      al := some { cam := u.target2, seq := u.target, a := u.item 0 % 2048, bg := u.item 1 % 65536, th := u.item 2 % 65536,
                   at_ := s.now },
      alDone := false })
  | 3 | 4 => s.modCam u.target (fun x => { x with frames := x.frames.map (fun f => { f with cal := false }) })
  | 6 => s.modCh u.target (fun c => { c with st := .retrain })
  | _ => s

/-- A CAL among the commands: its message and its procedure. -/
def calOf (i : Instr) : Option (Msg × Nat) :=
  match i with
  | .calRestore _ m => some (m, 0)
  | .calLane _ m => some (m, 1)
  | .calAlign _ m => some (m, 2)
  | .calDark _ m => some (m, 3)
  | .calFlat _ m => some (m, 4)
  | .calTemptrim _ m => some (m, 5)
  | .calDramrt _ m => some (m, 6)
  | _ => none

/-- A CAL of those to come will be accepted. -/
def State.calAccepts (s : State) (m : Msg) (proc : Nat) : Bool :=
  let n := m.session
  (s.ses n).st == .confirmed && (s.checkMsg n 0x0403 m (m.bodyOk 0x0403 proc)).2 == .pass && calForm m proc &&
    (calClaims proc (m.b 1) (m.b 2) (m.f 8 2)).all (s.holds n) && (List.range 4).any (fun r => (s.run r).st == .free) &&
    !s.calTaken (calTargets proc (m.b 1) (m.b 2) (m.f 8 2))

/-- A CAL of a lower session in this very instant takes one of the targets (15 R440; 01 R19).
[log 86: DESIGN CHOICE] -/
def State.calRival (s : State) (n : Nat) (ts : List Nat) : Bool :=
  (s.atOnce.filterMap calOf).any (fun x =>
    x.1.session < n && s.calAccepts x.1 x.2 && (calTargets x.2 (x.1.b 1) (x.1.b 2) (x.1.f 8 2)).any ts.contains)

/-- A CAL of this tick will hold unit u from its acceptance, which comes before a staging write of the tick (15 R455).
[log 6: DESIGN CHOICE] -/
def State.calComing (s : State) (u : Nat) : Bool :=
  (s.together.filterMap calOf).any (fun x => s.calAccepts x.1 x.2 && (s.calUnits x.2 (x.1.b 1) (x.1.f 8 2)).contains u)

/-- CAL of procedure `proc` by session n: refused, or accepted in a run slot.
[log 124: DEDUCED; log 125: DEDUCED; log 126: DEDUCED] -/
def State.doCal (s : State) (n : Nat) (m : Msg) (proc : Nat) : Answer :=
  let t := m.b 1
  let t2 := m.b 2
  let rid := m.f 8 2
  if !calForm m proc then s.say 0x010C
  else if !(calClaims proc t t2 rid).all (s.holds n) then s.say 0x0102
  else match (List.range 4).find? (fun r => (s.run r).st == .free) with
  | none => s.say 0x0E01
  | some r =>
    if s.calTaken (calTargets proc t t2 rid) || s.calRival n (calTargets proc t t2 rid) then s.say 0x0E01
    else
      let held := s.calUnits proc t rid
      let pre := s.calPre proc t held rid
      let s := (s.modRun r (fun _ => {
        st := .running, proc := proc, target := t, target2 := t2, session := n, save := (m.b 3).testBit 0, since := s.now,
        timeout := m.f 4 4, param := m.payload.drop 8, held := held })).calHolds
      (if pre = 0 then s.calStart r else s.calEndOpen r pre, some (0, toLE 4 r))

/-- The calibration in slot r gives its resource back: the alignment unit disarms, the channel serves again. -/
def State.calReturn (s : State) (r : Nat) : State :=
  let u := s.run r
  match u.proc with
  | 2 => s.modHlt (fun h => { h with al := h.al.filter (fun a => !(a.cam == u.target2 && a.seq == u.target)) })
  | 6 => s.modCh u.target (fun c => { c with st := if c.st == .retrain then .trained else c.st })
  | _ => s

/-! ## Measurements on camera frames (15 R444) -/

/-- a / b rounded to a whole number; the direction, which the spec does not give, is the free bit d.
[log 127: DESIGN CHOICE] -/
def divFree (a b : Nat) (d : Bool) : Nat := a / b + (if a % b = 0 then 0 else b1 d)

/-- Sum over the pixels of a frame that satisfy t. -/
def Frame.sumPx (f : Frame) (t : Nat → Nat → Bool) (v : Nat → Nat → Nat) : Nat :=
  (List.range f.H).foldl (fun a y => (List.range f.W).foldl (fun a x => if t x y then a + v x y else a) a) 0

/-- DARK: for each phase the count, the sum and the sum of squares of its left-aligned input values. -/
def darkSums (l : List Frame) (φ : Nat) : Nat × Nat × Nat :=
  let on := fun x y => phase x y == φ
  l.foldl (fun a f => (a.1 + f.sumPx on (fun _ _ => 1), a.2.1 + f.sumPx on f.raw, a.2.2 + f.sumPx on (fun x y => f.raw x y ^ 2)))
    (0, 0, 0)

/-- The standard deviation that count, sum and sum of squares give, rounded by a free bit.
[log 127: DESIGN CHOICE] -/
def devFree (a : Nat × Nat × Nat) (d : Bool) : Nat :=
  let v := a.1 * a.2.2 - a.2.1 ^ 2
  let k := isqrt (v / a.1 ^ 2)
  k + (if k ^ 2 * a.1 ^ 2 = v then 0 else b1 d)

/-- DARK's result: BLACK of the four phases, and the largest deviation. -/
def darkResult (l : List Frame) (w : Word) : List Nat × Nat :=
  let a := (List.range 4).map (darkSums l)
  ((List.range 4).map (fun φ => let x := a.getD φ (0, 0, 0); divFree x.2.1 x.1 (bit w φ)),
   (a.zipIdx.map (fun x => devFree x.1 (bit w (8 + x.2)))).foldl max 0)

/-- The n frames that the calibration takes. -/
def CalRun.taken (u : CalRun) : List Frame := u.frames.take (leAt u.param 0 1)

/-- DARK ends.
[log 127: DESIGN CHOICE] -/
def State.darkEnd (s : State) (r : Nat) : State :=
  let u := s.run r
  let c := u.target
  let d := s.draw
  let s := d.1
  let z := darkResult u.taken d.2
  let q1 := z.1.foldl max 0
  if leAt u.param 2 2 < q1 then s.calEnd r 0x0E08 q1 z.2
  else if 2048 < z.2 then s.calEnd r 0x0E09 q1 z.2
  else
    let s := s.calCommit r [(corrAddr c, fields (z.1.zipIdx.map (fun x => (16 * x.2, 16, x.1))))]
    (s.calSave r (0x1100 + c) (s.recordOf (0x1100 + c) 0)).calEnd r 0 q1 z.2

/-- FLAT: sum and count of the stage-4 output over the frames, in the pixels that satisfy t. -/
def flatSum (c : Nat) (l : List Frame) (t : Frame → Nat → Nat → Bool) : Nat × Nat :=
  l.foldl (fun a f =>
    let v := f.s4 c (f.defects c)
    (a.1 + f.sumPx (t f) v, a.2 + f.sumPx (t f) (fun _ _ => 1))) (0, 0)

/-- The sums of the frames' row bands (08 R274). -/
def flatBands (c : Nat) (l : List Frame) : List (Nat × Nat) :=
  match l with
  | [] => []
  | f :: _ => (List.range f.nbands).map (fun b =>
      flatSum c l (fun g _ y => b * g.H / g.nbands ≤ y && y < (b + 1) * g.H / g.nbands))

/-- Mean a is below mean b. -/
def meanLt (a b : Nat × Nat) : Bool := a.1 * b.2 < b.1 * a.2

/-- A fraction of integers rounded to the nearest whole number, half away from zero; the denominator is positive. -/
def roundAway (a : Int) (b : Nat) : Int :=
  if a < 0 then -(((2 * a.natAbs + b) / (2 * b) : Nat) : Int) else (((2 * a.natAbs + b) / (2 * b) : Nat) : Int)

/-- 16,384 × (mean / column mean − 1). -/
def flatOf (mean col : Nat × Nat) : Int :=
  let n : Nat := mean.1 * col.2
  let d : Nat := mean.2 * col.1
  roundAway (16384 * ((n : Int) - d)) d

/-- The words of CAM.FLAT of camera c with the entries of a result. -/
def State.flatWords (s : State) (c : Nat) (l : List Int) : SMap Word :=
  (List.range ((l.length + 3) / 4)).map (fun k =>
    let a := flatAddr c + 8 * k
    let old := s.reg a
    (a, fields ((List.range 4).map (fun i => (16 * i, 16,
      match l[4 * k + i]? with | some v => cutN 16 v | none => bits old (16 * i + 15) (16 * i))))))

/-- FLAT ends.
[log 127: DESIGN CHOICE] -/
def State.flatEnd (s : State) (r : Nat) : State :=
  let u := s.run r
  let c := u.target
  let l := u.taken
  let d := s.draw
  let s := d.1
  let all := flatSum c l (fun _ _ _ => true)
  let bands := (flatBands c l).filter (fun b => b.2 != 0)
  let hi := bands.foldl (fun a b => if meanLt a b then b else a) (bands.headD (0, 1))
  let lo := bands.foldl (fun a b => if meanLt b a then b else a) (bands.headD (0, 1))
  let cols := (List.range (l.headD {}).W).map (fun x => flatSum c l (fun _ x' _ => x' == x))
  let zero := all.1 = 0 || cols.any (fun m => m.1 == 0)
  let flat := if zero then [] else cols.map (flatOf all)
  let diff := hi.1 * lo.2 - lo.1 * hi.2
  let q1 := if all.1 = 0 then bits d.2 15 0 else divFree (10000 * diff * all.2) (hi.2 * lo.2 * all.1) (bit d.2 16)
  let q2 := if zero then bits d.2 47 32 else flat.foldl (fun a x => max a x.natAbs) 0
  let satd := l.any (fun f => f.sumPx (fun x y => f.sample x y == 2 ^ f.dw - 1) (fun _ _ => 1) != 0)
  if satd then s.calEnd r 0x0E08 q1 q2
  else if leAt u.param 1 1 * (hi.2 * lo.2 * all.1) < 100 * diff * all.2 then s.calEnd r 0x0E06 q1 q2
  else if zero || flat.any (fun x => x < -8192 || 16384 < x) then s.calEnd r 0x0E09 q1 q2
  else
    let s := s.calCommit r (s.flatWords c flat)
    (s.calSave r (0x3000 + c) (s.recordOf (0x3000 + c) 0)).calEnd r 0 q1 q2

/-! ## TEMPTRIM and DRAMRT (15 R444) -/

/-- TEMPTRIM ends with the average of the samples of 1 s, uncorrected, and their spread in that second; how the trim is
rounded is free.
[log 128: DESIGN CHOICE; log 129: DEDUCED] -/
def State.trimEnd (s : State) (r : Nat) : State :=
  let u := s.run r
  let d := s.draw
  let s := d.1
  let num : Int := signedN 16 (leAt u.param 0 2) * u.tCnt - u.tSum
  let trim := num / (u.tCnt : Int) + (if num % (u.tCnt : Int) = 0 then 0 else b1 (bit d.2 0))
  let spread := (u.tHi - u.tLo).toNat
  let q1 := cutN 16 trim
  if 16 < spread then s.calEnd r 0x0E0B q1 spread
  else if trim < -80 || 80 < trim then s.calEnd r 0x0E09 q1 spread
  else
    let s := s.calCommit r []
    let s := { s with cal := { s.cal with dtTrim := trim } }
    (s.calSave r 0x1200 (s.recordOf 0x1200 0)).calEnd r 0 q1 spread

/-- How far a centre has moved. -/
def centreMove (old new : Word) : Nat :=
  let d := fun (a b : Nat) => if a < b then b - a else a - b
  max (d (bits old 15 8) (bits new 15 8)) (d (bits old 31 24) (bits new 31 24))

/-- DRAMRT ends with the sweep results of the channel's ten lanes (13 R393, R394).
[log 128: DESIGN CHOICE; log 129: DEDUCED] -/
def State.retrainEnd (s : State) (r : Nat) (lanes : List (BitVec 256 × BitVec 256)) : State :=
  let ch := (s.run r).target
  let trmin := s.rf chCfgAddr 30 24
  let l := (List.range 10).map (fun i => laneResult trmin (lanes.getD i (0, 0)))
  let q1 := (l.flatMap (fun w => [bits w 6 0, bits w 22 16])).foldl min 127
  let q2 := (l.zipIdx.map (fun w => centreMove (vget (vget s.mem.ch ch).trres w.2) w.1)).foldl max 0
  let s := (s.calReturn r).modCh ch (fun c => { c with retrains := (c.retrains + 1) % 2 ^ 32 })
  if !l.all (fun w => bit w 32) then s.calEnd r 0x0E0A q1 q2
  else if 16 < q2 then s.calEnd r 0x0E09 q1 q2
  else
    let s := (s.calCommit r []).modCh ch (fun c => { c with
      minEye := q1, trres := Vector.ofFn (fun i : Fin 10 => l.getD i 0) })
    s.calEnd r 0 q1 q2

/-! ## ALIGN (15 R446) -/

/-- DY of the found marks of port p and row trigger k. -/
def State.markDys (s : State) (p k : Nat) : List Int :=
  s.hlt.alRes.filterMap (fun x =>
    let w := s.reg (0x03D00008 + 16 * x.1)
    if bits w 21 16 = p && bits w 26 24 = k then some (signedN 24 (bits x.2 47 24)) else none)

/-- dd of row trigger k against row trigger 0, whose marks' offsets are `d0`.
[log 131: DEDUCED] -/
def ddOf (d0 dk : List Int) (ydir : Bool) (ppl : Nat) : Int :=
  let sum : List Int → Int := fun l => l.foldl (· + ·) 0
  let v : Int := sum dk * d0.length - sum d0 * dk.length
  roundAway (256 * (if ydir then -v else v)) (ppl * d0.length * dk.length)

/-- What ALIGN does to one port. -/
structure AlignFix where
  port : Nat
  dds : List Int
  set : List Int
  shift : Int
  resid : Nat
  y0 : Nat
deriving DecidableEq, Repr

/-- The correction of port p.
[log 131: DEDUCED] -/
def State.alignFix (s : State) (u : CalRun) (p : Nat) : AlignFix :=
  let ydir := u.item 8 % 2 == 1
  let i := u.item 3 % 256
  let d0 := s.markDys p 0
  let old : List Nat := (halves (s.reg (rowDlyAddr i p)) ++ halves (s.reg (rowDlyAddr i p + 8))).map (fun x => x % 4096)
  let dd : Nat → Int := fun k => if k = 0 || (s.markDys p k).isEmpty then 0 else ddOf d0 (s.markDys p k) ydir (u.item 4)
  let ap := SMap.get s.hlt.alPort 0 p
  let sh : Int := (u.item 6 : Int) * roundAway (16 * signedN 16 (bits ap 15 0)) (u.item 5)
  { port := p, dds := (List.range 8).map dd, set := (List.range 8).map (fun k => (old.getD k 0 : Int) - dd k),
    shift := if u.item 9 % 2 = 0 then 0 else if u.item 7 % 2 = 1 then -sh else sh,
    resid := bits ap 47 32, y0 := (signedN 16 (bits ap 31 16)).natAbs }

/-- The new row-delay set keeps R175: D_0 is 0, D does not decrease, every D is at most 4,095. -/
def setOk (rt : Nat) (d : List Int) : Bool :=
  d.headD 0 == 0 && d.all (fun x => 0 ≤ x && x ≤ 4095) &&
    (List.range 7).all (fun k => rt ≤ k + 1 || d.getD k 0 ≤ d.getD (k + 1) 0)

/-- The correction is inside the limits. -/
def State.fixOk (s : State) (u : CalRun) (x : AlignFix) : Bool :=
  x.resid ≤ u.item 12 && setOk (bits (s.reg (0x02800100 + 8 * x.port)) 3 0) x.set &&
    x.dds.all (fun d => d.natAbs ≤ u.item 10) && x.shift.natAbs ≤ u.item 11

/-- Entry j of port p of the alignment map. -/
def State.alignEntry (s : State) (p j : Nat) : Nat := s.tab (alignTabAddr p + 2 * j) 2

/-- The shifted entry of output j (04 R127): the effective input of output j + shift under the old map.
[log 131: DEDUCED] -/
def State.shifted (s : State) (p j : Nat) (shift : Int) : Nat :=
  let o : Int := j + shift
  if o < 0 || 8191 < o then 0x4000
  else
    let e := s.alignEntry p o.toNat
    if e.testBit 14 then 0x4000
    else if e.testBit 15 then 0x8000 + e % 8192
    else 0x8000 + o.toNat

/-- The words that the correction of one port writes. -/
def State.fixWords (s : State) (u : CalRun) (x : AlignFix) : SMap Word :=
  let a := rowDlyAddr (u.item 3 % 256) x.port
  let half := fun i => fields ((List.range 4).map (fun k => (16 * k, 16, (x.set.getD (4 * i + k) 0).toNat)))
  let map := if u.item 9 % 2 = 0 then [] else (List.range 2048).map (fun k =>
    (alignTabAddr x.port + 8 * k, fields ((List.range 4).map (fun i => (16 * i, 16, s.shifted x.port (4 * k + i) x.shift)))))
  (a, half 0) :: (a + 8, half 1) :: map

/-- ALIGN ends.
[log 123: DESIGN CHOICE] -/
def State.alignEnd (s : State) (r : Nat) : State :=
  let u := s.run r
  let ports := u.held.filter (fun p => !(s.markDys p 0).isEmpty)
  let fixes := ports.map (s.alignFix u)
  let q1 := (fixes.map (·.resid)).foldl max 0
  let y0 := (fixes.map (·.y0)).foldl max 0
  let q2 := s.hlt.nFound
  if ports.isEmpty then s.calEnd r 0x0E07 q1 q2 y0
  else if u.item 4 = 0 || u.item 5 = 0 || !fixes.all (s.fixOk u) then s.calEnd r 0x0E09 q1 q2 y0
  else
    let s := s.calCommit r (fixes.flatMap (s.fixWords u))
    let s := s.each ports (fun s p => s.calSave r (0x2000 + p) (s.recordOf (0x2000 + p) (u.item 3 % 256)))
    s.calEnd r 0 q1 q2 y0

/-! ## CAL_DONE and LANE_CAL_DONE -/

/-- CAL_DONE of slot r. A lane calibration ends here only where its port has left CAL without a result.
[log 126: DEDUCED; log 130: DEDUCED] -/
def State.calDone (s : State) (r : Nat) (lanes : List (BitVec 256 × BitVec 256)) : State :=
  let u := s.run r
  if u.st == .free || s.safe.mgmtDown.isSome then s
  else if u.proc = 1 then
    if (vget s.kl u.target).st == .cal then s
    else s.calEndOpen r (if u.st == .closing then u.cutCode else 0x0E04)
  else if u.st == .closing then (s.calReturn r).calEndOpen r u.cutCode
  else match u.proc with
  | 2 => if s.hlt.al.isNone && s.hlt.alDone then s.alignEnd r else s
  | 3 => if leAt u.param 0 1 ≤ u.frames.length then s.darkEnd r else s
  | 4 => if leAt u.param 0 1 ≤ u.frames.length then s.flatEnd r else s
  | 5 => if s.due u.since (1000 * qMs) && u.tCnt != 0 then s.trimEnd r else s
  | 6 => s.retrainEnd r lanes
  | _ => s

/-- LANE_CAL_DONE of port p (07 R242, R243; 15 R444), 175 µs after acceptance or where the calibration is cut short: the
chosen preset takes effect as a commit of its own, the port goes on to its push, and the outcome is reported.
[log 130: DEDUCED] -/
def State.laneCalDone (s : State) (p : Nat) : State :=
  let k := vget s.kl p
  let run := (List.range 4).find? (fun r => (s.run r).st != .free && (s.run r).proc == 1 && (s.run r).target == p)
  let cut := match run with | some r => (s.run r).st == .closing | none => false
  if k.st != .cal || s.safe.mgmtDown.isSome || !(cut || s.due k.since (175 * qUs)) then s
  else
    let choice := if cut || !k.calLocked then none else k.calChoice
    let bad := if !k.calLocked then 0x0E04 else if choice.isNone then 0x0E05 else 0
    let code := match run with
      | some r => if cut then (s.run r).cutCode else bad
      | none => bad
    let eye := bits (vget s.kl p).eye 6 0
    let d := s.draw
    let s := d.1
    let q1 := match choice with | some c => c.2 | none => bits d.2 15 0
    let s := match choice with
      | some c =>
        let w := (txeqAddr p, fields [(0, 4, (calPreset c.1).1), (8, 5, (calPreset c.1).2)])
        let s := match run with
          | some r => s.calCommit r [w]
          | none => s.goLive [p] [] [w]
        let s := s.laneReturn p
        match run with
        | some r => s.calSave r (0x1000 + p) (s.recordOf (0x1000 + p) 0)
        | none => s
      | none => s.laneReturn p
    match run with
    | some r => s.calEnd r code q1 eye
    | none => s.postUnit p (s.ev 11 code p (s.segOf p) (fields [(0, 32, sat 16 q1), (32, 32, eye)]))

/-- The calibrations that end in this tick: their commits come before session commits and read points of the tick (15 R455).
[log 6: DESIGN CHOICE] -/
def State.calFirst (s : State) : State :=
  s.each s.together (fun s c => match c with
    | .calDone _ r lanes => s.calDone r lanes
    | .laneCalDone _ p => s.laneCalDone p
    | _ => s)

/-- The result of slot r where it comes in this very instant (15 R455).
[log 6: DESIGN CHOICE] -/
def State.resultFirst (s : State) (r : Nat) : State :=
  s.each s.atOnce (fun s c => match c with
    | .calDone _ k lanes => if k.val = r then s.calDone r lanes else s
    | _ => s)

/-- ABORT of the calibration in a run slot: its closing phase begins, unless the result is
applied in this cycle (15 R442, R455).
[log 92: DEDUCED] -/
def State.doCalAbort (s : State) (m : Msg) : Answer :=
  let r := m.b 1
  if !calForm m 0xFF then s.say 0x010C
  else
    let s := s.resultFirst r
    let s := if (s.run r).st == .free then s else s.modRun r (fun u => { u with st := .closing, aborted := true })
    (s, some (0, toLE 4 r))

/-- CAL_TIMEOUT: a result of the cycle wins (15 R441).
[log 126: DEDUCED] -/
def State.calTimeout (s : State) (r : Nat) : State :=
  let s := s.resultFirst r
  let u := s.run r
  if u.st == .running && s.due u.since (u.timeout * qMs) then s.modRun r (fun u => { u with st := .closing, timedOut := true })
  else s

/-- The commits of this tick, which come before a snapshot is taken and before TIM.SETNS is decided (12 R380, R385; 14 R435).
[log 6: DESIGN CHOICE] -/
def State.commitFirst (s : State) : State :=
  s.each s.together (fun s c => match c with
    | .commitPoint _ n => s.commitPoint n
    | .readPoint _ q => match s.readDue q with
      | some line => s.boundary q line
      | none => s
    | _ => s)

/-! ## Commands -/

/-- COMMIT_TIMEOUT: a commit point of the tick comes first (12 R376, R385). -/
def execCommitTimeout (e : Env) (n : Fin 256) (s : State) : Host.Outcome State Fault Refusal :=
  .next ((s.arrive e).commitFirst.commitTimeout n)
def execCalRestore (e : Env) (m : Msg) (s : State) : Host.Outcome State Fault Refusal :=
  .next ((s.arrive e).command 0x0403 m 0 (fun s n => s.doCal n m 0))
def execCalLane (e : Env) (m : Msg) (s : State) : Host.Outcome State Fault Refusal :=
  .next ((s.arrive e).command 0x0403 m 1 (fun s n => s.doCal n m 1))
def execCalAlign (e : Env) (m : Msg) (s : State) : Host.Outcome State Fault Refusal :=
  .next ((s.arrive e).command 0x0403 m 2 (fun s n => s.doCal n m 2))
def execCalDark (e : Env) (m : Msg) (s : State) : Host.Outcome State Fault Refusal :=
  .next ((s.arrive e).command 0x0403 m 3 (fun s n => s.doCal n m 3))
def execCalFlat (e : Env) (m : Msg) (s : State) : Host.Outcome State Fault Refusal :=
  .next ((s.arrive e).command 0x0403 m 4 (fun s n => s.doCal n m 4))
def execCalTemptrim (e : Env) (m : Msg) (s : State) : Host.Outcome State Fault Refusal :=
  .next ((s.arrive e).command 0x0403 m 5 (fun s n => s.doCal n m 5))
def execCalDramrt (e : Env) (m : Msg) (s : State) : Host.Outcome State Fault Refusal :=
  .next ((s.arrive e).command 0x0403 m 6 (fun s n => s.doCal n m 6))
def execCalAbort (e : Env) (m : Msg) (s : State) : Host.Outcome State Fault Refusal :=
  .next ((s.arrive e).command 0x0403 m 0xFF (fun s _ => s.doCalAbort m))
def execCalDone (e : Env) (r : Fin 4) (lanes : List (BitVec 256 × BitVec 256)) (s : State) : Host.Outcome State Fault Refusal :=
  .next ((s.arrive e).calDone r lanes)
def execCalTimeout (e : Env) (r : Fin 4) (s : State) : Host.Outcome State Fault Refusal := .next ((s.arrive e).calTimeout r)
def execReadPoint (e : Env) (q : Fin 16) (s : State) : Host.Outcome State Fault Refusal :=
  .next ((s.arrive e).calFirst.readPoint q)
def execCommitPoint (e : Env) (n : Fin 256) (s : State) : Host.Outcome State Fault Refusal :=
  .next ((s.arrive e).calFirst.commitPoint n)
def execLaneCalDone (e : Env) (p : Fin 64) (s : State) : Host.Outcome State Fault Refusal := .next ((s.arrive e).laneCalDone p)

end Sys2Proof.Machine
end

