-- ==== Sys2Proof/Machine/Control.lean ====
section
/-! DEFINITION. The control instructions of Ramest (03 R72, R73). -/
namespace Sys2Proof.Machine
open Sys2Proof

/-- `nop`. -/
def stepNop (s : State) (_q _c : Nat) (_x : Ctx) (_i : Ram) : Effect := .next s

/-- `halt`: it first closes an open swath of its own, waiting for its last line event (02 R41). -/
def stepHalt (s : State) (q c : Nat) (x : Ctx) (_i : Ram) : Effect :=
  if !s.ownsSwath q c then .final ((s.modCtx q c (fun y => { y with pc := x.pc + 1 })).haltCtx q c)
  else if s.swathDone q then
    .final (((s.closeSwath q).modCtx q c (fun y => { y with pc := x.pc + 1 })).haltCtx q c)
  else .hold s .closing 0

/-- `jmp`. -/
def stepJmp (s : State) (_q _c : Nat) (x : Ctx) (i : Ram) : Effect := .jump s (x.target i)

/-- `brc`. -/
def stepBrc (s : State) (_q _c : Nat) (x : Ctx) (i : Ram) : Effect := if x.cond i.cf then .jump s i.imm else .next s

/-- `call`: STACK is checked before the target. -/
def stepCall (s : State) (q c : Nat) (x : Ctx) (i : Ram) : Effect :=
  if 8 ≤ x.stack.length then .fault 0x0305
  else .jump (s.modCtx q c (fun y => { y with stack := (x.pc + 1) :: y.stack })) (x.target i)

/-- `ret`. -/
def stepRet (s : State) (q c : Nat) (x : Ctx) (_i : Ram) : Effect :=
  match x.stack with
  | [] => .fault 0x0305
  | t :: l => .jump (s.modCtx q c (fun y => { y with stack := l })) t

/-- gA after `loop`. -/
def loopNext (x : Ctx) (i : Ram) : Word := x.rd i.a - 1

/-- `loop` branches. -/
def loopTaken (x : Ctx) (i : Ram) : Bool := x.rd i.a != 0 && loopNext x i != 0

/-- `loop`: a register that is 0 changes nothing. -/
def stepLoop (s : State) (q c : Nat) (x : Ctx) (i : Ram) : Effect :=
  if x.rd i.a = 0 then .next s
  else
    let s := s.modCtx q c (fun y => { y.wr i.a (loopNext x i) with z := loopNext x i == 0 })
    if loopTaken x i then .jump s i.imm else .next s

/-- `fence` (03 R73): with no flag it completes in its one tick.
[log 13: DEDUCED] -/
def stepFence (s : State) (_q _c : Nat) (x : Ctx) (i : Ram) : Effect :=
  .hold s (.fence (i.flag 0) (i.flag 1) (i.flag 2) (i.flag 3)) (x.rd i.b).toNat

/-- `yield` (02 R34): the sequencer goes to a READY context of the same or a higher level, if there is one. -/
def stepYield (s : State) (q c : Nat) (x : Ctx) (_i : Ram) : Effect :=
  if (s.pick q x.prio).isSome then .final ((s.retire q c (x.pc + 1)).giveWay q c) else .next s

/-- NOP (03 R72). -/
def execNop (e : Env) (q : Fin 16) (s : State) : Host.Outcome State Fault Refusal :=
  .next ((s.arrive e).ramest q 0x00 true (takes 1) (fun i => i.only 0 false false 0) (fun s c => stepNop s q c))
/-- HALT (03 R72). -/
def execHalt (e : Env) (q : Fin 16) (s : State) : Host.Outcome State Fault Refusal :=
  .next ((s.arrive e).ramest q 0x01 true (takes 1) (fun i => i.only 0 false false 0) (fun s c => stepHalt s q c))
/-- JMP (03 R72). -/
def execJmp (e : Env) (q : Fin 16) (s : State) : Host.Outcome State Fault Refusal :=
  .next ((s.arrive e).ramest q 0x02 true (takes 2) Ram.jump (fun s c => stepJmp s q c))
/-- BRC (03 R68, R72). -/
def execBrc (e : Env) (q : Fin 16) (s : State) : Host.Outcome State Fault Refusal :=
  .next ((s.arrive e).ramest q 0x03 true (fun x i => if x.cond i.cf then 2 else 1)
    (fun i => i.cf < 13 && i.only 15 false false imm44) (fun s c => stepBrc s q c))
/-- CALL (03 R72). -/
def execCall (e : Env) (q : Fin 16) (s : State) : Host.Outcome State Fault Refusal :=
  .next ((s.arrive e).ramest q 0x04 true (takes 2) Ram.jump (fun s c => stepCall s q c))
/-- RET (03 R72). -/
def execRet (e : Env) (q : Fin 16) (s : State) : Host.Outcome State Fault Refusal :=
  .next ((s.arrive e).ramest q 0x05 true (takes 2) (fun i => i.only 0 false false 0) (fun s c => stepRet s q c))
/-- LOOP (03 R72). -/
def execLoop (e : Env) (q : Fin 16) (s : State) : Host.Outcome State Fault Refusal :=
  .next ((s.arrive e).ramest q 0x06 true (fun x i => if loopTaken x i then 2 else 1)
    (fun i => i.only 0 true false imm44) (fun s c => stepLoop s q c))
/-- FENCE (03 R73). -/
def execFence (e : Env) (q : Fin 16) (s : State) : Host.Outcome State Fault Refusal :=
  .next ((s.arrive e).ramest q 0x07 true (takes 1) (fun i => i.only 15 false true 0) (fun s c => stepFence s q c))
/-- YIELD (02 R34). -/
def execYieldI (e : Env) (q : Fin 16) (s : State) : Host.Outcome State Fault Refusal :=
  .next ((s.arrive e).ramest q 0x39 true (takes 1) (fun i => i.only 0 false false 0) (fun s c => stepYield s q c))

end Sys2Proof.Machine
end

