-- ==== Sys2Proof/Machine/Programs.lean ====
section
/-! DEFINITION. The context commands (18 R514, R516, R517; 02 R30, R31; 03 R94, R95). -/
namespace Sys2Proof.Machine
open Sys2Proof

/-! ## CTX_LOAD -/

/-- The level is open to session n under the rules on class and claim (02 R30). -/
def State.levelOk (s : State) (n q level : Nat) : Bool :=
  if level ≤ 1 then s.holds n (uSeq q)
  else if level = 2 then true
  else s.isSteward n || s.holds n (uSeq q)

/-- The attribute is allowed at the level (02 R30). -/
def attrOk (level attr : Nat) : Bool := if level = 3 then attr == 2 else attr ≤ 1

/-- The image header's checks (03 R94, R95) for an image of `len` bytes.
[log 23: DEDUCED] -/
def imageOk (h : List Byte) (len : Nat) : Bool :=
  let w1 := leAt h 8 8
  let nw := bitsN w1 18 0
  leAt h 0 8 == 0x152534D54 && bitsN w1 63 40 == 0 && inr nw 1 524280 && bitsN w1 37 19 < nw && len == 64 + 8 * nw &&
    bitsN (leAt h 16 8) 63 16 == 0 && zeroAt h 32 63

/-- The code words of an image put into the program store; an armed flip mask may hit one (13 R407). -/
def State.storeProgram (s : State) (q c : Nat) (words : List Word) : State :=
  let s := s.each ((List.range words.length).zip words) (fun s x => { s with pstore := SMap.put s.pstore (pKey q c x.1) x.2 })
  s.each (List.range words.length) (fun s i =>
    let r := s.sramWrite (Config.storeIndex (pKey q c i) false) 1
    if r.2.isEmpty then r.1 else { r.1 with pstoreBad := addOnce (pKey q c i) r.1.pstoreBad })

/-- The words of a list of bytes. -/
def wordsOfBytes (n : Nat) (l : List Byte) : List Word := (List.range n).map (fun i => wd (leAt l (8 * i) 8))

/-- An image that has been fetched, checked and loaded (18 R516): the header `h`, the whole image `b`.
[log 23: DEDUCED] -/
def State.loadImage (s : State) (n q c level len : Nat) (h b : List Byte) : Answer :=
  let w1 := leAt h 8 8
  let nw := bitsN w1 18 0
  let code := b.drop 64
  if !imageOk h len then s.say 0x0318
  else if crc32c code ≠ leAt h 24 4 then s.say 0x0319
  else if s.pFree < nw then s.say 0x031A
  else
    let x : Ctx := { st := .loaded, prio := level, attr := bitsN w1 39 38, session := n, nwords := nw,
                     entry := bitsN w1 37 19, pc := bitsN w1 37 19 }
    ((s.modCtx q c (fun _ => x)).storeProgram q c (wordsOfBytes nw code), some (0, toLE 4 nw))

/-- CTX_LOAD: RIGHTS, CTX_STATE, the fetch fault, IMAGE, IMAGE_CRC, PSTORE_FULL. The header is fetched first, and the whole
image where LEN can be an image's.
[log 23: DEDUCED] -/
def State.doCtxLoad (s : State) (n : Nat) (m : Msg) : Answer :=
  let q := m.b 0
  let c := m.b 1
  let level := m.b 2
  let len := m.f 4 4
  let va := m.f 8 8
  let free := (s.ctxOf q c).st == .free
  if (s.ses n).cls == .production && 2 ≤ level then s.say 0x0102
  else if !s.levelOk n q level then s.say 0x0312
  else match s.vread n 3 0 va 64 with
  | (s', .error k) => if free then s'.say k else s.say 0x0317
  | (s', .ok h) =>
    if !attrOk level (bitsN (leAt h 8 8) 39 38) then s'.say 0x0312
    else if !free then s'.say 0x0317
    else if len < 72 || 64 + 8 * 524280 < len then s'.say 0x0318
    else match s'.vread n 3 0 va len with
    | (s', .error k) => s'.say k
    | (s', .ok b) => s'.loadImage n q c level len h b

/-! ## CTX_ARM, CTX_START, CTX_STOP -/

/-- A context reset to its entry with the registers of the payload (18 R516; 03 R95). -/
def Ctx.restart (x : Ctx) (m : Msg) (st : CtxSt) (now : Nat) : Ctx :=
  { x with st := st, pc := x.entry, z := false, n := false, c := false, t := false, stack := [], wait := none,
           readyAt := now, g := Vector.ofFn (fun i : Fin 16 =>
             if i.val ≠ 0 && (m.f 2 2).testBit i.val then wd (m.f (8 * i.val) 8) else 0) }

/-- The context can be restarted. -/
def Ctx.stopped (x : Ctx) : Bool := x.st == .loaded || x.st == .halted || x.st == .faulted

/-- CTX_ARM of the emergency context of the sequencer, which is then its only armed one (02 R31); it ends an EMERG_FAULT
(17 R491).
[log 146: DEDUCED; log 153: DEDUCED] -/
def State.doCtxArm (s : State) (n : Nat) (m : Msg) : Answer :=
  let q := m.b 0
  let c := m.b 1
  let x := s.ctxOf q c
  if (s.ses n).cls == .production then s.say 0x0102
  else if x.st != .free && x.session != n then s.say 0x0102
  else if !s.levelOk n q 3 then s.say 0x0312
  else if !(x.attr == 2 && s.ectx q == c && x.stopped) then s.say 0x0317
  else
    let s := s.each ((List.range 64).filter (fun k => (s.ctxOf q k).st == .armed))
      (fun s k => s.modCtx q k (fun x => { x with st := .loaded }))
    let s := s.modCtx q c (fun x => x.restart m .armed s.now)
    let s := if s.safe.emerg.testBit q then s.causeClear 0x0316 q (some q) (fun k => { k with emerg := k.emerg - 2 ^ q }) else s
    s.say 0

/-- CTX_START: a stopped context is READY at its entry; an ARMED one starts as an emergency (02 R31). -/
def State.doCtxStart (s : State) (n : Nat) (m : Msg) : Answer :=
  let q := m.b 0
  let c := m.b 1
  let x := s.ctxOf q c
  if !s.holds n (uSeq q) || (x.st != .free && x.session != n) then s.say 0x0102
  else if x.st == .armed then (s.emergCore q c).say 0
  else if x.stopped then
    let s := s.modCtx q c (fun x => x.restart m .ready s.now)
    (s.modSeq q (fun y => if y.resident == some c then { y with resident := none } else y)).say 0
  else s.say 0x0317

/-- CTX_STOP: the context halts, and a swath that it owns aborts with HOSTSTOP (18 R516). -/
def State.doCtxStop (s : State) (n : Nat) (m : Msg) : Answer :=
  let q := m.b 0
  let c := m.b 1
  let x := s.ctxOf q c
  if !s.isSteward n && (!s.holds n (uSeq q) || (x.st != .free && x.session != n)) then s.say 0x0102
  else if x.st == .free || x.st == .loaded then s.say 0x0317
  else
    let run := x.st == .ready || x.st == .running || x.st == .waiting
    let s := s.when (run && s.ownsSwath q c) (fun s => s.abortSwath q 0x030C)
    let s := s.modCtx q c (fun x => if x.st == .faulted || x.st == .halted then { x with st := .halted } else { x with st := .halted, wait := none })
    (if m.b 2 = 1 then s.freeCtx q c else s).say 0

/-! ## Commands -/

def execCtxLoad (e : Env) (m : Msg) (s : State) : Host.Outcome State Fault Refusal :=
  .next ((s.arrive e).command 0x0300 m 0 (fun s n => s.doCtxLoad n m))
def execCtxArm (e : Env) (m : Msg) (s : State) : Host.Outcome State Fault Refusal :=
  .next ((s.arrive e).command 0x0301 m 0 (fun s n => s.doCtxArm n m))
def execCtxStart (e : Env) (m : Msg) (s : State) : Host.Outcome State Fault Refusal :=
  .next ((s.arrive e).command 0x0302 m 0 (fun s n => s.doCtxStart n m))
def execCtxStop (e : Env) (m : Msg) (s : State) : Host.Outcome State Fault Refusal :=
  .next ((s.arrive e).command 0x0303 m 0 (fun s n => s.doCtxStop n m))

end Sys2Proof.Machine
end

