-- ==== Sys2Proof/Machine/RegRead.lean ====
section
/-! DEFINITION. Reading the register map (00 R7, R8; 11 R331, R360; 12 R388; 17 R503, R504; 18 R507, R509, R510). -/
namespace Sys2Proof.Machine
open Sys2Proof

/-! ## GLB, MGT, XLT and CAL words -/

/-- Sessions whose number is taken. -/
def State.nSess (s : State) : Nat := countN 256 (fun n => (s.ses n).st != .free)

/-- XLT.GSTAT (11 R360). -/
def State.xltGstat (s : State) : Word :=
  fields [(0, 9, s.nSess), (9, 1, b1 ((List.range 256).any (fun n => s.isOpen n && s.isSteward n))), (10, 2, s.xlt.bifurc),
    (12, 1, b1 s.xlt.bifBad), (13, 1, b1 s.commission)]

/-- XLT.KEYSTAT (11 R360). -/
def State.keyStat (s : State) : Word :=
  let used := fun k => (vget s.keys k).used
  wd (maskN 16 used + (those 16 used).foldl (fun a k => a + (vget s.keys k).ceil * 2 ^ (16 + 2 * k)) 0)

/-- XLT.SESS (11 R360). -/
def State.sessWord (s : State) (n : Nat) : Word :=
  let x := s.ses n
  let st := match x.st with | .free => 0 | .opening => 1 | .confirmed => 2 | .kennel => 3
  fields [(0, 3, st), (3, 2, classCode x.cls), (5, 1, b1 x.net), (6, 2, x.fn), (8, 4, x.slot), (12, 1, b1 x.keyed),
    (16, 14, x.lease), (32, 20, x.quota)]

/-- XLT.FNSTAT (11 R360). -/
def State.fnStat (s : State) (f : Nat) : Word :=
  let d := vget s.xlt.direct f
  fields [(0, 8, d.getD 0), (8, 1, b1 d.isSome), (32, 32, vget s.xlt.dropWr f)]

/-- GLB.STAT (18 R509). -/
def State.glbStat (s : State) : Word :=
  fields [(0, 1, b1 (s.phase == .ready)), (1, 1, b1 s.faultHigh), (2, 1, b1 (s.safestat != 0)), (3, 1, b1 s.mem.dok),
    (4, 1, b1 (bits s.pwsGstat 6 0 == 127)), (5, 1, b1 (s.tim.st == .slave)), (6, 1, b1 s.commission),
    (8, 4, bits s.bootStat 3 0), (16, 9, s.nSess)]

/-- MGT.EVQSTAT[k] as reader n sees it (17 R503, R504).
[log 97: DEDUCED] -/
def State.evqStat (s : State) (n : Option Nat) (k : Nat) : Word :=
  let q := (s.ses k).evq
  if n == some k || (match n with | some j => s.isSteward j | none => false) then
    fields [(0, 12, q.held.length), (12, 1, b1 q.loss.isSome), (16, 16, q.dropped), (32, 16, q.ce), (48, 16, q.ue)]
  else 0

/-- CAL.RUN and CAL.RES (15 R457).
[log 126: DEDUCED] -/
def State.calRun (s : State) (r : Nat) : Word :=
  let x := vget s.cal.runs r
  let st := match x.st with | .free => 0 | .running => 2 | .closing => 4
  if x.st == .free then 0
  else fields [(0, 8, x.proc), (8, 8, x.target), (16, 8, x.target2), (24, 8, x.session), (32, 3, st)]
def State.calRes (s : State) (r : Nat) : Word :=
  let x := vget s.cal.runs r
  fields [(0, 16, x.resCode), (16, 16, x.q1), (32, 16, x.q2), (48, 16, x.y0)]

/-- LDP.GSTAT, CNT and CNT2 (04 R131, R137). -/
def State.ldpGstat (s : State) : Word :=
  fields [(0, 16, maskN 16 (fun g => (vget s.eng g).owner.isSome)), (16, 7, countN 64 (fun p => (vget s.str p).st == .stalled))]
def State.ldpCnt (s : State) (p : Nat) : Word :=
  let x := vget s.str p
  fields [(0, 16, x.late), (16, 16, x.lateArr), (32, 16, x.duneErr), (48, 16, x.ringUe)]
def State.ldpCnt2 (s : State) (p : Nat) : Word :=
  let x := vget s.str p
  fields [(0, 32, x.subLost), (32, 16, x.skipped), (48, 16, x.slow)]

/-! ## Tables and windows -/

/-- Bytes of a window as a word. -/
def bytesWord (l : List Byte) (o : Nat) : Word := wd (leAt l o 8)

/-- The word of an MSI-X table at byte offset o of function f (18 R518). -/
def State.msixWord (s : State) (f o : Nat) : Word :=
  let e := SMap.get (vget s.msix f).table ({} : Vec) (o / 16)
  if o % 16 < 8 then wd e.addr else fields [(0, 32, e.data), (32, 1, b1 e.masked)]

/-- Eight SCORE bytes and four NZSTATE entries. -/
def State.scoreWord (s : State) (o : Nat) : Word := fields ((List.range 8).map (fun i => (8 * i, 8, s.score (o + i))))
def State.nzWord (s : State) (o : Nat) : Word :=
  fields ((List.range 4).map (fun i => (16 * i, 16, (s.nz ((o / 2 + i) / 8192) ((o / 2 + i) % 8192)).word)))

/-! ## Every word -/

/-- RO words of GLB, MGT and SEQ. `i` is the instance, `n` the reading session, `f` the function. -/
def State.readA (s : State) (n : Option Nat) (f i base : Nat) : Option Word :=
  if base = 0x0 then some 0x10164401F6B
  else if base = 0x8 then some Config.serial
  else if base = 0x10 then some 0x10044841040
  else if base = 0x18 then some s.glbStat
  else if base = 0x20 then some (wd f)
  else if base = 0x28 then some (wd s.ticks)
  else if base = 0x00100000 then some (wd s.mgt.gen)
  else if base = 0x00100008 then some (wd s.mgt.cTick)
  else if base = 0x00100010 then some (wd s.shadowUsed)
  else if base = 0x00100020 then some s.safestat
  else if base = 0x00100028 then some (wd s.safe.latch)
  else if base = 0x00100030 then some s.ladder
  else if base = 0x00101000 then some (wd (vget s.mgt.unitGen i))
  else if base = 0x00102000 then some (s.stageStat i)
  else if base = 0x00102800 then some (s.ses i).crec
  else if base = 0x00103800 then some (s.evqStat n i)
  else if base = 0x01000000 then some s.seqGstat
  else if base = 0x01000008 then some (wd s.pFree)
  else if base = 0x01000200 then some (s.seqStatus i)
  else if base = 0x01000280 then some (wd (vget s.seq i).ln)
  else if base = 0x01000300 then some (wd (vget s.seq i).sw)
  else if base = 0x01000380 then some (vget s.seq i).abortRec
  else if base = 0x01000400 then some (vget s.seq i).faultRec
  else if base = 0x01000480 then some (wd (vget s.seq i).evbits)
  else if base = 0x01000580 then some (vget s.seq i).commitRec
  else if base = 0x01001000 then some (s.ctxWord (i / 64) (i % 64))
  else none

/-- RO words of LDP, FIR and KL. -/
def State.readB (s : State) (i base : Nat) : Option Word :=
  if base = 0x02000000 then some s.ldpGstat
  else if base = 0x02000100 then some (fields [(0, 1, b1 (vget s.str i).en), (1, 1, b1 (vget s.str i).haltErr)])
  else if base = 0x02000300 then some (s.strStat i)
  else if base = 0x02000500 then some (s.ringStat i)
  else if base = 0x02000B00 then some (s.ldpCnt i)
  else if base = 0x02000D00 then some (vget s.str i).faultRec
  else if base = 0x02000F00 then some (s.ldpCnt2 i)
  else if base = 0x02800000 then some s.firGstat
  else if base = 0x02800B00 then some (s.firPortStat i)
  else if base = 0x02800D00 then some (s.firCnt i)
  else if base = 0x03000000 then some s.klGstat
  else if base = 0x03000500 then some (s.klPortStat i)
  else if base = 0x03000900 then some (s.klCnt i)
  else if base = 0x03000B00 then some (s.klPrbs i)
  else if base = 0x03000D00 then some (s.klPrbsErr i)
  else if base = 0x03000F00 then some (vget s.kl i).eye
  else if base = 0x03001100 then some (vget s.kl i).rxeq
  else if base = 0x03001300 then some (vget s.kl i).headId
  else if base = 0x03001700 then some (s.hregStat i)
  else none

/-- RO words of POS, MOT, CAM and HLT. -/
def State.readC (s : State) (i base : Nat) : Option Word :=
  if base = 0x03400100 then some (wdI (vget s.enc i).seen.count)
  else if base = 0x03400140 then some (fields [(0, 32, s.speed i), (32, 32, (vget s.enc i).seen.period)])
  else if base = 0x03400180 then some (s.encStat i)
  else if base = 0x034001C0 then some (wdI (vget s.enc i).seen.revPos)
  else if base = 0x03400200 then some (wdI (vget s.enc i).seen.zLatch)
  else if base = 0x03400480 then some (wdI (vget s.place i).hwm)
  else if base = 0x03400500 then some (s.plStat i)
  else if base = 0x03500000 then some s.motGstat
  else if base = 0x03500300 then some (s.axStat i)
  else if base = 0x03500340 then some (wdI (vget s.ax i).pos)
  else if base = 0x03500380 then some (s.axVelWord i)
  else if base = 0x035003C0 then some (wd (vget s.ax i).acc)
  else if base = 0x03500440 then some (s.cmdStat i)
  else if base = 0x03600000 then some s.camGstat
  else if base = 0x036001A0 then some (s.camStat i)
  else if base = 0x036001C0 then some (s.camFrame i)
  else if base = 0x036001E0 then some (s.camCnt i)
  else if base = 0x03600220 then some (s.camSetStat i)
  else if base = 0x03600260 then some (s.i2cStat i)
  else if base = 0x03600280 then some (s.camLast i)
  else if base = 0x03600400 then some (if i % 4 < 3 then s.camRingPtr (i / 4) (i % 4) else 0)
  else if base = 0x03800000 then some s.hltGstat
  else if base = 0x03800018 then some s.testStat
  else if base = 0x03800028 then some s.alStat
  else if base = 0x03800400 then some (s.hltCnt i)
  else if base = 0x03800600 then some (SMap.get s.hlt.alPort 0 i)
  else if base = 0x03D10000 then some (SMap.get s.hlt.alRes 0 i)
  else none

/-- RO words of MEM, XLT, TIM, PWS and CAL. -/
def State.readD (s : State) (i base : Nat) : Option Word :=
  if base = 0x04000000 then some s.memGstat
  else if base = 0x04000008 then some s.dramInfo
  else if base = 0x04000020 then some s.sdStat
  else if base = 0x04000028 then some s.mem.bistRec
  else if base = 0x04000030 then some s.oasis
  else if base = 0x04000038 then some s.mem.serr
  else if base = 0x04000100 then some (s.chStat i)
  else if base = 0x04000120 then some (s.dEcc i)
  else if base = 0x04000140 then some (vget s.mem.ch i).derr
  else if base = 0x04000200 then some (s.sEcc i)
  else if base = 0x04000400 then some (vget (vget s.mem.ch (i / 10)).trres (i % 10))
  else if base = 0x04800000 then some s.xltGstat
  else if base = 0x04800008 then some s.keyStat
  else if base = 0x04800010 then some (fields [(0, 32, s.xlt.hits), (32, 32, s.xlt.misses)])
  else if base = 0x04800018 then some (fields [(0, 32, s.xlt.netDropped), (32, 32, s.xlt.netResent)])
  else if base = 0x04800100 then some (s.fnStat i)
  else if base = 0x04801000 then some (s.sessWord i)
  else if base = 0x04801800 then some (wd (s.ses i).lastCtr)
  else if base = 0x04802000 then some (s.ses i).root
  else if base = 0x04802800 then some (s.ses i).fault
  else if base = 0x04803200 then some (s.cvStat i)
  else if base = 0x05000000 then some s.timGstat
  else if base = 0x05000018 then some s.nowSec
  else if base = 0x05000020 then some (s.tim.nowLatch.getD s.nowNs)
  else if base = 0x05000028 then some (wdI s.tim.rate)
  else if base = 0x05000030 then some (wdI s.tim.offset)
  else if base = 0x05000038 then some (wdI s.tim.mpd)
  else if base = 0x05000040 then some s.timParent
  else if base = 0x05000048 then some s.timParentPort
  else if base = 0x05000050 then some s.timHold
  else if base = 0x05000058 then some s.timCnt
  else if base = 0x05000060 then some (wd s.tim.setSec)
  else if base = 0x05100000 then some s.pwsGstat
  else if base = 0x05100020 then some s.dieStat
  else if base = 0x05100028 then some s.boardT
  else if base = 0x05100030 then some s.pws.gapRec
  else if base = 0x05100038 then some s.bootStat
  else if base = 0x05100040 then some s.fwStat
  else if base = 0x05100100 then some (s.feedStat i)
  else if base = 0x05100200 then some (s.railCnt i)
  else if base = 0x05200000 then some (wd (maskN 4 (fun r => (vget s.cal.runs r).st != .free)))
  else if base = 0x05200008 then some (wd (cutN 16 s.cal.dtTrim))
  else if base = 0x05200010 then some s.nvStat
  else if base = 0x05200100 then some (s.calRun i)
  else if base = 0x05200108 then some (s.calRes i)
  else none

/-- The words of tables and windows that the device writes, at byte offset o. -/
def State.readT (s : State) (f o base : Nat) : Option Word :=
  if base = 0x00080000 then some (s.msixWord f o)
  else if base = 0x00090000 then some (wd (maskN 64 (fun k => (vget s.msix f).pending.contains (8 * o + k))))
  else if base = 0x03100000 then some (bytesWord (vget s.kl (o / 256)).hdat (o % 256))
  else if base = 0x03601000 then some (match (vget s.cam (o / 32)).rq with | r :: _ => bytesWord r.bytes (o % 32) | [] => 0)
  else if base = 0x03B00000 then some (s.scoreWord o)
  else if base = 0x03C00000 then some (s.nzWord o)
  else none

/-- The 8-byte word at aligned address a, as session n on function f reads it (00 R7, R8).
[log 85: DESIGN CHOICE; log 150: DEDUCED] -/
def State.readWord (s : State) (n : Option Nat) (f a : Nat) : Word :=
  match regAt a with
  | none => 0
  | some r =>
    let i := r.idx a
    if s.phase != .ready then
      (if r.base = 0x05100038 then s.bootStat
       else if r.base < 0x18 || r.base = 0x20 then (s.readA n f i r.base).getD 0
       else if r.base = 0x00080000 then s.msixWord f (a - r.base)
       else wd r.reset)
    else if r.acc == .ms then wd ((s.reg a).toNat &&& r.wmask a)
    else if r.acc == .wo then 0
    else
      ((((s.readT f (a - r.base) r.base).or (s.readA n f i r.base)).or (s.readB i r.base)).or
        ((s.readC i r.base).or (s.readD i r.base))).getD (wd ((s.reg a).toNat &&& r.wmask a))

/-- What a read does besides: NOWSEC latches the nanoseconds, and the next read of NOWNS uses the latched value up (14 R424).
[log 119: DEDUCED] -/
def State.readEffect (s : State) (a : Nat) : State :=
  if a = 0x05000018 && s.phase == .ready then s.nowSecRead
  else if a = 0x05000020 && s.phase == .ready then s.modTim (fun t => { t with nowLatch := none })
  else s

/-- k words from address a. -/
def State.readWords (s : State) (n : Option Nat) (f : Nat) : Nat → Nat → State × List Byte
  | 0, _ => (s, [])
  | k + 1, a =>
    let w := s.readWord n f a
    let r := (s.readEffect a).readWords n f k (a + 8)
    (r.1, toLE 8 w.toNat ++ r.2)

/-- REG_READ (18 R513); GLB.FN reads as the function of the requester. -/
def State.doRegRead (s : State) (n : Nat) (m : Msg) : Answer :=
  let f := match m.path with | .pcie f _ => f.val | .net _ _ _ => 0
  let k := m.f 4 2
  if s.rspLimit n < 8 * k then s.say 0x010C
  else
    let r := s.readWords (some n) f k (m.f 0 4)
    (r.1, some (0, r.2))

/-- The word at aligned address a of the staging view of function f (00 R7; 11 R330): what its direct session has staged,
else the value in force. Words without a staged value read as 0.
[log 85: DESIGN CHOICE] -/
def State.viewWord (s : State) (f a : Nat) : Word :=
  match regAt a with
  | none => 0
  | some r =>
    if r.acc != .ms then 0
    else if s.phase != .ready then wd r.reset
    else wd ((match vget s.xlt.direct f with | some n => s.stagedBy n a | none => s.reg a).toNat &&& r.wmask a)

/-! ## BAR2: session pages, the open page and the staging view (11 R330, R332; 18 R512) -/

/-- CMDSTAT of a page. -/
def cmdStatWord (busy done : Bool) (status : Nat) : Word := fields [(0, 1, b1 busy), (1, 1, b1 done), (16, 16, status)]

/-- The word at offset o of session page n, as function f reads it (11 R332): 0 where the session was not opened there. EVWR
passes a record once it is in DRAM (17 R487), and an index without a record reads as NULL (17 R486). -/
def State.pageWord (s : State) (f n o : Nat) : Word :=
  let x := s.ses n
  let q := x.evq
  if x.st == .free || x.net || x.fn != f then 0
  else if o < 0x20000 then
    let j := (o / 32 + 4096 - q.rd) % 4096
    if j < q.held.length - q.fresh then bytesWord (s.evwin n j).bytes (o % 32) else 0
  else if o = 0x20000 then wd q.rd
  else if o = 0x20008 then wd ((q.rd + (q.held.length - q.fresh)) % 4096)
  else if o = 0x20018 then cmdStatWord x.busy x.done x.status
  else if o = 0x20020 then x.fault
  else if 0x22000 ≤ o && o < 0x23000 then bytesWord x.rsp.bytes (o - 0x22000)
  else 0

/-- The word at offset o of the open page of function f (18 R512). -/
def State.openWord (s : State) (f o : Nat) : Word :=
  let x := vget s.xlt.openPage f
  if o = 0x20018 then cmdStatWord x.busy x.done x.status
  else if 0x22000 ≤ o && o < 0x23000 then bytesWord x.rsp.bytes (o - 0x22000)
  else 0

/-- The word at aligned address a of BAR2 of function f (11 R330). -/
def State.bar2Word (s : State) (f a : Nat) : Word :=
  if a < 0x04000000 then s.pageWord f (a / 0x40000) (a % 0x40000)
  else if a < 0x04040000 then s.openWord f (a - 0x04000000)
  else if inr a 0x08000000 0x0FFFFFFF then s.viewWord f (a - 0x08000000)
  else 0

/-! ## Commands -/

def execRegRead (e : Env) (m : Msg) (s : State) : Host.Outcome State Fault Refusal :=
  .next ((s.arrive e).command 0x0600 m 0 (fun s n => s.doRegRead n m))

end Sys2Proof.Machine
end

