-- ==== Sys2Proof/Machine/Waiting.lean ====
section
/-! DEFINITION. The waits of Ramest, and signals, marks and commits from a program and signals from a host (03 R83-R90; 02 R25, R31, R86). -/
namespace Sys2Proof.Machine
open Sys2Proof

/-- `waitpos` (03 R84): the bound encoder, or with flag E the one that IMM names.
[log 152: DEDUCED] -/
def stepWaitpos (s : State) (q _c : Nat) (x : Ctx) (i : Ram) : Effect :=
  let ch := if i.flag 1 then i.imm % 4 else s.rf (0x01000100 + 8 * q) 1 0
  .hold s (.pos ch (x.rdI i.a) (i.flag 0)) (x.rd i.b).toNat

/-- `waittime` (03 R85): with flag R, gA ticks from the first of its two entry ticks. -/
def stepWaittime (s : State) (_q _c : Nat) (x : Ctx) (i : Ram) : Effect :=
  let v := (x.rd i.a).toNat
  let k : WaitKind := if i.flag 1 then .devTime v else if i.flag 0 then .tick (s.ticks - 1 + v) else .tick v
  .hold s k (x.rd i.b).toNat

/-- `waitev` (03 R86). -/
def stepWaitev (s : State) (_q _c : Nat) (x : Ctx) (i : Ram) : Effect :=
  .hold s (.ev i.imm (i.flag 0) (i.flag 1)) (x.rd i.b).toNat

/-- `waitax` (03 R87). -/
def stepWaitax (s : State) (_q _c : Nat) (x : Ctx) (i : Ram) : Effect :=
  if !s.holds x.session (uAx i.imm) then .fault 0x0308 else .hold s (.ax i.imm) (x.rd i.b).toNat

/-- The sequencers that a signal names (03 R88): a mask of 0 means the context's own. -/
def sigTargets (q mask : Nat) : List Nat := if mask = 0 then [q] else those 16 mask.testBit

/-- `signal` (03 R88): every other target's claim is held, or no bit is set anywhere. The bits are set 4 ticks later (02 R36). -/
def stepSignal (s : State) (q c : Nat) (x : Ctx) (i : Ram) : Effect :=
  let sigs := i.imm % 256
  let l := sigTargets q (bitsN i.imm 23 8)
  if !l.all (fun t => t == q || s.holds x.session (uSeq t)) then .fault 0x0308
  else
    let s := s.when (i.imm.testBit 24) (fun s =>
      s.postTo (s.ctxSess q c) (s.ev 8 0 q (some q) (wd (i.imm % 2 ^ 24))))
    .next (s.after (s.now + 4 * qTick) (.signal (maskN 16 l.contains) sigs))

/-- The time-stamp of the first tick of an instruction whose last tick is now, n ticks later (14 R434). -/
def State.stampBack (s : State) (n : Nat) : Word :=
  packNs ((s.tim.t - cutN 128 ((n : Int) * (2 ^ 40 + s.tim.rate))) * 4 / (5 * 2 ^ 40))

/-- `mark` (03 R89). -/
def stepMark (s : State) (q c : Nat) (x : Ctx) (i : Ram) : Effect :=
  let d := if i.flag 0 then x.rd i.a else wd i.imm
  .next (s.postTo (s.ctxSess q c) { s.ev 7 0 q (some q) d with time := s.stampBack 3 })

/-- `commit` (03 R90): a refusal at acceptance sets T. -/
def stepCommit (s : State) (q c : Nat) (x : Ctx) (i : Ram) : Effect :=
  let n := (x.rd i.a).toNat
  if 2 ^ 32 ≤ n then .fault 0x0302
  else
    let r := s.commitProgram x.session q n (i.flag 0) (x.rd i.b).toNat
    .next (r.1.modCtx q c (fun y => { y with t := !r.2 }))

/-- `commit` on sequencer q. -/
def State.ramCommit (s : State) (q : Nat) : State :=
  s.ramest q 0x38 true (takes 8) (fun i => if i.flag 0 then i.only 1 true true 0 else i.only 0 true false 0)
    (fun s c => stepCommit s q c)

/-- WAITPOS (03 R84). -/
def execWaitpos (e : Env) (q : Fin 16) (s : State) : Host.Outcome State Fault Refusal :=
  .next ((s.arrive e).ramest q 0x30 true (takes 2) (fun i => i.only 3 true true (if i.flag 1 then 3 else 0))
    (fun s c => stepWaitpos s q c))
/-- WAITTIME (03 R85). -/
def execWaittime (e : Env) (q : Fin 16) (s : State) : Host.Outcome State Fault Refusal :=
  .next ((s.arrive e).ramest q 0x31 true (takes 2) (fun i => i.only 3 true true 0 && i.cf != 3)
    (fun s c => stepWaittime s q c))
/-- WAITEV (03 R86): a mask of 0 or with a reserved bit raises OPERAND. -/
def execWaitev (e : Env) (q : Fin 16) (s : State) : Host.Outcome State Fault Refusal :=
  .next ((s.arrive e).ramest q 0x32 true (takes 2) (fun i => i.only 3 false true (2 ^ 25 - 1) && i.imm != 0)
    (fun s c => stepWaitev s q c))
/-- WAITAX (03 R87). -/
def execWaitax (e : Env) (q : Fin 16) (s : State) : Host.Outcome State Fault Refusal :=
  .next ((s.arrive e).ramest q 0x45 true (takes 2) (fun i => i.only 0 false true 7) (fun s c => stepWaitax s q c))
/-- SIGNAL (03 R88). -/
def execSignal (e : Env) (q : Fin 16) (s : State) : Host.Outcome State Fault Refusal :=
  .next ((s.arrive e).ramest q 0x33 true (takes 1) (fun i => i.only 0 false false (2 ^ 25 - 1) && i.imm % 256 != 0)
    (fun s c => stepSignal s q c))
/-- MARK (03 R89). -/
def execMark (e : Env) (q : Fin 16) (s : State) : Host.Outcome State Fault Refusal :=
  .next ((s.arrive e).ramest q 0x34 true (takes 4)
    (fun i => if i.flag 0 then i.only 1 true false 0 else i.only 0 false false imm44) (fun s c => stepMark s q c))
/-- PROGRAM_COMMIT (03 R90). -/
def execProgramCommit (e : Env) (q : Fin 16) (s : State) : Host.Outcome State Fault Refusal :=
  .next ((s.arrive e).ramCommit q)

/-! ## Host writes (02 R25, R31; 03 R86) -/

/-- SEQ.SIGNAL[q] written by session n. -/
def State.wrSignal (s : State) (n q : Nat) (v : Word) : State × Nat :=
  s.ifRight (s.acting n) n q (fun s => (if bits v 7 0 = 0 then s else s.setEv q (bits v 7 0), 0))

/-- SEQ.GSIGNAL written by session n. -/
def State.wrGsignal (s : State) (n : Nat) (v : Word) : State × Nat :=
  s.ifRight (s.acting n) n 0 (fun s =>
    (if bits v 23 16 = 0 then s else s.each (those 16 (fun q => bit v q)) (fun s q => s.setEv q (bits v 23 16)), 0))

/-- SEQ.EVBITS[q] written by session n: a 1 clears, but for a bit that an event sets in the same tick (03 R86). -/
def State.wrEvbits (s : State) (n q : Nat) (v : Word) : State × Nat :=
  s.ifRight (s.acting n) n q (fun s =>
    (s.modSeq q (fun x =>
      let gone := x.evbits &&& bits v 31 0
      let kept := if s.sameTick x.setAt then gone &&& x.setNow else 0
      { x with evbits := x.evbits - (gone - kept) }), 0))

/-- SEQ_SIGNAL (02 R31). -/
def execSeqSignal (e : Env) (w : Writer) (q : Fin 16) (sigs : Fin 256) (s : State) : Host.Outcome State Fault Refusal :=
  .next ((s.arrive e).asWriter w false (fun s n => s.wrSignal n q (wd sigs)))
/-- SEQ_GSIGNAL (02 R25). -/
def execSeqGsignal (e : Env) (w : Writer) (mask : Fin 65536) (sigs : Fin 256) (s : State) :
    Host.Outcome State Fault Refusal :=
  .next ((s.arrive e).asWriter w false (fun s n => s.wrGsignal n (fields [(0, 16, mask), (16, 8, sigs)])))
/-- SEQ_EVBITS_CLEAR (03 R86). -/
def execSeqEvbitsClear (e : Env) (w : Writer) (q : Fin 16) (mask : BitVec 32) (s : State) :
    Host.Outcome State Fault Refusal :=
  .next ((s.arrive e).asWriter w false (fun s n => s.wrEvbits n q (wd mask.toNat)))

end Sys2Proof.Machine
end

