-- ==== Sys2Proof/Machine/RegWrite.lean ====
section
/-! DEFINITION. Writing the register map (11 R330, R331, R339; 18 R507, R508, R515) and the BAR0 memory window. -/
namespace Sys2Proof.Machine
open Sys2Proof

/-- The registers that only AUTH_WRITE writes (11 R339). -/
def critReg (base : Nat) : Bool :=
  [0x02800008, 0x03500400, 0x03500480, 0x03000700, 0x02000700, 0x03800008].contains base

/-- An 8-byte word with the bytes under `mask` taken from v. -/
def mergeWord (w : Word) (mask v : Nat) : Word := wd ((w.toNat - (w.toNat &&& mask)) + (v &&& mask))

/-! ## Registers without a row of their own -/

/-- MGT.SAFELATCH: only the Steward clears bits (17 R503). -/
def State.wrSafeLatch (s : State) (n : Nat) (v : Word) : State × Nat :=
  s.ifRight (s.isSteward n) n 0 (fun s => (s.modSafe (fun x => { x with latch := x.latch - (x.latch &&& v.toNat) }), 0))

/-- MGT.SNAPCFG[i]: only session i writes it (12 R387).
[log 105: DEDUCED] -/
def State.wrSnapCfg (s : State) (n i : Nat) (v : Word) : State × Nat :=
  s.ifRight (n == i) n i (fun s =>
    let a := 0x00103000 + 8 * i
    let start := bit v 0 && !bit (s.reg a) 0
    let s := s.setReg a (v &&& wd 0x0000FFFFFFFF001F)
    (s.when start (fun s => s.modSess i (fun x => { x with snapAt := s.now })), 0))

/-- KL.HREGDAT: bytes of port p's window, by the holder of the port. -/
def State.wrHregDat (s : State) (n o mask v : Nat) : State × Nat :=
  let p := o / 256
  s.klHolder p n (fun s =>
    (s.modKl p (fun k => { k with hdat := (List.range 8).foldl (fun l i =>
      if mask.testBit (8 * i) then l.set (o % 256 / 8 * 8 + i) (BitVec.ofNat 8 (v / 256 ^ i)) else l) k.hdat }), 0))

/-- XLT.FNWIN[f]: only the direct session of function f writes it (11 R359). -/
def State.wrFnWin (s : State) (n f : Nat) (v : Word) : State × Nat :=
  s.ifRight (vget s.xlt.direct f == some n) n f (fun s => (s.setReg (0x04800120 + 8 * f) (v &&& wd 0x0000FFFFFFFF0000), 0))

/-- XLT.SESS[i][QUOTA]: only the Steward writes it, through REG_WRITE (11 R359).
[log 95: DEDUCED] -/
def State.wrQuota (s : State) (n i : Nat) (v : Word) : State × Nat :=
  s.ifRight (s.isSteward n) n i (fun s =>
    (s.modSess i (fun x => if x.st == .free then x else { x with quota := bits v 51 32 }), 0))

/-! ## Every register and table entry -/

/-- A write to the register with index i by session n.
[log 148: DEDUCED] -/
def State.writeReg (s : State) (n i base : Nat) (v : Word) (byCmd : Bool) : State × Nat :=
  if base = 0x00100028 then s.wrSafeLatch n v
  else if base = 0x00103000 then s.wrSnapCfg n i v
  else if base = 0x01000010 then s.wrGsignal n v
  else if base = 0x01000480 then s.wrEvbits n i v
  else if base = 0x01000500 then s.wrSignal n i v
  else if base = 0x02000100 then s.wrStrCfg n i v
  else if base = 0x02000700 then s.wrRingCtl n i v
  else if base = 0x02800008 then s.wrHvCtl n v
  else if base = 0x02800F00 then s.wrFirPortCtl i n v
  else if base = 0x03000700 then s.wrKlPortCtl i n v
  else if base = 0x03000B00 then s.wrPrbs i n v
  else if base = 0x03001500 then s.wrHregCmd i n v
  else if base = 0x03400080 then s.wrEncCtl n i v
  else if base = 0x03500400 then s.wrMotCmd n i v
  else if base = 0x03500480 then s.wrAxCtl n i v
  else if base = 0x03600200 then s.wrCamCtl i n v
  else if base = 0x03600240 then s.wrI2c i n v
  else if base = 0x03600400 then s.wrRingPtr (i / 4) (i % 4) n v
  else if base = 0x03800008 then s.wrNzCtl n v
  else if base = 0x03800010 then s.wrTestCtl n v
  else if base = 0x03800020 then s.wrAlCtl n v
  else if base = 0x04000040 then s.wrFlipMask n v
  else if base = 0x04000048 then s.wrFlipCtl n v
  else if base = 0x04800120 then s.wrFnWin n i v
  else if base = 0x04801000 && byCmd then s.wrQuota n i v
  else if base = 0x04803000 then s.wrCvCtl n i v
  else if base = 0x05000060 then s.wrSetSec n v
  else if base = 0x05000068 then s.commitFirst.wrSetNs n v
  else if base = 0x05100010 then s.wrFeedCtl n v
  else (s, 0)

/-- A write to the MSI-X table of function f, which any requester may make (18 R508, R518). -/
def State.wrMsix (s : State) (f o mask v : Nat) : State :=
  let w := mergeWord (s.msixWord f (o / 8 * 8)) mask v
  let s := { s with msix := vmod s.msix f (fun m =>
    let e := SMap.get m.table ({} : Vec) (o / 16)
    let e := if o % 16 < 8 then { e with addr := w.toNat } else { e with data := bits w 31 0, masked := bit w 32 }
    { m with table := SMap.set m.table {} (o / 16) e }) }
  s.msixFlush f

/-- The programs' commit requests of this tick, which are accepted before a staging write of the tick is decided (12 R369, R385).
[log 6: DESIGN CHOICE] -/
def State.acceptFirst (s : State) : State :=
  s.each s.together (fun s c => match c with
    | .programCommit _ q => s.ramCommit q
    | _ => s)

/-- A write of the bytes under `mask` of the word at aligned address a by session n (18 R508).
[log 148: DEDUCED] -/
def State.writeWord (s : State) (n a mask v : Nat) (byCmd auth : Bool) : State × Nat :=
  match regAt a with
  | none => (s, 0)
  | some r =>
    if critReg r.base && !auth then s.refuse n 0x010A (r.idx a)
    else if r.acc == .ms then
      let s := s.acceptFirst
      if s.mayStage n (r.unit a) && s.calComing (r.unit a) then s.refuse n 0x0113 (r.unit a) else s.stageWord n a mask v
    else if r.base = 0x00080000 then (s.wrMsix (s.ses n).fn (a - r.base) mask v, 0)
    else if r.base = 0x03100000 then s.wrHregDat n (a - r.base) mask v
    else s.writeReg n (r.idx a) r.base (wd v) byCmd

/-! ## Through BAR0 -/

/-- REGISTER_WRITE (11 R331; 18 R507): naturally aligned, 1 to 8 bytes; a register takes 8 bytes alone.
[log 148: DEDUCED] -/
def State.barWrite (s : State) (f a : Nat) (data : List Byte) : State :=
  let k := data.length
  let o := a % 8
  let mask := (2 ^ (8 * k) - 1) * 2 ^ (8 * o)
  let v := leNat data * 2 ^ (8 * o)
  if s.phase != .ready then s
  else if !([1, 2, 4, 8].contains k && a % k == 0) then s.dropWr f
  else match regAt a with
  | none => s
  | some r =>
    if r.base = 0x00080000 then s.wrMsix f (a - r.base) mask v
    else if !r.table && k ≠ 8 then s.dropWr f
    else match vget s.xlt.direct f with
    | none => s.dropWr f
    | some n => (s.writeWord n (wordAddr a) mask v false false).1

/-- The window's base of function f: VA bits 47:27 of FNWIN.
[log 95: DEDUCED] -/
def State.winBase (s : State) (f : Nat) : Nat := s.rf (0x04800120 + 8 * f) 47 27 * 2 ^ 27

/-- A translated access of the window of function f: bytes in device DRAM are read or written; a page of host memory is
a TARGET fault. A read that meets an uncorrectable error completes with zeros, poisoned (13 R400).
[log 95: DEDUCED] -/
def State.winPieces (s : State) (n f va : Nat) (write : Bool) (data : List Byte) (l : List Piece) : State :=
  if !l.all (·.dram) then
    let s := s.xltFault n va 0x0203 3 0
    if write then s else s.emit (.window f (zeros data.length))
  else if write then s.writePieces n l data
  else match s.readPieces n 3 l with
  | (s, .ok b) => s.emit (.window f b)
  | (s, .error _) => s.emit (.window f (zeros data.length) true)

/-- WINDOW_ACCESS (11 R330, R331): device DRAM pages of the direct session; a fault reads zeros or discards the write. -/
def State.winAccess (s : State) (f o : Nat) (write : Bool) (data : List Byte) : State :=
  let k := data.length
  if s.phase != .ready then s
  else match vget s.xlt.direct f with
  | none => if write then s.dropWr f else s.emit (.window f (zeros k))
  | some n =>
    let va := s.winBase f + o
    match s.access n 3 0 write va k with
    | (s, .error _) => if write then s else s.emit (.window f (zeros k))
    | (s, .ok l) => s.winPieces n f va write data l

/-! ## Through commands -/

/-- k words written in order from address a, until one is refused: the code, and how many were written (18 R515). -/
def State.writeWords (s : State) (n : Nat) (m : Msg) (a : Nat) : Nat → Nat → State × Nat × Nat
  | 0, i => (s, 0, i)
  | k + 1, i =>
    let r := s.writeWord n (a + 8 * i) all64 (m.f (8 + 8 * i) 8) true false
    if r.2 = 0 then r.1.writeWords n m a k (i + 1) else (r.1, r.2, i)

/-- REG_WRITE. The response gives the words written, also where one was refused.
[log 149: DEDUCED] -/
def State.doRegWrite (s : State) (n : Nat) (m : Msg) : Answer :=
  let r := s.writeWords n m (m.f 0 4) (m.f 4 2) 0
  (r.1, some (r.2.1, toLE 4 r.2.2))

/-- AUTH_WRITE (11 R339). -/
def State.doAuthWrite (s : State) (n : Nat) (m : Msg) : Answer :=
  let r := s.writeWord n (m.f 0 4) all64 (m.f 8 8) true true
  r.1.say r.2

/-! ## Commands -/

def execRegWrite (e : Env) (m : Msg) (s : State) : Host.Outcome State Fault Refusal :=
  .next ((s.arrive e).command 0x0601 m 0 (fun s n => s.doRegWrite n m))
def execAuthWrite (e : Env) (m : Msg) (s : State) : Host.Outcome State Fault Refusal :=
  .next ((s.arrive e).command 0x0602 m 0 (fun s n => s.doAuthWrite n m))
def execRegisterWrite (e : Env) (f : Fin 4) (addr : BitVec 27) (data : List Byte) (s : State) : Host.Outcome State Fault Refusal :=
  .next ((s.arrive e).barWrite f addr.toNat data)
def execWindowAccess (e : Env) (f : Fin 4) (offset : BitVec 27) (write : Bool) (data : List Byte) (s : State) :
    Host.Outcome State Fault Refusal :=
  .next ((s.arrive e).winAccess f offset.toNat write data)

/-- TIME_SET: a commit of the tick comes first (14 R432, R435). -/
def execTimeSet (e : Env) (w : Writer) (ns : BitVec 32) (s : State) : Host.Outcome State Fault Refusal :=
  .next ((s.arrive e).asWriter w false (fun s n => s.commitFirst.wrSetNs n (wd ns.toNat)))

end Sys2Proof.Machine
end

