-- ==== Sys2Proof/Machine/Snapshot.lean ====
section
/-! DEFINITION. Snapshots (12 R379-R381). -/
namespace Sys2Proof.Machine
open Sys2Proof

/-- The blocks of the register map in order of base (18 R505): base and end. -/
def mapBlocks : List (Nat × Nat) :=
  [(0x0, 0xFFFFF), (0x00100000, 0x00FFFFFF), (0x01000000, 0x01FFFFFF), (0x02000000, 0x027FFFFF), (0x02800000, 0x02FFFFFF),
   (0x03000000, 0x033FFFFF), (0x03400000, 0x034FFFFF), (0x03500000, 0x035FFFFF), (0x03600000, 0x037FFFFF),
   (0x03800000, 0x03FFFFFF), (0x04000000, 0x047FFFFF), (0x04800000, 0x04FFFFFF), (0x05000000, 0x050FFFFF),
   (0x05100000, 0x051FFFFF), (0x05200000, 0x052FFFFF)]

/-- The register addresses of a block below its first table, in order (12 R381). -/
def blockRegs (b : Nat × Nat) : List Nat :=
  let rows := regTable.filter (fun r => b.1 ≤ r.base && r.base ≤ b.2)
  let top := (rows.filter (·.table)).foldl (fun m r => min m r.base) (b.2 + 1)
  let l := (rows.filter (fun r => !r.table)).flatMap (fun r => (List.range r.count).map (fun i => r.base + r.stride * i))
  (l.filter (fun a => a < top && (regAt a).isSome)).mergeSort (· ≤ ·)

/-- The body of a record for session n: the registers, then the table ranges from the banks that are live. -/
def State.snapBody (s : State) (n : Nat) (ranges : List (Nat × Nat)) : List Byte :=
  (mapBlocks.flatMap blockRegs).flatMap (fun a => toLE 8 (s.readWord (some n) (s.ses n).fn a).toNat) ++
    ranges.flatMap (fun r => (List.range r.2).map (fun i => BitVec.ofNat 8 (s.tab (r.1 + i) 1)))

/-- A record (12 R381): KIND 1 periodic with number k, 2 on demand. -/
def State.snapRecord (s : State) (n kind k : Nat) (ranges : List (Nat × Nat)) : List Byte :=
  let body := s.snapBody n ranges
  let head := toLE 4 0x50414E53 ++ toLE 1 1 ++ toLE 1 kind ++ toLE 2 ranges.length ++ toLE 8 s.mgt.gen ++ toLE 8 s.ticks ++
    toLE 8 s.stamp.toNat ++ toLE 4 (64 + body.length) ++ toLE 4 k ++ zeros 20
  head ++ toLE 4 (crc32c (head ++ body)) ++ body

/-- SNAPSHOT.
[log 105: DEDUCED] -/
def State.doSnapshot (s : State) (n : Nat) (m : Msg) : Answer :=
  let s := s.commitFirst
  let r := s.vwrite n 3 0 (m.f 0 8) (s.snapRecord n 2 0 m.ranges)
  if r.2 ≠ 0 then r.1.say r.2 else (r.1, some (0, toLE 8 s.mgt.gen))

/-- SNAPSHOT_PERIODIC (12 R379, R380): every 1,250,000 ticks, into slot k mod NSLOT; a translation fault skips the record.
[log 105: DEDUCED] -/
def State.snapPeriodic (s : State) (n : Nat) : State :=
  let w := s.reg (0x00103000 + 8 * n)
  let x := s.ses n
  if !s.confirmed n || !bit w 0 || !s.due x.snapAt (1250000 * qTick) then s
  else
    let s := s.commitFirst
    let slots := bits w 4 1 + 1
    let va := bits w 47 16 * 65536 + 65536 * (x.snapK % slots)
    let r := s.vwrite n 3 0 va (s.snapRecord n 1 x.snapK [])
    r.1.modSess n (fun x => { x with snapK := (x.snapK + 1) % 2 ^ 32, snapAt := x.snapAt + 1250000 * qTick })

def execSnapshot (e : Env) (m : Msg) (s : State) : Host.Outcome State Fault Refusal :=
  .next ((s.arrive e).command 0x0402 m 0 (fun s n => s.doSnapshot n m))
def execSnapshotPeriodic (e : Env) (n : Fin 256) (s : State) : Host.Outcome State Fault Refusal :=
  .next ((s.arrive e).snapPeriodic n)

end Sys2Proof.Machine
end

