-- ==== Sys2Proof/Machine/Held.lean ====
section
/-! DEFINITION. The end of a management-plane interruption (11 R347): leases restart, and the requests held meanwhile are executed in the order of their arrival. -/
namespace Sys2Proof.Machine
open Sys2Proof

/-- What command `op` does, with the KIND, OP or PROC `sub` that its row stands for (18 R513). -/
def State.actOf (op sub : Nat) (m : Msg) : State → Nat → Answer :=
  match op with
  | 0x0002 => State.doConfirm
  | 0x0003 => State.doClose
  | 0x0005 => if sub = 0 then fun s n => s.doRevokeSession n m else fun s _ => s.doRevokeUnit m
  | 0x0006 => fun s n => s.doKeyInstall n m
  | 0x0007 => fun s n => s.doKeyErase n m
  | 0x0008 => fun s _ => s.doNetSet m
  | 0x0100 => fun s n => s.doClaim n m
  | 0x0101 => fun s n => s.doRelease n m
  | 0x0200 => fun s n => s.doMemAlloc n m
  | 0x0201 => fun s n => s.doMemFree n m
  | 0x0202 => fun s n => s.doPtSet n m
  | 0x0203 => fun s n => s.doTlbInval n m
  | 0x0204 => fun s n => s.doFaultResume n m
  | 0x0205 => fun s n => s.doMemWrite n m
  | 0x0206 => fun s n => s.doMemRead n m
  | 0x0300 => fun s n => s.doCtxLoad n m
  | 0x0301 => fun s n => s.doCtxArm n m
  | 0x0302 => fun s n => s.doCtxStart n m
  | 0x0303 => fun s n => s.doCtxStop n m
  | 0x0400 => fun s n => s.doCommit n m
  | 0x0401 => State.doDiscard
  | 0x0402 => fun s n => s.doSnapshot n m
  | 0x0403 => if sub = 0xFF then fun s _ => s.doCalAbort m else fun s n => s.doCal n m sub
  | 0x0404 => fun s n => s.doRepair n m
  | 0x0500 => fun s n => s.doNvWrite n m
  | 0x0501 => fun s n => s.doNvRead n m
  | 0x0502 => fun s n => s.doFwStage n m
  | 0x0503 => fun s n => s.doFwSwitch n m
  | 0x0600 => fun s n => s.doRegRead n m
  | 0x0601 => fun s n => s.doRegWrite n m
  | 0x0602 => fun s n => s.doAuthWrite n m
  | _ => fun s _ => s.say 0

/-- A held request executed: one that a new interruption catches is held again.
[log 86: DESIGN CHOICE] -/
def State.heldRun (s : State) (r : Nat × Nat × Msg) : State :=
  let m := r.2.2
  if s.safe.mgmtDown.isSome then s.modXlt (fun x => { x with held := x.held ++ [r] })
  else if r.1 = 1 then s.decideOpen m
  else (s.modSess m.session (fun x => { x with busy := false })).decideMsg m.session r.1 m (m.bodyOk r.1 r.2.1) (State.actOf r.1 r.2.1 m)

/-- MGMT_RESUME (11 R347). An interruption under MGMT_LOST holds until rung 3 (17 R493).
[log 147: DEDUCED] -/
def State.mgmtResume (s : State) : State :=
  if s.safe.mgmtDown.isNone || s.safe.mgmt then s
  else
    let s := s.modSafe (fun x => { x with mgmtDown := none })
    let s := { s with sess := s.sess.map (fun (x : Sess) => if x.st == SessSt.confirmed then { x with renewAt := s.now } else x) }
    let l := s.xlt.held
    (s.modXlt (fun x => { x with held := [] })).each l State.heldRun

/-- An idle tick: what waits for time alone goes on.
[log 1: DESIGN CHOICE] -/
def State.idle (s : State) : State := (s.arrive idleEnv).fwPoll

def execMgmtResume (e : Env) (s : State) : Host.Outcome State Fault Refusal := .next (s.arrive e).mgmtResume

end Sys2Proof.Machine
end

