-- ==== Sys2Proof/Machine/Loads.lean ====
section
/-! DEFINITION. The load instructions of Ramest: status words, time and position (03 R75-R77). -/
namespace Sys2Proof.Machine
open Sys2Proof

/-- The fields of `ldst`: the index bits that a selector uses (03 R75); none for an unlisted selector. -/
def ldstIndex (sel : Nat) : Option Nat :=
  if sel ≤ 7 then some 0
  else if sel = 0x10 || sel = 0x11 then some 7
  else if sel = 0x18 || sel = 0x19 then some 3
  else if sel = 0x20 then some 63
  else none

/-- The form of `ldst`. -/
def Ram.ldst (i : Ram) : Bool :=
  match ldstIndex (i.imm % 256) with
  | some m => i.only 0 true false 0xFFFF && (i.imm / 256) &&& m == i.imm / 256
  | none => false

/-- The resource that a selector names is bound to a context of session n and level `level` (02 R30; 03 R70, R75). -/
def State.ldstBound (s : State) (q n level sel idx : Nat) : Bool :=
  if sel = 0x10 || sel = 0x11 then s.holds n (uAx idx)
  else if sel = 0x18 || sel = 0x19 then s.holds n (uCam idx)
  else if sel = 0x20 then s.inSegment q idx && (level != 2 || s.holds n idx)
  else true

/-- The status word of a selector (03 R75). -/
def State.ldstWord (s : State) (q sel idx : Nat) : Word :=
  let x := vget s.seq q
  match sel with
  | 0x00 => s.seqStatus q
  | 0x01 => wd x.evbits
  | 0x02 => x.commitRec
  | 0x03 => x.abortRec
  | 0x04 => x.faultRec
  | 0x05 => s.lnqWord q
  | 0x06 => s.swCount q
  | 0x07 => wd s.mgt.gen
  | 0x10 => s.axStat idx
  | 0x11 => wdI (vget s.ax idx).pos
  | 0x18 => fields [(0, 32, (vget s.cam idx).gen), (32, 32, (vget s.cam idx).frameCnt)]
  | 0x19 => s.camLast idx
  | _ => s.firPortStat idx

/-- `ldst`. -/
def stepLdst (s : State) (q c : Nat) (x : Ctx) (i : Ram) : Effect :=
  let sel := i.imm % 256
  let idx := i.imm / 256
  if !s.ldstBound q x.session x.prio sel idx then .fault 0x0308
  else .next (s.modCtx q c (fun y => y.wr i.a (s.ldstWord q sel idx)))

/-- The time value of a selector (03 R76). -/
def State.ldtWord (s : State) (q sel : Nat) : Word :=
  match sel with
  | 0 => wd s.ticks
  | 1 => wd (s.devNs / 1000000000 % 2 ^ 48)
  | 2 => fields [(0, 16, s.devFrac), (16, 32, s.devNs % 1000000000)]
  | 3 => s.stamp
  | _ => (vget s.seq q).lastStamp

/-- `ldt`. -/
def stepLdt (s : State) (q c : Nat) (_x : Ctx) (i : Ram) : Effect :=
  .next (s.modCtx q c (fun y => y.wr i.a (s.ldtWord q i.imm)))

/-- The form of `ldpos` (03 R77): items 4 and 6 name no channel. -/
def Ram.ldpos (i : Ram) : Bool :=
  i.only 0 true false 0xF3 && i.imm / 16 < 7 && (i.imm / 16 != 4 && i.imm / 16 != 6 || i.imm % 16 == 0)

/-- The position item of an encoder channel as it has reached LCLK, or of the context's own placer (03 R77; 05 R163). -/
def State.ldposWord (s : State) (q item ch : Nat) : Word :=
  let e := (vget s.enc ch).seen
  match item with
  | 0 => wdI e.count
  | 1 => wd (s.speed ch)
  | 2 => s.encStat ch
  | 3 => wd e.qerr
  | 4 => wdI (vget s.place q).hwm
  | 5 => wdI e.revPos
  | _ => wd (sat 16 (vget s.place q).qerrSw)

/-- `ldpos`. -/
def stepLdpos (s : State) (q c : Nat) (_x : Ctx) (i : Ram) : Effect :=
  .next (s.modCtx q c (fun y => y.wr i.a (s.ldposWord q (i.imm / 16) (i.imm % 4))))

/-- LDST (03 R75). -/
def execLdst (e : Env) (q : Fin 16) (s : State) : Host.Outcome State Fault Refusal :=
  .next ((s.arrive e).ramest q 0x17 true (takes 4) Ram.ldst (fun s c => stepLdst s q c))
/-- LDT (03 R76). -/
def execLdt (e : Env) (q : Fin 16) (s : State) : Host.Outcome State Fault Refusal :=
  .next ((s.arrive e).ramest q 0x18 true (takes 2) (fun i => i.only 0 true false 7 && i.imm < 5)
    (fun s c => stepLdt s q c))
/-- LDPOS (03 R77). -/
def execLdpos (e : Env) (q : Fin 16) (s : State) : Host.Outcome State Fault Refusal :=
  .next ((s.arrive e).ramest q 0x19 true (takes 4) Ram.ldpos (fun s c => stepLdpos s q c))

end Sys2Proof.Machine
end

