-- ==== Sys2Proof/Machine/Printing.lean ====
section
/-! DEFINITION. The printing instructions of Ramest (03 R78-R82). -/
namespace Sys2Proof.Machine
open Sys2Proof

/-- `swath` (03 R78; 02 R37): OPERAND, SWATHOPEN, then BINDING. -/
def stepSwath (s : State) (q c : Nat) (x : Ctx) (i : Ram) : Effect :=
  let f := (x.rd i.a).toNat
  if 2 ^ 32 ≤ f || (vget s.seq q).pitch = 0 then .fault 0x0302
  else if (vget s.seq q).swst == .opened then .fault 0x0307
  else if !s.segClaimed q x.session then .fault 0x0308
  else .next (s.openSwath q c f (x.rdI i.b))

/-- The first line that no queued entry covers. -/
def Seq.queuedTo (x : Seq) : Nat := x.lnq.foldl (fun n e => n + e.left) x.nextLine

/-- The count of an entry is legal (03 R79): not 0, not above 2^32 − 1, and not past line 0xFFFF_FFFF. -/
def State.countOk (s : State) (q c n : Nat) : Bool :=
  0 < n && n < 2 ^ 32 && (!s.ownsSwath q c || (vget s.seq q).queuedTo + n ≤ 2 ^ 32)

/-- The swath of context c was aborted in a tick of the present instruction (03 R67, R79, R81). -/
def State.cutShort (s : State) (q c : Nat) : Bool :=
  match (vget s.seq q).aborted with
  | some (t, o) => o == c && (vget s.seq q).freeAt ≤ t
  | none => false

/-- An entry appended to the line queue; with 16 entries the instruction waits (02 R39). T is clear where it is appended, and
set where the swath was aborted during the instruction. -/
def State.appendLn (s : State) (q c n pat : Nat) (kind : LnKind) : Effect :=
  let e : LnEntry := { kind := kind, left := n, pat := pat }
  if !s.countOk q c n then .fault 0x0302
  else if !s.ownsSwath q c then
    if s.cutShort q c then .next (s.modCtx q c (fun y => { y with t := true })) else .fault 0x0306
  else if (vget s.seq q).lnq.length < 16 then
    .next ((s.modSeq q (fun x => { x with lnq := x.lnq ++ [e], printed := some (s.now, c) })).modCtx q c
      (fun y => { y with t := false }))
  else .hold s (.append e) 0

/-- `lines`. -/
def stepLines (s : State) (q c : Nat) (x : Ctx) (i : Ram) : Effect := s.appendLn q c (x.count i) 0 .lines

/-- `blank`. -/
def stepBlank (s : State) (q c : Nat) (x : Ctx) (i : Ram) : Effect := s.appendLn q c (x.count i) 0 .blank

/-- `spit`. -/
def stepSpit (s : State) (q c : Nat) (x : Ctx) (i : Ram) : Effect := s.appendLn q c (x.rd i.a).toNat i.imm .spit

/-- `endswath` (03 R81). -/
def stepEndswath (s : State) (q c : Nat) (_x : Ctx) (_i : Ram) : Effect :=
  if !s.ownsSwath q c then
    if s.cutShort q c then .next (s.modCtx q c (fun y => { y with t := true })) else .fault 0x0306
  else if s.swathDone q then .next ((s.closeSwath q).modCtx q c (fun y => { y with t := false }))
  else .hold s .endswath 0

/-- `pitch` (03 R82): one count at least, below 2^48. -/
def stepPitch (s : State) (q _c : Nat) (x : Ctx) (i : Ram) : Effect :=
  let v := (x.rd i.a).toNat
  if v < 2 ^ 32 || 2 ^ 48 ≤ v then .fault 0x0302 else .next (s.modSeq q (fun y => { y with pitch := v }))

/-- `rowdly` (03 R82). -/
def stepRowdly (s : State) (q _c : Nat) (x : Ctx) (i : Ram) : Effect :=
  let v := (x.rd i.a).toNat
  if 256 ≤ v then .fault 0x0302 else .next (s.modSeq q (fun y => { y with rowdly := v }))

/-- `energy` (03 R82): 0, or 8 to 15. -/
def stepEnergy (s : State) (q _c : Nat) (x : Ctx) (i : Ram) : Effect :=
  let v := (x.rd i.a).toNat
  if v ≠ 0 && (v < 8 || 16 ≤ v) then .fault 0x0302 else .next (s.modSeq q (fun y => { y with bandMode := v }))

/-- SWATH (03 R78). -/
def execSwath (e : Env) (q : Fin 16) (s : State) : Host.Outcome State Fault Refusal :=
  .next ((s.arrive e).ramest q 0x20 false (takes 16) (fun i => i.only 0 true true 0) (fun s c => stepSwath s q c))
/-- LINES (03 R79). -/
def execLines (e : Env) (q : Fin 16) (s : State) : Host.Outcome State Fault Refusal :=
  .next ((s.arrive e).ramest q 0x21 false (takes 2) Ram.counted (fun s c => stepLines s q c))
/-- BLANK (03 R79). -/
def execBlank (e : Env) (q : Fin 16) (s : State) : Host.Outcome State Fault Refusal :=
  .next ((s.arrive e).ramest q 0x22 false (takes 2) Ram.counted (fun s c => stepBlank s q c))
/-- SPIT (03 R79). -/
def execSpit (e : Env) (q : Fin 16) (s : State) : Host.Outcome State Fault Refusal :=
  .next ((s.arrive e).ramest q 0x24 false (takes 2) (fun i => i.only 0 true false 0xFF) (fun s c => stepSpit s q c))
/-- ENDSWATH (03 R81). -/
def execEndswath (e : Env) (q : Fin 16) (s : State) : Host.Outcome State Fault Refusal :=
  .next ((s.arrive e).ramest q 0x23 false (takes 2) (fun i => i.only 0 false false 0) (fun s c => stepEndswath s q c))
/-- PITCH (03 R82). -/
def execPitch (e : Env) (q : Fin 16) (s : State) : Host.Outcome State Fault Refusal :=
  .next ((s.arrive e).ramest q 0x25 false (takes 2) (fun i => i.only 0 true false 0) (fun s c => stepPitch s q c))
/-- ROWDLY (03 R82). -/
def execRowdly (e : Env) (q : Fin 16) (s : State) : Host.Outcome State Fault Refusal :=
  .next ((s.arrive e).ramest q 0x26 false (takes 2) (fun i => i.only 0 true false 0) (fun s c => stepRowdly s q c))
/-- ENERGY (03 R82). -/
def execEnergy (e : Env) (q : Fin 16) (s : State) : Host.Outcome State Fault Refusal :=
  .next ((s.arrive e).ramest q 0x27 false (takes 2) (fun i => i.only 0 true false 0) (fun s c => stepEnergy s q c))

end Sys2Proof.Machine
end

