-- ==== Sys2Proof/Machine/Dispatch.lean ====
section
/-! DEFINITION. The meaning of a command, one arm per constructor: a direct call of that command's own meaning. -/
namespace Sys2Proof.Machine
open Sys2Proof

def exec (i : Instr) (s : State) : Host.Outcome State Fault Refusal :=
  match i with
  | .nop e q => Sys2Proof.Machine.execNop e q s
  | .halt e q => Sys2Proof.Machine.execHalt e q s
  | .jmp e q => Sys2Proof.Machine.execJmp e q s
  | .brc e q => Sys2Proof.Machine.execBrc e q s
  | .call e q => Sys2Proof.Machine.execCall e q s
  | .ret e q => Sys2Proof.Machine.execRet e q s
  | .loop e q => Sys2Proof.Machine.execLoop e q s
  | .fence e q => Sys2Proof.Machine.execFence e q s
  | .ldi e q => Sys2Proof.Machine.execLdi e q s
  | .add e q => Sys2Proof.Machine.execAdd e q s
  | .sub e q => Sys2Proof.Machine.execSub e q s
  | .andI e q => Sys2Proof.Machine.execAndI e q s
  | .orI e q => Sys2Proof.Machine.execOrI e q s
  | .cmp e q => Sys2Proof.Machine.execCmp e q s
  | .mov e q => Sys2Proof.Machine.execMov e q s
  | .ldst e q => Sys2Proof.Machine.execLdst e q s
  | .ldt e q => Sys2Proof.Machine.execLdt e q s
  | .ldpos e q => Sys2Proof.Machine.execLdpos e q s
  | .swath e q => Sys2Proof.Machine.execSwath e q s
  | .lines e q => Sys2Proof.Machine.execLines e q s
  | .blank e q => Sys2Proof.Machine.execBlank e q s
  | .spit e q => Sys2Proof.Machine.execSpit e q s
  | .lineQueueAppend e q => Sys2Proof.Machine.execLineQueueAppend e q s
  | .endswath e q => Sys2Proof.Machine.execEndswath e q s
  | .swathEnd e q => Sys2Proof.Machine.execSwathEnd e q s
  | .pitch e q => Sys2Proof.Machine.execPitch e q s
  | .rowdly e q => Sys2Proof.Machine.execRowdly e q s
  | .energy e q => Sys2Proof.Machine.execEnergy e q s
  | .waitpos e q => Sys2Proof.Machine.execWaitpos e q s
  | .waittime e q => Sys2Proof.Machine.execWaittime e q s
  | .waitev e q => Sys2Proof.Machine.execWaitev e q s
  | .waitax e q => Sys2Proof.Machine.execWaitax e q s
  | .waitComplete e q c => Sys2Proof.Machine.execWaitComplete e q c s
  | .waitTimeout e q c => Sys2Proof.Machine.execWaitTimeout e q c s
  | .signal e q => Sys2Proof.Machine.execSignal e q s
  | .mark e q => Sys2Proof.Machine.execMark e q s
  | .programCommit e q => Sys2Proof.Machine.execProgramCommit e q s
  | .yieldI e q => Sys2Proof.Machine.execYieldI e q s
  | .move e q => Sys2Proof.Machine.execMove e q s
  | .vel e q => Sys2Proof.Machine.execVel e q s
  | .acc e q => Sys2Proof.Machine.execAcc e q s
  | .stop e q => Sys2Proof.Machine.execStop e q s
  | .home e q => Sys2Proof.Machine.execHome e q s
  | .camtrig e q => Sys2Proof.Machine.execCamtrig e q s
  | .camset e q => Sys2Proof.Machine.execCamset e q s
  | .contextDispatch e q => Sys2Proof.Machine.execContextDispatch e q s
  | .contextSaveDone e q => Sys2Proof.Machine.execContextSaveDone e q s
  | .contextRestoreDone e q => Sys2Proof.Machine.execContextRestoreDone e q s
  | .seqSignal e w q sigs => Sys2Proof.Machine.execSeqSignal e w q sigs s
  | .seqGsignal e w mask sigs => Sys2Proof.Machine.execSeqGsignal e w mask sigs s
  | .seqEvbitsClear e w q mask => Sys2Proof.Machine.execSeqEvbitsClear e w q mask s
  | .encoderEdge e c a b => Sys2Proof.Machine.execEncoderEdge e c a b s
  | .phaseWindowEnd e c => Sys2Proof.Machine.execPhaseWindowEnd e c s
  | .encLos e c => Sys2Proof.Machine.execEncLos e c s
  | .encLosClear e c => Sys2Proof.Machine.execEncLosClear e c s
  | .still e c => Sys2Proof.Machine.execStill e c s
  | .ssiFrameStart e c => Sys2Proof.Machine.execSsiFrameStart e c s
  | .ssiTimeout e c => Sys2Proof.Machine.execSsiTimeout e c s
  | .ssiFrameDone e c value stopLow => Sys2Proof.Machine.execSsiFrameDone e c value stopLow s
  | .zEdge e c level => Sys2Proof.Machine.execZEdge e c level s
  | .encRebase e w c value clrq => Sys2Proof.Machine.execEncRebase e w c value clrq s
  | .encClrq e w c => Sys2Proof.Machine.execEncClrq e w c s
  | .lineEvent e q => Sys2Proof.Machine.execLineEvent e q s
  | .fireInstant e q => Sys2Proof.Machine.execFireInstant e q s
  | .rowTrigger e q p => Sys2Proof.Machine.execRowTrigger e q p s
  | .readPoint e q => Sys2Proof.Machine.execReadPoint e q s
  | .caravanDescriptor e p => Sys2Proof.Machine.execCaravanDescriptor e p s
  | .indexBlock e p => Sys2Proof.Machine.execIndexBlock e p s
  | .streamFetch e p => Sys2Proof.Machine.execStreamFetch e p s
  | .duneHeader e p => Sys2Proof.Machine.execDuneHeader e p s
  | .engineGrant e g => Sys2Proof.Machine.execEngineGrant e g s
  | .duneDecodeDone e p => Sys2Proof.Machine.execDuneDecodeDone e p s
  | .engineAbandon e p ecc => Sys2Proof.Machine.execEngineAbandon e p ecc s
  | .streamEn e w p en haltErr => Sys2Proof.Machine.execStreamEn e w p en haltErr s
  | .ringFlush e w p newBase clr => Sys2Proof.Machine.execRingFlush e w p newBase clr s
  | .ldpClrcnt e w p => Sys2Proof.Machine.execLdpClrcnt e w p s
  | .telemetryFrame e p rx => Sys2Proof.Machine.execTelemetryFrame e p rx s
  | .teltoExpiry e p => Sys2Proof.Machine.execTeltoExpiry e p s
  | .ackFrame e p rx => Sys2Proof.Machine.execAckFrame e p rx s
  | .ackTimeout e p => Sys2Proof.Machine.execAckTimeout e p s
  | .pushStart e p => Sys2Proof.Machine.execPushStart e p s
  | .bandLoadDone e p => Sys2Proof.Machine.execBandLoadDone e p s
  | .pushRetry e p => Sys2Proof.Machine.execPushRetry e p s
  | .tableFrameSend e p => Sys2Proof.Machine.execTableFrameSend e p s
  | .controlFrameSend e p => Sys2Proof.Machine.execControlFrameSend e p s
  | .responseFrame e p rx => Sys2Proof.Machine.execResponseFrame e p rx s
  | .responseTimeout e p => Sys2Proof.Machine.execResponseTimeout e p s
  | .upstreamVoid e p rx => Sys2Proof.Machine.execUpstreamVoid e p rx s
  | .missWindowEnd e p => Sys2Proof.Machine.execMissWindowEnd e p s
  | .hvctlOn e w mask => Sys2Proof.Machine.execHvctlOn e w mask s
  | .hvctlOff e w mask => Sys2Proof.Machine.execHvctlOff e w mask s
  | .hvsettleExpiry e g => Sys2Proof.Machine.execHvsettleExpiry e g s
  | .firClrcnt e w p => Sys2Proof.Machine.execFirClrcnt e w p s
  | .safeNAssert e => Sys2Proof.Machine.execSafeNAssert e s
  | .safeNRelease e => Sys2Proof.Machine.execSafeNRelease e s
  | .portUp e w p => Sys2Proof.Machine.execPortUp e w p s
  | .portDown e w p => Sys2Proof.Machine.execPortDown e w p s
  | .portCal e w p => Sys2Proof.Machine.execPortCal e w p s
  | .klClrcnt e w p => Sys2Proof.Machine.execKlClrcnt e w p s
  | .laneCalDone e p => Sys2Proof.Machine.execLaneCalDone e p s
  | .wakeDone e p => Sys2Proof.Machine.execWakeDone e p s
  | .wakeTimeout e p => Sys2Proof.Machine.execWakeTimeout e p s
  | .identTimeout e p => Sys2Proof.Machine.execIdentTimeout e p s
  | .configDone e p => Sys2Proof.Machine.execConfigDone e p s
  | .linkLost e p => Sys2Proof.Machine.execLinkLost e p s
  | .portAutoRetry e p => Sys2Proof.Machine.execPortAutoRetry e p s
  | .prbsStart e w p pat inv => Sys2Proof.Machine.execPrbsStart e w p pat inv s
  | .prbsStop e w p => Sys2Proof.Machine.execPrbsStop e w p s
  | .prbsRunEnd e p upFlips downFlips => Sys2Proof.Machine.execPrbsRunEnd e p upFlips downFlips s
  | .eyeSweep e p width height => Sys2Proof.Machine.execEyeSweep e p width height s
  | .hregAccess e w p addr write len => Sys2Proof.Machine.execHregAccess e w p addr write len s
  | .headFireSymbol e p noise => Sys2Proof.Machine.execHeadFireSymbol e p noise s
  | .headLineFrame e p noise => Sys2Proof.Machine.execHeadLineFrame e p noise s
  | .headTableFrame e p noise => Sys2Proof.Machine.execHeadTableFrame e p noise s
  | .headSync e p noise => Sys2Proof.Machine.execHeadSync e p noise s
  | .headDrop e p noise => Sys2Proof.Machine.execHeadDrop e p noise s
  | .headControlFrame e p noise busy => Sys2Proof.Machine.execHeadControlFrame e p noise busy s
  | .headTelemetrySend e p temps vsup vlog win sense fault => Sys2Proof.Machine.execHeadTelemetrySend e p temps vsup vlog win sense fault s
  | .camLine e c cycles => Sys2Proof.Machine.execCamLine e c cycles s
  | .frameStart e c => Sys2Proof.Machine.execFrameStart e c s
  | .frameEnd e c => Sys2Proof.Machine.execFrameEnd e c s
  | .lineSlot e u => Sys2Proof.Machine.execLineSlot e u s
  | .frameComplete e c => Sys2Proof.Machine.execFrameComplete e c s
  | .camNoclk e c => Sys2Proof.Machine.execCamNoclk e c s
  | .camClockReturn e c => Sys2Proof.Machine.execCamClockReturn e c s
  | .camTrig e w c => Sys2Proof.Machine.execCamTrig e w c s
  | .positionTrigger e c => Sys2Proof.Machine.execPositionTrigger e c s
  | .trigPulse e c => Sys2Proof.Machine.execTrigPulse e c s
  | .trigTimeout e c => Sys2Proof.Machine.execTrigTimeout e c s
  | .camSetreq e w c record => Sys2Proof.Machine.execCamSetreq e w c record s
  | .settingsWindow e c => Sys2Proof.Machine.execSettingsWindow e c s
  | .settingsWriteDone e c failed => Sys2Proof.Machine.execSettingsWriteDone e c failed s
  | .camPop e w c => Sys2Proof.Machine.execCamPop e w c s
  | .camClrcnt e w c => Sys2Proof.Machine.execCamClrcnt e w c s
  | .i2cCommand e w c addr read nbytes data => Sys2Proof.Machine.execI2cCommand e w c addr read nbytes data s
  | .i2cDone e c res => Sys2Proof.Machine.execI2cDone e c res s
  | .ptrigSkipWindow e c => Sys2Proof.Machine.execPtrigSkipWindow e c s
  | .visionResult e => Sys2Proof.Machine.execVisionResult e s
  | .healthApply e => Sys2Proof.Machine.execHealthApply e s
  | .senseApply e p => Sys2Proof.Machine.execSenseApply e p s
  | .testApply e => Sys2Proof.Machine.execTestApply e s
  | .nzctlOut e w p j => Sys2Proof.Machine.execNzctlOut e w p j s
  | .nzctlRelease e w p j => Sys2Proof.Machine.execNzctlRelease e w p j s
  | .testArm e w cam q stride phase bg th => Sys2Proof.Machine.execTestArm e w cam q stride phase bg th s
  | .testDisarm e w => Sys2Proof.Machine.execTestDisarm e w s
  | .alignArm e w cam q nmark bg minMass => Sys2Proof.Machine.execAlignArm e w cam q nmark bg minMass s
  | .alignDisarm e w => Sys2Proof.Machine.execAlignDisarm e w s
  | .motCmdMove e w a value => Sys2Proof.Machine.execMotCmdMove e w a value s
  | .motCmdMoveA e w a value => Sys2Proof.Machine.execMotCmdMoveA e w a value s
  | .motCmdVel e w a value => Sys2Proof.Machine.execMotCmdVel e w a value s
  | .motCmdAcc e w a value => Sys2Proof.Machine.execMotCmdAcc e w a value s
  | .motCmdStop e w a => Sys2Proof.Machine.execMotCmdStop e w a s
  | .motCmdHome e w a sel => Sys2Proof.Machine.execMotCmdHome e w a sel s
  | .axisEn e w a => Sys2Proof.Machine.execAxisEn e w a s
  | .axisDis e w a => Sys2Proof.Machine.execAxisDis e w a s
  | .axisRelease e w a => Sys2Proof.Machine.execAxisRelease e w a s
  | .decelStart e a => Sys2Proof.Machine.execDecelStart e a s
  | .microstepSwitch e a => Sys2Proof.Machine.execMicrostepSwitch e a s
  | .moveEnd e a => Sys2Proof.Machine.execMoveEnd e a s
  | .homeIndex e a => Sys2Proof.Machine.execHomeIndex e a s
  | .homeFail e a => Sys2Proof.Machine.execHomeFail e a s
  | .sessionOpen e m => Sys2Proof.Machine.execSessionOpen e m s
  | .sessionConfirm e m => Sys2Proof.Machine.execSessionConfirm e m s
  | .sessionClose e m => Sys2Proof.Machine.execSessionClose e m s
  | .heartbeat e m => Sys2Proof.Machine.execHeartbeat e m s
  | .revokeSession e m => Sys2Proof.Machine.execRevokeSession e m s
  | .revokeUnit e m => Sys2Proof.Machine.execRevokeUnit e m s
  | .keyInstall e m => Sys2Proof.Machine.execKeyInstall e m s
  | .keyErase e m => Sys2Proof.Machine.execKeyErase e m s
  | .netSet e m => Sys2Proof.Machine.execNetSet e m s
  | .claim e m => Sys2Proof.Machine.execClaim e m s
  | .release e m => Sys2Proof.Machine.execRelease e m s
  | .memAlloc e m => Sys2Proof.Machine.execMemAlloc e m s
  | .memFree e m => Sys2Proof.Machine.execMemFree e m s
  | .ptSet e m => Sys2Proof.Machine.execPtSet e m s
  | .tlbInval e m => Sys2Proof.Machine.execTlbInval e m s
  | .faultResume e m => Sys2Proof.Machine.execFaultResume e m s
  | .memWrite e m => Sys2Proof.Machine.execMemWrite e m s
  | .memRead e m => Sys2Proof.Machine.execMemRead e m s
  | .ctxLoad e m => Sys2Proof.Machine.execCtxLoad e m s
  | .ctxArm e m => Sys2Proof.Machine.execCtxArm e m s
  | .ctxStart e m => Sys2Proof.Machine.execCtxStart e m s
  | .ctxStop e m => Sys2Proof.Machine.execCtxStop e m s
  | .commit e m => Sys2Proof.Machine.execCommit e m s
  | .stageDiscard e m => Sys2Proof.Machine.execStageDiscard e m s
  | .snapshot e m => Sys2Proof.Machine.execSnapshot e m s
  | .calRestore e m => Sys2Proof.Machine.execCalRestore e m s
  | .calLane e m => Sys2Proof.Machine.execCalLane e m s
  | .calAlign e m => Sys2Proof.Machine.execCalAlign e m s
  | .calDark e m => Sys2Proof.Machine.execCalDark e m s
  | .calFlat e m => Sys2Proof.Machine.execCalFlat e m s
  | .calTemptrim e m => Sys2Proof.Machine.execCalTemptrim e m s
  | .calDramrt e m => Sys2Proof.Machine.execCalDramrt e m s
  | .calAbort e m => Sys2Proof.Machine.execCalAbort e m s
  | .calDone e r lanes => Sys2Proof.Machine.execCalDone e r lanes s
  | .calTimeout e r => Sys2Proof.Machine.execCalTimeout e r s
  | .repairRow e m => Sys2Proof.Machine.execRepairRow e m s
  | .repairRetest e m => Sys2Proof.Machine.execRepairRetest e m s
  | .nvWrite e m => Sys2Proof.Machine.execNvWrite e m s
  | .nvRead e m => Sys2Proof.Machine.execNvRead e m s
  | .fwStage e m => Sys2Proof.Machine.execFwStage e m s
  | .fwSwitch e m => Sys2Proof.Machine.execFwSwitch e m s
  | .fwProbationEnd e passed => Sys2Proof.Machine.execFwProbationEnd e passed s
  | .regRead e m => Sys2Proof.Machine.execRegRead e m s
  | .regWrite e m => Sys2Proof.Machine.execRegWrite e m s
  | .authWrite e m => Sys2Proof.Machine.execAuthWrite e m s
  | .registerWrite e f addr data => Sys2Proof.Machine.execRegisterWrite e f addr data s
  | .windowAccess e f offset write data => Sys2Proof.Machine.execWindowAccess e f offset write data s
  | .cmdOverrun e n => Sys2Proof.Machine.execCmdOverrun e n s
  | .evrdWrite e n index => Sys2Proof.Machine.execEvrdWrite e n index s
  | .evack e m index => Sys2Proof.Machine.execEvack e m index s
  | .eventsSend e n => Sys2Proof.Machine.execEventsSend e n s
  | .eventsResend e n => Sys2Proof.Machine.execEventsResend e n s
  | .datagramDiscard e datagram => Sys2Proof.Machine.execDatagramDiscard e datagram s
  | .caravanStart e w p va => Sys2Proof.Machine.execCaravanStart e w p va s
  | .caravanKick e w p => Sys2Proof.Machine.execCaravanKick e w p s
  | .caravanCancel e w p => Sys2Proof.Machine.execCaravanCancel e w p s
  | .tableWalkDone e host => Sys2Proof.Machine.execTableWalkDone e host s
  | .leaseLapse e n => Sys2Proof.Machine.execLeaseLapse e n s
  | .kennelCutoff e n => Sys2Proof.Machine.execKennelCutoff e n s
  | .kennelRelease e n => Sys2Proof.Machine.execKennelRelease e n s
  | .confirmTimeout e n => Sys2Proof.Machine.execConfirmTimeout e n s
  | .commitValidate e n => Sys2Proof.Machine.execCommitValidate e n s
  | .catchupDone e u => Sys2Proof.Machine.execCatchupDone e u s
  | .commitPoint e n => Sys2Proof.Machine.execCommitPoint e n s
  | .commitTimeout e n => Sys2Proof.Machine.execCommitTimeout e n s
  | .snapshotPeriodic e n => Sys2Proof.Machine.execSnapshotPeriodic e n s
  | .dramRefresh e ch busy => Sys2Proof.Machine.execDramRefresh e ch busy s
  | .dramTempPoll e ch hot => Sys2Proof.Machine.execDramTempPoll e ch hot s
  | .dramPowerdown e ch rank => Sys2Proof.Machine.execDramPowerdown e ch rank s
  | .patrolScrub e burst corrected ue => Sys2Proof.Machine.execPatrolScrub e burst corrected ue s
  | .zeroFill e page => Sys2Proof.Machine.execZeroFill e page s
  | .eccWriteback e word => Sys2Proof.Machine.execEccWriteback e word s
  | .tableHeal e word => Sys2Proof.Machine.execTableHeal e word s
  | .sheepdogWindow e => Sys2Proof.Machine.execSheepdogWindow e s
  | .sheepdogWindowEnd e fail => Sys2Proof.Machine.execSheepdogWindowEnd e fail s
  | .dictTest e g => Sys2Proof.Machine.execDictTest e g s
  | .dictTestDone e g pass => Sys2Proof.Machine.execDictTestDone e g pass s
  | .flipArm e w ctl => Sys2Proof.Machine.execFlipArm e w ctl s
  | .eccWindowEnd e sram k => Sys2Proof.Machine.execEccWindowEnd e sram k s
  | .ptpSync e port domain ident portNo logInt origin ingress correction => Sys2Proof.Machine.execPtpSync e port domain ident portNo logInt origin ingress correction s
  | .ptpAnnounce e port domain ident portNo prio steps logInt utcOff ptpTs => Sys2Proof.Machine.execPtpAnnounce e port domain ident portNo prio steps logInt utcOff ptpTs s
  | .ptpDelayResp e port domain seqId t1 t2 t3 t4 => Sys2Proof.Machine.execPtpDelayResp e port domain seqId t1 t2 t3 t4 s
  | .ptpPdelayReq e port domain seqId ingress => Sys2Proof.Machine.execPtpPdelayReq e port domain seqId ingress s
  | .ptpDelayReqSend e => Sys2Proof.Machine.execPtpDelayReqSend e s
  | .ptpDiscard e => Sys2Proof.Machine.execPtpDiscard e s
  | .syncTimeout e => Sys2Proof.Machine.execSyncTimeout e s
  | .announceTimeout e => Sys2Proof.Machine.execAnnounceTimeout e s
  | .ptpLinkLoss e => Sys2Proof.Machine.execPtpLinkLoss e s
  | .timeSet e w ns => Sys2Proof.Machine.execTimeSet e w ns s
  | .nowsecRead e => Sys2Proof.Machine.execNowsecRead e s
  | .feedMonitorSample e f mv cur => Sys2Proof.Machine.execFeedMonitorSample e f mv cur s
  | .feedTrip e f => Sys2Proof.Machine.execFeedTrip e f s
  | .gapRelease e => Sys2Proof.Machine.execGapRelease e s
  | .feedFail e f => Sys2Proof.Machine.execFeedFail e f s
  | .feedSync e f => Sys2Proof.Machine.execFeedSync e f s
  | .shareImbal e r => Sys2Proof.Machine.execShareImbal e r s
  | .loadTransferTest e r => Sys2Proof.Machine.execLoadTransferTest e r s
  | .loadTransferEnd e r pass => Sys2Proof.Machine.execLoadTransferEnd e r pass s
  | .feedReshare e w r => Sys2Proof.Machine.execFeedReshare e w r s
  | .vsafeTest e w stay => Sys2Proof.Machine.execVsafeTest e w stay s
  | .vsafeTestEnd e res => Sys2Proof.Machine.execVsafeTestEnd e res s
  | .pwsClrcnt e w => Sys2Proof.Machine.execPwsClrcnt e w s
  | .vsafeLost e => Sys2Proof.Machine.execVsafeLost e s
  | .vsafeRestore e => Sys2Proof.Machine.execVsafeRestore e s
  | .refclkLost e => Sys2Proof.Machine.execRefclkLost e s
  | .refclkRestore e => Sys2Proof.Machine.execRefclkRestore e s
  | .dieSensorSample e readings => Sys2Proof.Machine.execDieSensorSample e readings s
  | .boardSensorSample e td0 td1 v0 v1 => Sys2Proof.Machine.execBoardSensorSample e td0 td1 v0 v1 s
  | .thermtrip e => Sys2Proof.Machine.execThermtrip e s
  | .coldStart e bifPins chCap ranks mts lanes vsafeA bankOk ver badRows => Sys2Proof.Machine.execColdStart e bifPins chCap ranks mts lanes vsafeA bankOk ver badRows s
  | .warmReset e bankOk badRows => Sys2Proof.Machine.execWarmReset e bankOk badRows s
  | .deviceReady e => Sys2Proof.Machine.execDeviceReady e s
  | .perst e f => Sys2Proof.Machine.execPerst e f s
  | .mgmtLost e => Sys2Proof.Machine.execMgmtLost e s
  | .mgmtResume e => Sys2Proof.Machine.execMgmtResume e s
  | .evqGap e n => Sys2Proof.Machine.execEvqGap e n s
  | .msixUnmask e f v => Sys2Proof.Machine.execMsixUnmask e f v s
  | .ssiDataReady e c => Sys2Proof.Machine.execSsiDataReady e c s
  | .cruise e a => Sys2Proof.Machine.execCruise e a s
  | .prbsRunStart e p => Sys2Proof.Machine.execPrbsRunStart e p s
  | .headSymbolAlignment e p offset => Sys2Proof.Machine.execHeadSymbolAlignment e p offset s
  | .headPowerUp e p hid0 hid1 hcap rowmap => Sys2Proof.Machine.execHeadPowerUp e p hid0 hid1 hcap rowmap s
  | .netAddressChange e port => Sys2Proof.Machine.execNetAddressChange e port s
  | .porstNLow e => Sys2Proof.Machine.execPorstNLow e s
  | .dmaReadCompletion e p res => Sys2Proof.Machine.execDmaReadCompletion e p res s

end Sys2Proof.Machine
end

