-- ==== Sys2Proof/Safety.lean ====
section
/-! DEFINITION. What a claim counts as a sound state and a completed command. -/
namespace Sys2Proof.Machine
open Sys2Proof

/-- Device DRAM, every host's memory and the non-volatile store are in their canonical form: addresses strictly rising, no
listed byte 0. -/
def State.MemOk (s : State) : Prop :=
  Memory.wf s.dram = true ∧ (∀ f : Fin 4, Memory.wf (vget s.hostMem f) = true) ∧ Memory.wf s.nv.mram = true

/-- Nothing is on its way in s, and every posted record is stored. -/
def State.Calm (s : State) : Prop := s.agenda = [] ∧ ∀ n : Fin 256, (s.ses n).evq.fresh = 0

/-- Command c completes on s: exec answers a next state. -/
def Completes (c : Instr) (s : State) : Prop := ∃ t, exec c s = .next t

/-- What a run must never do: stop. A run is safe as long as every step answers a next state. -/
def SafeStep (s : State) : Prop := ∃ t, step s = .next t

/-- Context c runs on sequencer q with the word i at its PC, and the n ticks of that word have passed since the
instruction before it (03 R61, R535). -/
abbrev State.Ends (u : State) (q c : Nat) (i : Ram) (n : Nat) : Prop :=
  u.fetch q = .word c i ∧ (vget u.seq q).freeAt + (n - 1) * qTick ≤ u.now

/-- The state in which the instruction at context c of q has its effect: its word has been read from the program store. -/
def State.fetched (u : State) (q c : Nat) : State :=
  u.sramRead (Config.storeIndex (pKey q c (u.ctxOf q c).pc) false) 1

/-- Context c of q leaves its instruction as y, and the next instruction begins in the tick that follows; nothing else
changes. -/
def State.ran (u : State) (q c : Nat) (y : Ctx) : State :=
  (u.modCtx q c (fun _ => y)).modSeq q (fun z => { z with freeAt := u.now + qTick })

/-- o is the answer of an instruction of n ticks by which context c of q, with the state x, enters a wait of kind k with
timeout dl: completed at once, timed out at once, or WAITING with its deadline (03 R83). -/
def State.Enters (f : State) (q : Fin 16) (c n : Nat) (x : Ctx) (dl : Nat) (k : WaitKind)
    (o : Host.Outcome State Fault Refusal) : Prop :=
  (f.waitHolds q c k = true → o = .next ((f.waitClears q k).ran q c { x with t := false, pc := x.pc + 1 })) ∧
  (f.waitHolds q c k = false → dl = 1 ∨ dl = 2 → o = .next (f.ran q c { x with t := true, pc := x.pc + 1 })) ∧
  (f.waitHolds q c k = false → dl ≠ 1 → dl ≠ 2 → o = .next (f.modCtx q c (fun _ => { x with
    st := .waiting,
    wait := some { kind := k, deadline := if dl = 0 then none else some (f.now - (n - 1) * 4 + dl * 4) } })))

/-- o is the answer of an instruction by which context c of q, with the state x, gives axis a the command m: BINDING without
the axis's claim, else T says whether the motion block refused it (03 R91). -/
def State.Commands (f : State) (q : Fin 16) (c : Nat) (x : Ctx) (a : Nat) (m : MotOp)
    (o : Host.Outcome State Fault Refusal) : Prop :=
  (f.holds x.session (uAx a) = false → o = .next (f.ctxFault q c 0x0308 x.pc)) ∧
  (f.holds x.session (uAx a) = true → ∀ g : State × Nat,
    g = ((f.modCtx q c (fun y => { y with axes := addOnce a y.axes })).modSeq q
      (fun y => { y with moved := addOnce a y.moved })).motion a x.session m (some q.val) →
    o = .next ((g.1.modCtx q c (fun y => { y with t := g.2 != 0 })).retire q c (x.pc + 1)))

/-- o is the answer of a motion command m that session n, which holds axis a, writes (10 R314, R324): accepted it takes
effect at the next STEPCLK edge, and refused it reports its code. -/
def State.HostCommands (u : State) (n : Nat) (a : Fin 8) (m : MotOp) (o : Host.Outcome State Fault Refusal) : Prop :=
  ((u.axAhead a).motRefusal a (u.ses n).cls m = 0 →
    o = .next ((u.after (u.stepEdge 0) (.motion a m)).modAx a
      (fun x => { x with cmdBusy := false, cmdDone := true, cmdErr := 0 }))) ∧
  ∀ k : Nat, k = (u.axAhead a).motRefusal a (u.ses n).cls m → k ≠ 0 →
    o = .next (((u.modAx a (fun x => { x with err := k })).postErr n k a).modAx a
      (fun x => { x with cmdBusy := false, cmdDone := true, cmdErr := k }))

/-- A sparse map of n values of w bits each: keys rising, and no listed value 0. -/
def MapFits (w n : Nat) (m : SMap Nat) : Prop :=
  m.Pairwise (fun a b => a.1 < b.1) ∧ ∀ x ∈ m, x.1 < n ∧ 0 < x.2 ∧ x.2 < 2 ^ w

/-- Every field of an upstream frame has a value that its layout holds (07 R229-R231). -/
def UpFits : UpFrame → Prop
  | .telem t => t.tseq < 65536 ∧ t.dseq < 65536 ∧ t.liveBank < 2 ∧ t.temps.length = 8 ∧
      (∀ x : Int, some x ∈ t.temps → -32768 ≤ x ∧ x < 32768) ∧ t.vsup < 65536 ∧ t.vlog < 65536 ∧ t.missCnt < 65536 ∧
      t.missTag < 256 ∧ t.senseWin < 8 ∧ t.derr < 65536 ∧ MapFits 2 1024 t.sense
  | .ack a => a.index < 256 ∧ a.bank < 256 ∧ a.status < 256 ∧ a.seq < 65536
  | .resp r => r.id < 256 ∧ r.status < 256 ∧ r.addr < 2 ^ 24

/-- Every field of a downstream frame has a value that its layout holds (07 R215, R216, R218); a fire symbol is no frame. -/
def DownFits : DownItem → Prop
  | .fire _ _ => False
  | .line f => f.line < 2 ^ 32 ∧ f.energy < 65536 ∧ f.seq < 65536 ∧ MapFits 3 8192 f.codes
  | .table f => f.bank < 2 ∧ f.index < 256 ∧ f.band < 8 ∧ f.seq < 65536 ∧ f.reserved < 128 ∧ MapFits 16 1024 f.points
  | .ctl f => f.id < 256 ∧ f.seq < 65536 ∧ f.addr < 2 ^ 24 ∧ f.len < 256 ∧
      f.data.length = (match f.op with | .hwrite | .sync => 4 * f.len | .hread | .drop => 0)

/-- The Ramest commands of sequencer q, with the opcode of each and whether a swath-safe context may execute it
(03 R71, R535). -/
def ramestRows (e : Env) (q : Fin 16) : List (Instr × Nat × Bool) :=
  [(.nop e q, 0x00, true), (.halt e q, 0x01, true), (.jmp e q, 0x02, true), (.brc e q, 0x03, true), (.call e q, 0x04, true),
   (.ret e q, 0x05, true), (.loop e q, 0x06, true), (.fence e q, 0x07, true), (.ldi e q, 0x10, true), (.add e q, 0x11, true),
   (.sub e q, 0x12, true), (.andI e q, 0x13, true), (.orI e q, 0x14, true), (.cmp e q, 0x15, true), (.mov e q, 0x16, true),
   (.ldst e q, 0x17, true), (.ldt e q, 0x18, true), (.ldpos e q, 0x19, true), (.swath e q, 0x20, false),
   (.lines e q, 0x21, false), (.blank e q, 0x22, false)] ++
  [(.endswath e q, 0x23, false), (.spit e q, 0x24, false), (.pitch e q, 0x25, false), (.rowdly e q, 0x26, false),
   (.energy e q, 0x27, false), (.waitpos e q, 0x30, true), (.waittime e q, 0x31, true), (.waitev e q, 0x32, true),
   (.signal e q, 0x33, true), (.mark e q, 0x34, true), (.programCommit e q, 0x38, true), (.yieldI e q, 0x39, true),
   (.move e q, 0x40, false), (.vel e q, 0x41, false), (.acc e q, 0x42, false), (.stop e q, 0x43, false),
   (.home e q, 0x44, false), (.waitax e q, 0x45, true), (.camtrig e q, 0x50, true), (.camset e q, 0x51, true)]

/-- A request that comes along p reaches session x: on the session's own page, which is not BUSY, or from the address that
the session is bound to (11 R332, R335). -/
def pathMeets (p : Path) (x : Sess) : Bool :=
  match p with
  | .pcie f o => !o && !x.net && x.fn == f.val && !x.busy
  | .net _ a udp => x.net && x.peer == a && x.peerPort == udp

/-- Request m reaches the open session n: the device is READY, no management-plane interruption holds requests, and the
request comes along the session's path (11 R332, R335, R347). -/
abbrev State.Reaches (u : State) (m : Msg) (n : Fin 256) : Prop :=
  u.phase = .ready ∧ u.safe.mgmtDown = none ∧ m.session = n.val ∧ ((u.ses n).st = .opening ∨ (u.ses n).st = .confirmed) ∧
    pathMeets m.path (u.ses n) = true

/-- Request m of command `op` reaches session n, whose state has no uncorrectable word, and passes every check of 11 R340;
v is the state that the command acts on: after the checks and the cores' own writes (13 R405). `sub` is the KIND, OP or PROC
that the row stands for. -/
def State.Passes (u : State) (op sub : Nat) (m : Msg) (n : Fin 256) (v : State) : Prop :=
  u.Reaches m n ∧ u.mem.sessBad.contains n.val = false ∧
    ∃ w : State, u.checkMsg n op m (m.bodyOk op sub) = (w, .pass) ∧ v = w.mgmtWrites n

/-- t is u after the k records of session n's queue from the j-th held have been sent in a datagram (11 R336). -/
def State.Sent (u : State) (n : Fin 256) (j k : Nat) (t : State) : Prop :=
  let q := (u.ses n).evq
  let l := (q.held.drop j).take k
  t.out = u.out ++ [.events n ((q.rd + j) % 4096) l (eventsMsg (u.ses n) n ((q.rd + j) % 4096) l)] ∧
    (t.ses n).evq.sent = max q.sent (j + k) ∧ (t.ses n).evq.sentAt = u.now ∧ (t.ses n).evq.held = q.held ∧
    (t.ses n).evq.rd = q.rd ∧ (∀ i : Fin 256, i ≠ n → t.ses i = u.ses i) ∧ t.mgt = u.mgt ∧ t.dram = u.dram

/-- The message commands but SESSION_OPEN, with the opcode of each and the KIND, OP or PROC of its row (18 R513). -/
def msgRows (e : Env) (m : Msg) : List (Instr × Nat × Nat) :=
  [(.sessionConfirm e m, 0x0002, 0), (.sessionClose e m, 0x0003, 0), (.heartbeat e m, 0x0004, 0),
   (.revokeSession e m, 0x0005, 0), (.revokeUnit e m, 0x0005, 1), (.keyInstall e m, 0x0006, 0), (.keyErase e m, 0x0007, 0),
   (.netSet e m, 0x0008, 0), (.claim e m, 0x0100, 0), (.release e m, 0x0101, 0), (.memAlloc e m, 0x0200, 0),
   (.memFree e m, 0x0201, 0), (.ptSet e m, 0x0202, 0), (.tlbInval e m, 0x0203, 0), (.faultResume e m, 0x0204, 0)] ++
  [(.memWrite e m, 0x0205, 0), (.memRead e m, 0x0206, 0), (.ctxLoad e m, 0x0300, 0), (.ctxArm e m, 0x0301, 0),
   (.ctxStart e m, 0x0302, 0), (.ctxStop e m, 0x0303, 0), (.commit e m, 0x0400, 0), (.stageDiscard e m, 0x0401, 0),
   (.snapshot e m, 0x0402, 0), (.calRestore e m, 0x0403, 0), (.calLane e m, 0x0403, 1), (.calAlign e m, 0x0403, 2),
   (.calDark e m, 0x0403, 3), (.calFlat e m, 0x0403, 4)] ++
  [(.calTemptrim e m, 0x0403, 5), (.calDramrt e m, 0x0403, 6), (.calAbort e m, 0x0403, 0xFF), (.repairRow e m, 0x0404, 1),
   (.repairRetest e m, 0x0404, 2), (.nvWrite e m, 0x0500, 0), (.nvRead e m, 0x0501, 0), (.fwStage e m, 0x0502, 0),
   (.fwSwitch e m, 0x0503, 0), (.regRead e m, 0x0600, 0), (.regWrite e m, 0x0601, 0), (.authWrite e m, 0x0602, 0)]

end Sys2Proof.Machine
end

