-- ==== Sys2Proof/Certificates/Slice0/Obligations.lean ====
section
/-! DEFINITION. The statements for the provers. In each, u is the state at the command's instant (the state s with the
command's environment arrived), v the state after a request has passed its checks, and w or t the state that a step answers. -/
open Sys2Proof Sys2Proof.Machine

/-- One step with command c at the front of the queue is exec of c on the state with the rest of the queue. No command
stops the block: every step answers a next state. -/
def Obligations.StepRunsTheFrontCommand : Prop :=
  (∀ (s : State) (c : Instr) (rest : List Instr), s.pending = c :: rest → step s = exec c { s with pending := rest }) ∧
  (∀ s : State, SafeStep s)

/-- On an empty queue one LCLK tick of four quanta passes, and the queue stays empty; where nothing is on its way, no
record waits to be stored and no firmware switch waits, contexts, sequencers, streams, rings, encoders, links,
sessions, generations, causes and memories are as they were. The idle tick is the model's choice (assumption 1). -/
def Obligations.EmptyQueueLetsOneTickPass : Prop :=
  (∀ s : State, s.pending = [] → ∃ t, step s = .next t ∧ t.pending = []) ∧
  (∀ s : State, s.pending = [] → s.Calm → s.pws.fwWait = none → ∃ t, step s = .next t ∧ t.now = s.now + 4 ∧ t.out = [] ∧
    t.ctx = s.ctx ∧ t.seq = s.seq ∧ t.str = s.str ∧ t.ring = s.ring ∧ t.enc = s.enc ∧ t.place = s.place ∧ t.fp = s.fp ∧
    t.fire = s.fire ∧ t.kl = s.kl ∧ t.head = s.head ∧ t.cam = s.cam ∧ t.hlt = s.hlt ∧ t.sess = s.sess ∧ t.mgt = s.mgt ∧
    t.safe = s.safe ∧ t.mem = s.mem ∧ t.xlt = s.xlt ∧ t.keys = s.keys ∧ t.nv = s.nv ∧ t.pws = s.pws ∧ t.cal = s.cal ∧
    t.msix = s.msix ∧ t.net = s.net ∧ t.phase = s.phase ∧
    (∀ a, memByte t.dram a = memByte s.dram a) ∧ ∀ (f : Fin 4) (a : Nat), memByte (vget t.hostMem f) a = memByte (vget s.hostMem f) a)

/-- At reset the memories are in their canonical form. -/
def Obligations.ResetMemoryCanonical : Prop :=  State.reset.MemOk

/-- Every step keeps the canonical form of device DRAM, of the hosts' memories and of the non-volatile store. -/
def Obligations.MemoryFormKeptByEveryStep : Prop :=  ∀ s t : State, s.MemOk → step s = .next t → t.MemOk

/-- Every step takes exactly the command at the front of the queue away, and puts none in. -/
def Obligations.StepTakesOneCommand : Prop :=  ∀ s t : State, step s = .next t → t.pending = s.pending.tail

/-- What reset leaves, as the spec states it: every register at the reset value of the register index (18 R510), every
context FREE and no swath open (02 R29, R27), every HVEN bit 0 (06 R201), every encoder STILL with count 0 (05 R170),
every port DOWN (07 R240), every axis DISABLED (10 R327), every session FREE (11 R360), generation 1 (12 R361), and no
claim held. -/
def Obligations.ResetState : Prop :=
  (∀ a : Nat, State.reset.reg a = resetWord a) ∧
  (∀ (q : Fin 16) (c : Fin 64), (State.reset.ctxOf q c).st = .free) ∧
  (∀ q : Fin 16, (vget State.reset.seq q).swst = .closed ∧ (vget State.reset.seq q).evbits = 0) ∧
  (∀ g : Fin 8, vget State.reset.fire.hven g = false) ∧
  (∀ c : Fin 4, (vget State.reset.enc c).st = .still ∧ (vget State.reset.enc c).count = 0) ∧
  (∀ p : Fin 64, (vget State.reset.kl p).st = .down ∧ (vget State.reset.str p).en = false) ∧
  (∀ a : Fin 8, (vget State.reset.ax a).st = .disabled) ∧
  (∀ n : Fin 256, (vget State.reset.sess n).st = .free) ∧
  (∀ u : Fin 101, State.reset.holder u = none ∧ vget State.reset.mgt.unitGen u = 1) ∧
  State.reset.mgt.gen = 1 ∧ State.reset.pending = []

/-- The arithmetic and move instructions write their result to gA (a write to g0 is discarded) and set Z, N and C as
03 R66 says; PC names the next word; every other register, flag and context, and everything else, is unchanged. -/
def Obligations.ArithmeticResultsAndFlags : Prop :=
  ∀ (e : Env) (s u f : State) (q : Fin 16) (c : Nat) (i : Ram) (x : Ctx) (a b : Word),
    u = s.arrive e → f = u.fetched q c → x = u.ctxOf q c → a = x.rd i.a → b = x.src i → u.Ends q c i 1 →
    (i.op = 0x10 → i.only 1 true false (if i.flag 0 then 2 ^ 20 - 1 else imm44) = true →
      exec (.ldi e q) s = .next (f.ran q c
        { x.wr i.a (if i.flag 0 then setBits a 63 44 i.imm else wdI (signedN 44 i.imm)) with pc := x.pc + 1 })) ∧
    (i.op = 0x11 → i.arith = true →
      exec (.add e q) s = .next (f.ran q c
        { x.wr i.a (a + b) with
          z := decide (a + b = 0), n := (a + b).msb, c := decide (2 ^ 64 ≤ a.toNat + b.toNat), pc := x.pc + 1 })) ∧
    (i.op = 0x12 → i.arith = true →
      exec (.sub e q) s = .next (f.ran q c
        { x.wr i.a (a - b) with
          z := decide (a = b), n := decide (a.toInt < b.toInt), c := decide (a.toNat < b.toNat), pc := x.pc + 1 })) ∧
    (i.op = 0x13 → i.arith = true →
      exec (.andI e q) s = .next (f.ran q c
        { x.wr i.a (a &&& b) with z := decide (a &&& b = 0), n := (a &&& b).msb, pc := x.pc + 1 })) ∧
    (i.op = 0x14 → i.arith = true →
      exec (.orI e q) s = .next (f.ran q c
        { x.wr i.a (a ||| b) with z := decide (a ||| b = 0), n := (a ||| b).msb, pc := x.pc + 1 })) ∧
    (i.op = 0x15 → i.arith = true →
      exec (.cmp e q) s = .next (f.ran q c
        { x with
          z := decide (a = b), n := decide (a.toInt < b.toInt), c := decide (a.toNat < b.toNat), pc := x.pc + 1 })) ∧
    (i.op = 0x16 → i.only 1 true true 0 = true → i.flag 0 = false →
      exec (.mov e q) s = .next (f.ran q c { x.wr i.a (x.rd i.b) with pc := x.pc + 1 })) ∧
    (i.op = 0x16 → i.only 1 true true 0 = true → i.flag 0 = true → i.b < 4 →
      exec (.mov e q) s = .next (f.ran q c
        { x.wr i.a (if i.b = 0 then wd x.pc else if i.b = 1 then wd (vget u.seq q).ln else if i.b = 2 then wd (vget u.seq q).sw
            else fields [(0, 6, c), (8, 4, q), (16, 8, x.session)]) with pc := x.pc + 1 }))

/-- Control flow: `jmp`, `brc`, `call`, `ret` and `loop` move PC, the call stack holds up to eight return addresses,
and `loop` counts gA down, writing Z; a target at or past the image's end raises PCRANGE at the instruction (03 R63,
R72). -/
def Obligations.ControlFlow : Prop :=
  ∀ (e : Env) (s u f : State) (q : Fin 16) (c n : Nat) (i : Ram) (x : Ctx),
    u = s.arrive e → f = u.fetched q c → x = u.ctxOf q c → u.Ends q c i n →
    (n = 1 → i.op = 0x00 → i.only 0 false false 0 = true →
      exec (.nop e q) s = .next (f.ran q c { x with pc := x.pc + 1 })) ∧
    (n = 2 → i.op = 0x02 → i.jump = true → x.target i < x.nwords →
      exec (.jmp e q) s = .next (f.ran q c { x with pc := x.target i })) ∧
    (n = 2 → i.op = 0x02 → i.jump = true → x.nwords ≤ x.target i →
      exec (.jmp e q) s = .next (f.ctxFault q c 0x030A x.pc)) ∧
    (n = 2 → i.op = 0x03 → i.cf < 13 → i.only 15 false false imm44 = true → x.cond i.cf = true → i.imm < x.nwords →
      exec (.brc e q) s = .next (f.ran q c { x with pc := i.imm })) ∧
    (n = 1 → i.op = 0x03 → i.cf < 13 → i.only 15 false false imm44 = true → x.cond i.cf = false →
      exec (.brc e q) s = .next (f.ran q c { x with pc := x.pc + 1 })) ∧
    (n = 2 → i.op = 0x04 → i.jump = true → x.stack.length < 8 → x.target i < x.nwords →
      exec (.call e q) s = .next (f.ran q c { x with stack := (x.pc + 1) :: x.stack, pc := x.target i })) ∧
    (n = 2 → i.op = 0x04 → i.jump = true → 8 ≤ x.stack.length →
      exec (.call e q) s = .next (f.ctxFault q c 0x0305 x.pc)) ∧
    (n = 2 → i.op = 0x05 → i.only 0 false false 0 = true → ∀ (t : Nat) (l : List Nat), x.stack = t :: l → t < x.nwords →
      exec (.ret e q) s = .next (f.ran q c { x with stack := l, pc := t })) ∧
    (n = 2 → i.op = 0x05 → i.only 0 false false 0 = true → x.stack = [] →
      exec (.ret e q) s = .next (f.ctxFault q c 0x0305 x.pc)) ∧
    (n = 2 → i.op = 0x06 → i.only 0 true false imm44 = true → x.rd i.a ≠ 0 → x.rd i.a ≠ 1 → i.imm < x.nwords →
      exec (.loop e q) s = .next (f.ran q c { x.wr i.a (x.rd i.a - 1) with z := false, pc := i.imm })) ∧
    (n = 1 → i.op = 0x06 → i.only 0 true false imm44 = true → x.rd i.a = 1 →
      exec (.loop e q) s = .next (f.ran q c { x.wr i.a 0 with z := true, pc := x.pc + 1 })) ∧
    (n = 1 → i.op = 0x06 → i.only 0 true false imm44 = true → x.rd i.a = 0 →
      exec (.loop e q) s = .next (f.ran q c { x with pc := x.pc + 1 }))

/-- The loads write one word to gA and change no flag: `ldst` a status word of a resource that the context may name,
`ldt` a time of its last tick, `ldpos` a position item as it has reached LCLK (03 R75-R77; 05 R163); `ldst` of an axis
or a camera that the session does not hold, or of a port outside the segment, raises BINDING, and of a port that it
does not hold for a context of level 2 (02 R30). -/
def Obligations.LoadInstructions : Prop :=
  ∀ (e : Env) (s u f : State) (q : Fin 16) (c n : Nat) (i : Ram) (x : Ctx),
    u = s.arrive e → f = u.fetched q c → x = u.ctxOf q c → u.Ends q c i n →
    (n = 4 → i.op = 0x17 → i.ldst = true → f.ldstBound q x.session x.prio (i.imm % 256) (i.imm / 256) = true →
      exec (.ldst e q) s = .next (f.ran q c { x.wr i.a (f.ldstWord q (i.imm % 256) (i.imm / 256)) with pc := x.pc + 1 })) ∧
    (n = 4 → i.op = 0x17 → i.ldst = true → f.ldstBound q x.session x.prio (i.imm % 256) (i.imm / 256) = false →
      exec (.ldst e q) s = .next (f.ctxFault q c 0x0308 x.pc)) ∧
    (n = 4 → i.op = 0x17 → i.ldst = true → i.imm % 256 = 0x10 → u.holds x.session (uAx (i.imm / 256)) = false →
      exec (.ldst e q) s = .next (f.ctxFault q c 0x0308 x.pc)) ∧
    (n = 4 → i.op = 0x17 → i.ldst = true → i.imm % 256 = 0x20 → x.prio = 2 → u.holds x.session (i.imm / 256) = false →
      exec (.ldst e q) s = .next (f.ctxFault q c 0x0308 x.pc)) ∧
    (n = 4 → i.op = 0x17 → i.ldst = true → i.imm % 256 = 1 →
      exec (.ldst e q) s = .next (f.ran q c { x.wr i.a (wd (vget u.seq q).evbits) with pc := x.pc + 1 })) ∧
    (n = 2 → i.op = 0x18 → i.only 0 true false 7 = true → i.imm = 0 →
      exec (.ldt e q) s = .next (f.ran q c { x.wr i.a (wd ((u.now - u.tickBase) / 4)) with pc := x.pc + 1 })) ∧
    (n = 2 → i.op = 0x18 → i.only 0 true false 7 = true → i.imm < 5 →
      exec (.ldt e q) s = .next (f.ran q c { x.wr i.a (f.ldtWord q i.imm) with pc := x.pc + 1 })) ∧
    (n = 4 → i.op = 0x19 → i.ldpos = true → i.imm / 16 = 0 →
      exec (.ldpos e q) s = .next (f.ran q c { x.wr i.a (wdI (vget u.enc (i.imm % 4)).seen.count) with pc := x.pc + 1 })) ∧
    (n = 4 → i.op = 0x19 → i.ldpos = true →
      exec (.ldpos e q) s = .next (f.ran q c
        { x.wr i.a (f.ldposWord q (i.imm / 16) (i.imm % 4)) with pc := x.pc + 1 }))

/-- The entries of the line queue and the settings of the next swath (03 R79, R82): `lines`, `blank` and `spit` append
one entry to the queue of the context's open swath while it holds fewer than 16, clearing T, and complete with T set
where the swath was aborted during the instruction; `pitch`, `rowdly` and `energy` write their setting; operands out
of range raise OPERAND; an append without the own swath raises NOSWATH. -/
def Obligations.PrintSettings : Prop :=
  ∀ (e : Env) (s u f : State) (q : Fin 16) (c : Nat) (i : Ram) (x : Ctx) (v k : Nat),
    u = s.arrive e → f = u.fetched q c → x = u.ctxOf q c → v = (x.rd i.a).toNat → k = x.count i → u.Ends q c i 2 →
    x.attr ≠ 1 →
    (i.op = 0x21 → i.counted = true → f.countOk q c k = true → f.ownsSwath q c = true → (vget u.seq q).lnq.length < 16 →
      exec (.lines e q) s = .next ((f.modSeq q (fun y => { y with
          lnq := y.lnq ++ [{ kind := .lines, left := k, pat := 0 }], printed := some (u.now, c) })).ran q c
        { x with t := false, pc := x.pc + 1 })) ∧
    (i.op = 0x22 → i.counted = true → f.countOk q c k = true → f.ownsSwath q c = true → (vget u.seq q).lnq.length < 16 →
      exec (.blank e q) s = .next ((f.modSeq q (fun y => { y with
          lnq := y.lnq ++ [{ kind := .blank, left := k, pat := 0 }], printed := some (u.now, c) })).ran q c
        { x with t := false, pc := x.pc + 1 })) ∧
    (i.op = 0x24 → i.only 0 true false 0xFF = true → f.countOk q c v = true → f.ownsSwath q c = true →
      (vget u.seq q).lnq.length < 16 →
      exec (.spit e q) s = .next ((f.modSeq q (fun y => { y with
          lnq := y.lnq ++ [{ kind := .spit, left := v, pat := i.imm }], printed := some (u.now, c) })).ran q c
        { x with t := false, pc := x.pc + 1 })) ∧
    (i.op = 0x21 → i.counted = true → f.countOk q c k = true → f.ownsSwath q c = false → f.cutShort q c = false →
      exec (.lines e q) s = .next (f.ctxFault q c 0x0306 x.pc)) ∧
    (i.op = 0x22 → i.counted = true → f.countOk q c k = true → f.ownsSwath q c = false → f.cutShort q c = false →
      exec (.blank e q) s = .next (f.ctxFault q c 0x0306 x.pc)) ∧
    (i.op = 0x24 → i.only 0 true false 0xFF = true → f.countOk q c v = true → f.ownsSwath q c = false → f.cutShort q c = false →
      exec (.spit e q) s = .next (f.ctxFault q c 0x0306 x.pc)) ∧
    (i.op = 0x21 → i.counted = true → f.countOk q c k = true → f.ownsSwath q c = false → f.cutShort q c = true →
      exec (.lines e q) s = .next (f.ran q c { x with t := true, pc := x.pc + 1 })) ∧
    (i.op = 0x22 → i.counted = true → f.countOk q c k = true → f.ownsSwath q c = false → f.cutShort q c = true →
      exec (.blank e q) s = .next (f.ran q c { x with t := true, pc := x.pc + 1 })) ∧
    (i.op = 0x24 → i.only 0 true false 0xFF = true → f.countOk q c v = true → f.ownsSwath q c = false → f.cutShort q c = true →
      exec (.spit e q) s = .next (f.ran q c { x with t := true, pc := x.pc + 1 })) ∧
    (i.op = 0x21 → i.counted = true → f.countOk q c k = false →
      exec (.lines e q) s = .next (f.ctxFault q c 0x0302 x.pc)) ∧
    (i.op = 0x22 → i.counted = true → f.countOk q c k = false →
      exec (.blank e q) s = .next (f.ctxFault q c 0x0302 x.pc)) ∧
    (i.op = 0x24 → i.only 0 true false 0xFF = true → f.countOk q c v = false →
      exec (.spit e q) s = .next (f.ctxFault q c 0x0302 x.pc)) ∧
    (i.op = 0x25 → i.only 0 true false 0 = true → 2 ^ 32 ≤ v → v < 2 ^ 48 →
      exec (.pitch e q) s = .next ((f.modSeq q (fun y => { y with pitch := v })).ran q c { x with pc := x.pc + 1 })) ∧
    (i.op = 0x25 → i.only 0 true false 0 = true → v < 2 ^ 32 ∨ 2 ^ 48 ≤ v →
      exec (.pitch e q) s = .next (f.ctxFault q c 0x0302 x.pc)) ∧
    (i.op = 0x26 → i.only 0 true false 0 = true → v < 256 →
      exec (.rowdly e q) s = .next ((f.modSeq q (fun y => { y with rowdly := v })).ran q c { x with pc := x.pc + 1 })) ∧
    (i.op = 0x26 → i.only 0 true false 0 = true → 256 ≤ v →
      exec (.rowdly e q) s = .next (f.ctxFault q c 0x0302 x.pc)) ∧
    (i.op = 0x27 → i.only 0 true false 0 = true → v ≠ 0 → v < 8 ∨ 16 ≤ v →
      exec (.energy e q) s = .next (f.ctxFault q c 0x0302 x.pc)) ∧
    (i.op = 0x27 → i.only 0 true false 0 = true → v = 0 ∨ 8 ≤ v ∧ v < 16 →
      exec (.energy e q) s = .next ((f.modSeq q (fun y => { y with bandMode := v })).ran q c { x with pc := x.pc + 1 }))

/-- A wait whose condition holds as it is entered completes at once with T clear; with a timeout of 1 or 2 ticks and
no condition it completes with T set; else the context is WAITING with its deadline, its timeout counted from the
first tick of the instruction (03 R69, R83). `fence` waits for the selected queues (R73), `waitpos` for a position
(R84), `waittime` for a tick, a span or a device time (R85), `waitev` for event bits (R86), `waitax` for an axis that
the session holds (R87), and raises BINDING for another. A pending wait ends with T clear when its condition is
decided in the tick of its deadline or before it, and with T set when its deadline has come and the condition did not
hold by then; the context is READY at the next word; flag C of `waitev` clears its bits (03 R83, R86). -/
def Obligations.WaitsBeginAndEnd : Prop :=
  (∀ (e : Env) (s u f : State) (q : Fin 16) (c n : Nat) (i : Ram) (x : Ctx),
    u = s.arrive e → f = u.fetched q c → x = u.ctxOf q c → u.Ends q c i n →
    (n = 1 → i.op = 0x07 → i.only 15 false true 0 = true →
      f.Enters q c 1 x (x.rd i.b).toNat (.fence (i.flag 0) (i.flag 1) (i.flag 2) (i.flag 3)) (exec (.fence e q) s)) ∧
    (n = 2 → i.op = 0x30 → i.only 3 true true (if i.flag 1 then 3 else 0) = true →
      f.Enters q c 2 x (x.rd i.b).toNat
        (.pos (if i.flag 1 then i.imm % 4 else f.rf (0x01000100 + 8 * q) 1 0) (x.rdI i.a) (i.flag 0))
        (exec (.waitpos e q) s)) ∧
    (n = 2 → i.op = 0x31 → i.only 3 true true 0 = true → i.cf ≠ 3 →
      f.Enters q c 2 x (x.rd i.b).toNat
        (if i.flag 1 then .devTime (x.rd i.a).toNat else if i.flag 0 then .tick (f.ticks - 1 + (x.rd i.a).toNat)
          else .tick (x.rd i.a).toNat) (exec (.waittime e q) s)) ∧
    (n = 2 → i.op = 0x32 → i.only 3 false true (2 ^ 25 - 1) = true → i.imm ≠ 0 →
      f.Enters q c 2 x (x.rd i.b).toNat (.ev i.imm (i.flag 0) (i.flag 1)) (exec (.waitev e q) s)) ∧
    (n = 2 → i.op = 0x45 → i.only 0 false true 7 = true → f.holds x.session (uAx i.imm) = true →
      f.Enters q c 2 x (x.rd i.b).toNat (.ax i.imm) (exec (.waitax e q) s)) ∧
    (n = 2 → i.op = 0x45 → i.only 0 false true 7 = true → f.holds x.session (uAx i.imm) = false →
      exec (.waitax e q) s = .next (f.ctxFault q c 0x0308 x.pc))) ∧
  (∀ (e : Env) (s u : State) (q : Fin 16) (c : Fin 64) (x : Ctx) (k : WaitKind) (d : Option Nat),
    u = s.arrive e → x = u.ctxOf q c → x.st = .waiting → x.wait = some { kind := k, deadline := d } → u.pws.gap = none →
    (u.waitHolds q c k = true → (∀ t : Nat, d = some t → u.expired t = false) →
      exec (.waitComplete e q c) s = .next ((u.waitClears q k).modCtx q c (fun _ => { x with
        st := .ready, wait := none, t := false, readyAt := u.now, pc := x.pc + 1 }))) ∧
    (∀ t : Nat, d = some t → u.waitHolds q c k = false ∨ u.expired t = true → t ≤ u.now →
      exec (.waitTimeout e q c) s = .next (u.modCtx q c (fun _ => { x with
        st := .ready, wait := none, t := true, readyAt := u.now, pc := x.pc + 1 }))) ∧
    (∀ t : Nat, d = some t → u.waitHolds q c k = true → u.expired t = false → t ≤ u.now →
      exec (.waitTimeout e q c) s = .next ((u.waitClears q k).modCtx q c (fun _ => { x with
        st := .ready, wait := none, t := false, readyAt := u.now, pc := x.pc + 1 }))) ∧
    (u.waitHolds q c k = false → exec (.waitComplete e q c) s = .next u) ∧
    (∀ t : Nat, d = some t → u.now < t → exec (.waitTimeout e q c) s = .next u))

/-- Stopping and giving way: `halt` without an open swath of its own leaves the context HALTED at the next word; with
one that still has lines it enters the closing wait, and one whose lines are all sent closes; `yield` with no READY
context of its level or above goes on, and with one makes the context READY and begins its save (02 R34, R41; 03 R72).
The dispatcher (02 R32-R36): with no context running, the READY context that R32 picks runs at once where it is
resident and else after a restore of 64 ticks, before which a resident context that can still run is saved; a running
context gives way to one of a higher level at its next instruction boundary and not before it (03 R64), and a restore
to one of a higher level than the context it is for. -/
def Obligations.ContextsStopAndAreDispatched : Prop :=
  (∀ (e : Env) (s u f : State) (q : Fin 16) (c : Fin 64) (i : Ram) (x : Ctx),
    u = s.arrive e → f = u.fetched q c → x = u.ctxOf q c → u.Ends q c i 1 → i.only 0 false false 0 = true →
    (i.op = 0x01 → f.ownsSwath q c = false →
      exec (.halt e q) s = .next (f.modCtx q c (fun _ => { x with st := .halted, wait := none, pc := x.pc + 1 }))) ∧
    (i.op = 0x01 → f.ownsSwath q c = true → f.swathDone q = false →
      exec (.halt e q) s = .next (f.modCtx q c (fun _ => { x with
        st := .waiting, wait := some { kind := .closing, deadline := none } }))) ∧
    (i.op = 0x01 → f.ownsSwath q c = true → f.swathDone q = true → ∃ t, exec (.halt e q) s = .next t ∧
      (t.ctxOf q c).st = .halted ∧ (t.ctxOf q c).wait = none ∧ (t.ctxOf q c).pc = x.pc + 1 ∧
      (vget t.seq q).swst = .closed ∧ (vget t.seq q).owner = none) ∧
    (i.op = 0x39 → f.pick q x.prio = none → exec (.yieldI e q) s = .next (f.ran q c { x with pc := x.pc + 1 })) ∧
    (i.op = 0x39 → (f.pick q x.prio).isSome = true →
      exec (.yieldI e q) s = .next ((f.modCtx q c (fun _ => { x with st := .ready, readyAt := u.now, pc := x.pc + 1 })).modSeq q
        (fun y => { y with freeAt := u.now + 4, disp := .saving u.now })))) ∧
  (∀ (e : Env) (s u : State) (q : Fin 16) (c : Fin 64) (y : Seq), u = s.arrive e → y = vget u.seq q → u.pws.gap = none →
    u.phase = .ready →
    (y.disp = .idle → u.running q = none → u.pick q 0 = some c.val →
      (y.resident = some c.val → exec (.contextDispatch e q) s = .next (u.runCtx q c)) ∧
      (y.resident = none →
        exec (.contextDispatch e q) s = .next (u.modSeq q (fun y => { y with resident := none, disp := .restoring c u.now }))) ∧
      (∀ d : Fin 64, y.resident = some d.val → d ≠ c → (u.ctxOf q d).st = .ready ∨ (u.ctxOf q d).st = .waiting →
        exec (.contextDispatch e q) s = .next (u.modSeq q (fun y => { y with disp := .saving u.now })))) ∧
    (y.disp = .idle → u.running q = some c.val → (u.pick q ((u.ctxOf q c).prio + 1)).isSome = true →
      (y.freeAt ≤ u.now → u.now < y.freeAt + 4 →
        exec (.contextDispatch e q) s = .next ((u.modCtx q c (fun y => { y with st := .ready, readyAt := u.now })).modSeq q
          (fun y => { y with disp := .saving u.now }))) ∧
      (u.now < y.freeAt ∨ y.freeAt + 4 ≤ u.now → exec (.contextDispatch e q) s = .next u)) ∧
    (∀ (t : Nat) (d : Fin 64), y.disp = .restoring c t → u.pick q ((u.ctxOf q c).prio + 1) = some d.val →
      exec (.contextDispatch e q) s = .next (u.modSeq q (fun y => { y with disp := .restoring d u.now }))) ∧
    (∀ t : Nat, y.disp = .restoring c t → u.due t 256 = true → (u.ctxOf q c).st = .ready →
      u.ctxBad.contains (64 * q.val + c.val) = false →
      ∃ v, exec (.contextRestoreDone e q) s = .next v ∧ (v.ctxOf q c) = { u.ctxOf q c with st := .running } ∧
        (vget v.seq q).resident = some c.val ∧ (vget v.seq q).disp = .idle ∧ (vget v.seq q).freeAt = u.now) ∧
    (∀ (t k : Nat) (r : State × List Nat) (v : State), y.disp = .saving t → u.due t 256 = true →
      k = 64 * q.val + y.resident.getD 0 → r = u.sramWrite (Config.storeIndex k true) 128 →
      v = ({ r.1 with ctxBad := (if r.2.isEmpty then [] else [k]) ++ r.1.ctxBad.filter (· != k) } : State).modSeq q
        (fun y => { y with resident := none, disp := .idle }) →
      (v.pick q 0 = none → exec (.contextSaveDone e q) s = .next v) ∧
      (v.pick q 0 = some c.val → exec (.contextSaveDone e q) s =
        .next (v.modSeq q (fun y => { y with resident := none, disp := .restoring c u.now })))) ∧
    (∀ t : Nat, y.disp = .saving t ∨ y.disp = .restoring c t → u.due t 256 = false →
      exec (.contextSaveDone e q) s = .next u ∧ exec (.contextRestoreDone e q) s = .next u))

/-- `swath` opens a swath on line F at position P0 with the settings of its sequencer, which takes the next swath
number: its line queue is empty, no line event has been sent, and the ring of every port of the segment stands at line
F; while a swath is open it raises SWATHOPEN, without the segment's claims BINDING, and with an illegal F or no pitch
OPERAND. `endswath` closes the swath once every line event is sent, clears T and sets event bit 11; before that it
waits; without an own swath it raises NOSWATH, and it completes with T set where the swath was aborted during the
instruction. A waiting append enters the queue when an entry is free. SWATH_END closes the swath whose owner waits for
it: `endswath` completes with T clear, and the closing wait of `halt` halts the context (02 R37-R41; 03 R78, R79,
R81). -/
def Obligations.SwathOpensAndEnds : Prop :=
  ∀ (e : Env) (s u f : State) (q : Fin 16) (c : Fin 64) (i : Ram) (x : Ctx) (y : Seq),
    u = s.arrive e → f = u.fetched q c → x = u.ctxOf q c → y = vget u.seq q →
    (u.Ends q c i 16 → x.attr ≠ 1 → i.op = 0x20 → i.only 0 true true 0 = true →
      ((x.rd i.a).toNat < 2 ^ 32 → y.pitch ≠ 0 → y.swst = .closed → f.segClaimed q x.session = true →
        exec (.swath e q) s = .next ((f.openSwath q c (x.rd i.a).toNat (x.rdI i.b)).retire q c (x.pc + 1)) ∧
        ((f.ctxOf q (f.ectx q)).st ≠ .armed → ∃ t, exec (.swath e q) s = .next t ∧ t.ctxOf q c = { x with pc := x.pc + 1 } ∧
          (vget t.seq q).swst = .opened ∧ (vget t.seq q).owner = some c.val ∧ (vget t.seq q).swF = (x.rd i.a).toNat ∧
          (vget t.seq q).swP0 = x.rdI i.b ∧ (vget t.seq q).swPitch = y.pitch ∧ (vget t.seq q).swRowdly = y.rowdly ∧
          (vget t.seq q).sw = q * 2 ^ 28 + (y.swCnt + 1) % 2 ^ 28 ∧ (vget t.seq q).lnq = [] ∧ (vget t.seq q).nEvents = 0 ∧
          ∀ p : Fin 64, f.inSegment q p = true → (vget t.ring p).base = (x.rd i.a).toNat)) ∧
      ((x.rd i.a).toNat < 2 ^ 32 → y.pitch ≠ 0 → y.swst = .opened →
        exec (.swath e q) s = .next (f.ctxFault q c 0x0307 x.pc)) ∧
      ((x.rd i.a).toNat < 2 ^ 32 → y.pitch ≠ 0 → y.swst = .closed → f.segClaimed q x.session = false →
        exec (.swath e q) s = .next (f.ctxFault q c 0x0308 x.pc)) ∧
      (2 ^ 32 ≤ (x.rd i.a).toNat ∨ y.pitch = 0 → exec (.swath e q) s = .next (f.ctxFault q c 0x0302 x.pc))) ∧
    (u.Ends q c i 2 → x.attr ≠ 1 → i.op = 0x23 → i.only 0 false false 0 = true →
      (f.ownsSwath q c = true → f.swathDone q = true → ∃ t, exec (.endswath e q) s = .next t ∧
        (vget t.seq q).swst = .closed ∧ (vget t.seq q).owner = none ∧ (vget t.seq q).evbits.testBit 11 = true ∧
        (t.ctxOf q c).t = false ∧ (t.ctxOf q c).pc = x.pc + 1 ∧ (t.ctxOf q c).g = x.g) ∧
      (f.ownsSwath q c = true → f.swathDone q = false → exec (.endswath e q) s = .next (f.modCtx q c (fun _ => { x with
        st := .waiting, wait := some { kind := .endswath, deadline := none } }))) ∧
      (f.ownsSwath q c = false → f.cutShort q c = false → exec (.endswath e q) s = .next (f.ctxFault q c 0x0306 x.pc)) ∧
      (f.ownsSwath q c = false → f.cutShort q c = true →
        exec (.endswath e q) s = .next (f.ran q c { x with t := true, pc := x.pc + 1 }))) ∧
    (∀ (n : LnEntry) (d : Option Nat), y.swst = .opened → y.owner = some c.val →
      x.wait = some { kind := .append n, deadline := d } →
      (y.lnq.length < 16 → ∃ t, exec (.lineQueueAppend e q) s = .next t ∧ (vget t.seq q).lnq = y.lnq ++ [n] ∧
        t.ctxOf q c = { x with st := .ready, wait := none, t := false, readyAt := u.now, pc := x.pc + 1 } ∧
        t.ring = u.ring ∧ t.place = u.place ∧ t.fp = u.fp ∧ t.sess = u.sess) ∧
      (16 ≤ y.lnq.length → exec (.lineQueueAppend e q) s = .next u)) ∧
    (∀ d : Option Nat, y.swst = .opened → y.owner = some c.val → u.swathDone q = true →
      (x.wait = some { kind := .endswath, deadline := d } → x.st = .waiting → ∃ t, exec (.swathEnd e q) s = .next t ∧
        (vget t.seq q).swst = .closed ∧ (vget t.seq q).owner = none ∧ (vget t.seq q).evbits.testBit 11 = true ∧
        t.ctxOf q c = { x with st := .ready, wait := none, t := false, readyAt := u.now, pc := x.pc + 1 }) ∧
      (x.wait = some { kind := .closing, deadline := d } → x.st = .waiting → ∃ t, exec (.swathEnd e q) s = .next t ∧
        (vget t.seq q).swst = .closed ∧ (vget t.seq q).owner = none ∧ (vget t.seq q).evbits.testBit 11 = true ∧
        t.ctxOf q c = { x with st := .halted, wait := none, pc := x.pc + 1 })) ∧
    (y.swst = .opened → u.swathDone q = false ∨ u.ownerClosing q = false → exec (.swathEnd e q) s = .next u)

/-- Signals, marks and commits from a program (03 R88-R90) and the event bits that a host sets or clears (02 R25, R31;
03 R86): `signal` sets its bits in every target sequencer 4 ticks later, posting SIGNAL with EVREC, and raises BINDING
where another target's claim is not held, `mark` posts MARK, `commit` requests a commit and writes T; a host's write
acts as its session, and an Observer is refused with RIGHTS. -/
def Obligations.SignalsMarksAndCommits : Prop :=
  ∀ (e : Env) (s u f : State) (q : Fin 16) (c : Fin 64) (i : Ram) (x : Ctx) (w : Writer) (n : Nat),
    u = s.arrive e → f = u.fetched q c → x = u.ctxOf q c →
    (u.Ends q c i 1 → i.op = 0x33 → i.only 0 false false (2 ^ 25 - 1) = true → i.imm % 256 ≠ 0 → i.imm / 256 = 0 →
      exec (.signal e q) s = .next ((f.after (u.now + 16) (.signal (2 ^ q.val) (i.imm % 256))).ran q c { x with pc := x.pc + 1 })) ∧
    (u.Ends q c i 1 → i.op = 0x33 → i.only 0 false false (2 ^ 25 - 1) = true → i.imm % 256 ≠ 0 → ∀ l : List Nat,
      l = sigTargets q (bitsN i.imm 23 8) →
      (l.all (fun t => t == q.val || f.holds x.session (uSeq t)) = true → ∀ g : State,
        g = (if i.imm.testBit 24 then f.postTo x.session (f.ev 8 0 q (some q) (wd (i.imm % 2 ^ 24))) else f) →
        exec (.signal e q) s =
          .next ((g.after (u.now + 16) (.signal (maskN 16 l.contains) (i.imm % 256))).ran q c { x with pc := x.pc + 1 })) ∧
      (l.all (fun t => t == q.val || f.holds x.session (uSeq t)) = false →
        exec (.signal e q) s = .next (f.ctxFault q c 0x0308 x.pc))) ∧
    (∀ targets mask : Nat, targets.testBit q.val = true → (vget (u.happen (.signal targets mask)).seq q).evbits &&& mask = mask) ∧
    (u.Ends q c i 4 → i.op = 0x34 → i.only 0 false false imm44 = true → i.flag 0 = false →
      exec (.mark e q) s = .next ((f.postTo x.session { f.ev 7 0 q (some q) (wd i.imm) with time := f.stampBack 3 }).ran q c
        { x with pc := x.pc + 1 })) ∧
    (u.Ends q c i 8 → i.op = 0x38 → i.only 0 true false 0 = true → i.flag 0 = false → (x.rd i.a).toNat < 2 ^ 32 →
      exec (.programCommit e q) s = .next
        (((f.commitProgram x.session q (x.rd i.a).toNat false (x.rd i.b).toNat).1.modCtx q c (fun y => { y with
          t := !(f.commitProgram x.session q (x.rd i.a).toNat false (x.rd i.b).toNat).2 })).retire q c (x.pc + 1))) ∧
    (u.phase = .ready → u.writer w = some n → (u.ses n).cls ≠ .observer →
      (∀ g : Fin 256, g ≠ 0 → exec (.seqSignal e w q g) s = .next (u.setEv q g)) ∧
      (∀ (m : Fin 65536) (g : Fin 256), g ≠ 0 →
        exec (.seqGsignal e w m g) s = .next (u.each (those 16 m.val.testBit) (fun s t => s.setEv t g))) ∧
      (∀ m : BitVec 32, exec (.seqEvbitsClear e w q m) s =
        .next (u.modSeq q (fun y => { y with evbits := y.evbits - ((y.evbits &&& m.toNat) -
          (if u.sameTick y.setAt then y.evbits &&& m.toNat &&& y.setNow else 0)) })))) ∧
    (u.phase = .ready → u.writer w = some n → (u.ses n).cls = .observer →
      (∀ g : Fin 256, exec (.seqSignal e w q g) s = .next (u.postErr n 0x0102 q)) ∧
      ∀ m : BitVec 32, exec (.seqEvbitsClear e w q m) s = .next (u.postErr n 0x0102 q))

/-- A motion instruction on an axis that the session holds gives the motion block one command; T is set where the
block refuses it; the axis counts as commanded. A camera instruction requests a frame or a settings record; T is set
where the camera block refuses. Without the claim both raise BINDING (03 R70, R91-R93). -/
def Obligations.MotionAndCameraInstructions : Prop :=
  ∀ (e : Env) (s u f : State) (q : Fin 16) (c : Fin 64) (i : Ram) (x : Ctx),
    u = s.arrive e → f = u.fetched q c → x = u.ctxOf q c →
    (u.Ends q c i 4 → x.attr ≠ 1 →
      (i.op = 0x40 → i.only 1 true false 7 = true → (x.rdI i.a).natAbs < 2 ^ 40 →
        f.Commands q c x i.imm (.move (i.flag 0) (x.rdI i.a)) (exec (.move e q) s)) ∧
      (i.op = 0x41 → i.only 0 true false 7 = true → (x.rd i.a).toNat < 2 ^ 32 →
        f.Commands q c x i.imm (.vel (x.rd i.a).toNat) (exec (.vel e q) s)) ∧
      (i.op = 0x42 → i.only 0 true false 7 = true → (x.rd i.a).toNat < 2 ^ 32 →
        f.Commands q c x i.imm (.acc (x.rd i.a).toNat) (exec (.acc e q) s)) ∧
      (i.op = 0x43 → i.only 0 false false 7 = true → f.Commands q c x i.imm .stop (exec (.stop e q) s)) ∧
      (i.op = 0x44 → i.only 0 false false 0x37 = true →
        f.Commands q c x (i.imm % 8) (.home (i.imm / 16)) (exec (.home e q) s))) ∧
    (u.Ends q c i 2 → i.op = 0x50 → i.only 0 false false 3 = true →
      (f.holds x.session (uCam i.imm) = false → exec (.camtrig e q) s = .next (f.ctxFault q c 0x0308 x.pc)) ∧
      (f.holds x.session (uCam i.imm) = true → f.trigRefusal i.imm (.program q c) = 0 →
        exec (.camtrig e q) s = .next (((f.trigAccept i.imm (.program q c) q).modCtx q c (fun y => { y with t := false })).retire q c
          (x.pc + 1))) ∧
      (f.holds x.session (uCam i.imm) = true → f.trigRefusal i.imm (.program q c) ≠ 0 →
        exec (.camtrig e q) s = .next (((f.camPost i.imm (.program q c) 0x0904
          (wd (f.trigRefusal i.imm (.program q c)))).modCtx q c (fun y => { y with t := true })).retire q c (x.pc + 1)))) ∧
    (u.Ends q c i 4 → i.op = 0x51 → i.only 0 true true 3 = true → (x.rd i.a).toNat < 256 →
      f.holds x.session (uCam i.imm) = true → (vget u.cam i.imm).pend = none → ∀ g : State,
      g = f.setAccept i.imm (x.rd i.a).toNat (.program q c) →
      exec (.camset e q) s = .next ((g.modCtx q c (fun y => { y.wr i.b (wd (vget g.cam i.imm).lastGen) with t := false })).retire q c
        (x.pc + 1)))

/-- What stops a context at an instruction, in the order of 03 R535: an error of its fetch (FETCH_ECC, ILLEGAL, or
PCRANGE past the image's end), then ATTR in a swath-safe context for every opcode that the table bars there, whatever
the fields hold; whichever Ramest command meets it. A command whose opcode is not the fetched word's does nothing. -/
def Obligations.WhatStopsAContext : Prop :=
  ∀ (e : Env) (s u : State) (q : Fin 16) (r : Instr × Nat × Bool), u = s.arrive e → r ∈ ramestRows e q →
    (∀ c code pc : Nat, u.fetch q = .fault c code pc → (vget u.seq q).freeAt ≤ u.now →
      exec r.1 s = .next (((u.when (code == 0x0304) (fun s => s.sramUeHit (Config.storeIndex (pKey q c pc) false)
        (sramPart (Config.storeIndex (pKey q c pc) false)))).when (code == 0x0301)
        (fun s => s.sramRead (Config.storeIndex (pKey q c pc) false) 1)).ctxFault q c code pc)) ∧
    (∀ (c : Nat) (i : Ram), u.Ends q c i 16 → i.op = r.2.1 → r.2.2 = false → (u.ctxOf q c).attr = 1 →
      exec r.1 s = .next ((u.fetched q c).ctxFault q c 0x0303 (u.ctxOf q c).pc)) ∧
    (∀ (c : Nat) (i : Ram), u.fetch q = .word c i → i.op ≠ r.2.1 → exec r.1 s = .next u) ∧
    (u.fetch q = .idle → exec r.1 s = .next u)

/-- A change of A and B is sampled and decoded 7 ticks after it reaches the pins (05 R140-R147, R163): no change of
the sample leaves the count; a step in the forward order 00, 10, 11, 01 moves it by +1, one in the other order by −1,
either negated with INV; a double transition leaves the count and raises QERRTOT. Without power, in SSI mode and in
loss of signal nothing is counted. The other channels, streams, memories, axes and registers are unchanged. An edge of
a channel against its extreme (05 R145, R147), in the channel's direction: beyond the extreme it advances the channel,
the first one from STILL leaving PERIOD; two counts or more behind it reverses the channel, REVPOS taking the extreme,
and counts as the first advancing edge of the new direction; one count behind or at it only the count changes. At cold
start a channel's direction is forward and its extreme is its count. -/
def Obligations.EncoderEdges : Prop :=
  ((∀ (e : Env) (s : State) (c : Fin 4) (a b : Bool),
    exec (.encoderEdge e c a b) s = .next ((s.arrive e).after ((s.arrive e).now + 28) (.pins c a b))) ∧
  ∀ (u t : State) (c : Fin 4) (a b : Bool) (x : Enc) (d : Nat), t = u.happen (.pins c a b) → x = vget u.enc c →
    d = (quadIndex a b + 4 - x.ab) % 4 →
    (u.islandUp = false ∨ u.encSsi c = true ∨ x.los = true → t = u) ∧
    (u.islandUp = true → u.encSsi c = false → x.los = false →
      (d = 0 → t = u.modEnc c (fun _ => { x with ab := quadIndex a b })) ∧
      (d = 1 ∨ d = 3 →
        vget t.enc c = ({ x with ab := quadIndex a b } : Enc).edge
          (wrapN 48 (x.count + (if (d == 1) = u.encInv c then -1 else 1))) (u.now - 28) false ∧
        (vget t.enc c).count = wrapN 48 (x.count + (if (d == 1) = u.encInv c then -1 else 1)) ∧
        (∀ i : Fin 4, i ≠ c → vget t.enc i = vget u.enc i) ∧ t.str = u.str ∧ t.mem = u.mem ∧ t.ax = u.ax ∧
        t.mgt = u.mgt ∧ t.safe = u.safe) ∧
      (d = 2 → (vget t.enc c).count = x.count ∧ (vget t.enc c).back = x.back ∧ (vget t.enc c).period = x.period ∧
        (vget t.enc c).qerr = satAdd 32 x.qerr 1 ∧ (vget t.enc c).ab = quadIndex a b ∧
        (∀ i : Fin 4, i ≠ c → vget t.enc i = vget u.enc i) ∧ t.str = u.str ∧ t.ax = u.ax ∧ t.mgt = u.mgt))) ∧
  ((∀ (x : Enc) (c : Int) (t : Nat) (d : Int) (fr : Bool),
    d = (if x.back then -wrapN 48 (c - x.ext) else wrapN 48 (c - x.ext)) →
    (x.edge c t fr).count = c ∧
    (0 < d → (x.edge c t fr).ext = c ∧ (x.edge c t fr).back = x.back ∧ (x.edge c t fr).lastAdv = some t ∧
      (x.edge c t fr).st = (if x.st = .still then .starting else .moving) ∧ (x.edge c t fr).revPos = x.revPos ∧
      (x.edge c t false).period = (if x.st = .still then x.period else (t - x.lastAdv.getD t) / 5)) ∧
    (d ≤ -2 → (x.edge c t fr).back = !x.back ∧ (x.edge c t fr).revPos = x.ext ∧ (x.edge c t fr).ext = c ∧
      (x.edge c t fr).st = .starting ∧ (x.edge c t fr).lastAdv = some t ∧ (x.edge c t fr).lastAdvCount = c) ∧
    (d = 0 ∨ d = -1 → x.edge c t fr = { x with count := c })) ∧
  ∀ c : Fin 4, (vget State.reset.enc c).back = false ∧ (vget State.reset.enc c).ext = (vget State.reset.enc c).count)

/-- The index pulse (05 R154, R163; 10 R320): it is sampled in the SCLK cycle of its edge, after the edges of A and B
of that cycle; with ZEN the count at a rising edge is latched; the pulse never changes the count, and without a rise
and in SSI mode nothing is latched. A rise reaches LCLK 5 ticks and the axes that home on it two STEPCLK edges later. -/
def Obligations.ZEdgeLatchesTheCount : Prop :=
  (∀ (e : Env) (s u : State) (c : Fin 4) (z : Bool), u = s.arrive e →
    exec (.zEdge e c z) s = .next (u.after (u.now / 5 * 5 + 4 + 28) (.zpin c z))) ∧
  ∀ (u t : State) (c : Fin 4) (z : Bool) (x y : Enc), t = u.happen (.zpin c z) → x = vget u.enc c →
    y = { x with z := true, zLatch := if u.encZen c = true then x.count else x.zLatch } →
    (u.islandUp = false → t = u) ∧
    (u.islandUp = true → z = false ∨ x.z = true ∨ u.encSsi c = true → t = u.modEnc c (fun _ => { x with z := z })) ∧
    (u.islandUp = true → z = true → x.z = false → u.encSsi c = false →
      t = ((u.modEnc c (fun _ => y)).after (u.now + 20) (.seen c y.toEncVal 0 false false false none)).after (u.stepEdge 2)
        (.zedge c)) ∧
    (vget t.enc c).count = x.count

/-- The other events of a channel (05 R143, R144, R147): a PHASE window of 1 ms ends with one record of the later
occurrences, if any; a loss of signal sets LOS, posts ENC_LOS and makes the swaths placed from the channel
position-doubtful as it reaches LCLK 5 ticks later; 1 ms of valid levels clears it; STILLTO without an advancing edge
makes the channel STILL, posts a record and sets event bit 17 of the bound sequencers, 5 ticks later too. What is not
due changes nothing. -/
def Obligations.EncoderEvents : Prop :=
  ∀ (e : Env) (s u : State) (c : Fin 4) (x : Enc), u = s.arrive e → x = vget u.enc c →
    (∀ (t : Nat) (w : State), x.phaseAt = some t → w = u.modEnc c (fun _ => { x with phaseAt := none, phaseMore := 0 }) →
      (t + 5000000 ≤ u.now → x.phaseMore = 0 → exec (.phaseWindowEnd e c) s = .next w) ∧
      (t + 5000000 ≤ u.now → 0 < x.phaseMore →
        exec (.phaseWindowEnd e c) s = .next (w.postEnc c 0x0701 (wd x.phaseMore) 0x400)) ∧
      (u.now < t + 5000000 → exec (.phaseWindowEnd e c) s = .next u)) ∧
    (x.phaseAt = none → exec (.phaseWindowEnd e c) s = .next u) ∧
    (u.islandUp = true → x.los = false → exec (.encLos e c) s = .next
      (((u.modEnc c (fun _ => { x with los := true, losAt := u.now })).postEnc c 0x0707).after (u.now + 20)
        (.seen c { x.toEncVal with los := true } 0 false true false none))) ∧
    (u.islandUp = false ∨ x.los = true → exec (.encLos e c) s = .next u) ∧
    (u.islandUp = true → x.los = true → x.losAt + 5000000 ≤ u.now → exec (.encLosClear e c) s = .next
      ((u.modEnc c (fun _ => { x with los := false })).after (u.now + 20)
        (.seen c { x.toEncVal with los := false } 0 false false false none))) ∧
    (x.los = false ∨ u.now < x.losAt + 5000000 → exec (.encLosClear e c) s = .next u) ∧
    (∀ t : Nat, u.islandUp = true → x.st ≠ .still → x.lastAdv = some t → t + u.encStillTo c ≤ u.now →
      exec (.still e c) s = .next (((u.modEnc c (fun _ => { x with st := .still })).postEnc c 0x0704).after (u.now + 20)
        (.seen c { x.toEncVal with st := .still } 0x20000 false false false none))) ∧
    (x.st = .still → exec (.still e c) s = .next u) ∧
    ∀ (q : Fin 16) (v : EncVal) (bits : Nat) (y : State), u.boundTo c = [q.val] →
      y = u.happen (.seen c v bits false false false none) → bits ≠ 0 →
      y = (u.modEnc c (fun x => { x with seen := v })).setEv q bits

/-- A rebase sets the count and its extreme, CLRQ clears QERRTOT: an accepted write applies in the SCLK cycle that
begins 2 cycles after its tick and is in LCLK 5 ticks later. A rebase is refused with 0x070B while a swath placed from
the channel is open, and changes nothing then, CLRQ included (05 R169). An SSI frame (05 R149-R152): its period over,
the interface waits for the data line; the line ready within SSITO, NBITS + 1 clock periods run; not ready in time,
the frame fails with 0x0708; the bits read with a stop bit that is not low, it fails with 0x0709, and a difference
above MAXDIFF with 0x070A; else SSIERR clears and the count moves by the difference from the previous value, modulo
2^NBITS and signed. -/
def Obligations.EncoderRebaseAndSsi : Prop :=
  ((∀ (e : Env) (s u : State) (c : Fin 4) (w : Writer) (n : Nat) (v : BitVec 48) (k : Bool), u = s.arrive e →
    u.phase = .ready → u.writer w = some n → (u.ses n).cls ≠ .observer →
    (u.placedFrom c = [] → exec (.encRebase e w c v k) s =
      .next (u.after ((u.now + 4) / 5 * 5 + 10) (.rebase c (some v.toInt) k n u.now))) ∧
    (u.placedFrom c ≠ [] → exec (.encRebase e w c v k) s = .next (u.refuse n 0x070B c).1) ∧
    exec (.encClrq e w c) s = .next (u.after ((u.now + 4) / 5 * 5 + 10) (.rebase c none true n u.now))) ∧
  ∀ (u : State) (c : Fin 4) (n at_ : Nat) (x y : Enc) (v : Option Int) (k : Bool), x = vget u.enc c →
    y = (match v with
      | some m => { x with count := m, ext := m, lastAdvCount := x.lastAdvCount + (m - x.count), qerr := if k then 0 else x.qerr }
      | none => { x with qerr := if k then 0 else x.qerr }) →
    u.happen (.rebase c v k n at_) = (u.modEnc c (fun _ => y)).after (u.now + 20) (.seen c y.toEncVal 0 false false false none)) ∧
  (∀ (e : Env) (s u : State) (c : Fin 4) (x : Enc), u = s.arrive e → x = vget u.enc c →
    (u.islandUp = true → u.encSsi c = true → x.ssi = .idle → x.ssiStart + u.ssiPeriod c ≤ u.now →
      exec (.ssiFrameStart e c) s = .next (u.modEnc c (fun _ => { x with ssi := .waiting u.now, ssiStart := u.now }))) ∧
    (∀ t : Nat, x.ssi = .waiting t → u.now ≤ t + u.ssiTo c →
      exec (.ssiDataReady e c) s =
        .next ((u.modEnc c (fun _ => { x with ssi := .clocking u.now })).emit (.ssiClock c (u.ssiBits c + 1)))) ∧
    (∀ t : Nat, x.ssi = .waiting t → t + u.ssiTo c ≤ u.now → exec (.ssiTimeout e c) s = .next (u.ssiFail c 0x0708)) ∧
    (∀ (t : Nat) (v : BitVec 32) (low : Bool) (m : Nat) (d : Int) (y z : State), x.ssi = .clocking t →
      t + (u.ssiBits c + 1) * u.ssiClk c ≤ u.now → u.ssiGray c = false → m = v.toNat % 2 ^ u.ssiBits c →
      d = wrapN (u.ssiBits c) ((m : Int) - (x.ssiPrev.getD m : Nat)) →
      y = u.modEnc c (fun _ => { x with ssiPrev := some m, ssi := .idle }) →
      z = u.modEnc c (fun _ => { x with ssiPrev := some m, ssi := .idle, ssiErr := false }) →
      (low = false → exec (.ssiFrameDone e c v low) s = .next (y.ssiFail c 0x0709)) ∧
      (low = true → u.ssiMax c ≠ 0 → u.ssiMax c < d.natAbs →
        exec (.ssiFrameDone e c v low) s = .next (y.ssiFail c 0x070A)) ∧
      (low = true → u.ssiMax c = 0 ∨ d.natAbs ≤ u.ssiMax c → x.los = true ∨ d = 0 →
        exec (.ssiFrameDone e c v low) s = .next (z.after (u.now + 20)
          (.seen c { x.toEncVal with ssiErr := false } 0 false false false none))) ∧
      (low = true → u.ssiMax c = 0 ∨ d.natAbs ≤ u.ssiMax c → x.los = false → d ≠ 0 →
        exec (.ssiFrameDone e c v low) s = .next (z.encMove c d t true) ∧
        (vget (z.encMove c d t true).enc c).count = wrapN 48 (x.count + d))))

/-- Where a line boundary stands against a sample (05 R155-R158, R160), with the distance e past it in 2^−40 counts:
from 0 to one count past it is reached, its row trigger 0 fires 25 ticks after the edge; further past it is an overrun
line; before it, only an interpolated quadrature sample less than a count away reaches it, at the projected instant. -/
def Obligations.BoundariesReached : Prop :=
  ∀ (x : Seq) (m : Sample) (k d : Nat) (first : Bool) (p : Int), p = x.past m k d → m.ssi = false →
    (x.swBack = false → p = (m.count - x.swP0) * 2 ^ 40 - ((k * x.swPitch * 256 + d * x.swPitch : Nat) : Int)) ∧
    (0 ≤ p → p ≤ 2 ^ 40 → x.reach m k d first = .hit (m.at_ + 100)) ∧
    (2 ^ 40 < p → x.reach m k d first = .late) ∧
    (p < 0 → x.swNoInterp = true ∨ m.moving = false ∨ m.back ≠ x.swBack ∨ p ≤ -(2 ^ 40) → x.reach m k d first = .ahead) ∧
    (p < 0 → -(2 ^ 40) < p → x.swNoInterp = false → m.moving = true → m.back = x.swBack →
      x.reach m k d first = .hit (m.at_ + 100 + 4 * roundDiv (5 * ((-p).toNat / 256) * m.period) (4 * 2 ^ 32)))

/-- The lines of a swath: a sample 17 ticks old is taken by the placer; at its fire instant a line's row trigger 0 is
sent, once; a later row trigger is sent 8 ticks before its instant, the first line that it overlaps first; at a line's
read point, after the calibrations that end then, the commits and the health engine's changes that are due, every live
port of the swath reads it (04 R106-R108; 05 R156-R163; 06 R172-R177). Where none is due, nothing happens. -/
def Obligations.LinesArePlacedReadAndFired : Prop :=
  ∀ (e : Env) (s u : State) (q : Fin 16) (p : Fin 64), u = s.arrive e →
    (∀ (m : Sample) (l : List Sample), (vget u.place q).inq = m :: l → (vget u.seq q).swst = .opened → u.pws.gap = none →
      m.at_ + 68 + u.heldFrom m.at_ ≤ u.now →
      exec (.lineEvent e q) s = .next ((u.modPlace q (fun y => { y with inq := l })).takeSample q m false)) ∧
    ((vget u.place q).inq = [] → exec (.lineEvent e q) s = .next u) ∧
    (∀ d : Sched, (vget u.place q).sched.find? (fun d => !d.sent0) = some d → d.fireAt ≤ u.now + 32 → u.pws.gap = none →
      u.sameTick d.at_ = false →
      ∃ t, exec (.fireInstant e q) s = .next t ∧ ∀ y ∈ (vget t.place q).sched, y.line = d.line → y.sent0 = true) ∧
    ((vget u.place q).sched.find? (fun d => !d.sent0) = none → exec (.fireInstant e q) s = .next u) ∧
    (∀ (d d' : Sched) (r : Nat × Bool), u.rowBefore q p (u.now + 33) = some d → u.nextRow p d = some r →
      u.rowBefore q p (r.1 + 8) = some d' → u.pws.gap = none → (vget u.seq q).live.contains p.val = true →
      exec (.rowTrigger e q p) s = .next ((u.sendRow q p d').settleLines q)) ∧
    (∀ (d : Sched) (r : Nat × Bool) (k : Nat) (g : State × Bool), k = SMap.get d.next 1 p → d.sent0 = true →
      k < u.rowsOf p d.line → SMap.find d.rows (8 * p.val + k) = some r →
      g = u.fireSymbol q p d.line r.1 k (d.blank || r.2) false →
      u.sendRow q p d = (if g.2 = true ∧ d.counted = false then g.1.modSeq q (fun y => { y with nOther := y.nOther + 1 }) else g.1).modPlace
        q (fun y => { y with sched := y.sched.map (fun c => if c.line == d.line then { c with
            next := SMap.put c.next p (k + 1), counted := c.counted || g.2 } else c) })) ∧
    (u.rowBefore q p (u.now + 33) = none → exec (.rowTrigger e q p) s = .next u) ∧
    (u.calFirst.readDue q = none → exec (.readPoint e q) s = .next u.calFirst) ∧
    (∀ (n : Nat) (n0 : LnEntry) (l : List LnEntry) (v y : State) (r : State × Bool × Bool), u.calFirst.readDue q = some n →
      v = (u.calFirst.boundary q n).healthNow → (vget v.seq q).lnq = n0 :: l → (vget v.seq q).underrun = none →
      y = (v.modSeq q (fun z => { z with readLn := some n })).each (vget v.seq q).swPorts
        (fun z i => (z.noteRead i).modRing i (fun g => { g with readDone := some n })) →
      r = (vget v.seq q).live.foldl (fun (a : State × Bool × Bool) i =>
        ((a.1.readPort q n n0 i).1, a.2.1 || (a.1.readPort q n n0 i).2.1, a.2.2 || (a.1.readPort q n n0 i).2.2)) (y, false, false) →
      (r.2.1 = true → exec (.readPoint e q) s = .next (r.1.modSeq q (fun z => { z with nLate := z.nLate + 1, otherLn := some n }))) ∧
      (r.2.1 = false → r.2.2 = true → exec (.readPoint e q) s = .next (r.1.noteOther q n)) ∧
      (r.2.1 = false → r.2.2 = false → (vget v.seq q).gone = [] → exec (.readPoint e q) s = .next r.1))

/-- A stream reads its Caravan chain (04 R99, R100, R119-R121; 11 R349-R356): a descriptor with a bad CRC ends the
chain with 0x0208, one of type 1 leads to its extent; a bad index block is an error of code 0x040B and its walk ends;
a stream issues reads for what it wants; a walk fills the cache or stalls its stream; a read delivers its bytes, and a
failed one stalls the stream with HOSTERR. Control of a stream by the session that holds its port (04 R131, R132,
R135; 11 R356, R360): EN starts a stopped stream or stops it; a flush frees every slot and sets the base, and is
refused with 0x040D while a swath binds the port; CLRCNT clears the counts; START begins a chain where none is held,
KICK reads the tail's NEXT again, CANCEL discards the chain. Another session is refused with RIGHTS. -/
def Obligations.StreamsReadTheirChains : Prop :=
  (∀ (e : Env) (s u : State) (p : Fin 64) (x : Stream), u = s.arrive e → x = vget u.str p →
    (∀ va : Nat, x.step = .descriptor va → x.st = .fetch → 64 ≤ x.fetched.length →
      (crc32c (x.fetched.take 60) ≠ leAt x.fetched 60 4 →
        exec (.caravanDescriptor e p) s = .next ((u.postUnit p (u.lineRec p 0x0208 (u.strLine p))).strEnd p)) ∧
      (crc32c (x.fetched.take 60) = leAt x.fetched 60 4 → byteAt x.fetched 0 = 1 → byteAt x.fetched 1 < 2 →
        leAt x.fetched 2 2 = 0 → leAt x.fetched 8 8 < 2 ^ 48 → leAt x.fetched 8 8 % 16 = 0 → leAt x.fetched 28 8 < 2 ^ 48 →
        leAt x.fetched 28 8 % 64 = 0 → leAt x.fetched 36 24 = 0 → leAt x.fetched 16 4 % 16 = 0 → 48 ≤ leAt x.fetched 16 4 →
        leAt x.fetched 20 4 = 0 → leAt x.fetched 24 4 = 0 →
        ∀ d : Desc, d = Desc.mk va false (byteAt x.fetched 1 % 2 == 1) (leAt x.fetched 4 4) 0 0 (leAt x.fetched 28 8) →
        exec (.caravanDescriptor e p) s =
          .next ((u.modStr p (fun y => { y with desc := some d })).strGo p (.extent (leAt x.fetched 8 8) (leAt x.fetched 16 4)) .fetch))) ∧
    (∀ (va : Nat) (d : Desc), x.step = .indexBlock va → x.desc = some d → x.st = .fetch → 4096 ≤ x.fetched.length →
      leAt x.fetched 0 4 ≠ 0x58444944 → exec (.indexBlock e p) s = .next ((u.strErr p 0x040B d.s).strConsume p true)) ∧
    (∀ (y : State) (n base want : Nat), y = u.strSettle p → y.holder p = some n → y.strWant p = some (base, want) →
      exec (.streamFetch e p) s = .next (y.issue p n base want 64)) ∧
    (∀ (z y : State) (w : Walk) (l : List Walk) (h : DmaEnd), u.xlt.walks = w :: l →
      z = (u.modXlt (fun z => { z with walks := l })).walkGrant →
      y = (if (z.ses w.session).net = true ∨ h = .ok then z else z.emit (.aer (z.ses w.session).fn h)) →
      (∀ t : TlbEntry, y.walk w.session w.va w.write (h == .ok) = .ok t →
        exec (.tableWalkDone e h) s = .next (y.tlbUse t)) ∧
      (∀ (c : WalkErr) (i : Nat), y.walk w.session w.va w.write (h == .ok) = .error c → w.asker = .stream i →
        (y.strWant i).isSome = true → exec (.tableWalkDone e h) s = .next (y.strStall i w.session w.va c))) ∧
    (∀ (r : DmaRead) (l : List DmaRead), x.reads = r :: l → r.dead = false → r.dram = false →
      exec (.dmaReadCompletion e p .ok) s = .next ((u.modStr p (fun y => { y with
        reads := l, fetched := y.fetched ++ memRead (vget u.hostMem r.fn) r.addr r.len, lastByte := u.now })).strSettle p) ∧
      ∀ (n : Nat) (h : DmaEnd), u.holder p = some n → h ≠ .ok →
        exec (.dmaReadCompletion e p h) s =
          .next (((u.modStr p (fun y => { y with reads := l })).emit (.aer r.fn h)).strStall p n r.va (0x0206, none)))) ∧
  (∀ (e : Env) (s u : State) (p : Fin 64) (x : Stream) (w : Writer) (n : Nat), u = s.arrive e → x = vget u.str p →
    u.phase = .ready → u.writer w = some n →
    (u.holds n p = false → ∀ en h : Bool, exec (.streamEn e w p en h) s = .next (u.refuse n 0x0102 p).1) ∧
    (u.holds n p = true →
      (∀ h : Bool, x.st = .stopped → exec (.streamEn e w p true h) s = .next (u.modStr p (fun _ => { x with
        en := true, haltErr := h, st := if x.chain = 1 then .fetch else .idle }))) ∧
      (∀ h : Bool, x.st = .idle ∨ x.st = .stopped ∨ x.st = .fetch ∨ x.st = .waitRing ∨ x.st = .waitEng →
        exec (.streamEn e w p false h) s = .next (u.modStr p (fun _ => { x with
          en := false, haltErr := h, st := .stopped, dune := none, fetched := [], issued := 0,
          reads := x.reads.map (fun r => { r with dead := true }) }))) ∧
      (∀ va : BitVec 42, x.chain = 0 → x.st = .idle → exec (.caravanStart e w p va) s = .next (u.modStr p (fun _ => { x with
        chain := 1, startVa := va.toNat * 64, consumed := false, fetchAgain := false, step := .descriptor (va.toNat * 64),
        st := .fetch, dune := none, fetched := [], issued := 0, reads := x.reads.map (fun r => { r with dead := true }) }))) ∧
      (∀ va : BitVec 42, x.chain ≠ 0 → exec (.caravanStart e w p va) s = .next u) ∧
      (x.chain = 1 → exec (.caravanKick e w p) s = .next (u.modStr p (fun _ => { x with fetchAgain := true }))) ∧
      (x.chain = 2 → x.consumed = true → x.st = .idle → exec (.caravanKick e w p) s = .next (u.modStr p (fun _ => { x with
        chain := 1, step := .next, st := .fetch, dune := none, fetched := [], issued := 0,
        reads := x.reads.map (fun r => { r with dead := true }) }))) ∧
      (x.st ≠ .decode → exec (.caravanCancel e w p) s = .next (u.modStr p (fun _ => { x with
        chain := 0, fetchAgain := false, consumed := false, desc := none, entry := none, block := [], step := .none,
        st := if x.en then .idle else .stopped, dune := none, fetched := [], issued := 0,
        reads := x.reads.map (fun r => { r with dead := true }) })))) ∧
    (u.holds n p = true → writerAuth w = true →
      (∀ b : BitVec 32, u.portOpen p = false → x.st ≠ .decode → exec (.ringFlush e w p b false) s = .next
        ((u.modRing p (fun r => { r with base := b.toNat, slots := [], readDone := none, bad := [] })).modStr p
          (fun _ => { x with lastLine := none, fresh := true }))) ∧
      (∀ (b : BitVec 32) (k : Bool), u.portOpen p = true → exec (.ringFlush e w p b k) s = .next (u.refuse n 0x040D p).1) ∧
      exec (.ldpClrcnt e w p) s = .next (u.modStr p (fun _ => { x with
        late := 0, lateArr := 0, duneErr := 0, ringUe := 0, subLost := 0, skipped := 0, slow := 0 }))) ∧
    (writerAuth w = false → exec (.ldpClrcnt e w p) s = .next (u.postErr n 0x010A 0)))

/-- A Dune on its way to the ring (04 R98, R99, R103, R104, R112, R117, R122-R124): its header is checked, and the
first check it fails drops it with that check's code; an engine that is free goes to the next requesting stream in
rotation, whose slots become PENDING; when the engine is done, the decoded lines go to the ring together, or the Dune
is dropped with its decoding error; without input for 2,048 ticks the engine abandons it with 0x040C; an uncorrectable
error of the engine's dictionary abandons it with 0x0410 and discards it the second time. A flush in the tick of VALID
and a byte in that of starvation win (04 R130). A stored Dune decodes to its payload where its CRC holds and raises
0x0404 where it does not (04 R113, R117). -/
def Obligations.DunesReachTheRing : Prop :=
  (∀ (e : Env) (s u : State) (p : Fin 64) (x : Stream), u = s.arrive e → x = vget u.str p →
    (∀ pos left : Nat, x.step = .extent pos left → x.st = .fetch → x.dune = none → 32 ≤ left → 32 ≤ x.fetched.length →
      (∀ (c : Nat) (rest : Bool), u.duneCheck p x.fetched (duneOf pos x.fetched) (some left) x.entry = some (c, rest) →
        exec (.duneHeader e p) s = .next (u.dropDune p c (duneOf pos x.fetched).first
          (if rest then 2 ^ 33 else (duneOf pos x.fetched).len))) ∧
      (u.duneCheck p x.fetched (duneOf pos x.fetched) (some left) x.entry = none → u.portOpen p = true →
        exec (.duneHeader e p) s = .next ((u.modStr p (fun y => { y with dune := some (duneOf pos x.fetched) })).strSettle p)) ∧
      (leAt x.fetched 0 4 ≠ 0x454E5544 →
        u.duneCheck p x.fetched (duneOf pos x.fetched) (some left) x.entry = some (0x0402, true))) ∧
    (∀ (g : Fin 16) (d : Dune), (vget u.eng g).owner = none → (vget u.eng g).out = false → (vget u.eng g).testing = none →
      (vget u.eng g).freeAt ≤ u.now →
      rotPick 64 u.engLast (fun i => (vget u.str i).st == .waitEng) = some p.val → x.dune = some d →
      (vget u.ring p).base < d.first + d.lines → (vget u.ring p).admits d.first d.lines = true →
      ∃ t, exec (.engineGrant e g) s = .next t ∧ vget t.eng g = { vget u.eng g with owner := some p.val, doneAt := u.now + 4 * d.ticks } ∧
        vget t.str p = { x with st := .decode, eng := g, lastByte := u.now } ∧ t.engLast = p ∧
        (∀ i : Fin 64, i ≠ p → vget t.str i = vget u.str i ∧ vget t.ring i = vget u.ring i) ∧
        (∀ i : Fin 16, i ≠ g → vget t.eng i = vget u.eng i) ∧ t.seq = u.seq ∧ t.enc = u.enc ∧ t.mem = u.mem ∧ t.dram = u.dram) ∧
    (∀ g : Fin 16, rotPick 64 u.engLast (fun i => (vget u.str i).st == .waitEng) = none →
      exec (.engineGrant e g) s = .next u) ∧
    (∀ d : Dune, x.dune = some d → x.st = .decode → 32 + d.clen ≤ x.fetched.length → (vget u.eng x.eng).doneAt ≤ u.now →
      (u.flushComes p = true → exec (.duneDecodeDone e p) s = .next u) ∧
      (∀ c : Nat, u.flushComes p = false → d.decode ((x.fetched.drop 32).take d.clen) = .error c →
        exec (.duneDecodeDone e p) s = .next ((((u.engFree p u.now).modRing p (fun r => r.drop (fun y => y.st == .pending))).strAccept
          p d).dropDune p c d.first d.len)) ∧
      (∀ (o : List Byte) (y : State), u.flushComes p = false → d.decode ((x.fetched.drop 32).take d.clen) = .ok o →
        y = ((((u.engFree p u.now).each (List.range d.lines) (fun y i => y.ringStore p d o i)).strAccept p d).modStr p
          (fun z => { z with doneAt := u.now, doneFirst := d.first, doneLines := d.lines })) →
        (d.slow = false → exec (.duneDecodeDone e p) s = .next ((y.strAdvance p d.len).strStop p false)) ∧
        (d.slow = true → ∀ z : State, z = y.modStr p (fun z => { z with slow := satAdd 16 z.slow 1 }) →
          exec (.duneDecodeDone e p) s =
            .next (((z.postUnit p (z.lineRec p 0x040A d.first)).strAdvance p d.len).strStop p false)))) ∧
    (∀ d : Dune, x.dune = some d → x.st = .decode →
      (x.fetched.length < 32 + d.clen → x.lastByte + 8192 + u.heldFrom x.lastByte ≤ u.now → u.byteComes p = false →
        exec (.engineAbandon e p false) s = .next ((u.strErr p 0x040C d.first).strAbandon p)) ∧
      (u.byteComes p = true ∨ u.now < x.lastByte + 8192 → exec (.engineAbandon e p false) s = .next u) ∧
      (x.engEcc = 0 → exec (.engineAbandon e p true) s =
        .next (((u.strErr p 0x0410 d.first).strAbandon p).modStr p (fun y => { y with engEcc := 1 }))) ∧
      (x.engEcc ≠ 0 → exec (.engineAbandon e p true) s = .next ((((((u.strErr p 0x0410 d.first).engDrop p).strAccept p d).modStr p
        (fun y => { y with duneErr := satAdd 16 y.duneErr 1 })).strAdvance p d.len).strStop p true)))) ∧
  (∀ (d : Dune) (b : List Byte), d.stored = true →
    (crc32c b = d.ucrc → d.decode b = .ok b) ∧ (crc32c b ≠ d.ucrc → d.decode b = .error 0x0404))

/-- A host's motion command by the session that holds the axis, written with AUTH (10 R314-R320, R328; 11 R339):
accepted, it takes effect at the next STEPCLK edge, and CMDSTAT reports DONE with no error; refused by a rule, it
leaves the axis's motion as it was and reports its code, also as a record; a write without the claim is refused with
0x0804. At its edge a `vel` and an `acc` set the velocity and the acceleration in force, a `stop` begins a ramp to
standstill, a `move` starts a move from standstill, `home` with selection 0 takes the position as HOMEPOS and another
selection begins an approach; on an axis that is HELD or DISABLED by then it has no effect. Enabling a disabled axis
makes it IDLE (HELD while a cause holds its outputs); disabling one at standstill makes it DISABLED, not HOMED, with
no queued move; one that moves, or has a command on its way, refuses with MOVING; releasing a held axis whose cause is
gone makes it IDLE (10 R321, R328; 17 R490). -/
def Obligations.HostMotionCommands : Prop :=
  ((∀ (e : Env) (w : Writer) (a : Fin 8) (s u : State) (n : Nat) (d : BitVec 48) (v : BitVec 32) (sel : Fin 4),
    u = s.arrive e → u.phase = .ready → u.writer w = some n → writerAuth w = true → (vget u.ax a).cmdBusy = false →
    (u.holds n (uAx a) = true →
      u.HostCommands n a (.move false d.toInt) (exec (.motCmdMove e w a d) s) ∧
      u.HostCommands n a (.move true d.toInt) (exec (.motCmdMoveA e w a d) s) ∧
      u.HostCommands n a (.vel v.toNat) (exec (.motCmdVel e w a v) s) ∧
      u.HostCommands n a (.acc v.toNat) (exec (.motCmdAcc e w a v) s) ∧
      u.HostCommands n a .stop (exec (.motCmdStop e w a) s) ∧
      u.HostCommands n a (.home sel) (exec (.motCmdHome e w a sel) s)) ∧
    (u.holds n (uAx a) = false → ∀ cmd : Instr,
      cmd ∈ [.motCmdMove e w a d, .motCmdMoveA e w a d, .motCmdVel e w a v, .motCmdAcc e w a v, .motCmdStop e w a,
        .motCmdHome e w a sel, .axisEn e w a, .axisDis e w a, .axisRelease e w a] →
      exec cmd s = .next (u.postErr n 0x0804 a))) ∧
  ∀ (u : State) (a : Fin 8) (x : Axis) (v lead : Nat) (d : Int), x = vget u.ax a → lead = u.stepCyc + u.axDirSu a →
    (x.st = .held ∨ x.st = .disabled → ∀ m : MotOp, u.happen (.motion a m) = u) ∧
    (x.st ≠ .held → x.st ≠ .disabled →
      u.happen (.motion a (.vel v)) = u.modAx a (fun _ => { x with
        vel := v, st := if x.st == .cruise && x.v != v * 65536 then .accel else x.st }) ∧
      (x.st ≠ .decel → u.happen (.motion a (.acc v)) = u.modAx a (fun _ => { x with acc := v, accNext := none })) ∧
      (x.st = .decel → u.happen (.motion a (.acc v)) = u.modAx a (fun _ => { x with accNext := some v })) ∧
      (x.st = .accel ∨ x.st = .cruise → x.atEnd = false → u.happen (.motion a .stop) = u.modAx a (fun _ => { x with
        queued := none, st := .decel, stopping := true })) ∧
      (x.moving = false → d ≠ x.pos → u.happen (.motion a (.move true d)) = u.modAx a (fun _ => { x with
        st := .accel, back := decide (d < x.pos), riseFrom := if decide (d < x.pos) = x.back then x.riseFrom else max x.riseFrom lead,
        target := d, floor := min (u.axVstart a) x.vel, v := min (u.axVstart a) x.vel * 65536, stopping := false,
        travelled := 0 })) ∧
      (x.moving = false → d ≠ 0 →
        u.happen (.motion a (.move false d)) = u.happen (.motion a (.move true (x.pos + d)))) ∧
      u.happen (.motion a (.home 0)) = u.modAx a (fun _ => { x with pos := u.axHomePos a, homed := true }) ∧
      (v ≠ 0 → x.moving = false → ∀ dist : Int, dist = (if u.homeBack a then -(u.homeDist a : Int) else u.homeDist a) →
        u.happen (.motion a (.home v)) = u.modAx a (fun _ => { x with
          st := .homing, homed := false, homeSeq := v, leg := .first, back := u.homeBack a,
          riseFrom := if u.homeBack a = x.back then x.riseFrom else max x.riseFrom lead,
          floor := min (u.axVstart a) (u.homeVel a), v := min (u.axVstart a) (u.homeVel a) * 65536, stopping := false,
          slow := false, travelled := 0, zPos := none, target := x.pos + dist })))) ∧
  (∀ (e : Env) (w : Writer) (a : Fin 8) (s u : State) (n : Nat) (x : Axis),
    u = s.arrive e → x = vget u.ax a → u.phase = .ready → u.writer w = some n → writerAuth w = true →
    u.holds n (uAx a) = true →
    (x.st = .disabled → exec (.axisEn e w a) s = .next (u.modAx a (fun _ => { x with
      st := if u.axCause a then .held else .idle, phase := 0, lvlAt := none, riseAt := none, stepsDue := 0 }))) ∧
    (x.st ≠ .disabled → exec (.axisEn e w a) s = .next u) ∧
    (x.moving = false → u.axAwaits a = [] → exec (.axisDis e w a) s = .next (u.modAx a (fun _ => { x with
      st := .disabled, homed := false, queued := none, level := 0, stepsDue := 0,
      stillAt := if x.queued = none then x.stillAt else u.now }))) ∧
    (x.moving = true ∨ u.axAwaits a ≠ [] →
      exec (.axisDis e w a) s = .next ((u.modAx a (fun x => { x with err := 0x0801 })).postErr n 0x0801 a)) ∧
    (x.st = .held → u.axCause a = false → exec (.axisRelease e w a) s = .next (u.modAx a (fun _ => { x with
      st := .idle, causes := [] }))) ∧
    (x.st = .held → u.axCause a = true →
      exec (.axisRelease e w a) s = .next ((u.modAx a (fun x => { x with err := 0x0807 })).postErr n 0x0807 a)) ∧
    (x.st ≠ .held → exec (.axisRelease e w a) s = .next u))

/-- The phases of a move (10 R309, R311, R313, R317, R320): CRUISE at the velocity in force, the ramp down where the
rest is at most the braking distance, one microstep level up or down at a phase-aligned point after the STEP pulse has
fallen, standstill at the target, the position at the Z edge of a homing approach becoming HOMEPOS, and the failure of
an approach that meets no Z edge; an edge that has arrived wins. -/
def Obligations.AxisPhases : Prop :=
  ∀ (e : Env) (a : Fin 8) (s u : State) (x : Axis), u = s.arrive e → x = vget u.ax a →
    (x.st = .accel → x.v = x.vel * 65536 → exec (.cruise e a) s = .next (u.modAx a (fun _ => { x with st := .cruise }))) ∧
    (x.stopping = false → x.left ≤ x.braking x.acc →
      (x.st = .accel ∨ x.st = .cruise → exec (.decelStart e a) s = .next (u.modAx a (fun _ => { x with st := .decel }))) ∧
      (x.st = .homing → x.homeSeq = 1 ∨ x.leg = .back →
        exec (.decelStart e a) s = .next (u.modAx a (fun _ => { x with slow := true })))) ∧
    (x.moving = true → u.axAligned a = true →
      (x.level < 3 → u.axThRaw a (x.level + 1) ≠ 0 → u.axThRaw a (x.level + 1) * 4096 ≤ x.v / 65536 →
        exec (.microstepSwitch e a) s = .next (u.modAx a (fun _ => { x with
          level := x.level + 1, lvlAt := some x.risePhase, riseFrom := max x.riseFrom (u.stepCyc + u.axDirSu a + 1) }))) ∧
      (x.level = 3 ∨ u.axThRaw a (x.level + 1) = 0 ∨ x.v / 65536 < u.axThRaw a (x.level + 1) * 4096 → 0 < x.level →
        x.v / 65536 < (u.axThRaw a x.level - u.axThRaw a x.level / 20) * 4096 →
        exec (.microstepSwitch e a) s = .next (u.modAx a (fun _ => { x with
          level := x.level - 1, lvlAt := some x.risePhase, riseFrom := max x.riseFrom (u.stepCyc + u.axDirSu a + 1) })))) ∧
    (x.moving = false ∨ u.axStep a = true → exec (.microstepSwitch e a) s = .next u) ∧
    (x.st = .decel → x.stopping = false → x.pos = x.target → x.queued = none →
      exec (.moveEnd e a) s = .next (u.modAx a (fun _ => { x with
        st := .idle, v := 0, stopping := false, zPos := none, acc := x.accNext.getD x.acc, accNext := none, stillAt := u.now }))) ∧
    (∀ (c : Fin 4) (v : State), v = u.happen (.zedge c) → x.st = .homing → 2 ≤ x.homeSeq → x.stopping = false →
      u.rf (0x03500240 + 8 * a) 2 1 = c → x.zPos = none → vget v.ax a = { x with zPos := some x.pos }) ∧
    (∀ z : Int, x.st = .homing → x.homeSeq = 2 → x.leg = .first → x.stopping = false → x.zPos = some z →
      exec (.homeIndex e a) s = .next (u.modAx a (fun _ => { x with
        pos := u.axHomePos a + (x.pos - z), stopping := true, zPos := none, leg := .final })) ∧
      exec (.homeFail e a) s = .next u) ∧
    (x.zPos = none → exec (.homeIndex e a) s = .next (u.modAx a (fun _ => x))) ∧
    (x.st = .homing → x.homeSeq = 2 → x.leg = .first → x.stopping = false → u.homeDist a ≤ x.travelled → x.zPos = none →
      exec (.homeFail e a) s = .next ((u.modAx a (fun _ => { x with
        st := .decel, stopping := true, homed := false, homeSeq := 0, err := 0x0806 })).postUnit (uAx a) (u.ev 2 0x0806 a)))

/-- Whatever the command, time passes first: LCLK and device time advance, a moving axis runs one cycle of the rate
multiplier for each 10 ns, an axis at standstill with no step left does not move, and in a switch-over gap STEPCLK
does not run; a position changes by one unit at a carry of the 32-bit accumulator, and a step rises DIRSU cycles after
DIR and once the pulse before it has been low for STEPW cycles (10 R307-R309, R322; 14 R421). What is on its way may
change more. -/
def Obligations.TimePassesAndAxesMove : Prop :=
  ∀ (e : Env) (s : State),
    (s.arrive e).now = s.now + e.dt ∧
    (s.Calm → s.phase = .ready → s.pws.gap = none → (s.arrive e).tim = s.tim.advance s.ticks (s.arrive e).ticks) ∧
    (s.Calm → ∀ a : Fin 8, (vget s.ax a).moving = false → (vget s.ax a).stepsDue = 0 → vget (s.arrive e).ax a = vget s.ax a) ∧
    (s.Calm → ∀ a : Fin 8, (vget s.ax a).moving = true → vget (s.arrive e).ax a = (vget s.ax a).cycles (s.homeVel a) (s.axRes a)
      (s.axStepW a) ((s.arrive e).stepCyc - s.stepCyc) s.stepCyc) ∧
    (s.pws.gap = none → s.Calm → s.gapTime = 0 → (s.arrive e).stepCyc = (s.now + e.dt) / 50) ∧
    (s.Calm → s.pws.gap.isSome = true → (s.arrive e).stepCyc = s.stepCyc ∧ ∀ a : Fin 8, vget (s.arrive e).ax a = vget s.ax a) ∧
    (∀ (hv r w k : Nat) (x : Axis), (x.cycle hv r w k).pos = x.pos ∨ (x.cycle hv r w k).pos = x.pos + 1 ∧ x.back = false ∨
      (x.cycle hv r w k).pos = x.pos - 1 ∧ x.back = true) ∧
    (∀ (hv r w k : Nat) (x : Axis), x.atEnd = false → 2 ^ 32 ≤ x.accum + x.v / 65536 →
      (x.cycle hv r w k).pos = x.pos + (if x.back then -1 else 1)) ∧
    (∀ (r w k : Nat) (x : Axis), (x.rise r w k).pos = x.pos ∧ (k < x.riseFrom → x.rise r w k = x) ∧
      (∀ j : Nat, x.riseAt = some j → k < j + 2 * w → x.rise r w k = x))

/-- The high-voltage enables (06 R200, R205): a write of ON for a group rises HVEN of the group where SAFE_n has been
high for 10 ms with no cause in force, every port of the group has fresh telemetry of a cool head, and the writer
holds its eight ports or is the Steward; else HV_REFUSED is posted with the failed condition. OFF drops the named
groups and their ports' enables. HVSETTLE after the rise the group is settled. -/
def Obligations.HighVoltageEnables : Prop :=
  ∀ (e : Env) (w : Writer) (s u : State) (n : Nat) (g : Fin 8), u = s.arrive e →
    (u.phase = .ready → u.writer w = some n → writerAuth w = true → u.acting n = true →
      (∀ on : Fin 256, on.val = 2 ^ g.val → u.hvRefusal g n = 0 → vget u.fire.hven g = false → u.safe.tmax.testBit g = false →
        exec (.hvctlOn e w on) s = .next { u with
          fire := { u.fire with hven := vset u.fire.hven g true, roseAt := vset u.fire.roseAt g u.now } }) ∧
      (∀ on : Fin 256, on.val = 2 ^ g.val → u.hvRefusal g n ≠ 0 →
        exec (.hvctlOn e w on) s = .next (u.postErr n 0x0507 g (wd (u.hvRefusal g n)))) ∧
      ∀ m : Fin 256, exec (.hvctlOff e w m) s = .next { u with
        fire := { u.fire with
          hven := Vector.ofFn (fun h : Fin 8 => vget u.fire.hven h && !m.val.testBit h),
          hvok := Vector.ofFn (fun h : Fin 8 => vget u.fire.hvok h && !m.val.testBit h) },
        fp := Vector.ofFn (fun p : Fin 64 => { vget u.fp p with
          hv := (vget u.fp p).hv && !m.val.testBit (p.val / 8) }) }) ∧
    (vget u.fire.hven g = true → vget u.fire.roseAt g + u.hvSettle * qMs ≤ u.now →
      exec (.hvsettleExpiry e g) s = .next { u with fire := { u.fire with hvok := vset u.fire.hvok g true } })

/-- SAFE_n asserted drops every HVEN, blanks every port's enable, holds every axis that is enabled, sets SAFESTAT and
SAFELATCH bit 24; its release of 10 ms clears the SAFESTAT bit and leaves the groups down (06 R201; 17 R490, R491).
Contexts (but for T where a camera request of this tick is refused after all), swaths, rings, streams, encoders,
heads, links and memories are untouched. -/
def Obligations.SafeInput : Prop :=
  ∀ (e : Env) (s u : State), u = s.arrive e →
    (u.fire.safeIn = false → ∃ t, exec (.safeNAssert e) s = .next t ∧
      t.fire.safeIn = true ∧ t.fire.safeHighAt = none ∧ (∀ g : Fin 8, vget t.fire.hven g = false ∧ vget t.fire.hvok g = false) ∧
      (∀ p : Fin 64, vget t.fp p = { vget u.fp p with hv := false }) ∧
      (∀ a : Fin 8, (vget u.ax a).st ≠ .disabled → (vget t.ax a).st = .held ∧ (vget t.ax a).v = 0) ∧
      t.safe = { u.safe with safeN := true, latch := u.safe.latch ||| 2 ^ 24 } ∧
      t.seq = u.seq ∧ (∀ (q : Fin 16) (c : Fin 64), { t.ctxOf q c with t := (u.ctxOf q c).t } = u.ctxOf q c) ∧
      t.str = u.str ∧ t.ring = u.ring ∧ t.eng = u.eng ∧ t.enc = u.enc ∧ t.place = u.place ∧
      t.kl = u.kl ∧ t.head = u.head ∧ t.dram = u.dram ∧ t.hostMem = u.hostMem ∧ t.mgt = u.mgt ∧ t.mem = u.mem ∧ t.tim = u.tim ∧
      t.pws = u.pws ∧ t.cal = u.cal ∧ t.nv = u.nv) ∧
    (u.fire.safeIn = true → ∃ t, exec (.safeNRelease e) s = .next t ∧
      t.fire = { u.fire with safeIn := false, safeHighAt := some (u.now - 10 * qMs) } ∧ t.safe = { u.safe with safeN := false } ∧
      t.fp = u.fp ∧ t.ax = u.ax ∧ t.seq = u.seq ∧ t.ctx = u.ctx ∧ t.kl = u.kl ∧ t.dram = u.dram ∧ t.mgt = u.mgt)

/-- A telemetry frame without the head's FAULT gives FIR its sample (06 R188, R197-R199; 07 R232): temperature, supply
and time are kept, the head's status enters PORTSTAT, a temperature of TLIM or more makes the port HOT, one of TMAX or
more drops the group and sets its TMAX cause, a sample without a temperature leaves the target band. A silence of
TELTO makes the telemetry stale (R186). -/
def Obligations.TelemetryActs : Prop :=
  ∀ (e : Env) (p : Fin 64) (rx : List Nat) (m : Telem) (s u : State), u = s.arrive e →
    ((vget u.kl p).receives = true → readUp rx = .frame (.telem m) → m.fault = false →
      ∃ t, exec (.telemetryFrame e p rx) s = .next t ∧
      (vget t.fp p).vsup = m.vsup ∧ (vget t.fp p).lastTel = some u.now ∧
      (vget t.fp p).htemp = (telemTemp m).getD (vget u.fp p).htemp ∧ (vget t.fp p).tempValid = (telemTemp m).isSome ∧
      (vget t.fp p).stale = (telemTemp m).isNone ∧
      (vget t.kl p).dseq = m.dseq ∧ (vget t.kl p).doubt = m.doubt ∧ (vget t.kl p).hbank = (m.liveBank % 2 == 1) ∧
      (vget t.kl p).miss = satAdd 16 (vget u.kl p).miss (countRise (vget u.kl p).prevMiss m.missCnt) ∧
      (vget t.kl p).downErr = satAdd 16 (vget u.kl p).downErr (countRise (vget u.kl p).prevDerr m.derr) ∧
      (∀ h : Int, telemTemp m = some h → 16 * u.firTLIM p ≤ h → (vget t.fp p).hot = true) ∧
      (∀ h : Int, telemTemp m = some h → 16 * u.firTMAX p ≤ h →
        (vget t.fp p).hot = true ∧ vget t.fire.hven (p.val / 8) = false ∧ t.safe.tmax.testBit (p.val / 8) = true) ∧
      (telemTemp m = none → (vget t.fp p).target = (vget u.fp p).target ∧ t.fire = u.fire ∧ t.safe = u.safe) ∧
      t.seq = u.seq ∧ t.ctx = u.ctx ∧ t.str = u.str ∧ t.ring = u.ring ∧ t.enc = u.enc ∧ t.place = u.place ∧ t.head = u.head ∧
      t.ax = u.ax ∧ t.dram = u.dram ∧ t.mgt = u.mgt ∧ t.mem = u.mem ∧
      ∀ r : Fin 64, r ≠ p → vget t.kl r = vget u.kl r) ∧
    (u.telStale p = true → exec (.teltoExpiry e p) s = .next (u.modFp p (fun f => { f with stale := true })))

/-- Pushes (06 R189-R196): a band change starts a push into the free inactive bank; the load reads the band from the
region in force; each table frame that fits starts once, counts an attempt and awaits its acknowledgement; the last
acknowledgement of a push whose band is still the target makes the staged copy live in its bank; a frame
unacknowledged for 50 µs is sent again; 1 ms after a failure the push starts again. -/
def Obligations.PushesOfTheWidthTable : Prop :=
  ∀ (e : Env) (p : Fin 64) (s u : State) (f : FirePort) (y : Push), u = s.arrive e → f = vget u.fp p →
    (u.pushWanted p = some .band → f.push = none → f.bankFree (1 - f.bank) u.now = true →
      exec (.pushStart e p) s = .next (u.modFp p (fun _ => { f with
        staged := [], stagedBad := [], retryAt := none,
        push := some { why := .band, band := f.target, bank := 1 - f.bank, since := u.now } }))) ∧
    (f.push = some y → y.loaded = false → y.newBase = none → y.why ≠ .release → bit (u.reg (etBase p)) 0 = true →
      (u.bandBad f.pins y.band = false → ∀ r : State × List Nat, r = u.sramWrite (Config.energyIndex p !f.copy) 16384 →
        exec (.bandLoadDone e p) s = .next (r.1.modFp p (fun _ => { f with
          staged := u.loadBand f.pins y.band, stagedBad := r.2, push := some { y with loaded := true } }))) ∧
      (u.bandBad f.pins y.band = true → exec (.bandLoadDone e p) s = .next (u.pushFail p))) ∧
    (∀ i : Nat, f.push = some y → y.nextFrame = some i → (vget u.kl p).st ∈ [.ready, .push, .cal] →
      u.gapFits p 2070 = true → u.ctlReady p = false ∨ (vget u.kl p).slotLast = 1 → f.stagedBad = [] → ∃ t, exec (.tableFrameSend e p) s = .next t ∧
        (vget t.fp p).push = some { y with frames := vmod y.frames i (fun w => { w with
          attempts := w.attempts + 1, sentAt := some (t.laneFree p) }) } ∧
        (vget t.kl p).seqNo = ((vget u.kl p).seqNo + 1) % 65536 ∧ (vget t.kl p).slotLast = 0 ∧
        t.fp = vset u.fp p (vget t.fp p) ∧ t.kl = vset u.kl p (vget t.kl p)) ∧
    (∀ (i : Fin 64) (rx : List Nat) (a : Ack), readUp rx = .frame (.ack a) → f.push = some y → y.why = .band → f.target = y.band → y.loaded = true → y.done = false →
      f.stagedBad = [] → a.bank = y.bank → a.index = i → a.status = 0 → (vget y.frames i).acked = false →
      (vget y.frames i).attempts ≠ 0 → (∀ j : Fin 64, j ≠ i → (vget y.frames j).acked = true) → (vget u.kl p).st = .ready →
      ∃ t, exec (.ackFrame e p rx) s = .next t ∧ (vget t.fp p).live = f.staged ∧ (vget t.fp p).band = y.band ∧
        (vget t.fp p).bank = y.bank ∧ (vget t.fp p).push = none ∧ (vget t.kl p).lastUp = some u.now ∧
        t.fp = vset u.fp p (vget t.fp p) ∧ t.kl = vset u.kl p (vget t.kl p)) ∧
    (∀ (i : Fin 64) (a : Nat), f.push = some y → (vget y.frames i).sentAt = some a → u.due a (50 * qUs) = true →
      (vget y.frames i).attempts < 4 → (∀ j : Fin 64, j < i → (vget y.frames j).sentAt = none) →
      exec (.ackTimeout e p) s = .next (u.modFp p (fun _ => { f with
        push := some { y with frames := vmod y.frames i (fun w => { w with sentAt := none }) } }))) ∧
    (∀ a : Nat, f.retryAt = some a → a ≤ u.now →
      exec (.pushRetry e p) s = .next ((u.modFp p (fun f => { f with retryAt := none })).pushStart p))

/-- The bring-up of a port (07 R240, R248): UP takes a port that is DOWN or in FAULT to WAKE with SEQ 0; the wake's
end begins the identification; its response is taken up and leads to CONFIG, and 1 µs after DROP to PUSH; a WAKE of
500 µs or an IDENT of 50 µs fails with FAULTDET 1 or 2; AUTO tries again after 100 ms; DOWN acts in every state. -/
def Obligations.PortBringUp : Prop :=
  ∀ (e : Env) (w : Writer) (p : Fin 64) (s u : State) (n : Nat) (k : KlPort), u = s.arrive e → k = vget u.kl p →
    (u.phase = .ready → u.writer w = some n → writerAuth w = true → u.holds n p = true →
      ((k.st = .down ∨ k.st = .fault) → u.klTXEN p = true → ∃ t, exec (.portUp e w p) s = .next t ∧
        (vget t.kl p).st = .wake ∧ (vget t.kl p).since = u.now ∧ (vget t.kl p).seqNo = 0 ∧ (vget t.kl p).lane = [] ∧
        (u.klCTLEFRZ p = false → bits (vget t.kl p).rxeq 4 0 = 8) ∧ ∀ r : Fin 64, r ≠ p → vget t.kl r = vget u.kl r) ∧
      (∃ t, exec (.portDown e w p) s = .next t ∧ (vget t.kl p).st = .down ∧ (vget t.kl p).since = u.now ∧
        (vget t.head p).aligned = false ∧ (vget t.fp p).push = none ∧ (vget t.kl p).acc = none ∧
        ∀ r : Fin 64, r ≠ p → vget t.kl r = vget u.kl r ∧ vget t.head r = vget u.head r ∧ vget t.fp r = vget u.fp r)) ∧
    (k.st = .wake → ∃ t, exec (.wakeDone e p) s = .next t ∧ (vget t.kl p).st = .ident ∧ (vget t.kl p).since = u.now ∧
      (vget t.kl p).acc = some { addr := 0, len := 6, id := k.nextId, host := false } ∧
      ∀ r : Fin 64, r ≠ p → vget t.kl r = vget u.kl r) ∧
    (k.st = .wake → k.since + 500 * qUs + u.heldFrom k.since ≤ u.now → exec (.wakeTimeout e p) s = .next ((u.hregLost p).portFault p 1)) ∧
    (k.st = .ident → k.since + 50 * qUs + u.heldFrom k.since ≤ u.now → exec (.identTimeout e p) s = .next ((u.hregLost p).portFault p 2)) ∧
    (k.st = .config → k.since + qUs + u.heldFrom k.since ≤ u.now → exec (.configDone e p) s =
      .next ((u.modKl p (fun _ => { k with st := .push, since := u.now })).pushStart p)) ∧
    (k.st = .fault → u.klAUTO p = true → u.klTXEN p = true → k.since + 100 * qMs + u.heldFrom k.since ≤ u.now →
      ∃ t, exec (.portAutoRetry e p) s = .next t ∧ (vget t.kl p).st = .wake ∧ (vget t.kl p).since = u.now) ∧
    (∀ (h : HeadAcc) (rx : List Nat) (r : Resp), readUp rx = .frame (.resp r) → k.st = .ident → k.acc = some h → h.host = false → h.sentAt.isSome = true → r.id = h.id →
      r.write = h.write → r.addr = h.addr → r.status = 0 →
      bits (wd (leAt r.data 0 8)) 47 32 ≠ 0 → bits (wd (leAt r.data 0 8)) 47 32 ≤ 8192 → bits (wd (leAt r.data 0 8)) 51 48 ≤ 8 →
      bits (wd (leAt r.data 0 8)) 63 56 = 1 →
      ∃ t, exec (.responseFrame e p rx) s = .next t ∧ (vget t.kl p).st = .config ∧ (vget t.kl p).headId = wd (leAt r.data 0 8) ∧
        (vget t.kl p).hid1 = wd (leAt r.data 8 8) ∧ (vget t.kl p).hcap = wd (leAt r.data 16 8) ∧ (vget t.kl p).acc = none)

/-- A port that is lost (07 R233, R240, R241, R243): no valid frame for LOSTO µs, or the head's FAULT, takes it to
FAULT with FAULTDET 5 or 6; a swath that binds it goes on without it. A void frame counts in UPCRC, one that K30.7
ends does not. The 1 ms windows of counted records end with one record that carries the count. The counts of a port
are cleared by a host that holds its claim (06 R204, R207; 07 R248): FIR's four and the link's six, and nothing else;
without the claim the write is refused with RIGHTS. -/
def Obligations.LinkLossAndVoidFrames : Prop :=
  (∀ (e : Env) (p : Fin 64) (s u : State) (k : KlPort), u = s.arrive e → k = vget u.kl p →
    (∀ a : Nat, k.lastUp = some a → a + u.klLOSTO p * qUs + u.heldFrom a ≤ u.now → k.st = .ready →
      ∃ t, exec (.linkLost e p) s = .next t ∧ (vget t.kl p).st = .fault ∧ (vget t.kl p).faultDet = 5 ∧
        (vget t.kl p).since = u.now ∧ (vget t.fp p).push = none ∧
        (∀ q : Fin 16, (vget u.seq q).swst = .opened → (vget u.seq q).live.contains p.val = true →
          p.val ∈ (vget t.seq q).excluded ∧ (vget t.seq q).swst = .opened) ∧
        ∀ r : Fin 64, r ≠ p → vget t.kl r = vget u.kl r ∧ vget t.fp r = vget u.fp r) ∧
    (∀ (rx : List Nat) (m : Telem), readUp rx = .frame (.telem m) → k.st = .ready → m.fault = true →
      ∃ t, exec (.telemetryFrame e p rx) s = .next t ∧
      (vget t.kl p).st = .fault ∧ (vget t.kl p).faultDet = 6) ∧
    (∀ rx : List Nat, k.receives = true → readUp rx = .bad → ∃ t, exec (.upstreamVoid e p rx) s = .next t ∧ (vget t.kl p).upCrc = satAdd 16 k.upCrc 1 ∧
      (vget t.kl p).st = k.st ∧ (vget t.kl p).lastUp = k.lastUp ∧ t.fp = u.fp ∧ t.head = u.head) ∧
    (∀ rx : List Nat, k.receives = true → readUp rx = .ended →
      exec (.upstreamVoid e p rx) s = .next (u.modKl p (fun _ => { k with up := k.up.tail }))) ∧
    (∀ a : Nat, k.wMiss = { since := some a, more := 2 } → k.wUp = {} → k.wDown = {} → a + qMs ≤ u.now →
      exec (.missWindowEnd e p) s = .next ((u.modKl p (fun _ => { k with wMiss := {} })).postUnit p
        (u.ev 2 0x0602 p (u.segOf p) (wd 2) 0x400)))) ∧
  (∀ (e : Env) (w : Writer) (p : Fin 64) (s u : State) (n : Nat), u = s.arrive e → u.phase = .ready → u.writer w = some n →
    (u.holds n p = true → exec (.firClrcnt e w p) s = .next (u.modFp p (fun f => { f with
      hotLn := 0, vln := 0, rowOvr := 0, bandChg := 0 }))) ∧
    (u.holds n p = true → writerAuth w = true → exec (.klClrcnt e w p) s = .next (u.modKl p (fun k => { k with
      miss := 0, upCrc := 0, downErr := 0, aborts := 0, upErr := 0, downBits := 0 }))) ∧
    (u.holds n p = false → exec (.firClrcnt e w p) s = .next (u.postErr n 0x0102 p)) ∧
    (u.holds n p = false → writerAuth w = true → exec (.klClrcnt e w p) s = .next (u.postErr n 0x0102 p)))

/-- Head register accesses by a host (07 R231, R244, R245, R250): an access to a READY port sets BUSY and waits; its
HREAD or HWRITE is sent where it fits; the head's response clears BUSY, sets DONE and STATUS and writes the data of a
good read; no response for 50 µs gives STATUS 0xFF and HREG_ERR. -/
def Obligations.HeadRegisterAccess : Prop :=
  ∀ (e : Env) (w : Writer) (p : Fin 64) (s u : State) (n : Nat) (k : KlPort) (a : HeadAcc), u = s.arrive e → k = vget u.kl p →
    (∀ (ad : BitVec 24) (wr : Bool) (len : Fin 128), u.phase = .ready → u.writer w = some n → u.holds n p = true →
      k.hbusy = false → k.st = .ready → (wr = true → u.inSwath p = false ∧ 0x10000 ≤ ad.toNat) → len ≠ 0 → len.val ≤ 64 →
      ad.toNat % 4 = 0 → exec (.hregAccess e w p ad wr len) s = .next (u.modKl p (fun _ => { k with
        hbusy := true, hdone := false, nextId := (k.nextId + 1) % 256,
        acc := some { addr := ad.toNat, write := wr, len := len, id := k.nextId,
                      data := if wr then k.hdat.take (4 * len) else [] } }))) ∧
    (∀ (ad : BitVec 24) (wr : Bool) (len : Fin 128), u.phase = .ready → u.writer w = some n → u.holds n p = true →
      k.hbusy = true ∨ k.st ≠ .ready ∨ (wr = true ∧ u.inSwath p = true) → exec (.hregAccess e w p ad wr len) s = .next (u.postErr n 0x0609 p)) ∧
    (k.acc = some a → a.sentAt = none → k.st = .ready → u.gapFits p (14 + a.data.length) = true → (vget u.fp p).push = none →
      ∃ t, exec (.controlFrameSend e p) s = .next t ∧ (vget t.kl p).acc = some { a with sentAt := some (t.laneFree p) } ∧
        (vget t.kl p).slotLast = 1 ∧ (vget t.kl p).seqNo = (k.seqNo + 1) % 65536 ∧ t.kl = vset u.kl p (vget t.kl p) ∧
        t.fp = u.fp) ∧
    (∀ (rx : List Nat) (r : Resp), readUp rx = .frame (.resp r) → k.st = .ready → k.acc = some a → a.host = true →
      a.sentAt.isSome = true → r.id = a.id → r.write = a.write → r.addr = a.addr → r.status = 0 →
      exec (.responseFrame e p rx) s = .next (u.modKl p (fun _ => { k with
        up := if k.up.contains (.resp r) then (k.up.dropWhile (· != .resp r)).tail else k.up, lastUp := some u.now, acc := none, hbusy := false, hdone := true, hstatus := 0,
        hdat := if a.write then k.hdat else padTo (4 * a.len) r.data ++ k.hdat.drop (4 * a.len) }))) ∧
    (∀ b : Nat, k.acc = some a → a.host = true → a.sentAt = some b → b + 50 * qUs + u.heldFrom b ≤ u.now →
      exec (.responseTimeout e p) s = .next ((u.modKl p (fun _ => { k with acc := none, hbusy := false, hstatus := 0xFF })).postUnit p
        (u.ev 2 0x060B p (u.segOf p) (wd 0xFF))))

/-- Link tests and lane calibration (07 R238, R239, R242, R248, R249): a PRBS test starts on a READY port outside a
swath whose head supports the pattern; its runs start 2 µs after the HWRITE and last 250 µs, and each adds the errors
that the checker of each end counts, the head's as its answer comes; the stop wakes the port; an eye sweep of a READY
port leaves its opening once in 1 ms; CAL takes the port out of service with DROP, and each run of 40 µs keeps its
result with its preset. -/
def Obligations.LinkTestsAndCalibration : Prop :=
  ∀ (e : Env) (w : Writer) (p : Fin 64) (s u : State) (n : Nat) (k : KlPort), u = s.arrive e → k = vget u.kl p →
    (u.phase = .ready → u.writer w = some n → u.holds n p = true →
      (∀ (pat : Fin 4) (inv : Bool), k.st = .ready → u.inSwath p = false → k.patOk pat = true →
        ∃ t, exec (.prbsStart e w p pat inv) s = .next t ∧ (vget t.kl p).st = .test ∧ bits (vget t.kl p).prbs 2 1 = pat.val ∧
          bit (vget t.kl p).prbs 0 = true ∧ bit (vget t.kl p).prbs 3 = inv ∧ (vget t.kl p).prbsAt = some (t.laneFree p) ∧
          (vget t.kl p).prbsSince = none ∧ ∀ r : Fin 64, r ≠ p → vget t.kl r = vget u.kl r) ∧
      (∀ (pat : Fin 4) (inv : Bool),
        (k.st ≠ .ready ∨ u.inSwath p = true → exec (.prbsStart e w p pat inv) s = .next (u.postErr n 0x0609 p)) ∧
        (k.st = .ready → u.inSwath p = false → k.patOk pat = false →
          exec (.prbsStart e w p pat inv) s = .next (u.postErr n 0x060C p))) ∧
      (k.st = .test → k.patOk (bits k.prbs 2 1) = true →
        ∃ t, exec (.prbsStop e w p) s = .next t ∧ (vget t.kl p).st = .wake ∧ (vget t.kl p).prbsSince = none) ∧
      (writerAuth w = true → u.calOk p = true → ∃ t, exec (.portCal e w p) s = .next t ∧ (vget t.kl p).st = .cal ∧
        (vget t.kl p).since = u.now ∧ (vget t.kl p).calRes = [] ∧ (vget t.kl p).prbsAt = some (t.laneFree p) ∧
        (vget t.fp p).push = none ∧ ∀ r : Fin 64, r ≠ p → vget t.kl r = vget u.kl r) ∧
      (writerAuth w = true → u.calOk p = false → exec (.portCal e w p) s = .next (u.postErr n 0x0609 p))) ∧
    (∀ a : Nat, k.st = .test ∨ k.st = .cal → k.prbsAt = some a → a + 2 * qUs + u.heldFrom a ≤ u.now →
      exec (.prbsRunStart e p) s = .next (u.modKl p (fun _ => { k with prbsAt := none, prbsSince := some u.now }))) ∧
    (∀ (a pat us : Nat) (fu fd : List Nat) (x y : Checker), k.prbsSince = some a → a + us * qUs + u.heldFrom a ≤ u.now →
      (k.st = .test ∧ us = 250 ∧ pat = bits k.prbs 2 1) ∨ (k.st = .cal ∧ us = 40 ∧ pat = 3) →
      x = prbsRun pat (3125 * us) fu → y = prbsRun pat (12500 * us) fd →
      ∃ t, exec (.prbsRunEnd e p fu fd) s = .next t ∧ (vget t.kl p).st = k.st ∧ (vget t.kl p).prbsSince = none ∧
        vget t.head p = (vget u.head p).prbsDone y ∧
        (vget t.kl p).acc = some { addr := 0x20, len := 2, id := k.nextId, sentAt := some (u.now + 5 * qUs), host := false } ∧
        (k.st = .test → (vget t.kl p).upErr = satAdd 32 k.upErr x.errs ∧ (vget t.kl p).lockUp = x.locked) ∧
        (k.st = .cal → ∃ z : CalRes, (vget t.kl p).calRes = k.calRes ++ [z] ∧ z.upOk = (x.lockAt.isSome && x.errs == 0)) ∧
        ∀ r : Fin 64, r ≠ p → vget t.kl r = vget u.kl r ∧ vget t.head r = vget u.head r) ∧
    (∀ (rx : List Nat) (r : Resp) (a : HeadAcc), readUp rx = .frame (.resp r) → k.st = .test → k.prbsSince = none →
      k.acc = some a → a.host = false → a.sentAt.isSome = true → r.id = a.id → r.write = a.write → r.addr = a.addr →
      r.status = 0 → ∃ t, exec (.responseFrame e p rx) s = .next t ∧ (vget t.kl p).acc = none ∧
        (vget t.kl p).downBits = satAdd 32 k.downBits (leAt r.data 0 4) ∧ (vget t.kl p).lockDn = (leAt r.data 4 4).testBit 0) ∧
    (∀ (x : Fin 65) (y : Fin 256),
      (k.st = .ready → max k.since k.eyeAt + qMs + u.heldFrom (max k.since k.eyeAt) ≤ u.now →
        exec (.eyeSweep e p x y) s = .next (u.modKl p (fun _ => { k with
          eye := fields [(0, 7, x), (7, 1, 1), (8, 8, y)], eyeAt := u.now }))) ∧
      (k.st ≠ .ready ∨ u.now < max k.since k.eyeAt + qMs → exec (.eyeSweep e p x y) s = .next u))

/-- A head's row count (07 R221-R224): row trigger 0 of the expected tag advances E and takes the held frame whose
bank is valid, else it counts a MISS; a fire symbol that is no legal next one puts the head in DOUBT, in which it
fires nothing and its frames are discarded; a void symbol does the same; an unaligned head takes no notice. The symbol
leaves the lane. What the lane turned over is what the head reads, and its code and disparity errors are counted. The
frames a head takes off its lane (07 R213, R216, R218, R222-R226, R228-R231): a line frame is held unless the head is
in DOUBT, its row trigger 0 has passed, or twenty are held; a table frame is written to its bank and acknowledged, or
refused while a held line names the bank or where its index or a reserved bit is bad; SYNC and DROP set the expected
tag; a read of the register space is answered; of a void frame only its errors are counted. Telemetry, alignment and
power-up act on the head alone; a comma off the boundary of an aligned head counts as an error. -/
def Obligations.HeadsTakeFramesAndSymbols : Prop :=
  (∀ (e : Env) (p : Fin 64) (noise : List (Nat × Nat)) (s u : State) (i : LaneItem) (r : Option DownItem × Nat) (h : Head),
    u = s.arrive e → u.laneItem p = some i → itemFire i.item = true → r = u.headRead? p i noise → h = (vget u.head p).bad r.2 →
    (noise = [] → r = (some i.item, 0)) ∧
    (h.aligned = false → exec (.headFireSymbol e p noise) s = .next (u.laneTake p i)) ∧
    (h.aligned = true → r.1 = none → exec (.headFireSymbol e p noise) s = .next ((u.laneTake p i).modHead p (fun _ => { h with
      doubt := true, held := [], cur := [], pulses := [] }))) ∧
    ∀ (b : Bool) (t : Nat), h.aligned = true → r.1 = some (.fire b t) →
      (h.doubt = false → t = h.e → SMap.get h.k 0 t = 0 → 1 < h.rt →
        (∀ f : LineFrame, h.held.find? (fun f => f.line % 256 == t && (h.bank (frameBank f)).valid) = some f → b = true →
          exec (.headFireSymbol e p noise) s = .next ((u.laneTake p i).modHead p (fun _ => { h with
            pulses := [], e := (t + 1) % 256, cur := SMap.put h.cur t f, k := SMap.put h.k t 1 }))) ∧
        (h.held.find? (fun f => f.line % 256 == t && (h.bank (frameBank f)).valid) = none → b = true →
          exec (.headFireSymbol e p noise) s = .next ((u.laneTake p i).modHead p (fun _ => { h with
            pulses := [], e := (t + 1) % 256, miss := (h.miss + 1) % 65536, missTag := t, k := SMap.put h.k t 1 })))) ∧
      (∀ f : LineFrame, h.doubt = false → b = false → 0 < SMap.get h.k 0 t → SMap.get h.k 0 t + 1 < h.rt →
        SMap.find h.cur t = some f → exec (.headFireSymbol e p noise) s = .next ((u.laneTake p i).modHead p (fun _ => { h with
          liveBank := frameBank f, k := SMap.put h.k t (SMap.get h.k 0 t + 1),
          pulses := f.codes.filterMap (fun x => { h with pulses := [] }.pulse f (SMap.get h.k 0 t) x.1 (x.2 % 8)) }))) ∧
      (h.doubt = false → (SMap.get h.k 0 t = 0 ∧ t ≠ h.e) ∨ h.rt ≤ SMap.get h.k 0 t ∧ SMap.get h.k 0 t ≠ 0 →
        exec (.headFireSymbol e p noise) s = .next ((u.laneTake p i).modHead p (fun _ => { h with
          pulses := [], doubt := true, held := [], cur := [] }))) ∧
      (h.doubt = true → exec (.headFireSymbol e p noise) s = .next ((u.laneTake p i).modHead p (fun _ => { h with pulses := [] })))) ∧
  (∀ (e : Env) (p : Fin 64) (s u : State), u = s.arrive e →
    (∀ (noise : List (Nat × Nat)) (i : LaneItem) (r : Option DownItem × Nat) (h : Head) (v : State), u.laneItem p = some i →
      r = u.headRead? p i noise → v = u.laneTake p i → h = (vget u.head p).bad r.2 → h.aligned = true →
      (itemLine i.item = true →
        (∀ f : LineFrame, r.1 = some (.line f) →
          (h.doubt = false → h.late (f.line % 256) = false → (h.held.filter (fun g => g.line % 256 != f.line % 256)).length < 20 →
            exec (.headLineFrame e p noise) s = .next (v.modHead p (fun _ => { h with
              dseq := f.seq, held := h.held.filter (fun g => g.line % 256 != f.line % 256) ++ [f] }))) ∧
          (h.doubt = true ∨ h.late (f.line % 256) = true →
            exec (.headLineFrame e p noise) s = .next (v.modHead p (fun _ => { h with dseq := f.seq })))) ∧
        (r.1 = none → exec (.headLineFrame e p noise) s = .next (v.modHead p (fun _ => h)))) ∧
      (∀ g : TableFrame, i.item = .table g →
        (∀ f : TableFrame, r.1 = some (.table f) → f.index < 64 → f.reserved = 0 →
          (h.held.any (fun g => frameBank g == f.bank) = false → exec (.headTableFrame e p noise) s =
            .next ((v.modHead p (fun _ => { h with dseq := f.seq }.setBank f.bank ((h.bank f.bank).accept f))).modKl p
              (fun k => { k with up := k.up ++ [.ack { index := f.index, bank := f.bank, status := 0, seq := f.seq }] }))) ∧
          (h.held.any (fun g => frameBank g == f.bank) = true → exec (.headTableFrame e p noise) s =
            .next ((v.modHead p (fun _ => { h with dseq := f.seq })).modKl p
              (fun k => { k with up := k.up ++ [.ack { index := f.index, bank := f.bank, status := 1, seq := f.seq }] })))) ∧
        (∀ f : TableFrame, r.1 = some (.table f) → 64 ≤ f.index ∨ f.reserved ≠ 0 → exec (.headTableFrame e p noise) s =
          .next ((v.modHead p (fun _ => { h with dseq := f.seq })).modKl p
            (fun k => { k with up := k.up ++ [.ack { index := f.index, bank := f.bank, status := 2, seq := f.seq }] }))) ∧
        (r.1 = none → exec (.headTableFrame e p noise) s = .next (v.modHead p (fun _ => h)))) ∧
      (∀ g f : CtlFrame, i.item = .ctl g → r.1 = some (.ctl f) → f.op = g.op →
        (f.op = .sync → exec (.headSync e p noise) s = .next (v.modHead p (fun _ => { h with
          dseq := f.seq, e := leAt f.data 0 4 % 256, rt := leAt f.data 4 1, k := [], held := [], cur := [], doubt := false }))) ∧
        (f.op = .drop → exec (.headDrop e p noise) s = .next (v.modHead p (fun _ => { h with
          dseq := f.seq, e := 256, k := [], held := [], cur := [] }))) ∧
        (∀ a : Resp, f.op = .hread → headStatus false f.addr f.len = 0 → f.addr + 4 * f.len ≤ 0x800000 →
          a = ⟨false, f.id, 0, f.addr, (List.range (4 * f.len)).map (fun i => h.byte (f.addr + i))⟩ →
          exec (.headControlFrame e p noise false) s = .next ((v.modHead p (fun _ => { h with dseq := f.seq })).modKl p
            (fun k => { k with up := k.up ++ [.resp a] }))) ∧
        (∀ (a : Resp) (busy : Bool) (n : Nat), f.op = .hwrite →
          n = (if headStatus true f.addr f.len ≠ 0 then headStatus true f.addr f.len else if busy then 3 else 0) → n ≠ 0 →
          a = ⟨true, f.id, n, f.addr, []⟩ →
          exec (.headControlFrame e p noise busy) s = .next ((v.modHead p (fun _ => { h with dseq := f.seq })).modKl p
            (fun k => { k with up := k.up ++ [.resp a] }))))) ∧
    (∀ (h : Head) (l : List (Option Int)) (vs vl : BitVec 16) (n : Fin 8) (g : SMap Nat) (b : Bool), h = vget u.head p →
      (h.aligned = true → (∀ a : Nat, h.telAt = some a → a + 47500 ≤ u.now) →
        exec (.headTelemetrySend e p l vs vl n g b) s = .next ((u.modHead p (fun _ => { h with
          tseq := (h.tseq + 1) % 65536, telAt := some u.now })).modKl p
            (fun k => { k with up := k.up ++ [.telem (h.telem l vs.toNat vl.toNat n g b)] }))) ∧
      (h.aligned = false ∨ (∃ a : Nat, h.telAt = some a ∧ u.now < a + 47500) →
        exec (.headTelemetrySend e p l vs vl n g b) s = .next u)) ∧
    (∀ (h : Head) (o : Fin 10), h = vget u.head p →
      (h.aligned = false → (vget u.kl p).st = .wake →
        exec (.headSymbolAlignment e p o) s = .next (u.modHead p (fun _ => { h with aligned := true, telAt := none }))) ∧
      (h.aligned = false → (vget u.kl p).st ≠ .wake → exec (.headSymbolAlignment e p o) s = .next u) ∧
      (h.aligned = true → o ≠ 0 →
        exec (.headSymbolAlignment e p o) s = .next (u.modHead p (fun _ => { h with derr := (h.derr + 1) % 65536 })))) ∧
    ∀ (a b c : Word) (m : SMap Nat), exec (.headPowerUp e p a b c m) s =
      .next (u.modHead p (fun _ => { hid0 := a, hid1 := b, hcap := c, rowmap := m })))

/-- A camera's frame (08 R252-R254, R260, R263, R266, R267, R276): it starts with the next number, the tick's time and
the request that is pulsed; each line of the right length, as the port samples its cycles, enters the input buffer
while fewer than seven lines wait; a line of another length, or a frame of another height, makes it malformed; line
slots move lines into the pipeline in rotation; the oldest complete frame posts its FRAME record; lost clock and its
return. -/
def Obligations.CameraFrames : Prop :=
  ∀ (e : Env) (c : Fin 4) (s u : State) (x : Cam), u = s.arrive e → x = vget u.cam c →
    (x.st = .run ∨ x.st = .waitSync → x.fval = false → ∃ t f, exec (.frameStart e c) s = .next t ∧
      (vget t.cam c).st = .run ∧ (vget t.cam c).fval = true ∧ (vget t.cam c).frameCnt = (x.frameCnt + 1) % 2 ^ 32 ∧
      (vget t.cam c).frames = x.frames ++ [f] ∧ f.no = (x.frameCnt + 1) % 2 ^ 32 ∧ f.startAt = u.now ∧ f.time = u.stamp ∧
      f.req = (if x.answered then none else x.pulse) ∧ f.gen = (x.genStep u.now).gen ∧ f.port = u.reg (camPortAddr c) ∧
      f.buf = [] ∧ f.done = [] ∧ f.ended = false ∧ f.gap = none ∧ t.ctx = u.ctx ∧ t.seq = u.seq ∧
      ∀ d : Fin 4, d ≠ c → vget t.cam d = vget u.cam d) ∧
    (∀ (f : Frame) (l : List CamCycle), x.st = .run → x.fval = true → x.receiving = some f →
      (lineSeen f.port l = true → lineStray f.port l = false → (linePixels f.port l).length = f.W →
        x.frames.foldl (fun a f => a + f.buf.length) 0 < 7 → exec (.camLine e c l) s =
          .next (u.modFrame c f.no (fun f => { f with buf := f.buf ++ [linePixels f.port l] }))) ∧
      (lineSeen f.port l = true → lineStray f.port l = true ∨ (linePixels f.port l).length ≠ f.W →
        exec (.camLine e c l) s = .next (((u.modCam c (fun x => { x with
          format := satAdd 16 x.format 1 })).postUnit (uCam c) (u.ev 2 0x0905 c (some (u.camSeq c)) (wd f.no))).dropFrame c f
            0x0905)) ∧
      (lineSeen f.port l = false → exec (.camLine e c l) s = .next u) ∧
      (f.buf.length + f.done.length = f.H → x.answered = true → exec (.frameEnd e c) s =
        .next (((u.modCam c (fun _ => { x with fval := false })).modFrame c f.no (fun f => { f with ended := true })).modCam c
          (fun x => { x with pulse := none, answered := false }))) ∧
      (f.buf.length + f.done.length = f.H → x.answered = false → exec (.frameEnd e c) s =
        .next ((u.modCam c (fun _ => { x with fval := false })).modFrame c f.no (fun f => { f with ended := true })))) ∧
    (∀ (v : Fin 2) (i : Nat) (f : Frame), rotPick 2 (vget u.pipe v).last
        (fun i => (vget u.cam (2 * v + i)).frames.any (fun f => !f.buf.isEmpty)) = some i →
      (vget u.cam (2 * v + i)).frames.find? (fun f => !f.buf.isEmpty) = some f →
      exec (.lineSlot e v) s = .next ({ u with pipe := vmod u.pipe v (fun p => { p with last := i }) }.modFrame (2 * v + i) f.no
        (fun f => { f with buf := f.buf.tail, done := f.done ++ [f.buf.headD []] }))) ∧
    (∀ (f : Frame) (l : List Frame), x.frames = f :: l → f.ended = true → f.buf = [] → f.gap = none →
      (∀ g ∈ l, g.gap = none) → x.rqLost = none → x.rq.length < 256 → ∃ t v0 v1 v2, exec (.frameComplete e c) s = .next t ∧
        (vget t.cam c).frames = l ∧ (vget t.cam c).lastDone = f.no ∧ (vget t.cam c).doneGen = f.gen ∧
        (vget t.cam c).rq = x.rq ++ [f.result c v0 v1 v2] ∧ (v0 = true → f.enabled 0 = true) ∧ (v1 = true → f.enabled 1 = true) ∧
        (v2 = true → f.enabled 2 = true)) ∧
    (x.st = .run ∨ x.st = .waitSync → x.receiving = none → exec (.camNoclk e c) s = .next (((u.modCam c (fun _ => { x with
      st := .noClk, queue := [], pulse := none, answered := false, winFrom := [] })).postUnit (uCam c)
        (u.ev 2 0x0906 c (some (u.camSeq c)))).each (x.queue ++ (if x.answered then [] else x.pulse.toList))
          (fun z r => z.endRequest c false pipeOut r))) ∧
    (x.st = .noClk → exec (.camClockReturn e c) s = .next (u.modCam c (fun _ => { x with st := .waitSync })))

/-- Camera triggers (08 R255-R259): the holder's request and one at a position of the encoder queue with the tick's
SW, LN and count; a request whose source waits already is refused, or skipped at a position; the pulse leaves 10 ticks
later once the one before is answered; a pulse that no frame answers times out; skipped positions are reported each
millisecond. -/
def Obligations.CameraTriggers : Prop :=
  ∀ (e : Env) (w : Writer) (c : Fin 4) (s u : State) (n : Nat) (x : Cam), u = s.arrive e → x = vget u.cam c →
    (u.phase = .ready → u.writer w = some n →
      (u.holds n (uCam c) = true → u.trigRefusal c .host = 0 → exec (.camTrig e w c) s = .next (u.modCam c (fun _ => { x with
        queue := x.queue ++ [⟨.host, u.now, (vget u.seq (u.camSEQ c)).sw, (vget u.seq (u.camSEQ c)).ln, 0⟩] }))) ∧
      (u.holds n (uCam c) = true → u.trigRefusal c .host ≠ 0 →
        exec (.camTrig e w c) s = .next (u.postErr n 0x0904 c (wd (u.trigRefusal c .host)))) ∧
      (u.holds n (uCam c) = false → exec (.camTrig e w c) s = .next (u.postErr n 0x0102 c))) ∧
    (∀ (d : Int) (i : Nat), bit (u.reg (camTrigAddr c)) 32 = true → i = bits (u.reg (camTrigAddr c)) 63 40 → i ≠ 0 →
      d = (if bit (u.reg (camTrigAddr c)) 35
        then signedN 48 (u.rf (0x03600140 + 8 * c) 47 0) - (vget u.enc (bits (u.reg (camTrigAddr c)) 34 33)).seen.count
        else (vget u.enc (bits (u.reg (camTrigAddr c)) 34 33)).seen.count - signedN 48 (u.rf (0x03600140 + 8 * c) 47 0)) →
      (d < (x.ptK * i : Nat) → exec (.positionTrigger e c) s = .next u) ∧
      (∀ r : TrigReq, (x.ptK * i : Nat) ≤ d → d < ((x.ptK + 1) * i : Nat) → u.trigRefusal c .position = 0 →
        r = ⟨.position, u.now, (vget u.seq (u.camSEQ c)).sw, (vget u.seq (u.camSEQ c)).ln,
          (vget u.enc (bits (u.reg (camTrigAddr c)) 34 33)).seen.count⟩ →
        exec (.positionTrigger e c) s = .next (u.modCam c (fun _ => { x with
          ptK := x.ptK + 1, queue := x.queue ++ [r] })))) ∧
    (∀ (r : TrigReq) (l : List TrigReq), x.queue = r :: l → x.pulse = none → r.at_ + 10 * qTick + u.heldFrom r.at_ ≤ u.now →
      x.st ≠ .off → u.trigStopped c = false → exec (.trigPulse e c) s =
        .next ((u.modCam c (fun _ => { x with
          queue := l, pulse := some r, answered := false, pulseAt := u.now,
          trigEnd := u.now + 500 * u.rf (camTrigAddr c) 15 8 })).emit (.trig c (!bit (u.reg (camTrigAddr c)) 0)))) ∧
    (∀ (r : TrigReq) (k : Nat), x.pulse = some r → k = u.rf (camTrigAddr c) 31 16 →
      (x.answered = false → k ≠ 0 → x.pulseAt + k * 20000 + u.heldFrom x.pulseAt ≤ u.now → u.startsNow c = false →
        exec (.trigTimeout e c) s = .next (((u.modCam c (fun _ => { x with
          pulse := none, trigTo := satAdd 16 x.trigTo 1 })).camPost c r.src 0x0902).endRequest c false pclkOut r)) ∧
      (x.answered = true ∨ k = 0 ∨ u.now < x.pulseAt + k * 20000 ∨ u.startsNow c = true →
        exec (.trigTimeout e c) s = .next u)) ∧
    (∀ a m : Nat, x.ptSkip = { since := some a, more := m } → a + qMs + u.heldFrom a ≤ u.now → exec (.ptrigSkipWindow e c) s =
      .next ((u.modCam c (fun _ => { x with ptSkip := {} })).postUnit (uCam c)
        (u.ev 2 0x090C c (some (u.camSeq c)) (wd m) 0x400)))

/-- Camera settings and the host's other commands (08 R261-R264, R276, R279, R283): a settings request takes the next
generation and pends; its write begins in the settings window and takes its bit times; the written generation applies
L + 1 frame starts later and a failed write marks it doubtful; POP drops the oldest record, CLRCNT clears the four
counts; one I2C transaction runs at a time while the camera is disabled. -/
def Obligations.CameraSettings : Prop :=
  ∀ (e : Env) (w : Writer) (c : Fin 4) (s u : State) (n : Nat) (x : Cam), u = s.arrive e → x = vget u.cam c →
    (u.phase = .ready → u.writer w = some n → u.holds n (uCam c) = true →
      (∀ r : Fin 256, x.pend = none → exec (.camSetreq e w c r) s = .next (u.modCam c (fun _ => { x with
        lastGen := (x.lastGen + 1) % 2 ^ 32,
        pend := some { record := r, gen := (x.lastGen + 1) % 2 ^ 32, src := .host, at_ := u.now } }))) ∧
      (∀ r : Fin 256, x.pend ≠ none → exec (.camSetreq e w c r) s = .next (u.postErr n 0x0904 c 2)) ∧
      exec (.camPop e w c) s = .next (u.modCam c (fun _ => { x with rq := x.rq.tail })) ∧
      exec (.camClrcnt e w c) s = .next (u.modCam c (fun _ => { x with dropped := 0, format := 0, trigTo := 0, ringFull := 0 })) ∧
      (∀ (a : Fin 128) (r : Bool) (b : Fin 8) (d : BitVec 48), u.camEN c = false → x.i2cBusy = false →
        exec (.i2cCommand e w c a r b d) s = .next ((u.modCam c (fun _ => { x with
          i2cBusy := true, i2cDone := false, i2cNack := false, i2cTo := false, i2cAt := u.now, i2cRd := r,
          i2cN := min 6 b })).emit (.i2c c a r (min 6 b) (if r then [] else toLE (min 6 b) d.toNat)))) ∧
      ∀ (a : Fin 128) (r : Bool) (b : Fin 8) (d : BitVec 48), u.camEN c = true ∨ x.i2cBusy = true →
        exec (.i2cCommand e w c a r b d) s = .next (u.postErr n 0x090A c)) ∧
    (∀ y : Cam, u.windowDue c = true → y = { x with winFrom := x.winFrom.tail } →
      (x.pend = none → exec (.settingsWindow e c) s = .next (u.modCam c (fun _ => y))) ∧
      ∀ q : SetReq, x.pend = some q → q.writing = none → x.st = .run → q.at_ + 40 + u.heldFrom q.at_ ≤ u.now →
        u.setRecord c q.record ≠ [] → exec (.settingsWindow e c) s = .next (u.modCam c (fun _ => { y with
          pend := some { q with writing := some (u.setRecord c q.record), begun := u.now } }))) ∧
    (u.windowDue c = false → exec (.settingsWindow e c) s = .next u) ∧
    (∀ (q : SetReq) (l : List (List Byte)) (k : Nat), x.pend = some q → q.writing = some l →
      k = u.rf (0x03600160 + 8 * c) 18 16 + 1 →
      (q.begun + writeBits l none * u.bitTime c + u.heldFrom q.begun ≤ u.now → ∃ t,
        exec (.settingsWriteDone e c none) s = .next t ∧ (vget t.cam c) = { x with
          pend := none, setFail := false, setDoubt := false,
          nextGens := x.nextGens.map (fun g => { g with doubt := false }) ++ [{ left := k, gen := q.gen, at_ := u.now }] } ∧
        t.out = u.out ++ l.map (fun b => .i2c c (u.rf (0x03600160 + 8 * c) 6 0) false b.length b)) ∧
      (∀ i : Fin 16, q.begun + writeBits l (some i.val) * u.bitTime c + u.heldFrom q.begun ≤ u.now → ∃ t,
        exec (.settingsWriteDone e c (some i)) s = .next t ∧ (vget t.cam c) = { x with
          pend := none, setFail := true, failIdx := i,
          nextGens := x.nextGens ++ [{ left := k, gen := q.gen, doubt := true, at_ := u.now }] })) ∧
    (x.i2cBusy = true → ∀ v : Nat, v = x.i2cAt + u.heldFrom x.i2cAt →
      (∀ d : Nat, v + busBits x.i2cN * u.bitTime c ≤ u.now →
        exec (.i2cDone e c (.ok d)) s = .next (u.modCam c (fun _ => { x with
          i2cBusy := false, i2cDone := true, i2cData := if x.i2cRd then d % 2 ^ (8 * x.i2cN) else x.i2cData }))) ∧
      (v + 10 * u.bitTime c ≤ u.now → exec (.i2cDone e c .nack) s = .next (u.modCam c (fun _ => { x with
        i2cBusy := false, i2cDone := true, i2cNack := true }))) ∧
      (v + 10 * qMs ≤ u.now → exec (.i2cDone e c .timeout) s = .next (u.modCam c (fun _ => { x with
        i2cBusy := false, i2cDone := true, i2cTo := true }))))

/-- A host's commands to the health engine (09 R293, R297, R299, R301): the holder of the port or the Steward puts a
nozzle OUT with cause HOST or returns it, whatever put it OUT, but not in the tick in which a frame or a sense window
puts it OUT; another session, or a nozzle that the head does not have, is refused; return test and alignment unit are
armed by the session that holds the camera and the sequencer, one at a time, and disarmed. What the health engine does
with a vision result and at its ticks (09 R285, R287, R290, R291, R298, R301): a result that has reached LCLK, of two
in one tick that of P0, waits for the engine, which takes one frame after another; nozzles that the scoring, the sense
route or a test decided change state in their tick, each change counted; a test's outcome is reported and the test
ends. -/
def Obligations.HealthCommandsAndTicks : Prop :=
  (∀ (e : Env) (w : Writer) (s u v : State) (n : Nat), u = s.arrive e → v = u.healthBefore → u.phase = .ready →
    u.writer w = some n →
    (∀ (p : Fin 64) (j : Fin 8192), writerAuth w = true →
      ((u.isSteward n || u.holds n p) = true → j.val < bits (vget u.kl p).headId 47 32 →
        (u.hlt.nz.Pairwise (fun x y => x.1 < y.1) →
          ∃ t, exec (.nzctlOut e w p j) s = .next t ∧ t.nz p j = { u.nz p j with hout := true, cause := 3 } ∧
            (∀ (r : Fin 64) (k : Fin 8192), (r, k) ≠ (p, j) → t.nz r k = u.nz r k) ∧
            vget t.hlt.flips p = (if (u.nz p j).hout then vget u.hlt.flips p else satAdd 16 (vget u.hlt.flips p) 1)) ∧
        (v.hlt.nz.Pairwise (fun x y => x.1 < y.1) → v.justOut p j = false →
          ∃ t, exec (.nzctlRelease e w p j) s = .next t ∧ t.nz p j = { v.nz p j with hout := false, cause := 0, nrcnt := 0 } ∧
            (∀ (r : Fin 64) (k : Fin 8192), (r, k) ≠ (p, j) → t.nz r k = v.nz r k) ∧
            vget t.hlt.returns p = (if (v.nz p j).hout then satAdd 16 (vget v.hlt.returns p) 1 else vget v.hlt.returns p)) ∧
        (v.justOut p j = true →
          exec (.nzctlRelease e w p j) s = .next (v.modNz p j (fun x => { x with nrcnt := 0 })))) ∧
      ((u.isSteward n || u.holds n p) = false → exec (.nzctlOut e w p j) s = .next (u.postErr n 0x0A0A p 1) ∧
        exec (.nzctlRelease e w p j) s = .next (u.postErr n 0x0A0A p 1)) ∧
      ((u.isSteward n || u.holds n p) = true → bits (vget u.kl p).headId 47 32 ≤ j.val →
        exec (.nzctlOut e w p j) s = .next (u.postErr n 0x0A0A p 2) ∧
        exec (.nzctlRelease e w p j) s = .next (u.postErr n 0x0A0A p 2))) ∧
    (∀ (c : Fin 4) (q : Fin 16) (a b : Fin 128) (bg th : Fin 65536),
      (u.hlt.test = none → u.holds n (uCam c) = true → u.holds n (uSeq q) = true →
        ∃ t, exec (.testArm e w c q a b bg th) s = .next t ∧
          t.hlt.test = some { cam := c, seq := q, a := a + 1, b := b, bg := bg, th := th, at_ := u.now } ∧ t.hlt.testDone = false ∧
          t.hlt.flips = u.hlt.flips ∧ t.hlt.score = u.hlt.score ∧ t.cam = u.cam ∧ t.seq = u.seq) ∧
      (u.hlt.test ≠ none ∨ u.holds n (uCam c) = false ∨ u.holds n (uSeq q) = false →
        exec (.testArm e w c q a b bg th) s = .next (u.postErr n 0x0A08 c))) ∧
    (∀ (c : Fin 4) (q : Fin 16) (m : Fin 2048) (bg th : Fin 65536),
      (u.hlt.al = none → u.holds n (uCam c) = true → u.holds n (uSeq q) = true →
        exec (.alignArm e w c q m bg th) s = .next (u.modHlt (fun h => { h with
          al := some { cam := c, seq := q, a := m, bg := bg, th := th, at_ := u.now }, alDone := false }))) ∧
      (u.hlt.al ≠ none ∨ u.holds n (uCam c) = false ∨ u.holds n (uSeq q) = false →
        exec (.alignArm e w c q m bg th) s = .next (u.postErr n 0x0A08 c))) ∧
    (u.acting n = true → exec (.testDisarm e w) s = .next (u.modHlt (fun h => { h with test := none })) ∧
      exec (.alignDisarm e w) s = .next (u.modHlt (fun h => { h with al := none }))) ∧
    (u.acting n = false → exec (.testDisarm e w) s = .next (u.postErr n 0x0102 0) ∧
      exec (.alignDisarm e w) s = .next (u.postErr n 0x0102 0))) ∧
  (∀ (e : Env) (s u : State), u = s.arrive e →
    (∀ (h r : VisRes) (l : List VisRes) (v : State), u.hlt.visq = h :: l →
      r = (u.hlt.visq.find? (fun r => r.cam < 2 && u.arrivalTick r == u.arrivalTick h)).getD h →
      v = (u.modHlt (fun x => { x with visq := x.visq.erase r })).healthBefore →
      (u.ticks < u.arrivalTick h → exec (.visionResult e) s = .next u) ∧
      (u.arrivalTick h ≤ u.ticks →
        (r.doubt = true ∨ r.align = true ∨ r.nbins = 0 → exec (.visionResult e) s = .next v) ∧
        (v.rf (0x03800100 + 8 * r.seq) 0 0 = 0 → v.hlt.test = none → exec (.visionResult e) s = .next v) ∧
        (v.rf (0x03800100 + 8 * r.seq) 0 0 = 1 → v.hlt.test = none → r.doubt = false → r.align = false → r.nbins ≠ 0 →
          (v.engineBusy = true → exec (.visionResult e) s = .next (v.modHlt (fun x => { x with
            waitq := x.waitq ++ [{ r with at_ := v.now }] }))) ∧
          (v.engineBusy = false → v.hlt.waitq = [] → r.arm = none →
            exec (.visionResult e) s = .next (v.scoreFrame { r with at_ := v.now }))))) ∧
    (u.hlt.visq = [] → exec (.visionResult e) s = .next u) ∧
    (∀ (a : Apply) (l : List Apply) (v : State), u.hlt.applies = a :: l → a.at_ ≤ u.now →
      v = (u.modHlt (fun h => { h with applies := l })).applyOuts a →
      exec (.healthApply e) s = .next v.engineNext ∧ (u.hlt.waitq = [] → exec (.healthApply e) s = .next v)) ∧
    (∀ (p : Fin 64) (a : Apply) (l : List Apply), u.hlt.senses = a :: l → a.at_ ≤ u.now → a.outs.any (fun x => x.1 == p.val) = true →
      u.hlt.applies = [] → exec (.senseApply e p) s = .next ((u.modHlt (fun h => { h with senses := l })).applyOuts a)) ∧
    (∀ (p : Fin 64), u.hlt.senses = [] → exec (.senseApply e p) s = .next u) ∧
    (∀ (y : TestEnd), u.hlt.testEnd = some y → y.at_ ≤ u.now → u.hlt.waitq = [] →
      ∃ t, exec (.testApply e) s = .next t ∧ t.hlt.test = u.hlt.test.filter (fun a => a != y.arm) ∧ t.hlt.testEnd = none ∧
        t.hlt.testDone = true ∧ t.hlt.failed = sat 16 y.failed.length ∧ t.hlt.ambig = sat 16 y.ambig ∧
        t.hlt.returned = sat 16 (y.returned.filter (fun x => (u.nz x.1 x.2).hout && (u.nz x.1 x.2).cause != 3)).length) ∧
    (u.hlt.testEnd = none → exec (.testApply e) s = .next u) ∧
    (∀ (p : Fin 64) (j : Fin 8192) (k : Nat), (u.nz p j).hout = false →
      (u.putOut p [j] k).nz p j = { u.nz p j with hout := true, cause := k } ∧
      vget (u.putOut p [j] k).hlt.flips p = satAdd 16 (vget u.hlt.flips p) 1))

/-- The checks of a request, in their order, for every command but SESSION_OPEN (11 R338-R342, R347; 18 R511): form,
AUTH where it is needed, tag, a request answered before, counter, state of the session, right of its class; a request
that passes takes its counter, clears the count of bad tags and renews the lease. A refusal answers its code and does
nothing else but count a bad tag. A session whose state has an uncorrectable word enters the quarantine first (13
R405), and its request is answered with NOSESSION. During a management-plane interruption the request is held; before
READY it is discarded. -/
def Obligations.RequestsAreChecked : Prop :=
  ∀ (e : Env) (m : Msg) (s u : State) (n : Fin 256) (r : Instr × Nat × Nat) (x : Sess),
    u = s.arrive e → r ∈ msgRows e m → x = u.ses n →
    (u.phase ≠ .ready → exec r.1 s = .next u) ∧
    (u.Reaches m n → u.mem.sessBad.contains n.val = true → exec r.1 s = .next ((u.sessionEcc n).reply n r.2.1 m 0x0101 [] false)) ∧
    (u.Reaches m n → u.mem.sessBad.contains n.val = false →
      ((m.headOk r.2.1 && m.bodyOk r.2.1 r.2.2) = false → exec r.1 s = .next (u.reply n r.2.1 m 0x010C [] false)) ∧
      ((m.headOk r.2.1 && m.bodyOk r.2.1 r.2.2) = true →
        (m.auth = false → x.keyed = true → (critical r.2.1 || x.net) = true →
          exec r.1 s = .next (u.reply n r.2.1 m 0x010A [] false)) ∧
        (m.auth = true → (x.keyed && m.tagOk x.key r.2.1) = false →
          exec r.1 s = .next ((u.badTag n).reply n r.2.1 m 0x0103 [] false)) ∧
        (m.auth = true → (x.keyed && m.tagOk x.key r.2.1) = true → x.net = false →
          (x.lastCtr ≠ 2 ^ 64 - 1 → m.counter ≤ x.lastCtr → exec r.1 s = .next (u.reply n r.2.1 m 0x0104 [] false)) ∧
          (x.lastCtr ≠ 2 ^ 64 - 1 → x.lastCtr < m.counter → ∀ v : State,
            v = u.modSess n (fun _ => { x with lastCtr := m.counter, badTags := 0 }) →
            (x.st = .opening → r.2.1 ≠ 2 → exec r.1 s = .next (v.reply n r.2.1 m 0x0109 [] true)) ∧
            (x.st = .confirmed → u.mayCommand n r.2.1 m = false → exec r.1 s = .next (v.reply n r.2.1 m 0x0102 [] true)) ∧
            (x.st = .confirmed → u.mayCommand n r.2.1 m = true → u.Passes r.2.1 r.2.2 m n ((u.modSess n (fun _ => { x with
              lastCtr := m.counter, badTags := 0, renewAt := u.now })).mgmtWrites n)))) ∧
        (∀ (k : Kept) (q : Fin 8) (a udp : Nat), m.path = .net q a udp → m.auth = true →
          (x.keyed && m.tagOk x.key r.2.1) = true →
          x.kept.find? (fun k => k.xid == m.xid && k.counter == m.counter && k.tag == m.tag) = some k →
          exec r.1 s = .next ((u.modXlt (fun t => { t with netResent := satAdd 32 t.netResent 1 })).emit (.datagram k.rsp a udp))))) ∧
    (∀ f : Fin 4, u.phase = .ready → u.safe.mgmtDown.isSome = true → m.session = n.val → x.st = .confirmed → x.net = false →
      x.fn = f.val → x.busy = false → m.path = .pcie f false →
      (u.xlt.held.filter (fun r => r.2.2.session == n.val)).length < 64 →
      exec r.1 s = .next ((u.modXlt (fun t => { t with held := t.held ++ [(r.2.1, r.2.2, m)] })).modSess n
        (fun x => { x with busy := true }))) ∧
    (∀ f : Fin 4, u.phase = .ready → m.session = n.val → x.st = .confirmed → x.net = false → x.fn = f.val → x.busy = true →
      m.path = .pcie f false → exec r.1 s = .next (u.postErr n 0x010B n)) ∧
    (∀ (q : Fin 8) (a udp : Nat), u.phase = .ready → m.path = .net q a udp → m.session = n.val → x.net = true →
      x.st = .confirmed → x.peer ≠ a ∨ x.peerPort ≠ udp →
      exec r.1 s = .next (u.modXlt (fun t => { t with netDropped := satAdd 32 t.netDropped 1 })))

/-- Sessions by command (11 R340, R341, R343-R346; 12 R383; 18 R512, R515): an open takes the first FREE number with
the class, slot and lease that it asks for, and a keyed one is OPENING until it is confirmed; a refused open changes
nothing but its answer; CLOSE and REVOKE send a session into the quarantine; HEARTBEAT answers 0; KEY_INSTALL and
KEY_ERASE write a key slot; NET_SET stages an address. -/
def Obligations.SessionCommands : Prop :=
  ∀ (e : Env) (m : Msg) (s u v : State) (n : Fin 256), u = s.arrive e →
    (∀ f : Fin 4, u.phase = .ready → m.path = .pcie f true → (vget u.xlt.openPage f).busy = false → u.safe.mgmtDown = none →
      (u.openRefusal m ≠ 0 → exec (.sessionOpen e m) s = .next (u.modXlt (fun t => { t with
        openPage := vset t.openPage f ⟨false, true, u.openRefusal m, response 1 0xFFFF false 0 m.xid (u.openRefusal m) [] []⟩ }))) ∧
      (u.openRefusal m = 0 → (List.range 256).find? (fun n => (u.ses n).st == .free) = some n.val → ∃ t : State,
        exec (.sessionOpen e m) s = .next t ∧ (t.ses n).cls = classOf (m.b 0) ∧ (t.ses n).net = false ∧ (t.ses n).fn = f.val ∧
        (t.ses n).st = (if m.b 1 < 16 then .opening else .confirmed) ∧ (t.ses n).keyed = decide (m.b 1 < 16) ∧
        (t.ses n).lease = (if m.f 2 2 = 0 then 500 else m.f 2 2) ∧ (t.ses n).lastCtr = 0 ∧ (t.ses n).openAt = u.now ∧
        (t.ses n).crec = (u.ses n).crec ∧ (vget t.xlt.openPage f).status = 0 ∧ (vget t.xlt.openPage f).done = true ∧
        (m.direct = true → vget t.xlt.direct f = some n.val) ∧ (∀ k : Fin 256, k ≠ n → t.ses k = u.ses k) ∧
        t.mgt = u.mgt ∧ t.ctx = u.ctx ∧ t.dram = u.dram)) ∧
    (u.Passes 0x0002 0 m n v → exec (.sessionConfirm e m) s =
      .next ((v.modSess n (fun x => { x with st := .confirmed, renewAt := v.now })).reply n 0x0002 m 0 [] true)) ∧
    (u.Passes 0x0003 0 m n v → exec (.sessionClose e m) s = .next ((v.kennelEnter n).reply n 0x0003 m 0 [] true)) ∧
    (u.Passes 0x0004 0 m n v → exec (.heartbeat e m) s = .next (v.reply n 0x0004 m 0 [] true)) ∧
    (u.Passes 0x0005 0 m n v →
      (m.b 1 ≠ n.val → v.isOpen (m.b 1) = true → exec (.revokeSession e m) s =
        .next ((v.kennelEnter (m.b 1)).reply n 0x0005 m 0 [] true)) ∧
      (m.b 1 = n.val → exec (.revokeSession e m) s = .next (v.reply n 0x0005 m 0x0102 [] true))) ∧
    (u.Passes 0x0005 1 m n v → exec (.revokeUnit e m) s = .next ((v.unitRevoke (m.b 2)).reply n 0x0005 m 0 [] true)) ∧
    (∀ (key : List Byte) (w : State), u.Passes 0x0006 0 m n v → (v.ses n).commissioning = false → v.keyOf n m = some key →
      (v.nvRate (m.b 0) = false → v.nvWrite (m.b 0) (toLE 1 (m.b 1) ++ key) (some n.val) = (w, true) →
        exec (.keyInstall e m) s = .next ({ w with keys := vset w.keys (m.b 0) ⟨true, key, m.b 1⟩ }.reply n 0x0006 m 0 [] true)) ∧
      (v.nvRate (m.b 0) = true → exec (.keyInstall e m) s = .next (v.reply n 0x0006 m 0x0B12 [] true))) ∧
    (u.Passes 0x0007 0 m n v → ∃ w : State, exec (.keyErase e m) s = .next (w.reply n 0x0007 m 0 [] true) ∧
      vget w.keys (m.b 0) = {} ∧ (∀ k : Fin 16, k.val ≠ m.b 0 → vget w.keys k = vget v.keys k) ∧ (w.ses n).st = (v.ses n).st ∧
      ∀ k : Fin 256, k ≠ n → v.isOpen k = true → (v.ses k).keyed = true → (v.ses k).slot = m.b 0 → (w.ses k).st = .kennel) ∧
    (u.Passes 0x0008 0 m n v → exec (.netSet e m) s = .next ({ v with
      net := vmod v.net (m.b 0) (fun x => { x with change := some m.payload, changeAt := v.now }) }.reply n 0x0008 m 0 [] true))

/-- Sessions in time (11 R334, R341, R346, R347; 12 R383; 16 R471; 18 R515): a lease that lapses sends its session
into the quarantine; an OPENING session not confirmed within 1 s frees its number; after 2 ms DMA still in flight is
cut off, and 20 ms after entry a drained session is FREE with CREC kept and no unit claimed; PERST of a function and a
new network address send the sessions behind them into the quarantine; a datagram that breaks the form is counted; a
session in the quarantine holds no direct page, and 8 ticks after entry it has no staged set and its contexts are
FREE. -/
def Obligations.SessionsInTime : Prop :=
  ∀ (e : Env) (s u : State) (n : Fin 256) (x : Sess), u = s.arrive e → x = u.ses n →
    (x.st = .confirmed → u.safe.mgmtDown = none → u.due x.renewAt (x.lease * qMs) = true →
      u.passesNow n (fun _ => true) = false →
      (x.cls = .steward → exec (.leaseLapse e n) s = .next (u.kennelEnter n)) ∧
      (x.cls ≠ .steward → exec (.leaseLapse e n) s = .next ((u.postSteward (u.ev 2 0x0108 n)).kennelEnter n))) ∧
    (u.passesNow n (fun _ => true) = true → exec (.leaseLapse e n) s = .next u) ∧
    (x.st = .opening → u.due x.openAt (1000 * qMs) = true → u.passesNow n (· == 2) = false → exec (.confirmTimeout e n) s =
      .next ((u.modSess n (fun _ => { crec := x.crec })).modXlt (fun t => { t with
        direct := t.direct.map (fun d => if d == some n.val then none else d) }))) ∧
    (∀ a : Nat, x.kennel = some ⟨a, false⟩ → u.due a (2 * qMs) = true → u.mgt.revs = [] →
      exec (.kennelCutoff e n) s = .next ((u.dmaCut n (u.unitsOf n) true).drainIf n)) ∧
    (∀ a : Nat, x.kennel = some ⟨a, true⟩ → u.mgt.revs = [] → u.safe.mgmtDown = none → ∃ t : State,
      exec (.kennelRelease e n) s = .next t ∧ t.ses n = { crec := x.crec } ∧ (∀ un : Fin 101, t.holder un ≠ some n.val) ∧
      (∀ un : Fin 101, u.holder un ≠ some n.val → t.holder un = u.holder un) ∧ t.pagesOf n = []) ∧
    (∀ f : Fin 4, x.net = false → x.fn = f.val → ∃ t, exec (.perst e f) s = .next t ∧
      ((t.ses n).st = .kennel ∨ (t.ses n).st = .free)) ∧
    (∀ (q : Fin 8) (a : List Byte), (vget u.net q).change = some a → u.due (vget u.net q).changeAt qMs = true → ∃ t : State,
      exec (.netAddressChange e q) s = .next t ∧ vget t.net q = { addr := a } ∧
      (x.net = true → x.ethPort = q.val → (t.ses n).st = .kennel ∨ (t.ses n).st = .free)) ∧
    (∀ d : List Byte,
      (datagramBad d = true →
        exec (.datagramDiscard e d) s = .next (u.modXlt (fun t => { t with netDropped := satAdd 32 t.netDropped 1 }))) ∧
      (datagramBad d = false → exec (.datagramDiscard e d) s = .next u)) ∧
    (x.st = .confirmed → ((u.kennelEnter n).ses n).st = .kennel ∧
      (∀ f : Fin 4, vget (u.kennelEnter n).xlt.direct f ≠ some n.val) ∧
      ⟨u.now + 8 * qTick, .flush n (u.unitsOf n) true⟩ ∈ (u.kennelEnter n).agenda) ∧
    ∀ us : List Nat, ((u.happen (.flush n us true)).ses n).stage = {} ∧
      ∀ (q : Fin 16) (c : Fin 64), (u.ctxOf q c).st ≠ .free → u.ctxSess q c = n.val →
        (u.happen (.flush n us true)).ctxOf q c = {}

/-- A claim is all or none, decided after the quarantines that release units in its instant and the claims of lower
sessions in it (01 R19; 12 R385); a release frees the named units; memory is given in whole pages and taken back; a
new root or an invalidation drops cached translations; a stalled stream resumes; MEM_WRITE and MEM_READ act on the
session's own device-virtual space (11 R348-R354; 12 R382; 13 R392; 18 R513). -/
def Obligations.ResourceCommands : Prop :=
  ∀ (e : Env) (m : Msg) (s u v : State) (n : Fin 256), u = s.arrive e →
    (u.Passes 0x0100 0 m n v →
      ∀ o : Option (Nat × Nat × Nat), o = (claimUnits m).find? (fun x => v.releaseFirst.claimed n x.1 ||
        (v.releaseFirst.rivalUnits n).contains x.1) →
      (o = none → ∃ w : State,
        exec (.claim e m) s = .next (w.reply n 0x0100 m 0 [] true) ∧ (∀ x ∈ claimUnits m, w.holder x.1 = some n.val) ∧
        ∀ un : Fin 101, (∀ x ∈ claimUnits m, x.1 ≠ un.val) → w.holder un = v.releaseFirst.holder un) ∧
      ∀ x : Nat × Nat × Nat, o = some x → exec (.claim e m) s =
        .next (v.releaseFirst.reply n 0x0100 m 0x010F (toLE 1 x.2.1 ++ toLE 1 x.2.2) true)) ∧
    (u.Passes 0x0101 0 m n v → ∀ l : List Nat, l = ((claimUnits m).map (·.1)).filter (v.holds n) →
      (l.any (v.ses n).stage.sealedUnits.contains = false → l.any (v.boundBy n) = false → ∃ w : State,
        exec (.release e m) s = .next (w.reply n 0x0101 m 0 [] true) ∧ (∀ un ∈ l, w.holder un = none) ∧
        ∀ un : Fin 101, un.val ∉ l → w.holder un = v.holder un) ∧
      (l.any (v.ses n).stage.sealedUnits.contains = true →
        exec (.release e m) s = .next (v.reply n 0x0101 m 0x0114 [] true))) ∧
    (u.Passes 0x0200 0 m n v → ∀ (k : Nat) (l : List Nat), k = m.f 0 4 →
      l = v.freePagesFrom (v.dramTop / 65536 - 4096) k 4096 →
      (v.mem.dok = true → (v.pagesOf n).length + k ≤ (v.ses n).quota → k ≤ l.length → ∃ w : State,
        exec (.memAlloc e m) s = .next (w.reply n 0x0200 m 0 (toLE 4 k ++ l.flatMap (toLE 4)) true) ∧
        (∀ pg ∈ l, w.pageHeld n pg = true) ∧ (∀ pg : Nat, pg ∉ l → SMap.get w.mem.owner 0 pg = SMap.get v.mem.owner 0 pg) ∧
        ∀ pg ∈ l, pg ∉ v.mem.filled → ∀ a : Nat, a / 65536 = pg → memByte w.dram a = 0) ∧
      ((v.ses n).quota < (v.pagesOf n).length + k → exec (.memAlloc e m) s = .next (v.reply n 0x0200 m 0x0110 [] true))) ∧
    (u.Passes 0x0201 0 m n v → ∀ l : List Nat, l = (List.range (m.f 0 4)).map (fun i => m.f (4 + 4 * i) 4) →
      (l.all (v.pageHeld n) = true → l.any (fun pg => v.pinned pg || (v.rootPages n).contains pg) = false → ∃ w : State,
        exec (.memFree e m) s = .next (w.reply n 0x0201 m 0 [] true) ∧ ∀ pg ∈ l, w.pageHeld n pg = false) ∧
      (l.all (v.pageHeld n) = false → exec (.memFree e m) s = .next (v.reply n 0x0201 m 0x0204 [] true))) ∧
    (u.Passes 0x0202 0 m n v → (∀ p : Fin 64, v.holds n p = true → (vget v.str p).reads = []) → ∃ w : State,
      exec (.ptSet e m) s = .next (w.reply n 0x0202 m 0 [] true) ∧ (w.ses n).root = wd (m.f 0 8) ∧
      ∀ (va : Nat) (wr : Bool), w.tlbHit n va wr = none) ∧
    (u.Passes 0x0203 0 m n v → (∀ p : Fin 64, v.holds n p = true → (vget v.str p).reads = []) → exec (.tlbInval e m) s =
      .next ((v.invalidate n (fun p => m.f 8 8 / 65536 == 0 ||
        (decide (m.f 0 8 / 65536 ≤ p) && decide (p < m.f 0 8 / 65536 + m.f 8 8 / 65536)))).reply n 0x0203 m 0 [] true)) ∧
    (u.Passes 0x0204 0 m n v →
      (v.holds n (m.b 0) = true → exec (.faultResume e m) s = .next ((v.strResume (m.b 0)).reply n 0x0204 m 0 [] true)) ∧
      (v.holds n (m.b 0) = false → exec (.faultResume e m) s = .next (v.reply n 0x0204 m 0x0102 [] true))) ∧
    (u.Passes 0x0205 0 m n v → ∀ r : State × Nat, r = v.vwrite n 3 0 (m.f 0 8) (m.payload.drop 8) →
      exec (.memWrite e m) s = .next (r.1.reply n 0x0205 m r.2 [] true)) ∧
    (u.Passes 0x0206 0 m n v → m.f 8 4 ≤ v.rspLimit n → ∀ (w : State) (b : List Byte),
      v.vread n 3 0 (m.f 0 8) (m.f 8 4) = (w, .ok b) → exec (.memRead e m) s = .next (w.reply n 0x0206 m 0 b true))

/-- The context commands (02 R29-R31; 03 R94, R95; 18 R516, R517): a valid image is loaded into a FREE context with
its code words in the program store; ARM arms the emergency context, which is then the only armed one of its
sequencer, and ends an EMERG_FAULT; START makes a stopped context READY at its entry with the registers of the
payload; STOP halts a context, aborts its swath, and frees it where asked. -/
def Obligations.ContextCommands : Prop :=
  ∀ (e : Env) (m : Msg) (s u v : State) (n : Fin 256) (q : Fin 16) (c : Fin 64) (x : Ctx), u = s.arrive e →
    m.b 0 = q.val → m.b 1 = c.val → x = v.ctxOf q c →
    (∀ (h b : List Byte) (v1 v2 : State) (k : Nat), u.Passes 0x0300 0 m n v → k = bitsN (leAt h 8 8) 18 0 →
      ((v.ses n).cls = .production → m.b 2 < 2) → v.levelOk n q (m.b 2) = true → v.vread n 3 0 (m.f 8 8) 64 = (v1, .ok h) →
      attrOk (m.b 2) (bitsN (leAt h 8 8) 39 38) = true → x.st = .free → 72 ≤ m.f 4 4 → m.f 4 4 ≤ 64 + 8 * 524280 →
      v1.vread n 3 0 (m.f 8 8) (m.f 4 4) = (v2, .ok b) → imageOk h (m.f 4 4) = true → crc32c (b.drop 64) = leAt h 24 4 →
      k ≤ v2.pFree → ∃ w : State, exec (.ctxLoad e m) s = .next (w.reply n 0x0300 m 0 (toLE 4 k) true) ∧
      w.ctxOf q c = ⟨.loaded, m.b 2, bitsN (leAt h 8 8) 39 38, n, 0, k, bitsN (leAt h 8 8) 37 19, bitsN (leAt h 8 8) 37 19,
        Vector.replicate 16 0, false, false, false, false, [], none, 0, []⟩ ∧
      (∀ i : Nat, i < k → SMap.find w.pstore (pKey q c i) = some (wd (leAt (b.drop 64) (8 * i) 8))) ∧
      ∀ d : Fin 64, d ≠ c → w.ctxOf q d = v2.ctxOf q d) ∧
    (u.Passes 0x0301 0 m n v → (v.ses n).cls ≠ .production → x.session = n.val → v.levelOk n q 3 = true → x.attr = 2 →
      v.ectx q = c.val → x.stopped = true → ∃ w : State, exec (.ctxArm e m) s = .next (w.reply n 0x0301 m 0 [] true) ∧
        w.ctxOf q c = x.restart m .armed v.now ∧ w.safe.emerg.testBit q = false ∧ (∀ d : Fin 64, d ≠ c →
          w.ctxOf q d = if (v.ctxOf q d).st = .armed then { v.ctxOf q d with st := .loaded } else v.ctxOf q d) ∧
        w.seq = v.seq ∧ w.fire = v.fire) ∧
    (u.Passes 0x0302 0 m n v → v.holds n (uSeq q) = true → x.session = n.val → x.stopped = true → ∃ w : State,
      exec (.ctxStart e m) s = .next (w.reply n 0x0302 m 0 [] true) ∧ w.ctxOf q c = x.restart m .ready v.now ∧
      (w.ctxOf q c).pc = x.entry ∧ (w.ctxOf q c).g = Vector.ofFn (fun i : Fin 16 =>
        if i.val ≠ 0 && (m.f 2 2).testBit i.val then wd (m.f (8 * i.val) 8) else 0) ∧
      ∀ d : Fin 64, d ≠ c → w.ctxOf q d = v.ctxOf q d) ∧
    (u.Passes 0x0302 0 m n v → v.holds n (uSeq q) = true → x.session = n.val → x.st = .armed →
      exec (.ctxStart e m) s = .next ((v.emergCore q c).reply n 0x0302 m 0 [] true)) ∧
    (u.Passes 0x0302 0 m n v → v.holds n (uSeq q) = false →
      exec (.ctxStart e m) s = .next (v.reply n 0x0302 m 0x0102 [] true)) ∧
    (u.Passes 0x0303 0 m n v → v.holds n (uSeq q) = true → x.session = n.val → m.b 2 = 0 → x.st = .ready ∨ x.st = .waiting →
      v.ownsSwath q c = false → exec (.ctxStop e m) s = .next ((v.modCtx q c (fun _ => { x with
        st := .halted, wait := none })).reply n 0x0303 m 0 [] true)) ∧
    (u.Passes 0x0303 0 m n v → v.holds n (uSeq q) = true → x.session = n.val → m.b 2 = 1 → x.st = .halted → ∃ w : State,
      exec (.ctxStop e m) s = .next (w.reply n 0x0303 m 0 [] true) ∧ w.ctxOf q c = {})

/-- Commits (12 R368-R379, R381): an accepted request seals the session's set and records CREC state 1; a second
request, an overflowed set and a range error are refused with their codes; STAGE_DISCARD drops the unsealed units; at
the commit point the generation rises by one, the words of the sealed units are in force, the units take the new
generation and enter catch-up, and CREC names the line; results of calibrations and the sets of lower sessions come
first in a tick; CTO after acceptance the request is withdrawn; a snapshot is written to the session's memory, after
the commits of its tick, and periodically every 1,250,000 ticks. -/
def Obligations.CommitCommands : Prop :=
  ∀ (e : Env) (m : Msg) (s u v y : State) (n : Fin 256) (x : Sess) (r : Req), u = s.arrive e →
    (u.Passes 0x0400 0 m n v → x = v.ses n →
      (x.req = none → x.stage.overflow = false → exec (.commit e m) s = .next ((v.modSess n (fun _ => { x with
        req := some { seq := m.b 0, line := m.f 4 4, cas := (m.b 1).testBit 0, base := m.f 8 8, at_ := v.now },
        crec := crecWord 0 1 false (m.b 0) false 0,
        stage := { x.stage with sealedUnits := x.stage.units, units := [], isSealed := true } })).reply n 0x0400 m 0 [] true)) ∧
      (x.req = some r → exec (.commit e m) s = .next ((v.commitRefuse n (m.b 0) (m.f 4 4) 0x0115).reply n 0x0400 m 0x0115 [] true)) ∧
      (x.req = none → x.stage.overflow = true → exec (.commit e m) s = .next
        (((v.modSess n (fun _ => { x with crec := crecWord 0 4 false (m.b 0) false 0x0111 })).commitRefuse n (m.b 0) (m.f 4 4)
          0x0111).reply n 0x0400 m 0x0111 [] true))) ∧
    (u.Passes 0x0401 0 m n v → x = v.ses n → ∃ w : State, exec (.stageDiscard e m) s = .next (w.reply n 0x0401 m 0 [] true) ∧
      (w.ses n).stage = { x.stage with units := [], overflow := false, overflowPosted := false } ∧
      w.mgt.staged = v.mgt.staged.filter (fun y => !x.stage.units.contains (unitAt y.1)) ∧
      w.mgt.live = v.mgt.live ∧ w.mgt.gen = v.mgt.gen ∧ w.ctx = v.ctx ∧ w.seq = v.seq ∧ w.dram = v.dram) ∧
    (x = u.ses n → x.req = some r → r.validated = false → u.safe.mgmtDown = none → ∀ (words : SMap Word) (view : Nat → Word),
      words = u.wordsOf x.stage.sealedUnits → view = u.withSet words →
      (∀ c : Nat, ((words ++ u.dependents words).map (fun y => rangeCode view y.1 (view y.1))).find? (· != 0) = some c →
        exec (.commitValidate e n) s = .next (u.dropReq n 4 c).fwPoll) ∧
      (((words ++ u.dependents words).map (fun y => rangeCode view y.1 (view y.1))).find? (· != 0) = none →
        refLimitsOk view = true → overlaps view = false → u.feedsReady (view feedCfgAddr) = true → u.etbPorts words = [] →
        exec (.commitValidate e n) s = .next (u.modSess n (fun _ => { x with req := some { r with validated := true } })).fwPoll)) ∧
    (y = u.calFirst → x = y.ses n → x.req = some r → y.swOpen r.seq = false → y.setReady n = true → r.cas = false →
      (∀ k : Fin 256, k < n → (y.ses k).req = none) → y.entryComes n = false →
      y.mgt.badTab.any (fun b => b.2 && x.stage.sealedUnits.contains (unitAt b.1)) = false →
      ∀ (words : SMap Word) (w z : State), words = y.wordsOf x.stage.sealedUnits →
        (words.any (fun c => inr c.1 0x01000180 0x010001FF) = false ∨ overlaps (y.withSet words) = false) →
        w = y.goLive x.stage.sealedUnits x.stage.sealedUnits words →
        z = w.each words (fun t c => t.commitHook c.1 (y.reg c.1) c.2) → ∃ t : State,
        exec (.commitPoint e n) s = .next t ∧ w.mgt.gen = y.mgt.gen + 1 ∧ w.mgt.staged = y.mgt.staged.filter
          (fun c => !x.stage.sealedUnits.contains (unitAt c.1)) ∧
        (∀ un : Fin 101, vget w.mgt.unitGen un = if un.val ∈ x.stage.sealedUnits then y.mgt.gen + 1 else vget y.mgt.unitGen un) ∧
        (words.Pairwise (fun a b => a.1 < b.1) → y.mgt.live.Pairwise (fun a b => a.1 < b.1) → ∀ a : Nat,
          w.reg a = (SMap.find words a).getD (y.reg a)) ∧
        w.mgt.catchups = y.mgt.catchups ++ x.stage.sealedUnits.map (fun c => { unit := c, since := y.now }) ∧
        (t.ses n).req = none ∧ (t.ses n).crec = crecWord (vget y.seq r.seq).ln 2 false r.seq r.program 0 ∧
        (t.ses n).stage.sealedUnits = [] ∧ (t.ses n).stage.isSealed = false ∧
        (r.program = false → t.mgt = z.mgt ∧ t.dram = z.dram ∧ t.kl = z.kl)) ∧
    (x = u.calFirst.ses n → x.req = some r → y = u.calFirst.commitReady n →
      (y.swOpen r.seq = false → exec (.commitPoint e n) s = .next y) ∧
      (y.swOpen r.seq = true → exec (.commitPoint e n) s = .next (match y.readDue r.seq with
        | some line => if r.line ≤ line && y.setReady n then y.boundary r.seq line else y
        | none => y))) ∧
    (y = u.commitFirst.commitReady n → x = y.ses n → x.req = some r → ∀ cto : Nat, cto = y.rf 0x00100018 15 0 →
      (cto ≠ 0 → y.due r.at_ (cto * qMs) = true → exec (.commitTimeout e n) s = .next (y.dropReq n 3 0x0116) ∧
        (r.program = false → ((y.dropReq n 3 0x0116).ses n).req = none ∧
          ((y.dropReq n 3 0x0116).ses n).crec = crecWord 0 3 false r.seq false 0x0116 ∧
          ((y.dropReq n 3 0x0116).ses n).stage = x.stage.unseal)) ∧
      (cto = 0 ∨ y.due r.at_ (cto * qMs) = false → exec (.commitTimeout e n) s = .next y)) ∧
    (∀ un : Fin 101, exec (.catchupDone e un) s = .next (u.modMgt (fun g => { g with
      catchups := g.catchups.filter (fun c => c.unit != un.val) }))) ∧
    (u.Passes 0x0402 0 m n v → y = v.commitFirst → ∀ w : State,
      y.vwrite n 3 0 (m.f 0 8) (y.snapRecord n 2 0 m.ranges) = (w, 0) →
      exec (.snapshot e m) s = .next (w.reply n 0x0402 m 0 (toLE 8 y.mgt.gen) true)) ∧
    (x = u.ses n → x.st = .confirmed → bit (u.reg (0x00103000 + 8 * n)) 0 = true →
      u.due x.snapAt (1250000 * qTick) = true → y = u.commitFirst →
      ∀ (w : State) (c : Nat), y.vwrite n 3 0 (bits (u.reg (0x00103000 + 8 * n)) 47 16 * 65536 +
        65536 * (x.snapK % (bits (u.reg (0x00103000 + 8 * n)) 4 1 + 1))) (y.snapRecord n 1 x.snapK []) = (w, c) →
      exec (.snapshotPeriodic e n) s = .next (w.modSess n (fun y => { y with
        snapK := (y.snapK + 1) % 2 ^ 32, snapAt := y.snapAt + 1250000 * qTick })))

/-- The store and the firmware (13 R409; 15 R450-R452; 16 R475-R477): REPAIR is refused with REPAIR_FAIL or waits for
its test window; NV_WRITE and NV_READ work on host records of a session's memory, one write per second and record;
FW_STAGE authenticates an image into the bank not in use; FW_SWITCH waits until the management plane is quiet, 100 ms
at most, and begins probation in it, which ends with the bank kept or switched back. -/
def Obligations.StoreAndFirmware : Prop :=
  ∀ (e : Env) (m : Msg) (s u v w : State) (n : Fin 256) (b : List Byte), u = s.arrive e →
    (∀ z : Nat → State, z = (fun k => if v.repairRefusal (m.f 0 4) k = 0 then
          (v.modMem (fun x => { x with repairs := x.repairs ++ [⟨m.f 0 4, k, n, m⟩] })).modSess n (fun x => { x with busy := !x.net })
        else (v.postTo n (v.ev 2 0x0B0D 0 none (wd (v.repairRefusal (m.f 0 4) k)))).reply n 0x0404 m 0x0B0D [] true) →
      (u.Passes 0x0404 1 m n v → exec (.repairRow e m) s = .next (z 1)) ∧
      (u.Passes 0x0404 2 m n v → exec (.repairRetest e m) s = .next (z 2))) ∧
    (u.Passes 0x0500 0 m n v →
      (nvHost (m.f 0 2) = false → exec (.nvWrite e m) s = .next (v.reply n 0x0500 m 0x0B13 [] true)) ∧
      (nvHost (m.f 0 2) = true → m.f 4 4 ≤ 32748 → v.nvRate (m.f 0 2) = true →
        exec (.nvWrite e m) s = .next (v.reply n 0x0500 m 0x0B12 [] true)) ∧
      (nvHost (m.f 0 2) = true → m.f 4 4 ≤ 32748 → v.nvRate (m.f 0 2) = false → v.vread n 3 0 (m.f 8 8) (m.f 4 4) = (w, .ok b) →
        ∀ (z : State) (ok : Bool), w.nvWrite (m.f 0 2) b (some n) = (z, ok) →
          exec (.nvWrite e m) s = .next (z.reply n 0x0500 m (if ok then 0 else 0x0B11) [] true) ∧
          (ok = true → b.length ≤ 32748 → (z.nvRec (m.f 0 2)).wroteAt = some w.now ∧
            (z.nvRec (m.f 0 2)).current.map (·.payload) = some b))) ∧
    (u.Passes 0x0501 0 m n v →
      (v.mayNvRead n (m.f 0 2) = false → exec (.nvRead e m) s = .next (v.reply n 0x0501 m 0x0102 [] true)) ∧
      (v.mayNvRead n (m.f 0 2) = true → v.nvRead (m.f 0 2) = (w, none) →
        exec (.nvRead e m) s = .next (w.reply n 0x0501 m 0x0B14 [] true)) ∧
      (v.mayNvRead n (m.f 0 2) = true → v.nvRead (m.f 0 2) = (w, some b) → ∀ z : State,
        w.vwrite n 3 0 (m.f 8 8) b = (z, 0) → exec (.nvRead e m) s = .next (z.reply n 0x0501 m 0 (toLE 4 b.length) true))) ∧
    (u.Passes 0x0502 0 m n v →
      (v.pws.fwSt ≠ .idle → exec (.fwStage e m) s = .next (v.reply n 0x0502 m 0x0D0F [] true)) ∧
      (v.pws.fwSt = .idle → v.vread n 3 0 (m.f 0 8) (m.f 8 4) = (w, .ok b) → ∃ (t : State) (c : Nat),
        exec (.fwStage e m) s = .next (t.reply n 0x0502 m c [] true) ∧ t.pws.fwSt = .idle ∧
        (Config.imageAuthentic b = true → w.pws.fwMin ≤ Config.imageVersion b % 65536 →
          c = 0 ∧ t.pws.fwStaged = true ∧ t.pws.fwOther = Config.imageVersion b % 65536) ∧
        (Config.imageAuthentic b = false ∨ Config.imageVersion b % 65536 < w.pws.fwMin →
          c = 0x0D0E ∧ t.pws.fwStaged = false) ∧ t.pws.fwBank = w.pws.fwBank ∧ t.pws.fwVer = w.pws.fwVer)) ∧
    (u.Passes 0x0503 0 m n v →
      (v.pws.fwWait.isSome = true → exec (.fwSwitch e m) s = .next (v.reply n 0x0503 m 0x0D0F [] true)) ∧
      (v.pws.fwWait = none → v.pws.fwStaged = false ∨ v.pws.fwSt ≠ .idle →
        exec (.fwSwitch e m) s = .next (v.reply n 0x0503 m 0x0D0E [] true)) ∧
      (v.pws.fwWait = none → v.pws.fwStaged = true → v.pws.fwSt = .idle → v.safe.mgmtDown = none →
        (v.mgmtQuiet = false → exec (.fwSwitch e m) s = .next ((v.modPws (fun x => { x with
          fwWait := some v.now, fwMsg := some (n.val, m) })).modSess n (fun x => { x with busy := !x.net }))) ∧
        (v.mgmtQuiet = true → ∃ t, exec (.fwSwitch e m) s = .next t ∧
          t.pws = { v.pws with
            fwSt := .probation, fwAt := v.now, fwBank := 1 - v.pws.fwBank, fwVer := v.pws.fwOther, fwOther := v.pws.fwVer,
            fwMsg := some (n.val, m), fwStaged := false, fwWait := none } ∧
          t.safe.mgmtDown = some v.now ∧ t.ctx = v.ctx ∧ t.seq = v.seq ∧ t.fire = v.fire ∧ t.mgt = v.mgt))) ∧
    (∀ t : Nat, u.pws.fwWait = some t → u.pws.fwMsg = some (n.val, m) → u.safe.mgmtDown = none →
      (u.due t (100 * qMs + 4) = false → u.mgmtQuiet = true → u.fwPoll = u.fwRestart) ∧
      (u.due t (100 * qMs + 4) = true → u.isOpen n = true → u.fwPoll =
        (u.modPws (fun x => { x with fwWait := none, fwMsg := none })).reply n 0x0503 m 0x0D0F [] true) ∧
      (u.due t (100 * qMs + 4) = false → u.mgmtQuiet = false → u.fwPoll = u)) ∧
    (u.pws.fwSt = .probation →
      (u.due u.pws.fwAt (10000 * qMs) = true → ∃ t, exec (.fwProbationEnd e true) s = .next t ∧ t.pws.fwSt = .idle ∧
        t.pws.fwBank = u.pws.fwBank ∧ t.pws.fwSel = u.pws.fwBank ∧ t.pws.fwMin = max u.pws.fwMin u.pws.fwVer ∧
        t.pws.fwMsg = none ∧ t.safe.mgmtDown = u.safe.mgmtDown ∧ t.ctx = u.ctx ∧ t.seq = u.seq ∧ t.fire = u.fire) ∧
      ∃ t, exec (.fwProbationEnd e false) s = .next t ∧ t.pws.fwSt = .idle ∧ t.pws.fwBank = 1 - u.pws.fwBank ∧
        t.pws.fwVer = u.pws.fwOther ∧ t.pws.fwSel = u.pws.fwSel ∧ t.pws.fwMsg = none ∧ t.safe.mgmtDown = some u.now ∧
        t.ctx = u.ctx ∧ t.seq = u.seq ∧ t.fire = u.fire)

/-- A calibration command (15 R439-R442): refused with FORMAT, RIGHTS or CAL_REFUSED (a target in calibration, or
taken by a lower session's request in this instant, included), or accepted into the lowest free run slot, which holds
the units that its result writes, and answered with the slot. -/
def Obligations.CalibrationsAreAccepted : Prop :=
  ∀ (e : Env) (m : Msg) (s u v w : State) (n : Fin 256) (r : Fin 4) (held ts : List Nat), u = s.arrive e →
    (∀ z : Nat → State, (∀ (k : Nat) (x : State) (a : Nat × List Byte), v.doCal n m k = (x, some a) →
        z k = x.reply n 0x0403 m a.1 (if a.1 = 0 || !a.2.isEmpty then a.2 else []) true) →
      (u.Passes 0x0403 0 m n v → exec (.calRestore e m) s = .next (z 0)) ∧
      (u.Passes 0x0403 1 m n v → exec (.calLane e m) s = .next (z 1)) ∧
      (u.Passes 0x0403 2 m n v → exec (.calAlign e m) s = .next (z 2)) ∧
      (u.Passes 0x0403 3 m n v → exec (.calDark e m) s = .next (z 3)) ∧
      (u.Passes 0x0403 4 m n v → exec (.calFlat e m) s = .next (z 4)) ∧
      (u.Passes 0x0403 5 m n v → exec (.calTemptrim e m) s = .next (z 5)) ∧
      (u.Passes 0x0403 6 m n v → exec (.calDramrt e m) s = .next (z 6))) ∧
    ∀ c : Instr × Nat, c ∈ [(Instr.calRestore e m, 0), (.calLane e m, 1), (.calAlign e m, 2), (.calDark e m, 3), (.calFlat e m, 4),
      (.calTemptrim e m, 5), (.calDramrt e m, 6)] → u.Passes 0x0403 c.2 m n v →
    (calForm m c.2 = false → exec c.1 s = .next (v.reply n 0x0403 m 0x010C [] true)) ∧
    (calForm m c.2 = true → (calClaims c.2 (m.b 1) (m.b 2) (m.f 8 2)).all (v.holds n) = false →
      exec c.1 s = .next (v.reply n 0x0403 m 0x0102 [] true)) ∧
    (calForm m c.2 = true → (calClaims c.2 (m.b 1) (m.b 2) (m.f 8 2)).all (v.holds n) = true →
      ((∀ k : Fin 4, (v.run k).st ≠ .free) → exec c.1 s = .next (v.reply n 0x0403 m 0x0E01 [] true)) ∧
      ((∀ k : Fin 4, k < r → (v.run k).st ≠ .free) → (v.run r).st = .free → ts = calTargets c.2 (m.b 1) (m.b 2) (m.f 8 2) →
        (v.calTaken ts = true ∨ v.calRival n ts = true → exec c.1 s = .next (v.reply n 0x0403 m 0x0E01 [] true)) ∧
        (v.calTaken ts = false → v.calRival n ts = false → held = v.calUnits c.2 (m.b 1) (m.f 8 2) →
          w = (v.modRun r (fun _ => {
            st := .running, proc := c.2, target := m.b 1, target2 := m.b 2, session := n, save := (m.b 3).testBit 0,
            since := v.now, timeout := m.f 4 4, param := m.payload.drop 8, held := held })).calHolds →
          (v.calPre c.2 (m.b 1) held (m.f 8 2) = 0 → exec c.1 s = .next ((w.calStart r).reply n 0x0403 m 0 (toLE 4 r) true)) ∧
          (v.calPre c.2 (m.b 1) held (m.f 8 2) ≠ 0 → exec c.1 s = .next ((w.calEndOpen r
            (v.calPre c.2 (m.b 1) held (m.f 8 2))).reply n 0x0403 m 0 (toLE 4 r) true)) ∧
          (∀ un : Fin 101, un.val ∈ held → (∀ k : Fin 4, k < r → (v.run k).st = .free ∨ un.val ∉ (v.run k).held) →
            vget w.mgt.holds un = some (256 + r.val)) ∧
          (∀ un : Fin 101, un.val ∉ held → (∀ k : Fin 4, (v.run k).st = .free ∨ un.val ∉ (v.run k).held) →
            (vget v.mgt.holds un).all (· < 256) = true → vget w.mgt.holds un = vget v.mgt.holds un))))

/-- What an accepted calibration begins with (15 R441, R444): LANE takes its port to CAL under a drop order, ALIGN
arms the alignment unit, DARK and FLAT discard the frames under way, DRAMRT takes its channel out of service, TEMPTRIM
waits; RESTORE ends at once, with no record, with another identity, or with the record's words in force. What the
measurements of DARK and FLAT put in force (15 R443, R444): the words of CAM.CORR hold the mean of each phase and
those of CAM.FLAT the gain of each column, as a commit of its own that raises the generation by one; a mean above the
limit, a spread above 2,048, a saturated pixel, an uneven field or a gain out of range ends without effect. -/
def Obligations.CalibrationsBeginAndMeasure : Prop :=
  (∀ (u : State) (r : Fin 4) (c : CalRun), c = u.run r →
    (c.proc = 1 → u.calStart r = u.calBegin c.target ∧
      (c.target < 64 → (vget (u.calBegin c.target).kl c.target).st = .cal ∧
      ((∀ q : Fin 16, (vget u.seq q).swst ≠ .opened) → (u.calBegin c.target).seq = u.seq))) ∧
    (c.proc = 2 → ∃ t, u.calStart r = t ∧ t.hlt.al.isSome = true ∧ t.hlt.alDone = false ∧ t.cal = u.cal ∧ t.mgt = u.mgt ∧
      t.hlt.al.map (fun a => (a.cam, a.seq)) = some (c.target2, c.target)) ∧
    (c.proc = 3 ∨ c.proc = 4 → c.target < 4 → (u.calStart r).cal = u.cal ∧
      ∀ f ∈ (vget (u.calStart r).cam c.target).frames, f.cal = false) ∧
    (c.proc = 5 → u.calStart r = u) ∧
    (c.proc = 6 → c.target < 4 → (vget (u.calStart r).mem.ch c.target).st = .retrain ∧
      ∀ k : Fin 4, k.val ≠ c.target → vget (u.calStart r).mem.ch k = vget u.mem.ch k) ∧
    (c.proc = 0 → (nvCal c.rid = false → u.calStart r = u.calEndOpen r 0x0E0E) ∧
      ∀ (w : State) (b : List Byte), nvCal c.rid = true →
        (u.nvRead c.rid = (w, none) → u.calStart r = w.calEndOpen r 0x0E0E) ∧
        (u.nvRead c.rid = (w, some b) → w.sameIdent c.rid b = false → u.calStart r = w.calEndOpen r 0x0E09) ∧
        (u.nvRead c.rid = (w, some b) → w.sameIdent c.rid b = true → c.rid ≠ 0x1200 →
          u.calStart r = (w.makeLive (w.run r).held (recordWords c.rid b)).calEndOpen r 0))) ∧
  (∀ (u w : State) (r : Fin 4) (c : CalRun) (z : List Nat × Nat) (q1 : Nat), c = u.run r → w = u.draw.1 →
    z = darkResult c.taken u.draw.2 → q1 = z.1.foldl max 0 →
    (leAt c.param 2 2 < q1 → u.darkEnd r = w.calEnd r 0x0E08 q1 z.2) ∧
    (q1 ≤ leAt c.param 2 2 → 2048 < z.2 → u.darkEnd r = w.calEnd r 0x0E09 q1 z.2) ∧
    (q1 ≤ leAt c.param 2 2 → z.2 ≤ 2048 → c.save = false → c.target < 4 → u.darkEnd r = (w.makeLive c.held [(corrAddr c.target,
      fields (z.1.zipIdx.map (fun x => (16 * x.2, 16, x.1))))]).calEnd r 0 q1 z.2) ∧
    (c.taken.any (fun f => f.sumPx (fun x y => f.sample x y == 2 ^ f.dw - 1) (fun _ _ => 1) != 0) = true → ∃ (a b : Nat),
      u.flatEnd r = w.calEnd r 0x0E08 a b) ∧
    (∀ (words : SMap Word) (units : List Nat), (u.goLive units [] words).mgt.gen = u.mgt.gen + 1))

/-- How a calibration ends (15 R441-R447, R455; 07 R243): a result of the instant first, ABORT and the run slot's
timeout begin its closing phase, at whose end CAL.RES takes its code and CAL_DONE is posted; a finished TEMPTRIM puts
target − average in force within ±5 °C and a spread of 1 °C, else fails with its code; the others end through their
measurements; a lane calibration, 175 µs after it began, takes the preset with the fewest errors into force and goes
on to its push. Nothing ends in a management-plane interruption (01 R13). -/
def Obligations.CalibrationsEnd : Prop :=
  ∀ (e : Env) (m : Msg) (s u v y : State) (n : Fin 256) (r : Fin 4) (c : CalRun), u = s.arrive e → c = u.run r →
    (u.Passes 0x0403 0xFF m n v → m.b 1 = r.val → zeroAt m.payload 8 63 = true → y = v.resultFirst r →
      exec (.calAbort e m) s = .next ((if (y.run r).st = .free then y else y.modRun r (fun z => { z with
        st := .closing, aborted := true })).reply n 0x0403 m 0 (toLE 4 r) true)) ∧
    (y = u.resultFirst r →
      ((y.run r).st = .running → y.due (y.run r).since ((y.run r).timeout * qMs) = true → exec (.calTimeout e r) s =
        .next (y.modRun r (fun z => { z with st := .closing, timedOut := true }))) ∧
      ((y.run r).st ≠ .running ∨ y.due (y.run r).since ((y.run r).timeout * qMs) = false →
        exec (.calTimeout e r) s = .next y)) ∧
    (∀ lanes : List (BitVec 256 × BitVec 256),
      (u.safe.mgmtDown.isSome = true → exec (.calDone e r lanes) s = .next u) ∧
      (u.safe.mgmtDown = none →
        (c.st = .closing → c.proc ≠ 1 → ∃ t, exec (.calDone e r lanes) s = .next t ∧
          (t.run r).st = .free ∧ (t.run r).resCode = (if c.aborted = true then 0x0E0D else 0x0E0C) ∧ t.mgt.gen = u.mgt.gen ∧
          t.mgt.live = u.mgt.live ∧ (c.proc = 6 → c.target < 4 → (vget t.mem.ch c.target).st ≠ .retrain) ∧
          ∀ k : Fin 4, k ≠ r → t.run k = u.run k) ∧
        (c.st = .running → c.proc = 5 → u.due c.since (1000 * qMs) = true → c.tCnt ≠ 0 → ∀ (num : Int) (spread : Nat),
          num = signedN 16 (leAt c.param 0 2) * c.tCnt - c.tSum → spread = (c.tHi - c.tLo).toNat → ∃ (trim : Int) (t : State),
            (trim = num / c.tCnt ∨ (num % c.tCnt ≠ 0 ∧ trim = num / c.tCnt + 1)) ∧ exec (.calDone e r lanes) s = .next t ∧
            (t.run r).st = .free ∧ (t.run r).q1 = cutN 16 trim ∧ (t.run r).q2 = sat 16 spread ∧
            (16 < spread → (t.run r).resCode = 0x0E0B ∧ t.cal.dtTrim = u.cal.dtTrim ∧ t.mgt.gen = u.mgt.gen) ∧
            (spread ≤ 16 → trim < -80 ∨ 80 < trim → (t.run r).resCode = 0x0E09 ∧ t.cal.dtTrim = u.cal.dtTrim) ∧
            (spread ≤ 16 → -80 ≤ trim → trim ≤ 80 → (t.run r).resCode = 0 ∧ t.cal.dtTrim = trim ∧
              t.mgt.gen = u.mgt.gen + 1)) ∧
        (c.st = .running → c.proc = 2 → u.hlt.al = none → u.hlt.alDone = true →
          exec (.calDone e r lanes) s = .next (u.alignEnd r)) ∧
        (c.st = .running → c.proc = 3 → leAt c.param 0 1 ≤ c.frames.length →
          exec (.calDone e r lanes) s = .next (u.darkEnd r)) ∧
        (c.st = .running → c.proc = 4 → leAt c.param 0 1 ≤ c.frames.length →
          exec (.calDone e r lanes) s = .next (u.flatEnd r)) ∧
        (c.st = .running → c.proc = 6 → c.target < 4 → ∀ l : List Word,
          l = (List.range 10).map (fun i => laneResult (u.rf chCfgAddr 30 24) (lanes.getD i (0, 0))) → ∃ t,
          exec (.calDone e r lanes) s = .next t ∧ (t.run r).st = .free ∧
          (vget t.mem.ch c.target).retrains = ((vget u.mem.ch c.target).retrains + 1) % 2 ^ 32 ∧
          (t.run r).resCode = (if l.all (fun w => bit w 32) = false then 0x0E0A
            else if 16 < (l.zipIdx.map (fun w => centreMove (vget (vget u.mem.ch c.target).trres w.2) w.1)).foldl max 0
            then 0x0E09 else 0) ∧
          ((t.run r).resCode = 0 → ∀ i : Fin 10, vget (vget t.mem.ch c.target).trres i = l.getD i 0)))) ∧
    (∀ p : Fin 64,
      ((vget u.kl p).st ≠ .cal ∨ u.safe.mgmtDown.isSome = true → exec (.laneCalDone e p) s = .next u) ∧
      ((∀ k : Fin 4, (u.run k).st = .free ∨ (u.run k).proc ≠ 1 ∨ (u.run k).target ≠ p.val) →
        (u.due (vget u.kl p).since (175 * qUs) = false → exec (.laneCalDone e p) s = .next u) ∧
        ((vget u.kl p).st = .cal → u.safe.mgmtDown = none → u.due (vget u.kl p).since (175 * qUs) = true →
          (∀ x : Nat × Nat, (vget u.kl p).calLocked = true → (vget u.kl p).calChoice = some x → ∀ w : State,
            w = (u.draw.1.goLive [p] [] [(txeqAddr p, fields [(0, 4, 2 * x.1), (8, 5, 8 + 4 * x.1)])]).laneReturn p →
            exec (.laneCalDone e p) s = .next (w.postUnit p (w.ev 11 0 p (w.segOf p)
              (fields [(0, 32, sat 16 x.2), (32, 32, bits (vget u.kl p).eye 6 0)])))) ∧
          ((vget u.kl p).calLocked = false → ∃ t, exec (.laneCalDone e p) s = .next t ∧ t.mgt = u.mgt ∧ t.seq = u.seq))))

/-- Register access (00 R7, R8; 11 R330, R331, R339; 12 R365-R368; 18 R507, R508, R515): REG_READ answers the words
read and changes nothing but the latch of NOWSEC; a write to a multi-staged register goes to the session's staged set
and leaves the value in force, or is refused with RIGHTS (an axis with its own code), STAGE_HELD (a calibration of the
tick included), SEALED or OVERFLOW; a critical register takes AUTH_WRITE alone; a BAR0 write that is misaligned or
comes without a direct session is discarded and counted, as is a window write; a window access of device DRAM reads or
writes the session's pages. -/
def Obligations.RegisterAccess : Prop :=
  ∀ (e : Env) (m : Msg) (s u v y : State) (n : Fin 256) (f : Fin 4), u = s.arrive e →
    (u.Passes 0x0600 0 m n v → 8 * m.f 4 2 ≤ v.rspLimit n → ∀ fn : Nat, fn = (match m.path with
      | .pcie g _ => g.val
      | .net _ _ _ => 0) → ∃ (w : State) (b : List Byte), exec (.regRead e m) s = .next (w.reply n 0x0600 m 0 b true) ∧
        b.length = 8 * m.f 4 2 ∧ leAt b 0 8 = (v.readWord (some n.val) fn (m.f 0 4)).toNat ∧ w = { v with tim := w.tim } ∧
        ((∀ i : Nat, i < m.f 4 2 → m.f 0 4 + 8 * i ≠ 0x05000018 ∧ m.f 0 4 + 8 * i ≠ 0x05000020) → w = v ∧
          b = (List.range (m.f 4 2)).flatMap (fun i => toLE 8 (v.readWord (some n.val) fn (m.f 0 4 + 8 * i)).toNat))) ∧
    (∀ (a : Nat) (g : RegRow) (o : Option Nat), (regAt a = none → v.readWord o f a = 0) ∧
      (v.phase = .ready → regAt a = some g → (g.acc = .ms → v.readWord o f a = wd ((v.reg a).toNat &&& g.wmask a)) ∧
        (g.acc = .wo → v.readWord o f a = 0))) ∧
    (u.Passes 0x0601 0 m n v → m.f 4 2 = 1 → ∀ (a k : Nat) (g : RegRow) (x : Sess), a = m.f 0 4 → y = v.acceptFirst →
      x = y.ses n → regAt a = some g → k = g.unit a →
      (critReg g.base = true → exec (.regWrite e m) s =
        .next ((v.postErr n 0x010A (g.idx a)).reply n 0x0601 m 0x010A (toLE 4 0) true)) ∧
      (critReg g.base = false → g.acc = .ms →
        (y.mayStage n k = false → ∀ c : Nat, c = (if 84 ≤ k ∧ k < 92 then 0x0804 else 0x0102) → exec (.regWrite e m) s =
          .next ((y.postErr n c (if 84 ≤ k ∧ k < 92 then k - 84 else k)).reply n 0x0601 m c (toLE 4 0) true)) ∧
        (y.mayStage n k = true → y.calComing k = true →
          exec (.regWrite e m) s = .next ((y.postErr n 0x0113 k).reply n 0x0601 m 0x0113 (toLE 4 0) true)) ∧
        (y.mayStage n k = true → y.calComing k = false →
          (∀ j : Nat, vget y.mgt.holds k = some j → j ≠ n →
            exec (.regWrite e m) s = .next ((y.postErr n 0x0113 k).reply n 0x0601 m 0x0113 (toLE 4 0) true)) ∧
          ((∀ j : Nat, vget y.mgt.holds k = some j → j = n) →
            (x.stage.sealedUnits.contains k = true →
              exec (.regWrite e m) s = .next ((y.postErr n 0x0114 k).reply n 0x0601 m 0x0114 (toLE 4 0) true)) ∧
            (x.stage.sealedUnits.contains k = false → y.entries n < 512 → y.shadowUsed < 2048 → ∃ w : State,
              exec (.regWrite e m) s = .next (w.reply n 0x0601 m 0 (toLE 4 1) true) ∧
              w.stagedReg a = mergeWord (y.stagedBy n a) (all64 &&& g.wmask a) (m.f 8 8) ∧ w.mgt.live = y.mgt.live ∧
              (w.ses n).stage.units = addOnce k x.stage.units ∧ (∀ j : Fin 256, j ≠ n → w.ses j = y.ses j) ∧
              w.mgt.gen = y.mgt.gen ∧ w.ctx = y.ctx ∧ w.seq = y.seq ∧ w.fire = y.fire ∧ w.dram = y.dram) ∧
            (x.stage.sealedUnits.contains k = false → g.table = false → SMap.find y.mgt.staged a = none →
              512 ≤ y.entries n ∨ 2048 ≤ y.shadowUsed → x.stage.overflowPosted = true → exec (.regWrite e m) s =
                .next ((y.modSess n (fun _ => { x with
                  stage := { x.stage with overflow := true, overflowPosted := true } })).reply n 0x0601 m 0x0117 (toLE 4 0) true)))))) ∧
    (u.Passes 0x0602 0 m n v → ∀ r : State × Nat, r = v.writeWord n (m.f 0 4) all64 (m.f 8 8) true true →
      exec (.authWrite e m) s = .next (r.1.reply n 0x0602 m r.2 [] true)) ∧
    (∀ (a : BitVec 27) (d : List Byte), u.phase = .ready →
      (([1, 2, 4, 8].contains d.length && a.toNat % d.length == 0) = false →
        exec (.registerWrite e f a d) s = .next (u.dropWr f)) ∧
      (([1, 2, 4, 8].contains d.length && a.toNat % d.length == 0) = true →
        (regAt a.toNat = none → exec (.registerWrite e f a d) s = .next u) ∧
        (∀ g : RegRow, regAt a.toNat = some g → g.base ≠ 0x00080000 →
          (g.table = false → d.length ≠ 8 → exec (.registerWrite e f a d) s = .next (u.dropWr f)) ∧
          (g.table = true ∨ d.length = 8 →
            (vget u.xlt.direct f = none → exec (.registerWrite e f a d) s = .next (u.dropWr f)) ∧
            ∀ k : Nat, vget u.xlt.direct f = some k → exec (.registerWrite e f a d) s = .next
              (u.writeWord k (a.toNat / 8 * 8) ((2 ^ (8 * d.length) - 1) * 2 ^ (8 * (a.toNat % 8)))
                (leNat d * 2 ^ (8 * (a.toNat % 8))) false false).1)))) ∧
    (∀ (o : BitVec 27) (d : List Byte), u.phase = .ready →
      (vget u.xlt.direct f = none → exec (.windowAccess e f o true d) s = .next (u.dropWr f) ∧
        exec (.windowAccess e f o false d) s = .next (u.emit (.window f (zeros d.length)))) ∧
      ∀ (k : Nat) (w : State) (l : List Piece) (b : List Byte), vget u.xlt.direct f = some k →
        (∀ wr : Bool, u.access k 3 0 wr (u.winBase f + o.toNat) d.length = (w, .ok l) → l.all (·.dram) = true →
          (wr = true → exec (.windowAccess e f o wr d) s = .next (w.writePieces k l d)) ∧
          (wr = false → ∀ z : State, w.readPieces k 3 l = (z, .ok b) →
            exec (.windowAccess e f o wr d) s = .next (z.emit (.window f b))) ∧
          (wr = false → ∀ (z : State) (c : Nat), w.readPieces k 3 l = (z, .error c) →
            exec (.windowAccess e f o wr d) s = .next (z.emit (.window f (zeros d.length) true)))) ∧
        (∀ (wr : Bool) (c : Nat), u.access k 3 0 wr (u.winBase f + o.toNat) d.length = (w, .error c) →
          exec (.windowAccess e f o wr d) s = .next (if wr = true then w else w.emit (.window f (zeros d.length)))))

/-- Event queues and interrupt vectors (11 R332, R334-R336; 17 R486-R489; 18 R508, R518, R519): the read index, up to
the records that are in DRAM, takes those before it away; a record with an uncorrectable word reads as a GAP with
EVQ_ECC; an Ifeud session's records are sent in datagrams, and sent again 10 ms after one is not acknowledged; a queue
that lost records takes one GAP record when two slots are free; a command written while the last is BUSY posts BUSY;
an unmasked vector that is pending is sent. -/
def Obligations.EventQueues : Prop :=
  ∀ (e : Env) (s u : State) (n : Fin 256) (x : Sess), u = s.arrive e → x = u.ses n →
    (x.busy = true → exec (.cmdOverrun e n) s = .next (u.postErr n 0x010B n)) ∧
    (x.busy = false → exec (.cmdOverrun e n) s = .next u) ∧
    (∀ (i : Fin 4096) (k : Nat), k = (i.val + 4096 - x.evq.rd) % 4096 → x.st = .confirmed →
      (x.net = false → k ≤ x.evq.held.length - x.evq.fresh → x.evq.loss = none → ∃ t, exec (.evrdWrite e n i) s = .next t ∧
        (t.ses n).evq.rd = i.val ∧ (t.ses n).evq.held = x.evq.held.drop k ∧
        (∀ j : Fin 256, j ≠ n → t.ses j = u.ses j) ∧ t.mgt = u.mgt ∧ t.dram = u.dram) ∧
      (x.net = false → x.evq.held.length - x.evq.fresh < k → exec (.evrdWrite e n i) s = .next u) ∧
      (∀ (m : Msg) (q : Fin 8), m.session = n → u.phase = .ready → x.net = true → m.path = .net q x.peer x.peerPort →
        x.evq.loss = none → k ≤ x.evq.held.length - x.evq.fresh → exec (.evack e m i) s = .next (u.modSess n (fun _ => { x with
          evq := { x.evq with rd := i.val, held := x.evq.held.drop k, sent := x.evq.sent - k } }))) ∧
      (∀ (m : Msg) (q : Fin 8) (a udp : Nat), m.session = n → u.phase = .ready → x.net = true → m.path = .net q a udp →
        x.peer ≠ a ∨ x.peerPort ≠ udp → exec (.evack e m i) s = .next (u.modXlt (fun t => { t with
          netDropped := satAdd 32 t.netDropped 1 })))) ∧
    (x.net = true → x.st = .confirmed → u.dramUe = [] → u.dramCe = [] →
      (∀ k : Nat, k = min (u.evMax n) (x.evq.held.length - x.evq.fresh - x.evq.sent) → k ≠ 0 → ∃ t,
        exec (.eventsSend e n) s = .next t ∧ u.Sent n x.evq.sent k t) ∧
      (∀ k : Nat, k = min (min x.evq.sent (u.evMax n)) (x.evq.held.length - x.evq.fresh) → k ≠ 0 →
        u.due x.evq.sentAt (10 * qMs) = true → ∃ t, exec (.eventsResend e n) s = .next t ∧ u.Sent n 0 k t)) ∧
    (x.st = .free ∨ x.net = false → exec (.eventsSend e n) s = .next u ∧ exec (.eventsResend e n) s = .next u) ∧
    (∀ j : Nat, wordsIn u.dramUe (evAddr n (x.evq.rd + j)) 32 ≠ [] → (u.evFetch n j).2 = eccRec ∧
      ((u.evFetch n j).1.ses n).evq.ue = satAdd 16 x.evq.ue 1) ∧
    (∀ l : Loss, x.evq.loss = some l →
      (x.evq.held.length + 2 ≤ 4095 → ∃ t, exec (.evqGap e n) s = .next t ∧ (t.ses n).evq.loss = none ∧
        (t.ses n).evq.held = x.evq.held ++ [gapRec l] ∧ ∀ j : Fin 256, j ≠ n → t.ses j = u.ses j) ∧
      (4095 < x.evq.held.length + 2 → ∃ t, exec (.evqGap e n) s = .next t ∧ (t.ses n).evq = x.evq)) ∧
    (∀ (f : Fin 4) (v : Fin 2048), ∃ t, exec (.msixUnmask e f (some v)) s = .next t ∧
      (SMap.get (vget t.msix f).table ({} : Vec) v).masked = false ∧
      (v.val ∈ (vget u.msix f).pending → (vget u.msix f).enabled = true → (vget u.msix f).fmask = false →
        v.val ∉ (vget t.msix f).pending ∧ Out.msix f v (SMap.get (vget u.msix f).table ({} : Vec) v).addr
          (SMap.get (vget u.msix f).table ({} : Vec) v).data ∈ t.out) ∧ t.sess = u.sess ∧ t.mgt = u.mgt) ∧
    (∀ f : Fin 4, ∃ t, exec (.msixUnmask e f none) s = .next t ∧ (vget t.msix f).enabled = true ∧
      (vget t.msix f).fmask = false ∧ (vget t.msix f).table = (vget u.msix f).table ∧ t.sess = u.sess ∧ t.mgt = u.mgt)

/-- DRAM in service (13 R392, R397-R401): at a refresh instant a busy channel postpones up to REFPOST refreshes,
another refreshes and wakes its ranks; the temperature chooses the interval; an idle rank powers down after PDTIMER;
patrol counts and corrects single errors, and reports and retires uncorrectable ones; a free page filled with zeros
reads 0 and can be allocated. -/
def Obligations.DramInService : Prop :=
  ∀ (e : Env) (s u : State) (ch : Fin 4) (c : Chan), u = s.arrive e → c = vget u.mem.ch ch →
    (c.st = .trained → u.due c.lastRef (if c.hotRef = true then 9750 else 19500) = true →
      (c.postponed < u.rf chCfgAddr 12 10 → exec (.dramRefresh e ch true) s = .next (u.modMem (fun m => { m with
        ch := vset m.ch ch { c with lastRef := u.now, postponed := c.postponed + 1 } }))) ∧
      (u.pws.gap = none → exec (.dramRefresh e ch false) s = .next (u.modMem (fun m => { m with
        ch := vset m.ch ch { c with lastRef := u.now, postponed := 0, pd := 0, lastReq := Vector.replicate 2 u.now } }))) ∧
      (u.rf chCfgAddr 12 10 ≤ c.postponed → ∀ busy : Bool, exec (.dramRefresh e ch busy) s = .next (u.modMem (fun m => { m with
        ch := vset m.ch ch { c with lastRef := u.now, postponed := 0, pd := 0, lastReq := Vector.replicate 2 u.now } })))) ∧
    (∀ hot : Bool,
      (c.pollAt.all (fun t => u.due t qMs) = true → exec (.dramTempPoll e ch hot) s = .next (u.modMem (fun m => { m with
        ch := vset m.ch ch { c with hotRef := hot, pollAt := some u.now } }))) ∧
      (c.pollAt.all (fun t => u.due t qMs) = false → exec (.dramTempPoll e ch hot) s = .next u)) ∧
    (∀ r : Fin 2, c.st = .trained → r.val ≤ u.mem.ranks → u.rf chCfgAddr 9 0 ≠ 0 →
      u.due (vget c.lastReq r) (50 * u.rf chCfgAddr 9 0) = true → exec (.dramPowerdown e ch r) s = .next (u.modMem (fun m => { m with
        ch := vset m.ch ch { c with pd := c.pd ||| 2 ^ r.val } }))) ∧
    (∀ r : Fin 2, u.rf chCfgAddr 9 0 = 0 → exec (.dramPowerdown e ch r) s = .next u) ∧
    (∀ (b : BitVec 30) (k : Nat) (a : Nat), a = 64 * b.toNat → u.mem.dok = true → a < u.dramTop → dramCh a = ch →
      ∃ t, exec (.patrolScrub e b k false) s = .next t ∧ t.dram = u.dram ∧ t.dramUe = u.dramUe ∧
        wordsIn t.dramCe a 64 = [] ∧ (wordsIn u.dramUe a 64 = [] → c.ce < 2 ^ 32 → c.patrol < 2 ^ 16 →
          (vget t.mem.ch ch).ce = satAdd 32 c.ce (min 16 k + (wordsIn u.dramCe a 64).length) ∧
          (vget t.mem.ch ch).patrol = satAdd 16 c.patrol (min 16 k + (wordsIn u.dramCe a 64).length) ∧
          (vget t.mem.ch ch).ue = c.ue ∧ t.mem.retired = u.mem.retired)) ∧
    (∀ (b : BitVec 30) (a : Nat), a = 64 * b.toNat → u.mem.dok = true → a < u.dramTop → dramCh a = ch →
      wordsIn u.dramUe a 64 = [] → ∃ t, exec (.patrolScrub e b 0 true) s = .next t ∧ a / 4 ∈ t.dramUe ∧
        (vget t.mem.ch ch).ue = satAdd 16 c.ue 1 ∧ (vget t.mem.ch ch).derr = derrWord a true true ∧
        (4096 ≤ a / 65536 → SMap.get u.mem.owner 0 (a / 65536) = 0 → (a / 65536) ∈ t.mem.retired)) ∧
    (∀ pg : BitVec 20, u.mem.dok = true → u.pageFree pg.toNat = true → ∃ t, exec (.zeroFill e pg) s = .next t ∧
      pg.toNat ∈ t.mem.filled ∧ (Memory.wf u.dram = true → ∀ a : Nat, memByte t.dram a = if a / 65536 = pg.toNat then 0 else memByte u.dram a) ∧
      (u.mem.zfDone = true → t.mem.zfDone = true) ∧ t.mem.owner = u.mem.owner) ∧
    (∀ pg : BitVec 20, u.pageFree pg.toNat = false → exec (.zeroFill e pg) s = .next u)

/-- SRAM in service (13 R403, R405-R413): corrected words are written back; a bad table word heals from the other bank
where the banks are equal; a test window opens on the slice of a pending repair or on the next in turn, INTERVAL after
the last, lasts 1,552 ticks and ends with its slice written back; a failure is recorded and, under AUTOREP or a
REPAIR, its row goes to a spare row while the macro has one. Engines' self-test, the flip mask and windows of
corrected errors (13 R407, R414, R417): one engine at a time leaves the rotation for its test, and a failed one stays
out; only the Steward arms the flip mask; the corrected errors counted in a window are posted as one record when it
ends. -/
def Obligations.SramTestedAndRepaired : Prop :=
  (∀ (e : Env) (s u : State), u = s.arrive e →
    (∀ w : BitVec 24, exec (.eccWriteback e w) s = .next (u.modMem (fun m => { m with
      sramCe := m.sramCe.filter (· != w.toNat) }))) ∧
    (∀ (w : BitVec 24) (bad : List (Nat × Bool)), bad = u.mgt.badTab.filter (fun b => !(Config.tableIndex b.1 b.2 == w.toNat &&
        u.banksEqual (unitAt b.1) && !u.mgt.badTab.contains (b.1, !b.2))) → exec (.tableHeal e w) s = .next
      (if bad = u.mgt.badTab then u else (u.modMgt (fun m => { m with badTab := bad })).sramPut w.toNat 1)) ∧
    (∀ (v : State) (a n : Nat), v.flipArmed false = false → (∀ d ∈ v.mem.defects, ¬ (a ≤ d.1 ∧ d.1 < a + n)) →
      v.sramPut a n = v.modMem (fun m => { m with
        sramOne := m.sramOne.filter (fun x => !(decide (a ≤ x.1) && decide (x.1 < a + n))),
        sramCe := m.sramCe.filter (fun x => !(decide (a ≤ x) && decide (x < a + n))) })) ∧
    (u.mem.win = none → u.phase = .ready → u.due u.mem.lastWin (u.rf sdCfgAddr 23 8 * qUs) = true →
      (∀ r : Repair, u.mem.repairs.head? = some r → ∃ t, exec (.sheepdogWindow e) s = .next t ∧
        t.mem.win = some { slice := r.word / 512, since := u.now, repair := some r } ∧ t.mem.slice = r.word / 512 ∧
        t.mem.lastWin = u.now ∧ t.mem.turn = u.mem.turn ∧ t.mem.repairs = u.mem.repairs) ∧
      (u.mem.repairs = [] → u.rf sdCfgAddr 0 0 = 1 → ∃ t, exec (.sheepdogWindow e) s = .next t ∧
        t.mem.win = some { slice := u.mem.turn, since := u.now } ∧ t.mem.turn = (u.mem.turn + 1) % 24576 ∧
        t.mem.lastWin = u.now ∧ t.dram = u.dram ∧ t.pstore = u.pstore) ∧
      (u.mem.repairs = [] → u.rf sdCfgAddr 0 0 = 0 → exec (.sheepdogWindow e) s = .next u)) ∧
    (∀ w : TestWin, u.mem.win = some w → (u.due w.since (1552 * qTick) = false →
        ∀ f : Option (BitVec 24 × Fin 72 × Fin 7), exec (.sheepdogWindowEnd e f) s = .next u) ∧
      (u.due w.since (1552 * qTick) = true → w.repair = none →
        exec (.sheepdogWindowEnd e none) s = .next ((u.modMem (fun m => { m with
          win := none, passes := if w.slice = 24575 then (m.passes + 1) % 2 ^ 32 else m.passes })).sramPut (512 * w.slice) 512) ∧
        ∀ (x : BitVec 24) (b : Fin 72) (el : Fin 7) (word : Nat), word = 512 * w.slice + x.toNat % 512 →
          ∃ t, exec (.sheepdogWindowEnd e (some (x, b, el))) s = .next t ∧ t.mem.win = none ∧
            t.mem.fails = satAdd 16 u.mem.fails 1 ∧ bits t.mem.bistRec 23 0 = word % 2 ^ 24 ∧
            (u.rf sdCfgAddr 1 1 = 0 → bits t.mem.bistRec 37 36 = 3 ∧ t.mem.rows = u.mem.rows) ∧
            (u.rf sdCfgAddr 1 1 = 1 → 4 ≤ u.sparesUsed word → bits t.mem.bistRec 37 36 = 2 ∧ t.mem.rows = u.mem.rows) ∧
            (u.rf sdCfgAddr 1 1 = 1 → u.sparesUsed word < 4 → bits t.mem.bistRec 37 36 = 1 ∧
              SMap.find t.mem.rows (rowKey word) = some (u.sparesUsed word) ∧ (SMap.find u.mem.rows (rowKey word) = none → t.mem.soft = u.mem.soft + 1))) ∧
      (∀ r : Repair, u.due w.since (1552 * qTick) = true → w.repair = some r → r.op = 2 → u.isOpen r.session = true → ∃ v : State,
        exec (.sheepdogWindowEnd e none) s = .next (v.reply r.session 0x0404 r.msg 0 [] true) ∧ v.mem.win = none ∧
        v.mem.repairs = u.mem.repairs.tail ∧ v.mem.rows = u.mem.rows))) ∧
  (∀ (e : Env) (s u : State) (g : Fin 16), u = s.arrive e →
    ((∀ i : Fin 16, (vget u.eng i).testing = none) → (vget u.eng g).out = false → (vget u.eng g).owner = none →
      u.due (vget u.eng g).dictAt (u.rf sdCfgAddr 31 24 * 3600 * 1000 * qMs) = true → exec (.dictTest e g) s =
        .next (u.modEng g (fun x => { x with out := true, testing := some u.now, dictAt := u.now }))) ∧
    ((vget u.eng g).testing.isSome = true →
      exec (.dictTestDone e g true) s = .next (u.modEng g (fun x => { x with out := false, testing := none })) ∧
      ∃ t, exec (.dictTestDone e g false) s = .next t ∧ (vget t.eng g).testing = none ∧
        (vget t.eng g).out = (vget u.eng g).out ∧ ∀ i : Fin 16, i ≠ g → vget t.eng i = vget u.eng i) ∧
    (∀ (w : Writer) (n : Nat) (v : Word), u.phase = .ready → u.writer w = some n →
      (u.isSteward n = false → exec (.flipArm e w v) s = .next (u.postErr n 0x0102 0)) ∧
      (u.isSteward n = true → exec (.flipArm e w v) s = .next (u.setReg 0x04000048 (setBits (v &&& wd 0x000FFFFFFFFF07FF) 11 11
        (if bit v 8 = true then 0 else u.rf 0x04000048 11 11))))) ∧
    (∀ (k : Fin 5) (w : Window) (t : Nat), w = vget u.mem.wSec k → w.since = some t → u.due t qMs = true → ∀ v : State,
      v = u.modMem (fun m => { m with wSec := vset m.wSec k {} }) →
      exec (.eccWindowEnd e true k) s = .next (if w.more = 0 then v else v.postAll (v.ev 2 0x0B01 k none (wd w.more) 0x400))) ∧
    (∀ (k : Fin 4) (w : Window) (t : Nat), w = (vget u.mem.ch k).wCe → w.since = some t → u.due t qMs = true → ∀ v : State,
      v = u.modCh k (fun c => { c with wCe := {} }) →
      exec (.eccWindowEnd e false k.castSucc) s =
        .next (if w.more = 0 then v else v.postAll (v.ev 2 0x0B03 k none (wd w.more) 0x400))))

/-- Time set by hand (14 R432): the Steward's write of TIM.SETSEC keeps the second, and TIM.SETNS then steps device
time to it in the tick of arrival and posts the step; the write is refused with SET_REFUSED and changes nothing while
PTP is on, where the nanoseconds are a second or more, or where the writer is not the Steward. A commit of the tick
comes first. The tick counter never steps. -/
def Obligations.TimeIsSetByHand : Prop :=
  ∀ (e : Env) (s u y : State) (w : Writer) (n : Nat) (ns : BitVec 32), u = s.arrive e → u.phase = .ready →
    u.writer w = some n → y = u.commitFirst →
    (u.isSteward n = true → ∀ v : Word, (u.writeWord n 0x05000060 all64 v.toNat true false).1 =
      u.modTim (fun t => { t with setSec := bits v 47 0 })) ∧
    (y.ptpEN = true ∨ 1000000000 ≤ ns.toNat ∨ y.isSteward n = false →
      exec (.timeSet e w ns) s = .next (y.postErr n 0x0C06 0)) ∧
    (y.ptpEN = false → ns.toNat < 1000000000 → y.isSteward n = true → ∃ t, exec (.timeSet e w ns) s = .next t ∧
      t.tim.t = (y.tim.setSec * 1000000000 + ns.toNat) * 65536 * uFrac ∧ t.tim.steps = satAdd 16 y.tim.steps 1 ∧
      t.tim.rate = y.tim.rate ∧ t.tim.setSec = y.tim.setSec ∧ t.now = y.now ∧ t.ticks = y.ticks ∧ t.ctx = y.ctx ∧
      t.seq = y.seq ∧ t.enc = y.enc ∧ t.mgt = y.mgt ∧
      ((y.ses n).st = .confirmed → (y.ses n).evq.loss = none → (y.ses n).evq.held.length < 4095 →
        ∃ r ∈ (t.ses n).evq.held, r.error = 0x0C01 ∧
          r.detail = wdI (((y.tim.setSec * 1000000000 + ns.toNat) * 65536 : Nat) - (y.devF : Int))))

/-- PTP and device time (14 R421-R431; 18 R437): a read of NOWSEC latches the nanoseconds; a Sync of the parent gives
the offset from its times, the path delay and the asymmetry, and steers or steps the clock; delay measurements,
announcements, timeouts and the loss of the link move the port between its states; a message of the parent in the
cycle of its timeout wins. -/
def Obligations.TimeBase : Prop :=
  ∀ (e : Env) (s u : State) (q : Fin 8) (d : Fin 256), u = s.arrive e →
    exec (.nowsecRead e) s = .next (u.modTim (fun t => { t with nowLatch := some (wd (u.tim.t / uFrac % 65536000000000)) })) ∧
    (u.ptpEN = true → u.ptpPORT = q → u.phase = .ready → d.val = u.rf ptpAddr 15 8 →
      (∀ (i : Word) (pn : Fin 65536) (k o ing c : Int) (p : PtpMaster), u.tim.parent = some p → p.ident = i → p.port = pn →
        (u.tim.mpdValid = false → exec (.ptpSync e q d i pn k o ing c) s = .next (u.modTim (fun t => { t with
          syncs := satAdd 16 t.syncs 1, lastSync := u.now, syncInt := k, oddSync := k < -7 || 1 < k }))) ∧
        (u.tim.mpdValid = true → ∀ x : Int, x = ing + u.latIn - o - c - u.tim.mpd - u.asym → ∃ t,
          exec (.ptpSync e q d i pn k o ing c) s = .next t ∧ t.tim.offset = x ∧ t.tim.lastSync = u.now ∧
          (x.natAbs ≤ u.rf servoAddr 39 24 * 65536 → u.tim.st = .slave → t.tim.st = .slave) ∧
          (u.rf servoAddr 39 24 * 65536 < x.natAbs → t.tim.st = .uncalibrated ∧ t.tim.locks = 0) ∧
          (u.rf servoAddr 23 8 * 65536000 < x.natAbs → bit (u.reg servoAddr) 40 = false →
            t.tim.t = ((u.tim.t : Int) - x * uFrac).toNat ∧ t.tim.integ = 0) ∧
          (x.natAbs ≤ u.rf servoAddr 23 8 * 65536000 → t.tim.t = u.tim.t ∧ t.tim.rateAt = u.ticks + 8 ∧
            t.tim.rateNext = max (-rateMax) (min rateMax (servoRate (x * 2 ^ (15 - u.rf servoAddr 3 0) +
              (u.tim.integ + x * 2 ^ (15 - u.rf servoAddr 7 4))) k))))) ∧
      (∀ (i : Word) (pn : Fin 65536) (k o ing c : Int), (∀ p : PtpMaster, u.tim.parent = some p → p.ident ≠ i ∨ p.port ≠ pn) →
        exec (.ptpSync e q d i pn k o ing c) s = .next u) ∧
      (∀ (sq : Nat) (t1 t2 t3 t4 : Int), u.tim.reqOut = true → sq = u.tim.reqSeq →
        exec (.ptpDelayResp e q d sq t1 t2 t3 t4) s = .next (u.modTim (fun t => { t with
          mpd := ((t2 - t1) + (t4 - t3) + u.latIn - u.latOut) / 2, mpdValid := true, reqOut := false }))) ∧
      (∀ (sq : Nat) (ing : Int), u.ptpP2P = true → exec (.ptpPdelayReq e q d sq ing) s =
        .next (u.emit (.ptp (u.ptpTx 2 sq (cutN 64 ((u.devF : Int) + u.latOut - (ing + u.latIn))))))) ∧
      (∀ (sq : Nat) (ing : Int), u.ptpP2P = false → exec (.ptpPdelayReq e q d sq ing) s = .next (u.modTim (fun t => { t with
        discards := satAdd 16 t.discards 1 }))) ∧
      (∀ (i : Word) (pn : Fin 65536) (prio : List Nat) (st : Nat) (k uo : Int) (ts : Bool) (m : PtpMaster), u.tim.st = .listening →
        u.tim.masters = [m] → m.ident = i → m.port = pn → m.heard = 1 → (u.due m.seenAt (4 * secPow k) = true → u.now = m.seenAt + 4 * secPow k) → ∃ t,
          exec (.ptpAnnounce e q d i pn prio st k uo ts) s = .next t ∧ t.tim.st = .uncalibrated ∧
          t.tim.parent = some { ident := i, port := pn, prio := prio, steps := st, heard := 2, seenAt := u.now, interval := k } ∧
          t.tim.utcOff = uo ∧ t.tim.ptpTs = ts ∧ t.tim.lastAnn = u.now)) ∧
    (u.ptpEN = true → u.phase = .ready → exec (.ptpDiscard e) s = .next (u.modTim (fun t => { t with
      discards := satAdd 16 t.discards 1 }))) ∧
    (u.ptpEN = true → u.tim.st ≠ .disabled → u.ptpP2P = true ∨ u.tim.parent.isSome = true →
      (∀ t : Nat, u.tim.reqAt = some t → u.due t (secPow (signedN 8 (u.rf ptpAddr 23 16))) = true) → ∀ k : Nat,
      k = (u.tim.reqSeq + 1) % 65536 → exec (.ptpDelayReqSend e) s = .next ((u.modTim (fun t => { t with
        reqAt := some u.now, reqSeq := k, reqOut := true })).emit (.ptp (u.ptpTx (b1 u.ptpP2P) k (cutN 80
          ((u.devF : Int) + u.latOut)))))) ∧
    (u.tim.st = .slave →
      (u.due u.tim.lastSync (u.rf ptpAddr 31 28 * secPow u.tim.syncInt) = true → u.syncComes = false → ∃ t, exec (.syncTimeout e) s = .next t ∧
        t.tim.st = .holdover ∧ t.tim.rate = u.tim.rate ∧ t.tim.holds = satAdd 16 u.tim.holds 1 ∧ t.tim.t = u.tim.t) ∧
      (u.syncComes = true → exec (.syncTimeout e) s = .next u) ∧ (u.annComes = true → exec (.announceTimeout e) s = .next u) ∧
      (u.due u.tim.lastAnn (u.rf ptpAddr 27 24 * secPow u.tim.annInt) = true → u.annComes = false → u.tim.parent.isSome = true → ∃ t,
        exec (.announceTimeout e) s = .next t ∧ t.tim.st = .holdover ∧
        ∀ p : PtpMaster, u.tim.parent = some p → ∀ m ∈ t.tim.masters, m.ident ≠ p.ident ∨ m.port ≠ p.port) ∧
      ∃ t, exec (.ptpLinkLoss e) s = .next t ∧ t.tim.st = .holdover ∧ t.tim.rate = u.tim.rate ∧ t.tim.holdSince = some u.now)

/-- Power feeds (16 R458-R466; 19 R522): a sample, every 10 µs, is kept and moves the feed's state, and an overload of
1 ms fails the feed; the other feed that completes its 100 ms in the cycle of a trip is STANDBY first (R478); a lost
carrier of a SHARED rail leaves the load to the other feed, of a STANDBY rail begins a switch-over gap, and with no
other feed takes the device's power; a feed outside its window for 100 µs is lost; the gap ends 200 ns or more after
its latest trip; a feed in window for 100 ms is STANDBY again; an imbalance of 1 s is posted once an hour; a load
transfer test takes 10 ms every TESTH hours. FEEDCTL and the safe island's feeds (16 R465-R468, R480): only the
Steward's write has an effect; RESHARE makes the standby feed of a SHARED rail carry; VSTEST moves the selector where
its conditions hold and is REFUSED elsewhere, and returns it after 10 s of PASS unless STAY; CLRCNT clears the rails'
counts. -/
def Obligations.PowerFeeds : Prop :=
  (∀ (e : Env) (s u v : State) (f : Fin 14) (r : Fin 7) (x y : Feed) (z : Rail), u = s.arrive e → x = u.feed f →
    v = u.feedSync (otherFeed f) → y = v.feed (otherFeed f) → r.val = f.val / 2 → z = vget u.pws.rails r →
    (∀ (mv cur : Fin 65536) (w : Bool), w = inWindow r mv →
      (x.sampAt.all (fun t => u.dueFree t (10 * qUs)) = false → exec (.feedMonitorSample e f mv cur) s = .next u) ∧
      (u.phase ≠ .off → x.sampAt.all (fun t => u.dueFree t (10 * qUs)) = true → ∃ t,
        exec (.feedMonitorSample e f mv cur) s = .next t ∧
        (100 * cur.val ≤ 110 * railMax r → t.feed f = { x with
            mv := mv, cur := cur, inWin := w, since := if x.inWin = w then x.since else u.now, sampAt := some u.now,
            overAt := none, st := u.sampled f w } ∧
          (∀ k : Fin 14, k ≠ f → t.feed k = u.feed k) ∧ t.phase = u.phase ∧ t.fire = u.fire ∧ t.mgt = u.mgt) ∧
        (∀ a : Nat, 110 * railMax r < 100 * cur.val → x.overAt = some a → a + qMs ≤ u.now → x.st = .standby →
          (t.feed f).st = .failed ∧ (vget t.pws.rails r).fails = satAdd 16 z.fails 1))) ∧
    (u.phase ≠ .off →
      (x.st = .absent ∨ x.st = .failed → exec (.feedTrip e f) s =
        .next (v.modFeed f (fun _ => { x with inWin := false, since := v.now }))) ∧
      (x.st = .sync ∨ x.st = .standby → ∃ t, exec (.feedTrip e f) s = .next t ∧ (t.feed f).st = .failed ∧
        (vget t.pws.rails r).fails = satAdd 16 z.fails 1 ∧ (vget t.pws.rails r).testing = none ∧ t.phase = v.phase ∧
        t.pws.gap = v.pws.gap ∧ t.feed (otherFeed f) = y) ∧
      (x.st = .active → r.val < 6 → v.railStandby r = false →
        (y.st = .active → ∃ t, exec (.feedTrip e f) s = .next t ∧ (t.feed f).st = .failed ∧ t.feed (otherFeed f) = y ∧
          (vget t.pws.rails r).fails = satAdd 16 z.fails 1 ∧ t.phase = v.phase ∧ t.pws.gap = v.pws.gap ∧ t.seq = v.seq ∧
          t.kl = v.kl) ∧
        (y.st ≠ .active → ∃ t, exec (.feedTrip e f) s = .next t ∧ t.phase = .off)) ∧
      (x.st = .active → v.railStandby r = true →
        (y.st = .standby → v.pws.gap = none → ∃ t, exec (.feedTrip e f) s = .next t ∧ (t.feed f).st = .failed ∧
          (t.feed (otherFeed f)).st = .active ∧ t.pws.gap = some { since := v.now, rails := if r.val = 0 then 1 else 2, trip := v.now } ∧
          (vget t.pws.rails r).switches = satAdd 16 z.switches 1 ∧ t.phase = v.phase ∧ t.enc = v.enc ∧ t.ax = v.ax) ∧
        (y.st ≠ .standby → ∃ t, exec (.feedTrip e f) s = .next t ∧ t.phase = .off)) ∧
      (x.st = .active → r.val = 6 → v.pws.vstRun = none → y.st = .standby → ∃ t, exec (.feedTrip e f) s = .next t ∧
        (t.feed f).st = .failed ∧ (t.feed (otherFeed f)).st = .active ∧ t.pws.safeFeed = 1 - v.pws.safeFeed ∧
        t.safe.vsafe = v.safe.vsafe ∧ t.enc = v.enc) ∧
      (x.inWin = false → x.since + 100 * qUs ≤ u.now → exec (.feedFail e f) s = .next (u.feedDown f)) ∧
      (x.inWin = true ∨ u.now < x.since + 100 * qUs → exec (.feedFail e f) s = .next u)) ∧
    (∀ g : Gap, u.pws.gap = some g →
      (u.now < g.trip + 1000 → exec (.gapRelease e) s = .next u) ∧
      (g.trip + 1000 ≤ u.now → ∃ t, exec (.gapRelease e) s = .next t ∧ t.pws.gap = none ∧ t.pws.lastGap = (g.since, u.now) ∧
        t.pws.gaps = u.pws.gaps ++ [(g.since, u.now)] ∧ bits t.pws.gapRec 15 0 = (u.now - g.since) / 5 % 65536 ∧
        bits t.pws.gapRec 17 16 = g.rails % 4 ∧ t.pws.feeds = u.pws.feeds ∧ t.now = u.now ∧
        (u.agenda = [] → t.enc = u.enc ∧ ∀ a : Fin 8, (vget t.ax a).pos = (vget u.ax a).pos))) ∧
    (x.st = .sync → x.inWin = true → x.since + 100 * qMs ≤ u.now → ∃ t, exec (.feedSync e f) s = .next t ∧
      t.feed f = { x with st := .standby } ∧ ∀ k : Fin 14, k ≠ f → t.feed k = u.feed k) ∧
    (∀ a : Nat, z.imbalSince = some a → a + 1000 * qMs ≤ u.now → z.imbalPosted = none → exec (.shareImbal e r) s =
      .next ((u.modRail r (fun _ => { z with imbalPosted := some u.now })).postPws 0x0D0B r)) ∧
    (u.phase = .ready → u.railStandby r = true → z.testing = none → (u.standbyFeed r).isSome = true →
      z.lastTest + u.rf feedCfgAddr 15 8 * 3600 * 1000 * qMs ≤ u.now → exec (.loadTransferTest e r) s =
        .next (u.modRail r (fun _ => { z with testing := some u.now, lastTest := u.now }))) ∧
    (∀ a : Nat, z.testing = some a → u.standbyFeed r = some f.val → a + 10 * qMs ≤ u.now → u.tripComes r = false →
      (exec (.loadTransferEnd e r true) s = .next ((u.modFeed f (fun _ => { x with xfer := 1 })).modRail r (fun _ => { z with
        testing := none, tests := satAdd 16 z.tests 1 }))) ∧
      ∃ t, exec (.loadTransferEnd e r false) s = .next t ∧ (t.feed f).st = .failed ∧ (t.feed f).xfer = 2 ∧
        (vget t.pws.rails r).testing = none ∧ (vget t.pws.rails r).tfails = satAdd 16 z.tfails 1)) ∧
  (∀ (e : Env) (w : Writer) (s u : State) (n : Nat), u = s.arrive e →
    (u.phase = .ready → u.writer w = some n → ∀ (r : Fin 7) (stay : Bool),
      (u.isSteward n = false → ∀ c ∈ [Instr.feedReshare e w r, .vsafeTest e w stay, .pwsClrcnt e w],
        exec c s = .next (u.postErr n 0x0102 0)) ∧
      (u.isSteward n = true →
        (∀ f : Nat, r.val < 6 → u.railStandby r = false → u.standbyFeed r = some f →
          exec (.feedReshare e w r) s = .next (u.setFeed f .active)) ∧
        (r.val = 6 ∨ u.railStandby r = true ∨ u.standbyFeed r = none → exec (.feedReshare e w r) s = .next u) ∧
        exec (.pwsClrcnt e w) s = .next (u.modPws (fun x => { x with
          rails := x.rails.map (fun r => { r with switches := 0, fails := 0, tests := 0, tfails := 0 }) })) ∧
        (∀ ok : Bool, ok = (u.fire.safeIn && u.fire.hven.toList.all (· == false) && u.seq.toList.all (fun q => q.swst == SwSt.closed) &&
            u.ax.toList.all (fun x => !x.moving) && (u.feed (otherFeed (12 + u.pws.safeFeed))).st == .standby &&
            u.pws.vstRun.isNone) →
          (ok = false → exec (.vsafeTest e w stay) s = .next (u.modPws (fun x => { x with vsRes := 4 }))) ∧
          (ok = true → u.pws.safeFeed < 2 → ∃ t, exec (.vsafeTest e w stay) s = .next t ∧
            t.pws.safeFeed = 1 - u.pws.safeFeed ∧ t.pws.vstRun = some u.now ∧ t.pws.vstStay = stay ∧
            (t.feed (12 + t.pws.safeFeed)).st = .active ∧ (t.feed (12 + u.pws.safeFeed)).st = .standby ∧ t.enc = u.enc)))) ∧
    (∀ a : Nat, u.pws.vstRun = some a → u.pws.safeFeed < 2 → (u.feed (otherFeed (12 + u.pws.safeFeed))).st = .standby →
      (u.now < a + 10000 * qMs → exec (.vsafeTestEnd e 0) s = .next u) ∧
      (a + 10000 * qMs ≤ u.now → ∃ t, exec (.vsafeTestEnd e 0) s = .next t ∧ t.pws.vsRes = 1 ∧ t.pws.vstRun = none ∧
        t.pws.safeFeed = (if u.pws.vstStay = true then u.pws.safeFeed else 1 - u.pws.safeFeed)) ∧
      ∀ k : Fin 3, k ≠ 0 → ∃ t, exec (.vsafeTestEnd e k) s = .next t ∧ t.pws.vsRes = k.val + 1 ∧ t.pws.vstRun = none ∧
        t.pws.safeFeed = 1 - u.pws.safeFeed ∧ (t.feed (12 + u.pws.safeFeed)).st = .failed) ∧
    (∀ a : Nat, u.pws.vstRun = some a → (u.feed (otherFeed (12 + u.pws.safeFeed))).st ≠ .standby →
      ∀ k : Fin 3, k ≠ 0 → ∃ t, exec (.vsafeTestEnd e k) s = .next t ∧ t.pws.vsRes = k.val + 1 ∧ t.pws.vstRun = none ∧
        t.safe.vsafe = true))

/-- The device-wide causes (11 R347; 16 R467, R470, R474; 17 R490-R493): the loss of VSAFE, an over-hot die, a thermal
trip and the loss of the management plane drop every HVEN and hold every axis that is enabled; the loss of REFCLK
leaves HVEN as it is; each sets its SAFESTAT bit and its SAFELATCH bit, and clears as its rule says; a management
plane that comes back restarts the leases and executes the requests held meanwhile in their order; board sensors
report a crossing of their threshold. -/
def Obligations.DeviceWideCauses : Prop :=
  ∀ (e : Env) (s u : State), u = s.arrive e → u.phase = .ready →
    (u.safe.vsafe = false → ∃ t, exec (.vsafeLost e) s = .next t ∧ t.safe.vsafe = true ∧ t.safe.latch.testBit 27 = true ∧
      (∀ g : Fin 8, vget t.fire.hven g = false) ∧ (t.feed 12).st = .failed ∧ (t.feed 13).st = .failed ∧
      (∀ a : Fin 8, (vget u.ax a).st ≠ .disabled → (vget t.ax a).st = .held) ∧ t.enc = u.enc ∧ t.phase = u.phase) ∧
    (u.safe.vsafe = true → (u.feed 12).inWin = true → (u.feed 12).since + 10 * qMs ≤ u.now → ∃ t,
      exec (.vsafeRestore e) s = .next t ∧ t.safe = { u.safe with vsafe := false } ∧ t.pws.safeFeed = 0 ∧ (t.feed 12).st = .active ∧
      (∀ c : Fin 4, (vget t.enc c).count = 0 ∧ (vget t.enc c).st = .still ∧ (vget t.enc c).ab = (vget u.enc c).ab) ∧
      t.fire.hven = u.fire.hven ∧ t.fire.safeHighAt = if u.fire.safeIn = true then none else some u.now) ∧
    (u.safe.refclk = false → ∃ t, exec (.refclkLost e) s = .next t ∧ t.safe.refclk = true ∧ t.safe.latch.testBit 26 = true ∧
      t.fire = u.fire ∧ t.pws.refOk = false ∧ (∀ a : Fin 8, (vget u.ax a).st ≠ .disabled → (vget t.ax a).st = .held) ∧
      ((∀ q : Fin 16, (u.ctxOf q (u.ectx q)).st ≠ .armed) → ∀ q : Fin 16, (vget u.seq q).swst = .opened →
        (vget t.seq q).doubt = true)) ∧
    (u.safe.refclk = true → ∃ t, exec (.refclkRestore e) s = .next t ∧ t.safe = { u.safe with refclk := false } ∧
      t.pws = { u.pws with refOk := true } ∧ t.fire = u.fire ∧ t.ax = u.ax ∧ t.seq = u.seq) ∧
    (∀ (rs : Vector Int 16) (l : List Int) (m : Int), l = rs.toList.map (· + u.cal.dtTrim) → m = l.foldl max (l.headD 0) →
      u.pws.dieAt.all (fun t => u.due t qMs) = true → ∃ t,
      exec (.dieSensorSample e rs) s = .next t ∧ t.pws.tmax = m ∧
      (u.safe.dieHot = false → 16 * (u.rf thCfgAddr 15 8 : Int) ≤ m → t.safe.dieHot = true ∧ t.safe.latch.testBit 25 = true ∧
        (∀ g : Fin 8, vget t.fire.hven g = false) ∧ ∀ a : Fin 8, (vget u.ax a).st ≠ .disabled → (vget t.ax a).st = .held) ∧
      (u.safe.dieHot = false → m < 16 * (u.rf thCfgAddr 15 8 : Int) → t.safe = u.safe ∧ t.fire = u.fire ∧ t.ax = u.ax) ∧
      (u.safe.dieHot = true → m < 16 * (u.rf thCfgAddr 15 8 : Int) - 80 → t.safe = { u.safe with dieHot := false }) ∧
      (u.safe.dieHot = true → 16 * (u.rf thCfgAddr 15 8 : Int) - 80 ≤ m → t.safe = u.safe) ∧
      (u.pws.warnOn = false → t.pws.warnOn = decide (16 * (u.rf thCfgAddr 7 0 : Int) ≤ m)) ∧
      t.seq = u.seq ∧ t.ctx = u.ctx ∧ t.dram = u.dram ∧ t.mgt = u.mgt) ∧
    (∀ rs : Vector Int 16, u.pws.dieAt.all (fun t => u.due t qMs) = false → exec (.dieSensorSample e rs) s = .next u) ∧
    (∀ t0 t1 : Int, u.pws.boardAt.all (fun t => u.due t (10 * qMs)) = false →
      exec (.boardSensorSample e t0 t1 true true) s = .next u) ∧
    (∀ t0 t1 : Int, u.pws.boardAt.all (fun t => u.due t (10 * qMs)) = true → ∃ t, exec (.boardSensorSample e t0 t1 true true) s = .next t ∧ vget t.pws.td 0 = t0 ∧ vget t.pws.td 1 = t1 ∧
      (u.rf thCfgAddr 23 16 ≠ 255 → vget u.pws.bWarn 0 = false →
        vget t.pws.bWarn 0 = decide (16 * (u.rf thCfgAddr 23 16 : Int) < t0)) ∧
      (u.rf thCfgAddr 23 16 = 255 → vget t.pws.bWarn 0 = vget u.pws.bWarn 0) ∧ t.safe = u.safe ∧ t.fire = u.fire) ∧
    (u.pws.trip = false → ∃ t, exec (.thermtrip e) s = .next t ∧ t.pws.trip = true ∧ t.pws.tripLatch = true ∧
      t.pws.thermPin = false ∧ (∀ g : Fin 8, vget t.fire.hven g = false) ∧ t.safe = u.safe ∧
      ∀ a : Fin 8, (vget u.ax a).st ≠ .disabled → (vget t.ax a).st = .held) ∧
    (u.safe.mgmt = false → ∃ t, exec (.mgmtLost e) s = .next t ∧ t.safe.mgmt = true ∧ t.safe.latch.testBit 28 = true ∧
      t.safe.mgmtDown = some (u.safe.mgmtDown.getD u.now) ∧ (∀ g : Fin 8, vget t.fire.hven g = false) ∧
      (∀ a : Fin 8, (vget u.ax a).st ≠ .disabled → (vget t.ax a).st = .held) ∧ t.seq = u.seq ∧ t.ctx = u.ctx) ∧
    (u.safe.mgmtDown.isSome = true → u.safe.mgmt = false → ∀ v : State, v = { u with
        safe := { u.safe with mgmtDown := none }, xlt := { u.xlt with held := [] },
        sess := u.sess.map (fun x => if x.st == .confirmed then { x with renewAt := u.now } else x) } →
      exec (.mgmtResume e) s = .next (u.xlt.held.foldl State.heldRun v))

/-- Start-up and the two resets (13 R389-R394; 16 R471-R473; 17 R498-R500): a cold start chooses the firmware bank,
trains the DRAM and waits for READY, or ends in BOOTFAIL with no usable bank; a warm reset ends every session, context
and swath and drops HVEN, and keeps what the safe island holds, the heads, the axes' positions and the DRAM's
training; READY ends both; PORST_n low ends everything but the non-volatile store and its counts. -/
def Obligations.StartUpAndResets : Prop :=
  ∀ (e : Env) (s u : State), u = s.arrive e →
    (∀ (pins : Fin 4) (cap : Nat) (ranks : Fin 2) (mts : Nat) (lanes : List (BitVec 256 × BitVec 256)) (va : Bool) (ok : Vector Bool 2)
        (ver : Vector (Fin 65536) 2) (bad : List Nat),
      u.phase = .off ∨ u.phase = .cold ∧ u.pws.step = 0 →
      (bootBank u.pws.fwSel u.pws.fwMin ok ver = none → ∃ t,
        exec (.coldStart e pins cap ranks mts lanes va ok ver bad) s = .next t ∧ t.phase = .bootFail ∧ t.pws.step = 4 ∧
        t.pws.bootFail = true ∧ ∀ g : Fin 8, vget t.fire.hven g = false) ∧
      (∀ b : Nat, bootBank u.pws.fwSel u.pws.fwMin ok ver = some b → ∃ t,
        exec (.coldStart e pins cap ranks mts lanes va ok ver bad) s = .next t ∧ t.phase = .cold ∧
        t.pws.step = 11 ∧ t.pws.fwBank = b ∧ t.pws.fallback = (b != u.pws.fwSel) ∧ t.pws.bootAt = u.now ∧
        t.safe.colds = satAdd 16 u.safe.colds 1 ∧ (∀ g : Fin 8, vget t.fire.hven g = false) ∧
        (∀ n : Fin 256, (t.ses n).st = .free) ∧
        (dramSupported cap mts = false → t.mem.dok = false ∧ t.safe.trainFail = true) ∧
        (dramSupported cap mts = true → (∀ i : Fin 40, bit (laneResult (bits (resetWord chCfgAddr) 30 24)
          (lanes.getD i (0, 0))) 32 = true) → t.mem.dok = true ∧ ∀ ch : Fin 4, (vget t.mem.ch ch).st = .trained))) ∧
    (∀ pins cap ranks mts lanes va ok ver bad, u.phase = .ready ∨ u.phase = .warm →
      exec (.coldStart e pins cap ranks mts lanes va ok ver bad) s = .next u) ∧
    (u.phase = .cold → u.pws.step = 11 → ∃ t, exec (.deviceReady e) s = .next t ∧ t.phase = .ready ∧ t.pws.step = 15 ∧
      t.tickBase = u.now ∧ t.pws.bootMs = sat 16 ((u.now - u.pws.bootAt) / qMs) ∧ t.fire = u.fire ∧ t.ctx = u.ctx) ∧
    (u.phase = .warm → ∃ t, exec (.deviceReady e) s = .next t ∧ t.phase = .ready ∧ t.pws.step = 15 ∧
      t.safe.warms = satAdd 16 u.safe.warms 1 ∧ t.safe.warmMs = sat 16 ((u.now - u.pws.bootAt) / qMs) ∧ t.enc = u.enc ∧ t.ax = u.ax) ∧
    (∀ (b : Bool) (rows : List Nat), u.phase = .ready ∨ u.phase = .warm → ∃ t, exec (.warmReset e b rows) s = .next t ∧ t.phase = .warm ∧
      (∀ g : Fin 8, vget t.fire.hven g = false) ∧ (∀ n : Fin 256, t.ses n = {}) ∧ t.mgt.gen = 1 ∧ t.str = State.reset.str ∧
      (∀ (q : Fin 16) (c : Fin 64), (t.ctxOf q c).st = .free) ∧ (∀ q : Fin 16, (vget t.seq q).swst = .closed) ∧
      t.enc = u.enc ∧ t.head = u.head ∧ (∀ p : Fin 64, (vget t.kl p).st = .down) ∧
      (∀ a : Fin 8, (vget t.ax a).pos = (vget u.ax a).pos ∧
        (vget t.ax a).st = if (vget u.ax a).st = .disabled then .disabled else .held) ∧
      t.mem.dok = u.mem.dok ∧ t.safe.latch = u.safe.latch ||| 2 ^ 29 ∧ t.safe.safeN = u.safe.safeN ∧ t.now = u.now) ∧
    (∃ t, exec (.porstNLow e) s = .next t ∧ t.phase = .off ∧ t.nv = u.nv ∧ t.pws.h90 = u.pws.h90 ∧ t.pws.fwSel = u.pws.fwSel ∧
      t.pws.fwMin = u.pws.fwMin ∧ t.safe.colds = u.safe.colds ∧ (∀ g : Fin 8, vget t.fire.hven g = false) ∧ t.dram = [] ∧
      t.mgt = State.reset.mgt ∧ t.ctx = State.reset.ctx ∧ (∀ n : Fin 256, t.ses n = {}) ∧ t.hostMem = u.hostMem)

/-- What is sent on a Kwady lane is what is received (07 R209-R218, R229-R231): at either running disparity the
receiver reads each character back from its 10-bit code and follows the disparity; an upstream frame whose fields fit
their layout is read back from its codes, CRC and all; and so is a downstream line, table or control frame. -/
def Obligations.KwadyCodesReadBack : Prop :=
  (∀ (rd : Bool) (c : Sym), decSym rd (encSym rd c).1 = some c ∧ rdAfter rd (encSym rd c).1 = (encSym rd c).2) ∧
  (∀ (rd : Bool) (f : UpFrame), UpFits f → readUp (encSyms rd (upChars f)) = .frame f) ∧
  ∀ (rd : Bool) (d : DownItem), DownFits d → ∃ (start : Ctl) (body : List Byte),
    readFrame (decSyms rd (encSyms rd (itemChars d))) = .frame start body ∧ parseDown start body = some d
end

