-- ==== Sys2Proof/Laws/Dispatch.lean ====
section
/-! SUPPORT. The arm of each command: exec of the command is its meaning. -/
namespace Sys2Proof.Machine
open Sys2Proof

@[simp] theorem exec_nop (e : Env) (q : Fin 16) (s : State) : exec (.nop e q) s = execNop e q s := rfl
@[simp] theorem exec_halt (e : Env) (q : Fin 16) (s : State) : exec (.halt e q) s = execHalt e q s := rfl
@[simp] theorem exec_jmp (e : Env) (q : Fin 16) (s : State) : exec (.jmp e q) s = execJmp e q s := rfl
@[simp] theorem exec_brc (e : Env) (q : Fin 16) (s : State) : exec (.brc e q) s = execBrc e q s := rfl
@[simp] theorem exec_call (e : Env) (q : Fin 16) (s : State) : exec (.call e q) s = execCall e q s := rfl
@[simp] theorem exec_ret (e : Env) (q : Fin 16) (s : State) : exec (.ret e q) s = execRet e q s := rfl
@[simp] theorem exec_loop (e : Env) (q : Fin 16) (s : State) : exec (.loop e q) s = execLoop e q s := rfl
@[simp] theorem exec_fence (e : Env) (q : Fin 16) (s : State) : exec (.fence e q) s = execFence e q s := rfl
@[simp] theorem exec_ldi (e : Env) (q : Fin 16) (s : State) : exec (.ldi e q) s = execLdi e q s := rfl
@[simp] theorem exec_add (e : Env) (q : Fin 16) (s : State) : exec (.add e q) s = execAdd e q s := rfl
@[simp] theorem exec_sub (e : Env) (q : Fin 16) (s : State) : exec (.sub e q) s = execSub e q s := rfl
@[simp] theorem exec_andI (e : Env) (q : Fin 16) (s : State) : exec (.andI e q) s = execAndI e q s := rfl
@[simp] theorem exec_orI (e : Env) (q : Fin 16) (s : State) : exec (.orI e q) s = execOrI e q s := rfl
@[simp] theorem exec_cmp (e : Env) (q : Fin 16) (s : State) : exec (.cmp e q) s = execCmp e q s := rfl
@[simp] theorem exec_mov (e : Env) (q : Fin 16) (s : State) : exec (.mov e q) s = execMov e q s := rfl
@[simp] theorem exec_ldst (e : Env) (q : Fin 16) (s : State) : exec (.ldst e q) s = execLdst e q s := rfl
@[simp] theorem exec_ldt (e : Env) (q : Fin 16) (s : State) : exec (.ldt e q) s = execLdt e q s := rfl
@[simp] theorem exec_ldpos (e : Env) (q : Fin 16) (s : State) : exec (.ldpos e q) s = execLdpos e q s := rfl
@[simp] theorem exec_swath (e : Env) (q : Fin 16) (s : State) : exec (.swath e q) s = execSwath e q s := rfl
@[simp] theorem exec_lines (e : Env) (q : Fin 16) (s : State) : exec (.lines e q) s = execLines e q s := rfl
@[simp] theorem exec_blank (e : Env) (q : Fin 16) (s : State) : exec (.blank e q) s = execBlank e q s := rfl
@[simp] theorem exec_spit (e : Env) (q : Fin 16) (s : State) : exec (.spit e q) s = execSpit e q s := rfl
@[simp] theorem exec_lineQueueAppend (e : Env) (q : Fin 16) (s : State) :
    exec (.lineQueueAppend e q) s = execLineQueueAppend e q s := rfl
@[simp] theorem exec_endswath (e : Env) (q : Fin 16) (s : State) : exec (.endswath e q) s = execEndswath e q s := rfl
@[simp] theorem exec_swathEnd (e : Env) (q : Fin 16) (s : State) : exec (.swathEnd e q) s = execSwathEnd e q s := rfl
@[simp] theorem exec_pitch (e : Env) (q : Fin 16) (s : State) : exec (.pitch e q) s = execPitch e q s := rfl
@[simp] theorem exec_rowdly (e : Env) (q : Fin 16) (s : State) : exec (.rowdly e q) s = execRowdly e q s := rfl
@[simp] theorem exec_energy (e : Env) (q : Fin 16) (s : State) : exec (.energy e q) s = execEnergy e q s := rfl
@[simp] theorem exec_waitpos (e : Env) (q : Fin 16) (s : State) : exec (.waitpos e q) s = execWaitpos e q s := rfl
@[simp] theorem exec_waittime (e : Env) (q : Fin 16) (s : State) : exec (.waittime e q) s = execWaittime e q s := rfl
@[simp] theorem exec_waitev (e : Env) (q : Fin 16) (s : State) : exec (.waitev e q) s = execWaitev e q s := rfl
@[simp] theorem exec_waitax (e : Env) (q : Fin 16) (s : State) : exec (.waitax e q) s = execWaitax e q s := rfl
@[simp] theorem exec_waitComplete (e : Env) (q : Fin 16) (c : Fin 64) (s : State) :
    exec (.waitComplete e q c) s = execWaitComplete e q c s := rfl
@[simp] theorem exec_waitTimeout (e : Env) (q : Fin 16) (c : Fin 64) (s : State) :
    exec (.waitTimeout e q c) s = execWaitTimeout e q c s := rfl
@[simp] theorem exec_signal (e : Env) (q : Fin 16) (s : State) : exec (.signal e q) s = execSignal e q s := rfl
@[simp] theorem exec_mark (e : Env) (q : Fin 16) (s : State) : exec (.mark e q) s = execMark e q s := rfl
@[simp] theorem exec_programCommit (e : Env) (q : Fin 16) (s : State) :
    exec (.programCommit e q) s = execProgramCommit e q s := rfl
@[simp] theorem exec_yieldI (e : Env) (q : Fin 16) (s : State) : exec (.yieldI e q) s = execYieldI e q s := rfl
@[simp] theorem exec_move (e : Env) (q : Fin 16) (s : State) : exec (.move e q) s = execMove e q s := rfl
@[simp] theorem exec_vel (e : Env) (q : Fin 16) (s : State) : exec (.vel e q) s = execVel e q s := rfl
@[simp] theorem exec_acc (e : Env) (q : Fin 16) (s : State) : exec (.acc e q) s = execAcc e q s := rfl
@[simp] theorem exec_stop (e : Env) (q : Fin 16) (s : State) : exec (.stop e q) s = execStop e q s := rfl
@[simp] theorem exec_home (e : Env) (q : Fin 16) (s : State) : exec (.home e q) s = execHome e q s := rfl
@[simp] theorem exec_camtrig (e : Env) (q : Fin 16) (s : State) : exec (.camtrig e q) s = execCamtrig e q s := rfl
@[simp] theorem exec_camset (e : Env) (q : Fin 16) (s : State) : exec (.camset e q) s = execCamset e q s := rfl
@[simp] theorem exec_contextDispatch (e : Env) (q : Fin 16) (s : State) :
    exec (.contextDispatch e q) s = execContextDispatch e q s := rfl
@[simp] theorem exec_contextSaveDone (e : Env) (q : Fin 16) (s : State) :
    exec (.contextSaveDone e q) s = execContextSaveDone e q s := rfl
@[simp] theorem exec_contextRestoreDone (e : Env) (q : Fin 16) (s : State) :
    exec (.contextRestoreDone e q) s = execContextRestoreDone e q s := rfl
@[simp] theorem exec_seqSignal (e : Env) (w : Writer) (q : Fin 16) (sigs : Fin 256) (s : State) :
    exec (.seqSignal e w q sigs) s = execSeqSignal e w q sigs s := rfl
@[simp] theorem exec_seqGsignal (e : Env) (w : Writer) (mask : Fin 65536) (sigs : Fin 256) (s : State) :
    exec (.seqGsignal e w mask sigs) s = execSeqGsignal e w mask sigs s := rfl
@[simp] theorem exec_seqEvbitsClear (e : Env) (w : Writer) (q : Fin 16) (mask : BitVec 32) (s : State) :
    exec (.seqEvbitsClear e w q mask) s = execSeqEvbitsClear e w q mask s := rfl
@[simp] theorem exec_encoderEdge (e : Env) (c : Fin 4) (a b : Bool) (s : State) :
    exec (.encoderEdge e c a b) s = execEncoderEdge e c a b s := rfl
@[simp] theorem exec_phaseWindowEnd (e : Env) (c : Fin 4) (s : State) :
    exec (.phaseWindowEnd e c) s = execPhaseWindowEnd e c s := rfl
@[simp] theorem exec_encLos (e : Env) (c : Fin 4) (s : State) : exec (.encLos e c) s = execEncLos e c s := rfl
@[simp] theorem exec_encLosClear (e : Env) (c : Fin 4) (s : State) :
    exec (.encLosClear e c) s = execEncLosClear e c s := rfl
@[simp] theorem exec_still (e : Env) (c : Fin 4) (s : State) : exec (.still e c) s = execStill e c s := rfl
@[simp] theorem exec_ssiFrameStart (e : Env) (c : Fin 4) (s : State) :
    exec (.ssiFrameStart e c) s = execSsiFrameStart e c s := rfl
@[simp] theorem exec_ssiTimeout (e : Env) (c : Fin 4) (s : State) : exec (.ssiTimeout e c) s = execSsiTimeout e c s := rfl
@[simp] theorem exec_ssiFrameDone (e : Env) (c : Fin 4) (value : BitVec 32) (stopLow : Bool) (s : State) :
    exec (.ssiFrameDone e c value stopLow) s = execSsiFrameDone e c value stopLow s := rfl
@[simp] theorem exec_zEdge (e : Env) (c : Fin 4) (level : Bool) (s : State) :
    exec (.zEdge e c level) s = execZEdge e c level s := rfl
@[simp] theorem exec_encRebase (e : Env) (w : Writer) (c : Fin 4) (value : BitVec 48) (clrq : Bool) (s : State) :
    exec (.encRebase e w c value clrq) s = execEncRebase e w c value clrq s := rfl
@[simp] theorem exec_encClrq (e : Env) (w : Writer) (c : Fin 4) (s : State) :
    exec (.encClrq e w c) s = execEncClrq e w c s := rfl
@[simp] theorem exec_lineEvent (e : Env) (q : Fin 16) (s : State) : exec (.lineEvent e q) s = execLineEvent e q s := rfl
@[simp] theorem exec_fireInstant (e : Env) (q : Fin 16) (s : State) :
    exec (.fireInstant e q) s = execFireInstant e q s := rfl
@[simp] theorem exec_rowTrigger (e : Env) (q : Fin 16) (p : Fin 64) (s : State) :
    exec (.rowTrigger e q p) s = execRowTrigger e q p s := rfl
@[simp] theorem exec_readPoint (e : Env) (q : Fin 16) (s : State) : exec (.readPoint e q) s = execReadPoint e q s := rfl
@[simp] theorem exec_caravanDescriptor (e : Env) (p : Fin 64) (s : State) :
    exec (.caravanDescriptor e p) s = execCaravanDescriptor e p s := rfl
@[simp] theorem exec_indexBlock (e : Env) (p : Fin 64) (s : State) : exec (.indexBlock e p) s = execIndexBlock e p s := rfl
@[simp] theorem exec_streamFetch (e : Env) (p : Fin 64) (s : State) :
    exec (.streamFetch e p) s = execStreamFetch e p s := rfl
@[simp] theorem exec_duneHeader (e : Env) (p : Fin 64) (s : State) : exec (.duneHeader e p) s = execDuneHeader e p s := rfl
@[simp] theorem exec_engineGrant (e : Env) (g : Fin 16) (s : State) :
    exec (.engineGrant e g) s = execEngineGrant e g s := rfl
@[simp] theorem exec_duneDecodeDone (e : Env) (p : Fin 64) (s : State) :
    exec (.duneDecodeDone e p) s = execDuneDecodeDone e p s := rfl
@[simp] theorem exec_engineAbandon (e : Env) (p : Fin 64) (ecc : Bool) (s : State) :
    exec (.engineAbandon e p ecc) s = execEngineAbandon e p ecc s := rfl
@[simp] theorem exec_streamEn (e : Env) (w : Writer) (p : Fin 64) (en haltErr : Bool) (s : State) :
    exec (.streamEn e w p en haltErr) s = execStreamEn e w p en haltErr s := rfl
@[simp] theorem exec_ringFlush (e : Env) (w : Writer) (p : Fin 64) (newBase : BitVec 32) (clr : Bool) (s : State) :
    exec (.ringFlush e w p newBase clr) s = execRingFlush e w p newBase clr s := rfl
@[simp] theorem exec_ldpClrcnt (e : Env) (w : Writer) (p : Fin 64) (s : State) :
    exec (.ldpClrcnt e w p) s = execLdpClrcnt e w p s := rfl
@[simp] theorem exec_telemetryFrame (e : Env) (p : Fin 64) (rx : List Nat) (s : State) :
    exec (.telemetryFrame e p rx) s = execTelemetryFrame e p rx s := rfl
@[simp] theorem exec_teltoExpiry (e : Env) (p : Fin 64) (s : State) :
    exec (.teltoExpiry e p) s = execTeltoExpiry e p s := rfl
@[simp] theorem exec_ackFrame (e : Env) (p : Fin 64) (rx : List Nat) (s : State) :
    exec (.ackFrame e p rx) s = execAckFrame e p rx s := rfl
@[simp] theorem exec_ackTimeout (e : Env) (p : Fin 64) (s : State) : exec (.ackTimeout e p) s = execAckTimeout e p s := rfl
@[simp] theorem exec_pushStart (e : Env) (p : Fin 64) (s : State) : exec (.pushStart e p) s = execPushStart e p s := rfl
@[simp] theorem exec_bandLoadDone (e : Env) (p : Fin 64) (s : State) :
    exec (.bandLoadDone e p) s = execBandLoadDone e p s := rfl
@[simp] theorem exec_pushRetry (e : Env) (p : Fin 64) (s : State) : exec (.pushRetry e p) s = execPushRetry e p s := rfl
@[simp] theorem exec_tableFrameSend (e : Env) (p : Fin 64) (s : State) :
    exec (.tableFrameSend e p) s = execTableFrameSend e p s := rfl
@[simp] theorem exec_controlFrameSend (e : Env) (p : Fin 64) (s : State) :
    exec (.controlFrameSend e p) s = execControlFrameSend e p s := rfl
@[simp] theorem exec_responseFrame (e : Env) (p : Fin 64) (rx : List Nat) (s : State) :
    exec (.responseFrame e p rx) s = execResponseFrame e p rx s := rfl
@[simp] theorem exec_responseTimeout (e : Env) (p : Fin 64) (s : State) :
    exec (.responseTimeout e p) s = execResponseTimeout e p s := rfl
@[simp] theorem exec_upstreamVoid (e : Env) (p : Fin 64) (rx : List Nat) (s : State) :
    exec (.upstreamVoid e p rx) s = execUpstreamVoid e p rx s := rfl
@[simp] theorem exec_missWindowEnd (e : Env) (p : Fin 64) (s : State) :
    exec (.missWindowEnd e p) s = execMissWindowEnd e p s := rfl
@[simp] theorem exec_hvctlOn (e : Env) (w : Writer) (mask : Fin 256) (s : State) :
    exec (.hvctlOn e w mask) s = execHvctlOn e w mask s := rfl
@[simp] theorem exec_hvctlOff (e : Env) (w : Writer) (mask : Fin 256) (s : State) :
    exec (.hvctlOff e w mask) s = execHvctlOff e w mask s := rfl
@[simp] theorem exec_hvsettleExpiry (e : Env) (g : Fin 8) (s : State) :
    exec (.hvsettleExpiry e g) s = execHvsettleExpiry e g s := rfl
@[simp] theorem exec_firClrcnt (e : Env) (w : Writer) (p : Fin 64) (s : State) :
    exec (.firClrcnt e w p) s = execFirClrcnt e w p s := rfl
@[simp] theorem exec_safeNAssert (e : Env) (s : State) : exec (.safeNAssert e) s = execSafeNAssert e s := rfl
@[simp] theorem exec_safeNRelease (e : Env) (s : State) : exec (.safeNRelease e) s = execSafeNRelease e s := rfl
@[simp] theorem exec_portUp (e : Env) (w : Writer) (p : Fin 64) (s : State) :
    exec (.portUp e w p) s = execPortUp e w p s := rfl
@[simp] theorem exec_portDown (e : Env) (w : Writer) (p : Fin 64) (s : State) :
    exec (.portDown e w p) s = execPortDown e w p s := rfl
@[simp] theorem exec_portCal (e : Env) (w : Writer) (p : Fin 64) (s : State) :
    exec (.portCal e w p) s = execPortCal e w p s := rfl
@[simp] theorem exec_klClrcnt (e : Env) (w : Writer) (p : Fin 64) (s : State) :
    exec (.klClrcnt e w p) s = execKlClrcnt e w p s := rfl
@[simp] theorem exec_laneCalDone (e : Env) (p : Fin 64) (s : State) :
    exec (.laneCalDone e p) s = execLaneCalDone e p s := rfl
@[simp] theorem exec_wakeDone (e : Env) (p : Fin 64) (s : State) : exec (.wakeDone e p) s = execWakeDone e p s := rfl
@[simp] theorem exec_wakeTimeout (e : Env) (p : Fin 64) (s : State) :
    exec (.wakeTimeout e p) s = execWakeTimeout e p s := rfl
@[simp] theorem exec_identTimeout (e : Env) (p : Fin 64) (s : State) :
    exec (.identTimeout e p) s = execIdentTimeout e p s := rfl
@[simp] theorem exec_configDone (e : Env) (p : Fin 64) (s : State) : exec (.configDone e p) s = execConfigDone e p s := rfl
@[simp] theorem exec_linkLost (e : Env) (p : Fin 64) (s : State) : exec (.linkLost e p) s = execLinkLost e p s := rfl
@[simp] theorem exec_portAutoRetry (e : Env) (p : Fin 64) (s : State) :
    exec (.portAutoRetry e p) s = execPortAutoRetry e p s := rfl
@[simp] theorem exec_prbsStart (e : Env) (w : Writer) (p : Fin 64) (pat : Fin 4) (inv : Bool) (s : State) :
    exec (.prbsStart e w p pat inv) s = execPrbsStart e w p pat inv s := rfl
@[simp] theorem exec_prbsStop (e : Env) (w : Writer) (p : Fin 64) (s : State) :
    exec (.prbsStop e w p) s = execPrbsStop e w p s := rfl
@[simp] theorem exec_prbsRunEnd (e : Env) (p : Fin 64) (upFlips downFlips : List Nat) (s : State) :
    exec (.prbsRunEnd e p upFlips downFlips) s = execPrbsRunEnd e p upFlips downFlips s := rfl
@[simp] theorem exec_eyeSweep (e : Env) (p : Fin 64) (width : Fin 65) (height : Fin 256) (s : State) :
    exec (.eyeSweep e p width height) s = execEyeSweep e p width height s := rfl
@[simp] theorem exec_hregAccess (e : Env) (w : Writer) (p : Fin 64) (addr : BitVec 24) (write : Bool) (len : Fin 128) (s : State) :
    exec (.hregAccess e w p addr write len) s = execHregAccess e w p addr write len s := rfl
@[simp] theorem exec_headFireSymbol (e : Env) (p : Fin 64) (noise : List (Nat × Nat)) (s : State) :
    exec (.headFireSymbol e p noise) s = execHeadFireSymbol e p noise s := rfl
@[simp] theorem exec_headLineFrame (e : Env) (p : Fin 64) (noise : List (Nat × Nat)) (s : State) :
    exec (.headLineFrame e p noise) s = execHeadLineFrame e p noise s := rfl
@[simp] theorem exec_headTableFrame (e : Env) (p : Fin 64) (noise : List (Nat × Nat)) (s : State) :
    exec (.headTableFrame e p noise) s = execHeadTableFrame e p noise s := rfl
@[simp] theorem exec_headSync (e : Env) (p : Fin 64) (noise : List (Nat × Nat)) (s : State) :
    exec (.headSync e p noise) s = execHeadSync e p noise s := rfl
@[simp] theorem exec_headDrop (e : Env) (p : Fin 64) (noise : List (Nat × Nat)) (s : State) :
    exec (.headDrop e p noise) s = execHeadDrop e p noise s := rfl
@[simp] theorem exec_headControlFrame (e : Env) (p : Fin 64) (noise : List (Nat × Nat)) (busy : Bool) (s : State) :
    exec (.headControlFrame e p noise busy) s = execHeadControlFrame e p noise busy s := rfl
@[simp] theorem exec_headTelemetrySend (e : Env) (p : Fin 64) (temps : List (Option Int)) (vsup vlog : BitVec 16) (win : Fin 8) (sense : SMap Nat) (fault : Bool) (s : State) :
    exec (.headTelemetrySend e p temps vsup vlog win sense fault) s = execHeadTelemetrySend e p temps vsup vlog win sense fault s := rfl
@[simp] theorem exec_camLine (e : Env) (c : Fin 4) (cycles : List CamCycle) (s : State) :
    exec (.camLine e c cycles) s = execCamLine e c cycles s := rfl
@[simp] theorem exec_frameStart (e : Env) (c : Fin 4) (s : State) : exec (.frameStart e c) s = execFrameStart e c s := rfl
@[simp] theorem exec_frameEnd (e : Env) (c : Fin 4) (s : State) : exec (.frameEnd e c) s = execFrameEnd e c s := rfl
@[simp] theorem exec_lineSlot (e : Env) (u : Fin 2) (s : State) : exec (.lineSlot e u) s = execLineSlot e u s := rfl
@[simp] theorem exec_frameComplete (e : Env) (c : Fin 4) (s : State) :
    exec (.frameComplete e c) s = execFrameComplete e c s := rfl
@[simp] theorem exec_camNoclk (e : Env) (c : Fin 4) (s : State) : exec (.camNoclk e c) s = execCamNoclk e c s := rfl
@[simp] theorem exec_camClockReturn (e : Env) (c : Fin 4) (s : State) :
    exec (.camClockReturn e c) s = execCamClockReturn e c s := rfl
@[simp] theorem exec_camTrig (e : Env) (w : Writer) (c : Fin 4) (s : State) :
    exec (.camTrig e w c) s = execCamTrig e w c s := rfl
@[simp] theorem exec_positionTrigger (e : Env) (c : Fin 4) (s : State) :
    exec (.positionTrigger e c) s = execPositionTrigger e c s := rfl
@[simp] theorem exec_trigPulse (e : Env) (c : Fin 4) (s : State) : exec (.trigPulse e c) s = execTrigPulse e c s := rfl
@[simp] theorem exec_trigTimeout (e : Env) (c : Fin 4) (s : State) :
    exec (.trigTimeout e c) s = execTrigTimeout e c s := rfl
@[simp] theorem exec_camSetreq (e : Env) (w : Writer) (c : Fin 4) (record : Fin 256) (s : State) :
    exec (.camSetreq e w c record) s = execCamSetreq e w c record s := rfl
@[simp] theorem exec_settingsWindow (e : Env) (c : Fin 4) (s : State) :
    exec (.settingsWindow e c) s = execSettingsWindow e c s := rfl
@[simp] theorem exec_settingsWriteDone (e : Env) (c : Fin 4) (failed : Option (Fin 16)) (s : State) :
    exec (.settingsWriteDone e c failed) s = execSettingsWriteDone e c failed s := rfl
@[simp] theorem exec_camPop (e : Env) (w : Writer) (c : Fin 4) (s : State) :
    exec (.camPop e w c) s = execCamPop e w c s := rfl
@[simp] theorem exec_camClrcnt (e : Env) (w : Writer) (c : Fin 4) (s : State) :
    exec (.camClrcnt e w c) s = execCamClrcnt e w c s := rfl
@[simp] theorem exec_i2cCommand (e : Env) (w : Writer) (c : Fin 4) (addr : Fin 128) (read : Bool) (nbytes : Fin 8) (data : BitVec 48) (s : State) :
    exec (.i2cCommand e w c addr read nbytes data) s = execI2cCommand e w c addr read nbytes data s := rfl
@[simp] theorem exec_i2cDone (e : Env) (c : Fin 4) (res : I2cEnd) (s : State) :
    exec (.i2cDone e c res) s = execI2cDone e c res s := rfl
@[simp] theorem exec_ptrigSkipWindow (e : Env) (c : Fin 4) (s : State) :
    exec (.ptrigSkipWindow e c) s = execPtrigSkipWindow e c s := rfl
@[simp] theorem exec_visionResult (e : Env) (s : State) : exec (.visionResult e) s = execVisionResult e s := rfl
@[simp] theorem exec_healthApply (e : Env) (s : State) : exec (.healthApply e) s = execHealthApply e s := rfl
@[simp] theorem exec_senseApply (e : Env) (p : Fin 64) (s : State) : exec (.senseApply e p) s = execSenseApply e p s := rfl
@[simp] theorem exec_testApply (e : Env) (s : State) : exec (.testApply e) s = execTestApply e s := rfl
@[simp] theorem exec_nzctlOut (e : Env) (w : Writer) (p : Fin 64) (j : Fin 8192) (s : State) :
    exec (.nzctlOut e w p j) s = execNzctlOut e w p j s := rfl
@[simp] theorem exec_nzctlRelease (e : Env) (w : Writer) (p : Fin 64) (j : Fin 8192) (s : State) :
    exec (.nzctlRelease e w p j) s = execNzctlRelease e w p j s := rfl
@[simp] theorem exec_testArm (e : Env) (w : Writer) (cam : Fin 4) (q : Fin 16) (stride phase : Fin 128) (bg th : Fin 65536) (s : State) :
    exec (.testArm e w cam q stride phase bg th) s = execTestArm e w cam q stride phase bg th s := rfl
@[simp] theorem exec_testDisarm (e : Env) (w : Writer) (s : State) : exec (.testDisarm e w) s = execTestDisarm e w s := rfl
@[simp] theorem exec_alignArm (e : Env) (w : Writer) (cam : Fin 4) (q : Fin 16) (nmark : Fin 2048) (bg minMass : Fin 65536) (s : State) :
    exec (.alignArm e w cam q nmark bg minMass) s = execAlignArm e w cam q nmark bg minMass s := rfl
@[simp] theorem exec_alignDisarm (e : Env) (w : Writer) (s : State) :
    exec (.alignDisarm e w) s = execAlignDisarm e w s := rfl
@[simp] theorem exec_motCmdMove (e : Env) (w : Writer) (a : Fin 8) (value : BitVec 48) (s : State) :
    exec (.motCmdMove e w a value) s = execMotCmdMove e w a value s := rfl
@[simp] theorem exec_motCmdMoveA (e : Env) (w : Writer) (a : Fin 8) (value : BitVec 48) (s : State) :
    exec (.motCmdMoveA e w a value) s = execMotCmdMoveA e w a value s := rfl
@[simp] theorem exec_motCmdVel (e : Env) (w : Writer) (a : Fin 8) (value : BitVec 32) (s : State) :
    exec (.motCmdVel e w a value) s = execMotCmdVel e w a value s := rfl
@[simp] theorem exec_motCmdAcc (e : Env) (w : Writer) (a : Fin 8) (value : BitVec 32) (s : State) :
    exec (.motCmdAcc e w a value) s = execMotCmdAcc e w a value s := rfl
@[simp] theorem exec_motCmdStop (e : Env) (w : Writer) (a : Fin 8) (s : State) :
    exec (.motCmdStop e w a) s = execMotCmdStop e w a s := rfl
@[simp] theorem exec_motCmdHome (e : Env) (w : Writer) (a : Fin 8) (sel : Fin 4) (s : State) :
    exec (.motCmdHome e w a sel) s = execMotCmdHome e w a sel s := rfl
@[simp] theorem exec_axisEn (e : Env) (w : Writer) (a : Fin 8) (s : State) :
    exec (.axisEn e w a) s = execAxisEn e w a s := rfl
@[simp] theorem exec_axisDis (e : Env) (w : Writer) (a : Fin 8) (s : State) :
    exec (.axisDis e w a) s = execAxisDis e w a s := rfl
@[simp] theorem exec_axisRelease (e : Env) (w : Writer) (a : Fin 8) (s : State) :
    exec (.axisRelease e w a) s = execAxisRelease e w a s := rfl
@[simp] theorem exec_decelStart (e : Env) (a : Fin 8) (s : State) : exec (.decelStart e a) s = execDecelStart e a s := rfl
@[simp] theorem exec_microstepSwitch (e : Env) (a : Fin 8) (s : State) :
    exec (.microstepSwitch e a) s = execMicrostepSwitch e a s := rfl
@[simp] theorem exec_moveEnd (e : Env) (a : Fin 8) (s : State) : exec (.moveEnd e a) s = execMoveEnd e a s := rfl
@[simp] theorem exec_homeIndex (e : Env) (a : Fin 8) (s : State) : exec (.homeIndex e a) s = execHomeIndex e a s := rfl
@[simp] theorem exec_homeFail (e : Env) (a : Fin 8) (s : State) : exec (.homeFail e a) s = execHomeFail e a s := rfl
@[simp] theorem exec_sessionOpen (e : Env) (m : Msg) (s : State) : exec (.sessionOpen e m) s = execSessionOpen e m s := rfl
@[simp] theorem exec_sessionConfirm (e : Env) (m : Msg) (s : State) :
    exec (.sessionConfirm e m) s = execSessionConfirm e m s := rfl
@[simp] theorem exec_sessionClose (e : Env) (m : Msg) (s : State) :
    exec (.sessionClose e m) s = execSessionClose e m s := rfl
@[simp] theorem exec_heartbeat (e : Env) (m : Msg) (s : State) : exec (.heartbeat e m) s = execHeartbeat e m s := rfl
@[simp] theorem exec_revokeSession (e : Env) (m : Msg) (s : State) :
    exec (.revokeSession e m) s = execRevokeSession e m s := rfl
@[simp] theorem exec_revokeUnit (e : Env) (m : Msg) (s : State) : exec (.revokeUnit e m) s = execRevokeUnit e m s := rfl
@[simp] theorem exec_keyInstall (e : Env) (m : Msg) (s : State) : exec (.keyInstall e m) s = execKeyInstall e m s := rfl
@[simp] theorem exec_keyErase (e : Env) (m : Msg) (s : State) : exec (.keyErase e m) s = execKeyErase e m s := rfl
@[simp] theorem exec_netSet (e : Env) (m : Msg) (s : State) : exec (.netSet e m) s = execNetSet e m s := rfl
@[simp] theorem exec_claim (e : Env) (m : Msg) (s : State) : exec (.claim e m) s = execClaim e m s := rfl
@[simp] theorem exec_release (e : Env) (m : Msg) (s : State) : exec (.release e m) s = execRelease e m s := rfl
@[simp] theorem exec_memAlloc (e : Env) (m : Msg) (s : State) : exec (.memAlloc e m) s = execMemAlloc e m s := rfl
@[simp] theorem exec_memFree (e : Env) (m : Msg) (s : State) : exec (.memFree e m) s = execMemFree e m s := rfl
@[simp] theorem exec_ptSet (e : Env) (m : Msg) (s : State) : exec (.ptSet e m) s = execPtSet e m s := rfl
@[simp] theorem exec_tlbInval (e : Env) (m : Msg) (s : State) : exec (.tlbInval e m) s = execTlbInval e m s := rfl
@[simp] theorem exec_faultResume (e : Env) (m : Msg) (s : State) : exec (.faultResume e m) s = execFaultResume e m s := rfl
@[simp] theorem exec_memWrite (e : Env) (m : Msg) (s : State) : exec (.memWrite e m) s = execMemWrite e m s := rfl
@[simp] theorem exec_memRead (e : Env) (m : Msg) (s : State) : exec (.memRead e m) s = execMemRead e m s := rfl
@[simp] theorem exec_ctxLoad (e : Env) (m : Msg) (s : State) : exec (.ctxLoad e m) s = execCtxLoad e m s := rfl
@[simp] theorem exec_ctxArm (e : Env) (m : Msg) (s : State) : exec (.ctxArm e m) s = execCtxArm e m s := rfl
@[simp] theorem exec_ctxStart (e : Env) (m : Msg) (s : State) : exec (.ctxStart e m) s = execCtxStart e m s := rfl
@[simp] theorem exec_ctxStop (e : Env) (m : Msg) (s : State) : exec (.ctxStop e m) s = execCtxStop e m s := rfl
@[simp] theorem exec_commit (e : Env) (m : Msg) (s : State) : exec (.commit e m) s = execCommit e m s := rfl
@[simp] theorem exec_stageDiscard (e : Env) (m : Msg) (s : State) :
    exec (.stageDiscard e m) s = execStageDiscard e m s := rfl
@[simp] theorem exec_snapshot (e : Env) (m : Msg) (s : State) : exec (.snapshot e m) s = execSnapshot e m s := rfl
@[simp] theorem exec_calRestore (e : Env) (m : Msg) (s : State) : exec (.calRestore e m) s = execCalRestore e m s := rfl
@[simp] theorem exec_calLane (e : Env) (m : Msg) (s : State) : exec (.calLane e m) s = execCalLane e m s := rfl
@[simp] theorem exec_calAlign (e : Env) (m : Msg) (s : State) : exec (.calAlign e m) s = execCalAlign e m s := rfl
@[simp] theorem exec_calDark (e : Env) (m : Msg) (s : State) : exec (.calDark e m) s = execCalDark e m s := rfl
@[simp] theorem exec_calFlat (e : Env) (m : Msg) (s : State) : exec (.calFlat e m) s = execCalFlat e m s := rfl
@[simp] theorem exec_calTemptrim (e : Env) (m : Msg) (s : State) : exec (.calTemptrim e m) s = execCalTemptrim e m s := rfl
@[simp] theorem exec_calDramrt (e : Env) (m : Msg) (s : State) : exec (.calDramrt e m) s = execCalDramrt e m s := rfl
@[simp] theorem exec_calAbort (e : Env) (m : Msg) (s : State) : exec (.calAbort e m) s = execCalAbort e m s := rfl
@[simp] theorem exec_calDone (e : Env) (r : Fin 4) (lanes : List (BitVec 256 × BitVec 256)) (s : State) :
    exec (.calDone e r lanes) s = execCalDone e r lanes s := rfl
@[simp] theorem exec_calTimeout (e : Env) (r : Fin 4) (s : State) : exec (.calTimeout e r) s = execCalTimeout e r s := rfl
@[simp] theorem exec_repairRow (e : Env) (m : Msg) (s : State) : exec (.repairRow e m) s = execRepairRow e m s := rfl
@[simp] theorem exec_repairRetest (e : Env) (m : Msg) (s : State) :
    exec (.repairRetest e m) s = execRepairRetest e m s := rfl
@[simp] theorem exec_nvWrite (e : Env) (m : Msg) (s : State) : exec (.nvWrite e m) s = execNvWrite e m s := rfl
@[simp] theorem exec_nvRead (e : Env) (m : Msg) (s : State) : exec (.nvRead e m) s = execNvRead e m s := rfl
@[simp] theorem exec_fwStage (e : Env) (m : Msg) (s : State) : exec (.fwStage e m) s = execFwStage e m s := rfl
@[simp] theorem exec_fwSwitch (e : Env) (m : Msg) (s : State) : exec (.fwSwitch e m) s = execFwSwitch e m s := rfl
@[simp] theorem exec_fwProbationEnd (e : Env) (passed : Bool) (s : State) :
    exec (.fwProbationEnd e passed) s = execFwProbationEnd e passed s := rfl
@[simp] theorem exec_regRead (e : Env) (m : Msg) (s : State) : exec (.regRead e m) s = execRegRead e m s := rfl
@[simp] theorem exec_regWrite (e : Env) (m : Msg) (s : State) : exec (.regWrite e m) s = execRegWrite e m s := rfl
@[simp] theorem exec_authWrite (e : Env) (m : Msg) (s : State) : exec (.authWrite e m) s = execAuthWrite e m s := rfl
@[simp] theorem exec_registerWrite (e : Env) (f : Fin 4) (addr : BitVec 27) (data : List Byte) (s : State) :
    exec (.registerWrite e f addr data) s = execRegisterWrite e f addr data s := rfl
@[simp] theorem exec_windowAccess (e : Env) (f : Fin 4) (offset : BitVec 27) (write : Bool) (data : List Byte) (s : State) :
    exec (.windowAccess e f offset write data) s = execWindowAccess e f offset write data s := rfl
@[simp] theorem exec_cmdOverrun (e : Env) (n : Fin 256) (s : State) : exec (.cmdOverrun e n) s = execCmdOverrun e n s := rfl
@[simp] theorem exec_evrdWrite (e : Env) (n : Fin 256) (index : Fin 4096) (s : State) :
    exec (.evrdWrite e n index) s = execEvrdWrite e n index s := rfl
@[simp] theorem exec_evack (e : Env) (m : Msg) (index : Fin 4096) (s : State) :
    exec (.evack e m index) s = execEvack e m index s := rfl
@[simp] theorem exec_eventsSend (e : Env) (n : Fin 256) (s : State) : exec (.eventsSend e n) s = execEventsSend e n s := rfl
@[simp] theorem exec_eventsResend (e : Env) (n : Fin 256) (s : State) :
    exec (.eventsResend e n) s = execEventsResend e n s := rfl
@[simp] theorem exec_datagramDiscard (e : Env) (datagram : List Byte) (s : State) :
    exec (.datagramDiscard e datagram) s = execDatagramDiscard e datagram s := rfl
@[simp] theorem exec_caravanStart (e : Env) (w : Writer) (p : Fin 64) (va : BitVec 42) (s : State) :
    exec (.caravanStart e w p va) s = execCaravanStart e w p va s := rfl
@[simp] theorem exec_caravanKick (e : Env) (w : Writer) (p : Fin 64) (s : State) :
    exec (.caravanKick e w p) s = execCaravanKick e w p s := rfl
@[simp] theorem exec_caravanCancel (e : Env) (w : Writer) (p : Fin 64) (s : State) :
    exec (.caravanCancel e w p) s = execCaravanCancel e w p s := rfl
@[simp] theorem exec_tableWalkDone (e : Env) (host : DmaEnd) (s : State) :
    exec (.tableWalkDone e host) s = execTableWalkDone e host s := rfl
@[simp] theorem exec_leaseLapse (e : Env) (n : Fin 256) (s : State) : exec (.leaseLapse e n) s = execLeaseLapse e n s := rfl
@[simp] theorem exec_kennelCutoff (e : Env) (n : Fin 256) (s : State) :
    exec (.kennelCutoff e n) s = execKennelCutoff e n s := rfl
@[simp] theorem exec_kennelRelease (e : Env) (n : Fin 256) (s : State) :
    exec (.kennelRelease e n) s = execKennelRelease e n s := rfl
@[simp] theorem exec_confirmTimeout (e : Env) (n : Fin 256) (s : State) :
    exec (.confirmTimeout e n) s = execConfirmTimeout e n s := rfl
@[simp] theorem exec_commitValidate (e : Env) (n : Fin 256) (s : State) :
    exec (.commitValidate e n) s = execCommitValidate e n s := rfl
@[simp] theorem exec_catchupDone (e : Env) (u : Fin 101) (s : State) :
    exec (.catchupDone e u) s = execCatchupDone e u s := rfl
@[simp] theorem exec_commitPoint (e : Env) (n : Fin 256) (s : State) :
    exec (.commitPoint e n) s = execCommitPoint e n s := rfl
@[simp] theorem exec_commitTimeout (e : Env) (n : Fin 256) (s : State) :
    exec (.commitTimeout e n) s = execCommitTimeout e n s := rfl
@[simp] theorem exec_snapshotPeriodic (e : Env) (n : Fin 256) (s : State) :
    exec (.snapshotPeriodic e n) s = execSnapshotPeriodic e n s := rfl
@[simp] theorem exec_dramRefresh (e : Env) (ch : Fin 4) (busy : Bool) (s : State) :
    exec (.dramRefresh e ch busy) s = execDramRefresh e ch busy s := rfl
@[simp] theorem exec_dramTempPoll (e : Env) (ch : Fin 4) (hot : Bool) (s : State) :
    exec (.dramTempPoll e ch hot) s = execDramTempPoll e ch hot s := rfl
@[simp] theorem exec_dramPowerdown (e : Env) (ch : Fin 4) (rank : Fin 2) (s : State) :
    exec (.dramPowerdown e ch rank) s = execDramPowerdown e ch rank s := rfl
@[simp] theorem exec_patrolScrub (e : Env) (burst : BitVec 30) (corrected : Nat) (ue : Bool) (s : State) :
    exec (.patrolScrub e burst corrected ue) s = execPatrolScrub e burst corrected ue s := rfl
@[simp] theorem exec_zeroFill (e : Env) (page : BitVec 20) (s : State) :
    exec (.zeroFill e page) s = execZeroFill e page s := rfl
@[simp] theorem exec_eccWriteback (e : Env) (word : BitVec 24) (s : State) :
    exec (.eccWriteback e word) s = execEccWriteback e word s := rfl
@[simp] theorem exec_tableHeal (e : Env) (word : BitVec 24) (s : State) :
    exec (.tableHeal e word) s = execTableHeal e word s := rfl
@[simp] theorem exec_sheepdogWindow (e : Env) (s : State) : exec (.sheepdogWindow e) s = execSheepdogWindow e s := rfl
@[simp] theorem exec_sheepdogWindowEnd (e : Env) (fail : Option (BitVec 24 × Fin 72 × Fin 7)) (s : State) :
    exec (.sheepdogWindowEnd e fail) s = execSheepdogWindowEnd e fail s := rfl
@[simp] theorem exec_dictTest (e : Env) (g : Fin 16) (s : State) : exec (.dictTest e g) s = execDictTest e g s := rfl
@[simp] theorem exec_dictTestDone (e : Env) (g : Fin 16) (pass : Bool) (s : State) :
    exec (.dictTestDone e g pass) s = execDictTestDone e g pass s := rfl
@[simp] theorem exec_flipArm (e : Env) (w : Writer) (ctl : Word) (s : State) :
    exec (.flipArm e w ctl) s = execFlipArm e w ctl s := rfl
@[simp] theorem exec_eccWindowEnd (e : Env) (sram : Bool) (k : Fin 5) (s : State) :
    exec (.eccWindowEnd e sram k) s = execEccWindowEnd e sram k s := rfl
@[simp] theorem exec_ptpSync (e : Env) (port : Fin 8) (domain : Fin 256) (ident : Word) (portNo : Fin 65536) (logInt : Int) (origin ingress correction : Int) (s : State) :
    exec (.ptpSync e port domain ident portNo logInt origin ingress correction) s = execPtpSync e port domain ident portNo logInt origin ingress correction s := rfl
@[simp] theorem exec_ptpAnnounce (e : Env) (port : Fin 8) (domain : Fin 256) (ident : Word) (portNo : Fin 65536) (prio : List Nat) (steps : Nat) (logInt : Int) (utcOff : Int) (ptpTs : Bool) (s : State) :
    exec (.ptpAnnounce e port domain ident portNo prio steps logInt utcOff ptpTs) s = execPtpAnnounce e port domain ident portNo prio steps logInt utcOff ptpTs s := rfl
@[simp] theorem exec_ptpDelayResp (e : Env) (port : Fin 8) (domain : Fin 256) (seqId : Nat) (t1 t2 t3 t4 : Int) (s : State) :
    exec (.ptpDelayResp e port domain seqId t1 t2 t3 t4) s = execPtpDelayResp e port domain seqId t1 t2 t3 t4 s := rfl
@[simp] theorem exec_ptpPdelayReq (e : Env) (port : Fin 8) (domain : Fin 256) (seqId : Nat) (ingress : Int) (s : State) :
    exec (.ptpPdelayReq e port domain seqId ingress) s = execPtpPdelayReq e port domain seqId ingress s := rfl
@[simp] theorem exec_ptpDelayReqSend (e : Env) (s : State) : exec (.ptpDelayReqSend e) s = execPtpDelayReqSend e s := rfl
@[simp] theorem exec_ptpDiscard (e : Env) (s : State) : exec (.ptpDiscard e) s = execPtpDiscard e s := rfl
@[simp] theorem exec_syncTimeout (e : Env) (s : State) : exec (.syncTimeout e) s = execSyncTimeout e s := rfl
@[simp] theorem exec_announceTimeout (e : Env) (s : State) : exec (.announceTimeout e) s = execAnnounceTimeout e s := rfl
@[simp] theorem exec_ptpLinkLoss (e : Env) (s : State) : exec (.ptpLinkLoss e) s = execPtpLinkLoss e s := rfl
@[simp] theorem exec_timeSet (e : Env) (w : Writer) (ns : BitVec 32) (s : State) :
    exec (.timeSet e w ns) s = execTimeSet e w ns s := rfl
@[simp] theorem exec_nowsecRead (e : Env) (s : State) : exec (.nowsecRead e) s = execNowsecRead e s := rfl
@[simp] theorem exec_feedMonitorSample (e : Env) (f : Fin 14) (mv cur : Fin 65536) (s : State) :
    exec (.feedMonitorSample e f mv cur) s = execFeedMonitorSample e f mv cur s := rfl
@[simp] theorem exec_feedTrip (e : Env) (f : Fin 14) (s : State) : exec (.feedTrip e f) s = execFeedTrip e f s := rfl
@[simp] theorem exec_gapRelease (e : Env) (s : State) : exec (.gapRelease e) s = execGapRelease e s := rfl
@[simp] theorem exec_feedFail (e : Env) (f : Fin 14) (s : State) : exec (.feedFail e f) s = execFeedFail e f s := rfl
@[simp] theorem exec_feedSync (e : Env) (f : Fin 14) (s : State) : exec (.feedSync e f) s = execFeedSync e f s := rfl
@[simp] theorem exec_shareImbal (e : Env) (r : Fin 7) (s : State) : exec (.shareImbal e r) s = execShareImbal e r s := rfl
@[simp] theorem exec_loadTransferTest (e : Env) (r : Fin 7) (s : State) :
    exec (.loadTransferTest e r) s = execLoadTransferTest e r s := rfl
@[simp] theorem exec_loadTransferEnd (e : Env) (r : Fin 7) (pass : Bool) (s : State) :
    exec (.loadTransferEnd e r pass) s = execLoadTransferEnd e r pass s := rfl
@[simp] theorem exec_feedReshare (e : Env) (w : Writer) (r : Fin 7) (s : State) :
    exec (.feedReshare e w r) s = execFeedReshare e w r s := rfl
@[simp] theorem exec_vsafeTest (e : Env) (w : Writer) (stay : Bool) (s : State) :
    exec (.vsafeTest e w stay) s = execVsafeTest e w stay s := rfl
@[simp] theorem exec_vsafeTestEnd (e : Env) (res : Fin 3) (s : State) :
    exec (.vsafeTestEnd e res) s = execVsafeTestEnd e res s := rfl
@[simp] theorem exec_pwsClrcnt (e : Env) (w : Writer) (s : State) : exec (.pwsClrcnt e w) s = execPwsClrcnt e w s := rfl
@[simp] theorem exec_vsafeLost (e : Env) (s : State) : exec (.vsafeLost e) s = execVsafeLost e s := rfl
@[simp] theorem exec_vsafeRestore (e : Env) (s : State) : exec (.vsafeRestore e) s = execVsafeRestore e s := rfl
@[simp] theorem exec_refclkLost (e : Env) (s : State) : exec (.refclkLost e) s = execRefclkLost e s := rfl
@[simp] theorem exec_refclkRestore (e : Env) (s : State) : exec (.refclkRestore e) s = execRefclkRestore e s := rfl
@[simp] theorem exec_dieSensorSample (e : Env) (readings : Vector Int 16) (s : State) :
    exec (.dieSensorSample e readings) s = execDieSensorSample e readings s := rfl
@[simp] theorem exec_boardSensorSample (e : Env) (td0 td1 : Int) (v0 v1 : Bool) (s : State) :
    exec (.boardSensorSample e td0 td1 v0 v1) s = execBoardSensorSample e td0 td1 v0 v1 s := rfl
@[simp] theorem exec_thermtrip (e : Env) (s : State) : exec (.thermtrip e) s = execThermtrip e s := rfl
@[simp] theorem exec_coldStart (e : Env) (bifPins : Fin 4) (chCap : Nat) (ranks : Fin 2) (mts : Nat) (lanes : List (BitVec 256 × BitVec 256)) (vsafeA : Bool) (bankOk : Vector Bool 2) (ver : Vector (Fin 65536) 2) (badRows : List Nat) (s : State) :
    exec (.coldStart e bifPins chCap ranks mts lanes vsafeA bankOk ver badRows) s = execColdStart e bifPins chCap ranks mts lanes vsafeA bankOk ver badRows s := rfl
@[simp] theorem exec_warmReset (e : Env) (bankOk : Bool) (badRows : List Nat) (s : State) :
    exec (.warmReset e bankOk badRows) s = execWarmReset e bankOk badRows s := rfl
@[simp] theorem exec_deviceReady (e : Env) (s : State) : exec (.deviceReady e) s = execDeviceReady e s := rfl
@[simp] theorem exec_perst (e : Env) (f : Fin 4) (s : State) : exec (.perst e f) s = execPerst e f s := rfl
@[simp] theorem exec_mgmtLost (e : Env) (s : State) : exec (.mgmtLost e) s = execMgmtLost e s := rfl
@[simp] theorem exec_mgmtResume (e : Env) (s : State) : exec (.mgmtResume e) s = execMgmtResume e s := rfl
@[simp] theorem exec_evqGap (e : Env) (n : Fin 256) (s : State) : exec (.evqGap e n) s = execEvqGap e n s := rfl
@[simp] theorem exec_msixUnmask (e : Env) (f : Fin 4) (v : Option (Fin 2048)) (s : State) :
    exec (.msixUnmask e f v) s = execMsixUnmask e f v s := rfl
@[simp] theorem exec_ssiDataReady (e : Env) (c : Fin 4) (s : State) :
    exec (.ssiDataReady e c) s = execSsiDataReady e c s := rfl
@[simp] theorem exec_cruise (e : Env) (a : Fin 8) (s : State) : exec (.cruise e a) s = execCruise e a s := rfl
@[simp] theorem exec_prbsRunStart (e : Env) (p : Fin 64) (s : State) :
    exec (.prbsRunStart e p) s = execPrbsRunStart e p s := rfl
@[simp] theorem exec_headSymbolAlignment (e : Env) (p : Fin 64) (offset : Fin 10) (s : State) :
    exec (.headSymbolAlignment e p offset) s = execHeadSymbolAlignment e p offset s := rfl
@[simp] theorem exec_headPowerUp (e : Env) (p : Fin 64) (hid0 hid1 hcap : Word) (rowmap : SMap Nat) (s : State) :
    exec (.headPowerUp e p hid0 hid1 hcap rowmap) s = execHeadPowerUp e p hid0 hid1 hcap rowmap s := rfl
@[simp] theorem exec_netAddressChange (e : Env) (port : Fin 8) (s : State) :
    exec (.netAddressChange e port) s = execNetAddressChange e port s := rfl
@[simp] theorem exec_porstNLow (e : Env) (s : State) : exec (.porstNLow e) s = execPorstNLow e s := rfl
@[simp] theorem exec_dmaReadCompletion (e : Env) (p : Fin 64) (res : DmaEnd) (s : State) :
    exec (.dmaReadCompletion e p res) s = execDmaReadCompletion e p res s := rfl

end Sys2Proof.Machine
end

