-- ==== Sys2Proof/Laws/State.lean ====
section
/-! SUPPORT. One lemma per field of State for each update of a part of it; arrays and updates of their elements. -/
namespace Sys2Proof.Machine
open Sys2Proof

/-! ## Arrays -/

section
variable {α : Type} {n : Nat} [Inhabited α]

theorem vget_eq (v : Vector α n) (i : Nat) (h : i < n) : vget v i = v[i] := by simp [vget, h]

theorem vget_vset (v : Vector α n) (i : Nat) (x : α) (h : i < n) : vget (vset v i x) i = x := by
  simp [vget, vset, h]

theorem vget_vset_ne (v : Vector α n) (i j : Nat) (x : α) (h : i ≠ j) : vget (vset v i x) j = vget v j := by
  unfold vget vset
  split
  · simp [h]
  · rfl

theorem vget_vmod (v : Vector α n) (i : Nat) (f : α → α) (h : i < n) : vget (vmod v i f) i = f (vget v i) :=
  vget_vset v i _ h

theorem vget_vmod_ne (v : Vector α n) (i j : Nat) (f : α → α) (h : i ≠ j) : vget (vmod v i f) j = vget v j :=
  vget_vset_ne v i j _ h

theorem vget_vmod_fin (v : Vector α n) (i : Fin n) (f : α → α) : vget (vmod v i f) i = f (vget v i) :=
  vget_vmod v i f i.isLt

end

/-! ## Control -/

@[simp] theorem State.when_true (s : State) (f : State → State) : s.when true f = f s := rfl
@[simp] theorem State.when_false (s : State) (f : State → State) : s.when false f = s := rfl
@[simp] theorem State.each_nil {α : Type} (s : State) (f : State → α → State) : s.each [] f = s := rfl
@[simp] theorem State.each_cons {α : Type} (s : State) (a : α) (l : List α) (f : State → α → State) :
    s.each (a :: l) f = (f s a).each l f := rfl

/-! ## Fields after an update -/

@[simp] theorem State.modSeq_pending (s : State) (q : Nat) (f : Seq → Seq) : (s.modSeq q f).pending = s.pending := rfl
@[simp] theorem State.modSeq_now (s : State) (q : Nat) (f : Seq → Seq) : (s.modSeq q f).now = s.now := rfl
@[simp] theorem State.modSeq_tickBase (s : State) (q : Nat) (f : Seq → Seq) : (s.modSeq q f).tickBase = s.tickBase := rfl
@[simp] theorem State.modSeq_out (s : State) (q : Nat) (f : Seq → Seq) : (s.modSeq q f).out = s.out := rfl
@[simp] theorem State.modSeq_draws (s : State) (q : Nat) (f : Seq → Seq) : (s.modSeq q f).draws = s.draws := rfl
@[simp] theorem State.modSeq_agenda (s : State) (q : Nat) (f : Seq → Seq) : (s.modSeq q f).agenda = s.agenda := rfl
@[simp] theorem State.modSeq_gapTime (s : State) (q : Nat) (f : Seq → Seq) : (s.modSeq q f).gapTime = s.gapTime := rfl
@[simp] theorem State.modSeq_phase (s : State) (q : Nat) (f : Seq → Seq) : (s.modSeq q f).phase = s.phase := rfl
@[simp] theorem State.modSeq_dram (s : State) (q : Nat) (f : Seq → Seq) : (s.modSeq q f).dram = s.dram := rfl
@[simp] theorem State.modSeq_dramUe (s : State) (q : Nat) (f : Seq → Seq) : (s.modSeq q f).dramUe = s.dramUe := rfl
@[simp] theorem State.modSeq_dramCe (s : State) (q : Nat) (f : Seq → Seq) : (s.modSeq q f).dramCe = s.dramCe := rfl
@[simp] theorem State.modSeq_hostMem (s : State) (q : Nat) (f : Seq → Seq) : (s.modSeq q f).hostMem = s.hostMem := rfl
@[simp] theorem State.modSeq_pstore (s : State) (q : Nat) (f : Seq → Seq) : (s.modSeq q f).pstore = s.pstore := rfl
@[simp] theorem State.modSeq_pstoreBad (s : State) (q : Nat) (f : Seq → Seq) : (s.modSeq q f).pstoreBad = s.pstoreBad := rfl
@[simp] theorem State.modSeq_ctxBad (s : State) (q : Nat) (f : Seq → Seq) : (s.modSeq q f).ctxBad = s.ctxBad := rfl
@[simp] theorem State.modSeq_seq (s : State) (q : Nat) (f : Seq → Seq) : (s.modSeq q f).seq = vmod s.seq q f := rfl
@[simp] theorem State.modSeq_ctx (s : State) (q : Nat) (f : Seq → Seq) : (s.modSeq q f).ctx = s.ctx := rfl
@[simp] theorem State.modSeq_str (s : State) (q : Nat) (f : Seq → Seq) : (s.modSeq q f).str = s.str := rfl
@[simp] theorem State.modSeq_ring (s : State) (q : Nat) (f : Seq → Seq) : (s.modSeq q f).ring = s.ring := rfl
@[simp] theorem State.modSeq_eng (s : State) (q : Nat) (f : Seq → Seq) : (s.modSeq q f).eng = s.eng := rfl
@[simp] theorem State.modSeq_engLast (s : State) (q : Nat) (f : Seq → Seq) : (s.modSeq q f).engLast = s.engLast := rfl
@[simp] theorem State.modSeq_enc (s : State) (q : Nat) (f : Seq → Seq) : (s.modSeq q f).enc = s.enc := rfl
@[simp] theorem State.modSeq_place (s : State) (q : Nat) (f : Seq → Seq) : (s.modSeq q f).place = s.place := rfl
@[simp] theorem State.modSeq_fire (s : State) (q : Nat) (f : Seq → Seq) : (s.modSeq q f).fire = s.fire := rfl
@[simp] theorem State.modSeq_fp (s : State) (q : Nat) (f : Seq → Seq) : (s.modSeq q f).fp = s.fp := rfl
@[simp] theorem State.modSeq_kl (s : State) (q : Nat) (f : Seq → Seq) : (s.modSeq q f).kl = s.kl := rfl
@[simp] theorem State.modSeq_head (s : State) (q : Nat) (f : Seq → Seq) : (s.modSeq q f).head = s.head := rfl
@[simp] theorem State.modSeq_cam (s : State) (q : Nat) (f : Seq → Seq) : (s.modSeq q f).cam = s.cam := rfl
@[simp] theorem State.modSeq_pipe (s : State) (q : Nat) (f : Seq → Seq) : (s.modSeq q f).pipe = s.pipe := rfl
@[simp] theorem State.modSeq_hlt (s : State) (q : Nat) (f : Seq → Seq) : (s.modSeq q f).hlt = s.hlt := rfl
@[simp] theorem State.modSeq_ax (s : State) (q : Nat) (f : Seq → Seq) : (s.modSeq q f).ax = s.ax := rfl
@[simp] theorem State.modSeq_sess (s : State) (q : Nat) (f : Seq → Seq) : (s.modSeq q f).sess = s.sess := rfl
@[simp] theorem State.modSeq_keys (s : State) (q : Nat) (f : Seq → Seq) : (s.modSeq q f).keys = s.keys := rfl
@[simp] theorem State.modSeq_xlt (s : State) (q : Nat) (f : Seq → Seq) : (s.modSeq q f).xlt = s.xlt := rfl
@[simp] theorem State.modSeq_mgt (s : State) (q : Nat) (f : Seq → Seq) : (s.modSeq q f).mgt = s.mgt := rfl
@[simp] theorem State.modSeq_safe (s : State) (q : Nat) (f : Seq → Seq) : (s.modSeq q f).safe = s.safe := rfl
@[simp] theorem State.modSeq_mem (s : State) (q : Nat) (f : Seq → Seq) : (s.modSeq q f).mem = s.mem := rfl
@[simp] theorem State.modSeq_tim (s : State) (q : Nat) (f : Seq → Seq) : (s.modSeq q f).tim = s.tim := rfl
@[simp] theorem State.modSeq_cal (s : State) (q : Nat) (f : Seq → Seq) : (s.modSeq q f).cal = s.cal := rfl
@[simp] theorem State.modSeq_nv (s : State) (q : Nat) (f : Seq → Seq) : (s.modSeq q f).nv = s.nv := rfl
@[simp] theorem State.modSeq_pws (s : State) (q : Nat) (f : Seq → Seq) : (s.modSeq q f).pws = s.pws := rfl
@[simp] theorem State.modSeq_msix (s : State) (q : Nat) (f : Seq → Seq) : (s.modSeq q f).msix = s.msix := rfl
@[simp] theorem State.modSeq_net (s : State) (q : Nat) (f : Seq → Seq) : (s.modSeq q f).net = s.net := rfl
@[simp] theorem State.modCtx_pending (s : State) (q c : Nat) (f : Ctx → Ctx) : (s.modCtx q c f).pending = s.pending := rfl
@[simp] theorem State.modCtx_now (s : State) (q c : Nat) (f : Ctx → Ctx) : (s.modCtx q c f).now = s.now := rfl
@[simp] theorem State.modCtx_tickBase (s : State) (q c : Nat) (f : Ctx → Ctx) : (s.modCtx q c f).tickBase = s.tickBase := rfl
@[simp] theorem State.modCtx_out (s : State) (q c : Nat) (f : Ctx → Ctx) : (s.modCtx q c f).out = s.out := rfl
@[simp] theorem State.modCtx_draws (s : State) (q c : Nat) (f : Ctx → Ctx) : (s.modCtx q c f).draws = s.draws := rfl
@[simp] theorem State.modCtx_agenda (s : State) (q c : Nat) (f : Ctx → Ctx) : (s.modCtx q c f).agenda = s.agenda := rfl
@[simp] theorem State.modCtx_gapTime (s : State) (q c : Nat) (f : Ctx → Ctx) : (s.modCtx q c f).gapTime = s.gapTime := rfl
@[simp] theorem State.modCtx_phase (s : State) (q c : Nat) (f : Ctx → Ctx) : (s.modCtx q c f).phase = s.phase := rfl
@[simp] theorem State.modCtx_dram (s : State) (q c : Nat) (f : Ctx → Ctx) : (s.modCtx q c f).dram = s.dram := rfl
@[simp] theorem State.modCtx_dramUe (s : State) (q c : Nat) (f : Ctx → Ctx) : (s.modCtx q c f).dramUe = s.dramUe := rfl
@[simp] theorem State.modCtx_dramCe (s : State) (q c : Nat) (f : Ctx → Ctx) : (s.modCtx q c f).dramCe = s.dramCe := rfl
@[simp] theorem State.modCtx_hostMem (s : State) (q c : Nat) (f : Ctx → Ctx) : (s.modCtx q c f).hostMem = s.hostMem := rfl
@[simp] theorem State.modCtx_pstore (s : State) (q c : Nat) (f : Ctx → Ctx) : (s.modCtx q c f).pstore = s.pstore := rfl
@[simp] theorem State.modCtx_pstoreBad (s : State) (q c : Nat) (f : Ctx → Ctx) : (s.modCtx q c f).pstoreBad = s.pstoreBad := rfl
@[simp] theorem State.modCtx_ctxBad (s : State) (q c : Nat) (f : Ctx → Ctx) : (s.modCtx q c f).ctxBad = s.ctxBad := rfl
@[simp] theorem State.modCtx_seq (s : State) (q c : Nat) (f : Ctx → Ctx) : (s.modCtx q c f).seq = s.seq := rfl
@[simp] theorem State.modCtx_ctx (s : State) (q c : Nat) (f : Ctx → Ctx) : (s.modCtx q c f).ctx = vmod s.ctx q (fun v => vmod v c f) := rfl
@[simp] theorem State.modCtx_str (s : State) (q c : Nat) (f : Ctx → Ctx) : (s.modCtx q c f).str = s.str := rfl
@[simp] theorem State.modCtx_ring (s : State) (q c : Nat) (f : Ctx → Ctx) : (s.modCtx q c f).ring = s.ring := rfl
@[simp] theorem State.modCtx_eng (s : State) (q c : Nat) (f : Ctx → Ctx) : (s.modCtx q c f).eng = s.eng := rfl
@[simp] theorem State.modCtx_engLast (s : State) (q c : Nat) (f : Ctx → Ctx) : (s.modCtx q c f).engLast = s.engLast := rfl
@[simp] theorem State.modCtx_enc (s : State) (q c : Nat) (f : Ctx → Ctx) : (s.modCtx q c f).enc = s.enc := rfl
@[simp] theorem State.modCtx_place (s : State) (q c : Nat) (f : Ctx → Ctx) : (s.modCtx q c f).place = s.place := rfl
@[simp] theorem State.modCtx_fire (s : State) (q c : Nat) (f : Ctx → Ctx) : (s.modCtx q c f).fire = s.fire := rfl
@[simp] theorem State.modCtx_fp (s : State) (q c : Nat) (f : Ctx → Ctx) : (s.modCtx q c f).fp = s.fp := rfl
@[simp] theorem State.modCtx_kl (s : State) (q c : Nat) (f : Ctx → Ctx) : (s.modCtx q c f).kl = s.kl := rfl
@[simp] theorem State.modCtx_head (s : State) (q c : Nat) (f : Ctx → Ctx) : (s.modCtx q c f).head = s.head := rfl
@[simp] theorem State.modCtx_cam (s : State) (q c : Nat) (f : Ctx → Ctx) : (s.modCtx q c f).cam = s.cam := rfl
@[simp] theorem State.modCtx_pipe (s : State) (q c : Nat) (f : Ctx → Ctx) : (s.modCtx q c f).pipe = s.pipe := rfl
@[simp] theorem State.modCtx_hlt (s : State) (q c : Nat) (f : Ctx → Ctx) : (s.modCtx q c f).hlt = s.hlt := rfl
@[simp] theorem State.modCtx_ax (s : State) (q c : Nat) (f : Ctx → Ctx) : (s.modCtx q c f).ax = s.ax := rfl
@[simp] theorem State.modCtx_sess (s : State) (q c : Nat) (f : Ctx → Ctx) : (s.modCtx q c f).sess = s.sess := rfl
@[simp] theorem State.modCtx_keys (s : State) (q c : Nat) (f : Ctx → Ctx) : (s.modCtx q c f).keys = s.keys := rfl
@[simp] theorem State.modCtx_xlt (s : State) (q c : Nat) (f : Ctx → Ctx) : (s.modCtx q c f).xlt = s.xlt := rfl
@[simp] theorem State.modCtx_mgt (s : State) (q c : Nat) (f : Ctx → Ctx) : (s.modCtx q c f).mgt = s.mgt := rfl
@[simp] theorem State.modCtx_safe (s : State) (q c : Nat) (f : Ctx → Ctx) : (s.modCtx q c f).safe = s.safe := rfl
@[simp] theorem State.modCtx_mem (s : State) (q c : Nat) (f : Ctx → Ctx) : (s.modCtx q c f).mem = s.mem := rfl
@[simp] theorem State.modCtx_tim (s : State) (q c : Nat) (f : Ctx → Ctx) : (s.modCtx q c f).tim = s.tim := rfl
@[simp] theorem State.modCtx_cal (s : State) (q c : Nat) (f : Ctx → Ctx) : (s.modCtx q c f).cal = s.cal := rfl
@[simp] theorem State.modCtx_nv (s : State) (q c : Nat) (f : Ctx → Ctx) : (s.modCtx q c f).nv = s.nv := rfl
@[simp] theorem State.modCtx_pws (s : State) (q c : Nat) (f : Ctx → Ctx) : (s.modCtx q c f).pws = s.pws := rfl
@[simp] theorem State.modCtx_msix (s : State) (q c : Nat) (f : Ctx → Ctx) : (s.modCtx q c f).msix = s.msix := rfl
@[simp] theorem State.modCtx_net (s : State) (q c : Nat) (f : Ctx → Ctx) : (s.modCtx q c f).net = s.net := rfl
@[simp] theorem State.modStr_pending (s : State) (p : Nat) (f : Stream → Stream) : (s.modStr p f).pending = s.pending := rfl
@[simp] theorem State.modStr_now (s : State) (p : Nat) (f : Stream → Stream) : (s.modStr p f).now = s.now := rfl
@[simp] theorem State.modStr_tickBase (s : State) (p : Nat) (f : Stream → Stream) : (s.modStr p f).tickBase = s.tickBase := rfl
@[simp] theorem State.modStr_out (s : State) (p : Nat) (f : Stream → Stream) : (s.modStr p f).out = s.out := rfl
@[simp] theorem State.modStr_draws (s : State) (p : Nat) (f : Stream → Stream) : (s.modStr p f).draws = s.draws := rfl
@[simp] theorem State.modStr_agenda (s : State) (p : Nat) (f : Stream → Stream) : (s.modStr p f).agenda = s.agenda := rfl
@[simp] theorem State.modStr_gapTime (s : State) (p : Nat) (f : Stream → Stream) : (s.modStr p f).gapTime = s.gapTime := rfl
@[simp] theorem State.modStr_phase (s : State) (p : Nat) (f : Stream → Stream) : (s.modStr p f).phase = s.phase := rfl
@[simp] theorem State.modStr_dram (s : State) (p : Nat) (f : Stream → Stream) : (s.modStr p f).dram = s.dram := rfl
@[simp] theorem State.modStr_dramUe (s : State) (p : Nat) (f : Stream → Stream) : (s.modStr p f).dramUe = s.dramUe := rfl
@[simp] theorem State.modStr_dramCe (s : State) (p : Nat) (f : Stream → Stream) : (s.modStr p f).dramCe = s.dramCe := rfl
@[simp] theorem State.modStr_hostMem (s : State) (p : Nat) (f : Stream → Stream) : (s.modStr p f).hostMem = s.hostMem := rfl
@[simp] theorem State.modStr_pstore (s : State) (p : Nat) (f : Stream → Stream) : (s.modStr p f).pstore = s.pstore := rfl
@[simp] theorem State.modStr_pstoreBad (s : State) (p : Nat) (f : Stream → Stream) : (s.modStr p f).pstoreBad = s.pstoreBad := rfl
@[simp] theorem State.modStr_ctxBad (s : State) (p : Nat) (f : Stream → Stream) : (s.modStr p f).ctxBad = s.ctxBad := rfl
@[simp] theorem State.modStr_seq (s : State) (p : Nat) (f : Stream → Stream) : (s.modStr p f).seq = s.seq := rfl
@[simp] theorem State.modStr_ctx (s : State) (p : Nat) (f : Stream → Stream) : (s.modStr p f).ctx = s.ctx := rfl
@[simp] theorem State.modStr_str (s : State) (p : Nat) (f : Stream → Stream) : (s.modStr p f).str = vmod s.str p f := rfl
@[simp] theorem State.modStr_ring (s : State) (p : Nat) (f : Stream → Stream) : (s.modStr p f).ring = s.ring := rfl
@[simp] theorem State.modStr_eng (s : State) (p : Nat) (f : Stream → Stream) : (s.modStr p f).eng = s.eng := rfl
@[simp] theorem State.modStr_engLast (s : State) (p : Nat) (f : Stream → Stream) : (s.modStr p f).engLast = s.engLast := rfl
@[simp] theorem State.modStr_enc (s : State) (p : Nat) (f : Stream → Stream) : (s.modStr p f).enc = s.enc := rfl
@[simp] theorem State.modStr_place (s : State) (p : Nat) (f : Stream → Stream) : (s.modStr p f).place = s.place := rfl
@[simp] theorem State.modStr_fire (s : State) (p : Nat) (f : Stream → Stream) : (s.modStr p f).fire = s.fire := rfl
@[simp] theorem State.modStr_fp (s : State) (p : Nat) (f : Stream → Stream) : (s.modStr p f).fp = s.fp := rfl
@[simp] theorem State.modStr_kl (s : State) (p : Nat) (f : Stream → Stream) : (s.modStr p f).kl = s.kl := rfl
@[simp] theorem State.modStr_head (s : State) (p : Nat) (f : Stream → Stream) : (s.modStr p f).head = s.head := rfl
@[simp] theorem State.modStr_cam (s : State) (p : Nat) (f : Stream → Stream) : (s.modStr p f).cam = s.cam := rfl
@[simp] theorem State.modStr_pipe (s : State) (p : Nat) (f : Stream → Stream) : (s.modStr p f).pipe = s.pipe := rfl
@[simp] theorem State.modStr_hlt (s : State) (p : Nat) (f : Stream → Stream) : (s.modStr p f).hlt = s.hlt := rfl
@[simp] theorem State.modStr_ax (s : State) (p : Nat) (f : Stream → Stream) : (s.modStr p f).ax = s.ax := rfl
@[simp] theorem State.modStr_sess (s : State) (p : Nat) (f : Stream → Stream) : (s.modStr p f).sess = s.sess := rfl
@[simp] theorem State.modStr_keys (s : State) (p : Nat) (f : Stream → Stream) : (s.modStr p f).keys = s.keys := rfl
@[simp] theorem State.modStr_xlt (s : State) (p : Nat) (f : Stream → Stream) : (s.modStr p f).xlt = s.xlt := rfl
@[simp] theorem State.modStr_mgt (s : State) (p : Nat) (f : Stream → Stream) : (s.modStr p f).mgt = s.mgt := rfl
@[simp] theorem State.modStr_safe (s : State) (p : Nat) (f : Stream → Stream) : (s.modStr p f).safe = s.safe := rfl
@[simp] theorem State.modStr_mem (s : State) (p : Nat) (f : Stream → Stream) : (s.modStr p f).mem = s.mem := rfl
@[simp] theorem State.modStr_tim (s : State) (p : Nat) (f : Stream → Stream) : (s.modStr p f).tim = s.tim := rfl
@[simp] theorem State.modStr_cal (s : State) (p : Nat) (f : Stream → Stream) : (s.modStr p f).cal = s.cal := rfl
@[simp] theorem State.modStr_nv (s : State) (p : Nat) (f : Stream → Stream) : (s.modStr p f).nv = s.nv := rfl
@[simp] theorem State.modStr_pws (s : State) (p : Nat) (f : Stream → Stream) : (s.modStr p f).pws = s.pws := rfl
@[simp] theorem State.modStr_msix (s : State) (p : Nat) (f : Stream → Stream) : (s.modStr p f).msix = s.msix := rfl
@[simp] theorem State.modStr_net (s : State) (p : Nat) (f : Stream → Stream) : (s.modStr p f).net = s.net := rfl
@[simp] theorem State.modRing_pending (s : State) (p : Nat) (f : Ring → Ring) : (s.modRing p f).pending = s.pending := rfl
@[simp] theorem State.modRing_now (s : State) (p : Nat) (f : Ring → Ring) : (s.modRing p f).now = s.now := rfl
@[simp] theorem State.modRing_tickBase (s : State) (p : Nat) (f : Ring → Ring) : (s.modRing p f).tickBase = s.tickBase := rfl
@[simp] theorem State.modRing_out (s : State) (p : Nat) (f : Ring → Ring) : (s.modRing p f).out = s.out := rfl
@[simp] theorem State.modRing_draws (s : State) (p : Nat) (f : Ring → Ring) : (s.modRing p f).draws = s.draws := rfl
@[simp] theorem State.modRing_agenda (s : State) (p : Nat) (f : Ring → Ring) : (s.modRing p f).agenda = s.agenda := rfl
@[simp] theorem State.modRing_gapTime (s : State) (p : Nat) (f : Ring → Ring) : (s.modRing p f).gapTime = s.gapTime := rfl
@[simp] theorem State.modRing_phase (s : State) (p : Nat) (f : Ring → Ring) : (s.modRing p f).phase = s.phase := rfl
@[simp] theorem State.modRing_dram (s : State) (p : Nat) (f : Ring → Ring) : (s.modRing p f).dram = s.dram := rfl
@[simp] theorem State.modRing_dramUe (s : State) (p : Nat) (f : Ring → Ring) : (s.modRing p f).dramUe = s.dramUe := rfl
@[simp] theorem State.modRing_dramCe (s : State) (p : Nat) (f : Ring → Ring) : (s.modRing p f).dramCe = s.dramCe := rfl
@[simp] theorem State.modRing_hostMem (s : State) (p : Nat) (f : Ring → Ring) : (s.modRing p f).hostMem = s.hostMem := rfl
@[simp] theorem State.modRing_pstore (s : State) (p : Nat) (f : Ring → Ring) : (s.modRing p f).pstore = s.pstore := rfl
@[simp] theorem State.modRing_pstoreBad (s : State) (p : Nat) (f : Ring → Ring) : (s.modRing p f).pstoreBad = s.pstoreBad := rfl
@[simp] theorem State.modRing_ctxBad (s : State) (p : Nat) (f : Ring → Ring) : (s.modRing p f).ctxBad = s.ctxBad := rfl
@[simp] theorem State.modRing_seq (s : State) (p : Nat) (f : Ring → Ring) : (s.modRing p f).seq = s.seq := rfl
@[simp] theorem State.modRing_ctx (s : State) (p : Nat) (f : Ring → Ring) : (s.modRing p f).ctx = s.ctx := rfl
@[simp] theorem State.modRing_str (s : State) (p : Nat) (f : Ring → Ring) : (s.modRing p f).str = s.str := rfl
@[simp] theorem State.modRing_ring (s : State) (p : Nat) (f : Ring → Ring) : (s.modRing p f).ring = vmod s.ring p f := rfl
@[simp] theorem State.modRing_eng (s : State) (p : Nat) (f : Ring → Ring) : (s.modRing p f).eng = s.eng := rfl
@[simp] theorem State.modRing_engLast (s : State) (p : Nat) (f : Ring → Ring) : (s.modRing p f).engLast = s.engLast := rfl
@[simp] theorem State.modRing_enc (s : State) (p : Nat) (f : Ring → Ring) : (s.modRing p f).enc = s.enc := rfl
@[simp] theorem State.modRing_place (s : State) (p : Nat) (f : Ring → Ring) : (s.modRing p f).place = s.place := rfl
@[simp] theorem State.modRing_fire (s : State) (p : Nat) (f : Ring → Ring) : (s.modRing p f).fire = s.fire := rfl
@[simp] theorem State.modRing_fp (s : State) (p : Nat) (f : Ring → Ring) : (s.modRing p f).fp = s.fp := rfl
@[simp] theorem State.modRing_kl (s : State) (p : Nat) (f : Ring → Ring) : (s.modRing p f).kl = s.kl := rfl
@[simp] theorem State.modRing_head (s : State) (p : Nat) (f : Ring → Ring) : (s.modRing p f).head = s.head := rfl
@[simp] theorem State.modRing_cam (s : State) (p : Nat) (f : Ring → Ring) : (s.modRing p f).cam = s.cam := rfl
@[simp] theorem State.modRing_pipe (s : State) (p : Nat) (f : Ring → Ring) : (s.modRing p f).pipe = s.pipe := rfl
@[simp] theorem State.modRing_hlt (s : State) (p : Nat) (f : Ring → Ring) : (s.modRing p f).hlt = s.hlt := rfl
@[simp] theorem State.modRing_ax (s : State) (p : Nat) (f : Ring → Ring) : (s.modRing p f).ax = s.ax := rfl
@[simp] theorem State.modRing_sess (s : State) (p : Nat) (f : Ring → Ring) : (s.modRing p f).sess = s.sess := rfl
@[simp] theorem State.modRing_keys (s : State) (p : Nat) (f : Ring → Ring) : (s.modRing p f).keys = s.keys := rfl
@[simp] theorem State.modRing_xlt (s : State) (p : Nat) (f : Ring → Ring) : (s.modRing p f).xlt = s.xlt := rfl
@[simp] theorem State.modRing_mgt (s : State) (p : Nat) (f : Ring → Ring) : (s.modRing p f).mgt = s.mgt := rfl
@[simp] theorem State.modRing_safe (s : State) (p : Nat) (f : Ring → Ring) : (s.modRing p f).safe = s.safe := rfl
@[simp] theorem State.modRing_mem (s : State) (p : Nat) (f : Ring → Ring) : (s.modRing p f).mem = s.mem := rfl
@[simp] theorem State.modRing_tim (s : State) (p : Nat) (f : Ring → Ring) : (s.modRing p f).tim = s.tim := rfl
@[simp] theorem State.modRing_cal (s : State) (p : Nat) (f : Ring → Ring) : (s.modRing p f).cal = s.cal := rfl
@[simp] theorem State.modRing_nv (s : State) (p : Nat) (f : Ring → Ring) : (s.modRing p f).nv = s.nv := rfl
@[simp] theorem State.modRing_pws (s : State) (p : Nat) (f : Ring → Ring) : (s.modRing p f).pws = s.pws := rfl
@[simp] theorem State.modRing_msix (s : State) (p : Nat) (f : Ring → Ring) : (s.modRing p f).msix = s.msix := rfl
@[simp] theorem State.modRing_net (s : State) (p : Nat) (f : Ring → Ring) : (s.modRing p f).net = s.net := rfl
@[simp] theorem State.modEng_pending (s : State) (g : Nat) (f : Engine → Engine) : (s.modEng g f).pending = s.pending := rfl
@[simp] theorem State.modEng_now (s : State) (g : Nat) (f : Engine → Engine) : (s.modEng g f).now = s.now := rfl
@[simp] theorem State.modEng_tickBase (s : State) (g : Nat) (f : Engine → Engine) : (s.modEng g f).tickBase = s.tickBase := rfl
@[simp] theorem State.modEng_out (s : State) (g : Nat) (f : Engine → Engine) : (s.modEng g f).out = s.out := rfl
@[simp] theorem State.modEng_draws (s : State) (g : Nat) (f : Engine → Engine) : (s.modEng g f).draws = s.draws := rfl
@[simp] theorem State.modEng_agenda (s : State) (g : Nat) (f : Engine → Engine) : (s.modEng g f).agenda = s.agenda := rfl
@[simp] theorem State.modEng_gapTime (s : State) (g : Nat) (f : Engine → Engine) : (s.modEng g f).gapTime = s.gapTime := rfl
@[simp] theorem State.modEng_phase (s : State) (g : Nat) (f : Engine → Engine) : (s.modEng g f).phase = s.phase := rfl
@[simp] theorem State.modEng_dram (s : State) (g : Nat) (f : Engine → Engine) : (s.modEng g f).dram = s.dram := rfl
@[simp] theorem State.modEng_dramUe (s : State) (g : Nat) (f : Engine → Engine) : (s.modEng g f).dramUe = s.dramUe := rfl
@[simp] theorem State.modEng_dramCe (s : State) (g : Nat) (f : Engine → Engine) : (s.modEng g f).dramCe = s.dramCe := rfl
@[simp] theorem State.modEng_hostMem (s : State) (g : Nat) (f : Engine → Engine) : (s.modEng g f).hostMem = s.hostMem := rfl
@[simp] theorem State.modEng_pstore (s : State) (g : Nat) (f : Engine → Engine) : (s.modEng g f).pstore = s.pstore := rfl
@[simp] theorem State.modEng_pstoreBad (s : State) (g : Nat) (f : Engine → Engine) : (s.modEng g f).pstoreBad = s.pstoreBad := rfl
@[simp] theorem State.modEng_ctxBad (s : State) (g : Nat) (f : Engine → Engine) : (s.modEng g f).ctxBad = s.ctxBad := rfl
@[simp] theorem State.modEng_seq (s : State) (g : Nat) (f : Engine → Engine) : (s.modEng g f).seq = s.seq := rfl
@[simp] theorem State.modEng_ctx (s : State) (g : Nat) (f : Engine → Engine) : (s.modEng g f).ctx = s.ctx := rfl
@[simp] theorem State.modEng_str (s : State) (g : Nat) (f : Engine → Engine) : (s.modEng g f).str = s.str := rfl
@[simp] theorem State.modEng_ring (s : State) (g : Nat) (f : Engine → Engine) : (s.modEng g f).ring = s.ring := rfl
@[simp] theorem State.modEng_eng (s : State) (g : Nat) (f : Engine → Engine) : (s.modEng g f).eng = vmod s.eng g f := rfl
@[simp] theorem State.modEng_engLast (s : State) (g : Nat) (f : Engine → Engine) : (s.modEng g f).engLast = s.engLast := rfl
@[simp] theorem State.modEng_enc (s : State) (g : Nat) (f : Engine → Engine) : (s.modEng g f).enc = s.enc := rfl
@[simp] theorem State.modEng_place (s : State) (g : Nat) (f : Engine → Engine) : (s.modEng g f).place = s.place := rfl
@[simp] theorem State.modEng_fire (s : State) (g : Nat) (f : Engine → Engine) : (s.modEng g f).fire = s.fire := rfl
@[simp] theorem State.modEng_fp (s : State) (g : Nat) (f : Engine → Engine) : (s.modEng g f).fp = s.fp := rfl
@[simp] theorem State.modEng_kl (s : State) (g : Nat) (f : Engine → Engine) : (s.modEng g f).kl = s.kl := rfl
@[simp] theorem State.modEng_head (s : State) (g : Nat) (f : Engine → Engine) : (s.modEng g f).head = s.head := rfl
@[simp] theorem State.modEng_cam (s : State) (g : Nat) (f : Engine → Engine) : (s.modEng g f).cam = s.cam := rfl
@[simp] theorem State.modEng_pipe (s : State) (g : Nat) (f : Engine → Engine) : (s.modEng g f).pipe = s.pipe := rfl
@[simp] theorem State.modEng_hlt (s : State) (g : Nat) (f : Engine → Engine) : (s.modEng g f).hlt = s.hlt := rfl
@[simp] theorem State.modEng_ax (s : State) (g : Nat) (f : Engine → Engine) : (s.modEng g f).ax = s.ax := rfl
@[simp] theorem State.modEng_sess (s : State) (g : Nat) (f : Engine → Engine) : (s.modEng g f).sess = s.sess := rfl
@[simp] theorem State.modEng_keys (s : State) (g : Nat) (f : Engine → Engine) : (s.modEng g f).keys = s.keys := rfl
@[simp] theorem State.modEng_xlt (s : State) (g : Nat) (f : Engine → Engine) : (s.modEng g f).xlt = s.xlt := rfl
@[simp] theorem State.modEng_mgt (s : State) (g : Nat) (f : Engine → Engine) : (s.modEng g f).mgt = s.mgt := rfl
@[simp] theorem State.modEng_safe (s : State) (g : Nat) (f : Engine → Engine) : (s.modEng g f).safe = s.safe := rfl
@[simp] theorem State.modEng_mem (s : State) (g : Nat) (f : Engine → Engine) : (s.modEng g f).mem = s.mem := rfl
@[simp] theorem State.modEng_tim (s : State) (g : Nat) (f : Engine → Engine) : (s.modEng g f).tim = s.tim := rfl
@[simp] theorem State.modEng_cal (s : State) (g : Nat) (f : Engine → Engine) : (s.modEng g f).cal = s.cal := rfl
@[simp] theorem State.modEng_nv (s : State) (g : Nat) (f : Engine → Engine) : (s.modEng g f).nv = s.nv := rfl
@[simp] theorem State.modEng_pws (s : State) (g : Nat) (f : Engine → Engine) : (s.modEng g f).pws = s.pws := rfl
@[simp] theorem State.modEng_msix (s : State) (g : Nat) (f : Engine → Engine) : (s.modEng g f).msix = s.msix := rfl
@[simp] theorem State.modEng_net (s : State) (g : Nat) (f : Engine → Engine) : (s.modEng g f).net = s.net := rfl
@[simp] theorem State.modEnc_pending (s : State) (c : Nat) (f : Enc → Enc) : (s.modEnc c f).pending = s.pending := rfl
@[simp] theorem State.modEnc_now (s : State) (c : Nat) (f : Enc → Enc) : (s.modEnc c f).now = s.now := rfl
@[simp] theorem State.modEnc_tickBase (s : State) (c : Nat) (f : Enc → Enc) : (s.modEnc c f).tickBase = s.tickBase := rfl
@[simp] theorem State.modEnc_out (s : State) (c : Nat) (f : Enc → Enc) : (s.modEnc c f).out = s.out := rfl
@[simp] theorem State.modEnc_draws (s : State) (c : Nat) (f : Enc → Enc) : (s.modEnc c f).draws = s.draws := rfl
@[simp] theorem State.modEnc_agenda (s : State) (c : Nat) (f : Enc → Enc) : (s.modEnc c f).agenda = s.agenda := rfl
@[simp] theorem State.modEnc_gapTime (s : State) (c : Nat) (f : Enc → Enc) : (s.modEnc c f).gapTime = s.gapTime := rfl
@[simp] theorem State.modEnc_phase (s : State) (c : Nat) (f : Enc → Enc) : (s.modEnc c f).phase = s.phase := rfl
@[simp] theorem State.modEnc_dram (s : State) (c : Nat) (f : Enc → Enc) : (s.modEnc c f).dram = s.dram := rfl
@[simp] theorem State.modEnc_dramUe (s : State) (c : Nat) (f : Enc → Enc) : (s.modEnc c f).dramUe = s.dramUe := rfl
@[simp] theorem State.modEnc_dramCe (s : State) (c : Nat) (f : Enc → Enc) : (s.modEnc c f).dramCe = s.dramCe := rfl
@[simp] theorem State.modEnc_hostMem (s : State) (c : Nat) (f : Enc → Enc) : (s.modEnc c f).hostMem = s.hostMem := rfl
@[simp] theorem State.modEnc_pstore (s : State) (c : Nat) (f : Enc → Enc) : (s.modEnc c f).pstore = s.pstore := rfl
@[simp] theorem State.modEnc_pstoreBad (s : State) (c : Nat) (f : Enc → Enc) : (s.modEnc c f).pstoreBad = s.pstoreBad := rfl
@[simp] theorem State.modEnc_ctxBad (s : State) (c : Nat) (f : Enc → Enc) : (s.modEnc c f).ctxBad = s.ctxBad := rfl
@[simp] theorem State.modEnc_seq (s : State) (c : Nat) (f : Enc → Enc) : (s.modEnc c f).seq = s.seq := rfl
@[simp] theorem State.modEnc_ctx (s : State) (c : Nat) (f : Enc → Enc) : (s.modEnc c f).ctx = s.ctx := rfl
@[simp] theorem State.modEnc_str (s : State) (c : Nat) (f : Enc → Enc) : (s.modEnc c f).str = s.str := rfl
@[simp] theorem State.modEnc_ring (s : State) (c : Nat) (f : Enc → Enc) : (s.modEnc c f).ring = s.ring := rfl
@[simp] theorem State.modEnc_eng (s : State) (c : Nat) (f : Enc → Enc) : (s.modEnc c f).eng = s.eng := rfl
@[simp] theorem State.modEnc_engLast (s : State) (c : Nat) (f : Enc → Enc) : (s.modEnc c f).engLast = s.engLast := rfl
@[simp] theorem State.modEnc_enc (s : State) (c : Nat) (f : Enc → Enc) : (s.modEnc c f).enc = vmod s.enc c f := rfl
@[simp] theorem State.modEnc_place (s : State) (c : Nat) (f : Enc → Enc) : (s.modEnc c f).place = s.place := rfl
@[simp] theorem State.modEnc_fire (s : State) (c : Nat) (f : Enc → Enc) : (s.modEnc c f).fire = s.fire := rfl
@[simp] theorem State.modEnc_fp (s : State) (c : Nat) (f : Enc → Enc) : (s.modEnc c f).fp = s.fp := rfl
@[simp] theorem State.modEnc_kl (s : State) (c : Nat) (f : Enc → Enc) : (s.modEnc c f).kl = s.kl := rfl
@[simp] theorem State.modEnc_head (s : State) (c : Nat) (f : Enc → Enc) : (s.modEnc c f).head = s.head := rfl
@[simp] theorem State.modEnc_cam (s : State) (c : Nat) (f : Enc → Enc) : (s.modEnc c f).cam = s.cam := rfl
@[simp] theorem State.modEnc_pipe (s : State) (c : Nat) (f : Enc → Enc) : (s.modEnc c f).pipe = s.pipe := rfl
@[simp] theorem State.modEnc_hlt (s : State) (c : Nat) (f : Enc → Enc) : (s.modEnc c f).hlt = s.hlt := rfl
@[simp] theorem State.modEnc_ax (s : State) (c : Nat) (f : Enc → Enc) : (s.modEnc c f).ax = s.ax := rfl
@[simp] theorem State.modEnc_sess (s : State) (c : Nat) (f : Enc → Enc) : (s.modEnc c f).sess = s.sess := rfl
@[simp] theorem State.modEnc_keys (s : State) (c : Nat) (f : Enc → Enc) : (s.modEnc c f).keys = s.keys := rfl
@[simp] theorem State.modEnc_xlt (s : State) (c : Nat) (f : Enc → Enc) : (s.modEnc c f).xlt = s.xlt := rfl
@[simp] theorem State.modEnc_mgt (s : State) (c : Nat) (f : Enc → Enc) : (s.modEnc c f).mgt = s.mgt := rfl
@[simp] theorem State.modEnc_safe (s : State) (c : Nat) (f : Enc → Enc) : (s.modEnc c f).safe = s.safe := rfl
@[simp] theorem State.modEnc_mem (s : State) (c : Nat) (f : Enc → Enc) : (s.modEnc c f).mem = s.mem := rfl
@[simp] theorem State.modEnc_tim (s : State) (c : Nat) (f : Enc → Enc) : (s.modEnc c f).tim = s.tim := rfl
@[simp] theorem State.modEnc_cal (s : State) (c : Nat) (f : Enc → Enc) : (s.modEnc c f).cal = s.cal := rfl
@[simp] theorem State.modEnc_nv (s : State) (c : Nat) (f : Enc → Enc) : (s.modEnc c f).nv = s.nv := rfl
@[simp] theorem State.modEnc_pws (s : State) (c : Nat) (f : Enc → Enc) : (s.modEnc c f).pws = s.pws := rfl
@[simp] theorem State.modEnc_msix (s : State) (c : Nat) (f : Enc → Enc) : (s.modEnc c f).msix = s.msix := rfl
@[simp] theorem State.modEnc_net (s : State) (c : Nat) (f : Enc → Enc) : (s.modEnc c f).net = s.net := rfl
@[simp] theorem State.modPlace_pending (s : State) (q : Nat) (f : Placer → Placer) : (s.modPlace q f).pending = s.pending := rfl
@[simp] theorem State.modPlace_now (s : State) (q : Nat) (f : Placer → Placer) : (s.modPlace q f).now = s.now := rfl
@[simp] theorem State.modPlace_tickBase (s : State) (q : Nat) (f : Placer → Placer) : (s.modPlace q f).tickBase = s.tickBase := rfl
@[simp] theorem State.modPlace_out (s : State) (q : Nat) (f : Placer → Placer) : (s.modPlace q f).out = s.out := rfl
@[simp] theorem State.modPlace_draws (s : State) (q : Nat) (f : Placer → Placer) : (s.modPlace q f).draws = s.draws := rfl
@[simp] theorem State.modPlace_agenda (s : State) (q : Nat) (f : Placer → Placer) : (s.modPlace q f).agenda = s.agenda := rfl
@[simp] theorem State.modPlace_gapTime (s : State) (q : Nat) (f : Placer → Placer) : (s.modPlace q f).gapTime = s.gapTime := rfl
@[simp] theorem State.modPlace_phase (s : State) (q : Nat) (f : Placer → Placer) : (s.modPlace q f).phase = s.phase := rfl
@[simp] theorem State.modPlace_dram (s : State) (q : Nat) (f : Placer → Placer) : (s.modPlace q f).dram = s.dram := rfl
@[simp] theorem State.modPlace_dramUe (s : State) (q : Nat) (f : Placer → Placer) : (s.modPlace q f).dramUe = s.dramUe := rfl
@[simp] theorem State.modPlace_dramCe (s : State) (q : Nat) (f : Placer → Placer) : (s.modPlace q f).dramCe = s.dramCe := rfl
@[simp] theorem State.modPlace_hostMem (s : State) (q : Nat) (f : Placer → Placer) : (s.modPlace q f).hostMem = s.hostMem := rfl
@[simp] theorem State.modPlace_pstore (s : State) (q : Nat) (f : Placer → Placer) : (s.modPlace q f).pstore = s.pstore := rfl
@[simp] theorem State.modPlace_pstoreBad (s : State) (q : Nat) (f : Placer → Placer) : (s.modPlace q f).pstoreBad = s.pstoreBad := rfl
@[simp] theorem State.modPlace_ctxBad (s : State) (q : Nat) (f : Placer → Placer) : (s.modPlace q f).ctxBad = s.ctxBad := rfl
@[simp] theorem State.modPlace_seq (s : State) (q : Nat) (f : Placer → Placer) : (s.modPlace q f).seq = s.seq := rfl
@[simp] theorem State.modPlace_ctx (s : State) (q : Nat) (f : Placer → Placer) : (s.modPlace q f).ctx = s.ctx := rfl
@[simp] theorem State.modPlace_str (s : State) (q : Nat) (f : Placer → Placer) : (s.modPlace q f).str = s.str := rfl
@[simp] theorem State.modPlace_ring (s : State) (q : Nat) (f : Placer → Placer) : (s.modPlace q f).ring = s.ring := rfl
@[simp] theorem State.modPlace_eng (s : State) (q : Nat) (f : Placer → Placer) : (s.modPlace q f).eng = s.eng := rfl
@[simp] theorem State.modPlace_engLast (s : State) (q : Nat) (f : Placer → Placer) : (s.modPlace q f).engLast = s.engLast := rfl
@[simp] theorem State.modPlace_enc (s : State) (q : Nat) (f : Placer → Placer) : (s.modPlace q f).enc = s.enc := rfl
@[simp] theorem State.modPlace_place (s : State) (q : Nat) (f : Placer → Placer) : (s.modPlace q f).place = vmod s.place q f := rfl
@[simp] theorem State.modPlace_fire (s : State) (q : Nat) (f : Placer → Placer) : (s.modPlace q f).fire = s.fire := rfl
@[simp] theorem State.modPlace_fp (s : State) (q : Nat) (f : Placer → Placer) : (s.modPlace q f).fp = s.fp := rfl
@[simp] theorem State.modPlace_kl (s : State) (q : Nat) (f : Placer → Placer) : (s.modPlace q f).kl = s.kl := rfl
@[simp] theorem State.modPlace_head (s : State) (q : Nat) (f : Placer → Placer) : (s.modPlace q f).head = s.head := rfl
@[simp] theorem State.modPlace_cam (s : State) (q : Nat) (f : Placer → Placer) : (s.modPlace q f).cam = s.cam := rfl
@[simp] theorem State.modPlace_pipe (s : State) (q : Nat) (f : Placer → Placer) : (s.modPlace q f).pipe = s.pipe := rfl
@[simp] theorem State.modPlace_hlt (s : State) (q : Nat) (f : Placer → Placer) : (s.modPlace q f).hlt = s.hlt := rfl
@[simp] theorem State.modPlace_ax (s : State) (q : Nat) (f : Placer → Placer) : (s.modPlace q f).ax = s.ax := rfl
@[simp] theorem State.modPlace_sess (s : State) (q : Nat) (f : Placer → Placer) : (s.modPlace q f).sess = s.sess := rfl
@[simp] theorem State.modPlace_keys (s : State) (q : Nat) (f : Placer → Placer) : (s.modPlace q f).keys = s.keys := rfl
@[simp] theorem State.modPlace_xlt (s : State) (q : Nat) (f : Placer → Placer) : (s.modPlace q f).xlt = s.xlt := rfl
@[simp] theorem State.modPlace_mgt (s : State) (q : Nat) (f : Placer → Placer) : (s.modPlace q f).mgt = s.mgt := rfl
@[simp] theorem State.modPlace_safe (s : State) (q : Nat) (f : Placer → Placer) : (s.modPlace q f).safe = s.safe := rfl
@[simp] theorem State.modPlace_mem (s : State) (q : Nat) (f : Placer → Placer) : (s.modPlace q f).mem = s.mem := rfl
@[simp] theorem State.modPlace_tim (s : State) (q : Nat) (f : Placer → Placer) : (s.modPlace q f).tim = s.tim := rfl
@[simp] theorem State.modPlace_cal (s : State) (q : Nat) (f : Placer → Placer) : (s.modPlace q f).cal = s.cal := rfl
@[simp] theorem State.modPlace_nv (s : State) (q : Nat) (f : Placer → Placer) : (s.modPlace q f).nv = s.nv := rfl
@[simp] theorem State.modPlace_pws (s : State) (q : Nat) (f : Placer → Placer) : (s.modPlace q f).pws = s.pws := rfl
@[simp] theorem State.modPlace_msix (s : State) (q : Nat) (f : Placer → Placer) : (s.modPlace q f).msix = s.msix := rfl
@[simp] theorem State.modPlace_net (s : State) (q : Nat) (f : Placer → Placer) : (s.modPlace q f).net = s.net := rfl
@[simp] theorem State.modFp_pending (s : State) (p : Nat) (f : FirePort → FirePort) : (s.modFp p f).pending = s.pending := rfl
@[simp] theorem State.modFp_now (s : State) (p : Nat) (f : FirePort → FirePort) : (s.modFp p f).now = s.now := rfl
@[simp] theorem State.modFp_tickBase (s : State) (p : Nat) (f : FirePort → FirePort) : (s.modFp p f).tickBase = s.tickBase := rfl
@[simp] theorem State.modFp_out (s : State) (p : Nat) (f : FirePort → FirePort) : (s.modFp p f).out = s.out := rfl
@[simp] theorem State.modFp_draws (s : State) (p : Nat) (f : FirePort → FirePort) : (s.modFp p f).draws = s.draws := rfl
@[simp] theorem State.modFp_agenda (s : State) (p : Nat) (f : FirePort → FirePort) : (s.modFp p f).agenda = s.agenda := rfl
@[simp] theorem State.modFp_gapTime (s : State) (p : Nat) (f : FirePort → FirePort) : (s.modFp p f).gapTime = s.gapTime := rfl
@[simp] theorem State.modFp_phase (s : State) (p : Nat) (f : FirePort → FirePort) : (s.modFp p f).phase = s.phase := rfl
@[simp] theorem State.modFp_dram (s : State) (p : Nat) (f : FirePort → FirePort) : (s.modFp p f).dram = s.dram := rfl
@[simp] theorem State.modFp_dramUe (s : State) (p : Nat) (f : FirePort → FirePort) : (s.modFp p f).dramUe = s.dramUe := rfl
@[simp] theorem State.modFp_dramCe (s : State) (p : Nat) (f : FirePort → FirePort) : (s.modFp p f).dramCe = s.dramCe := rfl
@[simp] theorem State.modFp_hostMem (s : State) (p : Nat) (f : FirePort → FirePort) : (s.modFp p f).hostMem = s.hostMem := rfl
@[simp] theorem State.modFp_pstore (s : State) (p : Nat) (f : FirePort → FirePort) : (s.modFp p f).pstore = s.pstore := rfl
@[simp] theorem State.modFp_pstoreBad (s : State) (p : Nat) (f : FirePort → FirePort) : (s.modFp p f).pstoreBad = s.pstoreBad := rfl
@[simp] theorem State.modFp_ctxBad (s : State) (p : Nat) (f : FirePort → FirePort) : (s.modFp p f).ctxBad = s.ctxBad := rfl
@[simp] theorem State.modFp_seq (s : State) (p : Nat) (f : FirePort → FirePort) : (s.modFp p f).seq = s.seq := rfl
@[simp] theorem State.modFp_ctx (s : State) (p : Nat) (f : FirePort → FirePort) : (s.modFp p f).ctx = s.ctx := rfl
@[simp] theorem State.modFp_str (s : State) (p : Nat) (f : FirePort → FirePort) : (s.modFp p f).str = s.str := rfl
@[simp] theorem State.modFp_ring (s : State) (p : Nat) (f : FirePort → FirePort) : (s.modFp p f).ring = s.ring := rfl
@[simp] theorem State.modFp_eng (s : State) (p : Nat) (f : FirePort → FirePort) : (s.modFp p f).eng = s.eng := rfl
@[simp] theorem State.modFp_engLast (s : State) (p : Nat) (f : FirePort → FirePort) : (s.modFp p f).engLast = s.engLast := rfl
@[simp] theorem State.modFp_enc (s : State) (p : Nat) (f : FirePort → FirePort) : (s.modFp p f).enc = s.enc := rfl
@[simp] theorem State.modFp_place (s : State) (p : Nat) (f : FirePort → FirePort) : (s.modFp p f).place = s.place := rfl
@[simp] theorem State.modFp_fire (s : State) (p : Nat) (f : FirePort → FirePort) : (s.modFp p f).fire = s.fire := rfl
@[simp] theorem State.modFp_fp (s : State) (p : Nat) (f : FirePort → FirePort) : (s.modFp p f).fp = vmod s.fp p f := rfl
@[simp] theorem State.modFp_kl (s : State) (p : Nat) (f : FirePort → FirePort) : (s.modFp p f).kl = s.kl := rfl
@[simp] theorem State.modFp_head (s : State) (p : Nat) (f : FirePort → FirePort) : (s.modFp p f).head = s.head := rfl
@[simp] theorem State.modFp_cam (s : State) (p : Nat) (f : FirePort → FirePort) : (s.modFp p f).cam = s.cam := rfl
@[simp] theorem State.modFp_pipe (s : State) (p : Nat) (f : FirePort → FirePort) : (s.modFp p f).pipe = s.pipe := rfl
@[simp] theorem State.modFp_hlt (s : State) (p : Nat) (f : FirePort → FirePort) : (s.modFp p f).hlt = s.hlt := rfl
@[simp] theorem State.modFp_ax (s : State) (p : Nat) (f : FirePort → FirePort) : (s.modFp p f).ax = s.ax := rfl
@[simp] theorem State.modFp_sess (s : State) (p : Nat) (f : FirePort → FirePort) : (s.modFp p f).sess = s.sess := rfl
@[simp] theorem State.modFp_keys (s : State) (p : Nat) (f : FirePort → FirePort) : (s.modFp p f).keys = s.keys := rfl
@[simp] theorem State.modFp_xlt (s : State) (p : Nat) (f : FirePort → FirePort) : (s.modFp p f).xlt = s.xlt := rfl
@[simp] theorem State.modFp_mgt (s : State) (p : Nat) (f : FirePort → FirePort) : (s.modFp p f).mgt = s.mgt := rfl
@[simp] theorem State.modFp_safe (s : State) (p : Nat) (f : FirePort → FirePort) : (s.modFp p f).safe = s.safe := rfl
@[simp] theorem State.modFp_mem (s : State) (p : Nat) (f : FirePort → FirePort) : (s.modFp p f).mem = s.mem := rfl
@[simp] theorem State.modFp_tim (s : State) (p : Nat) (f : FirePort → FirePort) : (s.modFp p f).tim = s.tim := rfl
@[simp] theorem State.modFp_cal (s : State) (p : Nat) (f : FirePort → FirePort) : (s.modFp p f).cal = s.cal := rfl
@[simp] theorem State.modFp_nv (s : State) (p : Nat) (f : FirePort → FirePort) : (s.modFp p f).nv = s.nv := rfl
@[simp] theorem State.modFp_pws (s : State) (p : Nat) (f : FirePort → FirePort) : (s.modFp p f).pws = s.pws := rfl
@[simp] theorem State.modFp_msix (s : State) (p : Nat) (f : FirePort → FirePort) : (s.modFp p f).msix = s.msix := rfl
@[simp] theorem State.modFp_net (s : State) (p : Nat) (f : FirePort → FirePort) : (s.modFp p f).net = s.net := rfl
@[simp] theorem State.modKl_pending (s : State) (p : Nat) (f : KlPort → KlPort) : (s.modKl p f).pending = s.pending := rfl
@[simp] theorem State.modKl_now (s : State) (p : Nat) (f : KlPort → KlPort) : (s.modKl p f).now = s.now := rfl
@[simp] theorem State.modKl_tickBase (s : State) (p : Nat) (f : KlPort → KlPort) : (s.modKl p f).tickBase = s.tickBase := rfl
@[simp] theorem State.modKl_out (s : State) (p : Nat) (f : KlPort → KlPort) : (s.modKl p f).out = s.out := rfl
@[simp] theorem State.modKl_draws (s : State) (p : Nat) (f : KlPort → KlPort) : (s.modKl p f).draws = s.draws := rfl
@[simp] theorem State.modKl_agenda (s : State) (p : Nat) (f : KlPort → KlPort) : (s.modKl p f).agenda = s.agenda := rfl
@[simp] theorem State.modKl_gapTime (s : State) (p : Nat) (f : KlPort → KlPort) : (s.modKl p f).gapTime = s.gapTime := rfl
@[simp] theorem State.modKl_phase (s : State) (p : Nat) (f : KlPort → KlPort) : (s.modKl p f).phase = s.phase := rfl
@[simp] theorem State.modKl_dram (s : State) (p : Nat) (f : KlPort → KlPort) : (s.modKl p f).dram = s.dram := rfl
@[simp] theorem State.modKl_dramUe (s : State) (p : Nat) (f : KlPort → KlPort) : (s.modKl p f).dramUe = s.dramUe := rfl
@[simp] theorem State.modKl_dramCe (s : State) (p : Nat) (f : KlPort → KlPort) : (s.modKl p f).dramCe = s.dramCe := rfl
@[simp] theorem State.modKl_hostMem (s : State) (p : Nat) (f : KlPort → KlPort) : (s.modKl p f).hostMem = s.hostMem := rfl
@[simp] theorem State.modKl_pstore (s : State) (p : Nat) (f : KlPort → KlPort) : (s.modKl p f).pstore = s.pstore := rfl
@[simp] theorem State.modKl_pstoreBad (s : State) (p : Nat) (f : KlPort → KlPort) : (s.modKl p f).pstoreBad = s.pstoreBad := rfl
@[simp] theorem State.modKl_ctxBad (s : State) (p : Nat) (f : KlPort → KlPort) : (s.modKl p f).ctxBad = s.ctxBad := rfl
@[simp] theorem State.modKl_seq (s : State) (p : Nat) (f : KlPort → KlPort) : (s.modKl p f).seq = s.seq := rfl
@[simp] theorem State.modKl_ctx (s : State) (p : Nat) (f : KlPort → KlPort) : (s.modKl p f).ctx = s.ctx := rfl
@[simp] theorem State.modKl_str (s : State) (p : Nat) (f : KlPort → KlPort) : (s.modKl p f).str = s.str := rfl
@[simp] theorem State.modKl_ring (s : State) (p : Nat) (f : KlPort → KlPort) : (s.modKl p f).ring = s.ring := rfl
@[simp] theorem State.modKl_eng (s : State) (p : Nat) (f : KlPort → KlPort) : (s.modKl p f).eng = s.eng := rfl
@[simp] theorem State.modKl_engLast (s : State) (p : Nat) (f : KlPort → KlPort) : (s.modKl p f).engLast = s.engLast := rfl
@[simp] theorem State.modKl_enc (s : State) (p : Nat) (f : KlPort → KlPort) : (s.modKl p f).enc = s.enc := rfl
@[simp] theorem State.modKl_place (s : State) (p : Nat) (f : KlPort → KlPort) : (s.modKl p f).place = s.place := rfl
@[simp] theorem State.modKl_fire (s : State) (p : Nat) (f : KlPort → KlPort) : (s.modKl p f).fire = s.fire := rfl
@[simp] theorem State.modKl_fp (s : State) (p : Nat) (f : KlPort → KlPort) : (s.modKl p f).fp = s.fp := rfl
@[simp] theorem State.modKl_kl (s : State) (p : Nat) (f : KlPort → KlPort) : (s.modKl p f).kl = vmod s.kl p f := rfl
@[simp] theorem State.modKl_head (s : State) (p : Nat) (f : KlPort → KlPort) : (s.modKl p f).head = s.head := rfl
@[simp] theorem State.modKl_cam (s : State) (p : Nat) (f : KlPort → KlPort) : (s.modKl p f).cam = s.cam := rfl
@[simp] theorem State.modKl_pipe (s : State) (p : Nat) (f : KlPort → KlPort) : (s.modKl p f).pipe = s.pipe := rfl
@[simp] theorem State.modKl_hlt (s : State) (p : Nat) (f : KlPort → KlPort) : (s.modKl p f).hlt = s.hlt := rfl
@[simp] theorem State.modKl_ax (s : State) (p : Nat) (f : KlPort → KlPort) : (s.modKl p f).ax = s.ax := rfl
@[simp] theorem State.modKl_sess (s : State) (p : Nat) (f : KlPort → KlPort) : (s.modKl p f).sess = s.sess := rfl
@[simp] theorem State.modKl_keys (s : State) (p : Nat) (f : KlPort → KlPort) : (s.modKl p f).keys = s.keys := rfl
@[simp] theorem State.modKl_xlt (s : State) (p : Nat) (f : KlPort → KlPort) : (s.modKl p f).xlt = s.xlt := rfl
@[simp] theorem State.modKl_mgt (s : State) (p : Nat) (f : KlPort → KlPort) : (s.modKl p f).mgt = s.mgt := rfl
@[simp] theorem State.modKl_safe (s : State) (p : Nat) (f : KlPort → KlPort) : (s.modKl p f).safe = s.safe := rfl
@[simp] theorem State.modKl_mem (s : State) (p : Nat) (f : KlPort → KlPort) : (s.modKl p f).mem = s.mem := rfl
@[simp] theorem State.modKl_tim (s : State) (p : Nat) (f : KlPort → KlPort) : (s.modKl p f).tim = s.tim := rfl
@[simp] theorem State.modKl_cal (s : State) (p : Nat) (f : KlPort → KlPort) : (s.modKl p f).cal = s.cal := rfl
@[simp] theorem State.modKl_nv (s : State) (p : Nat) (f : KlPort → KlPort) : (s.modKl p f).nv = s.nv := rfl
@[simp] theorem State.modKl_pws (s : State) (p : Nat) (f : KlPort → KlPort) : (s.modKl p f).pws = s.pws := rfl
@[simp] theorem State.modKl_msix (s : State) (p : Nat) (f : KlPort → KlPort) : (s.modKl p f).msix = s.msix := rfl
@[simp] theorem State.modKl_net (s : State) (p : Nat) (f : KlPort → KlPort) : (s.modKl p f).net = s.net := rfl
@[simp] theorem State.modHead_pending (s : State) (p : Nat) (f : Head → Head) : (s.modHead p f).pending = s.pending := rfl
@[simp] theorem State.modHead_now (s : State) (p : Nat) (f : Head → Head) : (s.modHead p f).now = s.now := rfl
@[simp] theorem State.modHead_tickBase (s : State) (p : Nat) (f : Head → Head) : (s.modHead p f).tickBase = s.tickBase := rfl
@[simp] theorem State.modHead_out (s : State) (p : Nat) (f : Head → Head) : (s.modHead p f).out = s.out := rfl
@[simp] theorem State.modHead_draws (s : State) (p : Nat) (f : Head → Head) : (s.modHead p f).draws = s.draws := rfl
@[simp] theorem State.modHead_agenda (s : State) (p : Nat) (f : Head → Head) : (s.modHead p f).agenda = s.agenda := rfl
@[simp] theorem State.modHead_gapTime (s : State) (p : Nat) (f : Head → Head) : (s.modHead p f).gapTime = s.gapTime := rfl
@[simp] theorem State.modHead_phase (s : State) (p : Nat) (f : Head → Head) : (s.modHead p f).phase = s.phase := rfl
@[simp] theorem State.modHead_dram (s : State) (p : Nat) (f : Head → Head) : (s.modHead p f).dram = s.dram := rfl
@[simp] theorem State.modHead_dramUe (s : State) (p : Nat) (f : Head → Head) : (s.modHead p f).dramUe = s.dramUe := rfl
@[simp] theorem State.modHead_dramCe (s : State) (p : Nat) (f : Head → Head) : (s.modHead p f).dramCe = s.dramCe := rfl
@[simp] theorem State.modHead_hostMem (s : State) (p : Nat) (f : Head → Head) : (s.modHead p f).hostMem = s.hostMem := rfl
@[simp] theorem State.modHead_pstore (s : State) (p : Nat) (f : Head → Head) : (s.modHead p f).pstore = s.pstore := rfl
@[simp] theorem State.modHead_pstoreBad (s : State) (p : Nat) (f : Head → Head) : (s.modHead p f).pstoreBad = s.pstoreBad := rfl
@[simp] theorem State.modHead_ctxBad (s : State) (p : Nat) (f : Head → Head) : (s.modHead p f).ctxBad = s.ctxBad := rfl
@[simp] theorem State.modHead_seq (s : State) (p : Nat) (f : Head → Head) : (s.modHead p f).seq = s.seq := rfl
@[simp] theorem State.modHead_ctx (s : State) (p : Nat) (f : Head → Head) : (s.modHead p f).ctx = s.ctx := rfl
@[simp] theorem State.modHead_str (s : State) (p : Nat) (f : Head → Head) : (s.modHead p f).str = s.str := rfl
@[simp] theorem State.modHead_ring (s : State) (p : Nat) (f : Head → Head) : (s.modHead p f).ring = s.ring := rfl
@[simp] theorem State.modHead_eng (s : State) (p : Nat) (f : Head → Head) : (s.modHead p f).eng = s.eng := rfl
@[simp] theorem State.modHead_engLast (s : State) (p : Nat) (f : Head → Head) : (s.modHead p f).engLast = s.engLast := rfl
@[simp] theorem State.modHead_enc (s : State) (p : Nat) (f : Head → Head) : (s.modHead p f).enc = s.enc := rfl
@[simp] theorem State.modHead_place (s : State) (p : Nat) (f : Head → Head) : (s.modHead p f).place = s.place := rfl
@[simp] theorem State.modHead_fire (s : State) (p : Nat) (f : Head → Head) : (s.modHead p f).fire = s.fire := rfl
@[simp] theorem State.modHead_fp (s : State) (p : Nat) (f : Head → Head) : (s.modHead p f).fp = s.fp := rfl
@[simp] theorem State.modHead_kl (s : State) (p : Nat) (f : Head → Head) : (s.modHead p f).kl = s.kl := rfl
@[simp] theorem State.modHead_head (s : State) (p : Nat) (f : Head → Head) : (s.modHead p f).head = vmod s.head p f := rfl
@[simp] theorem State.modHead_cam (s : State) (p : Nat) (f : Head → Head) : (s.modHead p f).cam = s.cam := rfl
@[simp] theorem State.modHead_pipe (s : State) (p : Nat) (f : Head → Head) : (s.modHead p f).pipe = s.pipe := rfl
@[simp] theorem State.modHead_hlt (s : State) (p : Nat) (f : Head → Head) : (s.modHead p f).hlt = s.hlt := rfl
@[simp] theorem State.modHead_ax (s : State) (p : Nat) (f : Head → Head) : (s.modHead p f).ax = s.ax := rfl
@[simp] theorem State.modHead_sess (s : State) (p : Nat) (f : Head → Head) : (s.modHead p f).sess = s.sess := rfl
@[simp] theorem State.modHead_keys (s : State) (p : Nat) (f : Head → Head) : (s.modHead p f).keys = s.keys := rfl
@[simp] theorem State.modHead_xlt (s : State) (p : Nat) (f : Head → Head) : (s.modHead p f).xlt = s.xlt := rfl
@[simp] theorem State.modHead_mgt (s : State) (p : Nat) (f : Head → Head) : (s.modHead p f).mgt = s.mgt := rfl
@[simp] theorem State.modHead_safe (s : State) (p : Nat) (f : Head → Head) : (s.modHead p f).safe = s.safe := rfl
@[simp] theorem State.modHead_mem (s : State) (p : Nat) (f : Head → Head) : (s.modHead p f).mem = s.mem := rfl
@[simp] theorem State.modHead_tim (s : State) (p : Nat) (f : Head → Head) : (s.modHead p f).tim = s.tim := rfl
@[simp] theorem State.modHead_cal (s : State) (p : Nat) (f : Head → Head) : (s.modHead p f).cal = s.cal := rfl
@[simp] theorem State.modHead_nv (s : State) (p : Nat) (f : Head → Head) : (s.modHead p f).nv = s.nv := rfl
@[simp] theorem State.modHead_pws (s : State) (p : Nat) (f : Head → Head) : (s.modHead p f).pws = s.pws := rfl
@[simp] theorem State.modHead_msix (s : State) (p : Nat) (f : Head → Head) : (s.modHead p f).msix = s.msix := rfl
@[simp] theorem State.modHead_net (s : State) (p : Nat) (f : Head → Head) : (s.modHead p f).net = s.net := rfl
@[simp] theorem State.modCam_pending (s : State) (c : Nat) (f : Cam → Cam) : (s.modCam c f).pending = s.pending := rfl
@[simp] theorem State.modCam_now (s : State) (c : Nat) (f : Cam → Cam) : (s.modCam c f).now = s.now := rfl
@[simp] theorem State.modCam_tickBase (s : State) (c : Nat) (f : Cam → Cam) : (s.modCam c f).tickBase = s.tickBase := rfl
@[simp] theorem State.modCam_out (s : State) (c : Nat) (f : Cam → Cam) : (s.modCam c f).out = s.out := rfl
@[simp] theorem State.modCam_draws (s : State) (c : Nat) (f : Cam → Cam) : (s.modCam c f).draws = s.draws := rfl
@[simp] theorem State.modCam_agenda (s : State) (c : Nat) (f : Cam → Cam) : (s.modCam c f).agenda = s.agenda := rfl
@[simp] theorem State.modCam_gapTime (s : State) (c : Nat) (f : Cam → Cam) : (s.modCam c f).gapTime = s.gapTime := rfl
@[simp] theorem State.modCam_phase (s : State) (c : Nat) (f : Cam → Cam) : (s.modCam c f).phase = s.phase := rfl
@[simp] theorem State.modCam_dram (s : State) (c : Nat) (f : Cam → Cam) : (s.modCam c f).dram = s.dram := rfl
@[simp] theorem State.modCam_dramUe (s : State) (c : Nat) (f : Cam → Cam) : (s.modCam c f).dramUe = s.dramUe := rfl
@[simp] theorem State.modCam_dramCe (s : State) (c : Nat) (f : Cam → Cam) : (s.modCam c f).dramCe = s.dramCe := rfl
@[simp] theorem State.modCam_hostMem (s : State) (c : Nat) (f : Cam → Cam) : (s.modCam c f).hostMem = s.hostMem := rfl
@[simp] theorem State.modCam_pstore (s : State) (c : Nat) (f : Cam → Cam) : (s.modCam c f).pstore = s.pstore := rfl
@[simp] theorem State.modCam_pstoreBad (s : State) (c : Nat) (f : Cam → Cam) : (s.modCam c f).pstoreBad = s.pstoreBad := rfl
@[simp] theorem State.modCam_ctxBad (s : State) (c : Nat) (f : Cam → Cam) : (s.modCam c f).ctxBad = s.ctxBad := rfl
@[simp] theorem State.modCam_seq (s : State) (c : Nat) (f : Cam → Cam) : (s.modCam c f).seq = s.seq := rfl
@[simp] theorem State.modCam_ctx (s : State) (c : Nat) (f : Cam → Cam) : (s.modCam c f).ctx = s.ctx := rfl
@[simp] theorem State.modCam_str (s : State) (c : Nat) (f : Cam → Cam) : (s.modCam c f).str = s.str := rfl
@[simp] theorem State.modCam_ring (s : State) (c : Nat) (f : Cam → Cam) : (s.modCam c f).ring = s.ring := rfl
@[simp] theorem State.modCam_eng (s : State) (c : Nat) (f : Cam → Cam) : (s.modCam c f).eng = s.eng := rfl
@[simp] theorem State.modCam_engLast (s : State) (c : Nat) (f : Cam → Cam) : (s.modCam c f).engLast = s.engLast := rfl
@[simp] theorem State.modCam_enc (s : State) (c : Nat) (f : Cam → Cam) : (s.modCam c f).enc = s.enc := rfl
@[simp] theorem State.modCam_place (s : State) (c : Nat) (f : Cam → Cam) : (s.modCam c f).place = s.place := rfl
@[simp] theorem State.modCam_fire (s : State) (c : Nat) (f : Cam → Cam) : (s.modCam c f).fire = s.fire := rfl
@[simp] theorem State.modCam_fp (s : State) (c : Nat) (f : Cam → Cam) : (s.modCam c f).fp = s.fp := rfl
@[simp] theorem State.modCam_kl (s : State) (c : Nat) (f : Cam → Cam) : (s.modCam c f).kl = s.kl := rfl
@[simp] theorem State.modCam_head (s : State) (c : Nat) (f : Cam → Cam) : (s.modCam c f).head = s.head := rfl
@[simp] theorem State.modCam_cam (s : State) (c : Nat) (f : Cam → Cam) : (s.modCam c f).cam = vmod s.cam c f := rfl
@[simp] theorem State.modCam_pipe (s : State) (c : Nat) (f : Cam → Cam) : (s.modCam c f).pipe = s.pipe := rfl
@[simp] theorem State.modCam_hlt (s : State) (c : Nat) (f : Cam → Cam) : (s.modCam c f).hlt = s.hlt := rfl
@[simp] theorem State.modCam_ax (s : State) (c : Nat) (f : Cam → Cam) : (s.modCam c f).ax = s.ax := rfl
@[simp] theorem State.modCam_sess (s : State) (c : Nat) (f : Cam → Cam) : (s.modCam c f).sess = s.sess := rfl
@[simp] theorem State.modCam_keys (s : State) (c : Nat) (f : Cam → Cam) : (s.modCam c f).keys = s.keys := rfl
@[simp] theorem State.modCam_xlt (s : State) (c : Nat) (f : Cam → Cam) : (s.modCam c f).xlt = s.xlt := rfl
@[simp] theorem State.modCam_mgt (s : State) (c : Nat) (f : Cam → Cam) : (s.modCam c f).mgt = s.mgt := rfl
@[simp] theorem State.modCam_safe (s : State) (c : Nat) (f : Cam → Cam) : (s.modCam c f).safe = s.safe := rfl
@[simp] theorem State.modCam_mem (s : State) (c : Nat) (f : Cam → Cam) : (s.modCam c f).mem = s.mem := rfl
@[simp] theorem State.modCam_tim (s : State) (c : Nat) (f : Cam → Cam) : (s.modCam c f).tim = s.tim := rfl
@[simp] theorem State.modCam_cal (s : State) (c : Nat) (f : Cam → Cam) : (s.modCam c f).cal = s.cal := rfl
@[simp] theorem State.modCam_nv (s : State) (c : Nat) (f : Cam → Cam) : (s.modCam c f).nv = s.nv := rfl
@[simp] theorem State.modCam_pws (s : State) (c : Nat) (f : Cam → Cam) : (s.modCam c f).pws = s.pws := rfl
@[simp] theorem State.modCam_msix (s : State) (c : Nat) (f : Cam → Cam) : (s.modCam c f).msix = s.msix := rfl
@[simp] theorem State.modCam_net (s : State) (c : Nat) (f : Cam → Cam) : (s.modCam c f).net = s.net := rfl
@[simp] theorem State.modAx_pending (s : State) (a : Nat) (f : Axis → Axis) : (s.modAx a f).pending = s.pending := rfl
@[simp] theorem State.modAx_now (s : State) (a : Nat) (f : Axis → Axis) : (s.modAx a f).now = s.now := rfl
@[simp] theorem State.modAx_tickBase (s : State) (a : Nat) (f : Axis → Axis) : (s.modAx a f).tickBase = s.tickBase := rfl
@[simp] theorem State.modAx_out (s : State) (a : Nat) (f : Axis → Axis) : (s.modAx a f).out = s.out := rfl
@[simp] theorem State.modAx_draws (s : State) (a : Nat) (f : Axis → Axis) : (s.modAx a f).draws = s.draws := rfl
@[simp] theorem State.modAx_agenda (s : State) (a : Nat) (f : Axis → Axis) : (s.modAx a f).agenda = s.agenda := rfl
@[simp] theorem State.modAx_gapTime (s : State) (a : Nat) (f : Axis → Axis) : (s.modAx a f).gapTime = s.gapTime := rfl
@[simp] theorem State.modAx_phase (s : State) (a : Nat) (f : Axis → Axis) : (s.modAx a f).phase = s.phase := rfl
@[simp] theorem State.modAx_dram (s : State) (a : Nat) (f : Axis → Axis) : (s.modAx a f).dram = s.dram := rfl
@[simp] theorem State.modAx_dramUe (s : State) (a : Nat) (f : Axis → Axis) : (s.modAx a f).dramUe = s.dramUe := rfl
@[simp] theorem State.modAx_dramCe (s : State) (a : Nat) (f : Axis → Axis) : (s.modAx a f).dramCe = s.dramCe := rfl
@[simp] theorem State.modAx_hostMem (s : State) (a : Nat) (f : Axis → Axis) : (s.modAx a f).hostMem = s.hostMem := rfl
@[simp] theorem State.modAx_pstore (s : State) (a : Nat) (f : Axis → Axis) : (s.modAx a f).pstore = s.pstore := rfl
@[simp] theorem State.modAx_pstoreBad (s : State) (a : Nat) (f : Axis → Axis) : (s.modAx a f).pstoreBad = s.pstoreBad := rfl
@[simp] theorem State.modAx_ctxBad (s : State) (a : Nat) (f : Axis → Axis) : (s.modAx a f).ctxBad = s.ctxBad := rfl
@[simp] theorem State.modAx_seq (s : State) (a : Nat) (f : Axis → Axis) : (s.modAx a f).seq = s.seq := rfl
@[simp] theorem State.modAx_ctx (s : State) (a : Nat) (f : Axis → Axis) : (s.modAx a f).ctx = s.ctx := rfl
@[simp] theorem State.modAx_str (s : State) (a : Nat) (f : Axis → Axis) : (s.modAx a f).str = s.str := rfl
@[simp] theorem State.modAx_ring (s : State) (a : Nat) (f : Axis → Axis) : (s.modAx a f).ring = s.ring := rfl
@[simp] theorem State.modAx_eng (s : State) (a : Nat) (f : Axis → Axis) : (s.modAx a f).eng = s.eng := rfl
@[simp] theorem State.modAx_engLast (s : State) (a : Nat) (f : Axis → Axis) : (s.modAx a f).engLast = s.engLast := rfl
@[simp] theorem State.modAx_enc (s : State) (a : Nat) (f : Axis → Axis) : (s.modAx a f).enc = s.enc := rfl
@[simp] theorem State.modAx_place (s : State) (a : Nat) (f : Axis → Axis) : (s.modAx a f).place = s.place := rfl
@[simp] theorem State.modAx_fire (s : State) (a : Nat) (f : Axis → Axis) : (s.modAx a f).fire = s.fire := rfl
@[simp] theorem State.modAx_fp (s : State) (a : Nat) (f : Axis → Axis) : (s.modAx a f).fp = s.fp := rfl
@[simp] theorem State.modAx_kl (s : State) (a : Nat) (f : Axis → Axis) : (s.modAx a f).kl = s.kl := rfl
@[simp] theorem State.modAx_head (s : State) (a : Nat) (f : Axis → Axis) : (s.modAx a f).head = s.head := rfl
@[simp] theorem State.modAx_cam (s : State) (a : Nat) (f : Axis → Axis) : (s.modAx a f).cam = s.cam := rfl
@[simp] theorem State.modAx_pipe (s : State) (a : Nat) (f : Axis → Axis) : (s.modAx a f).pipe = s.pipe := rfl
@[simp] theorem State.modAx_hlt (s : State) (a : Nat) (f : Axis → Axis) : (s.modAx a f).hlt = s.hlt := rfl
@[simp] theorem State.modAx_ax (s : State) (a : Nat) (f : Axis → Axis) : (s.modAx a f).ax = vmod s.ax a f := rfl
@[simp] theorem State.modAx_sess (s : State) (a : Nat) (f : Axis → Axis) : (s.modAx a f).sess = s.sess := rfl
@[simp] theorem State.modAx_keys (s : State) (a : Nat) (f : Axis → Axis) : (s.modAx a f).keys = s.keys := rfl
@[simp] theorem State.modAx_xlt (s : State) (a : Nat) (f : Axis → Axis) : (s.modAx a f).xlt = s.xlt := rfl
@[simp] theorem State.modAx_mgt (s : State) (a : Nat) (f : Axis → Axis) : (s.modAx a f).mgt = s.mgt := rfl
@[simp] theorem State.modAx_safe (s : State) (a : Nat) (f : Axis → Axis) : (s.modAx a f).safe = s.safe := rfl
@[simp] theorem State.modAx_mem (s : State) (a : Nat) (f : Axis → Axis) : (s.modAx a f).mem = s.mem := rfl
@[simp] theorem State.modAx_tim (s : State) (a : Nat) (f : Axis → Axis) : (s.modAx a f).tim = s.tim := rfl
@[simp] theorem State.modAx_cal (s : State) (a : Nat) (f : Axis → Axis) : (s.modAx a f).cal = s.cal := rfl
@[simp] theorem State.modAx_nv (s : State) (a : Nat) (f : Axis → Axis) : (s.modAx a f).nv = s.nv := rfl
@[simp] theorem State.modAx_pws (s : State) (a : Nat) (f : Axis → Axis) : (s.modAx a f).pws = s.pws := rfl
@[simp] theorem State.modAx_msix (s : State) (a : Nat) (f : Axis → Axis) : (s.modAx a f).msix = s.msix := rfl
@[simp] theorem State.modAx_net (s : State) (a : Nat) (f : Axis → Axis) : (s.modAx a f).net = s.net := rfl
@[simp] theorem State.modSess_pending (s : State) (n : Nat) (f : Sess → Sess) : (s.modSess n f).pending = s.pending := rfl
@[simp] theorem State.modSess_now (s : State) (n : Nat) (f : Sess → Sess) : (s.modSess n f).now = s.now := rfl
@[simp] theorem State.modSess_tickBase (s : State) (n : Nat) (f : Sess → Sess) : (s.modSess n f).tickBase = s.tickBase := rfl
@[simp] theorem State.modSess_out (s : State) (n : Nat) (f : Sess → Sess) : (s.modSess n f).out = s.out := rfl
@[simp] theorem State.modSess_draws (s : State) (n : Nat) (f : Sess → Sess) : (s.modSess n f).draws = s.draws := rfl
@[simp] theorem State.modSess_agenda (s : State) (n : Nat) (f : Sess → Sess) : (s.modSess n f).agenda = s.agenda := rfl
@[simp] theorem State.modSess_gapTime (s : State) (n : Nat) (f : Sess → Sess) : (s.modSess n f).gapTime = s.gapTime := rfl
@[simp] theorem State.modSess_phase (s : State) (n : Nat) (f : Sess → Sess) : (s.modSess n f).phase = s.phase := rfl
@[simp] theorem State.modSess_dram (s : State) (n : Nat) (f : Sess → Sess) : (s.modSess n f).dram = s.dram := rfl
@[simp] theorem State.modSess_dramUe (s : State) (n : Nat) (f : Sess → Sess) : (s.modSess n f).dramUe = s.dramUe := rfl
@[simp] theorem State.modSess_dramCe (s : State) (n : Nat) (f : Sess → Sess) : (s.modSess n f).dramCe = s.dramCe := rfl
@[simp] theorem State.modSess_hostMem (s : State) (n : Nat) (f : Sess → Sess) : (s.modSess n f).hostMem = s.hostMem := rfl
@[simp] theorem State.modSess_pstore (s : State) (n : Nat) (f : Sess → Sess) : (s.modSess n f).pstore = s.pstore := rfl
@[simp] theorem State.modSess_pstoreBad (s : State) (n : Nat) (f : Sess → Sess) : (s.modSess n f).pstoreBad = s.pstoreBad := rfl
@[simp] theorem State.modSess_ctxBad (s : State) (n : Nat) (f : Sess → Sess) : (s.modSess n f).ctxBad = s.ctxBad := rfl
@[simp] theorem State.modSess_seq (s : State) (n : Nat) (f : Sess → Sess) : (s.modSess n f).seq = s.seq := rfl
@[simp] theorem State.modSess_ctx (s : State) (n : Nat) (f : Sess → Sess) : (s.modSess n f).ctx = s.ctx := rfl
@[simp] theorem State.modSess_str (s : State) (n : Nat) (f : Sess → Sess) : (s.modSess n f).str = s.str := rfl
@[simp] theorem State.modSess_ring (s : State) (n : Nat) (f : Sess → Sess) : (s.modSess n f).ring = s.ring := rfl
@[simp] theorem State.modSess_eng (s : State) (n : Nat) (f : Sess → Sess) : (s.modSess n f).eng = s.eng := rfl
@[simp] theorem State.modSess_engLast (s : State) (n : Nat) (f : Sess → Sess) : (s.modSess n f).engLast = s.engLast := rfl
@[simp] theorem State.modSess_enc (s : State) (n : Nat) (f : Sess → Sess) : (s.modSess n f).enc = s.enc := rfl
@[simp] theorem State.modSess_place (s : State) (n : Nat) (f : Sess → Sess) : (s.modSess n f).place = s.place := rfl
@[simp] theorem State.modSess_fire (s : State) (n : Nat) (f : Sess → Sess) : (s.modSess n f).fire = s.fire := rfl
@[simp] theorem State.modSess_fp (s : State) (n : Nat) (f : Sess → Sess) : (s.modSess n f).fp = s.fp := rfl
@[simp] theorem State.modSess_kl (s : State) (n : Nat) (f : Sess → Sess) : (s.modSess n f).kl = s.kl := rfl
@[simp] theorem State.modSess_head (s : State) (n : Nat) (f : Sess → Sess) : (s.modSess n f).head = s.head := rfl
@[simp] theorem State.modSess_cam (s : State) (n : Nat) (f : Sess → Sess) : (s.modSess n f).cam = s.cam := rfl
@[simp] theorem State.modSess_pipe (s : State) (n : Nat) (f : Sess → Sess) : (s.modSess n f).pipe = s.pipe := rfl
@[simp] theorem State.modSess_hlt (s : State) (n : Nat) (f : Sess → Sess) : (s.modSess n f).hlt = s.hlt := rfl
@[simp] theorem State.modSess_ax (s : State) (n : Nat) (f : Sess → Sess) : (s.modSess n f).ax = s.ax := rfl
@[simp] theorem State.modSess_sess (s : State) (n : Nat) (f : Sess → Sess) : (s.modSess n f).sess = vmod s.sess n f := rfl
@[simp] theorem State.modSess_keys (s : State) (n : Nat) (f : Sess → Sess) : (s.modSess n f).keys = s.keys := rfl
@[simp] theorem State.modSess_xlt (s : State) (n : Nat) (f : Sess → Sess) : (s.modSess n f).xlt = s.xlt := rfl
@[simp] theorem State.modSess_mgt (s : State) (n : Nat) (f : Sess → Sess) : (s.modSess n f).mgt = s.mgt := rfl
@[simp] theorem State.modSess_safe (s : State) (n : Nat) (f : Sess → Sess) : (s.modSess n f).safe = s.safe := rfl
@[simp] theorem State.modSess_mem (s : State) (n : Nat) (f : Sess → Sess) : (s.modSess n f).mem = s.mem := rfl
@[simp] theorem State.modSess_tim (s : State) (n : Nat) (f : Sess → Sess) : (s.modSess n f).tim = s.tim := rfl
@[simp] theorem State.modSess_cal (s : State) (n : Nat) (f : Sess → Sess) : (s.modSess n f).cal = s.cal := rfl
@[simp] theorem State.modSess_nv (s : State) (n : Nat) (f : Sess → Sess) : (s.modSess n f).nv = s.nv := rfl
@[simp] theorem State.modSess_pws (s : State) (n : Nat) (f : Sess → Sess) : (s.modSess n f).pws = s.pws := rfl
@[simp] theorem State.modSess_msix (s : State) (n : Nat) (f : Sess → Sess) : (s.modSess n f).msix = s.msix := rfl
@[simp] theorem State.modSess_net (s : State) (n : Nat) (f : Sess → Sess) : (s.modSess n f).net = s.net := rfl
@[simp] theorem State.modHlt_pending (s : State) (f : Health → Health) : (s.modHlt f).pending = s.pending := rfl
@[simp] theorem State.modHlt_now (s : State) (f : Health → Health) : (s.modHlt f).now = s.now := rfl
@[simp] theorem State.modHlt_tickBase (s : State) (f : Health → Health) : (s.modHlt f).tickBase = s.tickBase := rfl
@[simp] theorem State.modHlt_out (s : State) (f : Health → Health) : (s.modHlt f).out = s.out := rfl
@[simp] theorem State.modHlt_draws (s : State) (f : Health → Health) : (s.modHlt f).draws = s.draws := rfl
@[simp] theorem State.modHlt_agenda (s : State) (f : Health → Health) : (s.modHlt f).agenda = s.agenda := rfl
@[simp] theorem State.modHlt_gapTime (s : State) (f : Health → Health) : (s.modHlt f).gapTime = s.gapTime := rfl
@[simp] theorem State.modHlt_phase (s : State) (f : Health → Health) : (s.modHlt f).phase = s.phase := rfl
@[simp] theorem State.modHlt_dram (s : State) (f : Health → Health) : (s.modHlt f).dram = s.dram := rfl
@[simp] theorem State.modHlt_dramUe (s : State) (f : Health → Health) : (s.modHlt f).dramUe = s.dramUe := rfl
@[simp] theorem State.modHlt_dramCe (s : State) (f : Health → Health) : (s.modHlt f).dramCe = s.dramCe := rfl
@[simp] theorem State.modHlt_hostMem (s : State) (f : Health → Health) : (s.modHlt f).hostMem = s.hostMem := rfl
@[simp] theorem State.modHlt_pstore (s : State) (f : Health → Health) : (s.modHlt f).pstore = s.pstore := rfl
@[simp] theorem State.modHlt_pstoreBad (s : State) (f : Health → Health) : (s.modHlt f).pstoreBad = s.pstoreBad := rfl
@[simp] theorem State.modHlt_ctxBad (s : State) (f : Health → Health) : (s.modHlt f).ctxBad = s.ctxBad := rfl
@[simp] theorem State.modHlt_seq (s : State) (f : Health → Health) : (s.modHlt f).seq = s.seq := rfl
@[simp] theorem State.modHlt_ctx (s : State) (f : Health → Health) : (s.modHlt f).ctx = s.ctx := rfl
@[simp] theorem State.modHlt_str (s : State) (f : Health → Health) : (s.modHlt f).str = s.str := rfl
@[simp] theorem State.modHlt_ring (s : State) (f : Health → Health) : (s.modHlt f).ring = s.ring := rfl
@[simp] theorem State.modHlt_eng (s : State) (f : Health → Health) : (s.modHlt f).eng = s.eng := rfl
@[simp] theorem State.modHlt_engLast (s : State) (f : Health → Health) : (s.modHlt f).engLast = s.engLast := rfl
@[simp] theorem State.modHlt_enc (s : State) (f : Health → Health) : (s.modHlt f).enc = s.enc := rfl
@[simp] theorem State.modHlt_place (s : State) (f : Health → Health) : (s.modHlt f).place = s.place := rfl
@[simp] theorem State.modHlt_fire (s : State) (f : Health → Health) : (s.modHlt f).fire = s.fire := rfl
@[simp] theorem State.modHlt_fp (s : State) (f : Health → Health) : (s.modHlt f).fp = s.fp := rfl
@[simp] theorem State.modHlt_kl (s : State) (f : Health → Health) : (s.modHlt f).kl = s.kl := rfl
@[simp] theorem State.modHlt_head (s : State) (f : Health → Health) : (s.modHlt f).head = s.head := rfl
@[simp] theorem State.modHlt_cam (s : State) (f : Health → Health) : (s.modHlt f).cam = s.cam := rfl
@[simp] theorem State.modHlt_pipe (s : State) (f : Health → Health) : (s.modHlt f).pipe = s.pipe := rfl
@[simp] theorem State.modHlt_hlt (s : State) (f : Health → Health) : (s.modHlt f).hlt = f s.hlt := rfl
@[simp] theorem State.modHlt_ax (s : State) (f : Health → Health) : (s.modHlt f).ax = s.ax := rfl
@[simp] theorem State.modHlt_sess (s : State) (f : Health → Health) : (s.modHlt f).sess = s.sess := rfl
@[simp] theorem State.modHlt_keys (s : State) (f : Health → Health) : (s.modHlt f).keys = s.keys := rfl
@[simp] theorem State.modHlt_xlt (s : State) (f : Health → Health) : (s.modHlt f).xlt = s.xlt := rfl
@[simp] theorem State.modHlt_mgt (s : State) (f : Health → Health) : (s.modHlt f).mgt = s.mgt := rfl
@[simp] theorem State.modHlt_safe (s : State) (f : Health → Health) : (s.modHlt f).safe = s.safe := rfl
@[simp] theorem State.modHlt_mem (s : State) (f : Health → Health) : (s.modHlt f).mem = s.mem := rfl
@[simp] theorem State.modHlt_tim (s : State) (f : Health → Health) : (s.modHlt f).tim = s.tim := rfl
@[simp] theorem State.modHlt_cal (s : State) (f : Health → Health) : (s.modHlt f).cal = s.cal := rfl
@[simp] theorem State.modHlt_nv (s : State) (f : Health → Health) : (s.modHlt f).nv = s.nv := rfl
@[simp] theorem State.modHlt_pws (s : State) (f : Health → Health) : (s.modHlt f).pws = s.pws := rfl
@[simp] theorem State.modHlt_msix (s : State) (f : Health → Health) : (s.modHlt f).msix = s.msix := rfl
@[simp] theorem State.modHlt_net (s : State) (f : Health → Health) : (s.modHlt f).net = s.net := rfl
@[simp] theorem State.modMgt_pending (s : State) (f : Mgt → Mgt) : (s.modMgt f).pending = s.pending := rfl
@[simp] theorem State.modMgt_now (s : State) (f : Mgt → Mgt) : (s.modMgt f).now = s.now := rfl
@[simp] theorem State.modMgt_tickBase (s : State) (f : Mgt → Mgt) : (s.modMgt f).tickBase = s.tickBase := rfl
@[simp] theorem State.modMgt_out (s : State) (f : Mgt → Mgt) : (s.modMgt f).out = s.out := rfl
@[simp] theorem State.modMgt_draws (s : State) (f : Mgt → Mgt) : (s.modMgt f).draws = s.draws := rfl
@[simp] theorem State.modMgt_agenda (s : State) (f : Mgt → Mgt) : (s.modMgt f).agenda = s.agenda := rfl
@[simp] theorem State.modMgt_gapTime (s : State) (f : Mgt → Mgt) : (s.modMgt f).gapTime = s.gapTime := rfl
@[simp] theorem State.modMgt_phase (s : State) (f : Mgt → Mgt) : (s.modMgt f).phase = s.phase := rfl
@[simp] theorem State.modMgt_dram (s : State) (f : Mgt → Mgt) : (s.modMgt f).dram = s.dram := rfl
@[simp] theorem State.modMgt_dramUe (s : State) (f : Mgt → Mgt) : (s.modMgt f).dramUe = s.dramUe := rfl
@[simp] theorem State.modMgt_dramCe (s : State) (f : Mgt → Mgt) : (s.modMgt f).dramCe = s.dramCe := rfl
@[simp] theorem State.modMgt_hostMem (s : State) (f : Mgt → Mgt) : (s.modMgt f).hostMem = s.hostMem := rfl
@[simp] theorem State.modMgt_pstore (s : State) (f : Mgt → Mgt) : (s.modMgt f).pstore = s.pstore := rfl
@[simp] theorem State.modMgt_pstoreBad (s : State) (f : Mgt → Mgt) : (s.modMgt f).pstoreBad = s.pstoreBad := rfl
@[simp] theorem State.modMgt_ctxBad (s : State) (f : Mgt → Mgt) : (s.modMgt f).ctxBad = s.ctxBad := rfl
@[simp] theorem State.modMgt_seq (s : State) (f : Mgt → Mgt) : (s.modMgt f).seq = s.seq := rfl
@[simp] theorem State.modMgt_ctx (s : State) (f : Mgt → Mgt) : (s.modMgt f).ctx = s.ctx := rfl
@[simp] theorem State.modMgt_str (s : State) (f : Mgt → Mgt) : (s.modMgt f).str = s.str := rfl
@[simp] theorem State.modMgt_ring (s : State) (f : Mgt → Mgt) : (s.modMgt f).ring = s.ring := rfl
@[simp] theorem State.modMgt_eng (s : State) (f : Mgt → Mgt) : (s.modMgt f).eng = s.eng := rfl
@[simp] theorem State.modMgt_engLast (s : State) (f : Mgt → Mgt) : (s.modMgt f).engLast = s.engLast := rfl
@[simp] theorem State.modMgt_enc (s : State) (f : Mgt → Mgt) : (s.modMgt f).enc = s.enc := rfl
@[simp] theorem State.modMgt_place (s : State) (f : Mgt → Mgt) : (s.modMgt f).place = s.place := rfl
@[simp] theorem State.modMgt_fire (s : State) (f : Mgt → Mgt) : (s.modMgt f).fire = s.fire := rfl
@[simp] theorem State.modMgt_fp (s : State) (f : Mgt → Mgt) : (s.modMgt f).fp = s.fp := rfl
@[simp] theorem State.modMgt_kl (s : State) (f : Mgt → Mgt) : (s.modMgt f).kl = s.kl := rfl
@[simp] theorem State.modMgt_head (s : State) (f : Mgt → Mgt) : (s.modMgt f).head = s.head := rfl
@[simp] theorem State.modMgt_cam (s : State) (f : Mgt → Mgt) : (s.modMgt f).cam = s.cam := rfl
@[simp] theorem State.modMgt_pipe (s : State) (f : Mgt → Mgt) : (s.modMgt f).pipe = s.pipe := rfl
@[simp] theorem State.modMgt_hlt (s : State) (f : Mgt → Mgt) : (s.modMgt f).hlt = s.hlt := rfl
@[simp] theorem State.modMgt_ax (s : State) (f : Mgt → Mgt) : (s.modMgt f).ax = s.ax := rfl
@[simp] theorem State.modMgt_sess (s : State) (f : Mgt → Mgt) : (s.modMgt f).sess = s.sess := rfl
@[simp] theorem State.modMgt_keys (s : State) (f : Mgt → Mgt) : (s.modMgt f).keys = s.keys := rfl
@[simp] theorem State.modMgt_xlt (s : State) (f : Mgt → Mgt) : (s.modMgt f).xlt = s.xlt := rfl
@[simp] theorem State.modMgt_mgt (s : State) (f : Mgt → Mgt) : (s.modMgt f).mgt = f s.mgt := rfl
@[simp] theorem State.modMgt_safe (s : State) (f : Mgt → Mgt) : (s.modMgt f).safe = s.safe := rfl
@[simp] theorem State.modMgt_mem (s : State) (f : Mgt → Mgt) : (s.modMgt f).mem = s.mem := rfl
@[simp] theorem State.modMgt_tim (s : State) (f : Mgt → Mgt) : (s.modMgt f).tim = s.tim := rfl
@[simp] theorem State.modMgt_cal (s : State) (f : Mgt → Mgt) : (s.modMgt f).cal = s.cal := rfl
@[simp] theorem State.modMgt_nv (s : State) (f : Mgt → Mgt) : (s.modMgt f).nv = s.nv := rfl
@[simp] theorem State.modMgt_pws (s : State) (f : Mgt → Mgt) : (s.modMgt f).pws = s.pws := rfl
@[simp] theorem State.modMgt_msix (s : State) (f : Mgt → Mgt) : (s.modMgt f).msix = s.msix := rfl
@[simp] theorem State.modMgt_net (s : State) (f : Mgt → Mgt) : (s.modMgt f).net = s.net := rfl
@[simp] theorem State.modMem_pending (s : State) (f : MemSt → MemSt) : (s.modMem f).pending = s.pending := rfl
@[simp] theorem State.modMem_now (s : State) (f : MemSt → MemSt) : (s.modMem f).now = s.now := rfl
@[simp] theorem State.modMem_tickBase (s : State) (f : MemSt → MemSt) : (s.modMem f).tickBase = s.tickBase := rfl
@[simp] theorem State.modMem_out (s : State) (f : MemSt → MemSt) : (s.modMem f).out = s.out := rfl
@[simp] theorem State.modMem_draws (s : State) (f : MemSt → MemSt) : (s.modMem f).draws = s.draws := rfl
@[simp] theorem State.modMem_agenda (s : State) (f : MemSt → MemSt) : (s.modMem f).agenda = s.agenda := rfl
@[simp] theorem State.modMem_gapTime (s : State) (f : MemSt → MemSt) : (s.modMem f).gapTime = s.gapTime := rfl
@[simp] theorem State.modMem_phase (s : State) (f : MemSt → MemSt) : (s.modMem f).phase = s.phase := rfl
@[simp] theorem State.modMem_dram (s : State) (f : MemSt → MemSt) : (s.modMem f).dram = s.dram := rfl
@[simp] theorem State.modMem_dramUe (s : State) (f : MemSt → MemSt) : (s.modMem f).dramUe = s.dramUe := rfl
@[simp] theorem State.modMem_dramCe (s : State) (f : MemSt → MemSt) : (s.modMem f).dramCe = s.dramCe := rfl
@[simp] theorem State.modMem_hostMem (s : State) (f : MemSt → MemSt) : (s.modMem f).hostMem = s.hostMem := rfl
@[simp] theorem State.modMem_pstore (s : State) (f : MemSt → MemSt) : (s.modMem f).pstore = s.pstore := rfl
@[simp] theorem State.modMem_pstoreBad (s : State) (f : MemSt → MemSt) : (s.modMem f).pstoreBad = s.pstoreBad := rfl
@[simp] theorem State.modMem_ctxBad (s : State) (f : MemSt → MemSt) : (s.modMem f).ctxBad = s.ctxBad := rfl
@[simp] theorem State.modMem_seq (s : State) (f : MemSt → MemSt) : (s.modMem f).seq = s.seq := rfl
@[simp] theorem State.modMem_ctx (s : State) (f : MemSt → MemSt) : (s.modMem f).ctx = s.ctx := rfl
@[simp] theorem State.modMem_str (s : State) (f : MemSt → MemSt) : (s.modMem f).str = s.str := rfl
@[simp] theorem State.modMem_ring (s : State) (f : MemSt → MemSt) : (s.modMem f).ring = s.ring := rfl
@[simp] theorem State.modMem_eng (s : State) (f : MemSt → MemSt) : (s.modMem f).eng = s.eng := rfl
@[simp] theorem State.modMem_engLast (s : State) (f : MemSt → MemSt) : (s.modMem f).engLast = s.engLast := rfl
@[simp] theorem State.modMem_enc (s : State) (f : MemSt → MemSt) : (s.modMem f).enc = s.enc := rfl
@[simp] theorem State.modMem_place (s : State) (f : MemSt → MemSt) : (s.modMem f).place = s.place := rfl
@[simp] theorem State.modMem_fire (s : State) (f : MemSt → MemSt) : (s.modMem f).fire = s.fire := rfl
@[simp] theorem State.modMem_fp (s : State) (f : MemSt → MemSt) : (s.modMem f).fp = s.fp := rfl
@[simp] theorem State.modMem_kl (s : State) (f : MemSt → MemSt) : (s.modMem f).kl = s.kl := rfl
@[simp] theorem State.modMem_head (s : State) (f : MemSt → MemSt) : (s.modMem f).head = s.head := rfl
@[simp] theorem State.modMem_cam (s : State) (f : MemSt → MemSt) : (s.modMem f).cam = s.cam := rfl
@[simp] theorem State.modMem_pipe (s : State) (f : MemSt → MemSt) : (s.modMem f).pipe = s.pipe := rfl
@[simp] theorem State.modMem_hlt (s : State) (f : MemSt → MemSt) : (s.modMem f).hlt = s.hlt := rfl
@[simp] theorem State.modMem_ax (s : State) (f : MemSt → MemSt) : (s.modMem f).ax = s.ax := rfl
@[simp] theorem State.modMem_sess (s : State) (f : MemSt → MemSt) : (s.modMem f).sess = s.sess := rfl
@[simp] theorem State.modMem_keys (s : State) (f : MemSt → MemSt) : (s.modMem f).keys = s.keys := rfl
@[simp] theorem State.modMem_xlt (s : State) (f : MemSt → MemSt) : (s.modMem f).xlt = s.xlt := rfl
@[simp] theorem State.modMem_mgt (s : State) (f : MemSt → MemSt) : (s.modMem f).mgt = s.mgt := rfl
@[simp] theorem State.modMem_safe (s : State) (f : MemSt → MemSt) : (s.modMem f).safe = s.safe := rfl
@[simp] theorem State.modMem_mem (s : State) (f : MemSt → MemSt) : (s.modMem f).mem = f s.mem := rfl
@[simp] theorem State.modMem_tim (s : State) (f : MemSt → MemSt) : (s.modMem f).tim = s.tim := rfl
@[simp] theorem State.modMem_cal (s : State) (f : MemSt → MemSt) : (s.modMem f).cal = s.cal := rfl
@[simp] theorem State.modMem_nv (s : State) (f : MemSt → MemSt) : (s.modMem f).nv = s.nv := rfl
@[simp] theorem State.modMem_pws (s : State) (f : MemSt → MemSt) : (s.modMem f).pws = s.pws := rfl
@[simp] theorem State.modMem_msix (s : State) (f : MemSt → MemSt) : (s.modMem f).msix = s.msix := rfl
@[simp] theorem State.modMem_net (s : State) (f : MemSt → MemSt) : (s.modMem f).net = s.net := rfl
@[simp] theorem State.modXlt_pending (s : State) (f : Xlt → Xlt) : (s.modXlt f).pending = s.pending := rfl
@[simp] theorem State.modXlt_now (s : State) (f : Xlt → Xlt) : (s.modXlt f).now = s.now := rfl
@[simp] theorem State.modXlt_tickBase (s : State) (f : Xlt → Xlt) : (s.modXlt f).tickBase = s.tickBase := rfl
@[simp] theorem State.modXlt_out (s : State) (f : Xlt → Xlt) : (s.modXlt f).out = s.out := rfl
@[simp] theorem State.modXlt_draws (s : State) (f : Xlt → Xlt) : (s.modXlt f).draws = s.draws := rfl
@[simp] theorem State.modXlt_agenda (s : State) (f : Xlt → Xlt) : (s.modXlt f).agenda = s.agenda := rfl
@[simp] theorem State.modXlt_gapTime (s : State) (f : Xlt → Xlt) : (s.modXlt f).gapTime = s.gapTime := rfl
@[simp] theorem State.modXlt_phase (s : State) (f : Xlt → Xlt) : (s.modXlt f).phase = s.phase := rfl
@[simp] theorem State.modXlt_dram (s : State) (f : Xlt → Xlt) : (s.modXlt f).dram = s.dram := rfl
@[simp] theorem State.modXlt_dramUe (s : State) (f : Xlt → Xlt) : (s.modXlt f).dramUe = s.dramUe := rfl
@[simp] theorem State.modXlt_dramCe (s : State) (f : Xlt → Xlt) : (s.modXlt f).dramCe = s.dramCe := rfl
@[simp] theorem State.modXlt_hostMem (s : State) (f : Xlt → Xlt) : (s.modXlt f).hostMem = s.hostMem := rfl
@[simp] theorem State.modXlt_pstore (s : State) (f : Xlt → Xlt) : (s.modXlt f).pstore = s.pstore := rfl
@[simp] theorem State.modXlt_pstoreBad (s : State) (f : Xlt → Xlt) : (s.modXlt f).pstoreBad = s.pstoreBad := rfl
@[simp] theorem State.modXlt_ctxBad (s : State) (f : Xlt → Xlt) : (s.modXlt f).ctxBad = s.ctxBad := rfl
@[simp] theorem State.modXlt_seq (s : State) (f : Xlt → Xlt) : (s.modXlt f).seq = s.seq := rfl
@[simp] theorem State.modXlt_ctx (s : State) (f : Xlt → Xlt) : (s.modXlt f).ctx = s.ctx := rfl
@[simp] theorem State.modXlt_str (s : State) (f : Xlt → Xlt) : (s.modXlt f).str = s.str := rfl
@[simp] theorem State.modXlt_ring (s : State) (f : Xlt → Xlt) : (s.modXlt f).ring = s.ring := rfl
@[simp] theorem State.modXlt_eng (s : State) (f : Xlt → Xlt) : (s.modXlt f).eng = s.eng := rfl
@[simp] theorem State.modXlt_engLast (s : State) (f : Xlt → Xlt) : (s.modXlt f).engLast = s.engLast := rfl
@[simp] theorem State.modXlt_enc (s : State) (f : Xlt → Xlt) : (s.modXlt f).enc = s.enc := rfl
@[simp] theorem State.modXlt_place (s : State) (f : Xlt → Xlt) : (s.modXlt f).place = s.place := rfl
@[simp] theorem State.modXlt_fire (s : State) (f : Xlt → Xlt) : (s.modXlt f).fire = s.fire := rfl
@[simp] theorem State.modXlt_fp (s : State) (f : Xlt → Xlt) : (s.modXlt f).fp = s.fp := rfl
@[simp] theorem State.modXlt_kl (s : State) (f : Xlt → Xlt) : (s.modXlt f).kl = s.kl := rfl
@[simp] theorem State.modXlt_head (s : State) (f : Xlt → Xlt) : (s.modXlt f).head = s.head := rfl
@[simp] theorem State.modXlt_cam (s : State) (f : Xlt → Xlt) : (s.modXlt f).cam = s.cam := rfl
@[simp] theorem State.modXlt_pipe (s : State) (f : Xlt → Xlt) : (s.modXlt f).pipe = s.pipe := rfl
@[simp] theorem State.modXlt_hlt (s : State) (f : Xlt → Xlt) : (s.modXlt f).hlt = s.hlt := rfl
@[simp] theorem State.modXlt_ax (s : State) (f : Xlt → Xlt) : (s.modXlt f).ax = s.ax := rfl
@[simp] theorem State.modXlt_sess (s : State) (f : Xlt → Xlt) : (s.modXlt f).sess = s.sess := rfl
@[simp] theorem State.modXlt_keys (s : State) (f : Xlt → Xlt) : (s.modXlt f).keys = s.keys := rfl
@[simp] theorem State.modXlt_xlt (s : State) (f : Xlt → Xlt) : (s.modXlt f).xlt = f s.xlt := rfl
@[simp] theorem State.modXlt_mgt (s : State) (f : Xlt → Xlt) : (s.modXlt f).mgt = s.mgt := rfl
@[simp] theorem State.modXlt_safe (s : State) (f : Xlt → Xlt) : (s.modXlt f).safe = s.safe := rfl
@[simp] theorem State.modXlt_mem (s : State) (f : Xlt → Xlt) : (s.modXlt f).mem = s.mem := rfl
@[simp] theorem State.modXlt_tim (s : State) (f : Xlt → Xlt) : (s.modXlt f).tim = s.tim := rfl
@[simp] theorem State.modXlt_cal (s : State) (f : Xlt → Xlt) : (s.modXlt f).cal = s.cal := rfl
@[simp] theorem State.modXlt_nv (s : State) (f : Xlt → Xlt) : (s.modXlt f).nv = s.nv := rfl
@[simp] theorem State.modXlt_pws (s : State) (f : Xlt → Xlt) : (s.modXlt f).pws = s.pws := rfl
@[simp] theorem State.modXlt_msix (s : State) (f : Xlt → Xlt) : (s.modXlt f).msix = s.msix := rfl
@[simp] theorem State.modXlt_net (s : State) (f : Xlt → Xlt) : (s.modXlt f).net = s.net := rfl
@[simp] theorem State.modTim_pending (s : State) (f : Tim → Tim) : (s.modTim f).pending = s.pending := rfl
@[simp] theorem State.modTim_now (s : State) (f : Tim → Tim) : (s.modTim f).now = s.now := rfl
@[simp] theorem State.modTim_tickBase (s : State) (f : Tim → Tim) : (s.modTim f).tickBase = s.tickBase := rfl
@[simp] theorem State.modTim_out (s : State) (f : Tim → Tim) : (s.modTim f).out = s.out := rfl
@[simp] theorem State.modTim_draws (s : State) (f : Tim → Tim) : (s.modTim f).draws = s.draws := rfl
@[simp] theorem State.modTim_agenda (s : State) (f : Tim → Tim) : (s.modTim f).agenda = s.agenda := rfl
@[simp] theorem State.modTim_gapTime (s : State) (f : Tim → Tim) : (s.modTim f).gapTime = s.gapTime := rfl
@[simp] theorem State.modTim_phase (s : State) (f : Tim → Tim) : (s.modTim f).phase = s.phase := rfl
@[simp] theorem State.modTim_dram (s : State) (f : Tim → Tim) : (s.modTim f).dram = s.dram := rfl
@[simp] theorem State.modTim_dramUe (s : State) (f : Tim → Tim) : (s.modTim f).dramUe = s.dramUe := rfl
@[simp] theorem State.modTim_dramCe (s : State) (f : Tim → Tim) : (s.modTim f).dramCe = s.dramCe := rfl
@[simp] theorem State.modTim_hostMem (s : State) (f : Tim → Tim) : (s.modTim f).hostMem = s.hostMem := rfl
@[simp] theorem State.modTim_pstore (s : State) (f : Tim → Tim) : (s.modTim f).pstore = s.pstore := rfl
@[simp] theorem State.modTim_pstoreBad (s : State) (f : Tim → Tim) : (s.modTim f).pstoreBad = s.pstoreBad := rfl
@[simp] theorem State.modTim_ctxBad (s : State) (f : Tim → Tim) : (s.modTim f).ctxBad = s.ctxBad := rfl
@[simp] theorem State.modTim_seq (s : State) (f : Tim → Tim) : (s.modTim f).seq = s.seq := rfl
@[simp] theorem State.modTim_ctx (s : State) (f : Tim → Tim) : (s.modTim f).ctx = s.ctx := rfl
@[simp] theorem State.modTim_str (s : State) (f : Tim → Tim) : (s.modTim f).str = s.str := rfl
@[simp] theorem State.modTim_ring (s : State) (f : Tim → Tim) : (s.modTim f).ring = s.ring := rfl
@[simp] theorem State.modTim_eng (s : State) (f : Tim → Tim) : (s.modTim f).eng = s.eng := rfl
@[simp] theorem State.modTim_engLast (s : State) (f : Tim → Tim) : (s.modTim f).engLast = s.engLast := rfl
@[simp] theorem State.modTim_enc (s : State) (f : Tim → Tim) : (s.modTim f).enc = s.enc := rfl
@[simp] theorem State.modTim_place (s : State) (f : Tim → Tim) : (s.modTim f).place = s.place := rfl
@[simp] theorem State.modTim_fire (s : State) (f : Tim → Tim) : (s.modTim f).fire = s.fire := rfl
@[simp] theorem State.modTim_fp (s : State) (f : Tim → Tim) : (s.modTim f).fp = s.fp := rfl
@[simp] theorem State.modTim_kl (s : State) (f : Tim → Tim) : (s.modTim f).kl = s.kl := rfl
@[simp] theorem State.modTim_head (s : State) (f : Tim → Tim) : (s.modTim f).head = s.head := rfl
@[simp] theorem State.modTim_cam (s : State) (f : Tim → Tim) : (s.modTim f).cam = s.cam := rfl
@[simp] theorem State.modTim_pipe (s : State) (f : Tim → Tim) : (s.modTim f).pipe = s.pipe := rfl
@[simp] theorem State.modTim_hlt (s : State) (f : Tim → Tim) : (s.modTim f).hlt = s.hlt := rfl
@[simp] theorem State.modTim_ax (s : State) (f : Tim → Tim) : (s.modTim f).ax = s.ax := rfl
@[simp] theorem State.modTim_sess (s : State) (f : Tim → Tim) : (s.modTim f).sess = s.sess := rfl
@[simp] theorem State.modTim_keys (s : State) (f : Tim → Tim) : (s.modTim f).keys = s.keys := rfl
@[simp] theorem State.modTim_xlt (s : State) (f : Tim → Tim) : (s.modTim f).xlt = s.xlt := rfl
@[simp] theorem State.modTim_mgt (s : State) (f : Tim → Tim) : (s.modTim f).mgt = s.mgt := rfl
@[simp] theorem State.modTim_safe (s : State) (f : Tim → Tim) : (s.modTim f).safe = s.safe := rfl
@[simp] theorem State.modTim_mem (s : State) (f : Tim → Tim) : (s.modTim f).mem = s.mem := rfl
@[simp] theorem State.modTim_tim (s : State) (f : Tim → Tim) : (s.modTim f).tim = f s.tim := rfl
@[simp] theorem State.modTim_cal (s : State) (f : Tim → Tim) : (s.modTim f).cal = s.cal := rfl
@[simp] theorem State.modTim_nv (s : State) (f : Tim → Tim) : (s.modTim f).nv = s.nv := rfl
@[simp] theorem State.modTim_pws (s : State) (f : Tim → Tim) : (s.modTim f).pws = s.pws := rfl
@[simp] theorem State.modTim_msix (s : State) (f : Tim → Tim) : (s.modTim f).msix = s.msix := rfl
@[simp] theorem State.modTim_net (s : State) (f : Tim → Tim) : (s.modTim f).net = s.net := rfl
@[simp] theorem State.modPws_pending (s : State) (f : Pws → Pws) : (s.modPws f).pending = s.pending := rfl
@[simp] theorem State.modPws_now (s : State) (f : Pws → Pws) : (s.modPws f).now = s.now := rfl
@[simp] theorem State.modPws_tickBase (s : State) (f : Pws → Pws) : (s.modPws f).tickBase = s.tickBase := rfl
@[simp] theorem State.modPws_out (s : State) (f : Pws → Pws) : (s.modPws f).out = s.out := rfl
@[simp] theorem State.modPws_draws (s : State) (f : Pws → Pws) : (s.modPws f).draws = s.draws := rfl
@[simp] theorem State.modPws_agenda (s : State) (f : Pws → Pws) : (s.modPws f).agenda = s.agenda := rfl
@[simp] theorem State.modPws_gapTime (s : State) (f : Pws → Pws) : (s.modPws f).gapTime = s.gapTime := rfl
@[simp] theorem State.modPws_phase (s : State) (f : Pws → Pws) : (s.modPws f).phase = s.phase := rfl
@[simp] theorem State.modPws_dram (s : State) (f : Pws → Pws) : (s.modPws f).dram = s.dram := rfl
@[simp] theorem State.modPws_dramUe (s : State) (f : Pws → Pws) : (s.modPws f).dramUe = s.dramUe := rfl
@[simp] theorem State.modPws_dramCe (s : State) (f : Pws → Pws) : (s.modPws f).dramCe = s.dramCe := rfl
@[simp] theorem State.modPws_hostMem (s : State) (f : Pws → Pws) : (s.modPws f).hostMem = s.hostMem := rfl
@[simp] theorem State.modPws_pstore (s : State) (f : Pws → Pws) : (s.modPws f).pstore = s.pstore := rfl
@[simp] theorem State.modPws_pstoreBad (s : State) (f : Pws → Pws) : (s.modPws f).pstoreBad = s.pstoreBad := rfl
@[simp] theorem State.modPws_ctxBad (s : State) (f : Pws → Pws) : (s.modPws f).ctxBad = s.ctxBad := rfl
@[simp] theorem State.modPws_seq (s : State) (f : Pws → Pws) : (s.modPws f).seq = s.seq := rfl
@[simp] theorem State.modPws_ctx (s : State) (f : Pws → Pws) : (s.modPws f).ctx = s.ctx := rfl
@[simp] theorem State.modPws_str (s : State) (f : Pws → Pws) : (s.modPws f).str = s.str := rfl
@[simp] theorem State.modPws_ring (s : State) (f : Pws → Pws) : (s.modPws f).ring = s.ring := rfl
@[simp] theorem State.modPws_eng (s : State) (f : Pws → Pws) : (s.modPws f).eng = s.eng := rfl
@[simp] theorem State.modPws_engLast (s : State) (f : Pws → Pws) : (s.modPws f).engLast = s.engLast := rfl
@[simp] theorem State.modPws_enc (s : State) (f : Pws → Pws) : (s.modPws f).enc = s.enc := rfl
@[simp] theorem State.modPws_place (s : State) (f : Pws → Pws) : (s.modPws f).place = s.place := rfl
@[simp] theorem State.modPws_fire (s : State) (f : Pws → Pws) : (s.modPws f).fire = s.fire := rfl
@[simp] theorem State.modPws_fp (s : State) (f : Pws → Pws) : (s.modPws f).fp = s.fp := rfl
@[simp] theorem State.modPws_kl (s : State) (f : Pws → Pws) : (s.modPws f).kl = s.kl := rfl
@[simp] theorem State.modPws_head (s : State) (f : Pws → Pws) : (s.modPws f).head = s.head := rfl
@[simp] theorem State.modPws_cam (s : State) (f : Pws → Pws) : (s.modPws f).cam = s.cam := rfl
@[simp] theorem State.modPws_pipe (s : State) (f : Pws → Pws) : (s.modPws f).pipe = s.pipe := rfl
@[simp] theorem State.modPws_hlt (s : State) (f : Pws → Pws) : (s.modPws f).hlt = s.hlt := rfl
@[simp] theorem State.modPws_ax (s : State) (f : Pws → Pws) : (s.modPws f).ax = s.ax := rfl
@[simp] theorem State.modPws_sess (s : State) (f : Pws → Pws) : (s.modPws f).sess = s.sess := rfl
@[simp] theorem State.modPws_keys (s : State) (f : Pws → Pws) : (s.modPws f).keys = s.keys := rfl
@[simp] theorem State.modPws_xlt (s : State) (f : Pws → Pws) : (s.modPws f).xlt = s.xlt := rfl
@[simp] theorem State.modPws_mgt (s : State) (f : Pws → Pws) : (s.modPws f).mgt = s.mgt := rfl
@[simp] theorem State.modPws_safe (s : State) (f : Pws → Pws) : (s.modPws f).safe = s.safe := rfl
@[simp] theorem State.modPws_mem (s : State) (f : Pws → Pws) : (s.modPws f).mem = s.mem := rfl
@[simp] theorem State.modPws_tim (s : State) (f : Pws → Pws) : (s.modPws f).tim = s.tim := rfl
@[simp] theorem State.modPws_cal (s : State) (f : Pws → Pws) : (s.modPws f).cal = s.cal := rfl
@[simp] theorem State.modPws_nv (s : State) (f : Pws → Pws) : (s.modPws f).nv = s.nv := rfl
@[simp] theorem State.modPws_pws (s : State) (f : Pws → Pws) : (s.modPws f).pws = f s.pws := rfl
@[simp] theorem State.modPws_msix (s : State) (f : Pws → Pws) : (s.modPws f).msix = s.msix := rfl
@[simp] theorem State.modPws_net (s : State) (f : Pws → Pws) : (s.modPws f).net = s.net := rfl
@[simp] theorem State.modSafe_pending (s : State) (f : Safe → Safe) : (s.modSafe f).pending = s.pending := rfl
@[simp] theorem State.modSafe_now (s : State) (f : Safe → Safe) : (s.modSafe f).now = s.now := rfl
@[simp] theorem State.modSafe_tickBase (s : State) (f : Safe → Safe) : (s.modSafe f).tickBase = s.tickBase := rfl
@[simp] theorem State.modSafe_out (s : State) (f : Safe → Safe) : (s.modSafe f).out = s.out := rfl
@[simp] theorem State.modSafe_draws (s : State) (f : Safe → Safe) : (s.modSafe f).draws = s.draws := rfl
@[simp] theorem State.modSafe_agenda (s : State) (f : Safe → Safe) : (s.modSafe f).agenda = s.agenda := rfl
@[simp] theorem State.modSafe_gapTime (s : State) (f : Safe → Safe) : (s.modSafe f).gapTime = s.gapTime := rfl
@[simp] theorem State.modSafe_phase (s : State) (f : Safe → Safe) : (s.modSafe f).phase = s.phase := rfl
@[simp] theorem State.modSafe_dram (s : State) (f : Safe → Safe) : (s.modSafe f).dram = s.dram := rfl
@[simp] theorem State.modSafe_dramUe (s : State) (f : Safe → Safe) : (s.modSafe f).dramUe = s.dramUe := rfl
@[simp] theorem State.modSafe_dramCe (s : State) (f : Safe → Safe) : (s.modSafe f).dramCe = s.dramCe := rfl
@[simp] theorem State.modSafe_hostMem (s : State) (f : Safe → Safe) : (s.modSafe f).hostMem = s.hostMem := rfl
@[simp] theorem State.modSafe_pstore (s : State) (f : Safe → Safe) : (s.modSafe f).pstore = s.pstore := rfl
@[simp] theorem State.modSafe_pstoreBad (s : State) (f : Safe → Safe) : (s.modSafe f).pstoreBad = s.pstoreBad := rfl
@[simp] theorem State.modSafe_ctxBad (s : State) (f : Safe → Safe) : (s.modSafe f).ctxBad = s.ctxBad := rfl
@[simp] theorem State.modSafe_seq (s : State) (f : Safe → Safe) : (s.modSafe f).seq = s.seq := rfl
@[simp] theorem State.modSafe_ctx (s : State) (f : Safe → Safe) : (s.modSafe f).ctx = s.ctx := rfl
@[simp] theorem State.modSafe_str (s : State) (f : Safe → Safe) : (s.modSafe f).str = s.str := rfl
@[simp] theorem State.modSafe_ring (s : State) (f : Safe → Safe) : (s.modSafe f).ring = s.ring := rfl
@[simp] theorem State.modSafe_eng (s : State) (f : Safe → Safe) : (s.modSafe f).eng = s.eng := rfl
@[simp] theorem State.modSafe_engLast (s : State) (f : Safe → Safe) : (s.modSafe f).engLast = s.engLast := rfl
@[simp] theorem State.modSafe_enc (s : State) (f : Safe → Safe) : (s.modSafe f).enc = s.enc := rfl
@[simp] theorem State.modSafe_place (s : State) (f : Safe → Safe) : (s.modSafe f).place = s.place := rfl
@[simp] theorem State.modSafe_fire (s : State) (f : Safe → Safe) : (s.modSafe f).fire = s.fire := rfl
@[simp] theorem State.modSafe_fp (s : State) (f : Safe → Safe) : (s.modSafe f).fp = s.fp := rfl
@[simp] theorem State.modSafe_kl (s : State) (f : Safe → Safe) : (s.modSafe f).kl = s.kl := rfl
@[simp] theorem State.modSafe_head (s : State) (f : Safe → Safe) : (s.modSafe f).head = s.head := rfl
@[simp] theorem State.modSafe_cam (s : State) (f : Safe → Safe) : (s.modSafe f).cam = s.cam := rfl
@[simp] theorem State.modSafe_pipe (s : State) (f : Safe → Safe) : (s.modSafe f).pipe = s.pipe := rfl
@[simp] theorem State.modSafe_hlt (s : State) (f : Safe → Safe) : (s.modSafe f).hlt = s.hlt := rfl
@[simp] theorem State.modSafe_ax (s : State) (f : Safe → Safe) : (s.modSafe f).ax = s.ax := rfl
@[simp] theorem State.modSafe_sess (s : State) (f : Safe → Safe) : (s.modSafe f).sess = s.sess := rfl
@[simp] theorem State.modSafe_keys (s : State) (f : Safe → Safe) : (s.modSafe f).keys = s.keys := rfl
@[simp] theorem State.modSafe_xlt (s : State) (f : Safe → Safe) : (s.modSafe f).xlt = s.xlt := rfl
@[simp] theorem State.modSafe_mgt (s : State) (f : Safe → Safe) : (s.modSafe f).mgt = s.mgt := rfl
@[simp] theorem State.modSafe_safe (s : State) (f : Safe → Safe) : (s.modSafe f).safe = f s.safe := rfl
@[simp] theorem State.modSafe_mem (s : State) (f : Safe → Safe) : (s.modSafe f).mem = s.mem := rfl
@[simp] theorem State.modSafe_tim (s : State) (f : Safe → Safe) : (s.modSafe f).tim = s.tim := rfl
@[simp] theorem State.modSafe_cal (s : State) (f : Safe → Safe) : (s.modSafe f).cal = s.cal := rfl
@[simp] theorem State.modSafe_nv (s : State) (f : Safe → Safe) : (s.modSafe f).nv = s.nv := rfl
@[simp] theorem State.modSafe_pws (s : State) (f : Safe → Safe) : (s.modSafe f).pws = s.pws := rfl
@[simp] theorem State.modSafe_msix (s : State) (f : Safe → Safe) : (s.modSafe f).msix = s.msix := rfl
@[simp] theorem State.modSafe_net (s : State) (f : Safe → Safe) : (s.modSafe f).net = s.net := rfl
@[simp] theorem State.emit_pending (s : State) (o : Out) : (s.emit o).pending = s.pending := rfl
@[simp] theorem State.emit_now (s : State) (o : Out) : (s.emit o).now = s.now := rfl
@[simp] theorem State.emit_tickBase (s : State) (o : Out) : (s.emit o).tickBase = s.tickBase := rfl
@[simp] theorem State.emit_out (s : State) (o : Out) : (s.emit o).out = s.out ++ [o] := rfl
@[simp] theorem State.emit_draws (s : State) (o : Out) : (s.emit o).draws = s.draws := rfl
@[simp] theorem State.emit_agenda (s : State) (o : Out) : (s.emit o).agenda = s.agenda := rfl
@[simp] theorem State.emit_gapTime (s : State) (o : Out) : (s.emit o).gapTime = s.gapTime := rfl
@[simp] theorem State.emit_phase (s : State) (o : Out) : (s.emit o).phase = s.phase := rfl
@[simp] theorem State.emit_dram (s : State) (o : Out) : (s.emit o).dram = s.dram := rfl
@[simp] theorem State.emit_dramUe (s : State) (o : Out) : (s.emit o).dramUe = s.dramUe := rfl
@[simp] theorem State.emit_dramCe (s : State) (o : Out) : (s.emit o).dramCe = s.dramCe := rfl
@[simp] theorem State.emit_hostMem (s : State) (o : Out) : (s.emit o).hostMem = s.hostMem := rfl
@[simp] theorem State.emit_pstore (s : State) (o : Out) : (s.emit o).pstore = s.pstore := rfl
@[simp] theorem State.emit_pstoreBad (s : State) (o : Out) : (s.emit o).pstoreBad = s.pstoreBad := rfl
@[simp] theorem State.emit_ctxBad (s : State) (o : Out) : (s.emit o).ctxBad = s.ctxBad := rfl
@[simp] theorem State.emit_seq (s : State) (o : Out) : (s.emit o).seq = s.seq := rfl
@[simp] theorem State.emit_ctx (s : State) (o : Out) : (s.emit o).ctx = s.ctx := rfl
@[simp] theorem State.emit_str (s : State) (o : Out) : (s.emit o).str = s.str := rfl
@[simp] theorem State.emit_ring (s : State) (o : Out) : (s.emit o).ring = s.ring := rfl
@[simp] theorem State.emit_eng (s : State) (o : Out) : (s.emit o).eng = s.eng := rfl
@[simp] theorem State.emit_engLast (s : State) (o : Out) : (s.emit o).engLast = s.engLast := rfl
@[simp] theorem State.emit_enc (s : State) (o : Out) : (s.emit o).enc = s.enc := rfl
@[simp] theorem State.emit_place (s : State) (o : Out) : (s.emit o).place = s.place := rfl
@[simp] theorem State.emit_fire (s : State) (o : Out) : (s.emit o).fire = s.fire := rfl
@[simp] theorem State.emit_fp (s : State) (o : Out) : (s.emit o).fp = s.fp := rfl
@[simp] theorem State.emit_kl (s : State) (o : Out) : (s.emit o).kl = s.kl := rfl
@[simp] theorem State.emit_head (s : State) (o : Out) : (s.emit o).head = s.head := rfl
@[simp] theorem State.emit_cam (s : State) (o : Out) : (s.emit o).cam = s.cam := rfl
@[simp] theorem State.emit_pipe (s : State) (o : Out) : (s.emit o).pipe = s.pipe := rfl
@[simp] theorem State.emit_hlt (s : State) (o : Out) : (s.emit o).hlt = s.hlt := rfl
@[simp] theorem State.emit_ax (s : State) (o : Out) : (s.emit o).ax = s.ax := rfl
@[simp] theorem State.emit_sess (s : State) (o : Out) : (s.emit o).sess = s.sess := rfl
@[simp] theorem State.emit_keys (s : State) (o : Out) : (s.emit o).keys = s.keys := rfl
@[simp] theorem State.emit_xlt (s : State) (o : Out) : (s.emit o).xlt = s.xlt := rfl
@[simp] theorem State.emit_mgt (s : State) (o : Out) : (s.emit o).mgt = s.mgt := rfl
@[simp] theorem State.emit_safe (s : State) (o : Out) : (s.emit o).safe = s.safe := rfl
@[simp] theorem State.emit_mem (s : State) (o : Out) : (s.emit o).mem = s.mem := rfl
@[simp] theorem State.emit_tim (s : State) (o : Out) : (s.emit o).tim = s.tim := rfl
@[simp] theorem State.emit_cal (s : State) (o : Out) : (s.emit o).cal = s.cal := rfl
@[simp] theorem State.emit_nv (s : State) (o : Out) : (s.emit o).nv = s.nv := rfl
@[simp] theorem State.emit_pws (s : State) (o : Out) : (s.emit o).pws = s.pws := rfl
@[simp] theorem State.emit_msix (s : State) (o : Out) : (s.emit o).msix = s.msix := rfl
@[simp] theorem State.emit_net (s : State) (o : Out) : (s.emit o).net = s.net := rfl

end Sys2Proof.Machine
end

