-- ==== Sys2Proof/Laws/Frame.lean ====
section
/-! SUPPORT. What the shared operations leave alone: posting a record changes the sessions, the MSI-X state and the outputs
only; reading a word of the die's memory changes the counts of its errors besides; a command that finds nothing on its way
to it changes the time, the device time, the axes, the outputs and the hosts' memories only as it arrives. -/
namespace Sys2Proof.Machine
open Sys2Proof

theorem vget_replicate {α : Type} [Inhabited α] (n : Nat) (x : α) (i : Nat) (h : i < n) :
    vget (Vector.replicate n x) i = x := by simp [vget, h]

/-! ## Posting -/

/-- From s to t records were posted and vectors raised, and nothing else happened. -/
def Posts (s t : State) : Prop := t = { s with sess := t.sess, msix := t.msix, out := t.out }

namespace Posts

theorem refl (s : State) : Posts s s := rfl

theorem eq {s t : State} (h : Posts s t) : t = { s with sess := t.sess, msix := t.msix, out := t.out } := h

theorem trans {s t u : State} (h : Posts s t) (h' : Posts t u) : Posts s u := by
  unfold Posts at h h' ⊢
  rw [h', h]

theorem ite {s t u : State} {c : Prop} [Decidable c] (h : Posts s t) (h' : Posts s u) : Posts s (if c then t else u) := by
  split <;> assumption

theorem when {s t : State} {b : Bool} {f : State → State} (h : Posts s t) (hf : ∀ u, Posts u (f u)) :
    Posts s (t.when b f) := by
  unfold State.when
  exact ite (h.trans (hf t)) h

theorem each {α : Type} {f : State → α → State} (hf : ∀ u a, Posts u (f u a)) :
    ∀ (l : List α) {s t : State}, Posts s t → Posts s (t.each l f)
  | [], _, _, h => h
  | a :: l, _, t, h => each hf l (h.trans (hf t a))

theorem pending {s t : State} (h : Posts s t) : t.pending = s.pending := (congrArg State.pending h.eq).trans rfl
theorem now {s t : State} (h : Posts s t) : t.now = s.now := (congrArg State.now h.eq).trans rfl
theorem tickBase {s t : State} (h : Posts s t) : t.tickBase = s.tickBase := (congrArg State.tickBase h.eq).trans rfl
theorem draws {s t : State} (h : Posts s t) : t.draws = s.draws := (congrArg State.draws h.eq).trans rfl
theorem agenda {s t : State} (h : Posts s t) : t.agenda = s.agenda := (congrArg State.agenda h.eq).trans rfl
theorem gapTime {s t : State} (h : Posts s t) : t.gapTime = s.gapTime := (congrArg State.gapTime h.eq).trans rfl
theorem phase {s t : State} (h : Posts s t) : t.phase = s.phase := (congrArg State.phase h.eq).trans rfl
theorem dram {s t : State} (h : Posts s t) : t.dram = s.dram := (congrArg State.dram h.eq).trans rfl
theorem dramUe {s t : State} (h : Posts s t) : t.dramUe = s.dramUe := (congrArg State.dramUe h.eq).trans rfl
theorem dramCe {s t : State} (h : Posts s t) : t.dramCe = s.dramCe := (congrArg State.dramCe h.eq).trans rfl
theorem hostMem {s t : State} (h : Posts s t) : t.hostMem = s.hostMem := (congrArg State.hostMem h.eq).trans rfl
theorem pstore {s t : State} (h : Posts s t) : t.pstore = s.pstore := (congrArg State.pstore h.eq).trans rfl
theorem pstoreBad {s t : State} (h : Posts s t) : t.pstoreBad = s.pstoreBad := (congrArg State.pstoreBad h.eq).trans rfl
theorem ctxBad {s t : State} (h : Posts s t) : t.ctxBad = s.ctxBad := (congrArg State.ctxBad h.eq).trans rfl
theorem seq {s t : State} (h : Posts s t) : t.seq = s.seq := (congrArg State.seq h.eq).trans rfl
theorem ctx {s t : State} (h : Posts s t) : t.ctx = s.ctx := (congrArg State.ctx h.eq).trans rfl
theorem str {s t : State} (h : Posts s t) : t.str = s.str := (congrArg State.str h.eq).trans rfl
theorem ring {s t : State} (h : Posts s t) : t.ring = s.ring := (congrArg State.ring h.eq).trans rfl
theorem eng {s t : State} (h : Posts s t) : t.eng = s.eng := (congrArg State.eng h.eq).trans rfl
theorem engLast {s t : State} (h : Posts s t) : t.engLast = s.engLast := (congrArg State.engLast h.eq).trans rfl
theorem enc {s t : State} (h : Posts s t) : t.enc = s.enc := (congrArg State.enc h.eq).trans rfl
theorem place {s t : State} (h : Posts s t) : t.place = s.place := (congrArg State.place h.eq).trans rfl
theorem fire {s t : State} (h : Posts s t) : t.fire = s.fire := (congrArg State.fire h.eq).trans rfl
theorem fp {s t : State} (h : Posts s t) : t.fp = s.fp := (congrArg State.fp h.eq).trans rfl
theorem kl {s t : State} (h : Posts s t) : t.kl = s.kl := (congrArg State.kl h.eq).trans rfl
theorem head {s t : State} (h : Posts s t) : t.head = s.head := (congrArg State.head h.eq).trans rfl
theorem cam {s t : State} (h : Posts s t) : t.cam = s.cam := (congrArg State.cam h.eq).trans rfl
theorem pipe {s t : State} (h : Posts s t) : t.pipe = s.pipe := (congrArg State.pipe h.eq).trans rfl
theorem hlt {s t : State} (h : Posts s t) : t.hlt = s.hlt := (congrArg State.hlt h.eq).trans rfl
theorem ax {s t : State} (h : Posts s t) : t.ax = s.ax := (congrArg State.ax h.eq).trans rfl
theorem keys {s t : State} (h : Posts s t) : t.keys = s.keys := (congrArg State.keys h.eq).trans rfl
theorem xlt {s t : State} (h : Posts s t) : t.xlt = s.xlt := (congrArg State.xlt h.eq).trans rfl
theorem mgt {s t : State} (h : Posts s t) : t.mgt = s.mgt := (congrArg State.mgt h.eq).trans rfl
theorem safe {s t : State} (h : Posts s t) : t.safe = s.safe := (congrArg State.safe h.eq).trans rfl
theorem mem {s t : State} (h : Posts s t) : t.mem = s.mem := (congrArg State.mem h.eq).trans rfl
theorem tim {s t : State} (h : Posts s t) : t.tim = s.tim := (congrArg State.tim h.eq).trans rfl
theorem cal {s t : State} (h : Posts s t) : t.cal = s.cal := (congrArg State.cal h.eq).trans rfl
theorem nv {s t : State} (h : Posts s t) : t.nv = s.nv := (congrArg State.nv h.eq).trans rfl
theorem pws {s t : State} (h : Posts s t) : t.pws = s.pws := (congrArg State.pws h.eq).trans rfl
theorem net {s t : State} (h : Posts s t) : t.net = s.net := (congrArg State.net h.eq).trans rfl

end Posts

theorem State.emit_posts (s : State) (o : Out) : Posts s (s.emit o) := rfl

theorem State.raise_posts (s : State) (f v : Nat) : Posts s (s.raise f v) := by
  unfold State.raise
  dsimp only
  (repeat' split) <;> rfl

theorem State.raiseAll_posts (s : State) (v : Nat) : Posts s (s.raiseAll v) :=
  Posts.each (fun u f => u.raise_posts f v) _ (Posts.refl s)

theorem State.raiseSess_posts (s : State) (n k : Nat) : Posts s (s.raiseSess n k) := by
  unfold State.raiseSess
  exact Posts.ite rfl (s.raise_posts _ _)

theorem State.setEvq_posts (s : State) (n : Nat) (q : EvQueue) : Posts s (s.setEvq n q) := by
  unfold State.setEvq
  exact Posts.when (Posts.when rfl fun u => u.raiseSess_posts n 1) fun u => u.raiseSess_posts n 3

theorem State.rdFirst_posts (s : State) (n : Nat) : Posts s (s.rdFirst n) := by
  unfold State.rdFirst
  refine Posts.each (fun u c => ?_) _ (Posts.refl s)
  split
  · exact Posts.ite (u.setEvq_posts _ _) (Posts.refl u)
  · split
    · exact Posts.ite (u.setEvq_posts _ _) (Posts.refl u)
    · exact Posts.refl u
  · exact Posts.refl u

theorem State.postTo_posts (s : State) (n : Nat) (r : EvRec) : Posts s (s.postTo n r) := by
  unfold State.postTo
  exact Posts.ite ((Posts.when (Posts.refl s) fun u => u.rdFirst_posts n).trans (State.setEvq_posts _ _ _)) (Posts.refl s)

theorem State.postOr_posts (s : State) (n : Option Nat) (r : EvRec) : Posts s (s.postOr n r) := by
  unfold State.postOr
  split
  · exact s.postTo_posts _ _
  · exact Posts.refl s

theorem State.postUnit_posts (s : State) (u : Nat) (r : EvRec) : Posts s (s.postUnit u r) := s.postOr_posts _ _

theorem State.postSteward_posts (s : State) (r : EvRec) : Posts s (s.postSteward r) := s.postOr_posts _ _

theorem State.postAll_posts (s : State) (r : EvRec) : Posts s (s.postAll r) :=
  Posts.each (fun u n => u.postTo_posts n r) _ (Posts.refl s)

theorem State.postErr_posts (s : State) (n code source : Nat) (detail : Word) : Posts s (s.postErr n code source detail) :=
  s.postTo_posts _ _

@[simp] theorem State.postTo_pending (s : State) (n : Nat) (r : EvRec) : (s.postTo n r).pending = s.pending := (s.postTo_posts n r).pending
@[simp] theorem State.postTo_now (s : State) (n : Nat) (r : EvRec) : (s.postTo n r).now = s.now := (s.postTo_posts n r).now
@[simp] theorem State.postTo_tickBase (s : State) (n : Nat) (r : EvRec) : (s.postTo n r).tickBase = s.tickBase := (s.postTo_posts n r).tickBase
@[simp] theorem State.postTo_draws (s : State) (n : Nat) (r : EvRec) : (s.postTo n r).draws = s.draws := (s.postTo_posts n r).draws
@[simp] theorem State.postTo_agenda (s : State) (n : Nat) (r : EvRec) : (s.postTo n r).agenda = s.agenda := (s.postTo_posts n r).agenda
@[simp] theorem State.postTo_gapTime (s : State) (n : Nat) (r : EvRec) : (s.postTo n r).gapTime = s.gapTime := (s.postTo_posts n r).gapTime
@[simp] theorem State.postTo_phase (s : State) (n : Nat) (r : EvRec) : (s.postTo n r).phase = s.phase := (s.postTo_posts n r).phase
@[simp] theorem State.postTo_dram (s : State) (n : Nat) (r : EvRec) : (s.postTo n r).dram = s.dram := (s.postTo_posts n r).dram
@[simp] theorem State.postTo_dramUe (s : State) (n : Nat) (r : EvRec) : (s.postTo n r).dramUe = s.dramUe := (s.postTo_posts n r).dramUe
@[simp] theorem State.postTo_dramCe (s : State) (n : Nat) (r : EvRec) : (s.postTo n r).dramCe = s.dramCe := (s.postTo_posts n r).dramCe
@[simp] theorem State.postTo_hostMem (s : State) (n : Nat) (r : EvRec) : (s.postTo n r).hostMem = s.hostMem := (s.postTo_posts n r).hostMem
@[simp] theorem State.postTo_pstore (s : State) (n : Nat) (r : EvRec) : (s.postTo n r).pstore = s.pstore := (s.postTo_posts n r).pstore
@[simp] theorem State.postTo_pstoreBad (s : State) (n : Nat) (r : EvRec) : (s.postTo n r).pstoreBad = s.pstoreBad := (s.postTo_posts n r).pstoreBad
@[simp] theorem State.postTo_ctxBad (s : State) (n : Nat) (r : EvRec) : (s.postTo n r).ctxBad = s.ctxBad := (s.postTo_posts n r).ctxBad
@[simp] theorem State.postTo_seq (s : State) (n : Nat) (r : EvRec) : (s.postTo n r).seq = s.seq := (s.postTo_posts n r).seq
@[simp] theorem State.postTo_ctx (s : State) (n : Nat) (r : EvRec) : (s.postTo n r).ctx = s.ctx := (s.postTo_posts n r).ctx
@[simp] theorem State.postTo_str (s : State) (n : Nat) (r : EvRec) : (s.postTo n r).str = s.str := (s.postTo_posts n r).str
@[simp] theorem State.postTo_ring (s : State) (n : Nat) (r : EvRec) : (s.postTo n r).ring = s.ring := (s.postTo_posts n r).ring
@[simp] theorem State.postTo_eng (s : State) (n : Nat) (r : EvRec) : (s.postTo n r).eng = s.eng := (s.postTo_posts n r).eng
@[simp] theorem State.postTo_engLast (s : State) (n : Nat) (r : EvRec) : (s.postTo n r).engLast = s.engLast := (s.postTo_posts n r).engLast
@[simp] theorem State.postTo_enc (s : State) (n : Nat) (r : EvRec) : (s.postTo n r).enc = s.enc := (s.postTo_posts n r).enc
@[simp] theorem State.postTo_place (s : State) (n : Nat) (r : EvRec) : (s.postTo n r).place = s.place := (s.postTo_posts n r).place
@[simp] theorem State.postTo_fire (s : State) (n : Nat) (r : EvRec) : (s.postTo n r).fire = s.fire := (s.postTo_posts n r).fire
@[simp] theorem State.postTo_fp (s : State) (n : Nat) (r : EvRec) : (s.postTo n r).fp = s.fp := (s.postTo_posts n r).fp
@[simp] theorem State.postTo_kl (s : State) (n : Nat) (r : EvRec) : (s.postTo n r).kl = s.kl := (s.postTo_posts n r).kl
@[simp] theorem State.postTo_head (s : State) (n : Nat) (r : EvRec) : (s.postTo n r).head = s.head := (s.postTo_posts n r).head
@[simp] theorem State.postTo_cam (s : State) (n : Nat) (r : EvRec) : (s.postTo n r).cam = s.cam := (s.postTo_posts n r).cam
@[simp] theorem State.postTo_pipe (s : State) (n : Nat) (r : EvRec) : (s.postTo n r).pipe = s.pipe := (s.postTo_posts n r).pipe
@[simp] theorem State.postTo_hlt (s : State) (n : Nat) (r : EvRec) : (s.postTo n r).hlt = s.hlt := (s.postTo_posts n r).hlt
@[simp] theorem State.postTo_ax (s : State) (n : Nat) (r : EvRec) : (s.postTo n r).ax = s.ax := (s.postTo_posts n r).ax
@[simp] theorem State.postTo_keys (s : State) (n : Nat) (r : EvRec) : (s.postTo n r).keys = s.keys := (s.postTo_posts n r).keys
@[simp] theorem State.postTo_xlt (s : State) (n : Nat) (r : EvRec) : (s.postTo n r).xlt = s.xlt := (s.postTo_posts n r).xlt
@[simp] theorem State.postTo_mgt (s : State) (n : Nat) (r : EvRec) : (s.postTo n r).mgt = s.mgt := (s.postTo_posts n r).mgt
@[simp] theorem State.postTo_safe (s : State) (n : Nat) (r : EvRec) : (s.postTo n r).safe = s.safe := (s.postTo_posts n r).safe
@[simp] theorem State.postTo_mem (s : State) (n : Nat) (r : EvRec) : (s.postTo n r).mem = s.mem := (s.postTo_posts n r).mem
@[simp] theorem State.postTo_tim (s : State) (n : Nat) (r : EvRec) : (s.postTo n r).tim = s.tim := (s.postTo_posts n r).tim
@[simp] theorem State.postTo_cal (s : State) (n : Nat) (r : EvRec) : (s.postTo n r).cal = s.cal := (s.postTo_posts n r).cal
@[simp] theorem State.postTo_nv (s : State) (n : Nat) (r : EvRec) : (s.postTo n r).nv = s.nv := (s.postTo_posts n r).nv
@[simp] theorem State.postTo_pws (s : State) (n : Nat) (r : EvRec) : (s.postTo n r).pws = s.pws := (s.postTo_posts n r).pws
@[simp] theorem State.postTo_net (s : State) (n : Nat) (r : EvRec) : (s.postTo n r).net = s.net := (s.postTo_posts n r).net
@[simp] theorem State.postOr_pending (s : State) (n : Option Nat) (r : EvRec) : (s.postOr n r).pending = s.pending := (s.postOr_posts n r).pending
@[simp] theorem State.postOr_now (s : State) (n : Option Nat) (r : EvRec) : (s.postOr n r).now = s.now := (s.postOr_posts n r).now
@[simp] theorem State.postOr_tickBase (s : State) (n : Option Nat) (r : EvRec) : (s.postOr n r).tickBase = s.tickBase := (s.postOr_posts n r).tickBase
@[simp] theorem State.postOr_draws (s : State) (n : Option Nat) (r : EvRec) : (s.postOr n r).draws = s.draws := (s.postOr_posts n r).draws
@[simp] theorem State.postOr_agenda (s : State) (n : Option Nat) (r : EvRec) : (s.postOr n r).agenda = s.agenda := (s.postOr_posts n r).agenda
@[simp] theorem State.postOr_gapTime (s : State) (n : Option Nat) (r : EvRec) : (s.postOr n r).gapTime = s.gapTime := (s.postOr_posts n r).gapTime
@[simp] theorem State.postOr_phase (s : State) (n : Option Nat) (r : EvRec) : (s.postOr n r).phase = s.phase := (s.postOr_posts n r).phase
@[simp] theorem State.postOr_dram (s : State) (n : Option Nat) (r : EvRec) : (s.postOr n r).dram = s.dram := (s.postOr_posts n r).dram
@[simp] theorem State.postOr_dramUe (s : State) (n : Option Nat) (r : EvRec) : (s.postOr n r).dramUe = s.dramUe := (s.postOr_posts n r).dramUe
@[simp] theorem State.postOr_dramCe (s : State) (n : Option Nat) (r : EvRec) : (s.postOr n r).dramCe = s.dramCe := (s.postOr_posts n r).dramCe
@[simp] theorem State.postOr_hostMem (s : State) (n : Option Nat) (r : EvRec) : (s.postOr n r).hostMem = s.hostMem := (s.postOr_posts n r).hostMem
@[simp] theorem State.postOr_pstore (s : State) (n : Option Nat) (r : EvRec) : (s.postOr n r).pstore = s.pstore := (s.postOr_posts n r).pstore
@[simp] theorem State.postOr_pstoreBad (s : State) (n : Option Nat) (r : EvRec) : (s.postOr n r).pstoreBad = s.pstoreBad := (s.postOr_posts n r).pstoreBad
@[simp] theorem State.postOr_ctxBad (s : State) (n : Option Nat) (r : EvRec) : (s.postOr n r).ctxBad = s.ctxBad := (s.postOr_posts n r).ctxBad
@[simp] theorem State.postOr_seq (s : State) (n : Option Nat) (r : EvRec) : (s.postOr n r).seq = s.seq := (s.postOr_posts n r).seq
@[simp] theorem State.postOr_ctx (s : State) (n : Option Nat) (r : EvRec) : (s.postOr n r).ctx = s.ctx := (s.postOr_posts n r).ctx
@[simp] theorem State.postOr_str (s : State) (n : Option Nat) (r : EvRec) : (s.postOr n r).str = s.str := (s.postOr_posts n r).str
@[simp] theorem State.postOr_ring (s : State) (n : Option Nat) (r : EvRec) : (s.postOr n r).ring = s.ring := (s.postOr_posts n r).ring
@[simp] theorem State.postOr_eng (s : State) (n : Option Nat) (r : EvRec) : (s.postOr n r).eng = s.eng := (s.postOr_posts n r).eng
@[simp] theorem State.postOr_engLast (s : State) (n : Option Nat) (r : EvRec) : (s.postOr n r).engLast = s.engLast := (s.postOr_posts n r).engLast
@[simp] theorem State.postOr_enc (s : State) (n : Option Nat) (r : EvRec) : (s.postOr n r).enc = s.enc := (s.postOr_posts n r).enc
@[simp] theorem State.postOr_place (s : State) (n : Option Nat) (r : EvRec) : (s.postOr n r).place = s.place := (s.postOr_posts n r).place
@[simp] theorem State.postOr_fire (s : State) (n : Option Nat) (r : EvRec) : (s.postOr n r).fire = s.fire := (s.postOr_posts n r).fire
@[simp] theorem State.postOr_fp (s : State) (n : Option Nat) (r : EvRec) : (s.postOr n r).fp = s.fp := (s.postOr_posts n r).fp
@[simp] theorem State.postOr_kl (s : State) (n : Option Nat) (r : EvRec) : (s.postOr n r).kl = s.kl := (s.postOr_posts n r).kl
@[simp] theorem State.postOr_head (s : State) (n : Option Nat) (r : EvRec) : (s.postOr n r).head = s.head := (s.postOr_posts n r).head
@[simp] theorem State.postOr_cam (s : State) (n : Option Nat) (r : EvRec) : (s.postOr n r).cam = s.cam := (s.postOr_posts n r).cam
@[simp] theorem State.postOr_pipe (s : State) (n : Option Nat) (r : EvRec) : (s.postOr n r).pipe = s.pipe := (s.postOr_posts n r).pipe
@[simp] theorem State.postOr_hlt (s : State) (n : Option Nat) (r : EvRec) : (s.postOr n r).hlt = s.hlt := (s.postOr_posts n r).hlt
@[simp] theorem State.postOr_ax (s : State) (n : Option Nat) (r : EvRec) : (s.postOr n r).ax = s.ax := (s.postOr_posts n r).ax
@[simp] theorem State.postOr_keys (s : State) (n : Option Nat) (r : EvRec) : (s.postOr n r).keys = s.keys := (s.postOr_posts n r).keys
@[simp] theorem State.postOr_xlt (s : State) (n : Option Nat) (r : EvRec) : (s.postOr n r).xlt = s.xlt := (s.postOr_posts n r).xlt
@[simp] theorem State.postOr_mgt (s : State) (n : Option Nat) (r : EvRec) : (s.postOr n r).mgt = s.mgt := (s.postOr_posts n r).mgt
@[simp] theorem State.postOr_safe (s : State) (n : Option Nat) (r : EvRec) : (s.postOr n r).safe = s.safe := (s.postOr_posts n r).safe
@[simp] theorem State.postOr_mem (s : State) (n : Option Nat) (r : EvRec) : (s.postOr n r).mem = s.mem := (s.postOr_posts n r).mem
@[simp] theorem State.postOr_tim (s : State) (n : Option Nat) (r : EvRec) : (s.postOr n r).tim = s.tim := (s.postOr_posts n r).tim
@[simp] theorem State.postOr_cal (s : State) (n : Option Nat) (r : EvRec) : (s.postOr n r).cal = s.cal := (s.postOr_posts n r).cal
@[simp] theorem State.postOr_nv (s : State) (n : Option Nat) (r : EvRec) : (s.postOr n r).nv = s.nv := (s.postOr_posts n r).nv
@[simp] theorem State.postOr_pws (s : State) (n : Option Nat) (r : EvRec) : (s.postOr n r).pws = s.pws := (s.postOr_posts n r).pws
@[simp] theorem State.postOr_net (s : State) (n : Option Nat) (r : EvRec) : (s.postOr n r).net = s.net := (s.postOr_posts n r).net
@[simp] theorem State.postUnit_pending (s : State) (u : Nat) (r : EvRec) : (s.postUnit u r).pending = s.pending := (s.postUnit_posts u r).pending
@[simp] theorem State.postUnit_now (s : State) (u : Nat) (r : EvRec) : (s.postUnit u r).now = s.now := (s.postUnit_posts u r).now
@[simp] theorem State.postUnit_tickBase (s : State) (u : Nat) (r : EvRec) : (s.postUnit u r).tickBase = s.tickBase := (s.postUnit_posts u r).tickBase
@[simp] theorem State.postUnit_draws (s : State) (u : Nat) (r : EvRec) : (s.postUnit u r).draws = s.draws := (s.postUnit_posts u r).draws
@[simp] theorem State.postUnit_agenda (s : State) (u : Nat) (r : EvRec) : (s.postUnit u r).agenda = s.agenda := (s.postUnit_posts u r).agenda
@[simp] theorem State.postUnit_gapTime (s : State) (u : Nat) (r : EvRec) : (s.postUnit u r).gapTime = s.gapTime := (s.postUnit_posts u r).gapTime
@[simp] theorem State.postUnit_phase (s : State) (u : Nat) (r : EvRec) : (s.postUnit u r).phase = s.phase := (s.postUnit_posts u r).phase
@[simp] theorem State.postUnit_dram (s : State) (u : Nat) (r : EvRec) : (s.postUnit u r).dram = s.dram := (s.postUnit_posts u r).dram
@[simp] theorem State.postUnit_dramUe (s : State) (u : Nat) (r : EvRec) : (s.postUnit u r).dramUe = s.dramUe := (s.postUnit_posts u r).dramUe
@[simp] theorem State.postUnit_dramCe (s : State) (u : Nat) (r : EvRec) : (s.postUnit u r).dramCe = s.dramCe := (s.postUnit_posts u r).dramCe
@[simp] theorem State.postUnit_hostMem (s : State) (u : Nat) (r : EvRec) : (s.postUnit u r).hostMem = s.hostMem := (s.postUnit_posts u r).hostMem
@[simp] theorem State.postUnit_pstore (s : State) (u : Nat) (r : EvRec) : (s.postUnit u r).pstore = s.pstore := (s.postUnit_posts u r).pstore
@[simp] theorem State.postUnit_pstoreBad (s : State) (u : Nat) (r : EvRec) : (s.postUnit u r).pstoreBad = s.pstoreBad := (s.postUnit_posts u r).pstoreBad
@[simp] theorem State.postUnit_ctxBad (s : State) (u : Nat) (r : EvRec) : (s.postUnit u r).ctxBad = s.ctxBad := (s.postUnit_posts u r).ctxBad
@[simp] theorem State.postUnit_seq (s : State) (u : Nat) (r : EvRec) : (s.postUnit u r).seq = s.seq := (s.postUnit_posts u r).seq
@[simp] theorem State.postUnit_ctx (s : State) (u : Nat) (r : EvRec) : (s.postUnit u r).ctx = s.ctx := (s.postUnit_posts u r).ctx
@[simp] theorem State.postUnit_str (s : State) (u : Nat) (r : EvRec) : (s.postUnit u r).str = s.str := (s.postUnit_posts u r).str
@[simp] theorem State.postUnit_ring (s : State) (u : Nat) (r : EvRec) : (s.postUnit u r).ring = s.ring := (s.postUnit_posts u r).ring
@[simp] theorem State.postUnit_eng (s : State) (u : Nat) (r : EvRec) : (s.postUnit u r).eng = s.eng := (s.postUnit_posts u r).eng
@[simp] theorem State.postUnit_engLast (s : State) (u : Nat) (r : EvRec) : (s.postUnit u r).engLast = s.engLast := (s.postUnit_posts u r).engLast
@[simp] theorem State.postUnit_enc (s : State) (u : Nat) (r : EvRec) : (s.postUnit u r).enc = s.enc := (s.postUnit_posts u r).enc
@[simp] theorem State.postUnit_place (s : State) (u : Nat) (r : EvRec) : (s.postUnit u r).place = s.place := (s.postUnit_posts u r).place
@[simp] theorem State.postUnit_fire (s : State) (u : Nat) (r : EvRec) : (s.postUnit u r).fire = s.fire := (s.postUnit_posts u r).fire
@[simp] theorem State.postUnit_fp (s : State) (u : Nat) (r : EvRec) : (s.postUnit u r).fp = s.fp := (s.postUnit_posts u r).fp
@[simp] theorem State.postUnit_kl (s : State) (u : Nat) (r : EvRec) : (s.postUnit u r).kl = s.kl := (s.postUnit_posts u r).kl
@[simp] theorem State.postUnit_head (s : State) (u : Nat) (r : EvRec) : (s.postUnit u r).head = s.head := (s.postUnit_posts u r).head
@[simp] theorem State.postUnit_cam (s : State) (u : Nat) (r : EvRec) : (s.postUnit u r).cam = s.cam := (s.postUnit_posts u r).cam
@[simp] theorem State.postUnit_pipe (s : State) (u : Nat) (r : EvRec) : (s.postUnit u r).pipe = s.pipe := (s.postUnit_posts u r).pipe
@[simp] theorem State.postUnit_hlt (s : State) (u : Nat) (r : EvRec) : (s.postUnit u r).hlt = s.hlt := (s.postUnit_posts u r).hlt
@[simp] theorem State.postUnit_ax (s : State) (u : Nat) (r : EvRec) : (s.postUnit u r).ax = s.ax := (s.postUnit_posts u r).ax
@[simp] theorem State.postUnit_keys (s : State) (u : Nat) (r : EvRec) : (s.postUnit u r).keys = s.keys := (s.postUnit_posts u r).keys
@[simp] theorem State.postUnit_xlt (s : State) (u : Nat) (r : EvRec) : (s.postUnit u r).xlt = s.xlt := (s.postUnit_posts u r).xlt
@[simp] theorem State.postUnit_mgt (s : State) (u : Nat) (r : EvRec) : (s.postUnit u r).mgt = s.mgt := (s.postUnit_posts u r).mgt
@[simp] theorem State.postUnit_safe (s : State) (u : Nat) (r : EvRec) : (s.postUnit u r).safe = s.safe := (s.postUnit_posts u r).safe
@[simp] theorem State.postUnit_mem (s : State) (u : Nat) (r : EvRec) : (s.postUnit u r).mem = s.mem := (s.postUnit_posts u r).mem
@[simp] theorem State.postUnit_tim (s : State) (u : Nat) (r : EvRec) : (s.postUnit u r).tim = s.tim := (s.postUnit_posts u r).tim
@[simp] theorem State.postUnit_cal (s : State) (u : Nat) (r : EvRec) : (s.postUnit u r).cal = s.cal := (s.postUnit_posts u r).cal
@[simp] theorem State.postUnit_nv (s : State) (u : Nat) (r : EvRec) : (s.postUnit u r).nv = s.nv := (s.postUnit_posts u r).nv
@[simp] theorem State.postUnit_pws (s : State) (u : Nat) (r : EvRec) : (s.postUnit u r).pws = s.pws := (s.postUnit_posts u r).pws
@[simp] theorem State.postUnit_net (s : State) (u : Nat) (r : EvRec) : (s.postUnit u r).net = s.net := (s.postUnit_posts u r).net
@[simp] theorem State.postAll_pending (s : State) (r : EvRec) : (s.postAll r).pending = s.pending := (s.postAll_posts r).pending
@[simp] theorem State.postAll_now (s : State) (r : EvRec) : (s.postAll r).now = s.now := (s.postAll_posts r).now
@[simp] theorem State.postAll_tickBase (s : State) (r : EvRec) : (s.postAll r).tickBase = s.tickBase := (s.postAll_posts r).tickBase
@[simp] theorem State.postAll_draws (s : State) (r : EvRec) : (s.postAll r).draws = s.draws := (s.postAll_posts r).draws
@[simp] theorem State.postAll_agenda (s : State) (r : EvRec) : (s.postAll r).agenda = s.agenda := (s.postAll_posts r).agenda
@[simp] theorem State.postAll_gapTime (s : State) (r : EvRec) : (s.postAll r).gapTime = s.gapTime := (s.postAll_posts r).gapTime
@[simp] theorem State.postAll_phase (s : State) (r : EvRec) : (s.postAll r).phase = s.phase := (s.postAll_posts r).phase
@[simp] theorem State.postAll_dram (s : State) (r : EvRec) : (s.postAll r).dram = s.dram := (s.postAll_posts r).dram
@[simp] theorem State.postAll_dramUe (s : State) (r : EvRec) : (s.postAll r).dramUe = s.dramUe := (s.postAll_posts r).dramUe
@[simp] theorem State.postAll_dramCe (s : State) (r : EvRec) : (s.postAll r).dramCe = s.dramCe := (s.postAll_posts r).dramCe
@[simp] theorem State.postAll_hostMem (s : State) (r : EvRec) : (s.postAll r).hostMem = s.hostMem := (s.postAll_posts r).hostMem
@[simp] theorem State.postAll_pstore (s : State) (r : EvRec) : (s.postAll r).pstore = s.pstore := (s.postAll_posts r).pstore
@[simp] theorem State.postAll_pstoreBad (s : State) (r : EvRec) : (s.postAll r).pstoreBad = s.pstoreBad := (s.postAll_posts r).pstoreBad
@[simp] theorem State.postAll_ctxBad (s : State) (r : EvRec) : (s.postAll r).ctxBad = s.ctxBad := (s.postAll_posts r).ctxBad
@[simp] theorem State.postAll_seq (s : State) (r : EvRec) : (s.postAll r).seq = s.seq := (s.postAll_posts r).seq
@[simp] theorem State.postAll_ctx (s : State) (r : EvRec) : (s.postAll r).ctx = s.ctx := (s.postAll_posts r).ctx
@[simp] theorem State.postAll_str (s : State) (r : EvRec) : (s.postAll r).str = s.str := (s.postAll_posts r).str
@[simp] theorem State.postAll_ring (s : State) (r : EvRec) : (s.postAll r).ring = s.ring := (s.postAll_posts r).ring
@[simp] theorem State.postAll_eng (s : State) (r : EvRec) : (s.postAll r).eng = s.eng := (s.postAll_posts r).eng
@[simp] theorem State.postAll_engLast (s : State) (r : EvRec) : (s.postAll r).engLast = s.engLast := (s.postAll_posts r).engLast
@[simp] theorem State.postAll_enc (s : State) (r : EvRec) : (s.postAll r).enc = s.enc := (s.postAll_posts r).enc
@[simp] theorem State.postAll_place (s : State) (r : EvRec) : (s.postAll r).place = s.place := (s.postAll_posts r).place
@[simp] theorem State.postAll_fire (s : State) (r : EvRec) : (s.postAll r).fire = s.fire := (s.postAll_posts r).fire
@[simp] theorem State.postAll_fp (s : State) (r : EvRec) : (s.postAll r).fp = s.fp := (s.postAll_posts r).fp
@[simp] theorem State.postAll_kl (s : State) (r : EvRec) : (s.postAll r).kl = s.kl := (s.postAll_posts r).kl
@[simp] theorem State.postAll_head (s : State) (r : EvRec) : (s.postAll r).head = s.head := (s.postAll_posts r).head
@[simp] theorem State.postAll_cam (s : State) (r : EvRec) : (s.postAll r).cam = s.cam := (s.postAll_posts r).cam
@[simp] theorem State.postAll_pipe (s : State) (r : EvRec) : (s.postAll r).pipe = s.pipe := (s.postAll_posts r).pipe
@[simp] theorem State.postAll_hlt (s : State) (r : EvRec) : (s.postAll r).hlt = s.hlt := (s.postAll_posts r).hlt
@[simp] theorem State.postAll_ax (s : State) (r : EvRec) : (s.postAll r).ax = s.ax := (s.postAll_posts r).ax
@[simp] theorem State.postAll_keys (s : State) (r : EvRec) : (s.postAll r).keys = s.keys := (s.postAll_posts r).keys
@[simp] theorem State.postAll_xlt (s : State) (r : EvRec) : (s.postAll r).xlt = s.xlt := (s.postAll_posts r).xlt
@[simp] theorem State.postAll_mgt (s : State) (r : EvRec) : (s.postAll r).mgt = s.mgt := (s.postAll_posts r).mgt
@[simp] theorem State.postAll_safe (s : State) (r : EvRec) : (s.postAll r).safe = s.safe := (s.postAll_posts r).safe
@[simp] theorem State.postAll_mem (s : State) (r : EvRec) : (s.postAll r).mem = s.mem := (s.postAll_posts r).mem
@[simp] theorem State.postAll_tim (s : State) (r : EvRec) : (s.postAll r).tim = s.tim := (s.postAll_posts r).tim
@[simp] theorem State.postAll_cal (s : State) (r : EvRec) : (s.postAll r).cal = s.cal := (s.postAll_posts r).cal
@[simp] theorem State.postAll_nv (s : State) (r : EvRec) : (s.postAll r).nv = s.nv := (s.postAll_posts r).nv
@[simp] theorem State.postAll_pws (s : State) (r : EvRec) : (s.postAll r).pws = s.pws := (s.postAll_posts r).pws
@[simp] theorem State.postAll_net (s : State) (r : EvRec) : (s.postAll r).net = s.net := (s.postAll_posts r).net
@[simp] theorem State.postErr_pending (s : State) (n code source : Nat) (d : Word) : (s.postErr n code source d).pending = s.pending := (s.postErr_posts n code source d).pending
@[simp] theorem State.postErr_now (s : State) (n code source : Nat) (d : Word) : (s.postErr n code source d).now = s.now := (s.postErr_posts n code source d).now
@[simp] theorem State.postErr_tickBase (s : State) (n code source : Nat) (d : Word) : (s.postErr n code source d).tickBase = s.tickBase := (s.postErr_posts n code source d).tickBase
@[simp] theorem State.postErr_draws (s : State) (n code source : Nat) (d : Word) : (s.postErr n code source d).draws = s.draws := (s.postErr_posts n code source d).draws
@[simp] theorem State.postErr_agenda (s : State) (n code source : Nat) (d : Word) : (s.postErr n code source d).agenda = s.agenda := (s.postErr_posts n code source d).agenda
@[simp] theorem State.postErr_gapTime (s : State) (n code source : Nat) (d : Word) : (s.postErr n code source d).gapTime = s.gapTime := (s.postErr_posts n code source d).gapTime
@[simp] theorem State.postErr_phase (s : State) (n code source : Nat) (d : Word) : (s.postErr n code source d).phase = s.phase := (s.postErr_posts n code source d).phase
@[simp] theorem State.postErr_dram (s : State) (n code source : Nat) (d : Word) : (s.postErr n code source d).dram = s.dram := (s.postErr_posts n code source d).dram
@[simp] theorem State.postErr_dramUe (s : State) (n code source : Nat) (d : Word) : (s.postErr n code source d).dramUe = s.dramUe := (s.postErr_posts n code source d).dramUe
@[simp] theorem State.postErr_dramCe (s : State) (n code source : Nat) (d : Word) : (s.postErr n code source d).dramCe = s.dramCe := (s.postErr_posts n code source d).dramCe
@[simp] theorem State.postErr_hostMem (s : State) (n code source : Nat) (d : Word) : (s.postErr n code source d).hostMem = s.hostMem := (s.postErr_posts n code source d).hostMem
@[simp] theorem State.postErr_pstore (s : State) (n code source : Nat) (d : Word) : (s.postErr n code source d).pstore = s.pstore := (s.postErr_posts n code source d).pstore
@[simp] theorem State.postErr_pstoreBad (s : State) (n code source : Nat) (d : Word) : (s.postErr n code source d).pstoreBad = s.pstoreBad := (s.postErr_posts n code source d).pstoreBad
@[simp] theorem State.postErr_ctxBad (s : State) (n code source : Nat) (d : Word) : (s.postErr n code source d).ctxBad = s.ctxBad := (s.postErr_posts n code source d).ctxBad
@[simp] theorem State.postErr_seq (s : State) (n code source : Nat) (d : Word) : (s.postErr n code source d).seq = s.seq := (s.postErr_posts n code source d).seq
@[simp] theorem State.postErr_ctx (s : State) (n code source : Nat) (d : Word) : (s.postErr n code source d).ctx = s.ctx := (s.postErr_posts n code source d).ctx
@[simp] theorem State.postErr_str (s : State) (n code source : Nat) (d : Word) : (s.postErr n code source d).str = s.str := (s.postErr_posts n code source d).str
@[simp] theorem State.postErr_ring (s : State) (n code source : Nat) (d : Word) : (s.postErr n code source d).ring = s.ring := (s.postErr_posts n code source d).ring
@[simp] theorem State.postErr_eng (s : State) (n code source : Nat) (d : Word) : (s.postErr n code source d).eng = s.eng := (s.postErr_posts n code source d).eng
@[simp] theorem State.postErr_engLast (s : State) (n code source : Nat) (d : Word) : (s.postErr n code source d).engLast = s.engLast := (s.postErr_posts n code source d).engLast
@[simp] theorem State.postErr_enc (s : State) (n code source : Nat) (d : Word) : (s.postErr n code source d).enc = s.enc := (s.postErr_posts n code source d).enc
@[simp] theorem State.postErr_place (s : State) (n code source : Nat) (d : Word) : (s.postErr n code source d).place = s.place := (s.postErr_posts n code source d).place
@[simp] theorem State.postErr_fire (s : State) (n code source : Nat) (d : Word) : (s.postErr n code source d).fire = s.fire := (s.postErr_posts n code source d).fire
@[simp] theorem State.postErr_fp (s : State) (n code source : Nat) (d : Word) : (s.postErr n code source d).fp = s.fp := (s.postErr_posts n code source d).fp
@[simp] theorem State.postErr_kl (s : State) (n code source : Nat) (d : Word) : (s.postErr n code source d).kl = s.kl := (s.postErr_posts n code source d).kl
@[simp] theorem State.postErr_head (s : State) (n code source : Nat) (d : Word) : (s.postErr n code source d).head = s.head := (s.postErr_posts n code source d).head
@[simp] theorem State.postErr_cam (s : State) (n code source : Nat) (d : Word) : (s.postErr n code source d).cam = s.cam := (s.postErr_posts n code source d).cam
@[simp] theorem State.postErr_pipe (s : State) (n code source : Nat) (d : Word) : (s.postErr n code source d).pipe = s.pipe := (s.postErr_posts n code source d).pipe
@[simp] theorem State.postErr_hlt (s : State) (n code source : Nat) (d : Word) : (s.postErr n code source d).hlt = s.hlt := (s.postErr_posts n code source d).hlt
@[simp] theorem State.postErr_ax (s : State) (n code source : Nat) (d : Word) : (s.postErr n code source d).ax = s.ax := (s.postErr_posts n code source d).ax
@[simp] theorem State.postErr_keys (s : State) (n code source : Nat) (d : Word) : (s.postErr n code source d).keys = s.keys := (s.postErr_posts n code source d).keys
@[simp] theorem State.postErr_xlt (s : State) (n code source : Nat) (d : Word) : (s.postErr n code source d).xlt = s.xlt := (s.postErr_posts n code source d).xlt
@[simp] theorem State.postErr_mgt (s : State) (n code source : Nat) (d : Word) : (s.postErr n code source d).mgt = s.mgt := (s.postErr_posts n code source d).mgt
@[simp] theorem State.postErr_safe (s : State) (n code source : Nat) (d : Word) : (s.postErr n code source d).safe = s.safe := (s.postErr_posts n code source d).safe
@[simp] theorem State.postErr_mem (s : State) (n code source : Nat) (d : Word) : (s.postErr n code source d).mem = s.mem := (s.postErr_posts n code source d).mem
@[simp] theorem State.postErr_tim (s : State) (n code source : Nat) (d : Word) : (s.postErr n code source d).tim = s.tim := (s.postErr_posts n code source d).tim
@[simp] theorem State.postErr_cal (s : State) (n code source : Nat) (d : Word) : (s.postErr n code source d).cal = s.cal := (s.postErr_posts n code source d).cal
@[simp] theorem State.postErr_nv (s : State) (n code source : Nat) (d : Word) : (s.postErr n code source d).nv = s.nv := (s.postErr_posts n code source d).nv
@[simp] theorem State.postErr_pws (s : State) (n code source : Nat) (d : Word) : (s.postErr n code source d).pws = s.pws := (s.postErr_posts n code source d).pws
@[simp] theorem State.postErr_net (s : State) (n code source : Nat) (d : Word) : (s.postErr n code source d).net = s.net := (s.postErr_posts n code source d).net
@[simp] theorem State.postSteward_pending (s : State) (r : EvRec) : (s.postSteward r).pending = s.pending := (s.postSteward_posts r).pending
@[simp] theorem State.postSteward_now (s : State) (r : EvRec) : (s.postSteward r).now = s.now := (s.postSteward_posts r).now
@[simp] theorem State.postSteward_tickBase (s : State) (r : EvRec) : (s.postSteward r).tickBase = s.tickBase := (s.postSteward_posts r).tickBase
@[simp] theorem State.postSteward_draws (s : State) (r : EvRec) : (s.postSteward r).draws = s.draws := (s.postSteward_posts r).draws
@[simp] theorem State.postSteward_agenda (s : State) (r : EvRec) : (s.postSteward r).agenda = s.agenda := (s.postSteward_posts r).agenda
@[simp] theorem State.postSteward_gapTime (s : State) (r : EvRec) : (s.postSteward r).gapTime = s.gapTime := (s.postSteward_posts r).gapTime
@[simp] theorem State.postSteward_phase (s : State) (r : EvRec) : (s.postSteward r).phase = s.phase := (s.postSteward_posts r).phase
@[simp] theorem State.postSteward_dram (s : State) (r : EvRec) : (s.postSteward r).dram = s.dram := (s.postSteward_posts r).dram
@[simp] theorem State.postSteward_dramUe (s : State) (r : EvRec) : (s.postSteward r).dramUe = s.dramUe := (s.postSteward_posts r).dramUe
@[simp] theorem State.postSteward_dramCe (s : State) (r : EvRec) : (s.postSteward r).dramCe = s.dramCe := (s.postSteward_posts r).dramCe
@[simp] theorem State.postSteward_hostMem (s : State) (r : EvRec) : (s.postSteward r).hostMem = s.hostMem := (s.postSteward_posts r).hostMem
@[simp] theorem State.postSteward_pstore (s : State) (r : EvRec) : (s.postSteward r).pstore = s.pstore := (s.postSteward_posts r).pstore
@[simp] theorem State.postSteward_pstoreBad (s : State) (r : EvRec) : (s.postSteward r).pstoreBad = s.pstoreBad := (s.postSteward_posts r).pstoreBad
@[simp] theorem State.postSteward_ctxBad (s : State) (r : EvRec) : (s.postSteward r).ctxBad = s.ctxBad := (s.postSteward_posts r).ctxBad
@[simp] theorem State.postSteward_seq (s : State) (r : EvRec) : (s.postSteward r).seq = s.seq := (s.postSteward_posts r).seq
@[simp] theorem State.postSteward_ctx (s : State) (r : EvRec) : (s.postSteward r).ctx = s.ctx := (s.postSteward_posts r).ctx
@[simp] theorem State.postSteward_str (s : State) (r : EvRec) : (s.postSteward r).str = s.str := (s.postSteward_posts r).str
@[simp] theorem State.postSteward_ring (s : State) (r : EvRec) : (s.postSteward r).ring = s.ring := (s.postSteward_posts r).ring
@[simp] theorem State.postSteward_eng (s : State) (r : EvRec) : (s.postSteward r).eng = s.eng := (s.postSteward_posts r).eng
@[simp] theorem State.postSteward_engLast (s : State) (r : EvRec) : (s.postSteward r).engLast = s.engLast := (s.postSteward_posts r).engLast
@[simp] theorem State.postSteward_enc (s : State) (r : EvRec) : (s.postSteward r).enc = s.enc := (s.postSteward_posts r).enc
@[simp] theorem State.postSteward_place (s : State) (r : EvRec) : (s.postSteward r).place = s.place := (s.postSteward_posts r).place
@[simp] theorem State.postSteward_fire (s : State) (r : EvRec) : (s.postSteward r).fire = s.fire := (s.postSteward_posts r).fire
@[simp] theorem State.postSteward_fp (s : State) (r : EvRec) : (s.postSteward r).fp = s.fp := (s.postSteward_posts r).fp
@[simp] theorem State.postSteward_kl (s : State) (r : EvRec) : (s.postSteward r).kl = s.kl := (s.postSteward_posts r).kl
@[simp] theorem State.postSteward_head (s : State) (r : EvRec) : (s.postSteward r).head = s.head := (s.postSteward_posts r).head
@[simp] theorem State.postSteward_cam (s : State) (r : EvRec) : (s.postSteward r).cam = s.cam := (s.postSteward_posts r).cam
@[simp] theorem State.postSteward_pipe (s : State) (r : EvRec) : (s.postSteward r).pipe = s.pipe := (s.postSteward_posts r).pipe
@[simp] theorem State.postSteward_hlt (s : State) (r : EvRec) : (s.postSteward r).hlt = s.hlt := (s.postSteward_posts r).hlt
@[simp] theorem State.postSteward_ax (s : State) (r : EvRec) : (s.postSteward r).ax = s.ax := (s.postSteward_posts r).ax
@[simp] theorem State.postSteward_keys (s : State) (r : EvRec) : (s.postSteward r).keys = s.keys := (s.postSteward_posts r).keys
@[simp] theorem State.postSteward_xlt (s : State) (r : EvRec) : (s.postSteward r).xlt = s.xlt := (s.postSteward_posts r).xlt
@[simp] theorem State.postSteward_mgt (s : State) (r : EvRec) : (s.postSteward r).mgt = s.mgt := (s.postSteward_posts r).mgt
@[simp] theorem State.postSteward_safe (s : State) (r : EvRec) : (s.postSteward r).safe = s.safe := (s.postSteward_posts r).safe
@[simp] theorem State.postSteward_mem (s : State) (r : EvRec) : (s.postSteward r).mem = s.mem := (s.postSteward_posts r).mem
@[simp] theorem State.postSteward_tim (s : State) (r : EvRec) : (s.postSteward r).tim = s.tim := (s.postSteward_posts r).tim
@[simp] theorem State.postSteward_cal (s : State) (r : EvRec) : (s.postSteward r).cal = s.cal := (s.postSteward_posts r).cal
@[simp] theorem State.postSteward_nv (s : State) (r : EvRec) : (s.postSteward r).nv = s.nv := (s.postSteward_posts r).nv
@[simp] theorem State.postSteward_pws (s : State) (r : EvRec) : (s.postSteward r).pws = s.pws := (s.postSteward_posts r).pws
@[simp] theorem State.postSteward_net (s : State) (r : EvRec) : (s.postSteward r).net = s.net := (s.postSteward_posts r).net

theorem State.ctxOf_eq {s t : State} (h : t.ctx = s.ctx) (q c : Nat) : t.ctxOf q c = s.ctxOf q c := by
  unfold State.ctxOf
  rw [h]

/-! ## Reading a word of the die's memory -/

/-- From s to t records were posted, and the counts of memory errors changed. -/
def Reads (s t : State) : Prop := t = { s with sess := t.sess, msix := t.msix, out := t.out, mem := t.mem }

namespace Reads

theorem refl (s : State) : Reads s s := rfl

theorem trans {s t u : State} (h : Reads s t) (h' : Reads t u) : Reads s u := by
  unfold Reads at h h' ⊢
  rw [h', h]

theorem ofPosts {s t : State} (h : Posts s t) : Reads s t := by
  have e := h.mem
  unfold Posts at h
  unfold Reads
  rw [h]

theorem each {α : Type} {f : State → α → State} (hf : ∀ u a, Reads u (f u a)) :
    ∀ (l : List α) {s t : State}, Reads s t → Reads s (t.each l f)
  | [], _, _, h => h
  | a :: l, _, t, h => each hf l (h.trans (hf t a))

theorem pending {s t : State} (h : Reads s t) : t.pending = s.pending := (congrArg State.pending h).trans rfl
theorem now {s t : State} (h : Reads s t) : t.now = s.now := (congrArg State.now h).trans rfl
theorem tickBase {s t : State} (h : Reads s t) : t.tickBase = s.tickBase := (congrArg State.tickBase h).trans rfl
theorem draws {s t : State} (h : Reads s t) : t.draws = s.draws := (congrArg State.draws h).trans rfl
theorem agenda {s t : State} (h : Reads s t) : t.agenda = s.agenda := (congrArg State.agenda h).trans rfl
theorem gapTime {s t : State} (h : Reads s t) : t.gapTime = s.gapTime := (congrArg State.gapTime h).trans rfl
theorem phase {s t : State} (h : Reads s t) : t.phase = s.phase := (congrArg State.phase h).trans rfl
theorem dram {s t : State} (h : Reads s t) : t.dram = s.dram := (congrArg State.dram h).trans rfl
theorem dramUe {s t : State} (h : Reads s t) : t.dramUe = s.dramUe := (congrArg State.dramUe h).trans rfl
theorem dramCe {s t : State} (h : Reads s t) : t.dramCe = s.dramCe := (congrArg State.dramCe h).trans rfl
theorem hostMem {s t : State} (h : Reads s t) : t.hostMem = s.hostMem := (congrArg State.hostMem h).trans rfl
theorem pstore {s t : State} (h : Reads s t) : t.pstore = s.pstore := (congrArg State.pstore h).trans rfl
theorem pstoreBad {s t : State} (h : Reads s t) : t.pstoreBad = s.pstoreBad := (congrArg State.pstoreBad h).trans rfl
theorem ctxBad {s t : State} (h : Reads s t) : t.ctxBad = s.ctxBad := (congrArg State.ctxBad h).trans rfl
theorem seq {s t : State} (h : Reads s t) : t.seq = s.seq := (congrArg State.seq h).trans rfl
theorem ctx {s t : State} (h : Reads s t) : t.ctx = s.ctx := (congrArg State.ctx h).trans rfl
theorem str {s t : State} (h : Reads s t) : t.str = s.str := (congrArg State.str h).trans rfl
theorem ring {s t : State} (h : Reads s t) : t.ring = s.ring := (congrArg State.ring h).trans rfl
theorem eng {s t : State} (h : Reads s t) : t.eng = s.eng := (congrArg State.eng h).trans rfl
theorem engLast {s t : State} (h : Reads s t) : t.engLast = s.engLast := (congrArg State.engLast h).trans rfl
theorem enc {s t : State} (h : Reads s t) : t.enc = s.enc := (congrArg State.enc h).trans rfl
theorem place {s t : State} (h : Reads s t) : t.place = s.place := (congrArg State.place h).trans rfl
theorem fire {s t : State} (h : Reads s t) : t.fire = s.fire := (congrArg State.fire h).trans rfl
theorem fp {s t : State} (h : Reads s t) : t.fp = s.fp := (congrArg State.fp h).trans rfl
theorem kl {s t : State} (h : Reads s t) : t.kl = s.kl := (congrArg State.kl h).trans rfl
theorem head {s t : State} (h : Reads s t) : t.head = s.head := (congrArg State.head h).trans rfl
theorem cam {s t : State} (h : Reads s t) : t.cam = s.cam := (congrArg State.cam h).trans rfl
theorem pipe {s t : State} (h : Reads s t) : t.pipe = s.pipe := (congrArg State.pipe h).trans rfl
theorem hlt {s t : State} (h : Reads s t) : t.hlt = s.hlt := (congrArg State.hlt h).trans rfl
theorem ax {s t : State} (h : Reads s t) : t.ax = s.ax := (congrArg State.ax h).trans rfl
theorem keys {s t : State} (h : Reads s t) : t.keys = s.keys := (congrArg State.keys h).trans rfl
theorem xlt {s t : State} (h : Reads s t) : t.xlt = s.xlt := (congrArg State.xlt h).trans rfl
theorem mgt {s t : State} (h : Reads s t) : t.mgt = s.mgt := (congrArg State.mgt h).trans rfl
theorem safe {s t : State} (h : Reads s t) : t.safe = s.safe := (congrArg State.safe h).trans rfl
theorem tim {s t : State} (h : Reads s t) : t.tim = s.tim := (congrArg State.tim h).trans rfl
theorem cal {s t : State} (h : Reads s t) : t.cal = s.cal := (congrArg State.cal h).trans rfl
theorem nv {s t : State} (h : Reads s t) : t.nv = s.nv := (congrArg State.nv h).trans rfl
theorem pws {s t : State} (h : Reads s t) : t.pws = s.pws := (congrArg State.pws h).trans rfl
theorem net {s t : State} (h : Reads s t) : t.net = s.net := (congrArg State.net h).trans rfl

end Reads

theorem State.modMem_reads (s : State) (f : MemSt → MemSt) : Reads s (s.modMem f) := rfl

theorem State.sramCeHit_reads (s : State) (w k b : Nat) : Reads s (s.sramCeHit w k b) := by
  unfold State.sramCeHit
  dsimp only
  exact (s.modMem_reads _).trans (Reads.ofPosts (Posts.when (Posts.refl _) fun u => u.postAll_posts _))

theorem State.sramRead_reads (s : State) (w n : Nat) : Reads s (s.sramRead w n) := by
  unfold State.sramRead
  exact (Reads.each (fun u x => u.sramCeHit_reads _ _ _) _ (Reads.refl s)).trans (State.modMem_reads _ _)

@[simp] theorem State.sramRead_pending (s : State) (w n : Nat) : (s.sramRead w n).pending = s.pending := (s.sramRead_reads w n).pending
@[simp] theorem State.sramRead_now (s : State) (w n : Nat) : (s.sramRead w n).now = s.now := (s.sramRead_reads w n).now
@[simp] theorem State.sramRead_tickBase (s : State) (w n : Nat) : (s.sramRead w n).tickBase = s.tickBase := (s.sramRead_reads w n).tickBase
@[simp] theorem State.sramRead_draws (s : State) (w n : Nat) : (s.sramRead w n).draws = s.draws := (s.sramRead_reads w n).draws
@[simp] theorem State.sramRead_agenda (s : State) (w n : Nat) : (s.sramRead w n).agenda = s.agenda := (s.sramRead_reads w n).agenda
@[simp] theorem State.sramRead_gapTime (s : State) (w n : Nat) : (s.sramRead w n).gapTime = s.gapTime := (s.sramRead_reads w n).gapTime
@[simp] theorem State.sramRead_phase (s : State) (w n : Nat) : (s.sramRead w n).phase = s.phase := (s.sramRead_reads w n).phase
@[simp] theorem State.sramRead_dram (s : State) (w n : Nat) : (s.sramRead w n).dram = s.dram := (s.sramRead_reads w n).dram
@[simp] theorem State.sramRead_dramUe (s : State) (w n : Nat) : (s.sramRead w n).dramUe = s.dramUe := (s.sramRead_reads w n).dramUe
@[simp] theorem State.sramRead_dramCe (s : State) (w n : Nat) : (s.sramRead w n).dramCe = s.dramCe := (s.sramRead_reads w n).dramCe
@[simp] theorem State.sramRead_hostMem (s : State) (w n : Nat) : (s.sramRead w n).hostMem = s.hostMem := (s.sramRead_reads w n).hostMem
@[simp] theorem State.sramRead_pstore (s : State) (w n : Nat) : (s.sramRead w n).pstore = s.pstore := (s.sramRead_reads w n).pstore
@[simp] theorem State.sramRead_pstoreBad (s : State) (w n : Nat) : (s.sramRead w n).pstoreBad = s.pstoreBad := (s.sramRead_reads w n).pstoreBad
@[simp] theorem State.sramRead_ctxBad (s : State) (w n : Nat) : (s.sramRead w n).ctxBad = s.ctxBad := (s.sramRead_reads w n).ctxBad
@[simp] theorem State.sramRead_seq (s : State) (w n : Nat) : (s.sramRead w n).seq = s.seq := (s.sramRead_reads w n).seq
@[simp] theorem State.sramRead_ctx (s : State) (w n : Nat) : (s.sramRead w n).ctx = s.ctx := (s.sramRead_reads w n).ctx
@[simp] theorem State.sramRead_str (s : State) (w n : Nat) : (s.sramRead w n).str = s.str := (s.sramRead_reads w n).str
@[simp] theorem State.sramRead_ring (s : State) (w n : Nat) : (s.sramRead w n).ring = s.ring := (s.sramRead_reads w n).ring
@[simp] theorem State.sramRead_eng (s : State) (w n : Nat) : (s.sramRead w n).eng = s.eng := (s.sramRead_reads w n).eng
@[simp] theorem State.sramRead_engLast (s : State) (w n : Nat) : (s.sramRead w n).engLast = s.engLast := (s.sramRead_reads w n).engLast
@[simp] theorem State.sramRead_enc (s : State) (w n : Nat) : (s.sramRead w n).enc = s.enc := (s.sramRead_reads w n).enc
@[simp] theorem State.sramRead_place (s : State) (w n : Nat) : (s.sramRead w n).place = s.place := (s.sramRead_reads w n).place
@[simp] theorem State.sramRead_fire (s : State) (w n : Nat) : (s.sramRead w n).fire = s.fire := (s.sramRead_reads w n).fire
@[simp] theorem State.sramRead_fp (s : State) (w n : Nat) : (s.sramRead w n).fp = s.fp := (s.sramRead_reads w n).fp
@[simp] theorem State.sramRead_kl (s : State) (w n : Nat) : (s.sramRead w n).kl = s.kl := (s.sramRead_reads w n).kl
@[simp] theorem State.sramRead_head (s : State) (w n : Nat) : (s.sramRead w n).head = s.head := (s.sramRead_reads w n).head
@[simp] theorem State.sramRead_cam (s : State) (w n : Nat) : (s.sramRead w n).cam = s.cam := (s.sramRead_reads w n).cam
@[simp] theorem State.sramRead_pipe (s : State) (w n : Nat) : (s.sramRead w n).pipe = s.pipe := (s.sramRead_reads w n).pipe
@[simp] theorem State.sramRead_hlt (s : State) (w n : Nat) : (s.sramRead w n).hlt = s.hlt := (s.sramRead_reads w n).hlt
@[simp] theorem State.sramRead_ax (s : State) (w n : Nat) : (s.sramRead w n).ax = s.ax := (s.sramRead_reads w n).ax
@[simp] theorem State.sramRead_keys (s : State) (w n : Nat) : (s.sramRead w n).keys = s.keys := (s.sramRead_reads w n).keys
@[simp] theorem State.sramRead_xlt (s : State) (w n : Nat) : (s.sramRead w n).xlt = s.xlt := (s.sramRead_reads w n).xlt
@[simp] theorem State.sramRead_mgt (s : State) (w n : Nat) : (s.sramRead w n).mgt = s.mgt := (s.sramRead_reads w n).mgt
@[simp] theorem State.sramRead_safe (s : State) (w n : Nat) : (s.sramRead w n).safe = s.safe := (s.sramRead_reads w n).safe
@[simp] theorem State.sramRead_tim (s : State) (w n : Nat) : (s.sramRead w n).tim = s.tim := (s.sramRead_reads w n).tim
@[simp] theorem State.sramRead_cal (s : State) (w n : Nat) : (s.sramRead w n).cal = s.cal := (s.sramRead_reads w n).cal
@[simp] theorem State.sramRead_nv (s : State) (w n : Nat) : (s.sramRead w n).nv = s.nv := (s.sramRead_reads w n).nv
@[simp] theorem State.sramRead_pws (s : State) (w n : Nat) : (s.sramRead w n).pws = s.pws := (s.sramRead_reads w n).pws
@[simp] theorem State.sramRead_net (s : State) (w n : Nat) : (s.sramRead w n).net = s.net := (s.sramRead_reads w n).net

/-! ## The arrival of a command -/

theorem State.each_field {α β : Type} {f : State → α → State} {g : State → β} (hf : ∀ u a, g (f u a) = g u) :
    ∀ (l : List α) (s : State), g (s.each l f) = g s
  | [], _ => rfl
  | a :: l, s => (each_field hf l (f s a)).trans (hf s a)

/-- The axes after some cycles of STEPCLK: nothing else changed. -/
theorem State.advanceAxes_ax (s : State) (k : Nat) : s.advanceAxes k = { s with ax := (s.advanceAxes k).ax } := by
  have h : ∀ (l : List Nat) (f : State → Nat → State), (∀ v a, f v a = { v with ax := (f v a).ax }) →
      ∀ u : State, u.each l f = { u with ax := (u.each l f).ax } := by
    intro l f hf
    induction l with
    | nil => exact fun u => rfl
    | cons a l ih =>
      intro u
      have h1 := ih (f u a)
      rw [show u.each (a :: l) f = (f u a).each l f from rfl]
      generalize (f u a).each l f = w at h1
      rw [h1, hf u a]
  unfold State.advanceAxes
  refine h _ _ (fun v a => ?_) s
  dsimp only
  split
  · rfl
  · split <;> rfl

/-- Time passes: the instant, the device time and the axes change, nothing else. -/
theorem State.passTo_eq (s : State) (t : Nat) :
    s.passTo t = { s with now := max s.now t, tim := (s.passTo t).tim, ax := (s.passTo t).ax } := by
  have h : ∀ u : State, u = { s with now := max s.now t, tim := u.tim } → ∀ k,
      u.advanceAxes k = { s with now := max s.now t, tim := (u.advanceAxes k).tim, ax := (u.advanceAxes k).ax } := by
    intro u hu k
    rw [u.advanceAxes_ax k]
    generalize (u.advanceAxes k).ax = x
    rw [hu]
  unfold State.passTo
  refine h _ ?_ _
  dsimp only
  split
  · rfl
  · split <;> rfl

@[simp] theorem State.passTo_pending (s : State) (t : Nat) : (s.passTo t).pending = s.pending := (congrArg State.pending (s.passTo_eq t)).trans rfl
@[simp] theorem State.passTo_tickBase (s : State) (t : Nat) : (s.passTo t).tickBase = s.tickBase := (congrArg State.tickBase (s.passTo_eq t)).trans rfl
@[simp] theorem State.passTo_out (s : State) (t : Nat) : (s.passTo t).out = s.out := (congrArg State.out (s.passTo_eq t)).trans rfl
@[simp] theorem State.passTo_draws (s : State) (t : Nat) : (s.passTo t).draws = s.draws := (congrArg State.draws (s.passTo_eq t)).trans rfl
@[simp] theorem State.passTo_agenda (s : State) (t : Nat) : (s.passTo t).agenda = s.agenda := (congrArg State.agenda (s.passTo_eq t)).trans rfl
@[simp] theorem State.passTo_gapTime (s : State) (t : Nat) : (s.passTo t).gapTime = s.gapTime := (congrArg State.gapTime (s.passTo_eq t)).trans rfl
@[simp] theorem State.passTo_phase (s : State) (t : Nat) : (s.passTo t).phase = s.phase := (congrArg State.phase (s.passTo_eq t)).trans rfl
@[simp] theorem State.passTo_dram (s : State) (t : Nat) : (s.passTo t).dram = s.dram := (congrArg State.dram (s.passTo_eq t)).trans rfl
@[simp] theorem State.passTo_dramUe (s : State) (t : Nat) : (s.passTo t).dramUe = s.dramUe := (congrArg State.dramUe (s.passTo_eq t)).trans rfl
@[simp] theorem State.passTo_dramCe (s : State) (t : Nat) : (s.passTo t).dramCe = s.dramCe := (congrArg State.dramCe (s.passTo_eq t)).trans rfl
@[simp] theorem State.passTo_hostMem (s : State) (t : Nat) : (s.passTo t).hostMem = s.hostMem := (congrArg State.hostMem (s.passTo_eq t)).trans rfl
@[simp] theorem State.passTo_pstore (s : State) (t : Nat) : (s.passTo t).pstore = s.pstore := (congrArg State.pstore (s.passTo_eq t)).trans rfl
@[simp] theorem State.passTo_pstoreBad (s : State) (t : Nat) : (s.passTo t).pstoreBad = s.pstoreBad := (congrArg State.pstoreBad (s.passTo_eq t)).trans rfl
@[simp] theorem State.passTo_ctxBad (s : State) (t : Nat) : (s.passTo t).ctxBad = s.ctxBad := (congrArg State.ctxBad (s.passTo_eq t)).trans rfl
@[simp] theorem State.passTo_seq (s : State) (t : Nat) : (s.passTo t).seq = s.seq := (congrArg State.seq (s.passTo_eq t)).trans rfl
@[simp] theorem State.passTo_ctx (s : State) (t : Nat) : (s.passTo t).ctx = s.ctx := (congrArg State.ctx (s.passTo_eq t)).trans rfl
@[simp] theorem State.passTo_str (s : State) (t : Nat) : (s.passTo t).str = s.str := (congrArg State.str (s.passTo_eq t)).trans rfl
@[simp] theorem State.passTo_ring (s : State) (t : Nat) : (s.passTo t).ring = s.ring := (congrArg State.ring (s.passTo_eq t)).trans rfl
@[simp] theorem State.passTo_eng (s : State) (t : Nat) : (s.passTo t).eng = s.eng := (congrArg State.eng (s.passTo_eq t)).trans rfl
@[simp] theorem State.passTo_engLast (s : State) (t : Nat) : (s.passTo t).engLast = s.engLast := (congrArg State.engLast (s.passTo_eq t)).trans rfl
@[simp] theorem State.passTo_enc (s : State) (t : Nat) : (s.passTo t).enc = s.enc := (congrArg State.enc (s.passTo_eq t)).trans rfl
@[simp] theorem State.passTo_place (s : State) (t : Nat) : (s.passTo t).place = s.place := (congrArg State.place (s.passTo_eq t)).trans rfl
@[simp] theorem State.passTo_fire (s : State) (t : Nat) : (s.passTo t).fire = s.fire := (congrArg State.fire (s.passTo_eq t)).trans rfl
@[simp] theorem State.passTo_fp (s : State) (t : Nat) : (s.passTo t).fp = s.fp := (congrArg State.fp (s.passTo_eq t)).trans rfl
@[simp] theorem State.passTo_kl (s : State) (t : Nat) : (s.passTo t).kl = s.kl := (congrArg State.kl (s.passTo_eq t)).trans rfl
@[simp] theorem State.passTo_head (s : State) (t : Nat) : (s.passTo t).head = s.head := (congrArg State.head (s.passTo_eq t)).trans rfl
@[simp] theorem State.passTo_cam (s : State) (t : Nat) : (s.passTo t).cam = s.cam := (congrArg State.cam (s.passTo_eq t)).trans rfl
@[simp] theorem State.passTo_pipe (s : State) (t : Nat) : (s.passTo t).pipe = s.pipe := (congrArg State.pipe (s.passTo_eq t)).trans rfl
@[simp] theorem State.passTo_hlt (s : State) (t : Nat) : (s.passTo t).hlt = s.hlt := (congrArg State.hlt (s.passTo_eq t)).trans rfl
@[simp] theorem State.passTo_sess (s : State) (t : Nat) : (s.passTo t).sess = s.sess := (congrArg State.sess (s.passTo_eq t)).trans rfl
@[simp] theorem State.passTo_keys (s : State) (t : Nat) : (s.passTo t).keys = s.keys := (congrArg State.keys (s.passTo_eq t)).trans rfl
@[simp] theorem State.passTo_xlt (s : State) (t : Nat) : (s.passTo t).xlt = s.xlt := (congrArg State.xlt (s.passTo_eq t)).trans rfl
@[simp] theorem State.passTo_mgt (s : State) (t : Nat) : (s.passTo t).mgt = s.mgt := (congrArg State.mgt (s.passTo_eq t)).trans rfl
@[simp] theorem State.passTo_safe (s : State) (t : Nat) : (s.passTo t).safe = s.safe := (congrArg State.safe (s.passTo_eq t)).trans rfl
@[simp] theorem State.passTo_mem (s : State) (t : Nat) : (s.passTo t).mem = s.mem := (congrArg State.mem (s.passTo_eq t)).trans rfl
@[simp] theorem State.passTo_cal (s : State) (t : Nat) : (s.passTo t).cal = s.cal := (congrArg State.cal (s.passTo_eq t)).trans rfl
@[simp] theorem State.passTo_nv (s : State) (t : Nat) : (s.passTo t).nv = s.nv := (congrArg State.nv (s.passTo_eq t)).trans rfl
@[simp] theorem State.passTo_pws (s : State) (t : Nat) : (s.passTo t).pws = s.pws := (congrArg State.pws (s.passTo_eq t)).trans rfl
@[simp] theorem State.passTo_msix (s : State) (t : Nat) : (s.passTo t).msix = s.msix := (congrArg State.msix (s.passTo_eq t)).trans rfl
@[simp] theorem State.passTo_net (s : State) (t : Nat) : (s.passTo t).net = s.net := (congrArg State.net (s.passTo_eq t)).trans rfl
@[simp] theorem State.passTo_now (s : State) (t : Nat) : (s.passTo t).now = max s.now t :=
  (congrArg State.now (s.passTo_eq t)).trans rfl

theorem State.evFlushAll_calm {s : State} (h : ∀ n : Fin 256, (s.ses n).evq.fresh = 0) : s.evFlushAll = s := by
  have e : s.sess.toList.zipIdx.filter (fun x => 0 < x.1.evq.fresh) = [] := by
    rw [List.filter_eq_nil_iff]
    intro x hx
    obtain ⟨i, hi, rfl⟩ := List.getElem_of_mem hx
    have hi' : i < 256 := by simpa using hi
    have := h ⟨i, hi'⟩
    simp only [State.ses, vget, hi', dif_pos] at this
    simp [this]
  unfold State.evFlushAll
  rw [e]
  rfl

theorem State.settle_calm {s : State} (h : s.agenda = []) (t : Nat) : s.settle t = s := by
  unfold State.settle
  rw [h]
  rfl

/-- A command that finds nothing on its way: time passes, and the hosts write. -/
theorem State.arrive_calm {s : State} (h : s.Calm) (e : Env) :
    s.arrive e = { ({ s with out := [] } : State).passTo (s.now + e.dt) with
      hostMem := e.hostWrites.foldl (fun m (w : HostWrite) => vmod m w.fn (fun l => memPut l w.addr w.byte)) s.hostMem } := by
  have h1 : ({ s with out := [] } : State).evFlushAll = { s with out := [] } := State.evFlushAll_calm h.2
  have h2 : ({ s with out := [] } : State).settle (s.now + e.dt) = { s with out := [] } := State.settle_calm (s := { s with out := [] }) h.1 _
  unfold State.arrive
  dsimp only
  rw [h1, ite_self, h2]
  simp

@[simp] theorem State.arrive_now_calm {s : State} (h : s.Calm) (e : Env) : (s.arrive e).now = s.now + e.dt := by
  rw [State.arrive_calm h]
  simp

@[simp] theorem State.arrive_out_calm {s : State} (h : s.Calm) (e : Env) : (s.arrive e).out = [] := by
  rw [State.arrive_calm h]
  simp

@[simp] theorem State.arrive_pending_calm {s : State} (h : s.Calm) (e : Env) : (s.arrive e).pending = s.pending := by
  rw [State.arrive_calm h]
  simp
@[simp] theorem State.arrive_tickBase_calm {s : State} (h : s.Calm) (e : Env) : (s.arrive e).tickBase = s.tickBase := by
  rw [State.arrive_calm h]
  simp
@[simp] theorem State.arrive_draws_calm {s : State} (h : s.Calm) (e : Env) : (s.arrive e).draws = s.draws := by
  rw [State.arrive_calm h]
  simp
@[simp] theorem State.arrive_agenda_calm {s : State} (h : s.Calm) (e : Env) : (s.arrive e).agenda = s.agenda := by
  rw [State.arrive_calm h]
  simp
@[simp] theorem State.arrive_gapTime_calm {s : State} (h : s.Calm) (e : Env) : (s.arrive e).gapTime = s.gapTime := by
  rw [State.arrive_calm h]
  simp
@[simp] theorem State.arrive_phase_calm {s : State} (h : s.Calm) (e : Env) : (s.arrive e).phase = s.phase := by
  rw [State.arrive_calm h]
  simp
@[simp] theorem State.arrive_dram_calm {s : State} (h : s.Calm) (e : Env) : (s.arrive e).dram = s.dram := by
  rw [State.arrive_calm h]
  simp
@[simp] theorem State.arrive_dramUe_calm {s : State} (h : s.Calm) (e : Env) : (s.arrive e).dramUe = s.dramUe := by
  rw [State.arrive_calm h]
  simp
@[simp] theorem State.arrive_dramCe_calm {s : State} (h : s.Calm) (e : Env) : (s.arrive e).dramCe = s.dramCe := by
  rw [State.arrive_calm h]
  simp
@[simp] theorem State.arrive_pstore_calm {s : State} (h : s.Calm) (e : Env) : (s.arrive e).pstore = s.pstore := by
  rw [State.arrive_calm h]
  simp
@[simp] theorem State.arrive_pstoreBad_calm {s : State} (h : s.Calm) (e : Env) : (s.arrive e).pstoreBad = s.pstoreBad := by
  rw [State.arrive_calm h]
  simp
@[simp] theorem State.arrive_ctxBad_calm {s : State} (h : s.Calm) (e : Env) : (s.arrive e).ctxBad = s.ctxBad := by
  rw [State.arrive_calm h]
  simp
@[simp] theorem State.arrive_seq_calm {s : State} (h : s.Calm) (e : Env) : (s.arrive e).seq = s.seq := by
  rw [State.arrive_calm h]
  simp
@[simp] theorem State.arrive_ctx_calm {s : State} (h : s.Calm) (e : Env) : (s.arrive e).ctx = s.ctx := by
  rw [State.arrive_calm h]
  simp
@[simp] theorem State.arrive_str_calm {s : State} (h : s.Calm) (e : Env) : (s.arrive e).str = s.str := by
  rw [State.arrive_calm h]
  simp
@[simp] theorem State.arrive_ring_calm {s : State} (h : s.Calm) (e : Env) : (s.arrive e).ring = s.ring := by
  rw [State.arrive_calm h]
  simp
@[simp] theorem State.arrive_eng_calm {s : State} (h : s.Calm) (e : Env) : (s.arrive e).eng = s.eng := by
  rw [State.arrive_calm h]
  simp
@[simp] theorem State.arrive_engLast_calm {s : State} (h : s.Calm) (e : Env) : (s.arrive e).engLast = s.engLast := by
  rw [State.arrive_calm h]
  simp
@[simp] theorem State.arrive_enc_calm {s : State} (h : s.Calm) (e : Env) : (s.arrive e).enc = s.enc := by
  rw [State.arrive_calm h]
  simp
@[simp] theorem State.arrive_place_calm {s : State} (h : s.Calm) (e : Env) : (s.arrive e).place = s.place := by
  rw [State.arrive_calm h]
  simp
@[simp] theorem State.arrive_fire_calm {s : State} (h : s.Calm) (e : Env) : (s.arrive e).fire = s.fire := by
  rw [State.arrive_calm h]
  simp
@[simp] theorem State.arrive_fp_calm {s : State} (h : s.Calm) (e : Env) : (s.arrive e).fp = s.fp := by
  rw [State.arrive_calm h]
  simp
@[simp] theorem State.arrive_kl_calm {s : State} (h : s.Calm) (e : Env) : (s.arrive e).kl = s.kl := by
  rw [State.arrive_calm h]
  simp
@[simp] theorem State.arrive_head_calm {s : State} (h : s.Calm) (e : Env) : (s.arrive e).head = s.head := by
  rw [State.arrive_calm h]
  simp
@[simp] theorem State.arrive_cam_calm {s : State} (h : s.Calm) (e : Env) : (s.arrive e).cam = s.cam := by
  rw [State.arrive_calm h]
  simp
@[simp] theorem State.arrive_pipe_calm {s : State} (h : s.Calm) (e : Env) : (s.arrive e).pipe = s.pipe := by
  rw [State.arrive_calm h]
  simp
@[simp] theorem State.arrive_hlt_calm {s : State} (h : s.Calm) (e : Env) : (s.arrive e).hlt = s.hlt := by
  rw [State.arrive_calm h]
  simp
@[simp] theorem State.arrive_sess_calm {s : State} (h : s.Calm) (e : Env) : (s.arrive e).sess = s.sess := by
  rw [State.arrive_calm h]
  simp
@[simp] theorem State.arrive_keys_calm {s : State} (h : s.Calm) (e : Env) : (s.arrive e).keys = s.keys := by
  rw [State.arrive_calm h]
  simp
@[simp] theorem State.arrive_xlt_calm {s : State} (h : s.Calm) (e : Env) : (s.arrive e).xlt = s.xlt := by
  rw [State.arrive_calm h]
  simp
@[simp] theorem State.arrive_mgt_calm {s : State} (h : s.Calm) (e : Env) : (s.arrive e).mgt = s.mgt := by
  rw [State.arrive_calm h]
  simp
@[simp] theorem State.arrive_safe_calm {s : State} (h : s.Calm) (e : Env) : (s.arrive e).safe = s.safe := by
  rw [State.arrive_calm h]
  simp
@[simp] theorem State.arrive_mem_calm {s : State} (h : s.Calm) (e : Env) : (s.arrive e).mem = s.mem := by
  rw [State.arrive_calm h]
  simp
@[simp] theorem State.arrive_cal_calm {s : State} (h : s.Calm) (e : Env) : (s.arrive e).cal = s.cal := by
  rw [State.arrive_calm h]
  simp
@[simp] theorem State.arrive_nv_calm {s : State} (h : s.Calm) (e : Env) : (s.arrive e).nv = s.nv := by
  rw [State.arrive_calm h]
  simp
@[simp] theorem State.arrive_pws_calm {s : State} (h : s.Calm) (e : Env) : (s.arrive e).pws = s.pws := by
  rw [State.arrive_calm h]
  simp
@[simp] theorem State.arrive_msix_calm {s : State} (h : s.Calm) (e : Env) : (s.arrive e).msix = s.msix := by
  rw [State.arrive_calm h]
  simp
@[simp] theorem State.arrive_net_calm {s : State} (h : s.Calm) (e : Env) : (s.arrive e).net = s.net := by
  rw [State.arrive_calm h]
  simp

end Sys2Proof.Machine
end

