-- ==== Sys2Proof/Laws/Memory.lean ====
section
/-! SUPPORT. Memories: what a write leaves, and that every operation keeps the canonical form. -/
namespace Sys2Proof.Machine
open Sys2Proof

/-! ## Sparse maps -/

theorem SMap.get_del_same {β : Type} (d : β) (k : Nat) : ∀ (lo : Nat) (m : SMap β),
    (∀ a v l, m = (a, v) :: l → lo ≤ a) → m.Pairwise (fun x y => x.1 < y.1) → SMap.get (SMap.del m k) d k = d
  | _, [], _, _ => rfl
  | lo, (a, v) :: l, _, hp => by
    obtain ⟨h1, h2⟩ := List.pairwise_cons.1 hp
    unfold SMap.del
    split
    · rename_i e
      subst e
      cases l with
      | nil => rfl
      | cons b l =>
        have h3 := h1 b (by simp)
        simp only [SMap.get]
        rw [if_neg (by omega), if_pos h3]
    · split
      · simp only [SMap.get]
        rw [if_neg (by assumption), if_pos (by assumption)]
      · simp only [SMap.get]
        rw [if_neg (by assumption), if_neg (by assumption)]
        exact SMap.get_del_same d k a l (fun b w t e => Nat.le_of_lt (h1 (b, w) (by simp [e]))) h2

theorem SMap.get_put_same {β : Type} (d v : β) (k : Nat) : ∀ m : SMap β, SMap.get (SMap.put m k v) d k = v
  | [] => by simp [SMap.put, SMap.get]
  | (a, w) :: l => by
    unfold SMap.put
    split
    · simp [SMap.get]
    · split
      · simp [SMap.get]
      · simp only [SMap.get]
        rw [if_neg (by assumption), if_neg (by assumption)]
        exact SMap.get_put_same d v k l

theorem SMap.get_put_ne {β : Type} (d v : β) (k j : Nat) (h : j ≠ k) : ∀ m : SMap β,
    SMap.get (SMap.put m k v) d j = SMap.get m d j
  | [] => by
    simp only [SMap.put, SMap.get]
    rw [if_neg (fun e => h e.symm)]
    split <;> rfl
  | (a, w) :: l => by
    unfold SMap.put
    split
    · rename_i e
      subst e
      simp only [SMap.get]
      have hne : ¬ a = j := fun e => h e.symm
      simp only [if_neg hne]
    · split
      · simp only [SMap.get]
        rw [if_neg (fun e => h e.symm)]
        split
        · rw [if_neg (by omega), if_pos (by omega)]
        · rfl
      · simp only [SMap.get]
        rw [SMap.get_put_ne d v k j h l]

theorem SMap.get_del_ne {β : Type} (d : β) (k j : Nat) (h : j ≠ k) : ∀ m : SMap β,
    m.Pairwise (fun x y => x.1 < y.1) → SMap.get (SMap.del m k) d j = SMap.get m d j
  | [], _ => rfl
  | (a, w) :: l, hp => by
    obtain ⟨h1, h2⟩ := List.pairwise_cons.1 hp
    unfold SMap.del
    split
    · rename_i e
      subst e
      simp only [SMap.get]
      rw [if_neg (fun e => h e.symm)]
      split
      · cases l with
        | nil => rfl
        | cons b l =>
          have h3 : a < b.1 := h1 b (by simp)
          simp only [SMap.get]
          rw [if_neg (by omega), if_pos (by omega)]
      · rfl
    · split
      · rfl
      · simp only [SMap.get]
        rw [SMap.get_del_ne d k j h l h2]

/-! ## The canonical form -/

theorem Memory.wfFrom_mono : ∀ {lo lo' : Nat} {m : List Host.Cell}, lo' ≤ lo → Memory.wfFrom lo m = true →
    Memory.wfFrom lo' m = true
  | _, _, [], _, _ => rfl
  | lo, lo', (a, b) :: l, h, hw => by
    simp only [Memory.wfFrom, Bool.and_eq_true, decide_eq_true_eq] at hw ⊢
    exact ⟨⟨by omega, hw.1.2⟩, hw.2⟩

theorem Memory.wfFrom_del : ∀ {lo : Nat} {m : List Host.Cell} (k : Nat), Memory.wfFrom lo m = true →
    Memory.wfFrom lo (SMap.del m k) = true
  | _, [], _, _ => rfl
  | lo, (a, b) :: l, k, hw => by
    have hw' := hw
    simp only [Memory.wfFrom, Bool.and_eq_true, decide_eq_true_eq] at hw
    unfold SMap.del
    split
    · exact Memory.wfFrom_mono (by omega) hw.2
    · split
      · exact hw'
      · simp only [Memory.wfFrom, Bool.and_eq_true, decide_eq_true_eq]
        exact ⟨hw.1, Memory.wfFrom_del k hw.2⟩

theorem Memory.wfFrom_put : ∀ {lo : Nat} {m : List Host.Cell} (k : Nat) (v : Byte), v ≠ 0 → lo ≤ k →
    Memory.wfFrom lo m = true → Memory.wfFrom lo (SMap.put m k v) = true
  | lo, [], k, v, hv, hk, _ => by
    simp only [SMap.put, Memory.wfFrom, Bool.and_eq_true, decide_eq_true_eq, bne_iff_ne, and_true]
    exact ⟨hk, hv⟩
  | lo, (a, b) :: l, k, v, hv, hk, hw => by
    have hw' := hw
    simp only [Memory.wfFrom, Bool.and_eq_true, decide_eq_true_eq] at hw
    unfold SMap.put
    split
    · rename_i e
      subst e
      simp only [Memory.wfFrom, Bool.and_eq_true, decide_eq_true_eq, bne_iff_ne]
      exact ⟨⟨hk, hv⟩, hw.2⟩
    · split
      · simp only [Memory.wfFrom, Bool.and_eq_true, decide_eq_true_eq]
        exact ⟨⟨hk, by simpa using hv⟩, ⟨by omega, hw.1.2⟩, hw.2⟩
      · simp only [Memory.wfFrom, Bool.and_eq_true, decide_eq_true_eq]
        exact ⟨hw.1, Memory.wfFrom_put k v hv (by omega) hw.2⟩

theorem Memory.wfFrom_filter (f : Host.Cell → Bool) : ∀ {lo : Nat} {m : List Host.Cell}, Memory.wfFrom lo m = true →
    Memory.wfFrom lo (m.filter f) = true
  | _, [], _ => rfl
  | lo, (a, b) :: l, hw => by
    simp only [Memory.wfFrom, Bool.and_eq_true, decide_eq_true_eq] at hw
    simp only [List.filter]
    split
    · simp only [Memory.wfFrom, Bool.and_eq_true, decide_eq_true_eq]
      exact ⟨hw.1, Memory.wfFrom_filter f hw.2⟩
    · exact Memory.wfFrom_mono (by omega) (Memory.wfFrom_filter f hw.2)

/-- A byte written keeps the canonical form. -/
theorem memPut_wf {m : List Host.Cell} (a : Nat) (b : Byte) (h : Memory.wf m = true) : Memory.wf (memPut m a b) = true := by
  unfold memPut SMap.set
  split
  · exact Memory.wfFrom_del a h
  · exact Memory.wfFrom_put a b (by assumption) (Nat.zero_le _) h

/-- Bytes written keep the canonical form. -/
theorem memWrite_wf : ∀ {m : List Host.Cell} (a : Nat) (l : List Byte), Memory.wf m = true → Memory.wf (memWrite m a l) = true
  | _, _, [], h => h
  | _, a, b :: l, h => memWrite_wf (a + 1) l (memPut_wf a b h)

/-- A range cleared keeps the canonical form. -/
theorem memClear_wf {m : List Host.Cell} (a n : Nat) (h : Memory.wf m = true) : Memory.wf (memClear m a n) = true :=
  Memory.wfFrom_filter _ h

theorem filter_wf {m : List Host.Cell} (f : Host.Cell → Bool) (h : Memory.wf m = true) : Memory.wf (m.filter f) = true :=
  Memory.wfFrom_filter f h

/-! ## Reading what was written -/

theorem Memory.wfFrom_pairwise : ∀ {lo : Nat} {m : List Host.Cell}, Memory.wfFrom lo m = true →
    (∀ x ∈ m, lo ≤ x.1) ∧ m.Pairwise (fun x y => x.1 < y.1)
  | _, [], _ => ⟨by simp, List.Pairwise.nil⟩
  | lo, (a, b) :: l, hw => by
    simp only [Memory.wfFrom, Bool.and_eq_true, decide_eq_true_eq] at hw
    obtain ⟨h1, h2⟩ := Memory.wfFrom_pairwise hw.2
    refine ⟨?_, List.pairwise_cons.2 ⟨fun x hx => h1 x hx, h2⟩⟩
    intro x hx
    rcases List.mem_cons.1 hx with rfl | hx
    · exact hw.1.1
    · have := h1 x hx
      omega

/-- A byte written is read back. -/
theorem memByte_memPut {m : List Host.Cell} (a : Nat) (b : Byte) (h : Memory.wf m = true) : memByte (memPut m a b) a = b := by
  have hp := (Memory.wfFrom_pairwise h).2
  unfold memByte memPut SMap.set
  split
  · rename_i e
    rw [e]
    exact SMap.get_del_same 0 a 0 m (fun _ _ _ _ => Nat.zero_le _) hp
  · exact SMap.get_put_same 0 b a m

/-- A byte written leaves every other byte. -/
theorem memByte_memPut_ne {m : List Host.Cell} (a : Nat) (b : Byte) (j : Nat) (hj : j ≠ a) (h : Memory.wf m = true) :
    memByte (memPut m a b) j = memByte m j := by
  have hp := (Memory.wfFrom_pairwise h).2
  unfold memByte memPut SMap.set
  split
  · exact SMap.get_del_ne 0 a j hj m hp
  · exact SMap.get_put_ne 0 b a j hj m

/-- Bytes written leave every byte outside them. -/
theorem memByte_memWrite_outside : ∀ {m : List Host.Cell} (a : Nat) (l : List Byte) (j : Nat), Memory.wf m = true →
    (j < a ∨ a + l.length ≤ j) → memByte (memWrite m a l) j = memByte m j
  | _, _, [], _, _, _ => rfl
  | m, a, b :: l, j, h, hj => by
    simp only [List.length_cons] at hj
    simp only [memWrite]
    rw [memByte_memWrite_outside (a + 1) l j (memPut_wf a b h) (by omega), memByte_memPut_ne a b j (by omega) h]

/-- Bytes written are read back. -/
theorem memByte_memWrite : ∀ {m : List Host.Cell} (a : Nat) (l : List Byte) (i : Nat), Memory.wf m = true →
    i < l.length → memByte (memWrite m a l) (a + i) = l.getD i 0
  | _, _, [], i, _, hi => by simp at hi
  | m, a, b :: l, 0, h, _ => by
    simp only [memWrite, Nat.add_zero, List.getD_cons_zero]
    rw [memByte_memWrite_outside (a + 1) l a (memPut_wf a b h) (by omega), memByte_memPut a b h]
  | m, a, b :: l, i + 1, h, hi => by
    simp only [memWrite, List.getD_cons_succ]
    have := memByte_memWrite (a + 1) l i (memPut_wf a b h) (by simpa using hi)
    rwa [show a + (i + 1) = a + 1 + i by omega]

end Sys2Proof.Machine
end

