-- ==== Sys2Proof/Laws/Keep.lean ====
section
/-! SUPPORT. What every operation keeps: the queue of commands and the canonical form of the memories, as one relation
between two states that composes. -/
namespace Sys2Proof.Machine
open Sys2Proof

/-- From s to t the queue is as it was, and memories in canonical form are still in it. -/
def Keeps (s t : State) : Prop := t.pending = s.pending ∧ (s.MemOk → t.MemOk)

namespace Keeps
variable {s0 s t : State} {α σ : Type}

theorem refl (s : State) : Keeps s s := ⟨rfl, id⟩

theorem trans {s t u : State} (h : Keeps s t) (h' : Keeps t u) : Keeps s u := ⟨h'.1.trans h.1, h'.2 ∘ h.2⟩

/-- An update that touches neither the queue nor a memory. -/
theorem upd (h : Keeps s0 s) (hp : t.pending = s.pending) (hd : t.dram = s.dram) (hh : t.hostMem = s.hostMem)
    (hn : t.nv = s.nv) : Keeps s0 t :=
  ⟨hp.trans h.1, fun m => by rw [State.MemOk, hd, hh, hn]; exact h.2 m⟩

/-- Any new values of the fields beside the queue and the memories. -/
theorem mk (h : Keeps s0 s) {now : Nat} {tickBase : Nat} {out : List Out} {draws : Nat} {agenda : List Timed}
      {gapTime : Nat} {phase : Phase} {dramUe : List Nat} {dramCe : List Nat} {pstore : SMap Word} {pstoreBad :
      List Nat} {ctxBad : List Nat} {seq : Vector Seq 16} {ctx : Vector (Vector Ctx 64) 16} {str : Vector Stream
      64} {ring : Vector Ring 64} {eng : Vector Engine 16} {engLast : Nat} {enc : Vector Enc 4} {place : Vector
      Placer 16} {fire : Fire} {fp : Vector FirePort 64} {kl : Vector KlPort 64} {head : Vector Head 64} {cam :
      Vector Cam 4} {pipe : Vector Pipe 2} {hlt : Health} {ax : Vector Axis 8} {sess : Vector Sess 256} {keys :
      Vector KeySlot 16} {xlt : Xlt} {mgt : Mgt} {safe : Safe} {mem : MemSt} {tim : Tim} {cal : CalSys} {pws :
      Pws} {msix : Vector Msix 4} {net : Vector NetPort 8} :
    Keeps s0 { s with
      now := now, tickBase := tickBase, out := out, draws := draws, agenda := agenda, gapTime := gapTime, phase
      := phase, dramUe := dramUe, dramCe := dramCe, pstore := pstore, pstoreBad := pstoreBad, ctxBad := ctxBad,
      seq := seq, ctx := ctx, str := str, ring := ring, eng := eng, engLast := engLast, enc := enc, place :=
      place, fire := fire, fp := fp, kl := kl, head := head, cam := cam, pipe := pipe, hlt := hlt, ax := ax,
      sess := sess, keys := keys, xlt := xlt, mgt := mgt, safe := safe, mem := mem, tim := tim, cal := cal, pws
      := pws, msix := msix, net := net } := h

/-- Bytes written to DRAM. -/
theorem putDram (h : Keeps s0 s) {a : Nat} {l : List Byte} {u c : List Nat} :
    Keeps s0 { s with dram := memWrite s.dram a l, dramUe := u, dramCe := c } :=
  ⟨h.1, fun m => ⟨memWrite_wf a l (h.2 m).1, (h.2 m).2⟩⟩

/-- A range of DRAM cleared. -/
theorem clearDram (h : Keeps s0 s) {a n : Nat} {u c : List Nat} :
    Keeps s0 { s with dram := memClear s.dram a n, dramUe := u, dramCe := c } :=
  ⟨h.1, fun m => ⟨memClear_wf a n (h.2 m).1, (h.2 m).2⟩⟩

/-- Bytes written to the memory of function f's host. -/
theorem putHost (h : Keeps s0 s) {f a : Nat} {l : List Byte} :
    Keeps s0 { s with hostMem := vmod s.hostMem f (fun m => memWrite m a l) } :=
  ⟨h.1, fun m => ⟨(h.2 m).1, fun g => by
    by_cases e : f = g
    · subst e
      show Memory.wf (vget (vmod s.hostMem g _) g) = true
      rw [vget_vmod_fin]
      exact memWrite_wf a l ((h.2 m).2.1 g)
    · show Memory.wf (vget (vmod s.hostMem f _) g) = true
      rw [vget_vmod_ne _ _ _ _ e]
      exact (h.2 m).2.1 g, (h.2 m).2.2⟩⟩

/-- The instants of the writes of the non-volatile store. -/
theorem nvWrote (h : Keeps s0 s) {w : SMap Nat} : Keeps s0 { s with nv := { s.nv with wrote := w } } := h

/-- Bytes written to the non-volatile store. -/
theorem putNv (h : Keeps s0 s) {a d : Nat} {l : List Byte} :
    Keeps s0 { s with draws := d, nv := { s.nv with mram := memWrite s.nv.mram a l } } :=
  ⟨h.1, fun m => ⟨(h.2 m).1, (h.2 m).2.1, memWrite_wf a l (h.2 m).2.2⟩⟩

/-- A range of the non-volatile store erased. -/
theorem clearNv (h : Keeps s0 s) {a n : Nat} : Keeps s0 { s with nv := { s.nv with mram := memClear s.nv.mram a n } } :=
  ⟨h.1, fun m => ⟨(h.2 m).1, (h.2 m).2.1, memClear_wf a n (h.2 m).2.2⟩⟩

theorem ofEq {p : State × σ} {a : σ} (e : p = (t, a)) (h : Keeps s0 p.1) : Keeps s0 t := by
  subst e
  exact h

theorem ite {c : Prop} [Decidable c] {a b : State} (ha : Keeps s0 a) (hb : Keeps s0 b) : Keeps s0 (if c then a else b) := by
  split <;> assumption

theorem ite_fst {c : Prop} [Decidable c] {a b : State × σ} (ha : Keeps s0 a.1) (hb : Keeps s0 b.1) :
    Keeps s0 (if c then a else b).1 := by
  split <;> assumption

theorem when {b : Bool} {f : State → State} (h : Keeps s0 s) (hf : ∀ t, Keeps s0 t → Keeps s0 (f t)) :
    Keeps s0 (s.when b f) := by
  unfold State.when
  split
  · exact hf s h
  · exact h

theorem foldl {f : State → α → State} : ∀ {l : List α} {s : State}, Keeps s0 s →
    (∀ t a, Keeps s0 t → Keeps s0 (f t a)) → Keeps s0 (l.foldl f s)
  | [], _, h, _ => h
  | a :: l, s, h, hf => foldl (l := l) (hf s a h) hf

theorem each {f : State → α → State} {l : List α} (h : Keeps s0 s) (hf : ∀ t a, Keeps s0 t → Keeps s0 (f t a)) :
    Keeps s0 (s.each l f) := foldl h hf

theorem foldl_fst {f : State × σ → α → State × σ} : ∀ {l : List α} {c : State × σ}, Keeps s0 c.1 →
    (∀ c a, Keeps s0 c.1 → Keeps s0 (f c a).1) → Keeps s0 (l.foldl f c).1
  | [], _, h, _ => h
  | a :: l, c, h, hf => foldl_fst (l := l) (hf c a h) hf

end Keeps

end Sys2Proof.Machine
end

