-- ==== Sys2Proof/Laws/KeepOps.lean ====
section
/-! SUPPORT. What the operations keep: the shared operations, motion gating, lanes, swaths, channels, DRAM, what arrives, and firing. -/
set_option maxRecDepth 2000
namespace Sys2Proof.Machine
open Sys2Proof

theorem State.setReg_keeps {org s : State} {a : Nat} {v : Word} (hs : Keeps org s) : Keeps org (s.setReg a v) := by
  unfold State.setReg
  repeat' first
    | with_reducible assumption
    | with_reducible apply Keeps.mk

theorem State.modSeq_keeps {org s : State} {q : Nat} {f : Seq → Seq} (hs : Keeps org s) : Keeps org (s.modSeq q f) := by
  unfold State.modSeq
  repeat' first
    | with_reducible assumption
    | with_reducible apply Keeps.mk

theorem State.modCtx_keeps {org s : State} {q c : Nat} {f : Ctx → Ctx} (hs : Keeps org s) : Keeps org (s.modCtx q c f) := by
  unfold State.modCtx
  repeat' first
    | with_reducible assumption
    | with_reducible apply Keeps.mk

theorem State.modStr_keeps {org s : State} {p : Nat} {f : Stream → Stream} (hs : Keeps org s) : Keeps org (s.modStr p f) := by
  unfold State.modStr
  repeat' first
    | with_reducible assumption
    | with_reducible apply Keeps.mk

theorem State.modRing_keeps {org s : State} {p : Nat} {f : Ring → Ring} (hs : Keeps org s) : Keeps org (s.modRing p f) := by
  unfold State.modRing
  repeat' first
    | with_reducible assumption
    | with_reducible apply Keeps.mk

theorem State.modEng_keeps {org s : State} {g : Nat} {f : Engine → Engine} (hs : Keeps org s) : Keeps org (s.modEng g f) := by
  unfold State.modEng
  repeat' first
    | with_reducible assumption
    | with_reducible apply Keeps.mk

theorem State.modEnc_keeps {org s : State} {c : Nat} {f : Enc → Enc} (hs : Keeps org s) : Keeps org (s.modEnc c f) := by
  unfold State.modEnc
  repeat' first
    | with_reducible assumption
    | with_reducible apply Keeps.mk

theorem State.modPlace_keeps {org s : State} {q : Nat} {f : Placer → Placer} (hs : Keeps org s) : Keeps org (s.modPlace q f) := by
  unfold State.modPlace
  repeat' first
    | with_reducible assumption
    | with_reducible apply Keeps.mk

theorem State.modFp_keeps {org s : State} {p : Nat} {f : FirePort → FirePort} (hs : Keeps org s) : Keeps org (s.modFp p f) := by
  unfold State.modFp
  repeat' first
    | with_reducible assumption
    | with_reducible apply Keeps.mk

theorem State.modKl_keeps {org s : State} {p : Nat} {f : KlPort → KlPort} (hs : Keeps org s) : Keeps org (s.modKl p f) := by
  unfold State.modKl
  repeat' first
    | with_reducible assumption
    | with_reducible apply Keeps.mk

theorem State.modHead_keeps {org s : State} {p : Nat} {f : Head → Head} (hs : Keeps org s) : Keeps org (s.modHead p f) := by
  unfold State.modHead
  repeat' first
    | with_reducible assumption
    | with_reducible apply Keeps.mk

theorem State.modCam_keeps {org s : State} {c : Nat} {f : Cam → Cam} (hs : Keeps org s) : Keeps org (s.modCam c f) := by
  unfold State.modCam
  repeat' first
    | with_reducible assumption
    | with_reducible apply Keeps.mk

theorem State.modAx_keeps {org s : State} {a : Nat} {f : Axis → Axis} (hs : Keeps org s) : Keeps org (s.modAx a f) := by
  unfold State.modAx
  repeat' first
    | with_reducible assumption
    | with_reducible apply Keeps.mk

theorem State.modSess_keeps {org s : State} {n : Nat} {f : Sess → Sess} (hs : Keeps org s) : Keeps org (s.modSess n f) := by
  unfold State.modSess
  repeat' first
    | with_reducible assumption
    | with_reducible apply Keeps.mk

theorem State.modHlt_keeps {org s : State} {f : Health → Health} (hs : Keeps org s) : Keeps org (s.modHlt f) := by
  unfold State.modHlt
  repeat' first
    | with_reducible assumption
    | with_reducible apply Keeps.mk

theorem State.modMgt_keeps {org s : State} {f : Mgt → Mgt} (hs : Keeps org s) : Keeps org (s.modMgt f) := by
  unfold State.modMgt
  repeat' first
    | with_reducible assumption
    | with_reducible apply Keeps.mk

theorem State.modMem_keeps {org s : State} {f : MemSt → MemSt} (hs : Keeps org s) : Keeps org (s.modMem f) := by
  unfold State.modMem
  repeat' first
    | with_reducible assumption
    | with_reducible apply Keeps.mk

theorem State.modXlt_keeps {org s : State} {f : Xlt → Xlt} (hs : Keeps org s) : Keeps org (s.modXlt f) := by
  unfold State.modXlt
  repeat' first
    | with_reducible assumption
    | with_reducible apply Keeps.mk

theorem State.modTim_keeps {org s : State} {f : Tim → Tim} (hs : Keeps org s) : Keeps org (s.modTim f) := by
  unfold State.modTim
  repeat' first
    | with_reducible assumption
    | with_reducible apply Keeps.mk

theorem State.modPws_keeps {org s : State} {f : Pws → Pws} (hs : Keeps org s) : Keeps org (s.modPws f) := by
  unfold State.modPws
  repeat' first
    | with_reducible assumption
    | with_reducible apply Keeps.mk

theorem State.modSafe_keeps {org s : State} {f : Safe → Safe} (hs : Keeps org s) : Keeps org (s.modSafe f) := by
  unfold State.modSafe
  repeat' first
    | with_reducible assumption
    | with_reducible apply Keeps.mk

theorem State.draw_keeps {org s : State} (hs : Keeps org s) : Keeps org (s.draw).1 := by
  unfold State.draw
  repeat' first
    | with_reducible assumption
    | with_reducible apply Keeps.mk

theorem State.emit_keeps {org s : State} {o : Out} (hs : Keeps org s) : Keeps org (s.emit o) := by
  unfold State.emit
  repeat' first
    | with_reducible assumption
    | with_reducible apply Keeps.mk

theorem State.raise_keeps {org s : State} {f v : Nat} (hs : Keeps org s) : Keeps org (s.raise f v) := by
  unfold State.raise
  repeat' first
    | with_reducible assumption
    | (intro s1; refine (fun (hs1 : Keeps org s1) => ?_) ?_; clear_value s1)
    | (intro s1; clear_value s1)
    | (lift_lets; intro s1; refine (fun (hs1 : Keeps org s1) => ?_) ?_; clear_value s1)
    | (lift_lets; intro s1; clear_value s1)
    | with_reducible apply Keeps.ite
    | with_reducible apply State.emit_keeps
    | with_reducible apply Keeps.mk

theorem State.raiseAll_keeps {org s : State} {v : Nat} (hs : Keeps org s) : Keeps org (s.raiseAll v) := by
  unfold State.raiseAll
  repeat' first
    | with_reducible assumption
    | (intro t a ht; have hk : Keeps org t := ht; clear hk)
    | (intro t ht; have hk : Keeps org t := ht; clear hk)
    | with_reducible apply Keeps.each
    | with_reducible apply State.raise_keeps

theorem State.raiseSess_keeps {org s : State} {n k : Nat} (hs : Keeps org s) : Keeps org (s.raiseSess n k) := by
  unfold State.raiseSess
  repeat' first
    | with_reducible assumption
    | with_reducible apply Keeps.ite
    | with_reducible apply State.raise_keeps

theorem State.setEvq_keeps {org s : State} {n : Nat} {q' : EvQueue} (hs : Keeps org s) : Keeps org (s.setEvq n q') := by
  unfold State.setEvq
  repeat' first
    | with_reducible assumption
    | (intro t a ht; have hk : Keeps org t := ht; clear hk)
    | (intro t ht; have hk : Keeps org t := ht; clear hk)
    | (intro s1; refine (fun (hs1 : Keeps org s1) => ?_) ?_; clear_value s1)
    | (intro s1; clear_value s1)
    | (lift_lets; intro s1; refine (fun (hs1 : Keeps org s1) => ?_) ?_; clear_value s1)
    | (lift_lets; intro s1; clear_value s1)
    | with_reducible apply Keeps.when
    | with_reducible apply State.modSess_keeps
    | with_reducible apply State.raiseSess_keeps

theorem State.rdFirst_keeps {org s : State} {n : Nat} (hs : Keeps org s) : Keeps org (s.rdFirst n) := by
  unfold State.rdFirst
  repeat' first
    | with_reducible assumption
    | (intro t a ht; have hk : Keeps org t := ht; clear hk)
    | (intro t ht; have hk : Keeps org t := ht; clear hk)
    | with_reducible apply Keeps.each
    | with_reducible apply Keeps.ite
    | with_reducible apply State.setEvq_keeps
    | with_reducible apply State.evrdWrite_keeps
    | with_reducible apply State.evack_keeps
    | split

theorem State.postTo_keeps {org s : State} {n : Nat} {r : EvRec} (hs : Keeps org s) : Keeps org (s.postTo n r) := by
  unfold State.postTo
  repeat' first
    | with_reducible assumption
    | (intro t a ht; have hk : Keeps org t := ht; clear hk)
    | (intro t ht; have hk : Keeps org t := ht; clear hk)
    | (intro s1; refine (fun (hs1 : Keeps org s1) => ?_) ?_; clear_value s1)
    | (intro s1; clear_value s1)
    | (lift_lets; intro s1; refine (fun (hs1 : Keeps org s1) => ?_) ?_; clear_value s1)
    | (lift_lets; intro s1; clear_value s1)
    | with_reducible apply Keeps.when
    | with_reducible apply Keeps.ite
    | with_reducible apply State.setEvq_keeps
    | with_reducible apply State.rdFirst_keeps

theorem State.postOr_keeps {org s : State} {n : Option Nat} {r : EvRec} (hs : Keeps org s) : Keeps org (s.postOr n r) := by
  unfold State.postOr
  split
  all_goals
  repeat' first
    | with_reducible assumption
    | with_reducible apply State.postTo_keeps
    | split

theorem State.postUnit_keeps {org s : State} {u : Nat} {r : EvRec} (hs : Keeps org s) : Keeps org (s.postUnit u r) := by
  unfold State.postUnit
  repeat' first
    | with_reducible assumption
    | with_reducible apply State.postOr_keeps

theorem State.postSteward_keeps {org s : State} {r : EvRec} (hs : Keeps org s) : Keeps org (s.postSteward r) := by
  unfold State.postSteward
  repeat' first
    | with_reducible assumption
    | with_reducible apply State.postOr_keeps

theorem State.postAll_keeps {org s : State} {r : EvRec} (hs : Keeps org s) : Keeps org (s.postAll r) := by
  unfold State.postAll
  repeat' first
    | with_reducible assumption
    | (intro t a ht; have hk : Keeps org t := ht; clear hk)
    | (intro t ht; have hk : Keeps org t := ht; clear hk)
    | with_reducible apply Keeps.each
    | with_reducible apply State.postTo_keeps

theorem State.postErr_keeps {org s : State} {n code source : Nat} {detail : Word} (hs : Keeps org s) : Keeps org (s.postErr n code source detail) := by
  unfold State.postErr
  repeat' first
    | with_reducible assumption
    | with_reducible apply State.postTo_keeps

theorem State.safeVecs_keeps {org s : State} {s0 : State} (hs : Keeps org s) : Keeps org (s.safeVecs s0) := by
  unfold State.safeVecs
  repeat' first
    | with_reducible assumption
    | (intro t a ht; have hk : Keeps org t := ht; clear hk)
    | (intro t ht; have hk : Keeps org t := ht; clear hk)
    | (intro s1; refine (fun (hs1 : Keeps org s1) => ?_) ?_; clear_value s1)
    | (intro s1; clear_value s1)
    | (lift_lets; intro s1; refine (fun (hs1 : Keeps org s1) => ?_) ?_; clear_value s1)
    | (lift_lets; intro s1; clear_value s1)
    | with_reducible apply Keeps.when
    | with_reducible apply State.raiseAll_keeps

theorem State.causeSet_keeps {org s : State} {code source latch : Nat} {q : Option Nat} {f : Safe → Safe} (hs : Keeps org s) : Keeps org (s.causeSet code source latch q f) := by
  unfold State.causeSet
  repeat' first
    | with_reducible assumption
    | (intro s1; refine (fun (hs1 : Keeps org s1) => ?_) ?_; clear_value s1)
    | (intro s1; clear_value s1)
    | (lift_lets; intro s1; refine (fun (hs1 : Keeps org s1) => ?_) ?_; clear_value s1)
    | (lift_lets; intro s1; clear_value s1)
    | with_reducible apply State.modSafe_keeps
    | with_reducible apply State.postAll_keeps
    | with_reducible apply State.safeVecs_keeps
    | (refine Keeps.ofEq (by assumption) ?_)

theorem State.causeClear_keeps {org s : State} {code source : Nat} {q : Option Nat} {f : Safe → Safe} (hs : Keeps org s) : Keeps org (s.causeClear code source q f) := by
  unfold State.causeClear
  repeat' first
    | with_reducible assumption
    | (intro s1; refine (fun (hs1 : Keeps org s1) => ?_) ?_; clear_value s1)
    | (intro s1; clear_value s1)
    | (lift_lets; intro s1; refine (fun (hs1 : Keeps org s1) => ?_) ?_; clear_value s1)
    | (lift_lets; intro s1; clear_value s1)
    | with_reducible apply State.modSafe_keeps
    | with_reducible apply State.postAll_keeps
    | with_reducible apply State.safeVecs_keeps
    | (refine Keeps.ofEq (by assumption) ?_)

theorem State.modAxis_keeps {org s : State} {a : Nat} {f : Axis → Axis} (hs : Keeps org s) : Keeps org (s.modAxis a f) := by
  unfold State.modAxis
  repeat' first
    | with_reducible assumption
    | (intro s1; refine (fun (hs1 : Keeps org s1) => ?_) ?_; clear_value s1)
    | (intro s1; clear_value s1)
    | (lift_lets; intro s1; refine (fun (hs1 : Keeps org s1) => ?_) ?_; clear_value s1)
    | (lift_lets; intro s1; clear_value s1)
    | with_reducible apply Keeps.ite
    | with_reducible apply State.modAx_keeps

theorem State.haltAxis_keeps {org s : State} {a : Nat} {q : Option Nat} (hs : Keeps org s) : Keeps org (s.haltAxis a q) := by
  unfold State.haltAxis
  repeat' first
    | with_reducible assumption
    | (intro t a ht; have hk : Keeps org t := ht; clear hk)
    | (intro t ht; have hk : Keeps org t := ht; clear hk)
    | (intro s1; refine (fun (hs1 : Keeps org s1) => ?_) ?_; clear_value s1)
    | (intro s1; clear_value s1)
    | (lift_lets; intro s1; refine (fun (hs1 : Keeps org s1) => ?_) ?_; clear_value s1)
    | (lift_lets; intro s1; clear_value s1)
    | with_reducible apply Keeps.when
    | with_reducible apply Keeps.ite
    | with_reducible apply State.postUnit_keeps
    | with_reducible apply State.modAxis_keeps
    | simp only [s1]
    | split

theorem State.haltAll_keeps {org s : State} (hs : Keeps org s) : Keeps org (s.haltAll) := by
  unfold State.haltAll
  repeat' first
    | with_reducible assumption
    | (intro t a ht; have hk : Keeps org t := ht; clear hk)
    | (intro t ht; have hk : Keeps org t := ht; clear hk)
    | with_reducible apply Keeps.each
    | with_reducible apply State.haltAxis_keeps

theorem State.camPost_keeps {org s : State} {c : Nat} {src : TrigSrc} {code : Nat} {detail : Word} (hs : Keeps org s) : Keeps org (s.camPost c src code detail) := by
  unfold State.camPost
  split
  all_goals
  repeat' first
    | with_reducible assumption
    | with_reducible apply State.postOr_keeps
    | with_reducible apply State.postUnit_keeps
    | split

theorem State.trigCut_keeps {org s : State} {c : Nat} (hs : Keeps org s) : Keeps org (s.trigCut c) := by
  unfold State.trigCut
  repeat' first
    | with_reducible assumption
    | with_reducible apply Keeps.ite
    | with_reducible apply State.modCam_keeps
    | with_reducible apply State.emit_keeps

theorem State.trigStop_keeps {org s : State} {c : Nat} (hs : Keeps org s) : Keeps org (s.trigStop c) := by
  unfold State.trigStop
  repeat' first
    | with_reducible assumption
    | (intro t a ht; have hk : Keeps org t := ht; clear hk)
    | (intro t ht; have hk : Keeps org t := ht; clear hk)
    | (intro s1; refine (fun (hs1 : Keeps org s1) => ?_) ?_; clear_value s1)
    | (intro s1; clear_value s1)
    | (lift_lets; intro s1; refine (fun (hs1 : Keeps org s1) => ?_) ?_; clear_value s1)
    | (lift_lets; intro s1; clear_value s1)
    | with_reducible apply Keeps.each
    | with_reducible apply Keeps.ite
    | with_reducible apply State.modCtx_keeps
    | with_reducible apply State.modCam_keeps
    | with_reducible apply State.camPost_keeps
    | with_reducible apply State.trigCut_keeps
    | split

theorem State.trigStopAll_keeps {org s : State} (hs : Keeps org s) : Keeps org (s.trigStopAll) := by
  unfold State.trigStopAll
  repeat' first
    | with_reducible assumption
    | (intro t a ht; have hk : Keeps org t := ht; clear hk)
    | (intro t ht; have hk : Keeps org t := ht; clear hk)
    | with_reducible apply Keeps.each
    | with_reducible apply State.trigStop_keeps

theorem State.motApply_keeps {org s : State} {a : Nat} {op : MotOp} (hs : Keeps org s) : Keeps org (s.motApply a op) := by
  unfold State.motApply
  repeat' first
    | with_reducible assumption
    | (intro s1; refine (fun (hs1 : Keeps org s1) => ?_) ?_; clear_value s1)
    | (intro s1; clear_value s1)
    | (lift_lets; intro s1; refine (fun (hs1 : Keeps org s1) => ?_) ?_; clear_value s1)
    | (lift_lets; intro s1; clear_value s1)
    | with_reducible apply Keeps.ite
    | with_reducible apply State.modAxis_keeps
    | split

theorem State.after_keeps {org s : State} {t : Nat} {d : Due} (hs : Keeps org s) : Keeps org (s.after t d) := by
  unfold State.after
  repeat' first
    | with_reducible assumption
    | with_reducible apply Keeps.mk

theorem State.axAhead_keeps {org s : State} {a : Nat} (hs : Keeps org s) : Keeps org (s.axAhead a) := by
  unfold State.axAhead
  repeat' first
    | with_reducible assumption
    | (intro t a ht; have hk : Keeps org t := ht; clear hk)
    | (intro t ht; have hk : Keeps org t := ht; clear hk)
    | with_reducible apply Keeps.each
    | with_reducible apply State.motApply_keeps

theorem State.motion_keeps {org s : State} {a n : Nat} {op : MotOp} {q : Option Nat} (hs : Keeps org s) : Keeps org (s.motion a n op q).1 := by
  unfold State.motion
  repeat' first
    | with_reducible assumption
    | (intro s1; refine (fun (hs1 : Keeps org s1) => ?_) ?_; clear_value s1)
    | (intro s1; clear_value s1)
    | (lift_lets; intro s1; refine (fun (hs1 : Keeps org s1) => ?_) ?_; clear_value s1)
    | (lift_lets; intro s1; clear_value s1)
    | with_reducible apply Keeps.ite_fst
    | with_reducible apply Keeps.ite
    | with_reducible apply State.modAx_keeps
    | with_reducible apply State.postTo_keeps
    | with_reducible apply State.after_keeps
    | with_reducible apply State.axAhead_keeps
    | split

theorem State.hostMotion_keeps {org s : State} {a n : Nat} {op : MotOp} (hs : Keeps org s) : Keeps org (s.hostMotion a n op).1 := by
  unfold State.hostMotion
  repeat' first
    | with_reducible assumption
    | (intro s1; refine (fun (hs1 : Keeps org s1) => ?_) ?_; clear_value s1)
    | (intro s1; refine (fun (hs1 : Keeps org s1.1) => ?_) ?_; clear_value s1)
    | (intro s1; clear_value s1)
    | (lift_lets; intro s1; refine (fun (hs1 : Keeps org s1) => ?_) ?_; clear_value s1)
    | (lift_lets; intro s1; refine (fun (hs1 : Keeps org s1.1) => ?_) ?_; clear_value s1)
    | (lift_lets; intro s1; clear_value s1)
    | with_reducible apply State.modAx_keeps
    | with_reducible apply State.motion_keeps

theorem State.axisEn_keeps {org s : State} {a : Nat} (hs : Keeps org s) : Keeps org (s.axisEn a).1 := by
  unfold State.axisEn
  repeat' first
    | with_reducible assumption
    | with_reducible apply Keeps.ite_fst
    | with_reducible apply Keeps.ite
    | with_reducible apply State.modAxis_keeps
    | with_reducible apply State.idle_keeps
    | split

theorem State.axisDis_keeps {org s : State} {a n : Nat} (hs : Keeps org s) : Keeps org (s.axisDis a n).1 := by
  unfold State.axisDis
  repeat' first
    | with_reducible assumption
    | (intro s1; refine (fun (hs1 : Keeps org s1) => ?_) ?_; clear_value s1)
    | (intro s1; clear_value s1)
    | (lift_lets; intro s1; refine (fun (hs1 : Keeps org s1) => ?_) ?_; clear_value s1)
    | (lift_lets; intro s1; clear_value s1)
    | with_reducible apply Keeps.ite_fst
    | with_reducible apply Keeps.ite
    | with_reducible apply State.modAx_keeps
    | with_reducible apply State.postErr_keeps
    | with_reducible apply State.modAxis_keeps
    | split

theorem State.axisRelease_keeps {org s : State} {a n : Nat} (hs : Keeps org s) : Keeps org (s.axisRelease a n).1 := by
  unfold State.axisRelease
  repeat' first
    | with_reducible assumption
    | with_reducible apply Keeps.ite_fst
    | with_reducible apply Keeps.ite
    | with_reducible apply State.modAx_keeps
    | with_reducible apply State.postErr_keeps
    | with_reducible apply State.modAxis_keeps
    | with_reducible apply State.idle_keeps
    | split
    | (refine Keeps.ofEq (by assumption) ?_)

theorem State.advanceAxes_keeps {org s : State} {k0 : Nat} (hs : Keeps org s) : Keeps org (s.advanceAxes k0) := by
  unfold State.advanceAxes
  repeat' first
    | with_reducible assumption
    | (intro t a ht; have hk : Keeps org t := ht; clear hk)
    | (intro t ht; have hk : Keeps org t := ht; clear hk)
    | (intro s1; refine (fun (hs1 : Keeps org s1) => ?_) ?_; clear_value s1)
    | (intro s1; clear_value s1)
    | (lift_lets; intro s1; refine (fun (hs1 : Keeps org s1) => ?_) ?_; clear_value s1)
    | (lift_lets; intro s1; clear_value s1)
    | with_reducible apply Keeps.each
    | with_reducible apply Keeps.ite
    | with_reducible apply State.modAx_keeps

theorem State.passTo_keeps {org s : State} {t : Nat} (hs : Keeps org s) : Keeps org (s.passTo t) := by
  unfold State.passTo
  repeat' first
    | with_reducible assumption
    | (intro s1; refine (fun (hs1 : Keeps org s1) => ?_) ?_; clear_value s1)
    | (intro s1; clear_value s1)
    | (lift_lets; intro s1; refine (fun (hs1 : Keeps org s1) => ?_) ?_; clear_value s1)
    | (lift_lets; intro s1; clear_value s1)
    | with_reducible apply Keeps.ite
    | with_reducible apply State.modTim_keeps
    | with_reducible apply State.advanceAxes_keeps
    | simp only [s1]
    | with_reducible apply Keeps.mk

theorem State.sendFrom_keeps {org s : State} {p t : Nat} {it : DownItem} (hs : Keeps org s) : Keeps org (s.sendFrom p t it) := by
  unfold State.sendFrom
  repeat' first
    | with_reducible assumption
    | (intro s1; refine (fun (hs1 : Keeps org s1) => ?_) ?_; clear_value s1)
    | (intro s1; clear_value s1)
    | (lift_lets; intro s1; refine (fun (hs1 : Keeps org s1) => ?_) ?_; clear_value s1)
    | (lift_lets; intro s1; clear_value s1)
    | with_reducible apply State.modKl_keeps

theorem State.sendFrame_keeps {org s : State} {p : Nat} {it : DownItem} (hs : Keeps org s) : Keeps org (s.sendFrame p it) := by
  unfold State.sendFrame
  repeat' first
    | with_reducible assumption
    | with_reducible apply State.sendFrom_keeps

theorem State.sendFire_keeps {org s : State} {p t : Nat} {blank : Bool} {tag : Nat} (hs : Keeps org s) : Keeps org (s.sendFire p t blank tag) := by
  unfold State.sendFire
  repeat' first
    | with_reducible assumption
    | (intro t a ht; have hk : Keeps org t := ht; clear hk)
    | (intro t ht; have hk : Keeps org t := ht; clear hk)
    | (intro t a ht; have hk : Keeps org t.1 := ht; clear hk)
    | (intro s1; refine (fun (hs1 : Keeps org s1) => ?_) ?_; clear_value s1)
    | (intro s1; refine (fun (hs1 : Keeps org s1.1) => ?_) ?_; clear_value s1)
    | (intro s1; clear_value s1)
    | (lift_lets; intro s1; refine (fun (hs1 : Keeps org s1) => ?_) ?_; clear_value s1)
    | (lift_lets; intro s1; refine (fun (hs1 : Keeps org s1.1) => ?_) ?_; clear_value s1)
    | (lift_lets; intro s1; clear_value s1)
    | with_reducible apply Keeps.ite
    | with_reducible apply Keeps.foldl
    | with_reducible apply Keeps.foldl_fst
    | with_reducible apply State.modKl_keeps

theorem State.laneCut_keeps {org s : State} {p : Nat} {f : DownItem → Bool} (hs : Keeps org s) : Keeps org (s.laneCut p f) := by
  unfold State.laneCut
  repeat' first
    | with_reducible assumption
    | (intro t a ht; have hk : Keeps org t := ht; clear hk)
    | (intro t ht; have hk : Keeps org t := ht; clear hk)
    | (intro t a ht; have hk : Keeps org t.1 := ht; clear hk)
    | (intro s1; refine (fun (hs1 : Keeps org s1) => ?_) ?_; clear_value s1)
    | (intro s1; clear_value s1)
    | (lift_lets; intro s1; refine (fun (hs1 : Keeps org s1) => ?_) ?_; clear_value s1)
    | (lift_lets; intro s1; clear_value s1)
    | with_reducible apply Keeps.each
    | with_reducible apply Keeps.ite
    | with_reducible apply Keeps.foldl
    | with_reducible apply Keeps.foldl_fst
    | with_reducible apply State.modFp_keeps
    | with_reducible apply State.modKl_keeps
    | split

theorem State.laneDown_keeps {org s : State} {p : Nat} (hs : Keeps org s) : Keeps org (s.laneDown p) := by
  unfold State.laneDown
  repeat' first
    | with_reducible assumption
    | with_reducible apply State.modKl_keeps
    | with_reducible apply State.laneCut_keeps

theorem State.sendSync_keeps {org s : State} {p f rt : Nat} (hs : Keeps org s) : Keeps org (s.sendSync p f rt) := by
  unfold State.sendSync
  repeat' first
    | with_reducible assumption
    | with_reducible apply State.sendFrame_keeps
    | with_reducible apply State.laneCut_keeps

theorem State.sendVoid_keeps {org s : State} {p : Nat} {f : LineFrame} (hs : Keeps org s) : Keeps org (s.sendVoid p f) := by
  unfold State.sendVoid
  repeat' first
    | with_reducible assumption
    | (intro s1; refine (fun (hs1 : Keeps org s1) => ?_) ?_; clear_value s1)
    | (intro s1; clear_value s1)
    | (lift_lets; intro s1; refine (fun (hs1 : Keeps org s1) => ?_) ?_; clear_value s1)
    | (lift_lets; intro s1; clear_value s1)
    | with_reducible apply State.modKl_keeps
    | with_reducible apply State.laneCut_keeps

theorem State.sendDrop_keeps {org s : State} {p : Nat} (hs : Keeps org s) : Keeps org (s.sendDrop p) := by
  unfold State.sendDrop
  repeat' first
    | with_reducible assumption
    | with_reducible apply Keeps.ite
    | with_reducible apply State.sendFrame_keeps
    | with_reducible apply State.laneCut_keeps

theorem State.noteRead_keeps {org s : State} {p : Nat} (hs : Keeps org s) : Keeps org (s.noteRead p) := by
  unfold State.noteRead
  repeat' first
    | with_reducible assumption
    | with_reducible apply State.modKl_keeps

theorem State.postRun_keeps {org s : State} {r : Option Run} {code u src q : Nat} (hs : Keeps org s) : Keeps org (s.postRun r code u src q) := by
  unfold State.postRun
  split
  all_goals
  repeat' first
    | with_reducible assumption
    | with_reducible apply State.postUnit_keeps
    | split

theorem State.endRuns_keeps {org s : State} {q : Nat} (hs : Keeps org s) : Keeps org (s.endRuns q) := by
  unfold State.endRuns
  repeat' first
    | with_reducible assumption
    | (intro t a ht; have hk : Keeps org t := ht; clear hk)
    | (intro t ht; have hk : Keeps org t := ht; clear hk)
    | (intro s1; refine (fun (hs1 : Keeps org s1) => ?_) ?_; clear_value s1)
    | (intro s1; clear_value s1)
    | (lift_lets; intro s1; refine (fun (hs1 : Keeps org s1) => ?_) ?_; clear_value s1)
    | (lift_lets; intro s1; clear_value s1)
    | with_reducible apply Keeps.each
    | with_reducible apply State.modSeq_keeps
    | with_reducible apply State.modRing_keeps
    | with_reducible apply State.modPlace_keeps
    | with_reducible apply State.modFp_keeps
    | with_reducible apply State.postRun_keeps

theorem State.restamp_keeps {org s : State} {q n t : Nat} (hs : Keeps org s) : Keeps org (s.restamp q n t) := by
  unfold State.restamp
  repeat' first
    | with_reducible assumption
    | (intro t a ht; have hk : Keeps org t := ht; clear hk)
    | (intro t ht; have hk : Keeps org t := ht; clear hk)
    | (intro s1; refine (fun (hs1 : Keeps org s1) => ?_) ?_; clear_value s1)
    | (intro s1; clear_value s1)
    | (lift_lets; intro s1; refine (fun (hs1 : Keeps org s1) => ?_) ?_; clear_value s1)
    | (lift_lets; intro s1; clear_value s1)
    | with_reducible apply Keeps.each
    | with_reducible apply Keeps.ite
    | with_reducible apply State.modSeq_keeps
    | with_reducible apply State.modRing_keeps
    | with_reducible apply State.modPlace_keeps
    | with_reducible apply State.modFp_keeps

theorem State.endWait_keeps {org s : State} {q c : Nat} {t : Bool} (hs : Keeps org s) : Keeps org (s.endWait q c t) := by
  unfold State.endWait
  repeat' first
    | with_reducible assumption
    | with_reducible apply State.modCtx_keeps

theorem State.haltCtx_keeps {org s : State} {q c : Nat} (hs : Keeps org s) : Keeps org (s.haltCtx q c) := by
  unfold State.haltCtx
  repeat' first
    | with_reducible assumption
    | with_reducible apply State.modCtx_keeps

theorem State.endReq_keeps {org s : State} {n state code : Nat} (hs : Keeps org s) : Keeps org (s.endReq n state code) := by
  unfold State.endReq
  split
  all_goals
  repeat' first
    | with_reducible assumption
    | (intro t a ht; have hk : Keeps org t := ht; clear hk)
    | (intro t ht; have hk : Keeps org t := ht; clear hk)
    | (intro s1; refine (fun (hs1 : Keeps org s1) => ?_) ?_; clear_value s1)
    | (intro s1; clear_value s1)
    | (lift_lets; intro s1; refine (fun (hs1 : Keeps org s1) => ?_) ?_; clear_value s1)
    | (lift_lets; intro s1; clear_value s1)
    | with_reducible apply Keeps.when
    | with_reducible apply Keeps.each
    | with_reducible apply Keeps.ite
    | with_reducible apply State.modSeq_keeps
    | with_reducible apply State.modFp_keeps
    | with_reducible apply State.modSess_keeps
    | with_reducible apply State.postTo_keeps
    | split

theorem State.evOr_keeps {org s : State} {q mask : Nat} (hs : Keeps org s) : Keeps org (s.evOr q mask) := by
  unfold State.evOr
  repeat' first
    | with_reducible assumption
    | with_reducible apply Keeps.ite
    | with_reducible apply State.modSeq_keeps

theorem State.ownerEnd_keeps {org s : State} {q : Nat} {abort : Bool} (hs : Keeps org s) : Keeps org (s.ownerEnd q abort) := by
  unfold State.ownerEnd
  split
  all_goals
  repeat' first
    | with_reducible assumption
    | with_reducible apply State.modCtx_keeps
    | with_reducible apply State.endWait_keeps
    | with_reducible apply State.haltCtx_keeps
    | split

theorem State.closeCore_keeps {org s : State} {q : Nat} (hs : Keeps org s) : Keeps org (s.closeCore q) := by
  unfold State.closeCore
  repeat' first
    | with_reducible assumption
    | (intro s1; refine (fun (hs1 : Keeps org s1) => ?_) ?_; clear_value s1)
    | (intro s1; clear_value s1)
    | (lift_lets; intro s1; refine (fun (hs1 : Keeps org s1) => ?_) ?_; clear_value s1)
    | (lift_lets; intro s1; clear_value s1)
    | with_reducible apply Keeps.ite
    | with_reducible apply State.modSeq_keeps
    | with_reducible apply State.postTo_keeps
    | with_reducible apply State.endRuns_keeps
    | with_reducible apply State.ownerEnd_keeps
    | simp only [s1]
    | split

theorem State.undoLines_keeps {org s : State} {q : Nat} (hs : Keeps org s) : Keeps org (s.undoLines q) := by
  unfold State.undoLines
  repeat' first
    | with_reducible assumption
    | (intro t a ht; have hk : Keeps org t := ht; clear hk)
    | (intro t ht; have hk : Keeps org t := ht; clear hk)
    | (intro s1; refine (fun (hs1 : Keeps org s1) => ?_) ?_; clear_value s1)
    | (intro s1; refine (fun (hs1 : Keeps org s1.1) => ?_) ?_; clear_value s1)
    | (intro s1; clear_value s1)
    | (lift_lets; intro s1; refine (fun (hs1 : Keeps org s1) => ?_) ?_; clear_value s1)
    | (lift_lets; intro s1; refine (fun (hs1 : Keeps org s1.1) => ?_) ?_; clear_value s1)
    | (lift_lets; intro s1; clear_value s1)
    | with_reducible apply Keeps.each
    | with_reducible apply Keeps.ite
    | with_reducible apply State.modSeq_keeps
    | with_reducible apply State.modRing_keeps
    | with_reducible apply State.modPlace_keeps
    | with_reducible apply State.overrun_keeps
    | split

theorem State.abortCore_keeps {org s : State} {q cause : Nat} (hs : Keeps org s) : Keeps org (s.abortCore q cause) := by
  unfold State.abortCore
  repeat' first
    | with_reducible assumption
    | (intro t a ht; have hk : Keeps org t := ht; clear hk)
    | (intro t ht; have hk : Keeps org t := ht; clear hk)
    | (intro s1; refine (fun (hs1 : Keeps org s1) => ?_) ?_; clear_value s1)
    | (intro s1; clear_value s1)
    | (lift_lets; intro s1; refine (fun (hs1 : Keeps org s1) => ?_) ?_; clear_value s1)
    | (lift_lets; intro s1; clear_value s1)
    | with_reducible apply Keeps.when
    | with_reducible apply Keeps.each
    | with_reducible apply State.modSeq_keeps
    | with_reducible apply State.modCtx_keeps
    | with_reducible apply State.modPlace_keeps
    | with_reducible apply State.modFp_keeps
    | with_reducible apply State.postTo_keeps
    | with_reducible apply State.sendDrop_keeps
    | with_reducible apply State.endRuns_keeps
    | with_reducible apply State.endReq_keeps
    | with_reducible apply State.ownerEnd_keeps
    | with_reducible apply State.undoLines_keeps
    | simp only [s1]
    | split

theorem State.emergCore_keeps {org s : State} {q c : Nat} (hs : Keeps org s) : Keeps org (s.emergCore q c) := by
  unfold State.emergCore
  repeat' first
    | with_reducible assumption
    | (intro t a ht; have hk : Keeps org t := ht; clear hk)
    | (intro t ht; have hk : Keeps org t := ht; clear hk)
    | (intro s1; refine (fun (hs1 : Keeps org s1) => ?_) ?_; clear_value s1)
    | (intro s1; clear_value s1)
    | (lift_lets; intro s1; refine (fun (hs1 : Keeps org s1) => ?_) ?_; clear_value s1)
    | (lift_lets; intro s1; clear_value s1)
    | with_reducible apply Keeps.when
    | with_reducible apply Keeps.ite
    | with_reducible apply State.modCtx_keeps
    | with_reducible apply State.evOr_keeps
    | with_reducible apply State.closeCore_keeps
    | with_reducible apply State.abortCore_keeps

theorem State.setEv_keeps {org s : State} {q mask : Nat} (hs : Keeps org s) : Keeps org (s.setEv q mask) := by
  unfold State.setEv
  repeat' first
    | with_reducible assumption
    | (intro s1; refine (fun (hs1 : Keeps org s1) => ?_) ?_; clear_value s1)
    | (intro s1; clear_value s1)
    | (lift_lets; intro s1; refine (fun (hs1 : Keeps org s1) => ?_) ?_; clear_value s1)
    | (lift_lets; intro s1; clear_value s1)
    | with_reducible apply Keeps.ite
    | with_reducible apply State.evOr_keeps
    | with_reducible apply State.emergCore_keeps

theorem State.closeSwath_keeps {org s : State} {q : Nat} (hs : Keeps org s) : Keeps org (s.closeSwath q) := by
  unfold State.closeSwath
  repeat' first
    | with_reducible assumption
    | with_reducible apply Keeps.ite
    | with_reducible apply State.closeCore_keeps
    | with_reducible apply State.setEv_keeps

theorem State.abortSwath_keeps {org s : State} {q cause : Nat} (hs : Keeps org s) : Keeps org (s.abortSwath q cause) := by
  unfold State.abortSwath
  repeat' first
    | with_reducible assumption
    | (intro s1; refine (fun (hs1 : Keeps org s1) => ?_) ?_; clear_value s1)
    | (intro s1; clear_value s1)
    | (lift_lets; intro s1; refine (fun (hs1 : Keeps org s1) => ?_) ?_; clear_value s1)
    | (lift_lets; intro s1; clear_value s1)
    | with_reducible apply Keeps.ite
    | with_reducible apply State.abortCore_keeps
    | with_reducible apply State.setEv_keeps
    | with_reducible apply State.closeSwath_keeps

theorem State.dropReq_keeps {org s : State} {n state code : Nat} (hs : Keeps org s) : Keeps org (s.dropReq n state code) := by
  unfold State.dropReq
  split
  all_goals
  repeat' first
    | with_reducible assumption
    | (intro t a ht; have hk : Keeps org t := ht; clear hk)
    | (intro t ht; have hk : Keeps org t := ht; clear hk)
    | with_reducible apply Keeps.when
    | with_reducible apply State.endReq_keeps
    | with_reducible apply State.setEv_keeps
    | split

theorem State.makeDoubt_keeps {org s : State} {q : Nat} (hs : Keeps org s) : Keeps org (s.makeDoubt q) := by
  unfold State.makeDoubt
  repeat' first
    | with_reducible assumption
    | (intro s1; refine (fun (hs1 : Keeps org s1) => ?_) ?_; clear_value s1)
    | (intro s1; clear_value s1)
    | (lift_lets; intro s1; refine (fun (hs1 : Keeps org s1) => ?_) ?_; clear_value s1)
    | (lift_lets; intro s1; clear_value s1)
    | with_reducible apply Keeps.ite
    | with_reducible apply State.modSeq_keeps
    | with_reducible apply State.modPlace_keeps
    | with_reducible apply State.postUnit_keeps
    | with_reducible apply State.setEv_keeps
    | simp only [s1]
    | split

theorem State.noteOther_keeps {org s : State} {q n : Nat} (hs : Keeps org s) : Keeps org (s.noteOther q n) := by
  unfold State.noteOther
  repeat' first
    | with_reducible assumption
    | with_reducible apply Keeps.ite
    | with_reducible apply State.modSeq_keeps

theorem State.cutLines_keeps {org s : State} {q p : Nat} (hs : Keeps org s) : Keeps org (s.cutLines q p) := by
  unfold State.cutLines
  repeat' first
    | with_reducible assumption
    | (intro s1; refine (fun (hs1 : Keeps org s1) => ?_) ?_; clear_value s1)
    | (intro s1; clear_value s1)
    | (lift_lets; intro s1; refine (fun (hs1 : Keeps org s1) => ?_) ?_; clear_value s1)
    | (lift_lets; intro s1; clear_value s1)
    | with_reducible apply Keeps.ite
    | with_reducible apply State.modSeq_keeps
    | with_reducible apply State.modPlace_keeps
    | with_reducible apply State.noteOther_keeps
    | split

theorem State.quitSwath_keeps {org s : State} {p : Nat} (hs : Keeps org s) : Keeps org (s.quitSwath p) := by
  unfold State.quitSwath
  repeat' first
    | with_reducible assumption
    | (intro t a ht; have hk : Keeps org t := ht; clear hk)
    | (intro t ht; have hk : Keeps org t := ht; clear hk)
    | with_reducible apply Keeps.each
    | with_reducible apply State.modSeq_keeps
    | with_reducible apply State.cutLines_keeps

theorem State.emergFault_keeps {org s : State} {q : Nat} (hs : Keeps org s) : Keeps org (s.emergFault q) := by
  unfold State.emergFault
  repeat' first
    | with_reducible assumption
    | (intro t a ht; have hk : Keeps org t := ht; clear hk)
    | (intro t ht; have hk : Keeps org t := ht; clear hk)
    | (intro s1; refine (fun (hs1 : Keeps org s1) => ?_) ?_; clear_value s1)
    | (intro s1; clear_value s1)
    | (lift_lets; intro s1; refine (fun (hs1 : Keeps org s1) => ?_) ?_; clear_value s1)
    | (lift_lets; intro s1; clear_value s1)
    | with_reducible apply Keeps.each
    | with_reducible apply State.causeSet_keeps
    | with_reducible apply State.haltAxis_keeps
    | with_reducible apply State.trigStopAll_keeps

theorem State.ctxFault_keeps {org s : State} {q c code pc : Nat} (hs : Keeps org s) : Keeps org (s.ctxFault q c code pc) := by
  unfold State.ctxFault
  repeat' first
    | with_reducible assumption
    | (intro t a ht; have hk : Keeps org t := ht; clear hk)
    | (intro t ht; have hk : Keeps org t := ht; clear hk)
    | (intro s1; refine (fun (hs1 : Keeps org s1) => ?_) ?_; clear_value s1)
    | (intro s1; clear_value s1)
    | (lift_lets; intro s1; refine (fun (hs1 : Keeps org s1) => ?_) ?_; clear_value s1)
    | (lift_lets; intro s1; clear_value s1)
    | with_reducible apply Keeps.when
    | with_reducible apply State.modSeq_keeps
    | with_reducible apply State.modCtx_keeps
    | with_reducible apply State.postTo_keeps
    | with_reducible apply State.abortSwath_keeps
    | with_reducible apply State.emergFault_keeps

theorem State.freeCtx_keeps {org s : State} {q c : Nat} (hs : Keeps org s) : Keeps org (s.freeCtx q c) := by
  unfold State.freeCtx
  repeat' first
    | with_reducible assumption
    | (intro s1; refine (fun (hs1 : Keeps org s1) => ?_) ?_; clear_value s1)
    | (intro s1; refine (fun (hs1 : Keeps org s1.1) => ?_) ?_; clear_value s1)
    | (intro s1; clear_value s1)
    | (lift_lets; intro s1; refine (fun (hs1 : Keeps org s1) => ?_) ?_; clear_value s1)
    | (lift_lets; intro s1; refine (fun (hs1 : Keeps org s1.1) => ?_) ?_; clear_value s1)
    | (lift_lets; intro s1; clear_value s1)
    | with_reducible apply Keeps.ite
    | with_reducible apply State.modSeq_keeps
    | with_reducible apply State.modCtx_keeps
    | with_reducible apply Keeps.mk

theorem State.dropUnits_keeps {org s : State} {units : List Nat} (hs : Keeps org s) : Keeps org (s.dropUnits units) := by
  unfold State.dropUnits
  repeat' first
    | with_reducible assumption
    | with_reducible apply Keeps.ite
    | with_reducible apply State.modMgt_keeps

theorem State.flush_keeps {org s : State} {n : Nat} {units : List Nat} {whole : Bool} (hs : Keeps org s) : Keeps org (s.flush n units whole) := by
  unfold State.flush
  repeat' first
    | with_reducible assumption
    | (intro t a ht; have hk : Keeps org t := ht; clear hk)
    | (intro t ht; have hk : Keeps org t := ht; clear hk)
    | (intro s1; refine (fun (hs1 : Keeps org s1) => ?_) ?_; clear_value s1)
    | (intro s1; refine (fun (hs1 : Keeps org s1.1) => ?_) ?_; clear_value s1)
    | (intro s1; clear_value s1)
    | (lift_lets; intro s1; refine (fun (hs1 : Keeps org s1) => ?_) ?_; clear_value s1)
    | (lift_lets; intro s1; refine (fun (hs1 : Keeps org s1.1) => ?_) ?_; clear_value s1)
    | (lift_lets; intro s1; clear_value s1)
    | with_reducible apply Keeps.when
    | with_reducible apply Keeps.each
    | with_reducible apply Keeps.ite
    | with_reducible apply State.modSess_keeps
    | with_reducible apply State.abortSwath_keeps
    | with_reducible apply State.dropReq_keeps
    | with_reducible apply State.freeCtx_keeps
    | with_reducible apply State.dropUnits_keeps
    | simp only [s1]

theorem State.postEnc_keeps {org s : State} {c code : Nat} {detail : Word} {flags : Nat} (hs : Keeps org s) : Keeps org (s.postEnc c code detail flags) := by
  unfold State.postEnc
  split
  all_goals
  repeat' first
    | with_reducible assumption
    | (intro t a ht; have hk : Keeps org t := ht; clear hk)
    | (intro t ht; have hk : Keeps org t := ht; clear hk)
    | with_reducible apply Keeps.each
    | with_reducible apply State.postUnit_keeps
    | with_reducible apply State.postSteward_keeps
    | split

theorem State.toLclk_keeps {org s : State} {c : Nat} {bits : Nat} {qerr : Bool} {doubt : Bool} {wrap : Bool} {smp : Option Sample} (hs : Keeps org s) : Keeps org (s.toLclk c bits qerr doubt wrap smp) := by
  unfold State.toLclk
  repeat' first
    | with_reducible assumption
    | with_reducible apply State.after_keeps

theorem State.queueSample_keeps {org s : State} {q : Nat} {m : Sample} (hs : Keeps org s) : Keeps org (s.queueSample q m) := by
  unfold State.queueSample
  repeat' first
    | with_reducible assumption
    | (intro t a ht; have hk : Keeps org t := ht; clear hk)
    | (intro t ht; have hk : Keeps org t := ht; clear hk)
    | (intro t a ht; have hk : Keeps org t.1 := ht; clear hk)
    | (intro s1; refine (fun (hs1 : Keeps org s1) => ?_) ?_; clear_value s1)
    | (intro s1; clear_value s1)
    | (lift_lets; intro s1; refine (fun (hs1 : Keeps org s1) => ?_) ?_; clear_value s1)
    | (lift_lets; intro s1; clear_value s1)
    | with_reducible apply Keeps.ite
    | with_reducible apply Keeps.foldl
    | with_reducible apply Keeps.foldl_fst
    | with_reducible apply State.modPlace_keeps

theorem State.qerrCount_keeps {org s : State} {c : Nat} (hs : Keeps org s) : Keeps org (s.qerrCount c) := by
  unfold State.qerrCount
  repeat' first
    | with_reducible assumption
    | (intro t a ht; have hk : Keeps org t := ht; clear hk)
    | (intro t ht; have hk : Keeps org t := ht; clear hk)
    | (intro s1; refine (fun (hs1 : Keeps org s1) => ?_) ?_; clear_value s1)
    | (intro s1; clear_value s1)
    | (lift_lets; intro s1; refine (fun (hs1 : Keeps org s1) => ?_) ?_; clear_value s1)
    | (lift_lets; intro s1; clear_value s1)
    | with_reducible apply Keeps.each
    | with_reducible apply Keeps.ite
    | with_reducible apply State.modPlace_keeps
    | with_reducible apply State.makeDoubt_keeps

theorem State.seenIn_keeps {org s : State} {c : Nat} {v : EncVal} {bits : Nat} {qerr doubt wrap : Bool} {smp : Option Sample} (hs : Keeps org s) : Keeps org (s.seenIn c v bits qerr doubt wrap smp) := by
  unfold State.seenIn
  repeat' first
    | with_reducible assumption
    | (intro t a ht; have hk : Keeps org t := ht; clear hk)
    | (intro t ht; have hk : Keeps org t := ht; clear hk)
    | (intro s1; refine (fun (hs1 : Keeps org s1) => ?_) ?_; clear_value s1)
    | (intro s1; clear_value s1)
    | (lift_lets; intro s1; refine (fun (hs1 : Keeps org s1) => ?_) ?_; clear_value s1)
    | (lift_lets; intro s1; clear_value s1)
    | with_reducible apply Keeps.when
    | with_reducible apply Keeps.each
    | with_reducible apply Keeps.ite
    | with_reducible apply State.modEnc_keeps
    | with_reducible apply State.postUnit_keeps
    | with_reducible apply State.after_keeps
    | with_reducible apply State.setEv_keeps
    | with_reducible apply State.makeDoubt_keeps
    | with_reducible apply State.queueSample_keeps
    | with_reducible apply State.qerrCount_keeps
    | simp only [s1]
    | split

theorem State.qerrHit_keeps {org s : State} {c : Nat} (hs : Keeps org s) : Keeps org (s.qerrHit c) := by
  unfold State.qerrHit
  repeat' first
    | with_reducible assumption
    | with_reducible apply State.modEnc_keeps
    | with_reducible apply State.toLclk_keeps

theorem State.encMove_keeps {org s : State} {c : Nat} {k : Int} {t : Nat} {frame : Bool} (hs : Keeps org s) : Keeps org (s.encMove c k t frame) := by
  unfold State.encMove
  repeat' first
    | with_reducible assumption
    | (intro t a ht; have hk : Keeps org t := ht; clear hk)
    | (intro t ht; have hk : Keeps org t := ht; clear hk)
    | (intro s1; refine (fun (hs1 : Keeps org s1) => ?_) ?_; clear_value s1)
    | (intro s1; clear_value s1)
    | (lift_lets; intro s1; refine (fun (hs1 : Keeps org s1) => ?_) ?_; clear_value s1)
    | (lift_lets; intro s1; clear_value s1)
    | with_reducible apply Keeps.when
    | with_reducible apply Keeps.ite
    | with_reducible apply State.modEnc_keeps
    | with_reducible apply State.postEnc_keeps
    | with_reducible apply State.toLclk_keeps

theorem State.phase701_keeps {org s : State} {c : Nat} (hs : Keeps org s) : Keeps org (s.phase701 c) := by
  unfold State.phase701
  repeat' first
    | with_reducible assumption
    | (intro s1; refine (fun (hs1 : Keeps org s1) => ?_) ?_; clear_value s1)
    | (intro s1; clear_value s1)
    | (lift_lets; intro s1; refine (fun (hs1 : Keeps org s1) => ?_) ?_; clear_value s1)
    | (lift_lets; intro s1; clear_value s1)
    | with_reducible apply State.modEnc_keeps
    | with_reducible apply State.postEnc_keeps
    | with_reducible apply State.qerrHit_keeps
    | split

theorem State.encSample_keeps {org s : State} {c : Nat} {a b : Bool} (hs : Keeps org s) : Keeps org (s.encSample c a b) := by
  unfold State.encSample
  repeat' first
    | with_reducible assumption
    | (intro s1; refine (fun (hs1 : Keeps org s1) => ?_) ?_; clear_value s1)
    | (intro s1; clear_value s1)
    | (lift_lets; intro s1; refine (fun (hs1 : Keeps org s1) => ?_) ?_; clear_value s1)
    | (lift_lets; intro s1; clear_value s1)
    | with_reducible apply Keeps.ite
    | with_reducible apply State.modEnc_keeps
    | with_reducible apply State.encMove_keeps
    | with_reducible apply State.phase701_keeps
    | split

theorem State.phaseEnd_keeps {org s : State} {c : Nat} (hs : Keeps org s) : Keeps org (s.phaseEnd c) := by
  unfold State.phaseEnd
  repeat' first
    | with_reducible assumption
    | (intro t a ht; have hk : Keeps org t := ht; clear hk)
    | (intro t ht; have hk : Keeps org t := ht; clear hk)
    | (intro s1; refine (fun (hs1 : Keeps org s1) => ?_) ?_; clear_value s1)
    | (intro s1; clear_value s1)
    | (lift_lets; intro s1; refine (fun (hs1 : Keeps org s1) => ?_) ?_; clear_value s1)
    | (lift_lets; intro s1; clear_value s1)
    | with_reducible apply Keeps.when
    | with_reducible apply Keeps.ite
    | with_reducible apply State.modEnc_keeps
    | with_reducible apply State.postEnc_keeps
    | split

theorem State.loseSignal_keeps {org s : State} {c : Nat} (hs : Keeps org s) : Keeps org (s.loseSignal c) := by
  unfold State.loseSignal
  repeat' first
    | with_reducible assumption
    | with_reducible apply Keeps.ite
    | with_reducible apply State.modEnc_keeps
    | with_reducible apply State.postEnc_keeps
    | with_reducible apply State.toLclk_keeps

theorem State.regainSignal_keeps {org s : State} {c : Nat} (hs : Keeps org s) : Keeps org (s.regainSignal c) := by
  unfold State.regainSignal
  repeat' first
    | with_reducible assumption
    | (intro s1; refine (fun (hs1 : Keeps org s1) => ?_) ?_; clear_value s1)
    | (intro s1; clear_value s1)
    | (lift_lets; intro s1; refine (fun (hs1 : Keeps org s1) => ?_) ?_; clear_value s1)
    | (lift_lets; intro s1; clear_value s1)
    | with_reducible apply Keeps.ite
    | with_reducible apply State.modEnc_keeps
    | with_reducible apply State.toLclk_keeps

theorem State.standStill_keeps {org s : State} {c : Nat} (hs : Keeps org s) : Keeps org (s.standStill c) := by
  unfold State.standStill
  repeat' first
    | with_reducible assumption
    | (intro s1; refine (fun (hs1 : Keeps org s1) => ?_) ?_; clear_value s1)
    | (intro s1; clear_value s1)
    | (lift_lets; intro s1; refine (fun (hs1 : Keeps org s1) => ?_) ?_; clear_value s1)
    | (lift_lets; intro s1; clear_value s1)
    | with_reducible apply Keeps.ite
    | with_reducible apply State.modEnc_keeps
    | with_reducible apply State.postEnc_keeps
    | with_reducible apply State.toLclk_keeps
    | split

theorem State.zSample_keeps {org s : State} {c : Nat} {level : Bool} (hs : Keeps org s) : Keeps org (s.zSample c level) := by
  unfold State.zSample
  repeat' first
    | with_reducible assumption
    | (intro s1; refine (fun (hs1 : Keeps org s1) => ?_) ?_; clear_value s1)
    | (intro s1; clear_value s1)
    | (lift_lets; intro s1; refine (fun (hs1 : Keeps org s1) => ?_) ?_; clear_value s1)
    | (lift_lets; intro s1; clear_value s1)
    | with_reducible apply Keeps.ite
    | with_reducible apply State.modEnc_keeps
    | with_reducible apply State.after_keeps
    | with_reducible apply State.toLclk_keeps
    | simp only [s1]

theorem State.ssiFail_keeps {org s : State} {c code : Nat} (hs : Keeps org s) : Keeps org (s.ssiFail c code) := by
  unfold State.ssiFail
  repeat' first
    | with_reducible assumption
    | (intro s1; refine (fun (hs1 : Keeps org s1) => ?_) ?_; clear_value s1)
    | (intro s1; clear_value s1)
    | (lift_lets; intro s1; refine (fun (hs1 : Keeps org s1) => ?_) ?_; clear_value s1)
    | (lift_lets; intro s1; clear_value s1)
    | with_reducible apply State.modEnc_keeps
    | with_reducible apply State.postEnc_keeps
    | with_reducible apply State.qerrHit_keeps
    | with_reducible apply State.idle_keeps

theorem State.ssiStart_keeps {org s : State} {c : Nat} (hs : Keeps org s) : Keeps org (s.ssiStart c) := by
  unfold State.ssiStart
  repeat' first
    | with_reducible assumption
    | (intro s1; refine (fun (hs1 : Keeps org s1) => ?_) ?_; clear_value s1)
    | (intro s1; clear_value s1)
    | (lift_lets; intro s1; refine (fun (hs1 : Keeps org s1) => ?_) ?_; clear_value s1)
    | (lift_lets; intro s1; clear_value s1)
    | with_reducible apply Keeps.ite
    | with_reducible apply State.modEnc_keeps
    | with_reducible apply State.idle_keeps

theorem State.ssiReady_keeps {org s : State} {c : Nat} (hs : Keeps org s) : Keeps org (s.ssiReady c) := by
  unfold State.ssiReady
  split
  all_goals
  repeat' first
    | with_reducible assumption
    | with_reducible apply Keeps.ite
    | with_reducible apply State.modEnc_keeps
    | with_reducible apply State.emit_keeps
    | split

theorem State.ssiTimedOut_keeps {org s : State} {c : Nat} (hs : Keeps org s) : Keeps org (s.ssiTimedOut c) := by
  unfold State.ssiTimedOut
  split
  all_goals
  repeat' first
    | with_reducible assumption
    | with_reducible apply Keeps.ite
    | with_reducible apply State.ssiFail_keeps
    | split

theorem State.ssiDone_keeps {org s : State} {c : Nat} {value : BitVec 32} {stopLow : Bool} (hs : Keeps org s) : Keeps org (s.ssiDone c value stopLow) := by
  unfold State.ssiDone
  repeat' first
    | with_reducible assumption
    | (intro s1; refine (fun (hs1 : Keeps org s1) => ?_) ?_; clear_value s1)
    | (intro s1; clear_value s1)
    | (lift_lets; intro s1; refine (fun (hs1 : Keeps org s1) => ?_) ?_; clear_value s1)
    | (lift_lets; intro s1; clear_value s1)
    | with_reducible apply Keeps.ite
    | with_reducible apply State.modEnc_keeps
    | with_reducible apply State.toLclk_keeps
    | with_reducible apply State.encMove_keeps
    | with_reducible apply State.ssiFail_keeps
    | with_reducible apply State.idle_keeps
    | simp only [s1]
    | split

theorem State.rebaseIn_keeps {org s : State} {c : Nat} {v : Option Int} {clrq : Bool} (hs : Keeps org s) : Keeps org (s.rebaseIn c v clrq) := by
  unfold State.rebaseIn
  repeat' first
    | with_reducible assumption
    | (intro t a ht; have hk : Keeps org t := ht; clear hk)
    | (intro t ht; have hk : Keeps org t := ht; clear hk)
    | (intro s1; refine (fun (hs1 : Keeps org s1) => ?_) ?_; clear_value s1)
    | (intro s1; clear_value s1)
    | (lift_lets; intro s1; refine (fun (hs1 : Keeps org s1) => ?_) ?_; clear_value s1)
    | (lift_lets; intro s1; clear_value s1)
    | with_reducible apply Keeps.when
    | with_reducible apply State.modEnc_keeps
    | with_reducible apply State.toLclk_keeps
    | simp only [s1]
    | split

theorem State.modCh_keeps {org s : State} {ch : Nat} {f : Chan → Chan} (hs : Keeps org s) : Keeps org (s.modCh ch f) := by
  unfold State.modCh
  repeat' first
    | with_reducible assumption
    | with_reducible apply State.modMem_keeps

theorem State.postMem_keeps {org s : State} {n : Option Nat} {r : EvRec} (hs : Keeps org s) : Keeps org (s.postMem n r) := by
  unfold State.postMem
  split
  all_goals
  repeat' first
    | with_reducible assumption
    | with_reducible apply State.postTo_keeps
    | with_reducible apply State.postAll_keeps
    | split

theorem State.retirePage_keeps {org s : State} {pg : Nat} (hs : Keeps org s) : Keeps org (s.retirePage pg) := by
  unfold State.retirePage
  repeat' first
    | with_reducible assumption
    | (intro s1; refine (fun (hs1 : Keeps org s1) => ?_) ?_; clear_value s1)
    | (intro s1; clear_value s1)
    | (lift_lets; intro s1; refine (fun (hs1 : Keeps org s1) => ?_) ?_; clear_value s1)
    | (lift_lets; intro s1; clear_value s1)
    | with_reducible apply Keeps.ite
    | with_reducible apply State.modMem_keeps
    | with_reducible apply State.postAll_keeps

theorem State.dramUeHit_keeps {org s : State} {a : Nat} {patrol : Bool} {n : Option Nat} (hs : Keeps org s) : Keeps org (s.dramUeHit a patrol n) := by
  unfold State.dramUeHit
  repeat' first
    | with_reducible assumption
    | (intro s1; refine (fun (hs1 : Keeps org s1) => ?_) ?_; clear_value s1)
    | (intro s1; clear_value s1)
    | (lift_lets; intro s1; refine (fun (hs1 : Keeps org s1) => ?_) ?_; clear_value s1)
    | (lift_lets; intro s1; clear_value s1)
    | with_reducible apply Keeps.ite
    | with_reducible apply State.modMem_keeps
    | with_reducible apply State.modCh_keeps
    | with_reducible apply State.postMem_keeps
    | with_reducible apply State.retirePage_keeps
    | with_reducible apply State.patrol_keeps

theorem State.dramCeHit_keeps {org s : State} {a : Nat} {patrol : Bool} (hs : Keeps org s) : Keeps org (s.dramCeHit a patrol) := by
  unfold State.dramCeHit
  repeat' first
    | with_reducible assumption
    | (intro t a ht; have hk : Keeps org t := ht; clear hk)
    | (intro t ht; have hk : Keeps org t := ht; clear hk)
    | (intro s1; refine (fun (hs1 : Keeps org s1) => ?_) ?_; clear_value s1)
    | (intro s1; refine (fun (hs1 : Keeps org s1.1) => ?_) ?_; clear_value s1)
    | (intro s1; clear_value s1)
    | (lift_lets; intro s1; refine (fun (hs1 : Keeps org s1) => ?_) ?_; clear_value s1)
    | (lift_lets; intro s1; refine (fun (hs1 : Keeps org s1.1) => ?_) ?_; clear_value s1)
    | (lift_lets; intro s1; clear_value s1)
    | with_reducible apply Keeps.when
    | with_reducible apply Keeps.ite
    | with_reducible apply State.postAll_keeps
    | with_reducible apply State.modCh_keeps
    | with_reducible apply State.patrol_keeps

theorem State.dramTouch_keeps {org s : State} {a n : Nat} (hs : Keeps org s) : Keeps org (s.dramTouch a n) := by
  unfold State.dramTouch
  repeat' first
    | with_reducible assumption
    | (intro t a ht; have hk : Keeps org t := ht; clear hk)
    | (intro t ht; have hk : Keeps org t := ht; clear hk)
    | (intro s1; refine (fun (hs1 : Keeps org s1) => ?_) ?_; clear_value s1)
    | (intro s1; clear_value s1)
    | (lift_lets; intro s1; refine (fun (hs1 : Keeps org s1) => ?_) ?_; clear_value s1)
    | (lift_lets; intro s1; clear_value s1)
    | with_reducible apply Keeps.each
    | with_reducible apply State.modCh_keeps

theorem State.dramRead_keeps {org s : State} {a len : Nat} {n : Option Nat} (hs : Keeps org s) : Keeps org (s.dramRead a len n).1 := by
  unfold State.dramRead
  repeat' first
    | with_reducible assumption
    | (intro t a ht; have hk : Keeps org t := ht; clear hk)
    | (intro t ht; have hk : Keeps org t := ht; clear hk)
    | (intro s1; refine (fun (hs1 : Keeps org s1) => ?_) ?_; clear_value s1)
    | (intro s1; clear_value s1)
    | (lift_lets; intro s1; refine (fun (hs1 : Keeps org s1) => ?_) ?_; clear_value s1)
    | (lift_lets; intro s1; clear_value s1)
    | with_reducible apply Keeps.each
    | with_reducible apply State.dramUeHit_keeps
    | with_reducible apply State.dramCeHit_keeps
    | with_reducible apply State.dramTouch_keeps
    | split
    | (refine Keeps.ofEq (by assumption) ?_)
    | with_reducible apply Keeps.mk

theorem State.flipUse_keeps {org s : State} {a : Nat} (hs : Keeps org s) : Keeps org (s.flipUse a) := by
  unfold State.flipUse
  repeat' first
    | with_reducible assumption
    | (intro s1; refine (fun (hs1 : Keeps org s1) => ?_) ?_; clear_value s1)
    | (intro s1; clear_value s1)
    | (lift_lets; intro s1; refine (fun (hs1 : Keeps org s1) => ?_) ?_; clear_value s1)
    | (lift_lets; intro s1; clear_value s1)
    | with_reducible apply State.setReg_keeps
    | with_reducible apply State.postAll_keeps

theorem State.flipDramWord_keeps {org s : State} {w : Nat} (hs : Keeps org s) : Keeps org (s.flipDramWord w) := by
  unfold State.flipDramWord
  repeat' first
    | with_reducible assumption
    | (intro s1; refine (fun (hs1 : Keeps org s1) => ?_) ?_; clear_value s1)
    | (intro s1; clear_value s1)
    | (lift_lets; intro s1; refine (fun (hs1 : Keeps org s1) => ?_) ?_; clear_value s1)
    | (lift_lets; intro s1; clear_value s1)
    | with_reducible apply Keeps.ite
    | with_reducible apply Keeps.putDram
    | with_reducible apply State.flipUse_keeps
    | with_reducible apply Keeps.mk

theorem State.rmwRead_keeps {org s : State} {w : Nat} (hs : Keeps org s) : Keeps org (s.rmwRead w) := by
  unfold State.rmwRead
  repeat' first
    | with_reducible assumption
    | (intro s1; refine (fun (hs1 : Keeps org s1) => ?_) ?_; clear_value s1)
    | (intro s1; clear_value s1)
    | (lift_lets; intro s1; refine (fun (hs1 : Keeps org s1) => ?_) ?_; clear_value s1)
    | (lift_lets; intro s1; clear_value s1)
    | with_reducible apply Keeps.ite
    | with_reducible apply State.dramUeHit_keeps
    | with_reducible apply State.dramCeHit_keeps
    | with_reducible apply Keeps.mk

theorem State.dramWrite_keeps {org s : State} {a : Nat} {l : List Byte} (hs : Keeps org s) : Keeps org (s.dramWrite a l) := by
  unfold State.dramWrite
  repeat' first
    | with_reducible assumption
    | (intro t a ht; have hk : Keeps org t := ht; clear hk)
    | (intro t ht; have hk : Keeps org t := ht; clear hk)
    | (intro s1; refine (fun (hs1 : Keeps org s1) => ?_) ?_; clear_value s1)
    | (intro s1; clear_value s1)
    | (lift_lets; intro s1; refine (fun (hs1 : Keeps org s1) => ?_) ?_; clear_value s1)
    | (lift_lets; intro s1; clear_value s1)
    | with_reducible apply Keeps.each
    | with_reducible apply Keeps.ite
    | with_reducible apply Keeps.putDram
    | with_reducible apply State.dramTouch_keeps
    | with_reducible apply State.flipDramWord_keeps
    | with_reducible apply State.rmwRead_keeps
    | with_reducible apply Keeps.mk

theorem State.evStore_keeps {org s : State} {n j : Nat} (hs : Keeps org s) : Keeps org (s.evStore n j) := by
  unfold State.evStore
  repeat' first
    | with_reducible assumption
    | (intro s1; refine (fun (hs1 : Keeps org s1) => ?_) ?_; clear_value s1)
    | (intro s1; clear_value s1)
    | (lift_lets; intro s1; refine (fun (hs1 : Keeps org s1) => ?_) ?_; clear_value s1)
    | (lift_lets; intro s1; clear_value s1)
    | with_reducible apply Keeps.clearDram
    | with_reducible apply State.modSess_keeps
    | with_reducible apply State.dramWrite_keeps
    | with_reducible apply Keeps.mk

theorem State.evFlush_keeps {org s : State} {n : Nat} (hs : Keeps org s) : Keeps org (s.evFlush n) := by
  unfold State.evFlush
  repeat' first
    | with_reducible assumption
    | (intro t a ht; have hk : Keeps org t := ht; clear hk)
    | (intro t ht; have hk : Keeps org t := ht; clear hk)
    | (intro s1; refine (fun (hs1 : Keeps org s1) => ?_) ?_; clear_value s1)
    | (intro s1; clear_value s1)
    | (lift_lets; intro s1; refine (fun (hs1 : Keeps org s1) => ?_) ?_; clear_value s1)
    | (lift_lets; intro s1; clear_value s1)
    | with_reducible apply Keeps.each
    | with_reducible apply State.modSess_keeps
    | with_reducible apply State.evStore_keeps

theorem State.evFlushAll_keeps {org s : State} (hs : Keeps org s) : Keeps org (s.evFlushAll) := by
  unfold State.evFlushAll
  repeat' first
    | with_reducible assumption
    | (intro t a ht; have hk : Keeps org t := ht; clear hk)
    | (intro t ht; have hk : Keeps org t := ht; clear hk)
    | with_reducible apply Keeps.each
    | with_reducible apply State.evFlush_keeps

theorem State.evFetch_keeps {org s : State} {n j : Nat} (hs : Keeps org s) : Keeps org (s.evFetch n j).1 := by
  unfold State.evFetch
  repeat' first
    | with_reducible assumption
    | (intro s1; refine (fun (hs1 : Keeps org s1) => ?_) ?_; clear_value s1)
    | (intro s1; refine (fun (hs1 : Keeps org s1.1) => ?_) ?_; clear_value s1)
    | (intro s1; clear_value s1)
    | (lift_lets; intro s1; refine (fun (hs1 : Keeps org s1) => ?_) ?_; clear_value s1)
    | (lift_lets; intro s1; refine (fun (hs1 : Keeps org s1.1) => ?_) ?_; clear_value s1)
    | (lift_lets; intro s1; clear_value s1)
    | with_reducible apply Keeps.ite_fst
    | with_reducible apply Keeps.ite
    | with_reducible apply State.modSess_keeps
    | with_reducible apply State.dramRead_keeps
    | split

theorem State.sramUeHit_keeps {org s : State} {w k : Nat} (hs : Keeps org s) : Keeps org (s.sramUeHit w k) := by
  unfold State.sramUeHit
  repeat' first
    | with_reducible assumption
    | (intro s1; refine (fun (hs1 : Keeps org s1) => ?_) ?_; clear_value s1)
    | (intro s1; clear_value s1)
    | (lift_lets; intro s1; refine (fun (hs1 : Keeps org s1) => ?_) ?_; clear_value s1)
    | (lift_lets; intro s1; clear_value s1)
    | with_reducible apply State.modMem_keeps
    | with_reducible apply State.postAll_keeps

theorem State.sramCeHit_keeps {org s : State} {w k b : Nat} (hs : Keeps org s) : Keeps org (s.sramCeHit w k b) := by
  unfold State.sramCeHit
  repeat' first
    | with_reducible assumption
    | (intro t a ht; have hk : Keeps org t := ht; clear hk)
    | (intro t ht; have hk : Keeps org t := ht; clear hk)
    | (intro s1; refine (fun (hs1 : Keeps org s1) => ?_) ?_; clear_value s1)
    | (intro s1; refine (fun (hs1 : Keeps org s1.1) => ?_) ?_; clear_value s1)
    | (intro s1; clear_value s1)
    | (lift_lets; intro s1; refine (fun (hs1 : Keeps org s1) => ?_) ?_; clear_value s1)
    | (lift_lets; intro s1; refine (fun (hs1 : Keeps org s1.1) => ?_) ?_; clear_value s1)
    | (lift_lets; intro s1; clear_value s1)
    | with_reducible apply Keeps.when
    | with_reducible apply State.modMem_keeps
    | with_reducible apply State.postAll_keeps

theorem State.flipSram_keeps {org s : State} {w n : Nat} (hs : Keeps org s) : Keeps org (s.flipSram w n).1 := by
  unfold State.flipSram
  repeat' first
    | with_reducible assumption
    | (intro s1; refine (fun (hs1 : Keeps org s1) => ?_) ?_; clear_value s1)
    | (intro s1; clear_value s1)
    | (lift_lets; intro s1; refine (fun (hs1 : Keeps org s1) => ?_) ?_; clear_value s1)
    | (lift_lets; intro s1; clear_value s1)
    | with_reducible apply Keeps.ite_fst
    | with_reducible apply Keeps.ite
    | with_reducible apply State.flipUse_keeps
    | simp only [s1]
    | split
    | (refine Keeps.ofEq (by assumption) ?_)

theorem State.sramWrite_keeps {org s : State} {w n : Nat} (hs : Keeps org s) : Keeps org (s.sramWrite w n).1 := by
  unfold State.sramWrite
  repeat' first
    | with_reducible assumption
    | (intro t a ht; have hk : Keeps org t := ht; clear hk)
    | (intro t ht; have hk : Keeps org t := ht; clear hk)
    | (intro t a ht; have hk : Keeps org t.1 := ht; clear hk)
    | (intro s1; refine (fun (hs1 : Keeps org s1) => ?_) ?_; clear_value s1)
    | (intro s1; refine (fun (hs1 : Keeps org s1.1) => ?_) ?_; clear_value s1)
    | (intro s1; clear_value s1)
    | (lift_lets; intro s1; refine (fun (hs1 : Keeps org s1) => ?_) ?_; clear_value s1)
    | (lift_lets; intro s1; refine (fun (hs1 : Keeps org s1.1) => ?_) ?_; clear_value s1)
    | (lift_lets; intro s1; clear_value s1)
    | with_reducible apply Keeps.ite_fst
    | with_reducible apply Keeps.ite
    | with_reducible apply Keeps.foldl
    | with_reducible apply Keeps.foldl_fst
    | with_reducible apply State.modMem_keeps
    | with_reducible apply State.flipSram_keeps
    | simp only [s1]
    | split

theorem State.sramRead_keeps {org s : State} {w n : Nat} (hs : Keeps org s) : Keeps org (s.sramRead w n) := by
  unfold State.sramRead
  repeat' first
    | with_reducible assumption
    | (intro t a ht; have hk : Keeps org t := ht; clear hk)
    | (intro t ht; have hk : Keeps org t := ht; clear hk)
    | (intro t a ht; have hk : Keeps org t.1 := ht; clear hk)
    | (intro s1; refine (fun (hs1 : Keeps org s1) => ?_) ?_; clear_value s1)
    | (intro s1; refine (fun (hs1 : Keeps org s1.1) => ?_) ?_; clear_value s1)
    | (intro s1; clear_value s1)
    | (lift_lets; intro s1; refine (fun (hs1 : Keeps org s1) => ?_) ?_; clear_value s1)
    | (lift_lets; intro s1; refine (fun (hs1 : Keeps org s1.1) => ?_) ?_; clear_value s1)
    | (lift_lets; intro s1; clear_value s1)
    | with_reducible apply Keeps.each
    | with_reducible apply Keeps.foldl
    | with_reducible apply Keeps.foldl_fst
    | with_reducible apply State.modMem_keeps
    | with_reducible apply State.sramCeHit_keeps

theorem State.restampAll_keeps {org s : State} {q : Nat} {old : List Sched} (hs : Keeps org s) : Keeps org (s.restampAll q old) := by
  unfold State.restampAll
  repeat' first
    | with_reducible assumption
    | (intro t a ht; have hk : Keeps org t := ht; clear hk)
    | (intro t ht; have hk : Keeps org t := ht; clear hk)
    | with_reducible apply Keeps.each
    | with_reducible apply State.restamp_keeps

theorem State.pullIn_keeps {org s : State} {c t : Nat} (hs : Keeps org s) : Keeps org (s.pullIn c t) := by
  unfold State.pullIn
  repeat' first
    | with_reducible assumption
    | (intro t a ht; have hk : Keeps org t := ht; clear hk)
    | (intro t ht; have hk : Keeps org t := ht; clear hk)
    | with_reducible apply Keeps.each
    | with_reducible apply State.modPlace_keeps
    | with_reducible apply State.restampAll_keeps

theorem State.zedgeIn_keeps {org s : State} {c : Nat} (hs : Keeps org s) : Keeps org (s.zedgeIn c) := by
  unfold State.zedgeIn
  repeat' first
    | with_reducible assumption
    | (intro t a ht; have hk : Keeps org t := ht; clear hk)
    | (intro t ht; have hk : Keeps org t := ht; clear hk)
    | with_reducible apply Keeps.each
    | with_reducible apply Keeps.ite
    | with_reducible apply State.modAx_keeps

theorem State.frameIn_keeps {org s : State} {c no : Nat} (hs : Keeps org s) : Keeps org (s.frameIn c no) := by
  unfold State.frameIn
  repeat' first
    | with_reducible assumption
    | (intro s1; refine (fun (hs1 : Keeps org s1) => ?_) ?_; clear_value s1)
    | (intro s1; clear_value s1)
    | (lift_lets; intro s1; refine (fun (hs1 : Keeps org s1) => ?_) ?_; clear_value s1)
    | (lift_lets; intro s1; clear_value s1)
    | with_reducible apply Keeps.ite
    | with_reducible apply State.modCam_keeps

theorem State.reqEnd_keeps {org s : State} {c : Nat} {r : TrigReq} {done : Bool} (hs : Keeps org s) : Keeps org (s.reqEnd c r done) := by
  unfold State.reqEnd
  repeat' first
    | with_reducible assumption
    | (intro s1; refine (fun (hs1 : Keeps org s1) => ?_) ?_; clear_value s1)
    | (intro s1; clear_value s1)
    | (lift_lets; intro s1; refine (fun (hs1 : Keeps org s1) => ?_) ?_; clear_value s1)
    | (lift_lets; intro s1; clear_value s1)
    | with_reducible apply Keeps.ite
    | with_reducible apply State.modCam_keeps
    | with_reducible apply State.setEv_keeps
    | split

theorem State.happen_keeps {org s : State} {d : Due} (hs : Keeps org s) : Keeps org (s.happen d) := by
  unfold State.happen
  split
  all_goals
  repeat' first
    | with_reducible assumption
    | (intro t a ht; have hk : Keeps org t := ht; clear hk)
    | (intro t ht; have hk : Keeps org t := ht; clear hk)
    | with_reducible apply Keeps.each
    | with_reducible apply State.motApply_keeps
    | with_reducible apply State.motion_keeps
    | with_reducible apply State.setEv_keeps
    | with_reducible apply State.flush_keeps
    | with_reducible apply State.seenIn_keeps
    | with_reducible apply State.encSample_keeps
    | with_reducible apply State.zSample_keeps
    | with_reducible apply State.rebaseIn_keeps
    | with_reducible apply State.pullIn_keeps
    | with_reducible apply State.zedgeIn_keeps
    | with_reducible apply State.frameIn_keeps
    | with_reducible apply State.reqEnd_keeps
    | split

theorem State.runDue_keeps {org : State} {t : Nat} : ∀ {k : Nat} {s : State}, Keeps org s → Keeps org (s.runDue t k)
  | 0, _, h => h
  | k + 1, s, h => by
    unfold State.runDue
    split
    · exact h
    · exact State.runDue_keeps (State.happen_keeps (State.passTo_keeps (Keeps.mk h)))

theorem State.settle_keeps {org s : State} {t : Nat} (hs : Keeps org s) : Keeps org (s.settle t) := by
  unfold State.settle
  repeat' first
    | with_reducible assumption
    | with_reducible apply State.runDue_keeps

theorem foldl_wf {ws : List HostWrite} : ∀ {m : Vector (List Host.Cell) 4}, (∀ f : Fin 4, Memory.wf (vget m f) = true) →
    ∀ f : Fin 4, Memory.wf (vget (ws.foldl (fun m (w : HostWrite) => vmod m w.fn (fun l => memPut l w.addr w.byte)) m) f) = true := by
  induction ws with
  | nil => exact fun h => h
  | cons w ws ih =>
    intro m h
    exact ih (fun f => by
      by_cases e : (w.fn : Nat) = f
      · rw [← e, vget_vmod_fin]
        exact memPut_wf _ _ (h w.fn)
      · rw [vget_vmod_ne _ _ _ _ e]
        exact h f)

theorem State.arrive_keeps {org s : State} {e : Env} (h : Keeps org s) : Keeps org (s.arrive e) := by
  unfold State.arrive
  lift_lets
  intro t0 s1 s2 s3
  have h1 : Keeps org s1 := Keeps.mk h
  clear_value s1
  have h2 : Keeps org s2 := by
    simp only [s2]
    exact Keeps.ite h1 (State.evFlushAll_keeps h1)
  clear_value s2
  have h3 : Keeps org s3 := State.passTo_keeps (State.settle_keeps h2)
  clear_value s3
  exact ⟨h3.1, fun m => ⟨(h3.2 m).1, foldl_wf (h3.2 m).2.1, (h3.2 m).2.2⟩⟩

theorem State.refuse_keeps {org s : State} {n code src : Nat} {detail : Word} (hs : Keeps org s) : Keeps org (s.refuse n code src detail).1 := by
  unfold State.refuse
  repeat' first
    | with_reducible assumption
    | with_reducible apply State.postErr_keeps

theorem State.dropWr_keeps {org s : State} {f : Nat} (hs : Keeps org s) : Keeps org (s.dropWr f) := by
  unfold State.dropWr
  repeat' first
    | with_reducible assumption
    | with_reducible apply State.modXlt_keeps

theorem State.asWriter_keeps {org s : State} {w : Writer} {crit : Bool} {op : State → Nat → State × Nat} (hs : Keeps org s) (hop : ∀ t a0, Keeps org t → Keeps org (op t a0).1) : Keeps org (s.asWriter w crit op) := by
  unfold State.asWriter
  repeat' first
    | with_reducible assumption
    | (intro t a ht; have hk : Keeps org t := ht; clear hk)
    | (intro t ht; have hk : Keeps org t := ht; clear hk)
    | with_reducible apply Keeps.ite
    | with_reducible apply hop
    | with_reducible apply State.postErr_keeps
    | with_reducible apply State.dropWr_keeps
    | split

theorem State.ifRight_keeps {org s : State} {ok : Bool} {n src : Nat} {op : State → State × Nat} (hs : Keeps org s) (hop : ∀ t, Keeps org t → Keeps org (op t).1) : Keeps org (s.ifRight ok n src op).1 := by
  unfold State.ifRight
  repeat' first
    | with_reducible assumption
    | (intro t a ht; have hk : Keeps org t := ht; clear hk)
    | (intro t ht; have hk : Keeps org t := ht; clear hk)
    | with_reducible apply Keeps.ite_fst
    | with_reducible apply Keeps.ite
    | with_reducible apply hop
    | with_reducible apply State.refuse_keeps
    | split

theorem State.wrEncCtl_keeps {org s : State} {n c : Nat} {v : Word} (hs : Keeps org s) : Keeps org (s.wrEncCtl n c v).1 := by
  unfold State.wrEncCtl
  repeat' first
    | with_reducible assumption
    | (intro t a ht; have hk : Keeps org t := ht; clear hk)
    | (intro t ht; have hk : Keeps org t := ht; clear hk)
    | (intro s1; refine (fun (hs1 : Keeps org s1) => ?_) ?_; clear_value s1)
    | (intro s1; clear_value s1)
    | (lift_lets; intro s1; refine (fun (hs1 : Keeps org s1) => ?_) ?_; clear_value s1)
    | (lift_lets; intro s1; clear_value s1)
    | with_reducible apply Keeps.ite_fst
    | with_reducible apply Keeps.ite
    | with_reducible apply State.after_keeps
    | with_reducible apply State.refuse_keeps
    | with_reducible apply State.ifRight_keeps
    | split

theorem State.pinsMove_keeps {org s : State} {c : Nat} {a b : Bool} (hs : Keeps org s) : Keeps org (s.pinsMove c a b) := by
  unfold State.pinsMove
  repeat' first
    | with_reducible assumption
    | with_reducible apply State.after_keeps

theorem State.zMove_keeps {org s : State} {c : Nat} {level : Bool} (hs : Keeps org s) : Keeps org (s.zMove c level) := by
  unfold State.zMove
  repeat' first
    | with_reducible assumption
    | with_reducible apply State.after_keeps

theorem State.sliceEcc_keeps {org s : State} {p : Nat} {words : List Nat} (hs : Keeps org s) : Keeps org (s.sliceEcc p words) := by
  unfold State.sliceEcc
  repeat' first
    | with_reducible assumption
    | (intro t a ht; have hk : Keeps org t := ht; clear hk)
    | (intro t ht; have hk : Keeps org t := ht; clear hk)
    | (intro s1; refine (fun (hs1 : Keeps org s1) => ?_) ?_; clear_value s1)
    | (intro s1; clear_value s1)
    | (lift_lets; intro s1; refine (fun (hs1 : Keeps org s1) => ?_) ?_; clear_value s1)
    | (lift_lets; intro s1; clear_value s1)
    | with_reducible apply Keeps.when
    | with_reducible apply Keeps.each
    | with_reducible apply Keeps.ite
    | with_reducible apply State.modFp_keeps
    | with_reducible apply State.postUnit_keeps
    | with_reducible apply State.sramUeHit_keeps

theorem State.startPush_keeps {org s : State} {p : Nat} {why : PushWhy} (hs : Keeps org s) : Keeps org (s.startPush p why) := by
  unfold State.startPush
  repeat' first
    | with_reducible assumption
    | (intro s1; refine (fun (hs1 : Keeps org s1) => ?_) ?_; clear_value s1)
    | (intro s1; clear_value s1)
    | (lift_lets; intro s1; refine (fun (hs1 : Keeps org s1) => ?_) ?_; clear_value s1)
    | (lift_lets; intro s1; clear_value s1)
    | with_reducible apply Keeps.ite
    | with_reducible apply State.modFp_keeps
    | with_reducible apply State.sliceEcc_keeps
    | simp only [s1]

theorem State.pushAgain_keeps {org s : State} {p : Nat} (hs : Keeps org s) : Keeps org (s.pushAgain p) := by
  unfold State.pushAgain
  split
  all_goals
  repeat' first
    | with_reducible assumption
    | with_reducible apply State.startPush_keeps
    | split

theorem State.stagedEcc_keeps {org s : State} {p : Nat} {words : List Nat} (hs : Keeps org s) : Keeps org (s.stagedEcc p words) := by
  unfold State.stagedEcc
  repeat' first
    | with_reducible assumption
    | (intro t a ht; have hk : Keeps org t := ht; clear hk)
    | (intro t ht; have hk : Keeps org t := ht; clear hk)
    | with_reducible apply Keeps.each
    | with_reducible apply Keeps.ite
    | with_reducible apply State.sramUeHit_keeps
    | with_reducible apply State.pushAgain_keeps

theorem State.pushStart_keeps {org s : State} {p : Nat} (hs : Keeps org s) : Keeps org (s.pushStart p) := by
  unfold State.pushStart
  repeat' first
    | with_reducible assumption
    | (intro s1; refine (fun (hs1 : Keeps org s1) => ?_) ?_; clear_value s1)
    | (intro s1; clear_value s1)
    | (lift_lets; intro s1; refine (fun (hs1 : Keeps org s1) => ?_) ?_; clear_value s1)
    | (lift_lets; intro s1; clear_value s1)
    | with_reducible apply Keeps.ite
    | with_reducible apply State.startPush_keeps
    | simp only [s1]
    | split

theorem State.portFault_keeps {org s : State} {p det : Nat} (hs : Keeps org s) : Keeps org (s.portFault p det) := by
  unfold State.portFault
  repeat' first
    | with_reducible assumption
    | (intro t a ht; have hk : Keeps org t := ht; clear hk)
    | (intro t ht; have hk : Keeps org t := ht; clear hk)
    | (intro s1; refine (fun (hs1 : Keeps org s1) => ?_) ?_; clear_value s1)
    | (intro s1; clear_value s1)
    | (lift_lets; intro s1; refine (fun (hs1 : Keeps org s1) => ?_) ?_; clear_value s1)
    | (lift_lets; intro s1; clear_value s1)
    | with_reducible apply Keeps.when
    | with_reducible apply Keeps.ite
    | with_reducible apply State.modFp_keeps
    | with_reducible apply State.modKl_keeps
    | with_reducible apply State.postUnit_keeps
    | with_reducible apply State.laneDown_keeps
    | with_reducible apply State.quitSwath_keeps

theorem State.leaveReady_keeps {org s : State} {p : Nat} {st : KlSt} (hs : Keeps org s) : Keeps org (s.leaveReady p st) := by
  unfold State.leaveReady
  repeat' first
    | with_reducible assumption
    | (intro t a ht; have hk : Keeps org t := ht; clear hk)
    | (intro t ht; have hk : Keeps org t := ht; clear hk)
    | (intro s1; refine (fun (hs1 : Keeps org s1) => ?_) ?_; clear_value s1)
    | (intro s1; clear_value s1)
    | (lift_lets; intro s1; refine (fun (hs1 : Keeps org s1) => ?_) ?_; clear_value s1)
    | (lift_lets; intro s1; clear_value s1)
    | with_reducible apply Keeps.when
    | with_reducible apply State.modFp_keeps
    | with_reducible apply State.modKl_keeps
    | with_reducible apply State.laneDown_keeps
    | with_reducible apply State.quitSwath_keeps

theorem State.pushFail_keeps {org s : State} {p : Nat} (hs : Keeps org s) : Keeps org (s.pushFail p) := by
  unfold State.pushFail
  split
  all_goals
  repeat' first
    | with_reducible assumption
    | (intro s1; refine (fun (hs1 : Keeps org s1) => ?_) ?_; clear_value s1)
    | (intro s1; clear_value s1)
    | (lift_lets; intro s1; refine (fun (hs1 : Keeps org s1) => ?_) ?_; clear_value s1)
    | (lift_lets; intro s1; clear_value s1)
    | with_reducible apply Keeps.ite
    | with_reducible apply State.modFp_keeps
    | with_reducible apply State.postUnit_keeps
    | with_reducible apply State.portFault_keeps
    | split

theorem State.pushRetry_keeps {org s : State} {p : Nat} (hs : Keeps org s) : Keeps org (s.pushRetry p) := by
  unfold State.pushRetry
  split
  all_goals
  repeat' first
    | with_reducible assumption
    | with_reducible apply Keeps.ite
    | with_reducible apply State.modFp_keeps
    | with_reducible apply State.pushStart_keeps
    | split

theorem State.bandLoadDone_keeps {org s : State} {p : Nat} (hs : Keeps org s) : Keeps org (s.bandLoadDone p) := by
  unfold State.bandLoadDone
  repeat' first
    | with_reducible assumption
    | (intro s1; refine (fun (hs1 : Keeps org s1) => ?_) ?_; clear_value s1)
    | (intro s1; refine (fun (hs1 : Keeps org s1.1) => ?_) ?_; clear_value s1)
    | (intro s1; clear_value s1)
    | (lift_lets; intro s1; refine (fun (hs1 : Keeps org s1) => ?_) ?_; clear_value s1)
    | (lift_lets; intro s1; refine (fun (hs1 : Keeps org s1.1) => ?_) ?_; clear_value s1)
    | (lift_lets; intro s1; clear_value s1)
    | with_reducible apply Keeps.ite
    | with_reducible apply State.modFp_keeps
    | with_reducible apply State.sramWrite_keeps
    | with_reducible apply State.pushFail_keeps
    | simp only [s1]
    | split

theorem State.pushDone_keeps {org s : State} {p : Nat} (hs : Keeps org s) : Keeps org (s.pushDone p) := by
  unfold State.pushDone
  repeat' first
    | with_reducible assumption
    | (intro s1; refine (fun (hs1 : Keeps org s1) => ?_) ?_; clear_value s1)
    | (intro s1; clear_value s1)
    | (lift_lets; intro s1; refine (fun (hs1 : Keeps org s1) => ?_) ?_; clear_value s1)
    | (lift_lets; intro s1; clear_value s1)
    | with_reducible apply Keeps.ite
    | with_reducible apply State.modFp_keeps
    | with_reducible apply State.modKl_keeps
    | with_reducible apply State.stagedEcc_keeps
    | split

theorem State.frameRetry_keeps {org s : State} {p i : Nat} (hs : Keeps org s) : Keeps org (s.frameRetry p i) := by
  unfold State.frameRetry
  split
  all_goals
  repeat' first
    | with_reducible assumption
    | with_reducible apply Keeps.ite
    | with_reducible apply State.modFp_keeps
    | with_reducible apply State.pushFail_keeps
    | split

theorem State.pushAck_keeps {org s : State} {p : Nat} {a : Ack} (hs : Keeps org s) : Keeps org (s.pushAck p a) := by
  unfold State.pushAck
  split
  all_goals
  repeat' first
    | with_reducible assumption
    | (intro s1; refine (fun (hs1 : Keeps org s1) => ?_) ?_; clear_value s1)
    | (intro s1; clear_value s1)
    | (lift_lets; intro s1; refine (fun (hs1 : Keeps org s1) => ?_) ?_; clear_value s1)
    | (lift_lets; intro s1; clear_value s1)
    | with_reducible apply Keeps.ite
    | with_reducible apply State.modFp_keeps
    | with_reducible apply State.postUnit_keeps
    | with_reducible apply State.pushDone_keeps
    | with_reducible apply State.frameRetry_keeps
    | split

theorem State.ackTimeout_keeps {org s : State} {p : Nat} (hs : Keeps org s) : Keeps org (s.ackTimeout p) := by
  unfold State.ackTimeout
  split
  all_goals
  repeat' first
    | with_reducible assumption
    | with_reducible apply State.frameRetry_keeps
    | split

theorem State.tableFrameSend_keeps {org s : State} {p : Nat} (hs : Keeps org s) : Keeps org (s.tableFrameSend p) := by
  unfold State.tableFrameSend
  repeat' first
    | with_reducible assumption
    | (intro s1; refine (fun (hs1 : Keeps org s1) => ?_) ?_; clear_value s1)
    | (intro s1; clear_value s1)
    | (lift_lets; intro s1; refine (fun (hs1 : Keeps org s1) => ?_) ?_; clear_value s1)
    | (lift_lets; intro s1; clear_value s1)
    | with_reducible apply Keeps.ite
    | with_reducible apply State.modFp_keeps
    | with_reducible apply State.modKl_keeps
    | with_reducible apply State.sendFrame_keeps
    | with_reducible apply State.stagedEcc_keeps
    | split

theorem State.hvDrop_keeps {org s : State} {mask : Nat} (hs : Keeps org s) : Keeps org (s.hvDrop mask) := by
  unfold State.hvDrop
  repeat' first
    | with_reducible assumption
    | (intro s1; refine (fun (hs1 : Keeps org s1) => ?_) ?_; clear_value s1)
    | (intro s1; clear_value s1)
    | (lift_lets; intro s1; refine (fun (hs1 : Keeps org s1) => ?_) ?_; clear_value s1)
    | (lift_lets; intro s1; clear_value s1)
    | with_reducible apply Keeps.mk

theorem State.hvOn_keeps {org s : State} {g n : Nat} (hs : Keeps org s) : Keeps org (s.hvOn g n).1 := by
  unfold State.hvOn
  repeat' first
    | with_reducible assumption
    | (intro t a ht; have hk : Keeps org t := ht; clear hk)
    | (intro t ht; have hk : Keeps org t := ht; clear hk)
    | (intro s1; refine (fun (hs1 : Keeps org s1) => ?_) ?_; clear_value s1)
    | (intro s1; clear_value s1)
    | (lift_lets; intro s1; refine (fun (hs1 : Keeps org s1) => ?_) ?_; clear_value s1)
    | (lift_lets; intro s1; clear_value s1)
    | with_reducible apply Keeps.when
    | with_reducible apply Keeps.ite_fst
    | with_reducible apply Keeps.ite
    | with_reducible apply State.postErr_keeps
    | with_reducible apply State.causeClear_keeps
    | split
    | with_reducible apply Keeps.mk

theorem State.hvSettled_keeps {org s : State} {g : Nat} (hs : Keeps org s) : Keeps org (s.hvSettled g) := by
  unfold State.hvSettled
  repeat' first
    | with_reducible assumption
    | with_reducible apply Keeps.ite
    | with_reducible apply Keeps.mk

theorem State.globalCause_keeps {org s : State} {code latch : Nat} {hv : Bool} {f : Safe → Safe} (hs : Keeps org s) : Keeps org (s.globalCause code latch hv f) := by
  unfold State.globalCause
  repeat' first
    | with_reducible assumption
    | (intro t a ht; have hk : Keeps org t := ht; clear hk)
    | (intro t ht; have hk : Keeps org t := ht; clear hk)
    | (intro s1; refine (fun (hs1 : Keeps org s1) => ?_) ?_; clear_value s1)
    | (intro s1; clear_value s1)
    | (lift_lets; intro s1; refine (fun (hs1 : Keeps org s1) => ?_) ?_; clear_value s1)
    | (lift_lets; intro s1; clear_value s1)
    | with_reducible apply Keeps.when
    | with_reducible apply State.causeSet_keeps
    | with_reducible apply State.haltAll_keeps
    | with_reducible apply State.trigStopAll_keeps
    | with_reducible apply State.hvDrop_keeps

theorem State.safeAssert_keeps {org s : State} (hs : Keeps org s) : Keeps org (s.safeAssert) := by
  unfold State.safeAssert
  repeat' first
    | with_reducible assumption
    | (intro s1; refine (fun (hs1 : Keeps org s1) => ?_) ?_; clear_value s1)
    | (intro s1; clear_value s1)
    | (lift_lets; intro s1; refine (fun (hs1 : Keeps org s1) => ?_) ?_; clear_value s1)
    | (lift_lets; intro s1; clear_value s1)
    | with_reducible apply Keeps.ite
    | with_reducible apply State.globalCause_keeps
    | with_reducible apply Keeps.mk

theorem State.safeRelease_keeps {org s : State} (hs : Keeps org s) : Keeps org (s.safeRelease) := by
  unfold State.safeRelease
  repeat' first
    | with_reducible assumption
    | (intro s1; refine (fun (hs1 : Keeps org s1) => ?_) ?_; clear_value s1)
    | (intro s1; clear_value s1)
    | (lift_lets; intro s1; refine (fun (hs1 : Keeps org s1) => ?_) ?_; clear_value s1)
    | (lift_lets; intro s1; clear_value s1)
    | with_reducible apply Keeps.ite
    | with_reducible apply State.causeClear_keeps
    | with_reducible apply Keeps.mk

theorem State.firSample_keeps {org s : State} {p : Nat} {h : Option Int} {vsup : Nat} (hs : Keeps org s) : Keeps org (s.firSample p h vsup) := by
  unfold State.firSample
  repeat' first
    | with_reducible assumption
    | (intro t a ht; have hk : Keeps org t := ht; clear hk)
    | (intro t ht; have hk : Keeps org t := ht; clear hk)
    | (intro s1; refine (fun (hs1 : Keeps org s1) => ?_) ?_; clear_value s1)
    | (intro s1; clear_value s1)
    | (lift_lets; intro s1; refine (fun (hs1 : Keeps org s1) => ?_) ?_; clear_value s1)
    | (lift_lets; intro s1; clear_value s1)
    | with_reducible apply Keeps.when
    | with_reducible apply Keeps.ite
    | with_reducible apply State.modFp_keeps
    | with_reducible apply State.postUnit_keeps
    | with_reducible apply State.causeSet_keeps
    | with_reducible apply State.hvDrop_keeps
    | split

end Sys2Proof.Machine
end

