-- ==== Sys2Proof/Laws/KeepStream.lean ====
section
/-! SUPPORT. What the operations keep: translation, the streams and the axes. -/
set_option maxRecDepth 2000
namespace Sys2Proof.Machine
open Sys2Proof

theorem State.tlbUse_keeps {org s : State} {e : TlbEntry} (hs : Keeps org s) : Keeps org (s.tlbUse e) := by
  unfold State.tlbUse
  repeat' first
    | with_reducible assumption
    | (intro s1; refine (fun (hs1 : Keeps org s1) => ?_) ?_; clear_value s1)
    | (intro s1; clear_value s1)
    | (lift_lets; intro s1; refine (fun (hs1 : Keeps org s1) => ?_) ?_; clear_value s1)
    | (lift_lets; intro s1; clear_value s1)
    | with_reducible apply State.modXlt_keeps

theorem State.tlbDrop_keeps {org s : State} {n : Nat} {f : Nat → Bool} (hs : Keeps org s) : Keeps org (s.tlbDrop n f) := by
  unfold State.tlbDrop
  repeat' first
    | with_reducible assumption
    | with_reducible apply State.modXlt_keeps

theorem State.xltFault_keeps {org s : State} {n va code kind unit : Nat} (hs : Keeps org s) : Keeps org (s.xltFault n va code kind unit) := by
  unfold State.xltFault
  repeat' first
    | with_reducible assumption
    | (intro s1; refine (fun (hs1 : Keeps org s1) => ?_) ?_; clear_value s1)
    | (intro s1; clear_value s1)
    | (lift_lets; intro s1; refine (fun (hs1 : Keeps org s1) => ?_) ?_; clear_value s1)
    | (lift_lets; intro s1; clear_value s1)
    | with_reducible apply Keeps.ite
    | with_reducible apply State.modSess_keeps
    | with_reducible apply State.raiseSess_keeps
    | with_reducible apply State.postTo_keeps
    | simp only [s1]

theorem State.xlate_keeps {org s : State} {n va : Nat} {wr hostOk : Bool} (hs : Keeps org s) : Keeps org (s.xlate n va wr hostOk).1 := by
  unfold State.xlate
  split
  all_goals
  repeat' first
    | with_reducible assumption
    | (intro s1; refine (fun (hs1 : Keeps org s1) => ?_) ?_; clear_value s1)
    | (intro s1; clear_value s1)
    | (lift_lets; intro s1; refine (fun (hs1 : Keeps org s1) => ?_) ?_; clear_value s1)
    | (lift_lets; intro s1; clear_value s1)
    | with_reducible apply State.modXlt_keeps
    | with_reducible apply State.tlbUse_keeps
    | split
    | (refine Keeps.ofEq (by assumption) ?_)

theorem State.walkFault_keeps {org s : State} {n va kind unit : Nat} {c : WalkErr} (hs : Keeps org s) : Keeps org (s.walkFault n va kind unit c) := by
  unfold State.walkFault
  repeat' first
    | with_reducible assumption
    | (intro s1; refine (fun (hs1 : Keeps org s1) => ?_) ?_; clear_value s1)
    | (intro s1; refine (fun (hs1 : Keeps org s1.1) => ?_) ?_; clear_value s1)
    | (intro s1; clear_value s1)
    | (lift_lets; intro s1; refine (fun (hs1 : Keeps org s1) => ?_) ?_; clear_value s1)
    | (lift_lets; intro s1; refine (fun (hs1 : Keeps org s1.1) => ?_) ?_; clear_value s1)
    | (lift_lets; intro s1; clear_value s1)
    | with_reducible apply Keeps.ite
    | with_reducible apply State.dramUeHit_keeps
    | with_reducible apply State.xltFault_keeps
    | simp only [s1]
    | split

theorem State.pieces_keeps {org : State} {n kind unit : Nat} {wr : Bool} : ∀ {k va len : Nat} {s : State}, Keeps org s →
    Keeps org (s.pieces n kind unit wr k va len).1
  | 0, _, _, _, h => h
  | k + 1, va, len, s, h => by
    unfold State.pieces
    split
    · exact h
    · have hx := State.xlate_keeps (n := n) (va := va % 2 ^ 48) (wr := wr) (hostOk := true) h
      dsimp only
      split
      · rename_i s1 c e
        exact State.walkFault_keeps (Keeps.ofEq e hx)
      · rename_i s1 t e
        have hp := State.pieces_keeps (n := n) (kind := kind) (unit := unit) (wr := wr) (k := k)
          (va := va % 2 ^ 48 + min len (65536 - va % 2 ^ 48 % 65536))
          (len := len - min len (65536 - va % 2 ^ 48 % 65536)) (Keeps.ofEq e hx)
        split <;> exact Keeps.ofEq (by assumption) hp

theorem State.access_keeps {org s : State} {n kind unit : Nat} {wr : Bool} {va len : Nat} (hs : Keeps org s) : Keeps org (s.access n kind unit wr va len).1 := by
  unfold State.access
  repeat' first
    | with_reducible assumption
    | with_reducible apply State.pieces_keeps

theorem State.readPieces_keeps {org : State} {n kind : Nat} : ∀ {l : List Piece} {s : State}, Keeps org s →
    Keeps org (s.readPieces n kind l).1
  | [], _, h => h
  | p :: l, s, h => by
    unfold State.readPieces
    lift_lets
    intro r
    have hr : Keeps org r.1 := by
      simp only [r]
      split
      · exact State.dramRead_keeps h
      · exact h
    clear_value r
    split
    · exact hr
    · rename_i s1 b
      have hp := State.readPieces_keeps (n := n) (kind := kind) (l := l) hr
      split <;> exact Keeps.ofEq (by assumption) hp

theorem State.vread_keeps {org s : State} {n kind unit va len : Nat} (hs : Keeps org s) : Keeps org (s.vread n kind unit va len).1 := by
  unfold State.vread
  split
  all_goals
  repeat' first
    | with_reducible assumption
    | with_reducible apply State.access_keeps
    | with_reducible apply State.readPieces_keeps
    | split
    | (refine Keeps.ofEq (by assumption) ?_)

theorem State.writePieces_keeps {org : State} {n : Nat} : ∀ {l : List Piece} {b : List Byte} {s : State}, Keeps org s →
    Keeps org (s.writePieces n l b)
  | [], _, _, h => h
  | p :: l, b, s, h => by
    unfold State.writePieces
    apply State.writePieces_keeps
    split
    · exact State.dramWrite_keeps h
    · exact Keeps.putHost h

theorem State.vwrite_keeps {org s : State} {n kind unit va : Nat} {b : List Byte} (hs : Keeps org s) : Keeps org (s.vwrite n kind unit va b).1 := by
  unfold State.vwrite
  split
  all_goals
  repeat' first
    | with_reducible assumption
    | with_reducible apply State.access_keeps
    | with_reducible apply State.writePieces_keeps
    | split
    | (refine Keeps.ofEq (by assumption) ?_)

theorem State.strErr_keeps {org s : State} {p code line : Nat} (hs : Keeps org s) : Keeps org (s.strErr p code line) := by
  unfold State.strErr
  repeat' first
    | with_reducible assumption
    | with_reducible apply State.modStr_keeps
    | with_reducible apply State.postUnit_keeps

theorem State.strGo_keeps {org s : State} {p : Nat} {step : StrStep} {st : StrSt} (hs : Keeps org s) : Keeps org (s.strGo p step st) := by
  unfold State.strGo
  repeat' first
    | with_reducible assumption
    | with_reducible apply Keeps.ite
    | with_reducible apply State.modStr_keeps

theorem State.strEnd_keeps {org s : State} {p : Nat} (hs : Keeps org s) : Keeps org (s.strEnd p) := by
  unfold State.strEnd
  repeat' first
    | with_reducible assumption
    | with_reducible apply State.modStr_keeps
    | with_reducible apply State.strGo_keeps
    | with_reducible apply State.idle_keeps

theorem State.strNext_keeps {org s : State} {p next : Nat} (hs : Keeps org s) : Keeps org (s.strNext p next) := by
  unfold State.strNext
  repeat' first
    | with_reducible assumption
    | with_reducible apply Keeps.ite
    | with_reducible apply State.modStr_keeps
    | with_reducible apply State.strGo_keeps
    | with_reducible apply State.strEnd_keeps

theorem State.strConsume_keeps {org s : State} {p : Nat} {report : Bool} (hs : Keeps org s) : Keeps org (s.strConsume p report) := by
  unfold State.strConsume
  split
  all_goals
  repeat' first
    | with_reducible assumption
    | (intro t a ht; have hk : Keeps org t := ht; clear hk)
    | (intro t ht; have hk : Keeps org t := ht; clear hk)
    | (intro s1; refine (fun (hs1 : Keeps org s1) => ?_) ?_; clear_value s1)
    | (intro s1; clear_value s1)
    | (lift_lets; intro s1; refine (fun (hs1 : Keeps org s1) => ?_) ?_; clear_value s1)
    | (lift_lets; intro s1; clear_value s1)
    | with_reducible apply Keeps.when
    | with_reducible apply State.modStr_keeps
    | with_reducible apply State.postUnit_keeps
    | with_reducible apply State.strNext_keeps
    | split

theorem State.readDesc_keeps {org s : State} {p : Nat} (hs : Keeps org s) : Keeps org (s.readDesc p) := by
  unfold State.readDesc
  repeat' first
    | with_reducible assumption
    | (intro s1; refine (fun (hs1 : Keeps org s1) => ?_) ?_; clear_value s1)
    | (intro s1; clear_value s1)
    | (lift_lets; intro s1; refine (fun (hs1 : Keeps org s1) => ?_) ?_; clear_value s1)
    | (lift_lets; intro s1; clear_value s1)
    | with_reducible apply Keeps.ite
    | with_reducible apply State.modStr_keeps
    | with_reducible apply State.postUnit_keeps
    | with_reducible apply State.strGo_keeps
    | with_reducible apply State.strEnd_keeps
    | with_reducible apply State.strNext_keeps
    | with_reducible apply State.strConsume_keeps
    | split

theorem State.nextEntry_keeps {org s : State} {p : Nat} (hs : Keeps org s) : Keeps org (s.nextEntry p) := by
  unfold State.nextEntry
  repeat' first
    | with_reducible assumption
    | (intro s1; refine (fun (hs1 : Keeps org s1) => ?_) ?_; clear_value s1)
    | (intro s1; clear_value s1)
    | (lift_lets; intro s1; refine (fun (hs1 : Keeps org s1) => ?_) ?_; clear_value s1)
    | (lift_lets; intro s1; clear_value s1)
    | with_reducible apply Keeps.ite
    | with_reducible apply State.modStr_keeps
    | with_reducible apply State.strGo_keeps
    | with_reducible apply State.strConsume_keeps
    | split

theorem State.readIndex_keeps {org s : State} {p : Nat} (hs : Keeps org s) : Keeps org (s.readIndex p) := by
  unfold State.readIndex
  repeat' first
    | with_reducible assumption
    | (intro s1; refine (fun (hs1 : Keeps org s1) => ?_) ?_; clear_value s1)
    | (intro s1; clear_value s1)
    | (lift_lets; intro s1; refine (fun (hs1 : Keeps org s1) => ?_) ?_; clear_value s1)
    | (lift_lets; intro s1; clear_value s1)
    | with_reducible apply Keeps.ite
    | with_reducible apply State.modStr_keeps
    | with_reducible apply State.strErr_keeps
    | with_reducible apply State.strConsume_keeps
    | with_reducible apply State.nextEntry_keeps
    | simp only [s1]
    | split

theorem State.strAdvance_keeps {org s : State} {p len : Nat} (hs : Keeps org s) : Keeps org (s.strAdvance p len) := by
  unfold State.strAdvance
  split
  all_goals
  repeat' first
    | with_reducible assumption
    | with_reducible apply Keeps.ite
    | with_reducible apply State.strGo_keeps
    | with_reducible apply State.strConsume_keeps
    | with_reducible apply State.nextEntry_keeps
    | split

theorem State.strStop_keeps {org s : State} {p : Nat} {err : Bool} (hs : Keeps org s) : Keeps org (s.strStop p err) := by
  unfold State.strStop
  repeat' first
    | with_reducible assumption
    | with_reducible apply Keeps.ite
    | with_reducible apply State.modStr_keeps

theorem State.dropDune_keeps {org s : State} {p code first len : Nat} (hs : Keeps org s) : Keeps org (s.dropDune p code first len) := by
  unfold State.dropDune
  repeat' first
    | with_reducible assumption
    | (intro s1; refine (fun (hs1 : Keeps org s1) => ?_) ?_; clear_value s1)
    | (intro s1; clear_value s1)
    | (lift_lets; intro s1; refine (fun (hs1 : Keeps org s1) => ?_) ?_; clear_value s1)
    | (lift_lets; intro s1; clear_value s1)
    | with_reducible apply State.modStr_keeps
    | with_reducible apply State.strErr_keeps
    | with_reducible apply State.strAdvance_keeps
    | with_reducible apply State.strStop_keeps

theorem State.strAccept_keeps {org s : State} {p : Nat} {d : Dune} (hs : Keeps org s) : Keeps org (s.strAccept p d) := by
  unfold State.strAccept
  repeat' first
    | with_reducible assumption
    | with_reducible apply State.modStr_keeps

theorem State.skipDune_keeps {org s : State} {p : Nat} {d : Dune} (hs : Keeps org s) : Keeps org (s.skipDune p d) := by
  unfold State.skipDune
  repeat' first
    | with_reducible assumption
    | (intro s1; refine (fun (hs1 : Keeps org s1) => ?_) ?_; clear_value s1)
    | (intro s1; clear_value s1)
    | (lift_lets; intro s1; refine (fun (hs1 : Keeps org s1) => ?_) ?_; clear_value s1)
    | (lift_lets; intro s1; clear_value s1)
    | with_reducible apply State.modStr_keeps
    | with_reducible apply State.strAdvance_keeps
    | with_reducible apply State.strStop_keeps
    | with_reducible apply State.strAccept_keeps

theorem State.strSettle_keeps {org s : State} {p : Nat} (hs : Keeps org s) : Keeps org (s.strSettle p) := by
  unfold State.strSettle
  repeat' first
    | with_reducible assumption
    | (intro s1; refine (fun (hs1 : Keeps org s1) => ?_) ?_; clear_value s1)
    | (intro s1; clear_value s1)
    | (lift_lets; intro s1; refine (fun (hs1 : Keeps org s1) => ?_) ?_; clear_value s1)
    | (lift_lets; intro s1; clear_value s1)
    | with_reducible apply Keeps.ite
    | with_reducible apply State.modStr_keeps
    | with_reducible apply State.skipDune_keeps
    | simp only [s1]
    | split

theorem State.readHeader_keeps {org s : State} {p : Nat} (hs : Keeps org s) : Keeps org (s.readHeader p) := by
  unfold State.readHeader
  repeat' first
    | with_reducible assumption
    | (intro t a ht; have hk : Keeps org t := ht; clear hk)
    | (intro t ht; have hk : Keeps org t := ht; clear hk)
    | (intro s1; refine (fun (hs1 : Keeps org s1) => ?_) ?_; clear_value s1)
    | (intro s1; clear_value s1)
    | (lift_lets; intro s1; refine (fun (hs1 : Keeps org s1) => ?_) ?_; clear_value s1)
    | (lift_lets; intro s1; clear_value s1)
    | with_reducible apply Keeps.when
    | with_reducible apply Keeps.ite
    | with_reducible apply State.modStr_keeps
    | with_reducible apply State.modRing_keeps
    | with_reducible apply State.strErr_keeps
    | with_reducible apply State.strConsume_keeps
    | with_reducible apply State.dropDune_keeps
    | with_reducible apply State.strSettle_keeps
    | with_reducible apply State.readDone_keeps
    | simp only [s1]
    | split

theorem State.engFree_keeps {org s : State} {p t : Nat} (hs : Keeps org s) : Keeps org (s.engFree p t) := by
  unfold State.engFree
  repeat' first
    | with_reducible assumption
    | with_reducible apply Keeps.ite
    | with_reducible apply Keeps.mk

theorem State.engDrop_keeps {org s : State} {p : Nat} (hs : Keeps org s) : Keeps org (s.engDrop p) := by
  unfold State.engDrop
  repeat' first
    | with_reducible assumption
    | with_reducible apply State.modRing_keeps
    | with_reducible apply State.engFree_keeps

theorem State.strAbandon_keeps {org s : State} {p : Nat} (hs : Keeps org s) : Keeps org (s.strAbandon p) := by
  unfold State.strAbandon
  repeat' first
    | with_reducible assumption
    | (intro s1; refine (fun (hs1 : Keeps org s1) => ?_) ?_; clear_value s1)
    | (intro s1; clear_value s1)
    | (lift_lets; intro s1; refine (fun (hs1 : Keeps org s1) => ?_) ?_; clear_value s1)
    | (lift_lets; intro s1; clear_value s1)
    | with_reducible apply State.strGo_keeps
    | with_reducible apply State.engDrop_keeps

theorem State.grant_keeps {org s : State} {g : Nat} (hs : Keeps org s) : Keeps org (s.grant g) := by
  unfold State.grant
  repeat' first
    | with_reducible assumption
    | (intro t a ht; have hk : Keeps org t := ht; clear hk)
    | (intro t ht; have hk : Keeps org t := ht; clear hk)
    | (intro t a ht; have hk : Keeps org t.1 := ht; clear hk)
    | (intro s1; refine (fun (hs1 : Keeps org s1) => ?_) ?_; clear_value s1)
    | (intro s1; clear_value s1)
    | (lift_lets; intro s1; refine (fun (hs1 : Keeps org s1) => ?_) ?_; clear_value s1)
    | (lift_lets; intro s1; clear_value s1)
    | with_reducible apply Keeps.ite
    | with_reducible apply Keeps.foldl
    | with_reducible apply Keeps.foldl_fst
    | with_reducible apply State.modStr_keeps
    | with_reducible apply State.modRing_keeps
    | with_reducible apply State.modEng_keeps
    | with_reducible apply State.strSettle_keeps
    | split
    | with_reducible apply Keeps.mk

theorem State.ringStore_keeps {org s : State} {p : Nat} {d : Dune} {data : List Byte} {i : Nat} (hs : Keeps org s) : Keeps org (s.ringStore p d data i) := by
  unfold State.ringStore
  repeat' first
    | with_reducible assumption
    | (intro s1; refine (fun (hs1 : Keeps org s1) => ?_) ?_; clear_value s1)
    | (intro s1; refine (fun (hs1 : Keeps org s1.1) => ?_) ?_; clear_value s1)
    | (intro s1; clear_value s1)
    | (lift_lets; intro s1; refine (fun (hs1 : Keeps org s1) => ?_) ?_; clear_value s1)
    | (lift_lets; intro s1; refine (fun (hs1 : Keeps org s1.1) => ?_) ?_; clear_value s1)
    | (lift_lets; intro s1; clear_value s1)
    | with_reducible apply Keeps.ite
    | with_reducible apply State.modStr_keeps
    | with_reducible apply State.modRing_keeps
    | with_reducible apply State.sramWrite_keeps
    | with_reducible apply State.readDone_keeps

theorem State.decodeDone_keeps {org s : State} {p : Nat} (hs : Keeps org s) : Keeps org (s.decodeDone p) := by
  unfold State.decodeDone
  repeat' first
    | with_reducible assumption
    | (intro t a ht; have hk : Keeps org t := ht; clear hk)
    | (intro t ht; have hk : Keeps org t := ht; clear hk)
    | (intro s1; refine (fun (hs1 : Keeps org s1) => ?_) ?_; clear_value s1)
    | (intro s1; clear_value s1)
    | (lift_lets; intro s1; refine (fun (hs1 : Keeps org s1) => ?_) ?_; clear_value s1)
    | (lift_lets; intro s1; clear_value s1)
    | with_reducible apply Keeps.when
    | with_reducible apply Keeps.each
    | with_reducible apply Keeps.ite
    | with_reducible apply State.modStr_keeps
    | with_reducible apply State.modRing_keeps
    | with_reducible apply State.postUnit_keeps
    | with_reducible apply State.strAdvance_keeps
    | with_reducible apply State.strStop_keeps
    | with_reducible apply State.dropDune_keeps
    | with_reducible apply State.strAccept_keeps
    | with_reducible apply State.engFree_keeps
    | with_reducible apply State.ringStore_keeps
    | split

theorem State.engineEcc_keeps {org s : State} {p : Nat} (hs : Keeps org s) : Keeps org (s.engineEcc p) := by
  unfold State.engineEcc
  repeat' first
    | with_reducible assumption
    | (intro s1; refine (fun (hs1 : Keeps org s1) => ?_) ?_; clear_value s1)
    | (intro s1; clear_value s1)
    | (lift_lets; intro s1; refine (fun (hs1 : Keeps org s1) => ?_) ?_; clear_value s1)
    | (lift_lets; intro s1; clear_value s1)
    | with_reducible apply Keeps.ite
    | with_reducible apply State.modStr_keeps
    | with_reducible apply State.strErr_keeps
    | with_reducible apply State.strAdvance_keeps
    | with_reducible apply State.strStop_keeps
    | with_reducible apply State.strAccept_keeps
    | with_reducible apply State.engDrop_keeps
    | with_reducible apply State.strAbandon_keeps
    | split

theorem State.starve_keeps {org s : State} {p : Nat} (hs : Keeps org s) : Keeps org (s.starve p) := by
  unfold State.starve
  repeat' first
    | with_reducible assumption
    | (intro s1; refine (fun (hs1 : Keeps org s1) => ?_) ?_; clear_value s1)
    | (intro s1; clear_value s1)
    | (lift_lets; intro s1; refine (fun (hs1 : Keeps org s1) => ?_) ?_; clear_value s1)
    | (lift_lets; intro s1; clear_value s1)
    | with_reducible apply Keeps.ite
    | with_reducible apply State.strErr_keeps
    | with_reducible apply State.strAbandon_keeps
    | split

theorem State.strStall_keeps {org s : State} {p n va : Nat} {c : WalkErr} (hs : Keeps org s) : Keeps org (s.strStall p n va c) := by
  unfold State.strStall
  repeat' first
    | with_reducible assumption
    | (intro s1; refine (fun (hs1 : Keeps org s1) => ?_) ?_; clear_value s1)
    | (intro s1; clear_value s1)
    | (lift_lets; intro s1; refine (fun (hs1 : Keeps org s1) => ?_) ?_; clear_value s1)
    | (lift_lets; intro s1; clear_value s1)
    | with_reducible apply Keeps.ite
    | with_reducible apply State.modStr_keeps
    | with_reducible apply State.postUnit_keeps
    | with_reducible apply State.setEv_keeps
    | with_reducible apply State.walkFault_keeps
    | with_reducible apply State.strGo_keeps
    | with_reducible apply State.strAbandon_keeps
    | with_reducible apply State.decodeDone_keeps
    | simp only [s1]
    | split

theorem State.issue_keeps {org : State} {p n base want : Nat} : ∀ {k : Nat} {s : State}, Keeps org s →
    Keeps org (s.issue p n base want k)
  | 0, _, h => h
  | k + 1, s, h => by
    unfold State.issue
    lift_lets
    intro x va len
    clear_value len va x
    split
    · exact h
    · split
      · exact Keeps.ite h (State.issue_keeps (State.modStr_keeps (State.tlbUse_keeps (State.modXlt_keeps h))))
      · exact Keeps.ite h (Keeps.ite (State.modXlt_keeps h) (State.modXlt_keeps h))

theorem State.strFetch_keeps {org s : State} {p : Nat} (hs : Keeps org s) : Keeps org (s.strFetch p) := by
  unfold State.strFetch
  repeat' first
    | with_reducible assumption
    | (intro s1; refine (fun (hs1 : Keeps org s1) => ?_) ?_; clear_value s1)
    | (intro s1; clear_value s1)
    | (lift_lets; intro s1; refine (fun (hs1 : Keeps org s1) => ?_) ?_; clear_value s1)
    | (lift_lets; intro s1; clear_value s1)
    | with_reducible apply State.strSettle_keeps
    | with_reducible apply State.issue_keeps
    | split

theorem State.walkGrant_keeps {org s : State} (hs : Keeps org s) : Keeps org (s.walkGrant) := by
  unfold State.walkGrant
  split
  all_goals
  repeat' first
    | with_reducible assumption
    | with_reducible apply State.modXlt_keeps
    | with_reducible apply State.strFetch_keeps
    | split

theorem State.aer_keeps {org s : State} {f : Nat} {r : DmaEnd} (hs : Keeps org s) : Keeps org (s.aer f r) := by
  unfold State.aer
  repeat' first
    | with_reducible assumption
    | with_reducible apply Keeps.ite
    | with_reducible apply State.emit_keeps

theorem State.walkDone_keeps {org s : State} {host : DmaEnd} (hs : Keeps org s) : Keeps org (s.walkDone host) := by
  unfold State.walkDone
  split
  all_goals
  repeat' first
    | with_reducible assumption
    | (intro t a ht; have hk : Keeps org t := ht; clear hk)
    | (intro t ht; have hk : Keeps org t := ht; clear hk)
    | (intro s1; refine (fun (hs1 : Keeps org s1) => ?_) ?_; clear_value s1)
    | (intro s1; clear_value s1)
    | (lift_lets; intro s1; refine (fun (hs1 : Keeps org s1) => ?_) ?_; clear_value s1)
    | (lift_lets; intro s1; clear_value s1)
    | with_reducible apply Keeps.when
    | with_reducible apply Keeps.ite
    | with_reducible apply State.modXlt_keeps
    | with_reducible apply State.tlbUse_keeps
    | with_reducible apply State.walkFault_keeps
    | with_reducible apply State.strStall_keeps
    | with_reducible apply State.walkGrant_keeps
    | with_reducible apply State.aer_keeps
    | split

theorem State.readDone_keeps {org s : State} {p : Nat} {e : DmaEnd} (hs : Keeps org s) : Keeps org (s.readDone p e) := by
  unfold State.readDone
  repeat' first
    | with_reducible assumption
    | (intro t a ht; have hk : Keeps org t := ht; clear hk)
    | (intro t ht; have hk : Keeps org t := ht; clear hk)
    | (intro s1; refine (fun (hs1 : Keeps org s1) => ?_) ?_; clear_value s1)
    | (intro s1; refine (fun (hs1 : Keeps org s1.1) => ?_) ?_; clear_value s1)
    | (intro s1; clear_value s1)
    | (lift_lets; intro s1; refine (fun (hs1 : Keeps org s1) => ?_) ?_; clear_value s1)
    | (lift_lets; intro s1; refine (fun (hs1 : Keeps org s1.1) => ?_) ?_; clear_value s1)
    | (lift_lets; intro s1; clear_value s1)
    | with_reducible apply Keeps.when
    | with_reducible apply Keeps.ite
    | with_reducible apply State.modStr_keeps
    | with_reducible apply State.dramRead_keeps
    | with_reducible apply State.strSettle_keeps
    | with_reducible apply State.strStall_keeps
    | with_reducible apply State.aer_keeps
    | simp only [s1]
    | split
    | (refine Keeps.ofEq (by assumption) ?_)

theorem State.strResume_keeps {org s : State} {p : Nat} (hs : Keeps org s) : Keeps org (s.strResume p) := by
  unfold State.strResume
  repeat' first
    | with_reducible assumption
    | with_reducible apply Keeps.ite
    | with_reducible apply State.modStr_keeps
    | with_reducible apply State.idle_keeps

theorem State.strCfg_keeps {org s : State} {p : Nat} {en haltErr : Bool} (hs : Keeps org s) : Keeps org (s.strCfg p en haltErr) := by
  unfold State.strCfg
  repeat' first
    | with_reducible assumption
    | (intro s1; refine (fun (hs1 : Keeps org s1) => ?_) ?_; clear_value s1)
    | (intro s1; clear_value s1)
    | (lift_lets; intro s1; refine (fun (hs1 : Keeps org s1) => ?_) ?_; clear_value s1)
    | (lift_lets; intro s1; clear_value s1)
    | with_reducible apply Keeps.ite
    | with_reducible apply State.modStr_keeps
    | with_reducible apply State.strGo_keeps
    | with_reducible apply State.idle_keeps

theorem State.wrStrCfg_keeps {org s : State} {n p : Nat} {v : Word} (hs : Keeps org s) : Keeps org (s.wrStrCfg n p v).1 := by
  unfold State.wrStrCfg
  repeat' first
    | with_reducible assumption
    | (intro t a ht; have hk : Keeps org t := ht; clear hk)
    | (intro t ht; have hk : Keeps org t := ht; clear hk)
    | with_reducible apply State.ifRight_keeps
    | with_reducible apply State.strCfg_keeps

theorem State.ringFlushTo_keeps {org s : State} {p base : Nat} (hs : Keeps org s) : Keeps org (s.ringFlushTo p base) := by
  unfold State.ringFlushTo
  repeat' first
    | with_reducible assumption
    | (intro s1; refine (fun (hs1 : Keeps org s1) => ?_) ?_; clear_value s1)
    | (intro s1; clear_value s1)
    | (lift_lets; intro s1; refine (fun (hs1 : Keeps org s1) => ?_) ?_; clear_value s1)
    | (lift_lets; intro s1; clear_value s1)
    | with_reducible apply Keeps.ite
    | with_reducible apply State.modStr_keeps
    | with_reducible apply State.modRing_keeps
    | with_reducible apply State.strAbandon_keeps
    | with_reducible apply State.readDone_keeps
    | simp only [s1]

theorem State.wrRingCtl_keeps {org s : State} {n p : Nat} {v : Word} (hs : Keeps org s) : Keeps org (s.wrRingCtl n p v).1 := by
  unfold State.wrRingCtl
  repeat' first
    | with_reducible assumption
    | (intro t a ht; have hk : Keeps org t := ht; clear hk)
    | (intro t ht; have hk : Keeps org t := ht; clear hk)
    | (intro s1; refine (fun (hs1 : Keeps org s1) => ?_) ?_; clear_value s1)
    | (intro s1; clear_value s1)
    | (lift_lets; intro s1; refine (fun (hs1 : Keeps org s1) => ?_) ?_; clear_value s1)
    | (lift_lets; intro s1; clear_value s1)
    | with_reducible apply Keeps.when
    | with_reducible apply Keeps.ite_fst
    | with_reducible apply Keeps.ite
    | with_reducible apply State.modStr_keeps
    | with_reducible apply State.refuse_keeps
    | with_reducible apply State.ifRight_keeps
    | with_reducible apply State.ringFlushTo_keeps
    | split

theorem State.strCancel_keeps {org s : State} {p : Nat} (hs : Keeps org s) : Keeps org (s.strCancel p) := by
  unfold State.strCancel
  repeat' first
    | with_reducible assumption
    | (intro s1; refine (fun (hs1 : Keeps org s1) => ?_) ?_; clear_value s1)
    | (intro s1; clear_value s1)
    | (lift_lets; intro s1; refine (fun (hs1 : Keeps org s1) => ?_) ?_; clear_value s1)
    | (lift_lets; intro s1; clear_value s1)
    | with_reducible apply Keeps.ite
    | with_reducible apply State.modStr_keeps
    | with_reducible apply State.strGo_keeps
    | with_reducible apply State.strAbandon_keeps
    | with_reducible apply State.decodeDone_keeps
    | with_reducible apply State.idle_keeps
    | simp only [s1]

theorem State.wrCvCtl_keeps {org s : State} {n p : Nat} {v : Word} (hs : Keeps org s) : Keeps org (s.wrCvCtl n p v).1 := by
  unfold State.wrCvCtl
  repeat' first
    | with_reducible assumption
    | (intro t a ht; have hk : Keeps org t := ht; clear hk)
    | (intro t ht; have hk : Keeps org t := ht; clear hk)
    | (intro s1; refine (fun (hs1 : Keeps org s1) => ?_) ?_; clear_value s1)
    | (intro s1; clear_value s1)
    | (lift_lets; intro s1; refine (fun (hs1 : Keeps org s1) => ?_) ?_; clear_value s1)
    | (lift_lets; intro s1; clear_value s1)
    | with_reducible apply Keeps.ite_fst
    | with_reducible apply Keeps.ite
    | with_reducible apply State.modStr_keeps
    | with_reducible apply State.ifRight_keeps
    | with_reducible apply State.strGo_keeps
    | with_reducible apply State.strCancel_keeps
    | split
    | (refine Keeps.ofEq (by assumption) ?_)

theorem State.axCruise_keeps {org s : State} {a : Nat} (hs : Keeps org s) : Keeps org (s.axCruise a) := by
  unfold State.axCruise
  repeat' first
    | with_reducible assumption
    | with_reducible apply Keeps.ite
    | with_reducible apply State.modAx_keeps

theorem State.axDecel_keeps {org s : State} {a : Nat} (hs : Keeps org s) : Keeps org (s.axDecel a) := by
  unfold State.axDecel
  repeat' first
    | with_reducible assumption
    | with_reducible apply Keeps.ite
    | with_reducible apply State.modAx_keeps

theorem State.axLevel_keeps {org s : State} {a : Nat} (hs : Keeps org s) : Keeps org (s.axLevel a) := by
  unfold State.axLevel
  repeat' first
    | with_reducible assumption
    | (intro s1; refine (fun (hs1 : Keeps org s1) => ?_) ?_; clear_value s1)
    | (intro s1; clear_value s1)
    | (lift_lets; intro s1; refine (fun (hs1 : Keeps org s1) => ?_) ?_; clear_value s1)
    | (lift_lets; intro s1; clear_value s1)
    | with_reducible apply Keeps.ite
    | with_reducible apply State.modAx_keeps

theorem State.axEnd_keeps {org s : State} {a : Nat} (hs : Keeps org s) : Keeps org (s.axEnd a) := by
  unfold State.axEnd
  repeat' first
    | with_reducible assumption
    | (intro s1; refine (fun (hs1 : Keeps org s1) => ?_) ?_; clear_value s1)
    | (intro s1; clear_value s1)
    | (lift_lets; intro s1; refine (fun (hs1 : Keeps org s1) => ?_) ?_; clear_value s1)
    | (lift_lets; intro s1; clear_value s1)
    | with_reducible apply Keeps.ite
    | with_reducible apply State.modAxis_keeps

theorem State.axIndex_keeps {org s : State} {a : Nat} (hs : Keeps org s) : Keeps org (s.axIndex a) := by
  unfold State.axIndex
  repeat' first
    | with_reducible assumption
    | with_reducible apply Keeps.ite
    | with_reducible apply State.modAx_keeps
    | split

theorem State.axHomeFail_keeps {org s : State} {a : Nat} (hs : Keeps org s) : Keeps org (s.axHomeFail a) := by
  unfold State.axHomeFail
  repeat' first
    | with_reducible assumption
    | (intro s1; refine (fun (hs1 : Keeps org s1) => ?_) ?_; clear_value s1)
    | (intro s1; clear_value s1)
    | (lift_lets; intro s1; refine (fun (hs1 : Keeps org s1) => ?_) ?_; clear_value s1)
    | (lift_lets; intro s1; clear_value s1)
    | with_reducible apply Keeps.ite
    | with_reducible apply State.modAx_keeps
    | with_reducible apply State.postUnit_keeps

theorem State.wrMotCmd_keeps {org s : State} {n a : Nat} {v : Word} (hs : Keeps org s) : Keeps org (s.wrMotCmd n a v).1 := by
  unfold State.wrMotCmd
  repeat' first
    | with_reducible assumption
    | (intro s1; refine (fun (hs1 : Keeps org s1) => ?_) ?_; clear_value s1)
    | (intro s1; clear_value s1)
    | (lift_lets; intro s1; refine (fun (hs1 : Keeps org s1) => ?_) ?_; clear_value s1)
    | (lift_lets; intro s1; clear_value s1)
    | with_reducible apply Keeps.ite_fst
    | with_reducible apply Keeps.ite
    | with_reducible apply State.hostMotion_keeps
    | with_reducible apply State.refuse_keeps
    | split
    | (refine Keeps.ofEq (by assumption) ?_)

theorem State.wrAxCtl_keeps {org s : State} {n a : Nat} {v : Word} (hs : Keeps org s) : Keeps org (s.wrAxCtl n a v).1 := by
  unfold State.wrAxCtl
  repeat' first
    | with_reducible assumption
    | (intro s1; refine (fun (hs1 : Keeps org s1) => ?_) ?_; clear_value s1)
    | (intro s1; refine (fun (hs1 : Keeps org s1.1) => ?_) ?_; clear_value s1)
    | (intro s1; clear_value s1)
    | (lift_lets; intro s1; refine (fun (hs1 : Keeps org s1) => ?_) ?_; clear_value s1)
    | (lift_lets; intro s1; refine (fun (hs1 : Keeps org s1.1) => ?_) ?_; clear_value s1)
    | (lift_lets; intro s1; clear_value s1)
    | with_reducible apply Keeps.ite_fst
    | with_reducible apply Keeps.ite
    | with_reducible apply State.axisEn_keeps
    | with_reducible apply State.axisDis_keeps
    | with_reducible apply State.axisRelease_keeps
    | with_reducible apply State.refuse_keeps
    | simp only [s1]
    | split
    | (refine Keeps.ofEq (by assumption) ?_)

theorem State.motCmd_keeps {org s : State} {w : Writer} {a op : Nat} {v : Nat} {sel : Nat} (hs : Keeps org s) : Keeps org (s.motCmd w a op v sel) := by
  unfold State.motCmd
  repeat' first
    | with_reducible assumption
    | (intro t a ht; have hk : Keeps org t := ht; clear hk)
    | (intro t ht; have hk : Keeps org t := ht; clear hk)
    | with_reducible apply State.asWriter_keeps
    | with_reducible apply State.wrMotCmd_keeps

end Sys2Proof.Machine
end

