-- ==== Sys2Proof/Laws/KeepHead.lean ====
section
/-! SUPPORT. What the operations keep: health, the Kwady engines and the heads. -/
set_option maxRecDepth 2000
namespace Sys2Proof.Machine
open Sys2Proof

theorem State.modNz_keeps {org s : State} {p j : Nat} {f : Nozzle → Nozzle} (hs : Keeps org s) : Keeps org (s.modNz p j f) := by
  unfold State.modNz
  repeat' first
    | with_reducible assumption
    | with_reducible apply State.modHlt_keeps

theorem State.nzEcc_keeps {org s : State} {k : Nat} (hs : Keeps org s) : Keeps org (s.nzEcc k) := by
  unfold State.nzEcc
  repeat' first
    | with_reducible assumption
    | (intro s1; refine (fun (hs1 : Keeps org s1) => ?_) ?_; clear_value s1)
    | (intro s1; refine (fun (hs1 : Keeps org s1.1) => ?_) ?_; clear_value s1)
    | (intro s1; clear_value s1)
    | (lift_lets; intro s1; refine (fun (hs1 : Keeps org s1) => ?_) ?_; clear_value s1)
    | (lift_lets; intro s1; refine (fun (hs1 : Keeps org s1.1) => ?_) ?_; clear_value s1)
    | (lift_lets; intro s1; clear_value s1)
    | with_reducible apply State.modMem_keeps
    | with_reducible apply State.draw_keeps
    | with_reducible apply State.sramUeHit_keeps
    | with_reducible apply State.modNz_keeps

theorem State.nzRead_keeps {org s : State} {p : Nat} (hs : Keeps org s) : Keeps org (s.nzRead p) := by
  unfold State.nzRead
  repeat' first
    | with_reducible assumption
    | (intro t a ht; have hk : Keeps org t := ht; clear hk)
    | (intro t ht; have hk : Keeps org t := ht; clear hk)
    | with_reducible apply Keeps.each
    | with_reducible apply State.nzEcc_keeps

theorem State.putOut_keeps {org s : State} {p : Nat} {js : List Nat} {cause : Nat} (hs : Keeps org s) : Keeps org (s.putOut p js cause) := by
  unfold State.putOut
  repeat' first
    | with_reducible assumption
    | (intro t a ht; have hk : Keeps org t := ht; clear hk)
    | (intro t ht; have hk : Keeps org t := ht; clear hk)
    | (intro s1; refine (fun (hs1 : Keeps org s1) => ?_) ?_; clear_value s1)
    | (intro s1; clear_value s1)
    | (lift_lets; intro s1; refine (fun (hs1 : Keeps org s1) => ?_) ?_; clear_value s1)
    | (lift_lets; intro s1; clear_value s1)
    | with_reducible apply Keeps.each
    | with_reducible apply Keeps.ite
    | with_reducible apply State.modHlt_keeps
    | with_reducible apply State.postUnit_keeps
    | with_reducible apply State.setEv_keeps
    | with_reducible apply State.modNz_keeps
    | simp only [s1]
    | split

theorem State.putIn_keeps {org s : State} {p : Nat} {js : List Nat} (hs : Keeps org s) : Keeps org (s.putIn p js) := by
  unfold State.putIn
  repeat' first
    | with_reducible assumption
    | (intro t a ht; have hk : Keeps org t := ht; clear hk)
    | (intro t ht; have hk : Keeps org t := ht; clear hk)
    | (intro s1; refine (fun (hs1 : Keeps org s1) => ?_) ?_; clear_value s1)
    | (intro s1; clear_value s1)
    | (lift_lets; intro s1; refine (fun (hs1 : Keeps org s1) => ?_) ?_; clear_value s1)
    | (lift_lets; intro s1; clear_value s1)
    | with_reducible apply Keeps.each
    | with_reducible apply Keeps.ite
    | with_reducible apply State.modHlt_keeps
    | with_reducible apply State.postUnit_keeps
    | with_reducible apply State.modNz_keeps

theorem State.outLimit_keeps {org s : State} {ports : List Nat} (hs : Keeps org s) : Keeps org (s.outLimit ports) := by
  unfold State.outLimit
  repeat' first
    | with_reducible assumption
    | (intro t a ht; have hk : Keeps org t := ht; clear hk)
    | (intro t ht; have hk : Keeps org t := ht; clear hk)
    | with_reducible apply Keeps.each
    | with_reducible apply State.postUnit_keeps

theorem State.putOutAll_keeps {org s : State} {l : List (Nat × Nat)} {cause : Nat} (hs : Keeps org s) : Keeps org (s.putOutAll l cause) := by
  unfold State.putOutAll
  repeat' first
    | with_reducible assumption
    | (intro t a ht; have hk : Keeps org t := ht; clear hk)
    | (intro t ht; have hk : Keeps org t := ht; clear hk)
    | with_reducible apply Keeps.each
    | with_reducible apply State.putOut_keeps

theorem State.senseWindow_keeps {org s : State} {p w : Nat} {codes : SMap Nat} (hs : Keeps org s) : Keeps org (s.senseWindow p w codes) := by
  unfold State.senseWindow
  repeat' first
    | with_reducible assumption
    | (intro t a ht; have hk : Keeps org t := ht; clear hk)
    | (intro t ht; have hk : Keeps org t := ht; clear hk)
    | (intro s1; refine (fun (hs1 : Keeps org s1) => ?_) ?_; clear_value s1)
    | (intro s1; refine (fun (hs1 : Keeps org s1.1) => ?_) ?_; clear_value s1)
    | (intro s1; clear_value s1)
    | (lift_lets; intro s1; refine (fun (hs1 : Keeps org s1) => ?_) ?_; clear_value s1)
    | (lift_lets; intro s1; refine (fun (hs1 : Keeps org s1.1) => ?_) ?_; clear_value s1)
    | (lift_lets; intro s1; clear_value s1)
    | with_reducible apply Keeps.each
    | with_reducible apply Keeps.ite
    | with_reducible apply State.modHlt_keeps
    | with_reducible apply State.modNz_keeps
    | with_reducible apply State.outLimit_keeps

theorem State.scoreFrame_keeps {org s : State} {r : VisRes} (hs : Keeps org s) : Keeps org (s.scoreFrame r) := by
  unfold State.scoreFrame
  repeat' first
    | with_reducible assumption
    | (intro t a ht; have hk : Keeps org t := ht; clear hk)
    | (intro t ht; have hk : Keeps org t := ht; clear hk)
    | (intro t a ht; have hk : Keeps org t.1 := ht; clear hk)
    | (intro s1; refine (fun (hs1 : Keeps org s1) => ?_) ?_; clear_value s1)
    | (intro s1; refine (fun (hs1 : Keeps org s1.1) => ?_) ?_; clear_value s1)
    | (intro s1; clear_value s1)
    | (lift_lets; intro s1; refine (fun (hs1 : Keeps org s1) => ?_) ?_; clear_value s1)
    | (lift_lets; intro s1; refine (fun (hs1 : Keeps org s1.1) => ?_) ?_; clear_value s1)
    | (lift_lets; intro s1; clear_value s1)
    | with_reducible apply Keeps.each
    | with_reducible apply Keeps.ite
    | with_reducible apply Keeps.foldl
    | with_reducible apply Keeps.foldl_fst
    | with_reducible apply State.modHlt_keeps
    | with_reducible apply State.postUnit_keeps
    | with_reducible apply State.outLimit_keeps

theorem State.testFrame_keeps {org s : State} {r : VisRes} {a : Arm} (hs : Keeps org s) : Keeps org (s.testFrame r a) := by
  unfold State.testFrame
  repeat' first
    | with_reducible assumption
    | (intro s1; refine (fun (hs1 : Keeps org s1) => ?_) ?_; clear_value s1)
    | (intro s1; refine (fun (hs1 : Keeps org s1.1) => ?_) ?_; clear_value s1)
    | (intro s1; clear_value s1)
    | (lift_lets; intro s1; refine (fun (hs1 : Keeps org s1) => ?_) ?_; clear_value s1)
    | (lift_lets; intro s1; refine (fun (hs1 : Keeps org s1.1) => ?_) ?_; clear_value s1)
    | (lift_lets; intro s1; clear_value s1)
    | with_reducible apply Keeps.ite
    | with_reducible apply State.modHlt_keeps
    | simp only [s1]

theorem State.engineRun_keeps {org : State} : ∀ {k : Nat} {s : State}, Keeps org s → Keeps org (s.engineRun k)
  | 0, _, h => h
  | k + 1, s, h => by
    unfold State.engineRun
    split
    · exact h
    · split
      · exact h
      · refine State.engineRun_keeps ?_
        split
        · exact State.testFrame_keeps (State.modHlt_keeps h)
        · exact State.scoreFrame_keeps (State.modHlt_keeps h)

theorem State.engineNext_keeps {org s : State} (hs : Keeps org s) : Keeps org (s.engineNext) := by
  unfold State.engineNext
  repeat' first
    | with_reducible assumption
    | with_reducible apply State.engineRun_keeps

theorem State.applyOuts_keeps {org s : State} {a : Apply} (hs : Keeps org s) : Keeps org (s.applyOuts a) := by
  unfold State.applyOuts
  repeat' first
    | with_reducible assumption
    | with_reducible apply Keeps.ite
    | with_reducible apply State.modHlt_keeps
    | with_reducible apply State.putOutAll_keeps

theorem State.frameApply_keeps {org s : State} {t : Nat} (hs : Keeps org s) : Keeps org (s.frameApply t) := by
  unfold State.frameApply
  split
  all_goals
  repeat' first
    | with_reducible assumption
    | with_reducible apply Keeps.ite
    | with_reducible apply State.modHlt_keeps
    | with_reducible apply State.engineNext_keeps
    | with_reducible apply State.applyOuts_keeps
    | split

theorem State.healthApply_keeps {org s : State} (hs : Keeps org s) : Keeps org (s.healthApply) := by
  unfold State.healthApply
  repeat' first
    | with_reducible assumption
    | with_reducible apply State.frameApply_keeps

theorem State.senseApply_keeps {org s : State} {p : Nat} (hs : Keeps org s) : Keeps org (s.senseApply p) := by
  unfold State.senseApply
  split
  all_goals
  repeat' first
    | with_reducible assumption
    | with_reducible apply State.modHlt_keeps
    | with_reducible apply State.applyOuts_keeps
    | with_reducible apply State.frameApply_keeps
    | split

theorem State.testResult_keeps {org s : State} {t : TestEnd} (hs : Keeps org s) : Keeps org (s.testResult t) := by
  unfold State.testResult
  repeat' first
    | with_reducible assumption
    | (intro t a ht; have hk : Keeps org t := ht; clear hk)
    | (intro t ht; have hk : Keeps org t := ht; clear hk)
    | (intro t a ht; have hk : Keeps org t.1 := ht; clear hk)
    | (intro s1; refine (fun (hs1 : Keeps org s1) => ?_) ?_; clear_value s1)
    | (intro s1; refine (fun (hs1 : Keeps org s1.1) => ?_) ?_; clear_value s1)
    | (intro s1; clear_value s1)
    | (lift_lets; intro s1; refine (fun (hs1 : Keeps org s1) => ?_) ?_; clear_value s1)
    | (lift_lets; intro s1; refine (fun (hs1 : Keeps org s1.1) => ?_) ?_; clear_value s1)
    | (lift_lets; intro s1; clear_value s1)
    | with_reducible apply Keeps.each
    | with_reducible apply Keeps.foldl
    | with_reducible apply Keeps.foldl_fst
    | with_reducible apply State.modHlt_keeps
    | with_reducible apply State.postUnit_keeps
    | with_reducible apply State.modNz_keeps
    | with_reducible apply State.putIn_keeps

theorem State.testApplyBy_keeps {org s : State} {t : Nat} (hs : Keeps org s) : Keeps org (s.testApplyBy t) := by
  unfold State.testApplyBy
  split
  all_goals
  repeat' first
    | with_reducible assumption
    | with_reducible apply Keeps.ite
    | with_reducible apply State.engineNext_keeps
    | with_reducible apply State.testResult_keeps
    | split

theorem State.testApply_keeps {org s : State} (hs : Keeps org s) : Keeps org (s.testApply) := by
  unfold State.testApply
  repeat' first
    | with_reducible assumption
    | with_reducible apply State.testApplyBy_keeps

theorem State.healthBy_keeps {org s : State} {t : Nat} (hs : Keeps org s) : Keeps org (s.healthBy t) := by
  unfold State.healthBy
  repeat' first
    | with_reducible assumption
    | (intro t a ht; have hk : Keeps org t := ht; clear hk)
    | (intro t ht; have hk : Keeps org t := ht; clear hk)
    | (intro s1; refine (fun (hs1 : Keeps org s1) => ?_) ?_; clear_value s1)
    | (intro s1; clear_value s1)
    | (lift_lets; intro s1; refine (fun (hs1 : Keeps org s1) => ?_) ?_; clear_value s1)
    | (lift_lets; intro s1; clear_value s1)
    | with_reducible apply Keeps.each
    | with_reducible apply State.modHlt_keeps
    | with_reducible apply State.applyOuts_keeps
    | with_reducible apply State.frameApply_keeps
    | with_reducible apply State.testApplyBy_keeps

theorem State.healthBefore_keeps {org s : State} (hs : Keeps org s) : Keeps org (s.healthBefore) := by
  unfold State.healthBefore
  repeat' first
    | with_reducible assumption
    | with_reducible apply Keeps.ite
    | with_reducible apply State.healthBy_keeps

theorem State.healthNow_keeps {org s : State} (hs : Keeps org s) : Keeps org (s.healthNow) := by
  unfold State.healthNow
  repeat' first
    | with_reducible assumption
    | with_reducible apply State.healthBy_keeps

theorem State.engineTake_keeps {org s : State} {r : VisRes} (hs : Keeps org s) : Keeps org (s.engineTake r) := by
  unfold State.engineTake
  repeat' first
    | with_reducible assumption
    | with_reducible apply State.modHlt_keeps
    | with_reducible apply State.engineNext_keeps

theorem State.visionResult_keeps {org s : State} (hs : Keeps org s) : Keeps org (s.visionResult) := by
  unfold State.visionResult
  split
  all_goals
  repeat' first
    | with_reducible assumption
    | (intro s1; refine (fun (hs1 : Keeps org s1) => ?_) ?_; clear_value s1)
    | (intro s1; clear_value s1)
    | (lift_lets; intro s1; refine (fun (hs1 : Keeps org s1) => ?_) ?_; clear_value s1)
    | (lift_lets; intro s1; clear_value s1)
    | with_reducible apply Keeps.ite
    | with_reducible apply State.modHlt_keeps
    | with_reducible apply State.healthBefore_keeps
    | with_reducible apply State.engineTake_keeps
    | split

theorem State.wrNzCtl_keeps {org s : State} {n : Nat} {v : Word} (hs : Keeps org s) : Keeps org (s.wrNzCtl n v).1 := by
  unfold State.wrNzCtl
  repeat' first
    | with_reducible assumption
    | (intro s1; refine (fun (hs1 : Keeps org s1) => ?_) ?_; clear_value s1)
    | (intro s1; clear_value s1)
    | (lift_lets; intro s1; refine (fun (hs1 : Keeps org s1) => ?_) ?_; clear_value s1)
    | (lift_lets; intro s1; clear_value s1)
    | with_reducible apply Keeps.ite_fst
    | with_reducible apply Keeps.ite
    | with_reducible apply State.refuse_keeps
    | with_reducible apply State.modNz_keeps
    | with_reducible apply State.putOut_keeps
    | with_reducible apply State.putIn_keeps
    | with_reducible apply State.healthBefore_keeps
    | split
    | (refine Keeps.ofEq (by assumption) ?_)

theorem State.wrTestCtl_keeps {org s : State} {n : Nat} {v : Word} (hs : Keeps org s) : Keeps org (s.wrTestCtl n v).1 := by
  unfold State.wrTestCtl
  repeat' first
    | with_reducible assumption
    | (intro s1; refine (fun (hs1 : Keeps org s1) => ?_) ?_; clear_value s1)
    | (intro s1; refine (fun (hs1 : Keeps org s1.1) => ?_) ?_; clear_value s1)
    | (intro s1; clear_value s1)
    | (lift_lets; intro s1; refine (fun (hs1 : Keeps org s1) => ?_) ?_; clear_value s1)
    | (lift_lets; intro s1; refine (fun (hs1 : Keeps org s1.1) => ?_) ?_; clear_value s1)
    | (lift_lets; intro s1; clear_value s1)
    | with_reducible apply Keeps.ite_fst
    | with_reducible apply Keeps.ite
    | with_reducible apply State.modHlt_keeps
    | with_reducible apply State.refuse_keeps
    | split

theorem State.wrAlCtl_keeps {org s : State} {n : Nat} {v : Word} (hs : Keeps org s) : Keeps org (s.wrAlCtl n v).1 := by
  unfold State.wrAlCtl
  repeat' first
    | with_reducible assumption
    | (intro s1; refine (fun (hs1 : Keeps org s1) => ?_) ?_; clear_value s1)
    | (intro s1; clear_value s1)
    | (lift_lets; intro s1; refine (fun (hs1 : Keeps org s1) => ?_) ?_; clear_value s1)
    | (lift_lets; intro s1; clear_value s1)
    | with_reducible apply Keeps.ite_fst
    | with_reducible apply Keeps.ite
    | with_reducible apply State.modHlt_keeps
    | with_reducible apply State.refuse_keeps
    | split

theorem State.newHead_keeps {org s : State} {p : Nat} (hs : Keeps org s) : Keeps org (s.newHead p) := by
  unfold State.newHead
  repeat' first
    | with_reducible assumption
    | (intro s1; refine (fun (hs1 : Keeps org s1) => ?_) ?_; clear_value s1)
    | (intro s1; refine (fun (hs1 : Keeps org s1.1) => ?_) ?_; clear_value s1)
    | (intro s1; clear_value s1)
    | (lift_lets; intro s1; refine (fun (hs1 : Keeps org s1) => ?_) ?_; clear_value s1)
    | (lift_lets; intro s1; refine (fun (hs1 : Keeps org s1.1) => ?_) ?_; clear_value s1)
    | (lift_lets; intro s1; clear_value s1)
    | with_reducible apply Keeps.ite
    | with_reducible apply State.modHlt_keeps
    | with_reducible apply State.healthBefore_keeps
    | simp only [s1]
    | split

theorem State.nzOp_keeps {org s : State} {n p j op : Nat} (hs : Keeps org s) : Keeps org (State.nzOp p j op s n).1 := by
  unfold State.nzOp
  exact State.wrNzCtl_keeps hs

theorem State.testOp_keeps {org s : State} {n cam q stride phase bg th : Nat} (hs : Keeps org s) : Keeps org (State.testOp cam q stride phase bg th s n).1 := by
  unfold State.testOp
  exact State.wrTestCtl_keeps hs

theorem State.alignOp_keeps {org s : State} {n cam q nmark bg minMass : Nat} (hs : Keeps org s) : Keeps org (State.alignOp cam q nmark bg minMass s n).1 := by
  unfold State.alignOp
  exact State.wrAlCtl_keeps hs

theorem State.klRecord_keeps {org s : State} {p code : Nat} {w : Window} {put : KlPort → Window → KlPort} {line : Option Nat} (hs : Keeps org s) : Keeps org (s.klRecord p code w put line) := by
  unfold State.klRecord
  repeat' first
    | with_reducible assumption
    | (intro t a ht; have hk : Keeps org t := ht; clear hk)
    | (intro t ht; have hk : Keeps org t := ht; clear hk)
    | (intro s1; refine (fun (hs1 : Keeps org s1) => ?_) ?_; clear_value s1)
    | (intro s1; refine (fun (hs1 : Keeps org s1.1) => ?_) ?_; clear_value s1)
    | (intro s1; clear_value s1)
    | (lift_lets; intro s1; refine (fun (hs1 : Keeps org s1) => ?_) ?_; clear_value s1)
    | (lift_lets; intro s1; refine (fun (hs1 : Keeps org s1.1) => ?_) ?_; clear_value s1)
    | (lift_lets; intro s1; clear_value s1)
    | with_reducible apply Keeps.when
    | with_reducible apply State.modKl_keeps
    | with_reducible apply State.postUnit_keeps

theorem State.klWindowEnd_keeps {org s : State} {p code : Nat} {w : Window} {put : KlPort → Window → KlPort} (hs : Keeps org s) : Keeps org (s.klWindowEnd p code w put) := by
  unfold State.klWindowEnd
  split
  all_goals
  repeat' first
    | with_reducible assumption
    | (intro t a ht; have hk : Keeps org t := ht; clear hk)
    | (intro t ht; have hk : Keeps org t := ht; clear hk)
    | (intro s1; refine (fun (hs1 : Keeps org s1) => ?_) ?_; clear_value s1)
    | (intro s1; clear_value s1)
    | (lift_lets; intro s1; refine (fun (hs1 : Keeps org s1) => ?_) ?_; clear_value s1)
    | (lift_lets; intro s1; clear_value s1)
    | with_reducible apply Keeps.when
    | with_reducible apply Keeps.ite
    | with_reducible apply State.modKl_keeps
    | with_reducible apply State.postUnit_keeps
    | split

theorem State.missWindowEnd_keeps {org s : State} {p : Nat} (hs : Keeps org s) : Keeps org (s.missWindowEnd p) := by
  unfold State.missWindowEnd
  repeat' first
    | with_reducible assumption
    | (intro s1; refine (fun (hs1 : Keeps org s1) => ?_) ?_; clear_value s1)
    | (intro s1; clear_value s1)
    | (lift_lets; intro s1; refine (fun (hs1 : Keeps org s1) => ?_) ?_; clear_value s1)
    | (lift_lets; intro s1; clear_value s1)
    | with_reducible apply State.klWindowEnd_keeps

theorem State.rxAdapt_keeps {org s : State} {p : Nat} (hs : Keeps org s) : Keeps org (s.rxAdapt p) := by
  unfold State.rxAdapt
  repeat' first
    | with_reducible assumption
    | (intro s1; refine (fun (hs1 : Keeps org s1) => ?_) ?_; clear_value s1)
    | (intro s1; refine (fun (hs1 : Keeps org s1.1) => ?_) ?_; clear_value s1)
    | (intro s1; clear_value s1)
    | (lift_lets; intro s1; refine (fun (hs1 : Keeps org s1) => ?_) ?_; clear_value s1)
    | (lift_lets; intro s1; refine (fun (hs1 : Keeps org s1.1) => ?_) ?_; clear_value s1)
    | (lift_lets; intro s1; clear_value s1)
    | with_reducible apply Keeps.ite
    | with_reducible apply State.modKl_keeps
    | with_reducible apply State.draw_keeps
    | simp only [s1]

theorem State.hregLost_keeps {org s : State} {p : Nat} (hs : Keeps org s) : Keeps org (s.hregLost p) := by
  unfold State.hregLost
  split
  all_goals
  repeat' first
    | with_reducible assumption
    | (intro s1; refine (fun (hs1 : Keeps org s1) => ?_) ?_; clear_value s1)
    | (intro s1; clear_value s1)
    | (lift_lets; intro s1; refine (fun (hs1 : Keeps org s1) => ?_) ?_; clear_value s1)
    | (lift_lets; intro s1; clear_value s1)
    | with_reducible apply Keeps.ite
    | with_reducible apply State.modKl_keeps
    | with_reducible apply State.postUnit_keeps
    | split

theorem State.wake_keeps {org s : State} {p : Nat} (hs : Keeps org s) : Keeps org (s.wake p) := by
  unfold State.wake
  repeat' first
    | with_reducible assumption
    | (intro s1; refine (fun (hs1 : Keeps org s1) => ?_) ?_; clear_value s1)
    | (intro s1; clear_value s1)
    | (lift_lets; intro s1; refine (fun (hs1 : Keeps org s1) => ?_) ?_; clear_value s1)
    | (lift_lets; intro s1; clear_value s1)
    | with_reducible apply Keeps.ite
    | with_reducible apply State.modKl_keeps
    | with_reducible apply State.leaveReady_keeps
    | with_reducible apply State.hregLost_keeps

theorem State.portUp_keeps {org s : State} {p : Nat} (hs : Keeps org s) : Keeps org (s.portUp p) := by
  unfold State.portUp
  repeat' first
    | with_reducible assumption
    | (intro s1; refine (fun (hs1 : Keeps org s1) => ?_) ?_; clear_value s1)
    | (intro s1; clear_value s1)
    | (lift_lets; intro s1; refine (fun (hs1 : Keeps org s1) => ?_) ?_; clear_value s1)
    | (lift_lets; intro s1; clear_value s1)
    | with_reducible apply Keeps.ite
    | with_reducible apply State.wake_keeps

theorem State.portDown_keeps {org s : State} {p : Nat} (hs : Keeps org s) : Keeps org (s.portDown p) := by
  unfold State.portDown
  repeat' first
    | with_reducible assumption
    | (intro s1; refine (fun (hs1 : Keeps org s1) => ?_) ?_; clear_value s1)
    | (intro s1; clear_value s1)
    | (lift_lets; intro s1; refine (fun (hs1 : Keeps org s1) => ?_) ?_; clear_value s1)
    | (lift_lets; intro s1; clear_value s1)
    | with_reducible apply State.modKl_keeps
    | with_reducible apply State.modHead_keeps
    | with_reducible apply State.leaveReady_keeps
    | with_reducible apply State.hregLost_keeps

theorem State.wakeDone_keeps {org s : State} {p : Nat} (hs : Keeps org s) : Keeps org (s.wakeDone p) := by
  unfold State.wakeDone
  repeat' first
    | with_reducible assumption
    | with_reducible apply Keeps.ite
    | with_reducible apply State.modKl_keeps
    | with_reducible apply State.rxAdapt_keeps
    | with_reducible apply State.wake_keeps

theorem State.bringupTimeout_keeps {org s : State} {p : Nat} {st : KlSt} {d det : Nat} (hs : Keeps org s) : Keeps org (s.bringupTimeout p st d det) := by
  unfold State.bringupTimeout
  repeat' first
    | with_reducible assumption
    | (intro s1; refine (fun (hs1 : Keeps org s1) => ?_) ?_; clear_value s1)
    | (intro s1; clear_value s1)
    | (lift_lets; intro s1; refine (fun (hs1 : Keeps org s1) => ?_) ?_; clear_value s1)
    | (lift_lets; intro s1; clear_value s1)
    | with_reducible apply Keeps.ite
    | with_reducible apply State.portFault_keeps
    | with_reducible apply State.hregLost_keeps

theorem State.configDone_keeps {org s : State} {p : Nat} (hs : Keeps org s) : Keeps org (s.configDone p) := by
  unfold State.configDone
  repeat' first
    | with_reducible assumption
    | (intro s1; refine (fun (hs1 : Keeps org s1) => ?_) ?_; clear_value s1)
    | (intro s1; clear_value s1)
    | (lift_lets; intro s1; refine (fun (hs1 : Keeps org s1) => ?_) ?_; clear_value s1)
    | (lift_lets; intro s1; clear_value s1)
    | with_reducible apply Keeps.ite
    | with_reducible apply State.modKl_keeps
    | with_reducible apply State.pushStart_keeps

theorem State.linkLost_keeps {org s : State} {p : Nat} (hs : Keeps org s) : Keeps org (s.linkLost p) := by
  unfold State.linkLost
  repeat' first
    | with_reducible assumption
    | (intro s1; refine (fun (hs1 : Keeps org s1) => ?_) ?_; clear_value s1)
    | (intro s1; clear_value s1)
    | (lift_lets; intro s1; refine (fun (hs1 : Keeps org s1) => ?_) ?_; clear_value s1)
    | (lift_lets; intro s1; clear_value s1)
    | with_reducible apply Keeps.ite
    | with_reducible apply State.portFault_keeps
    | with_reducible apply State.hregLost_keeps
    | simp only [s1]
    | split

theorem State.autoRetry_keeps {org s : State} {p : Nat} (hs : Keeps org s) : Keeps org (s.autoRetry p) := by
  unfold State.autoRetry
  repeat' first
    | with_reducible assumption
    | (intro s1; refine (fun (hs1 : Keeps org s1) => ?_) ?_; clear_value s1)
    | (intro s1; clear_value s1)
    | (lift_lets; intro s1; refine (fun (hs1 : Keeps org s1) => ?_) ?_; clear_value s1)
    | (lift_lets; intro s1; clear_value s1)
    | with_reducible apply Keeps.ite
    | with_reducible apply State.wake_keeps

theorem State.upFrame_keeps {org s : State} {p : Nat} {f : UpFrame} (hs : Keeps org s) : Keeps org (s.upFrame p f) := by
  unfold State.upFrame
  repeat' first
    | with_reducible assumption
    | with_reducible apply Keeps.ite
    | with_reducible apply State.modKl_keeps

theorem State.telemetry_keeps {org s : State} {p : Nat} {t : Telem} (hs : Keeps org s) : Keeps org (s.telemetry p t) := by
  unfold State.telemetry
  repeat' first
    | with_reducible assumption
    | (intro t a ht; have hk : Keeps org t := ht; clear hk)
    | (intro t ht; have hk : Keeps org t := ht; clear hk)
    | (intro s1; refine (fun (hs1 : Keeps org s1) => ?_) ?_; clear_value s1)
    | (intro s1; clear_value s1)
    | (lift_lets; intro s1; refine (fun (hs1 : Keeps org s1) => ?_) ?_; clear_value s1)
    | (lift_lets; intro s1; clear_value s1)
    | with_reducible apply Keeps.when
    | with_reducible apply Keeps.ite
    | with_reducible apply State.modFp_keeps
    | with_reducible apply State.modKl_keeps
    | with_reducible apply State.postUnit_keeps
    | with_reducible apply State.portFault_keeps
    | with_reducible apply State.firSample_keeps
    | with_reducible apply State.senseWindow_keeps
    | with_reducible apply State.klRecord_keeps
    | with_reducible apply State.rxAdapt_keeps
    | with_reducible apply State.upFrame_keeps

theorem State.upVoid_keeps {org s : State} {p : Nat} (hs : Keeps org s) : Keeps org (s.upVoid p) := by
  unfold State.upVoid
  repeat' first
    | with_reducible assumption
    | (intro s1; refine (fun (hs1 : Keeps org s1) => ?_) ?_; clear_value s1)
    | (intro s1; clear_value s1)
    | (lift_lets; intro s1; refine (fun (hs1 : Keeps org s1) => ?_) ?_; clear_value s1)
    | (lift_lets; intro s1; clear_value s1)
    | with_reducible apply Keeps.ite
    | with_reducible apply State.modKl_keeps
    | with_reducible apply State.klRecord_keeps

theorem State.upSymbols_keeps {org s : State} {p : Nat} {rx : List Nat} {act : State → UpFrame → State} (hs : Keeps org s) (hact : ∀ t a0, Keeps org t → Keeps org (act t a0)) : Keeps org (s.upSymbols p rx act) := by
  unfold State.upSymbols
  repeat' first
    | with_reducible assumption
    | (intro t a ht; have hk : Keeps org t := ht; clear hk)
    | (intro t ht; have hk : Keeps org t := ht; clear hk)
    | with_reducible apply Keeps.ite
    | with_reducible apply hact
    | with_reducible apply State.modKl_keeps
    | with_reducible apply State.upVoid_keeps
    | split

theorem State.ackFrame_keeps {org s : State} {p : Nat} {a : Ack} (hs : Keeps org s) : Keeps org (s.ackFrame p a) := by
  unfold State.ackFrame
  repeat' first
    | with_reducible assumption
    | (intro t a ht; have hk : Keeps org t := ht; clear hk)
    | (intro t ht; have hk : Keeps org t := ht; clear hk)
    | (intro s1; refine (fun (hs1 : Keeps org s1) => ?_) ?_; clear_value s1)
    | (intro s1; clear_value s1)
    | (lift_lets; intro s1; refine (fun (hs1 : Keeps org s1) => ?_) ?_; clear_value s1)
    | (lift_lets; intro s1; clear_value s1)
    | with_reducible apply Keeps.when
    | with_reducible apply Keeps.ite
    | with_reducible apply State.pushAck_keeps
    | with_reducible apply State.newHead_keeps
    | with_reducible apply State.upFrame_keeps

theorem State.identified_keeps {org s : State} {p : Nat} {d : List Byte} (hs : Keeps org s) : Keeps org (s.identified p d) := by
  unfold State.identified
  repeat' first
    | with_reducible assumption
    | (intro s1; refine (fun (hs1 : Keeps org s1) => ?_) ?_; clear_value s1)
    | (intro s1; clear_value s1)
    | (lift_lets; intro s1; refine (fun (hs1 : Keeps org s1) => ?_) ?_; clear_value s1)
    | (lift_lets; intro s1; clear_value s1)
    | with_reducible apply Keeps.ite
    | with_reducible apply State.modKl_keeps
    | with_reducible apply State.sendFrame_keeps
    | with_reducible apply State.portFault_keeps

theorem State.prbsAnswer_keeps {org s : State} {p : Nat} {d : List Byte} (hs : Keeps org s) : Keeps org (s.prbsAnswer p d) := by
  unfold State.prbsAnswer
  repeat' first
    | with_reducible assumption
    | (intro s1; refine (fun (hs1 : Keeps org s1) => ?_) ?_; clear_value s1)
    | (intro s1; clear_value s1)
    | (lift_lets; intro s1; refine (fun (hs1 : Keeps org s1) => ?_) ?_; clear_value s1)
    | (lift_lets; intro s1; clear_value s1)
    | with_reducible apply Keeps.ite
    | with_reducible apply State.modKl_keeps
    | split

theorem State.respFrame_keeps {org s : State} {p : Nat} {r : Resp} (hs : Keeps org s) : Keeps org (s.respFrame p r) := by
  unfold State.respFrame
  repeat' first
    | with_reducible assumption
    | (intro t a ht; have hk : Keeps org t := ht; clear hk)
    | (intro t ht; have hk : Keeps org t := ht; clear hk)
    | (intro s1; refine (fun (hs1 : Keeps org s1) => ?_) ?_; clear_value s1)
    | (intro s1; clear_value s1)
    | (lift_lets; intro s1; refine (fun (hs1 : Keeps org s1) => ?_) ?_; clear_value s1)
    | (lift_lets; intro s1; clear_value s1)
    | with_reducible apply Keeps.when
    | with_reducible apply Keeps.ite
    | with_reducible apply State.modKl_keeps
    | with_reducible apply State.postUnit_keeps
    | with_reducible apply State.upFrame_keeps
    | with_reducible apply State.identified_keeps
    | with_reducible apply State.prbsAnswer_keeps
    | split

theorem State.respTimeout_keeps {org s : State} {p : Nat} (hs : Keeps org s) : Keeps org (s.respTimeout p) := by
  unfold State.respTimeout
  split
  all_goals
  repeat' first
    | with_reducible assumption
    | with_reducible apply Keeps.ite
    | with_reducible apply State.hregLost_keeps
    | split

theorem State.ctlFrameSend_keeps {org s : State} {p : Nat} (hs : Keeps org s) : Keeps org (s.ctlFrameSend p) := by
  unfold State.ctlFrameSend
  repeat' first
    | with_reducible assumption
    | (intro s1; refine (fun (hs1 : Keeps org s1) => ?_) ?_; clear_value s1)
    | (intro s1; clear_value s1)
    | (lift_lets; intro s1; refine (fun (hs1 : Keeps org s1) => ?_) ?_; clear_value s1)
    | (lift_lets; intro s1; clear_value s1)
    | with_reducible apply Keeps.ite
    | with_reducible apply State.modKl_keeps
    | with_reducible apply State.sendFrame_keeps
    | simp only [s1]
    | split

theorem State.hregCmd_keeps {org s : State} {p n addr : Nat} {write : Bool} {len : Nat} (hs : Keeps org s) : Keeps org (s.hregCmd p n addr write len).1 := by
  unfold State.hregCmd
  repeat' first
    | with_reducible assumption
    | (intro s1; refine (fun (hs1 : Keeps org s1) => ?_) ?_; clear_value s1)
    | (intro s1; clear_value s1)
    | (lift_lets; intro s1; refine (fun (hs1 : Keeps org s1) => ?_) ?_; clear_value s1)
    | (lift_lets; intro s1; clear_value s1)
    | with_reducible apply Keeps.ite_fst
    | with_reducible apply Keeps.ite
    | with_reducible apply State.modKl_keeps
    | with_reducible apply State.refuse_keeps
    | split

theorem State.klHolder_keeps {org s : State} {p n : Nat} {op : State → State × Nat} (hs : Keeps org s) (hop : ∀ t, Keeps org t → Keeps org (op t).1) : Keeps org (s.klHolder p n op).1 := by
  unfold State.klHolder
  repeat' first
    | with_reducible assumption
    | (intro t a ht; have hk : Keeps org t := ht; clear hk)
    | (intro t ht; have hk : Keeps org t := ht; clear hk)
    | with_reducible apply hop
    | with_reducible apply State.ifRight_keeps

theorem State.wrHregCmd_keeps {org s : State} {p n : Nat} {v : Word} (hs : Keeps org s) : Keeps org (s.wrHregCmd p n v).1 := by
  unfold State.wrHregCmd
  repeat' first
    | with_reducible assumption
    | (intro t a ht; have hk : Keeps org t := ht; clear hk)
    | (intro t ht; have hk : Keeps org t := ht; clear hk)
    | with_reducible apply State.hregCmd_keeps
    | with_reducible apply State.klHolder_keeps

theorem State.prbsArm_keeps {org s : State} {p v dur t : Nat} (hs : Keeps org s) : Keeps org (s.prbsArm p v dur t) := by
  unfold State.prbsArm
  repeat' first
    | with_reducible assumption
    | (intro s1; refine (fun (hs1 : Keeps org s1) => ?_) ?_; clear_value s1)
    | (intro s1; clear_value s1)
    | (lift_lets; intro s1; refine (fun (hs1 : Keeps org s1) => ?_) ?_; clear_value s1)
    | (lift_lets; intro s1; clear_value s1)
    | with_reducible apply State.modKl_keeps
    | with_reducible apply State.sendFrom_keeps

theorem State.prbsBegin_keeps {org s : State} {p : Nat} {v : Nat} (hs : Keeps org s) : Keeps org (s.prbsBegin p v) := by
  unfold State.prbsBegin
  repeat' first
    | with_reducible assumption
    | (intro s1; refine (fun (hs1 : Keeps org s1) => ?_) ?_; clear_value s1)
    | (intro s1; clear_value s1)
    | (lift_lets; intro s1; refine (fun (hs1 : Keeps org s1) => ?_) ?_; clear_value s1)
    | (lift_lets; intro s1; clear_value s1)
    | with_reducible apply State.modKl_keeps
    | with_reducible apply State.leaveReady_keeps
    | with_reducible apply State.prbsArm_keeps

theorem State.wrPrbs_keeps {org s : State} {p n : Nat} {v : Word} (hs : Keeps org s) : Keeps org (s.wrPrbs p n v).1 := by
  unfold State.wrPrbs
  repeat' first
    | with_reducible assumption
    | (intro t a ht; have hk : Keeps org t := ht; clear hk)
    | (intro t ht; have hk : Keeps org t := ht; clear hk)
    | (intro s1; refine (fun (hs1 : Keeps org s1) => ?_) ?_; clear_value s1)
    | (intro s1; clear_value s1)
    | (lift_lets; intro s1; refine (fun (hs1 : Keeps org s1) => ?_) ?_; clear_value s1)
    | (lift_lets; intro s1; clear_value s1)
    | with_reducible apply Keeps.ite_fst
    | with_reducible apply Keeps.ite
    | with_reducible apply State.modKl_keeps
    | with_reducible apply State.refuse_keeps
    | with_reducible apply State.wake_keeps
    | with_reducible apply State.klHolder_keeps
    | with_reducible apply State.prbsBegin_keeps
    | split

theorem State.prbsRunStart_keeps {org s : State} {p : Nat} (hs : Keeps org s) : Keeps org (s.prbsRunStart p) := by
  unfold State.prbsRunStart
  repeat' first
    | with_reducible assumption
    | (intro s1; refine (fun (hs1 : Keeps org s1) => ?_) ?_; clear_value s1)
    | (intro s1; clear_value s1)
    | (lift_lets; intro s1; refine (fun (hs1 : Keeps org s1) => ?_) ?_; clear_value s1)
    | (lift_lets; intro s1; clear_value s1)
    | with_reducible apply Keeps.ite
    | with_reducible apply State.modKl_keeps
    | split

theorem State.prbsRunEnd_keeps {org s : State} {p : Nat} {upFlips downFlips : List Nat} (hs : Keeps org s) : Keeps org (s.prbsRunEnd p upFlips downFlips) := by
  unfold State.prbsRunEnd
  repeat' first
    | with_reducible assumption
    | (intro s1; refine (fun (hs1 : Keeps org s1) => ?_) ?_; clear_value s1)
    | (intro s1; clear_value s1)
    | (lift_lets; intro s1; refine (fun (hs1 : Keeps org s1) => ?_) ?_; clear_value s1)
    | (lift_lets; intro s1; clear_value s1)
    | with_reducible apply Keeps.ite
    | with_reducible apply State.modKl_keeps
    | with_reducible apply State.modHead_keeps
    | with_reducible apply State.sendFrom_keeps
    | with_reducible apply State.prbsArm_keeps
    | simp only [s1]
    | split

theorem State.eyeSweep_keeps {org s : State} {p width height : Nat} (hs : Keeps org s) : Keeps org (s.eyeSweep p width height) := by
  unfold State.eyeSweep
  repeat' first
    | with_reducible assumption
    | (intro s1; refine (fun (hs1 : Keeps org s1) => ?_) ?_; clear_value s1)
    | (intro s1; clear_value s1)
    | (lift_lets; intro s1; refine (fun (hs1 : Keeps org s1) => ?_) ?_; clear_value s1)
    | (lift_lets; intro s1; clear_value s1)
    | with_reducible apply Keeps.ite
    | with_reducible apply State.modKl_keeps

theorem State.calBegin_keeps {org s : State} {p : Nat} (hs : Keeps org s) : Keeps org (s.calBegin p) := by
  unfold State.calBegin
  repeat' first
    | with_reducible assumption
    | (intro s1; refine (fun (hs1 : Keeps org s1) => ?_) ?_; clear_value s1)
    | (intro s1; clear_value s1)
    | (lift_lets; intro s1; refine (fun (hs1 : Keeps org s1) => ?_) ?_; clear_value s1)
    | (lift_lets; intro s1; clear_value s1)
    | with_reducible apply State.modKl_keeps
    | with_reducible apply State.sendFrame_keeps
    | with_reducible apply State.leaveReady_keeps
    | with_reducible apply State.prbsArm_keeps

theorem State.laneReturn_keeps {org s : State} {p : Nat} (hs : Keeps org s) : Keeps org (s.laneReturn p) := by
  unfold State.laneReturn
  repeat' first
    | with_reducible assumption
    | with_reducible apply State.modKl_keeps
    | with_reducible apply State.pushStart_keeps

theorem State.klClear_keeps {org s : State} {p : Nat} (hs : Keeps org s) : Keeps org (s.klClear p) := by
  unfold State.klClear
  repeat' first
    | with_reducible assumption
    | with_reducible apply State.modKl_keeps

theorem State.wrKlPortCtl_keeps {org s : State} {p n : Nat} {v : Word} (hs : Keeps org s) : Keeps org (s.wrKlPortCtl p n v).1 := by
  unfold State.wrKlPortCtl
  repeat' first
    | with_reducible assumption
    | (intro t a ht; have hk : Keeps org t := ht; clear hk)
    | (intro t ht; have hk : Keeps org t := ht; clear hk)
    | (intro s1; refine (fun (hs1 : Keeps org s1) => ?_) ?_; clear_value s1)
    | (intro s1; clear_value s1)
    | (lift_lets; intro s1; refine (fun (hs1 : Keeps org s1) => ?_) ?_; clear_value s1)
    | (lift_lets; intro s1; clear_value s1)
    | with_reducible apply Keeps.when
    | with_reducible apply Keeps.ite_fst
    | with_reducible apply Keeps.ite
    | with_reducible apply State.refuse_keeps
    | with_reducible apply State.portUp_keeps
    | with_reducible apply State.portDown_keeps
    | with_reducible apply State.klHolder_keeps
    | with_reducible apply State.calBegin_keeps
    | with_reducible apply State.klClear_keeps
    | split
    | (refine Keeps.ofEq (by assumption) ?_)

theorem State.wrHvCtl_keeps {org s : State} {n : Nat} {v : Word} (hs : Keeps org s) : Keeps org (s.wrHvCtl n v).1 := by
  unfold State.wrHvCtl
  repeat' first
    | with_reducible assumption
    | (intro t a ht; have hk : Keeps org t := ht; clear hk)
    | (intro t ht; have hk : Keeps org t := ht; clear hk)
    | (intro t a ht; have hk : Keeps org t.1 := ht; clear hk)
    | (intro s1; refine (fun (hs1 : Keeps org s1) => ?_) ?_; clear_value s1)
    | (intro s1; refine (fun (hs1 : Keeps org s1.1) => ?_) ?_; clear_value s1)
    | (intro s1; clear_value s1)
    | (lift_lets; intro s1; refine (fun (hs1 : Keeps org s1) => ?_) ?_; clear_value s1)
    | (lift_lets; intro s1; refine (fun (hs1 : Keeps org s1.1) => ?_) ?_; clear_value s1)
    | (lift_lets; intro s1; clear_value s1)
    | with_reducible apply Keeps.ite_fst
    | with_reducible apply Keeps.ite
    | with_reducible apply Keeps.foldl
    | with_reducible apply Keeps.foldl_fst
    | with_reducible apply State.ifRight_keeps
    | with_reducible apply State.hvDrop_keeps
    | with_reducible apply State.hvOn_keeps
    | split
    | (refine Keeps.ofEq (by assumption) ?_)

theorem State.wrFirPortCtl_keeps {org s : State} {p n : Nat} {v : Word} (hs : Keeps org s) : Keeps org (s.wrFirPortCtl p n v).1 := by
  unfold State.wrFirPortCtl
  repeat' first
    | with_reducible assumption
    | (intro t a ht; have hk : Keeps org t := ht; clear hk)
    | (intro t ht; have hk : Keeps org t := ht; clear hk)
    | with_reducible apply Keeps.when
    | with_reducible apply State.modFp_keeps
    | with_reducible apply State.ifRight_keeps

theorem State.teltoExpiry_keeps {org s : State} {p : Nat} (hs : Keeps org s) : Keeps org (s.teltoExpiry p) := by
  unfold State.teltoExpiry
  repeat' first
    | with_reducible assumption
    | with_reducible apply Keeps.ite
    | with_reducible apply State.modFp_keeps

theorem State.laneTake_keeps {org s : State} {p : Nat} {i : LaneItem} (hs : Keeps org s) : Keeps org (s.laneTake p i) := by
  unfold State.laneTake
  repeat' first
    | with_reducible assumption
    | with_reducible apply Keeps.ite
    | with_reducible apply State.modKl_keeps
    | with_reducible apply Keeps.mk

theorem State.headTake_keeps {org s : State} {p : Nat} {noise : List (Nat × Nat)} {want : DownItem → Bool} {void : Head → Head} {act : State → DownItem → State} (hs : Keeps org s) (hact : ∀ t a0, Keeps org t → Keeps org (act t a0)) : Keeps org (s.headTake p noise want void act) := by
  unfold State.headTake
  split
  all_goals
  repeat' first
    | with_reducible assumption
    | (intro t a ht; have hk : Keeps org t := ht; clear hk)
    | (intro t ht; have hk : Keeps org t := ht; clear hk)
    | (intro s1; refine (fun (hs1 : Keeps org s1) => ?_) ?_; clear_value s1)
    | (intro s1; refine (fun (hs1 : Keeps org s1.1) => ?_) ?_; clear_value s1)
    | (intro s1; clear_value s1)
    | (lift_lets; intro s1; refine (fun (hs1 : Keeps org s1) => ?_) ?_; clear_value s1)
    | (lift_lets; intro s1; refine (fun (hs1 : Keeps org s1.1) => ?_) ?_; clear_value s1)
    | (lift_lets; intro s1; clear_value s1)
    | with_reducible apply Keeps.ite
    | with_reducible apply hact
    | with_reducible apply State.modHead_keeps
    | with_reducible apply State.laneTake_keeps
    | with_reducible apply State.headRead_keeps
    | split

theorem State.headFire_keeps {org s : State} {p : Nat} {noise : List (Nat × Nat)} (hs : Keeps org s) : Keeps org (s.headFire p noise) := by
  unfold State.headFire
  repeat' first
    | with_reducible assumption
    | (intro t a ht; have hk : Keeps org t := ht; clear hk)
    | (intro t ht; have hk : Keeps org t := ht; clear hk)
    | with_reducible apply State.modHead_keeps
    | with_reducible apply State.headTake_keeps
    | with_reducible apply State.fireSymbol_keeps
    | split

theorem State.headLine_keeps {org s : State} {p : Nat} {noise : List (Nat × Nat)} (hs : Keeps org s) : Keeps org (s.headLine p noise) := by
  unfold State.headLine
  repeat' first
    | with_reducible assumption
    | (intro t a ht; have hk : Keeps org t := ht; clear hk)
    | (intro t ht; have hk : Keeps org t := ht; clear hk)
    | with_reducible apply State.modHead_keeps
    | with_reducible apply State.headTake_keeps
    | split

theorem State.headTable_keeps {org s : State} {p : Nat} {noise : List (Nat × Nat)} (hs : Keeps org s) : Keeps org (s.headTable p noise) := by
  unfold State.headTable
  repeat' first
    | with_reducible assumption
    | (intro t a ht; have hk : Keeps org t := ht; clear hk)
    | (intro t ht; have hk : Keeps org t := ht; clear hk)
    | (intro s1; refine (fun (hs1 : Keeps org s1) => ?_) ?_; clear_value s1)
    | (intro s1; clear_value s1)
    | (lift_lets; intro s1; refine (fun (hs1 : Keeps org s1) => ?_) ?_; clear_value s1)
    | (lift_lets; intro s1; clear_value s1)
    | with_reducible apply Keeps.ite
    | with_reducible apply State.modKl_keeps
    | with_reducible apply State.modHead_keeps
    | with_reducible apply State.headTake_keeps
    | split

theorem State.headCtl_keeps {org s : State} {p : Nat} {op : CtlOp} {noise : List (Nat × Nat)} {act : Head → CtlFrame → Head} (hs : Keeps org s) : Keeps org (s.headCtl p op noise act) := by
  unfold State.headCtl
  repeat' first
    | with_reducible assumption
    | (intro t a ht; have hk : Keeps org t := ht; clear hk)
    | (intro t ht; have hk : Keeps org t := ht; clear hk)
    | with_reducible apply Keeps.ite
    | with_reducible apply State.modHead_keeps
    | with_reducible apply State.headTake_keeps
    | split

theorem State.headRead_keeps {org : State} {p : Nat} : ∀ {n a : Nat} {s : State}, Keeps org s → Keeps org (s.headRead p a n).1
  | 0, _, _, h => h
  | n + 1, a, s, h => by
    unfold State.headRead
    apply State.headRead_keeps
    split
    · exact State.draw_keeps h
    · exact h

theorem State.headAccess_keeps {org s : State} {p : Nat} {noise : List (Nat × Nat)} {busy : Bool} (hs : Keeps org s) : Keeps org (s.headAccess p noise busy) := by
  unfold State.headAccess
  repeat' first
    | with_reducible assumption
    | (intro t a ht; have hk : Keeps org t := ht; clear hk)
    | (intro t ht; have hk : Keeps org t := ht; clear hk)
    | (intro t a ht; have hk : Keeps org t.1 := ht; clear hk)
    | (intro s1; refine (fun (hs1 : Keeps org s1) => ?_) ?_; clear_value s1)
    | (intro s1; refine (fun (hs1 : Keeps org s1.1) => ?_) ?_; clear_value s1)
    | (intro s1; clear_value s1)
    | (lift_lets; intro s1; refine (fun (hs1 : Keeps org s1) => ?_) ?_; clear_value s1)
    | (lift_lets; intro s1; refine (fun (hs1 : Keeps org s1.1) => ?_) ?_; clear_value s1)
    | (lift_lets; intro s1; clear_value s1)
    | with_reducible apply Keeps.ite
    | with_reducible apply Keeps.foldl
    | with_reducible apply Keeps.foldl_fst
    | with_reducible apply State.modKl_keeps
    | with_reducible apply State.modHead_keeps
    | with_reducible apply State.headTake_keeps
    | with_reducible apply State.headRead_keeps
    | simp only [s1]
    | split
    | (refine Keeps.ofEq (by assumption) ?_)

theorem State.headTelemetry_keeps {org s : State} {p : Nat} {temps : List (Option Int)} {vsup vlog win : Nat} {sense : SMap Nat} {fault : Bool} (hs : Keeps org s) : Keeps org (s.headTelemetry p temps vsup vlog win sense fault) := by
  unfold State.headTelemetry
  repeat' first
    | with_reducible assumption
    | (intro s1; refine (fun (hs1 : Keeps org s1) => ?_) ?_; clear_value s1)
    | (intro s1; clear_value s1)
    | (lift_lets; intro s1; refine (fun (hs1 : Keeps org s1) => ?_) ?_; clear_value s1)
    | (lift_lets; intro s1; clear_value s1)
    | with_reducible apply Keeps.ite
    | with_reducible apply State.modKl_keeps
    | with_reducible apply State.modHead_keeps
    | split

theorem State.headAlign_keeps {org s : State} {p offset : Nat} (hs : Keeps org s) : Keeps org (s.headAlign p offset) := by
  unfold State.headAlign
  repeat' first
    | with_reducible assumption
    | with_reducible apply Keeps.ite
    | with_reducible apply State.modHead_keeps
    | with_reducible apply State.wake_keeps

theorem State.headPower_keeps {org s : State} {p : Nat} {hid0 hid1 hcap : Word} {rowmap : SMap Nat} (hs : Keeps org s) : Keeps org (s.headPower p hid0 hid1 hcap rowmap) := by
  unfold State.headPower
  repeat' first
    | with_reducible assumption
    | with_reducible apply State.modHead_keeps

end Sys2Proof.Machine
end

