-- ==== Sys2Proof/Laws/KeepCamera.lean ====
section
/-! SUPPORT. What the operations keep: the cameras, non-volatile memory and the memories. -/
set_option maxRecDepth 2000
namespace Sys2Proof.Machine
open Sys2Proof

theorem State.camFlush_keeps {org s : State} {c : Nat} (hs : Keeps org s) : Keeps org (s.camFlush c) := by
  unfold State.camFlush
  repeat' first
    | with_reducible assumption
    | with_reducible apply State.modCam_keeps
    | with_reducible apply State.flush_keeps

theorem State.modFrame_keeps {org s : State} {c no : Nat} {g : Frame → Frame} (hs : Keeps org s) : Keeps org (s.modFrame c no g) := by
  unfold State.modFrame
  repeat' first
    | with_reducible assumption
    | with_reducible apply Keeps.ite
    | with_reducible apply State.modCam_keeps

theorem State.endRequest_keeps {org s : State} {c : Nat} {done : Bool} {d : Nat} {r : TrigReq} (hs : Keeps org s) : Keeps org (s.endRequest c done d r) := by
  unfold State.endRequest
  repeat' first
    | with_reducible assumption
    | with_reducible apply State.modCam_keeps
    | with_reducible apply State.after_keeps
    | with_reducible apply State.reqEnd_keeps

theorem State.dropFrame_keeps {org s : State} {c : Nat} {f : Frame} {cause : Nat} (hs : Keeps org s) : Keeps org (s.dropFrame c f cause) := by
  unfold State.dropFrame
  repeat' first
    | with_reducible assumption
    | (intro t a ht; have hk : Keeps org t := ht; clear hk)
    | (intro t ht; have hk : Keeps org t := ht; clear hk)
    | (intro s1; refine (fun (hs1 : Keeps org s1) => ?_) ?_; clear_value s1)
    | (intro s1; clear_value s1)
    | (lift_lets; intro s1; refine (fun (hs1 : Keeps org s1) => ?_) ?_; clear_value s1)
    | (lift_lets; intro s1; clear_value s1)
    | with_reducible apply Keeps.each
    | with_reducible apply Keeps.ite
    | with_reducible apply State.modCam_keeps
    | with_reducible apply State.camFlush_keeps
    | with_reducible apply State.modFrame_keeps
    | with_reducible apply State.endRequest_keeps

theorem State.trigAccept_keeps {org s : State} {c : Nat} {src : TrigSrc} {q : Nat} {pos : Int} (hs : Keeps org s) : Keeps org (s.trigAccept c src q pos) := by
  unfold State.trigAccept
  repeat' first
    | with_reducible assumption
    | (intro s1; refine (fun (hs1 : Keeps org s1) => ?_) ?_; clear_value s1)
    | (intro s1; clear_value s1)
    | (lift_lets; intro s1; refine (fun (hs1 : Keeps org s1) => ?_) ?_; clear_value s1)
    | (lift_lets; intro s1; clear_value s1)
    | with_reducible apply State.modCam_keeps

theorem State.trigPulse_keeps {org s : State} {c : Nat} (hs : Keeps org s) : Keeps org (s.trigPulse c) := by
  unfold State.trigPulse
  repeat' first
    | with_reducible assumption
    | (intro s1; refine (fun (hs1 : Keeps org s1) => ?_) ?_; clear_value s1)
    | (intro s1; clear_value s1)
    | (lift_lets; intro s1; refine (fun (hs1 : Keeps org s1) => ?_) ?_; clear_value s1)
    | (lift_lets; intro s1; clear_value s1)
    | with_reducible apply Keeps.ite
    | with_reducible apply State.modCam_keeps
    | with_reducible apply State.emit_keeps
    | split

theorem State.trigTimeout_keeps {org s : State} {c : Nat} (hs : Keeps org s) : Keeps org (s.trigTimeout c) := by
  unfold State.trigTimeout
  repeat' first
    | with_reducible assumption
    | (intro s1; refine (fun (hs1 : Keeps org s1) => ?_) ?_; clear_value s1)
    | (intro s1; clear_value s1)
    | (lift_lets; intro s1; refine (fun (hs1 : Keeps org s1) => ?_) ?_; clear_value s1)
    | (lift_lets; intro s1; clear_value s1)
    | with_reducible apply Keeps.ite
    | with_reducible apply State.modCam_keeps
    | with_reducible apply State.camPost_keeps
    | with_reducible apply State.endRequest_keeps
    | split

theorem State.ptSkipped_keeps {org s : State} {c n : Nat} (hs : Keeps org s) : Keeps org (s.ptSkipped c n) := by
  unfold State.ptSkipped
  repeat' first
    | with_reducible assumption
    | with_reducible apply Keeps.ite
    | with_reducible apply State.modCam_keeps

theorem State.positionTrigger_keeps {org s : State} {c : Nat} (hs : Keeps org s) : Keeps org (s.positionTrigger c) := by
  unfold State.positionTrigger
  repeat' first
    | with_reducible assumption
    | (intro s1; refine (fun (hs1 : Keeps org s1) => ?_) ?_; clear_value s1)
    | (intro s1; clear_value s1)
    | (lift_lets; intro s1; refine (fun (hs1 : Keeps org s1) => ?_) ?_; clear_value s1)
    | (lift_lets; intro s1; clear_value s1)
    | with_reducible apply Keeps.ite
    | with_reducible apply State.modCam_keeps
    | with_reducible apply State.camPost_keeps
    | with_reducible apply State.trigAccept_keeps
    | with_reducible apply State.ptSkipped_keeps
    | simp only [s1]
    | split

theorem State.ptSkipWindow_keeps {org s : State} {c : Nat} (hs : Keeps org s) : Keeps org (s.ptSkipWindow c) := by
  unfold State.ptSkipWindow
  repeat' first
    | with_reducible assumption
    | (intro s1; refine (fun (hs1 : Keeps org s1) => ?_) ?_; clear_value s1)
    | (intro s1; clear_value s1)
    | (lift_lets; intro s1; refine (fun (hs1 : Keeps org s1) => ?_) ?_; clear_value s1)
    | (lift_lets; intro s1; clear_value s1)
    | with_reducible apply Keeps.ite
    | with_reducible apply State.modCam_keeps
    | with_reducible apply State.postUnit_keeps
    | split

theorem State.relatch_keeps {org s : State} {c : Nat} (hs : Keeps org s) : Keeps org (s.relatch c) := by
  unfold State.relatch
  repeat' first
    | with_reducible assumption
    | with_reducible apply Keeps.ite
    | with_reducible apply State.modCam_keeps

theorem State.frameBegin_keeps {org s : State} {c : Nat} (hs : Keeps org s) : Keeps org (s.frameBegin c) := by
  unfold State.frameBegin
  repeat' first
    | with_reducible assumption
    | (intro s1; refine (fun (hs1 : Keeps org s1) => ?_) ?_; clear_value s1)
    | (intro s1; clear_value s1)
    | (lift_lets; intro s1; refine (fun (hs1 : Keeps org s1) => ?_) ?_; clear_value s1)
    | (lift_lets; intro s1; clear_value s1)
    | with_reducible apply Keeps.ite
    | with_reducible apply State.modCam_keeps
    | with_reducible apply State.postUnit_keeps
    | with_reducible apply State.after_keeps
    | with_reducible apply State.frameIn_keeps
    | simp only [s1]
    | split

theorem State.frameStart_keeps {org s : State} {c : Nat} (hs : Keeps org s) : Keeps org (s.frameStart c) := by
  unfold State.frameStart
  repeat' first
    | with_reducible assumption
    | (intro s1; refine (fun (hs1 : Keeps org s1) => ?_) ?_; clear_value s1)
    | (intro s1; clear_value s1)
    | (lift_lets; intro s1; refine (fun (hs1 : Keeps org s1) => ?_) ?_; clear_value s1)
    | (lift_lets; intro s1; clear_value s1)
    | with_reducible apply Keeps.ite
    | with_reducible apply State.modCam_keeps
    | with_reducible apply State.frameBegin_keeps

theorem State.malformed_keeps {org s : State} {c : Nat} {f : Frame} (hs : Keeps org s) : Keeps org (s.malformed c f) := by
  unfold State.malformed
  repeat' first
    | with_reducible assumption
    | with_reducible apply State.modCam_keeps
    | with_reducible apply State.postUnit_keeps
    | with_reducible apply State.dropFrame_keeps

theorem State.highMark_keeps {org s : State} {c : Nat} (hs : Keeps org s) : Keeps org (s.highMark c) := by
  unfold State.highMark
  repeat' first
    | with_reducible assumption
    | (intro t a ht; have hk : Keeps org t := ht; clear hk)
    | (intro t ht; have hk : Keeps org t := ht; clear hk)
    | (intro t a ht; have hk : Keeps org t.1 := ht; clear hk)
    | (intro s1; refine (fun (hs1 : Keeps org s1) => ?_) ?_; clear_value s1)
    | (intro s1; clear_value s1)
    | (lift_lets; intro s1; refine (fun (hs1 : Keeps org s1) => ?_) ?_; clear_value s1)
    | (lift_lets; intro s1; clear_value s1)
    | with_reducible apply Keeps.ite
    | with_reducible apply Keeps.foldl
    | with_reducible apply Keeps.foldl_fst
    | with_reducible apply State.modCam_keeps
    | with_reducible apply State.postUnit_keeps
    | with_reducible apply State.dropFrame_keeps
    | split
    | with_reducible apply Keeps.mk

theorem State.camLine_keeps {org s : State} {c : Nat} {l : List CamCycle} (hs : Keeps org s) : Keeps org (s.camLine c l) := by
  unfold State.camLine
  repeat' first
    | with_reducible assumption
    | (intro s1; refine (fun (hs1 : Keeps org s1) => ?_) ?_; clear_value s1)
    | (intro s1; clear_value s1)
    | (lift_lets; intro s1; refine (fun (hs1 : Keeps org s1) => ?_) ?_; clear_value s1)
    | (lift_lets; intro s1; clear_value s1)
    | with_reducible apply Keeps.ite
    | with_reducible apply State.modFrame_keeps
    | with_reducible apply State.malformed_keeps
    | with_reducible apply State.highMark_keeps
    | split

theorem State.frameEnd_keeps {org s : State} {c : Nat} (hs : Keeps org s) : Keeps org (s.frameEnd c) := by
  unfold State.frameEnd
  repeat' first
    | with_reducible assumption
    | (intro s1; refine (fun (hs1 : Keeps org s1) => ?_) ?_; clear_value s1)
    | (intro s1; clear_value s1)
    | (lift_lets; intro s1; refine (fun (hs1 : Keeps org s1) => ?_) ?_; clear_value s1)
    | (lift_lets; intro s1; clear_value s1)
    | with_reducible apply Keeps.ite
    | with_reducible apply State.modCam_keeps
    | with_reducible apply State.postUnit_keeps
    | with_reducible apply State.modFrame_keeps
    | with_reducible apply State.dropFrame_keeps
    | simp only [s1]
    | split

theorem State.lineSlot_keeps {org s : State} {u : Nat} (hs : Keeps org s) : Keeps org (s.lineSlot u) := by
  unfold State.lineSlot
  repeat' first
    | with_reducible assumption
    | (intro s1; refine (fun (hs1 : Keeps org s1) => ?_) ?_; clear_value s1)
    | (intro s1; clear_value s1)
    | (lift_lets; intro s1; refine (fun (hs1 : Keeps org s1) => ?_) ?_; clear_value s1)
    | (lift_lets; intro s1; clear_value s1)
    | with_reducible apply State.modFrame_keeps
    | split
    | with_reducible apply Keeps.mk

theorem State.camNoclk_keeps {org s : State} {c : Nat} (hs : Keeps org s) : Keeps org (s.camNoclk c) := by
  unfold State.camNoclk
  repeat' first
    | with_reducible assumption
    | (intro t a ht; have hk : Keeps org t := ht; clear hk)
    | (intro t ht; have hk : Keeps org t := ht; clear hk)
    | (intro s1; refine (fun (hs1 : Keeps org s1) => ?_) ?_; clear_value s1)
    | (intro s1; clear_value s1)
    | (lift_lets; intro s1; refine (fun (hs1 : Keeps org s1) => ?_) ?_; clear_value s1)
    | (lift_lets; intro s1; clear_value s1)
    | with_reducible apply Keeps.each
    | with_reducible apply Keeps.ite
    | with_reducible apply State.modCam_keeps
    | with_reducible apply State.postUnit_keeps
    | with_reducible apply State.endRequest_keeps
    | with_reducible apply State.dropFrame_keeps
    | simp only [s1]
    | split

theorem State.clockReturn_keeps {org s : State} {c : Nat} (hs : Keeps org s) : Keeps org (s.clockReturn c) := by
  unfold State.clockReturn
  repeat' first
    | with_reducible assumption
    | with_reducible apply Keeps.ite
    | with_reducible apply State.modCam_keeps

theorem State.camEnable_keeps {org s : State} {c : Nat} {on : Bool} (hs : Keeps org s) : Keeps org (s.camEnable c on) := by
  unfold State.camEnable
  repeat' first
    | with_reducible assumption
    | (intro s1; refine (fun (hs1 : Keeps org s1) => ?_) ?_; clear_value s1)
    | (intro s1; clear_value s1)
    | (lift_lets; intro s1; refine (fun (hs1 : Keeps org s1) => ?_) ?_; clear_value s1)
    | (lift_lets; intro s1; clear_value s1)
    | with_reducible apply Keeps.ite
    | with_reducible apply State.modCam_keeps
    | with_reducible apply State.trigCut_keeps
    | with_reducible apply State.dropFrame_keeps
    | simp only [s1]
    | split

theorem State.alignMeasure_keeps {org s : State} {c : Nat} {f : Frame} {P : Planes} (hs : Keeps org s) : Keeps org (s.alignMeasure c f P) := by
  unfold State.alignMeasure
  split
  all_goals
  repeat' first
    | with_reducible assumption
    | (intro s1; refine (fun (hs1 : Keeps org s1) => ?_) ?_; clear_value s1)
    | (intro s1; refine (fun (hs1 : Keeps org s1.1) => ?_) ?_; clear_value s1)
    | (intro s1; clear_value s1)
    | (lift_lets; intro s1; refine (fun (hs1 : Keeps org s1) => ?_) ?_; clear_value s1)
    | (lift_lets; intro s1; refine (fun (hs1 : Keeps org s1.1) => ?_) ?_; clear_value s1)
    | (lift_lets; intro s1; clear_value s1)
    | with_reducible apply State.modHlt_keeps
    | with_reducible apply State.draw_keeps
    | with_reducible apply State.postUnit_keeps
    | split

theorem State.ringWrite_keeps {org s : State} {c k : Nat} {w : Word} {b : List Byte} (hs : Keeps org s) : Keeps org (s.ringWrite c k w b).1 := by
  unfold State.ringWrite
  split
  all_goals
  repeat' first
    | with_reducible assumption
    | (intro s1; refine (fun (hs1 : Keeps org s1) => ?_) ?_; clear_value s1)
    | (intro s1; refine (fun (hs1 : Keeps org s1.1) => ?_) ?_; clear_value s1)
    | (intro s1; clear_value s1)
    | (lift_lets; intro s1; refine (fun (hs1 : Keeps org s1) => ?_) ?_; clear_value s1)
    | (lift_lets; intro s1; refine (fun (hs1 : Keeps org s1.1) => ?_) ?_; clear_value s1)
    | (lift_lets; intro s1; clear_value s1)
    | with_reducible apply Keeps.ite_fst
    | with_reducible apply Keeps.ite
    | with_reducible apply State.vwrite_keeps
    | split
    | (refine Keeps.ofEq (by assumption) ?_)

theorem State.frameOutput_keeps {org s : State} {c : Nat} {f : Frame} {P : Planes} {k : Nat} (hs : Keeps org s) : Keeps org (s.frameOutput c f P k).1 := by
  unfold State.frameOutput
  repeat' first
    | with_reducible assumption
    | (intro s1; refine (fun (hs1 : Keeps org s1) => ?_) ?_; clear_value s1)
    | (intro s1; refine (fun (hs1 : Keeps org s1.1) => ?_) ?_; clear_value s1)
    | (intro s1; clear_value s1)
    | (lift_lets; intro s1; refine (fun (hs1 : Keeps org s1) => ?_) ?_; clear_value s1)
    | (lift_lets; intro s1; refine (fun (hs1 : Keeps org s1.1) => ?_) ?_; clear_value s1)
    | (lift_lets; intro s1; clear_value s1)
    | with_reducible apply Keeps.ite_fst
    | with_reducible apply Keeps.ite
    | with_reducible apply State.modCam_keeps
    | with_reducible apply State.postUnit_keeps
    | with_reducible apply State.ringWrite_keeps
    | split
    | (refine Keeps.ofEq (by assumption) ?_)

theorem State.visionTo_keeps {org s : State} {c : Nat} {f : Frame} {P : Planes} (hs : Keeps org s) : Keeps org (s.visionTo c f P) := by
  unfold State.visionTo
  repeat' first
    | with_reducible assumption
    | (intro s1; refine (fun (hs1 : Keeps org s1) => ?_) ?_; clear_value s1)
    | (intro s1; clear_value s1)
    | (lift_lets; intro s1; refine (fun (hs1 : Keeps org s1) => ?_) ?_; clear_value s1)
    | (lift_lets; intro s1; clear_value s1)
    | with_reducible apply Keeps.ite
    | with_reducible apply State.modHlt_keeps
    | with_reducible apply State.postUnit_keeps
    | with_reducible apply State.sramUeHit_keeps
    | with_reducible apply State.alignMeasure_keeps
    | simp only [s1]
    | split

theorem State.calFrame_keeps {org s : State} {c : Nat} {f : Frame} (hs : Keeps org s) : Keeps org (s.calFrame c f) := by
  unfold State.calFrame
  split
  all_goals
  repeat' first
    | with_reducible assumption
    | with_reducible apply Keeps.ite
    | split
    | with_reducible apply Keeps.mk

theorem State.frameComplete_keeps {org s : State} {c : Nat} (hs : Keeps org s) : Keeps org (s.frameComplete c) := by
  unfold State.frameComplete
  split
  all_goals
  repeat' first
    | with_reducible assumption
    | (intro t a ht; have hk : Keeps org t := ht; clear hk)
    | (intro t ht; have hk : Keeps org t := ht; clear hk)
    | (intro s1; refine (fun (hs1 : Keeps org s1) => ?_) ?_; clear_value s1)
    | (intro s1; refine (fun (hs1 : Keeps org s1.1) => ?_) ?_; clear_value s1)
    | (intro s1; clear_value s1)
    | (lift_lets; intro s1; refine (fun (hs1 : Keeps org s1) => ?_) ?_; clear_value s1)
    | (lift_lets; intro s1; refine (fun (hs1 : Keeps org s1.1) => ?_) ?_; clear_value s1)
    | (lift_lets; intro s1; clear_value s1)
    | with_reducible apply Keeps.each
    | with_reducible apply Keeps.ite
    | with_reducible apply State.modCam_keeps
    | with_reducible apply State.camFlush_keeps
    | with_reducible apply State.endRequest_keeps
    | with_reducible apply State.frameOutput_keeps
    | with_reducible apply State.visionTo_keeps
    | with_reducible apply State.calFrame_keeps
    | split

theorem State.setAccept_keeps {org s : State} {c rec_ : Nat} {src : TrigSrc} (hs : Keeps org s) : Keeps org (s.setAccept c rec_ src) := by
  unfold State.setAccept
  repeat' first
    | with_reducible assumption
    | (intro s1; refine (fun (hs1 : Keeps org s1) => ?_) ?_; clear_value s1)
    | (intro s1; clear_value s1)
    | (lift_lets; intro s1; refine (fun (hs1 : Keeps org s1) => ?_) ?_; clear_value s1)
    | (lift_lets; intro s1; clear_value s1)
    | with_reducible apply State.modCam_keeps

theorem State.setDone_keeps {org s : State} {c : Nat} {fail : Option Nat} (hs : Keeps org s) : Keeps org (s.setDone c fail) := by
  unfold State.setDone
  split
  all_goals
  repeat' first
    | with_reducible assumption
    | (intro t a ht; have hk : Keeps org t := ht; clear hk)
    | (intro t ht; have hk : Keeps org t := ht; clear hk)
    | (intro s1; refine (fun (hs1 : Keeps org s1) => ?_) ?_; clear_value s1)
    | (intro s1; clear_value s1)
    | (lift_lets; intro s1; refine (fun (hs1 : Keeps org s1) => ?_) ?_; clear_value s1)
    | (lift_lets; intro s1; clear_value s1)
    | with_reducible apply Keeps.each
    | with_reducible apply Keeps.ite
    | with_reducible apply State.modCam_keeps
    | with_reducible apply State.emit_keeps
    | with_reducible apply State.camPost_keeps
    | simp only [s1]
    | split

theorem State.settingsWindow_keeps {org s : State} {c : Nat} (hs : Keeps org s) : Keeps org (s.settingsWindow c) := by
  unfold State.settingsWindow
  repeat' first
    | with_reducible assumption
    | (intro s1; refine (fun (hs1 : Keeps org s1) => ?_) ?_; clear_value s1)
    | (intro s1; clear_value s1)
    | (lift_lets; intro s1; refine (fun (hs1 : Keeps org s1) => ?_) ?_; clear_value s1)
    | (lift_lets; intro s1; clear_value s1)
    | with_reducible apply Keeps.ite
    | with_reducible apply State.modCam_keeps
    | with_reducible apply State.setDone_keeps
    | split

theorem State.wrCamCtl_keeps {org s : State} {c n : Nat} {v : Word} (hs : Keeps org s) : Keeps org (s.wrCamCtl c n v).1 := by
  unfold State.wrCamCtl
  repeat' first
    | with_reducible assumption
    | (intro t a ht; have hk : Keeps org t := ht; clear hk)
    | (intro t ht; have hk : Keeps org t := ht; clear hk)
    | (intro s1; refine (fun (hs1 : Keeps org s1) => ?_) ?_; clear_value s1)
    | (intro s1; refine (fun (hs1 : Keeps org s1.1) => ?_) ?_; clear_value s1)
    | (intro s1; clear_value s1)
    | (lift_lets; intro s1; refine (fun (hs1 : Keeps org s1) => ?_) ?_; clear_value s1)
    | (lift_lets; intro s1; refine (fun (hs1 : Keeps org s1.1) => ?_) ?_; clear_value s1)
    | (lift_lets; intro s1; clear_value s1)
    | with_reducible apply Keeps.when
    | with_reducible apply Keeps.ite_fst
    | with_reducible apply Keeps.ite
    | with_reducible apply State.modCam_keeps
    | with_reducible apply State.refuse_keeps
    | with_reducible apply State.ifRight_keeps
    | with_reducible apply State.trigAccept_keeps
    | with_reducible apply State.setAccept_keeps
    | simp only [s1]
    | split
    | (refine Keeps.ofEq (by assumption) ?_)

theorem State.wrI2c_keeps {org s : State} {c n : Nat} {v : Word} (hs : Keeps org s) : Keeps org (s.wrI2c c n v).1 := by
  unfold State.wrI2c
  repeat' first
    | with_reducible assumption
    | (intro t a ht; have hk : Keeps org t := ht; clear hk)
    | (intro t ht; have hk : Keeps org t := ht; clear hk)
    | (intro s1; refine (fun (hs1 : Keeps org s1) => ?_) ?_; clear_value s1)
    | (intro s1; clear_value s1)
    | (lift_lets; intro s1; refine (fun (hs1 : Keeps org s1) => ?_) ?_; clear_value s1)
    | (lift_lets; intro s1; clear_value s1)
    | with_reducible apply Keeps.ite_fst
    | with_reducible apply Keeps.ite
    | with_reducible apply State.modCam_keeps
    | with_reducible apply State.emit_keeps
    | with_reducible apply State.refuse_keeps
    | with_reducible apply State.ifRight_keeps
    | with_reducible apply State.i2cDone_keeps
    | simp only [s1]
    | split

theorem State.i2cDone_keeps {org s : State} {c : Nat} {r : I2cEnd} (hs : Keeps org s) : Keeps org (s.i2cDone c r) := by
  unfold State.i2cDone
  repeat' first
    | with_reducible assumption
    | (intro s1; refine (fun (hs1 : Keeps org s1) => ?_) ?_; clear_value s1)
    | (intro s1; clear_value s1)
    | (lift_lets; intro s1; refine (fun (hs1 : Keeps org s1) => ?_) ?_; clear_value s1)
    | (lift_lets; intro s1; clear_value s1)
    | with_reducible apply Keeps.ite
    | with_reducible apply State.modCam_keeps
    | split

theorem State.wrRingPtr_keeps {org s : State} {c k n : Nat} {v : Word} (hs : Keeps org s) : Keeps org (s.wrRingPtr c k n v).1 := by
  unfold State.wrRingPtr
  repeat' first
    | with_reducible assumption
    | (intro t a ht; have hk : Keeps org t := ht; clear hk)
    | (intro t ht; have hk : Keeps org t := ht; clear hk)
    | with_reducible apply State.modCam_keeps
    | with_reducible apply State.ifRight_keeps

theorem State.nvStamp_keeps {org s : State} {rid : Nat} (hs : Keeps org s) : Keeps org (s.nvStamp rid) := by
  unfold State.nvStamp
  exact Keeps.nvWrote hs

theorem State.nvErase_keeps {org s : State} {rid : Nat} (hs : Keeps org s) : Keeps org (s.nvErase rid) := by
  unfold State.nvErase
  exact State.nvStamp_keeps (Keeps.clearNv hs)

theorem State.nvPutChecked_keeps {org s : State} {rid : Nat} {b : Bool} {version : Nat} {payload : List Byte} (hs : Keeps org s) : Keeps org (s.nvPutChecked rid b version payload).1 := by
  unfold State.nvPutChecked
  exact Keeps.putNv hs

theorem State.nvWrite_keeps {org s : State} {rid : Nat} {payload : List Byte} {n : Option Nat} (hs : Keeps org s) : Keeps org (s.nvWrite rid payload n).1 := by
  unfold State.nvWrite
  repeat' first
    | with_reducible assumption
    | (intro s1; refine (fun (hs1 : Keeps org s1) => ?_) ?_; clear_value s1)
    | (intro s1; refine (fun (hs1 : Keeps org s1.1) => ?_) ?_; clear_value s1)
    | (intro s1; clear_value s1)
    | (lift_lets; intro s1; refine (fun (hs1 : Keeps org s1) => ?_) ?_; clear_value s1)
    | (lift_lets; intro s1; refine (fun (hs1 : Keeps org s1.1) => ?_) ?_; clear_value s1)
    | (lift_lets; intro s1; clear_value s1)
    | with_reducible apply Keeps.ite_fst
    | with_reducible apply Keeps.ite
    | with_reducible apply State.postTo_keeps
    | with_reducible apply State.postAll_keeps
    | with_reducible apply State.nvStamp_keeps
    | with_reducible apply State.nvPutChecked_keeps
    | simp only [s1]
    | split
    | (refine Keeps.ofEq (by assumption) ?_)
    | with_reducible apply Keeps.mk

theorem State.nvRead_keeps {org s : State} {rid : Nat} (hs : Keeps org s) : Keeps org (s.nvRead rid).1 := by
  unfold State.nvRead
  repeat' first
    | with_reducible assumption
    | (intro s1; refine (fun (hs1 : Keeps org s1) => ?_) ?_; clear_value s1)
    | (intro s1; refine (fun (hs1 : Keeps org s1.1) => ?_) ?_; clear_value s1)
    | (intro s1; clear_value s1)
    | (lift_lets; intro s1; refine (fun (hs1 : Keeps org s1) => ?_) ?_; clear_value s1)
    | (lift_lets; intro s1; refine (fun (hs1 : Keeps org s1.1) => ?_) ?_; clear_value s1)
    | (lift_lets; intro s1; clear_value s1)
    | with_reducible apply Keeps.ite_fst
    | with_reducible apply Keeps.ite
    | with_reducible apply State.postAll_keeps
    | with_reducible apply State.nvPutChecked_keeps
    | simp only [s1]
    | split
    | (refine Keeps.ofEq (by assumption) ?_)
    | with_reducible apply Keeps.mk

theorem State.refresh_keeps {org s : State} {ch : Nat} {busy : Bool} (hs : Keeps org s) : Keeps org (s.refresh ch busy) := by
  unfold State.refresh
  repeat' first
    | with_reducible assumption
    | (intro s1; refine (fun (hs1 : Keeps org s1) => ?_) ?_; clear_value s1)
    | (intro s1; clear_value s1)
    | (lift_lets; intro s1; refine (fun (hs1 : Keeps org s1) => ?_) ?_; clear_value s1)
    | (lift_lets; intro s1; clear_value s1)
    | with_reducible apply Keeps.ite
    | with_reducible apply State.modCh_keeps

theorem State.tempPoll_keeps {org s : State} {ch : Nat} {hot : Bool} (hs : Keeps org s) : Keeps org (s.tempPoll ch hot) := by
  unfold State.tempPoll
  repeat' first
    | with_reducible assumption
    | with_reducible apply Keeps.ite
    | with_reducible apply State.modCh_keeps

theorem State.powerDown_keeps {org s : State} {ch r : Nat} (hs : Keeps org s) : Keeps org (s.powerDown ch r) := by
  unfold State.powerDown
  repeat' first
    | with_reducible assumption
    | (intro s1; refine (fun (hs1 : Keeps org s1) => ?_) ?_; clear_value s1)
    | (intro s1; clear_value s1)
    | (lift_lets; intro s1; refine (fun (hs1 : Keeps org s1) => ?_) ?_; clear_value s1)
    | (lift_lets; intro s1; clear_value s1)
    | with_reducible apply Keeps.ite
    | with_reducible apply State.modCh_keeps

theorem State.patrol_keeps {org s : State} {burst corrected : Nat} {ue : Bool} (hs : Keeps org s) : Keeps org (s.patrol burst corrected ue) := by
  unfold State.patrol
  repeat' first
    | with_reducible assumption
    | (intro t a ht; have hk : Keeps org t := ht; clear hk)
    | (intro t ht; have hk : Keeps org t := ht; clear hk)
    | (intro s1; refine (fun (hs1 : Keeps org s1) => ?_) ?_; clear_value s1)
    | (intro s1; clear_value s1)
    | (lift_lets; intro s1; refine (fun (hs1 : Keeps org s1) => ?_) ?_; clear_value s1)
    | (lift_lets; intro s1; clear_value s1)
    | with_reducible apply Keeps.when
    | with_reducible apply Keeps.each
    | with_reducible apply Keeps.ite
    | with_reducible apply State.dramUeHit_keeps
    | with_reducible apply State.dramCeHit_keeps
    | with_reducible apply State.dramTouch_keeps
    | split
    | with_reducible apply Keeps.mk

theorem State.fillPage_keeps {org s : State} {pg : Nat} (hs : Keeps org s) : Keeps org (s.fillPage pg) := by
  unfold State.fillPage
  repeat' first
    | with_reducible assumption
    | (intro s1; refine (fun (hs1 : Keeps org s1) => ?_) ?_; clear_value s1)
    | (intro s1; clear_value s1)
    | (lift_lets; intro s1; refine (fun (hs1 : Keeps org s1) => ?_) ?_; clear_value s1)
    | (lift_lets; intro s1; clear_value s1)
    | with_reducible apply Keeps.clearDram
    | with_reducible apply Keeps.mk

theorem State.zeroFill_keeps {org s : State} {pg : Nat} (hs : Keeps org s) : Keeps org (s.zeroFill pg) := by
  unfold State.zeroFill
  repeat' first
    | with_reducible assumption
    | (intro s1; refine (fun (hs1 : Keeps org s1) => ?_) ?_; clear_value s1)
    | (intro s1; clear_value s1)
    | (lift_lets; intro s1; refine (fun (hs1 : Keeps org s1) => ?_) ?_; clear_value s1)
    | (lift_lets; intro s1; clear_value s1)
    | with_reducible apply Keeps.ite
    | with_reducible apply State.modMem_keeps
    | with_reducible apply State.fillPage_keeps

theorem State.writeBack_keeps {org s : State} {w : Nat} (hs : Keeps org s) : Keeps org (s.writeBack w) := by
  unfold State.writeBack
  repeat' first
    | with_reducible assumption
    | with_reducible apply State.modMem_keeps

theorem State.spoilPort_keeps {org s : State} {w p : Nat} (hs : Keeps org s) : Keeps org (s.spoilPort w p) := by
  unfold State.spoilPort
  repeat' first
    | with_reducible assumption
    | (intro t a ht; have hk : Keeps org t := ht; clear hk)
    | (intro t ht; have hk : Keeps org t := ht; clear hk)
    | (intro t a ht; have hk : Keeps org t.1 := ht; clear hk)
    | (intro s1; refine (fun (hs1 : Keeps org s1) => ?_) ?_; clear_value s1)
    | (intro s1; clear_value s1)
    | (lift_lets; intro s1; refine (fun (hs1 : Keeps org s1) => ?_) ?_; clear_value s1)
    | (lift_lets; intro s1; clear_value s1)
    | with_reducible apply Keeps.ite
    | with_reducible apply Keeps.foldl
    | with_reducible apply Keeps.foldl_fst
    | with_reducible apply State.modRing_keeps
    | with_reducible apply State.modFp_keeps

theorem State.spoilTab_keeps {org s : State} {w : Nat} (hs : Keeps org s) : Keeps org (s.spoilTab w) := by
  unfold State.spoilTab
  repeat' first
    | with_reducible assumption
    | (intro s1; refine (fun (hs1 : Keeps org s1) => ?_) ?_; clear_value s1)
    | (intro s1; clear_value s1)
    | (lift_lets; intro s1; refine (fun (hs1 : Keeps org s1) => ?_) ?_; clear_value s1)
    | (lift_lets; intro s1; clear_value s1)
    | with_reducible apply State.modMgt_keeps
    | split

theorem State.spoilStore_keeps {org s : State} {w : Nat} (hs : Keeps org s) : Keeps org (s.spoilStore w) := by
  unfold State.spoilStore
  repeat' first
    | with_reducible assumption
    | (intro t a ht; have hk : Keeps org t := ht; clear hk)
    | (intro t ht; have hk : Keeps org t := ht; clear hk)
    | (intro t a ht; have hk : Keeps org t.1 := ht; clear hk)
    | (intro s1; refine (fun (hs1 : Keeps org s1) => ?_) ?_; clear_value s1)
    | (intro s1; clear_value s1)
    | (lift_lets; intro s1; refine (fun (hs1 : Keeps org s1) => ?_) ?_; clear_value s1)
    | (lift_lets; intro s1; clear_value s1)
    | with_reducible apply Keeps.foldl
    | with_reducible apply Keeps.foldl_fst
    | with_reducible apply State.modMem_keeps
    | with_reducible apply Keeps.mk

theorem State.spoil_keeps {org s : State} {w : Nat} (hs : Keeps org s) : Keeps org (s.spoil w) := by
  unfold State.spoil
  repeat' first
    | with_reducible assumption
    | (intro t a ht; have hk : Keeps org t := ht; clear hk)
    | (intro t ht; have hk : Keeps org t := ht; clear hk)
    | (intro s1; refine (fun (hs1 : Keeps org s1) => ?_) ?_; clear_value s1)
    | (intro s1; clear_value s1)
    | (lift_lets; intro s1; refine (fun (hs1 : Keeps org s1) => ?_) ?_; clear_value s1)
    | (lift_lets; intro s1; clear_value s1)
    | with_reducible apply Keeps.each
    | with_reducible apply Keeps.ite
    | with_reducible apply State.modSafe_keeps
    | with_reducible apply State.sramUeHit_keeps
    | with_reducible apply State.spoilPort_keeps
    | with_reducible apply State.spoilTab_keeps
    | with_reducible apply State.spoilStore_keeps

theorem State.sramPut_keeps {org s : State} {w n : Nat} (hs : Keeps org s) : Keeps org (s.sramPut w n) := by
  unfold State.sramPut
  repeat' first
    | with_reducible assumption
    | (intro t a ht; have hk : Keeps org t := ht; clear hk)
    | (intro t ht; have hk : Keeps org t := ht; clear hk)
    | (intro s1; refine (fun (hs1 : Keeps org s1) => ?_) ?_; clear_value s1)
    | (intro s1; refine (fun (hs1 : Keeps org s1.1) => ?_) ?_; clear_value s1)
    | (intro s1; clear_value s1)
    | (lift_lets; intro s1; refine (fun (hs1 : Keeps org s1) => ?_) ?_; clear_value s1)
    | (lift_lets; intro s1; refine (fun (hs1 : Keeps org s1.1) => ?_) ?_; clear_value s1)
    | (lift_lets; intro s1; clear_value s1)
    | with_reducible apply Keeps.each
    | with_reducible apply State.sramWrite_keeps
    | with_reducible apply State.spoil_keeps

theorem State.heal_keeps {org s : State} {w : Nat} (hs : Keeps org s) : Keeps org (s.heal w) := by
  unfold State.heal
  repeat' first
    | with_reducible assumption
    | (intro s1; refine (fun (hs1 : Keeps org s1) => ?_) ?_; clear_value s1)
    | (intro s1; refine (fun (hs1 : Keeps org s1.1) => ?_) ?_; clear_value s1)
    | (intro s1; clear_value s1)
    | (lift_lets; intro s1; refine (fun (hs1 : Keeps org s1) => ?_) ?_; clear_value s1)
    | (lift_lets; intro s1; refine (fun (hs1 : Keeps org s1.1) => ?_) ?_; clear_value s1)
    | (lift_lets; intro s1; clear_value s1)
    | with_reducible apply Keeps.ite
    | with_reducible apply State.modMgt_keeps
    | with_reducible apply State.sramPut_keeps

theorem State.windowSave_keeps {org s : State} {slice : Nat} (hs : Keeps org s) : Keeps org (s.windowSave slice) := by
  unfold State.windowSave
  repeat' first
    | with_reducible assumption
    | (intro t a ht; have hk : Keeps org t := ht; clear hk)
    | (intro t ht; have hk : Keeps org t := ht; clear hk)
    | (intro s1; refine (fun (hs1 : Keeps org s1) => ?_) ?_; clear_value s1)
    | (intro s1; refine (fun (hs1 : Keeps org s1.1) => ?_) ?_; clear_value s1)
    | (intro s1; clear_value s1)
    | (lift_lets; intro s1; refine (fun (hs1 : Keeps org s1) => ?_) ?_; clear_value s1)
    | (lift_lets; intro s1; refine (fun (hs1 : Keeps org s1.1) => ?_) ?_; clear_value s1)
    | (lift_lets; intro s1; clear_value s1)
    | with_reducible apply Keeps.each
    | with_reducible apply State.postUnit_keeps
    | with_reducible apply State.sramUeHit_keeps
    | with_reducible apply State.sramRead_keeps
    | with_reducible apply State.sliceEcc_keeps
    | with_reducible apply State.stagedEcc_keeps
    | with_reducible apply State.nzEcc_keeps

theorem State.sheepdog_keeps {org s : State} (hs : Keeps org s) : Keeps org (s.sheepdog) := by
  unfold State.sheepdog
  repeat' first
    | with_reducible assumption
    | (intro s1; refine (fun (hs1 : Keeps org s1) => ?_) ?_; clear_value s1)
    | (intro s1; clear_value s1)
    | (lift_lets; intro s1; refine (fun (hs1 : Keeps org s1) => ?_) ?_; clear_value s1)
    | (lift_lets; intro s1; clear_value s1)
    | with_reducible apply Keeps.ite
    | with_reducible apply State.modMem_keeps
    | with_reducible apply State.windowSave_keeps
    | split

theorem State.repairRow_keeps {org s : State} {w : Nat} {n : Option Nat} (hs : Keeps org s) : Keeps org (s.repairRow w n).1 := by
  unfold State.repairRow
  repeat' first
    | with_reducible assumption
    | (intro s1; refine (fun (hs1 : Keeps org s1) => ?_) ?_; clear_value s1)
    | (intro s1; refine (fun (hs1 : Keeps org s1.1) => ?_) ?_; clear_value s1)
    | (intro s1; clear_value s1)
    | (lift_lets; intro s1; refine (fun (hs1 : Keeps org s1) => ?_) ?_; clear_value s1)
    | (lift_lets; intro s1; refine (fun (hs1 : Keeps org s1.1) => ?_) ?_; clear_value s1)
    | (lift_lets; intro s1; clear_value s1)
    | with_reducible apply Keeps.ite_fst
    | with_reducible apply Keeps.ite
    | with_reducible apply State.modMem_keeps
    | with_reducible apply State.postMem_keeps
    | with_reducible apply State.nvWrite_keeps
    | split

theorem State.windowEnd_keeps {org s : State} {fail : Option (Nat × Nat × Nat)} (hs : Keeps org s) : Keeps org (s.windowEnd fail).1 := by
  unfold State.windowEnd
  split
  all_goals
  repeat' first
    | with_reducible assumption
    | (intro s1; refine (fun (hs1 : Keeps org s1) => ?_) ?_; clear_value s1)
    | (intro s1; refine (fun (hs1 : Keeps org s1.1) => ?_) ?_; clear_value s1)
    | (intro s1; clear_value s1)
    | (lift_lets; intro s1; refine (fun (hs1 : Keeps org s1) => ?_) ?_; clear_value s1)
    | (lift_lets; intro s1; refine (fun (hs1 : Keeps org s1.1) => ?_) ?_; clear_value s1)
    | (lift_lets; intro s1; clear_value s1)
    | with_reducible apply Keeps.ite_fst
    | with_reducible apply Keeps.ite
    | with_reducible apply State.modMem_keeps
    | with_reducible apply State.postMem_keeps
    | with_reducible apply State.sramPut_keeps
    | with_reducible apply State.repairRow_keeps
    | simp only [s1]
    | split
    | (refine Keeps.ofEq (by assumption) ?_)

theorem State.dictTest_keeps {org s : State} {g : Nat} (hs : Keeps org s) : Keeps org (s.dictTest g) := by
  unfold State.dictTest
  repeat' first
    | with_reducible assumption
    | (intro s1; refine (fun (hs1 : Keeps org s1) => ?_) ?_; clear_value s1)
    | (intro s1; clear_value s1)
    | (lift_lets; intro s1; refine (fun (hs1 : Keeps org s1) => ?_) ?_; clear_value s1)
    | (lift_lets; intro s1; clear_value s1)
    | with_reducible apply Keeps.ite
    | with_reducible apply State.modEng_keeps

theorem State.dictDone_keeps {org s : State} {g : Nat} {pass : Bool} (hs : Keeps org s) : Keeps org (s.dictDone g pass) := by
  unfold State.dictDone
  repeat' first
    | with_reducible assumption
    | with_reducible apply Keeps.ite
    | with_reducible apply State.modEng_keeps
    | with_reducible apply State.postAll_keeps

theorem State.wrFlipMask_keeps {org s : State} {n : Nat} {v : Word} (hs : Keeps org s) : Keeps org (s.wrFlipMask n v).1 := by
  unfold State.wrFlipMask
  repeat' first
    | with_reducible assumption
    | (intro t a ht; have hk : Keeps org t := ht; clear hk)
    | (intro t ht; have hk : Keeps org t := ht; clear hk)
    | with_reducible apply State.setReg_keeps
    | with_reducible apply State.ifRight_keeps

theorem State.wrFlipCtl_keeps {org s : State} {n : Nat} {v : Word} (hs : Keeps org s) : Keeps org (s.wrFlipCtl n v).1 := by
  unfold State.wrFlipCtl
  repeat' first
    | with_reducible assumption
    | (intro t a ht; have hk : Keeps org t := ht; clear hk)
    | (intro t ht; have hk : Keeps org t := ht; clear hk)
    | (intro s1; refine (fun (hs1 : Keeps org s1) => ?_) ?_; clear_value s1)
    | (intro s1; clear_value s1)
    | (lift_lets; intro s1; refine (fun (hs1 : Keeps org s1) => ?_) ?_; clear_value s1)
    | (lift_lets; intro s1; clear_value s1)
    | with_reducible apply Keeps.ite_fst
    | with_reducible apply Keeps.ite
    | with_reducible apply State.setReg_keeps
    | with_reducible apply State.ifRight_keeps
    | simp only [s1]
    | split

theorem State.eccWindowEnd_keeps {org s : State} {sram : Bool} {k : Nat} (hs : Keeps org s) : Keeps org (s.eccWindowEnd sram k) := by
  unfold State.eccWindowEnd
  repeat' first
    | with_reducible assumption
    | (intro t a ht; have hk : Keeps org t := ht; clear hk)
    | (intro t ht; have hk : Keeps org t := ht; clear hk)
    | (intro s1; refine (fun (hs1 : Keeps org s1) => ?_) ?_; clear_value s1)
    | (intro s1; clear_value s1)
    | (lift_lets; intro s1; refine (fun (hs1 : Keeps org s1) => ?_) ?_; clear_value s1)
    | (lift_lets; intro s1; clear_value s1)
    | with_reducible apply Keeps.when
    | with_reducible apply Keeps.ite
    | with_reducible apply State.modMem_keeps
    | with_reducible apply State.postAll_keeps
    | with_reducible apply State.modCh_keeps
    | simp only [s1]
    | split

end Sys2Proof.Machine
end

