-- ==== Sys2Proof/Laws/KeepPower.lean ====
section
/-! SUPPORT. What the operations keep: time, power and the commits. -/
set_option maxRecDepth 2000
namespace Sys2Proof.Machine
open Sys2Proof

theorem State.restampTick_keeps {org s : State} {old : Word} (hs : Keeps org s) : Keeps org (s.restampTick old) := by
  unfold State.restampTick
  repeat' first
    | with_reducible assumption
    | (intro s1; refine (fun (hs1 : Keeps org s1) => ?_) ?_; clear_value s1)
    | (intro s1; clear_value s1)
    | (lift_lets; intro s1; refine (fun (hs1 : Keeps org s1) => ?_) ?_; clear_value s1)
    | (lift_lets; intro s1; clear_value s1)
    | with_reducible apply Keeps.ite
    | with_reducible apply Keeps.mk

theorem State.stepTime_keeps {org s : State} {d : Int} {n : Option Nat} (hs : Keeps org s) : Keeps org (s.stepTime d n) := by
  unfold State.stepTime
  repeat' first
    | with_reducible assumption
    | (intro s1; refine (fun (hs1 : Keeps org s1) => ?_) ?_; clear_value s1)
    | (intro s1; clear_value s1)
    | (lift_lets; intro s1; refine (fun (hs1 : Keeps org s1) => ?_) ?_; clear_value s1)
    | (lift_lets; intro s1; clear_value s1)
    | with_reducible apply State.modTim_keeps
    | with_reducible apply State.postMem_keeps
    | with_reducible apply State.restampTick_keeps

theorem State.wrSetSec_keeps {org s : State} {n : Nat} {v : Word} (hs : Keeps org s) : Keeps org (s.wrSetSec n v).1 := by
  unfold State.wrSetSec
  repeat' first
    | with_reducible assumption
    | (intro t a ht; have hk : Keeps org t := ht; clear hk)
    | (intro t ht; have hk : Keeps org t := ht; clear hk)
    | with_reducible apply State.modTim_keeps
    | with_reducible apply State.ifRight_keeps

theorem State.wrSetNs_keeps {org s : State} {n : Nat} {v : Word} (hs : Keeps org s) : Keeps org (s.wrSetNs n v).1 := by
  unfold State.wrSetNs
  repeat' first
    | with_reducible assumption
    | (intro s1; refine (fun (hs1 : Keeps org s1) => ?_) ?_; clear_value s1)
    | (intro s1; clear_value s1)
    | (lift_lets; intro s1; refine (fun (hs1 : Keeps org s1) => ?_) ?_; clear_value s1)
    | (lift_lets; intro s1; clear_value s1)
    | with_reducible apply Keeps.ite_fst
    | with_reducible apply Keeps.ite
    | with_reducible apply State.modTim_keeps
    | with_reducible apply State.refuse_keeps
    | with_reducible apply State.stepTime_keeps
    | split

theorem State.nowSecRead_keeps {org s : State} (hs : Keeps org s) : Keeps org (s.nowSecRead) := by
  unfold State.nowSecRead
  repeat' first
    | with_reducible assumption
    | with_reducible apply State.modTim_keeps

theorem State.timPost_keeps {org s : State} {code : Nat} (hs : Keeps org s) : Keeps org (s.timPost code) := by
  unfold State.timPost
  repeat' first
    | with_reducible assumption
    | with_reducible apply State.postAll_keeps

theorem State.holdover_keeps {org s : State} (hs : Keeps org s) : Keeps org (s.holdover) := by
  unfold State.holdover
  repeat' first
    | with_reducible assumption
    | with_reducible apply Keeps.ite
    | with_reducible apply State.modTim_keeps
    | with_reducible apply State.timPost_keeps

theorem State.holdEnd_keeps {org s : State} (hs : Keeps org s) : Keeps org (s.holdEnd) := by
  unfold State.holdEnd
  repeat' first
    | with_reducible assumption
    | with_reducible apply State.modTim_keeps

theorem State.lockStep_keeps {org s : State} {o : Int} (hs : Keeps org s) : Keeps org (s.lockStep o) := by
  unfold State.lockStep
  repeat' first
    | with_reducible assumption
    | (intro t a ht; have hk : Keeps org t := ht; clear hk)
    | (intro t ht; have hk : Keeps org t := ht; clear hk)
    | (intro s1; refine (fun (hs1 : Keeps org s1) => ?_) ?_; clear_value s1)
    | (intro s1; clear_value s1)
    | (lift_lets; intro s1; refine (fun (hs1 : Keeps org s1) => ?_) ?_; clear_value s1)
    | (lift_lets; intro s1; clear_value s1)
    | with_reducible apply Keeps.when
    | with_reducible apply Keeps.ite
    | with_reducible apply State.modTim_keeps
    | with_reducible apply State.timPost_keeps
    | with_reducible apply State.holdover_keeps
    | with_reducible apply State.holdEnd_keeps
    | simp only [s1]

theorem State.setRate_keeps {org s : State} {r : Int} {force : Bool} (hs : Keeps org s) : Keeps org (s.setRate r force) := by
  unfold State.setRate
  repeat' first
    | with_reducible assumption
    | (intro s1; refine (fun (hs1 : Keeps org s1) => ?_) ?_; clear_value s1)
    | (intro s1; clear_value s1)
    | (lift_lets; intro s1; refine (fun (hs1 : Keeps org s1) => ?_) ?_; clear_value s1)
    | (lift_lets; intro s1; clear_value s1)
    | with_reducible apply Keeps.ite
    | with_reducible apply State.modTim_keeps
    | with_reducible apply State.timPost_keeps
    | simp only [s1]
    | split

theorem State.servo_keeps {org s : State} {o : Int} {k : Int} (hs : Keeps org s) : Keeps org (s.servo o k) := by
  unfold State.servo
  repeat' first
    | with_reducible assumption
    | (intro s1; refine (fun (hs1 : Keeps org s1) => ?_) ?_; clear_value s1)
    | (intro s1; clear_value s1)
    | (lift_lets; intro s1; refine (fun (hs1 : Keeps org s1) => ?_) ?_; clear_value s1)
    | (lift_lets; intro s1; clear_value s1)
    | with_reducible apply Keeps.ite
    | with_reducible apply State.modTim_keeps
    | with_reducible apply State.stepTime_keeps
    | with_reducible apply State.setRate_keeps

theorem State.ptpDiscard_keeps {org s : State} (hs : Keeps org s) : Keeps org (s.ptpDiscard) := by
  unfold State.ptpDiscard
  repeat' first
    | with_reducible assumption
    | with_reducible apply Keeps.ite
    | with_reducible apply State.modTim_keeps

theorem State.ptpMsg_keeps {org s : State} {q domain : Nat} {f : State → State} (hs : Keeps org s) (hf : ∀ t, Keeps org t → Keeps org (f t)) : Keeps org (s.ptpMsg q domain f) := by
  unfold State.ptpMsg
  repeat' first
    | with_reducible assumption
    | (intro t a ht; have hk : Keeps org t := ht; clear hk)
    | (intro t ht; have hk : Keeps org t := ht; clear hk)
    | with_reducible apply Keeps.ite
    | with_reducible apply hf
    | with_reducible apply State.ptpDiscard_keeps

theorem State.ptpSync_keeps {org s : State} {q domain : Nat} {ident : Word} {portNo : Nat} {k origin ingress corr : Int} (hs : Keeps org s) : Keeps org (s.ptpSync q domain ident portNo k origin ingress corr) := by
  unfold State.ptpSync
  repeat' first
    | with_reducible assumption
    | (intro t a ht; have hk : Keeps org t := ht; clear hk)
    | (intro t ht; have hk : Keeps org t := ht; clear hk)
    | (intro s1; refine (fun (hs1 : Keeps org s1) => ?_) ?_; clear_value s1)
    | (intro s1; clear_value s1)
    | (lift_lets; intro s1; refine (fun (hs1 : Keeps org s1) => ?_) ?_; clear_value s1)
    | (lift_lets; intro s1; clear_value s1)
    | with_reducible apply Keeps.ite
    | with_reducible apply State.modTim_keeps
    | with_reducible apply State.lockStep_keeps
    | with_reducible apply State.servo_keeps
    | with_reducible apply State.ptpMsg_keeps
    | split

theorem State.newParent_keeps {org s : State} {m : PtpMaster} (hs : Keeps org s) : Keeps org (s.newParent m) := by
  unfold State.newParent
  repeat' first
    | with_reducible assumption
    | with_reducible apply State.modTim_keeps

theorem State.selectMaster_keeps {org s : State} (hs : Keeps org s) : Keeps org (s.selectMaster) := by
  unfold State.selectMaster
  split
  all_goals
  repeat' first
    | with_reducible assumption
    | (intro s1; refine (fun (hs1 : Keeps org s1) => ?_) ?_; clear_value s1)
    | (intro s1; clear_value s1)
    | (lift_lets; intro s1; refine (fun (hs1 : Keeps org s1) => ?_) ?_; clear_value s1)
    | (lift_lets; intro s1; clear_value s1)
    | with_reducible apply Keeps.ite
    | with_reducible apply State.modTim_keeps
    | with_reducible apply State.timPost_keeps
    | with_reducible apply State.holdover_keeps
    | with_reducible apply State.newParent_keeps
    | simp only [s1]
    | split

theorem State.ptpAnnounce_keeps {org s : State} {q domain : Nat} {ident : Word} {portNo : Nat} {prio : List Nat} {steps : Nat} {k utcOff : Int} {ptpTs : Bool} (hs : Keeps org s) : Keeps org (s.ptpAnnounce q domain ident portNo prio steps k utcOff ptpTs) := by
  unfold State.ptpAnnounce
  repeat' first
    | with_reducible assumption
    | (intro t a ht; have hk : Keeps org t := ht; clear hk)
    | (intro t ht; have hk : Keeps org t := ht; clear hk)
    | (intro s1; refine (fun (hs1 : Keeps org s1) => ?_) ?_; clear_value s1)
    | (intro s1; clear_value s1)
    | (lift_lets; intro s1; refine (fun (hs1 : Keeps org s1) => ?_) ?_; clear_value s1)
    | (lift_lets; intro s1; clear_value s1)
    | with_reducible apply Keeps.ite
    | with_reducible apply State.modTim_keeps
    | with_reducible apply State.ptpMsg_keeps
    | with_reducible apply State.selectMaster_keeps
    | simp only [s1]
    | split

theorem State.ptpDelayResp_keeps {org s : State} {q domain seqId : Nat} {t1 t2 t3 t4 : Int} (hs : Keeps org s) : Keeps org (s.ptpDelayResp q domain seqId t1 t2 t3 t4) := by
  unfold State.ptpDelayResp
  repeat' first
    | with_reducible assumption
    | (intro t a ht; have hk : Keeps org t := ht; clear hk)
    | (intro t ht; have hk : Keeps org t := ht; clear hk)
    | with_reducible apply Keeps.ite
    | with_reducible apply State.modTim_keeps
    | with_reducible apply State.ptpMsg_keeps

theorem State.ptpPdelayReq_keeps {org s : State} {q domain seqId : Nat} {ingress : Int} (hs : Keeps org s) : Keeps org (s.ptpPdelayReq q domain seqId ingress) := by
  unfold State.ptpPdelayReq
  repeat' first
    | with_reducible assumption
    | (intro t a ht; have hk : Keeps org t := ht; clear hk)
    | (intro t ht; have hk : Keeps org t := ht; clear hk)
    | with_reducible apply Keeps.ite
    | with_reducible apply State.emit_keeps
    | with_reducible apply State.ptpDiscard_keeps
    | with_reducible apply State.ptpMsg_keeps

theorem State.ptpReqSend_keeps {org s : State} (hs : Keeps org s) : Keeps org (s.ptpReqSend) := by
  unfold State.ptpReqSend
  repeat' first
    | with_reducible assumption
    | (intro s1; refine (fun (hs1 : Keeps org s1) => ?_) ?_; clear_value s1)
    | (intro s1; clear_value s1)
    | (lift_lets; intro s1; refine (fun (hs1 : Keeps org s1) => ?_) ?_; clear_value s1)
    | (lift_lets; intro s1; clear_value s1)
    | with_reducible apply Keeps.ite
    | with_reducible apply State.modTim_keeps
    | with_reducible apply State.emit_keeps
    | simp only [s1]
    | split

theorem State.syncTimeout_keeps {org s : State} (hs : Keeps org s) : Keeps org (s.syncTimeout) := by
  unfold State.syncTimeout
  repeat' first
    | with_reducible assumption
    | with_reducible apply Keeps.ite
    | with_reducible apply State.holdover_keeps

theorem State.annTimeout_keeps {org s : State} (hs : Keeps org s) : Keeps org (s.annTimeout) := by
  unfold State.annTimeout
  repeat' first
    | with_reducible assumption
    | with_reducible apply Keeps.ite
    | with_reducible apply State.modTim_keeps
    | with_reducible apply State.holdover_keeps
    | split

theorem State.ptpEnable_keeps {org s : State} {on : Bool} (hs : Keeps org s) : Keeps org (s.ptpEnable on) := by
  unfold State.ptpEnable
  repeat' first
    | with_reducible assumption
    | with_reducible apply Keeps.ite
    | with_reducible apply State.modTim_keeps

theorem State.modFeed_keeps {org s : State} {f : Nat} {g : Feed → Feed} (hs : Keeps org s) : Keeps org (s.modFeed f g) := by
  unfold State.modFeed
  repeat' first
    | with_reducible assumption
    | with_reducible apply State.modPws_keeps

theorem State.modRail_keeps {org s : State} {r : Nat} {g : Rail → Rail} (hs : Keeps org s) : Keeps org (s.modRail r g) := by
  unfold State.modRail
  repeat' first
    | with_reducible assumption
    | with_reducible apply State.modPws_keeps

theorem State.setFeed_keeps {org s : State} {f : Nat} {st : FeedSt} (hs : Keeps org s) : Keeps org (s.setFeed f st) := by
  unfold State.setFeed
  repeat' first
    | with_reducible assumption
    | with_reducible apply Keeps.ite
    | with_reducible apply State.raiseAll_keeps
    | with_reducible apply State.modFeed_keeps

theorem State.postPws_keeps {org s : State} {code src : Nat} {detail : Word} (hs : Keeps org s) : Keeps org (s.postPws code src detail) := by
  unfold State.postPws
  repeat' first
    | with_reducible assumption
    | with_reducible apply State.postAll_keeps

theorem State.unpowered_keeps {org s : State} (hs : Keeps org s) : Keeps org s.unpowered :=
  ⟨hs.1, fun m => ⟨rfl, (hs.2 m).2⟩⟩

theorem State.doubtAll_keeps {org s : State} (hs : Keeps org s) : Keeps org (s.doubtAll) := by
  unfold State.doubtAll
  repeat' first
    | with_reducible assumption
    | (intro t a ht; have hk : Keeps org t := ht; clear hk)
    | (intro t ht; have hk : Keeps org t := ht; clear hk)
    | with_reducible apply Keeps.each
    | with_reducible apply State.makeDoubt_keeps

theorem State.vsafeDown_keeps {org s : State} (hs : Keeps org s) : Keeps org (s.vsafeDown) := by
  unfold State.vsafeDown
  repeat' first
    | with_reducible assumption
    | (intro s1; refine (fun (hs1 : Keeps org s1) => ?_) ?_; clear_value s1)
    | (intro s1; clear_value s1)
    | (lift_lets; intro s1; refine (fun (hs1 : Keeps org s1) => ?_) ?_; clear_value s1)
    | (lift_lets; intro s1; clear_value s1)
    | with_reducible apply Keeps.ite
    | with_reducible apply State.modPws_keeps
    | with_reducible apply State.causeSet_keeps
    | with_reducible apply State.haltAll_keeps
    | with_reducible apply State.trigStopAll_keeps
    | with_reducible apply State.hvDrop_keeps
    | with_reducible apply State.doubtAll_keeps

theorem State.vsafeLost_keeps {org s : State} (hs : Keeps org s) : Keeps org (s.vsafeLost) := by
  unfold State.vsafeLost
  repeat' first
    | with_reducible assumption
    | with_reducible apply Keeps.ite
    | with_reducible apply State.setFeed_keeps
    | with_reducible apply State.vsafeDown_keeps

theorem State.vsafeRestore_keeps {org s : State} (hs : Keeps org s) : Keeps org (s.vsafeRestore) := by
  unfold State.vsafeRestore
  repeat' first
    | with_reducible assumption
    | (intro t a ht; have hk : Keeps org t := ht; clear hk)
    | (intro t ht; have hk : Keeps org t := ht; clear hk)
    | (intro s1; refine (fun (hs1 : Keeps org s1) => ?_) ?_; clear_value s1)
    | (intro s1; clear_value s1)
    | (lift_lets; intro s1; refine (fun (hs1 : Keeps org s1) => ?_) ?_; clear_value s1)
    | (lift_lets; intro s1; clear_value s1)
    | with_reducible apply Keeps.when
    | with_reducible apply Keeps.ite
    | with_reducible apply State.modPws_keeps
    | with_reducible apply State.causeClear_keeps
    | with_reducible apply State.setFeed_keeps
    | with_reducible apply State.postPws_keeps
    | simp only [s1]
    | with_reducible apply Keeps.mk

theorem State.refclkLost_keeps {org s : State} (hs : Keeps org s) : Keeps org (s.refclkLost) := by
  unfold State.refclkLost
  repeat' first
    | with_reducible assumption
    | (intro s1; refine (fun (hs1 : Keeps org s1) => ?_) ?_; clear_value s1)
    | (intro s1; clear_value s1)
    | (lift_lets; intro s1; refine (fun (hs1 : Keeps org s1) => ?_) ?_; clear_value s1)
    | (lift_lets; intro s1; clear_value s1)
    | with_reducible apply Keeps.ite
    | with_reducible apply State.modPws_keeps
    | with_reducible apply State.globalCause_keeps
    | with_reducible apply State.doubtAll_keeps

theorem State.refclkRestore_keeps {org s : State} (hs : Keeps org s) : Keeps org (s.refclkRestore) := by
  unfold State.refclkRestore
  repeat' first
    | with_reducible assumption
    | with_reducible apply Keeps.ite
    | with_reducible apply State.modPws_keeps
    | with_reducible apply State.causeClear_keeps

theorem State.feedLost_keeps {org s : State} {f : Nat} (hs : Keeps org s) : Keeps org (s.feedLost f) := by
  unfold State.feedLost
  repeat' first
    | with_reducible assumption
    | with_reducible apply State.modRail_keeps
    | with_reducible apply State.setFeed_keeps
    | with_reducible apply State.postPws_keeps

theorem State.vstEnd_keeps {org s : State} {res : Nat} (hs : Keeps org s) : Keeps org (s.vstEnd res) := by
  unfold State.vstEnd
  repeat' first
    | with_reducible assumption
    | (intro t a ht; have hk : Keeps org t := ht; clear hk)
    | (intro t ht; have hk : Keeps org t := ht; clear hk)
    | (intro s1; refine (fun (hs1 : Keeps org s1) => ?_) ?_; clear_value s1)
    | (intro s1; clear_value s1)
    | (lift_lets; intro s1; refine (fun (hs1 : Keeps org s1) => ?_) ?_; clear_value s1)
    | (lift_lets; intro s1; clear_value s1)
    | with_reducible apply Keeps.when
    | with_reducible apply Keeps.ite
    | with_reducible apply State.modPws_keeps
    | with_reducible apply State.postSteward_keeps
    | with_reducible apply State.setFeed_keeps
    | with_reducible apply State.vsafeDown_keeps
    | with_reducible apply State.feedLost_keeps
    | simp only [s1]

theorem State.gapCut_keeps {org s : State} (hs : Keeps org s) : Keeps org (s.gapCut) := by
  unfold State.gapCut
  repeat' first
    | with_reducible assumption
    | (intro t a ht; have hk : Keeps org t := ht; clear hk)
    | (intro t ht; have hk : Keeps org t := ht; clear hk)
    | (intro s1; refine (fun (hs1 : Keeps org s1) => ?_) ?_; clear_value s1)
    | (intro s1; clear_value s1)
    | (lift_lets; intro s1; refine (fun (hs1 : Keeps org s1) => ?_) ?_; clear_value s1)
    | (lift_lets; intro s1; clear_value s1)
    | with_reducible apply Keeps.each
    | with_reducible apply Keeps.ite
    | with_reducible apply State.modFp_keeps
    | with_reducible apply State.laneCut_keeps
    | split

theorem State.carrierLost_keeps {org s : State} {f : Nat} (hs : Keeps org s) : Keeps org (s.carrierLost f) := by
  unfold State.carrierLost
  repeat' first
    | with_reducible assumption
    | (intro s1; refine (fun (hs1 : Keeps org s1) => ?_) ?_; clear_value s1)
    | (intro s1; clear_value s1)
    | (lift_lets; intro s1; refine (fun (hs1 : Keeps org s1) => ?_) ?_; clear_value s1)
    | (lift_lets; intro s1; clear_value s1)
    | with_reducible apply Keeps.ite
    | with_reducible apply State.modPws_keeps
    | with_reducible apply State.modRail_keeps
    | with_reducible apply State.setFeed_keeps
    | with_reducible apply State.unpowered_keeps
    | with_reducible apply State.vsafeDown_keeps
    | with_reducible apply State.feedLost_keeps
    | with_reducible apply State.vstEnd_keeps
    | with_reducible apply State.gapCut_keeps
    | simp only [s1]
    | split

theorem State.feedDown_keeps {org s : State} {f : Nat} (hs : Keeps org s) : Keeps org (s.feedDown f) := by
  unfold State.feedDown
  split
  all_goals
  repeat' first
    | with_reducible assumption
    | with_reducible apply State.modRail_keeps
    | with_reducible apply State.feedLost_keeps
    | with_reducible apply State.carrierLost_keeps
    | split

theorem State.feedSync_keeps {org s : State} {f : Nat} (hs : Keeps org s) : Keeps org (s.feedSync f) := by
  unfold State.feedSync
  repeat' first
    | with_reducible assumption
    | (intro s1; refine (fun (hs1 : Keeps org s1) => ?_) ?_; clear_value s1)
    | (intro s1; clear_value s1)
    | (lift_lets; intro s1; refine (fun (hs1 : Keeps org s1) => ?_) ?_; clear_value s1)
    | (lift_lets; intro s1; clear_value s1)
    | with_reducible apply Keeps.ite
    | with_reducible apply State.setFeed_keeps
    | with_reducible apply State.postPws_keeps

theorem State.feedTrip_keeps {org s : State} {f : Nat} (hs : Keeps org s) : Keeps org (s.feedTrip f) := by
  unfold State.feedTrip
  repeat' first
    | with_reducible assumption
    | with_reducible apply Keeps.ite
    | with_reducible apply State.modFeed_keeps
    | with_reducible apply State.feedDown_keeps
    | with_reducible apply State.feedSync_keeps

theorem State.feedFail_keeps {org s : State} {f : Nat} (hs : Keeps org s) : Keeps org (s.feedFail f) := by
  unfold State.feedFail
  repeat' first
    | with_reducible assumption
    | (intro s1; refine (fun (hs1 : Keeps org s1) => ?_) ?_; clear_value s1)
    | (intro s1; clear_value s1)
    | (lift_lets; intro s1; refine (fun (hs1 : Keeps org s1) => ?_) ?_; clear_value s1)
    | (lift_lets; intro s1; clear_value s1)
    | with_reducible apply Keeps.ite
    | with_reducible apply State.feedDown_keeps

theorem State.feedSample_keeps {org s : State} {f mv cur : Nat} (hs : Keeps org s) : Keeps org (s.feedSample f mv cur) := by
  unfold State.feedSample
  repeat' first
    | with_reducible assumption
    | (intro t a ht; have hk : Keeps org t := ht; clear hk)
    | (intro t ht; have hk : Keeps org t := ht; clear hk)
    | (intro s1; refine (fun (hs1 : Keeps org s1) => ?_) ?_; clear_value s1)
    | (intro s1; clear_value s1)
    | (lift_lets; intro s1; refine (fun (hs1 : Keeps org s1) => ?_) ?_; clear_value s1)
    | (lift_lets; intro s1; clear_value s1)
    | with_reducible apply Keeps.when
    | with_reducible apply Keeps.ite
    | with_reducible apply State.modFeed_keeps
    | with_reducible apply State.modRail_keeps
    | with_reducible apply State.setFeed_keeps
    | with_reducible apply State.feedDown_keeps

theorem State.shareImbal_keeps {org s : State} {r : Nat} (hs : Keeps org s) : Keeps org (s.shareImbal r) := by
  unfold State.shareImbal
  repeat' first
    | with_reducible assumption
    | (intro s1; refine (fun (hs1 : Keeps org s1) => ?_) ?_; clear_value s1)
    | (intro s1; clear_value s1)
    | (lift_lets; intro s1; refine (fun (hs1 : Keeps org s1) => ?_) ?_; clear_value s1)
    | (lift_lets; intro s1; clear_value s1)
    | with_reducible apply Keeps.ite
    | with_reducible apply State.modRail_keeps
    | with_reducible apply State.postPws_keeps
    | simp only [s1]
    | split

theorem State.loadTest_keeps {org s : State} {r : Nat} (hs : Keeps org s) : Keeps org (s.loadTest r) := by
  unfold State.loadTest
  repeat' first
    | with_reducible assumption
    | (intro s1; refine (fun (hs1 : Keeps org s1) => ?_) ?_; clear_value s1)
    | (intro s1; clear_value s1)
    | (lift_lets; intro s1; refine (fun (hs1 : Keeps org s1) => ?_) ?_; clear_value s1)
    | (lift_lets; intro s1; clear_value s1)
    | with_reducible apply Keeps.ite
    | with_reducible apply State.modRail_keeps

theorem State.loadTestEnd_keeps {org s : State} {r : Nat} {pass : Bool} (hs : Keeps org s) : Keeps org (s.loadTestEnd r pass) := by
  unfold State.loadTestEnd
  split
  all_goals
  repeat' first
    | with_reducible assumption
    | (intro s1; refine (fun (hs1 : Keeps org s1) => ?_) ?_; clear_value s1)
    | (intro s1; clear_value s1)
    | (lift_lets; intro s1; refine (fun (hs1 : Keeps org s1) => ?_) ?_; clear_value s1)
    | (lift_lets; intro s1; clear_value s1)
    | with_reducible apply Keeps.ite
    | with_reducible apply State.modFeed_keeps
    | with_reducible apply State.modRail_keeps
    | with_reducible apply State.setFeed_keeps
    | with_reducible apply State.postPws_keeps
    | split

theorem State.feedUp_keeps {org s : State} {f : Nat} (hs : Keeps org s) : Keeps org (s.feedUp f) := by
  unfold State.feedUp
  repeat' first
    | with_reducible assumption
    | (intro t a ht; have hk : Keeps org t := ht; clear hk)
    | (intro t ht; have hk : Keeps org t := ht; clear hk)
    | with_reducible apply Keeps.when
    | with_reducible apply State.setFeed_keeps

theorem State.feedModes_keeps {org s : State} {old : Word} (hs : Keeps org s) : Keeps org (s.feedModes old) := by
  unfold State.feedModes
  repeat' first
    | with_reducible assumption
    | (intro t a ht; have hk : Keeps org t := ht; clear hk)
    | (intro t ht; have hk : Keeps org t := ht; clear hk)
    | (intro s1; refine (fun (hs1 : Keeps org s1) => ?_) ?_; clear_value s1)
    | (intro s1; clear_value s1)
    | (lift_lets; intro s1; refine (fun (hs1 : Keeps org s1) => ?_) ?_; clear_value s1)
    | (lift_lets; intro s1; clear_value s1)
    | with_reducible apply Keeps.when
    | with_reducible apply Keeps.each
    | with_reducible apply Keeps.ite
    | with_reducible apply State.modRail_keeps
    | with_reducible apply State.setFeed_keeps
    | with_reducible apply State.feedUp_keeps
    | simp only [s1]

theorem State.reshare_keeps {org s : State} {r : Nat} (hs : Keeps org s) : Keeps org (s.reshare r) := by
  unfold State.reshare
  repeat' first
    | with_reducible assumption
    | with_reducible apply Keeps.ite
    | with_reducible apply State.setFeed_keeps
    | split

theorem State.vsTest_keeps {org s : State} {stay : Bool} (hs : Keeps org s) : Keeps org (s.vsTest stay) := by
  unfold State.vsTest
  repeat' first
    | with_reducible assumption
    | (intro s1; refine (fun (hs1 : Keeps org s1) => ?_) ?_; clear_value s1)
    | (intro s1; clear_value s1)
    | (lift_lets; intro s1; refine (fun (hs1 : Keeps org s1) => ?_) ?_; clear_value s1)
    | (lift_lets; intro s1; clear_value s1)
    | with_reducible apply Keeps.ite
    | with_reducible apply State.modPws_keeps
    | with_reducible apply State.setFeed_keeps

theorem State.vsTestEnd_keeps {org s : State} {res : Nat} (hs : Keeps org s) : Keeps org (s.vsTestEnd res) := by
  unfold State.vsTestEnd
  split
  all_goals
  repeat' first
    | with_reducible assumption
    | with_reducible apply Keeps.ite
    | with_reducible apply State.vstEnd_keeps
    | split

theorem State.wrFeedCtl_keeps {org s : State} {n : Nat} {v : Word} (hs : Keeps org s) : Keeps org (s.wrFeedCtl n v).1 := by
  unfold State.wrFeedCtl
  repeat' first
    | with_reducible assumption
    | (intro t a ht; have hk : Keeps org t := ht; clear hk)
    | (intro t ht; have hk : Keeps org t := ht; clear hk)
    | (intro s1; refine (fun (hs1 : Keeps org s1) => ?_) ?_; clear_value s1)
    | (intro s1; clear_value s1)
    | (lift_lets; intro s1; refine (fun (hs1 : Keeps org s1) => ?_) ?_; clear_value s1)
    | (lift_lets; intro s1; clear_value s1)
    | with_reducible apply Keeps.when
    | with_reducible apply State.modPws_keeps
    | with_reducible apply State.ifRight_keeps
    | with_reducible apply State.reshare_keeps
    | with_reducible apply State.vsTest_keeps

theorem State.thermTrip_keeps {org s : State} (hs : Keeps org s) : Keeps org (s.thermTrip) := by
  unfold State.thermTrip
  repeat' first
    | with_reducible assumption
    | (intro s1; refine (fun (hs1 : Keeps org s1) => ?_) ?_; clear_value s1)
    | (intro s1; clear_value s1)
    | (lift_lets; intro s1; refine (fun (hs1 : Keeps org s1) => ?_) ?_; clear_value s1)
    | (lift_lets; intro s1; clear_value s1)
    | with_reducible apply Keeps.ite
    | with_reducible apply State.modPws_keeps
    | with_reducible apply State.safeVecs_keeps
    | with_reducible apply State.haltAll_keeps
    | with_reducible apply State.trigStopAll_keeps
    | with_reducible apply State.hvDrop_keeps
    | (refine Keeps.ofEq (by assumption) ?_)

theorem State.dieSample_keeps {org s : State} {l : List Int} (hs : Keeps org s) : Keeps org (s.dieSample l) := by
  unfold State.dieSample
  repeat' first
    | with_reducible assumption
    | (intro t a ht; have hk : Keeps org t := ht; clear hk)
    | (intro t ht; have hk : Keeps org t := ht; clear hk)
    | (intro t a ht; have hk : Keeps org t.1 := ht; clear hk)
    | (intro s1; refine (fun (hs1 : Keeps org s1) => ?_) ?_; clear_value s1)
    | (intro s1; clear_value s1)
    | (lift_lets; intro s1; refine (fun (hs1 : Keeps org s1) => ?_) ?_; clear_value s1)
    | (lift_lets; intro s1; clear_value s1)
    | with_reducible apply Keeps.ite
    | with_reducible apply Keeps.foldl
    | with_reducible apply Keeps.foldl_fst
    | with_reducible apply State.modPws_keeps
    | with_reducible apply State.causeClear_keeps
    | with_reducible apply State.globalCause_keeps
    | with_reducible apply State.postPws_keeps
    | simp only [s1]
    | with_reducible apply Keeps.mk

theorem State.boardOne_keeps {org s : State} {k : Nat} {t : Int} {v : Bool} (hs : Keeps org s) : Keeps org (s.boardOne k t v) := by
  unfold State.boardOne
  repeat' first
    | with_reducible assumption
    | (intro s1; refine (fun (hs1 : Keeps org s1) => ?_) ?_; clear_value s1)
    | (intro s1; clear_value s1)
    | (lift_lets; intro s1; refine (fun (hs1 : Keeps org s1) => ?_) ?_; clear_value s1)
    | (lift_lets; intro s1; clear_value s1)
    | with_reducible apply Keeps.ite
    | with_reducible apply State.modPws_keeps
    | with_reducible apply State.postPws_keeps

theorem State.boardSample_keeps {org s : State} {t0 t1 : Int} {v0 v1 : Bool} (hs : Keeps org s) : Keeps org (s.boardSample t0 t1 v0 v1) := by
  unfold State.boardSample
  repeat' first
    | with_reducible assumption
    | with_reducible apply Keeps.ite
    | with_reducible apply State.modPws_keeps
    | with_reducible apply State.boardOne_keeps

theorem State.mgmtLost_keeps {org s : State} (hs : Keeps org s) : Keeps org (s.mgmtLost) := by
  unfold State.mgmtLost
  repeat' first
    | with_reducible assumption
    | with_reducible apply Keeps.ite
    | with_reducible apply State.modSafe_keeps
    | with_reducible apply State.globalCause_keeps

theorem State.trainChan_keeps {org s : State} {lanes : List (BitVec 256 × BitVec 256)} {ch : Nat} (hs : Keeps org s) : Keeps org (s.trainChan lanes ch) := by
  unfold State.trainChan
  repeat' first
    | with_reducible assumption
    | (intro t a ht; have hk : Keeps org t := ht; clear hk)
    | (intro t ht; have hk : Keeps org t := ht; clear hk)
    | (intro t a ht; have hk : Keeps org t.1 := ht; clear hk)
    | (intro s1; refine (fun (hs1 : Keeps org s1) => ?_) ?_; clear_value s1)
    | (intro s1; clear_value s1)
    | (lift_lets; intro s1; refine (fun (hs1 : Keeps org s1) => ?_) ?_; clear_value s1)
    | (lift_lets; intro s1; clear_value s1)
    | with_reducible apply Keeps.ite
    | with_reducible apply Keeps.foldl
    | with_reducible apply Keeps.foldl_fst
    | with_reducible apply State.modMem_keeps
    | with_reducible apply State.modCh_keeps

theorem State.train_keeps {org s : State} {cap ranks mts : Nat} {lanes : List (BitVec 256 × BitVec 256)} (hs : Keeps org s) : Keeps org (s.train cap ranks mts lanes) := by
  unfold State.train
  repeat' first
    | with_reducible assumption
    | (intro t a ht; have hk : Keeps org t := ht; clear hk)
    | (intro t ht; have hk : Keeps org t := ht; clear hk)
    | (intro s1; refine (fun (hs1 : Keeps org s1) => ?_) ?_; clear_value s1)
    | (intro s1; clear_value s1)
    | (lift_lets; intro s1; refine (fun (hs1 : Keeps org s1) => ?_) ?_; clear_value s1)
    | (lift_lets; intro s1; clear_value s1)
    | with_reducible apply Keeps.each
    | with_reducible apply Keeps.ite
    | with_reducible apply State.modMem_keeps
    | with_reducible apply State.modSafe_keeps
    | with_reducible apply State.trainChan_keeps

theorem State.nvLoad_keeps {org s : State} (hs : Keeps org s) : Keeps org (s.nvLoad) := by
  unfold State.nvLoad
  repeat' first
    | with_reducible assumption
    | (intro t a ht; have hk : Keeps org t := ht; clear hk)
    | (intro t ht; have hk : Keeps org t := ht; clear hk)
    | (intro t a ht; have hk : Keeps org t.1 := ht; clear hk)
    | (intro s1; refine (fun (hs1 : Keeps org s1) => ?_) ?_; clear_value s1)
    | (intro s1; refine (fun (hs1 : Keeps org s1.1) => ?_) ?_; clear_value s1)
    | (intro s1; clear_value s1)
    | (lift_lets; intro s1; refine (fun (hs1 : Keeps org s1) => ?_) ?_; clear_value s1)
    | (lift_lets; intro s1; refine (fun (hs1 : Keeps org s1.1) => ?_) ?_; clear_value s1)
    | (lift_lets; intro s1; clear_value s1)
    | with_reducible apply Keeps.each
    | with_reducible apply Keeps.ite
    | with_reducible apply Keeps.foldl
    | with_reducible apply Keeps.foldl_fst
    | with_reducible apply State.modMem_keeps
    | with_reducible apply State.nvRead_keeps
    | simp only [s1]
    | split
    | with_reducible apply Keeps.mk

theorem State.bistRow_keeps {org s : State} {key : Nat} (hs : Keeps org s) : Keeps org (s.bistRow key) := by
  unfold State.bistRow
  repeat' first
    | with_reducible assumption
    | (intro s1; refine (fun (hs1 : Keeps org s1) => ?_) ?_; clear_value s1)
    | (intro s1; refine (fun (hs1 : Keeps org s1.1) => ?_) ?_; clear_value s1)
    | (intro s1; clear_value s1)
    | (lift_lets; intro s1; refine (fun (hs1 : Keeps org s1) => ?_) ?_; clear_value s1)
    | (lift_lets; intro s1; refine (fun (hs1 : Keeps org s1.1) => ?_) ?_; clear_value s1)
    | (lift_lets; intro s1; clear_value s1)
    | with_reducible apply Keeps.ite
    | with_reducible apply State.modMem_keeps
    | with_reducible apply State.draw_keeps
    | with_reducible apply State.repairRow_keeps

theorem State.coldStart_keeps {org s : State} {pins : Nat} {cap ranks mts : Nat} {lanes : List (BitVec 256 × BitVec 256)} {vsafeA : Bool} {ok : Vector Bool 2} {ver : Vector (Fin 65536) 2} {badRows : List Nat} (hs : Keeps org s) : Keeps org (s.coldStart pins cap ranks mts lanes vsafeA ok ver badRows) := by
  unfold State.coldStart
  repeat' first
    | with_reducible assumption
    | (intro t a ht; have hk : Keeps org t := ht; clear hk)
    | (intro t ht; have hk : Keeps org t := ht; clear hk)
    | (intro s1; refine (fun (hs1 : Keeps org s1) => ?_) ?_; clear_value s1)
    | (intro s1; clear_value s1)
    | (lift_lets; intro s1; refine (fun (hs1 : Keeps org s1) => ?_) ?_; clear_value s1)
    | (lift_lets; intro s1; clear_value s1)
    | with_reducible apply Keeps.each
    | with_reducible apply Keeps.ite
    | with_reducible apply State.modXlt_keeps
    | with_reducible apply State.modPws_keeps
    | with_reducible apply State.modSafe_keeps
    | with_reducible apply State.modFeed_keeps
    | with_reducible apply State.unpowered_keeps
    | with_reducible apply State.train_keeps
    | with_reducible apply State.nvLoad_keeps
    | with_reducible apply State.bistRow_keeps
    | simp only [s1]
    | split
    | with_reducible apply Keeps.mk

theorem State.readyTimers_keeps {org s : State} (hs : Keeps org s) : Keeps org (s.readyTimers) := by
  unfold State.readyTimers
  repeat' first
    | with_reducible assumption
    | with_reducible apply Keeps.mk

theorem State.deviceReady_keeps {org s : State} (hs : Keeps org s) : Keeps org (s.deviceReady) := by
  unfold State.deviceReady
  repeat' first
    | with_reducible assumption
    | (intro s1; refine (fun (hs1 : Keeps org s1) => ?_) ?_; clear_value s1)
    | (intro s1; clear_value s1)
    | (lift_lets; intro s1; refine (fun (hs1 : Keeps org s1) => ?_) ?_; clear_value s1)
    | (lift_lets; intro s1; clear_value s1)
    | with_reducible apply Keeps.ite
    | with_reducible apply State.modPws_keeps
    | with_reducible apply State.modSafe_keeps
    | with_reducible apply State.raiseAll_keeps
    | with_reducible apply State.safeVecs_keeps
    | with_reducible apply State.readyTimers_keeps
    | (refine Keeps.ofEq (by assumption) ?_)
    | with_reducible apply Keeps.mk

theorem State.warmed_keeps {org s : State} (hs : Keeps org s) : Keeps org s.warmed :=
  ⟨hs.1, fun m => ⟨filter_wf _ (hs.2 m).1, (hs.2 m).2⟩⟩

theorem State.warmReset_keeps {org s : State} {badRows : List Nat} (hs : Keeps org s) : Keeps org (s.warmReset badRows) := by
  unfold State.warmReset
  repeat' first
    | with_reducible assumption
    | (intro t a ht; have hk : Keeps org t := ht; clear hk)
    | (intro t ht; have hk : Keeps org t := ht; clear hk)
    | with_reducible apply Keeps.each
    | with_reducible apply Keeps.ite
    | with_reducible apply State.safeVecs_keeps
    | with_reducible apply State.nvLoad_keeps
    | with_reducible apply State.bistRow_keeps
    | with_reducible apply State.warmed_keeps

theorem State.porstLow_keeps {org s : State} (hs : Keeps org s) : Keeps org (s.porstLow) := by
  unfold State.porstLow
  repeat' first
    | with_reducible assumption
    | with_reducible apply State.unpowered_keeps

theorem State.commitRefuse_keeps {org s : State} {n q line code : Nat} (hs : Keeps org s) : Keeps org (s.commitRefuse n q line code) := by
  unfold State.commitRefuse
  repeat' first
    | with_reducible assumption
    | with_reducible apply State.postTo_keeps

theorem State.commitAccept_keeps {org s : State} {n q line : Nat} {cas : Bool} {base : Nat} {prog : Bool} (hs : Keeps org s) : Keeps org (s.commitAccept n q line cas base prog).1 := by
  unfold State.commitAccept
  repeat' first
    | with_reducible assumption
    | (intro s1; refine (fun (hs1 : Keeps org s1) => ?_) ?_; clear_value s1)
    | (intro s1; clear_value s1)
    | (lift_lets; intro s1; refine (fun (hs1 : Keeps org s1) => ?_) ?_; clear_value s1)
    | (lift_lets; intro s1; clear_value s1)
    | with_reducible apply Keeps.ite_fst
    | with_reducible apply Keeps.ite
    | with_reducible apply State.modSess_keeps
    | with_reducible apply State.commitRefuse_keeps
    | split

theorem State.commitProgram_keeps {org s : State} {n q line : Nat} {cas : Bool} {base : Nat} (hs : Keeps org s) : Keeps org (s.commitProgram n q line cas base).1 := by
  unfold State.commitProgram
  repeat' first
    | with_reducible assumption
    | (intro s1; refine (fun (hs1 : Keeps org s1) => ?_) ?_; clear_value s1)
    | (intro s1; refine (fun (hs1 : Keeps org s1.1) => ?_) ?_; clear_value s1)
    | (intro s1; clear_value s1)
    | (lift_lets; intro s1; refine (fun (hs1 : Keeps org s1) => ?_) ?_; clear_value s1)
    | (lift_lets; intro s1; refine (fun (hs1 : Keeps org s1.1) => ?_) ?_; clear_value s1)
    | (lift_lets; intro s1; clear_value s1)
    | with_reducible apply Keeps.ite_fst
    | with_reducible apply Keeps.ite
    | with_reducible apply State.modSeq_keeps
    | with_reducible apply State.setEv_keeps
    | with_reducible apply State.commitAccept_keeps
    | split

theorem State.pinPages_keeps {org s : State} {n p : Nat} {w : Word} (hs : Keeps org s) : Keeps org (s.pinPages n p w).1 := by
  unfold State.pinPages
  repeat' first
    | with_reducible assumption
    | with_reducible apply Keeps.ite_fst
    | with_reducible apply Keeps.ite
    | with_reducible apply State.access_keeps
    | split
    | (refine Keeps.ofEq (by assumption) ?_)

theorem State.pinAll_keeps {org : State} {n : Nat} {words : SMap Word} : ∀ {l : List Nat} {s : State}, Keeps org s →
    Keeps org (s.pinAll n words l).1
  | [], _, h => h
  | p :: l, s, h => by
    unfold State.pinAll
    have hp := State.pinPages_keeps (n := n) (p := p) (w := s.withSet words (etBase p)) h
    split
    · exact Keeps.ofEq (by assumption) hp
    · exact State.pinAll_keeps (State.modFp_keeps (Keeps.ofEq (by assumption) hp))

theorem State.commitValidate_keeps {org s : State} {n : Nat} (hs : Keeps org s) : Keeps org (s.commitValidate n) := by
  unfold State.commitValidate
  split
  all_goals
  repeat' first
    | with_reducible assumption
    | (intro s1; refine (fun (hs1 : Keeps org s1) => ?_) ?_; clear_value s1)
    | (intro s1; refine (fun (hs1 : Keeps org s1.1) => ?_) ?_; clear_value s1)
    | (intro s1; clear_value s1)
    | (lift_lets; intro s1; refine (fun (hs1 : Keeps org s1) => ?_) ?_; clear_value s1)
    | (lift_lets; intro s1; refine (fun (hs1 : Keeps org s1.1) => ?_) ?_; clear_value s1)
    | (lift_lets; intro s1; clear_value s1)
    | with_reducible apply Keeps.ite
    | with_reducible apply State.modSess_keeps
    | with_reducible apply State.dropReq_keeps
    | with_reducible apply State.pinAll_keeps
    | simp only [s1]
    | split
    | (refine Keeps.ofEq (by assumption) ?_)

theorem State.etbSwitch_keeps {org s : State} {p : Nat} (hs : Keeps org s) : Keeps org (s.etbSwitch p) := by
  unfold State.etbSwitch
  repeat' first
    | with_reducible assumption
    | (intro s1; refine (fun (hs1 : Keeps org s1) => ?_) ?_; clear_value s1)
    | (intro s1; refine (fun (hs1 : Keeps org s1.1) => ?_) ?_; clear_value s1)
    | (intro s1; clear_value s1)
    | (lift_lets; intro s1; refine (fun (hs1 : Keeps org s1) => ?_) ?_; clear_value s1)
    | (lift_lets; intro s1; refine (fun (hs1 : Keeps org s1.1) => ?_) ?_; clear_value s1)
    | (lift_lets; intro s1; clear_value s1)
    | with_reducible apply Keeps.ite
    | with_reducible apply State.modFp_keeps
    | with_reducible apply State.postUnit_keeps
    | with_reducible apply State.sramWrite_keeps
    | with_reducible apply State.pushAgain_keeps
    | simp only [s1]
    | split

theorem State.commitHook_keeps {org s : State} {a : Nat} {old new : Word} (hs : Keeps org s) : Keeps org (s.commitHook a old new) := by
  unfold State.commitHook
  repeat' first
    | with_reducible assumption
    | (intro t a ht; have hk : Keeps org t := ht; clear hk)
    | (intro t ht; have hk : Keeps org t := ht; clear hk)
    | (intro s1; refine (fun (hs1 : Keeps org s1) => ?_) ?_; clear_value s1)
    | (intro s1; clear_value s1)
    | (lift_lets; intro s1; refine (fun (hs1 : Keeps org s1) => ?_) ?_; clear_value s1)
    | (lift_lets; intro s1; clear_value s1)
    | with_reducible apply Keeps.each
    | with_reducible apply Keeps.ite
    | with_reducible apply State.modEnc_keeps
    | with_reducible apply State.modCam_keeps
    | with_reducible apply State.wake_keeps
    | with_reducible apply State.portUp_keeps
    | with_reducible apply State.portDown_keeps
    | with_reducible apply State.relatch_keeps
    | with_reducible apply State.camEnable_keeps
    | with_reducible apply State.ptpEnable_keeps
    | with_reducible apply State.feedModes_keeps
    | with_reducible apply State.etbSwitch_keeps
    | with_reducible apply State.idle_keeps

theorem State.flipStaged_keeps {org s : State} {a : Nat} (hs : Keeps org s) : Keeps org (s.flipStaged a) := by
  unfold State.flipStaged
  repeat' first
    | with_reducible assumption
    | (intro s1; refine (fun (hs1 : Keeps org s1) => ?_) ?_; clear_value s1)
    | (intro s1; refine (fun (hs1 : Keeps org s1.1) => ?_) ?_; clear_value s1)
    | (intro s1; clear_value s1)
    | (lift_lets; intro s1; refine (fun (hs1 : Keeps org s1) => ?_) ?_; clear_value s1)
    | (lift_lets; intro s1; refine (fun (hs1 : Keeps org s1.1) => ?_) ?_; clear_value s1)
    | (lift_lets; intro s1; clear_value s1)
    | with_reducible apply Keeps.ite
    | with_reducible apply State.modMgt_keeps
    | with_reducible apply State.sramWrite_keeps

theorem State.goLive_keeps {org s : State} {units drop : List Nat} {words : SMap Word} (hs : Keeps org s) : Keeps org (s.goLive units drop words) := by
  unfold State.goLive
  repeat' first
    | with_reducible assumption
    | (intro t a ht; have hk : Keeps org t := ht; clear hk)
    | (intro t ht; have hk : Keeps org t := ht; clear hk)
    | (intro s1; refine (fun (hs1 : Keeps org s1) => ?_) ?_; clear_value s1)
    | (intro s1; refine (fun (hs1 : Keeps org s1.1) => ?_) ?_; clear_value s1)
    | (intro s1; clear_value s1)
    | (lift_lets; intro s1; refine (fun (hs1 : Keeps org s1) => ?_) ?_; clear_value s1)
    | (lift_lets; intro s1; refine (fun (hs1 : Keeps org s1.1) => ?_) ?_; clear_value s1)
    | (lift_lets; intro s1; clear_value s1)
    | with_reducible apply Keeps.each
    | with_reducible apply Keeps.ite
    | with_reducible apply State.setReg_keeps
    | with_reducible apply State.modMgt_keeps
    | with_reducible apply State.dropUnits_keeps
    | with_reducible apply State.flipStaged_keeps

theorem State.makeLive_keeps {org s : State} {units : List Nat} {words : SMap Word} (hs : Keeps org s) : Keeps org (s.makeLive units words) := by
  unfold State.makeLive
  repeat' first
    | with_reducible assumption
    | (intro t a ht; have hk : Keeps org t := ht; clear hk)
    | (intro t ht; have hk : Keeps org t := ht; clear hk)
    | with_reducible apply Keeps.each
    | with_reducible apply State.commitHook_keeps
    | with_reducible apply State.goLive_keeps

theorem State.commitDo_keeps {org s : State} {n line : Nat} {insw : Bool} (hs : Keeps org s) : Keeps org (s.commitDo n line insw) := by
  unfold State.commitDo
  split
  all_goals
  repeat' first
    | with_reducible assumption
    | (intro t a ht; have hk : Keeps org t := ht; clear hk)
    | (intro t ht; have hk : Keeps org t := ht; clear hk)
    | (intro s1; refine (fun (hs1 : Keeps org s1) => ?_) ?_; clear_value s1)
    | (intro s1; refine (fun (hs1 : Keeps org s1.1) => ?_) ?_; clear_value s1)
    | (intro s1; clear_value s1)
    | (lift_lets; intro s1; refine (fun (hs1 : Keeps org s1) => ?_) ?_; clear_value s1)
    | (lift_lets; intro s1; refine (fun (hs1 : Keeps org s1.1) => ?_) ?_; clear_value s1)
    | (lift_lets; intro s1; clear_value s1)
    | with_reducible apply Keeps.when
    | with_reducible apply Keeps.ite
    | with_reducible apply State.modSeq_keeps
    | with_reducible apply State.modSess_keeps
    | with_reducible apply State.postTo_keeps
    | with_reducible apply State.setEv_keeps
    | with_reducible apply State.dropReq_keeps
    | with_reducible apply State.makeLive_keeps
    | split

theorem State.boundary_keeps {org s : State} {q line : Nat} (hs : Keeps org s) : Keeps org (s.boundary q line) := by
  unfold State.boundary
  repeat' first
    | with_reducible assumption
    | (intro t a ht; have hk : Keeps org t := ht; clear hk)
    | (intro t ht; have hk : Keeps org t := ht; clear hk)
    | with_reducible apply Keeps.each
    | with_reducible apply Keeps.ite
    | with_reducible apply State.commitDo_keeps
    | split

theorem State.commitIdle_keeps {org s : State} {n : Nat} (hs : Keeps org s) : Keeps org (s.commitIdle n) := by
  unfold State.commitIdle
  split
  all_goals
  repeat' first
    | with_reducible assumption
    | with_reducible apply Keeps.ite
    | with_reducible apply State.commitDo_keeps
    | split

theorem State.commitReady_keeps {org s : State} {n : Nat} (hs : Keeps org s) : Keeps org (s.commitReady n) := by
  unfold State.commitReady
  repeat' first
    | with_reducible assumption
    | (intro t a ht; have hk : Keeps org t := ht; clear hk)
    | (intro t ht; have hk : Keeps org t := ht; clear hk)
    | with_reducible apply Keeps.each
    | with_reducible apply State.commitIdle_keeps

theorem State.commitTimeout_keeps {org s : State} {n : Nat} (hs : Keeps org s) : Keeps org (s.commitTimeout n) := by
  unfold State.commitTimeout
  repeat' first
    | with_reducible assumption
    | (intro s1; refine (fun (hs1 : Keeps org s1) => ?_) ?_; clear_value s1)
    | (intro s1; clear_value s1)
    | (lift_lets; intro s1; refine (fun (hs1 : Keeps org s1) => ?_) ?_; clear_value s1)
    | (lift_lets; intro s1; clear_value s1)
    | with_reducible apply Keeps.ite
    | with_reducible apply State.dropReq_keeps
    | with_reducible apply State.commitReady_keeps
    | split

theorem State.catchupDone_keeps {org s : State} {u : Nat} (hs : Keeps org s) : Keeps org (s.catchupDone u) := by
  unfold State.catchupDone
  repeat' first
    | with_reducible assumption
    | with_reducible apply State.modMgt_keeps

theorem State.overflowed_keeps {org s : State} {n : Nat} (hs : Keeps org s) : Keeps org (s.overflowed n) := by
  unfold State.overflowed
  repeat' first
    | with_reducible assumption
    | (intro t a ht; have hk : Keeps org t := ht; clear hk)
    | (intro t ht; have hk : Keeps org t := ht; clear hk)
    | (intro s1; refine (fun (hs1 : Keeps org s1) => ?_) ?_; clear_value s1)
    | (intro s1; clear_value s1)
    | (lift_lets; intro s1; refine (fun (hs1 : Keeps org s1) => ?_) ?_; clear_value s1)
    | (lift_lets; intro s1; clear_value s1)
    | with_reducible apply Keeps.when
    | with_reducible apply State.modSess_keeps
    | with_reducible apply State.postErr_keeps

theorem State.stageWord_keeps {org s : State} {n a : Nat} {mask v : Nat} (hs : Keeps org s) : Keeps org (s.stageWord n a mask v).1 := by
  unfold State.stageWord
  split
  all_goals
  repeat' first
    | with_reducible assumption
    | (intro s1; refine (fun (hs1 : Keeps org s1) => ?_) ?_; clear_value s1)
    | (intro s1; clear_value s1)
    | (lift_lets; intro s1; refine (fun (hs1 : Keeps org s1) => ?_) ?_; clear_value s1)
    | (lift_lets; intro s1; clear_value s1)
    | with_reducible apply Keeps.ite_fst
    | with_reducible apply Keeps.ite
    | with_reducible apply State.modSess_keeps
    | with_reducible apply State.modMgt_keeps
    | with_reducible apply State.refuse_keeps
    | with_reducible apply State.flipStaged_keeps
    | with_reducible apply State.overflowed_keeps
    | split
    | (refine Keeps.ofEq (by assumption) ?_)

theorem State.stageDiscard_keeps {org s : State} {n : Nat} (hs : Keeps org s) : Keeps org (s.stageDiscard n) := by
  unfold State.stageDiscard
  repeat' first
    | with_reducible assumption
    | with_reducible apply State.modSess_keeps
    | with_reducible apply State.dropUnits_keeps

end Sys2Proof.Machine
end

