-- ==== Sys2Proof/Laws/KeepLine.lean ====
section
/-! SUPPORT. What the operations keep: the lines of a swath. -/
set_option maxRecDepth 2000
namespace Sys2Proof.Machine
open Sys2Proof

theorem State.headHot_keeps {org s : State} {q p n : Nat} (hs : Keeps org s) : Keeps org (s.headHot q p n) := by
  unfold State.headHot
  repeat' first
    | with_reducible assumption
    | (intro s1; refine (fun (hs1 : Keeps org s1) => ?_) ?_; clear_value s1)
    | (intro s1; clear_value s1)
    | (lift_lets; intro s1; refine (fun (hs1 : Keeps org s1) => ?_) ?_; clear_value s1)
    | (lift_lets; intro s1; clear_value s1)
    | with_reducible apply Keeps.ite
    | with_reducible apply State.modFp_keeps
    | with_reducible apply State.postUnit_keeps
    | with_reducible apply State.setEv_keeps

theorem State.hotLine_keeps {org s : State} {q p n : Nat} (hs : Keeps org s) : Keeps org (s.hotLine q p n) := by
  unfold State.hotLine
  repeat' first
    | with_reducible assumption
    | with_reducible apply State.modFp_keeps
    | with_reducible apply State.headHot_keeps

theorem State.lateStep_keeps {org s : State} {q p n : Nat} {hit : Bool} (hs : Keeps org s) : Keeps org (s.lateStep q p n hit) := by
  unfold State.lateStep
  repeat' first
    | with_reducible assumption
    | (intro s1; refine (fun (hs1 : Keeps org s1) => ?_) ?_; clear_value s1)
    | (intro s1; refine (fun (hs1 : Keeps org s1.1) => ?_) ?_; clear_value s1)
    | (intro s1; clear_value s1)
    | (lift_lets; intro s1; refine (fun (hs1 : Keeps org s1) => ?_) ?_; clear_value s1)
    | (lift_lets; intro s1; refine (fun (hs1 : Keeps org s1.1) => ?_) ?_; clear_value s1)
    | (lift_lets; intro s1; clear_value s1)
    | with_reducible apply Keeps.ite
    | with_reducible apply State.modStr_keeps
    | with_reducible apply State.modRing_keeps
    | with_reducible apply State.postRun_keeps
    | with_reducible apply State.setEv_keeps

theorem State.scaleStep_keeps {org s : State} {q p n : Nat} {stale vbad : Bool} (hs : Keeps org s) : Keeps org (s.scaleStep q p n stale vbad) := by
  unfold State.scaleStep
  repeat' first
    | with_reducible assumption
    | (intro s1; refine (fun (hs1 : Keeps org s1) => ?_) ?_; clear_value s1)
    | (intro s1; refine (fun (hs1 : Keeps org s1.1) => ?_) ?_; clear_value s1)
    | (intro s1; clear_value s1)
    | (lift_lets; intro s1; refine (fun (hs1 : Keeps org s1) => ?_) ?_; clear_value s1)
    | (lift_lets; intro s1; refine (fun (hs1 : Keeps org s1.1) => ?_) ?_; clear_value s1)
    | (lift_lets; intro s1; clear_value s1)
    | with_reducible apply Keeps.ite
    | with_reducible apply State.modFp_keeps
    | with_reducible apply State.postRun_keeps

theorem State.bandChange_keeps {org s : State} {q p n : Nat} (hs : Keeps org s) : Keeps org (s.bandChange q p n) := by
  unfold State.bandChange
  repeat' first
    | with_reducible assumption
    | (intro t a ht; have hk : Keeps org t := ht; clear hk)
    | (intro t ht; have hk : Keeps org t := ht; clear hk)
    | (intro s1; refine (fun (hs1 : Keeps org s1) => ?_) ?_; clear_value s1)
    | (intro s1; refine (fun (hs1 : Keeps org s1.1) => ?_) ?_; clear_value s1)
    | (intro s1; clear_value s1)
    | (lift_lets; intro s1; refine (fun (hs1 : Keeps org s1) => ?_) ?_; clear_value s1)
    | (lift_lets; intro s1; refine (fun (hs1 : Keeps org s1.1) => ?_) ?_; clear_value s1)
    | (lift_lets; intro s1; clear_value s1)
    | with_reducible apply Keeps.each
    | with_reducible apply State.modFp_keeps
    | with_reducible apply State.postUnit_keeps

theorem State.tableEcc_keeps {org s : State} {q p n a : Nat} (hs : Keeps org s) : Keeps org (s.tableEcc q p n a) := by
  unfold State.tableEcc
  repeat' first
    | with_reducible assumption
    | (intro s1; refine (fun (hs1 : Keeps org s1) => ?_) ?_; clear_value s1)
    | (intro s1; clear_value s1)
    | (lift_lets; intro s1; refine (fun (hs1 : Keeps org s1) => ?_) ?_; clear_value s1)
    | (lift_lets; intro s1; clear_value s1)
    | with_reducible apply State.postUnit_keeps
    | with_reducible apply State.sramUeHit_keeps

theorem State.readLine_keeps {org s : State} {q p n : Nat} {ent : LnEntry} (hs : Keeps org s) : Keeps org (s.readLine q p n ent).1 := by
  unfold State.readLine
  repeat' first
    | with_reducible assumption
    | (intro s1; refine (fun (hs1 : Keeps org s1) => ?_) ?_; clear_value s1)
    | (intro s1; refine (fun (hs1 : Keeps org s1.1) => ?_) ?_; clear_value s1)
    | (intro s1; clear_value s1)
    | (lift_lets; intro s1; refine (fun (hs1 : Keeps org s1) => ?_) ?_; clear_value s1)
    | (lift_lets; intro s1; refine (fun (hs1 : Keeps org s1.1) => ?_) ?_; clear_value s1)
    | (lift_lets; intro s1; clear_value s1)
    | with_reducible apply Keeps.ite_fst
    | with_reducible apply Keeps.ite
    | with_reducible apply State.modStr_keeps
    | with_reducible apply State.postUnit_keeps
    | with_reducible apply State.sramUeHit_keeps
    | with_reducible apply State.sramRead_keeps
    | with_reducible apply State.tableEcc_keeps
    | split
    | (refine Keeps.ofEq (by assumption) ?_)

theorem State.keepLine_keeps {org s : State} {p n : Nat} {framed counted : Bool} (hs : Keeps org s) : Keeps org (s.keepLine p n framed counted) := by
  unfold State.keepLine
  repeat' first
    | with_reducible assumption
    | (intro s1; refine (fun (hs1 : Keeps org s1) => ?_) ?_; clear_value s1)
    | (intro s1; clear_value s1)
    | (lift_lets; intro s1; refine (fun (hs1 : Keeps org s1) => ?_) ?_; clear_value s1)
    | (lift_lets; intro s1; clear_value s1)
    | with_reducible apply State.modFp_keeps

theorem State.readPort_keeps {org s : State} {q n : Nat} {ent : LnEntry} {p : Nat} (hs : Keeps org s) : Keeps org (s.readPort q n ent p).1 := by
  unfold State.readPort
  repeat' first
    | with_reducible assumption
    | (intro s1; refine (fun (hs1 : Keeps org s1) => ?_) ?_; clear_value s1)
    | (intro s1; refine (fun (hs1 : Keeps org s1.1) => ?_) ?_; clear_value s1)
    | (intro s1; clear_value s1)
    | (lift_lets; intro s1; refine (fun (hs1 : Keeps org s1) => ?_) ?_; clear_value s1)
    | (lift_lets; intro s1; refine (fun (hs1 : Keeps org s1.1) => ?_) ?_; clear_value s1)
    | (lift_lets; intro s1; clear_value s1)
    | with_reducible apply Keeps.ite_fst
    | with_reducible apply Keeps.ite
    | with_reducible apply State.modFp_keeps
    | with_reducible apply State.sendFrame_keeps
    | with_reducible apply State.laneCut_keeps
    | with_reducible apply State.sendVoid_keeps
    | with_reducible apply State.decodeDone_keeps
    | with_reducible apply State.nzRead_keeps
    | with_reducible apply State.hotLine_keeps
    | with_reducible apply State.lateStep_keeps
    | with_reducible apply State.scaleStep_keeps
    | with_reducible apply State.bandChange_keeps
    | with_reducible apply State.readLine_keeps
    | with_reducible apply State.keepLine_keeps
    | simp only [s1]
    | split

theorem State.readPoint_keeps {org s : State} {q : Nat} (hs : Keeps org s) : Keeps org (s.readPoint q) := by
  unfold State.readPoint
  split
  all_goals
  repeat' first
    | with_reducible assumption
    | (intro t a ht; have hk : Keeps org t := ht; clear hk)
    | (intro t ht; have hk : Keeps org t := ht; clear hk)
    | (intro t a ht; have hk : Keeps org t.1 := ht; clear hk)
    | (intro s1; refine (fun (hs1 : Keeps org s1) => ?_) ?_; clear_value s1)
    | (intro s1; refine (fun (hs1 : Keeps org s1.1) => ?_) ?_; clear_value s1)
    | (intro s1; clear_value s1)
    | (lift_lets; intro s1; refine (fun (hs1 : Keeps org s1) => ?_) ?_; clear_value s1)
    | (lift_lets; intro s1; refine (fun (hs1 : Keeps org s1.1) => ?_) ?_; clear_value s1)
    | (lift_lets; intro s1; clear_value s1)
    | with_reducible apply Keeps.each
    | with_reducible apply Keeps.ite
    | with_reducible apply Keeps.foldl
    | with_reducible apply Keeps.foldl_fst
    | with_reducible apply State.modSeq_keeps
    | with_reducible apply State.modRing_keeps
    | with_reducible apply State.noteRead_keeps
    | with_reducible apply State.postRun_keeps
    | with_reducible apply State.noteOther_keeps
    | with_reducible apply State.readDone_keeps
    | with_reducible apply State.healthNow_keeps
    | with_reducible apply State.boundary_keeps
    | with_reducible apply State.readPort_keeps
    | split
    | (refine Keeps.ofEq (by assumption) ?_)

theorem State.consume_keeps {org s : State} {q : Nat} (hs : Keeps org s) : Keeps org (s.consume q) := by
  unfold State.consume
  split
  all_goals
  repeat' first
    | with_reducible assumption
    | (intro s1; refine (fun (hs1 : Keeps org s1) => ?_) ?_; clear_value s1)
    | (intro s1; clear_value s1)
    | (lift_lets; intro s1; refine (fun (hs1 : Keeps org s1) => ?_) ?_; clear_value s1)
    | (lift_lets; intro s1; clear_value s1)
    | with_reducible apply Keeps.ite
    | with_reducible apply State.modSeq_keeps
    | with_reducible apply State.setEv_keeps
    | split

theorem State.underrunLine_keeps {org s : State} {q n : Nat} (hs : Keeps org s) : Keeps org (s.underrunLine q n) := by
  unfold State.underrunLine
  repeat' first
    | with_reducible assumption
    | (intro t a ht; have hk : Keeps org t := ht; clear hk)
    | (intro t ht; have hk : Keeps org t := ht; clear hk)
    | (intro s1; refine (fun (hs1 : Keeps org s1) => ?_) ?_; clear_value s1)
    | (intro s1; refine (fun (hs1 : Keeps org s1.1) => ?_) ?_; clear_value s1)
    | (intro s1; clear_value s1)
    | (lift_lets; intro s1; refine (fun (hs1 : Keeps org s1) => ?_) ?_; clear_value s1)
    | (lift_lets; intro s1; refine (fun (hs1 : Keeps org s1.1) => ?_) ?_; clear_value s1)
    | (lift_lets; intro s1; clear_value s1)
    | with_reducible apply Keeps.each
    | with_reducible apply State.modSeq_keeps
    | with_reducible apply State.postRun_keeps
    | with_reducible apply State.boundary_keeps
    | with_reducible apply State.lateStep_keeps
    | with_reducible apply State.scaleStep_keeps
    | with_reducible apply State.keepLine_keeps

theorem State.speedStep_keeps {org s : State} {q n : Nat} {late speed : Bool} (hs : Keeps org s) : Keeps org (s.speedStep q n late speed) := by
  unfold State.speedStep
  repeat' first
    | with_reducible assumption
    | (intro s1; refine (fun (hs1 : Keeps org s1) => ?_) ?_; clear_value s1)
    | (intro s1; refine (fun (hs1 : Keeps org s1.1) => ?_) ?_; clear_value s1)
    | (intro s1; clear_value s1)
    | (lift_lets; intro s1; refine (fun (hs1 : Keeps org s1) => ?_) ?_; clear_value s1)
    | (lift_lets; intro s1; refine (fun (hs1 : Keeps org s1.1) => ?_) ?_; clear_value s1)
    | (lift_lets; intro s1; clear_value s1)
    | with_reducible apply Keeps.ite
    | with_reducible apply State.modPlace_keeps
    | with_reducible apply State.postRun_keeps
    | with_reducible apply State.noteOther_keeps
    | with_reducible apply State.overrun_keeps

theorem State.saveLines_keeps {org s : State} {q : Nat} (hs : Keeps org s) : Keeps org (s.saveLines q) := by
  unfold State.saveLines
  repeat' first
    | with_reducible assumption
    | (intro s1; refine (fun (hs1 : Keeps org s1) => ?_) ?_; clear_value s1)
    | (intro s1; clear_value s1)
    | (lift_lets; intro s1; refine (fun (hs1 : Keeps org s1) => ?_) ?_; clear_value s1)
    | (lift_lets; intro s1; clear_value s1)
    | with_reducible apply Keeps.ite
    | with_reducible apply State.modSeq_keeps
    | with_reducible apply State.overrun_keeps
    | split

theorem State.lineEvent_keeps {org s : State} {q at_ fire : Nat} {late gap : Bool} (hs : Keeps org s) : Keeps org (s.lineEvent q at_ fire late gap) := by
  unfold State.lineEvent
  repeat' first
    | with_reducible assumption
    | (intro t a ht; have hk : Keeps org t := ht; clear hk)
    | (intro t ht; have hk : Keeps org t := ht; clear hk)
    | (intro s1; refine (fun (hs1 : Keeps org s1) => ?_) ?_; clear_value s1)
    | (intro s1; clear_value s1)
    | (lift_lets; intro s1; refine (fun (hs1 : Keeps org s1) => ?_) ?_; clear_value s1)
    | (lift_lets; intro s1; clear_value s1)
    | with_reducible apply Keeps.each
    | with_reducible apply Keeps.ite
    | with_reducible apply State.modSeq_keeps
    | with_reducible apply State.modRing_keeps
    | with_reducible apply State.modPlace_keeps
    | with_reducible apply State.restamp_keeps
    | with_reducible apply State.noteOther_keeps
    | with_reducible apply State.readDone_keeps
    | with_reducible apply State.readPoint_keeps
    | with_reducible apply State.consume_keeps
    | with_reducible apply State.underrunLine_keeps
    | with_reducible apply State.speedStep_keeps
    | with_reducible apply State.saveLines_keeps
    | simp only [s1]
    | split

theorem State.placeLines_keeps {org : State} {q : Nat} {m : Sample} {gap : Bool} : ∀ {fuel : Nat} {first : Bool} {s : State},
    Keeps org s → Keeps org (s.placeLines q m gap fuel first)
  | 0, _, _, h => h
  | fuel + 1, first, s, h => by
    unfold State.placeLines
    dsimp only
    split
    · exact h
    · split
      · exact h
      · exact State.placeLines_keeps (State.lineEvent_keeps h)
      · exact State.placeLines_keeps (State.lineEvent_keeps h)

theorem State.placeRow_keeps {org s : State} {q : Nat} {m : Sample} {gap : Bool} {p k : Nat} (hs : Keeps org s) : Keeps org (s.placeRow q m gap p k) := by
  unfold State.placeRow
  repeat' first
    | with_reducible assumption
    | (intro t a ht; have hk : Keeps org t := ht; clear hk)
    | (intro t ht; have hk : Keeps org t := ht; clear hk)
    | (intro t a ht; have hk : Keeps org t.1 := ht; clear hk)
    | (intro s1; refine (fun (hs1 : Keeps org s1) => ?_) ?_; clear_value s1)
    | (intro s1; refine (fun (hs1 : Keeps org s1.1) => ?_) ?_; clear_value s1)
    | (intro s1; clear_value s1)
    | (lift_lets; intro s1; refine (fun (hs1 : Keeps org s1) => ?_) ?_; clear_value s1)
    | (lift_lets; intro s1; refine (fun (hs1 : Keeps org s1.1) => ?_) ?_; clear_value s1)
    | (lift_lets; intro s1; clear_value s1)
    | with_reducible apply Keeps.ite
    | with_reducible apply Keeps.foldl
    | with_reducible apply Keeps.foldl_fst
    | with_reducible apply State.modPlace_keeps
    | with_reducible apply State.modFp_keeps
    | split

theorem State.placeRows_keeps {org s : State} {q : Nat} {m : Sample} {gap : Bool} (hs : Keeps org s) : Keeps org (s.placeRows q m gap) := by
  unfold State.placeRows
  repeat' first
    | with_reducible assumption
    | (intro t a ht; have hk : Keeps org t := ht; clear hk)
    | (intro t ht; have hk : Keeps org t := ht; clear hk)
    | with_reducible apply Keeps.each
    | with_reducible apply State.placeRow_keeps

theorem State.takeSample_keeps {org s : State} {q : Nat} {m : Sample} {gap : Bool} (hs : Keeps org s) : Keeps org (s.takeSample q m gap) := by
  unfold State.takeSample
  repeat' first
    | with_reducible assumption
    | (intro s1; refine (fun (hs1 : Keeps org s1) => ?_) ?_; clear_value s1)
    | (intro s1; clear_value s1)
    | (lift_lets; intro s1; refine (fun (hs1 : Keeps org s1) => ?_) ?_; clear_value s1)
    | (lift_lets; intro s1; clear_value s1)
    | with_reducible apply Keeps.ite
    | with_reducible apply State.modPlace_keeps
    | with_reducible apply State.restampAll_keeps
    | with_reducible apply State.placeLines_keeps
    | with_reducible apply State.placeRows_keeps
    | simp only [s1]

theorem State.lineEvents_keeps {org s : State} {q : Nat} (hs : Keeps org s) : Keeps org (s.lineEvents q) := by
  unfold State.lineEvents
  split
  all_goals
  repeat' first
    | with_reducible assumption
    | with_reducible apply Keeps.ite
    | with_reducible apply State.modPlace_keeps
    | with_reducible apply State.takeSample_keeps
    | split

theorem State.fireSymbol_keeps {org s : State} {q p n t k : Nat} {blank : Bool} {counted : Bool} (hs : Keeps org s) : Keeps org (s.fireSymbol q p n t k blank counted).1 := by
  unfold State.fireSymbol
  repeat' first
    | with_reducible assumption
    | (intro s1; refine (fun (hs1 : Keeps org s1) => ?_) ?_; clear_value s1)
    | (intro s1; clear_value s1)
    | (lift_lets; intro s1; refine (fun (hs1 : Keeps org s1) => ?_) ?_; clear_value s1)
    | (lift_lets; intro s1; clear_value s1)
    | with_reducible apply Keeps.ite_fst
    | with_reducible apply Keeps.ite
    | with_reducible apply State.modSeq_keeps
    | with_reducible apply State.modFp_keeps
    | with_reducible apply State.sendFire_keeps
    | with_reducible apply State.hotLine_keeps
    | simp only [s1]
    | split

theorem State.settleLines_keeps {org s : State} {q : Nat} (hs : Keeps org s) : Keeps org (s.settleLines q) := by
  unfold State.settleLines
  repeat' first
    | with_reducible assumption
    | (intro t a ht; have hk : Keeps org t := ht; clear hk)
    | (intro t ht; have hk : Keeps org t := ht; clear hk)
    | (intro s1; refine (fun (hs1 : Keeps org s1) => ?_) ?_; clear_value s1)
    | (intro s1; clear_value s1)
    | (lift_lets; intro s1; refine (fun (hs1 : Keeps org s1) => ?_) ?_; clear_value s1)
    | (lift_lets; intro s1; clear_value s1)
    | with_reducible apply Keeps.when
    | with_reducible apply Keeps.each
    | with_reducible apply State.modSeq_keeps
    | with_reducible apply State.modPlace_keeps
    | with_reducible apply State.modFp_keeps

theorem State.sendRow_keeps {org s : State} {q p : Nat} {d : Sched} (hs : Keeps org s) : Keeps org (s.sendRow q p d) := by
  unfold State.sendRow
  split
  all_goals
  repeat' first
    | with_reducible assumption
    | (intro s1; refine (fun (hs1 : Keeps org s1) => ?_) ?_; clear_value s1)
    | (intro s1; refine (fun (hs1 : Keeps org s1.1) => ?_) ?_; clear_value s1)
    | (intro s1; clear_value s1)
    | (lift_lets; intro s1; refine (fun (hs1 : Keeps org s1) => ?_) ?_; clear_value s1)
    | (lift_lets; intro s1; refine (fun (hs1 : Keeps org s1.1) => ?_) ?_; clear_value s1)
    | (lift_lets; intro s1; clear_value s1)
    | with_reducible apply Keeps.ite
    | with_reducible apply State.modSeq_keeps
    | with_reducible apply State.modPlace_keeps
    | with_reducible apply State.fireSymbol_keeps
    | simp only [s1]
    | split

theorem State.rowsFirst_keeps {org : State} {q p t : Nat} : ∀ {k : Nat} {s : State}, Keeps org s →
    Keeps org (s.rowsFirst q p t k)
  | 0, _, h => h
  | k + 1, s, h => by
    unfold State.rowsFirst
    split
    · exact h
    · exact State.rowsFirst_keeps (State.sendRow_keeps h)

theorem State.fireInstant_keeps {org s : State} {q : Nat} (hs : Keeps org s) : Keeps org (s.fireInstant q) := by
  unfold State.fireInstant
  split
  all_goals
  repeat' first
    | with_reducible assumption
    | (intro t a ht; have hk : Keeps org t := ht; clear hk)
    | (intro t ht; have hk : Keeps org t := ht; clear hk)
    | (intro t a ht; have hk : Keeps org t.1 := ht; clear hk)
    | (intro s1; refine (fun (hs1 : Keeps org s1) => ?_) ?_; clear_value s1)
    | (intro s1; refine (fun (hs1 : Keeps org s1.1) => ?_) ?_; clear_value s1)
    | (intro s1; clear_value s1)
    | (lift_lets; intro s1; refine (fun (hs1 : Keeps org s1) => ?_) ?_; clear_value s1)
    | (lift_lets; intro s1; refine (fun (hs1 : Keeps org s1.1) => ?_) ?_; clear_value s1)
    | (lift_lets; intro s1; clear_value s1)
    | with_reducible apply Keeps.ite
    | with_reducible apply Keeps.foldl
    | with_reducible apply Keeps.foldl_fst
    | with_reducible apply State.modSeq_keeps
    | with_reducible apply State.modPlace_keeps
    | with_reducible apply State.fireSymbol_keeps
    | with_reducible apply State.settleLines_keeps
    | with_reducible apply State.rowsFirst_keeps
    | simp only [s1]
    | split
    | (refine Keeps.ofEq (by assumption) ?_)

theorem State.rowTrigger_keeps {org s : State} {q p : Nat} (hs : Keeps org s) : Keeps org (s.rowTrigger q p) := by
  unfold State.rowTrigger
  repeat' first
    | with_reducible assumption
    | with_reducible apply Keeps.ite
    | with_reducible apply State.settleLines_keeps
    | with_reducible apply State.sendRow_keeps
    | split

theorem State.gapLines_keeps {org s : State} {q ns : Nat} (hs : Keeps org s) : Keeps org (s.gapLines q ns).1 := by
  unfold State.gapLines
  repeat' first
    | with_reducible assumption
    | (intro t a ht; have hk : Keeps org t := ht; clear hk)
    | (intro t ht; have hk : Keeps org t := ht; clear hk)
    | (intro t a ht; have hk : Keeps org t.1 := ht; clear hk)
    | (intro s1; refine (fun (hs1 : Keeps org s1) => ?_) ?_; clear_value s1)
    | (intro s1; clear_value s1)
    | (lift_lets; intro s1; refine (fun (hs1 : Keeps org s1) => ?_) ?_; clear_value s1)
    | (lift_lets; intro s1; clear_value s1)
    | with_reducible apply Keeps.each
    | with_reducible apply Keeps.ite_fst
    | with_reducible apply Keeps.ite
    | with_reducible apply Keeps.foldl
    | with_reducible apply Keeps.foldl_fst
    | with_reducible apply State.modPlace_keeps
    | with_reducible apply State.modFp_keeps
    | with_reducible apply State.postUnit_keeps
    | with_reducible apply State.setEv_keeps
    | with_reducible apply State.noteOther_keeps
    | with_reducible apply State.takeSample_keeps
    | simp only [s1]
    | split
    | (refine Keeps.ofEq (by assumption) ?_)

theorem State.resume_keeps {org s : State} {since len : Nat} (hs : Keeps org s) : Keeps org (s.resume since len) := by
  unfold State.resume
  repeat' first
    | with_reducible assumption
    | (intro t a ht; have hk : Keeps org t := ht; clear hk)
    | (intro t ht; have hk : Keeps org t := ht; clear hk)
    | (intro s1; refine (fun (hs1 : Keeps org s1) => ?_) ?_; clear_value s1)
    | (intro s1; clear_value s1)
    | (lift_lets; intro s1; refine (fun (hs1 : Keeps org s1) => ?_) ?_; clear_value s1)
    | (lift_lets; intro s1; clear_value s1)
    | with_reducible apply Keeps.each
    | with_reducible apply Keeps.ite
    | with_reducible apply State.after_keeps
    | split
    | with_reducible apply Keeps.mk

theorem State.gapRelease_keeps {org s : State} (hs : Keeps org s) : Keeps org (s.gapRelease) := by
  unfold State.gapRelease
  split
  all_goals
  repeat' first
    | with_reducible assumption
    | (intro t a ht; have hk : Keeps org t := ht; clear hk)
    | (intro t ht; have hk : Keeps org t := ht; clear hk)
    | (intro t a ht; have hk : Keeps org t.1 := ht; clear hk)
    | (intro s1; refine (fun (hs1 : Keeps org s1) => ?_) ?_; clear_value s1)
    | (intro s1; refine (fun (hs1 : Keeps org s1.1) => ?_) ?_; clear_value s1)
    | (intro s1; clear_value s1)
    | (lift_lets; intro s1; refine (fun (hs1 : Keeps org s1) => ?_) ?_; clear_value s1)
    | (lift_lets; intro s1; refine (fun (hs1 : Keeps org s1.1) => ?_) ?_; clear_value s1)
    | (lift_lets; intro s1; clear_value s1)
    | with_reducible apply Keeps.each
    | with_reducible apply Keeps.ite
    | with_reducible apply Keeps.foldl
    | with_reducible apply Keeps.foldl_fst
    | with_reducible apply State.modPlace_keeps
    | with_reducible apply State.modPws_keeps
    | with_reducible apply State.postAll_keeps
    | with_reducible apply State.restampAll_keeps
    | with_reducible apply State.settle_keeps
    | with_reducible apply State.gapLines_keeps
    | with_reducible apply State.resume_keeps
    | split
    | (refine Keeps.ofEq (by assumption) ?_)

theorem State.commitPoint_keeps {org s : State} {n : Nat} (hs : Keeps org s) : Keeps org (s.commitPoint n) := by
  unfold State.commitPoint
  split
  all_goals
  repeat' first
    | with_reducible assumption
    | (intro s1; refine (fun (hs1 : Keeps org s1) => ?_) ?_; clear_value s1)
    | (intro s1; clear_value s1)
    | (lift_lets; intro s1; refine (fun (hs1 : Keeps org s1) => ?_) ?_; clear_value s1)
    | (lift_lets; intro s1; clear_value s1)
    | with_reducible apply Keeps.ite
    | with_reducible apply State.boundary_keeps
    | with_reducible apply State.commitReady_keeps
    | split

theorem State.lineQueueAppend_keeps {org s : State} {q : Nat} (hs : Keeps org s) : Keeps org (s.lineQueueAppend q) := by
  unfold State.lineQueueAppend
  repeat' first
    | with_reducible assumption
    | (intro s1; refine (fun (hs1 : Keeps org s1) => ?_) ?_; clear_value s1)
    | (intro s1; clear_value s1)
    | (lift_lets; intro s1; refine (fun (hs1 : Keeps org s1) => ?_) ?_; clear_value s1)
    | (lift_lets; intro s1; clear_value s1)
    | with_reducible apply Keeps.ite
    | with_reducible apply State.modSeq_keeps
    | with_reducible apply State.endWait_keeps
    | split

theorem State.swathEnd_keeps {org s : State} {q : Nat} (hs : Keeps org s) : Keeps org (s.swathEnd q) := by
  unfold State.swathEnd
  repeat' first
    | with_reducible assumption
    | with_reducible apply Keeps.ite
    | with_reducible apply State.closeSwath_keeps

end Sys2Proof.Machine
end

