-- ==== Sys2Proof/Laws/KeepContext.lean ====
section
/-! SUPPORT. What the operations keep: the contexts and what their instructions do. -/
set_option maxRecDepth 2000
namespace Sys2Proof.Machine
open Sys2Proof

theorem State.runCtx_keeps {org s : State} {q c : Nat} (hs : Keeps org s) : Keeps org (s.runCtx q c) := by
  unfold State.runCtx
  repeat' first
    | with_reducible assumption
    | (intro s1; refine (fun (hs1 : Keeps org s1) => ?_) ?_; clear_value s1)
    | (intro s1; clear_value s1)
    | (lift_lets; intro s1; refine (fun (hs1 : Keeps org s1) => ?_) ?_; clear_value s1)
    | (lift_lets; intro s1; clear_value s1)
    | with_reducible apply State.modSeq_keeps
    | with_reducible apply State.modCtx_keeps
    | with_reducible apply State.idle_keeps

theorem State.giveWay_keeps {org s : State} {q c : Nat} (hs : Keeps org s) : Keeps org (s.giveWay q c) := by
  unfold State.giveWay
  repeat' first
    | with_reducible assumption
    | with_reducible apply State.modSeq_keeps
    | with_reducible apply State.modCtx_keeps

theorem State.turnTo_keeps {org s : State} {q c : Nat} (hs : Keeps org s) : Keeps org (s.turnTo q c) := by
  unfold State.turnTo
  repeat' first
    | with_reducible assumption
    | with_reducible apply Keeps.ite
    | with_reducible apply State.modSeq_keeps
    | with_reducible apply State.runCtx_keeps

theorem State.overtake_keeps {org s : State} {q c : Nat} (hs : Keeps org s) : Keeps org (s.overtake q c) := by
  unfold State.overtake
  split
  all_goals
  repeat' first
    | with_reducible assumption
    | with_reducible apply State.modSeq_keeps
    | split

theorem State.dispatch_keeps {org s : State} {q : Nat} (hs : Keeps org s) : Keeps org (s.dispatch q) := by
  unfold State.dispatch
  repeat' first
    | with_reducible assumption
    | with_reducible apply Keeps.ite
    | with_reducible apply State.giveWay_keeps
    | with_reducible apply State.turnTo_keeps
    | with_reducible apply State.overtake_keeps
    | with_reducible apply State.idle_keeps
    | split

theorem State.saveDone_keeps {org s : State} {q : Nat} (hs : Keeps org s) : Keeps org (s.saveDone q) := by
  unfold State.saveDone
  split
  all_goals
  repeat' first
    | with_reducible assumption
    | (intro s1; refine (fun (hs1 : Keeps org s1) => ?_) ?_; clear_value s1)
    | (intro s1; refine (fun (hs1 : Keeps org s1.1) => ?_) ?_; clear_value s1)
    | (intro s1; clear_value s1)
    | (lift_lets; intro s1; refine (fun (hs1 : Keeps org s1) => ?_) ?_; clear_value s1)
    | (lift_lets; intro s1; refine (fun (hs1 : Keeps org s1.1) => ?_) ?_; clear_value s1)
    | (lift_lets; intro s1; clear_value s1)
    | with_reducible apply Keeps.ite
    | with_reducible apply State.modSeq_keeps
    | with_reducible apply State.sramWrite_keeps
    | with_reducible apply State.turnTo_keeps
    | with_reducible apply State.idle_keeps
    | split
    | with_reducible apply Keeps.mk

theorem State.restoreDone_keeps {org s : State} {q : Nat} (hs : Keeps org s) : Keeps org (s.restoreDone q) := by
  unfold State.restoreDone
  split
  all_goals
  repeat' first
    | with_reducible assumption
    | (intro s1; refine (fun (hs1 : Keeps org s1) => ?_) ?_; clear_value s1)
    | (intro s1; clear_value s1)
    | (lift_lets; intro s1; refine (fun (hs1 : Keeps org s1) => ?_) ?_; clear_value s1)
    | (lift_lets; intro s1; clear_value s1)
    | with_reducible apply Keeps.ite
    | with_reducible apply State.modSeq_keeps
    | with_reducible apply State.ctxFault_keeps
    | with_reducible apply State.sramUeHit_keeps
    | with_reducible apply State.sramRead_keeps
    | with_reducible apply State.runCtx_keeps
    | with_reducible apply State.idle_keeps
    | split

theorem State.waitClears_keeps {org s : State} {q : Nat} {k : WaitKind} (hs : Keeps org s) : Keeps org (s.waitClears q k) := by
  unfold State.waitClears
  split
  all_goals
  repeat' first
    | with_reducible assumption
    | with_reducible apply State.modSeq_keeps
    | split

theorem State.retire_keeps {org s : State} {q c pc : Nat} (hs : Keeps org s) : Keeps org (s.retire q c pc) := by
  unfold State.retire
  repeat' first
    | with_reducible assumption
    | with_reducible apply State.modSeq_keeps
    | with_reducible apply State.modCtx_keeps

theorem State.enterWait_keeps {org s : State} {q c entry : Nat} {k : WaitKind} {timeout : Nat} (hs : Keeps org s) : Keeps org (s.enterWait q c entry k timeout) := by
  unfold State.enterWait
  repeat' first
    | with_reducible assumption
    | (intro s1; refine (fun (hs1 : Keeps org s1) => ?_) ?_; clear_value s1)
    | (intro s1; clear_value s1)
    | (lift_lets; intro s1; refine (fun (hs1 : Keeps org s1) => ?_) ?_; clear_value s1)
    | (lift_lets; intro s1; clear_value s1)
    | with_reducible apply Keeps.ite
    | with_reducible apply State.modCtx_keeps
    | with_reducible apply State.waitClears_keeps
    | with_reducible apply State.retire_keeps

/-- What the effect of an instruction keeps. -/
def Effect.Keeps (org : State) : Effect → Prop
  | .fault _ => True
  | .next s => Machine.Keeps org s
  | .jump s _ => Machine.Keeps org s
  | .hold s _ _ => Machine.Keeps org s
  | .final s => Machine.Keeps org s

theorem Effect.keeps_fault {org : State} {c : Nat} : Effect.Keeps org (.fault c) := trivial
theorem Effect.keeps_next {org s : State} (h : Machine.Keeps org s) : Effect.Keeps org (.next s) := h
theorem Effect.keeps_jump {org s : State} {t : Nat} (h : Machine.Keeps org s) : Effect.Keeps org (.jump s t) := h
theorem Effect.keeps_hold {org s : State} {k : WaitKind} {t : Nat} (h : Machine.Keeps org s) : Effect.Keeps org (.hold s k t) := h
theorem Effect.keeps_final {org s : State} (h : Machine.Keeps org s) : Effect.Keeps org (.final s) := h
theorem Effect.keeps_ite {org : State} {c : Prop} [Decidable c] {a b : Effect} (ha : Effect.Keeps org a)
    (hb : Effect.Keeps org b) : Effect.Keeps org (if c then a else b) := by
  split <;> assumption

theorem State.complete_keeps {org s : State} {q c ticks : Nat} {r : Effect} (hs : Keeps org s) (hr : Effect.Keeps org r) :
    Keeps org (s.complete q c ticks r) := by
  unfold State.complete
  cases r with
  | fault code => exact State.ctxFault_keeps hs
  | next t => exact State.retire_keeps hr
  | jump t pc => exact Keeps.ite (State.ctxFault_keeps hs) (State.retire_keeps hr)
  | hold t k timeout => exact State.enterWait_keeps hr
  | final t => exact hr

theorem State.ramest_keeps {org s : State} {q op : Nat} {safe : Bool} {ticks : Ctx → Ram → Nat} {form : Ram → Bool}
    {eff : State → Nat → Ctx → Ram → Effect} (hs : Keeps org s)
    (heff : ∀ t c x i, Keeps org t → Effect.Keeps org (eff t c x i)) : Keeps org (s.ramest q op safe ticks form eff) := by
  unfold State.ramest
  split
  · exact hs
  · refine Keeps.ite hs ?_
    exact State.ctxFault_keeps (Keeps.when (Keeps.when hs (fun t ht => State.sramUeHit_keeps ht)) (fun t ht => State.sramRead_keeps ht))
  · lift_lets
    intro x n s1
    have h1 : Keeps org s1 := State.sramRead_keeps hs
    clear_value s1
    exact Keeps.ite hs (Keeps.ite (State.ctxFault_keeps h1) (Keeps.ite (State.ctxFault_keeps h1)
      (State.complete_keeps h1 (heff _ _ _ _ h1))))

theorem State.waitComplete_keeps {org s : State} {q c : Nat} (hs : Keeps org s) : Keeps org (s.waitComplete q c) := by
  unfold State.waitComplete
  repeat' first
    | with_reducible assumption
    | (intro s1; refine (fun (hs1 : Keeps org s1) => ?_) ?_; clear_value s1)
    | (intro s1; clear_value s1)
    | (lift_lets; intro s1; refine (fun (hs1 : Keeps org s1) => ?_) ?_; clear_value s1)
    | (lift_lets; intro s1; clear_value s1)
    | with_reducible apply Keeps.ite
    | with_reducible apply State.endWait_keeps
    | with_reducible apply State.waitClears_keeps
    | split

theorem State.waitTimeout_keeps {org s : State} {q c : Nat} (hs : Keeps org s) : Keeps org (s.waitTimeout q c) := by
  unfold State.waitTimeout
  repeat' first
    | with_reducible assumption
    | (intro s1; refine (fun (hs1 : Keeps org s1) => ?_) ?_; clear_value s1)
    | (intro s1; clear_value s1)
    | (lift_lets; intro s1; refine (fun (hs1 : Keeps org s1) => ?_) ?_; clear_value s1)
    | (lift_lets; intro s1; clear_value s1)
    | with_reducible apply Keeps.ite
    | with_reducible apply State.endWait_keeps
    | with_reducible apply State.waitClears_keeps
    | split

theorem State.openPort_keeps {org s : State} {q n f : Nat} {p : Nat} (hs : Keeps org s) : Keeps org (s.openPort q n f p) := by
  unfold State.openPort
  repeat' first
    | with_reducible assumption
    | (intro t a ht; have hk : Keeps org t := ht; clear hk)
    | (intro t ht; have hk : Keeps org t := ht; clear hk)
    | (intro s1; refine (fun (hs1 : Keeps org s1) => ?_) ?_; clear_value s1)
    | (intro s1; clear_value s1)
    | (lift_lets; intro s1; refine (fun (hs1 : Keeps org s1) => ?_) ?_; clear_value s1)
    | (lift_lets; intro s1; clear_value s1)
    | with_reducible apply Keeps.when
    | with_reducible apply Keeps.ite
    | with_reducible apply State.modStr_keeps
    | with_reducible apply State.modRing_keeps
    | with_reducible apply State.modFp_keeps
    | with_reducible apply State.modKl_keeps
    | with_reducible apply State.postTo_keeps
    | with_reducible apply State.postUnit_keeps
    | with_reducible apply State.sendSync_keeps
    | with_reducible apply State.setEv_keeps
    | with_reducible apply State.readDone_keeps
    | simp only [s1]

theorem State.rebaseLost_keeps {org s : State} {c : Nat} (hs : Keeps org s) : Keeps org (s.rebaseLost c) := by
  unfold State.rebaseLost
  repeat' first
    | with_reducible assumption
    | (intro t a ht; have hk : Keeps org t := ht; clear hk)
    | (intro t ht; have hk : Keeps org t := ht; clear hk)
    | (intro s1; refine (fun (hs1 : Keeps org s1) => ?_) ?_; clear_value s1)
    | (intro s1; clear_value s1)
    | (lift_lets; intro s1; refine (fun (hs1 : Keeps org s1) => ?_) ?_; clear_value s1)
    | (lift_lets; intro s1; clear_value s1)
    | with_reducible apply Keeps.each
    | with_reducible apply State.postErr_keeps
    | split
    | with_reducible apply Keeps.mk

theorem State.openSwath_keeps {org s : State} {q c f : Nat} {p0 : Int} (hs : Keeps org s) : Keeps org (s.openSwath q c f p0) := by
  unfold State.openSwath
  repeat' first
    | with_reducible assumption
    | (intro t a ht; have hk : Keeps org t := ht; clear hk)
    | (intro t ht; have hk : Keeps org t := ht; clear hk)
    | (intro s1; refine (fun (hs1 : Keeps org s1) => ?_) ?_; clear_value s1)
    | (intro s1; clear_value s1)
    | (lift_lets; intro s1; refine (fun (hs1 : Keeps org s1) => ?_) ?_; clear_value s1)
    | (lift_lets; intro s1; clear_value s1)
    | with_reducible apply Keeps.each
    | with_reducible apply Keeps.ite
    | with_reducible apply State.modSeq_keeps
    | with_reducible apply State.modPlace_keeps
    | with_reducible apply State.postTo_keeps
    | with_reducible apply State.makeDoubt_keeps
    | with_reducible apply State.openPort_keeps
    | with_reducible apply State.rebaseLost_keeps
    | simp only [s1]

theorem stepNop_keeps {org s : State} {yq yc : Nat} {yx : Ctx} {yi : Ram} (hs : Keeps org s) : Effect.Keeps org (stepNop s yq yc yx yi) := by
  unfold stepNop
  repeat' first
    | with_reducible assumption
    | with_reducible apply Effect.keeps_next

theorem stepHalt_keeps {org s : State} {q c : Nat} {x : Ctx} {yi : Ram} (hs : Keeps org s) : Effect.Keeps org (stepHalt s q c x yi) := by
  unfold stepHalt
  repeat' first
    | with_reducible assumption
    | with_reducible apply Effect.keeps_hold
    | with_reducible apply Effect.keeps_final
    | with_reducible apply Effect.keeps_ite
    | with_reducible apply State.modCtx_keeps
    | with_reducible apply State.haltCtx_keeps
    | with_reducible apply State.closeSwath_keeps

theorem stepJmp_keeps {org s : State} {yq yc : Nat} {x : Ctx} {i : Ram} (hs : Keeps org s) : Effect.Keeps org (stepJmp s yq yc x i) := by
  unfold stepJmp
  repeat' first
    | with_reducible assumption
    | with_reducible apply Effect.keeps_jump

theorem stepBrc_keeps {org s : State} {yq yc : Nat} {x : Ctx} {i : Ram} (hs : Keeps org s) : Effect.Keeps org (stepBrc s yq yc x i) := by
  unfold stepBrc
  repeat' first
    | with_reducible assumption
    | with_reducible apply Effect.keeps_next
    | with_reducible apply Effect.keeps_jump
    | with_reducible apply Effect.keeps_ite

theorem stepCall_keeps {org s : State} {q c : Nat} {x : Ctx} {i : Ram} (hs : Keeps org s) : Effect.Keeps org (stepCall s q c x i) := by
  unfold stepCall
  repeat' first
    | with_reducible assumption
    | with_reducible apply Effect.keeps_fault
    | with_reducible apply Effect.keeps_jump
    | with_reducible apply Effect.keeps_ite
    | with_reducible apply State.modCtx_keeps

theorem stepRet_keeps {org s : State} {q c : Nat} {x : Ctx} {yi : Ram} (hs : Keeps org s) : Effect.Keeps org (stepRet s q c x yi) := by
  unfold stepRet
  split
  all_goals
  repeat' first
    | with_reducible assumption
    | with_reducible apply Effect.keeps_fault
    | with_reducible apply Effect.keeps_jump
    | with_reducible apply State.modCtx_keeps
    | split

theorem stepLoop_keeps {org s : State} {q c : Nat} {x : Ctx} {i : Ram} (hs : Keeps org s) : Effect.Keeps org (stepLoop s q c x i) := by
  unfold stepLoop
  repeat' first
    | with_reducible assumption
    | (intro s1; refine (fun (hs1 : Keeps org s1) => ?_) ?_; clear_value s1)
    | (intro s1; clear_value s1)
    | (lift_lets; intro s1; refine (fun (hs1 : Keeps org s1) => ?_) ?_; clear_value s1)
    | (lift_lets; intro s1; clear_value s1)
    | with_reducible apply Effect.keeps_next
    | with_reducible apply Effect.keeps_jump
    | with_reducible apply Effect.keeps_ite
    | with_reducible apply State.modCtx_keeps

theorem stepFence_keeps {org s : State} {yq yc : Nat} {x : Ctx} {i : Ram} (hs : Keeps org s) : Effect.Keeps org (stepFence s yq yc x i) := by
  unfold stepFence
  repeat' first
    | with_reducible assumption
    | with_reducible apply Effect.keeps_hold

theorem stepYield_keeps {org s : State} {q c : Nat} {x : Ctx} {yi : Ram} (hs : Keeps org s) : Effect.Keeps org (stepYield s q c x yi) := by
  unfold stepYield
  repeat' first
    | with_reducible assumption
    | with_reducible apply Effect.keeps_next
    | with_reducible apply Effect.keeps_final
    | with_reducible apply Effect.keeps_ite
    | with_reducible apply State.giveWay_keeps
    | with_reducible apply State.retire_keeps

theorem stepLdi_keeps {org s : State} {q c : Nat} {x : Ctx} {i : Ram} (hs : Keeps org s) : Effect.Keeps org (stepLdi s q c x i) := by
  unfold stepLdi
  repeat' first
    | with_reducible assumption
    | with_reducible apply Effect.keeps_next
    | with_reducible apply State.modCtx_keeps

theorem stepAdd_keeps {org s : State} {q c : Nat} {x : Ctx} {i : Ram} (hs : Keeps org s) : Effect.Keeps org (stepAdd s q c x i) := by
  unfold stepAdd
  repeat' first
    | with_reducible assumption
    | with_reducible apply Effect.keeps_next
    | with_reducible apply State.modCtx_keeps

theorem stepSub_keeps {org s : State} {q c : Nat} {x : Ctx} {i : Ram} (hs : Keeps org s) : Effect.Keeps org (stepSub s q c x i) := by
  unfold stepSub
  repeat' first
    | with_reducible assumption
    | with_reducible apply Effect.keeps_next
    | with_reducible apply State.modCtx_keeps

theorem stepAnd_keeps {org s : State} {q c : Nat} {x : Ctx} {i : Ram} (hs : Keeps org s) : Effect.Keeps org (stepAnd s q c x i) := by
  unfold stepAnd
  repeat' first
    | with_reducible assumption
    | with_reducible apply Effect.keeps_next
    | with_reducible apply State.modCtx_keeps

theorem stepOr_keeps {org s : State} {q c : Nat} {x : Ctx} {i : Ram} (hs : Keeps org s) : Effect.Keeps org (stepOr s q c x i) := by
  unfold stepOr
  repeat' first
    | with_reducible assumption
    | with_reducible apply Effect.keeps_next
    | with_reducible apply State.modCtx_keeps

theorem stepCmp_keeps {org s : State} {q c : Nat} {x : Ctx} {i : Ram} (hs : Keeps org s) : Effect.Keeps org (stepCmp s q c x i) := by
  unfold stepCmp
  repeat' first
    | with_reducible assumption
    | with_reducible apply Effect.keeps_next
    | with_reducible apply State.modCtx_keeps

theorem stepMov_keeps {org s : State} {q c : Nat} {x : Ctx} {i : Ram} (hs : Keeps org s) : Effect.Keeps org (stepMov s q c x i) := by
  unfold stepMov
  repeat' first
    | with_reducible assumption
    | with_reducible apply Effect.keeps_next
    | with_reducible apply State.modCtx_keeps

theorem stepLdst_keeps {org s : State} {q c : Nat} {x : Ctx} {i : Ram} (hs : Keeps org s) : Effect.Keeps org (stepLdst s q c x i) := by
  unfold stepLdst
  repeat' first
    | with_reducible assumption
    | (intro s1; refine (fun (hs1 : Keeps org s1) => ?_) ?_; clear_value s1)
    | (intro s1; clear_value s1)
    | (lift_lets; intro s1; refine (fun (hs1 : Keeps org s1) => ?_) ?_; clear_value s1)
    | (lift_lets; intro s1; clear_value s1)
    | with_reducible apply Effect.keeps_fault
    | with_reducible apply Effect.keeps_next
    | with_reducible apply Effect.keeps_ite
    | with_reducible apply State.modCtx_keeps

theorem stepLdt_keeps {org s : State} {q c : Nat} {yx : Ctx} {i : Ram} (hs : Keeps org s) : Effect.Keeps org (stepLdt s q c yx i) := by
  unfold stepLdt
  repeat' first
    | with_reducible assumption
    | with_reducible apply Effect.keeps_next
    | with_reducible apply State.modCtx_keeps

theorem stepLdpos_keeps {org s : State} {q c : Nat} {yx : Ctx} {i : Ram} (hs : Keeps org s) : Effect.Keeps org (stepLdpos s q c yx i) := by
  unfold stepLdpos
  repeat' first
    | with_reducible assumption
    | with_reducible apply Effect.keeps_next
    | with_reducible apply State.modCtx_keeps

theorem stepSwath_keeps {org s : State} {q c : Nat} {x : Ctx} {i : Ram} (hs : Keeps org s) : Effect.Keeps org (stepSwath s q c x i) := by
  unfold stepSwath
  repeat' first
    | with_reducible assumption
    | (intro s1; refine (fun (hs1 : Keeps org s1) => ?_) ?_; clear_value s1)
    | (intro s1; clear_value s1)
    | (lift_lets; intro s1; refine (fun (hs1 : Keeps org s1) => ?_) ?_; clear_value s1)
    | (lift_lets; intro s1; clear_value s1)
    | with_reducible apply Effect.keeps_fault
    | with_reducible apply Effect.keeps_next
    | with_reducible apply Effect.keeps_ite
    | with_reducible apply State.openSwath_keeps

theorem State.appendLn_keeps {org s : State} {q c n pat : Nat} {kind : LnKind} (hs : Keeps org s) : Effect.Keeps org (s.appendLn q c n pat kind) := by
  unfold State.appendLn
  repeat' first
    | with_reducible assumption
    | (intro s1; refine (fun (hs1 : Keeps org s1) => ?_) ?_; clear_value s1)
    | (intro s1; clear_value s1)
    | (lift_lets; intro s1; refine (fun (hs1 : Keeps org s1) => ?_) ?_; clear_value s1)
    | (lift_lets; intro s1; clear_value s1)
    | with_reducible apply Effect.keeps_fault
    | with_reducible apply Effect.keeps_next
    | with_reducible apply Effect.keeps_hold
    | with_reducible apply Effect.keeps_ite
    | with_reducible apply State.modSeq_keeps
    | with_reducible apply State.modCtx_keeps

theorem stepLines_keeps {org s : State} {q c : Nat} {x : Ctx} {i : Ram} (hs : Keeps org s) : Effect.Keeps org (stepLines s q c x i) := by
  unfold stepLines
  repeat' first
    | with_reducible assumption
    | with_reducible apply State.appendLn_keeps

theorem stepBlank_keeps {org s : State} {q c : Nat} {x : Ctx} {i : Ram} (hs : Keeps org s) : Effect.Keeps org (stepBlank s q c x i) := by
  unfold stepBlank
  repeat' first
    | with_reducible assumption
    | with_reducible apply State.appendLn_keeps

theorem stepSpit_keeps {org s : State} {q c : Nat} {x : Ctx} {i : Ram} (hs : Keeps org s) : Effect.Keeps org (stepSpit s q c x i) := by
  unfold stepSpit
  repeat' first
    | with_reducible assumption
    | with_reducible apply State.appendLn_keeps

theorem stepEndswath_keeps {org s : State} {q c : Nat} {yx : Ctx} {yi : Ram} (hs : Keeps org s) : Effect.Keeps org (stepEndswath s q c yx yi) := by
  unfold stepEndswath
  repeat' first
    | with_reducible assumption
    | with_reducible apply Effect.keeps_fault
    | with_reducible apply Effect.keeps_next
    | with_reducible apply Effect.keeps_hold
    | with_reducible apply Effect.keeps_ite
    | with_reducible apply State.modCtx_keeps
    | with_reducible apply State.closeSwath_keeps

theorem stepPitch_keeps {org s : State} {q yc : Nat} {x : Ctx} {i : Ram} (hs : Keeps org s) : Effect.Keeps org (stepPitch s q yc x i) := by
  unfold stepPitch
  repeat' first
    | with_reducible assumption
    | (intro s1; refine (fun (hs1 : Keeps org s1) => ?_) ?_; clear_value s1)
    | (intro s1; clear_value s1)
    | (lift_lets; intro s1; refine (fun (hs1 : Keeps org s1) => ?_) ?_; clear_value s1)
    | (lift_lets; intro s1; clear_value s1)
    | with_reducible apply Effect.keeps_fault
    | with_reducible apply Effect.keeps_next
    | with_reducible apply Effect.keeps_ite
    | with_reducible apply State.modSeq_keeps

theorem stepRowdly_keeps {org s : State} {q yc : Nat} {x : Ctx} {i : Ram} (hs : Keeps org s) : Effect.Keeps org (stepRowdly s q yc x i) := by
  unfold stepRowdly
  repeat' first
    | with_reducible assumption
    | (intro s1; refine (fun (hs1 : Keeps org s1) => ?_) ?_; clear_value s1)
    | (intro s1; clear_value s1)
    | (lift_lets; intro s1; refine (fun (hs1 : Keeps org s1) => ?_) ?_; clear_value s1)
    | (lift_lets; intro s1; clear_value s1)
    | with_reducible apply Effect.keeps_fault
    | with_reducible apply Effect.keeps_next
    | with_reducible apply Effect.keeps_ite
    | with_reducible apply State.modSeq_keeps

theorem stepEnergy_keeps {org s : State} {q yc : Nat} {x : Ctx} {i : Ram} (hs : Keeps org s) : Effect.Keeps org (stepEnergy s q yc x i) := by
  unfold stepEnergy
  repeat' first
    | with_reducible assumption
    | (intro s1; refine (fun (hs1 : Keeps org s1) => ?_) ?_; clear_value s1)
    | (intro s1; clear_value s1)
    | (lift_lets; intro s1; refine (fun (hs1 : Keeps org s1) => ?_) ?_; clear_value s1)
    | (lift_lets; intro s1; clear_value s1)
    | with_reducible apply Effect.keeps_fault
    | with_reducible apply Effect.keeps_next
    | with_reducible apply Effect.keeps_ite
    | with_reducible apply State.modSeq_keeps

theorem stepWaitpos_keeps {org s : State} {q yc : Nat} {x : Ctx} {i : Ram} (hs : Keeps org s) : Effect.Keeps org (stepWaitpos s q yc x i) := by
  unfold stepWaitpos
  repeat' first
    | with_reducible assumption
    | (intro s1; refine (fun (hs1 : Keeps org s1) => ?_) ?_; clear_value s1)
    | (intro s1; clear_value s1)
    | (lift_lets; intro s1; refine (fun (hs1 : Keeps org s1) => ?_) ?_; clear_value s1)
    | (lift_lets; intro s1; clear_value s1)
    | with_reducible apply Effect.keeps_hold
    | with_reducible apply Effect.keeps_ite
    | simp only [s1]

theorem stepWaittime_keeps {org s : State} {yq yc : Nat} {x : Ctx} {i : Ram} (hs : Keeps org s) : Effect.Keeps org (stepWaittime s yq yc x i) := by
  unfold stepWaittime
  repeat' first
    | with_reducible assumption
    | (intro s1; refine (fun (hs1 : Keeps org s1) => ?_) ?_; clear_value s1)
    | (intro s1; clear_value s1)
    | (lift_lets; intro s1; refine (fun (hs1 : Keeps org s1) => ?_) ?_; clear_value s1)
    | (lift_lets; intro s1; clear_value s1)
    | with_reducible apply Effect.keeps_hold
    | with_reducible apply Effect.keeps_ite
    | simp only [s1]

theorem stepWaitev_keeps {org s : State} {yq yc : Nat} {x : Ctx} {i : Ram} (hs : Keeps org s) : Effect.Keeps org (stepWaitev s yq yc x i) := by
  unfold stepWaitev
  repeat' first
    | with_reducible assumption
    | with_reducible apply Effect.keeps_hold

theorem stepWaitax_keeps {org s : State} {yq yc : Nat} {x : Ctx} {i : Ram} (hs : Keeps org s) : Effect.Keeps org (stepWaitax s yq yc x i) := by
  unfold stepWaitax
  repeat' first
    | with_reducible assumption
    | with_reducible apply Effect.keeps_fault
    | with_reducible apply Effect.keeps_hold
    | with_reducible apply Effect.keeps_ite

theorem stepSignal_keeps {org s : State} {q c : Nat} {x : Ctx} {i : Ram} (hs : Keeps org s) : Effect.Keeps org (stepSignal s q c x i) := by
  unfold stepSignal
  repeat' first
    | with_reducible assumption
    | (intro t a ht; have hk : Keeps org t := ht; clear hk)
    | (intro t ht; have hk : Keeps org t := ht; clear hk)
    | (intro s1; refine (fun (hs1 : Keeps org s1) => ?_) ?_; clear_value s1)
    | (intro s1; clear_value s1)
    | (lift_lets; intro s1; refine (fun (hs1 : Keeps org s1) => ?_) ?_; clear_value s1)
    | (lift_lets; intro s1; clear_value s1)
    | with_reducible apply Keeps.when
    | with_reducible apply Effect.keeps_fault
    | with_reducible apply Effect.keeps_next
    | with_reducible apply Effect.keeps_ite
    | with_reducible apply State.postTo_keeps
    | with_reducible apply State.after_keeps

theorem stepMark_keeps {org s : State} {q c : Nat} {x : Ctx} {i : Ram} (hs : Keeps org s) : Effect.Keeps org (stepMark s q c x i) := by
  unfold stepMark
  repeat' first
    | with_reducible assumption
    | (intro s1; refine (fun (hs1 : Keeps org s1) => ?_) ?_; clear_value s1)
    | (intro s1; clear_value s1)
    | (lift_lets; intro s1; refine (fun (hs1 : Keeps org s1) => ?_) ?_; clear_value s1)
    | (lift_lets; intro s1; clear_value s1)
    | with_reducible apply Effect.keeps_next
    | with_reducible apply Effect.keeps_ite
    | with_reducible apply State.postTo_keeps
    | simp only [s1]

theorem stepCommit_keeps {org s : State} {q c : Nat} {x : Ctx} {i : Ram} (hs : Keeps org s) : Effect.Keeps org (stepCommit s q c x i) := by
  unfold stepCommit
  repeat' first
    | with_reducible assumption
    | (intro s1; refine (fun (hs1 : Keeps org s1) => ?_) ?_; clear_value s1)
    | (intro s1; refine (fun (hs1 : Keeps org s1.1) => ?_) ?_; clear_value s1)
    | (intro s1; clear_value s1)
    | (lift_lets; intro s1; refine (fun (hs1 : Keeps org s1) => ?_) ?_; clear_value s1)
    | (lift_lets; intro s1; refine (fun (hs1 : Keeps org s1.1) => ?_) ?_; clear_value s1)
    | (lift_lets; intro s1; clear_value s1)
    | with_reducible apply Effect.keeps_fault
    | with_reducible apply Effect.keeps_next
    | with_reducible apply Effect.keeps_ite
    | with_reducible apply State.modCtx_keeps
    | with_reducible apply State.commitProgram_keeps

theorem State.ramCommit_keeps {org s : State} {q : Nat} (hs : Keeps org s) : Keeps org (s.ramCommit q) := by
  unfold State.ramCommit
  exact State.ramest_keeps hs (fun _ _ _ _ h => stepCommit_keeps h)

theorem State.wrSignal_keeps {org s : State} {n q : Nat} {v : Word} (hs : Keeps org s) : Keeps org (s.wrSignal n q v).1 := by
  unfold State.wrSignal
  repeat' first
    | with_reducible assumption
    | (intro t a ht; have hk : Keeps org t := ht; clear hk)
    | (intro t ht; have hk : Keeps org t := ht; clear hk)
    | with_reducible apply Keeps.ite_fst
    | with_reducible apply Keeps.ite
    | with_reducible apply State.setEv_keeps
    | with_reducible apply State.ifRight_keeps
    | split

theorem State.wrGsignal_keeps {org s : State} {n : Nat} {v : Word} (hs : Keeps org s) : Keeps org (s.wrGsignal n v).1 := by
  unfold State.wrGsignal
  repeat' first
    | with_reducible assumption
    | (intro t a ht; have hk : Keeps org t := ht; clear hk)
    | (intro t ht; have hk : Keeps org t := ht; clear hk)
    | with_reducible apply Keeps.each
    | with_reducible apply Keeps.ite_fst
    | with_reducible apply Keeps.ite
    | with_reducible apply State.setEv_keeps
    | with_reducible apply State.ifRight_keeps
    | split

theorem State.wrEvbits_keeps {org s : State} {n q : Nat} {v : Word} (hs : Keeps org s) : Keeps org (s.wrEvbits n q v).1 := by
  unfold State.wrEvbits
  repeat' first
    | with_reducible assumption
    | (intro t a ht; have hk : Keeps org t := ht; clear hk)
    | (intro t ht; have hk : Keeps org t := ht; clear hk)
    | (intro s1; refine (fun (hs1 : Keeps org s1) => ?_) ?_; clear_value s1)
    | (intro s1; clear_value s1)
    | (lift_lets; intro s1; refine (fun (hs1 : Keeps org s1) => ?_) ?_; clear_value s1)
    | (lift_lets; intro s1; clear_value s1)
    | with_reducible apply Keeps.ite_fst
    | with_reducible apply Keeps.ite
    | with_reducible apply State.modSeq_keeps
    | with_reducible apply State.ifRight_keeps
    | simp only [s1]
    | split

theorem State.drive_keeps {org s : State} {q c a : Nat} {x : Ctx} {op : MotOp} (hs : Keeps org s) : Effect.Keeps org (s.drive q c a x op) := by
  unfold State.drive
  repeat' first
    | with_reducible assumption
    | (intro s1; refine (fun (hs1 : Keeps org s1) => ?_) ?_; clear_value s1)
    | (intro s1; refine (fun (hs1 : Keeps org s1.1) => ?_) ?_; clear_value s1)
    | (intro s1; clear_value s1)
    | (lift_lets; intro s1; refine (fun (hs1 : Keeps org s1) => ?_) ?_; clear_value s1)
    | (lift_lets; intro s1; refine (fun (hs1 : Keeps org s1.1) => ?_) ?_; clear_value s1)
    | (lift_lets; intro s1; clear_value s1)
    | with_reducible apply Effect.keeps_fault
    | with_reducible apply Effect.keeps_next
    | with_reducible apply Effect.keeps_ite
    | with_reducible apply State.modSeq_keeps
    | with_reducible apply State.modCtx_keeps
    | with_reducible apply State.motion_keeps

theorem stepMove_keeps {org s : State} {q c : Nat} {x : Ctx} {i : Ram} (hs : Keeps org s) : Effect.Keeps org (stepMove s q c x i) := by
  unfold stepMove
  repeat' first
    | with_reducible assumption
    | (intro s1; refine (fun (hs1 : Keeps org s1) => ?_) ?_; clear_value s1)
    | (intro s1; clear_value s1)
    | (lift_lets; intro s1; refine (fun (hs1 : Keeps org s1) => ?_) ?_; clear_value s1)
    | (lift_lets; intro s1; clear_value s1)
    | with_reducible apply Effect.keeps_fault
    | with_reducible apply Effect.keeps_ite
    | with_reducible apply State.drive_keeps

theorem stepVel_keeps {org s : State} {q c : Nat} {x : Ctx} {i : Ram} (hs : Keeps org s) : Effect.Keeps org (stepVel s q c x i) := by
  unfold stepVel
  repeat' first
    | with_reducible assumption
    | (intro s1; refine (fun (hs1 : Keeps org s1) => ?_) ?_; clear_value s1)
    | (intro s1; clear_value s1)
    | (lift_lets; intro s1; refine (fun (hs1 : Keeps org s1) => ?_) ?_; clear_value s1)
    | (lift_lets; intro s1; clear_value s1)
    | with_reducible apply Effect.keeps_fault
    | with_reducible apply Effect.keeps_ite
    | with_reducible apply State.drive_keeps

theorem stepAcc_keeps {org s : State} {q c : Nat} {x : Ctx} {i : Ram} (hs : Keeps org s) : Effect.Keeps org (stepAcc s q c x i) := by
  unfold stepAcc
  repeat' first
    | with_reducible assumption
    | (intro s1; refine (fun (hs1 : Keeps org s1) => ?_) ?_; clear_value s1)
    | (intro s1; clear_value s1)
    | (lift_lets; intro s1; refine (fun (hs1 : Keeps org s1) => ?_) ?_; clear_value s1)
    | (lift_lets; intro s1; clear_value s1)
    | with_reducible apply Effect.keeps_fault
    | with_reducible apply Effect.keeps_ite
    | with_reducible apply State.drive_keeps

theorem stepStop_keeps {org s : State} {q c : Nat} {x : Ctx} {i : Ram} (hs : Keeps org s) : Effect.Keeps org (stepStop s q c x i) := by
  unfold stepStop
  repeat' first
    | with_reducible assumption
    | with_reducible apply State.drive_keeps

theorem stepHome_keeps {org s : State} {q c : Nat} {x : Ctx} {i : Ram} (hs : Keeps org s) : Effect.Keeps org (stepHome s q c x i) := by
  unfold stepHome
  repeat' first
    | with_reducible assumption
    | with_reducible apply State.drive_keeps

theorem stepCamtrig_keeps {org s : State} {q c : Nat} {x : Ctx} {i : Ram} (hs : Keeps org s) : Effect.Keeps org (stepCamtrig s q c x i) := by
  unfold stepCamtrig
  repeat' first
    | with_reducible assumption
    | (intro t a ht; have hk : Keeps org t := ht; clear hk)
    | (intro t ht; have hk : Keeps org t := ht; clear hk)
    | (intro t a ht; have hk : Keeps org t.1 := ht; clear hk)
    | (intro s1; refine (fun (hs1 : Keeps org s1) => ?_) ?_; clear_value s1)
    | (intro s1; refine (fun (hs1 : Keeps org s1.1) => ?_) ?_; clear_value s1)
    | (intro s1; clear_value s1)
    | (lift_lets; intro s1; refine (fun (hs1 : Keeps org s1) => ?_) ?_; clear_value s1)
    | (lift_lets; intro s1; refine (fun (hs1 : Keeps org s1.1) => ?_) ?_; clear_value s1)
    | (lift_lets; intro s1; clear_value s1)
    | intro _
    | with_reducible apply Keeps.when
    | with_reducible apply Keeps.each
    | with_reducible apply Keeps.ite
    | with_reducible apply Effect.keeps_fault
    | with_reducible apply Effect.keeps_next
    | with_reducible apply Effect.keeps_jump
    | with_reducible apply Effect.keeps_hold
    | with_reducible apply Effect.keeps_final
    | with_reducible apply Effect.keeps_ite
    | with_reducible apply Keeps.foldl
    | with_reducible apply Keeps.foldl_fst
    | with_reducible apply State.modCtx_keeps
    | with_reducible apply State.camPost_keeps
    | with_reducible apply State.trigAccept_keeps
    | simp only [s1]
    | split
    | (refine Keeps.ofEq (by assumption) ?_)

theorem stepCamset_keeps {org s : State} {q c : Nat} {x : Ctx} {i : Ram} (hs : Keeps org s) : Effect.Keeps org (stepCamset s q c x i) := by
  unfold stepCamset
  repeat' first
    | with_reducible assumption
    | (intro s1; refine (fun (hs1 : Keeps org s1) => ?_) ?_; clear_value s1)
    | (intro s1; clear_value s1)
    | (lift_lets; intro s1; refine (fun (hs1 : Keeps org s1) => ?_) ?_; clear_value s1)
    | (lift_lets; intro s1; clear_value s1)
    | with_reducible apply Effect.keeps_fault
    | with_reducible apply Effect.keeps_next
    | with_reducible apply Effect.keeps_ite
    | with_reducible apply State.modCtx_keeps
    | with_reducible apply State.camPost_keeps
    | with_reducible apply State.setAccept_keeps

end Sys2Proof.Machine
end

