-- ==== Sys2Proof/Laws/KeepSession.lean ====
section
/-! SUPPORT. What the operations keep: the messages, sessions and claims. -/
set_option maxRecDepth 2000
namespace Sys2Proof.Machine
open Sys2Proof

theorem State.camCut_keeps {org s : State} {c : Nat} {cs : List (Nat × Nat)} {all : Bool} (hs : Keeps org s) : Keeps org (s.camCut c cs all) := by
  unfold State.camCut
  repeat' first
    | with_reducible assumption
    | (intro s1; refine (fun (hs1 : Keeps org s1) => ?_) ?_; clear_value s1)
    | (intro s1; clear_value s1)
    | (lift_lets; intro s1; refine (fun (hs1 : Keeps org s1) => ?_) ?_; clear_value s1)
    | (lift_lets; intro s1; clear_value s1)
    | with_reducible apply Keeps.ite
    | with_reducible apply State.modCam_keeps
    | split

theorem State.calCut_keeps {org s : State} {n : Nat} {whole : Bool} {units : List Nat} (hs : Keeps org s) : Keeps org (s.calCut n whole units) := by
  unfold State.calCut
  repeat' first
    | with_reducible assumption
    | (intro s1; refine (fun (hs1 : Keeps org s1) => ?_) ?_; clear_value s1)
    | (intro s1; clear_value s1)
    | (lift_lets; intro s1; refine (fun (hs1 : Keeps org s1) => ?_) ?_; clear_value s1)
    | (lift_lets; intro s1; clear_value s1)
    | with_reducible apply Keeps.ite
    | simp only [s1]
    | with_reducible apply Keeps.mk

theorem State.quarantine_keeps {org s : State} {n : Nat} {units : List Nat} {whole : Bool} (hs : Keeps org s) : Keeps org (s.quarantine n units whole) := by
  unfold State.quarantine
  repeat' first
    | with_reducible assumption
    | (intro t a ht; have hk : Keeps org t := ht; clear hk)
    | (intro t ht; have hk : Keeps org t := ht; clear hk)
    | (intro s1; refine (fun (hs1 : Keeps org s1) => ?_) ?_; clear_value s1)
    | (intro s1; clear_value s1)
    | (lift_lets; intro s1; refine (fun (hs1 : Keeps org s1) => ?_) ?_; clear_value s1)
    | (lift_lets; intro s1; clear_value s1)
    | with_reducible apply Keeps.each
    | with_reducible apply Keeps.ite
    | with_reducible apply State.after_keeps
    | with_reducible apply State.motion_keeps
    | with_reducible apply State.flush_keeps
    | with_reducible apply State.strCancel_keeps
    | with_reducible apply State.camCut_keeps
    | with_reducible apply State.calCut_keeps

theorem State.drain_keeps {org s : State} {n : Nat} {units : List Nat} {whole : Bool} (hs : Keeps org s) : Keeps org (s.drain n units whole) := by
  unfold State.drain
  repeat' first
    | with_reducible assumption
    | (intro t a ht; have hk : Keeps org t := ht; clear hk)
    | (intro t ht; have hk : Keeps org t := ht; clear hk)
    | (intro s1; refine (fun (hs1 : Keeps org s1) => ?_) ?_; clear_value s1)
    | (intro s1; clear_value s1)
    | (lift_lets; intro s1; refine (fun (hs1 : Keeps org s1) => ?_) ?_; clear_value s1)
    | (lift_lets; intro s1; clear_value s1)
    | with_reducible apply Keeps.when
    | with_reducible apply Keeps.each
    | with_reducible apply State.modStr_keeps
    | with_reducible apply State.modCam_keeps
    | with_reducible apply State.modXlt_keeps
    | with_reducible apply State.sendDrop_keeps
    | with_reducible apply State.tlbDrop_keeps
    | with_reducible apply State.ringFlushTo_keeps

theorem State.drainIf_keeps {org s : State} {n : Nat} (hs : Keeps org s) : Keeps org (s.drainIf n) := by
  unfold State.drainIf
  repeat' first
    | with_reducible assumption
    | (intro t a ht; have hk : Keeps org t := ht; clear hk)
    | (intro t ht; have hk : Keeps org t := ht; clear hk)
    | (intro s1; refine (fun (hs1 : Keeps org s1) => ?_) ?_; clear_value s1)
    | (intro s1; clear_value s1)
    | (lift_lets; intro s1; refine (fun (hs1 : Keeps org s1) => ?_) ?_; clear_value s1)
    | (lift_lets; intro s1; clear_value s1)
    | with_reducible apply Keeps.each
    | with_reducible apply Keeps.ite
    | with_reducible apply State.modSess_keeps
    | with_reducible apply State.modMgt_keeps
    | with_reducible apply State.drain_keeps
    | simp only [s1]
    | split

theorem State.kennelEnter_keeps {org s : State} {n : Nat} (hs : Keeps org s) : Keeps org (s.kennelEnter n) := by
  unfold State.kennelEnter
  repeat' first
    | with_reducible assumption
    | (intro s1; refine (fun (hs1 : Keeps org s1) => ?_) ?_; clear_value s1)
    | (intro s1; clear_value s1)
    | (lift_lets; intro s1; refine (fun (hs1 : Keeps org s1) => ?_) ?_; clear_value s1)
    | (lift_lets; intro s1; clear_value s1)
    | with_reducible apply Keeps.ite
    | with_reducible apply State.modSess_keeps
    | with_reducible apply State.modXlt_keeps
    | with_reducible apply State.quarantine_keeps

theorem State.unitRevoke_keeps {org s : State} {u : Nat} (hs : Keeps org s) : Keeps org (s.unitRevoke u) := by
  unfold State.unitRevoke
  split
  all_goals
  repeat' first
    | with_reducible assumption
    | (intro s1; refine (fun (hs1 : Keeps org s1) => ?_) ?_; clear_value s1)
    | (intro s1; clear_value s1)
    | (lift_lets; intro s1; refine (fun (hs1 : Keeps org s1) => ?_) ?_; clear_value s1)
    | (lift_lets; intro s1; clear_value s1)
    | with_reducible apply State.modMgt_keeps
    | with_reducible apply State.quarantine_keeps
    | split

theorem State.dmaCut_keeps {org s : State} {n : Nat} {units : List Nat} {whole : Bool} (hs : Keeps org s) : Keeps org (s.dmaCut n units whole) := by
  unfold State.dmaCut
  repeat' first
    | with_reducible assumption
    | (intro t a ht; have hk : Keeps org t := ht; clear hk)
    | (intro t ht; have hk : Keeps org t := ht; clear hk)
    | (intro s1; refine (fun (hs1 : Keeps org s1) => ?_) ?_; clear_value s1)
    | (intro s1; clear_value s1)
    | (lift_lets; intro s1; refine (fun (hs1 : Keeps org s1) => ?_) ?_; clear_value s1)
    | (lift_lets; intro s1; clear_value s1)
    | with_reducible apply Keeps.when
    | with_reducible apply Keeps.each
    | with_reducible apply State.modStr_keeps
    | with_reducible apply State.modXlt_keeps
    | with_reducible apply State.postSteward_keeps
    | split

theorem State.kennelCutoff_keeps {org s : State} {n : Nat} (hs : Keeps org s) : Keeps org (s.kennelCutoff n) := by
  unfold State.kennelCutoff
  repeat' first
    | with_reducible assumption
    | (intro t a ht; have hk : Keeps org t := ht; clear hk)
    | (intro t ht; have hk : Keeps org t := ht; clear hk)
    | (intro s1; refine (fun (hs1 : Keeps org s1) => ?_) ?_; clear_value s1)
    | (intro s1; clear_value s1)
    | (lift_lets; intro s1; refine (fun (hs1 : Keeps org s1) => ?_) ?_; clear_value s1)
    | (lift_lets; intro s1; clear_value s1)
    | with_reducible apply Keeps.each
    | with_reducible apply Keeps.ite
    | with_reducible apply State.drainIf_keeps
    | with_reducible apply State.dmaCut_keeps
    | simp only [s1]
    | split

theorem State.releasePorts_keeps {org s : State} {ports : List Nat} (hs : Keeps org s) : Keeps org (s.releasePorts ports) := by
  unfold State.releasePorts
  repeat' first
    | with_reducible assumption
    | (intro t a ht; have hk : Keeps org t := ht; clear hk)
    | (intro t ht; have hk : Keeps org t := ht; clear hk)
    | (intro s1; refine (fun (hs1 : Keeps org s1) => ?_) ?_; clear_value s1)
    | (intro s1; clear_value s1)
    | (lift_lets; intro s1; refine (fun (hs1 : Keeps org s1) => ?_) ?_; clear_value s1)
    | (lift_lets; intro s1; clear_value s1)
    | with_reducible apply Keeps.each
    | with_reducible apply Keeps.ite
    | with_reducible apply State.modFp_keeps
    | with_reducible apply State.pushAgain_keeps
    | with_reducible apply State.goLive_keeps

theorem State.freePages_keeps {org s : State} {pages : List Nat} (hs : Keeps org s) : Keeps org (s.freePages pages) := by
  unfold State.freePages
  repeat' first
    | with_reducible assumption
    | (intro t a ht; have hk : Keeps org t := ht; clear hk)
    | (intro t ht; have hk : Keeps org t := ht; clear hk)
    | (intro s1; refine (fun (hs1 : Keeps org s1) => ?_) ?_; clear_value s1)
    | (intro s1; refine (fun (hs1 : Keeps org s1.1) => ?_) ?_; clear_value s1)
    | (intro s1; clear_value s1)
    | (lift_lets; intro s1; refine (fun (hs1 : Keeps org s1) => ?_) ?_; clear_value s1)
    | (lift_lets; intro s1; refine (fun (hs1 : Keeps org s1.1) => ?_) ?_; clear_value s1)
    | (lift_lets; intro s1; clear_value s1)
    | with_reducible apply Keeps.each
    | with_reducible apply State.modMem_keeps
    | with_reducible apply State.retirePage_keeps

theorem State.sessionEcc_keeps {org s : State} {n : Nat} (hs : Keeps org s) : Keeps org (s.sessionEcc n) := by
  unfold State.sessionEcc
  repeat' first
    | with_reducible assumption
    | with_reducible apply State.modMem_keeps
    | with_reducible apply State.sramUeHit_keeps
    | with_reducible apply State.kennelEnter_keeps

theorem State.kennelRelease_keeps {org s : State} {n : Nat} (hs : Keeps org s) : Keeps org (s.kennelRelease n) := by
  unfold State.kennelRelease
  repeat' first
    | with_reducible assumption
    | (intro t a ht; have hk : Keeps org t := ht; clear hk)
    | (intro t ht; have hk : Keeps org t := ht; clear hk)
    | (intro s1; refine (fun (hs1 : Keeps org s1) => ?_) ?_; clear_value s1)
    | (intro s1; clear_value s1)
    | (lift_lets; intro s1; refine (fun (hs1 : Keeps org s1) => ?_) ?_; clear_value s1)
    | (lift_lets; intro s1; clear_value s1)
    | with_reducible apply Keeps.each
    | with_reducible apply Keeps.ite
    | with_reducible apply State.modSess_keeps
    | with_reducible apply State.modMgt_keeps
    | with_reducible apply State.postSteward_keeps
    | with_reducible apply State.drainIf_keeps
    | with_reducible apply State.releasePorts_keeps
    | with_reducible apply State.freePages_keeps
    | simp only [s1]
    | split

theorem State.perst_keeps {org s : State} {f : Nat} (hs : Keeps org s) : Keeps org (s.perst f) := by
  unfold State.perst
  repeat' first
    | with_reducible assumption
    | (intro t a ht; have hk : Keeps org t := ht; clear hk)
    | (intro t ht; have hk : Keeps org t := ht; clear hk)
    | (intro s1; refine (fun (hs1 : Keeps org s1) => ?_) ?_; clear_value s1)
    | (intro s1; clear_value s1)
    | (lift_lets; intro s1; refine (fun (hs1 : Keeps org s1) => ?_) ?_; clear_value s1)
    | (lift_lets; intro s1; clear_value s1)
    | with_reducible apply Keeps.each
    | with_reducible apply State.kennelEnter_keeps
    | with_reducible apply Keeps.mk

theorem State.netChange_keeps {org s : State} {q : Nat} (hs : Keeps org s) : Keeps org (s.netChange q) := by
  unfold State.netChange
  repeat' first
    | with_reducible assumption
    | (intro t a ht; have hk : Keeps org t := ht; clear hk)
    | (intro t ht; have hk : Keeps org t := ht; clear hk)
    | (intro s1; refine (fun (hs1 : Keeps org s1) => ?_) ?_; clear_value s1)
    | (intro s1; clear_value s1)
    | (lift_lets; intro s1; refine (fun (hs1 : Keeps org s1) => ?_) ?_; clear_value s1)
    | (lift_lets; intro s1; clear_value s1)
    | with_reducible apply Keeps.each
    | with_reducible apply Keeps.ite
    | with_reducible apply State.kennelEnter_keeps
    | split
    | with_reducible apply Keeps.mk

theorem State.reply_keeps {org s : State} {n op : Nat} {m : Msg} {status : Nat} {payload : List Byte} {keep : Bool} (hs : Keeps org s) : Keeps org (s.reply n op m status payload keep) := by
  unfold State.reply
  repeat' first
    | with_reducible assumption
    | (intro t a ht; have hk : Keeps org t := ht; clear hk)
    | (intro t ht; have hk : Keeps org t := ht; clear hk)
    | (intro s1; refine (fun (hs1 : Keeps org s1) => ?_) ?_; clear_value s1)
    | (intro s1; clear_value s1)
    | (lift_lets; intro s1; refine (fun (hs1 : Keeps org s1) => ?_) ?_; clear_value s1)
    | (lift_lets; intro s1; clear_value s1)
    | with_reducible apply Keeps.when
    | with_reducible apply Keeps.ite
    | with_reducible apply State.modSess_keeps
    | with_reducible apply State.emit_keeps
    | with_reducible apply State.raiseSess_keeps
    | split

theorem State.badTag_keeps {org s : State} {n : Nat} (hs : Keeps org s) : Keeps org (s.badTag n) := by
  unfold State.badTag
  repeat' first
    | with_reducible assumption
    | (intro s1; refine (fun (hs1 : Keeps org s1) => ?_) ?_; clear_value s1)
    | (intro s1; clear_value s1)
    | (lift_lets; intro s1; refine (fun (hs1 : Keeps org s1) => ?_) ?_; clear_value s1)
    | (lift_lets; intro s1; clear_value s1)
    | with_reducible apply Keeps.ite
    | with_reducible apply State.modSess_keeps
    | with_reducible apply State.postErr_keeps
    | with_reducible apply State.kennelEnter_keeps

theorem State.authStep_keeps {org s : State} {n op : Nat} {m : Msg} (hs : Keeps org s) : Keeps org (s.authStep n op m).1 := by
  unfold State.authStep
  repeat' first
    | with_reducible assumption
    | (intro s1; refine (fun (hs1 : Keeps org s1) => ?_) ?_; clear_value s1)
    | (intro s1; clear_value s1)
    | (lift_lets; intro s1; refine (fun (hs1 : Keeps org s1) => ?_) ?_; clear_value s1)
    | (lift_lets; intro s1; clear_value s1)
    | with_reducible apply Keeps.ite_fst
    | with_reducible apply Keeps.ite
    | with_reducible apply State.modSess_keeps
    | with_reducible apply State.refuse_keeps
    | with_reducible apply State.badTag_keeps
    | split
    | (refine Keeps.ofEq (by assumption) ?_)

theorem State.checkMsg_keeps {org s : State} {n op : Nat} {m : Msg} {form : Bool} (hs : Keeps org s) : Keeps org (s.checkMsg n op m form).1 := by
  unfold State.checkMsg
  repeat' first
    | with_reducible assumption
    | (intro s1; refine (fun (hs1 : Keeps org s1) => ?_) ?_; clear_value s1)
    | (intro s1; refine (fun (hs1 : Keeps org s1.1) => ?_) ?_; clear_value s1)
    | (intro s1; clear_value s1)
    | (lift_lets; intro s1; refine (fun (hs1 : Keeps org s1) => ?_) ?_; clear_value s1)
    | (lift_lets; intro s1; refine (fun (hs1 : Keeps org s1.1) => ?_) ?_; clear_value s1)
    | (lift_lets; intro s1; clear_value s1)
    | with_reducible apply Keeps.ite_fst
    | with_reducible apply Keeps.ite
    | with_reducible apply State.modSess_keeps
    | with_reducible apply State.refuse_keeps
    | with_reducible apply State.authStep_keeps
    | split
    | (refine Keeps.ofEq (by assumption) ?_)

theorem State.say_keeps {org s : State} {status : Nat} (hs : Keeps org s) : Keeps org (s.say status).1 := by
  unfold State.say
  repeat' first
    | with_reducible assumption
    | (refine Keeps.ofEq (by assumption) ?_)

theorem State.mgmtWrites_keeps {org s : State} {n : Nat} (hs : Keeps org s) : Keeps org (s.mgmtWrites n) := by
  unfold State.mgmtWrites
  repeat' first
    | with_reducible assumption
    | (intro s1; refine (fun (hs1 : Keeps org s1) => ?_) ?_; clear_value s1)
    | (intro s1; refine (fun (hs1 : Keeps org s1.1) => ?_) ?_; clear_value s1)
    | (intro s1; clear_value s1)
    | (lift_lets; intro s1; refine (fun (hs1 : Keeps org s1) => ?_) ?_; clear_value s1)
    | (lift_lets; intro s1; refine (fun (hs1 : Keeps org s1.1) => ?_) ?_; clear_value s1)
    | (lift_lets; intro s1; clear_value s1)
    | with_reducible apply Keeps.ite
    | with_reducible apply State.modMem_keeps
    | with_reducible apply State.modSafe_keeps
    | with_reducible apply State.sramUeHit_keeps
    | with_reducible apply State.sramWrite_keeps
    | with_reducible apply State.sramRead_keeps
    | simp only [s1]

theorem State.decideMsg_keeps {org s : State} {n op : Nat} {m : Msg} {form : Bool} {act : State → Nat → Answer} (hs : Keeps org s) (hact : ∀ t a0, Keeps org t → Keeps org (act t a0).1) : Keeps org (s.decideMsg n op m form act) := by
  unfold State.decideMsg
  repeat' first
    | with_reducible assumption
    | (intro t a ht; have hk : Keeps org t := ht; clear hk)
    | (intro t ht; have hk : Keeps org t := ht; clear hk)
    | (intro s1; refine (fun (hs1 : Keeps org s1) => ?_) ?_; clear_value s1)
    | (intro s1; refine (fun (hs1 : Keeps org s1.1) => ?_) ?_; clear_value s1)
    | (intro s1; clear_value s1)
    | (lift_lets; intro s1; refine (fun (hs1 : Keeps org s1) => ?_) ?_; clear_value s1)
    | (lift_lets; intro s1; refine (fun (hs1 : Keeps org s1.1) => ?_) ?_; clear_value s1)
    | (lift_lets; intro s1; clear_value s1)
    | with_reducible apply Keeps.when
    | with_reducible apply Keeps.ite
    | with_reducible apply hact
    | with_reducible apply State.modSess_keeps
    | with_reducible apply State.modXlt_keeps
    | with_reducible apply State.emit_keeps
    | with_reducible apply State.refuse_keeps
    | with_reducible apply State.sessionEcc_keeps
    | with_reducible apply State.reply_keeps
    | with_reducible apply State.checkMsg_keeps
    | with_reducible apply State.mgmtWrites_keeps
    | split
    | (refine Keeps.ofEq (by assumption) ?_)

theorem State.overrun_keeps {org s : State} {n : Nat} (hs : Keeps org s) : Keeps org (s.overrun n) := by
  unfold State.overrun
  repeat' first
    | with_reducible assumption
    | with_reducible apply State.postErr_keeps

theorem State.noSession_keeps {org s : State} {op : Nat} {m : Msg} (hs : Keeps org s) : Keeps org (s.noSession op m) := by
  unfold State.noSession
  repeat' first
    | with_reducible assumption
    | (intro s1; refine (fun (hs1 : Keeps org s1) => ?_) ?_; clear_value s1)
    | (intro s1; clear_value s1)
    | (lift_lets; intro s1; refine (fun (hs1 : Keeps org s1) => ?_) ?_; clear_value s1)
    | (lift_lets; intro s1; clear_value s1)
    | with_reducible apply State.modXlt_keeps
    | with_reducible apply State.emit_keeps
    | split

theorem State.netDrop_keeps {org s : State} (hs : Keeps org s) : Keeps org (s.netDrop) := by
  unfold State.netDrop
  repeat' first
    | with_reducible assumption
    | with_reducible apply State.modXlt_keeps

theorem State.holdMsg_keeps {org s : State} {n op sub : Nat} {m : Msg} (hs : Keeps org s) : Keeps org (s.holdMsg n op sub m) := by
  unfold State.holdMsg
  repeat' first
    | with_reducible assumption
    | with_reducible apply Keeps.ite
    | with_reducible apply State.modSess_keeps
    | with_reducible apply State.modXlt_keeps

theorem State.takeMsg_keeps {org s : State} {n op sub : Nat} {m : Msg} {act : State → Nat → Answer} (hs : Keeps org s) (hact : ∀ t a0, Keeps org t → Keeps org (act t a0).1) : Keeps org (s.takeMsg n op sub m act) := by
  unfold State.takeMsg
  repeat' first
    | with_reducible assumption
    | (intro t a ht; have hk : Keeps org t := ht; clear hk)
    | (intro t ht; have hk : Keeps org t := ht; clear hk)
    | with_reducible apply Keeps.ite
    | with_reducible apply hact
    | with_reducible apply State.decideMsg_keeps
    | with_reducible apply State.holdMsg_keeps

theorem State.command_keeps {org s : State} {op : Nat} {m : Msg} {sub : Nat} {act : State → Nat → Answer} (hs : Keeps org s) (hact : ∀ t a0, Keeps org t → Keeps org (act t a0).1) : Keeps org (s.command op m sub act) := by
  unfold State.command
  repeat' first
    | with_reducible assumption
    | (intro t a ht; have hk : Keeps org t := ht; clear hk)
    | (intro t ht; have hk : Keeps org t := ht; clear hk)
    | (intro s1; refine (fun (hs1 : Keeps org s1) => ?_) ?_; clear_value s1)
    | (intro s1; clear_value s1)
    | (lift_lets; intro s1; refine (fun (hs1 : Keeps org s1) => ?_) ?_; clear_value s1)
    | (lift_lets; intro s1; clear_value s1)
    | with_reducible apply Keeps.ite
    | with_reducible apply hact
    | with_reducible apply State.overrun_keeps
    | with_reducible apply State.noSession_keeps
    | with_reducible apply State.netDrop_keeps
    | with_reducible apply State.takeMsg_keeps
    | split

theorem State.openSession_keeps {org s : State} {m : Msg} (hs : Keeps org s) : Keeps org (s.openSession m).1 := by
  unfold State.openSession
  repeat' first
    | with_reducible assumption
    | (intro t a ht; have hk : Keeps org t := ht; clear hk)
    | (intro t ht; have hk : Keeps org t := ht; clear hk)
    | (intro s1; refine (fun (hs1 : Keeps org s1) => ?_) ?_; clear_value s1)
    | (intro s1; clear_value s1)
    | (lift_lets; intro s1; refine (fun (hs1 : Keeps org s1) => ?_) ?_; clear_value s1)
    | (lift_lets; intro s1; clear_value s1)
    | with_reducible apply Keeps.when
    | with_reducible apply Keeps.ite_fst
    | with_reducible apply Keeps.ite
    | with_reducible apply State.modXlt_keeps
    | simp only [s1]
    | split
    | (refine Keeps.ofEq (by assumption) ?_)
    | with_reducible apply Keeps.mk

theorem State.decideOpen_keeps {org s : State} {m : Msg} (hs : Keeps org s) : Keeps org (s.decideOpen m) := by
  unfold State.decideOpen
  repeat' first
    | with_reducible assumption
    | (intro s1; refine (fun (hs1 : Keeps org s1) => ?_) ?_; clear_value s1)
    | (intro s1; refine (fun (hs1 : Keeps org s1.1) => ?_) ?_; clear_value s1)
    | (intro s1; clear_value s1)
    | (lift_lets; intro s1; refine (fun (hs1 : Keeps org s1) => ?_) ?_; clear_value s1)
    | (lift_lets; intro s1; refine (fun (hs1 : Keeps org s1.1) => ?_) ?_; clear_value s1)
    | (lift_lets; intro s1; clear_value s1)
    | with_reducible apply State.modXlt_keeps
    | with_reducible apply State.emit_keeps
    | with_reducible apply State.openSession_keeps
    | split

theorem State.sessionOpen_keeps {org s : State} {m : Msg} (hs : Keeps org s) : Keeps org (s.sessionOpen m) := by
  unfold State.sessionOpen
  repeat' first
    | with_reducible assumption
    | (intro t a ht; have hk : Keeps org t := ht; clear hk)
    | (intro t ht; have hk : Keeps org t := ht; clear hk)
    | with_reducible apply Keeps.ite
    | with_reducible apply State.modXlt_keeps
    | with_reducible apply State.say_keeps
    | with_reducible apply State.holdMsg_keeps
    | with_reducible apply State.command_keeps
    | with_reducible apply State.decideOpen_keeps
    | split

theorem State.doConfirm_keeps {org s : State} {n : Nat} (hs : Keeps org s) : Keeps org (s.doConfirm n).1 := by
  unfold State.doConfirm
  repeat' first
    | with_reducible assumption
    | with_reducible apply State.modSess_keeps
    | with_reducible apply State.say_keeps

theorem State.doClose_keeps {org s : State} {n : Nat} (hs : Keeps org s) : Keeps org (s.doClose n).1 := by
  unfold State.doClose
  repeat' first
    | with_reducible assumption
    | with_reducible apply State.kennelEnter_keeps
    | with_reducible apply State.say_keeps

theorem State.doRevokeSession_keeps {org s : State} {n : Nat} {m : Msg} (hs : Keeps org s) : Keeps org (s.doRevokeSession n m).1 := by
  unfold State.doRevokeSession
  repeat' first
    | with_reducible assumption
    | with_reducible apply Keeps.ite_fst
    | with_reducible apply Keeps.ite
    | with_reducible apply State.kennelEnter_keeps
    | with_reducible apply State.say_keeps
    | split

theorem State.doRevokeUnit_keeps {org s : State} {m : Msg} (hs : Keeps org s) : Keeps org (s.doRevokeUnit m).1 := by
  unfold State.doRevokeUnit
  repeat' first
    | with_reducible assumption
    | with_reducible apply State.unitRevoke_keeps
    | with_reducible apply State.say_keeps

theorem State.doKeyInstall_keeps {org s : State} {n : Nat} {m : Msg} (hs : Keeps org s) : Keeps org (s.doKeyInstall n m).1 := by
  unfold State.doKeyInstall
  repeat' first
    | with_reducible assumption
    | (intro t a ht; have hk : Keeps org t := ht; clear hk)
    | (intro t ht; have hk : Keeps org t := ht; clear hk)
    | (intro s1; refine (fun (hs1 : Keeps org s1) => ?_) ?_; clear_value s1)
    | (intro s1; refine (fun (hs1 : Keeps org s1.1) => ?_) ?_; clear_value s1)
    | (intro s1; clear_value s1)
    | (lift_lets; intro s1; refine (fun (hs1 : Keeps org s1) => ?_) ?_; clear_value s1)
    | (lift_lets; intro s1; refine (fun (hs1 : Keeps org s1.1) => ?_) ?_; clear_value s1)
    | (lift_lets; intro s1; clear_value s1)
    | with_reducible apply Keeps.when
    | with_reducible apply Keeps.ite_fst
    | with_reducible apply Keeps.ite
    | with_reducible apply State.nvWrite_keeps
    | with_reducible apply State.kennelEnter_keeps
    | with_reducible apply State.say_keeps
    | split
    | with_reducible apply Keeps.mk

theorem State.doKeyErase_keeps {org s : State} {n : Nat} {m : Msg} (hs : Keeps org s) : Keeps org (s.doKeyErase n m).1 := by
  unfold State.doKeyErase
  repeat' first
    | with_reducible assumption
    | (intro t a ht; have hk : Keeps org t := ht; clear hk)
    | (intro t ht; have hk : Keeps org t := ht; clear hk)
    | (intro s1; refine (fun (hs1 : Keeps org s1) => ?_) ?_; clear_value s1)
    | (intro s1; clear_value s1)
    | (lift_lets; intro s1; refine (fun (hs1 : Keeps org s1) => ?_) ?_; clear_value s1)
    | (lift_lets; intro s1; clear_value s1)
    | with_reducible apply Keeps.each
    | with_reducible apply State.nvErase_keeps
    | with_reducible apply State.kennelEnter_keeps
    | with_reducible apply State.say_keeps
    | with_reducible apply Keeps.mk

theorem State.doNetSet_keeps {org s : State} {m : Msg} (hs : Keeps org s) : Keeps org (s.doNetSet m).1 := by
  unfold State.doNetSet
  repeat' first
    | with_reducible assumption
    | with_reducible apply State.say_keeps
    | with_reducible apply Keeps.mk

theorem State.leaseLapse_keeps {org s : State} {n : Nat} (hs : Keeps org s) : Keeps org (s.leaseLapse n) := by
  unfold State.leaseLapse
  repeat' first
    | with_reducible assumption
    | (intro t a ht; have hk : Keeps org t := ht; clear hk)
    | (intro t ht; have hk : Keeps org t := ht; clear hk)
    | (intro s1; refine (fun (hs1 : Keeps org s1) => ?_) ?_; clear_value s1)
    | (intro s1; clear_value s1)
    | (lift_lets; intro s1; refine (fun (hs1 : Keeps org s1) => ?_) ?_; clear_value s1)
    | (lift_lets; intro s1; clear_value s1)
    | with_reducible apply Keeps.when
    | with_reducible apply Keeps.ite
    | with_reducible apply State.postSteward_keeps
    | with_reducible apply State.kennelEnter_keeps

theorem State.confirmTimeout_keeps {org s : State} {n : Nat} (hs : Keeps org s) : Keeps org (s.confirmTimeout n) := by
  unfold State.confirmTimeout
  repeat' first
    | with_reducible assumption
    | (intro s1; refine (fun (hs1 : Keeps org s1) => ?_) ?_; clear_value s1)
    | (intro s1; clear_value s1)
    | (lift_lets; intro s1; refine (fun (hs1 : Keeps org s1) => ?_) ?_; clear_value s1)
    | (lift_lets; intro s1; clear_value s1)
    | with_reducible apply Keeps.ite
    | with_reducible apply State.modSess_keeps
    | with_reducible apply State.modXlt_keeps

theorem State.evRead_keeps {org s : State} {n i : Nat} (hs : Keeps org s) : Keeps org (s.evRead n i) := by
  unfold State.evRead
  repeat' first
    | with_reducible assumption
    | (intro t a ht; have hk : Keeps org t := ht; clear hk)
    | (intro t ht; have hk : Keeps org t := ht; clear hk)
    | (intro s1; refine (fun (hs1 : Keeps org s1) => ?_) ?_; clear_value s1)
    | (intro s1; clear_value s1)
    | (lift_lets; intro s1; refine (fun (hs1 : Keeps org s1) => ?_) ?_; clear_value s1)
    | (lift_lets; intro s1; clear_value s1)
    | with_reducible apply Keeps.when
    | with_reducible apply Keeps.ite
    | with_reducible apply State.raiseSess_keeps
    | with_reducible apply State.setEvq_keeps

theorem State.evrdWrite_keeps {org s : State} {n i : Nat} (hs : Keeps org s) : Keeps org (s.evrdWrite n i) := by
  unfold State.evrdWrite
  repeat' first
    | with_reducible assumption
    | with_reducible apply Keeps.ite
    | with_reducible apply State.evRead_keeps

theorem State.evack_keeps {org s : State} {m : Msg} {i : Nat} (hs : Keeps org s) : Keeps org (s.evack m i) := by
  unfold State.evack
  repeat' first
    | with_reducible assumption
    | (intro s1; refine (fun (hs1 : Keeps org s1) => ?_) ?_; clear_value s1)
    | (intro s1; clear_value s1)
    | (lift_lets; intro s1; refine (fun (hs1 : Keeps org s1) => ?_) ?_; clear_value s1)
    | (lift_lets; intro s1; clear_value s1)
    | with_reducible apply Keeps.ite
    | with_reducible apply State.netDrop_keeps
    | with_reducible apply State.evRead_keeps
    | split

theorem State.evSend_keeps {org s : State} {n j k : Nat} (hs : Keeps org s) : Keeps org (s.evSend n j k) := by
  unfold State.evSend
  repeat' first
    | with_reducible assumption
    | (intro t a ht; have hk : Keeps org t := ht; clear hk)
    | (intro t ht; have hk : Keeps org t := ht; clear hk)
    | (intro t a ht; have hk : Keeps org t.1 := ht; clear hk)
    | (intro s1; refine (fun (hs1 : Keeps org s1) => ?_) ?_; clear_value s1)
    | (intro s1; refine (fun (hs1 : Keeps org s1.1) => ?_) ?_; clear_value s1)
    | (intro s1; clear_value s1)
    | (lift_lets; intro s1; refine (fun (hs1 : Keeps org s1) => ?_) ?_; clear_value s1)
    | (lift_lets; intro s1; refine (fun (hs1 : Keeps org s1.1) => ?_) ?_; clear_value s1)
    | (lift_lets; intro s1; clear_value s1)
    | with_reducible apply Keeps.ite
    | with_reducible apply Keeps.foldl
    | with_reducible apply Keeps.foldl_fst
    | with_reducible apply State.modSess_keeps
    | with_reducible apply State.emit_keeps
    | with_reducible apply State.evFetch_keeps
    | (refine Keeps.ofEq (by assumption) ?_)

theorem State.eventsSend_keeps {org s : State} {n : Nat} (hs : Keeps org s) : Keeps org (s.eventsSend n) := by
  unfold State.eventsSend
  repeat' first
    | with_reducible assumption
    | with_reducible apply State.evSend_keeps

theorem State.eventsResend_keeps {org s : State} {n : Nat} (hs : Keeps org s) : Keeps org (s.eventsResend n) := by
  unfold State.eventsResend
  repeat' first
    | with_reducible assumption
    | (intro s1; refine (fun (hs1 : Keeps org s1) => ?_) ?_; clear_value s1)
    | (intro s1; clear_value s1)
    | (lift_lets; intro s1; refine (fun (hs1 : Keeps org s1) => ?_) ?_; clear_value s1)
    | (lift_lets; intro s1; clear_value s1)
    | with_reducible apply Keeps.ite
    | with_reducible apply State.evSend_keeps

theorem State.evqGap_keeps {org s : State} {n : Nat} (hs : Keeps org s) : Keeps org (s.evqGap n) := by
  unfold State.evqGap
  repeat' first
    | with_reducible assumption
    | with_reducible apply State.setEvq_keeps
    | with_reducible apply State.settle_keeps

theorem State.msixFlush_keeps {org s : State} {f : Nat} (hs : Keeps org s) : Keeps org (s.msixFlush f) := by
  unfold State.msixFlush
  repeat' first
    | with_reducible assumption
    | (intro t a ht; have hk : Keeps org t := ht; clear hk)
    | (intro t ht; have hk : Keeps org t := ht; clear hk)
    | (intro s1; refine (fun (hs1 : Keeps org s1) => ?_) ?_; clear_value s1)
    | (intro s1; clear_value s1)
    | (lift_lets; intro s1; refine (fun (hs1 : Keeps org s1) => ?_) ?_; clear_value s1)
    | (lift_lets; intro s1; clear_value s1)
    | with_reducible apply Keeps.each
    | with_reducible apply Keeps.ite
    | with_reducible apply State.emit_keeps
    | with_reducible apply Keeps.mk

theorem State.msixUnmask_keeps {org s : State} {f : Nat} {v : Option Nat} (hs : Keeps org s) : Keeps org (s.msixUnmask f v) := by
  unfold State.msixUnmask
  repeat' first
    | with_reducible assumption
    | (intro s1; refine (fun (hs1 : Keeps org s1) => ?_) ?_; clear_value s1)
    | (intro s1; clear_value s1)
    | (lift_lets; intro s1; refine (fun (hs1 : Keeps org s1) => ?_) ?_; clear_value s1)
    | (lift_lets; intro s1; clear_value s1)
    | with_reducible apply State.msixFlush_keeps
    | split
    | with_reducible apply Keeps.mk

theorem State.claimUnit_keeps {org s : State} {n u : Nat} (hs : Keeps org s) : Keeps org (s.claimUnit n u) := by
  unfold State.claimUnit
  repeat' first
    | with_reducible assumption
    | (intro s1; refine (fun (hs1 : Keeps org s1) => ?_) ?_; clear_value s1)
    | (intro s1; clear_value s1)
    | (lift_lets; intro s1; refine (fun (hs1 : Keeps org s1) => ?_) ?_; clear_value s1)
    | (lift_lets; intro s1; clear_value s1)
    | with_reducible apply Keeps.ite
    | with_reducible apply State.modAx_keeps
    | with_reducible apply State.modMgt_keeps
    | with_reducible apply State.postTo_keeps

theorem State.releaseFirst_keeps {org s : State} (hs : Keeps org s) : Keeps org (s.releaseFirst) := by
  unfold State.releaseFirst
  repeat' first
    | with_reducible assumption
    | (intro t a ht; have hk : Keeps org t := ht; clear hk)
    | (intro t ht; have hk : Keeps org t := ht; clear hk)
    | with_reducible apply Keeps.each
    | with_reducible apply State.kennelRelease_keeps
    | split

theorem State.doClaim_keeps {org s : State} {n : Nat} {m : Msg} (hs : Keeps org s) : Keeps org (s.doClaim n m).1 := by
  unfold State.doClaim
  repeat' first
    | with_reducible assumption
    | (intro t a ht; have hk : Keeps org t := ht; clear hk)
    | (intro t ht; have hk : Keeps org t := ht; clear hk)
    | (intro s1; refine (fun (hs1 : Keeps org s1) => ?_) ?_; clear_value s1)
    | (intro s1; refine (fun (hs1 : Keeps org s1.1) => ?_) ?_; clear_value s1)
    | (intro s1; clear_value s1)
    | (lift_lets; intro s1; refine (fun (hs1 : Keeps org s1) => ?_) ?_; clear_value s1)
    | (lift_lets; intro s1; refine (fun (hs1 : Keeps org s1.1) => ?_) ?_; clear_value s1)
    | (lift_lets; intro s1; clear_value s1)
    | with_reducible apply Keeps.each
    | with_reducible apply State.say_keeps
    | with_reducible apply State.claimUnit_keeps
    | with_reducible apply State.releaseFirst_keeps
    | split
    | (refine Keeps.ofEq (by assumption) ?_)

theorem State.doRelease_keeps {org s : State} {n : Nat} {m : Msg} (hs : Keeps org s) : Keeps org (s.doRelease n m).1 := by
  unfold State.doRelease
  repeat' first
    | with_reducible assumption
    | (intro t a ht; have hk : Keeps org t := ht; clear hk)
    | (intro t ht; have hk : Keeps org t := ht; clear hk)
    | (intro t a ht; have hk : Keeps org t.1 := ht; clear hk)
    | (intro s1; refine (fun (hs1 : Keeps org s1) => ?_) ?_; clear_value s1)
    | (intro s1; refine (fun (hs1 : Keeps org s1.1) => ?_) ?_; clear_value s1)
    | (intro s1; clear_value s1)
    | (lift_lets; intro s1; refine (fun (hs1 : Keeps org s1) => ?_) ?_; clear_value s1)
    | (lift_lets; intro s1; refine (fun (hs1 : Keeps org s1.1) => ?_) ?_; clear_value s1)
    | (lift_lets; intro s1; clear_value s1)
    | with_reducible apply Keeps.ite_fst
    | with_reducible apply Keeps.ite
    | with_reducible apply Keeps.foldl
    | with_reducible apply Keeps.foldl_fst
    | with_reducible apply State.modSess_keeps
    | with_reducible apply State.modMgt_keeps
    | with_reducible apply State.dropUnits_keeps
    | with_reducible apply State.say_keeps
    | split

theorem State.doMemAlloc_keeps {org s : State} {n : Nat} {m : Msg} (hs : Keeps org s) : Keeps org (s.doMemAlloc n m).1 := by
  unfold State.doMemAlloc
  repeat' first
    | with_reducible assumption
    | (intro t a ht; have hk : Keeps org t := ht; clear hk)
    | (intro t ht; have hk : Keeps org t := ht; clear hk)
    | (intro t a ht; have hk : Keeps org t.1 := ht; clear hk)
    | (intro s1; refine (fun (hs1 : Keeps org s1) => ?_) ?_; clear_value s1)
    | (intro s1; clear_value s1)
    | (lift_lets; intro s1; refine (fun (hs1 : Keeps org s1) => ?_) ?_; clear_value s1)
    | (lift_lets; intro s1; clear_value s1)
    | with_reducible apply Keeps.when
    | with_reducible apply Keeps.each
    | with_reducible apply Keeps.ite_fst
    | with_reducible apply Keeps.ite
    | with_reducible apply Keeps.foldl
    | with_reducible apply Keeps.foldl_fst
    | with_reducible apply State.modMem_keeps
    | with_reducible apply State.fillPage_keeps
    | with_reducible apply State.say_keeps
    | split
    | (refine Keeps.ofEq (by assumption) ?_)

theorem State.doMemFree_keeps {org s : State} {n : Nat} {m : Msg} (hs : Keeps org s) : Keeps org (s.doMemFree n m).1 := by
  unfold State.doMemFree
  repeat' first
    | with_reducible assumption
    | (intro s1; refine (fun (hs1 : Keeps org s1) => ?_) ?_; clear_value s1)
    | (intro s1; refine (fun (hs1 : Keeps org s1.1) => ?_) ?_; clear_value s1)
    | (intro s1; clear_value s1)
    | (lift_lets; intro s1; refine (fun (hs1 : Keeps org s1) => ?_) ?_; clear_value s1)
    | (lift_lets; intro s1; refine (fun (hs1 : Keeps org s1.1) => ?_) ?_; clear_value s1)
    | (lift_lets; intro s1; clear_value s1)
    | with_reducible apply Keeps.ite_fst
    | with_reducible apply Keeps.ite
    | with_reducible apply State.modXlt_keeps
    | with_reducible apply State.freePages_keeps
    | with_reducible apply State.say_keeps
    | split

theorem State.invalidate_keeps {org s : State} {n : Nat} {f : Nat → Bool} (hs : Keeps org s) : Keeps org (s.invalidate n f) := by
  unfold State.invalidate
  repeat' first
    | with_reducible assumption
    | (intro t a ht; have hk : Keeps org t := ht; clear hk)
    | (intro t ht; have hk : Keeps org t := ht; clear hk)
    | (intro s1; refine (fun (hs1 : Keeps org s1) => ?_) ?_; clear_value s1)
    | (intro s1; clear_value s1)
    | (lift_lets; intro s1; refine (fun (hs1 : Keeps org s1) => ?_) ?_; clear_value s1)
    | (lift_lets; intro s1; clear_value s1)
    | with_reducible apply Keeps.each
    | with_reducible apply Keeps.ite
    | with_reducible apply State.modStr_keeps
    | with_reducible apply State.modXlt_keeps
    | with_reducible apply State.tlbDrop_keeps

theorem State.invalAnswer_keeps {org s : State} {n op : Nat} {m : Msg} (hs : Keeps org s) : Keeps org (s.invalAnswer n op m).1 := by
  unfold State.invalAnswer
  repeat' first
    | with_reducible assumption
    | with_reducible apply Keeps.ite_fst
    | with_reducible apply Keeps.ite
    | with_reducible apply State.modSess_keeps
    | with_reducible apply State.say_keeps
    | split

theorem State.doPtSet_keeps {org s : State} {n : Nat} {m : Msg} (hs : Keeps org s) : Keeps org (s.doPtSet n m).1 := by
  unfold State.doPtSet
  repeat' first
    | with_reducible assumption
    | with_reducible apply State.modSess_keeps
    | with_reducible apply State.invalidate_keeps
    | with_reducible apply State.invalAnswer_keeps

theorem State.doTlbInval_keeps {org s : State} {n : Nat} {m : Msg} (hs : Keeps org s) : Keeps org (s.doTlbInval n m).1 := by
  unfold State.doTlbInval
  repeat' first
    | with_reducible assumption
    | (intro s1; refine (fun (hs1 : Keeps org s1) => ?_) ?_; clear_value s1)
    | (intro s1; clear_value s1)
    | (lift_lets; intro s1; refine (fun (hs1 : Keeps org s1) => ?_) ?_; clear_value s1)
    | (lift_lets; intro s1; clear_value s1)
    | with_reducible apply State.invalidate_keeps
    | with_reducible apply State.invalAnswer_keeps

theorem State.doFaultResume_keeps {org s : State} {n : Nat} {m : Msg} (hs : Keeps org s) : Keeps org (s.doFaultResume n m).1 := by
  unfold State.doFaultResume
  repeat' first
    | with_reducible assumption
    | with_reducible apply Keeps.ite_fst
    | with_reducible apply Keeps.ite
    | with_reducible apply State.strResume_keeps
    | with_reducible apply State.say_keeps
    | split

theorem State.readSettled_keeps {org s : State} (hs : Keeps org s) : Keeps org (s.readSettled) := by
  unfold State.readSettled
  repeat' first
    | with_reducible assumption
    | (intro t a ht; have hk : Keeps org t := ht; clear hk)
    | (intro t ht; have hk : Keeps org t := ht; clear hk)
    | (intro s1; refine (fun (hs1 : Keeps org s1) => ?_) ?_; clear_value s1)
    | (intro s1; refine (fun (hs1 : Keeps org s1.1) => ?_) ?_; clear_value s1)
    | (intro s1; clear_value s1)
    | (lift_lets; intro s1; refine (fun (hs1 : Keeps org s1) => ?_) ?_; clear_value s1)
    | (lift_lets; intro s1; refine (fun (hs1 : Keeps org s1.1) => ?_) ?_; clear_value s1)
    | (lift_lets; intro s1; clear_value s1)
    | with_reducible apply Keeps.each
    | with_reducible apply Keeps.ite
    | with_reducible apply State.modSess_keeps
    | with_reducible apply State.drainIf_keeps
    | with_reducible apply State.reply_keeps
    | simp only [s1]

theorem State.doMemWrite_keeps {org s : State} {n : Nat} {m : Msg} (hs : Keeps org s) : Keeps org (s.doMemWrite n m).1 := by
  unfold State.doMemWrite
  repeat' first
    | with_reducible assumption
    | (intro s1; refine (fun (hs1 : Keeps org s1) => ?_) ?_; clear_value s1)
    | (intro s1; refine (fun (hs1 : Keeps org s1.1) => ?_) ?_; clear_value s1)
    | (intro s1; clear_value s1)
    | (lift_lets; intro s1; refine (fun (hs1 : Keeps org s1) => ?_) ?_; clear_value s1)
    | (lift_lets; intro s1; refine (fun (hs1 : Keeps org s1.1) => ?_) ?_; clear_value s1)
    | (lift_lets; intro s1; clear_value s1)
    | with_reducible apply State.vwrite_keeps
    | with_reducible apply State.say_keeps

theorem State.doMemRead_keeps {org s : State} {n : Nat} {m : Msg} (hs : Keeps org s) : Keeps org (s.doMemRead n m).1 := by
  unfold State.doMemRead
  repeat' first
    | with_reducible assumption
    | with_reducible apply Keeps.ite_fst
    | with_reducible apply Keeps.ite
    | with_reducible apply State.vread_keeps
    | with_reducible apply State.say_keeps
    | split
    | (refine Keeps.ofEq (by assumption) ?_)

theorem State.doCommit_keeps {org s : State} {n : Nat} {m : Msg} (hs : Keeps org s) : Keeps org (s.doCommit n m).1 := by
  unfold State.doCommit
  repeat' first
    | with_reducible assumption
    | (intro s1; refine (fun (hs1 : Keeps org s1) => ?_) ?_; clear_value s1)
    | (intro s1; refine (fun (hs1 : Keeps org s1.1) => ?_) ?_; clear_value s1)
    | (intro s1; clear_value s1)
    | (lift_lets; intro s1; refine (fun (hs1 : Keeps org s1) => ?_) ?_; clear_value s1)
    | (lift_lets; intro s1; refine (fun (hs1 : Keeps org s1.1) => ?_) ?_; clear_value s1)
    | (lift_lets; intro s1; clear_value s1)
    | with_reducible apply State.commitAccept_keeps
    | with_reducible apply State.say_keeps

theorem State.doDiscard_keeps {org s : State} {n : Nat} (hs : Keeps org s) : Keeps org (s.doDiscard n).1 := by
  unfold State.doDiscard
  repeat' first
    | with_reducible assumption
    | with_reducible apply State.stageDiscard_keeps
    | with_reducible apply State.say_keeps

theorem State.doRepair_keeps {org s : State} {n : Nat} {m : Msg} (hs : Keeps org s) : Keeps org (s.doRepair n m).1 := by
  unfold State.doRepair
  repeat' first
    | with_reducible assumption
    | (intro s1; refine (fun (hs1 : Keeps org s1) => ?_) ?_; clear_value s1)
    | (intro s1; clear_value s1)
    | (lift_lets; intro s1; refine (fun (hs1 : Keeps org s1) => ?_) ?_; clear_value s1)
    | (lift_lets; intro s1; clear_value s1)
    | with_reducible apply Keeps.ite_fst
    | with_reducible apply Keeps.ite
    | with_reducible apply State.modMem_keeps
    | with_reducible apply State.postTo_keeps
    | with_reducible apply State.say_keeps
    | split

theorem State.sheepdogStart_keeps {org s : State} (hs : Keeps org s) : Keeps org (s.sheepdogStart) := by
  unfold State.sheepdogStart
  repeat' first
    | with_reducible assumption
    | (intro t a ht; have hk : Keeps org t := ht; clear hk)
    | (intro t ht; have hk : Keeps org t := ht; clear hk)
    | (intro s1; refine (fun (hs1 : Keeps org s1) => ?_) ?_; clear_value s1)
    | (intro s1; clear_value s1)
    | (lift_lets; intro s1; refine (fun (hs1 : Keeps org s1) => ?_) ?_; clear_value s1)
    | (lift_lets; intro s1; clear_value s1)
    | with_reducible apply Keeps.each
    | with_reducible apply Keeps.ite
    | with_reducible apply State.sheepdog_keeps
    | with_reducible apply State.sessionEcc_keeps
    | split

theorem State.sheepdogEnd_keeps {org s : State} {fail : Option (Nat × Nat × Nat)} (hs : Keeps org s) : Keeps org (s.sheepdogEnd fail) := by
  unfold State.sheepdogEnd
  split
  all_goals
  repeat' first
    | with_reducible assumption
    | with_reducible apply Keeps.ite
    | with_reducible apply State.windowEnd_keeps
    | with_reducible apply State.reply_keeps
    | split
    | (refine Keeps.ofEq (by assumption) ?_)

theorem State.doNvWrite_keeps {org s : State} {n : Nat} {m : Msg} (hs : Keeps org s) : Keeps org (s.doNvWrite n m).1 := by
  unfold State.doNvWrite
  repeat' first
    | with_reducible assumption
    | (intro s1; refine (fun (hs1 : Keeps org s1) => ?_) ?_; clear_value s1)
    | (intro s1; refine (fun (hs1 : Keeps org s1.1) => ?_) ?_; clear_value s1)
    | (intro s1; clear_value s1)
    | (lift_lets; intro s1; refine (fun (hs1 : Keeps org s1) => ?_) ?_; clear_value s1)
    | (lift_lets; intro s1; refine (fun (hs1 : Keeps org s1.1) => ?_) ?_; clear_value s1)
    | (lift_lets; intro s1; clear_value s1)
    | with_reducible apply Keeps.ite_fst
    | with_reducible apply Keeps.ite
    | with_reducible apply State.vread_keeps
    | with_reducible apply State.nvWrite_keeps
    | with_reducible apply State.say_keeps
    | split
    | (refine Keeps.ofEq (by assumption) ?_)

theorem State.doNvRead_keeps {org s : State} {n : Nat} {m : Msg} (hs : Keeps org s) : Keeps org (s.doNvRead n m).1 := by
  unfold State.doNvRead
  repeat' first
    | with_reducible assumption
    | (intro s1; refine (fun (hs1 : Keeps org s1) => ?_) ?_; clear_value s1)
    | (intro s1; refine (fun (hs1 : Keeps org s1.1) => ?_) ?_; clear_value s1)
    | (intro s1; clear_value s1)
    | (lift_lets; intro s1; refine (fun (hs1 : Keeps org s1) => ?_) ?_; clear_value s1)
    | (lift_lets; intro s1; refine (fun (hs1 : Keeps org s1.1) => ?_) ?_; clear_value s1)
    | (lift_lets; intro s1; clear_value s1)
    | with_reducible apply Keeps.ite_fst
    | with_reducible apply Keeps.ite
    | with_reducible apply State.vwrite_keeps
    | with_reducible apply State.nvRead_keeps
    | with_reducible apply State.say_keeps
    | split
    | (refine Keeps.ofEq (by assumption) ?_)

theorem State.fwTo_keeps {org s : State} {st : FwSt} (hs : Keeps org s) : Keeps org (s.fwTo st) := by
  unfold State.fwTo
  repeat' first
    | with_reducible assumption
    | with_reducible apply State.modPws_keeps
    | with_reducible apply State.raiseAll_keeps

theorem State.doFwStage_keeps {org s : State} {n : Nat} {m : Msg} (hs : Keeps org s) : Keeps org (s.doFwStage n m).1 := by
  unfold State.doFwStage
  repeat' first
    | with_reducible assumption
    | (intro s1; refine (fun (hs1 : Keeps org s1) => ?_) ?_; clear_value s1)
    | (intro s1; clear_value s1)
    | (lift_lets; intro s1; refine (fun (hs1 : Keeps org s1) => ?_) ?_; clear_value s1)
    | (lift_lets; intro s1; clear_value s1)
    | with_reducible apply Keeps.ite_fst
    | with_reducible apply Keeps.ite
    | with_reducible apply State.modPws_keeps
    | with_reducible apply State.postTo_keeps
    | with_reducible apply State.dramWrite_keeps
    | with_reducible apply State.vread_keeps
    | with_reducible apply State.say_keeps
    | with_reducible apply State.fwTo_keeps
    | with_reducible apply State.idle_keeps
    | split
    | (refine Keeps.ofEq (by assumption) ?_)

theorem State.fwRestart_keeps {org s : State} (hs : Keeps org s) : Keeps org (s.fwRestart) := by
  unfold State.fwRestart
  repeat' first
    | with_reducible assumption
    | (intro s1; refine (fun (hs1 : Keeps org s1) => ?_) ?_; clear_value s1)
    | (intro s1; clear_value s1)
    | (lift_lets; intro s1; refine (fun (hs1 : Keeps org s1) => ?_) ?_; clear_value s1)
    | (lift_lets; intro s1; clear_value s1)
    | with_reducible apply State.modPws_keeps
    | with_reducible apply State.modSafe_keeps
    | with_reducible apply State.fwTo_keeps

theorem State.fwPoll_keeps {org s : State} (hs : Keeps org s) : Keeps org (s.fwPoll) := by
  unfold State.fwPoll
  split
  all_goals
  repeat' first
    | with_reducible assumption
    | (intro s1; refine (fun (hs1 : Keeps org s1) => ?_) ?_; clear_value s1)
    | (intro s1; clear_value s1)
    | (lift_lets; intro s1; refine (fun (hs1 : Keeps org s1) => ?_) ?_; clear_value s1)
    | (lift_lets; intro s1; clear_value s1)
    | with_reducible apply Keeps.ite
    | with_reducible apply State.modPws_keeps
    | with_reducible apply State.reply_keeps
    | with_reducible apply State.fwRestart_keeps
    | split

theorem State.doFwSwitch_keeps {org s : State} {n : Nat} {m : Msg} (hs : Keeps org s) : Keeps org (s.doFwSwitch n m).1 := by
  unfold State.doFwSwitch
  repeat' first
    | with_reducible assumption
    | with_reducible apply Keeps.ite_fst
    | with_reducible apply Keeps.ite
    | with_reducible apply State.modPws_keeps
    | with_reducible apply State.say_keeps
    | with_reducible apply State.fwPoll_keeps
    | with_reducible apply State.idle_keeps
    | split

theorem State.fwAnswer_keeps {org s : State} {passed : Bool} (hs : Keeps org s) : Keeps org (s.fwAnswer passed) := by
  unfold State.fwAnswer
  split
  all_goals
  repeat' first
    | with_reducible assumption
    | (intro t a ht; have hk : Keeps org t := ht; clear hk)
    | (intro t ht; have hk : Keeps org t := ht; clear hk)
    | (intro s1; refine (fun (hs1 : Keeps org s1) => ?_) ?_; clear_value s1)
    | (intro s1; clear_value s1)
    | (lift_lets; intro s1; refine (fun (hs1 : Keeps org s1) => ?_) ?_; clear_value s1)
    | (lift_lets; intro s1; clear_value s1)
    | with_reducible apply Keeps.when
    | with_reducible apply Keeps.ite
    | with_reducible apply State.modPws_keeps
    | with_reducible apply State.postTo_keeps
    | with_reducible apply State.reply_keeps
    | split

theorem State.probationEnd_keeps {org s : State} {passed : Bool} (hs : Keeps org s) : Keeps org (s.probationEnd passed) := by
  unfold State.probationEnd
  repeat' first
    | with_reducible assumption
    | (intro s1; refine (fun (hs1 : Keeps org s1) => ?_) ?_; clear_value s1)
    | (intro s1; clear_value s1)
    | (lift_lets; intro s1; refine (fun (hs1 : Keeps org s1) => ?_) ?_; clear_value s1)
    | (lift_lets; intro s1; clear_value s1)
    | with_reducible apply Keeps.ite
    | with_reducible apply State.modPws_keeps
    | with_reducible apply State.modSafe_keeps
    | with_reducible apply State.fwTo_keeps
    | with_reducible apply State.fwAnswer_keeps
    | with_reducible apply State.idle_keeps
    | simp only [s1]

end Sys2Proof.Machine
end

