-- ==== Sys2Proof/Laws/KeepCal.lean ====
section
/-! SUPPORT. What the operations keep: the calibrations and what programs do. -/
set_option maxRecDepth 2000
namespace Sys2Proof.Machine
open Sys2Proof

theorem State.modRun_keeps {org s : State} {r : Nat} {f : CalRun → CalRun} (hs : Keeps org s) : Keeps org (s.modRun r f) := by
  unfold State.modRun
  repeat' first
    | with_reducible assumption
    | with_reducible apply Keeps.mk

theorem State.calHolds_keeps {org s : State} (hs : Keeps org s) : Keeps org (s.calHolds) := by
  unfold State.calHolds
  repeat' first
    | with_reducible assumption
    | with_reducible apply Keeps.ite
    | with_reducible apply State.modMgt_keeps
    | split

theorem State.calEnd_keeps {org s : State} {r code q1 q2 : Nat} {y0 : Nat} (hs : Keeps org s) : Keeps org (s.calEnd r code q1 q2 y0) := by
  unfold State.calEnd
  repeat' first
    | with_reducible assumption
    | (intro s1; refine (fun (hs1 : Keeps org s1) => ?_) ?_; clear_value s1)
    | (intro s1; clear_value s1)
    | (lift_lets; intro s1; refine (fun (hs1 : Keeps org s1) => ?_) ?_; clear_value s1)
    | (lift_lets; intro s1; clear_value s1)
    | with_reducible apply State.postTo_keeps
    | with_reducible apply State.modRun_keeps
    | with_reducible apply State.calHolds_keeps

theorem State.calEndOpen_keeps {org s : State} {r code : Nat} (hs : Keeps org s) : Keeps org (s.calEndOpen r code) := by
  unfold State.calEndOpen
  repeat' first
    | with_reducible assumption
    | (intro s1; refine (fun (hs1 : Keeps org s1) => ?_) ?_; clear_value s1)
    | (intro s1; refine (fun (hs1 : Keeps org s1.1) => ?_) ?_; clear_value s1)
    | (intro s1; clear_value s1)
    | (lift_lets; intro s1; refine (fun (hs1 : Keeps org s1) => ?_) ?_; clear_value s1)
    | (lift_lets; intro s1; refine (fun (hs1 : Keeps org s1.1) => ?_) ?_; clear_value s1)
    | (lift_lets; intro s1; clear_value s1)
    | with_reducible apply State.draw_keeps
    | with_reducible apply State.calEnd_keeps

theorem State.calCommit_keeps {org s : State} {r : Nat} {words : SMap Word} (hs : Keeps org s) : Keeps org (s.calCommit r words) := by
  unfold State.calCommit
  repeat' first
    | with_reducible assumption
    | with_reducible apply State.makeLive_keeps

theorem State.calSave_keeps {org s : State} {r rid : Nat} {payload : List Byte} (hs : Keeps org s) : Keeps org (s.calSave r rid payload) := by
  unfold State.calSave
  repeat' first
    | with_reducible assumption
    | (intro s1; refine (fun (hs1 : Keeps org s1) => ?_) ?_; clear_value s1)
    | (intro s1; refine (fun (hs1 : Keeps org s1.1) => ?_) ?_; clear_value s1)
    | (intro s1; clear_value s1)
    | (lift_lets; intro s1; refine (fun (hs1 : Keeps org s1) => ?_) ?_; clear_value s1)
    | (lift_lets; intro s1; refine (fun (hs1 : Keeps org s1.1) => ?_) ?_; clear_value s1)
    | (lift_lets; intro s1; clear_value s1)
    | with_reducible apply Keeps.ite
    | with_reducible apply State.postTo_keeps
    | with_reducible apply State.nvWrite_keeps

theorem State.calRestore_keeps {org s : State} {r : Nat} (hs : Keeps org s) : Keeps org (s.calRestore r) := by
  unfold State.calRestore
  repeat' first
    | with_reducible assumption
    | (intro s1; refine (fun (hs1 : Keeps org s1) => ?_) ?_; clear_value s1)
    | (intro s1; clear_value s1)
    | (lift_lets; intro s1; refine (fun (hs1 : Keeps org s1) => ?_) ?_; clear_value s1)
    | (lift_lets; intro s1; clear_value s1)
    | with_reducible apply Keeps.ite
    | with_reducible apply State.nvRead_keeps
    | with_reducible apply State.calEndOpen_keeps
    | with_reducible apply State.calCommit_keeps
    | simp only [s1]
    | split
    | (refine Keeps.ofEq (by assumption) ?_)
    | with_reducible apply Keeps.mk

theorem State.calStart_keeps {org s : State} {r : Nat} (hs : Keeps org s) : Keeps org (s.calStart r) := by
  unfold State.calStart
  repeat' first
    | with_reducible assumption
    | (intro s1; refine (fun (hs1 : Keeps org s1) => ?_) ?_; clear_value s1)
    | (intro s1; clear_value s1)
    | (lift_lets; intro s1; refine (fun (hs1 : Keeps org s1) => ?_) ?_; clear_value s1)
    | (lift_lets; intro s1; clear_value s1)
    | with_reducible apply State.modCam_keeps
    | with_reducible apply State.modHlt_keeps
    | with_reducible apply State.modCh_keeps
    | with_reducible apply State.calBegin_keeps
    | with_reducible apply State.calRestore_keeps
    | split
    | with_reducible apply Keeps.mk

theorem State.doCal_keeps {org s : State} {n : Nat} {m : Msg} {proc : Nat} (hs : Keeps org s) : Keeps org (s.doCal n m proc).1 := by
  unfold State.doCal
  repeat' first
    | with_reducible assumption
    | (intro s1; refine (fun (hs1 : Keeps org s1) => ?_) ?_; clear_value s1)
    | (intro s1; clear_value s1)
    | (lift_lets; intro s1; refine (fun (hs1 : Keeps org s1) => ?_) ?_; clear_value s1)
    | (lift_lets; intro s1; clear_value s1)
    | with_reducible apply Keeps.ite_fst
    | with_reducible apply Keeps.ite
    | with_reducible apply State.say_keeps
    | with_reducible apply State.modRun_keeps
    | with_reducible apply State.calHolds_keeps
    | with_reducible apply State.calEndOpen_keeps
    | with_reducible apply State.calStart_keeps
    | split

theorem State.calReturn_keeps {org s : State} {r : Nat} (hs : Keeps org s) : Keeps org (s.calReturn r) := by
  unfold State.calReturn
  repeat' first
    | with_reducible assumption
    | (intro s1; refine (fun (hs1 : Keeps org s1) => ?_) ?_; clear_value s1)
    | (intro s1; clear_value s1)
    | (lift_lets; intro s1; refine (fun (hs1 : Keeps org s1) => ?_) ?_; clear_value s1)
    | (lift_lets; intro s1; clear_value s1)
    | with_reducible apply Keeps.ite
    | with_reducible apply State.modHlt_keeps
    | with_reducible apply State.modCh_keeps
    | split

theorem State.darkEnd_keeps {org s : State} {r : Nat} (hs : Keeps org s) : Keeps org (s.darkEnd r) := by
  unfold State.darkEnd
  repeat' first
    | with_reducible assumption
    | (intro t a ht; have hk : Keeps org t := ht; clear hk)
    | (intro t ht; have hk : Keeps org t := ht; clear hk)
    | (intro t a ht; have hk : Keeps org t.1 := ht; clear hk)
    | (intro s1; refine (fun (hs1 : Keeps org s1) => ?_) ?_; clear_value s1)
    | (intro s1; refine (fun (hs1 : Keeps org s1.1) => ?_) ?_; clear_value s1)
    | (intro s1; clear_value s1)
    | (lift_lets; intro s1; refine (fun (hs1 : Keeps org s1) => ?_) ?_; clear_value s1)
    | (lift_lets; intro s1; refine (fun (hs1 : Keeps org s1.1) => ?_) ?_; clear_value s1)
    | (lift_lets; intro s1; clear_value s1)
    | with_reducible apply Keeps.ite
    | with_reducible apply Keeps.foldl
    | with_reducible apply Keeps.foldl_fst
    | with_reducible apply State.draw_keeps
    | with_reducible apply State.calEnd_keeps
    | with_reducible apply State.calCommit_keeps
    | with_reducible apply State.calSave_keeps

theorem State.flatEnd_keeps {org s : State} {r : Nat} (hs : Keeps org s) : Keeps org (s.flatEnd r) := by
  unfold State.flatEnd
  repeat' first
    | with_reducible assumption
    | (intro t a ht; have hk : Keeps org t := ht; clear hk)
    | (intro t ht; have hk : Keeps org t := ht; clear hk)
    | (intro t a ht; have hk : Keeps org t.1 := ht; clear hk)
    | (intro s1; refine (fun (hs1 : Keeps org s1) => ?_) ?_; clear_value s1)
    | (intro s1; refine (fun (hs1 : Keeps org s1.1) => ?_) ?_; clear_value s1)
    | (intro s1; clear_value s1)
    | (lift_lets; intro s1; refine (fun (hs1 : Keeps org s1) => ?_) ?_; clear_value s1)
    | (lift_lets; intro s1; refine (fun (hs1 : Keeps org s1.1) => ?_) ?_; clear_value s1)
    | (lift_lets; intro s1; clear_value s1)
    | with_reducible apply Keeps.ite
    | with_reducible apply Keeps.foldl
    | with_reducible apply Keeps.foldl_fst
    | with_reducible apply State.draw_keeps
    | with_reducible apply State.calEnd_keeps
    | with_reducible apply State.calCommit_keeps
    | with_reducible apply State.calSave_keeps
    | simp only [s1]

theorem State.trimEnd_keeps {org s : State} {r : Nat} (hs : Keeps org s) : Keeps org (s.trimEnd r) := by
  unfold State.trimEnd
  repeat' first
    | with_reducible assumption
    | (intro s1; refine (fun (hs1 : Keeps org s1) => ?_) ?_; clear_value s1)
    | (intro s1; refine (fun (hs1 : Keeps org s1.1) => ?_) ?_; clear_value s1)
    | (intro s1; clear_value s1)
    | (lift_lets; intro s1; refine (fun (hs1 : Keeps org s1) => ?_) ?_; clear_value s1)
    | (lift_lets; intro s1; refine (fun (hs1 : Keeps org s1.1) => ?_) ?_; clear_value s1)
    | (lift_lets; intro s1; clear_value s1)
    | with_reducible apply Keeps.ite
    | with_reducible apply State.draw_keeps
    | with_reducible apply State.calEnd_keeps
    | with_reducible apply State.calCommit_keeps
    | with_reducible apply State.calSave_keeps
    | with_reducible apply Keeps.mk

theorem State.retrainEnd_keeps {org s : State} {r : Nat} {lanes : List (BitVec 256 × BitVec 256)} (hs : Keeps org s) : Keeps org (s.retrainEnd r lanes) := by
  unfold State.retrainEnd
  repeat' first
    | with_reducible assumption
    | (intro t a ht; have hk : Keeps org t := ht; clear hk)
    | (intro t ht; have hk : Keeps org t := ht; clear hk)
    | (intro t a ht; have hk : Keeps org t.1 := ht; clear hk)
    | (intro s1; refine (fun (hs1 : Keeps org s1) => ?_) ?_; clear_value s1)
    | (intro s1; refine (fun (hs1 : Keeps org s1.1) => ?_) ?_; clear_value s1)
    | (intro s1; clear_value s1)
    | (lift_lets; intro s1; refine (fun (hs1 : Keeps org s1) => ?_) ?_; clear_value s1)
    | (lift_lets; intro s1; refine (fun (hs1 : Keeps org s1.1) => ?_) ?_; clear_value s1)
    | (lift_lets; intro s1; clear_value s1)
    | with_reducible apply Keeps.ite
    | with_reducible apply Keeps.foldl
    | with_reducible apply Keeps.foldl_fst
    | with_reducible apply State.modCh_keeps
    | with_reducible apply State.calEnd_keeps
    | with_reducible apply State.calCommit_keeps
    | with_reducible apply State.calReturn_keeps

theorem State.alignEnd_keeps {org s : State} {r : Nat} (hs : Keeps org s) : Keeps org (s.alignEnd r) := by
  unfold State.alignEnd
  repeat' first
    | with_reducible assumption
    | (intro t a ht; have hk : Keeps org t := ht; clear hk)
    | (intro t ht; have hk : Keeps org t := ht; clear hk)
    | (intro t a ht; have hk : Keeps org t.1 := ht; clear hk)
    | (intro s1; refine (fun (hs1 : Keeps org s1) => ?_) ?_; clear_value s1)
    | (intro s1; clear_value s1)
    | (lift_lets; intro s1; refine (fun (hs1 : Keeps org s1) => ?_) ?_; clear_value s1)
    | (lift_lets; intro s1; clear_value s1)
    | with_reducible apply Keeps.each
    | with_reducible apply Keeps.ite
    | with_reducible apply Keeps.foldl
    | with_reducible apply Keeps.foldl_fst
    | with_reducible apply State.calEnd_keeps
    | with_reducible apply State.calCommit_keeps
    | with_reducible apply State.calSave_keeps

theorem State.calDone_keeps {org s : State} {r : Nat} {lanes : List (BitVec 256 × BitVec 256)} (hs : Keeps org s) : Keeps org (s.calDone r lanes) := by
  unfold State.calDone
  repeat' first
    | with_reducible assumption
    | (intro s1; refine (fun (hs1 : Keeps org s1) => ?_) ?_; clear_value s1)
    | (intro s1; clear_value s1)
    | (lift_lets; intro s1; refine (fun (hs1 : Keeps org s1) => ?_) ?_; clear_value s1)
    | (lift_lets; intro s1; clear_value s1)
    | with_reducible apply Keeps.ite
    | with_reducible apply State.calEndOpen_keeps
    | with_reducible apply State.calReturn_keeps
    | with_reducible apply State.darkEnd_keeps
    | with_reducible apply State.flatEnd_keeps
    | with_reducible apply State.trimEnd_keeps
    | with_reducible apply State.retrainEnd_keeps
    | with_reducible apply State.alignEnd_keeps
    | split

theorem State.laneCalDone_keeps {org s : State} {p : Nat} (hs : Keeps org s) : Keeps org (s.laneCalDone p) := by
  unfold State.laneCalDone
  repeat' first
    | with_reducible assumption
    | (intro s1; refine (fun (hs1 : Keeps org s1) => ?_) ?_; clear_value s1)
    | (intro s1; refine (fun (hs1 : Keeps org s1.1) => ?_) ?_; clear_value s1)
    | (intro s1; clear_value s1)
    | (lift_lets; intro s1; refine (fun (hs1 : Keeps org s1) => ?_) ?_; clear_value s1)
    | (lift_lets; intro s1; refine (fun (hs1 : Keeps org s1.1) => ?_) ?_; clear_value s1)
    | (lift_lets; intro s1; clear_value s1)
    | with_reducible apply Keeps.ite
    | with_reducible apply State.draw_keeps
    | with_reducible apply State.postUnit_keeps
    | with_reducible apply State.laneReturn_keeps
    | with_reducible apply State.goLive_keeps
    | with_reducible apply State.calEnd_keeps
    | with_reducible apply State.calCommit_keeps
    | with_reducible apply State.calSave_keeps
    | simp only [s1]
    | split

theorem State.calFirst_keeps {org s : State} (hs : Keeps org s) : Keeps org (s.calFirst) := by
  unfold State.calFirst
  repeat' first
    | with_reducible assumption
    | (intro t a ht; have hk : Keeps org t := ht; clear hk)
    | (intro t ht; have hk : Keeps org t := ht; clear hk)
    | with_reducible apply Keeps.each
    | with_reducible apply State.calDone_keeps
    | with_reducible apply State.laneCalDone_keeps
    | split

theorem State.resultFirst_keeps {org s : State} {r : Nat} (hs : Keeps org s) : Keeps org (s.resultFirst r) := by
  unfold State.resultFirst
  repeat' first
    | with_reducible assumption
    | (intro t a ht; have hk : Keeps org t := ht; clear hk)
    | (intro t ht; have hk : Keeps org t := ht; clear hk)
    | with_reducible apply Keeps.each
    | with_reducible apply Keeps.ite
    | with_reducible apply State.calDone_keeps
    | split

theorem State.doCalAbort_keeps {org s : State} {m : Msg} (hs : Keeps org s) : Keeps org (s.doCalAbort m).1 := by
  unfold State.doCalAbort
  repeat' first
    | with_reducible assumption
    | (intro s1; refine (fun (hs1 : Keeps org s1) => ?_) ?_; clear_value s1)
    | (intro s1; clear_value s1)
    | (lift_lets; intro s1; refine (fun (hs1 : Keeps org s1) => ?_) ?_; clear_value s1)
    | (lift_lets; intro s1; clear_value s1)
    | with_reducible apply Keeps.ite_fst
    | with_reducible apply Keeps.ite
    | with_reducible apply State.say_keeps
    | with_reducible apply State.modRun_keeps
    | with_reducible apply State.resultFirst_keeps
    | simp only [s1]
    | split
    | (refine Keeps.ofEq (by assumption) ?_)

theorem State.calTimeout_keeps {org s : State} {r : Nat} (hs : Keeps org s) : Keeps org (s.calTimeout r) := by
  unfold State.calTimeout
  repeat' first
    | with_reducible assumption
    | (intro s1; refine (fun (hs1 : Keeps org s1) => ?_) ?_; clear_value s1)
    | (intro s1; clear_value s1)
    | (lift_lets; intro s1; refine (fun (hs1 : Keeps org s1) => ?_) ?_; clear_value s1)
    | (lift_lets; intro s1; clear_value s1)
    | with_reducible apply Keeps.ite
    | with_reducible apply State.modRun_keeps
    | with_reducible apply State.resultFirst_keeps

theorem State.commitFirst_keeps {org s : State} (hs : Keeps org s) : Keeps org (s.commitFirst) := by
  unfold State.commitFirst
  repeat' first
    | with_reducible assumption
    | (intro t a ht; have hk : Keeps org t := ht; clear hk)
    | (intro t ht; have hk : Keeps org t := ht; clear hk)
    | with_reducible apply Keeps.each
    | with_reducible apply State.boundary_keeps
    | with_reducible apply State.readPoint_keeps
    | with_reducible apply State.commitPoint_keeps
    | split

theorem State.storeProgram_keeps {org s : State} {q c : Nat} {words : List Word} (hs : Keeps org s) : Keeps org (s.storeProgram q c words) := by
  unfold State.storeProgram
  repeat' first
    | with_reducible assumption
    | (intro t a ht; have hk : Keeps org t := ht; clear hk)
    | (intro t ht; have hk : Keeps org t := ht; clear hk)
    | (intro s1; refine (fun (hs1 : Keeps org s1) => ?_) ?_; clear_value s1)
    | (intro s1; refine (fun (hs1 : Keeps org s1.1) => ?_) ?_; clear_value s1)
    | (intro s1; clear_value s1)
    | (lift_lets; intro s1; refine (fun (hs1 : Keeps org s1) => ?_) ?_; clear_value s1)
    | (lift_lets; intro s1; refine (fun (hs1 : Keeps org s1.1) => ?_) ?_; clear_value s1)
    | (lift_lets; intro s1; clear_value s1)
    | with_reducible apply Keeps.each
    | with_reducible apply Keeps.ite
    | with_reducible apply State.sramWrite_keeps
    | with_reducible apply Keeps.mk

theorem State.loadImage_keeps {org s : State} {n q c level len : Nat} {h b : List Byte} (hs : Keeps org s) : Keeps org (s.loadImage n q c level len h b).1 := by
  unfold State.loadImage
  repeat' first
    | with_reducible assumption
    | (intro s1; refine (fun (hs1 : Keeps org s1) => ?_) ?_; clear_value s1)
    | (intro s1; clear_value s1)
    | (lift_lets; intro s1; refine (fun (hs1 : Keeps org s1) => ?_) ?_; clear_value s1)
    | (lift_lets; intro s1; clear_value s1)
    | with_reducible apply Keeps.ite_fst
    | with_reducible apply Keeps.ite
    | with_reducible apply State.modCtx_keeps
    | with_reducible apply State.say_keeps
    | with_reducible apply State.storeProgram_keeps
    | split

theorem State.doCtxLoad_keeps {org s : State} {n : Nat} {m : Msg} (hs : Keeps org s) : Keeps org (s.doCtxLoad n m).1 := by
  unfold State.doCtxLoad
  repeat' first
    | with_reducible assumption
    | (intro s1; refine (fun (hs1 : Keeps org s1) => ?_) ?_; clear_value s1)
    | (intro s1; clear_value s1)
    | (lift_lets; intro s1; refine (fun (hs1 : Keeps org s1) => ?_) ?_; clear_value s1)
    | (lift_lets; intro s1; clear_value s1)
    | with_reducible apply Keeps.ite_fst
    | with_reducible apply Keeps.ite
    | with_reducible apply State.vread_keeps
    | with_reducible apply State.say_keeps
    | with_reducible apply State.loadImage_keeps
    | split
    | (refine Keeps.ofEq (by assumption) ?_)

theorem State.doCtxArm_keeps {org s : State} {n : Nat} {m : Msg} (hs : Keeps org s) : Keeps org (s.doCtxArm n m).1 := by
  unfold State.doCtxArm
  repeat' first
    | with_reducible assumption
    | (intro t a ht; have hk : Keeps org t := ht; clear hk)
    | (intro t ht; have hk : Keeps org t := ht; clear hk)
    | (intro s1; refine (fun (hs1 : Keeps org s1) => ?_) ?_; clear_value s1)
    | (intro s1; clear_value s1)
    | (lift_lets; intro s1; refine (fun (hs1 : Keeps org s1) => ?_) ?_; clear_value s1)
    | (lift_lets; intro s1; clear_value s1)
    | with_reducible apply Keeps.each
    | with_reducible apply Keeps.ite_fst
    | with_reducible apply Keeps.ite
    | with_reducible apply State.modCtx_keeps
    | with_reducible apply State.causeClear_keeps
    | with_reducible apply State.say_keeps
    | simp only [s1]
    | split

theorem State.doCtxStart_keeps {org s : State} {n : Nat} {m : Msg} (hs : Keeps org s) : Keeps org (s.doCtxStart n m).1 := by
  unfold State.doCtxStart
  repeat' first
    | with_reducible assumption
    | (intro s1; refine (fun (hs1 : Keeps org s1) => ?_) ?_; clear_value s1)
    | (intro s1; clear_value s1)
    | (lift_lets; intro s1; refine (fun (hs1 : Keeps org s1) => ?_) ?_; clear_value s1)
    | (lift_lets; intro s1; clear_value s1)
    | with_reducible apply Keeps.ite_fst
    | with_reducible apply Keeps.ite
    | with_reducible apply State.modSeq_keeps
    | with_reducible apply State.modCtx_keeps
    | with_reducible apply State.emergCore_keeps
    | with_reducible apply State.say_keeps
    | split

theorem State.doCtxStop_keeps {org s : State} {n : Nat} {m : Msg} (hs : Keeps org s) : Keeps org (s.doCtxStop n m).1 := by
  unfold State.doCtxStop
  repeat' first
    | with_reducible assumption
    | (intro t a ht; have hk : Keeps org t := ht; clear hk)
    | (intro t ht; have hk : Keeps org t := ht; clear hk)
    | (intro s1; refine (fun (hs1 : Keeps org s1) => ?_) ?_; clear_value s1)
    | (intro s1; clear_value s1)
    | (lift_lets; intro s1; refine (fun (hs1 : Keeps org s1) => ?_) ?_; clear_value s1)
    | (lift_lets; intro s1; clear_value s1)
    | with_reducible apply Keeps.when
    | with_reducible apply Keeps.ite_fst
    | with_reducible apply Keeps.ite
    | with_reducible apply State.modCtx_keeps
    | with_reducible apply State.abortSwath_keeps
    | with_reducible apply State.freeCtx_keeps
    | with_reducible apply State.say_keeps
    | split

end Sys2Proof.Machine
end

