-- ==== Sys2Proof/Laws/KeepRegs.lean ====
section
/-! SUPPORT. What the operations keep: the register reads and writes, and held requests. -/
set_option maxRecDepth 2000
namespace Sys2Proof.Machine
open Sys2Proof

theorem State.readEffect_keeps {org s : State} {a : Nat} (hs : Keeps org s) : Keeps org (s.readEffect a) := by
  unfold State.readEffect
  repeat' first
    | with_reducible assumption
    | with_reducible apply Keeps.ite
    | with_reducible apply State.modTim_keeps
    | with_reducible apply State.nowSecRead_keeps

theorem State.readWords_keeps {org : State} {n : Option Nat} {f : Nat} : ∀ {k a : Nat} {s : State}, Keeps org s →
    Keeps org (s.readWords n f k a).1
  | 0, _, _, h => h
  | k + 1, a, s, h => by
    unfold State.readWords
    exact State.readWords_keeps (State.readEffect_keeps h)

theorem State.doRegRead_keeps {org s : State} {n : Nat} {m : Msg} (hs : Keeps org s) : Keeps org (s.doRegRead n m).1 := by
  unfold State.doRegRead
  repeat' first
    | with_reducible assumption
    | (intro s1; refine (fun (hs1 : Keeps org s1) => ?_) ?_; clear_value s1)
    | (intro s1; refine (fun (hs1 : Keeps org s1.1) => ?_) ?_; clear_value s1)
    | (intro s1; clear_value s1)
    | (lift_lets; intro s1; refine (fun (hs1 : Keeps org s1) => ?_) ?_; clear_value s1)
    | (lift_lets; intro s1; refine (fun (hs1 : Keeps org s1.1) => ?_) ?_; clear_value s1)
    | (lift_lets; intro s1; clear_value s1)
    | with_reducible apply Keeps.ite_fst
    | with_reducible apply Keeps.ite
    | with_reducible apply State.say_keeps
    | with_reducible apply State.readWords_keeps
    | simp only [s1]
    | split

theorem State.wrSafeLatch_keeps {org s : State} {n : Nat} {v : Word} (hs : Keeps org s) : Keeps org (s.wrSafeLatch n v).1 := by
  unfold State.wrSafeLatch
  repeat' first
    | with_reducible assumption
    | (intro t a ht; have hk : Keeps org t := ht; clear hk)
    | (intro t ht; have hk : Keeps org t := ht; clear hk)
    | with_reducible apply State.modSafe_keeps
    | with_reducible apply State.ifRight_keeps

theorem State.wrSnapCfg_keeps {org s : State} {n i : Nat} {v : Word} (hs : Keeps org s) : Keeps org (s.wrSnapCfg n i v).1 := by
  unfold State.wrSnapCfg
  repeat' first
    | with_reducible assumption
    | (intro t a ht; have hk : Keeps org t := ht; clear hk)
    | (intro t ht; have hk : Keeps org t := ht; clear hk)
    | (intro s1; refine (fun (hs1 : Keeps org s1) => ?_) ?_; clear_value s1)
    | (intro s1; clear_value s1)
    | (lift_lets; intro s1; refine (fun (hs1 : Keeps org s1) => ?_) ?_; clear_value s1)
    | (lift_lets; intro s1; clear_value s1)
    | with_reducible apply Keeps.when
    | with_reducible apply State.setReg_keeps
    | with_reducible apply State.modSess_keeps
    | with_reducible apply State.ifRight_keeps

theorem State.wrHregDat_keeps {org s : State} {n o mask v : Nat} (hs : Keeps org s) : Keeps org (s.wrHregDat n o mask v).1 := by
  unfold State.wrHregDat
  repeat' first
    | with_reducible assumption
    | (intro t a ht; have hk : Keeps org t := ht; clear hk)
    | (intro t ht; have hk : Keeps org t := ht; clear hk)
    | (intro t a ht; have hk : Keeps org t.1 := ht; clear hk)
    | (intro s1; refine (fun (hs1 : Keeps org s1) => ?_) ?_; clear_value s1)
    | (intro s1; clear_value s1)
    | (lift_lets; intro s1; refine (fun (hs1 : Keeps org s1) => ?_) ?_; clear_value s1)
    | (lift_lets; intro s1; clear_value s1)
    | with_reducible apply Keeps.ite_fst
    | with_reducible apply Keeps.ite
    | with_reducible apply Keeps.foldl
    | with_reducible apply Keeps.foldl_fst
    | with_reducible apply State.modKl_keeps
    | with_reducible apply State.klHolder_keeps
    | split

theorem State.wrFnWin_keeps {org s : State} {n f : Nat} {v : Word} (hs : Keeps org s) : Keeps org (s.wrFnWin n f v).1 := by
  unfold State.wrFnWin
  repeat' first
    | with_reducible assumption
    | (intro t a ht; have hk : Keeps org t := ht; clear hk)
    | (intro t ht; have hk : Keeps org t := ht; clear hk)
    | with_reducible apply State.setReg_keeps
    | with_reducible apply State.ifRight_keeps

theorem State.wrQuota_keeps {org s : State} {n i : Nat} {v : Word} (hs : Keeps org s) : Keeps org (s.wrQuota n i v).1 := by
  unfold State.wrQuota
  repeat' first
    | with_reducible assumption
    | (intro t a ht; have hk : Keeps org t := ht; clear hk)
    | (intro t ht; have hk : Keeps org t := ht; clear hk)
    | with_reducible apply Keeps.ite_fst
    | with_reducible apply Keeps.ite
    | with_reducible apply State.modSess_keeps
    | with_reducible apply State.ifRight_keeps
    | split

theorem State.writeReg_keeps {org s : State} {n i base : Nat} {v : Word} {byCmd : Bool} (hs : Keeps org s) : Keeps org (s.writeReg n i base v byCmd).1 := by
  unfold State.writeReg
  repeat' first
    | with_reducible assumption
    | with_reducible apply Keeps.ite_fst
    | with_reducible apply Keeps.ite
    | with_reducible apply State.wrEncCtl_keeps
    | with_reducible apply State.wrStrCfg_keeps
    | with_reducible apply State.wrRingCtl_keeps
    | with_reducible apply State.wrCvCtl_keeps
    | with_reducible apply State.wrMotCmd_keeps
    | with_reducible apply State.wrAxCtl_keeps
    | with_reducible apply State.wrNzCtl_keeps
    | with_reducible apply State.wrTestCtl_keeps
    | with_reducible apply State.wrAlCtl_keeps
    | with_reducible apply State.wrHregCmd_keeps
    | with_reducible apply State.wrPrbs_keeps
    | with_reducible apply State.wrKlPortCtl_keeps
    | with_reducible apply State.wrHvCtl_keeps
    | with_reducible apply State.wrFirPortCtl_keeps
    | with_reducible apply State.wrCamCtl_keeps
    | with_reducible apply State.wrI2c_keeps
    | with_reducible apply State.wrRingPtr_keeps
    | with_reducible apply State.wrFlipMask_keeps
    | with_reducible apply State.wrFlipCtl_keeps
    | with_reducible apply State.wrSetSec_keeps
    | with_reducible apply State.wrSetNs_keeps
    | with_reducible apply State.wrFeedCtl_keeps
    | with_reducible apply State.wrSignal_keeps
    | with_reducible apply State.wrGsignal_keeps
    | with_reducible apply State.wrEvbits_keeps
    | with_reducible apply State.commitFirst_keeps
    | with_reducible apply State.wrSafeLatch_keeps
    | with_reducible apply State.wrSnapCfg_keeps
    | with_reducible apply State.wrFnWin_keeps
    | with_reducible apply State.wrQuota_keeps
    | split
    | (refine Keeps.ofEq (by assumption) ?_)

theorem State.wrMsix_keeps {org s : State} {f o mask v : Nat} (hs : Keeps org s) : Keeps org (s.wrMsix f o mask v) := by
  unfold State.wrMsix
  exact State.msixFlush_keeps (Keeps.mk hs)

theorem State.acceptFirst_keeps {org s : State} (hs : Keeps org s) : Keeps org (s.acceptFirst) := by
  unfold State.acceptFirst
  repeat' first
    | with_reducible assumption
    | (intro t a ht; have hk : Keeps org t := ht; clear hk)
    | (intro t ht; have hk : Keeps org t := ht; clear hk)
    | with_reducible apply Keeps.each
    | with_reducible apply State.ramCommit_keeps
    | split

theorem State.writeWord_keeps {org s : State} {n a mask v : Nat} {byCmd auth : Bool} (hs : Keeps org s) : Keeps org (s.writeWord n a mask v byCmd auth).1 := by
  unfold State.writeWord
  split
  all_goals
  repeat' first
    | with_reducible assumption
    | (intro s1; refine (fun (hs1 : Keeps org s1) => ?_) ?_; clear_value s1)
    | (intro s1; clear_value s1)
    | (lift_lets; intro s1; refine (fun (hs1 : Keeps org s1) => ?_) ?_; clear_value s1)
    | (lift_lets; intro s1; clear_value s1)
    | with_reducible apply Keeps.ite_fst
    | with_reducible apply Keeps.ite
    | with_reducible apply State.refuse_keeps
    | with_reducible apply State.stageWord_keeps
    | with_reducible apply State.wrHregDat_keeps
    | with_reducible apply State.writeReg_keeps
    | with_reducible apply State.wrMsix_keeps
    | with_reducible apply State.acceptFirst_keeps
    | split
    | (refine Keeps.ofEq (by assumption) ?_)

theorem State.barWrite_keeps {org s : State} {f a : Nat} {data : List Byte} (hs : Keeps org s) : Keeps org (s.barWrite f a data) := by
  unfold State.barWrite
  repeat' first
    | with_reducible assumption
    | (intro s1; refine (fun (hs1 : Keeps org s1) => ?_) ?_; clear_value s1)
    | (intro s1; refine (fun (hs1 : Keeps org s1.1) => ?_) ?_; clear_value s1)
    | (intro s1; clear_value s1)
    | (lift_lets; intro s1; refine (fun (hs1 : Keeps org s1) => ?_) ?_; clear_value s1)
    | (lift_lets; intro s1; refine (fun (hs1 : Keeps org s1.1) => ?_) ?_; clear_value s1)
    | (lift_lets; intro s1; clear_value s1)
    | with_reducible apply Keeps.ite
    | with_reducible apply State.dropWr_keeps
    | with_reducible apply State.wrMsix_keeps
    | with_reducible apply State.writeWord_keeps
    | split

theorem State.winPieces_keeps {org s : State} {n f va : Nat} {write : Bool} {data : List Byte} {l : List Piece} (hs : Keeps org s) : Keeps org (s.winPieces n f va write data l) := by
  unfold State.winPieces
  repeat' first
    | with_reducible assumption
    | (intro s1; refine (fun (hs1 : Keeps org s1) => ?_) ?_; clear_value s1)
    | (intro s1; clear_value s1)
    | (lift_lets; intro s1; refine (fun (hs1 : Keeps org s1) => ?_) ?_; clear_value s1)
    | (lift_lets; intro s1; clear_value s1)
    | with_reducible apply Keeps.ite
    | with_reducible apply State.emit_keeps
    | with_reducible apply State.xltFault_keeps
    | with_reducible apply State.readPieces_keeps
    | with_reducible apply State.writePieces_keeps
    | split
    | (refine Keeps.ofEq (by assumption) ?_)

theorem State.winAccess_keeps {org s : State} {f o : Nat} {write : Bool} {data : List Byte} (hs : Keeps org s) : Keeps org (s.winAccess f o write data) := by
  unfold State.winAccess
  repeat' first
    | with_reducible assumption
    | (intro s1; refine (fun (hs1 : Keeps org s1) => ?_) ?_; clear_value s1)
    | (intro s1; clear_value s1)
    | (lift_lets; intro s1; refine (fun (hs1 : Keeps org s1) => ?_) ?_; clear_value s1)
    | (lift_lets; intro s1; clear_value s1)
    | with_reducible apply Keeps.ite
    | with_reducible apply State.emit_keeps
    | with_reducible apply State.dropWr_keeps
    | with_reducible apply State.access_keeps
    | with_reducible apply State.winPieces_keeps
    | split
    | (refine Keeps.ofEq (by assumption) ?_)

theorem State.writeWords_keeps {org : State} {n : Nat} {m : Msg} {a : Nat} : ∀ {k i : Nat} {s : State}, Keeps org s →
    Keeps org (s.writeWords n m a k i).1
  | 0, _, _, h => h
  | k + 1, i, s, h => by
    unfold State.writeWords
    have hw := State.writeWord_keeps (n := n) (a := a + 8 * i) (mask := all64) (v := m.f (8 + 8 * i) 8) (byCmd := true)
      (auth := false) h
    dsimp only
    split
    · exact State.writeWords_keeps hw
    · exact hw

theorem State.doRegWrite_keeps {org s : State} {n : Nat} {m : Msg} (hs : Keeps org s) : Keeps org (s.doRegWrite n m).1 := by
  unfold State.doRegWrite
  repeat' first
    | with_reducible assumption
    | (intro s1; refine (fun (hs1 : Keeps org s1) => ?_) ?_; clear_value s1)
    | (intro s1; refine (fun (hs1 : Keeps org s1.1) => ?_) ?_; clear_value s1)
    | (intro s1; clear_value s1)
    | (lift_lets; intro s1; refine (fun (hs1 : Keeps org s1) => ?_) ?_; clear_value s1)
    | (lift_lets; intro s1; refine (fun (hs1 : Keeps org s1.1) => ?_) ?_; clear_value s1)
    | (lift_lets; intro s1; clear_value s1)
    | with_reducible apply State.writeWords_keeps

theorem State.doAuthWrite_keeps {org s : State} {n : Nat} {m : Msg} (hs : Keeps org s) : Keeps org (s.doAuthWrite n m).1 := by
  unfold State.doAuthWrite
  repeat' first
    | with_reducible assumption
    | (intro s1; refine (fun (hs1 : Keeps org s1) => ?_) ?_; clear_value s1)
    | (intro s1; refine (fun (hs1 : Keeps org s1.1) => ?_) ?_; clear_value s1)
    | (intro s1; clear_value s1)
    | (lift_lets; intro s1; refine (fun (hs1 : Keeps org s1) => ?_) ?_; clear_value s1)
    | (lift_lets; intro s1; refine (fun (hs1 : Keeps org s1.1) => ?_) ?_; clear_value s1)
    | (lift_lets; intro s1; clear_value s1)
    | with_reducible apply State.say_keeps
    | with_reducible apply State.writeWord_keeps

theorem State.doSnapshot_keeps {org s : State} {n : Nat} {m : Msg} (hs : Keeps org s) : Keeps org (s.doSnapshot n m).1 := by
  unfold State.doSnapshot
  repeat' first
    | with_reducible assumption
    | (intro s1; refine (fun (hs1 : Keeps org s1) => ?_) ?_; clear_value s1)
    | (intro s1; refine (fun (hs1 : Keeps org s1.1) => ?_) ?_; clear_value s1)
    | (intro s1; clear_value s1)
    | (lift_lets; intro s1; refine (fun (hs1 : Keeps org s1) => ?_) ?_; clear_value s1)
    | (lift_lets; intro s1; refine (fun (hs1 : Keeps org s1.1) => ?_) ?_; clear_value s1)
    | (lift_lets; intro s1; clear_value s1)
    | with_reducible apply Keeps.ite_fst
    | with_reducible apply Keeps.ite
    | with_reducible apply State.vwrite_keeps
    | with_reducible apply State.say_keeps
    | with_reducible apply State.commitFirst_keeps
    | split

theorem State.snapPeriodic_keeps {org s : State} {n : Nat} (hs : Keeps org s) : Keeps org (s.snapPeriodic n) := by
  unfold State.snapPeriodic
  repeat' first
    | with_reducible assumption
    | (intro s1; refine (fun (hs1 : Keeps org s1) => ?_) ?_; clear_value s1)
    | (intro s1; refine (fun (hs1 : Keeps org s1.1) => ?_) ?_; clear_value s1)
    | (intro s1; clear_value s1)
    | (lift_lets; intro s1; refine (fun (hs1 : Keeps org s1) => ?_) ?_; clear_value s1)
    | (lift_lets; intro s1; refine (fun (hs1 : Keeps org s1.1) => ?_) ?_; clear_value s1)
    | (lift_lets; intro s1; clear_value s1)
    | with_reducible apply Keeps.ite
    | with_reducible apply State.modSess_keeps
    | with_reducible apply State.vwrite_keeps
    | with_reducible apply State.commitFirst_keeps

theorem State.actOf_keeps {org s : State} {op sub n : Nat} {m : Msg} (hs : Keeps org s) :
    Keeps org (State.actOf op sub m s n).1 := by
  unfold State.actOf
  split
  all_goals first
    | with_reducible exact State.say_keeps hs
    | with_reducible exact State.doConfirm_keeps hs
    | with_reducible exact State.doClose_keeps hs
    | with_reducible exact State.doRevokeSession_keeps hs
    | with_reducible exact State.doRevokeUnit_keeps hs
    | with_reducible exact State.doKeyInstall_keeps hs
    | with_reducible exact State.doKeyErase_keeps hs
    | with_reducible exact State.doNetSet_keeps hs
    | with_reducible exact State.doClaim_keeps hs
    | with_reducible exact State.doRelease_keeps hs
    | with_reducible exact State.doMemAlloc_keeps hs
    | with_reducible exact State.doMemFree_keeps hs
    | with_reducible exact State.doPtSet_keeps hs
    | with_reducible exact State.doTlbInval_keeps hs
    | with_reducible exact State.doFaultResume_keeps hs
    | with_reducible exact State.doMemWrite_keeps hs
    | with_reducible exact State.doMemRead_keeps hs
    | with_reducible exact State.doCommit_keeps hs
    | with_reducible exact State.doDiscard_keeps hs
    | with_reducible exact State.doRepair_keeps hs
    | with_reducible exact State.doNvWrite_keeps hs
    | with_reducible exact State.doNvRead_keeps hs
    | with_reducible exact State.doFwStage_keeps hs
    | with_reducible exact State.doFwSwitch_keeps hs
    | with_reducible exact State.doCal_keeps hs
    | with_reducible exact State.doCalAbort_keeps hs
    | with_reducible exact State.doCtxLoad_keeps hs
    | with_reducible exact State.doCtxArm_keeps hs
    | with_reducible exact State.doCtxStart_keeps hs
    | with_reducible exact State.doCtxStop_keeps hs
    | with_reducible exact State.doRegRead_keeps hs
    | with_reducible exact State.doRegWrite_keeps hs
    | with_reducible exact State.doAuthWrite_keeps hs
    | with_reducible exact State.doSnapshot_keeps hs
    | (split; exact State.doRevokeSession_keeps hs; exact State.doRevokeUnit_keeps hs)
    | (split; exact State.doCalAbort_keeps hs; exact State.doCal_keeps hs)

theorem State.heldRun_keeps {org s : State} {r : Nat × Nat × Msg} (hs : Keeps org s) : Keeps org (s.heldRun r) := by
  unfold State.heldRun
  dsimp only
  split
  · exact State.modXlt_keeps hs
  · split
    · exact State.decideOpen_keeps hs
    · exact State.decideMsg_keeps (State.modSess_keeps hs) (fun t a ht => State.actOf_keeps ht)

theorem State.mgmtResume_keeps {org s : State} (hs : Keeps org s) : Keeps org (s.mgmtResume) := by
  unfold State.mgmtResume
  repeat' first
    | with_reducible assumption
    | (intro t a ht; have hk : Keeps org t := ht; clear hk)
    | (intro t ht; have hk : Keeps org t := ht; clear hk)
    | (intro s1; refine (fun (hs1 : Keeps org s1) => ?_) ?_; clear_value s1)
    | (intro s1; clear_value s1)
    | (lift_lets; intro s1; refine (fun (hs1 : Keeps org s1) => ?_) ?_; clear_value s1)
    | (lift_lets; intro s1; clear_value s1)
    | with_reducible apply Keeps.each
    | with_reducible apply Keeps.ite
    | with_reducible apply State.modXlt_keeps
    | with_reducible apply State.modSafe_keeps
    | with_reducible apply State.heldRun_keeps
    | with_reducible apply Keeps.mk

theorem State.idle_keeps {org s : State} (hs : Keeps org s) : Keeps org (s.idle) := by
  unfold State.idle
  repeat' first
    | with_reducible assumption
    | with_reducible apply State.arrive_keeps
    | with_reducible apply State.fwPoll_keeps

end Sys2Proof.Machine
end

