-- ==== Sys2Proof/Laws/Ramest.lean ====
section
/-! SUPPORT. The course of a Ramest instruction, once for all of them: what a command of a sequencer comes to when its
instruction ends, when its word or its context stops it, and when there is nothing to do. -/
namespace Sys2Proof.Machine
open Sys2Proof

theorem vmod_vmod {α : Type} {n : Nat} [Inhabited α] (v : Vector α n) (i : Nat) (f g : α → α) :
    vmod (vmod v i f) i g = vmod v i (fun x => g (f x)) := by
  by_cases h : i < n
  · have e : vget (vmod v i f) i = f (vget v i) := vget_vmod v i f h
    unfold vmod at e ⊢
    rw [e]
    apply Vector.ext
    intro j hj
    by_cases k : i = j <;> simp [vset, k]
  · have e : ∀ w : Vector α n, ∀ x, vset w i x = w := fun w x => by
      apply Vector.ext
      intro j hj
      have : i ≠ j := fun k => h (k ▸ hj)
      simp [vset, this]
    simp [vmod, e]

theorem vmod_congr {α : Type} {n : Nat} [Inhabited α] (v : Vector α n) (i : Nat) {f g : α → α}
    (h : f (vget v i) = g (vget v i)) : vmod v i f = vmod v i g := by
  unfold vmod
  rw [h]

/-- Two changes of one context are one. -/
theorem State.modCtx_modCtx (s : State) (q c : Nat) (f g : Ctx → Ctx) :
    (s.modCtx q c f).modCtx q c g = s.modCtx q c (fun x => g (f x)) := by
  have e : vmod (vmod s.ctx q fun v => vmod v c f) q (fun v => vmod v c g) = vmod s.ctx q fun v => vmod v c fun x => g (f x) := by
    rw [vmod_vmod]
    exact vmod_congr _ _ (vmod_vmod _ _ _ _)
  exact congrArg (fun m => { s with ctx := m }) e

theorem State.modCtx_congr (s : State) (q c : Nat) {f g : Ctx → Ctx} (h : f (s.ctxOf q c) = g (s.ctxOf q c)) :
    s.modCtx q c f = s.modCtx q c g := by
  have e : vmod s.ctx q (fun v => vmod v c f) = vmod s.ctx q (fun v => vmod v c g) :=
    vmod_congr (f := fun v => vmod v c f) (g := fun v => vmod v c g) _ _ (vmod_congr _ _ h)
  exact congrArg (fun m => { s with ctx := m }) e

@[simp] theorem State.fetched_ctxOf (u : State) (q c a b : Nat) : (u.fetched q c).ctxOf a b = u.ctxOf a b :=
  State.ctxOf_eq (u.sramRead_ctx _ _) a b

@[simp] theorem State.fetched_pending (u : State) (q c : Nat) : (u.fetched q c).pending = u.pending := u.sramRead_pending _ _
@[simp] theorem State.fetched_now (u : State) (q c : Nat) : (u.fetched q c).now = u.now := u.sramRead_now _ _
@[simp] theorem State.fetched_tickBase (u : State) (q c : Nat) : (u.fetched q c).tickBase = u.tickBase := u.sramRead_tickBase _ _
@[simp] theorem State.fetched_draws (u : State) (q c : Nat) : (u.fetched q c).draws = u.draws := u.sramRead_draws _ _
@[simp] theorem State.fetched_agenda (u : State) (q c : Nat) : (u.fetched q c).agenda = u.agenda := u.sramRead_agenda _ _
@[simp] theorem State.fetched_gapTime (u : State) (q c : Nat) : (u.fetched q c).gapTime = u.gapTime := u.sramRead_gapTime _ _
@[simp] theorem State.fetched_phase (u : State) (q c : Nat) : (u.fetched q c).phase = u.phase := u.sramRead_phase _ _
@[simp] theorem State.fetched_dram (u : State) (q c : Nat) : (u.fetched q c).dram = u.dram := u.sramRead_dram _ _
@[simp] theorem State.fetched_dramUe (u : State) (q c : Nat) : (u.fetched q c).dramUe = u.dramUe := u.sramRead_dramUe _ _
@[simp] theorem State.fetched_dramCe (u : State) (q c : Nat) : (u.fetched q c).dramCe = u.dramCe := u.sramRead_dramCe _ _
@[simp] theorem State.fetched_hostMem (u : State) (q c : Nat) : (u.fetched q c).hostMem = u.hostMem := u.sramRead_hostMem _ _
@[simp] theorem State.fetched_pstore (u : State) (q c : Nat) : (u.fetched q c).pstore = u.pstore := u.sramRead_pstore _ _
@[simp] theorem State.fetched_pstoreBad (u : State) (q c : Nat) : (u.fetched q c).pstoreBad = u.pstoreBad := u.sramRead_pstoreBad _ _
@[simp] theorem State.fetched_ctxBad (u : State) (q c : Nat) : (u.fetched q c).ctxBad = u.ctxBad := u.sramRead_ctxBad _ _
@[simp] theorem State.fetched_seq (u : State) (q c : Nat) : (u.fetched q c).seq = u.seq := u.sramRead_seq _ _
@[simp] theorem State.fetched_ctx (u : State) (q c : Nat) : (u.fetched q c).ctx = u.ctx := u.sramRead_ctx _ _
@[simp] theorem State.fetched_str (u : State) (q c : Nat) : (u.fetched q c).str = u.str := u.sramRead_str _ _
@[simp] theorem State.fetched_ring (u : State) (q c : Nat) : (u.fetched q c).ring = u.ring := u.sramRead_ring _ _
@[simp] theorem State.fetched_eng (u : State) (q c : Nat) : (u.fetched q c).eng = u.eng := u.sramRead_eng _ _
@[simp] theorem State.fetched_engLast (u : State) (q c : Nat) : (u.fetched q c).engLast = u.engLast := u.sramRead_engLast _ _
@[simp] theorem State.fetched_enc (u : State) (q c : Nat) : (u.fetched q c).enc = u.enc := u.sramRead_enc _ _
@[simp] theorem State.fetched_place (u : State) (q c : Nat) : (u.fetched q c).place = u.place := u.sramRead_place _ _
@[simp] theorem State.fetched_fire (u : State) (q c : Nat) : (u.fetched q c).fire = u.fire := u.sramRead_fire _ _
@[simp] theorem State.fetched_fp (u : State) (q c : Nat) : (u.fetched q c).fp = u.fp := u.sramRead_fp _ _
@[simp] theorem State.fetched_kl (u : State) (q c : Nat) : (u.fetched q c).kl = u.kl := u.sramRead_kl _ _
@[simp] theorem State.fetched_head (u : State) (q c : Nat) : (u.fetched q c).head = u.head := u.sramRead_head _ _
@[simp] theorem State.fetched_cam (u : State) (q c : Nat) : (u.fetched q c).cam = u.cam := u.sramRead_cam _ _
@[simp] theorem State.fetched_pipe (u : State) (q c : Nat) : (u.fetched q c).pipe = u.pipe := u.sramRead_pipe _ _
@[simp] theorem State.fetched_hlt (u : State) (q c : Nat) : (u.fetched q c).hlt = u.hlt := u.sramRead_hlt _ _
@[simp] theorem State.fetched_ax (u : State) (q c : Nat) : (u.fetched q c).ax = u.ax := u.sramRead_ax _ _
@[simp] theorem State.fetched_keys (u : State) (q c : Nat) : (u.fetched q c).keys = u.keys := u.sramRead_keys _ _
@[simp] theorem State.fetched_xlt (u : State) (q c : Nat) : (u.fetched q c).xlt = u.xlt := u.sramRead_xlt _ _
@[simp] theorem State.fetched_mgt (u : State) (q c : Nat) : (u.fetched q c).mgt = u.mgt := u.sramRead_mgt _ _
@[simp] theorem State.fetched_safe (u : State) (q c : Nat) : (u.fetched q c).safe = u.safe := u.sramRead_safe _ _
@[simp] theorem State.fetched_tim (u : State) (q c : Nat) : (u.fetched q c).tim = u.tim := u.sramRead_tim _ _
@[simp] theorem State.fetched_cal (u : State) (q c : Nat) : (u.fetched q c).cal = u.cal := u.sramRead_cal _ _
@[simp] theorem State.fetched_nv (u : State) (q c : Nat) : (u.fetched q c).nv = u.nv := u.sramRead_nv _ _
@[simp] theorem State.fetched_pws (u : State) (q c : Nat) : (u.fetched q c).pws = u.pws := u.sramRead_pws _ _
@[simp] theorem State.fetched_net (u : State) (q c : Nat) : (u.fetched q c).net = u.net := u.sramRead_net _ _

@[simp] theorem State.modSeq_ctxOf (s : State) (q : Nat) (f : Seq → Seq) (a b : Nat) :
    (s.modSeq q f).ctxOf a b = s.ctxOf a b := rfl

@[simp] theorem State.postTo_ctxOf (s : State) (n : Nat) (r : EvRec) (a b : Nat) :
    (s.postTo n r).ctxOf a b = s.ctxOf a b := State.ctxOf_eq (s.postTo_ctx n r) a b

theorem State.ctxOf_modCtx (s : State) (q : Fin 16) (c : Fin 64) (f : Ctx → Ctx) :
    (s.modCtx q c f).ctxOf q c = f (s.ctxOf q c) := by
  show vget (vget (vmod s.ctx q fun v => vmod v c f) q) c = _
  rw [vget_vmod_fin, vget_vmod_fin]
  rfl

/-- A retired instruction that changed its own context only. -/
theorem State.retire_modCtx (s : State) (q c pc : Nat) (f : Ctx → Ctx) :
    (s.modCtx q c f).retire q c pc = s.ran q c { f (s.ctxOf q c) with pc := pc } := by
  unfold State.retire State.ran
  rw [State.modCtx_modCtx]
  rw [State.modCtx_congr s q c (g := fun _ => { f (s.ctxOf q c) with pc := pc }) rfl]
  rfl

theorem State.retire_eq (s : State) (q c pc : Nat) : s.retire q c pc = s.ran q c { s.ctxOf q c with pc := pc } := by
  unfold State.retire State.ran
  rw [State.modCtx_congr s q c (g := fun _ => { s.ctxOf q c with pc := pc }) rfl]

variable {u : State} {q op c n : Nat} {safe : Bool} {ticks : Ctx → Ram → Nat} {form : Ram → Bool}
  {eff : State → Nat → Ctx → Ram → Effect} {i : Ram}

/-- The instruction ends: its effect happens on the state in which its word has been read. -/
theorem State.ramest_ends (h : u.Ends q c i n) (hn : ticks (u.ctxOf q c) i = n) (ho : i.op = op)
    (hs : safe = true ∨ (u.ctxOf q c).attr ≠ 1) (hf : form i = true) :
    u.ramest q op safe ticks form eff =
      (u.fetched q c).complete q c n (eff (u.fetched q c) c (u.ctxOf q c) i) := by
  unfold State.ramest State.fetched
  rw [h.1]
  dsimp only
  have hb : (!safe && (u.ctxOf q c).attr == 1) = false := by
    rcases hs with e | e
    · simp [e]
    · simp [e]
  rw [hn, if_neg (by have := h.2; simp [ho]; omega), hb, hf]
  rfl

/-- An instruction whose word has another opcode, or whose ticks have not passed, is not this command's: nothing happens. -/
theorem State.ramest_other (h : u.fetch q = .word c i)
    (ho : i.op ≠ op ∨ u.now < (vget u.seq q).freeAt + (ticks (u.ctxOf q c) i - 1) * qTick) :
    u.ramest q op safe ticks form eff = u := by
  unfold State.ramest
  rw [h]
  exact if_pos (by simpa using ho)

/-- Nothing runs on the sequencer: nothing happens. -/
theorem State.ramest_idle (h : u.fetch q = .idle) : u.ramest q op safe ticks form eff = u := by
  unfold State.ramest
  rw [h]

/-- The fetch itself faults. -/
theorem State.ramest_fault {code pc : Nat} (h : u.fetch q = .fault c code pc) (hd : (vget u.seq q).freeAt ≤ u.now) :
    u.ramest q op safe ticks form eff =
      ((u.when (code == 0x0304) (fun s => s.sramUeHit (Config.storeIndex (pKey q c pc) false)
        (sramPart (Config.storeIndex (pKey q c pc) false)))).when (code == 0x0301)
        (fun s => s.sramRead (Config.storeIndex (pKey q c pc) false) 1)).ctxFault q c code pc := by
  unfold State.ramest
  rw [h]
  exact if_neg (by omega)

/-- A swath-safe context may not execute the instruction. -/
theorem State.ramest_attr (h : u.Ends q c i n) (hn : ticks (u.ctxOf q c) i = n) (ho : i.op = op) (hs : safe = false)
    (ha : (u.ctxOf q c).attr = 1) :
    u.ramest q op safe ticks form eff = (u.fetched q c).ctxFault q c 0x0303 (u.ctxOf q c).pc := by
  unfold State.ramest State.fetched
  rw [h.1]
  dsimp only
  rw [hn, if_neg (by have := h.2; simp [ho]; omega), hs, ha]
  rfl

/-- The word has a field, a flag or an immediate bit that the instruction does not allow. -/
theorem State.ramest_form (h : u.Ends q c i n) (hn : ticks (u.ctxOf q c) i = n) (ho : i.op = op)
    (hs : safe = true ∨ (u.ctxOf q c).attr ≠ 1) (hf : form i = false) :
    u.ramest q op safe ticks form eff = (u.fetched q c).ctxFault q c 0x0302 (u.ctxOf q c).pc := by
  unfold State.ramest State.fetched
  rw [h.1]
  dsimp only
  have hb : (!safe && (u.ctxOf q c).attr == 1) = false := by
    rcases hs with e | e
    · simp [e]
    · simp [e]
  rw [hn, if_neg (by have := h.2; simp [ho]; omega), hb, hf]
  rfl

/-- A completed wait clears at most event bits. -/
theorem State.waitClears_ctx (u : State) (q : Nat) (k : WaitKind) : (u.waitClears q k).ctx = u.ctx ∧ (u.waitClears q k).now = u.now := by
  cases k <;> try exact ⟨rfl, rfl⟩
  rename_i m a cl; cases cl <;> exact ⟨rfl, rfl⟩

end Sys2Proof.Machine
end

