-- ==== Sys2Proof/Laws/Swath.lean ====
section
/-! SUPPORT. What event bits, the end of a swath and position doubt leave alone: they change sequencers, contexts, rings, the
firing and link state of ports, placers and sessions, and post records; every other part of the state is as it was. -/
set_option maxRecDepth 2000
namespace Sys2Proof.Machine
open Sys2Proof

/-- From s to t only sequencers, contexts, rings, ports, placers, sessions, vectors and outputs changed. -/
def SwathOnly (s t : State) : Prop := t = { s with seq := t.seq, ctx := t.ctx, ring := t.ring, fp := t.fp, kl := t.kl, place := t.place, sess := t.sess, msix := t.msix, out := t.out }

namespace SwathOnly

theorem refl (s : State) : SwathOnly s s := rfl

theorem eq {s t : State} (h : SwathOnly s t) : t = { s with seq := t.seq, ctx := t.ctx, ring := t.ring, fp := t.fp, kl := t.kl, place := t.place, sess := t.sess, msix := t.msix, out := t.out } := h

theorem posts {r s t : State} (h : SwathOnly r s) (p : Posts s t) : SwathOnly r t := by
  unfold SwathOnly Posts at *
  rw [p, h]

theorem ite {r a b : State} {c : Prop} [Decidable c] (ha : SwathOnly r a) (hb : SwathOnly r b) :
    SwathOnly r (if c then a else b) := by
  split <;> assumption

theorem when {r s : State} {b : Bool} {f : State → State} (h : SwathOnly r s)
    (hf : ∀ t, SwathOnly r t → SwathOnly r (f t)) : SwathOnly r (s.when b f) := by
  unfold State.when
  split
  · exact hf s h
  · exact h

theorem each {α : Type} {r : State} {f : State → α → State} : ∀ {l : List α} {s : State}, SwathOnly r s →
    (∀ t a, SwathOnly r t → SwathOnly r (f t a)) → SwathOnly r (s.each l f)
  | [], _, h, _ => h
  | a :: l, s, h, hf => each (l := l) (hf s a h) hf

theorem pending {s t : State} (h : SwathOnly s t) : t.pending = s.pending := (congrArg State.pending h.eq).trans rfl
theorem now {s t : State} (h : SwathOnly s t) : t.now = s.now := (congrArg State.now h.eq).trans rfl
theorem tickBase {s t : State} (h : SwathOnly s t) : t.tickBase = s.tickBase := (congrArg State.tickBase h.eq).trans rfl
theorem draws {s t : State} (h : SwathOnly s t) : t.draws = s.draws := (congrArg State.draws h.eq).trans rfl
theorem agenda {s t : State} (h : SwathOnly s t) : t.agenda = s.agenda := (congrArg State.agenda h.eq).trans rfl
theorem gapTime {s t : State} (h : SwathOnly s t) : t.gapTime = s.gapTime := (congrArg State.gapTime h.eq).trans rfl
theorem phase {s t : State} (h : SwathOnly s t) : t.phase = s.phase := (congrArg State.phase h.eq).trans rfl
theorem dram {s t : State} (h : SwathOnly s t) : t.dram = s.dram := (congrArg State.dram h.eq).trans rfl
theorem dramUe {s t : State} (h : SwathOnly s t) : t.dramUe = s.dramUe := (congrArg State.dramUe h.eq).trans rfl
theorem dramCe {s t : State} (h : SwathOnly s t) : t.dramCe = s.dramCe := (congrArg State.dramCe h.eq).trans rfl
theorem hostMem {s t : State} (h : SwathOnly s t) : t.hostMem = s.hostMem := (congrArg State.hostMem h.eq).trans rfl
theorem pstore {s t : State} (h : SwathOnly s t) : t.pstore = s.pstore := (congrArg State.pstore h.eq).trans rfl
theorem pstoreBad {s t : State} (h : SwathOnly s t) : t.pstoreBad = s.pstoreBad := (congrArg State.pstoreBad h.eq).trans rfl
theorem ctxBad {s t : State} (h : SwathOnly s t) : t.ctxBad = s.ctxBad := (congrArg State.ctxBad h.eq).trans rfl
theorem str {s t : State} (h : SwathOnly s t) : t.str = s.str := (congrArg State.str h.eq).trans rfl
theorem eng {s t : State} (h : SwathOnly s t) : t.eng = s.eng := (congrArg State.eng h.eq).trans rfl
theorem engLast {s t : State} (h : SwathOnly s t) : t.engLast = s.engLast := (congrArg State.engLast h.eq).trans rfl
theorem enc {s t : State} (h : SwathOnly s t) : t.enc = s.enc := (congrArg State.enc h.eq).trans rfl
theorem fire {s t : State} (h : SwathOnly s t) : t.fire = s.fire := (congrArg State.fire h.eq).trans rfl
theorem head {s t : State} (h : SwathOnly s t) : t.head = s.head := (congrArg State.head h.eq).trans rfl
theorem cam {s t : State} (h : SwathOnly s t) : t.cam = s.cam := (congrArg State.cam h.eq).trans rfl
theorem pipe {s t : State} (h : SwathOnly s t) : t.pipe = s.pipe := (congrArg State.pipe h.eq).trans rfl
theorem hlt {s t : State} (h : SwathOnly s t) : t.hlt = s.hlt := (congrArg State.hlt h.eq).trans rfl
theorem ax {s t : State} (h : SwathOnly s t) : t.ax = s.ax := (congrArg State.ax h.eq).trans rfl
theorem keys {s t : State} (h : SwathOnly s t) : t.keys = s.keys := (congrArg State.keys h.eq).trans rfl
theorem xlt {s t : State} (h : SwathOnly s t) : t.xlt = s.xlt := (congrArg State.xlt h.eq).trans rfl
theorem mgt {s t : State} (h : SwathOnly s t) : t.mgt = s.mgt := (congrArg State.mgt h.eq).trans rfl
theorem safe {s t : State} (h : SwathOnly s t) : t.safe = s.safe := (congrArg State.safe h.eq).trans rfl
theorem mem {s t : State} (h : SwathOnly s t) : t.mem = s.mem := (congrArg State.mem h.eq).trans rfl
theorem tim {s t : State} (h : SwathOnly s t) : t.tim = s.tim := (congrArg State.tim h.eq).trans rfl
theorem cal {s t : State} (h : SwathOnly s t) : t.cal = s.cal := (congrArg State.cal h.eq).trans rfl
theorem nv {s t : State} (h : SwathOnly s t) : t.nv = s.nv := (congrArg State.nv h.eq).trans rfl
theorem pws {s t : State} (h : SwathOnly s t) : t.pws = s.pws := (congrArg State.pws h.eq).trans rfl
theorem net {s t : State} (h : SwathOnly s t) : t.net = s.net := (congrArg State.net h.eq).trans rfl

end SwathOnly

theorem State.modSeq_swaths {org s : State} {q : Nat} {f : Seq → Seq} (hs : SwathOnly org s) : SwathOnly org (s.modSeq q f) :=
  (congrArg (fun x : State => x.modSeq q f) hs.eq).trans rfl

theorem State.modCtx_swaths {org s : State} {q c : Nat} {f : Ctx → Ctx} (hs : SwathOnly org s) : SwathOnly org (s.modCtx q c f) :=
  (congrArg (fun x : State => x.modCtx q c f) hs.eq).trans rfl

theorem State.modRing_swaths {org s : State} {p : Nat} {f : Ring → Ring} (hs : SwathOnly org s) : SwathOnly org (s.modRing p f) :=
  (congrArg (fun x : State => x.modRing p f) hs.eq).trans rfl

theorem State.modFp_swaths {org s : State} {p : Nat} {f : FirePort → FirePort} (hs : SwathOnly org s) : SwathOnly org (s.modFp p f) :=
  (congrArg (fun x : State => x.modFp p f) hs.eq).trans rfl

theorem State.modKl_swaths {org s : State} {p : Nat} {f : KlPort → KlPort} (hs : SwathOnly org s) : SwathOnly org (s.modKl p f) :=
  (congrArg (fun x : State => x.modKl p f) hs.eq).trans rfl

theorem State.modPlace_swaths {org s : State} {q : Nat} {f : Placer → Placer} (hs : SwathOnly org s) : SwathOnly org (s.modPlace q f) :=
  (congrArg (fun x : State => x.modPlace q f) hs.eq).trans rfl

theorem State.modSess_swaths {org s : State} {n : Nat} {f : Sess → Sess} (hs : SwathOnly org s) : SwathOnly org (s.modSess n f) :=
  (congrArg (fun x : State => x.modSess n f) hs.eq).trans rfl

theorem State.postTo_swaths {org s : State} {n : Nat} {r : EvRec} (hs : SwathOnly org s) : SwathOnly org (s.postTo n r) :=
  hs.posts (s.postTo_posts n r)

theorem State.postUnit_swaths {org s : State} {n : Nat} {r : EvRec} (hs : SwathOnly org s) : SwathOnly org (s.postUnit n r) :=
  hs.posts (s.postUnit_posts n r)

theorem State.postOr_swaths {org s : State} {n : Option Nat} {r : EvRec} (hs : SwathOnly org s) : SwathOnly org (s.postOr n r) :=
  hs.posts (s.postOr_posts n r)

theorem State.postRun_swaths {org s : State} {r : Option Run} {code u src q : Nat} (hs : SwathOnly org s) : SwathOnly org (s.postRun r code u src q) := by
  unfold State.postRun
  split
  all_goals
  repeat' first
    | with_reducible assumption
    | with_reducible apply State.postUnit_swaths
    | split

theorem State.endRuns_swaths {org s : State} {q : Nat} (hs : SwathOnly org s) : SwathOnly org (s.endRuns q) := by
  unfold State.endRuns
  repeat' first
    | with_reducible assumption
    | (intro t a ht; have hk : SwathOnly org t := ht; clear hk)
    | (intro t ht; have hk : SwathOnly org t := ht; clear hk)
    | (intro s1; refine (fun (hs1 : SwathOnly org s1) => ?_) ?_; clear_value s1)
    | (intro s1; clear_value s1)
    | (lift_lets; intro s1; refine (fun (hs1 : SwathOnly org s1) => ?_) ?_; clear_value s1)
    | (lift_lets; intro s1; clear_value s1)
    | with_reducible apply SwathOnly.each
    | with_reducible apply State.modSeq_swaths
    | with_reducible apply State.modRing_swaths
    | with_reducible apply State.modPlace_swaths
    | with_reducible apply State.modFp_swaths
    | with_reducible apply State.postRun_swaths

theorem State.endReq_swaths {org s : State} {n state code : Nat} (hs : SwathOnly org s) : SwathOnly org (s.endReq n state code) := by
  unfold State.endReq
  split
  all_goals
  repeat' first
    | with_reducible assumption
    | (intro t a ht; have hk : SwathOnly org t := ht; clear hk)
    | (intro t ht; have hk : SwathOnly org t := ht; clear hk)
    | (intro s1; refine (fun (hs1 : SwathOnly org s1) => ?_) ?_; clear_value s1)
    | (intro s1; clear_value s1)
    | (lift_lets; intro s1; refine (fun (hs1 : SwathOnly org s1) => ?_) ?_; clear_value s1)
    | (lift_lets; intro s1; clear_value s1)
    | with_reducible apply SwathOnly.when
    | with_reducible apply SwathOnly.each
    | with_reducible apply SwathOnly.ite
    | with_reducible apply State.modSeq_swaths
    | with_reducible apply State.modFp_swaths
    | with_reducible apply State.modSess_swaths
    | with_reducible apply State.postTo_swaths
    | split

theorem State.evOr_swaths {org s : State} {q mask : Nat} (hs : SwathOnly org s) : SwathOnly org (s.evOr q mask) := by
  unfold State.evOr
  repeat' first
    | with_reducible assumption
    | with_reducible apply SwathOnly.ite
    | with_reducible apply State.modSeq_swaths

theorem State.endWait_swaths {org s : State} {q c : Nat} {t : Bool} (hs : SwathOnly org s) : SwathOnly org (s.endWait q c t) := by
  unfold State.endWait
  repeat' first
    | with_reducible assumption
    | with_reducible apply State.modCtx_swaths

theorem State.haltCtx_swaths {org s : State} {q c : Nat} (hs : SwathOnly org s) : SwathOnly org (s.haltCtx q c) := by
  unfold State.haltCtx
  repeat' first
    | with_reducible assumption
    | with_reducible apply State.modCtx_swaths

theorem State.ownerEnd_swaths {org s : State} {q : Nat} {abort : Bool} (hs : SwathOnly org s) : SwathOnly org (s.ownerEnd q abort) := by
  unfold State.ownerEnd
  split
  all_goals
  repeat' first
    | with_reducible assumption
    | with_reducible apply State.modCtx_swaths
    | with_reducible apply State.endWait_swaths
    | with_reducible apply State.haltCtx_swaths
    | split

theorem State.closeCore_swaths {org s : State} {q : Nat} (hs : SwathOnly org s) : SwathOnly org (s.closeCore q) := by
  unfold State.closeCore
  repeat' first
    | with_reducible assumption
    | (intro s1; refine (fun (hs1 : SwathOnly org s1) => ?_) ?_; clear_value s1)
    | (intro s1; clear_value s1)
    | (lift_lets; intro s1; refine (fun (hs1 : SwathOnly org s1) => ?_) ?_; clear_value s1)
    | (lift_lets; intro s1; clear_value s1)
    | with_reducible apply SwathOnly.ite
    | with_reducible apply State.modSeq_swaths
    | with_reducible apply State.postTo_swaths
    | with_reducible apply State.endRuns_swaths
    | with_reducible apply State.ownerEnd_swaths
    | simp only [s1]
    | split

theorem State.sendFrom_swaths {org s : State} {p t : Nat} {it : DownItem} (hs : SwathOnly org s) : SwathOnly org (s.sendFrom p t it) := by
  unfold State.sendFrom
  repeat' first
    | with_reducible assumption
    | (intro s1; refine (fun (hs1 : SwathOnly org s1) => ?_) ?_; clear_value s1)
    | (intro s1; clear_value s1)
    | (lift_lets; intro s1; refine (fun (hs1 : SwathOnly org s1) => ?_) ?_; clear_value s1)
    | (lift_lets; intro s1; clear_value s1)
    | with_reducible apply State.modKl_swaths

theorem State.sendFrame_swaths {org s : State} {p : Nat} {it : DownItem} (hs : SwathOnly org s) : SwathOnly org (s.sendFrame p it) := by
  unfold State.sendFrame
  repeat' first
    | with_reducible assumption
    | with_reducible apply State.sendFrom_swaths

theorem State.laneCut_swaths {org s : State} {p : Nat} {f : DownItem → Bool} (hs : SwathOnly org s) : SwathOnly org (s.laneCut p f) := by
  unfold State.laneCut
  repeat' first
    | with_reducible assumption
    | (intro t a ht; have hk : SwathOnly org t := ht; clear hk)
    | (intro t ht; have hk : SwathOnly org t := ht; clear hk)
    | (intro t a ht; have hk : SwathOnly org t.1 := ht; clear hk)
    | (intro s1; refine (fun (hs1 : SwathOnly org s1) => ?_) ?_; clear_value s1)
    | (intro s1; clear_value s1)
    | (lift_lets; intro s1; refine (fun (hs1 : SwathOnly org s1) => ?_) ?_; clear_value s1)
    | (lift_lets; intro s1; clear_value s1)
    | with_reducible apply SwathOnly.each
    | with_reducible apply SwathOnly.ite
    | with_reducible apply SwathOnly.foldl
    | with_reducible apply SwathOnly.foldl_fst
    | with_reducible apply State.modFp_swaths
    | with_reducible apply State.modKl_swaths
    | split

theorem State.sendDrop_swaths {org s : State} {p : Nat} (hs : SwathOnly org s) : SwathOnly org (s.sendDrop p) := by
  unfold State.sendDrop
  repeat' first
    | with_reducible assumption
    | with_reducible apply SwathOnly.ite
    | with_reducible apply State.sendFrame_swaths
    | with_reducible apply State.laneCut_swaths

theorem State.undoLines_swaths {org s : State} {q : Nat} (hs : SwathOnly org s) : SwathOnly org (s.undoLines q) := by
  unfold State.undoLines
  repeat' first
    | with_reducible assumption
    | (intro t a ht; have hk : SwathOnly org t := ht; clear hk)
    | (intro t ht; have hk : SwathOnly org t := ht; clear hk)
    | (intro s1; refine (fun (hs1 : SwathOnly org s1) => ?_) ?_; clear_value s1)
    | (intro s1; refine (fun (hs1 : SwathOnly org s1.1) => ?_) ?_; clear_value s1)
    | (intro s1; clear_value s1)
    | (lift_lets; intro s1; refine (fun (hs1 : SwathOnly org s1) => ?_) ?_; clear_value s1)
    | (lift_lets; intro s1; refine (fun (hs1 : SwathOnly org s1.1) => ?_) ?_; clear_value s1)
    | (lift_lets; intro s1; clear_value s1)
    | with_reducible apply SwathOnly.each
    | with_reducible apply SwathOnly.ite
    | with_reducible apply State.modSeq_swaths
    | with_reducible apply State.modRing_swaths
    | with_reducible apply State.modPlace_swaths
    | with_reducible apply State.overrun_swaths
    | split

theorem State.abortCore_swaths {org s : State} {q cause : Nat} (hs : SwathOnly org s) : SwathOnly org (s.abortCore q cause) := by
  unfold State.abortCore
  repeat' first
    | with_reducible assumption
    | (intro t a ht; have hk : SwathOnly org t := ht; clear hk)
    | (intro t ht; have hk : SwathOnly org t := ht; clear hk)
    | (intro s1; refine (fun (hs1 : SwathOnly org s1) => ?_) ?_; clear_value s1)
    | (intro s1; clear_value s1)
    | (lift_lets; intro s1; refine (fun (hs1 : SwathOnly org s1) => ?_) ?_; clear_value s1)
    | (lift_lets; intro s1; clear_value s1)
    | with_reducible apply SwathOnly.when
    | with_reducible apply SwathOnly.each
    | with_reducible apply State.modSeq_swaths
    | with_reducible apply State.modCtx_swaths
    | with_reducible apply State.modPlace_swaths
    | with_reducible apply State.modFp_swaths
    | with_reducible apply State.postTo_swaths
    | with_reducible apply State.sendDrop_swaths
    | with_reducible apply State.endRuns_swaths
    | with_reducible apply State.endReq_swaths
    | with_reducible apply State.ownerEnd_swaths
    | with_reducible apply State.undoLines_swaths
    | simp only [s1]
    | split

theorem State.emergCore_swaths {org s : State} {q c : Nat} (hs : SwathOnly org s) : SwathOnly org (s.emergCore q c) := by
  unfold State.emergCore
  repeat' first
    | with_reducible assumption
    | (intro t a ht; have hk : SwathOnly org t := ht; clear hk)
    | (intro t ht; have hk : SwathOnly org t := ht; clear hk)
    | (intro s1; refine (fun (hs1 : SwathOnly org s1) => ?_) ?_; clear_value s1)
    | (intro s1; clear_value s1)
    | (lift_lets; intro s1; refine (fun (hs1 : SwathOnly org s1) => ?_) ?_; clear_value s1)
    | (lift_lets; intro s1; clear_value s1)
    | with_reducible apply SwathOnly.when
    | with_reducible apply SwathOnly.ite
    | with_reducible apply State.modCtx_swaths
    | with_reducible apply State.evOr_swaths
    | with_reducible apply State.closeCore_swaths
    | with_reducible apply State.abortCore_swaths

theorem State.setEv_swaths {org s : State} {q mask : Nat} (hs : SwathOnly org s) : SwathOnly org (s.setEv q mask) := by
  unfold State.setEv
  repeat' first
    | with_reducible assumption
    | (intro s1; refine (fun (hs1 : SwathOnly org s1) => ?_) ?_; clear_value s1)
    | (intro s1; clear_value s1)
    | (lift_lets; intro s1; refine (fun (hs1 : SwathOnly org s1) => ?_) ?_; clear_value s1)
    | (lift_lets; intro s1; clear_value s1)
    | with_reducible apply SwathOnly.ite
    | with_reducible apply State.evOr_swaths
    | with_reducible apply State.emergCore_swaths

theorem State.closeSwath_swaths {org s : State} {q : Nat} (hs : SwathOnly org s) : SwathOnly org (s.closeSwath q) := by
  unfold State.closeSwath
  repeat' first
    | with_reducible assumption
    | with_reducible apply SwathOnly.ite
    | with_reducible apply State.closeCore_swaths
    | with_reducible apply State.setEv_swaths

theorem State.abortSwath_swaths {org s : State} {q cause : Nat} (hs : SwathOnly org s) : SwathOnly org (s.abortSwath q cause) := by
  unfold State.abortSwath
  repeat' first
    | with_reducible assumption
    | (intro s1; refine (fun (hs1 : SwathOnly org s1) => ?_) ?_; clear_value s1)
    | (intro s1; clear_value s1)
    | (lift_lets; intro s1; refine (fun (hs1 : SwathOnly org s1) => ?_) ?_; clear_value s1)
    | (lift_lets; intro s1; clear_value s1)
    | with_reducible apply SwathOnly.ite
    | with_reducible apply State.abortCore_swaths
    | with_reducible apply State.setEv_swaths
    | with_reducible apply State.closeSwath_swaths

theorem State.dropReq_swaths {org s : State} {n state code : Nat} (hs : SwathOnly org s) : SwathOnly org (s.dropReq n state code) := by
  unfold State.dropReq
  split
  all_goals
  repeat' first
    | with_reducible assumption
    | (intro t a ht; have hk : SwathOnly org t := ht; clear hk)
    | (intro t ht; have hk : SwathOnly org t := ht; clear hk)
    | with_reducible apply SwathOnly.when
    | with_reducible apply State.endReq_swaths
    | with_reducible apply State.setEv_swaths
    | split

theorem State.makeDoubt_swaths {org s : State} {q : Nat} (hs : SwathOnly org s) : SwathOnly org (s.makeDoubt q) := by
  unfold State.makeDoubt
  repeat' first
    | with_reducible assumption
    | (intro s1; refine (fun (hs1 : SwathOnly org s1) => ?_) ?_; clear_value s1)
    | (intro s1; clear_value s1)
    | (lift_lets; intro s1; refine (fun (hs1 : SwathOnly org s1) => ?_) ?_; clear_value s1)
    | (lift_lets; intro s1; clear_value s1)
    | with_reducible apply SwathOnly.ite
    | with_reducible apply State.modSeq_swaths
    | with_reducible apply State.modPlace_swaths
    | with_reducible apply State.postUnit_swaths
    | with_reducible apply State.setEv_swaths
    | simp only [s1]
    | split

@[simp] theorem State.setEv_pending (s : State) (q m : Nat) : (s.setEv q m).pending = s.pending :=
  (State.setEv_swaths (SwathOnly.refl s)).pending
@[simp] theorem State.setEv_now (s : State) (q m : Nat) : (s.setEv q m).now = s.now :=
  (State.setEv_swaths (SwathOnly.refl s)).now
@[simp] theorem State.setEv_tickBase (s : State) (q m : Nat) : (s.setEv q m).tickBase = s.tickBase :=
  (State.setEv_swaths (SwathOnly.refl s)).tickBase
@[simp] theorem State.setEv_draws (s : State) (q m : Nat) : (s.setEv q m).draws = s.draws :=
  (State.setEv_swaths (SwathOnly.refl s)).draws
@[simp] theorem State.setEv_agenda (s : State) (q m : Nat) : (s.setEv q m).agenda = s.agenda :=
  (State.setEv_swaths (SwathOnly.refl s)).agenda
@[simp] theorem State.setEv_gapTime (s : State) (q m : Nat) : (s.setEv q m).gapTime = s.gapTime :=
  (State.setEv_swaths (SwathOnly.refl s)).gapTime
@[simp] theorem State.setEv_phase (s : State) (q m : Nat) : (s.setEv q m).phase = s.phase :=
  (State.setEv_swaths (SwathOnly.refl s)).phase
@[simp] theorem State.setEv_dram (s : State) (q m : Nat) : (s.setEv q m).dram = s.dram :=
  (State.setEv_swaths (SwathOnly.refl s)).dram
@[simp] theorem State.setEv_dramUe (s : State) (q m : Nat) : (s.setEv q m).dramUe = s.dramUe :=
  (State.setEv_swaths (SwathOnly.refl s)).dramUe
@[simp] theorem State.setEv_dramCe (s : State) (q m : Nat) : (s.setEv q m).dramCe = s.dramCe :=
  (State.setEv_swaths (SwathOnly.refl s)).dramCe
@[simp] theorem State.setEv_hostMem (s : State) (q m : Nat) : (s.setEv q m).hostMem = s.hostMem :=
  (State.setEv_swaths (SwathOnly.refl s)).hostMem
@[simp] theorem State.setEv_pstore (s : State) (q m : Nat) : (s.setEv q m).pstore = s.pstore :=
  (State.setEv_swaths (SwathOnly.refl s)).pstore
@[simp] theorem State.setEv_pstoreBad (s : State) (q m : Nat) : (s.setEv q m).pstoreBad = s.pstoreBad :=
  (State.setEv_swaths (SwathOnly.refl s)).pstoreBad
@[simp] theorem State.setEv_ctxBad (s : State) (q m : Nat) : (s.setEv q m).ctxBad = s.ctxBad :=
  (State.setEv_swaths (SwathOnly.refl s)).ctxBad
@[simp] theorem State.setEv_str (s : State) (q m : Nat) : (s.setEv q m).str = s.str :=
  (State.setEv_swaths (SwathOnly.refl s)).str
@[simp] theorem State.setEv_eng (s : State) (q m : Nat) : (s.setEv q m).eng = s.eng :=
  (State.setEv_swaths (SwathOnly.refl s)).eng
@[simp] theorem State.setEv_engLast (s : State) (q m : Nat) : (s.setEv q m).engLast = s.engLast :=
  (State.setEv_swaths (SwathOnly.refl s)).engLast
@[simp] theorem State.setEv_enc (s : State) (q m : Nat) : (s.setEv q m).enc = s.enc :=
  (State.setEv_swaths (SwathOnly.refl s)).enc
@[simp] theorem State.setEv_fire (s : State) (q m : Nat) : (s.setEv q m).fire = s.fire :=
  (State.setEv_swaths (SwathOnly.refl s)).fire
@[simp] theorem State.setEv_head (s : State) (q m : Nat) : (s.setEv q m).head = s.head :=
  (State.setEv_swaths (SwathOnly.refl s)).head
@[simp] theorem State.setEv_cam (s : State) (q m : Nat) : (s.setEv q m).cam = s.cam :=
  (State.setEv_swaths (SwathOnly.refl s)).cam
@[simp] theorem State.setEv_pipe (s : State) (q m : Nat) : (s.setEv q m).pipe = s.pipe :=
  (State.setEv_swaths (SwathOnly.refl s)).pipe
@[simp] theorem State.setEv_hlt (s : State) (q m : Nat) : (s.setEv q m).hlt = s.hlt :=
  (State.setEv_swaths (SwathOnly.refl s)).hlt
@[simp] theorem State.setEv_ax (s : State) (q m : Nat) : (s.setEv q m).ax = s.ax :=
  (State.setEv_swaths (SwathOnly.refl s)).ax
@[simp] theorem State.setEv_keys (s : State) (q m : Nat) : (s.setEv q m).keys = s.keys :=
  (State.setEv_swaths (SwathOnly.refl s)).keys
@[simp] theorem State.setEv_xlt (s : State) (q m : Nat) : (s.setEv q m).xlt = s.xlt :=
  (State.setEv_swaths (SwathOnly.refl s)).xlt
@[simp] theorem State.setEv_mgt (s : State) (q m : Nat) : (s.setEv q m).mgt = s.mgt :=
  (State.setEv_swaths (SwathOnly.refl s)).mgt
@[simp] theorem State.setEv_safe (s : State) (q m : Nat) : (s.setEv q m).safe = s.safe :=
  (State.setEv_swaths (SwathOnly.refl s)).safe
@[simp] theorem State.setEv_mem (s : State) (q m : Nat) : (s.setEv q m).mem = s.mem :=
  (State.setEv_swaths (SwathOnly.refl s)).mem
@[simp] theorem State.setEv_tim (s : State) (q m : Nat) : (s.setEv q m).tim = s.tim :=
  (State.setEv_swaths (SwathOnly.refl s)).tim
@[simp] theorem State.setEv_cal (s : State) (q m : Nat) : (s.setEv q m).cal = s.cal :=
  (State.setEv_swaths (SwathOnly.refl s)).cal
@[simp] theorem State.setEv_nv (s : State) (q m : Nat) : (s.setEv q m).nv = s.nv :=
  (State.setEv_swaths (SwathOnly.refl s)).nv
@[simp] theorem State.setEv_pws (s : State) (q m : Nat) : (s.setEv q m).pws = s.pws :=
  (State.setEv_swaths (SwathOnly.refl s)).pws
@[simp] theorem State.setEv_net (s : State) (q m : Nat) : (s.setEv q m).net = s.net :=
  (State.setEv_swaths (SwathOnly.refl s)).net
@[simp] theorem State.closeSwath_pending (s : State) (q : Nat) : (s.closeSwath q).pending = s.pending :=
  (State.closeSwath_swaths (SwathOnly.refl s)).pending
@[simp] theorem State.closeSwath_now (s : State) (q : Nat) : (s.closeSwath q).now = s.now :=
  (State.closeSwath_swaths (SwathOnly.refl s)).now
@[simp] theorem State.closeSwath_tickBase (s : State) (q : Nat) : (s.closeSwath q).tickBase = s.tickBase :=
  (State.closeSwath_swaths (SwathOnly.refl s)).tickBase
@[simp] theorem State.closeSwath_draws (s : State) (q : Nat) : (s.closeSwath q).draws = s.draws :=
  (State.closeSwath_swaths (SwathOnly.refl s)).draws
@[simp] theorem State.closeSwath_agenda (s : State) (q : Nat) : (s.closeSwath q).agenda = s.agenda :=
  (State.closeSwath_swaths (SwathOnly.refl s)).agenda
@[simp] theorem State.closeSwath_gapTime (s : State) (q : Nat) : (s.closeSwath q).gapTime = s.gapTime :=
  (State.closeSwath_swaths (SwathOnly.refl s)).gapTime
@[simp] theorem State.closeSwath_phase (s : State) (q : Nat) : (s.closeSwath q).phase = s.phase :=
  (State.closeSwath_swaths (SwathOnly.refl s)).phase
@[simp] theorem State.closeSwath_dram (s : State) (q : Nat) : (s.closeSwath q).dram = s.dram :=
  (State.closeSwath_swaths (SwathOnly.refl s)).dram
@[simp] theorem State.closeSwath_dramUe (s : State) (q : Nat) : (s.closeSwath q).dramUe = s.dramUe :=
  (State.closeSwath_swaths (SwathOnly.refl s)).dramUe
@[simp] theorem State.closeSwath_dramCe (s : State) (q : Nat) : (s.closeSwath q).dramCe = s.dramCe :=
  (State.closeSwath_swaths (SwathOnly.refl s)).dramCe
@[simp] theorem State.closeSwath_hostMem (s : State) (q : Nat) : (s.closeSwath q).hostMem = s.hostMem :=
  (State.closeSwath_swaths (SwathOnly.refl s)).hostMem
@[simp] theorem State.closeSwath_pstore (s : State) (q : Nat) : (s.closeSwath q).pstore = s.pstore :=
  (State.closeSwath_swaths (SwathOnly.refl s)).pstore
@[simp] theorem State.closeSwath_pstoreBad (s : State) (q : Nat) : (s.closeSwath q).pstoreBad = s.pstoreBad :=
  (State.closeSwath_swaths (SwathOnly.refl s)).pstoreBad
@[simp] theorem State.closeSwath_ctxBad (s : State) (q : Nat) : (s.closeSwath q).ctxBad = s.ctxBad :=
  (State.closeSwath_swaths (SwathOnly.refl s)).ctxBad
@[simp] theorem State.closeSwath_str (s : State) (q : Nat) : (s.closeSwath q).str = s.str :=
  (State.closeSwath_swaths (SwathOnly.refl s)).str
@[simp] theorem State.closeSwath_eng (s : State) (q : Nat) : (s.closeSwath q).eng = s.eng :=
  (State.closeSwath_swaths (SwathOnly.refl s)).eng
@[simp] theorem State.closeSwath_engLast (s : State) (q : Nat) : (s.closeSwath q).engLast = s.engLast :=
  (State.closeSwath_swaths (SwathOnly.refl s)).engLast
@[simp] theorem State.closeSwath_enc (s : State) (q : Nat) : (s.closeSwath q).enc = s.enc :=
  (State.closeSwath_swaths (SwathOnly.refl s)).enc
@[simp] theorem State.closeSwath_fire (s : State) (q : Nat) : (s.closeSwath q).fire = s.fire :=
  (State.closeSwath_swaths (SwathOnly.refl s)).fire
@[simp] theorem State.closeSwath_head (s : State) (q : Nat) : (s.closeSwath q).head = s.head :=
  (State.closeSwath_swaths (SwathOnly.refl s)).head
@[simp] theorem State.closeSwath_cam (s : State) (q : Nat) : (s.closeSwath q).cam = s.cam :=
  (State.closeSwath_swaths (SwathOnly.refl s)).cam
@[simp] theorem State.closeSwath_pipe (s : State) (q : Nat) : (s.closeSwath q).pipe = s.pipe :=
  (State.closeSwath_swaths (SwathOnly.refl s)).pipe
@[simp] theorem State.closeSwath_hlt (s : State) (q : Nat) : (s.closeSwath q).hlt = s.hlt :=
  (State.closeSwath_swaths (SwathOnly.refl s)).hlt
@[simp] theorem State.closeSwath_ax (s : State) (q : Nat) : (s.closeSwath q).ax = s.ax :=
  (State.closeSwath_swaths (SwathOnly.refl s)).ax
@[simp] theorem State.closeSwath_keys (s : State) (q : Nat) : (s.closeSwath q).keys = s.keys :=
  (State.closeSwath_swaths (SwathOnly.refl s)).keys
@[simp] theorem State.closeSwath_xlt (s : State) (q : Nat) : (s.closeSwath q).xlt = s.xlt :=
  (State.closeSwath_swaths (SwathOnly.refl s)).xlt
@[simp] theorem State.closeSwath_mgt (s : State) (q : Nat) : (s.closeSwath q).mgt = s.mgt :=
  (State.closeSwath_swaths (SwathOnly.refl s)).mgt
@[simp] theorem State.closeSwath_safe (s : State) (q : Nat) : (s.closeSwath q).safe = s.safe :=
  (State.closeSwath_swaths (SwathOnly.refl s)).safe
@[simp] theorem State.closeSwath_mem (s : State) (q : Nat) : (s.closeSwath q).mem = s.mem :=
  (State.closeSwath_swaths (SwathOnly.refl s)).mem
@[simp] theorem State.closeSwath_tim (s : State) (q : Nat) : (s.closeSwath q).tim = s.tim :=
  (State.closeSwath_swaths (SwathOnly.refl s)).tim
@[simp] theorem State.closeSwath_cal (s : State) (q : Nat) : (s.closeSwath q).cal = s.cal :=
  (State.closeSwath_swaths (SwathOnly.refl s)).cal
@[simp] theorem State.closeSwath_nv (s : State) (q : Nat) : (s.closeSwath q).nv = s.nv :=
  (State.closeSwath_swaths (SwathOnly.refl s)).nv
@[simp] theorem State.closeSwath_pws (s : State) (q : Nat) : (s.closeSwath q).pws = s.pws :=
  (State.closeSwath_swaths (SwathOnly.refl s)).pws
@[simp] theorem State.closeSwath_net (s : State) (q : Nat) : (s.closeSwath q).net = s.net :=
  (State.closeSwath_swaths (SwathOnly.refl s)).net
@[simp] theorem State.abortSwath_pending (s : State) (q c : Nat) : (s.abortSwath q c).pending = s.pending :=
  (State.abortSwath_swaths (SwathOnly.refl s)).pending
@[simp] theorem State.abortSwath_now (s : State) (q c : Nat) : (s.abortSwath q c).now = s.now :=
  (State.abortSwath_swaths (SwathOnly.refl s)).now
@[simp] theorem State.abortSwath_tickBase (s : State) (q c : Nat) : (s.abortSwath q c).tickBase = s.tickBase :=
  (State.abortSwath_swaths (SwathOnly.refl s)).tickBase
@[simp] theorem State.abortSwath_draws (s : State) (q c : Nat) : (s.abortSwath q c).draws = s.draws :=
  (State.abortSwath_swaths (SwathOnly.refl s)).draws
@[simp] theorem State.abortSwath_agenda (s : State) (q c : Nat) : (s.abortSwath q c).agenda = s.agenda :=
  (State.abortSwath_swaths (SwathOnly.refl s)).agenda
@[simp] theorem State.abortSwath_gapTime (s : State) (q c : Nat) : (s.abortSwath q c).gapTime = s.gapTime :=
  (State.abortSwath_swaths (SwathOnly.refl s)).gapTime
@[simp] theorem State.abortSwath_phase (s : State) (q c : Nat) : (s.abortSwath q c).phase = s.phase :=
  (State.abortSwath_swaths (SwathOnly.refl s)).phase
@[simp] theorem State.abortSwath_dram (s : State) (q c : Nat) : (s.abortSwath q c).dram = s.dram :=
  (State.abortSwath_swaths (SwathOnly.refl s)).dram
@[simp] theorem State.abortSwath_dramUe (s : State) (q c : Nat) : (s.abortSwath q c).dramUe = s.dramUe :=
  (State.abortSwath_swaths (SwathOnly.refl s)).dramUe
@[simp] theorem State.abortSwath_dramCe (s : State) (q c : Nat) : (s.abortSwath q c).dramCe = s.dramCe :=
  (State.abortSwath_swaths (SwathOnly.refl s)).dramCe
@[simp] theorem State.abortSwath_hostMem (s : State) (q c : Nat) : (s.abortSwath q c).hostMem = s.hostMem :=
  (State.abortSwath_swaths (SwathOnly.refl s)).hostMem
@[simp] theorem State.abortSwath_pstore (s : State) (q c : Nat) : (s.abortSwath q c).pstore = s.pstore :=
  (State.abortSwath_swaths (SwathOnly.refl s)).pstore
@[simp] theorem State.abortSwath_pstoreBad (s : State) (q c : Nat) : (s.abortSwath q c).pstoreBad = s.pstoreBad :=
  (State.abortSwath_swaths (SwathOnly.refl s)).pstoreBad
@[simp] theorem State.abortSwath_ctxBad (s : State) (q c : Nat) : (s.abortSwath q c).ctxBad = s.ctxBad :=
  (State.abortSwath_swaths (SwathOnly.refl s)).ctxBad
@[simp] theorem State.abortSwath_str (s : State) (q c : Nat) : (s.abortSwath q c).str = s.str :=
  (State.abortSwath_swaths (SwathOnly.refl s)).str
@[simp] theorem State.abortSwath_eng (s : State) (q c : Nat) : (s.abortSwath q c).eng = s.eng :=
  (State.abortSwath_swaths (SwathOnly.refl s)).eng
@[simp] theorem State.abortSwath_engLast (s : State) (q c : Nat) : (s.abortSwath q c).engLast = s.engLast :=
  (State.abortSwath_swaths (SwathOnly.refl s)).engLast
@[simp] theorem State.abortSwath_enc (s : State) (q c : Nat) : (s.abortSwath q c).enc = s.enc :=
  (State.abortSwath_swaths (SwathOnly.refl s)).enc
@[simp] theorem State.abortSwath_fire (s : State) (q c : Nat) : (s.abortSwath q c).fire = s.fire :=
  (State.abortSwath_swaths (SwathOnly.refl s)).fire
@[simp] theorem State.abortSwath_head (s : State) (q c : Nat) : (s.abortSwath q c).head = s.head :=
  (State.abortSwath_swaths (SwathOnly.refl s)).head
@[simp] theorem State.abortSwath_cam (s : State) (q c : Nat) : (s.abortSwath q c).cam = s.cam :=
  (State.abortSwath_swaths (SwathOnly.refl s)).cam
@[simp] theorem State.abortSwath_pipe (s : State) (q c : Nat) : (s.abortSwath q c).pipe = s.pipe :=
  (State.abortSwath_swaths (SwathOnly.refl s)).pipe
@[simp] theorem State.abortSwath_hlt (s : State) (q c : Nat) : (s.abortSwath q c).hlt = s.hlt :=
  (State.abortSwath_swaths (SwathOnly.refl s)).hlt
@[simp] theorem State.abortSwath_ax (s : State) (q c : Nat) : (s.abortSwath q c).ax = s.ax :=
  (State.abortSwath_swaths (SwathOnly.refl s)).ax
@[simp] theorem State.abortSwath_keys (s : State) (q c : Nat) : (s.abortSwath q c).keys = s.keys :=
  (State.abortSwath_swaths (SwathOnly.refl s)).keys
@[simp] theorem State.abortSwath_xlt (s : State) (q c : Nat) : (s.abortSwath q c).xlt = s.xlt :=
  (State.abortSwath_swaths (SwathOnly.refl s)).xlt
@[simp] theorem State.abortSwath_mgt (s : State) (q c : Nat) : (s.abortSwath q c).mgt = s.mgt :=
  (State.abortSwath_swaths (SwathOnly.refl s)).mgt
@[simp] theorem State.abortSwath_safe (s : State) (q c : Nat) : (s.abortSwath q c).safe = s.safe :=
  (State.abortSwath_swaths (SwathOnly.refl s)).safe
@[simp] theorem State.abortSwath_mem (s : State) (q c : Nat) : (s.abortSwath q c).mem = s.mem :=
  (State.abortSwath_swaths (SwathOnly.refl s)).mem
@[simp] theorem State.abortSwath_tim (s : State) (q c : Nat) : (s.abortSwath q c).tim = s.tim :=
  (State.abortSwath_swaths (SwathOnly.refl s)).tim
@[simp] theorem State.abortSwath_cal (s : State) (q c : Nat) : (s.abortSwath q c).cal = s.cal :=
  (State.abortSwath_swaths (SwathOnly.refl s)).cal
@[simp] theorem State.abortSwath_nv (s : State) (q c : Nat) : (s.abortSwath q c).nv = s.nv :=
  (State.abortSwath_swaths (SwathOnly.refl s)).nv
@[simp] theorem State.abortSwath_pws (s : State) (q c : Nat) : (s.abortSwath q c).pws = s.pws :=
  (State.abortSwath_swaths (SwathOnly.refl s)).pws
@[simp] theorem State.abortSwath_net (s : State) (q c : Nat) : (s.abortSwath q c).net = s.net :=
  (State.abortSwath_swaths (SwathOnly.refl s)).net
@[simp] theorem State.makeDoubt_pending (s : State) (q : Nat) : (s.makeDoubt q).pending = s.pending :=
  (State.makeDoubt_swaths (SwathOnly.refl s)).pending
@[simp] theorem State.makeDoubt_now (s : State) (q : Nat) : (s.makeDoubt q).now = s.now :=
  (State.makeDoubt_swaths (SwathOnly.refl s)).now
@[simp] theorem State.makeDoubt_tickBase (s : State) (q : Nat) : (s.makeDoubt q).tickBase = s.tickBase :=
  (State.makeDoubt_swaths (SwathOnly.refl s)).tickBase
@[simp] theorem State.makeDoubt_draws (s : State) (q : Nat) : (s.makeDoubt q).draws = s.draws :=
  (State.makeDoubt_swaths (SwathOnly.refl s)).draws
@[simp] theorem State.makeDoubt_agenda (s : State) (q : Nat) : (s.makeDoubt q).agenda = s.agenda :=
  (State.makeDoubt_swaths (SwathOnly.refl s)).agenda
@[simp] theorem State.makeDoubt_gapTime (s : State) (q : Nat) : (s.makeDoubt q).gapTime = s.gapTime :=
  (State.makeDoubt_swaths (SwathOnly.refl s)).gapTime
@[simp] theorem State.makeDoubt_phase (s : State) (q : Nat) : (s.makeDoubt q).phase = s.phase :=
  (State.makeDoubt_swaths (SwathOnly.refl s)).phase
@[simp] theorem State.makeDoubt_dram (s : State) (q : Nat) : (s.makeDoubt q).dram = s.dram :=
  (State.makeDoubt_swaths (SwathOnly.refl s)).dram
@[simp] theorem State.makeDoubt_dramUe (s : State) (q : Nat) : (s.makeDoubt q).dramUe = s.dramUe :=
  (State.makeDoubt_swaths (SwathOnly.refl s)).dramUe
@[simp] theorem State.makeDoubt_dramCe (s : State) (q : Nat) : (s.makeDoubt q).dramCe = s.dramCe :=
  (State.makeDoubt_swaths (SwathOnly.refl s)).dramCe
@[simp] theorem State.makeDoubt_hostMem (s : State) (q : Nat) : (s.makeDoubt q).hostMem = s.hostMem :=
  (State.makeDoubt_swaths (SwathOnly.refl s)).hostMem
@[simp] theorem State.makeDoubt_pstore (s : State) (q : Nat) : (s.makeDoubt q).pstore = s.pstore :=
  (State.makeDoubt_swaths (SwathOnly.refl s)).pstore
@[simp] theorem State.makeDoubt_pstoreBad (s : State) (q : Nat) : (s.makeDoubt q).pstoreBad = s.pstoreBad :=
  (State.makeDoubt_swaths (SwathOnly.refl s)).pstoreBad
@[simp] theorem State.makeDoubt_ctxBad (s : State) (q : Nat) : (s.makeDoubt q).ctxBad = s.ctxBad :=
  (State.makeDoubt_swaths (SwathOnly.refl s)).ctxBad
@[simp] theorem State.makeDoubt_str (s : State) (q : Nat) : (s.makeDoubt q).str = s.str :=
  (State.makeDoubt_swaths (SwathOnly.refl s)).str
@[simp] theorem State.makeDoubt_eng (s : State) (q : Nat) : (s.makeDoubt q).eng = s.eng :=
  (State.makeDoubt_swaths (SwathOnly.refl s)).eng
@[simp] theorem State.makeDoubt_engLast (s : State) (q : Nat) : (s.makeDoubt q).engLast = s.engLast :=
  (State.makeDoubt_swaths (SwathOnly.refl s)).engLast
@[simp] theorem State.makeDoubt_enc (s : State) (q : Nat) : (s.makeDoubt q).enc = s.enc :=
  (State.makeDoubt_swaths (SwathOnly.refl s)).enc
@[simp] theorem State.makeDoubt_fire (s : State) (q : Nat) : (s.makeDoubt q).fire = s.fire :=
  (State.makeDoubt_swaths (SwathOnly.refl s)).fire
@[simp] theorem State.makeDoubt_head (s : State) (q : Nat) : (s.makeDoubt q).head = s.head :=
  (State.makeDoubt_swaths (SwathOnly.refl s)).head
@[simp] theorem State.makeDoubt_cam (s : State) (q : Nat) : (s.makeDoubt q).cam = s.cam :=
  (State.makeDoubt_swaths (SwathOnly.refl s)).cam
@[simp] theorem State.makeDoubt_pipe (s : State) (q : Nat) : (s.makeDoubt q).pipe = s.pipe :=
  (State.makeDoubt_swaths (SwathOnly.refl s)).pipe
@[simp] theorem State.makeDoubt_hlt (s : State) (q : Nat) : (s.makeDoubt q).hlt = s.hlt :=
  (State.makeDoubt_swaths (SwathOnly.refl s)).hlt
@[simp] theorem State.makeDoubt_ax (s : State) (q : Nat) : (s.makeDoubt q).ax = s.ax :=
  (State.makeDoubt_swaths (SwathOnly.refl s)).ax
@[simp] theorem State.makeDoubt_keys (s : State) (q : Nat) : (s.makeDoubt q).keys = s.keys :=
  (State.makeDoubt_swaths (SwathOnly.refl s)).keys
@[simp] theorem State.makeDoubt_xlt (s : State) (q : Nat) : (s.makeDoubt q).xlt = s.xlt :=
  (State.makeDoubt_swaths (SwathOnly.refl s)).xlt
@[simp] theorem State.makeDoubt_mgt (s : State) (q : Nat) : (s.makeDoubt q).mgt = s.mgt :=
  (State.makeDoubt_swaths (SwathOnly.refl s)).mgt
@[simp] theorem State.makeDoubt_safe (s : State) (q : Nat) : (s.makeDoubt q).safe = s.safe :=
  (State.makeDoubt_swaths (SwathOnly.refl s)).safe
@[simp] theorem State.makeDoubt_mem (s : State) (q : Nat) : (s.makeDoubt q).mem = s.mem :=
  (State.makeDoubt_swaths (SwathOnly.refl s)).mem
@[simp] theorem State.makeDoubt_tim (s : State) (q : Nat) : (s.makeDoubt q).tim = s.tim :=
  (State.makeDoubt_swaths (SwathOnly.refl s)).tim
@[simp] theorem State.makeDoubt_cal (s : State) (q : Nat) : (s.makeDoubt q).cal = s.cal :=
  (State.makeDoubt_swaths (SwathOnly.refl s)).cal
@[simp] theorem State.makeDoubt_nv (s : State) (q : Nat) : (s.makeDoubt q).nv = s.nv :=
  (State.makeDoubt_swaths (SwathOnly.refl s)).nv
@[simp] theorem State.makeDoubt_pws (s : State) (q : Nat) : (s.makeDoubt q).pws = s.pws :=
  (State.makeDoubt_swaths (SwathOnly.refl s)).pws
@[simp] theorem State.makeDoubt_net (s : State) (q : Nat) : (s.makeDoubt q).net = s.net :=
  (State.makeDoubt_swaths (SwathOnly.refl s)).net
@[simp] theorem State.endReq_pending (s : State) (n st c : Nat) : (s.endReq n st c).pending = s.pending :=
  (State.endReq_swaths (SwathOnly.refl s)).pending
@[simp] theorem State.endReq_now (s : State) (n st c : Nat) : (s.endReq n st c).now = s.now :=
  (State.endReq_swaths (SwathOnly.refl s)).now
@[simp] theorem State.endReq_tickBase (s : State) (n st c : Nat) : (s.endReq n st c).tickBase = s.tickBase :=
  (State.endReq_swaths (SwathOnly.refl s)).tickBase
@[simp] theorem State.endReq_draws (s : State) (n st c : Nat) : (s.endReq n st c).draws = s.draws :=
  (State.endReq_swaths (SwathOnly.refl s)).draws
@[simp] theorem State.endReq_agenda (s : State) (n st c : Nat) : (s.endReq n st c).agenda = s.agenda :=
  (State.endReq_swaths (SwathOnly.refl s)).agenda
@[simp] theorem State.endReq_gapTime (s : State) (n st c : Nat) : (s.endReq n st c).gapTime = s.gapTime :=
  (State.endReq_swaths (SwathOnly.refl s)).gapTime
@[simp] theorem State.endReq_phase (s : State) (n st c : Nat) : (s.endReq n st c).phase = s.phase :=
  (State.endReq_swaths (SwathOnly.refl s)).phase
@[simp] theorem State.endReq_dram (s : State) (n st c : Nat) : (s.endReq n st c).dram = s.dram :=
  (State.endReq_swaths (SwathOnly.refl s)).dram
@[simp] theorem State.endReq_dramUe (s : State) (n st c : Nat) : (s.endReq n st c).dramUe = s.dramUe :=
  (State.endReq_swaths (SwathOnly.refl s)).dramUe
@[simp] theorem State.endReq_dramCe (s : State) (n st c : Nat) : (s.endReq n st c).dramCe = s.dramCe :=
  (State.endReq_swaths (SwathOnly.refl s)).dramCe
@[simp] theorem State.endReq_hostMem (s : State) (n st c : Nat) : (s.endReq n st c).hostMem = s.hostMem :=
  (State.endReq_swaths (SwathOnly.refl s)).hostMem
@[simp] theorem State.endReq_pstore (s : State) (n st c : Nat) : (s.endReq n st c).pstore = s.pstore :=
  (State.endReq_swaths (SwathOnly.refl s)).pstore
@[simp] theorem State.endReq_pstoreBad (s : State) (n st c : Nat) : (s.endReq n st c).pstoreBad = s.pstoreBad :=
  (State.endReq_swaths (SwathOnly.refl s)).pstoreBad
@[simp] theorem State.endReq_ctxBad (s : State) (n st c : Nat) : (s.endReq n st c).ctxBad = s.ctxBad :=
  (State.endReq_swaths (SwathOnly.refl s)).ctxBad
@[simp] theorem State.endReq_str (s : State) (n st c : Nat) : (s.endReq n st c).str = s.str :=
  (State.endReq_swaths (SwathOnly.refl s)).str
@[simp] theorem State.endReq_eng (s : State) (n st c : Nat) : (s.endReq n st c).eng = s.eng :=
  (State.endReq_swaths (SwathOnly.refl s)).eng
@[simp] theorem State.endReq_engLast (s : State) (n st c : Nat) : (s.endReq n st c).engLast = s.engLast :=
  (State.endReq_swaths (SwathOnly.refl s)).engLast
@[simp] theorem State.endReq_enc (s : State) (n st c : Nat) : (s.endReq n st c).enc = s.enc :=
  (State.endReq_swaths (SwathOnly.refl s)).enc
@[simp] theorem State.endReq_fire (s : State) (n st c : Nat) : (s.endReq n st c).fire = s.fire :=
  (State.endReq_swaths (SwathOnly.refl s)).fire
@[simp] theorem State.endReq_head (s : State) (n st c : Nat) : (s.endReq n st c).head = s.head :=
  (State.endReq_swaths (SwathOnly.refl s)).head
@[simp] theorem State.endReq_cam (s : State) (n st c : Nat) : (s.endReq n st c).cam = s.cam :=
  (State.endReq_swaths (SwathOnly.refl s)).cam
@[simp] theorem State.endReq_pipe (s : State) (n st c : Nat) : (s.endReq n st c).pipe = s.pipe :=
  (State.endReq_swaths (SwathOnly.refl s)).pipe
@[simp] theorem State.endReq_hlt (s : State) (n st c : Nat) : (s.endReq n st c).hlt = s.hlt :=
  (State.endReq_swaths (SwathOnly.refl s)).hlt
@[simp] theorem State.endReq_ax (s : State) (n st c : Nat) : (s.endReq n st c).ax = s.ax :=
  (State.endReq_swaths (SwathOnly.refl s)).ax
@[simp] theorem State.endReq_keys (s : State) (n st c : Nat) : (s.endReq n st c).keys = s.keys :=
  (State.endReq_swaths (SwathOnly.refl s)).keys
@[simp] theorem State.endReq_xlt (s : State) (n st c : Nat) : (s.endReq n st c).xlt = s.xlt :=
  (State.endReq_swaths (SwathOnly.refl s)).xlt
@[simp] theorem State.endReq_mgt (s : State) (n st c : Nat) : (s.endReq n st c).mgt = s.mgt :=
  (State.endReq_swaths (SwathOnly.refl s)).mgt
@[simp] theorem State.endReq_safe (s : State) (n st c : Nat) : (s.endReq n st c).safe = s.safe :=
  (State.endReq_swaths (SwathOnly.refl s)).safe
@[simp] theorem State.endReq_mem (s : State) (n st c : Nat) : (s.endReq n st c).mem = s.mem :=
  (State.endReq_swaths (SwathOnly.refl s)).mem
@[simp] theorem State.endReq_tim (s : State) (n st c : Nat) : (s.endReq n st c).tim = s.tim :=
  (State.endReq_swaths (SwathOnly.refl s)).tim
@[simp] theorem State.endReq_cal (s : State) (n st c : Nat) : (s.endReq n st c).cal = s.cal :=
  (State.endReq_swaths (SwathOnly.refl s)).cal
@[simp] theorem State.endReq_nv (s : State) (n st c : Nat) : (s.endReq n st c).nv = s.nv :=
  (State.endReq_swaths (SwathOnly.refl s)).nv
@[simp] theorem State.endReq_pws (s : State) (n st c : Nat) : (s.endReq n st c).pws = s.pws :=
  (State.endReq_swaths (SwathOnly.refl s)).pws
@[simp] theorem State.endReq_net (s : State) (n st c : Nat) : (s.endReq n st c).net = s.net :=
  (State.endReq_swaths (SwathOnly.refl s)).net
@[simp] theorem State.dropReq_pending (s : State) (n st c : Nat) : (s.dropReq n st c).pending = s.pending :=
  (State.dropReq_swaths (SwathOnly.refl s)).pending
@[simp] theorem State.dropReq_now (s : State) (n st c : Nat) : (s.dropReq n st c).now = s.now :=
  (State.dropReq_swaths (SwathOnly.refl s)).now
@[simp] theorem State.dropReq_tickBase (s : State) (n st c : Nat) : (s.dropReq n st c).tickBase = s.tickBase :=
  (State.dropReq_swaths (SwathOnly.refl s)).tickBase
@[simp] theorem State.dropReq_draws (s : State) (n st c : Nat) : (s.dropReq n st c).draws = s.draws :=
  (State.dropReq_swaths (SwathOnly.refl s)).draws
@[simp] theorem State.dropReq_agenda (s : State) (n st c : Nat) : (s.dropReq n st c).agenda = s.agenda :=
  (State.dropReq_swaths (SwathOnly.refl s)).agenda
@[simp] theorem State.dropReq_gapTime (s : State) (n st c : Nat) : (s.dropReq n st c).gapTime = s.gapTime :=
  (State.dropReq_swaths (SwathOnly.refl s)).gapTime
@[simp] theorem State.dropReq_phase (s : State) (n st c : Nat) : (s.dropReq n st c).phase = s.phase :=
  (State.dropReq_swaths (SwathOnly.refl s)).phase
@[simp] theorem State.dropReq_dram (s : State) (n st c : Nat) : (s.dropReq n st c).dram = s.dram :=
  (State.dropReq_swaths (SwathOnly.refl s)).dram
@[simp] theorem State.dropReq_dramUe (s : State) (n st c : Nat) : (s.dropReq n st c).dramUe = s.dramUe :=
  (State.dropReq_swaths (SwathOnly.refl s)).dramUe
@[simp] theorem State.dropReq_dramCe (s : State) (n st c : Nat) : (s.dropReq n st c).dramCe = s.dramCe :=
  (State.dropReq_swaths (SwathOnly.refl s)).dramCe
@[simp] theorem State.dropReq_hostMem (s : State) (n st c : Nat) : (s.dropReq n st c).hostMem = s.hostMem :=
  (State.dropReq_swaths (SwathOnly.refl s)).hostMem
@[simp] theorem State.dropReq_pstore (s : State) (n st c : Nat) : (s.dropReq n st c).pstore = s.pstore :=
  (State.dropReq_swaths (SwathOnly.refl s)).pstore
@[simp] theorem State.dropReq_pstoreBad (s : State) (n st c : Nat) : (s.dropReq n st c).pstoreBad = s.pstoreBad :=
  (State.dropReq_swaths (SwathOnly.refl s)).pstoreBad
@[simp] theorem State.dropReq_ctxBad (s : State) (n st c : Nat) : (s.dropReq n st c).ctxBad = s.ctxBad :=
  (State.dropReq_swaths (SwathOnly.refl s)).ctxBad
@[simp] theorem State.dropReq_str (s : State) (n st c : Nat) : (s.dropReq n st c).str = s.str :=
  (State.dropReq_swaths (SwathOnly.refl s)).str
@[simp] theorem State.dropReq_eng (s : State) (n st c : Nat) : (s.dropReq n st c).eng = s.eng :=
  (State.dropReq_swaths (SwathOnly.refl s)).eng
@[simp] theorem State.dropReq_engLast (s : State) (n st c : Nat) : (s.dropReq n st c).engLast = s.engLast :=
  (State.dropReq_swaths (SwathOnly.refl s)).engLast
@[simp] theorem State.dropReq_enc (s : State) (n st c : Nat) : (s.dropReq n st c).enc = s.enc :=
  (State.dropReq_swaths (SwathOnly.refl s)).enc
@[simp] theorem State.dropReq_fire (s : State) (n st c : Nat) : (s.dropReq n st c).fire = s.fire :=
  (State.dropReq_swaths (SwathOnly.refl s)).fire
@[simp] theorem State.dropReq_head (s : State) (n st c : Nat) : (s.dropReq n st c).head = s.head :=
  (State.dropReq_swaths (SwathOnly.refl s)).head
@[simp] theorem State.dropReq_cam (s : State) (n st c : Nat) : (s.dropReq n st c).cam = s.cam :=
  (State.dropReq_swaths (SwathOnly.refl s)).cam
@[simp] theorem State.dropReq_pipe (s : State) (n st c : Nat) : (s.dropReq n st c).pipe = s.pipe :=
  (State.dropReq_swaths (SwathOnly.refl s)).pipe
@[simp] theorem State.dropReq_hlt (s : State) (n st c : Nat) : (s.dropReq n st c).hlt = s.hlt :=
  (State.dropReq_swaths (SwathOnly.refl s)).hlt
@[simp] theorem State.dropReq_ax (s : State) (n st c : Nat) : (s.dropReq n st c).ax = s.ax :=
  (State.dropReq_swaths (SwathOnly.refl s)).ax
@[simp] theorem State.dropReq_keys (s : State) (n st c : Nat) : (s.dropReq n st c).keys = s.keys :=
  (State.dropReq_swaths (SwathOnly.refl s)).keys
@[simp] theorem State.dropReq_xlt (s : State) (n st c : Nat) : (s.dropReq n st c).xlt = s.xlt :=
  (State.dropReq_swaths (SwathOnly.refl s)).xlt
@[simp] theorem State.dropReq_mgt (s : State) (n st c : Nat) : (s.dropReq n st c).mgt = s.mgt :=
  (State.dropReq_swaths (SwathOnly.refl s)).mgt
@[simp] theorem State.dropReq_safe (s : State) (n st c : Nat) : (s.dropReq n st c).safe = s.safe :=
  (State.dropReq_swaths (SwathOnly.refl s)).safe
@[simp] theorem State.dropReq_mem (s : State) (n st c : Nat) : (s.dropReq n st c).mem = s.mem :=
  (State.dropReq_swaths (SwathOnly.refl s)).mem
@[simp] theorem State.dropReq_tim (s : State) (n st c : Nat) : (s.dropReq n st c).tim = s.tim :=
  (State.dropReq_swaths (SwathOnly.refl s)).tim
@[simp] theorem State.dropReq_cal (s : State) (n st c : Nat) : (s.dropReq n st c).cal = s.cal :=
  (State.dropReq_swaths (SwathOnly.refl s)).cal
@[simp] theorem State.dropReq_nv (s : State) (n st c : Nat) : (s.dropReq n st c).nv = s.nv :=
  (State.dropReq_swaths (SwathOnly.refl s)).nv
@[simp] theorem State.dropReq_pws (s : State) (n st c : Nat) : (s.dropReq n st c).pws = s.pws :=
  (State.dropReq_swaths (SwathOnly.refl s)).pws
@[simp] theorem State.dropReq_net (s : State) (n st c : Nat) : (s.dropReq n st c).net = s.net :=
  (State.dropReq_swaths (SwathOnly.refl s)).net
@[simp] theorem State.postRun_pending (s : State) (r : Option Run) (c u k q : Nat) : (s.postRun r c u k q).pending = s.pending :=
  (State.postRun_swaths (SwathOnly.refl s)).pending
@[simp] theorem State.postRun_now (s : State) (r : Option Run) (c u k q : Nat) : (s.postRun r c u k q).now = s.now :=
  (State.postRun_swaths (SwathOnly.refl s)).now
@[simp] theorem State.postRun_tickBase (s : State) (r : Option Run) (c u k q : Nat) : (s.postRun r c u k q).tickBase = s.tickBase :=
  (State.postRun_swaths (SwathOnly.refl s)).tickBase
@[simp] theorem State.postRun_draws (s : State) (r : Option Run) (c u k q : Nat) : (s.postRun r c u k q).draws = s.draws :=
  (State.postRun_swaths (SwathOnly.refl s)).draws
@[simp] theorem State.postRun_agenda (s : State) (r : Option Run) (c u k q : Nat) : (s.postRun r c u k q).agenda = s.agenda :=
  (State.postRun_swaths (SwathOnly.refl s)).agenda
@[simp] theorem State.postRun_gapTime (s : State) (r : Option Run) (c u k q : Nat) : (s.postRun r c u k q).gapTime = s.gapTime :=
  (State.postRun_swaths (SwathOnly.refl s)).gapTime
@[simp] theorem State.postRun_phase (s : State) (r : Option Run) (c u k q : Nat) : (s.postRun r c u k q).phase = s.phase :=
  (State.postRun_swaths (SwathOnly.refl s)).phase
@[simp] theorem State.postRun_dram (s : State) (r : Option Run) (c u k q : Nat) : (s.postRun r c u k q).dram = s.dram :=
  (State.postRun_swaths (SwathOnly.refl s)).dram
@[simp] theorem State.postRun_dramUe (s : State) (r : Option Run) (c u k q : Nat) : (s.postRun r c u k q).dramUe = s.dramUe :=
  (State.postRun_swaths (SwathOnly.refl s)).dramUe
@[simp] theorem State.postRun_dramCe (s : State) (r : Option Run) (c u k q : Nat) : (s.postRun r c u k q).dramCe = s.dramCe :=
  (State.postRun_swaths (SwathOnly.refl s)).dramCe
@[simp] theorem State.postRun_hostMem (s : State) (r : Option Run) (c u k q : Nat) : (s.postRun r c u k q).hostMem = s.hostMem :=
  (State.postRun_swaths (SwathOnly.refl s)).hostMem
@[simp] theorem State.postRun_pstore (s : State) (r : Option Run) (c u k q : Nat) : (s.postRun r c u k q).pstore = s.pstore :=
  (State.postRun_swaths (SwathOnly.refl s)).pstore
@[simp] theorem State.postRun_pstoreBad (s : State) (r : Option Run) (c u k q : Nat) : (s.postRun r c u k q).pstoreBad = s.pstoreBad :=
  (State.postRun_swaths (SwathOnly.refl s)).pstoreBad
@[simp] theorem State.postRun_ctxBad (s : State) (r : Option Run) (c u k q : Nat) : (s.postRun r c u k q).ctxBad = s.ctxBad :=
  (State.postRun_swaths (SwathOnly.refl s)).ctxBad
@[simp] theorem State.postRun_str (s : State) (r : Option Run) (c u k q : Nat) : (s.postRun r c u k q).str = s.str :=
  (State.postRun_swaths (SwathOnly.refl s)).str
@[simp] theorem State.postRun_eng (s : State) (r : Option Run) (c u k q : Nat) : (s.postRun r c u k q).eng = s.eng :=
  (State.postRun_swaths (SwathOnly.refl s)).eng
@[simp] theorem State.postRun_engLast (s : State) (r : Option Run) (c u k q : Nat) : (s.postRun r c u k q).engLast = s.engLast :=
  (State.postRun_swaths (SwathOnly.refl s)).engLast
@[simp] theorem State.postRun_enc (s : State) (r : Option Run) (c u k q : Nat) : (s.postRun r c u k q).enc = s.enc :=
  (State.postRun_swaths (SwathOnly.refl s)).enc
@[simp] theorem State.postRun_fire (s : State) (r : Option Run) (c u k q : Nat) : (s.postRun r c u k q).fire = s.fire :=
  (State.postRun_swaths (SwathOnly.refl s)).fire
@[simp] theorem State.postRun_head (s : State) (r : Option Run) (c u k q : Nat) : (s.postRun r c u k q).head = s.head :=
  (State.postRun_swaths (SwathOnly.refl s)).head
@[simp] theorem State.postRun_cam (s : State) (r : Option Run) (c u k q : Nat) : (s.postRun r c u k q).cam = s.cam :=
  (State.postRun_swaths (SwathOnly.refl s)).cam
@[simp] theorem State.postRun_pipe (s : State) (r : Option Run) (c u k q : Nat) : (s.postRun r c u k q).pipe = s.pipe :=
  (State.postRun_swaths (SwathOnly.refl s)).pipe
@[simp] theorem State.postRun_hlt (s : State) (r : Option Run) (c u k q : Nat) : (s.postRun r c u k q).hlt = s.hlt :=
  (State.postRun_swaths (SwathOnly.refl s)).hlt
@[simp] theorem State.postRun_ax (s : State) (r : Option Run) (c u k q : Nat) : (s.postRun r c u k q).ax = s.ax :=
  (State.postRun_swaths (SwathOnly.refl s)).ax
@[simp] theorem State.postRun_keys (s : State) (r : Option Run) (c u k q : Nat) : (s.postRun r c u k q).keys = s.keys :=
  (State.postRun_swaths (SwathOnly.refl s)).keys
@[simp] theorem State.postRun_xlt (s : State) (r : Option Run) (c u k q : Nat) : (s.postRun r c u k q).xlt = s.xlt :=
  (State.postRun_swaths (SwathOnly.refl s)).xlt
@[simp] theorem State.postRun_mgt (s : State) (r : Option Run) (c u k q : Nat) : (s.postRun r c u k q).mgt = s.mgt :=
  (State.postRun_swaths (SwathOnly.refl s)).mgt
@[simp] theorem State.postRun_safe (s : State) (r : Option Run) (c u k q : Nat) : (s.postRun r c u k q).safe = s.safe :=
  (State.postRun_swaths (SwathOnly.refl s)).safe
@[simp] theorem State.postRun_mem (s : State) (r : Option Run) (c u k q : Nat) : (s.postRun r c u k q).mem = s.mem :=
  (State.postRun_swaths (SwathOnly.refl s)).mem
@[simp] theorem State.postRun_tim (s : State) (r : Option Run) (c u k q : Nat) : (s.postRun r c u k q).tim = s.tim :=
  (State.postRun_swaths (SwathOnly.refl s)).tim
@[simp] theorem State.postRun_cal (s : State) (r : Option Run) (c u k q : Nat) : (s.postRun r c u k q).cal = s.cal :=
  (State.postRun_swaths (SwathOnly.refl s)).cal
@[simp] theorem State.postRun_nv (s : State) (r : Option Run) (c u k q : Nat) : (s.postRun r c u k q).nv = s.nv :=
  (State.postRun_swaths (SwathOnly.refl s)).nv
@[simp] theorem State.postRun_pws (s : State) (r : Option Run) (c u k q : Nat) : (s.postRun r c u k q).pws = s.pws :=
  (State.postRun_swaths (SwathOnly.refl s)).pws
@[simp] theorem State.postRun_net (s : State) (r : Option Run) (c u k q : Nat) : (s.postRun r c u k q).net = s.net :=
  (State.postRun_swaths (SwathOnly.refl s)).net

/-! ## The close of a swath -/

theorem State.postRun_ctx (s : State) (r : Option Run) (c u k q : Nat) : (s.postRun r c u k q).ctx = s.ctx ∧ (s.postRun r c u k q).seq = s.seq := by
  unfold State.postRun
  (repeat' split) <;> simp

theorem State.endRuns_ctx (s : State) (q : Nat) : (s.endRuns q).ctx = s.ctx := by
  unfold State.endRuns
  simp only
  rw [State.each_field (g := State.ctx)]
  · simp [(State.postRun_ctx _ _ _ _ _ _).1]
  · intro u a; simp [(State.postRun_ctx _ _ _ _ _ _).1]

theorem State.endRuns_seq (s : State) (q : Fin 16) : vget (s.endRuns q).seq q = { vget s.seq q with underrun := none } := by
  unfold State.endRuns
  simp only
  rw [State.each_field (g := State.seq)]
  · simp [(State.postRun_ctx _ _ _ _ _ _).2, vget_vmod]
  · intro u a; simp [(State.postRun_ctx _ _ _ _ _ _).2]

theorem State.ownerEnd_seq (s : State) (q : Nat) (b : Bool) : (s.ownerEnd q b).seq = s.seq ∧
    (s.ownerEnd q b).now = s.now := by
  unfold State.ownerEnd State.endWait State.haltCtx
  (repeat' split) <;> simp

/-- A swath that closes is closed, and has no owner. -/
theorem State.closeCore_seq (s : State) (q : Fin 16) : (vget (s.closeCore q).seq q).swst = .closed ∧ (vget (s.closeCore q).seq q).owner = none := by
  unfold State.closeCore
  simp [vget_vmod]

/-- The contexts after the close are those after the end of the owner's wait. -/
theorem State.closeCore_ctx (s : State) (q : Fin 16) : ∃ w : State, (s.closeCore q).ctx = (w.ownerEnd q false).ctx ∧ w.ctx = s.ctx ∧ (vget w.seq q).owner = (vget s.seq q).owner ∧ w.now = s.now := by
  unfold State.closeCore
  simp only
  refine ⟨_, rfl, ?_, ?_, ?_⟩
  · split <;> simp [State.endRuns_ctx]
  · split <;> simp [State.endRuns_seq]
  · have : (s.endRuns q).now = s.now := (State.endRuns_swaths (SwathOnly.refl s)).now
    split <;> simp [this]

/-- Event bits set where no swath is open: the bits, and at most an armed context that starts. -/
theorem State.setEv_closed (s : State) (q : Fin 16) (m : Nat) (h : (vget s.seq q).swst = .closed) :
    vget (s.setEv q m).seq q = { vget s.seq q with
      evbits := (vget s.seq q).evbits ||| m, setAt := s.now, setNow := (if s.sameTick (vget s.seq q).setAt then (vget s.seq q).setNow else 0) ||| m } ∧
    ∀ c : Fin 64, (s.ctxOf q c).st ≠ .armed → (s.setEv q m).ctxOf q c = s.ctxOf q c := by
  have e1 : vget (s.evOr q m).seq q = { vget s.seq q with
      evbits := (vget s.seq q).evbits ||| m, setAt := s.now, setNow := (if s.sameTick (vget s.seq q).setAt then (vget s.seq q).setNow else 0) ||| m } := by
    unfold State.evOr; simp [vget_vmod]
  have e2 : (s.evOr q m).ctx = s.ctx := by unfold State.evOr; simp
  unfold State.setEv
  simp only
  split
  · rename_i hc
    unfold State.emergCore
    simp only
    rw [if_neg (by simp [e1, h])]
    constructor
    · simp [e1]
    · intro c hn
      have : (s.evOr q m).ectx q ≠ c := by
        intro e
        rw [e] at hc
        simp [State.ctxOf_eq e2] at hc
        exact hn hc.2
      unfold State.ctxOf
      simp only [State.modCtx_ctx]
      rw [vget_vmod _ _ _ q.isLt, vget_vmod_ne _ _ _ _ this, e2]
  · exact ⟨e1, fun c _ => State.ctxOf_eq e2 _ _⟩

/-- What the close of an open swath leaves: no swath, event bit 11, and each context as the end of the owner's wait leaves it. -/
theorem State.closeSwath_ends (s : State) (q : Fin 16) (h : (vget s.seq q).swst = .opened) :
    (vget (s.closeSwath q).seq q).swst = .closed ∧ (vget (s.closeSwath q).seq q).owner = none ∧ (vget (s.closeSwath q).seq q).evbits.testBit 11 = true ∧
    ∃ w : State, w.ctx = s.ctx ∧ (vget w.seq q).owner = (vget s.seq q).owner ∧ w.now = s.now ∧ ∀ c : Fin 64, ((w.ownerEnd q false).ctxOf q c).st ≠ .armed → (s.closeSwath q).ctxOf q c = (w.ownerEnd q false).ctxOf q c := by
  unfold State.closeSwath
  rw [if_pos (by simp [h])]
  have hs := State.closeCore_seq s q
  obtain ⟨w, hw, h1, h2, h3⟩ := State.closeCore_ctx s q
  have hse := State.setEv_closed (s.closeCore q) q 0x800 hs.1
  refine ⟨by rw [hse.1]; exact hs.1, by rw [hse.1]; exact hs.2, by rw [hse.1]; show (_ ||| 2048 : Nat).testBit 11 = true; rw [Nat.testBit_or]; simp [show Nat.testBit 2048 11 = true by decide], w, h1, h2, h3, ?_⟩
  intro c hc
  have := hse.2 c (by rw [State.ctxOf_eq hw]; exact hc)
  rw [this, State.ctxOf_eq hw]

end Sys2Proof.Machine
end

