-- ==== Sys2Proof/WellFormed.lean ====
section
/-! DEFINITION. When a command is one that the outside can send: each operand fits the field, the frame or the message that carries it. -/
namespace Sys2Proof
open Sys2Proof.Machine

/-- A host writes inside its own 64-bit address space. -/
def Env.ok (e : Env) : Bool := e.hostWrites.all (fun w => w.addr < 2 ^ 64)

/-- Where a message comes from: a network address of up to 128 bits and a UDP port. -/
def Path.ok : Path → Bool
  | .pcie _ _ => true
  | .net _ addr udp => addr < 2 ^ 128 && udp < 65536

/-- The fields of a message fit its header (11 R337), and a tag is 16 bytes where AUTH is 1. -/
def Msg.ok (m : Msg) : Bool :=
  m.path.ok && m.session < 65536 && m.counter < 2 ^ 64 && m.xid < 2 ^ 32 && m.len < 65536 && m.payload.length ≤ 8192 &&
    m.tag.length == (if m.auth then 16 else 0)

/-- A sparse map lists only keys and values below its bounds. -/
def mapOk (keys vals : Nat) (l : SMap Nat) : Bool := l.all (fun x => x.1 < keys && x.2 < vals)

/-- The eight temperatures of a telemetry frame (07 R229). -/
def tempsOk (l : List (Option Int)) : Bool :=
  l.length == 8 && l.all (fun t => match t with | some v => -32768 ≤ v && v < 32768 | none => true)

/-- The codes of an upstream frame: 10 bits each, and no more than the longest frame has (07 R209, R229). -/
def codesOk (l : List Nat) : Bool := l.length ≤ 294 && l.all (· < 1024)

/-- Bits that a lane turns over: symbols of a frame with fire symbols inserted, and bits of their codes. -/
def noiseOk (l : List (Nat × Nat)) : Bool := l.all (fun x => x.1 < 8192 && x.2 < 1024)

/-- What an I2C read brings is at most six bytes (08 R283). -/
def I2cEnd.fits : I2cEnd → Bool
  | .ok data => data < 2 ^ 48
  | .nack | .timeout => true

/-- The command is well formed. -/
def WellFormed (i : Instr) : Bool :=
  match i with
  | .nop e _ => e.ok
  | .halt e _ => e.ok
  | .jmp e _ => e.ok
  | .brc e _ => e.ok
  | .call e _ => e.ok
  | .ret e _ => e.ok
  | .loop e _ => e.ok
  | .fence e _ => e.ok
  | .ldi e _ => e.ok
  | .add e _ => e.ok
  | .sub e _ => e.ok
  | .andI e _ => e.ok
  | .orI e _ => e.ok
  | .cmp e _ => e.ok
  | .mov e _ => e.ok
  | .ldst e _ => e.ok
  | .ldt e _ => e.ok
  | .ldpos e _ => e.ok
  | .swath e _ => e.ok
  | .lines e _ => e.ok
  | .blank e _ => e.ok
  | .spit e _ => e.ok
  | .lineQueueAppend e _ => e.ok
  | .endswath e _ => e.ok
  | .swathEnd e _ => e.ok
  | .pitch e _ => e.ok
  | .rowdly e _ => e.ok
  | .energy e _ => e.ok
  | .waitpos e _ => e.ok
  | .waittime e _ => e.ok
  | .waitev e _ => e.ok
  | .waitax e _ => e.ok
  | .waitComplete e _ _ => e.ok
  | .waitTimeout e _ _ => e.ok
  | .signal e _ => e.ok
  | .mark e _ => e.ok
  | .programCommit e _ => e.ok
  | .yieldI e _ => e.ok
  | .move e _ => e.ok
  | .vel e _ => e.ok
  | .acc e _ => e.ok
  | .stop e _ => e.ok
  | .home e _ => e.ok
  | .camtrig e _ => e.ok
  | .camset e _ => e.ok
  | .contextDispatch e _ => e.ok
  | .contextSaveDone e _ => e.ok
  | .contextRestoreDone e _ => e.ok
  | .seqSignal e _ _ _ => e.ok
  | .seqGsignal e _ _ _ => e.ok
  | .seqEvbitsClear e _ _ _ => e.ok
  | .encoderEdge e _ _ _ => e.ok
  | .phaseWindowEnd e _ => e.ok
  | .encLos e _ => e.ok
  | .encLosClear e _ => e.ok
  | .still e _ => e.ok
  | .ssiFrameStart e _ => e.ok
  | .ssiTimeout e _ => e.ok
  | .ssiFrameDone e _ _ _ => e.ok
  | .zEdge e _ _ => e.ok
  | .encRebase e _ _ _ _ => e.ok
  | .encClrq e _ _ => e.ok
  | .lineEvent e _ => e.ok
  | .fireInstant e _ => e.ok
  | .rowTrigger e _ _ => e.ok
  | .readPoint e _ => e.ok
  | .caravanDescriptor e _ => e.ok
  | .indexBlock e _ => e.ok
  | .streamFetch e _ => e.ok
  | .duneHeader e _ => e.ok
  | .engineGrant e _ => e.ok
  | .duneDecodeDone e _ => e.ok
  | .engineAbandon e _ _ => e.ok
  | .streamEn e _ _ _ _ => e.ok
  | .ringFlush e _ _ _ _ => e.ok
  | .ldpClrcnt e _ _ => e.ok
  | .telemetryFrame e _ rx => e.ok && codesOk rx
  | .teltoExpiry e _ => e.ok
  | .ackFrame e _ rx => e.ok && codesOk rx
  | .ackTimeout e _ => e.ok
  | .pushStart e _ => e.ok
  | .bandLoadDone e _ => e.ok
  | .pushRetry e _ => e.ok
  | .tableFrameSend e _ => e.ok
  | .controlFrameSend e _ => e.ok
  | .responseFrame e _ rx => e.ok && codesOk rx
  | .responseTimeout e _ => e.ok
  | .upstreamVoid e _ rx => e.ok && codesOk rx
  | .missWindowEnd e _ => e.ok
  | .hvctlOn e _ _ => e.ok
  | .hvctlOff e _ _ => e.ok
  | .hvsettleExpiry e _ => e.ok
  | .firClrcnt e _ _ => e.ok
  | .safeNAssert e => e.ok
  | .safeNRelease e => e.ok
  | .portUp e _ _ => e.ok
  | .portDown e _ _ => e.ok
  | .portCal e _ _ => e.ok
  | .klClrcnt e _ _ => e.ok
  | .laneCalDone e _ => e.ok
  | .wakeDone e _ => e.ok
  | .wakeTimeout e _ => e.ok
  | .identTimeout e _ => e.ok
  | .configDone e _ => e.ok
  | .linkLost e _ => e.ok
  | .portAutoRetry e _ => e.ok
  | .prbsStart e _ _ _ _ => e.ok
  | .prbsStop e _ _ => e.ok
  | .prbsRunEnd e _ upFlips downFlips => e.ok && upFlips.all (· < 781250) && downFlips.all (· < 3125000)
  | .eyeSweep e _ _ _ => e.ok
  | .hregAccess e _ _ _ _ _ => e.ok
  | .headFireSymbol e _ noise => e.ok && noiseOk noise
  | .headLineFrame e _ noise => e.ok && noiseOk noise
  | .headTableFrame e _ noise => e.ok && noiseOk noise
  | .headSync e _ noise => e.ok && noiseOk noise
  | .headDrop e _ noise => e.ok && noiseOk noise
  | .headControlFrame e _ noise _ => e.ok && noiseOk noise
  | .headTelemetrySend e _ temps _ _ _ sense _ => e.ok && tempsOk temps && mapOk 1024 4 sense
  | .camLine e _ _ => e.ok
  | .frameStart e _ => e.ok
  | .frameEnd e _ => e.ok
  | .lineSlot e _ => e.ok
  | .frameComplete e _ => e.ok
  | .camNoclk e _ => e.ok
  | .camClockReturn e _ => e.ok
  | .camTrig e _ _ => e.ok
  | .positionTrigger e _ => e.ok
  | .trigPulse e _ => e.ok
  | .trigTimeout e _ => e.ok
  | .camSetreq e _ _ _ => e.ok
  | .settingsWindow e _ => e.ok
  | .settingsWriteDone e _ _ => e.ok
  | .camPop e _ _ => e.ok
  | .camClrcnt e _ _ => e.ok
  | .i2cCommand e _ _ _ _ _ _ => e.ok
  | .i2cDone e _ res => e.ok && res.fits
  | .ptrigSkipWindow e _ => e.ok
  | .visionResult e => e.ok
  | .healthApply e => e.ok
  | .senseApply e _ => e.ok
  | .testApply e => e.ok
  | .nzctlOut e _ _ _ => e.ok
  | .nzctlRelease e _ _ _ => e.ok
  | .testArm e _ _ _ _ _ _ _ => e.ok
  | .testDisarm e _ => e.ok
  | .alignArm e _ _ _ _ _ _ => e.ok
  | .alignDisarm e _ => e.ok
  | .motCmdMove e _ _ _ => e.ok
  | .motCmdMoveA e _ _ _ => e.ok
  | .motCmdVel e _ _ _ => e.ok
  | .motCmdAcc e _ _ _ => e.ok
  | .motCmdStop e _ _ => e.ok
  | .motCmdHome e _ _ _ => e.ok
  | .axisEn e _ _ => e.ok
  | .axisDis e _ _ => e.ok
  | .axisRelease e _ _ => e.ok
  | .decelStart e _ => e.ok
  | .microstepSwitch e _ => e.ok
  | .moveEnd e _ => e.ok
  | .homeIndex e _ => e.ok
  | .homeFail e _ => e.ok
  | .sessionOpen e m => e.ok && m.ok
  | .sessionConfirm e m => e.ok && m.ok
  | .sessionClose e m => e.ok && m.ok
  | .heartbeat e m => e.ok && m.ok
  | .revokeSession e m => e.ok && m.ok
  | .revokeUnit e m => e.ok && m.ok
  | .keyInstall e m => e.ok && m.ok
  | .keyErase e m => e.ok && m.ok
  | .netSet e m => e.ok && m.ok
  | .claim e m => e.ok && m.ok
  | .release e m => e.ok && m.ok
  | .memAlloc e m => e.ok && m.ok
  | .memFree e m => e.ok && m.ok
  | .ptSet e m => e.ok && m.ok
  | .tlbInval e m => e.ok && m.ok
  | .faultResume e m => e.ok && m.ok
  | .memWrite e m => e.ok && m.ok
  | .memRead e m => e.ok && m.ok
  | .ctxLoad e m => e.ok && m.ok
  | .ctxArm e m => e.ok && m.ok
  | .ctxStart e m => e.ok && m.ok
  | .ctxStop e m => e.ok && m.ok
  | .commit e m => e.ok && m.ok
  | .stageDiscard e m => e.ok && m.ok
  | .snapshot e m => e.ok && m.ok
  | .calRestore e m => e.ok && m.ok
  | .calLane e m => e.ok && m.ok
  | .calAlign e m => e.ok && m.ok
  | .calDark e m => e.ok && m.ok
  | .calFlat e m => e.ok && m.ok
  | .calTemptrim e m => e.ok && m.ok
  | .calDramrt e m => e.ok && m.ok
  | .calAbort e m => e.ok && m.ok
  | .calDone e _ lanes => e.ok && lanes.length ≤ 10
  | .calTimeout e _ => e.ok
  | .repairRow e m => e.ok && m.ok
  | .repairRetest e m => e.ok && m.ok
  | .nvWrite e m => e.ok && m.ok
  | .nvRead e m => e.ok && m.ok
  | .fwStage e m => e.ok && m.ok
  | .fwSwitch e m => e.ok && m.ok
  | .fwProbationEnd e _ => e.ok
  | .regRead e m => e.ok && m.ok
  | .regWrite e m => e.ok && m.ok
  | .authWrite e m => e.ok && m.ok
  | .registerWrite e _ _ data => e.ok && 1 ≤ data.length && data.length ≤ 8
  | .windowAccess e _ offset _ data => e.ok && 1 ≤ data.length && offset.toNat + data.length ≤ 2 ^ 27
  | .cmdOverrun e _ => e.ok
  | .evrdWrite e _ _ => e.ok
  | .evack e m _ => e.ok && m.ok
  | .eventsSend e _ => e.ok
  | .eventsResend e _ => e.ok
  | .datagramDiscard e _ => e.ok
  | .caravanStart e _ _ _ => e.ok
  | .caravanKick e _ _ => e.ok
  | .caravanCancel e _ _ => e.ok
  | .tableWalkDone e _ => e.ok
  | .leaseLapse e _ => e.ok
  | .kennelCutoff e _ => e.ok
  | .kennelRelease e _ => e.ok
  | .confirmTimeout e _ => e.ok
  | .commitValidate e _ => e.ok
  | .catchupDone e _ => e.ok
  | .commitPoint e _ => e.ok
  | .commitTimeout e _ => e.ok
  | .snapshotPeriodic e _ => e.ok
  | .dramRefresh e _ _ => e.ok
  | .dramTempPoll e _ _ => e.ok
  | .dramPowerdown e _ _ => e.ok
  | .patrolScrub e _ corrected _ => e.ok && corrected ≤ 16
  | .zeroFill e _ => e.ok
  | .eccWriteback e _ => e.ok
  | .tableHeal e _ => e.ok
  | .sheepdogWindow e => e.ok
  | .sheepdogWindowEnd e _ => e.ok
  | .dictTest e _ => e.ok
  | .dictTestDone e _ _ => e.ok
  | .flipArm e _ _ => e.ok
  | .eccWindowEnd e _ _ => e.ok
  | .ptpSync e _ _ _ _ _ _ _ _ => e.ok
  | .ptpAnnounce e _ _ _ _ prio steps _ _ _ => e.ok && prio.length ≤ 8 && steps < 65536
  | .ptpDelayResp e _ _ seqId _ _ _ _ => e.ok && seqId < 65536
  | .ptpPdelayReq e _ _ seqId _ => e.ok && seqId < 65536
  | .ptpDelayReqSend e => e.ok
  | .ptpDiscard e => e.ok
  | .syncTimeout e => e.ok
  | .announceTimeout e => e.ok
  | .ptpLinkLoss e => e.ok
  | .timeSet e _ _ => e.ok
  | .nowsecRead e => e.ok
  | .feedMonitorSample e _ _ _ => e.ok
  | .feedTrip e _ => e.ok
  | .gapRelease e => e.ok
  | .feedFail e _ => e.ok
  | .feedSync e _ => e.ok
  | .shareImbal e _ => e.ok
  | .loadTransferTest e _ => e.ok
  | .loadTransferEnd e _ _ => e.ok
  | .feedReshare e _ _ => e.ok
  | .vsafeTest e _ _ => e.ok
  | .vsafeTestEnd e _ => e.ok
  | .pwsClrcnt e _ => e.ok
  | .vsafeLost e => e.ok
  | .vsafeRestore e => e.ok
  | .refclkLost e => e.ok
  | .refclkRestore e => e.ok
  | .dieSensorSample e readings => e.ok && readings.all (fun t => -32768 ≤ t && t < 32768)
  | .boardSensorSample e td0 td1 _ _ => e.ok && [td0, td1].all (fun t => -32768 ≤ t && t < 32768)
  | .thermtrip e => e.ok
  | .coldStart e _ chCap _ mts lanes _ _ _ badRows => e.ok && chCap < 256 && mts < 65536 && lanes.length = 40 && badRows.all (· < 786432)
  | .warmReset e _ _ => e.ok
  | .deviceReady e => e.ok
  | .perst e _ => e.ok
  | .mgmtLost e => e.ok
  | .mgmtResume e => e.ok
  | .evqGap e _ => e.ok
  | .msixUnmask e _ _ => e.ok
  | .ssiDataReady e _ => e.ok
  | .cruise e _ => e.ok
  | .prbsRunStart e _ => e.ok
  | .headSymbolAlignment e _ _ => e.ok
  | .headPowerUp e _ _ _ _ rowmap => e.ok && mapOk 8192 8 rowmap
  | .netAddressChange e _ => e.ok
  | .porstNLow e => e.ok
  | .dmaReadCompletion e _ _ => e.ok

end Sys2Proof
end

