-- ==== Sys2Proof/Tests/Slice0.lean ====
section
/-! SUPPORT. Tests: commands that are not well formed, known answers, and for the obligations concrete states and operands that meet their hypotheses. -/
namespace Sys2Proof.Tests
open Sys2Proof Sys2Proof.Machine
set_option Elab.async false

/-- A Ramest word from its fields (03 R57). -/
def word (op cf a b imm : Nat) : Word := fields [(56, 8, op), (52, 4, cf), (48, 4, a), (44, 4, b), (0, 44, imm)]

/-- The device is ready at instant t. -/
def ready (t : Nat := 0) : State := { State.reset with phase := .ready, now := t }

/-- A ready device in which context 5 of sequencer 3 runs the word w for session 7. -/
def prog (w : Word) (f : Ctx → Ctx := id) (g : Seq → Seq := id) : State :=
  ({ State.reset with phase := .ready, now := 1000, pstore := [(pKey 3 5 0, w)] }.modSeq 3 (fun y => g { y with
    resident := some 5 })).modCtx 3 5 (fun x => f { x with st := .running, nwords := 8, session := 7 })

/-- The hypotheses of a statement about an instruction of n ticks hold of s, in which context 5 of sequencer 3 runs w. -/
abbrev Runs (s : State) (w : Word) (n : Nat) (p : State → State → Ram → Ctx → Prop) : Prop :=
  (s.arrive {}).Ends 3 5 (ramOf w) n ∧ p (s.arrive {}) ((s.arrive {}).fetched 3 5) (ramOf w) ((s.arrive {}).ctxOf 3 5)

/-- Unit n is claimed by session 7. -/
def held (s : State) (n : Nat) : State := s.modMgt (fun m => { m with claims := vset m.claims n (some 7) })

/-- The state that a command answers. -/
def after (c : Instr) (s : State) : State :=
  match exec c s with
  | .next t => t
  | _ => State.reset

/-! ### Ill-formed commands -/

theorem smoke_env : WellFormed (.nop { hostWrites := [⟨0, 2 ^ 64, 0⟩] } 0) = false := by decide +kernel
theorem smoke_env_edge : WellFormed (.nop { hostWrites := [⟨0, 2 ^ 64 - 1, 0⟩] } 0) = true := by decide +kernel
/-- A host write outside the address space makes any command ill formed. -/
def badEnv : Env := { hostWrites := [⟨0, 2 ^ 64, 0⟩] }
theorem smoke_env_of_each_family :
    ([.readPoint badEnv 0, .caravanStart badEnv (.bar0 0) 0 0, .telemetryFrame badEnv 0 [],
      .camLine badEnv 0 [], .claim badEnv {}, .calDone badEnv 0 [], .registerWrite badEnv 0 0 [0], .porstNLow badEnv,
      .ptpDelayResp badEnv 0 0 0 0 0 0 0, .encoderEdge badEnv 0 true true] : List Instr).all
      (fun i => WellFormed i == false) = true := by decide +kernel
theorem smoke_msg :
    ([{ session := 65536 }, { counter := 2 ^ 64 }, { xid := 2 ^ 32 }, { len := 65536 }, { payload := List.replicate 8193 0 },
      { tag := [0] }, { auth := true }, { path := .net 0 (2 ^ 128) 0 }, { path := .net 0 0 65536 }] : List Msg).all
      (fun m => WellFormed (.heartbeat {} m) == false) = true := by decide +kernel
theorem smoke_msg_edge : WellFormed (.heartbeat {} {
    session := 65535, counter := 2 ^ 64 - 1, xid := 2 ^ 32 - 1, len := 65535,
    auth := true, tag := List.replicate 16 0, path := .net 7 (2 ^ 128 - 1) 65535, payload := List.replicate 8192 0 }) = true := by
  decide +kernel
theorem smoke_codes :
    ([.telemetryFrame {} 0 [1024], .telemetryFrame {} 0 (List.replicate 295 0), .ackFrame {} 0 [1024], .responseFrame {} 0 [1024],
      .upstreamVoid {} 0 [1024], .headLineFrame {} 0 [(8192, 0)], .headTableFrame {} 0 [(0, 1024)], .headSync {} 0 [(0, 1024)],
      .headDrop {} 0 [(8192, 0)], .headControlFrame {} 0 [(0, 1024)] false, .headFireSymbol {} 0 [(8192, 0)],
      .prbsRunEnd {} 0 [781250] [], .prbsRunEnd {} 0 [] [3125000]] : List Instr).all (fun i => WellFormed i == false) = true ∧
    WellFormed (.telemetryFrame {} 0 (List.replicate 294 1023)) = true ∧
    WellFormed (.prbsRunEnd {} 0 [781249] [3124999]) = true := by
  decide +kernel
theorem smoke_sized_operands :
    ([.headTelemetrySend {} 0 [] 0 0 0 [] false,
      .headTelemetrySend {} 0 (List.replicate 8 (some 32768)) 0 0 0 [] false,
      .headTelemetrySend {} 0 (List.replicate 8 none) 0 0 0 [(1024, 0)] false, .i2cDone {} 0 (.ok (2 ^ 48)),
      .calDone {} 0 (List.replicate 11 (0, 0)), .registerWrite {} 0 0 [], .registerWrite {} 0 0 (List.replicate 9 0),
      .windowAccess {} 0 0 true [], .windowAccess {} 0 (2 ^ 27 - 1) true [0, 0]] : List Instr).all
      (fun i => WellFormed i == false) = true := by decide +kernel
theorem smoke_device_operands :
    ([.patrolScrub {} 0 17 false, .ptpAnnounce {} 0 0 0 0 (List.replicate 9 0) 0 0 0 false, .ptpAnnounce {} 0 0 0 0 [] 65536 0 0 false,
      .ptpDelayResp {} 0 0 65536 0 0 0 0, .ptpPdelayReq {} 0 0 65536 0, .dieSensorSample {} (Vector.replicate 16 32768),
      .boardSensorSample {} (-32769) 0 true true, .headPowerUp {} 0 0 0 0 [(8192, 0)], .headPowerUp {} 0 0 0 0 [(0, 8)]] :
      List Instr).all (fun i => WellFormed i == false) = true := by decide +kernel
theorem smoke_cold_start (p : Fin 4) (r : Fin 2) (a : Bool) (b : Vector Bool 2) (v : Vector (Fin 65536) 2) :
    WellFormed (.coldStart {} p 255 r 65535 (List.replicate 40 (0, 0)) a b v [786431]) = true ∧
    WellFormed (.coldStart {} p 256 r 0 (List.replicate 40 (0, 0)) a b v []) = false ∧
    WellFormed (.coldStart {} p 0 r 65536 (List.replicate 40 (0, 0)) a b v []) = false ∧
    WellFormed (.coldStart {} p 0 r 0 (List.replicate 39 (0, 0)) a b v []) = false ∧
    WellFormed (.coldStart {} p 0 r 0 (List.replicate 40 (0, 0)) a b v [786432]) = false :=
  ⟨rfl, rfl, rfl, rfl, rfl⟩

/-! ### Known answers from outside the model -/

/-- CRC-32C of the nine digits: the check value of the polynomial's catalogue entry. -/
theorem test_crc32c : crc32c (ascii "123456789") = 0xE3069283 := by decide +kernel
/-- HMAC-SHA-256, the first test case of RFC 4231. -/
theorem test_hmac : leAt ((hmac (List.replicate 20 0x0B) (ascii "Hi There")).take 4) 0 4 = 0x614C34B0 := by decide +kernel

/-! ### The queue, reset and the whole machine -/

theorem wit_StepRunsTheFrontCommand : let s : State := { State.reset with pending := [.nop {} 3, .halt {} 4] }
    s.pending = .nop {} 3 :: [.halt {} 4] := by decide +kernel
theorem wit_EmptyQueueLetsOneTickPass : State.reset.pending = [] ∧ State.reset.Calm ∧ State.reset.pws.fwWait = none :=
  ⟨rfl, ⟨rfl, by decide +kernel⟩, rfl⟩
theorem wit_ResetMemoryCanonical : State.reset.MemOk := by
  unfold State.MemOk
  decide +kernel
theorem wit_MemoryFormKeptByEveryStep : ∃ t, step State.reset = .next t := ⟨_, rfl⟩
theorem test_idle_tick : (match step State.reset with | .next t => t.now | _ => 0) = 4 := by decide +kernel
theorem test_no_word_spells_a_command : decodeTableWord 64 0x1100000000000000 = none := by decide +kernel

/-! ### Ramest -/

theorem wit_ArithmeticResultsAndFlags :
    (let w := word 0x10 0 2 0 (2 ^ 43); Runs (prog w) w 1 (fun _ _ i _ => i.op = 0x10 ∧
      i.only 1 true false (if i.flag 0 then 2 ^ 20 - 1 else imm44) = true)) ∧
    (let w := word 0x10 1 2 0 (2 ^ 20 - 1); Runs (prog w) w 1 (fun _ _ i _ => i.op = 0x10 ∧
      i.only 1 true false (if i.flag 0 then 2 ^ 20 - 1 else imm44) = true)) ∧
    (let w := word 0x11 0 15 1 0; Runs (prog w) w 1 (fun _ _ i _ => i.op = 0x11 ∧ i.arith = true)) ∧
    (let w := word 0x12 1 2 0 (2 ^ 44 - 1); Runs (prog w) w 1 (fun _ _ i _ => i.op = 0x12 ∧ i.arith = true)) ∧
    (let w := word 0x13 0 0 15 0; Runs (prog w) w 1 (fun _ _ i _ => i.op = 0x13 ∧ i.arith = true)) ∧
    (let w := word 0x14 0 2 15 0; Runs (prog w) w 1 (fun _ _ i _ => i.op = 0x14 ∧ i.arith = true)) ∧
    (let w := word 0x15 1 2 0 0; Runs (prog w) w 1 (fun _ _ i _ => i.op = 0x15 ∧ i.arith = true)) ∧
    (let w := word 0x16 0 2 15 0; Runs (prog w) w 1 (fun _ _ i _ => i.op = 0x16 ∧ i.only 1 true true 0 = true ∧ i.flag 0 = false)) ∧
    (let w := word 0x16 1 2 3 0; Runs (prog w) w 1 (fun _ _ i _ => i.op = 0x16 ∧ i.only 1 true true 0 = true ∧ i.flag 0 = true ∧
      i.b < 4)) := by
  refine ⟨?_, ?_, ?_, ?_, ?_, ?_, ?_, ⟨?_, ?_⟩⟩
  all_goals decide +kernel
theorem test_add_wraps : let t := after (.add {} 3) (prog (word 0x11 1 2 0 1) (fun x => x.wr 2 (wd (2 ^ 64 - 1))))
    (t.ctxOf 3 5).rd 2 = 0 ∧ (t.ctxOf 3 5).z = true ∧ (t.ctxOf 3 5).c = true ∧ (t.ctxOf 3 5).n = false ∧ (t.ctxOf 3 5).pc = 1 := by
  decide +kernel
theorem test_cmp_signed : let t := after (.cmp {} 3) (prog (word 0x15 0 1 2 0) (fun x => (x.wr 1 (wd (2 ^ 63))).wr 2 1))
    (t.ctxOf 3 5).n = true ∧ (t.ctxOf 3 5).c = false ∧ (t.ctxOf 3 5).z = false := by decide +kernel
theorem test_mov_ident : ((after (.mov {} 3) (prog (word 0x16 1 2 3 0))).ctxOf 3 5).rd 2 = wd 0x70305 := by decide +kernel

theorem wit_ControlFlow :
    (let w := word 0x00 0 0 0 0; Runs (prog w) w 1 (fun _ _ i _ => i.op = 0x00 ∧ i.only 0 false false 0 = true)) ∧
    (let w := word 0x02 0 0 0 7; Runs (prog w) w 2 (fun _ _ i x => i.op = 0x02 ∧ i.jump = true ∧ x.target i < x.nwords)) ∧
    (let w := word 0x02 0 0 0 8; Runs (prog w) w 2 (fun _ _ i x => i.op = 0x02 ∧ i.jump = true ∧ x.nwords ≤ x.target i)) ∧
    (let w := word 0x03 1 0 0 7; Runs (prog w (fun x => { x with z := true })) w 2 (fun _ _ i x => i.op = 0x03 ∧ i.cf < 13 ∧
      i.only 15 false false imm44 = true ∧ x.cond i.cf = true ∧ i.imm < x.nwords)) ∧
    (let w := word 0x03 1 0 0 7; Runs (prog w) w 1 (fun _ _ i x => i.op = 0x03 ∧ i.cf < 13 ∧
      i.only 15 false false imm44 = true ∧ x.cond i.cf = false)) ∧
    (let w := word 0x04 0 0 0 7; Runs (prog w (fun x => { x with stack := List.replicate 7 0 })) w 2 (fun _ _ i x =>
      i.op = 0x04 ∧ i.jump = true ∧ x.stack.length < 8 ∧ x.target i < x.nwords)) ∧
    (let w := word 0x04 0 0 0 7; Runs (prog w (fun x => { x with stack := List.replicate 8 0 })) w 2 (fun _ _ i x =>
      i.op = 0x04 ∧ i.jump = true ∧ 8 ≤ x.stack.length)) ∧
    (let w := word 0x05 0 0 0 0; Runs (prog w (fun x => { x with stack := [7] })) w 2 (fun _ _ i x =>
      i.op = 0x05 ∧ i.only 0 false false 0 = true ∧ x.stack = 7 :: [] ∧ 7 < x.nwords)) ∧
    (let w := word 0x05 0 0 0 0; Runs (prog w) w 2 (fun _ _ i x => i.op = 0x05 ∧ i.only 0 false false 0 = true ∧ x.stack = [])) ∧
    (let w := word 0x06 0 1 0 0; Runs (prog w (fun x => x.wr 1 2)) w 2 (fun _ _ i x => i.op = 0x06 ∧
      i.only 0 true false imm44 = true ∧ x.rd i.a ≠ 0 ∧ x.rd i.a ≠ 1 ∧ i.imm < x.nwords)) ∧
    (let w := word 0x06 0 1 0 0; Runs (prog w (fun x => x.wr 1 1)) w 1 (fun _ _ i x => i.op = 0x06 ∧
      i.only 0 true false imm44 = true ∧ x.rd i.a = 1)) ∧
    (let w := word 0x06 0 1 0 0; Runs (prog w) w 1 (fun _ _ i x => i.op = 0x06 ∧ i.only 0 true false imm44 = true ∧ x.rd i.a = 0)) := by
  refine ⟨?_, ?_, ?_, ?_, ?_, ?_, ?_, ⟨?_, ?_, ?_, ?_, ?_⟩⟩
  all_goals decide +kernel
theorem test_call_pushes : let t := after (.call {} 3) (prog (word 0x04 0 0 0 6))
    (t.ctxOf 3 5).pc = 6 ∧ (t.ctxOf 3 5).stack = [1] := by decide +kernel

theorem wit_LoadInstructions :
    (let w := word 0x17 0 2 0 0x0711; Runs ((prog w).modMgt (fun m => { m with claims := vset m.claims (uAx 7) (some 7) })) w 4
      (fun _ f i x => i.op = 0x17 ∧ i.ldst = true ∧ f.ldstBound 3 x.session x.prio (i.imm % 256) (i.imm / 256) = true)) ∧
    (let w := word 0x17 0 2 0 0x0711; Runs (prog w) w 4 (fun _ f i x => i.op = 0x17 ∧ i.ldst = true ∧
      f.ldstBound 3 x.session x.prio (i.imm % 256) (i.imm / 256) = false)) ∧
    (let w := word 0x17 0 2 0 0x0710; Runs (prog w) w 4 (fun u _ i x => i.op = 0x17 ∧ i.ldst = true ∧ i.imm % 256 = 0x10 ∧
      u.holds x.session (uAx (i.imm / 256)) = false)) ∧
    (let w := word 0x17 0 2 0 0x0020; Runs (prog w (fun x => { x with prio := 2 })) w 4 (fun u _ i x => i.op = 0x17 ∧
      i.ldst = true ∧ i.imm % 256 = 0x20 ∧ x.prio = 2 ∧ u.holds x.session (i.imm / 256) = false)) ∧
    (let w := word 0x17 0 2 0 0x0001; Runs (prog w) w 4 (fun _ _ i _ => i.op = 0x17 ∧ i.ldst = true ∧ i.imm % 256 = 1)) ∧
    (let w := word 0x18 0 2 0 0; Runs (prog w) w 2 (fun _ _ i _ => i.op = 0x18 ∧ i.only 0 true false 7 = true ∧ i.imm = 0)) ∧
    (let w := word 0x18 0 2 0 4; Runs (prog w) w 2 (fun _ _ i _ => i.op = 0x18 ∧ i.only 0 true false 7 = true ∧ i.imm < 5)) ∧
    (let w := word 0x19 0 2 0 0x03; Runs (prog w) w 4 (fun _ _ i _ => i.op = 0x19 ∧ i.ldpos = true ∧ i.imm / 16 = 0)) ∧
    (let w := word 0x19 0 2 0 0x13; Runs (prog w) w 4 (fun _ _ i _ => i.op = 0x19 ∧ i.ldpos = true)) := by
  refine ⟨?_, ?_, ?_, ?_, ?_, ?_, ?_, ⟨?_, ?_⟩⟩
  all_goals decide +kernel

/-- Port 0 is in the segment of sequencer 3. -/
def segOne (s : State) : State := s.setReg 0x01000198 (wd 1)

/-- An open swath of context 5. -/
def swathOpen (y : Seq) : Seq := { y with swst := .opened, owner := some 5, resident := some 5 }

/-- The swath of context 5 has just been aborted. -/
def cut (y : Seq) : Seq := { y with aborted := some (1000, 5) }

theorem wit_PrintSettings :
    (let w := word 0x21 1 0 0 (2 ^ 32 - 1); Runs (prog w id swathOpen) w 2 (fun u f i x => x.attr ≠ 1 ∧ i.op = 0x21 ∧
      i.counted = true ∧ f.countOk 3 5 (x.count i) = true ∧ f.ownsSwath 3 5 = true ∧ (vget u.seq 3).lnq.length < 16)) ∧
    (let w := word 0x22 1 0 0 1; Runs (prog w id (fun y => { swathOpen y with lnq := List.replicate 15 {} })) w 2 (fun u f i x =>
      x.attr ≠ 1 ∧ i.op = 0x22 ∧ i.counted = true ∧ f.countOk 3 5 (x.count i) = true ∧ f.ownsSwath 3 5 = true ∧
      (vget u.seq 3).lnq.length < 16)) ∧
    (let w := word 0x24 0 1 0 255; Runs (prog w (fun x => x.wr 1 1) swathOpen) w 2 (fun u f i x => x.attr ≠ 1 ∧ i.op = 0x24 ∧
      i.only 0 true false 0xFF = true ∧ f.countOk 3 5 (x.rd i.a).toNat = true ∧ f.ownsSwath 3 5 = true ∧
      (vget u.seq 3).lnq.length < 16)) ∧
    (let w := word 0x21 1 0 0 1; Runs (prog w) w 2 (fun _ f i x => x.attr ≠ 1 ∧ i.op = 0x21 ∧ i.counted = true ∧
      f.countOk 3 5 (x.count i) = true ∧ f.ownsSwath 3 5 = false ∧ f.cutShort 3 5 = false)) ∧
    (let w := word 0x22 1 0 0 1; Runs (prog w) w 2 (fun _ f i x => x.attr ≠ 1 ∧ i.op = 0x22 ∧ i.counted = true ∧
      f.countOk 3 5 (x.count i) = true ∧ f.ownsSwath 3 5 = false ∧ f.cutShort 3 5 = false)) ∧
    (let w := word 0x24 0 1 0 0; Runs (prog w (fun x => x.wr 1 1)) w 2 (fun _ f i x => x.attr ≠ 1 ∧ i.op = 0x24 ∧
      i.only 0 true false 0xFF = true ∧ f.countOk 3 5 (x.rd i.a).toNat = true ∧ f.ownsSwath 3 5 = false ∧
      f.cutShort 3 5 = false)) ∧
    (let w := word 0x21 1 0 0 1; Runs (prog w id cut) w 2 (fun _ f i x => x.attr ≠ 1 ∧ i.op = 0x21 ∧ i.counted = true ∧
      f.countOk 3 5 (x.count i) = true ∧ f.ownsSwath 3 5 = false ∧ f.cutShort 3 5 = true)) ∧
    (let w := word 0x22 1 0 0 1; Runs (prog w id cut) w 2 (fun _ f i x => x.attr ≠ 1 ∧ i.op = 0x22 ∧ i.counted = true ∧
      f.countOk 3 5 (x.count i) = true ∧ f.ownsSwath 3 5 = false ∧ f.cutShort 3 5 = true)) ∧
    (let w := word 0x24 0 1 0 0; Runs (prog w (fun x => x.wr 1 1) cut) w 2 (fun _ f i x => x.attr ≠ 1 ∧ i.op = 0x24 ∧
      i.only 0 true false 0xFF = true ∧ f.countOk 3 5 (x.rd i.a).toNat = true ∧ f.ownsSwath 3 5 = false ∧
      f.cutShort 3 5 = true)) ∧
    (let w := word 0x21 1 0 0 0; Runs (prog w) w 2 (fun _ f i x => x.attr ≠ 1 ∧ i.op = 0x21 ∧ i.counted = true ∧
      f.countOk 3 5 (x.count i) = false)) ∧
    (let w := word 0x22 0 1 0 0; Runs (prog w (fun x => x.wr 1 (wd (2 ^ 32)))) w 2 (fun _ f i x => x.attr ≠ 1 ∧ i.op = 0x22 ∧
      i.counted = true ∧ f.countOk 3 5 (x.count i) = false)) ∧
    (let w := word 0x24 0 1 0 0; Runs (prog w (fun x => x.wr 1 (wd (2 ^ 32)))) w 2 (fun _ f i x => x.attr ≠ 1 ∧ i.op = 0x24 ∧
      i.only 0 true false 0xFF = true ∧ f.countOk 3 5 (x.rd i.a).toNat = false)) ∧
    (let w := word 0x26 0 1 0 0; Runs (prog w (fun x => x.wr 1 256)) w 2 (fun _ _ i x => x.attr ≠ 1 ∧ i.op = 0x26 ∧
      i.only 0 true false 0 = true ∧ 256 ≤ (x.rd i.a).toNat)) ∧
    (let w := word 0x27 0 1 0 0; Runs (prog w (fun x => x.wr 1 16)) w 2 (fun _ _ i x => x.attr ≠ 1 ∧ i.op = 0x27 ∧
      i.only 0 true false 0 = true ∧ (x.rd i.a).toNat ≠ 0 ∧ ((x.rd i.a).toNat < 8 ∨ 16 ≤ (x.rd i.a).toNat))) ∧
    (let w := word 0x25 0 1 0 0; Runs (prog w (fun x => x.wr 1 (wd (2 ^ 32)))) w 2 (fun _ _ i x => x.attr ≠ 1 ∧ i.op = 0x25 ∧
      i.only 0 true false 0 = true ∧ 2 ^ 32 ≤ (x.rd i.a).toNat ∧ (x.rd i.a).toNat < 2 ^ 48)) ∧
    (let w := word 0x25 0 1 0 0; Runs (prog w (fun x => x.wr 1 (wd (2 ^ 48)))) w 2 (fun _ _ i x => x.attr ≠ 1 ∧ i.op = 0x25 ∧
      i.only 0 true false 0 = true ∧ ((x.rd i.a).toNat < 2 ^ 32 ∨ 2 ^ 48 ≤ (x.rd i.a).toNat))) ∧
    (let w := word 0x26 0 1 0 0; Runs (prog w (fun x => x.wr 1 255)) w 2 (fun _ _ i x => x.attr ≠ 1 ∧ i.op = 0x26 ∧
      i.only 0 true false 0 = true ∧ (x.rd i.a).toNat < 256)) ∧
    (let w := word 0x27 0 1 0 0; Runs (prog w (fun x => x.wr 1 8)) w 2 (fun _ _ i x => x.attr ≠ 1 ∧ i.op = 0x27 ∧
      i.only 0 true false 0 = true ∧ ((x.rd i.a).toNat = 0 ∨ 8 ≤ (x.rd i.a).toNat ∧ (x.rd i.a).toNat < 16))) := by
  refine ⟨?_, ?_, ?_, ?_, ?_, ?_, ?_, ⟨?_, ?_, ?_, ?_, ?_, ?_, ?_, ⟨?_, ?_, ?_, ?_⟩⟩⟩
  all_goals decide +kernel

theorem wit_WaitInstructions :
    (let w := word 0x07 15 0 0 0; Runs (prog w) w 1 (fun _ f i _ => i.op = 0x07 ∧ i.only 15 false true 0 = true ∧
      f.waitHolds 3 5 (.fence (i.flag 0) (i.flag 1) (i.flag 2) (i.flag 3)) = true)) ∧
    (let w := word 0x30 0 1 2 0; Runs (prog w (fun x => (x.wr 1 7).wr 2 2)) w 2 (fun _ f i x => i.op = 0x30 ∧
      i.only 3 true true (if i.flag 1 then 3 else 0) = true ∧
      f.waitHolds 3 5 (.pos (if i.flag 1 then i.imm % 4 else f.rf (0x01000100 + 8 * 3) 1 0) (x.rdI i.a) (i.flag 0)) = false ∧
      (x.rd i.b).toNat = 2)) ∧
    (let w := word 0x31 0 1 0 0; Runs (prog w (fun x => x.wr 1 251)) w 2 (fun _ f i x => i.op = 0x31 ∧ i.only 3 true true 0 = true ∧
      i.cf ≠ 3 ∧ f.waitHolds 3 5 (.tick (x.rd i.a).toNat) = false ∧ (x.rd i.b).toNat ≠ 1 ∧ (x.rd i.b).toNat ≠ 2)) ∧
    (let w := word 0x31 1 1 0 0; Runs (prog w (fun x => x.wr 1 1)) w 2 (fun _ f i x => i.op = 0x31 ∧ i.only 3 true true 0 = true ∧
      i.cf ≠ 3 ∧ f.waitHolds 3 5 (.tick (f.ticks - 1 + (x.rd i.a).toNat)) = true)) ∧
    (let w := word 0x31 2 1 3 0; Runs (prog w (fun x => (x.wr 1 (wd (2 ^ 60))).wr 3 3)) w 2 (fun _ f i x => i.op = 0x31 ∧
      i.only 3 true true 0 = true ∧ i.cf ≠ 3 ∧ f.waitHolds 3 5 (.devTime (x.rd i.a).toNat) = false ∧ (x.rd i.b).toNat ≠ 1 ∧
      (x.rd i.b).toNat ≠ 2)) ∧
    (let w := word 0x32 3 0 0 0x1800000; Runs (prog w) w 2 (fun _ f i _ => i.op = 0x32 ∧
      i.only 3 false true (2 ^ 25 - 1) = true ∧ i.imm ≠ 0 ∧ f.waitHolds 3 5 (.ev i.imm (i.flag 0) (i.flag 1)) = false)) ∧
    (let w := word 0x45 0 0 0 7; Runs (prog w) w 2 (fun _ f i x => i.op = 0x45 ∧ i.only 0 false true 7 = true ∧
      f.holds x.session (uAx i.imm) = false)) ∧
    (let w := word 0x45 0 0 0 7; Runs ((prog w).modMgt (fun m => { m with claims := vset m.claims (uAx 7) (some 7) })) w 2
      (fun _ f i x => i.op = 0x45 ∧ i.only 0 false true 7 = true ∧ f.holds x.session (uAx i.imm) = true)) := by
  refine ⟨?_, ?_, ?_, ?_, ?_, ?_, ?_, ?_⟩
  all_goals decide +kernel
theorem test_waitev_timeout_one : let t := after (.waitev {} 3) (prog (word 0x32 0 0 2 1) (fun x => x.wr 2 1))
    (t.ctxOf 3 5).t = true ∧ (t.ctxOf 3 5).pc = 1 ∧ (t.ctxOf 3 5).st = .running := by decide +kernel

/-- Context 5 of sequencer 3 waits. -/
def waits (k : WaitKind) (d : Option Nat) (ev : Nat := 0) : State :=
  ((ready 1000).modSeq 3 (fun y => { y with evbits := ev })).modCtx 3 5 (fun x => { x with
    st := .waiting, wait := some { kind := k, deadline := d } })

/-- Context 5 waits with the wait that ends as p says. -/
abbrev Waits (k : WaitKind) (d : Option Nat) (ev : Nat) (p : State → Prop) : Prop :=
  let u := (waits k d ev).arrive {}; (u.ctxOf 3 5).st = .waiting ∧ (u.ctxOf 3 5).wait = some { kind := k, deadline := d } ∧
    u.pws.gap = none ∧ p u

theorem wit_PendingWaitEnds :
    Waits (.ev 1 false true) none 1 (fun u => u.waitHolds 3 5 (.ev 1 false true) = true) ∧
    Waits (.ev 1 false true) (some 1001) 1 (fun u => u.waitHolds 3 5 (.ev 1 false true) = true ∧ u.expired 1001 = false) ∧
    Waits (.ev 1 false false) (some 1000) 2 (fun u => u.waitHolds 3 5 (.ev 1 false false) = false ∧ 1000 ≤ u.now) ∧
    Waits (.ev 1 false false) (some 996) 1 (fun u => u.waitHolds 3 5 (.ev 1 false false) = true ∧ u.expired 996 = true ∧
      996 ≤ u.now) ∧
    Waits (.ev 1 false false) (some 1000) 1 (fun u => u.waitHolds 3 5 (.ev 1 false false) = true ∧ u.expired 1000 = false ∧
      1000 ≤ u.now) ∧
    Waits (.ev 1 false false) (some 1004) 2 (fun u => u.waitHolds 3 5 (.ev 1 false false) = false ∧ u.now < 1004) := by
  decide +kernel
theorem test_waitev_clears : let t := after (.waitComplete {} 3 5) (waits (.ev 1 false true) none 3)
    (vget t.seq 3).evbits = 2 ∧ (t.ctxOf 3 5).st = .ready ∧ (t.ctxOf 3 5).t = false := by decide +kernel

theorem wit_HaltAndYield :
    (let w := word 0x01 0 0 0 0; Runs (prog w) w 1 (fun _ f i _ => i.only 0 false false 0 = true ∧ i.op = 0x01 ∧
      f.ownsSwath 3 5 = false)) ∧
    (let w := word 0x01 0 0 0 0; Runs (prog w id (fun y => { swathOpen y with lnq := [{}] })) w 1 (fun _ f i _ =>
      i.only 0 false false 0 = true ∧ i.op = 0x01 ∧ f.ownsSwath 3 5 = true ∧ f.swathDone 3 = false)) ∧
    (let w := word 0x01 0 0 0 0; Runs (prog w id swathOpen) w 1 (fun _ f i _ =>
      i.only 0 false false 0 = true ∧ i.op = 0x01 ∧ f.ownsSwath 3 5 = true ∧ f.swathDone 3 = true)) ∧
    (let w := word 0x39 0 0 0 0; Runs (prog w) w 1 (fun _ f i x => i.only 0 false false 0 = true ∧ i.op = 0x39 ∧
      f.pick 3 x.prio = none)) ∧
    (let w := word 0x39 0 0 0 0; Runs ((prog w).modCtx 3 9 (fun x => { x with st := .ready })) w 1 (fun _ f i x =>
      i.only 0 false false 0 = true ∧ i.op = 0x39 ∧ (f.pick 3 x.prio).isSome = true)) := by
  refine ⟨?_, ?_, ?_, ?_, ?_⟩
  all_goals decide +kernel

theorem wit_SwathOpensAndEnds :
    (let w := word 0x20 0 1 2 0; Runs (prog w (fun x => x.wr 1 (wd (2 ^ 32 - 1))) (fun y => { y with pitch := 2 ^ 32 })) w 16
      (fun u f i x => x.attr ≠ 1 ∧ i.op = 0x20 ∧ i.only 0 true true 0 = true ∧ (x.rd i.a).toNat < 2 ^ 32 ∧
        (vget u.seq 3).pitch ≠ 0 ∧ (vget u.seq 3).swst = .closed ∧ f.segClaimed 3 x.session = true ∧
        (f.ctxOf 3 (f.ectx 3)).st ≠ .armed)) ∧
    (let w := word 0x20 0 1 2 0; Runs (segOne (prog w id (fun y => { y with pitch := 2 ^ 32 }))) w 16
      (fun u f i x => x.attr ≠ 1 ∧ i.op = 0x20 ∧ i.only 0 true true 0 = true ∧ (x.rd i.a).toNat < 2 ^ 32 ∧
        (vget u.seq 3).pitch ≠ 0 ∧ (vget u.seq 3).swst = .closed ∧ f.segClaimed 3 x.session = false)) ∧
    (let w := word 0x20 0 1 2 0; Runs (prog w) w 16 (fun u _ i x => x.attr ≠ 1 ∧ i.op = 0x20 ∧ i.only 0 true true 0 = true ∧
        (vget u.seq 3).pitch = 0)) ∧
    (let w := word 0x20 0 1 2 0; Runs (prog w id (fun y => { swathOpen y with pitch := 2 ^ 32 })) w 16
      (fun u _ i x => x.attr ≠ 1 ∧ i.op = 0x20 ∧ i.only 0 true true 0 = true ∧ (x.rd i.a).toNat < 2 ^ 32 ∧
        (vget u.seq 3).pitch ≠ 0 ∧ (vget u.seq 3).swst = .opened)) ∧
    (let w := word 0x23 0 0 0 0; Runs (prog w id swathOpen) w 2 (fun _ f i x => x.attr ≠ 1 ∧ i.op = 0x23 ∧
      i.only 0 false false 0 = true ∧ f.ownsSwath 3 5 = true ∧ f.swathDone 3 = true)) ∧
    (let w := word 0x23 0 0 0 0; Runs (prog w id (fun y => { swathOpen y with lnq := [{}] })) w 2 (fun _ f i x => x.attr ≠ 1 ∧
      i.op = 0x23 ∧ i.only 0 false false 0 = true ∧ f.ownsSwath 3 5 = true ∧ f.swathDone 3 = false)) ∧
    (let w := word 0x23 0 0 0 0; Runs (prog w) w 2 (fun _ f i x => x.attr ≠ 1 ∧ i.op = 0x23 ∧ i.only 0 false false 0 = true ∧
      f.ownsSwath 3 5 = false ∧ f.cutShort 3 5 = false)) ∧
    (let w := word 0x23 0 0 0 0; Runs (prog w id cut) w 2 (fun _ f i x => x.attr ≠ 1 ∧ i.op = 0x23 ∧
      i.only 0 false false 0 = true ∧ f.ownsSwath 3 5 = false ∧ f.cutShort 3 5 = true)) ∧
    (let u := ((waits (.append {}) none).modSeq 3 (fun y => { swathOpen y with lnq := List.replicate 16 {} })).arrive {};
      (vget u.seq 3).swst = .opened ∧ (vget u.seq 3).owner = some 5 ∧
      (u.ctxOf 3 5).wait = some { kind := .append {}, deadline := none } ∧ 16 ≤ (vget u.seq 3).lnq.length ∧
      u.swathDone 3 = false) ∧
    (let u := ((waits (.append {}) none).modSeq 3 (fun y => { swathOpen y with lnq := List.replicate 15 {} })).arrive {};
      (vget u.seq 3).swst = .opened ∧ (vget u.seq 3).owner = some 5 ∧
      (u.ctxOf 3 5).wait = some { kind := .append {}, deadline := none } ∧ (vget u.seq 3).lnq.length < 16) ∧
    (let u := ((waits .endswath none).modSeq 3 swathOpen).arrive {};
      (vget u.seq 3).swst = .opened ∧ (vget u.seq 3).owner = some 5 ∧ u.swathDone 3 = true ∧
      (u.ctxOf 3 5).wait = some { kind := .endswath, deadline := none } ∧ (u.ctxOf 3 5).st = .waiting) ∧
    (let u := ((waits .closing none).modSeq 3 swathOpen).arrive {};
      (vget u.seq 3).swst = .opened ∧ (vget u.seq 3).owner = some 5 ∧ u.swathDone 3 = true ∧
      (u.ctxOf 3 5).wait = some { kind := .closing, deadline := none } ∧ (u.ctxOf 3 5).st = .waiting) := by
  refine ⟨?_, ?_, ?_, ?_, ?_, ?_, ?_, ⟨?_, ?_, ?_, ?_, ?_⟩⟩
  all_goals decide +kernel

theorem wit_SignalsMarksAndCommits :
    (let w := word 0x33 0 0 0 255; Runs (prog w) w 1 (fun _ _ i _ => i.op = 0x33 ∧ i.only 0 false false (2 ^ 25 - 1) = true ∧
      i.imm % 256 ≠ 0 ∧ i.imm / 256 = 0)) ∧
    (let w := word 0x33 0 0 0 0x800001; Runs (held (prog w) (uSeq 15)) w 1 (fun _ f i x => i.op = 0x33 ∧
      i.only 0 false false (2 ^ 25 - 1) = true ∧ i.imm % 256 ≠ 0 ∧ i.imm.testBit 24 = false ∧
      (sigTargets 3 (bitsN i.imm 23 8)).all (fun t => t == 3 || f.holds x.session (uSeq t)) = true)) ∧
    (let w := word 0x33 0 0 0 0x1800001; Runs (held (prog w) (uSeq 15)) w 1 (fun _ f i x => i.op = 0x33 ∧
      i.only 0 false false (2 ^ 25 - 1) = true ∧ i.imm % 256 ≠ 0 ∧ i.imm.testBit 24 = true ∧
      (sigTargets 3 (bitsN i.imm 23 8)).all (fun t => t == 3 || f.holds x.session (uSeq t)) = true)) ∧
    (let w := word 0x33 0 0 0 0x800001; Runs (prog w) w 1 (fun _ f i x => i.op = 0x33 ∧
      i.only 0 false false (2 ^ 25 - 1) = true ∧ i.imm % 256 ≠ 0 ∧
      (sigTargets 3 (bitsN i.imm 23 8)).all (fun t => t == 3 || f.holds x.session (uSeq t)) = false)) ∧
    (let w := word 0x34 0 0 0 (2 ^ 44 - 1); Runs (prog w) w 4 (fun _ _ i _ => i.op = 0x34 ∧ i.only 0 false false imm44 = true ∧
      i.flag 0 = false)) ∧
    (let w := word 0x38 0 1 0 0; Runs (prog w (fun x => x.wr 1 (wd (2 ^ 32 - 1)))) w 8 (fun _ _ i x => i.op = 0x38 ∧
      i.only 0 true false 0 = true ∧ i.flag 0 = false ∧ (x.rd i.a).toNat < 2 ^ 32)) ∧
    (let u := (ready.modSess 7 (fun x => { x with st := .confirmed, cls := .production })).arrive {};
      u.phase = .ready ∧ u.writer (.cmd 7 false) = some 7 ∧ (u.ses 7).cls ≠ .observer) ∧
    (let u := (ready.modSess 7 (fun x => { x with st := .confirmed })).arrive {};
      u.phase = .ready ∧ u.writer (.cmd 7 false) = some 7 ∧ (u.ses 7).cls = .observer) := by
  refine ⟨?_, ?_, ?_, ?_, ?_, ?_, ?_, ?_⟩
  all_goals decide +kernel

theorem wit_MotionAndCameraInstructions :
    (let w := word 0x40 1 1 0 7; Runs (prog w (fun x => x.wr 1 (wd (2 ^ 40 - 1)))) w 4 (fun _ f i x => x.attr ≠ 1 ∧ i.op = 0x40 ∧
      i.only 1 true false 7 = true ∧ (x.rdI i.a).natAbs < 2 ^ 40 ∧ f.holds x.session (uAx i.imm) = false)) ∧
    (let w := word 0x41 0 1 0 7; Runs (held (prog w) (uAx 7)) w 4 (fun _ f i x => x.attr ≠ 1 ∧ i.op = 0x41 ∧
      i.only 0 true false 7 = true ∧ (x.rd i.a).toNat < 2 ^ 32 ∧ f.holds x.session (uAx i.imm) = true)) ∧
    (let w := word 0x42 0 1 0 0; Runs (held (prog w) (uAx 0)) w 4 (fun _ f i x => x.attr ≠ 1 ∧ i.op = 0x42 ∧
      i.only 0 true false 7 = true ∧ (x.rd i.a).toNat < 2 ^ 32 ∧ f.holds x.session (uAx i.imm) = true)) ∧
    (let w := word 0x43 0 0 0 7; Runs (held (prog w) (uAx 7)) w 4 (fun _ f i x => x.attr ≠ 1 ∧ i.op = 0x43 ∧
      i.only 0 false false 7 = true ∧ f.holds x.session (uAx i.imm) = true)) ∧
    (let w := word 0x44 0 0 0 0x37; Runs (held (prog w) (uAx 7)) w 4 (fun _ f i x => x.attr ≠ 1 ∧ i.op = 0x44 ∧
      i.only 0 false false 0x37 = true ∧ f.holds x.session (uAx (i.imm % 8)) = true)) ∧
    (let w := word 0x50 0 0 0 3; Runs (prog w) w 2 (fun _ f i x => i.op = 0x50 ∧ i.only 0 false false 3 = true ∧
      f.holds x.session (uCam i.imm) = false)) ∧
    (let w := word 0x50 0 0 0 3; Runs (held (prog w) (uCam 3)) w 2 (fun _ f i x => i.op = 0x50 ∧ i.only 0 false false 3 = true ∧
      f.holds x.session (uCam i.imm) = true ∧ f.trigRefusal i.imm (.program 3 5) = 0)) ∧
    (let w := word 0x50 0 0 0 3; Runs ((held (prog w) (uCam 3)).modSafe (fun x => { x with refclk := true })) w 2 (fun _ f i x =>
      i.op = 0x50 ∧ i.only 0 false false 3 = true ∧ f.holds x.session (uCam i.imm) = true ∧
      f.trigRefusal i.imm (.program 3 5) ≠ 0)) ∧
    (let w := word 0x51 0 1 2 3; Runs (held (prog w (fun x => x.wr 1 255)) (uCam 3)) w 4 (fun u f i x => i.op = 0x51 ∧
      i.only 0 true true 3 = true ∧ (x.rd i.a).toNat < 256 ∧ f.holds x.session (uCam i.imm) = true ∧
      (vget u.cam i.imm).pend = none)) := by
  refine ⟨?_, ?_, ?_, ?_, ?_, ?_, ?_, ⟨?_, ?_⟩⟩
  all_goals decide +kernel

theorem wit_WhatStopsAContext :
    (let u := (prog (word 0x08 0 0 0 0)).arrive {}; u.fetch 3 = .fault 5 0x0301 0 ∧ (vget u.seq 3).freeAt ≤ u.now) ∧
    (let u := (prog 0 (fun x => { x with pc := 8 })).arrive {}; u.fetch 3 = .fault 5 0x030A 8 ∧ (vget u.seq 3).freeAt ≤ u.now) ∧
    (let u := ({ prog 0 with pstoreBad := [pKey 3 5 0] } : State).arrive {};
      u.fetch 3 = .fault 5 0x0304 0 ∧ (vget u.seq 3).freeAt ≤ u.now) ∧
    (let w := word 0x20 0 1 2 0; Runs (prog w (fun x => { x with attr := 1 })) w 16 (fun u _ i _ => i.op = 0x20 ∧
      (u.ctxOf 3 5).attr = 1)) ∧
    (let u := (prog 0).arrive {}; u.fetch 3 = .word 5 (ramOf 0) ∧ (ramOf 0).op ≠ 0x20) ∧
    (State.reset.arrive {}).fetch 3 = .idle := by
  refine ⟨?_, ?_, ?_, ?_, ?_, ?_⟩
  all_goals decide +kernel
theorem wit_WhatStopsAContext_row : (Instr.swath {} 3, 0x20, false) ∈ ramestRows {} 3 := by decide +kernel

/-- Context 5 runs, and context 9 of a higher level is READY; the next instruction boundary is at instant t. -/
def higher (t : Nat) : State :=
  ((prog 0).modCtx 3 9 (fun x => { x with st := .ready, prio := 1 })).modSeq 3 (fun y => { y with freeAt := t })

theorem wit_ContextsAreDispatched :
    (let u := (((ready 1000).modCtx 3 5 (fun x => { x with st := .ready })).modSeq 3 (fun y => { y with
        resident := some 5 })).arrive {};
      u.pws.gap = none ∧ u.phase = .ready ∧ (vget u.seq 3).disp = .idle ∧ u.running 3 = none ∧ u.pick 3 0 = some 5 ∧
      (vget u.seq 3).resident = some 5) ∧
    (let u := ((ready 1000).modCtx 3 5 (fun x => { x with st := .ready })).arrive {};
      u.pws.gap = none ∧ u.phase = .ready ∧ (vget u.seq 3).disp = .idle ∧ u.running 3 = none ∧ u.pick 3 0 = some 5 ∧
      (vget u.seq 3).resident = none) ∧
    (let u := ((waits (.tick 9999) none).modCtx 3 9 (fun x => { x with st := .ready })).modSeq 3 (fun y => { y with
        resident := some 5 }) |>.arrive {};
      u.pws.gap = none ∧ u.phase = .ready ∧ (vget u.seq 3).disp = .idle ∧ u.running 3 = none ∧ u.pick 3 0 = some 9 ∧
      (vget u.seq 3).resident = some 5 ∧ (u.ctxOf 3 5).st = .waiting) ∧
    (let u := (higher 1000).arrive {};
      u.pws.gap = none ∧ u.phase = .ready ∧ (vget u.seq 3).disp = .idle ∧ u.running 3 = some 5 ∧
      (u.pick 3 ((u.ctxOf 3 5).prio + 1)).isSome = true ∧ (vget u.seq 3).freeAt ≤ u.now ∧ u.now < (vget u.seq 3).freeAt + 4) ∧
    (let u := (higher 1001).arrive {};
      u.pws.gap = none ∧ u.phase = .ready ∧ (vget u.seq 3).disp = .idle ∧ u.running 3 = some 5 ∧
      (u.pick 3 ((u.ctxOf 3 5).prio + 1)).isSome = true ∧ u.now < (vget u.seq 3).freeAt) ∧
    (let u := (higher 996).arrive {};
      u.pws.gap = none ∧ u.phase = .ready ∧ (vget u.seq 3).disp = .idle ∧ u.running 3 = some 5 ∧
      (u.pick 3 ((u.ctxOf 3 5).prio + 1)).isSome = true ∧ (vget u.seq 3).freeAt + 4 ≤ u.now) ∧
    (let u := (((higher 1000).modCtx 3 5 (fun x => { x with st := .ready })).modSeq 3
        (fun y => { y with disp := .restoring 5 1000 })).arrive {};
      u.pws.gap = none ∧ u.phase = .ready ∧ (vget u.seq 3).disp = .restoring 5 1000 ∧ u.due 1000 256 = false ∧
      u.pick 3 ((u.ctxOf 3 5).prio + 1) = some 9) ∧
    (let u := (((ready 1256).modCtx 3 5 (fun x => { x with st := .ready })).modSeq 3
        (fun y => { y with disp := .restoring 5 1000 })).arrive {};
      u.pws.gap = none ∧ u.phase = .ready ∧ (vget u.seq 3).disp = .restoring 5 1000 ∧ u.due 1000 256 = true ∧
      (u.ctxOf 3 5).st = .ready ∧ u.ctxBad.contains (64 * 3 + 5) = false) ∧
    (let u := ((ready 1256).modSeq 3 (fun y => { y with
        disp := .saving 1000, resident := some 5 })).arrive {};
      u.pws.gap = none ∧ u.phase = .ready ∧ (vget u.seq 3).disp = .saving 1000 ∧ u.due 1000 256 = true ∧
      (let r := u.sramWrite (Config.storeIndex 197 true) 128; ({ r.1 with
        ctxBad := (if r.2.isEmpty then [] else [197]) ++ r.1.ctxBad.filter (· != 197) } : State).modSeq 3
        (fun y => { y with resident := none, disp := .idle })).pick 3 0 = none) ∧
    (let u := (((ready 1256).modCtx 3 9 (fun x => { x with st := .ready })).modSeq 3 (fun y => { y with
        disp := .saving 1000, resident := some 5 })).arrive {};
      u.pws.gap = none ∧ u.phase = .ready ∧ (vget u.seq 3).disp = .saving 1000 ∧ u.due 1000 256 = true ∧
      (let r := u.sramWrite (Config.storeIndex 197 true) 128; ({ r.1 with
        ctxBad := (if r.2.isEmpty then [] else [197]) ++ r.1.ctxBad.filter (· != 197) } : State).modSeq 3
        (fun y => { y with resident := none, disp := .idle })).pick 3 0 = some 9) ∧
    (let u := ((ready 1255).modSeq 3 (fun y => { y with disp := .saving 1000 })).arrive {};
      u.pws.gap = none ∧ u.phase = .ready ∧ (vget u.seq 3).disp = .saving 1000 ∧ u.due 1000 256 = false) := by
  refine ⟨?_, ?_, ?_, ?_, ?_, ?_, ?_, ⟨?_, ?_, ?_, ?_⟩⟩
  all_goals decide +kernel


/-! ### Encoders and lines -/

/-- A ready device at 2 ms with channel 1 as given. -/
def encAt (f : Enc → Enc) : State := (ready 10000000).modEnc 1 f
/-- Its channel 1 in SSI mode with 24 bits, a clock of 1 µs, SSITO 20 µs and MAXDIFF d. -/
def ssiAt (d : Nat) (f : Enc → Enc) : State :=
  ((encAt f).setReg 0x03400008 1).setReg 0x03400048
    (fields [(0, 6, 24), (8, 8, 99), (16, 16, 100), (40, 8, 20), (48, 16, d)])

theorem wit_EncoderEdgeMovesCount :
    (let u := (encAt id).arrive {}; u.islandUp = true ∧ u.encSsi 1 = false ∧ (vget u.enc 1).los = false ∧
      0 = (quadIndex false false + 4 - (vget u.enc 1).ab) % 4) ∧
    (let u := (encAt (fun x => { x with count := 2 ^ 47 - 1 })).arrive {}; u.islandUp = true ∧ u.encSsi 1 = false ∧
      (vget u.enc 1).los = false ∧ 1 = (quadIndex true false + 4 - (vget u.enc 1).ab) % 4) ∧
    (let u := (encAt id).arrive {}; u.islandUp = true ∧ u.encSsi 1 = false ∧ (vget u.enc 1).los = false ∧
      3 = (quadIndex false true + 4 - (vget u.enc 1).ab) % 4) ∧
    (let u := (encAt id).arrive {}; u.islandUp = true ∧ u.encSsi 1 = false ∧ (vget u.enc 1).los = false ∧
      2 = (quadIndex true true + 4 - (vget u.enc 1).ab) % 4) ∧
    State.reset.islandUp = false ∧ (ssiAt 0 id).encSsi 1 = true ∧
    (vget (encAt (fun x => { x with los := true })).enc 1).los = true := by
  refine ⟨?_, ?_, ?_, ?_, ?_, ?_⟩
  all_goals decide +kernel
theorem test_count_wraps :
    (vget ((encAt (fun x => { x with count := 2 ^ 47 - 1, ext := 2 ^ 47 - 1 })).happen (.pins 1 true false)).enc 1).count =
      -(2 ^ 47) := by decide +kernel
theorem test_double_transition : let x := vget ((encAt (fun x => { x with count := 9 })).happen (.pins 1 true true)).enc 1
    x.count = 9 ∧ x.qerr = 1 ∧ x.ab = 2 := by decide +kernel

/-- The distance of a counted edge past the extreme, in the channel's direction (05 R145). -/
abbrev edgeDist (x : Enc) (c : Int) : Int := if x.back then -wrapN 48 (c - x.ext) else wrapN 48 (c - x.ext)
theorem wit_EdgeAdvancesReversesOrJitters : 0 < edgeDist {} 1 ∧ edgeDist {} (-2) ≤ -2 ∧ edgeDist {} 0 = 0 ∧
    edgeDist { back := true } 1 = -1 ∧ 0 < edgeDist { ext := 2 ^ 47 - 1 } (-(2 ^ 47)) := by decide +kernel

theorem wit_EncoderEvents :
    (let u := (encAt (fun x => { x with phaseAt := some 5000000 })).arrive {}; u.islandUp = true ∧
      (vget u.enc 1).phaseAt = some 5000000 ∧ 5000000 + 5000000 ≤ u.now ∧ (vget u.enc 1).phaseMore = 0) ∧
    (let u := (encAt (fun x => { x with phaseAt := some 5000000, phaseMore := 1 })).arrive {}; u.islandUp = true ∧
      (vget u.enc 1).phaseAt = some 5000000 ∧ 5000000 + 5000000 ≤ u.now ∧ 0 < (vget u.enc 1).phaseMore) ∧
    (let u := (encAt id).arrive {}; u.islandUp = true ∧ (vget u.enc 1).los = false) ∧
    (let u := (encAt (fun x => { x with los := true, losAt := 5000000 })).arrive {}; u.islandUp = true ∧
      (vget u.enc 1).los = true ∧ (vget u.enc 1).losAt + 5000000 ≤ u.now) ∧
    (let u := (encAt (fun x => { x with phaseAt := some 9000000, los := true, losAt := 9000000 })).arrive {};
      (vget u.enc 1).phaseAt = some 9000000 ∧ u.now < 9000000 + 5000000 ∧ (vget u.enc 1).los = true ∧
      u.now < (vget u.enc 1).losAt + 5000000 ∧ (vget u.enc 1).st = .still) ∧
    ((encAt id).setReg 0x01000118 1).boundTo 1 = [3] ∧
    (let u := ({ encAt (fun x => { x with st := .moving, lastAdv := some 0 }) with now := 2000000000 }).arrive {}; u.islandUp = true ∧
      (vget u.enc 1).st ≠ .still ∧ (vget u.enc 1).lastAdv = some 0 ∧ 0 + u.encStillTo 1 ≤ u.now) := by
  refine ⟨?_, ?_, ?_, ?_, ?_, ?_, ?_⟩
  all_goals decide +kernel

/-- Channel 1 latches at Z. -/
def zen (f : Enc → Enc) : State := (encAt f).setReg 0x03400008 4
theorem wit_ZEdgeLatchesTheCount :
    (let u := (zen (fun x => { x with count := -5 })).arrive {}; u.islandUp = true ∧ (vget u.enc 1).z = false ∧ u.encZen 1 = true) ∧
    (let u := (zen (fun x => { x with z := true })).arrive {}; u.islandUp = true ∧ (vget u.enc 1).z = true) ∧
    (let u := (encAt id).arrive {}; u.islandUp = true ∧ u.encZen 1 = false) ∧
    (let u := (ssiAt 0 id).arrive {}; u.islandUp = true ∧ (vget u.enc 1).z = false ∧ u.encSsi 1 = true) := by
  refine ⟨?_, ?_, ?_, ?_⟩
  all_goals decide +kernel
theorem test_z_after_edge :
    (vget (after (.nop { dt := 36 } 0) (after (.encoderEdge {} 1 true false) (after (.zEdge {} 1 true) (zen id)))).enc 1).zLatch = 1 := by
  decide +kernel

/-- Session 7 is function 0's direct session: confirmed, of a class. -/
def writerOn (s : State) (cls : Machine.Class := .production) : State :=
  (s.modSess 7 (fun x => { x with st := .confirmed, cls := cls })).modXlt (fun x => { x with direct := vset x.direct 0 (some 7) })

theorem wit_EncoderRebase :
    (let u := (writerOn (encAt id)).arrive {}; u.phase = .ready ∧ u.writer (.bar0 0) = some 7 ∧ (u.ses 7).cls ≠ .observer ∧
      u.placedFrom 1 = []) ∧
    (let u := ((writerOn (encAt id)).modSeq 3 (fun y => { y with swst := .opened, swEnc := 1 })).arrive {}; u.phase = .ready ∧
      u.writer (.bar0 0) = some 7 ∧ (u.ses 7).cls ≠ .observer ∧ u.placedFrom 1 ≠ []) := by
  refine ⟨?_, ?_⟩
  all_goals decide +kernel

/-- An SSI frame with MAXDIFF d after a frame of value v is read out in binary code. -/
abbrev Clocked (d : Nat) (v : Option Nat) (p : State → Prop) : Prop :=
  let u := (ssiAt d (fun x => { x with ssi := .clocking 9000000, ssiPrev := v })).arrive {};
  (vget u.enc 1).ssi = .clocking 9000000 ∧ (vget u.enc 1).ssiPrev = v ∧
    9000000 + (u.ssiBits 1 + 1) * u.ssiClk 1 ≤ u.now ∧ u.ssiGray 1 = false ∧ p u

theorem wit_SsiFrames :
    (let u := (ssiAt 0 (fun x => { x with ssiStart := 9995000 })).arrive {}; u.islandUp = true ∧ u.encSsi 1 = true ∧
      (vget u.enc 1).ssi = .idle ∧ (vget u.enc 1).ssiStart + u.ssiPeriod 1 ≤ u.now) ∧
    (let u := (ssiAt 0 (fun x => { x with ssi := .waiting 9900000 })).arrive {}; (vget u.enc 1).ssi = .waiting 9900000 ∧
      u.now ≤ 9900000 + u.ssiTo 1 ∧ 9900000 + u.ssiTo 1 ≤ u.now) ∧
    Clocked 0 none (fun u => u.ssiMax 1 = 0) ∧
    Clocked 3 (some 0) (fun u => u.ssiMax 1 ≠ 0 ∧ u.ssiMax 1 < (wrapN (u.ssiBits 1) ((4 : Nat) - ((some 0).getD 4 : Nat))).natAbs) ∧
    Clocked 3 (some 0) (fun u => (wrapN (u.ssiBits 1) ((3 : Nat) - ((some 0).getD 3 : Nat))).natAbs ≤ u.ssiMax 1 ∧
      wrapN (u.ssiBits 1) ((3 : Nat) - ((some 0).getD 3 : Nat)) ≠ 0 ∧ (vget u.enc 1).los = false) ∧
    Clocked 3 none (fun u => wrapN (u.ssiBits 1) ((5 : Nat) - (none.getD 5 : Nat)) = 0 ∧ u.ssiMax 1 ≠ 0) := by
  refine ⟨?_, ?_, ?_, ?_, ?_, ?_⟩
  all_goals decide +kernel
theorem test_gray : grayToBin 5 6 = 4 ∧ grayToBin 5 0x80000000 = 0xFFFFFFFF := by decide +kernel

/-- A swath that opened forward at count 100 with a pitch of one count. -/
def seqAt (ni : Bool := false) : Seq := { swst := .opened, swP0 := 100, swPitch := 2 ^ 32, swNoInterp := ni }
theorem wit_BoundariesReached :
    (let m : Sample := { count := 100, at_ := 5 }; m.ssi = false ∧ seqAt.swBack = false ∧ 0 = seqAt.past m 0 0) ∧
    (let m : Sample := { count := 101, at_ := 5 }; m.ssi = false ∧ 0 ≤ seqAt.past m 0 0 ∧ seqAt.past m 0 0 = 2 ^ 40) ∧
    (let m : Sample := { count := 102, at_ := 5 }; m.ssi = false ∧ 2 ^ 40 < seqAt.past m 0 0) ∧
    (let m : Sample := { count := 99, at_ := 5, moving := true, period := 1000 }; m.ssi = false ∧ seqAt.past m 0 0 < 0 ∧
      seqAt.past m 0 0 ≤ -(2 ^ 40)) ∧
    (let m : Sample := { count := 100, at_ := 5 }; m.ssi = false ∧ seqAt.past m 0 128 < 0 ∧ m.moving = false) ∧
    (let m : Sample := { count := 100, at_ := 5, moving := true, period := 1000 }; m.ssi = false ∧ seqAt.past m 0 128 < 0 ∧
      -(2 ^ 40) < seqAt.past m 0 128 ∧ seqAt.swNoInterp = false ∧ m.moving = true ∧ m.back = seqAt.swBack) := by
  refine ⟨?_, ?_, ?_, ?_, ?_, ?_⟩
  all_goals decide +kernel

/-- An open swath of sequencer 3 on ports 9 and 10, with a line in hand as given. -/
def placed (l : List LnEntry) (inq : List Sample) (sched : List Sched) (live : List Nat) (t : Nat := 100000) : State :=
  ((ready t).modSeq 3 (fun y => { y with swst := .opened, swPitch := 2 ^ 32, lnq := l, swPorts := live })).modPlace 3
    (fun p => { p with inq := inq, sched := sched })

/-- Line 4 has sent its row trigger 0; the row trigger 1 of port 9 is due at 100032. -/
def oneRow : Sched := { line := 4, sent0 := true, rows := [(8 * 9 + 1, (100032, false))] }
/-- A swath on port 9 with that line; the port's current line has two row triggers. -/
def rowsAt : State := (placed [{ left := 2 }] [] [oneRow] [9]).modFp 9 (fun y => { y with lines := [{ line := 4, rt := 2 }] })

theorem wit_LinesArePlacedReadAndFired :
    (let u := (placed [{ left := 2 }] [{ count := 1, at_ := 99932 }] [] [9]).arrive {};
      (vget u.place 3).inq = [{ count := 1, at_ := 99932 }] ∧ (vget u.seq 3).swst = .opened ∧ u.pws.gap = none ∧
      99932 + 68 + u.heldFrom 99932 ≤ u.now) ∧
    (let u := (placed [] [] [] []).arrive {}; (vget u.place 3).inq = [] ∧
      (vget u.place 3).sched.find? (fun d => !d.sent0) = none ∧ u.rowBefore 3 9 (u.now + 33) = none ∧
      u.calFirst.readDue 3 = none) ∧
    (let u := (placed [{ left := 2 }] [] [{ line := 4, fireAt := 100032, at_ := 99000 }] [9]).arrive {};
      (vget u.place 3).sched.find? (fun d => !d.sent0) = some { line := 4, fireAt := 100032, at_ := 99000 } ∧
      100032 ≤ u.now + 32 ∧ u.pws.gap = none ∧ u.sameTick 99000 = false) ∧
    (let u := rowsAt.arrive {}; u.rowBefore 3 9 (u.now + 33) = some oneRow ∧ u.nextRow 9 oneRow = some (100032, false) ∧
      u.rowBefore 3 9 (100032 + 8) = some oneRow ∧ u.pws.gap = none ∧ (vget u.seq 3).live.contains 9 = true ∧
      oneRow.sent0 = true ∧ SMap.get oneRow.next 1 9 < u.rowsOf 9 oneRow.line ∧
      SMap.find oneRow.rows (8 * 9 + SMap.get oneRow.next 1 9) = some (100032, false)) ∧
    (let u := (placed [{ left := 2 }] [] [] []).arrive {}; let v := (u.calFirst.boundary 3 0).healthNow
      u.calFirst.readDue 3 = some 0 ∧ (vget v.seq 3).lnq = [{ left := 2 }] ∧ (vget v.seq 3).underrun = none ∧
      (vget v.seq 3).gone = [] ∧ (vget v.seq 3).live = []) := by
  refine ⟨?_, ?_, ?_, ?_, ?_⟩
  all_goals decide +kernel

/-- Port 9 reads line 0 of an entry in sequencer 3's swath: whether it is LATE, and whether another cause blanks it. -/
def reads0 (n0 : LnEntry) : Bool × Bool :=
  let u := (placed [n0] [] [] [9]).arrive {};
  let v := (u.calFirst.boundary 3 0).healthNow
  let y := (v.modSeq 3 (fun z => { z with readLn := some 0 })).each (vget v.seq 3).swPorts
    (fun z i => (z.noteRead i).modRing i (fun g => { g with readDone := some 0 }))
  ((vget v.seq 3).live.foldl (fun (a : State × Bool × Bool) i => ((a.1.readPort 3 0 n0 i).1,
    a.2.1 || (a.1.readPort 3 0 n0 i).2.1, a.2.2 || (a.1.readPort 3 0 n0 i).2.2)) (y, false, false)).2
theorem wit_LinesArePlacedReadAndFired_late : (reads0 { left := 2 }).1 = true ∧ reads0 { kind := .spit, left := 2 } = (false, true) := by
  decide +kernel

/-! ### Streams, Dunes and rings -/

/-- Port 9's stream as given; session 7 holds the port. -/
def strAt (f : Stream → Stream) : State := (held (writerOn (ready 1000000)) 9).modStr 9 f
/-- A block with its CRC-32C behind it. -/
def withCrc (b : List Byte) : List Byte := b ++ toLE 4 (crc32c b)
/-- A type 1 descriptor of a 64-byte extent at 10000h (11 R354). -/
def descBytes : List Byte := withCrc ([1, 1, 0, 0] ++ toLE 4 77 ++ toLE 8 0x10000 ++ toLE 4 64 ++ zeros 8 ++ toLE 8 0x20000 ++ zeros 24)
/-- The header of a stored Dune of one 1-bit line 5 for port p, with a payload whose CRC is given (04 R112). -/
def duneBytes (p line crc : Nat) : List Byte :=
  withCrc (toLE 4 0x454E5544 ++ toLE 4 line ++ [1, 6, BitVec.ofNat 8 p, 1] ++ toLE 4 1024 ++ toLE 4 0 ++ toLE 4 crc ++ zeros 4)
/-- The Dune of that header. -/
def dune5 (crc : Nat := 0) : Dune := duneOf 0x10000 (duneBytes 9 5 crc)

theorem wit_StreamsReadTheirChains_descriptor :
    (let u := (strAt (fun x => { x with step := .descriptor 64, st := .fetch, fetched := 1 :: zeros 63 })).arrive {};
      (vget u.str 9).step = .descriptor 64 ∧ (vget u.str 9).st = .fetch ∧ 64 ≤ (vget u.str 9).fetched.length ∧
      crc32c ((vget u.str 9).fetched.take 60) ≠ leAt (vget u.str 9).fetched 60 4) ∧
    (let b := descBytes; let u := (strAt (fun x => { x with step := .descriptor 64, st := .fetch, fetched := b })).arrive {};
      (vget u.str 9).step = .descriptor 64 ∧ (vget u.str 9).st = .fetch ∧ (vget u.str 9).fetched = b ∧ 64 ≤ b.length ∧
      crc32c (b.take 60) = leAt b 60 4 ∧ byteAt b 0 = 1 ∧ byteAt b 1 < 2 ∧ leAt b 2 2 = 0) ∧
    (let b := descBytes; leAt b 8 8 < 2 ^ 48 ∧ leAt b 8 8 % 16 = 0 ∧ leAt b 28 8 < 2 ^ 48 ∧ leAt b 28 8 % 64 = 0 ∧
      leAt b 36 24 = 0 ∧ leAt b 16 4 % 16 = 0 ∧ 48 ≤ leAt b 16 4 ∧ leAt b 20 4 = 0 ∧ leAt b 24 4 = 0) ∧
    (let u := (strAt (fun x => { x with step := .indexBlock 64, st := .fetch, fetched := zeros 4096, desc := some {} })).arrive {};
      (vget u.str 9).step = .indexBlock 64 ∧ (vget u.str 9).desc = some {} ∧ (vget u.str 9).st = .fetch ∧
      4096 ≤ (vget u.str 9).fetched.length ∧ leAt (vget u.str 9).fetched 0 4 ≠ 0x58444944) := by
  refine ⟨?_, ?_, ?_, ?_⟩
  all_goals decide +kernel

/-- A result is the value v. -/
def okIs {α β : Type} [DecidableEq β] (r : Except α β) (v : β) : Bool := match r with | .ok x => decide (x = v) | .error _ => false
/-- A result is the error v. -/
def errIs {α β : Type} [DecidableEq α] (r : Except α β) (v : α) : Bool := match r with | .ok _ => false | .error x => decide (x = v)

/-- A host memory with the two table entries of VA 10000h (11 R348, R349). -/
def tables : List Host.Cell := memWrite (memWrite [] 0x10000 (toLE 8 0x20003)) 0x20008 (toLE 8 0x30003)
theorem wit_StreamsReadTheirChains_reads :
    (let y := ((strAt (fun x => { x with step := .extent 0x10000 64, st := .fetch })).arrive {}).strSettle 9;
      y.holder 9 = some 7 ∧ y.strWant 9 = some (0x10000, 32)) ∧
    (let w : Walk := { session := 7, va := 0x10000, asker := .stream 9 }
      let u := (({ strAt id with hostMem := Vector.replicate 4 tables }.modXlt (fun x => { x with walks := [w] })).modSess 7
        (fun x => { x with root := 0x10001 })).arrive {};
      u.xlt.walks = w :: [] ∧ okIs ((u.modXlt (fun z => { z with walks := [] })).walkGrant.walk 7 0x10000 false true)
        { session := 7, vpage := 1, dram := false, ppage := 3, w := true } = true) ∧
    (let w : Walk := { session := 7, va := 0x10000, asker := .stream 9 }
      let u := ((strAt (fun x => { x with step := .extent 0x10000 64, st := .fetch })).modXlt
        (fun x => { x with walks := [w] })).arrive {};
      let y := (u.modXlt (fun z => { z with walks := [] })).walkGrant.emit (.aer (u.ses 7).fn .ca);
      u.xlt.walks = w :: [] ∧ (u.ses 7).net = false ∧ errIs (y.walk 7 0x10000 false false) (0x020A, none) = true ∧
      (y.strWant 9).isSome = true) ∧
    (let r : DmaRead := { va := 0x10000, len := 32, addr := 0x30000 }
      let u := (strAt (fun x => { x with reads := [r] })).arrive {};
      (vget u.str 9).reads = r :: [] ∧ r.dead = false ∧ r.dram = false ∧ u.holder 9 = some 7) := by
  refine ⟨?_, ?_, ?_, ?_⟩
  all_goals decide +kernel

/-- Port 9's stream at the header of the Dune b, within an extent with `left` bytes left. -/
def atHeader (b : List Byte) (left : Nat) : State :=
  (strAt (fun x => { x with step := .extent 0x10000 left, st := .fetch, fetched := b })).modSeq 3 (fun y => { y with
    swst := .opened, swPorts := [9] })
theorem wit_DunesReachTheRing_header :
    (let u := (atHeader (duneBytes 9 5 0) 1056).arrive {}; (vget u.str 9).step = .extent 0x10000 1056 ∧ (vget u.str 9).st = .fetch ∧
      (vget u.str 9).dune = none ∧ 32 ≤ 1056 ∧ 32 ≤ (vget u.str 9).fetched.length ∧
      u.duneCheck 9 (vget u.str 9).fetched (duneOf 0x10000 (vget u.str 9).fetched) (some 1056) (vget u.str 9).entry = none ∧
      u.portOpen 9 = true) ∧
    (let u := (atHeader (duneBytes 9 5 0) 1055).arrive {}; (vget u.str 9).step = .extent 0x10000 1055 ∧ (vget u.str 9).dune = none ∧
      u.duneCheck 9 (vget u.str 9).fetched (duneOf 0x10000 (vget u.str 9).fetched) (some 1055) (vget u.str 9).entry =
        some (0x0407, true)) ∧
    (let u := (atHeader (duneBytes 8 5 0) 1056).arrive {};
      u.duneCheck 9 (vget u.str 9).fetched (duneOf 0x10000 (vget u.str 9).fetched) (some 1056) (vget u.str 9).entry =
        some (0x0406, false)) ∧
    (let u := (atHeader (zeros 32) 1056).arrive {}; leAt (vget u.str 9).fetched 0 4 ≠ 0x454E5544) := by
  refine ⟨?_, ?_, ?_, ?_⟩
  all_goals decide +kernel
/-- A stored Dune of one line 5 with 16 payload bytes of the CRC c, whose input is in. -/
def dune16 (c : Nat) : Dune := { first := 5, lines := 1, pack := 2, stored := true, clen := 16, ucrc := c }
/-- 446 codes of 9 bits that decode to a line of 1,024 zero bytes: clear codes, growing strings, and the end code (04 R116). -/
def slowCodes : List Byte :=
  toLE 502 ((List.replicate 400 256 ++ [0] ++ (List.range 43).map (fun i => 258 + i) ++ [290, 257]).foldr (fun c n => 512 * n + c) 0)
/-- The coded Dune of those codes: more of them than its data's rate allows (04 R118). -/
def slowDune : Dune := { first := 5, lines := 1, pack := 2, stored := false, clen := 502, ncodes := 446, ucrc := crc32c (zeros 1024) }
/-- Port 9's engine decodes d with the input b; `front` are the commands that come. -/
abbrev Decoding (d : Dune) (b : List Byte) (p : State → Prop) (front : List Instr := []) : Prop :=
  let u := { strAt (fun x => { x with st := .decode, dune := some d, fetched := b, lastByte := 991808 }) with pending := front }.arrive {};
  (vget u.str 9).dune = some d ∧ (vget u.str 9).st = .decode ∧ p u
/-- The input of port 9's stream is in, and no flush comes in this tick. -/
def inputDone (d : Dune) (u : State) : Bool :=
  decide (32 + d.clen ≤ (vget u.str 9).fetched.length) && decide ((vget u.eng (vget u.str 9).eng).doneAt ≤ u.now) &&
    !u.flushComes 9

set_option maxRecDepth 100000 in
theorem wit_DunesReachTheRing_engine :
    (let u := (strAt (fun x => { x with st := .waitEng, dune := some dune5 })).arrive {}; (vget u.eng 2).owner = none ∧
      (vget u.eng 2).out = false ∧ (vget u.eng 2).testing = none ∧ (vget u.eng 2).freeAt ≤ u.now ∧
      rotPick 64 u.engLast (fun i => (vget u.str i).st == .waitEng) = some 9 ∧ (vget u.str 9).dune = some dune5 ∧
      (vget u.ring 9).base < dune5.first + dune5.lines ∧ (vget u.ring 9).admits dune5.first dune5.lines = true) ∧
    (let u := (strAt id).arrive {}; rotPick 64 u.engLast (fun i => (vget u.str i).st == .waitEng) = none) ∧
    Decoding (dune16 1) (zeros 48) (fun u => inputDone (dune16 1) u = true ∧ errIs ((dune16 1).decode (((vget u.str 9).fetched.drop 32).take 16)) 0x0404 = true) ∧
    Decoding (dune16 (crc32c (zeros 16))) (zeros 48) (fun u => inputDone (dune16 0) u = true ∧
      okIs ((dune16 (crc32c (zeros 16))).decode (((vget u.str 9).fetched.drop 32).take 16)) (zeros 16) = true) ∧
    Decoding slowDune (zeros 32 ++ slowCodes) (fun u => inputDone slowDune u = true ∧ slowDune.slow = true) ∧
    okIs (slowDune.decode slowCodes) (zeros 1024) = true ∧
    Decoding (dune16 1) (zeros 48) (fun u => u.flushComes 9 = true) [.ringFlush {} (.cmd 7 true) 9 0 false] ∧
    Decoding (dune16 1) [] (fun u => (vget u.str 9).fetched.length < 32 + (dune16 1).clen ∧
      (vget u.str 9).lastByte + 8192 + u.heldFrom (vget u.str 9).lastByte ≤ u.now ∧ u.byteComes 9 = false ∧
      (vget u.str 9).engEcc = 0) ∧
    (let u := { strAt (fun x => { x with reads := [{}] }) with pending := [.dmaReadCompletion {} 9 .ok] }.arrive {}; u.byteComes 9 = true) := by
  refine ⟨?_, ?_, ?_, ?_, ?_, ?_, ?_, ⟨?_, ?_⟩⟩
  all_goals decide +kernel
theorem wit_StoredDunesDecode : dune5.stored = true ∧ crc32c [] = 0 ∧ dune5.ucrc = 0 ∧ crc32c [0] ≠ 0 := by
  decide +kernel

theorem wit_StreamControls :
    (let u := (writerOn (ready 0)).arrive {}; u.phase = .ready ∧ u.writer (.bar0 0) = some 7 ∧ u.holds 7 9 = false ∧
      writerAuth (.bar0 0) = false) ∧
    (let u := (strAt id).arrive {}; u.phase = .ready ∧ u.writer (.cmd 7 true) = some 7 ∧ u.holds 7 9 = true ∧
      writerAuth (.cmd 7 true) = true ∧ (vget u.str 9).st = .stopped ∧ (vget u.str 9).st ≠ .decode ∧ u.portOpen 9 = false) ∧
    (let u := (strAt (fun x => { x with st := .idle })).arrive {}; u.holds 7 9 = true ∧ (vget u.str 9).chain = 0 ∧
      (vget u.str 9).st = .idle) ∧
    (let u := (strAt (fun x => { x with chain := 1, st := .fetch })).arrive {}; u.holds 7 9 = true ∧ (vget u.str 9).chain ≠ 0 ∧
      (vget u.str 9).chain = 1) ∧
    (let u := (strAt (fun x => { x with chain := 2, consumed := true, st := .idle })).arrive {}; u.holds 7 9 = true ∧
      (vget u.str 9).chain = 2 ∧ (vget u.str 9).consumed = true ∧ (vget u.str 9).st = .idle) ∧
    (let u := (atHeader [] 0).arrive {}; u.holds 7 9 = true ∧ writerAuth (.cmd 7 true) = true ∧ u.portOpen 9 = true) := by
  refine ⟨?_, ?_, ?_, ?_, ?_, ?_⟩
  all_goals decide +kernel

/-! ### Axes -/

/-- Axis 2 as given; session 7, a Maintenance session, holds it. -/
def axAt (f : Axis → Axis) : State := (held (writerOn (ready 1000) .maintenance) (uAx 2)).modAx 2 f

theorem wit_HostMotionCommands :
    (let u := (axAt (fun x => { x with st := .idle })).arrive {}; u.phase = .ready ∧ u.writer (.cmd 7 true) = some 7 ∧
      writerAuth (.cmd 7 true) = true ∧ (vget u.ax 2).cmdBusy = false ∧ u.holds 7 (uAx 2) = true) ∧
    (let u := (((axAt (fun x => { x with st := .idle, homed := true, vel := 1000, acc := 1000 })).setReg 0x03500190
        (fields [(0, 32, 1000), (32, 32, 1000)])).arrive {}).axAhead 2;
      (vget u.ax 2).moving = false ∧ u.motRefusal 2 (u.ses 7).cls (.move true 5) = 0 ∧
      u.motRefusal 2 (u.ses 7).cls (.move false (-5)) = 0 ∧ u.motRefusal 2 (u.ses 7).cls (.vel 1000) = 0 ∧
      u.motRefusal 2 (u.ses 7).cls (.acc 1000) = 0 ∧ u.motRefusal 2 (u.ses 7).cls .stop = 0 ∧
      u.motRefusal 2 (u.ses 7).cls (.home 0) = 0) ∧
    (let x := vget (axAt (fun x => { x with st := .cruise, target := 5 })).ax 2; (x.st = .accel ∨ x.st = .cruise) ∧
      x.atEnd = false ∧ x.st ≠ .held ∧ x.st ≠ .disabled ∧ x.st ≠ .decel) ∧
    (let x := vget (axAt (fun x => { x with st := .idle })).ax 2; x.moving = false ∧ x.st ≠ .held ∧ x.st ≠ .disabled ∧ 5 ≠ x.pos) ∧
    (vget (axAt (fun x => { x with st := .held })).ax 2).st = .held ∧ (vget (axAt id).ax 2).st = .disabled ∧
    (vget (axAt (fun x => { x with st := .decel })).ax 2).st = .decel ∧
    ((axAt id).axAhead 2).motRefusal 2 .maintenance (.move true 5) ≠ 0 ∧
    (let u := (writerOn (ready 0)).arrive {}; u.holds 7 (uAx 2) = false) := by
  refine ⟨?_, ?_, ?_, ?_, ?_, ?_, ?_, ?_⟩
  all_goals decide +kernel
theorem wit_AxisEnableDisableRelease :
    (let u := (axAt id).arrive {}; u.phase = .ready ∧ u.writer (.cmd 7 true) = some 7 ∧ writerAuth (.cmd 7 true) = true ∧
      u.holds 7 (uAx 2) = true ∧ (vget u.ax 2).st = .disabled ∧ (vget u.ax 2).moving = false ∧ u.axAwaits 2 = []) ∧
    (let u := (axAt (fun x => { x with st := .cruise })).arrive {}; (vget u.ax 2).moving = true) ∧
    (let u := ((axAt (fun x => { x with st := .held })).modSafe (fun x => { x with safeN := true })).arrive {};
      (vget u.ax 2).st = .held ∧ u.axCause 2 = true) ∧
    (let u := ((axAt (fun x => { x with st := .held })).modSafe (fun x => { x with safeN := false })).arrive {};
      (vget u.ax 2).st = .held ∧ u.axCause 2 = false) := by
  refine ⟨?_, ?_, ?_, ?_⟩
  all_goals decide +kernel

/-- Axis 2 as given, after its latest STEP has fallen with a full step left; level 1 begins at velocity 4096. -/
def stepped (f : Axis → Axis) : State :=
  (axAt (fun x => f { x with st := .cruise, v := 4096 * 65536, riseAt := some 0, target := 99 })).setReg 0x03500150 (fields [(12, 16, 1)])

theorem wit_AxisPhases :
    (let u := (axAt (fun x => { x with st := .accel, vel := 7, v := 7 * 65536, target := 99 })).arrive {}; (vget u.ax 2).st = .accel ∧
      (vget u.ax 2).v = (vget u.ax 2).vel * 65536) ∧
    (let u := (axAt (fun x => { x with st := .cruise, pos := 5, target := 5, acc := 1 })).arrive {};
      ((vget u.ax 2).st = .accel ∨ (vget u.ax 2).st = .cruise) ∧ (vget u.ax 2).stopping = false ∧
      (vget u.ax 2).left ≤ (vget u.ax 2).braking (vget u.ax 2).acc) ∧
    (let u := (axAt (fun x => { x with st := .homing, homeSeq := 1, pos := 5, target := 5, acc := 1 })).arrive {};
      (vget u.ax 2).st = .homing ∧ (vget u.ax 2).homeSeq = 1 ∧ (vget u.ax 2).stopping = false ∧
      (vget u.ax 2).left ≤ (vget u.ax 2).braking (vget u.ax 2).acc) ∧
    (let u := (stepped id).arrive {}; (vget u.ax 2).moving = true ∧ u.axAligned 2 = true ∧
      (vget u.ax 2).level < 3 ∧ u.axThRaw 2 1 ≠ 0 ∧ u.axThRaw 2 1 * 4096 ≤ (vget u.ax 2).v / 65536) ∧
    (let u := (stepped (fun x => { x with v := 0, level := 1 })).arrive {}; (vget u.ax 2).moving = true ∧ u.axAligned 2 = true ∧
      u.axThRaw 2 2 = 0 ∧ 0 < (vget u.ax 2).level ∧
      (vget u.ax 2).v / 65536 < (u.axThRaw 2 1 - u.axThRaw 2 1 / 20) * 4096) ∧
    (let u := (stepped (fun x => { x with riseAt := some 20 })).arrive {}; u.axStep 2 = true) ∧
    (let u := (axAt (fun x => { x with st := .decel, pos := 5, target := 5 })).arrive {}; (vget u.ax 2).st = .decel ∧
      (vget u.ax 2).stopping = false ∧ (vget u.ax 2).pos = (vget u.ax 2).target ∧ (vget u.ax 2).queued = none) ∧
    (let u := (axAt (fun x => { x with st := .homing, homeSeq := 2, zPos := some 3 })).arrive {}; (vget u.ax 2).st = .homing ∧
      (vget u.ax 2).homeSeq = 2 ∧ (vget u.ax 2).leg = .first ∧ (vget u.ax 2).stopping = false ∧ (vget u.ax 2).zPos = some 3) ∧
    (let u := (axAt (fun x => { x with st := .homing, homeSeq := 2 })).arrive {}; (vget u.ax 2).st = .homing ∧
      (vget u.ax 2).homeSeq = 2 ∧ (vget u.ax 2).leg = .first ∧ (vget u.ax 2).stopping = false ∧
      u.homeDist 2 ≤ (vget u.ax 2).travelled ∧ u.rf (0x03500240 + 8 * 2) 2 1 = 0 ∧ (vget u.ax 2).zPos = none) := by
  refine ⟨?_, ?_, ?_, ?_, ?_, ?_, ?_, ⟨?_, ?_⟩⟩
  all_goals decide +kernel
theorem wit_TimePassesAndAxesMove :
    (ready 5).Calm ∧ (ready 5).pws.gap = none ∧ (ready 5).gapTime = 0 ∧ (vget (ready 5).ax 2).moving = false ∧
    (vget (ready 5).ax 2).stepsDue = 0 ∧ (vget (axAt (fun x => { x with st := .cruise })).ax 2).moving = true ∧
    (let x : Axis := { accum := 2 ^ 32 - 1, v := 65536, target := 9 }; x.atEnd = false ∧ 2 ^ 32 ≤ x.accum + x.v / 65536) ∧
    (let x : Axis := { riseFrom := 9, riseAt := some 4 }; 3 < x.riseFrom ∧ x.riseAt = some 4 ∧ 9 < 4 + 2 * 3) := by
  unfold State.Calm
  decide +kernel


/-! ### Firing and high voltage -/

/-- Port 9 with fire and link states as given; session 7 holds the port. -/
def portAt (f : FirePort → FirePort) (k : KlPort → KlPort) (t : Nat := 10000000) : State :=
  ((held (writerOn (ready t)) 9).modFp 9 f).modKl 9 k
/-- Every port has fresh telemetry of a cool head; session 7 is the Steward. -/
def coolAll : State := { writerOn (ready 100000000) .steward with
  fp := Vector.replicate 64 { tempValid := true, lastTel := some 100000000, htemp := 250 } }
theorem wit_HighVoltageEnables :
    (let u := coolAll.arrive {}; u.phase = .ready ∧ u.writer (.cmd 7 true) = some 7 ∧ writerAuth (.cmd 7 true) = true ∧
      u.acting 7 = true ∧ (2 : Fin 256).val = 2 ^ (1 : Fin 8).val ∧ u.hvRefusal 1 7 = 0 ∧ vget u.fire.hven 1 = false ∧
      u.safe.tmax.testBit 1 = false) ∧
    (let u := (writerOn (ready 1)).arrive {}; u.acting 7 = true ∧ u.hvRefusal 1 7 ≠ 0) ∧
    (let u := ({ coolAll with fire := { hven := Vector.replicate 8 true } }).arrive {}; vget u.fire.hven 1 = true ∧
      vget u.fire.roseAt 1 + u.hvSettle * qMs ≤ u.now) := by
  refine ⟨?_, ?_, ?_⟩
  all_goals decide +kernel
theorem test_hv_on : let t := after (.hvctlOn {} (.cmd 7 true) 2) coolAll
    vget t.fire.hven 1 = true ∧ vget t.fire.hven 0 = false ∧ vget t.fire.hvok 1 = false := by decide +kernel
theorem wit_SafeInput : State.reset.fire.safeIn = false ∧ (after (.safeNAssert {}) State.reset).fire.safeIn = true ∧
    (vget (axAt (fun x => { x with st := .cruise })).ax 2).st ≠ .disabled := by decide +kernel
theorem test_safe_drops_hv : let t := after (.safeNAssert {}) { coolAll with fire := { hven := Vector.replicate 8 true } }
    t.fire.hven = Vector.replicate 8 false ∧ t.safe.safeN = true := by decide +kernel

/-- A telemetry frame whose hottest sensor reads h. -/
def telemOf (h : Option Int) : Telem := { temps := [h, some 0, none, none, none, none, none, none], vsup := 24000 }
/-- The codes of an upstream frame on the lane, from a running disparity (07 R209). -/
def rxOf (f : UpFrame) (rd : Bool := false) : List Nat := encSyms rd (upChars f)

set_option maxRecDepth 100000 in
theorem wit_KwadyCodesReadBack : readUp (rxOf (.ack { index := 63, seq := 65535 }) true) = .frame (.ack { index := 63, seq := 65535 }) ∧
    UpFits (.ack { index := 63, seq := 65535 }) ∧ DownFits (.ctl { op := .sync, len := 2, data := zeros 8 }) := by
  unfold UpFits DownFits
  decide +kernel
/-- The codes of D0.0 and K28.5 in the tables of IEEE 802.3 clause 36, bit a first (07 R209). -/
theorem test_codes : (encSym false (.byte 0)).1 = 0x0B9 ∧ (encSym true (.byte 0)).1 = 0x346 ∧
    (encSym false (.ctl .idle)).1 = 0x17C ∧ (encSym true (.ctl .idle)).1 = 0x283 := by decide +kernel

set_option maxRecDepth 100000 in
theorem wit_TelemetryActs :
    (let u := (portAt id (fun k => { k with st := .ready })).arrive {}; (vget u.kl 9).receives = true ∧
      readUp (rxOf (.telem (telemOf (some 1600)))) = .frame (.telem (telemOf (some 1600))) ∧
      (telemOf (some 1600)).fault = false ∧ telemTemp (telemOf (some 1600)) = some 1600 ∧ 16 * u.firTMAX 9 ≤ 1600 ∧
      16 * u.firTLIM 9 ≤ 1600) ∧
    (telemTemp {} = none) ∧
    (let u := (portAt (fun f => { f with tempValid := true, lastTel := some 0 }) id).arrive {}; u.telStale 9 = true) := by
  refine ⟨?_, ?_, ?_⟩
  all_goals decide +kernel

/-- A push whose frames but the first are acknowledged. -/
def pushAt (a : Nat) (s : Option Nat) : Push := {
  band := 1, bank := 1, loaded := true,
  frames := vset (Vector.replicate 64 { attempts := 1, acked := true }) 0 { attempts := a, sentAt := s } }
theorem wit_PushesOfTheWidthTable :
    (let u := (portAt (fun f => { f with target := 1 }) (fun k => { k with st := .ready })).arrive {};
      u.pushWanted 9 = some .band ∧ (vget u.fp 9).push = none ∧ (vget u.fp 9).bankFree (1 - (vget u.fp 9).bank) u.now = true) ∧
    (let y : Push := { band := 1, bank := 1 }
      let u := ((portAt (fun f => { f with target := 1, push := some y, pins := [0, 1] }) (fun k => { k with st := .ready })).setReg
        (etBase 9) 1).arrive {}; (vget u.fp 9).push = some y ∧ y.loaded = false ∧ y.newBase = none ∧ y.why ≠ .release ∧
        bit (u.reg (etBase 9)) 0 = true ∧ u.bandBad (vget u.fp 9).pins y.band = false) ∧
    (let y : Push := { band := 0, bank := 1 }
      let u := { (portAt (fun f => { f with push := some y, pins := [0, 1] }) id).setReg (etBase 9) 1 with dramUe := [0] }.arrive {};
        (vget u.fp 9).push = some y ∧ bit (u.reg (etBase 9)) 0 = true ∧ u.bandBad (vget u.fp 9).pins y.band = true) ∧
    (let u := (portAt (fun f => { f with push := some (pushAt 0 none) }) (fun k => { k with st := .ready })).arrive {};
      (vget u.fp 9).push = some (pushAt 0 none) ∧ (pushAt 0 none).nextFrame = some 0 ∧ (vget u.kl 9).st = .ready ∧
      u.gapFits 9 2070 = true ∧ (vget u.kl 9).st ∈ [.ready, .push, .cal] ∧ u.ctlReady 9 = false ∧
      (vget u.fp 9).stagedBad = []) ∧
    (let y := pushAt 1 (some 5); let a : Ack := { bank := 1 }
      let u := (portAt (fun f => { f with target := 1, push := some y }) (fun k => { k with st := .ready })).arrive {};
      (vget u.fp 9).push = some y ∧ y.why = .band ∧ (vget u.fp 9).target = y.band ∧ y.loaded = true ∧ y.done = false ∧
      (vget u.fp 9).stagedBad = [] ∧ a.bank = y.bank ∧ a.index = 0 ∧ a.status = 0 ∧
      readUp (rxOf (.ack a)) = .frame (.ack a)) ∧
    (let y := pushAt 1 (some 5); (vget y.frames 0).acked = false ∧ (vget y.frames 0).attempts ≠ 0 ∧
      (∀ j : Fin 64, j ≠ 0 → (vget y.frames j).acked = true) ∧ (vget y.frames 0).sentAt = some 5 ∧ (ready 10000000).due 5 (50 * qUs) = true ∧
      (vget y.frames 0).attempts < 4 ∧ ∀ j : Fin 64, j < 0 → (vget y.frames j).sentAt = none) ∧
    (let u := (portAt (fun f => { f with retryAt := some 10000000 }) id).arrive {}; (vget u.fp 9).retryAt = some 10000000 ∧
      10000000 ≤ u.now) := by
  refine ⟨?_, ?_, ?_, ?_, ?_, ?_, ?_⟩
  all_goals decide +kernel
theorem wit_PortCountsCleared :
    (let u := (portAt id id).arrive {}; u.phase = .ready ∧ u.writer (.cmd 7 true) = some 7 ∧ u.holds 7 9 = true ∧
      writerAuth (.cmd 7 true) = true) ∧
    (let u := (writerOn (ready 0)).arrive {}; u.phase = .ready ∧ u.writer (.cmd 7 true) = some 7 ∧ u.holds 7 9 = false) := by
  refine ⟨?_, ?_⟩
  all_goals decide +kernel

/-! ### Kwady Link -/

/-- The answer of a head of 1,024 nozzles to the identification. -/
def identResp : Resp := { data := toLE 8 (fields [(0, 32, 5), (32, 16, 1024), (48, 4, 8), (56, 8, 1)]).toNat ++ zeros 16 }
set_option maxRecDepth 100000 in
theorem wit_PortBringUp :
    (let u := ((portAt id id).setReg 0x03000148 1).arrive {}; u.phase = .ready ∧ u.writer (.cmd 7 true) = some 7 ∧
      writerAuth (.cmd 7 true) = true ∧ u.holds 7 9 = true ∧ (vget u.kl 9).st = .down ∧ u.klTXEN 9 = true) ∧
    (let u := (portAt id (fun k => { k with st := .wake })).arrive {}; (vget u.kl 9).st = .wake ∧
      (vget u.kl 9).since + 500 * qUs + u.heldFrom (vget u.kl 9).since ≤ u.now) ∧
    (let u := (portAt id (fun k => { k with st := .ident })).arrive {}; (vget u.kl 9).st = .ident ∧
      (vget u.kl 9).since + 50 * qUs + u.heldFrom (vget u.kl 9).since ≤ u.now) ∧
    (let u := (portAt id (fun k => { k with st := .config })).arrive {}; (vget u.kl 9).st = .config ∧
      (vget u.kl 9).since + qUs + u.heldFrom (vget u.kl 9).since ≤ u.now) ∧
    (let u := ((portAt id (fun k => { k with st := .fault }) 500000000).setReg 0x03000148 0x21).arrive {}; (vget u.kl 9).st = .fault ∧
      u.klAUTO 9 = true ∧ u.klTXEN 9 = true ∧ (vget u.kl 9).since + 100 * qMs + u.heldFrom (vget u.kl 9).since ≤ u.now) ∧
    (let h : HeadAcc := { len := 6, host := false, sentAt := some 5 }; let r := identResp
      let u := (portAt id (fun k => { k with st := .ident, acc := some h })).arrive {};
      (vget u.kl 9).st = .ident ∧ (vget u.kl 9).acc = some h ∧ h.host = false ∧ h.sentAt.isSome = true ∧ r.id = h.id ∧
      r.write = h.write ∧ r.addr = h.addr ∧ r.status = 0 ∧ readUp (rxOf (.resp r)) = .frame (.resp r)) ∧
    (let r := identResp; bits (wd (leAt r.data 0 8)) 47 32 ≠ 0 ∧ bits (wd (leAt r.data 0 8)) 47 32 ≤ 8192 ∧
      bits (wd (leAt r.data 0 8)) 51 48 ≤ 8 ∧ bits (wd (leAt r.data 0 8)) 63 56 = 1) := by
  refine ⟨?_, ?_, ?_, ?_, ?_, ?_, ?_⟩
  all_goals decide +kernel
set_option maxRecDepth 100000 in
theorem wit_LinkLossAndVoidFrames_frames :
    (let f : UpFrame := .telem { telemOf none with fault := true }; readUp (rxOf f) = .frame f) ∧
    readUp (encSyms false [.ctl .sol, .ctl .abort]) = .ended ∧ readUp [] = .bad ∧
    (vget (portAt id (fun k => { k with st := .ready })).kl 9).receives = true := by
  decide +kernel
theorem wit_LinkLossAndVoidFrames :
    (let u := ((portAt id (fun k => { k with st := .ready, lastUp := some 0 })).modSeq 3 (fun y => { y with
        swst := .opened, swPorts := [9] })).arrive {}; (vget u.kl 9).lastUp = some 0 ∧ 0 + u.klLOSTO 9 * qUs + u.heldFrom 0 ≤ u.now ∧
      (vget u.kl 9).st = .ready ∧ (vget u.kl 9).receives = true ∧ (vget u.seq 3).swst = .opened ∧
      (vget u.seq 3).live.contains 9 = true) ∧
    (let u := (portAt id (fun k => { k with wMiss := { since := some 5000000, more := 2 } })).arrive {};
      (vget u.kl 9).wMiss = { since := some 5000000, more := 2 } ∧ (vget u.kl 9).wUp = {} ∧ (vget u.kl 9).wDown = {} ∧
      5000000 + qMs ≤ u.now) := by
  refine ⟨?_, ?_⟩
  all_goals decide +kernel
theorem wit_HeadRegisterAccess :
    (let u := (portAt id (fun k => { k with st := .ready })).arrive {}; let ad : BitVec 24 := 0x10000;
      (u.phase = .ready ∧ u.writer (.bar0 0) = some 7 ∧ u.holds 7 9 = true ∧ (vget u.kl 9).hbusy = false ∧
      (vget u.kl 9).st = .ready ∧ u.inSwath 9 = false ∧ 0x10000 ≤ ad.toNat ∧ (64 : Fin 128) ≠ 0 ∧ (64 : Fin 128).val ≤ 64 ∧
      ad.toNat % 4 = 0)) ∧
    (let u := (portAt id (fun k => { k with hbusy := true })).arrive {}; (vget u.kl 9).hbusy = true) ∧
    (let a : HeadAcc := { len := 1 }
      let u := (portAt id (fun k => { k with st := .ready, acc := some a })).arrive {}; (vget u.kl 9).acc = some a ∧
      a.sentAt = none ∧ (vget u.kl 9).st = .ready ∧ u.gapFits 9 (14 + a.data.length) = true ∧ (vget u.fp 9).push = none) ∧
    (let a : HeadAcc := { len := 1, sentAt := some 5 }; let r : Resp := { data := zeros 4 }
      let u := (portAt id (fun k => { k with st := .ready, acc := some a })).arrive {}; (vget u.kl 9).acc = some a ∧
      a.host = true ∧ a.sentAt.isSome = true ∧ r.id = a.id ∧ r.write = a.write ∧ r.addr = a.addr ∧ r.status = 0 ∧
      5 + 50 * qUs + u.heldFrom 5 ≤ u.now) := by
  refine ⟨?_, ?_, ?_, ?_⟩
  all_goals decide +kernel
theorem wit_LinkTestsAndCalibration :
    (let u := (portAt id (fun k => { k with st := .ready, hcap := wd (2 ^ 64 - 1), hid1 := wd (2 ^ 64 - 1) })).arrive {};
      u.phase = .ready ∧ u.writer (.cmd 7 true) = some 7 ∧ u.holds 7 9 = true ∧ (vget u.kl 9).st = .ready ∧
      u.inSwath 9 = false ∧ (vget u.kl 9).patOk 0 = true ∧ writerAuth (.cmd 7 true) = true ∧ u.calOk 9 = true) ∧
    (let u := (portAt id id).arrive {}; (vget u.kl 9).st ≠ .ready ∧ u.calOk 9 = false) ∧
    (let u := (portAt id (fun k => { k with st := .ready })).arrive {}; (vget u.kl 9).patOk 1 = false ∧ max (vget u.kl 9).since (vget u.kl 9).eyeAt + qMs +
      u.heldFrom (max (vget u.kl 9).since (vget u.kl 9).eyeAt) ≤ u.now) ∧
    (let u := (portAt id (fun k => { k with st := .test, hcap := wd (2 ^ 64 - 1), hid1 := wd (2 ^ 64 - 1), prbsAt := some 5 })).arrive {};
      (vget u.kl 9).st = .test ∧ (vget u.kl 9).patOk (bits (vget u.kl 9).prbs 2 1) = true ∧ (vget u.kl 9).prbsAt = some 5 ∧
      5 + 2 * qUs + u.heldFrom 5 ≤ u.now) ∧
    (let u := (portAt id (fun k => { k with st := .test, prbsSince := some 5 })).arrive {}; (vget u.kl 9).st = .test ∧
      (vget u.kl 9).prbsSince = some 5 ∧ 5 + 250 * qUs + u.heldFrom 5 ≤ u.now) ∧
    (let u := (portAt id (fun k => { k with st := .cal, prbsSince := some 5 })).arrive {}; (vget u.kl 9).st = .cal ∧
      (vget u.kl 9).prbsSince = some 5 ∧ 5 + 40 * qUs + u.heldFrom 5 ≤ u.now) ∧
    (let a : HeadAcc := { addr := 0x20, len := 2, sentAt := some 5, host := false }; let r : Resp := { addr := 0x20, data := zeros 8 }
      let u := (portAt id (fun k => { k with st := .test, acc := some a })).arrive {}; (vget u.kl 9).st = .test ∧ (vget u.kl 9).prbsSince = none ∧
      (vget u.kl 9).acc = some a ∧ a.host = false ∧ a.sentAt.isSome = true ∧ r.id = a.id ∧ r.write = a.write ∧ r.addr = a.addr ∧
      r.status = 0) := by
  refine ⟨?_, ?_, ?_, ?_, ?_, ?_, ?_⟩
  all_goals decide +kernel

/-! ### Heads -/

/-- Port 9's lane brings the item i to its head h. -/
def laneAt (i : DownItem) (h : Head) : State :=
  (portAt id (fun k => { k with st := .ready, lane := [{ item := i }] })).modHead 9 (fun _ => h)
/-- Head 9 as it reads the item of its lane, which r reads. -/
abbrev Reads (i : DownItem) (h : Head) (p : State → Head → Prop) (noise : List (Nat × Nat) := []) (r : Option DownItem := some i) : Prop :=
  let u := (laneAt i h).arrive {};
  u.laneItem 9 = some { item := i } ∧ (u.headRead? 9 { item := i } noise).1 = r ∧
    p u ((vget u.head 9).bad (u.headRead? 9 { item := i } noise).2)
/-- An aligned head that waits for row trigger 0 of line 5 of lines with two row triggers. -/
def headUp : Head := { aligned := true, e := 5, rt := 2 }
/-- The same with a held line 5 and its bank valid. -/
def headHolds : Head := { headUp with held := [{ line := 5 }], bank0 := { valid := true } }
set_option maxRecDepth 100000 in
theorem wit_HeadCountsFireSymbols :
    Reads (.fire true 5) {} (fun _ h => h.aligned = false) ∧
    Reads (.fire true 5) headUp (fun _ h => h.aligned = true) [(0, 1)] none ∧
    Reads (.fire true 5) headHolds (fun _ h => h.aligned = true ∧ h.doubt = false ∧ 5 = h.e ∧
      SMap.get h.k 0 5 = 0 ∧ 1 < h.rt ∧
      h.held.find? (fun f => f.line % 256 == 5 && (h.bank (frameBank f)).valid) = some { line := 5 }) ∧
    Reads (.fire true 5) headUp (fun _ h => h.aligned = true ∧ h.doubt = false ∧ 5 = h.e ∧
      SMap.get h.k 0 5 = 0 ∧ 1 < h.rt ∧
      h.held.find? (fun f => f.line % 256 == 5 && (h.bank (frameBank f)).valid) = none) ∧
    Reads (.fire false 4) { headUp with rt := 3, k := [(4, 1)], cur := [(4, {})] } (fun _ h =>
      h.aligned = true ∧ h.doubt = false ∧ 0 < SMap.get h.k 0 4 ∧ SMap.get h.k 0 4 + 1 < h.rt ∧ SMap.find h.cur 4 = some {}) ∧
    Reads (.fire true 6) headUp (fun _ h => SMap.get h.k 0 6 = 0 ∧ 6 ≠ h.e ∧ h.doubt = false) ∧
    Reads (.fire true 4) { headUp with k := [(4, 2)] } (fun _ h => h.rt ≤ SMap.get h.k 0 4 ∧ SMap.get h.k 0 4 ≠ 0) ∧
    Reads (.fire true 4) { headUp with doubt := true } (fun _ h => h.doubt = true) := by
  decide +kernel
theorem test_miss : let h := vget (after (.headFireSymbol {} 9 []) (laneAt (.fire true 5) headUp)).head 9
    h.miss = 1 ∧ h.missTag = 5 ∧ h.e = 6 := by decide +kernel

set_option maxRecDepth 100000 in
theorem wit_HeadTakesFrames_control :
    Reads (.ctl { op := .sync, addr := 0, len := 2, data := zeros 8 }) headUp (fun _ h => h.aligned = true) ∧
    Reads (.ctl { op := .drop }) headUp (fun _ h => h.aligned = true) ∧
    Reads (.ctl { op := .hread, len := 6 }) headUp (fun _ _ => headStatus false 0 6 = 0 ∧ 0 + 4 * 6 ≤ 0x800000) ∧
    Reads (.ctl { op := .hwrite, addr := 0, len := 1, data := zeros 4 }) headUp (fun _ _ => headStatus true 0 1 ≠ 0) ∧
    Reads (.ctl { op := .drop }) headUp (fun _ h => h.aligned = true) [(4, 1)] none ∧
    (let h := vget ((laneAt (.ctl {}) headUp).arrive {}).head 9; h.aligned = true ∧ h.telAt = none) ∧
    (let h := vget ((laneAt (.ctl {}) { headUp with telAt := some 9999999 }).arrive {}).head 9; h.telAt = some 9999999 ∧
      10000000 < 9999999 + 47500) ∧
    (let u := (portAt id (fun k => { k with st := .wake })).arrive {}; (vget u.head 9).aligned = false ∧ (vget u.kl 9).st = .wake) := by
  refine ⟨?_, ?_, ?_, ?_, ?_, ?_, ?_, ?_⟩
  all_goals decide +kernel
/-- The line frame and the table frames that a head with no noise reads as they were sent. -/
theorem wit_HeadTakesFrames_data :
    (let u := (laneAt (.line { line := 5 }) headUp).arrive {}; let h := vget u.head 9;
      u.laneItem 9 = some { item := .line { line := 5 } } ∧ u.headRead? 9 { item := .line { line := 5 } } [] = (some (.line { line := 5 }), 0) ∧
      h.aligned = true ∧ h.doubt = false ∧ h.late 5 = false ∧ (h.held.filter (fun g => g.line % 256 != 5)).length < 20) ∧
    headUp.late 4 = true ∧
    (let u := (laneAt (.table { index := 63 }) headUp).arrive {};
      u.headRead? 9 { item := .table { index := 63 } } [] = (some (.table { index := 63 }), 0) ∧ (vget u.head 9).held = []) ∧
    headHolds.held.any (fun g => frameBank g == 0) = true := by
  refine ⟨?_, ?_, ?_, ?_⟩
  all_goals decide +kernel

/-! ### Cameras and health -/

/-- Camera 2 as given, an image port of 4 by 2 pixels; session 7 holds it. -/
def camAt (f : Cam → Cam) : State := (held (writerOn (ready 10000000)) (uCam 2)).modCam 2 f
/-- A frame that is arriving. -/
def frame4x2 : Frame := { no := 1, port := fields [(16, 15, 4), (32, 16, 2)] }
/-- A cycle of PCLK in which FVAL and LVAL are high, or LVAL alone, or neither. -/
def inLine : CamCycle := { rise := { fval := true, lval := true } }
def stray : CamCycle := { rise := { lval := true } }
theorem wit_CameraFrames :
    (let u := (camAt (fun x => { x with st := .waitSync })).arrive {}; ((vget u.cam 2).st = .run ∨ (vget u.cam 2).st = .waitSync) ∧
      (vget u.cam 2).fval = false ∧ (vget u.cam 2).receiving = none) ∧
    (let u := (camAt (fun x => { x with st := .run, fval := true, frames := [frame4x2] })).arrive {}; (vget u.cam 2).st = .run ∧
      (vget u.cam 2).fval = true ∧ (vget u.cam 2).receiving = some frame4x2 ∧
      (vget u.cam 2).frames.foldl (fun a f => a + f.buf.length) 0 < 7) ∧
    (let l := List.replicate 4 inLine; lineSeen frame4x2.port l = true ∧ lineStray frame4x2.port l = false ∧
      (linePixels frame4x2.port l).length = frame4x2.W) ∧
    (lineSeen frame4x2.port [inLine] = true ∧ (linePixels frame4x2.port [inLine]).length ≠ frame4x2.W) ∧
    (lineSeen frame4x2.port [stray] = true ∧ lineStray frame4x2.port [stray] = true) ∧
    lineSeen frame4x2.port [{}] = false ∧
    (let f := { frame4x2 with buf := [[0, 0, 0, 0], [0, 0, 0, 0]] }
      let u := (camAt (fun x => { x with st := .run, fval := true, answered := true, frames := [f] })).arrive {};
      (vget u.cam 2).receiving = some f ∧ f.buf.length + f.done.length = f.H ∧ (vget u.cam 2).answered = true ∧
      rotPick 2 (vget u.pipe 1).last (fun i => (vget u.cam (2 * 1 + i)).frames.any (fun f => !f.buf.isEmpty)) = some 0 ∧
      (vget u.cam (2 * 1 + 0)).frames.find? (fun f => !f.buf.isEmpty) = some f) ∧
    (let f := { frame4x2 with ended := true }
      let u := (camAt (fun x => { x with st := .run, frames := [f] })).arrive {}; (vget u.cam 2).frames = f :: [] ∧ f.ended = true ∧
      (vget u.cam 2).receiving = none ∧ f.buf = [] ∧ f.gap = none ∧ (vget u.cam 2).rqLost = none ∧ (vget u.cam 2).rq.length < 256) ∧
    (let u := (camAt (fun x => { x with st := .noClk })).arrive {}; (vget u.cam 2).st = .noClk) := by
  refine ⟨?_, ?_, ?_, ?_, ?_, ?_, ?_, ⟨?_, ?_⟩⟩
  all_goals decide +kernel
theorem wit_CameraTriggers :
    (let u := (camAt (fun x => { x with st := .run })).arrive {}; u.phase = .ready ∧ u.writer (.bar0 0) = some 7 ∧
      u.holds 7 (uCam 2) = true ∧ u.trigRefusal 2 .host = 0) ∧
    (let u := (camAt (fun x => { x with queue := [{}] })).arrive {}; u.holds 7 (uCam 2) = true ∧ u.trigRefusal 2 .host ≠ 0) ∧
    (let u := (writerOn (ready 0)).arrive {}; u.holds 7 (uCam 2) = false) ∧
    (let u := (((camAt (fun x => { x with ptK := 1 })).setReg (camTrigAddr 2) (fields [(32, 1, 1), (40, 24, 10)])).modEnc 0
        (fun x => { x with seen := { count := 19 } })).arrive {}; bit (u.reg (camTrigAddr 2)) 32 = true ∧ bits (u.reg (camTrigAddr 2)) 63 40 = 10 ∧
      bit (u.reg (camTrigAddr 2)) 35 = false ∧ (vget u.enc (bits (u.reg (camTrigAddr 2)) 34 33)).seen.count = 19 ∧
      signedN 48 (u.rf (0x03600140 + 8 * 2) 47 0) = 0 ∧ (vget u.cam 2).ptK * 10 ≤ 19 ∧ 19 < ((vget u.cam 2).ptK + 1) * 10 ∧
      u.trigRefusal 2 .position = 0) ∧
    (let u := ((camAt (fun x => { x with ptK := 2 })).setReg (camTrigAddr 2) (fields [(32, 1, 1), (40, 24, 10)])).arrive {};
      (vget u.enc (bits (u.reg (camTrigAddr 2)) 34 33)).seen.count = 0 ∧ 0 < (vget u.cam 2).ptK * 10) ∧
    (let r : TrigReq := { at_ := 9999960 }; let u := (camAt (fun x => { x with st := .run, queue := [r] })).arrive {};
      (vget u.cam 2).queue = r :: [] ∧ (vget u.cam 2).pulse = none ∧ r.at_ + 10 * qTick + u.heldFrom r.at_ ≤ u.now ∧ (vget u.cam 2).st ≠ .off ∧
      u.trigStopped 2 = false) ∧
    (let u := ((camAt (fun x => { x with pulse := some {} })).setReg (camTrigAddr 2) (fields [(16, 16, 5)])).arrive {};
      (vget u.cam 2).pulse = some {} ∧ (vget u.cam 2).answered = false ∧ u.rf (camTrigAddr 2) 31 16 ≠ 0 ∧
      (vget u.cam 2).pulseAt + u.rf (camTrigAddr 2) 31 16 * 20000 + u.heldFrom (vget u.cam 2).pulseAt ≤ u.now ∧
      u.startsNow 2 = false) ∧
    (let u := { camAt (fun x => { x with st := .run, pulse := some {} }) with pending := [.frameStart {} 2] }.arrive {};
      (vget u.cam 2).pulse = some {} ∧ u.startsNow 2 = true) ∧
    (let u := (camAt (fun x => { x with ptSkip := { since := some 5000000, more := 3 } })).arrive {};
      (vget u.cam 2).ptSkip = { since := some 5000000, more := 3 } ∧ 5000000 + qMs ≤ u.now) := by
  refine ⟨?_, ?_, ?_, ?_, ?_, ?_, ?_, ⟨?_, ?_⟩⟩
  all_goals decide +kernel
theorem wit_CameraSettings :
    (let u := (camAt id).arrive {}; u.phase = .ready ∧ u.writer (.bar0 0) = some 7 ∧ u.holds 7 (uCam 2) = true ∧
      (vget u.cam 2).pend = none ∧ u.camEN 2 = false ∧ (vget u.cam 2).i2cBusy = false) ∧
    (let u := (camAt (fun x => { x with i2cBusy := true, pend := some {} })).arrive {}; (vget u.cam 2).i2cBusy = true ∧
      (vget u.cam 2).pend ≠ none) ∧
    (let q : SetReq := {}; let u := ((camAt (fun x => { x with st := .run, pend := some q, winFrom := [0] })).setReg (0x03700000 + 64 * 512) 1).arrive {};
      u.windowDue 2 = true ∧ (vget u.cam 2).pend = some q ∧ q.writing = none ∧ (vget u.cam 2).st = .run ∧
      q.at_ + 40 + u.heldFrom q.at_ ≤ u.now ∧ u.setRecord 2 q.record ≠ []) ∧
    (camAt id).windowDue 2 = false ∧
    (let q : SetReq := { writing := some [[1, 2]] }; let u := (camAt (fun x => { x with pend := some q })).arrive {};
      (vget u.cam 2).pend = some q ∧ q.writing = some [[1, 2]] ∧
      q.begun + writeBits [[1, 2]] none * u.bitTime 2 + u.heldFrom q.begun ≤ u.now ∧
      q.begun + writeBits [[1, 2]] (some 1) * u.bitTime 2 + u.heldFrom q.begun ≤ u.now) ∧
    (let u := ({ camAt (fun x => { x with i2cBusy := true, i2cN := 6 }) with now := 50000000 } : State).arrive {};
      (vget u.cam 2).i2cBusy = true ∧ (vget u.cam 2).i2cAt + busBits 6 * u.bitTime 2 ≤ u.now ∧
      (vget u.cam 2).i2cAt + 10 * qMs ≤ u.now) := by
  refine ⟨?_, ?_, ?_, ?_, ?_, ?_⟩
  all_goals decide +kernel
theorem wit_HealthCommands :
    (let u := (portAt id (fun k => { k with headId := fields [(32, 16, 1024)] })).arrive {}; let v := u.healthBefore; u.phase = .ready ∧
      u.writer (.cmd 7 true) = some 7 ∧ writerAuth (.cmd 7 true) = true ∧ (u.isSteward 7 || u.holds 7 9) = true ∧
      (1023 : Fin 8192).val < bits (vget u.kl 9).headId 47 32 ∧ bits (vget u.kl 9).headId 47 32 ≤ (1024 : Fin 8192).val ∧
      u.hlt.nz.Pairwise (fun x y => x.1 < y.1) ∧ v.hlt.nz.Pairwise (fun x y => x.1 < y.1) ∧ v.justOut 9 1023 = false ∧
      u.acting 7 = true) ∧
    (let v := ((portAt id id).modHlt (fun h => { h with justAt := 10000000, justOut := [(9, 4)] })).healthBefore; v.justOut 9 4 = true) ∧
    (let u := (writerOn (ready 0)).arrive {}; (u.isSteward 7 || u.holds 7 9) = false ∧ u.holds 7 (uCam 2) = false) ∧
    (let u := (held (camAt id) (uSeq 3)).arrive {}; u.hlt.test = none ∧ u.hlt.al = none ∧ u.holds 7 (uCam 2) = true ∧
      u.holds 7 (uSeq 3) = true ∧ u.acting 7 = true) := by
  refine ⟨?_, ?_, ?_, ?_⟩
  all_goals decide +kernel

/-- The results r wait, sequencer 3 scores where `score`; a frame is in hand where `busy`. -/
abbrev Result (r : VisRes) (score busy : Bool) (p : State → VisRes → State → Prop) : Prop :=
  let u := (((ready 1000).modHlt (fun h => { h with visq := [r], applies := if busy then [{ at_ := 9999 }] else [] })).setReg 0x03800118
    (b1 score)).arrive {};
  let v := (u.modHlt (fun x => { x with visq := x.visq.erase r })).healthBefore
  u.hlt.visq = r :: [] ∧ (u.hlt.visq.find? (fun x => x.cam < 2 && u.arrivalTick x == u.arrivalTick r)).getD r = r ∧ p u r v
theorem wit_HealthTicks :
    Result { at_ := 999 } true false (fun u r _ => u.ticks < u.arrivalTick r) ∧
    Result { seq := 3, doubt := true } true false (fun u r _ => u.arrivalTick r ≤ u.ticks ∧ r.doubt = true) ∧
    Result { seq := 3, nbins := 8 } false false (fun u r v => u.arrivalTick r ≤ u.ticks ∧ v.rf (0x03800100 + 8 * r.seq) 0 0 = 0 ∧
      v.hlt.test = none) ∧
    Result { seq := 3, nbins := 8 } true true (fun u r v => u.arrivalTick r ≤ u.ticks ∧ v.rf (0x03800100 + 8 * r.seq) 0 0 = 1 ∧
      v.hlt.test = none ∧ r.doubt = false ∧ r.align = false ∧ r.nbins ≠ 0 ∧ v.engineBusy = true) ∧
    Result { seq := 3, nbins := 8 } true false (fun u r v => u.arrivalTick r ≤ u.ticks ∧ v.rf (0x03800100 + 8 * r.seq) 0 0 = 1 ∧
      v.hlt.test = none ∧ r.nbins ≠ 0 ∧ v.engineBusy = false ∧ v.hlt.waitq = [] ∧ r.arm = none) ∧
    (let a : Apply := { at_ := 1000, outs := [(9, 4)] }
      let u := ((ready 1000).modHlt (fun h => { h with applies := [a] })).arrive {}; u.hlt.applies = a :: [] ∧ a.at_ ≤ u.now ∧
        u.hlt.waitq = []) ∧
    (let a : Apply := { at_ := 1000, outs := [(9, 4)] }
      let u := ((ready 1000).modHlt (fun h => { h with senses := [a] })).arrive {}; u.hlt.senses = a :: [] ∧ a.at_ ≤ u.now ∧
        a.outs.any (fun x => x.1 == (9 : Fin 64).val) = true ∧ u.hlt.applies = []) ∧
    (let u := ((ready 1000).modHlt (fun h => { h with test := some {}, testEnd := some { at_ := 1000 } })).arrive {};
      u.hlt.testEnd = some { at_ := 1000 } ∧ u.hlt.waitq = [] ∧ 1000 ≤ u.now ∧ (u.nz 9 4).hout = false) := by
  refine ⟨?_, ?_, ?_, ?_, ?_, ?_, ?_, ?_⟩
  all_goals decide +kernel


/-! ### Requests and sessions -/

/-- Session 7 is confirmed and unkeyed, on the page of function 0. -/
def sessAt (cls : Machine.Class) (f : Sess → Sess := id) : State :=
  (ready 100000000).modSess 7 (fun x => f { x with st := .confirmed, cls := cls })
/-- A request of session 7. -/
def msg (p : List Byte) : Msg := { session := 7, len := p.length, payload := p }
/-- A request of session 7 that carries counter k and its tag under the key of one byte 1. -/
def msgA (op k : Nat) (p : List Byte) : Msg :=
  { msg p with auth := true, counter := k, tag := tagOf [1] (msgBytes op true false 7 k 0 0 p) }
/-- The state after the checks of a request and the cores' own writes. -/
def chk (u : State) (op sub : Nat) (m : Msg) : State := (u.checkMsg 7 op m (m.bodyOk op sub)).1.mgmtWrites 7
/-- The request reaches session 7 and passes its checks. -/
abbrev Pass (u : State) (op sub : Nat) (m : Msg) : Prop :=
  u.Reaches m 7 ∧ u.mem.sessBad.contains 7 = false ∧ (u.checkMsg 7 op m (m.bodyOk op sub)).2 = .pass
theorem passes_of_pass {u : State} {op sub : Nat} {m : Msg} (h : Pass u op sub m) : u.Passes op sub m 7 (chk u op sub m) :=
  ⟨h.1, h.2.1, _, Prod.ext rfl h.2.2, rfl⟩
/-- The keyed session's form. -/
def keyedBy (x : Sess) : Sess := { x with keyed := true, key := [1] }

theorem wit_RequestsAreChecked_plain :
    (State.reset.phase ≠ .ready) ∧
    (let u := ((sessAt .observer).modMem (fun x => { x with sessBad := [7] })).arrive {}; u.Reaches (msg [0]) 7 ∧
      u.mem.sessBad.contains 7 = true) ∧
    (let u := (sessAt .observer).arrive {}; let m := msg [0]; u.mem.sessBad.contains 7 = false ∧ u.Reaches m 7 ∧
      (m.headOk 4 && m.bodyOk 4 0) = false) ∧
    (let u := (sessAt .production keyedBy).arrive {}; let m := msg [1, 0, 0, 0, 1, 3]; u.Reaches m 7 ∧
      (m.headOk 0x100 && m.bodyOk 0x100 0) = true ∧ m.auth = false ∧ (u.ses 7).keyed = true ∧
      (critical 0x100 || (u.ses 7).net) = true) ∧
    (let u := ((sessAt .observer).modSafe (fun x => { x with mgmtDown := some 0 })).arrive {}; let m := msg []; u.phase = .ready ∧
      u.safe.mgmtDown.isSome = true ∧ m.session = 7 ∧ (u.ses 7).st = .confirmed ∧ (u.ses 7).net = false ∧ (u.ses 7).fn = 0 ∧
      (u.ses 7).busy = false ∧ m.path = .pcie 0 false ∧ (u.xlt.held.filter (fun r => r.2.2.session == 7)).length < 64) ∧
    (let u := (sessAt .observer (fun x => { x with busy := true })).arrive {}; u.phase = .ready ∧ (u.ses 7).st = .confirmed ∧
      (u.ses 7).net = false ∧ (u.ses 7).busy = true) ∧
    (let u := (sessAt .observer (fun x => { x with net := true, peer := 1, peerPort := 2 })).arrive {}; u.phase = .ready ∧
      (u.ses 7).net = true ∧ (u.ses 7).st = .confirmed ∧ (u.ses 7).peer ≠ 3) := by
  refine ⟨?_, ?_, ?_, ?_, ?_, ?_, ?_⟩
  all_goals decide +kernel
theorem wit_RequestsAreChecked_tagged :
    (let u := (sessAt .observer keyedBy).arrive {}; let m := { msgA 4 1 [] with tag := zeros 16 }; u.Reaches m 7 ∧
      (m.headOk 4 && m.bodyOk 4 0) = true ∧ m.auth = true ∧ ((u.ses 7).keyed && m.tagOk (u.ses 7).key 4) = false) ∧
    (let u := (sessAt .observer (fun x => { keyedBy x with lastCtr := 1 })).arrive {}; let m := msgA 4 1 []; u.Reaches m 7 ∧
      (m.headOk 4 && m.bodyOk 4 0) = true ∧ m.auth = true ∧ ((u.ses 7).keyed && m.tagOk (u.ses 7).key 4) = true ∧
      (u.ses 7).lastCtr ≠ 2 ^ 64 - 1 ∧ m.counter ≤ (u.ses 7).lastCtr) ∧
    (let u := (sessAt .observer keyedBy).arrive {}; let m := msgA 4 1 []; u.Reaches m 7 ∧ (m.headOk 4 && m.bodyOk 4 0) = true ∧
      ((u.ses 7).keyed && m.tagOk (u.ses 7).key 4) = true ∧ (u.ses 7).lastCtr < m.counter ∧ (u.ses 7).st = .confirmed ∧
      u.mayCommand 7 4 m = true) ∧
    (let u := (sessAt .observer keyedBy).arrive {}; let m := msgA 0x200 1 [1, 0, 0, 0]; u.Reaches m 7 ∧
      (m.headOk 0x200 && m.bodyOk 0x200 0) = true ∧ ((u.ses 7).keyed && m.tagOk (u.ses 7).key 0x200) = true ∧
      u.mayCommand 7 0x200 m = false) ∧
    (let u := (sessAt .observer (fun x => { keyedBy x with st := .opening })).arrive {}; let m := msgA 4 1 []; u.Reaches m 7 ∧
      (u.ses 7).st = .opening ∧ (4 : Nat) ≠ 2 ∧ ((u.ses 7).keyed && m.tagOk (u.ses 7).key 4) = true) ∧
    (let m := { msgA 4 1 [] with path := .net 0 5 6 }; let k : Kept := { counter := 1, tag := m.tag }
      let u := (sessAt .observer (fun x => { keyedBy x with net := true, peer := 5, peerPort := 6, kept := [k] })).arrive {};
      u.Reaches m 7 ∧ (m.headOk 4 && m.bodyOk 4 0) = true ∧ ((u.ses 7).keyed && m.tagOk (u.ses 7).key 4) = true ∧
      (u.ses 7).kept.find? (fun k => k.xid == m.xid && k.counter == m.counter && k.tag == m.tag) = some k) := by
  refine ⟨?_, ?_, ?_, ?_, ?_, ?_⟩
  all_goals decide +kernel

/-- SESSION_OPEN of an Observer in the open page. -/
def openMsg (b : List Byte) : Msg := { path := .pcie 0 true, session := 0xFFFF, len := 24, payload := b ++ zeros (24 - b.length) }
theorem wit_SessionCommands :
    (let u := (ready 0).arrive {}; (vget u.xlt.openPage 0).busy = false ∧ u.safe.mgmtDown = none ∧ u.openRefusal (openMsg [9]) ≠ 0 ∧
      u.openRefusal (openMsg [0, 0xFF]) = 0 ∧ (List.range 256).find? (fun n => (u.ses n).st == .free) = some 0) ∧
    (let u := (sessAt .observer keyedBy).arrive {}; Pass u 2 0 (msgA 2 1 [])) ∧
    (let u := (sessAt .observer).arrive {}; Pass u 3 0 (msg []) ∧ Pass u 4 0 (msg [])) ∧
    (let u := ((sessAt .steward).modSess 8 (fun x => { x with st := .confirmed })).arrive {}; let m := msg [0, 8, 0, 0]; Pass u 5 0 m ∧
      m.b 1 ≠ 7 ∧ (chk u 5 0 m).isOpen (m.b 1) = true) ∧
    (let u := (sessAt .steward).arrive {}; Pass u 5 0 (msg [0, 7, 0, 0]) ∧ (msg [0, 7, 0, 0]).b 1 = 7 ∧
      Pass u 5 1 (msg [1, 0, 100, 0]) ∧ Pass u 7 0 (msg [15, 0, 0, 0]) ∧ Pass u 8 0 (msg ([7, 0] ++ zeros 62))) ∧
    (let u := (sessAt .steward).arrive {}; let m := msg ([3, 2] ++ zeros 62); Pass u 6 0 m ∧
      ((chk u 6 0 m).ses 7).commissioning = false ∧ (chk u 6 0 m).nvRate (m.b 0) = false) := by
  refine ⟨?_, ?_, ?_, ?_, ?_, ?_⟩
  all_goals decide +kernel

/-- A datagram of 40 bytes without a body, of opcode 4 (11 R334). -/
def gram (magic : Nat) : List Byte := toLE 4 magic ++ [1, 1, 7, 0, 4, 0, 0, 0] ++ zeros 28
theorem wit_SessionsInTime :
    (let u := (sessAt .observer (fun x => { x with lease := 20 })).arrive {}; (u.ses 7).st = .confirmed ∧
      u.safe.mgmtDown = none ∧ u.due (u.ses 7).renewAt ((u.ses 7).lease * qMs) = true ∧ u.passesNow 7 (fun _ => true) = false ∧
      (u.ses 7).cls ≠ .steward) ∧
    (let u := { sessAt .observer with pending := [.heartbeat {} (msg [])] }.arrive {}; u.passesNow 7 (fun _ => true) = true) ∧
    (let u := ({ sessAt .steward (fun x => { x with st := .opening }) with now := 5000000000 }).arrive {}; (u.ses 7).st = .opening ∧
      u.due (u.ses 7).openAt (1000 * qMs) = true ∧ u.passesNow 7 (· == 2) = false) ∧
    (let u := ((held (sessAt .observer (fun x => { x with st := .kennel, kennel := some ⟨90000000, false⟩ })) 9).modStr 9
        (fun x => { x with reads := [{}] })).arrive {}; (u.ses 7).kennel = some ⟨90000000, false⟩ ∧
      u.due 90000000 (2 * qMs) = true ∧ u.mgt.revs = []) ∧
    (let u := (sessAt .observer (fun x => { x with st := .kennel, kennel := some ⟨0, true⟩ })).arrive {};
      (u.ses 7).kennel = some ⟨0, true⟩ ∧ u.due 0 (20 * qMs) = true ∧ u.mgt.revs = [] ∧ u.safe.mgmtDown = none ∧
      (u.ses 7).net = false ∧ (u.ses 7).fn = 0) ∧
    (let u := ({ sessAt .observer (fun x => { x with net := true, ethPort := 5 }) with
        net := Vector.replicate 8 { change := some [(1 : Byte)] } }).arrive {}; (vget u.net 5).change = some [1] ∧
      u.due (vget u.net 5).changeAt qMs = true ∧ (u.ses 7).net = true ∧ (u.ses 7).ethPort = 5) ∧
    datagramBad (gram 0x44554649) = false ∧ datagramBad (gram 0) = true ∧
    (let u := (held (sessAt .observer) (uSeq 3)).modCtx 3 5 (fun x => { x with st := .halted, session := 7 });
      (u.ses 7).st = .confirmed ∧ (u.ctxOf 3 5).st ≠ .free ∧ u.ctxSess 3 5 = 7) := by
  refine ⟨?_, ?_, ?_, ?_, ?_, ?_, ?_, ?_⟩
  all_goals decide +kernel

/-! ### Resources and contexts -/

theorem wit_ResourceCommands :
    (let u := (sessAt .production).arrive {}; let m := msg [2, 0, 0, 0, 0, 9, 3, 3]; Pass u 0x100 0 m ∧
      (claimUnits m).find? (fun x => (chk u 0x100 0 m).releaseFirst.claimed 7 x.1 ||
        ((chk u 0x100 0 m).releaseFirst.rivalUnits 7).contains x.1) = none) ∧
    (let u := ((sessAt .production).modMgt (fun g => { g with claims := vset g.claims 9 (some 8) })).arrive {};
      let m := msg [1, 0, 0, 0, 0, 9]; (Pass u 0x100 0 m ∧
      (claimUnits m).find? (fun x => (chk u 0x100 0 m).releaseFirst.claimed 7 x.1 ||
        ((chk u 0x100 0 m).releaseFirst.rivalUnits 7).contains x.1) = some (9, 0, 9))) ∧
    (let u := (held (sessAt .production) 9).arrive {}; let m := msg [1, 0, 0, 0, 0, 9]; Pass u 0x101 0 m ∧
      ((claimUnits m).map (·.1)).filter ((chk u 0x101 0 m).holds 7) = [9] ∧
      [9].any ((chk u 0x101 0 m).ses 7).stage.sealedUnits.contains = false ∧ [9].any ((chk u 0x101 0 m).boundBy 7) = false) ∧
    (let u := (held (sessAt .production (fun x => { x with stage := { sealedUnits := [9] } })) 9).arrive {};
      let m := msg [1, 0, 0, 0, 0, 9]; (Pass u 0x101 0 m ∧ [9].any ((chk u 0x101 0 m).ses 7).stage.sealedUnits.contains = true)) ∧
    (let u := ((sessAt .production (fun x => { x with quota := 2 })).modMem (fun x => { x with dok := true })).arrive {};
      let m := msg [2, 0, 0, 0]; let v := chk u 0x200 0 m; (Pass u 0x200 0 m ∧ v.mem.dok = true ∧
      (v.pagesOf 7).length + m.f 0 4 ≤ (v.ses 7).quota ∧ m.f 0 4 ≤ (v.freePagesFrom (v.dramTop / 65536 - 4096) (m.f 0 4) 4096).length)) ∧
    (let u := (sessAt .production).arrive {}; let m := msg [1, 0, 0, 0]; let v := chk u 0x200 0 m; Pass u 0x200 0 m ∧
      (v.ses 7).quota < (v.pagesOf 7).length + m.f 0 4) := by
  refine ⟨?_, ?_, ?_, ?_, ?_, ?_⟩
  all_goals decide +kernel
theorem wit_ResourceCommands_memory :
    (let u := ((sessAt .production).modMem (fun x => { x with owner := [(4096, 8)] })).arrive {}; let m := msg [1, 0, 0, 0, 0, 16, 0, 0];
      let v := chk u 0x201 0 m; (Pass u 0x201 0 m ∧ [4096].all (v.pageHeld 7) = true ∧
      [4096].any (fun pg => v.pinned pg || (v.rootPages 7).contains pg) = false)) ∧
    (let u := (sessAt .production).arrive {}; let m := msg [1, 0, 0, 0, 0, 16, 0, 0]; Pass u 0x201 0 m ∧
      [4096].all ((chk u 0x201 0 m).pageHeld 7) = false) ∧
    (let u := (sessAt .production).arrive {}; let m := msg (toLE 8 0x10001); Pass u 0x202 0 m ∧
      (∀ p : Fin 64, (chk u 0x202 0 m).holds 7 p = true → (vget (chk u 0x202 0 m).str p).reads = []) ∧
      Pass u 0x203 0 (msg (zeros 16))) ∧
    (let u := (held (sessAt .production) 9).arrive {}; Pass u 0x204 0 (msg [9, 0, 0, 0]) ∧
      (chk u 0x204 0 (msg [9, 0, 0, 0])).holds 7 9 = true ∧ Pass u 0x204 0 (msg [8, 0, 0, 0]) ∧
      (chk u 0x204 0 (msg [8, 0, 0, 0])).holds 7 8 = false ∧ Pass u 0x205 0 (msg (toLE 8 0x10000 ++ [1, 2, 3]))) ∧
    (let u := ({ sessAt .production (fun x => { x with root := 0x10001 }) with hostMem := Vector.replicate 4 tables }).arrive {};
      let m := msg (toLE 8 0x10000 ++ toLE 4 3); let v := chk u 0x206 0 m; (Pass u 0x206 0 m ∧ m.f 8 4 ≤ v.rspLimit 7 ∧
      okIs (v.vread 7 3 0 (m.f 0 8) (m.f 8 4)).2 [0, 0, 0] = true)) := by
  refine ⟨?_, ?_, ?_, ?_, ?_⟩
  all_goals decide +kernel

/-- A context image of one NOP (03 R94). -/
def image : List Byte :=
  toLE 8 0x152534D54 ++ toLE 8 1 ++ zeros 8 ++ toLE 4 (crc32c (zeros 8)) ++ zeros 36 ++ zeros 8
/-- Context 5 of sequencer 3 as given; session 7 holds the sequencer, and its page 1 holds the image. -/
def ctxAt (cls : Machine.Class) (f : Ctx → Ctx) : State :=
  { ((held (sessAt cls (fun x => { x with root := 0x10001 })) (uSeq 3)).modCtx 3 5 f).setReg 0x01000118 (fields [(32, 6, 5)]) with
    hostMem := Vector.replicate 4 (memWrite tables 0x30000 image) }
theorem wit_ContextCommands_load :
    (let u := (ctxAt .production id).arrive {}; let m := msg ([3, 5, 0, 0] ++ toLE 4 72 ++ toLE 8 0x10000);
      let v := chk u 0x300 0 m; (Pass u 0x300 0 m ∧ m.b 0 = 3 ∧ m.b 1 = 5 ∧ m.b 2 < 2 ∧ v.levelOk 7 3 (m.b 2) = true ∧
      okIs (v.vread 7 3 0 (m.f 8 8) 64).2 (image.take 64) = true)) ∧
    (let u := (ctxAt .production id).arrive {}; let m := msg ([3, 5, 0, 0] ++ toLE 4 72 ++ toLE 8 0x10000);
      let v := chk u 0x300 0 m; let v1 := (v.vread 7 3 0 (m.f 8 8) 64).1; let v2 := (v1.vread 7 3 0 (m.f 8 8) (m.f 4 4)).1;
      (okIs (v1.vread 7 3 0 (m.f 8 8) (m.f 4 4)).2 image = true ∧ attrOk (m.b 2) 0 = true ∧ (v.ctxOf 3 5).st = .free ∧ 72 ≤ m.f 4 4 ∧
      m.f 4 4 ≤ 64 + 8 * 524280 ∧ 1 ≤ v2.pFree)) ∧
    (bitsN (leAt image 8 8) 39 38 = 0 ∧ bitsN (leAt image 8 8) 18 0 = 1 ∧ imageOk (image.take 64) 72 = true ∧
      crc32c (image.drop 64) = leAt (image.take 64) 24 4) := by
  refine ⟨?_, ?_, ?_⟩
  all_goals decide +kernel
theorem wit_ContextCommands :
    (let u := (ctxAt .maintenance (fun x => { x with st := .loaded, attr := 2, session := 7 })).arrive {};
      let m := msg ([3, 5] ++ zeros 126); let v := chk u 0x301 0 m; (Pass u 0x301 0 m ∧ (v.ses 7).cls ≠ .production ∧
      (v.ctxOf 3 5).session = 7 ∧ v.levelOk 7 3 3 = true ∧ (v.ctxOf 3 5).attr = 2 ∧ v.ectx 3 = 5 ∧
      (v.ctxOf 3 5).stopped = true)) ∧
    (let u := (ctxAt .maintenance (fun x => { x with st := .armed, attr := 2, session := 7 })).arrive {};
      let m := msg ([3, 5] ++ zeros 126); let v := chk u 0x302 0 m; (Pass u 0x302 0 m ∧ v.holds 7 (uSeq 3) = true ∧
      (v.ctxOf 3 5).session = 7 ∧ (v.ctxOf 3 5).st = .armed)) ∧
    (let u := (ctxAt .production (fun x => { x with st := .halted, session := 7 })).arrive {}; let m := msg ([3, 5] ++ zeros 126);
      let v := chk u 0x302 0 m; (Pass u 0x302 0 m ∧ v.holds 7 (uSeq 3) = true ∧ (v.ctxOf 3 5).session = 7 ∧
      (v.ctxOf 3 5).stopped = true)) ∧
    (let u := (sessAt .production).arrive {}; let m := msg ([3, 5] ++ zeros 126); Pass u 0x302 0 m ∧
      (chk u 0x302 0 m).holds 7 (uSeq 3) = false) ∧
    (let u := (ctxAt .production (fun x => { x with st := .waiting, session := 7 })).arrive {}; let m := msg [3, 5, 0, 0];
      let v := chk u 0x303 0 m; (Pass u 0x303 0 m ∧ v.holds 7 (uSeq 3) = true ∧ (v.ctxOf 3 5).session = 7 ∧ m.b 2 = 0 ∧
      (v.ctxOf 3 5).st = .waiting ∧ v.ownsSwath 3 5 = false)) ∧
    (let u := (ctxAt .production (fun x => { x with st := .halted, session := 7 })).arrive {}; let m := msg [3, 5, 1, 0];
      let v := chk u 0x303 0 m; (Pass u 0x303 0 m ∧ m.b 2 = 1 ∧ (v.ctxOf 3 5).st = .halted)) := by
  refine ⟨?_, ?_, ?_, ?_, ?_, ?_⟩
  all_goals decide +kernel

/-! ### Commits, the store and the firmware -/

/-- A request of a commit by session 7. -/
def req : Req := { seq := 3, at_ := 0, validated := true }
theorem wit_CommitCommands :
    (let u := (sessAt .production).arrive {}; let m := msg ([3] ++ zeros 15); let v := chk u 0x400 0 m; (Pass u 0x400 0 m ∧
      (v.ses 7).req = none ∧ (v.ses 7).stage.overflow = false ∧ Pass u 0x401 0 (msg []))) ∧
    (let u := (sessAt .production (fun x => { x with req := some req })).arrive {}; let m := msg ([3] ++ zeros 15);
      (Pass u 0x400 0 m ∧ ((chk u 0x400 0 m).ses 7).req = some req)) ∧
    (let u := (sessAt .production (fun x => { x with stage := { overflow := true } })).arrive {}; let m := msg ([3] ++ zeros 15);
      (Pass u 0x400 0 m ∧ ((chk u 0x400 0 m).ses 7).req = none ∧ ((chk u 0x400 0 m).ses 7).stage.overflow = true)) ∧
    (let u := (sessAt .production (fun x => { x with req := some { req with validated := false } })).arrive {};
      (u.ses 7).req = some { req with validated := false } ∧ u.safe.mgmtDown = none ∧ u.wordsOf (u.ses 7).stage.sealedUnits = [] ∧
      refLimitsOk (u.withSet []) = true ∧ overlaps (u.withSet []) = false ∧ u.feedsReady (u.withSet [] feedCfgAddr) = true ∧
      u.etbPorts [] = []) ∧
    (let y := ((sessAt .production (fun x => { x with req := some req })).arrive {}).calFirst; (y.ses 7).req = some req ∧
      y.swOpen req.seq = false ∧ y.setReady 7 = true ∧ req.cas = false ∧ y.entryComes 7 = false ∧
      (∀ k : Fin 256, k < 7 → (y.ses k).req = none) ∧ y.wordsOf (y.ses 7).stage.sealedUnits = [] ∧
      y.mgt.badTab.any (fun b => b.2 && (y.ses 7).stage.sealedUnits.contains (unitAt b.1)) = false) ∧
    (let y := (((sessAt .production (fun x => { x with req := some req })).modSeq 3 (fun y => { y with
        swst := .opened, lnq := [{ left := 2 }] })).arrive {}).calFirst.commitReady 7;
      (y.ses 7).req = some req ∧ y.swOpen req.seq = true ∧ y.readDue req.seq = some 0 ∧ req.line ≤ 0 ∧ y.setReady 7 = true) := by
  refine ⟨?_, ?_, ?_, ?_, ?_, ?_⟩
  all_goals decide +kernel
theorem wit_CommitCommands_range :
    (let a := 0x03400000; let s := (sessAt .production (fun x => { x with
        req := some { req with validated := false }, stage := { sealedUnits := [unitAt a] } })).modMgt (fun g => { g with
        staged := [(a, (0 : Word))] }); let u := s.arrive {}; let words := u.wordsOf (u.ses 7).stage.sealedUnits;
      (words = [(a, (0 : Word))] ∧
      (((words ++ u.dependents words).map (fun y => rangeCode (u.withSet words) y.1 (u.withSet words y.1))).find? (· != 0)).isSome =
        true)) ∧
    (let u := ({ sessAt .production (fun x => { x with req := some { req with validated := false, at_ := 0 } }) with
        now := 400000000000 }).arrive {}; let y := u.commitReady 7; (y.ses 7).req = some { req with validated := false, at_ := 0 } ∧
      y.rf 0x00100018 15 0 ≠ 0 ∧ y.due 0 (y.rf 0x00100018 15 0 * qMs) = true ∧ req.program = false) ∧
    (let u := ((sessAt .production id).setReg (0x00103000 + 8 * 7) 1).arrive {}; (u.ses 7).st = .confirmed ∧
      bit (u.reg (0x00103000 + 8 * 7)) 0 = true ∧ u.due (u.ses 7).snapAt (1250000 * qTick) = true) := by
  refine ⟨?_, ?_, ?_⟩
  all_goals decide +kernel

/-! A snapshot fits a page, so one whose page is mapped is written. -/

theorem toLE_len : ∀ n v, (toLE n v).length = n
  | 0, _ => rfl
  | n + 1, v => by simp [toLE, toLE_len n]
/-- The registers of a block's rows. -/
def cnt (b : Nat × Nat) : Nat :=
  let rows := regTable.filter (fun r => b.1 ≤ r.base && r.base ≤ b.2)
  (rows.filter (fun r => !r.table)).foldl (fun a r => a + r.count) 0
theorem len_flat {α β : Type} (f : α → List β) (g : α → Nat) (l : List α) (h : ∀ a, (f a).length = g a) (k : Nat) :
    (l.flatMap f).length + k = l.foldl (fun a r => a + g r) k := by
  induction l generalizing k with
  | nil => simp
  | cons a l ih => simp only [List.flatMap_cons, List.length_append, List.foldl_cons]; rw [← ih (k + g a), h]; omega
theorem blockRegs_len (b : Nat × Nat) : (blockRegs b).length ≤ cnt b := by
  unfold blockRegs cnt
  simp only [List.length_mergeSort]
  refine Nat.le_trans (List.length_filter_le _ _) ?_
  exact Nat.le_of_eq (len_flat (fun r : RegRow => (List.range r.count).map (fun i => r.base + r.stride * i)) (fun r => r.count) _ (by simp) 0)
theorem flat_le {α β : Type} (f : α → List β) (g : α → Nat) (l : List α) (h : ∀ a, (f a).length ≤ g a) (k : Nat) :
    (l.flatMap f).length + k ≤ l.foldl (fun a r => a + g r) k := by
  induction l generalizing k with
  | nil => simp
  | cons a l ih => simp only [List.flatMap_cons, List.length_append, List.foldl_cons]; have := ih (k + g a); have := h a; omega
theorem regs_len : (mapBlocks.flatMap blockRegs).length ≤ 8000 :=
  Nat.le_trans (flat_le blockRegs cnt mapBlocks blockRegs_len 0) (by decide +kernel)
theorem snap_len (s : State) (n k j : Nat) : (s.snapRecord n k j []).length ≤ 65536 := by
  have h : ((mapBlocks.flatMap blockRegs).flatMap (fun a => toLE 8 (s.readWord (some n) (s.ses n).fn a).toNat)).length + 0 =
    (mapBlocks.flatMap blockRegs).foldl (fun a _ => a + 8) 0 := len_flat _ (fun _ => 8) _ (by simp [toLE_len]) 0
  have h2 : ∀ (l : List Nat) k, l.foldl (fun a _ => a + 8) k = k + 8 * l.length := by
    intro l; induction l with
    | nil => simp
    | cons a l ih => intro k; simp [ih]; omega
  have := regs_len
  simp only [State.snapRecord, State.snapBody, List.length_append, toLE_len, zeros, List.length_replicate, List.flatMap_nil,
    List.length_nil]
  rw [h2] at h
  simp only [Nat.add_zero] at h
  rw [h]; omega

theorem vwrite_page (s : State) (n va : Nat) (e : TlbEntry) (b : List Byte) (h : s.tlbHit n va true = some e)
    (h1 : va % 65536 = 0) (h2 : va < 2 ^ 48) (h3 : b.length ≤ 65536) : (s.vwrite n 3 0 va b).2 = 0 := by
  have z : ∀ (t : State) k v, t.pieces n 3 0 true k v 0 = (t, .ok []) := by intro t k v; cases k <;> simp [State.pieces]
  have hm : min b.length (65536 - va % 65536) = b.length := by omega
  have h4 : va % 2 ^ 48 = va := by omega
  unfold State.vwrite State.access
  by_cases h0 : b.length = 0
  · simp [h0, z]
  · simp only [State.pieces, h0, if_false, if_true, h4, State.xlate, h, hm, Nat.sub_self]

/-- Session 7's page 1 is cached as writable. -/
def snapAt : State := (sessAt .production).modXlt (fun x => { x with
  sets := [(tlbSet 7 1, [{ session := 7, vpage := 1, ppage := 3, w := true }])] })
/-- SNAPSHOT to that page. -/
def snapMsg : Msg := msg (toLE 8 0x10000 ++ zeros 8)
/-- The state that SNAPSHOT acts on there: the commits of its tick are done. -/
def snapV : State := (chk (snapAt.arrive {}) 0x402 0 snapMsg).commitFirst
theorem wit_CommitCommands_snapshot : Pass (snapAt.arrive {}) 0x402 0 snapMsg ∧ snapMsg.ranges = [] ∧ snapMsg.f 0 8 = 0x10000 := by
  decide +kernel
theorem wit_CommitCommands_snapshot_written : (snapV.vwrite 7 3 0 0x10000 (snapV.snapRecord 7 2 0 [])).2 = 0 :=
  vwrite_page _ 7 0x10000 { session := 7, vpage := 1, ppage := 3, w := true } _ (by decide +kernel) (by decide) (by decide)
    (snap_len _ _ _ _)

theorem wit_StoreAndFirmware :
    (let u := (sessAt .maintenance).arrive {}; let m := msg [0, 0, 0xC0, 0, 1, 0, 0, 0]; Pass u 0x404 1 m ∧
      (chk u 0x404 1 m).repairRefusal (m.f 0 4) 1 ≠ 0) ∧
    (let u := (sessAt .steward).arrive {}; let m := msg ([0, 0, 0, 0, 8, 0, 0, 0] ++ zeros 8); Pass u 0x500 0 m ∧
      nvHost (m.f 0 2) = false) ∧
    (let u := { sessAt .steward (fun x => { x with root := 0x10001 }) with hostMem := Vector.replicate 4 tables }.arrive {};
      let m := msg (toLE 4 0x8000 ++ toLE 4 2 ++ toLE 8 0x10000); let v := chk u 0x500 0 m; (Pass u 0x500 0 m ∧
      nvHost (m.f 0 2) = true ∧ m.f 4 4 ≤ 32748 ∧ v.nvRate (m.f 0 2) = false ∧
      okIs (v.vread 7 3 0 (m.f 8 8) (m.f 4 4)).2 [0, 0] = true)) ∧
    (let u := (sessAt .observer).arrive {}; let m := msg (toLE 8 0x8000 ++ toLE 8 0x10000); (u.mayCommand 7 0x501 m = false)) ∧
    (let u := (sessAt .steward).arrive {}; let m := msg (toLE 8 0x8000 ++ toLE 8 0x10000); let v := chk u 0x501 0 m;
      (Pass u 0x501 0 m ∧ v.mayNvRead 7 (m.f 0 2) = true)) ∧
    (let u := ({ sessAt .steward (fun x => { x with root := 0x10001 }) with hostMem := Vector.replicate 4 tables }).arrive {};
      let m := msg (toLE 8 0x10000 ++ toLE 4 2 ++ zeros 4); let v := chk u 0x502 0 m; (Pass u 0x502 0 m ∧ v.pws.fwSt = .idle ∧
      okIs (v.vread 7 3 0 (m.f 0 8) (m.f 8 4)).2 [0, 0] = true)) := by
  refine ⟨?_, ?_, ?_, ?_, ?_, ?_⟩
  all_goals decide +kernel
theorem wit_StoreAndFirmware_switch :
    (let u := (sessAt .steward).arrive {}; Pass u 0x503 0 (msg []) ∧ (chk u 0x503 0 (msg [])).pws.fwStaged = false) ∧
    (let u := ((sessAt .steward).modPws (fun x => { x with fwStaged := true })).arrive {}; let v := chk u 0x503 0 (msg []);
      (Pass u 0x503 0 (msg []) ∧ v.pws.fwStaged = true ∧ v.pws.fwSt = .idle ∧ v.mgmtQuiet = true)) ∧
    (let u := ((sessAt .steward (fun x => { x with req := some { req with validated := false } })).modPws (fun x => { x with fwStaged := true })).arrive {};
      let v := chk u 0x503 0 (msg []); (Pass u 0x503 0 (msg []) ∧ v.mgmtQuiet = false)) ∧
    (let u := ((sessAt .steward).modPws (fun x => { x with fwSt := .switching })).arrive {}; Pass u 0x502 0 (msg (zeros 16)) ∧
      (chk u 0x502 0 (msg (zeros 16))).pws.fwSt ≠ .idle) ∧
    (let u := ({ (ready 0).modPws (fun x => { x with fwSt := .probation }) with now := 50000000000 }).arrive {};
      u.pws.fwSt = .probation ∧ u.due u.pws.fwAt (10000 * qMs) = true) ∧
    (let u := ((sessAt .steward).modPws (fun x => { x with fwStaged := true, fwWait := some 5 })).arrive {}; Pass u 0x503 0 (msg []) ∧
      (chk u 0x503 0 (msg [])).pws.fwWait.isSome = true) ∧
    (let u := ((sessAt .steward).modPws (fun x => { x with fwWait := some 99999999, fwMsg := some (7, msg []) })).arrive {};
      u.mgmtQuiet = true ∧ u.safe.mgmtDown = none) ∧
    (let u := ({ sessAt .steward (fun x => { x with req := some { req with validated := false } }) with now := 1000000000 }.modPws
        (fun x => { x with fwWait := some 5, fwMsg := some (7, msg []) })).arrive {};
      u.mgmtQuiet = false ∧ u.due 5 (100 * qMs) = true ∧ u.due 999999999 (100 * qMs) = false ∧ u.isOpen 7 = true) := by
  refine ⟨?_, ?_, ?_, ?_, ?_, ?_, ?_, ?_⟩
  all_goals decide +kernel


/-! ### Calibrations -/

/-- A calibration request of procedure p on target t, with the timeout 1,000 ms. -/
def calMsg (p t : Nat) (param : List Byte) : Msg :=
  msg ([BitVec.ofNat 8 p, BitVec.ofNat 8 t, 0, 0] ++ toLE 4 1000 ++ param ++ zeros (56 - param.length))
/-- A run slot is taken. -/
def runAt (s : State) (r : Nat) (c : CalRun) : State := s.modRun r (fun _ => c)
theorem wit_CalibrationsAreAccepted :
    (let u := (sessAt .maintenance).arrive {}; let m := calMsg 5 0 (zeros 2 ++ [1]); Pass u 0x403 5 m ∧ calForm m 5 = false) ∧
    (let u := (sessAt .maintenance).arrive {}; let m := calMsg 1 9 []; Pass u 0x403 1 m ∧ calForm m 1 = true ∧
      (calClaims 1 (m.b 1) (m.b 2) (m.f 8 2)).all ((chk u 0x403 1 m).holds 7) = false) ∧
    (let u := (held (sessAt .maintenance) 9).arrive {}; let m := calMsg 1 9 []; let v := chk u 0x403 1 m; (Pass u 0x403 1 m ∧
      calForm m 1 = true ∧ (calClaims 1 (m.b 1) (m.b 2) (m.f 8 2)).all (v.holds 7) = true ∧ (v.run 0).st = .free ∧
      v.calTaken (calTargets 1 (m.b 1) (m.b 2) (m.f 8 2)) = false ∧ v.calRival 7 (calTargets 1 (m.b 1) (m.b 2) (m.f 8 2)) = false ∧
      v.calPre 1 (m.b 1) (v.calUnits 1 (m.b 1) (m.f 8 2)) (m.f 8 2) ≠ 0)) ∧
    (let u := (runAt (sessAt .maintenance) 0 { st := .running, proc := 5 }).arrive {}; let m := calMsg 5 0 []; let v := chk u 0x403 5 m;
      (Pass u 0x403 5 m ∧ calForm m 5 = true ∧ (v.run 0).st ≠ .free ∧ (v.run 1).st = .free ∧
      v.calTaken (calTargets 5 (m.b 1) (m.b 2) (m.f 8 2)) = true)) ∧
    (let u := (sessAt .maintenance).arrive {}; let m := calMsg 5 0 []; let v := chk u 0x403 5 m; (Pass u 0x403 5 m ∧
      (calClaims 5 (m.b 1) (m.b 2) (m.f 8 2)).all (v.holds 7) = true ∧ v.calTaken (calTargets 5 (m.b 1) (m.b 2) (m.f 8 2)) = false ∧
      v.calRival 7 (calTargets 5 (m.b 1) (m.b 2) (m.f 8 2)) = false ∧ v.calPre 5 (m.b 1) (v.calUnits 5 (m.b 1) (m.f 8 2)) (m.f 8 2) = 0)) ∧
    (let u := (runAt (runAt (runAt (runAt (sessAt .maintenance) 0 { st := .running }) 1 { st := .running }) 2 { st := .running }) 3
        { st := .running }).arrive {}; Pass u 0x403 5 (calMsg 5 0 []) ∧ ∀ k : Fin 4, ((chk u 0x403 5 (calMsg 5 0 [])).run k).st ≠ .free) ∧
    (let u := (runAt (sessAt .maintenance) 0 { st := .running, held := [9] }).arrive {}; (u.run 0).st = .running ∧ 9 ∈ (u.run 0).held ∧
      (∀ k : Fin 4, k < (0 : Fin 4) → (u.run k).st ≠ .free) ∧ (vget u.mgt.holds 8).all (· < 256) = true ∧ 8 ∉ (u.run 0).held) := by
  refine ⟨?_, ?_, ?_, ?_, ?_, ?_, ?_⟩
  all_goals decide +kernel
/-- The same procedure is asked for in the same instant by a session of a lower number. -/
theorem wit_CalibrationsAreAccepted_rival :
    let x : Msg := { calMsg 5 0 [] with session := 6 }
    let u := { (sessAt .maintenance).modSess 6 (fun _ => (sessAt .maintenance).ses 7) with pending := [.calTemptrim {} x] }.arrive {};
    let m := calMsg 5 0 []; let v := chk u 0x403 5 m
    Pass u 0x403 5 m ∧ v.calTaken (calTargets 5 0 0 0) = false ∧ v.calRival 7 (calTargets 5 (m.b 1) (m.b 2) (m.f 8 2)) = true := by
  decide +kernel
theorem wit_CalibrationsBegin :
    (let u := runAt (ready 0) 0 { proc := 1, target := 9 }; (u.run 0).proc = 1 ∧ (u.run 0).target < 64 ∧
      ∀ q : Fin 16, (vget u.seq q).swst ≠ .opened) ∧
    (let u := runAt (ready 0) 0 { proc := 3, target := 2 }; (u.run 0).proc = 3 ∧ (u.run 0).target < 4) ∧
    (let u := runAt (ready 0) 0 { proc := 0, param := toLE 2 0x1009 }; (u.run 0).proc = 0 ∧ nvCal (u.run 0).rid = true) ∧
    (let u := runAt (ready 0) 0 { proc := 0, param := toLE 2 0x8000 }; nvCal (u.run 0).rid = false) := by
  refine ⟨?_, ?_, ?_, ?_⟩
  all_goals decide +kernel
/-- The three results of a lane calibration whose head answered in time each time. -/
def laneResults : List CalRes := [{ soon := true }, { soon := true, upOk := true, down := some 0 }, { soon := true, upOk := true, down := some 3 }]
/-- A TEMPTRIM that has taken two averages, 19.5 °C and 20.5 °C. -/
def trimRun : CalRun := {
  st := .running, proc := 5, param := toLE 2 400, tCnt := 2, tSum := 640, tLo := 312, tHi := 328 }
theorem wit_CalibrationsEnd :
    (let u := (sessAt .maintenance).arrive {}; let m := calMsg 0xFF 3 []; Pass u 0x403 0xFF m ∧ m.b 1 = 3 ∧
      zeroAt m.payload 8 63 = true) ∧
    (let u := (runAt (ready 10000000) 0 { st := .running, timeout := 2 }).arrive {}; ((u.resultFirst 0).run 0).st = .running ∧
      (u.resultFirst 0).due ((u.resultFirst 0).run 0).since (((u.resultFirst 0).run 0).timeout * qMs) = true) ∧
    (let u := (runAt (ready 9999999) 0 { st := .running, timeout := 2 }).arrive {};
      (u.resultFirst 0).due ((u.resultFirst 0).run 0).since (((u.resultFirst 0).run 0).timeout * qMs) = false) ∧
    (let u := ((ready 0).modSafe (fun x => { x with mgmtDown := some 0 })).arrive {}; u.safe.mgmtDown.isSome = true) ∧
    (let u := (runAt (ready 0) 0 { st := .closing, proc := 6, target := 1 }).arrive {}; (u.run 0).st = .closing ∧ (u.run 0).proc ≠ 1 ∧
      (u.run 0).proc = 6 ∧ (u.run 0).target < 4 ∧ u.safe.mgmtDown = none) ∧
    (let u := (runAt (ready 5000000000) 0 trimRun).arrive {}; (u.run 0).st = .running ∧ u.safe.mgmtDown = none ∧ (u.run 0).proc = 5 ∧ (u.run 0).tCnt ≠ 0 ∧
      u.due (u.run 0).since (1000 * qMs) = true ∧ ((u.run 0).tHi - (u.run 0).tLo).toNat ≤ 16 ∧
      (signedN 16 (leAt (u.run 0).param 0 2) * (u.run 0).tCnt - (u.run 0).tSum) / (u.run 0).tCnt = 80) ∧
    (let u := ((runAt (ready 0) 0 { st := .running, proc := 2 }).modHlt (fun h => { h with alDone := true })).arrive {};
      (u.run 0).st = .running ∧ (u.run 0).proc = 2 ∧ u.hlt.al = none ∧ u.hlt.alDone = true ∧ u.safe.mgmtDown = none) ∧
    (let u := (runAt (ready 0) 0 { st := .running, proc := 3, param := [1], frames := [{}] }).arrive {};
      (u.run 0).st = .running ∧ leAt (u.run 0).param 0 1 ≤ (u.run 0).frames.length) ∧
    (let u := (runAt (ready 0) 0 { st := .running, proc := 6, target := 3 }).arrive {}; (u.run 0).st = .running ∧ (u.run 0).proc = 6 ∧
      (u.run 0).target < 4 ∧ ([0, 2 ^ 32] : List Word).all (fun w => bit w 32) = false ∧ centreMove 0 0 ≤ 16) ∧
    (let u := ((ready 875000).modKl 9 (fun k => { k with st := .cal, calRes := laneResults })).arrive {}; (vget u.kl 9).st = .cal ∧
      (∀ k : Fin 4, (u.run k).st = .free) ∧ u.safe.mgmtDown = none ∧ u.due (vget u.kl 9).since (175 * qUs) = true ∧
      (vget u.kl 9).calLocked = true ∧ (vget u.kl 9).calChoice = some (1, 0) ∧ (vget u.kl 8).st ≠ .cal) ∧
    (let u := ((ready 874999).modKl 9 (fun k => { k with st := .cal, calRes := [{ soon := true }] })).arrive {};
      u.due (vget u.kl 9).since (175 * qUs) = false ∧ (vget u.kl 9).calLocked = false) := by
  refine ⟨?_, ?_, ?_, ?_, ?_, ?_, ?_, ⟨?_, ?_, ?_, ?_⟩⟩
  all_goals decide +kernel
/-- A frame of one saturated pixel in 8 bits. -/
def whiteFrame : Frame := { port := fields [(16, 15, 1), (32, 16, 1)], buf := [], done := [[255]] }
theorem wit_CameraCalibrationResults :
    (let u := runAt (ready 0) 0 { proc := 3, target := 2, param := toLE 2 1 ++ toLE 2 100, frames := [] }; (u.run 0).save = false ∧
      (u.run 0).target < 4) ∧
    (let u := runAt (ready 0) 0 { proc := 4, target := 2, param := [1], frames := [whiteFrame] };
      (u.run 0).taken.any (fun f => f.sumPx (fun x y => f.sample x y == 2 ^ f.dw - 1) (fun _ _ => 1) != 0) = true) := by
  refine ⟨?_, ?_⟩
  all_goals decide +kernel

/-! ### Registers and event queues -/

theorem wit_RegisterAccess :
    (let u := (sessAt .observer).arrive {}; let m := msg (toLE 4 0x05000018 ++ toLE 4 1); Pass u 0x600 0 m ∧
      8 * m.f 4 2 ≤ (chk u 0x600 0 m).rspLimit 7) ∧
    (let u := (sessAt .production).arrive {}; let m := msg (toLE 4 0x02800008 ++ toLE 4 1 ++ toLE 8 1); Pass u 0x601 0 m ∧ m.f 4 2 = 1 ∧
      (regAt (m.f 0 4)).map (fun g => critReg g.base) = some true ∧ regAt 0x07FFFFF8 = none) ∧
    (let u := (sessAt .production).arrive {}; let m := msg (toLE 4 0x03000148 ++ toLE 4 1 ++ toLE 8 1); Pass u 0x601 0 m ∧
      (regAt (m.f 0 4)).map (fun g => (critReg g.base, g.acc == .ms, g.unit (m.f 0 4))) = some (false, true, 9) ∧
      (chk u 0x601 0 m).acceptFirst.mayStage 7 9 = false) ∧
    (let u := (held (sessAt .production) 9).arrive {}; let m := msg (toLE 4 0x03000148 ++ toLE 4 1 ++ toLE 8 1);
      let y := (chk u 0x601 0 m).acceptFirst; (Pass u 0x601 0 m ∧ y.mayStage 7 9 = true ∧ y.calComing 9 = false ∧
      vget y.mgt.holds 9 = none ∧ (y.ses 7).stage.sealedUnits.contains 9 = false ∧ y.entries 7 < 512 ∧ y.shadowUsed < 2048)) ∧
    (let u := { (held (sessAt .maintenance) 9).modKl 9 (fun k => { k with st := .ready }) with
        pending := [.calLane {} (calMsg 1 9 [])] }.arrive {};
      let m := msg (toLE 4 0x03000148 ++ toLE 4 1 ++ toLE 8 1); let y := (chk u 0x601 0 m).acceptFirst
      (Pass u 0x601 0 m ∧ y.mayStage 7 9 = true ∧ y.calComing 9 = true)) ∧
    (let u := (held (sessAt .production (fun x => { x with stage := { overflowPosted := true } })) 9).arrive {};
      let m := msg (toLE 4 0x03000148 ++ toLE 4 1 ++ toLE 8 1); let y := (chk u 0x601 0 m).acceptFirst
      (Pass u 0x601 0 m ∧ (regAt (m.f 0 4)).map (·.table) = some false ∧ SMap.find y.mgt.staged (m.f 0 4) = none ∧
      (y.ses 7).stage.overflowPosted = true)) ∧
    (let u := (held (sessAt .production (fun x => { x with stage := { sealedUnits := [9] } })) 9).arrive {};
      let m := msg (toLE 4 0x03000148 ++ toLE 4 1 ++ toLE 8 1); (Pass u 0x601 0 m ∧
      ((chk u 0x601 0 m).acceptFirst.ses 7).stage.sealedUnits.contains 9 = true)) ∧
    (let u := ((held (sessAt .production) 9).modMgt (fun g => { g with holds := vset g.holds 9 (some 8) })).arrive {};
      let m := msg (toLE 4 0x03000148 ++ toLE 4 1 ++ toLE 8 1); (Pass u 0x601 0 m ∧ (chk u 0x601 0 m).acceptFirst.mayStage 7 9 = true ∧
      vget (chk u 0x601 0 m).acceptFirst.mgt.holds 9 = some 8)) ∧
    (let u := (sessAt .production).arrive {}; Pass u 0x602 0 (msg (toLE 8 0x02800008 ++ toLE 8 1))) := by
  refine ⟨?_, ?_, ?_, ?_, ?_, ?_, ?_, ⟨?_, ?_⟩⟩
  all_goals decide +kernel
theorem wit_RegisterAccess_bar0 :
    (let u := (ready 0).arrive {}; let a : BitVec 27 := 0x03000148; (u.phase = .ready ∧ vget u.xlt.direct 0 = none ∧
      ([1, 2, 4, 8].contains [(0 : Byte), 0, 0].length && a.toNat % 3 == 0) = false ∧
      ([1, 2, 4, 8].contains (zeros 8).length && a.toNat % 8 == 0) = true ∧ (regAt a.toNat).map (·.base) = some 0x03000100 ∧
      (regAt a.toNat).map (·.table) = some false)) ∧
    (let u := ((writerOn (ready 0)).modSess 7 (fun x => { x with root := 0x10001 })).arrive {}; vget u.xlt.direct 0 = some 7 ∧
      errIs (u.access 7 3 0 false (u.winBase 0) 4).2 0x0201 = true) ∧
    (let u := ((writerOn (ready 0)).modXlt (fun x => { x with
        sets := [(tlbSet 7 0, [{ session := 7, dram := true, ppage := 4096, w := true }])] })).arrive {}; vget u.xlt.direct 0 = some 7 ∧
      okIs (u.access 7 3 0 true (u.winBase 0) 4).2 [{ dram := true, addr := 4096 * 65536, len := 4 }] = true) ∧
    (let u := { writerOn (ready 0) with dramUe := [4096 * 16384] };
      errIs (u.readPieces 7 3 [{ dram := true, addr := 4096 * 65536, len := 4 }]).2 0x0B04 = true) := by
  refine ⟨?_, ?_, ?_, ?_⟩
  all_goals decide +kernel
theorem test_defective_cell_counts_on_every_read :
    let s := ((ready 0).modMem (fun m => { m with defects := [(5, 3)], sramOne := [(5, 3)] })).sramRead 5 1
    vget s.mem.secCe 0 = 1 ∧ bits s.mem.serr 30 24 = 3 ∧ vget (s.sramRead 5 1).mem.secCe 0 = 2 := by decide +kernel
theorem test_flip_mask_of_two_bits :
    let s := ((ready 0).setReg 0x04000040 6).setReg 0x04000048 (fields [(8, 1, 1), (10, 1, 1), (16, 36, 7)])
    (s.sramWrite 5 1).2 = [] ∧ (s.sramWrite 5 3).2 = [7] := by decide +kernel
theorem test_map_edges : (regAt 0x0360047F).isNone = true ∧ (regAt 0x03000148).isSome = true := by decide +kernel

/-- A queue of two records. -/
def evq2 : EvQueue := { rd := 4095, held := [{}, {}], sent := 1 }
theorem wit_EventQueues :
    (let u := (sessAt .observer (fun x => { x with busy := true, evq := { evq2 with sent := 0 } })).arrive {}; (u.ses 7).busy = true ∧
      (u.ses 7).st = .confirmed ∧ (u.ses 7).net = false ∧
      (1 + 4096 - (u.ses 7).evq.rd) % 4096 ≤ (u.ses 7).evq.held.length - (u.ses 7).evq.fresh ∧
      (u.ses 7).evq.loss = none ∧ (u.ses 7).evq.held.length - (u.ses 7).evq.fresh < (2 + 4096 - (u.ses 7).evq.rd) % 4096) ∧
    (let u := (sessAt .observer).arrive {}; (u.ses 7).busy = false ∧ (u.ses 7).net = false) ∧
    (let u := (sessAt .observer (fun x => { x with net := true, maxDgram := 1400, evq := evq2 })).arrive {}; (u.ses 7).net = true ∧
      (u.ses 7).st = .confirmed ∧ u.dramUe = [] ∧ u.dramCe = [] ∧
      min (u.evMax 7) ((u.ses 7).evq.held.length - (u.ses 7).evq.fresh - (u.ses 7).evq.sent) ≠ 0 ∧
      min (min (u.ses 7).evq.sent (u.evMax 7)) ((u.ses 7).evq.held.length - (u.ses 7).evq.fresh) ≠ 0 ∧
      u.due (u.ses 7).evq.sentAt (10 * qMs) = true ∧ u.phase = .ready) ∧
    (let u := { sessAt .observer (fun x => { x with evq := evq2 }) with dramUe := [(0x20000 * 7 + 32 * 4095) / 4] }.arrive {};
      wordsIn u.dramUe (evAddr 7 ((u.ses 7).evq.rd + 0)) 32 ≠ []) ∧
    (let u := (sessAt .observer (fun x => { x with evq := { loss := some {}, held := [{}] } })).arrive {};
      (u.ses 7).evq.loss = some {} ∧ (u.ses 7).evq.held.length + 2 ≤ 4095) ∧
    (let u := (sessAt .observer (fun x => { x with evq := { loss := some {}, held := List.replicate 4094 {} } })).arrive {};
      (u.ses 7).evq.loss = some {} ∧ 4095 < (u.ses 7).evq.held.length + 2) ∧
    (let u := { ready 0 with msix := Vector.replicate 4 { enabled := true, pending := [5] } }.arrive {};
      (5 : Fin 2048).val ∈ (vget u.msix 0).pending ∧ (vget u.msix 0).enabled = true ∧ (vget u.msix 0).fmask = false) := by
  refine ⟨?_, ?_, ?_, ?_, ?_, ?_, ?_⟩
  all_goals decide +kernel

/-! ### Memory in service -/

/-- Channel 1 as given in a device with its memory in service. -/
def chanAt (f : Chan → Chan) : State := ({ ready 10000000 with draws := 0 }).modMem (fun m => { m with
  dok := true, ch := vmod m.ch 1 (fun c => f { c with st := .trained }) })
theorem wit_DramInService :
    (let u := (chanAt id).arrive {}; (vget u.mem.ch 1).st = .trained ∧ u.due (vget u.mem.ch 1).lastRef 19500 = true ∧
      (vget u.mem.ch 1).hotRef = false ∧ (vget u.mem.ch 1).postponed < u.rf chCfgAddr 12 10 ∧ u.pws.gap = none) ∧
    (let u := (chanAt (fun c => { c with hotRef := true, postponed := 7 })).arrive {}; (vget u.mem.ch 1).hotRef = true ∧
      u.rf chCfgAddr 12 10 ≤ (vget u.mem.ch 1).postponed) ∧
    (let u := (chanAt (fun c => { c with pollAt := some 5000000 })).arrive {};
      (vget u.mem.ch 1).pollAt.all (fun t => u.due t qMs) = true) ∧
    (let u := (chanAt (fun c => { c with pollAt := some 5000001 })).arrive {};
      (vget u.mem.ch 1).pollAt.all (fun t => u.due t qMs) = false) ∧
    (let u := ((chanAt id).setReg chCfgAddr 100).arrive {}; u.rf chCfgAddr 9 0 ≠ 0 ∧ (vget u.mem.ch 1).st = .trained ∧
      (0 : Nat) ≤ u.mem.ranks ∧ u.due (vget (vget u.mem.ch 1).lastReq 0) (50 * u.rf chCfgAddr 9 0) = true) ∧
    (let u := ((chanAt id).setReg chCfgAddr 0).arrive {}; u.rf chCfgAddr 9 0 = 0) ∧
    (let u := (chanAt id).arrive {}; let b : BitVec 30 := 0x400002; (u.mem.dok = true ∧ 64 * b.toNat < u.dramTop ∧
      dramCh (64 * b.toNat) = 1 ∧ (vget u.mem.ch 1).ce < 2 ^ 32 ∧ (vget u.mem.ch 1).patrol < 2 ^ 16 ∧
      wordsIn u.dramUe (64 * b.toNat) 64 = [] ∧ 4096 ≤ 64 * b.toNat / 65536 ∧ SMap.get u.mem.owner 0 (64 * b.toNat / 65536) = 0)) ∧
    (let u := (chanAt id).arrive {}; u.pageFree 4096 = true ∧ u.mem.dok = true ∧ u.pageFree 0 = false) := by
  refine ⟨?_, ?_, ?_, ?_, ?_, ?_, ?_, ?_⟩
  all_goals decide +kernel
theorem wit_DramInService_channels : ∀ ch : Fin 4, ∃ b : Fin 256, dramCh (64 * (0x400000 + b.val)) = ch.val := by decide +kernel

theorem wit_SramTestedAndRepaired :
    ((ready 0).flipArmed false = false ∧ (ready 0).mem.defects = []) ∧
    (let u := (ready 10000000000).arrive {}; u.mem.win = none ∧ u.phase = .ready ∧
      u.due u.mem.lastWin (u.rf sdCfgAddr 23 8 * qUs) = true ∧ u.mem.repairs = []) ∧
    (let u := (((ready 10000000000).modMem (fun m => { m with repairs := [{}] })).setReg sdCfgAddr 3).arrive {};
      u.mem.repairs.head? = some {} ∧ u.rf sdCfgAddr 0 0 = 1 ∧ u.rf sdCfgAddr 1 1 = 1) ∧
    (let u := ((ready 0).setReg sdCfgAddr 0x100).arrive {}; u.rf sdCfgAddr 0 0 = 0 ∧ u.rf sdCfgAddr 1 1 = 0) ∧
    (let w : TestWin := {}; let u := ((ready 6208).modMem (fun m => { m with win := some w })).arrive {}; u.mem.win = some w ∧
      u.due w.since (1552 * qTick) = true ∧ w.repair = none) ∧
    (let w : TestWin := { since := 1 }; let u := ((ready 6208).modMem (fun m => { m with win := some w })).arrive {};
      u.mem.win = some w ∧ u.due w.since (1552 * qTick) = false) ∧
    (let r : Repair := { op := 2, session := 7 }; let w : TestWin := { repair := some r }
      let u := ((sessAt .maintenance).modMem (fun m => { m with win := some w, repairs := [r] })).arrive {}; u.mem.win = some w ∧
      u.due w.since (1552 * qTick) = true ∧ w.repair = some r ∧ r.op = 2 ∧ u.isOpen r.session = true) := by
  refine ⟨?_, ?_, ?_, ?_, ?_, ?_, ?_⟩
  all_goals decide +kernel
theorem wit_SramTestedAndRepaired_spares :
    4 ≤ ((ready 0).modMem (fun m => { m with spares := [(0, 4)] })).sparesUsed 0 := by
  have h : SMap.get ((ready 0).modMem (fun m => { m with spares := [(0, 4)] })).mem.spares 0 (0 / 8192) = 4 := by decide +kernel
  unfold State.sparesUsed State.macroSpares
  rw [h]
  exact Nat.le_add_left 4 _

theorem wit_DictTestsAndErrorWindows :
    (let u := (ready 50000000000000000).arrive {}; (∀ i : Fin 16, (vget u.eng i).testing = none) ∧ (vget u.eng 2).out = false ∧
      (vget u.eng 2).owner = none ∧ u.due (vget u.eng 2).dictAt (u.rf sdCfgAddr 31 24 * 3600 * 1000 * qMs) = true) ∧
    (let u := ((ready 0).modEng 2 (fun x => { x with testing := some 0, out := true })).arrive {}; (vget u.eng 2).testing.isSome = true) ∧
    (let u := (writerOn (ready 0)).arrive {}; u.phase = .ready ∧ u.writer (.bar0 0) = some 7 ∧ u.isSteward 7 = false) ∧
    (let u := (writerOn (ready 0) .steward).arrive {}; u.isSteward 7 = true) ∧
    (let u := ((ready 5000000).modMem (fun m => { m with
        wSec := vset m.wSec 2 { since := some 0, more := 1 },
        ch := vmod m.ch 3 (fun c => { c with wCe := { since := some 0 } }) })).arrive {}; (vget u.mem.wSec 2).since = some 0 ∧
      u.due 0 qMs = true ∧ (vget u.mem.ch 3).wCe.since = some 0 ∧ (vget u.mem.ch 3).wCe.more = 0) := by
  refine ⟨?_, ?_, ?_, ?_, ?_⟩
  all_goals decide +kernel

/-! ### Time -/

theorem wit_TimeIsSetByHand :
    (let u := (writerOn (ready 0) .steward).arrive {}; let y := u.commitFirst; u.phase = .ready ∧ u.writer (.bar0 0) = some 7 ∧
      u.isSteward 7 = true ∧ y.isSteward 7 = true ∧ y.ptpEN = false ∧ (999999999 : BitVec 32).toNat < 1000000000 ∧
      (y.ses 7).st = .confirmed ∧ (y.ses 7).evq.loss = none ∧ (y.ses 7).evq.held.length < 4095) ∧
    (let u := ((writerOn (ready 0)).setReg ptpAddr 1).arrive {}; let y := u.commitFirst; y.ptpEN = true ∧ y.isSteward 7 = false ∧
      1000000000 ≤ (1000000000 : BitVec 32).toNat) := by
  refine ⟨?_, ?_⟩
  all_goals decide +kernel

/-- PTP is on, with the time base as given. -/
def ptpOn (bits_ : Nat) (f : Tim → Tim) (sec : Nat := 2) : State := ((ready (5000000000 * sec)).setReg ptpAddr ((resetWord ptpAddr ||| wd bits_))).modTim f
/-- A master that has been heard once. -/
def master : PtpMaster := { ident := 5, port := 1, seenAt := 10000000000 }
theorem wit_TimeBase :
    (let u := (ptpOn 1 (fun t => { t with parent := some master })).arrive {}; u.ptpEN = true ∧ u.ptpPORT = 0 ∧ u.phase = .ready ∧
      0 = u.rf ptpAddr 15 8 ∧ u.tim.parent = some master ∧ u.tim.mpdValid = false) ∧
    (let u := (ptpOn 1 (fun t => { t with parent := some master, mpdValid := true, st := .slave }) 20).arrive {};
      u.tim.mpdValid = true ∧ u.tim.st = .slave ∧ (0 : Int).natAbs ≤ u.rf servoAddr 39 24 * 65536 ∧
      (0 : Int).natAbs ≤ u.rf servoAddr 23 8 * 65536000 ∧ u.rf servoAddr 39 24 * 65536 < ((2 ^ 60 : Nat) : Int).natAbs ∧
      u.rf servoAddr 23 8 * 65536000 < ((2 ^ 60 : Nat) : Int).natAbs ∧ bit (u.reg servoAddr) 40 = false ∧
      u.due u.tim.lastSync (u.rf ptpAddr 31 28 * secPow u.tim.syncInt) = true ∧ u.syncComes = false) ∧
    (let u := { ptpOn 1 (fun t => { t with parent := some master, st := .slave }) with
        pending := [.ptpSync {} 0 0 5 1 0 0 0 0, .ptpAnnounce {} 0 0 5 1 [] 0 0 0 false] }.arrive {};
      u.tim.st = .slave ∧ u.syncComes = true ∧ u.annComes = true) ∧
    (let u := (ptpOn 1 (fun t => { t with st := .slave, parent := some master, lastAnn := 0, annInt := -4 })).arrive {};
      u.due u.tim.lastAnn (u.rf ptpAddr 27 24 * secPow u.tim.annInt) = true ∧ u.annComes = false ∧ u.tim.parent.isSome = true) ∧
    (let u := (ptpOn 1 id).arrive {}; u.tim.parent = none) ∧
    (let u := (ptpOn 1 (fun t => { t with reqOut := true, reqSeq := 65535 })).arrive {}; u.tim.reqOut = true ∧ 65535 = u.tim.reqSeq) ∧
    (let u := (ptpOn 1 (fun t => { t with st := .listening, masters := [master] })).arrive {}; u.tim.st = .listening ∧
      u.tim.masters = [master] ∧ master.ident = 5 ∧ master.port = (1 : Fin 65536).val ∧ master.heard = 1 ∧
      u.due master.seenAt (4 * secPow 0) = false) ∧
    (let u := (ptpOn 1 (fun t => { t with st := .listening, masters := [master] }) 6).arrive {};
      u.due master.seenAt (4 * secPow 0) = true ∧ u.now = master.seenAt + 4 * secPow 0) ∧
    (let u := (ptpOn 1 (fun t => { t with st := .slave, parent := some master })).arrive {}; u.tim.st ≠ .disabled ∧
      u.tim.parent.isSome = true ∧ u.tim.reqAt = none) ∧
    (let u := (ptpOn 1 (fun t => { t with st := .slave, parent := some master, reqAt := some 0 }) 600).arrive {};
      u.tim.reqAt = some 0 ∧ u.due 0 (secPow (signedN 8 (u.rf ptpAddr 23 16))) = true) := by
  refine ⟨?_, ?_, ?_, ?_, ?_, ?_, ?_, ⟨?_, ?_, ?_⟩⟩
  all_goals decide +kernel
theorem wit_TimeBase_delay : (ptpOn 1 id).ptpP2P = false ∧ (ptpOn 3 id).ptpP2P = true ∨ (ptpOn 5 id).ptpP2P = true := by
  decide +kernel

/-! ### Power, start-up and reset -/

/-- Feed 2 and its partner as given. -/
def feedAt (x y : Feed) (t : Nat := 1000000000) : State := ((ready t).modFeed 2 (fun _ => x)).modFeed 3 (fun _ => y)
theorem wit_PowerFeeds :
    (let u := (feedAt {} {}).arrive {}; u.phase ≠ .off ∧ (u.feed 2).st = .absent ∧ (u.feed 2).inWin = false ∧
      (u.feed 2).since + 100 * qUs ≤ u.now ∧ otherFeed 2 = 3 ∧ (u.feed 2).sampAt.all (fun t => u.dueFree t (10 * qUs)) = true ∧
      100 * (0 : Nat) ≤ 110 * railMax 1) ∧
    (let u := (feedAt { sampAt := some 999950001 } {}).arrive {};
      (u.feed 2).sampAt.all (fun t => u.dueFree t (10 * qUs)) = false) ∧
    (let u := (feedAt { st := .standby, overAt := some 995000000 } {}).arrive {}; (u.feed 2).overAt = some 995000000 ∧
      995000000 + qMs ≤ u.now ∧ (u.feed 2).st = .standby ∧ 110 * railMax 1 < 100 * 65535) ∧
    (let u := (feedAt { st := .sync, inWin := true } {}).arrive {}; (u.feed 2).st = .sync ∧ (u.feed 2).inWin = true ∧
      (u.feed 2).since + 100 * qMs ≤ u.now) ∧
    (let u := (feedAt { inWin := true } {}).arrive {}; (u.feed 2).inWin = true) ∧
    (let u := ((ready 1000).modPws (fun x => { x with gap := some {} })).arrive {}; u.pws.gap = some {} ∧ ({} : Gap).trip + 1000 ≤ u.now ∧
      u.agenda = []) ∧
    (let u := ((ready 999).modPws (fun x => { x with gap := some {} })).arrive {}; u.pws.gap = some {} ∧ u.now < ({} : Gap).trip + 1000) ∧
    (let u := ((ready 5000000000).modRail 1 (fun x => { x with imbalSince := some 0 })).arrive {};
      (vget u.pws.rails 1).imbalSince = some 0 ∧ 0 + 1000 * qMs ≤ u.now ∧ (vget u.pws.rails 1).imbalPosted = none) := by
  refine ⟨?_, ?_, ?_, ?_, ?_, ?_, ?_, ?_⟩
  all_goals decide +kernel
/-- Rail r of feeds 2·r and 2·r+1 of a device whose rails are STANDBY (1) or SHARED (0) by their mode bits. -/
def railAt (r : Nat) (sb : Bool) (x y : Feed) : State :=
  (((ready 100000000000000000).setReg feedCfgAddr (resetWord feedCfgAddr &&& wd (2 ^ 64 - 128) ||| wd (if sb then 127 else 0))).modFeed (2 * r)
    (fun _ => x)).modFeed (2 * r + 1) (fun _ => y)
/-- The other feed of feed f, as a trip of f finds it. -/
def mate (u : State) (f : Nat) : Feed := (u.feedSync (otherFeed f)).feed (otherFeed f)
theorem wit_PowerFeeds_active :
    (let u := (railAt 1 false { st := .active } { st := .active }).arrive {}; (u.feed 2).st = .active ∧
      (u.feedSync (otherFeed 2)).railStandby 1 = false ∧ (mate u 2).st = .active) ∧
    (let u := (railAt 1 false { st := .active } {}).arrive {}; (u.feed 2).st = .active ∧
      (u.feedSync (otherFeed 2)).railStandby 1 = false ∧ (mate u 2).st ≠ .active) ∧
    (let u := (railAt 1 false { st := .active } { st := .sync, inWin := true }).arrive {}; (mate u 2).st = .standby) ∧
    (let u := (railAt 0 true { st := .active } { st := .standby }).arrive {}; (u.feed 0).st = .active ∧
      (u.feedSync (otherFeed 0)).railStandby 0 = true ∧ (mate u 0).st = .standby ∧ (u.feedSync (otherFeed 0)).pws.gap = none ∧
      (vget u.pws.rails 0).testing = none ∧ u.phase = .ready ∧ u.railStandby 0 = true ∧
      (u.standbyFeed 0).isSome = true ∧ (vget u.pws.rails 0).lastTest + u.rf feedCfgAddr 15 8 * 3600 * 1000 * qMs ≤ u.now) ∧
    (let u := (railAt 0 true { st := .active } {}).arrive {}; (u.feedSync (otherFeed 0)).railStandby 0 = true ∧
      (mate u 0).st ≠ .standby) ∧
    (let u := (railAt 6 false { st := .active } { st := .standby }).arrive {}; (u.feed 12).st = .active ∧
      (u.feedSync (otherFeed 12)).pws.vstRun = none ∧ (mate u 12).st = .standby) ∧
    (let u := ((railAt 0 true { st := .standby } { st := .active }).modRail 0 (fun x => { x with testing := some 0 })).arrive {};
      (vget u.pws.rails 0).testing = some 0 ∧ u.standbyFeed 0 = some 0 ∧ 0 + 10 * qMs ≤ u.now ∧ u.tripComes 0 = false) := by
  refine ⟨?_, ?_, ?_, ?_, ?_, ?_, ?_⟩
  all_goals decide +kernel

theorem wit_FeedControl :
    (let u := (writerOn (ready 0)).arrive {}; u.phase = .ready ∧ u.writer (.bar0 0) = some 7 ∧ u.isSteward 7 = false) ∧
    (let u := (writerOn (railAt 1 false { st := .standby } { st := .active }) .steward).arrive {}; u.isSteward 7 = true ∧
      u.railStandby 1 = false ∧ u.standbyFeed 1 = some 2) ∧
    (let u := (writerOn (railAt 0 true {} {}) .steward).arrive {}; u.isSteward 7 = true ∧ u.railStandby 0 = true) ∧
    (let u := ({ writerOn (railAt 6 false { st := .active } { st := .standby }) .steward with fire := { safeIn := true } }).arrive {};
      (u.fire.safeIn && u.fire.hven.toList.all (· == false) && u.seq.toList.all (fun q => q.swst == SwSt.closed) &&
        u.ax.toList.all (fun x => !x.moving) && (u.feed (otherFeed (12 + u.pws.safeFeed))).st == .standby &&
        u.pws.vstRun.isNone) = true ∧ u.pws.safeFeed < 2) ∧
    (let u := ((railAt 6 false { st := .standby } { st := .active }).modPws (fun x => { x with vstRun := some 0, safeFeed := 1 })).arrive {};
      u.pws.vstRun = some 0 ∧ u.pws.safeFeed < 2 ∧ (u.feed (otherFeed (12 + u.pws.safeFeed))).st = .standby ∧
      0 + 10000 * qMs ≤ u.now) ∧
    (let u := ((ready 49999999999).modPws (fun x => { x with vstRun := some 0 })).arrive {}; u.now < 0 + 10000 * qMs ∧
      u.pws.vstRun = some 0 ∧ (u.feed (otherFeed (12 + u.pws.safeFeed))).st ≠ .standby) := by
  refine ⟨?_, ?_, ?_, ?_, ?_, ?_⟩
  all_goals decide +kernel

/-- Sixteen equal readings, as the sensors' trim leaves them. -/
def dies (u : State) (t : Int) : List Int := (Vector.replicate 16 t).toList.map (· + u.cal.dtTrim)
/-- The greatest of them. -/
def hottest (u : State) (t : Int) : Int := (dies u t).foldl max ((dies u t).headD 0)
theorem wit_DeviceWideCauses :
    (let u := (ready 0).arrive {}; u.phase = .ready ∧ u.safe.vsafe = false ∧ u.safe.refclk = false ∧ u.pws.trip = false ∧
      u.safe.mgmt = false ∧ u.safe.dieHot = false ∧ u.pws.warnOn = false ∧ (∀ q : Fin 16, (u.ctxOf q (u.ectx q)).st ≠ .armed) ∧
      16 * (u.rf thCfgAddr 15 8 : Int) ≤ hottest u 2000 ∧ hottest u 400 < 16 * (u.rf thCfgAddr 15 8 : Int) ∧
      u.pws.dieAt.all (fun t => u.due t qMs) = true ∧ u.pws.boardAt.all (fun t => u.due t (10 * qMs)) = true) ∧
    (let u := ((ready 4999999).modPws (fun x => { x with dieAt := some 0, boardAt := some 0 })).arrive {};
      u.pws.dieAt.all (fun t => u.due t qMs) = false ∧ u.pws.boardAt.all (fun t => u.due t (10 * qMs)) = false) ∧
    (let u := ((ready 0).setReg thCfgAddr 0x321640).arrive {}; u.rf thCfgAddr 23 16 ≠ 255 ∧ vget u.pws.bWarn 0 = false) ∧
    (let u := ((ready 0).setReg thCfgAddr 0xFF1640).arrive {}; u.rf thCfgAddr 23 16 = 255) ∧
    (let u := (((ready 50000000).modSafe (fun x => { x with vsafe := true, refclk := true, dieHot := true })).modFeed 12
        (fun x => { x with inWin := true })).arrive {}; u.phase = .ready ∧ u.safe.vsafe = true ∧ (u.feed 12).inWin = true ∧
      (u.feed 12).since + 10 * qMs ≤ u.now ∧ u.safe.refclk = true ∧ u.safe.dieHot = true ∧
      hottest u 400 < 16 * (u.rf thCfgAddr 15 8 : Int) - 80 ∧ 16 * (u.rf thCfgAddr 15 8 : Int) - 80 ≤ hottest u 2000) ∧
    (let u := ((ready 0).modSafe (fun x => { x with mgmtDown := some 0 })).arrive {}; u.safe.mgmtDown.isSome = true ∧
      u.safe.mgmt = false) := by
  refine ⟨?_, ?_, ?_, ?_, ?_, ?_⟩
  all_goals decide +kernel
/-- A sweep that passes at the 101 settings from 78 on. -/
def goodSweep : BitVec 256 := BitVec.ofNat 256 ((2 ^ 101 - 1) * 2 ^ 78)
theorem wit_StartUpAndResets :
    (let u := State.reset.arrive {}; u.phase = .cold ∧ u.pws.step = 0 ∧
      bootBank u.pws.fwSel u.pws.fwMin (Vector.replicate 2 false) (Vector.replicate 2 0) = none ∧
      bootBank u.pws.fwSel u.pws.fwMin (Vector.replicate 2 true) (Vector.replicate 2 0) = some 0 ∧ dramSupported 0 0 = false ∧
      dramSupported 16 6400 = true ∧ (∀ i : Fin 40, bit (laneResult (bits (resetWord chCfgAddr) 30 24)
        ((List.replicate 40 (goodSweep, goodSweep)).getD i (0, 0))) 32 = true)) ∧
    (let u := (ready 0).arrive {}; u.phase = .ready) ∧
    (let u := (State.reset.modPws (fun x => { x with step := 11 })).arrive {}; u.phase = .cold ∧ u.pws.step = 11) ∧
    (let u := { ready 0 with phase := .warm }.arrive {}; u.phase = .warm) := by
  refine ⟨?_, ?_, ?_, ?_⟩
  all_goals decide +kernel
theorem test_warm_reset_drops_all : let t := after (.warmReset {} true []) { axAt (fun x => { x with st := .cruise, pos := 9 }) with
      fire := { hven := Vector.replicate 8 true } }
    t.fire.hven = Vector.replicate 8 false ∧ (vget t.ax 2).st = .held ∧ (vget t.ax 2).pos = 9 ∧ (t.ses 7).st = .free := by
  decide +kernel

end Sys2Proof.Tests
end

section
/-! The encoder channels (05 R140-R147, R154, R163): what a sample of A and B, or of Z, does to its channel, and that it
touches nothing of the block besides the agenda and the records it posts. -/
namespace Sys2Proof.Machine
open Sys2Proof

/-! ## What a channel's sample can touch -/

/-- From s to t channel c changed, something was put on its way and records were posted, and nothing else happened. -/
def ChannelOnly (c : Nat) (s t : State) : Prop :=
  t = { s with enc := t.enc, agenda := t.agenda, sess := t.sess, msix := t.msix, out := t.out } ∧
  ∀ i, i ≠ c → vget t.enc i = vget s.enc i

namespace ChannelOnly
variable {c : Nat} {s t u : State}

theorem trans (h : ChannelOnly c s t) (h' : ChannelOnly c t u) : ChannelOnly c s u := by
  obtain ⟨hst, hi⟩ := h
  obtain ⟨htu, hj⟩ := h'
  refine ⟨?_, fun i ne => (hj i ne).trans (hi i ne)⟩
  rw [htu, hst]

theorem of_posts (h : Posts s t) : ChannelOnly c s t := by
  refine ⟨?_, fun i _ => by rw [h.enc]⟩
  rw [h.eq]

theorem modEnc (s : State) (c : Nat) (f : Enc → Enc) : ChannelOnly c s (s.modEnc c f) :=
  ⟨rfl, fun i ne => vget_vmod_ne s.enc c i f ne.symm⟩

theorem toLclk (s : State) (c bits : Nat) (qerr doubt wrap : Bool) (smp : Option Sample) :
    ChannelOnly c s (s.toLclk c bits qerr doubt wrap smp) := ⟨rfl, fun _ _ => rfl⟩

theorem other (h : ChannelOnly c s t) {i : Nat} (ne : i ≠ c) : vget t.enc i = vget s.enc i := h.2 i ne
theorem str (h : ChannelOnly c s t) : t.str = s.str := (congrArg State.str h.1).trans rfl
theorem mem (h : ChannelOnly c s t) : t.mem = s.mem := (congrArg State.mem h.1).trans rfl
theorem ax (h : ChannelOnly c s t) : t.ax = s.ax := (congrArg State.ax h.1).trans rfl
theorem mgt (h : ChannelOnly c s t) : t.mgt = s.mgt := (congrArg State.mgt h.1).trans rfl
theorem safe (h : ChannelOnly c s t) : t.safe = s.safe := (congrArg State.safe h.1).trans rfl

end ChannelOnly

theorem State.postEnc_posts (s : State) (c code : Nat) (detail : Word) (flags : Nat) :
    Posts s (s.postEnc c code detail flags) := by
  unfold State.postEnc
  split
  · exact s.postSteward_posts _
  · exact Posts.each (fun u q => u.postUnit_posts _ _) _ (Posts.refl s)

@[simp] theorem State.postEnc_enc (s : State) (c code : Nat) (detail : Word) (flags : Nat) :
    (s.postEnc c code detail flags).enc = s.enc := (s.postEnc_posts c code detail flags).enc

@[simp] theorem State.toLclk_enc (s : State) (c bits : Nat) (qerr doubt wrap : Bool) (smp : Option Sample) :
    (s.toLclk c bits qerr doubt wrap smp).enc = s.enc := rfl

@[simp] theorem State.after_enc (s : State) (t : Nat) (d : Due) : (s.after t d).enc = s.enc := rfl

@[simp] theorem State.modEnc_stepEdge (s : State) (c : Nat) (f : Enc → Enc) (k : Nat) :
    (s.modEnc c f).stepEdge k = s.stepEdge k := rfl

/-! ## Counted edges (05 R145, R147) -/

/-- The distance of a count past the extreme, in the channel's direction (05 R145). -/
def Enc.pastExt (x : Enc) (c : Int) : Int := if x.back then -wrapN 48 (c - x.ext) else wrapN 48 (c - x.ext)

theorem Enc.edge_of_beyond {x : Enc} {c : Int} (h : 0 < x.pastExt c) (t : Nat) (frame : Bool) :
    x.edge c t frame =
      { x with
        count := c, ext := c, lastAdv := some t, lastAdvCount := c,
        st := if x.st = .still then .starting else .moving,
        period := if x.st = .still then x.period
          else (t - x.lastAdv.getD t) / 5 / (if frame then max 1 (wrapN 48 (c - x.lastAdvCount)).natAbs else 1) } := by
  unfold Enc.pastExt at h
  simp [Enc.edge, h]

theorem Enc.edge_of_behind {x : Enc} {c : Int} (h : x.pastExt c ≤ -2) (t : Nat) (frame : Bool) :
    x.edge c t frame =
      { x with
        count := c, revPos := x.ext, back := !x.back, ext := c, st := .starting,
        lastAdv := some t, lastAdvCount := c } := by
  have h0 : ¬ 0 < x.pastExt c := by omega
  unfold Enc.pastExt at h h0
  simp only [Enc.edge, if_neg h0, if_pos h]

theorem Enc.edge_of_jitter {x : Enc} {c : Int} (h : x.pastExt c = 0 ∨ x.pastExt c = -1) (t : Nat) (frame : Bool) :
    x.edge c t frame = { x with count := c } := by
  have h0 : ¬ 0 < x.pastExt c := by omega
  have h2 : ¬ x.pastExt c ≤ -2 := by omega
  unfold Enc.pastExt at h0 h2
  simp only [Enc.edge, if_neg h0, if_neg h2]

/-- Whatever an edge is to its channel, the count is what it leaves. -/
@[simp] theorem Enc.edge_count (x : Enc) (c : Int) (t : Nat) (frame : Bool) : (x.edge c t frame).count = c := by
  rcases (by omega : 0 < x.pastExt c ∨ x.pastExt c ≤ -2 ∨ x.pastExt c = 0 ∨ x.pastExt c = -1) with h | h | h
  · rw [Enc.edge_of_beyond h]
  · rw [Enc.edge_of_behind h]
  · rw [Enc.edge_of_jitter h]

theorem State.encMove_channel (s : State) (c : Fin 4) (k : Int) (t : Nat) (frame : Bool) :
    vget (s.encMove c k t frame).enc c = (vget s.enc c).edge (wrapN 48 ((vget s.enc c).count + k)) t frame := by
  unfold State.encMove State.when
  dsimp only
  split <;> simp [vget_vmod_fin]

theorem State.encMove_only (s : State) (c : Nat) (k : Int) (t : Nat) (frame : Bool) :
    ChannelOnly c s (s.encMove c k t frame) :=
  ((ChannelOnly.modEnc s c _).trans
    (.of_posts (Posts.when (Posts.refl _) fun u => u.postEnc_posts c 0x0703 _ 0))).trans (.toLclk _ _ _ _ _ _ _)

/-! ## Double transitions (05 R143) -/

@[simp] theorem State.qerrHit_channel (s : State) (c : Fin 4) :
    vget (s.qerrHit c).enc c = { vget s.enc c with qerr := satAdd 32 (vget s.enc c).qerr 1 } := by
  simp [State.qerrHit, vget_vmod_fin]

theorem State.qerrHit_only (s : State) (c : Nat) : ChannelOnly c s (s.qerrHit c) :=
  (ChannelOnly.modEnc s c _).trans (.toLclk _ _ _ _ _ _ _)

/-- A double transition raises QERRTOT and opens the PHASE window or counts in it. -/
theorem State.phase701_channel (s : State) (c : Fin 4) : ∃ (a : Option Nat) (n : Nat),
    vget (s.phase701 c).enc c =
      { vget s.enc c with qerr := satAdd 32 (vget s.enc c).qerr 1, phaseAt := a, phaseMore := n } := by
  unfold State.phase701
  dsimp only
  split
  · exact ⟨some (s.qerrHit c).now, 0, by simp [vget_vmod_fin]⟩
  · exact ⟨(vget s.enc c).phaseAt, (vget s.enc c).phaseMore + 1, by simp [vget_vmod_fin]⟩

theorem State.phase701_only (s : State) (c : Nat) : ChannelOnly c s (s.phase701 c) := by
  unfold State.phase701
  dsimp only
  split
  · exact (s.qerrHit_only c).trans ((ChannelOnly.modEnc _ c _).trans (.of_posts (State.postEnc_posts _ _ _ _ _)))
  · exact (s.qerrHit_only c).trans (ChannelOnly.modEnc _ c _)

/-! ## A sample of A and B (05 R140-R143) -/

/-- How far a sample lies from the one before it in the forward order 00, 10, 11, 01. -/
def Enc.turn (x : Enc) (a b : Bool) : Nat := (quadIndex a b + 4 - x.ab) % 4

theorem State.encSample_deaf {s : State} {c : Nat} (h : s.islandUp = false ∨ s.encSsi c = true ∨ (vget s.enc c).los = true)
    (a b : Bool) : s.encSample c a b = s := by
  rcases h with h | h | h <;> simp [State.encSample, h]

theorem State.encSample_only (s : State) (c : Nat) (a b : Bool) : ChannelOnly c s (s.encSample c a b) := by
  unfold State.encSample
  dsimp only
  split
  · exact .of_posts (Posts.refl s)
  · have hab := ChannelOnly.modEnc s c (fun x => { x with ab := quadIndex a b })
    split
    · exact hab
    · exact hab.trans (State.phase701_only _ c)
    · exact hab.trans (State.encMove_only _ c _ _ _)

section
variable {s : State} {c : Nat} {a b : Bool} (hup : s.islandUp = true) (hssi : s.encSsi c = false)
  (hlos : (vget s.enc c).los = false)
include hup hssi hlos

theorem State.encSample_same (h : (vget s.enc c).turn a b = 0) :
    s.encSample c a b = s.modEnc c (fun x => { x with ab := quadIndex a b }) := by
  unfold Enc.turn at h
  simp [State.encSample, hup, hssi, hlos, h]

theorem State.encSample_double (h : (vget s.enc c).turn a b = 2) :
    s.encSample c a b = (s.modEnc c (fun x => { x with ab := quadIndex a b })).phase701 c := by
  unfold Enc.turn at h
  simp [State.encSample, hup, hssi, hlos, h]

theorem State.encSample_step (h : (vget s.enc c).turn a b = 1 ∨ (vget s.enc c).turn a b = 3) :
    s.encSample c a b = (s.modEnc c (fun x => { x with ab := quadIndex a b })).encMove c
      (if ((vget s.enc c).turn a b == 1) = s.encInv c then -1 else 1) (s.now - 28) false := by
  have hinv : (s.modEnc c (fun x => { x with ab := quadIndex a b })).encInv c = s.encInv c := rfl
  unfold Enc.turn at h ⊢
  rcases h with h | h <;> simp [State.encSample, hup, hssi, hlos, h, hinv, sampleTicks, qTick]

end

section
variable {s : State} {c : Fin 4} {a b : Bool} (hup : s.islandUp = true) (hssi : s.encSsi c = false)
  (hlos : (vget s.enc c).los = false)
include hup hssi hlos

/-- A step of one moves the count by one, with INV the other way. -/
theorem State.encSample_step_channel (h : (vget s.enc c).turn a b = 1 ∨ (vget s.enc c).turn a b = 3) :
    vget (s.encSample c a b).enc c = ({ vget s.enc c with ab := quadIndex a b } : Enc).edge (wrapN 48
      ((vget s.enc c).count + (if ((vget s.enc c).turn a b == 1) = s.encInv c then -1 else 1))) (s.now - 28) false := by
  rw [State.encSample_step hup hssi hlos h, State.encMove_channel]
  simp [vget_vmod_fin]

/-- A double transition raises QERRTOT, and the count stays. -/
theorem State.encSample_double_channel (h : (vget s.enc c).turn a b = 2) : ∃ (p : Option Nat) (n : Nat),
    vget (s.encSample c a b).enc c = { vget s.enc c with
      ab := quadIndex a b, qerr := satAdd 32 (vget s.enc c).qerr 1, phaseAt := p, phaseMore := n } := by
  rw [State.encSample_double hup hssi hlos h]
  obtain ⟨p, n, hx⟩ := (s.modEnc c (fun x => { x with ab := quadIndex a b })).phase701_channel c
  exact ⟨p, n, by simpa [vget_vmod_fin] using hx⟩

end

/-! ## A sample of Z (05 R154) -/

theorem State.zSample_down {s : State} (h : s.islandUp = false) (c : Nat) (z : Bool) : s.zSample c z = s := by
  simp [State.zSample, h]

theorem State.zSample_no_rise {s : State} {c : Nat} {z : Bool} (hup : s.islandUp = true)
    (h : z = false ∨ (vget s.enc c).z = true ∨ s.encSsi c = true) :
    s.zSample c z = s.modEnc c (fun x => { x with z := z }) := by
  rcases h with h | h | h <;> simp [State.zSample, hup, h]

/-- A channel whose Z has risen: with ZEN its count is latched. -/
def Enc.zRisen (x : Enc) (zen : Bool) : Enc := { x with z := true, zLatch := if zen = true then x.count else x.zLatch }

theorem State.zSample_rise {s : State} {c : Fin 4} (hup : s.islandUp = true) (hz : (vget s.enc c).z = false)
    (hssi : s.encSsi c = false) :
    s.zSample c true = ((s.modEnc c (fun x => x.zRisen (s.encZen c))).after (s.now + 20) (.seen c
      ((vget s.enc c).zRisen (s.encZen c)).toEncVal 0 false false false none)).after (s.stepEdge 2) (.zedge c) := by
  have h : ((s.modEnc c (fun x => x.zRisen (s.encZen c))).toLclk c) = (s.modEnc c (fun x => x.zRisen (s.encZen c))).after
      (s.now + 20) (.seen c ((vget s.enc c).zRisen (s.encZen c)).toEncVal 0 false false false none) := by
    simp [State.toLclk, qTick, vget_vmod_fin]
  rw [← h]
  simp [State.zSample, hup, hz, hssi, Enc.zRisen]

/-- The index pulse never changes the count. -/
theorem State.zSample_count (s : State) (c : Fin 4) (z : Bool) :
    (vget (s.zSample c z).enc c).count = (vget s.enc c).count := by
  by_cases hup : s.islandUp = true
  · by_cases h : z = false ∨ (vget s.enc c).z = true ∨ s.encSsi c = true
    · rw [State.zSample_no_rise hup h]
      simp [vget_vmod_fin]
    · simp only [not_or, Bool.not_eq_false, Bool.not_eq_true] at h
      obtain ⟨rfl, hlow, hssi⟩ := h
      rw [State.zSample_rise hup hlow hssi]
      simp [vget_vmod_fin, Enc.zRisen]
  · rw [State.zSample_down (by simpa using hup)]

/-- Settles O18: a sample of Z without power, without a rise (or in SSI mode), and with one. -/
theorem zEdgeLatchesTheCount : Obligations.ZEdgeLatchesTheCount := by
  unfold Obligations.ZEdgeLatchesTheCount
  refine ⟨?_, ?_⟩
  · rintro e s u c z rfl
    rfl
  · rintro u t c z x y rfl rfl rfl
    refine ⟨fun hdown => State.zSample_down hdown c z, fun hup h => ?_, fun hup hz hlow hssi => ?_, u.zSample_count c z⟩
    · exact State.zSample_no_rise hup h
    · subst hz
      exact State.zSample_rise hup hlow hssi

/-- Settles O17: what a sample of A and B is to its channel by how far it turned, and the three cases of a counted edge
by its distance past the extreme. -/
theorem encoderEdges : Obligations.EncoderEdges := by
  unfold Obligations.EncoderEdges
  refine ⟨⟨fun e s c a b => rfl, ?_⟩, ?_, ?_⟩
  · rintro u t c a b x d rfl rfl rfl
    have only : ChannelOnly c u (u.happen (.pins c a b)) := u.encSample_only c a b
    have others : ∀ i : Fin 4, i ≠ c → vget (u.happen (.pins c a b)).enc i = vget u.enc i :=
      fun i ne => only.other (Fin.val_ne_of_ne ne)
    refine ⟨fun h => State.encSample_deaf h a b, fun hup hssi hlos => ⟨fun h => ?_, fun h => ?_, fun h => ?_⟩⟩
    · exact State.encSample_same hup hssi hlos h
    · have edge := State.encSample_step_channel hup hssi hlos h
      exact ⟨edge, edge ▸ Enc.edge_count _ _ _ _, others, only.str, only.mem, only.ax, only.mgt, only.safe⟩
    · obtain ⟨p, n, hx⟩ := State.encSample_double_channel hup hssi hlos h
      exact ⟨congrArg (·.count) hx, congrArg (·.back) hx, congrArg (·.period) hx, congrArg (·.qerr) hx,
        congrArg (·.ab) hx, others, only.str, only.ax, only.mgt⟩
  · rintro x c t d fr rfl
    refine ⟨x.edge_count c t fr, fun h => ?_, fun h => ?_, fun h => x.edge_of_jitter h t fr⟩
    · simp [x.edge_of_beyond h]
    · simp [x.edge_of_behind h]
  · intro c
    have h : vget State.reset.enc c = {} := vget_replicate 4 _ c c.isLt
    rw [h]
    exact ⟨rfl, rfl⟩

end Sys2Proof.Machine
end

section
/-! Device time set by hand (14 R432): what a write of TIM.SETSEC or TIM.SETNS does, what a step of device time touches, and
that a record posted to a session with room in its queue is held there. -/
namespace Sys2Proof.Machine
open Sys2Proof

/-! ## Queues with room (17 R488) -/

/-- The queue takes the next record: it owes no GAP, and a slot is free. -/
def EvQueue.HasRoom (q : EvQueue) : Prop := q.loss = none ∧ q.held.length < 4095

namespace EvQueue

theorem settle_of_no_loss {q : EvQueue} (h : q.loss = none) : q.settle = q := by
  simp [settle, h]

theorem push_of_hasRoom {q : EvQueue} (h : q.HasRoom) (r : EvRec) :
    q.push r = { q with held := q.held ++ [r], fresh := q.fresh + 1 } := by
  obtain ⟨hloss, hlen⟩ := h
  simp [push, settle_of_no_loss, hloss, hlen]

theorem moveRd_hasRoom {q : EvQueue} (h : q.HasRoom) (i : Nat) : (q.moveRd i).HasRoom := by
  obtain ⟨hloss, hlen⟩ := h
  unfold moveRd
  dsimp only
  split
  · exact ⟨hloss, hlen⟩
  · rw [settle_of_no_loss]
    · refine ⟨hloss, ?_⟩
      simp only [List.length_drop]
      omega
    · exact hloss

end EvQueue

/-! ## Sessions as records are posted to them -/

theorem vget_map {α β : Type} [Inhabited α] [Inhabited β] {n : Nat} (v : Vector α n) (f : α → β) (i : Nat) (h : i < n) :
    vget (v.map f) i = f (vget v i) := by
  simp [vget, h]

/-- A session that is CONFIRMED is one of the 256. -/
theorem State.lt_of_confirmed {s : State} {n : Nat} (h : (s.ses n).st = .confirmed) : n < 256 := by
  by_cases hn : n < 256
  · exact hn
  · simp only [State.ses, vget, hn, dite_false] at h
    exact absurd h (by decide)

@[simp] theorem State.raise_sess (s : State) (f v : Nat) : (s.raise f v).sess = s.sess := by
  unfold State.raise
  dsimp only
  (repeat' split) <;> rfl

@[simp] theorem State.raiseSess_sess (s : State) (n k : Nat) : (s.raiseSess n k).sess = s.sess := by
  unfold State.raiseSess
  split
  · rfl
  · exact s.raise_sess _ _

theorem State.when_sess {f : State → State} (hf : ∀ u, (f u).sess = u.sess) (s : State) (b : Bool) :
    (s.when b f).sess = s.sess := by
  cases b
  · rfl
  · exact hf s

/-- The vectors that a changed queue raises change no session. -/
@[simp] theorem State.setEvq_sess (s : State) (n : Nat) (q : EvQueue) :
    (s.setEvq n q).sess = vmod s.sess n (fun x => { x with evq := q }) := by
  unfold State.setEvq
  dsimp only
  rw [State.when_sess (fun u => u.raiseSess_sess n 3), State.when_sess (fun u => u.raiseSess_sess n 1)]
  rfl

theorem State.setEvq_ses (s : State) {n : Nat} (hn : n < 256) (q : EvQueue) :
    (s.setEvq n q).ses n = { s.ses n with evq := q } := by
  simp [State.ses, vget_vmod, hn]

/-- The reads of a session's queue in the same instant make room only. -/
theorem State.rdFirst_hasRoom {s : State} {n : Nat} (hn : n < 256) (h : (s.ses n).evq.HasRoom) :
    ((s.rdFirst n).ses n).evq.HasRoom := by
  have moved : ∀ {u : State}, (u.ses n).evq.HasRoom → ∀ i, ((u.setEvq n ((u.ses n).evq.moveRd i)).ses n).evq.HasRoom := by
    intro u hu i
    rw [State.setEvq_ses u hn]
    exact EvQueue.moveRd_hasRoom hu i
  unfold State.rdFirst State.each
  refine List.foldlRecOn (motive := fun u : State => (u.ses n).evq.HasRoom) _ _ h fun u hu c _ => ?_
  split
  · split
    · exact moved hu _
    · exact hu
  · split
    · split
      · exact moved hu _
      · exact hu
    · exact hu
  · exact hu

/-- A record posted to a CONFIRMED session with room in its queue is held there. -/
theorem State.mem_postTo {s : State} {n : Nat} (hst : (s.ses n).st = .confirmed) (h : (s.ses n).evq.HasRoom) (r : EvRec) :
    r ∈ ((s.postTo n r).ses n).evq.held := by
  have hn := State.lt_of_confirmed hst
  have held : ∀ {u : State}, (u.ses n).evq.HasRoom → r ∈ ((u.setEvq n ((u.ses n).evq.push r)).ses n).evq.held := by
    intro u hu
    simp [State.setEvq_ses u hn, EvQueue.push_of_hasRoom hu]
  unfold State.postTo State.when
  simp only [hst, beq_self_eq_true, Bool.or_true, if_true]
  split
  · exact held (State.rdFirst_hasRoom hn h)
  · exact held h

/-! ## A step of device time (14 R422, R434) -/

/-- A session whose queue's records are stamped anew. -/
theorem State.restampTick_ses (s : State) (old : Word) {n : Nat} (hn : n < 256) : ∃ l : List EvRec,
    l.length = (s.ses n).evq.held.length ∧
    (s.restampTick old).ses n = { s.ses n with evq := { (s.ses n).evq with held := l } } := by
  refine ⟨_, ?_, vget_map s.sess _ n hn⟩
  simp [State.ses]

/-- Device time and the count of its steps, as a step by d leaves them. -/
def Tim.stepped (t : Tim) (d : Int) : Tim :=
  { t with t := ((t.t : Int) + d * uFrac).toNat, steps := satAdd 16 t.steps 1 }

/-- The block with device time stepped by d, before the record of the step. -/
def State.clockStepped (s : State) (d : Int) : State := (s.modTim (·.stepped d)).restampTick s.stamp

/-- A step that session n asks for changes the clock and posts its record to n. -/
theorem State.stepTime_some (s : State) (d : Int) (n : Nat) :
    s.stepTime d (some n) = (s.clockStepped d).postTo n ((s.clockStepped d).ev 2 0x0C01 0 none (wdI d)) := rfl

theorem State.clockStepped_ses (s : State) (d : Int) {n : Nat} (hn : n < 256) : ∃ l : List EvRec,
    l.length = (s.ses n).evq.held.length ∧
    (s.clockStepped d).ses n = { s.ses n with evq := { (s.ses n).evq with held := l } } :=
  (s.modTim (·.stepped d)).restampTick_ses s.stamp hn

/-- From s to t the time base became b, records were stamped or posted, and nothing else happened. -/
def TimeOnly (b : Tim) (s t : State) : Prop := t = { s with tim := b, sess := t.sess, msix := t.msix, out := t.out }

namespace TimeOnly
variable {b : Tim} {s t : State}

theorem modTim (h : TimeOnly b s t) (f : Tim → Tim) : TimeOnly (f b) s (t.modTim f) := by
  unfold TimeOnly at h ⊢
  rw [h]
  rfl

theorem tim (h : TimeOnly b s t) : t.tim = b := (congrArg State.tim h).trans rfl
theorem now (h : TimeOnly b s t) : t.now = s.now := (congrArg State.now h).trans rfl
theorem ticks (h : TimeOnly b s t) : t.ticks = s.ticks := (congrArg State.ticks h).trans rfl
theorem ctx (h : TimeOnly b s t) : t.ctx = s.ctx := (congrArg State.ctx h).trans rfl
theorem seq (h : TimeOnly b s t) : t.seq = s.seq := (congrArg State.seq h).trans rfl
theorem enc (h : TimeOnly b s t) : t.enc = s.enc := (congrArg State.enc h).trans rfl
theorem mgt (h : TimeOnly b s t) : t.mgt = s.mgt := (congrArg State.mgt h).trans rfl

end TimeOnly

theorem State.stepTime_only (s : State) (d : Int) (n : Nat) : TimeOnly (s.tim.stepped d) s (s.stepTime d (some n)) := by
  unfold TimeOnly
  rw [State.stepTime_some, (State.postTo_posts _ n _).eq]
  rfl

/-- The session that asked for a step, where its queue has room, holds the record of it. -/
theorem State.stepTime_posts {s : State} {n : Nat} (hst : (s.ses n).st = .confirmed) (hroom : (s.ses n).evq.HasRoom) (d : Int) :
    ∃ r ∈ ((s.stepTime d (some n)).ses n).evq.held, r.error = 0x0C01 ∧ r.detail = wdI d := by
  obtain ⟨l, hlen, hses⟩ := s.clockStepped_ses d (State.lt_of_confirmed hst)
  obtain ⟨hloss, hfree⟩ := hroom
  have room : ((s.clockStepped d).ses n).evq.HasRoom := by
    rw [hses]
    exact ⟨hloss, hlen ▸ hfree⟩
  have confirmed : ((s.clockStepped d).ses n).st = .confirmed := by
    rw [hses]
    exact hst
  rw [State.stepTime_some]
  exact ⟨_, State.mem_postTo confirmed room _, rfl, rfl⟩

/-! ## The writes (14 R432; 11 R331) -/

theorem State.asWriter_of_ready {s : State} {w : Writer} {n : Nat} (hr : s.phase = .ready) (hw : s.writer w = some n)
    (op : State → Nat → State × Nat) : s.asWriter w false op = (op s n).1 := by
  simp [State.asWriter, hr, hw]

theorem bits_wd_of_word32 (x : BitVec 32) : bits (wd x.toNat) 31 0 = x.toNat := by
  have := x.isLt
  simp only [bits, bitsN, wd, BitVec.toNat_ofNat, Nat.shiftRight_zero]
  omega

theorem regAt_setSec : regAt 0x05000060 = some (rowRW "TIM.SETSEC" 0x05000060 0xFFFFFFFFFFFF) := by decide +kernel

theorem State.wrSetSec_of_steward {s : State} {n : Nat} (h : s.isSteward n = true) (v : Word) :
    s.wrSetSec n v = (s.modTim (fun t => { t with setSec := bits v 47 0 }), 0) := by
  simp [State.wrSetSec, State.ifRight, h]

theorem State.writeWord_setSec (s : State) (n : Nat) (v : Word) :
    s.writeWord n 0x05000060 all64 v.toNat true false = s.wrSetSec n v := by
  have hv : wd v.toNat = v := by simp [wd]
  simp [State.writeWord, regAt_setSec, rowRW, critReg, State.writeReg, hv]

theorem State.wrSetNs_refused {s : State} {n : Nat} {v : Word}
    (h : s.ptpEN = true ∨ 1000000000 ≤ bits v 31 0 ∨ s.isSteward n = false) : (s.wrSetNs n v).1 = s.postErr n 0x0C06 0 := by
  have hc : (s.ptpEN || decide (1000000000 ≤ bits v 31 0) || !s.isSteward n) = true := by
    simpa [or_assoc] using h
  simp [State.wrSetNs, State.refuse, hc]

/-- Accepted, the write steps device time to k, in 2^−16 ns, the instant that SETSEC and the nanoseconds name. -/
theorem State.wrSetNs_accepted {s : State} {n : Nat} {v : Word} (hptp : s.ptpEN = false) (hns : bits v 31 0 < 1000000000)
    (hst : s.isSteward n = true) {k : Nat} (hk : (s.tim.setSec * 1000000000 + bits v 31 0) * 65536 = k) :
    (s.wrSetNs n v).1 =
      (s.stepTime ((k : Int) - s.devF) (some n)).modTim (fun t => { t with t := k * uFrac }) := by
  have hc : (s.ptpEN || decide (1000000000 ≤ bits v 31 0) || !s.isSteward n) = false := by
    simp [hptp, hst, hns]
  subst hk
  simp [State.wrSetNs, hc]

theorem exec_timeSet_of_ready {e : Env} {s u : State} {w : Writer} {n : Nat} (hu : u = s.arrive e) (hr : u.phase = .ready)
    (hw : u.writer w = some n) (ns : BitVec 32) :
    exec (.timeSet e w ns) s = .next (u.commitFirst.wrSetNs n (wd ns.toNat)).1 := by
  rw [exec_timeSet, execTimeSet, ← hu, State.asWriter_of_ready hr hw]

/-- Settles O55: SETSEC keeps the second; SETNS is refused with one record, or is a step to SETSEC : SETNS. -/
theorem timeIsSetByHand : Obligations.TimeIsSetByHand := by
  unfold Obligations.TimeIsSetByHand
  intro e s u y w n ns hu hready hw hy
  have hbits := bits_wd_of_word32 ns
  rw [exec_timeSet_of_ready hu hready hw, ← hy]
  refine ⟨fun hst v => ?_, fun h => ?_, fun hptp hns hst => ⟨_, rfl, ?_⟩⟩
  · rw [State.writeWord_setSec, State.wrSetSec_of_steward hst]
  · rw [State.wrSetNs_refused (hbits.symm ▸ h)]
  · -- `k` stays opaque: unification would otherwise compute with the literals of the product.
    obtain ⟨k, hk⟩ : ∃ k, (y.tim.setSec * 1000000000 + ns.toNat) * 65536 = k := ⟨_, rfl⟩
    rw [hk]
    rw [State.wrSetNs_accepted hptp (hbits.symm ▸ hns) hst (hbits.symm ▸ hk)]
    have only := (y.stepTime_only ((k : Int) - y.devF) n).modTim (fun t => { t with t := k * uFrac })
    refine ⟨congrArg Tim.t only.tim, congrArg Tim.steps only.tim, (congrArg Tim.rate only.tim).trans rfl,
      (congrArg Tim.setSec only.tim).trans rfl, only.now, only.ticks, only.ctx, only.seq, only.enc, only.mgt,
      fun hconf hloss hlen => ?_⟩
    exact State.stepTime_posts hconf ⟨hloss, hlen⟩ _

end Sys2Proof.Machine
end

section
/-! Every step keeps the queue and the canonical form of the memories (11 R349-R354; 13 R392; 15 R450) -/
namespace Sys2Proof.Machine
open Sys2Proof

/-! ## What a command keeps -/

/-- The arrival of a command keeps the queue and the form of the memories. -/
theorem State.arrived (s : State) (e : Env) : Keeps s (s.arrive e) := State.arrive_keeps (Keeps.refl s)

/-- Every command answers a next state, in which the queue is as it was and the memories keep their form. -/
theorem exec_keeps : ∀ (i : Instr) (s : State), ∃ t, exec i s = .next t ∧ Keeps s t
  | .nop e _, s => ⟨_, rfl, State.ramest_keeps (s.arrived e) fun _ _ _ _ h => stepNop_keeps h⟩
  | .halt e _, s => ⟨_, rfl, State.ramest_keeps (s.arrived e) fun _ _ _ _ h => stepHalt_keeps h⟩
  | .jmp e _, s => ⟨_, rfl, State.ramest_keeps (s.arrived e) fun _ _ _ _ h => stepJmp_keeps h⟩
  | .brc e _, s => ⟨_, rfl, State.ramest_keeps (s.arrived e) fun _ _ _ _ h => stepBrc_keeps h⟩
  | .call e _, s => ⟨_, rfl, State.ramest_keeps (s.arrived e) fun _ _ _ _ h => stepCall_keeps h⟩
  | .ret e _, s => ⟨_, rfl, State.ramest_keeps (s.arrived e) fun _ _ _ _ h => stepRet_keeps h⟩
  | .loop e _, s => ⟨_, rfl, State.ramest_keeps (s.arrived e) fun _ _ _ _ h => stepLoop_keeps h⟩
  | .fence e _, s => ⟨_, rfl, State.ramest_keeps (s.arrived e) fun _ _ _ _ h => stepFence_keeps h⟩
  | .ldi e _, s => ⟨_, rfl, State.ramest_keeps (s.arrived e) fun _ _ _ _ h => stepLdi_keeps h⟩
  | .add e _, s => ⟨_, rfl, State.ramest_keeps (s.arrived e) fun _ _ _ _ h => stepAdd_keeps h⟩
  | .sub e _, s => ⟨_, rfl, State.ramest_keeps (s.arrived e) fun _ _ _ _ h => stepSub_keeps h⟩
  | .andI e _, s => ⟨_, rfl, State.ramest_keeps (s.arrived e) fun _ _ _ _ h => stepAnd_keeps h⟩
  | .orI e _, s => ⟨_, rfl, State.ramest_keeps (s.arrived e) fun _ _ _ _ h => stepOr_keeps h⟩
  | .cmp e _, s => ⟨_, rfl, State.ramest_keeps (s.arrived e) fun _ _ _ _ h => stepCmp_keeps h⟩
  | .mov e _, s => ⟨_, rfl, State.ramest_keeps (s.arrived e) fun _ _ _ _ h => stepMov_keeps h⟩
  | .ldst e _, s => ⟨_, rfl, State.ramest_keeps (s.arrived e) fun _ _ _ _ h => stepLdst_keeps h⟩
  | .ldt e _, s => ⟨_, rfl, State.ramest_keeps (s.arrived e) fun _ _ _ _ h => stepLdt_keeps h⟩
  | .ldpos e _, s => ⟨_, rfl, State.ramest_keeps (s.arrived e) fun _ _ _ _ h => stepLdpos_keeps h⟩
  | .swath e _, s => ⟨_, rfl, State.ramest_keeps (s.arrived e) fun _ _ _ _ h => stepSwath_keeps h⟩
  | .lines e _, s => ⟨_, rfl, State.ramest_keeps (s.arrived e) fun _ _ _ _ h => stepLines_keeps h⟩
  | .blank e _, s => ⟨_, rfl, State.ramest_keeps (s.arrived e) fun _ _ _ _ h => stepBlank_keeps h⟩
  | .spit e _, s => ⟨_, rfl, State.ramest_keeps (s.arrived e) fun _ _ _ _ h => stepSpit_keeps h⟩
  | .lineQueueAppend e _, s => ⟨_, rfl, State.lineQueueAppend_keeps (s.arrived e)⟩
  | .endswath e _, s => ⟨_, rfl, State.ramest_keeps (s.arrived e) fun _ _ _ _ h => stepEndswath_keeps h⟩
  | .swathEnd e _, s => ⟨_, rfl, State.swathEnd_keeps (s.arrived e)⟩
  | .pitch e _, s => ⟨_, rfl, State.ramest_keeps (s.arrived e) fun _ _ _ _ h => stepPitch_keeps h⟩
  | .rowdly e _, s => ⟨_, rfl, State.ramest_keeps (s.arrived e) fun _ _ _ _ h => stepRowdly_keeps h⟩
  | .energy e _, s => ⟨_, rfl, State.ramest_keeps (s.arrived e) fun _ _ _ _ h => stepEnergy_keeps h⟩
  | .waitpos e _, s => ⟨_, rfl, State.ramest_keeps (s.arrived e) fun _ _ _ _ h => stepWaitpos_keeps h⟩
  | .waittime e _, s => ⟨_, rfl, State.ramest_keeps (s.arrived e) fun _ _ _ _ h => stepWaittime_keeps h⟩
  | .waitev e _, s => ⟨_, rfl, State.ramest_keeps (s.arrived e) fun _ _ _ _ h => stepWaitev_keeps h⟩
  | .waitax e _, s => ⟨_, rfl, State.ramest_keeps (s.arrived e) fun _ _ _ _ h => stepWaitax_keeps h⟩
  | .waitComplete e _ _, s => ⟨_, rfl, State.waitComplete_keeps (s.arrived e)⟩
  | .waitTimeout e _ _, s => ⟨_, rfl, State.waitTimeout_keeps (s.arrived e)⟩
  | .signal e _, s => ⟨_, rfl, State.ramest_keeps (s.arrived e) fun _ _ _ _ h => stepSignal_keeps h⟩
  | .mark e _, s => ⟨_, rfl, State.ramest_keeps (s.arrived e) fun _ _ _ _ h => stepMark_keeps h⟩
  | .programCommit e _, s => ⟨_, rfl, State.ramCommit_keeps (s.arrived e)⟩
  | .yieldI e _, s => ⟨_, rfl, State.ramest_keeps (s.arrived e) fun _ _ _ _ h => stepYield_keeps h⟩
  | .move e _, s => ⟨_, rfl, State.ramest_keeps (s.arrived e) fun _ _ _ _ h => stepMove_keeps h⟩
  | .vel e _, s => ⟨_, rfl, State.ramest_keeps (s.arrived e) fun _ _ _ _ h => stepVel_keeps h⟩
  | .acc e _, s => ⟨_, rfl, State.ramest_keeps (s.arrived e) fun _ _ _ _ h => stepAcc_keeps h⟩
  | .stop e _, s => ⟨_, rfl, State.ramest_keeps (s.arrived e) fun _ _ _ _ h => stepStop_keeps h⟩
  | .home e _, s => ⟨_, rfl, State.ramest_keeps (s.arrived e) fun _ _ _ _ h => stepHome_keeps h⟩
  | .camtrig e _, s => ⟨_, rfl, State.ramest_keeps (s.arrived e) fun _ _ _ _ h => stepCamtrig_keeps h⟩
  | .camset e _, s => ⟨_, rfl, State.ramest_keeps (s.arrived e) fun _ _ _ _ h => stepCamset_keeps h⟩
  | .contextDispatch e _, s => ⟨_, rfl, State.dispatch_keeps (s.arrived e)⟩
  | .contextSaveDone e _, s => ⟨_, rfl, State.saveDone_keeps (s.arrived e)⟩
  | .contextRestoreDone e _, s => ⟨_, rfl, State.restoreDone_keeps (s.arrived e)⟩
  | .seqSignal e _ _ _, s => ⟨_, rfl, State.asWriter_keeps (s.arrived e) fun _ _ h => State.wrSignal_keeps h⟩
  | .seqGsignal e _ _ _, s => ⟨_, rfl, State.asWriter_keeps (s.arrived e) fun _ _ h => State.wrGsignal_keeps h⟩
  | .seqEvbitsClear e _ _ _, s => ⟨_, rfl, State.asWriter_keeps (s.arrived e) fun _ _ h => State.wrEvbits_keeps h⟩
  | .encoderEdge e _ _ _, s => ⟨_, rfl, State.pinsMove_keeps (s.arrived e)⟩
  | .phaseWindowEnd e _, s => ⟨_, rfl, State.phaseEnd_keeps (s.arrived e)⟩
  | .encLos e _, s => ⟨_, rfl, State.loseSignal_keeps (s.arrived e)⟩
  | .encLosClear e _, s => ⟨_, rfl, State.regainSignal_keeps (s.arrived e)⟩
  | .still e _, s => ⟨_, rfl, State.standStill_keeps (s.arrived e)⟩
  | .ssiFrameStart e _, s => ⟨_, rfl, State.ssiStart_keeps (s.arrived e)⟩
  | .ssiTimeout e _, s => ⟨_, rfl, State.ssiTimedOut_keeps (s.arrived e)⟩
  | .ssiFrameDone e _ _ _, s => ⟨_, rfl, State.ssiDone_keeps (s.arrived e)⟩
  | .zEdge e _ _, s => ⟨_, rfl, State.zMove_keeps (s.arrived e)⟩
  | .encRebase e _ _ _ _, s => ⟨_, rfl, State.asWriter_keeps (s.arrived e) fun _ _ h => State.wrEncCtl_keeps h⟩
  | .encClrq e _ _, s => ⟨_, rfl, State.asWriter_keeps (s.arrived e) fun _ _ h => State.wrEncCtl_keeps h⟩
  | .lineEvent e _, s => ⟨_, rfl, State.lineEvents_keeps (s.arrived e)⟩
  | .fireInstant e _, s => ⟨_, rfl, State.fireInstant_keeps (s.arrived e)⟩
  | .rowTrigger e _ _, s => ⟨_, rfl, State.rowTrigger_keeps (s.arrived e)⟩
  | .readPoint e _, s => ⟨_, rfl, State.readPoint_keeps (State.calFirst_keeps (s.arrived e))⟩
  | .caravanDescriptor e _, s => ⟨_, rfl, State.readDesc_keeps (s.arrived e)⟩
  | .indexBlock e _, s => ⟨_, rfl, State.readIndex_keeps (s.arrived e)⟩
  | .streamFetch e _, s => ⟨_, rfl, State.strFetch_keeps (s.arrived e)⟩
  | .duneHeader e _, s => ⟨_, rfl, State.readHeader_keeps (s.arrived e)⟩
  | .engineGrant e _, s => ⟨_, rfl, State.grant_keeps (s.arrived e)⟩
  | .duneDecodeDone e _, s => ⟨_, rfl, State.decodeDone_keeps (s.arrived e)⟩
  | .engineAbandon e _ _, s => ⟨_, rfl, Keeps.ite (State.engineEcc_keeps (s.arrived e)) (State.starve_keeps (s.arrived e))⟩
  | .streamEn e _ _ _ _, s => ⟨_, rfl, State.asWriter_keeps (s.arrived e) fun _ _ h => State.wrStrCfg_keeps h⟩
  | .ringFlush e _ _ _ _, s => ⟨_, rfl, State.asWriter_keeps (s.arrived e) fun _ _ h => State.wrRingCtl_keeps h⟩
  | .ldpClrcnt e _ _, s => ⟨_, rfl, State.asWriter_keeps (s.arrived e) fun _ _ h => State.wrRingCtl_keeps h⟩
  | .telemetryFrame e _ _, s => ⟨_, rfl, State.upSymbols_keeps (s.arrived e) fun _ f h => match f with | .telem _ => State.telemetry_keeps h | .ack _ | .resp _ => h⟩
  | .teltoExpiry e _, s => ⟨_, rfl, State.teltoExpiry_keeps (s.arrived e)⟩
  | .ackFrame e _ _, s => ⟨_, rfl, State.upSymbols_keeps (s.arrived e) fun _ f h => match f with | .ack _ => State.ackFrame_keeps h | .telem _ | .resp _ => h⟩
  | .ackTimeout e _, s => ⟨_, rfl, State.ackTimeout_keeps (s.arrived e)⟩
  | .pushStart e _, s => ⟨_, rfl, State.pushStart_keeps (s.arrived e)⟩
  | .bandLoadDone e _, s => ⟨_, rfl, State.bandLoadDone_keeps (s.arrived e)⟩
  | .pushRetry e _, s => ⟨_, rfl, State.pushRetry_keeps (s.arrived e)⟩
  | .tableFrameSend e _, s => ⟨_, rfl, State.tableFrameSend_keeps (s.arrived e)⟩
  | .controlFrameSend e _, s => ⟨_, rfl, State.ctlFrameSend_keeps (s.arrived e)⟩
  | .responseFrame e _ _, s => ⟨_, rfl, State.upSymbols_keeps (s.arrived e) fun _ f h => match f with | .resp _ => State.respFrame_keeps h | .telem _ | .ack _ => h⟩
  | .responseTimeout e _, s => ⟨_, rfl, State.respTimeout_keeps (s.arrived e)⟩
  | .upstreamVoid e _ _, s => ⟨_, rfl, State.upSymbols_keeps (s.arrived e) fun _ _ h => h⟩
  | .missWindowEnd e _, s => ⟨_, rfl, State.missWindowEnd_keeps (s.arrived e)⟩
  | .hvctlOn e _ _, s => ⟨_, rfl, State.asWriter_keeps (s.arrived e) fun _ _ h => State.wrHvCtl_keeps h⟩
  | .hvctlOff e _ _, s => ⟨_, rfl, State.asWriter_keeps (s.arrived e) fun _ _ h => State.wrHvCtl_keeps h⟩
  | .hvsettleExpiry e _, s => ⟨_, rfl, State.hvSettled_keeps (s.arrived e)⟩
  | .firClrcnt e _ _, s => ⟨_, rfl, State.asWriter_keeps (s.arrived e) fun _ _ h => State.wrFirPortCtl_keeps h⟩
  | .safeNAssert e, s => ⟨_, rfl, State.safeAssert_keeps (s.arrived e)⟩
  | .safeNRelease e, s => ⟨_, rfl, State.safeRelease_keeps (s.arrived e)⟩
  | .portUp e _ _, s => ⟨_, rfl, State.asWriter_keeps (s.arrived e) fun _ _ h => State.wrKlPortCtl_keeps h⟩
  | .portDown e _ _, s => ⟨_, rfl, State.asWriter_keeps (s.arrived e) fun _ _ h => State.wrKlPortCtl_keeps h⟩
  | .portCal e _ _, s => ⟨_, rfl, State.asWriter_keeps (s.arrived e) fun _ _ h => State.wrKlPortCtl_keeps h⟩
  | .klClrcnt e _ _, s => ⟨_, rfl, State.asWriter_keeps (s.arrived e) fun _ _ h => State.wrKlPortCtl_keeps h⟩
  | .laneCalDone e _, s => ⟨_, rfl, State.laneCalDone_keeps (s.arrived e)⟩
  | .wakeDone e _, s => ⟨_, rfl, State.wakeDone_keeps (s.arrived e)⟩
  | .wakeTimeout e _, s => ⟨_, rfl, State.bringupTimeout_keeps (s.arrived e)⟩
  | .identTimeout e _, s => ⟨_, rfl, State.bringupTimeout_keeps (s.arrived e)⟩
  | .configDone e _, s => ⟨_, rfl, State.configDone_keeps (s.arrived e)⟩
  | .linkLost e _, s => ⟨_, rfl, State.linkLost_keeps (s.arrived e)⟩
  | .portAutoRetry e _, s => ⟨_, rfl, State.autoRetry_keeps (s.arrived e)⟩
  | .prbsStart e _ _ _ _, s => ⟨_, rfl, State.asWriter_keeps (s.arrived e) fun _ _ h => State.wrPrbs_keeps h⟩
  | .prbsStop e _ _, s => ⟨_, rfl, State.asWriter_keeps (s.arrived e) fun _ _ h => State.wrPrbs_keeps h⟩
  | .prbsRunEnd e _ _ _, s => ⟨_, rfl, State.prbsRunEnd_keeps (s.arrived e)⟩
  | .eyeSweep e _ _ _, s => ⟨_, rfl, State.eyeSweep_keeps (s.arrived e)⟩
  | .hregAccess e _ _ _ _ _, s => ⟨_, rfl, State.asWriter_keeps (s.arrived e) fun _ _ h => State.wrHregCmd_keeps h⟩
  | .headFireSymbol e _ _, s => ⟨_, rfl, State.headFire_keeps (s.arrived e)⟩
  | .headLineFrame e _ _, s => ⟨_, rfl, State.headLine_keeps (s.arrived e)⟩
  | .headTableFrame e _ _, s => ⟨_, rfl, State.headTable_keeps (s.arrived e)⟩
  | .headSync e _ _, s => ⟨_, rfl, State.headCtl_keeps (s.arrived e)⟩
  | .headDrop e _ _, s => ⟨_, rfl, State.headCtl_keeps (s.arrived e)⟩
  | .headControlFrame e _ _ _, s => ⟨_, rfl, State.headAccess_keeps (s.arrived e)⟩
  | .headTelemetrySend e _ _ _ _ _ _ _, s => ⟨_, rfl, State.headTelemetry_keeps (s.arrived e)⟩
  | .camLine e _ _, s => ⟨_, rfl, State.camLine_keeps (s.arrived e)⟩
  | .frameStart e _, s => ⟨_, rfl, State.frameStart_keeps (s.arrived e)⟩
  | .frameEnd e _, s => ⟨_, rfl, State.frameEnd_keeps (s.arrived e)⟩
  | .lineSlot e _, s => ⟨_, rfl, State.lineSlot_keeps (s.arrived e)⟩
  | .frameComplete e _, s => ⟨_, rfl, State.frameComplete_keeps (s.arrived e)⟩
  | .camNoclk e _, s => ⟨_, rfl, State.camNoclk_keeps (s.arrived e)⟩
  | .camClockReturn e _, s => ⟨_, rfl, State.clockReturn_keeps (s.arrived e)⟩
  | .camTrig e _ _, s => ⟨_, rfl, State.asWriter_keeps (s.arrived e) fun _ _ h => State.wrCamCtl_keeps h⟩
  | .positionTrigger e _, s => ⟨_, rfl, State.positionTrigger_keeps (s.arrived e)⟩
  | .trigPulse e _, s => ⟨_, rfl, State.trigPulse_keeps (s.arrived e)⟩
  | .trigTimeout e _, s => ⟨_, rfl, State.trigTimeout_keeps (s.arrived e)⟩
  | .camSetreq e _ _ _, s => ⟨_, rfl, State.asWriter_keeps (s.arrived e) fun _ _ h => State.wrCamCtl_keeps h⟩
  | .settingsWindow e _, s => ⟨_, rfl, State.settingsWindow_keeps (s.arrived e)⟩
  | .settingsWriteDone e _ _, s => ⟨_, rfl, State.setDone_keeps (s.arrived e)⟩
  | .camPop e _ _, s => ⟨_, rfl, State.asWriter_keeps (s.arrived e) fun _ _ h => State.wrCamCtl_keeps h⟩
  | .camClrcnt e _ _, s => ⟨_, rfl, State.asWriter_keeps (s.arrived e) fun _ _ h => State.wrCamCtl_keeps h⟩
  | .i2cCommand e _ _ _ _ _ _, s => ⟨_, rfl, State.asWriter_keeps (s.arrived e) fun _ _ h => State.wrI2c_keeps h⟩
  | .i2cDone e _ _, s => ⟨_, rfl, State.i2cDone_keeps (s.arrived e)⟩
  | .ptrigSkipWindow e _, s => ⟨_, rfl, State.ptSkipWindow_keeps (s.arrived e)⟩
  | .visionResult e, s => ⟨_, rfl, State.visionResult_keeps (s.arrived e)⟩
  | .healthApply e, s => ⟨_, rfl, State.healthApply_keeps (s.arrived e)⟩
  | .senseApply e _, s => ⟨_, rfl, State.senseApply_keeps (s.arrived e)⟩
  | .testApply e, s => ⟨_, rfl, State.testApply_keeps (s.arrived e)⟩
  | .nzctlOut e _ _ _, s => ⟨_, rfl, State.asWriter_keeps (s.arrived e) fun _ _ h => State.nzOp_keeps h⟩
  | .nzctlRelease e _ _ _, s => ⟨_, rfl, State.asWriter_keeps (s.arrived e) fun _ _ h => State.nzOp_keeps h⟩
  | .testArm e _ _ _ _ _ _ _, s => ⟨_, rfl, State.asWriter_keeps (s.arrived e) fun _ _ h => State.testOp_keeps h⟩
  | .testDisarm e _, s => ⟨_, rfl, State.asWriter_keeps (s.arrived e) fun _ _ h => State.wrTestCtl_keeps h⟩
  | .alignArm e _ _ _ _ _ _, s => ⟨_, rfl, State.asWriter_keeps (s.arrived e) fun _ _ h => State.alignOp_keeps h⟩
  | .alignDisarm e _, s => ⟨_, rfl, State.asWriter_keeps (s.arrived e) fun _ _ h => State.wrAlCtl_keeps h⟩
  | .motCmdMove e _ _ _, s => ⟨_, rfl, State.motCmd_keeps (s.arrived e)⟩
  | .motCmdMoveA e _ _ _, s => ⟨_, rfl, State.motCmd_keeps (s.arrived e)⟩
  | .motCmdVel e _ _ _, s => ⟨_, rfl, State.motCmd_keeps (s.arrived e)⟩
  | .motCmdAcc e _ _ _, s => ⟨_, rfl, State.motCmd_keeps (s.arrived e)⟩
  | .motCmdStop e _ _, s => ⟨_, rfl, State.motCmd_keeps (s.arrived e)⟩
  | .motCmdHome e _ _ _, s => ⟨_, rfl, State.motCmd_keeps (s.arrived e)⟩
  | .axisEn e _ _, s => ⟨_, rfl, State.asWriter_keeps (s.arrived e) fun _ _ h => State.wrAxCtl_keeps h⟩
  | .axisDis e _ _, s => ⟨_, rfl, State.asWriter_keeps (s.arrived e) fun _ _ h => State.wrAxCtl_keeps h⟩
  | .axisRelease e _ _, s => ⟨_, rfl, State.asWriter_keeps (s.arrived e) fun _ _ h => State.wrAxCtl_keeps h⟩
  | .decelStart e _, s => ⟨_, rfl, State.axDecel_keeps (s.arrived e)⟩
  | .microstepSwitch e _, s => ⟨_, rfl, State.axLevel_keeps (s.arrived e)⟩
  | .moveEnd e _, s => ⟨_, rfl, State.axEnd_keeps (s.arrived e)⟩
  | .homeIndex e _, s => ⟨_, rfl, State.axIndex_keeps (s.arrived e)⟩
  | .homeFail e _, s => ⟨_, rfl, State.axHomeFail_keeps (s.arrived e)⟩
  | .sessionOpen e _, s => ⟨_, rfl, State.sessionOpen_keeps (s.arrived e)⟩
  | .sessionConfirm e _, s => ⟨_, rfl, State.command_keeps (s.arrived e) fun _ _ h => State.doConfirm_keeps h⟩
  | .sessionClose e _, s => ⟨_, rfl, State.command_keeps (s.arrived e) fun _ _ h => State.doClose_keeps h⟩
  | .heartbeat e _, s => ⟨_, rfl, State.command_keeps (s.arrived e) fun _ _ h => State.say_keeps h⟩
  | .revokeSession e _, s => ⟨_, rfl, State.command_keeps (s.arrived e) fun _ _ h => State.doRevokeSession_keeps h⟩
  | .revokeUnit e _, s => ⟨_, rfl, State.command_keeps (s.arrived e) fun _ _ h => State.doRevokeUnit_keeps h⟩
  | .keyInstall e _, s => ⟨_, rfl, State.command_keeps (s.arrived e) fun _ _ h => State.doKeyInstall_keeps h⟩
  | .keyErase e _, s => ⟨_, rfl, State.command_keeps (s.arrived e) fun _ _ h => State.doKeyErase_keeps h⟩
  | .netSet e _, s => ⟨_, rfl, State.command_keeps (s.arrived e) fun _ _ h => State.doNetSet_keeps h⟩
  | .claim e _, s => ⟨_, rfl, State.command_keeps (s.arrived e) fun _ _ h => State.doClaim_keeps h⟩
  | .release e _, s => ⟨_, rfl, State.command_keeps (s.arrived e) fun _ _ h => State.doRelease_keeps h⟩
  | .memAlloc e _, s => ⟨_, rfl, State.command_keeps (s.arrived e) fun _ _ h => State.doMemAlloc_keeps h⟩
  | .memFree e _, s => ⟨_, rfl, State.command_keeps (s.arrived e) fun _ _ h => State.doMemFree_keeps h⟩
  | .ptSet e _, s => ⟨_, rfl, State.command_keeps (s.arrived e) fun _ _ h => State.doPtSet_keeps h⟩
  | .tlbInval e _, s => ⟨_, rfl, State.command_keeps (s.arrived e) fun _ _ h => State.doTlbInval_keeps h⟩
  | .faultResume e _, s => ⟨_, rfl, State.command_keeps (s.arrived e) fun _ _ h => State.doFaultResume_keeps h⟩
  | .memWrite e _, s => ⟨_, rfl, State.command_keeps (s.arrived e) fun _ _ h => State.doMemWrite_keeps h⟩
  | .memRead e _, s => ⟨_, rfl, State.command_keeps (s.arrived e) fun _ _ h => State.doMemRead_keeps h⟩
  | .ctxLoad e _, s => ⟨_, rfl, State.command_keeps (s.arrived e) fun _ _ h => State.doCtxLoad_keeps h⟩
  | .ctxArm e _, s => ⟨_, rfl, State.command_keeps (s.arrived e) fun _ _ h => State.doCtxArm_keeps h⟩
  | .ctxStart e _, s => ⟨_, rfl, State.command_keeps (s.arrived e) fun _ _ h => State.doCtxStart_keeps h⟩
  | .ctxStop e _, s => ⟨_, rfl, State.command_keeps (s.arrived e) fun _ _ h => State.doCtxStop_keeps h⟩
  | .commit e _, s => ⟨_, rfl, State.command_keeps (s.arrived e) fun _ _ h => State.doCommit_keeps h⟩
  | .stageDiscard e _, s => ⟨_, rfl, State.command_keeps (s.arrived e) fun _ _ h => State.doDiscard_keeps h⟩
  | .snapshot e _, s => ⟨_, rfl, State.command_keeps (s.arrived e) fun _ _ h => State.doSnapshot_keeps h⟩
  | .calRestore e _, s => ⟨_, rfl, State.command_keeps (s.arrived e) fun _ _ h => State.doCal_keeps h⟩
  | .calLane e _, s => ⟨_, rfl, State.command_keeps (s.arrived e) fun _ _ h => State.doCal_keeps h⟩
  | .calAlign e _, s => ⟨_, rfl, State.command_keeps (s.arrived e) fun _ _ h => State.doCal_keeps h⟩
  | .calDark e _, s => ⟨_, rfl, State.command_keeps (s.arrived e) fun _ _ h => State.doCal_keeps h⟩
  | .calFlat e _, s => ⟨_, rfl, State.command_keeps (s.arrived e) fun _ _ h => State.doCal_keeps h⟩
  | .calTemptrim e _, s => ⟨_, rfl, State.command_keeps (s.arrived e) fun _ _ h => State.doCal_keeps h⟩
  | .calDramrt e _, s => ⟨_, rfl, State.command_keeps (s.arrived e) fun _ _ h => State.doCal_keeps h⟩
  | .calAbort e _, s => ⟨_, rfl, State.command_keeps (s.arrived e) fun _ _ h => State.doCalAbort_keeps h⟩
  | .calDone e _ _, s => ⟨_, rfl, State.calDone_keeps (s.arrived e)⟩
  | .calTimeout e _, s => ⟨_, rfl, State.calTimeout_keeps (s.arrived e)⟩
  | .repairRow e _, s => ⟨_, rfl, State.command_keeps (s.arrived e) fun _ _ h => State.doRepair_keeps h⟩
  | .repairRetest e _, s => ⟨_, rfl, State.command_keeps (s.arrived e) fun _ _ h => State.doRepair_keeps h⟩
  | .nvWrite e _, s => ⟨_, rfl, State.command_keeps (s.arrived e) fun _ _ h => State.doNvWrite_keeps h⟩
  | .nvRead e _, s => ⟨_, rfl, State.command_keeps (s.arrived e) fun _ _ h => State.doNvRead_keeps h⟩
  | .fwStage e _, s => ⟨_, rfl, State.command_keeps (s.arrived e) fun _ _ h => State.doFwStage_keeps h⟩
  | .fwSwitch e _, s => ⟨_, rfl, State.command_keeps (s.arrived e) fun _ _ h => State.doFwSwitch_keeps h⟩
  | .fwProbationEnd e _, s => ⟨_, rfl, State.probationEnd_keeps (s.arrived e)⟩
  | .regRead e _, s => ⟨_, rfl, State.command_keeps (s.arrived e) fun _ _ h => State.doRegRead_keeps h⟩
  | .regWrite e _, s => ⟨_, rfl, State.command_keeps (s.arrived e) fun _ _ h => State.doRegWrite_keeps h⟩
  | .authWrite e _, s => ⟨_, rfl, State.command_keeps (s.arrived e) fun _ _ h => State.doAuthWrite_keeps h⟩
  | .registerWrite e _ _ _, s => ⟨_, rfl, State.barWrite_keeps (s.arrived e)⟩
  | .windowAccess e _ _ _ _, s => ⟨_, rfl, State.winAccess_keeps (s.arrived e)⟩
  | .cmdOverrun e _, s => ⟨_, rfl, Keeps.ite (State.overrun_keeps (s.arrived e)) (s.arrived e)⟩
  | .evrdWrite e _ _, s => ⟨_, rfl, State.evrdWrite_keeps (s.arrived e)⟩
  | .evack e _ _, s => ⟨_, rfl, State.evack_keeps (s.arrived e)⟩
  | .eventsSend e _, s => ⟨_, rfl, State.eventsSend_keeps (s.arrived e)⟩
  | .eventsResend e _, s => ⟨_, rfl, State.eventsResend_keeps (s.arrived e)⟩
  | .datagramDiscard e _, s => ⟨_, rfl, Keeps.when (s.arrived e) fun _ h => State.netDrop_keeps h⟩
  | .caravanStart e _ _ _, s => ⟨_, rfl, State.asWriter_keeps (s.arrived e) fun _ _ h => State.wrCvCtl_keeps h⟩
  | .caravanKick e _ _, s => ⟨_, rfl, State.asWriter_keeps (s.arrived e) fun _ _ h => State.wrCvCtl_keeps h⟩
  | .caravanCancel e _ _, s => ⟨_, rfl, State.asWriter_keeps (s.arrived e) fun _ _ h => State.wrCvCtl_keeps h⟩
  | .tableWalkDone e _, s => ⟨_, rfl, State.walkDone_keeps (s.arrived e)⟩
  | .leaseLapse e _, s => ⟨_, rfl, State.leaseLapse_keeps (s.arrived e)⟩
  | .kennelCutoff e _, s => ⟨_, rfl, State.kennelCutoff_keeps (s.arrived e)⟩
  | .kennelRelease e _, s => ⟨_, rfl, State.fwPoll_keeps (State.kennelRelease_keeps (s.arrived e))⟩
  | .confirmTimeout e _, s => ⟨_, rfl, State.confirmTimeout_keeps (s.arrived e)⟩
  | .commitValidate e _, s => ⟨_, rfl, State.fwPoll_keeps (State.commitValidate_keeps (s.arrived e))⟩
  | .catchupDone e _, s => ⟨_, rfl, State.catchupDone_keeps (s.arrived e)⟩
  | .commitPoint e _, s => ⟨_, rfl, State.commitPoint_keeps (State.calFirst_keeps (s.arrived e))⟩
  | .commitTimeout e _, s => ⟨_, rfl, State.commitTimeout_keeps (State.commitFirst_keeps (s.arrived e))⟩
  | .snapshotPeriodic e _, s => ⟨_, rfl, State.snapPeriodic_keeps (s.arrived e)⟩
  | .dramRefresh e _ _, s => ⟨_, rfl, State.refresh_keeps (s.arrived e)⟩
  | .dramTempPoll e _ _, s => ⟨_, rfl, State.tempPoll_keeps (s.arrived e)⟩
  | .dramPowerdown e _ _, s => ⟨_, rfl, State.powerDown_keeps (s.arrived e)⟩
  | .patrolScrub e _ _ _, s => ⟨_, rfl, State.patrol_keeps (s.arrived e)⟩
  | .zeroFill e _, s => ⟨_, rfl, State.zeroFill_keeps (s.arrived e)⟩
  | .eccWriteback e _, s => ⟨_, rfl, State.writeBack_keeps (s.arrived e)⟩
  | .tableHeal e _, s => ⟨_, rfl, State.heal_keeps (s.arrived e)⟩
  | .sheepdogWindow e, s => ⟨_, rfl, State.sheepdogStart_keeps (s.arrived e)⟩
  | .sheepdogWindowEnd e _, s => ⟨_, rfl, State.sheepdogEnd_keeps (s.arrived e)⟩
  | .dictTest e _, s => ⟨_, rfl, State.dictTest_keeps (s.arrived e)⟩
  | .dictTestDone e _ _, s => ⟨_, rfl, State.dictDone_keeps (s.arrived e)⟩
  | .flipArm e _ _, s => ⟨_, rfl, State.asWriter_keeps (s.arrived e) fun _ _ h => State.wrFlipCtl_keeps h⟩
  | .eccWindowEnd e _ _, s => ⟨_, rfl, State.eccWindowEnd_keeps (s.arrived e)⟩
  | .ptpSync e _ _ _ _ _ _ _ _, s => ⟨_, rfl, State.ptpSync_keeps (s.arrived e)⟩
  | .ptpAnnounce e _ _ _ _ _ _ _ _ _, s => ⟨_, rfl, State.ptpAnnounce_keeps (s.arrived e)⟩
  | .ptpDelayResp e _ _ _ _ _ _ _, s => ⟨_, rfl, State.ptpDelayResp_keeps (s.arrived e)⟩
  | .ptpPdelayReq e _ _ _ _, s => ⟨_, rfl, State.ptpPdelayReq_keeps (s.arrived e)⟩
  | .ptpDelayReqSend e, s => ⟨_, rfl, State.ptpReqSend_keeps (s.arrived e)⟩
  | .ptpDiscard e, s => ⟨_, rfl, State.ptpDiscard_keeps (s.arrived e)⟩
  | .syncTimeout e, s => ⟨_, rfl, State.syncTimeout_keeps (s.arrived e)⟩
  | .announceTimeout e, s => ⟨_, rfl, State.annTimeout_keeps (s.arrived e)⟩
  | .ptpLinkLoss e, s => ⟨_, rfl, State.holdover_keeps (s.arrived e)⟩
  | .timeSet e _ _, s => ⟨_, rfl, State.asWriter_keeps (s.arrived e) fun _ _ h => State.wrSetNs_keeps (State.commitFirst_keeps h)⟩
  | .nowsecRead e, s => ⟨_, rfl, State.nowSecRead_keeps (s.arrived e)⟩
  | .feedMonitorSample e _ _ _, s => ⟨_, rfl, State.feedSample_keeps (s.arrived e)⟩
  | .feedTrip e _, s => ⟨_, rfl, State.feedTrip_keeps (s.arrived e)⟩
  | .gapRelease e, s => ⟨_, rfl, State.gapRelease_keeps (s.arrived e)⟩
  | .feedFail e _, s => ⟨_, rfl, State.feedFail_keeps (s.arrived e)⟩
  | .feedSync e _, s => ⟨_, rfl, State.feedSync_keeps (s.arrived e)⟩
  | .shareImbal e _, s => ⟨_, rfl, State.shareImbal_keeps (s.arrived e)⟩
  | .loadTransferTest e _, s => ⟨_, rfl, State.loadTest_keeps (s.arrived e)⟩
  | .loadTransferEnd e _ _, s => ⟨_, rfl, State.loadTestEnd_keeps (s.arrived e)⟩
  | .feedReshare e _ _, s => ⟨_, rfl, State.asWriter_keeps (s.arrived e) fun _ _ h => State.wrFeedCtl_keeps h⟩
  | .vsafeTest e _ _, s => ⟨_, rfl, State.asWriter_keeps (s.arrived e) fun _ _ h => State.wrFeedCtl_keeps h⟩
  | .vsafeTestEnd e _, s => ⟨_, rfl, State.vsTestEnd_keeps (s.arrived e)⟩
  | .pwsClrcnt e _, s => ⟨_, rfl, State.asWriter_keeps (s.arrived e) fun _ _ h => State.wrFeedCtl_keeps h⟩
  | .vsafeLost e, s => ⟨_, rfl, State.vsafeLost_keeps (s.arrived e)⟩
  | .vsafeRestore e, s => ⟨_, rfl, State.vsafeRestore_keeps (s.arrived e)⟩
  | .refclkLost e, s => ⟨_, rfl, State.refclkLost_keeps (s.arrived e)⟩
  | .refclkRestore e, s => ⟨_, rfl, State.refclkRestore_keeps (s.arrived e)⟩
  | .dieSensorSample e _, s => ⟨_, rfl, State.dieSample_keeps (s.arrived e)⟩
  | .boardSensorSample e _ _ _ _, s => ⟨_, rfl, State.boardSample_keeps (s.arrived e)⟩
  | .thermtrip e, s => ⟨_, rfl, State.thermTrip_keeps (s.arrived e)⟩
  | .coldStart e _ _ _ _ _ _ _ _ _, s => ⟨_, rfl, State.coldStart_keeps (s.arrived e)⟩
  | .warmReset e _ _, s => ⟨_, rfl, State.warmReset_keeps (s.arrived e)⟩
  | .deviceReady e, s => ⟨_, rfl, State.deviceReady_keeps (s.arrived e)⟩
  | .perst e _, s => ⟨_, rfl, State.perst_keeps (s.arrived e)⟩
  | .mgmtLost e, s => ⟨_, rfl, State.mgmtLost_keeps (s.arrived e)⟩
  | .mgmtResume e, s => ⟨_, rfl, State.mgmtResume_keeps (s.arrived e)⟩
  | .evqGap e _, s => ⟨_, rfl, State.evqGap_keeps (s.arrived e)⟩
  | .msixUnmask e _ _, s => ⟨_, rfl, State.msixUnmask_keeps (s.arrived e)⟩
  | .ssiDataReady e _, s => ⟨_, rfl, State.ssiReady_keeps (s.arrived e)⟩
  | .cruise e _, s => ⟨_, rfl, State.axCruise_keeps (s.arrived e)⟩
  | .prbsRunStart e _, s => ⟨_, rfl, State.prbsRunStart_keeps (s.arrived e)⟩
  | .headSymbolAlignment e _ _, s => ⟨_, rfl, State.headAlign_keeps (s.arrived e)⟩
  | .headPowerUp e _ _ _ _ _, s => ⟨_, rfl, State.headPower_keeps (s.arrived e)⟩
  | .netAddressChange e _, s => ⟨_, rfl, State.netChange_keeps (s.arrived e)⟩
  | .porstNLow e, s => ⟨_, rfl, State.porstLow_keeps (s.arrived e)⟩
  | .dmaReadCompletion e _ _, s => ⟨_, rfl, State.readSettled_keeps (State.readDone_keeps (s.arrived e))⟩
/-! ## What a step keeps -/

theorem step_front {s : State} {c : Instr} {rest : List Instr} (h : s.pending = c :: rest) :
    step s = exec c { s with pending := rest } := by
  simp [step, h]

theorem step_empty {s : State} (h : s.pending = []) : step s = .next s.idle := by
  simp [step, h]

/-- A step answers a state with the front command gone, in which the memories keep their form. -/
theorem step_keeps (s : State) : ∃ t, step s = .next t ∧ Keeps { s with pending := s.pending.tail } t := by
  match h : s.pending with
  | [] =>
    refine ⟨_, step_empty h, ?_⟩
    have keeps := State.idle_keeps (Keeps.refl s)
    exact ⟨keeps.1.trans h, keeps.2⟩
  | c :: rest =>
    rw [step_front h]
    exact exec_keeps c _

theorem keeps_of_step {s t : State} (h : step s = .next t) : Keeps { s with pending := s.pending.tail } t := by
  obtain ⟨u, hu, keeps⟩ := step_keeps s
  cases h.symm.trans hu
  exact keeps

/-- Settles O4: what every command keeps, and what the idle tick keeps. -/
theorem memoryFormKeptByEveryStep : Obligations.MemoryFormKeptByEveryStep := by
  unfold Obligations.MemoryFormKeptByEveryStep
  exact fun s t ok h => (keeps_of_step h).2 ok

/-- Settles O5: no command touches the queue, and on an empty one there is none to take. -/
theorem stepTakesOneCommand : Obligations.StepTakesOneCommand := by
  unfold Obligations.StepTakesOneCommand
  exact fun s t h => (keeps_of_step h).1

/-- Settles O1: the front command runs on the rest of the queue, and every command answers a next state. -/
theorem stepRunsTheFrontCommand : Obligations.StepRunsTheFrontCommand := by
  unfold Obligations.StepRunsTheFrontCommand
  refine ⟨fun s c rest h => step_front h, fun s => ?_⟩
  obtain ⟨t, ht, -⟩ := step_keeps s
  exact ⟨t, ht⟩

/-! ## Reset -/

/-- Settles O3: at reset every memory is empty. -/
theorem resetMemoryCanonical : Obligations.ResetMemoryCanonical := by
  unfold Obligations.ResetMemoryCanonical
  refine ⟨rfl, fun f => ?_, rfl⟩
  have empty : vget State.reset.hostMem f = [] := vget_replicate 4 [] f f.isLt
  rw [empty]
  rfl

theorem State.reset_reg (a : Nat) : State.reset.reg a = resetWord a := rfl

theorem State.reset_ctxOf (q : Fin 16) (c : Fin 64) : State.reset.ctxOf q c = {} := by
  have row : vget State.reset.ctx q = Vector.replicate 64 {} := vget_replicate 16 _ q q.isLt
  unfold State.ctxOf
  rw [row]
  exact vget_replicate 64 _ c c.isLt

/-- Settles O6: every part of the reset state is an array of one initial value. -/
theorem resetState : Obligations.ResetState := by
  unfold Obligations.ResetState
  have seq (q : Fin 16) : vget State.reset.seq q = {} := vget_replicate 16 _ q q.isLt
  have enc (c : Fin 4) : vget State.reset.enc c = {} := vget_replicate 4 _ c c.isLt
  have kl (p : Fin 64) : vget State.reset.kl p = {} := vget_replicate 64 _ p p.isLt
  have str (p : Fin 64) : vget State.reset.str p = {} := vget_replicate 64 _ p p.isLt
  have ax (a : Fin 8) : vget State.reset.ax a = {} := vget_replicate 8 _ a a.isLt
  have sess (n : Fin 256) : vget State.reset.sess n = {} := vget_replicate 256 _ n n.isLt
  refine ⟨State.reset_reg, fun q c => ?_, fun q => ?_, fun g => ?_, fun c => ?_, fun p => ?_, fun a => ?_, fun n => ?_,
    fun u => ?_, rfl, rfl⟩
  · rw [State.reset_ctxOf]
  · rw [seq q]
    exact ⟨rfl, rfl⟩
  · exact vget_replicate 8 _ g g.isLt
  · rw [enc c]
    exact ⟨rfl, rfl⟩
  · rw [kl p, str p]
    exact ⟨rfl, rfl⟩
  · rw [ax a]
  · rw [sess n]
  · exact ⟨vget_replicate 101 _ u u.isLt, vget_replicate 101 _ u u.isLt⟩

/-! ## The idle tick -/

theorem State.fwPoll_idle {s : State} (h : s.pws.fwWait = none) : s.fwPoll = s := by
  simp [State.fwPoll, h]

/-- Settles O2: the idle tick is the arrival of a command that comes four quanta later, and a look at a waiting switch. -/
theorem emptyQueueLetsOneTickPass : Obligations.EmptyQueueLetsOneTickPass := by
  unfold Obligations.EmptyQueueLetsOneTickPass
  refine ⟨fun s h => ?_, fun s h calm hw => ⟨s.arrive idleEnv, ?_, ?_⟩⟩
  · exact ⟨_, step_empty h, (State.idle_keeps (Keeps.refl s)).1.trans h⟩
  · rw [step_empty h, State.idle, State.fwPoll_idle (by simpa [calm] using hw)]
  · have host : (s.arrive { dt := 4 }).hostMem = s.hostMem := by
      rw [State.arrive_calm calm]
      rfl
    simp [calm, host, idleEnv]

end Sys2Proof.Machine
end

section
/-! The Ramest instructions (03 R66, R72-R93): each is the common course of an instruction with its own effect -/
namespace Sys2Proof.Machine
open Sys2Proof

/-! ## The end of an instruction, by its effect -/

section
variable {u : State} {q op c n : Nat} {safe : Bool} {ticks : Ctx → Ram → Nat} {form : Ram → Bool}
  {eff : State → Nat → Ctx → Ram → Effect} {i : Ram} {g : Ctx → Ctx}

/-- The instruction leaves v with its own context changed: PC names the next word. -/
theorem State.ramest_next_in (h : u.Ends q c i n) (hn : ticks (u.ctxOf q c) i = n) (ho : i.op = op)
    (hs : safe = true ∨ (u.ctxOf q c).attr ≠ 1) (hf : form i = true) {v : State}
    (he : eff (u.fetched q c) c (u.ctxOf q c) i = .next (v.modCtx q c g)) (hv : v.ctxOf q c = u.ctxOf q c) :
    u.ramest q op safe ticks form eff = v.ran q c { g (u.ctxOf q c) with pc := (u.ctxOf q c).pc + 1 } := by
  rw [State.ramest_ends h hn ho hs hf, he]
  simp [State.complete, State.retire_modCtx, hv]

/-- The instruction only changed its own context: PC names the next word. -/
theorem State.ramest_next (h : u.Ends q c i n) (hn : ticks (u.ctxOf q c) i = n) (ho : i.op = op)
    (hs : safe = true ∨ (u.ctxOf q c).attr ≠ 1) (hf : form i = true)
    (he : eff (u.fetched q c) c (u.ctxOf q c) i = .next ((u.fetched q c).modCtx q c g)) :
    u.ramest q op safe ticks form eff =
      (u.fetched q c).ran q c { g (u.ctxOf q c) with pc := (u.ctxOf q c).pc + 1 } :=
  State.ramest_next_in h hn ho hs hf he (by simp)

/-- The instruction leaves v, in which its context is as it was: PC names the next word. -/
theorem State.ramest_skip_in (h : u.Ends q c i n) (hn : ticks (u.ctxOf q c) i = n) (ho : i.op = op)
    (hs : safe = true ∨ (u.ctxOf q c).attr ≠ 1) (hf : form i = true) {v : State}
    (he : eff (u.fetched q c) c (u.ctxOf q c) i = .next v) (hv : v.ctxOf q c = u.ctxOf q c) :
    u.ramest q op safe ticks form eff = v.ran q c { u.ctxOf q c with pc := (u.ctxOf q c).pc + 1 } := by
  rw [State.ramest_ends h hn ho hs hf, he]
  simp [State.complete, State.retire_eq, hv]

/-- The instruction changed nothing: PC names the next word. -/
theorem State.ramest_skip (h : u.Ends q c i n) (hn : ticks (u.ctxOf q c) i = n) (ho : i.op = op)
    (hs : safe = true ∨ (u.ctxOf q c).attr ≠ 1) (hf : form i = true)
    (he : eff (u.fetched q c) c (u.ctxOf q c) i = .next (u.fetched q c)) :
    u.ramest q op safe ticks form eff = (u.fetched q c).ran q c { u.ctxOf q c with pc := (u.ctxOf q c).pc + 1 } :=
  State.ramest_skip_in h hn ho hs hf he (by simp)

/-- The instruction changed its own context and goes to a target inside the image. -/
theorem State.ramest_jump (h : u.Ends q c i n) (hn : ticks (u.ctxOf q c) i = n) (ho : i.op = op)
    (hs : safe = true ∨ (u.ctxOf q c).attr ≠ 1) (hf : form i = true) {t : Nat}
    (he : eff (u.fetched q c) c (u.ctxOf q c) i = .jump ((u.fetched q c).modCtx q c g) t) (ht : t < (u.ctxOf q c).nwords) :
    u.ramest q op safe ticks form eff = (u.fetched q c).ran q c { g (u.ctxOf q c) with pc := t } := by
  rw [State.ramest_ends h hn ho hs hf, he]
  unfold State.complete
  dsimp only
  rw [State.fetched_ctxOf, if_neg (Nat.not_le.2 ht), State.retire_modCtx, State.fetched_ctxOf]

/-- The instruction goes to a target inside the image. -/
theorem State.ramest_goto (h : u.Ends q c i n) (hn : ticks (u.ctxOf q c) i = n) (ho : i.op = op)
    (hs : safe = true ∨ (u.ctxOf q c).attr ≠ 1) (hf : form i = true) {t : Nat}
    (he : eff (u.fetched q c) c (u.ctxOf q c) i = .jump (u.fetched q c) t) (ht : t < (u.ctxOf q c).nwords) :
    u.ramest q op safe ticks form eff = (u.fetched q c).ran q c { u.ctxOf q c with pc := t } := by
  rw [State.ramest_ends h hn ho hs hf, he]
  unfold State.complete
  dsimp only
  rw [State.fetched_ctxOf, if_neg (Nat.not_le.2 ht), State.retire_eq, State.fetched_ctxOf]

/-- The target is past the image. -/
theorem State.ramest_pcrange (h : u.Ends q c i n) (hn : ticks (u.ctxOf q c) i = n) (ho : i.op = op)
    (hs : safe = true ∨ (u.ctxOf q c).attr ≠ 1) (hf : form i = true) {s : State} {t : Nat}
    (he : eff (u.fetched q c) c (u.ctxOf q c) i = .jump s t) (ht : (u.ctxOf q c).nwords ≤ t) :
    u.ramest q op safe ticks form eff = (u.fetched q c).ctxFault q c 0x030A (u.ctxOf q c).pc := by
  rw [State.ramest_ends h hn ho hs hf, he]
  simp [State.complete, ht]

/-- The instruction faults. -/
theorem State.ramest_raise (h : u.Ends q c i n) (hn : ticks (u.ctxOf q c) i = n) (ho : i.op = op)
    (hs : safe = true ∨ (u.ctxOf q c).attr ≠ 1) (hf : form i = true) {code : Nat}
    (he : eff (u.fetched q c) c (u.ctxOf q c) i = .fault code) :
    u.ramest q op safe ticks form eff = (u.fetched q c).ctxFault q c code (u.ctxOf q c).pc := by
  rw [State.ramest_ends h hn ho hs hf, he]
  simp [State.complete]

/-- The instruction leaves a state that is final as it stands. -/
theorem State.ramest_final (h : u.Ends q c i n) (hn : ticks (u.ctxOf q c) i = n) (ho : i.op = op)
    (hs : safe = true ∨ (u.ctxOf q c).attr ≠ 1) (hf : form i = true) {s : State}
    (he : eff (u.fetched q c) c (u.ctxOf q c) i = .final s) :
    u.ramest q op safe ticks form eff = s := by
  rw [State.ramest_ends h hn ho hs hf, he]
  rfl

/-- The instruction retires in another state. -/
theorem State.ramest_retire (h : u.Ends q c i n) (hn : ticks (u.ctxOf q c) i = n) (ho : i.op = op)
    (hs : safe = true ∨ (u.ctxOf q c).attr ≠ 1) (hf : form i = true) {s : State}
    (he : eff (u.fetched q c) c (u.ctxOf q c) i = .next s) :
    u.ramest q op safe ticks form eff = s.retire q c ((u.ctxOf q c).pc + 1) := by
  rw [State.ramest_ends h hn ho hs hf, he]
  simp [State.complete]

end

/-! ## Arithmetic (03 R66, R74) -/

/-- Whether two words are the same, decided. -/
theorem word_beq (a b : Word) : (a == b) = decide (a = b) := rfl

theorem word_pred_ne {a : Word} (h : a ≠ 1) : a - 1 ≠ 0 := by bv_omega

theorem Ctx.addFlags_wr (x : Ctx) (a b : Word) (r : Nat) (v : Word) :
    (x.addFlags a b).wr r v = { x.wr r v with
      z := decide (a + b = 0), n := (a + b).msb, c := decide (2 ^ 64 ≤ a.toNat + b.toNat) } := by
  unfold Ctx.wr
  split <;> simp only [Ctx.addFlags, carryOut, word_beq]

theorem Ctx.subFlags_eq (x : Ctx) (a b : Word) :
    x.subFlags a b = { x with z := decide (a = b), n := decide (a.toInt < b.toInt), c := decide (a.toNat < b.toNat) } := by
  have zero : (a - b == 0) = decide (a = b) := by
    rw [word_beq, decide_eq_decide]
    exact ⟨fun h => by bv_omega, fun h => by rw [h, BitVec.sub_self]; rfl⟩
  simp only [Ctx.subFlags, zero, BitVec.slt_eq_decide, BitVec.ult_eq_decide]

theorem Ctx.subFlags_wr (x : Ctx) (a b : Word) (r : Nat) (v : Word) :
    (x.subFlags a b).wr r v = { x.wr r v with
      z := decide (a = b), n := decide (a.toInt < b.toInt), c := decide (a.toNat < b.toNat) } := by
  rw [Ctx.subFlags_eq]
  unfold Ctx.wr
  split <;> rfl

theorem Ctx.logicFlags_wr (x : Ctx) (k : Word) (r : Nat) (v : Word) :
    (x.logicFlags k).wr r v = { x.wr r v with z := decide (k = 0), n := k.msb } := by
  unfold Ctx.wr
  split <;> simp only [Ctx.logicFlags, word_beq]

/-- The special sources of `mov`. -/
theorem State.movValue_special (s : State) (q c : Nat) (x : Ctx) {i : Ram} (h : i.flag 0 = true) :
    s.movValue q c x i = if i.b = 0 then wd x.pc else if i.b = 1 then wd (vget s.seq q).ln
      else if i.b = 2 then wd (vget s.seq q).sw else fields [(0, 6, c), (8, 4, q), (16, 8, x.session)] := by
  rw [State.movValue, h]
  match i.b with
  | 0 | 1 | 2 => rfl
  | _ + 3 => rfl

/-- Settles O7: each instruction changes its own context only. -/
theorem arithmeticResultsAndFlags : Obligations.ArithmeticResultsAndFlags := by
  unfold Obligations.ArithmeticResultsAndFlags
  rintro e s u _ q c i _ _ _ hu rfl rfl rfl rfl h
  refine ⟨fun ho hf => ?_, fun ho hf => ?_, fun ho hf => ?_, fun ho hf => ?_, fun ho hf => ?_, fun ho hf => ?_,
    fun ho hf hS => ?_, fun ho hf hS hb => ?_⟩
  · rw [exec_ldi, execLdi, ← hu, State.ramest_next h rfl ho (.inl rfl) hf rfl]
    rfl
  · rw [exec_add, execAdd, ← hu, State.ramest_next h rfl ho (.inl rfl) hf rfl, Ctx.addFlags_wr]
  · rw [exec_sub, execSub, ← hu, State.ramest_next h rfl ho (.inl rfl) hf rfl, Ctx.subFlags_wr]
  · rw [exec_andI, execAndI, ← hu, State.ramest_next h rfl ho (.inl rfl) hf rfl, Ctx.logicFlags_wr]
  · rw [exec_orI, execOrI, ← hu, State.ramest_next h rfl ho (.inl rfl) hf rfl, Ctx.logicFlags_wr]
  · rw [exec_cmp, execCmp, ← hu, State.ramest_next h rfl ho (.inl rfl) hf rfl, Ctx.subFlags_eq]
  · rw [exec_mov, execMov, ← hu, State.ramest_next h rfl ho (.inl rfl) (by simp [hf, hS]) rfl]
    simp only [State.movValue, hS]
    rfl
  · rw [exec_mov, execMov, ← hu, State.ramest_next h rfl ho (.inl rfl) (by simp [hf, hb]) rfl]
    simp only [State.movValue_special _ _ _ _ hS, State.fetched_seq]

/-! ## Control (03 R63, R72) -/

theorem loopTaken_of_more {x : Ctx} {i : Ram} (h0 : x.rd i.a ≠ 0) (h1 : x.rd i.a ≠ 1) : loopTaken x i = true := by
  have last : x.rd i.a - 1 ≠ 0 := word_pred_ne h1
  simp only [loopTaken, loopNext, Bool.and_eq_true, bne_iff_ne]
  exact ⟨h0, last⟩

/-- Settles O8. -/
theorem controlFlow : Obligations.ControlFlow := by
  unfold Obligations.ControlFlow
  rintro e s u _ q c n i _ hu rfl rfl h
  refine ⟨?nop, ?jmp, ?jmpPast, ?brc, ?brcNot, ?call, ?callFull, ?ret, ?retEmpty, ?loop, ?loopLast, ?loopZero⟩
  case nop =>
    rintro rfl ho hf
    rw [exec_nop, execNop, ← hu, State.ramest_skip h rfl ho (.inl rfl) hf rfl]
  case jmp =>
    rintro rfl ho hf ht
    rw [exec_jmp, execJmp, ← hu, State.ramest_goto h rfl ho (.inl rfl) hf rfl ht]
  case jmpPast =>
    rintro rfl ho hf ht
    rw [exec_jmp, execJmp, ← hu, State.ramest_pcrange h rfl ho (.inl rfl) hf rfl ht]
  case brc =>
    rintro rfl ho hcf hf hc ht
    rw [exec_brc, execBrc, ← hu, State.ramest_goto h (by simp [hc]) ho (.inl rfl) (by simp [hcf, hf]) (if_pos hc) ht]
  case brcNot =>
    rintro rfl ho hcf hf hc
    rw [exec_brc, execBrc, ← hu, State.ramest_skip h (by simp [hc]) ho (.inl rfl) (by simp [hcf, hf]) (if_neg (by simp [hc]))]
  case call =>
    rintro rfl ho hf hl ht
    have room : ¬ 8 ≤ (u.ctxOf q c).stack.length := by omega
    rw [exec_call, execCall, ← hu, State.ramest_jump h rfl ho (.inl rfl) hf (if_neg room) ht]
  case callFull =>
    rintro rfl ho hf hl
    rw [exec_call, execCall, ← hu, State.ramest_raise h rfl ho (.inl rfl) hf (if_pos hl)]
  case ret =>
    rintro rfl ho hf t l hst ht
    rw [exec_ret, execRet, ← hu, State.ramest_jump h rfl ho (.inl rfl) hf (by rw [stepRet, hst]) ht]
  case retEmpty =>
    rintro rfl ho hf hst
    rw [exec_ret, execRet, ← hu, State.ramest_raise h rfl ho (.inl rfl) hf (by rw [stepRet, hst])]
  case loop =>
    rintro rfl ho hf h0 h1 ht
    have taken := loopTaken_of_more h0 h1
    have more : (u.ctxOf q c).rd i.a - 1 ≠ 0 := word_pred_ne h1
    rw [exec_loop, execLoop, ← hu, State.ramest_jump h (if_pos taken) ho (.inl rfl) hf ((if_neg h0).trans (if_pos taken)) ht]
    simp only [loopNext, word_beq, more, decide_false]
  case loopLast =>
    rintro rfl ho hf h1
    have h0 : (u.ctxOf q c).rd i.a ≠ 0 := by rw [h1]; decide
    have last : loopNext (u.ctxOf q c) i = 0 := by rw [loopNext, h1]; rfl
    have leave : ¬ loopTaken (u.ctxOf q c) i = true := by simp [loopTaken, last]
    rw [exec_loop, execLoop, ← hu, State.ramest_next h (if_neg leave) ho (.inl rfl) hf ((if_neg h0).trans (if_neg leave)), last]
    rfl
  case loopZero =>
    rintro rfl ho hf h0
    have leave : ¬ loopTaken (u.ctxOf q c) i = true := by simp [loopTaken, h0]
    rw [exec_loop, execLoop, ← hu, State.ramest_skip h (if_neg leave) ho (.inl rfl) hf (if_pos h0)]

/-! ## Loads (03 R75-R77) -/

@[simp] theorem State.fetched_holds (u : State) (q c n k : Nat) : (u.fetched q c).holds n k = u.holds n k := by
  simp [State.holds, State.holder]

/-- Settles O9. -/
theorem loadInstructions : Obligations.LoadInstructions := by
  unfold Obligations.LoadInstructions
  rintro e s u _ q c n i _ hu rfl rfl h
  have raises (hn : n = 4) (ho : i.op = 0x17) (hf : i.ldst = true)
      (hb : (u.fetched q c).ldstBound q (u.ctxOf q c).session (u.ctxOf q c).prio (i.imm % 256) (i.imm / 256) = false) :
      exec (.ldst e q) s = .next ((u.fetched q c).ctxFault q c 0x0308 (u.ctxOf q c).pc) := by
    subst hn
    rw [exec_ldst, execLdst, ← hu, State.ramest_raise h rfl ho (.inl rfl) hf (if_pos (by simp [hb]))]
  have loads (hn : n = 4) (ho : i.op = 0x17) (hf : i.ldst = true)
      (hb : (u.fetched q c).ldstBound q (u.ctxOf q c).session (u.ctxOf q c).prio (i.imm % 256) (i.imm / 256) = true) :
      exec (.ldst e q) s = .next ((u.fetched q c).ran q c { (u.ctxOf q c).wr i.a
        ((u.fetched q c).ldstWord q (i.imm % 256) (i.imm / 256)) with pc := (u.ctxOf q c).pc + 1 }) := by
    subst hn
    rw [exec_ldst, execLdst, ← hu, State.ramest_next h rfl ho (.inl rfl) hf (if_neg (by simp [hb]))]
  have times (hn : n = 2) (ho : i.op = 0x18) (hf : i.only 0 true false 7 = true) (hi : i.imm < 5) :
      exec (.ldt e q) s = .next ((u.fetched q c).ran q c { (u.ctxOf q c).wr i.a
        ((u.fetched q c).ldtWord q i.imm) with pc := (u.ctxOf q c).pc + 1 }) := by
    subst hn
    rw [exec_ldt, execLdt, ← hu, State.ramest_next h rfl ho (.inl rfl) (by simp [hf, hi]) rfl]
  have positions (hn : n = 4) (ho : i.op = 0x19) (hf : i.ldpos = true) :
      exec (.ldpos e q) s = .next ((u.fetched q c).ran q c { (u.ctxOf q c).wr i.a
        ((u.fetched q c).ldposWord q (i.imm / 16) (i.imm % 4)) with pc := (u.ctxOf q c).pc + 1 }) := by
    subst hn
    rw [exec_ldpos, execLdpos, ← hu, State.ramest_next h rfl ho (.inl rfl) hf rfl]
  refine ⟨loads, raises, fun hn ho hf hi hh => ?_, fun hn ho hf hi hp hh => ?_, fun hn ho hf hi => ?_, fun hn ho hf hi => ?_,
    times, fun hn ho hf hi => ?_, positions⟩
  · refine raises hn ho hf ?_
    simp [State.ldstBound, hi, hh]
  · refine raises hn ho hf ?_
    simp [State.ldstBound, hi, hp, hh]
  · rw [loads hn ho hf (by simp [State.ldstBound, hi]), hi]
    simp [State.ldstWord]
  · rw [times hn ho hf (by omega), hi]
    simp [State.ldtWord, State.ticks]
  · rw [positions hn ho hf, hi]
    simp [State.ldposWord]

/-! ## Line queue entries and settings (03 R79, R82) -/

@[simp] theorem State.fetched_ownsSwath (u : State) (q c : Nat) (d : Nat) : (u.fetched q c).ownsSwath q d = u.ownsSwath q d := by
  simp [State.ownsSwath]

section
variable {f : State} {q c n pat : Nat} {kind : LnKind}

theorem State.appendLn_appends (hk : f.countOk q c n = true) (own : f.ownsSwath q c = true)
    (room : (vget f.seq q).lnq.length < 16) :
    f.appendLn q c n pat kind = .next ((f.modSeq q (fun x => { x with
      lnq := x.lnq ++ [{ kind := kind, left := n, pat := pat }], printed := some (f.now, c) })).modCtx q c
        (fun y => { y with t := false })) := by
  simp [State.appendLn, hk, own, room]

theorem State.appendLn_noSwath (hk : f.countOk q c n = true) (own : f.ownsSwath q c = false) (cut : f.cutShort q c = false) :
    f.appendLn q c n pat kind = .fault 0x0306 := by
  simp [State.appendLn, hk, own, cut]

theorem State.appendLn_cut (hk : f.countOk q c n = true) (own : f.ownsSwath q c = false) (cut : f.cutShort q c = true) :
    f.appendLn q c n pat kind = .next (f.modCtx q c (fun y => { y with t := true })) := by
  simp [State.appendLn, hk, own, cut]

theorem State.appendLn_operand (hk : f.countOk q c n = false) : f.appendLn q c n pat kind = .fault 0x0302 := by
  simp [State.appendLn, hk]

end

/-! What an instruction leaves that appends an entry: the entry in the queue, NOSWATH, T set, or OPERAND. -/
section
variable {u : State} {q c op n pat : Nat} {i : Ram} {form : Ram → Bool} {kind : LnKind} {eff : State → Nat → Ctx → Ram → Effect}
  (h : u.Ends q c i 2) (ha : (u.ctxOf q c).attr ≠ 1) (ho : i.op = op) (hf : form i = true)
  (he : eff (u.fetched q c) c (u.ctxOf q c) i = (u.fetched q c).appendLn q c n pat kind)
include h ha ho hf he

theorem State.ramest_appends (hk : (u.fetched q c).countOk q c n = true) (own : (u.fetched q c).ownsSwath q c = true)
    (room : (vget u.seq q).lnq.length < 16) :
    u.ramest q op false (takes 2) form eff = (((u.fetched q c).modSeq q (fun x => { x with
      lnq := x.lnq ++ [{ kind := kind, left := n, pat := pat }], printed := some (u.now, c) })).ran q c
        { u.ctxOf q c with t := false, pc := (u.ctxOf q c).pc + 1 }) := by
  have entry := State.appendLn_appends (kind := kind) (pat := pat) hk own (by simpa using room)
  rw [State.ramest_next_in h rfl ho (.inr ha) hf (he.trans entry) (by simp), State.fetched_now]

theorem State.ramest_append_noSwath (hk : (u.fetched q c).countOk q c n = true) (own : (u.fetched q c).ownsSwath q c = false)
    (cut : (u.fetched q c).cutShort q c = false) :
    u.ramest q op false (takes 2) form eff = (u.fetched q c).ctxFault q c 0x0306 (u.ctxOf q c).pc := by
  rw [State.ramest_raise h rfl ho (.inr ha) hf (he.trans (State.appendLn_noSwath hk own cut))]

theorem State.ramest_append_cut (hk : (u.fetched q c).countOk q c n = true) (own : (u.fetched q c).ownsSwath q c = false)
    (cut : (u.fetched q c).cutShort q c = true) :
    u.ramest q op false (takes 2) form eff =
      (u.fetched q c).ran q c { u.ctxOf q c with t := true, pc := (u.ctxOf q c).pc + 1 } := by
  rw [State.ramest_next h rfl ho (.inr ha) hf (he.trans (State.appendLn_cut hk own cut))]

theorem State.ramest_append_operand (hk : (u.fetched q c).countOk q c n = false) :
    u.ramest q op false (takes 2) form eff = (u.fetched q c).ctxFault q c 0x0302 (u.ctxOf q c).pc := by
  rw [State.ramest_raise h rfl ho (.inr ha) hf (he.trans (State.appendLn_operand hk))]

end

/-- Settles O10. -/
theorem printSettings : Obligations.PrintSettings := by
  unfold Obligations.PrintSettings
  rintro e s u _ q c i _ _ _ hu rfl rfl rfl rfl h ha
  simp only [exec_lines, execLines, exec_blank, execBlank, exec_spit, execSpit, exec_pitch, execPitch, exec_rowdly, execRowdly,
    exec_energy, execEnergy, ← hu]
  refine ⟨fun ho hf hk own room => ?_, fun ho hf hk own room => ?_, fun ho hf hk own room => ?_,
    fun ho hf hk own cut => ?_, fun ho hf hk own cut => ?_, fun ho hf hk own cut => ?_,
    fun ho hf hk own cut => ?_, fun ho hf hk own cut => ?_, fun ho hf hk own cut => ?_,
    fun ho hf hk => ?_, fun ho hf hk => ?_, fun ho hf hk => ?_, ?pitch, ?pitchOut, ?rowdly, ?rowdlyOut, ?energyOut, ?energy⟩
  · rw [State.ramest_appends h ha ho hf rfl hk own room]
  · rw [State.ramest_appends h ha ho hf rfl hk own room]
  · rw [State.ramest_appends h ha ho hf rfl hk own room]
  · rw [State.ramest_append_noSwath h ha ho hf rfl hk own cut]
  · rw [State.ramest_append_noSwath h ha ho hf rfl hk own cut]
  · rw [State.ramest_append_noSwath h ha ho hf rfl hk own cut]
  · rw [State.ramest_append_cut h ha ho hf rfl hk own cut]
  · rw [State.ramest_append_cut h ha ho hf rfl hk own cut]
  · rw [State.ramest_append_cut h ha ho hf rfl hk own cut]
  · rw [State.ramest_append_operand h ha ho hf rfl hk]
  · rw [State.ramest_append_operand h ha ho hf rfl hk]
  · rw [State.ramest_append_operand h ha ho hf rfl hk]
  case pitch =>
    intro ho hf hlo hhi
    rw [State.ramest_skip_in h rfl ho (.inr ha) hf (if_neg (by simp; omega)) (by simp)]
  case pitchOut =>
    intro ho hf hv
    rw [State.ramest_raise h rfl ho (.inr ha) hf (if_pos (by simpa using hv))]
  case rowdly =>
    intro ho hf hv
    rw [State.ramest_skip_in h rfl ho (.inr ha) hf (if_neg (by omega)) (by simp)]
  case rowdlyOut =>
    intro ho hf hv
    rw [State.ramest_raise h rfl ho (.inr ha) hf (if_pos hv)]
  case energyOut =>
    intro ho hf h0 hv
    rw [State.ramest_raise h rfl ho (.inr ha) hf (if_pos (by simp; omega))]
  case energy =>
    intro ho hf hv
    rw [State.ramest_skip_in h rfl ho (.inr ha) hf (if_neg (by simp; omega)) (by simp)]

end Sys2Proof.Machine
end

section
/-! Waits (03 R69, R73, R83-R87) -/
namespace Sys2Proof.Machine
open Sys2Proof

/-! ## The entry of a wait -/

theorem State.waitClears_ctxOf (u : State) (q : Nat) (k : WaitKind) (a b : Nat) : (u.waitClears q k).ctxOf a b = u.ctxOf a b :=
  State.ctxOf_eq (u.waitClears_ctx q k).1 a b

/-- A context enters a wait: completed at once, timed out at once, or WAITING. -/
theorem State.enterWait_enters (f : State) (q : Fin 16) (c n : Nat) (k : WaitKind) (dl : Nat) :
    f.Enters q c n (f.ctxOf q c) dl k (.next (f.enterWait q c n k dl)) := by
  refine ⟨fun holds => ?_, fun holds short => ?_, fun holds long1 long2 => ?_⟩
  · simp only [State.enterWait, holds, if_true, State.retire_modCtx, State.waitClears_ctxOf]
  · have now : (dl == 1 || dl == 2) = true := by simpa using short
    simp only [State.enterWait, holds, now, if_true, State.retire_modCtx]
    rfl
  · have later : (dl == 1 || dl == 2) = false := by simp [long1, long2]
    simp only [State.enterWait, holds, later]
    exact congrArg _ (State.modCtx_congr f q c rfl)

/-- An instruction whose effect is a wait enters it. -/
theorem State.ramest_enters {u : State} {q : Fin 16} {op c n : Nat} {form : Ram → Bool}
    {eff : State → Nat → Ctx → Ram → Effect} {i : Ram} {k : WaitKind} {dl : Nat} (h : u.Ends q c i n) (ho : i.op = op)
    (hf : form i = true) (he : eff (u.fetched q c) c (u.ctxOf q c) i = .hold (u.fetched q c) k dl) :
    (u.fetched q c).Enters q c n (u.ctxOf q c) dl k (.next (u.ramest q op true (takes n) form eff)) := by
  rw [State.ramest_ends h rfl ho (.inl rfl) hf, he, ← u.fetched_ctxOf q c q c]
  exact State.enterWait_enters _ q c n k dl

/-! ## The end of a pending wait -/

section
variable {u : State} {q : Fin 16} {c : Fin 64} {k : WaitKind} {d : Option Nat} (hst : (u.ctxOf q c).st = .waiting)
  (hw : (u.ctxOf q c).wait = some { kind := k, deadline := d })
include hst hw

theorem State.waitComplete_eq : u.waitComplete q c =
    if u.pws.gap.isNone && u.waitHolds q c k && !d.any u.expired then (u.waitClears q k).endWait q c false else u := by
  simp only [State.waitComplete, hst, hw]

theorem State.waitTimeout_eq {t : Nat} (hd : d = some t) : u.waitTimeout q c =
    if u.now < t || u.pws.gap.isSome then u
    else if u.waitHolds q c k && !u.expired t then (u.waitClears q k).endWait q c false else u.endWait q c true := by
  simp only [State.waitTimeout, hst, hw, hd]

end

/-- A wait that ends leaves its context READY at the next word. -/
theorem State.endWait_eq (u v : State) (q c : Nat) (t : Bool) (hv : v.ctxOf q c = u.ctxOf q c) (hn : v.now = u.now) :
    v.endWait q c t = v.modCtx q c (fun _ => { u.ctxOf q c with
      st := .ready, wait := none, t := t, readyAt := u.now, pc := (u.ctxOf q c).pc + 1 }) :=
  State.modCtx_congr v q c (by simp [hv, hn])

/-- Settles O11. -/
theorem waitsBeginAndEnd : Obligations.WaitsBeginAndEnd := by
  unfold Obligations.WaitsBeginAndEnd
  refine ⟨?enter, ?pending⟩
  case enter =>
    rintro e s u _ q c n i _ hu rfl rfl h
    refine ⟨?fence, ?waitpos, ?waittime, ?waitev, ?waitax, ?waitaxUnbound⟩
    case fence =>
      rintro rfl ho hf
      rw [exec_fence, execFence, ← hu]
      exact State.ramest_enters h ho hf rfl
    case waitpos =>
      rintro rfl ho hf
      rw [exec_waitpos, execWaitpos, ← hu]
      exact State.ramest_enters h ho hf rfl
    case waittime =>
      rintro rfl ho hf hcf
      rw [exec_waittime, execWaittime, ← hu]
      exact State.ramest_enters h ho (by simp [hf, hcf]) rfl
    case waitev =>
      rintro rfl ho hf hi
      rw [exec_waitev, execWaitev, ← hu]
      exact State.ramest_enters h ho (by rw [hf]; simp [hi]) rfl
    case waitax =>
      rintro rfl ho hf hh
      rw [exec_waitax, execWaitax, ← hu]
      exact State.ramest_enters h ho hf (if_neg (by simp only [hh]; decide))
    case waitaxUnbound =>
      rintro rfl ho hf hh
      rw [exec_waitax, execWaitax, ← hu, State.ramest_raise h rfl ho (.inl rfl) hf (if_pos (by simp only [hh]; decide))]
  case pending =>
    rintro e s u q c _ k d hu rfl hst hw hgap
    have clears (t : Bool) := State.endWait_eq u (u.waitClears q k) q c t (u.waitClears_ctxOf q k q c) (u.waitClears_ctx q k).2
    simp only [exec_waitComplete, execWaitComplete, exec_waitTimeout, execWaitTimeout, ← hu, State.waitComplete_eq hst hw]
    refine ⟨fun holds early => ?_, fun t hd past come => ?_, fun t hd holds intime come => ?_, fun holds => ?_,
      fun t hd before => ?_⟩
    · have intime : d.any u.expired = false := by
        cases d with
        | none => rfl
        | some t => simpa using early t rfl
      simp only [hgap, holds, intime, clears]
      rfl
    · have lost : (u.waitHolds q c k && !u.expired t) = false := by
        rcases past with e | e <;> simp [e]
      rw [State.waitTimeout_eq hst hw hd, lost, if_neg (by simp [hgap, come])]
      simp only [State.endWait_eq u u q c true rfl rfl]
      rfl
    · rw [State.waitTimeout_eq hst hw hd, if_neg (by simp [hgap, come]), if_pos (by simp [holds, intime]), clears]
    · simp [holds]
    · rw [State.waitTimeout_eq hst hw hd, if_pos (by simp [before])]

end Sys2Proof.Machine
end

section
/-! Stopping, giving way, and the dispatcher (02 R32-R36, R41; 03 R64, R72) -/
namespace Sys2Proof.Machine
open Sys2Proof

/-- Two changes of one sequencer are one. -/
theorem State.modSeq_modSeq (s : State) (q : Nat) (f g : Seq → Seq) :
    (s.modSeq q f).modSeq q g = s.modSeq q (fun y => g (f y)) :=
  congrArg (fun m => { s with seq := m }) (vmod_vmod s.seq q f g)

theorem State.modSeq_modCtx (s : State) (q a c : Nat) (f : Seq → Seq) (g : Ctx → Ctx) :
    (s.modSeq q f).modCtx a c g = (s.modCtx a c g).modSeq q f := rfl

/-! ## `halt` and `yield` -/

theorem State.haltCtx_next (f : State) (q c pc : Nat) :
    (f.modCtx q c (fun y => { y with pc := pc })).haltCtx q c =
      f.modCtx q c (fun _ => { f.ctxOf q c with st := .halted, wait := none, pc := pc }) := by
  rw [State.haltCtx, State.modCtx_modCtx]
  exact State.modCtx_congr f q c rfl

theorem State.retire_giveWay (f : State) (q c pc : Nat) :
    (f.retire q c pc).giveWay q c =
      (f.modCtx q c (fun _ => { f.ctxOf q c with st := .ready, readyAt := f.now, pc := pc })).modSeq q
        (fun y => { y with freeAt := f.now + 4, disp := .saving f.now }) := by
  rw [State.giveWay, State.retire, State.modSeq_modCtx, State.modSeq_modSeq, State.modCtx_modCtx]
  exact congrArg (fun s : State => s.modSeq q _) (State.modCtx_congr f q c rfl)

/-- The close of a swath by `halt`: the swath is closed, and its context HALTED at the next word. -/
theorem State.closeSwath_halts (f : State) (q : Fin 16) (c : Fin 64) (pc : Nat) (h : (vget f.seq q).swst = .opened)
    {t : State} (ht : t = ((f.closeSwath q).modCtx q c (fun y => { y with pc := pc })).haltCtx q c) :
    (t.ctxOf q c).st = .halted ∧ (t.ctxOf q c).wait = none ∧ (t.ctxOf q c).pc = pc ∧
      (vget t.seq q).swst = .closed ∧ (vget t.seq q).owner = none := by
  obtain ⟨closed, noOwner, -⟩ := State.closeSwath_ends f q h
  subst ht
  rw [State.haltCtx_next, State.ctxOf_modCtx]
  exact ⟨rfl, rfl, rfl, closed, noOwner⟩

theorem State.ownsSwath_iff {s : State} {q c : Nat} :
    s.ownsSwath q c = true ↔ (vget s.seq q).swst = .opened ∧ (vget s.seq q).owner = some c := by
  simp [State.ownsSwath]

/-! ## The dispatcher -/

section
variable {u : State} {q : Fin 16} {c : Fin 64} (hgap : u.pws.gap = none) (hphase : u.phase = .ready)
include hgap hphase

theorem State.dispatch_picks (hd : (vget u.seq q).disp = .idle) (hr : u.running q = none) (hp : u.pick q 0 = some c.val) :
    u.dispatch q = u.turnTo q c := by
  simp [State.dispatch, hgap, hphase, hd, hr, hp]

theorem State.dispatch_running (hd : (vget u.seq q).disp = .idle) (hr : u.running q = some c.val) :
    u.dispatch q = if u.atBoundary q && (u.pick q ((u.ctxOf q c).prio + 1)).isSome then u.giveWay q c else u := by
  simp [State.dispatch, hgap, hphase, hd, hr]

theorem State.dispatch_restoring {t : Nat} (hd : (vget u.seq q).disp = .restoring c t) : u.dispatch q = u.overtake q c := by
  simp [State.dispatch, hgap, hphase, hd]

end

section
variable {u : State} {q : Fin 16} {c : Fin 64}

theorem State.turnTo_resident (h : (vget u.seq q).resident = some c.val) : u.turnTo q c = u.runCtx q c := by
  simp [State.turnTo, h]

theorem State.turnTo_empty (h : (vget u.seq q).resident = none) :
    u.turnTo q c = u.modSeq q (fun y => { y with resident := none, disp := .restoring c u.now }) := by
  simp [State.turnTo, State.toSave, h]

/-- Another context is resident that can still run: it is saved first. -/
theorem State.turnTo_saves {d : Fin 64} (h : (vget u.seq q).resident = some d.val) (hne : d ≠ c)
    (hst : (u.ctxOf q d).st = .ready ∨ (u.ctxOf q d).st = .waiting) :
    u.turnTo q c = u.modSeq q (fun y => { y with disp := .saving u.now }) := by
  have other : ¬ d.val = c.val := fun e => hne (Fin.ext e)
  have save : u.toSave q = true := by
    simp only [State.toSave, h]
    rcases hst with e | e <;> simp [e]
  simp [State.turnTo, h, other, save]

theorem State.atBoundary_iff : u.atBoundary q = true ↔ (vget u.seq q).freeAt ≤ u.now ∧ u.now < (vget u.seq q).freeAt + 4 := by
  simp only [State.atBoundary, Bool.and_eq_true, decide_eq_true_eq]
  rfl

/-- A context that runs from now on: RUNNING, resident, and its sequencer free. -/
theorem State.runCtx_runs (s : State) (q : Fin 16) (c : Fin 64) :
    (s.runCtx q c).ctxOf q c = { s.ctxOf q c with st := .running } ∧ (vget (s.runCtx q c).seq q).resident = some c.val ∧
      (vget (s.runCtx q c).seq q).disp = .idle ∧ (vget (s.runCtx q c).seq q).freeAt = s.now := by
  refine ⟨?_, ?_⟩
  · rw [State.runCtx, State.modSeq_ctxOf, State.ctxOf_modCtx]
  · simp [State.runCtx, vget_vmod_fin]

end

@[simp] theorem State.setReg_now (s : State) (a : Nat) (v : Word) : (s.setReg a v).now = s.now := rfl

theorem State.flipUse_now (s : State) (a : Nat) : (s.flipUse a).now = s.now := by
  simp only [State.flipUse, State.postAll_now, State.setReg_now]

/-- A write to the die's memory takes no time. -/
theorem State.sramWrite_now (s : State) (w n : Nat) : (s.sramWrite w n).1.now = s.now := by
  have flip : (s.flipSram w n).1.now = s.now := by
    unfold State.flipSram
    dsimp only
    (repeat' split) <;> simp only [State.flipUse_now]
  exact flip

section
variable {u : State} {q : Fin 16} {c : Fin 64} {t : Nat} (hgap : u.pws.gap = none)
include hgap

theorem State.restoreDone_runs (hd : (vget u.seq q).disp = .restoring c t) (due : u.due t 256 = true)
    (ready : (u.ctxOf q c).st = .ready) (good : u.ctxBad.contains (64 * q.val + c.val) = false) :
    u.restoreDone q = ((u.modSeq q (fun y => { y with disp := .idle })).sramRead
      (Config.storeIndex (ctxStoreIdx q c) true) 128).runCtx q c := by
  have slot : u.ctxBad.contains (ctxStoreIdx q c) = false := good
  simp only [State.restoreDone, hd, qTick, due, hgap, State.modSeq_ctxOf, ready, State.modSeq_ctxBad, slot]
  rfl

/-- The save is done: the dispatcher picks again, with no context resident. -/
theorem State.saveDone_picks (hd : (vget u.seq q).disp = .saving t) (due : u.due t 256 = true) {k : Nat} {r : State × List Nat}
    {v : State} (hk : k = 64 * q.val + (vget u.seq q).resident.getD 0) (hr : r = u.sramWrite (Config.storeIndex k true) 128)
    (hv : v = ({ r.1 with ctxBad := (if r.2.isEmpty then [] else [k]) ++ r.1.ctxBad.filter (· != k) } : State).modSeq q
      (fun y => { y with resident := none, disp := .idle })) :
    u.saveDone q = (match v.pick q 0 with | some d => v.turnTo q d | none => v) := by
  subst hk hr hv
  simp only [State.saveDone, hd, qTick, due, hgap]
  rfl

end

/-- Settles O12. -/
theorem contextsStopAndAreDispatched : Obligations.ContextsStopAndAreDispatched := by
  unfold Obligations.ContextsStopAndAreDispatched
  refine ⟨?instructions, ?dispatcher⟩
  case instructions =>
    rintro e s u _ q c i _ hu rfl rfl h hf
    simp only [exec_halt, execHalt, exec_yieldI, execYieldI, ← hu]
    refine ⟨fun ho own => ?_, fun ho own more => ?_, fun ho own done => ?_, fun ho hp => ?_, fun ho hp => ?_⟩
    · rw [State.ramest_final h rfl ho (.inl rfl) hf (if_pos (by simp [own])), State.haltCtx_next, State.fetched_ctxOf]
    · obtain ⟨-, -, waits⟩ := State.ramest_enters (eff := fun s c => stepHalt s q c) (form := fun i => i.only 0 false false 0)
        (k := .closing) (dl := 0) h ho hf (by simp [stepHalt, own, more])
      exact waits rfl (by decide) (by decide)
    · obtain ⟨opened, -⟩ := State.ownsSwath_iff.1 own
      refine ⟨_, rfl, State.closeSwath_halts _ q c _ opened ?_⟩
      exact State.ramest_final h rfl ho (.inl rfl) hf ((if_neg (by simp [own])).trans (if_pos done))
    · rw [State.ramest_skip h rfl ho (.inl rfl) hf (if_neg (by simp [hp]))]
    · rw [State.ramest_final h rfl ho (.inl rfl) hf (if_pos hp), State.retire_giveWay, State.fetched_ctxOf, State.fetched_now]
  case dispatcher =>
    rintro e s u q c _ hu rfl hgap hphase
    simp only [exec_contextDispatch, execContextDispatch, exec_contextSaveDone, execContextSaveDone, exec_contextRestoreDone,
      execContextRestoreDone, ← hu]
    refine ⟨fun hd hr hp => ?_, fun hd hr hp => ?_, fun t d hd hp => ?_, fun t hd due ready good => ?_,
      fun t k r v hd due hk hres hv => ?_, fun t hd due => ?_⟩
    · rw [State.dispatch_picks hgap hphase hd hr hp]
      refine ⟨fun hres => ?_, fun hres => ?_, fun d hres hne hst => ?_⟩
      · rw [State.turnTo_resident hres]
      · rw [State.turnTo_empty hres]
      · rw [State.turnTo_saves hres hne hst]
    · rw [State.dispatch_running hgap hphase hd hr, hp]
      refine ⟨fun lo hi => ?_, fun off => ?_⟩
      · rw [State.atBoundary_iff.2 ⟨lo, hi⟩]
        rfl
      · have away : u.atBoundary q = false := by
          rw [← Bool.not_eq_true, State.atBoundary_iff]
          omega
        rw [away]
        rfl
    · rw [State.dispatch_restoring hgap hphase hd, State.overtake, hp]
    · rw [State.restoreDone_runs hgap hd due ready good]
      refine ⟨_, rfl, ?_⟩
      obtain ⟨runs, resident, idle, free⟩ := State.runCtx_runs
        ((u.modSeq q (fun y => { y with disp := .idle })).sramRead (Config.storeIndex (ctxStoreIdx q c) true) 128) q c
      exact ⟨by simpa [State.ctxOf] using runs, resident, idle, by simpa using free⟩
    · have empty : (vget v.seq q).resident = none := by rw [hv, State.modSeq_seq, vget_vmod_fin]
      have now : v.now = u.now := by rw [hv, State.modSeq_now, hres, State.sramWrite_now]
      rw [State.saveDone_picks hgap hd due hk hres hv]
      refine ⟨fun hp => by rw [hp], fun hp => ?_⟩
      rw [hp]
      exact congrArg _ (now ▸ State.turnTo_empty empty)
    · rcases hd with hd | hd <;> simp [State.saveDone, State.restoreDone, hd, due, qTick]

end Sys2Proof.Machine
end

section
/-! What stops a context at an instruction (03 R71, R535) -/
namespace Sys2Proof.Machine
open Sys2Proof

/-- The command of a row is the common course of an instruction with the row's opcode, of 16 ticks at most. -/
def RunsRamest (e : Env) (q : Fin 16) (s : State) (r : Instr × Nat × Bool) : Prop :=
  ∃ ticks form eff, (∀ x i, ticks x i ≤ 16) ∧ exec r.1 s = .next ((s.arrive e).ramest q r.2.1 r.2.2 ticks form eff)

section
variable {e : Env} {q : Fin 16} {s : State} {r : Instr × Nat × Bool} {form : Ram → Bool} {eff : State → Nat → Ctx → Ram → Effect}

theorem RunsRamest.ofTakes {n : Nat} (h : exec r.1 s = .next ((s.arrive e).ramest q r.2.1 r.2.2 (takes n) form eff))
    (hn : n ≤ 16) : RunsRamest e q s r :=
  ⟨_, _, _, fun _ _ => hn, h⟩

/-- A branch takes one tick more where it is taken. -/
theorem RunsRamest.ofBranch {taken : Ctx → Ram → Bool}
    (h : exec r.1 s = .next ((s.arrive e).ramest q r.2.1 r.2.2 (fun x i => if taken x i then 2 else 1) form eff)) :
    RunsRamest e q s r :=
  ⟨_, _, _, fun _ _ => by split <;> decide, h⟩

end

theorem ramestRows_run (e : Env) (q : Fin 16) (s : State) : ∀ r ∈ ramestRows e q, RunsRamest e q s r := by
  simp only [ramestRows, List.cons_append, List.nil_append, List.forall_mem_cons]
  refine ⟨?nop, ?halt, ?jmp, ?brc, ?call, ?ret, ?loop, ?fence, ?ldi, ?add, ?sub, ?and, ?or, ?cmp, ?mov, ?ldst, ?ldt, ?ldpos,
    ?swath, ?lines, ?blank, ?endswath, ?spit, ?pitch, ?rowdly, ?energy, ?waitpos, ?waittime, ?waitev, ?signal, ?mark, ?commit,
    ?yield, ?move, ?vel, ?acc, ?stop, ?home, ?waitax, ?camtrig, ?camset, fun _ mem => nomatch mem⟩
  case brc => exact RunsRamest.ofBranch (taken := fun x i => x.cond i.cf) rfl
  case loop => exact RunsRamest.ofBranch (taken := loopTaken) rfl
  all_goals exact RunsRamest.ofTakes rfl (by decide)

/-- When the ticks of an instruction have passed, those of a shorter one have. -/
theorem State.Ends.shorter {u : State} {q c n m : Nat} {i : Ram} (h : u.Ends q c i n) (hm : m ≤ n) : u.Ends q c i m :=
  ⟨h.1, Nat.le_trans (Nat.add_le_add_left (Nat.mul_le_mul_right _ (Nat.sub_le_sub_right hm 1)) _) h.2⟩

/-- Settles O16: every Ramest command takes the common course of an instruction. -/
theorem whatStopsAContext : Obligations.WhatStopsAContext := by
  unfold Obligations.WhatStopsAContext
  rintro e s u q r hu hr
  obtain ⟨ticks, form, eff, short, hrun⟩ := ramestRows_run e q s r hr
  rw [hrun, ← hu]
  refine ⟨fun c code pc hf hd => ?_, fun c i h ho hs ha => ?_, fun c i hf ho => ?_, fun hf => ?_⟩
  · rw [State.ramest_fault hf hd]
  · rw [State.ramest_attr (h.shorter (short _ _)) rfl ho hs ha]
  · rw [State.ramest_other hf (.inl ho)]
  · rw [State.ramest_idle hf]

end Sys2Proof.Machine
end

section
/-! What sending on a downstream lane changes (07 R209-R220): link and firing state of ports only -/
namespace Sys2Proof.Machine
open Sys2Proof

/-- From s to t only the link and firing state of ports changed. -/
def LaneOnly (s t : State) : Prop := t = { s with fp := t.fp, kl := t.kl }

namespace LaneOnly
variable {s t v : State}

theorem refl (s : State) : LaneOnly s s := rfl

theorem trans (h : LaneOnly s t) (k : LaneOnly t v) : LaneOnly s v := by
  unfold LaneOnly at *
  rw [k, h]

theorem each {α : Type} {f : State → α → State} (hf : ∀ u a, LaneOnly u (f u a)) :
    ∀ (l : List α) (s : State), LaneOnly s (s.each l f)
  | [], s => refl s
  | a :: l, s => (hf s a).trans (each hf l (f s a))

theorem ctx (h : LaneOnly s t) : t.ctx = s.ctx := (congrArg State.ctx h).trans rfl
theorem seq (h : LaneOnly s t) : t.seq = s.seq := (congrArg State.seq h).trans rfl
theorem ring (h : LaneOnly s t) : t.ring = s.ring := (congrArg State.ring h).trans rfl
theorem mgt (h : LaneOnly s t) : t.mgt = s.mgt := (congrArg State.mgt h).trans rfl
theorem now (h : LaneOnly s t) : t.now = s.now := (congrArg State.now h).trans rfl
theorem sess (h : LaneOnly s t) : t.sess = s.sess := (congrArg State.sess h).trans rfl
theorem place (h : LaneOnly s t) : t.place = s.place := (congrArg State.place h).trans rfl

end LaneOnly

theorem State.modKl_lane (s : State) (p : Nat) (f : KlPort → KlPort) : LaneOnly s (s.modKl p f) := rfl

theorem State.modFp_lane (s : State) (p : Nat) (f : FirePort → FirePort) : LaneOnly s (s.modFp p f) := rfl

theorem State.laneCut_lane (s : State) (p : Nat) (f : DownItem → Bool) : LaneOnly s (s.laneCut p f) := by
  unfold State.laneCut
  dsimp only
  split
  · exact .refl s
  · refine LaneOnly.trans (s.modKl_lane p _) (LaneOnly.each (fun u i => ?_) _ _)
    split
    · exact u.modFp_lane p _
    · split
      · exact u.modKl_lane p _
      · exact .refl u
    · exact .refl u

theorem State.sendFrame_lane (s : State) (p : Nat) (i : DownItem) : LaneOnly s (s.sendFrame p i) := rfl

theorem State.sendSync_lane (s : State) (p f rt : Nat) : LaneOnly s (s.sendSync p f rt) :=
  (s.laneCut_lane p _).trans (State.sendFrame_lane _ _ _)

theorem State.sendDrop_lane (s : State) (p : Nat) : LaneOnly s (s.sendDrop p) := by
  unfold State.sendDrop
  split
  · exact (s.laneCut_lane p _).trans (State.sendFrame_lane _ _ _)
  · exact .refl s

theorem State.laneDown_lane (s : State) (p : Nat) : LaneOnly s (s.laneDown p) := (s.laneCut_lane p _).trans rfl

end Sys2Proof.Machine
end

section
/-! Event bits (02 R25, R31; 03 R86, R88): what sets them, and that nothing else of a swath's course clears them -/
namespace Sys2Proof.Machine
open Sys2Proof

/-! ## The event bits of a sequencer through the course of a swath -/

/-- The event bits of sequencer q. -/
def State.evbits (s : State) (q : Fin 16) : Nat := (vget s.seq q).evbits

section
variable (s : State) (q : Fin 16)

theorem State.evbits_of_seq {s t : State} (h : t.seq = s.seq) (q : Fin 16) : t.evbits q = s.evbits q := by
  rw [State.evbits, h, State.evbits]

theorem State.modSeq_evbits (r : Nat) {f : Seq → Seq} (hf : ∀ y, (f y).evbits = y.evbits) :
    (s.modSeq r f).evbits q = s.evbits q := by
  by_cases h : r = q
  · subst h
    rw [State.evbits, State.modSeq_seq, vget_vmod_fin, hf, State.evbits]
  · rw [State.evbits, State.modSeq_seq, vget_vmod_ne _ _ _ _ h, State.evbits]

theorem State.evOr_evbits_same (m : Nat) : (s.evOr q m).evbits q = s.evbits q ||| m := by
  rw [State.evbits, State.evOr, State.modSeq_seq, vget_vmod_fin, State.evbits]

theorem State.postTo_evbits (n : Nat) (r : EvRec) : (s.postTo n r).evbits q = s.evbits q :=
  State.evbits_of_seq (s.postTo_seq n r) q

theorem State.each_evbits {α : Type} {f : State → α → State} (hf : ∀ u a, (f u a).evbits q = u.evbits q) (l : List α) (s : State) :
    (s.each l f).evbits q = s.evbits q :=
  State.each_field (g := fun u => u.evbits q) hf l s

theorem State.endRuns_evbits (r : Nat) : (s.endRuns r).evbits q = s.evbits q := by
  have posts (u : State) (x : Option Run) (c k a b : Nat) : (u.postRun x c k a b).evbits q = u.evbits q :=
    State.evbits_of_seq (u.postRun_ctx x c k a b).2 q
  unfold State.endRuns
  dsimp only
  rw [State.each_evbits q fun u p => ?_]
  · show State.evbits (State.modSeq _ _ _) q = _
    refine Eq.trans (State.modSeq_evbits _ q _ fun _ => rfl) ?_
    rw [posts, posts, posts]
  · show State.evbits (State.postRun _ _ _ _ _ _) q = _
    rw [posts, posts, posts]

theorem State.ownerEnd_evbits (r : Nat) (b : Bool) : (s.ownerEnd r b).evbits q = s.evbits q :=
  State.evbits_of_seq (s.ownerEnd_seq r b).1 q

theorem State.closeCore_evbits (r : Nat) : (s.closeCore r).evbits q = s.evbits q := by
  unfold State.closeCore
  dsimp only
  refine Eq.trans (State.modSeq_evbits _ q _ fun _ => rfl) ?_
  rw [State.ownerEnd_evbits]
  split
  · rw [State.postTo_evbits, State.endRuns_evbits]
  · rw [State.endRuns_evbits]

theorem State.endReq_evbits (n st code : Nat) : (s.endReq n st code).evbits q = s.evbits q := by
  have units (l : List Nat) : (s.each l fun s p => s.modFp p FirePort.dropCommit).evbits q = s.evbits q := by
    refine State.each_evbits q ?_ _ _
    exact fun _ _ => rfl
  unfold State.endReq
  split
  · rfl
  · dsimp only
    rw [State.postTo_evbits, State.when]
    split
    · refine Eq.trans (State.modSeq_evbits _ q _ fun _ => rfl) ?_
      exact units _
    · exact units _

theorem State.undoLines_evbits (r : Nat) : (s.undoLines r).evbits q = s.evbits q := by
  unfold State.undoLines
  dsimp only
  split
  · rfl
  · split
    · rfl
    · refine Eq.trans (State.each_evbits q ?_ _ _) ?_
      · exact fun _ _ => rfl
      · exact State.modSeq_evbits _ _ _ fun _ => rfl

theorem State.abortCore_evbits (r cause : Nat) : (s.abortCore r cause).evbits q = s.evbits q := by
  have marks (u : State) (b : Bool) (f : Ctx → Ctx) (c : Nat) : (u.when b fun v => v.modCtx r c f).evbits q = u.evbits q := by
    cases b <;> rfl
  unfold State.abortCore
  dsimp only
  refine Eq.trans (State.each_evbits q (fun u n => State.endReq_evbits u q n _ _) _ _) ?_
  refine Eq.trans (State.each_evbits q ?_ _ _) ?_
  · exact fun u p => State.evbits_of_seq (State.sendDrop_lane u p).seq q
  show State.evbits (State.modSeq _ _ _) q = _
  refine Eq.trans (State.modSeq_evbits _ q _ fun _ => rfl) ?_
  rw [marks, State.ownerEnd_evbits]
  split
  · rw [State.postTo_evbits, State.endRuns_evbits, State.undoLines_evbits]
  · rw [State.endRuns_evbits, State.undoLines_evbits]

end

/-! ## Bits that stay -/

/-- The event bits m of sequencer q, set in s, are set in t. -/
def EvStay (q : Fin 16) (m : Nat) (s t : State) : Prop := s.evbits q &&& m = m → t.evbits q &&& m = m

theorem and_or_stays {a m : Nat} (k : Nat) (h : a &&& m = m) : (a ||| k) &&& m = m := by
  refine Nat.eq_of_testBit_eq fun j => ?_
  have hj := congrArg (Nat.testBit · j) h
  simp only [Nat.testBit_and, Nat.testBit_or] at hj ⊢
  cases hm : m.testBit j <;> simp_all

section
variable {q : Fin 16} {m : Nat}

theorem EvStay.of_eq {s t : State} (h : t.evbits q = s.evbits q) : EvStay q m s t := fun hm => by rw [h, hm]

theorem EvStay.trans {s t v : State} (h : EvStay q m s t) (k : EvStay q m t v) : EvStay q m s v := k ∘ h

/-- An event bit set anywhere leaves those that are set. -/
theorem evStay_evOr (s : State) (r k : Nat) : EvStay q m s (s.evOr r k) := by
  intro h
  by_cases e : r = q
  · subst e
    rw [State.evOr_evbits_same]
    exact and_or_stays k h
  · rw [State.evbits, State.evOr, State.modSeq_seq, vget_vmod_ne _ _ _ _ e]
    exact h

theorem evStay_emergCore (s : State) (r c : Nat) : EvStay q m s (s.emergCore r c) := by
  have swathEnds (u : State) : EvStay q m u
      (if (vget u.seq r).swst == .opened then
        if u.closesFirst r then (u.closeCore r).evOr r 0x800
        else ((u.abortCore r 0x0314).evOr r 0x1000).when (u.progReq r) (fun s => s.evOr r 0x200)
      else u) := by
    split
    · split
      · exact (EvStay.of_eq (State.closeCore_evbits u q r)).trans (evStay_evOr _ _ _)
      · refine ((EvStay.of_eq (State.abortCore_evbits u q r 788)).trans (evStay_evOr _ r 0x1000)).trans ?_
        rw [State.when]
        split
        · exact evStay_evOr _ _ _
        · exact id
    · exact id
  exact fun h => swathEnds (s.modCtx r c _) h

theorem evStay_setEv (s : State) (r k : Nat) : EvStay q m s (s.setEv r k) := by
  unfold State.setEv
  dsimp only
  split
  · exact (evStay_evOr s r k).trans (evStay_emergCore _ _ _)
  · exact evStay_evOr s r k

/-- The bits that a signal sets are set after it, whatever else it starts. -/
theorem setEv_sets (s : State) (k : Nat) : (s.setEv q k).evbits q &&& k = k := by
  have set : (s.evOr q k).evbits q &&& k = k := by
    rw [State.evOr_evbits_same, Nat.or_comm]
    exact and_or_stays _ (Nat.and_self k)
  unfold State.setEv
  dsimp only
  split
  · exact evStay_emergCore _ _ _ set
  · exact set

theorem evStay_setEvs (l : List Nat) (k : Nat) (s : State) : EvStay q m s (s.each l fun u r => u.setEv r k) := by
  induction l generalizing s with
  | nil => exact id
  | cons r l ih => exact (evStay_setEv s r k).trans (ih _)

/-- Of several sequencers that are signalled, each has the bits set. -/
theorem setEvs_set {l : List Nat} (h : q.val ∈ l) (k : Nat) (s : State) :
    (s.each l fun u r => u.setEv r k).evbits q &&& k = k := by
  induction l generalizing s with
  | nil => cases h
  | cons r l ih =>
    rcases List.mem_cons.1 h with rfl | h
    · exact evStay_setEvs l k _ (setEv_sets s k)
    · exact ih h _

theorem signal_sets (s : State) {targets : Nat} (h : targets.testBit q = true) (k : Nat) :
    (vget (s.happen (.signal targets k)).seq q).evbits &&& k = k :=
  setEvs_set (List.mem_filter.2 ⟨List.mem_range.2 q.isLt, h⟩) k s

end

/-! ## Host writes of the event bits (02 R25, R31; 03 R86) -/

theorem bits_wd_low {g : Nat} (h : g < 256) : bits (wd g) 7 0 = g := by
  simp only [bits, bitsN, wd, BitVec.toNat_ofNat, Nat.shiftRight_zero]
  omega

/-- SEQ_GSIGNAL's word: its mask and its bits. -/
theorem gsignalWord_toNat (m : Fin 65536) (g : Fin 256) :
    (fields [(0, 16, m), (16, 8, g)] : Word).toNat = 2 ^ 16 * g.val + m.val := by
  have := m.isLt
  have := g.isLt
  simp only [fields, List.foldl, BitVec.toNat_ofNat]
  omega

theorem gsignalWord_sigs (m : Fin 65536) (g : Fin 256) : bits (fields [(0, 16, m), (16, 8, g)]) 23 16 = g := by
  have := m.isLt
  have := g.isLt
  simp only [bits, bitsN, gsignalWord_toNat, Nat.shiftRight_eq_div_pow]
  omega

theorem gsignalWord_mask (m : Fin 65536) (g : Fin 256) :
    those 16 (fun q => bit (fields [(0, 16, m), (16, 8, g)]) q) = those 16 m.val.testBit := by
  refine List.filter_congr fun q hq => ?_
  have hq : q < 16 := List.mem_range.1 hq
  rw [bit, gsignalWord_toNat, Nat.testBit_two_pow_mul_add _ m.isLt, if_pos hq]

@[simp] theorem State.after_ctxOf (s : State) (t : Nat) (d : Due) (q c : Nat) : (s.after t d).ctxOf q c = s.ctxOf q c := rfl

theorem maskN_self (q : Fin 16) : maskN 16 (List.contains [q.val]) = 2 ^ q.val := by
  revert q
  decide

/-- Settles O14. -/
theorem signalsMarksAndCommits : Obligations.SignalsMarksAndCommits := by
  unfold Obligations.SignalsMarksAndCommits
  rintro e s u _ q c i _ w n hu rfl rfl
  have sigs (hf : i.only 0 false false (2 ^ 25 - 1) = true) (hm : i.imm % 256 ≠ 0) :
      (i.only 0 false false (2 ^ 25 - 1) && i.imm % 256 != 0) = true := by
    rw [hf, Bool.true_and, bne_iff_ne]
    exact hm
  refine ⟨fun h ho hf hm ht => ?own, fun h ho hf hm l hl => ?others, fun targets mask ht => signal_sets u ht mask,
    fun h ho hf hF => ?mark, fun h ho hf hF hn => ?commit, fun hr hw hc => ?acts, fun hr hw hc => ?observes⟩
  case own =>
    have small : i.imm < 256 := by omega
    have alone : bitsN i.imm 23 8 = 0 := by
      rw [bitsN, Nat.shiftRight_eq_div_pow, Nat.div_eq_of_lt (by simpa using small), Nat.zero_mod]
    have quiet : i.imm.testBit 24 = false := Nat.testBit_lt_two_pow (by omega)
    have mask : maskN 16 (List.contains [q.val]) = 2 ^ q.val := maskN_self q
    have he : stepSignal (u.fetched q c) q c (u.ctxOf q c) i =
        .next ((u.fetched q c).after (u.now + 16) (.signal (2 ^ q.val) (i.imm % 256))) := by
      simp only [stepSignal, sigTargets, alone, quiet, mask, List.all_cons, List.all_nil, beq_self_eq_true,
        Bool.true_or, Bool.and_self, Bool.not_true, ↓reduceIte, State.when_false, State.fetched_now, Bool.false_eq_true]
      rfl
    rw [exec_signal, execSignal, ← hu, State.ramest_skip_in h rfl ho (.inl rfl) (sigs hf hm) he (by simp)]
  case others =>
    subst hl
    constructor
    · rintro hl _ rfl
      have he : stepSignal (u.fetched q c) q c (u.ctxOf q c) i = .next
          ((if i.imm.testBit 24 then (u.fetched q c).postTo (u.ctxOf q c).session ((u.fetched q c).ev 8 0 q (some q)
            (wd (i.imm % 2 ^ 24))) else u.fetched q c).after (u.now + 16)
            (.signal (maskN 16 (sigTargets q (bitsN i.imm 23 8)).contains) (i.imm % 256))) := by
        simp only [stepSignal, hl, State.when, State.ctxSess, State.fetched_ctxOf, Bool.not_true, Bool.false_eq_true,
          ↓reduceIte, apply_ite State.now, State.postTo_now, State.fetched_now, ite_self]
        rfl
      rw [exec_signal, execSignal, ← hu, State.ramest_skip_in h rfl ho (.inl rfl) (sigs hf hm) he ?_]
      rw [State.after_ctxOf]
      split <;> simp
    · intro hl
      have he : stepSignal (u.fetched q c) q c (u.ctxOf q c) i = .fault 0x0308 := by
        simp only [stepSignal, hl, Bool.not_false, ↓reduceIte]
      rw [exec_signal, execSignal, ← hu, State.ramest_raise h rfl ho (.inl rfl) (sigs hf hm) he]
  case mark =>
    have he : stepMark (u.fetched q c) q c (u.ctxOf q c) i = .next ((u.fetched q c).postTo (u.ctxOf q c).session
        { (u.fetched q c).ev 7 0 q (some q) (wd i.imm) with time := (u.fetched q c).stampBack 3 }) := by
      simp only [stepMark, hF, State.ctxSess, State.fetched_ctxOf, Bool.false_eq_true, ↓reduceIte]
    rw [exec_mark, execMark, ← hu, State.ramest_skip_in h rfl ho (.inl rfl) (by simpa [hF] using hf) he (by simp)]
  case commit =>
    have he : stepCommit (u.fetched q c) q c (u.ctxOf q c) i = .next
        (((u.fetched q c).commitProgram (u.ctxOf q c).session q ((u.ctxOf q c).rd i.a).toNat false
          ((u.ctxOf q c).rd i.b).toNat).1.modCtx q c (fun y => { y with
          t := !((u.fetched q c).commitProgram (u.ctxOf q c).session q ((u.ctxOf q c).rd i.a).toNat false
            ((u.ctxOf q c).rd i.b).toNat).2 })) := by
      simp only [stepCommit, hF, Nat.not_le.2 hn, ↓reduceIte]
    rw [exec_programCommit, execProgramCommit, ← hu, State.ramCommit,
      State.ramest_retire h rfl ho (.inl rfl) (by simpa [hF] using hf) he]
  case acts =>
    have may : u.acting n = true := by simpa [State.acting] using hc
    refine ⟨fun g hg => ?_, fun m g hg => ?_, fun m => ?_⟩
    · have set : ((g : Nat) = 0) = False := by simpa using hg
      rw [exec_seqSignal, execSeqSignal, ← hu, State.asWriter_of_ready hr hw, State.wrSignal, State.ifRight, may,
        bits_wd_low g.isLt]
      simp only [set, ↓reduceIte]
    · have set : ((g : Nat) = 0) = False := by simpa using hg
      rw [exec_seqGsignal, execSeqGsignal, ← hu, State.asWriter_of_ready hr hw, State.wrGsignal, State.ifRight, may,
        gsignalWord_sigs, gsignalWord_mask]
      simp only [set, ↓reduceIte]
    · rw [exec_seqEvbitsClear, execSeqEvbitsClear, ← hu, State.asWriter_of_ready hr hw, State.wrEvbits, State.ifRight,
        may, bits_wd_of_word32]
      rfl
  case observes =>
    have may : u.acting n = false := by simp [State.acting, hc]
    refine ⟨fun g => ?_, fun m => ?_⟩
    · rw [exec_seqSignal, execSeqSignal, ← hu, State.asWriter_of_ready hr hw, State.wrSignal, State.ifRight, may]
      rfl
    · rw [exec_seqEvbitsClear, execSeqEvbitsClear, ← hu, State.asWriter_of_ready hr hw, State.wrEvbits, State.ifRight,
        may]
      rfl

end Sys2Proof.Machine
end

section
/-! Swaths open and end (02 R37-R41; 03 R78, R81) -/
namespace Sys2Proof.Machine
open Sys2Proof

/-! ## What the opening of a swath keeps -/

/-- From s to t contexts and registers are as they were, a ring that moved stands at line f, and sequencer q changed its event
bits and its doubt only. -/
structure SwathKept (q : Fin 16) (f : Nat) (s t : State) : Prop where
  ctx : t.ctx = s.ctx
  mgt : t.mgt = s.mgt
  ring : ∀ p : Fin 64, vget t.ring p = vget s.ring p ∨ (vget t.ring p).base = f
  seq : vget t.seq q = { vget s.seq q with
    evbits := (vget t.seq q).evbits, setAt := (vget t.seq q).setAt, setNow := (vget t.seq q).setNow,
    doubt := (vget t.seq q).doubt, doubtAt := (vget t.seq q).doubtAt }

namespace SwathKept
variable {q : Fin 16} {f : Nat} {s t v : State}

theorem refl (q : Fin 16) (f : Nat) (s : State) : SwathKept q f s s := ⟨rfl, rfl, fun _ => .inl rfl, rfl⟩

theorem of_eq (hc : t.ctx = s.ctx) (hm : t.mgt = s.mgt) (hr : t.ring = s.ring) (hs : t.seq = s.seq) : SwathKept q f s t :=
  ⟨hc, hm, fun _ => .inl (by rw [hr]), by rw [hs]⟩

theorem trans (h : SwathKept q f s t) (k : SwathKept q f t v) : SwathKept q f s v :=
  ⟨k.ctx.trans h.ctx, k.mgt.trans h.mgt,
    fun p => (k.ring p).elim (fun e => by rw [e]; exact h.ring p) .inr, by rw [k.seq, h.seq]⟩

theorem posts (p : Posts s t) : SwathKept q f s t := by
  unfold Posts at p
  rw [p]
  exact of_eq rfl rfl rfl rfl

theorem lane (h : LaneOnly s t) : SwathKept q f s t := of_eq h.ctx h.mgt h.ring h.seq

theorem each {α : Type} {g : State → α → State} (hg : ∀ u a, SwathKept q f u (g u a)) :
    ∀ (l : List α) (s : State), SwathKept q f s (s.each l g)
  | [], s => refl q f s
  | a :: l, s => (hg s a).trans (each hg l (g s a))

end SwathKept

/-- The emergency context of sequencer q is not armed. -/
def State.Unarmed (s : State) (q : Fin 16) : Prop := (s.ctxOf q (s.ectx q)).st ≠ .armed

section
variable {q : Fin 16} {f : Nat} {s t : State}

theorem SwathKept.ectx (h : SwathKept q f s t) (r : Nat) : t.ectx r = s.ectx r := by
  rw [State.ectx, State.rf, State.reg, h.mgt, State.ectx, State.rf, State.reg]

theorem SwathKept.unarmed (h : SwathKept q f s t) (hs : s.Unarmed q) : t.Unarmed q := by
  rw [State.Unarmed, h.ectx, State.ctxOf_eq h.ctx]
  exact hs

theorem evOr_kept (s : State) (m : Nat) : SwathKept q f s (s.evOr q m) :=
  ⟨rfl, rfl, fun _ => .inl rfl, by rw [State.evOr, State.modSeq_seq, vget_vmod_fin]⟩

/-- With no armed context, event bits set start nothing. -/
theorem setEv_of_unarmed (h : s.Unarmed q) (m : Nat) : s.setEv q m = s.evOr q m := by
  have un : ((s.evOr q m).ctxOf q ((s.evOr q m).ectx q)).st ≠ .armed := (evOr_kept (f := 0) s m).unarmed h
  unfold State.setEv
  dsimp only
  rw [if_neg]
  simp [un]

theorem SwathKept.setEv (h : SwathKept q f s t) (hs : s.Unarmed q) (m : Nat) : SwathKept q f s (t.setEv q m) := by
  rw [setEv_of_unarmed (h.unarmed hs)]
  exact h.trans (evOr_kept t m)

theorem SwathKept.postTo (h : SwathKept q f s t) (n : Nat) (r : EvRec) : SwathKept q f s (t.postTo n r) :=
  h.trans (.posts (t.postTo_posts n r))

theorem SwathKept.postUnit (h : SwathKept q f s t) (n : Nat) (r : EvRec) : SwathKept q f s (t.postUnit n r) :=
  h.trans (.posts (t.postUnit_posts n r))

theorem SwathKept.modPlace (h : SwathKept q f s t) (n : Nat) (g : Placer → Placer) : SwathKept q f s (t.modPlace n g) :=
  h.trans (.of_eq rfl rfl rfl rfl)

theorem SwathKept.doubted (h : SwathKept q f s t) (a : Nat) :
    SwathKept q f s (t.modSeq q (fun x => { x with doubt := true, doubtAt := a })) :=
  h.trans ⟨rfl, rfl, fun _ => .inl rfl, by rw [State.modSeq_seq, vget_vmod_fin]⟩

theorem rebaseLost_kept (s : State) (c : Nat) : SwathKept q f s (s.rebaseLost c) := by
  unfold State.rebaseLost
  dsimp only
  refine SwathKept.trans ?_ (SwathKept.each ?_ _ _)
  · exact .of_eq rfl rfl rfl rfl
  intro u d
  split
  · exact (SwathKept.refl q f u).postTo _ _
  · exact .refl q f u

theorem makeDoubt_kept (h : s.Unarmed q) : SwathKept q f s (s.makeDoubt q) := by
  unfold State.makeDoubt
  dsimp only
  split
  · exact SwathKept.setEv (.postUnit (.modPlace (.doubted (.refl q f s) _) _ _) _ _) h _
  · exact .refl q f s

/-! ## A port at the opening of a swath -/

/-- The ring of a port as a swath that opens on line f leaves it. -/
def Ring.openOn (f : Nat) (r : Ring) : Ring :=
  { r with base := f, readDone := none, lateRun := none,
           slots := r.slots.filter (fun x => x.2.st == .pending || f ≤ x.2.line) }

theorem openPort_kept (h : s.Unarmed q) (n p : Nat) : SwathKept q f (s.modRing p (Ring.openOn f)) (s.openPort q n f p) := by
  have un : (s.modRing p (Ring.openOn f)).Unarmed q := h
  have synced (v : State) : SwathKept q f v
      (if v.inService p then v.sendSync p f (v.firRT p) else v.postTo n (v.ev 2 0x0313 p (some q) 0)) := by
    split
    · exact .lane (v.sendSync_lane p f _)
    · exact (SwathKept.refl q f v).postTo n _
  unfold State.openPort
  dsimp only
  refine SwathKept.trans ?_ (synced _)
  rw [State.when]
  split
  · refine SwathKept.postUnit ?_ _ _
    split
    · refine SwathKept.setEv ?_ un _
      exact .of_eq rfl rfl rfl rfl
    · exact .of_eq rfl rfl rfl rfl
  · exact .of_eq rfl rfl rfl rfl

theorem openRing_base (s : State) (f : Nat) (p : Fin 64) : (vget (s.modRing p (Ring.openOn f)).ring p).base = f := by
  rw [State.modRing_ring, vget_vmod_fin, Ring.openOn]

theorem openRing_kept (s : State) (p : Nat) : SwathKept q f s (s.modRing p (Ring.openOn f)) where
  ctx := rfl
  mgt := rfl
  ring r := by
    by_cases h : p = r
    · subst h
      exact .inr (openRing_base s f r)
    · rw [State.modRing_ring, vget_vmod_ne _ _ _ _ h]
      exact .inl rfl
  seq := rfl

theorem openPorts_kept (n : Nat) (l : List Nat) (h : s.Unarmed q) :
    SwathKept q f s (s.each l fun u p => u.openPort q n f p) := by
  induction l generalizing s with
  | nil => exact .refl q f s
  | cons p l ih =>
    have opened := (openRing_kept s p).trans (openPort_kept (f := f) h n p)
    exact opened.trans (ih (opened.unarmed h))

/-- The ring of every port of the segment stands at the first line. -/
theorem openPorts_base (n : Nat) {l : List Nat} {p : Fin 64} (hp : p.val ∈ l) (h : s.Unarmed q) :
    (vget (s.each l fun u p => u.openPort q n f p).ring p).base = f := by
  induction l generalizing s with
  | nil => cases hp
  | cons r l ih =>
    have opened := (openRing_kept s r).trans (openPort_kept (f := f) h n r)
    rcases List.mem_cons.1 hp with rfl | hp
    · have base : (vget (s.openPort q n f p).ring p).base = f := by
        rcases (openPort_kept h n p).ring p with e | e
        · rw [e, openRing_base]
        · exact e
      rcases (openPorts_kept (f := f) n l (opened.unarmed h)).ring p with e | e
      · exact e ▸ base
      · exact e
    · exact ih hp (opened.unarmed h)

/-! ## The opening as a whole -/

/-- What a swath that context c of sequencer q opens on line f at position p0 leaves, from state s. -/
structure SwathOpen (q : Fin 16) (c f : Nat) (p0 : Int) (s t : State) : Prop where
  ctx : t.ctx = s.ctx
  swst : (vget t.seq q).swst = .opened
  owner : (vget t.seq q).owner = some c
  swF : (vget t.seq q).swF = f
  swP0 : (vget t.seq q).swP0 = p0
  swPitch : (vget t.seq q).swPitch = (vget s.seq q).pitch
  swRowdly : (vget t.seq q).swRowdly = (vget s.seq q).rowdly
  sw : (vget t.seq q).sw = q * 2 ^ 28 + ((vget s.seq q).swCnt + 1) % 2 ^ 28
  lnq : (vget t.seq q).lnq = []
  nEvents : (vget t.seq q).nEvents = 0

theorem SwathOpen.kept {c : Nat} {p0 : Int} {v : State} (h : SwathOpen q c f p0 s t) (k : SwathKept q f t v) :
    SwathOpen q c f p0 s v := by
  constructor
  · rw [k.ctx, h.ctx]
  all_goals rw [k.seq]
  · exact h.swst
  · exact h.owner
  · exact h.swF
  · exact h.swP0
  · exact h.swPitch
  · exact h.swRowdly
  · exact h.sw
  · exact h.lnq
  · exact h.nEvents

theorem openSwath_opens (h : s.Unarmed q) (c : Nat) (p0 : Int) :
    SwathOpen q c f p0 s (s.openSwath q c f p0) ∧
      ∀ p : Fin 64, s.inSegment q p = true → (vget (s.openSwath q c f p0).ring p).base = f := by
  have doubted {v : State} (hv : v.Unarmed q) (b : Bool) : SwathKept q f v (if b then v.makeDoubt q else v) := by
    split
    · exact makeDoubt_kept hv
    · exact .refl q f v
  unfold State.openSwath
  dsimp only
  generalize hv : s.modSeq q _ = v
  have opened : SwathOpen q c f p0 s v := by
    subst hv
    constructor
    · rfl
    all_goals rw [State.modSeq_seq, vget_vmod_fin]
  have hu : v.Unarmed q := by subst hv; exact h
  generalize hw : State.postTo _ _ _ = w
  have begun : SwathKept q f v w := by
    subst hw
    exact .postTo (.trans (.modPlace (.refl q f v) _ _) (rebaseLost_kept _ _)) _ _
  have ports := openPorts_kept (f := f) (s.ctxSess q c) (those 64 (s.inSegment q)) (begun.unarmed hu)
  have last := doubted (ports.unarmed (begun.unarmed hu))
  refine ⟨((opened.kept begun).kept ports).kept (last _), fun p hp => ?_⟩
  have member : p.val ∈ those 64 (s.inSegment q) := List.mem_filter.2 ⟨List.mem_range.2 p.isLt, hp⟩
  rcases (last _).ring p with e | e
  · exact e ▸ openPorts_base _ member (begun.unarmed hu)
  · exact e

end

/-! ## The end of a swath, seen from its owner -/

/-- A context whose word is fetched is RUNNING. -/
theorem State.Ends.running {u : State} {q c n : Nat} {i : Ram} (h : u.Ends q c i n) : (u.ctxOf q c).st = .running := by
  obtain ⟨hf, -⟩ := h
  have run : ∀ d, u.running q = some d → (u.ctxOf q d).st = .running := by
    intro d hd
    unfold State.running at hd
    split at hd
    · split at hd
      · next st =>
        cases hd
        exact eq_of_beq st
      · cases hd
    · cases hd
  unfold State.fetch at hf
  split at hf
  · cases hf
  · split at hf
    · cases hf
    · next d hd =>
      dsimp only at hf
      split at hf
      · cases hf
      · split at hf
        · cases hf
        · split at hf
          · cases hf
            exact run c hd
          · cases hf

/-- The end of a wait for the end of a swath. -/
theorem ownerEnd_of_endswath {w : State} {q : Fin 16} {c : Fin 64} {d : Option Nat} (ho : (vget w.seq q).owner = some c.val)
    (hx : (w.ctxOf q c).wait = some { kind := .endswath, deadline := d }) (b : Bool) :
    w.ownerEnd q b = w.endWait q c b := by
  simp only [State.ownerEnd, ho, hx]

theorem ownerEnd_of_closing {w : State} {q : Fin 16} {c : Fin 64} {d : Option Nat} (ho : (vget w.seq q).owner = some c.val)
    (hx : (w.ctxOf q c).wait = some { kind := .closing, deadline := d }) (b : Bool) :
    w.ownerEnd q b = (w.modCtx q c (fun x => { x with pc := x.pc + 1 })).haltCtx q c := by
  simp only [State.ownerEnd, ho, hx]

theorem State.ctxOf_modCtx_ne (s : State) (q : Fin 16) (f : Ctx → Ctx) {d : Nat} {c : Fin 64} (h : d ≠ c) :
    (s.modCtx q d f).ctxOf q c = s.ctxOf q c := by
  show vget (vget (vmod s.ctx q fun v => vmod v d f) q) c = _
  rw [vget_vmod_fin, vget_vmod_ne _ _ _ _ h]
  rfl

/-- Whatever its owner waits for, the end of a swath arms no context and changes no register. -/
theorem ownerEnd_ctx (w : State) (q : Fin 16) (c : Fin 64) (b : Bool) (h : (w.ctxOf q c).st ≠ .armed) :
    ((w.ownerEnd q b).ctxOf q c).st ≠ .armed ∧ ((w.ownerEnd q b).ctxOf q c).g = (w.ctxOf q c).g := by
  have other (d : Nat) (f : Ctx → Ctx) (hs : ∀ x : Ctx, x.st ≠ .armed → (f x).st ≠ .armed) (hg : ∀ x, (f x).g = x.g) :
      ((w.modCtx q d f).ctxOf q c).st ≠ .armed ∧ ((w.modCtx q d f).ctxOf q c).g = (w.ctxOf q c).g := by
    by_cases e : d = c
    · subst e
      rw [State.ctxOf_modCtx]
      exact ⟨hs _ h, hg _⟩
    · rw [State.ctxOf_modCtx_ne w q _ e]
      exact ⟨h, rfl⟩
  unfold State.ownerEnd
  split
  · exact ⟨h, rfl⟩
  · split
    · split
      · exact other _ _ (fun _ _ => nofun) fun _ => rfl
      · exact other _ _ (fun _ _ => nofun) fun _ => rfl
      · rw [State.haltCtx, State.modCtx_modCtx]
        exact other _ _ (fun _ _ => nofun) fun _ => rfl
      · exact ⟨h, rfl⟩
    · exact ⟨h, rfl⟩

theorem State.swathEnd_closes {u : State} {q : Fin 16} (ho : (vget u.seq q).swst = .opened) (hd : u.swathDone q = true)
    (hc : u.ownerClosing q = true) : u.swathEnd q = u.closeSwath q := by
  simp [State.swathEnd, ho, hd, hc]

/-! ## The obligation -/

theorem State.ran_ctxOf (u : State) (q : Fin 16) (c : Fin 64) (y : Ctx) : (u.ran q c y).ctxOf q c = y := by
  show (u.modCtx q c (fun _ => y)).ctxOf q c = y
  rw [State.ctxOf_modCtx]

theorem State.ran_seq (u : State) (q : Fin 16) (c : Nat) (y : Ctx) :
    vget (u.ran q c y).seq q = { vget u.seq q with freeAt := u.now + qTick } := by
  rw [State.ran, State.modSeq_seq, vget_vmod_fin, State.modCtx_seq]

/-- Settles O13. -/
theorem swathOpensAndEnds : Obligations.SwathOpensAndEnds := by
  unfold Obligations.SwathOpensAndEnds
  rintro e s u _ q c i _ _ hu rfl rfl rfl
  refine ⟨fun h ha ho hf => ⟨fun hn hp hs hc => ?swath, fun hn hp hs => ?again, fun hn hp hs hc => ?claims,
    fun hb => ?operand⟩, fun h ha ho hf => ⟨fun hw hd => ?ends, fun hw hd => ?waits, fun hw hd => ?none, fun hw hd => ?cut⟩,
    fun n d ho hw hx => ⟨fun hl => ?appends, fun hl => ?full⟩,
    fun d ho hw hd => ⟨fun hx hs => ?closes, fun hx hs => ?halts⟩, fun ho hd => ?idle⟩
  case swath =>
    replace hn : ((u.ctxOf q c).rd i.a).toNat < 4294967296 := hn
    have he : stepSwath (u.fetched q c) q c (u.ctxOf q c) i =
        .next ((u.fetched q c).openSwath q c ((u.ctxOf q c).rd i.a).toNat ((u.ctxOf q c).rdI i.b)) := by
      simp [stepSwath, hn, hp, hs, hc]
    rw [exec_swath, execSwath, ← hu, State.ramest_retire h rfl ho (.inr ha) hf he]
    refine ⟨rfl, fun un => ⟨_, rfl, ?_⟩⟩
    obtain ⟨opened, bases⟩ := openSwath_opens (f := ((u.ctxOf q c).rd i.a).toNat) un c ((u.ctxOf q c).rdI i.b)
    rw [State.retire_eq, State.ran_ctxOf, State.ran_seq, State.ctxOf_eq opened.ctx, State.fetched_ctxOf]
    refine ⟨rfl, opened.swst, opened.owner, opened.swF, opened.swP0, ?_, ?_, ?_, opened.lnq, opened.nEvents, bases⟩
    · simpa using opened.swPitch
    · simpa using opened.swRowdly
    · simpa using opened.sw
  case again =>
    replace hn : ((u.ctxOf q c).rd i.a).toNat < 4294967296 := hn
    have he : stepSwath (u.fetched q c) q c (u.ctxOf q c) i = .fault 0x0307 := by simp [stepSwath, hn, hp, hs]
    rw [exec_swath, execSwath, ← hu, State.ramest_raise h rfl ho (.inr ha) hf he]
  case claims =>
    replace hn : ((u.ctxOf q c).rd i.a).toNat < 4294967296 := hn
    have he : stepSwath (u.fetched q c) q c (u.ctxOf q c) i = .fault 0x0308 := by simp [stepSwath, hn, hp, hs, hc]
    rw [exec_swath, execSwath, ← hu, State.ramest_raise h rfl ho (.inr ha) hf he]
  case operand =>
    have he : stepSwath (u.fetched q c) q c (u.ctxOf q c) i = .fault 0x0302 := if_pos (by simpa using hb)
    rw [exec_swath, execSwath, ← hu, State.ramest_raise h rfl ho (.inr ha) hf he]
  case ends =>
    have he : stepEndswath (u.fetched q c) q c (u.ctxOf q c) i =
        .next (((u.fetched q c).closeSwath q).modCtx q c (fun y => { y with t := false })) := by simp [stepEndswath, hw, hd]
    obtain ⟨opened, -⟩ := State.ownsSwath_iff.1 hw
    obtain ⟨closed, noOwner, bit, w, hctx, -, -, hclose⟩ := State.closeSwath_ends _ q opened
    have run : (w.ctxOf q c).st ≠ .armed := by
      rw [State.ctxOf_eq hctx, State.fetched_ctxOf, h.running]
      nofun
    obtain ⟨st, g⟩ := ownerEnd_ctx w q c false run
    rw [exec_endswath, execEndswath, ← hu, State.ramest_retire h rfl ho (.inr ha) hf he]
    refine ⟨_, rfl, ?_⟩
    rw [State.retire_eq, State.ran_ctxOf, State.ran_seq, State.modCtx_seq, State.ctxOf_modCtx]
    exact ⟨closed, noOwner, bit, rfl, rfl, by rw [hclose c st, g, State.ctxOf_eq hctx, State.fetched_ctxOf]⟩
  case waits =>
    have he : stepEndswath (u.fetched q c) q c (u.ctxOf q c) i = .hold (u.fetched q c) .endswath 0 := by
      simp [stepEndswath, hw, hd]
    rw [exec_endswath, execEndswath, ← hu, State.ramest_ends h rfl ho (.inr ha) hf, he]
    obtain ⟨-, -, waits⟩ := State.enterWait_enters (u.fetched q c) q c 2 .endswath 0
    exact (waits rfl (by decide) (by decide)).trans (by rw [State.fetched_ctxOf]; rfl)
  case none =>
    have he : stepEndswath (u.fetched q c) q c (u.ctxOf q c) i = .fault 0x0306 := by simp [stepEndswath, hw, hd]
    rw [exec_endswath, execEndswath, ← hu, State.ramest_raise h rfl ho (.inr ha) hf he]
  case cut =>
    have he : stepEndswath (u.fetched q c) q c (u.ctxOf q c) i =
        .next ((u.fetched q c).modCtx q c (fun y => { y with t := true })) := by simp [stepEndswath, hw, hd]
    rw [exec_endswath, execEndswath, ← hu, State.ramest_next h rfl ho (.inr ha) hf he]
  case appends =>
    have he : u.lineQueueAppend q = (u.modSeq q (fun x => { x with lnq := x.lnq ++ [n], printed := some (u.now, c.val) })).endWait
        q c false := by simp [State.lineQueueAppend, hw, hx, ho, hl]
    rw [exec_lineQueueAppend, execLineQueueAppend, ← hu, he, State.endWait_eq u (u.modSeq q _) q c false rfl rfl]
    refine ⟨_, rfl, ?_, ?_, rfl, rfl, rfl, rfl⟩
    · rw [State.modCtx_seq, State.modSeq_seq, vget_vmod_fin]
    · rw [State.ctxOf_modCtx]
  case full =>
    have full : ¬ (vget u.seq q).lnq.length < 16 := by omega
    rw [exec_lineQueueAppend, execLineQueueAppend, ← hu]
    simp [State.lineQueueAppend, hw, hx, full]
  case closes =>
    obtain ⟨closed, noOwner, bit, w, hctx, howner, hnow, hclose⟩ := State.closeSwath_ends u q ho
    have wait : (w.ctxOf q c).wait = some { kind := .endswath, deadline := d } := by rw [State.ctxOf_eq hctx, hx]
    have st : ((w.ownerEnd q false).ctxOf q c) = { u.ctxOf q c with
        st := .ready, wait := none, t := false, readyAt := u.now, pc := (u.ctxOf q c).pc + 1 } := by
      rw [ownerEnd_of_endswath (howner.trans hw) wait, State.endWait_eq u w q c false (State.ctxOf_eq hctx q c) hnow,
        State.ctxOf_modCtx]
    have closing : u.ownerClosing q = true := by simp [State.ownerClosing, hw, hx]
    rw [exec_swathEnd, execSwathEnd, ← hu, State.swathEnd_closes ho hd closing]
    refine ⟨_, rfl, closed, noOwner, bit, ?_⟩
    rw [hclose c (by rw [st]; nofun), st]
  case halts =>
    obtain ⟨closed, noOwner, bit, w, hctx, howner, hnow, hclose⟩ := State.closeSwath_ends u q ho
    have wait : (w.ctxOf q c).wait = some { kind := .closing, deadline := d } := by rw [State.ctxOf_eq hctx, hx]
    have st : ((w.ownerEnd q false).ctxOf q c) = { u.ctxOf q c with
        st := .halted, wait := none, pc := (u.ctxOf q c).pc + 1 } := by
      rw [ownerEnd_of_closing (howner.trans hw) wait, State.haltCtx, State.modCtx_modCtx, State.ctxOf_modCtx,
        State.ctxOf_eq hctx]
    have closing : u.ownerClosing q = true := by simp [State.ownerClosing, hw, hx]
    rw [exec_swathEnd, execSwathEnd, ← hu, State.swathEnd_closes ho hd closing]
    refine ⟨_, rfl, closed, noOwner, bit, ?_⟩
    rw [hclose c (by rw [st]; nofun), st]
  case idle =>
    rw [exec_swathEnd, execSwathEnd, ← hu, State.swathEnd, if_neg]
    rcases hd with hd | hd <;> simp [hd]

end Sys2Proof.Machine
end

section
/-! The motion and camera instructions (03 R91-R93) -/
namespace Sys2Proof.Machine
open Sys2Proof

section
variable {u : State} {q : Fin 16} {op c n : Nat} {ticks : Ctx → Ram → Nat} {form : Ram → Bool}
  {eff : State → Nat → Ctx → Ram → Effect} {i : Ram}

/-- A motion instruction is one command to the motion block, or BINDING without the axis's claim. -/
theorem State.ramest_commands (h : u.Ends q c i n) (hn : ticks (u.ctxOf q c) i = n) (ho : i.op = op)
    (ha : (u.ctxOf q c).attr ≠ 1) (hf : form i = true) {a : Nat} {m : MotOp}
    (he : eff (u.fetched q c) c (u.ctxOf q c) i = (u.fetched q c).drive q c a (u.ctxOf q c) m) :
    (u.fetched q c).Commands q c (u.ctxOf q c) a m (.next (u.ramest q op false ticks form eff)) := by
  refine ⟨fun free => ?_, fun held g hg => ?_⟩
  · have fault : (u.fetched q c).drive q c a (u.ctxOf q c) m = .fault 0x0308 := by rw [State.drive, free]; rfl
    rw [State.ramest_raise h hn ho (.inr ha) hf (he.trans fault)]
  · subst hg
    rw [State.drive, held] at he
    rw [State.ramest_retire h hn ho (.inr ha) hf he]

end

/-- Settles O15. -/
theorem motionAndCameraInstructions : Obligations.MotionAndCameraInstructions := by
  unfold Obligations.MotionAndCameraInstructions
  rintro e s u _ q c i _ hu rfl rfl
  refine ⟨fun h ha => ⟨fun ho hf hv => ?move, fun ho hf hv => ?vel, fun ho hf hv => ?acc, fun ho hf => ?stop,
    fun ho hf => ?home⟩, fun h ho hf => ⟨fun free => ?trigFault, fun held ok => ?trig, fun held bad => ?trigRefused⟩,
    fun h ho hf hv held idle g hg => ?camset⟩
  case move =>
    rw [exec_move, execMove, ← hu]
    exact State.ramest_commands h rfl ho ha hf (if_neg (Nat.not_le.2 hv))
  case vel =>
    rw [exec_vel, execVel, ← hu]
    exact State.ramest_commands h rfl ho ha hf (if_neg (Nat.not_le.2 hv))
  case acc =>
    rw [exec_acc, execAcc, ← hu]
    exact State.ramest_commands h rfl ho ha hf (if_neg (Nat.not_le.2 hv))
  case stop =>
    rw [exec_stop, execStop, ← hu]
    exact State.ramest_commands h rfl ho ha hf rfl
  case home =>
    rw [exec_home, execHome, ← hu]
    exact State.ramest_commands h rfl ho ha hf rfl
  case trigFault =>
    have he : stepCamtrig (u.fetched q c) q c (u.ctxOf q c) i = .fault 0x0308 := by simp only [stepCamtrig, free]; rfl
    rw [exec_camtrig, execCamtrig, ← hu, State.ramest_raise h rfl ho (.inl rfl) hf he]
  case trig =>
    have he : stepCamtrig (u.fetched q c) q c (u.ctxOf q c) i =
        .next (((u.fetched q c).trigAccept i.imm (.program q c) q).modCtx q c (fun y => { y with t := false })) := by
      simp only [stepCamtrig, held, ok]; rfl
    rw [exec_camtrig, execCamtrig, ← hu, State.ramest_retire h rfl ho (.inl rfl) hf he]
  case trigRefused =>
    have he : stepCamtrig (u.fetched q c) q c (u.ctxOf q c) i = .next (((u.fetched q c).camPost i.imm (.program q c) 0x0904
        (wd ((u.fetched q c).trigRefusal i.imm (.program q c)))).modCtx q c (fun y => { y with t := true })) := by
      simp only [stepCamtrig, held, if_pos bad, bne_iff_ne.2 bad]; rfl
    rw [exec_camtrig, execCamtrig, ← hu, State.ramest_retire h rfl ho (.inl rfl) hf he]
  case camset =>
    subst hg
    have he : stepCamset (u.fetched q c) q c (u.ctxOf q c) i =
        .next (((u.fetched q c).setAccept i.imm ((u.ctxOf q c).rd i.a).toNat (.program q c)).modCtx q c (fun y =>
          { y.wr i.b (wd (vget ((u.fetched q c).setAccept i.imm ((u.ctxOf q c).rd i.a).toNat (.program q c)).cam i.imm).lastGen)
            with t := false })) := by
      simp only [stepCamset, if_neg (Nat.not_le.2 hv), held, State.fetched_cam, idle]; rfl
    rw [exec_camset, execCamset, ← hu, State.ramest_retire h rfl ho (.inl rfl) hf he]

end Sys2Proof.Machine
end

section
/-! Events of the encoder channels (05 R143-R147) -/
namespace Sys2Proof.Machine
open Sys2Proof

/-! ## The channel and its value on the way to LCLK -/

theorem State.modEnc_congr (s : State) (c : Fin 4) {f g : Enc → Enc} (h : f (vget s.enc c) = g (vget s.enc c)) :
    s.modEnc c f = s.modEnc c g := by
  rw [State.modEnc, State.modEnc, vmod_congr s.enc c.val h]

theorem State.postEnc_now (s : State) (c code : Nat) (d : Word) (k : Nat) : (s.postEnc c code d k).now = s.now :=
  (State.postEnc_posts s c code d k).now

/-- A value goes to LCLK, where it is 5 ticks later. -/
theorem State.toLclk_eq {u v : State} {c : Fin 4} {y : Enc} (hy : vget v.enc c = y) (hn : v.now = u.now)
    (bits : Nat) (qerr doubt wrap : Bool) (smp : Option Sample) :
    v.toLclk c bits qerr doubt wrap smp = v.after (u.now + 20) (.seen c y.toEncVal bits qerr doubt wrap smp) := by
  rw [State.toLclk, hy, hn]
  rfl

theorem State.vget_modEnc (s : State) (c : Fin 4) (f : Enc → Enc) : vget (s.modEnc c f).enc c = f (vget s.enc c) := by
  rw [State.modEnc_enc, vget_vmod_fin]

/-- Settles O19. -/
theorem encoderEvents : Obligations.EncoderEvents := by
  unfold Obligations.EncoderEvents
  rintro e s u c _ hu rfl
  simp only [exec_phaseWindowEnd, execPhaseWindowEnd, exec_encLos, execEncLos, exec_encLosClear, execEncLosClear, exec_still,
    execStill, ← hu]
  refine ⟨fun t w ht hw => ⟨fun due more => ?quietEnd, fun due more => ?windowEnd, fun due => ?running⟩, fun none => ?noWindow,
    fun up on => ?loses, fun off => ?lost, fun up off due => ?regains, fun off => ?stillLost,
    fun t up st adv due => ?still, fun st => ?stands, fun q v bits y hq hy hb => ?seen⟩
  case quietEnd =>
    subst hw
    simp only [State.phaseEnd, ht, qMs, if_pos due, more, Nat.lt_irrefl, decide_false, State.when_false]
    exact congrArg _ (State.modEnc_congr u c rfl)
  case windowEnd =>
    subst hw
    simp only [State.phaseEnd, ht, qMs, if_pos due, more, decide_true, State.when_true]
    exact congrArg (fun v => Host.Outcome.next (State.postEnc v c _ _ _)) (State.modEnc_congr u c rfl)
  case running =>
    rw [State.phaseEnd, ht]
    exact congrArg _ (if_neg (Nat.not_le.2 due))
  case noWindow => simp only [State.phaseEnd, none]
  case loses =>
    rw [State.loseSignal, up, on, State.modEnc_congr u c (g := fun _ => { vget u.enc c with los := true, losAt := u.now }) rfl]
    refine congrArg Host.Outcome.next (State.toLclk_eq (y := { vget u.enc c with los := true, losAt := u.now }) ?_ ?_ _ _ _ _ _)
    · rw [State.postEnc_enc, State.vget_modEnc]
    · rw [State.postEnc_now, State.modEnc_now]
  case lost =>
    rcases off with off | off <;> simp [State.loseSignal, off]
  case regains =>
    rw [State.regainSignal, if_pos (by simp [up, off, due, qMs]),
      State.modEnc_congr u c (g := fun _ => { vget u.enc c with los := false }) rfl]
    exact congrArg Host.Outcome.next (State.toLclk_eq (State.vget_modEnc _ _ _) rfl _ _ _ _ _)
  case stillLost =>
    rw [State.regainSignal, if_neg]
    rcases off with off | off
    · simp [off]
    · simp [qMs, Nat.not_le.2 off]
  case still =>
    have due' : ((vget u.enc c).st != .still && decide (t + u.encStillTo c ≤ u.now) && u.islandUp) = true := by
      simp [st, due, up]
    have he : u.standStill c = ((u.modEnc c (fun x => { x with st := .still })).postEnc c 0x0704).toLclk c 0x20000 := by
      simp only [State.standStill, adv, due', ↓reduceIte]
    rw [he, State.modEnc_congr u c (g := fun _ => { vget u.enc c with st := .still }) rfl]
    refine congrArg Host.Outcome.next (State.toLclk_eq (y := { vget u.enc c with st := .still }) ?_ ?_ _ _ _ _ _)
    · rw [State.postEnc_enc, State.vget_modEnc]
    · rw [State.postEnc_now, State.modEnc_now]
  case stands =>
    cases h : (vget u.enc c).lastAdv <;> simp [State.standStill, h, st]
  case seen =>
    have bound : (u.modEnc c (fun x => { x with seen := v })).boundTo c = [q.val] := hq
    simp only [hy, State.happen, State.seenIn, if_neg hb, bound, State.each_cons, State.each_nil, State.when_false]

end Sys2Proof.Machine
end

section
/-! Rebase and clear of a channel; SSI frames (05 R149-R152, R169); where a line boundary stands (05 R155-R160) -/
namespace Sys2Proof.Machine
open Sys2Proof

/-! ## POS.ENCCTL -/

theorem b1_le (k : Bool) : b1 k ≤ 1 := by cases k <;> decide

/-- A word of three fields. -/
theorem fields_three (a1 w1 v1 a2 w2 v2 a3 w3 v3 : Nat) : (fields [(a1, w1, v1), (a2, w2, v2), (a3, w3, v3)] : Word).toNat =
    (v1 % 2 ^ w1 * 2 ^ a1 + v2 % 2 ^ w2 * 2 ^ a2 + v3 % 2 ^ w3 * 2 ^ a3) % 2 ^ 64 := by
  rw [fields, BitVec.toNat_ofNat]
  simp only [List.foldl, Nat.zero_add]

theorem fields_value_flags {n a b : Nat} (hn : n < 2 ^ 48) (ha : a ≤ 1) (hb : b ≤ 1) :
    (fields [(0, 48, n), (48, 1, a), (49, 1, b)] : Word).toNat = n + a * 2 ^ 48 + b * 2 ^ 49 := by
  rw [fields_three, Nat.mod_eq_of_lt hn, Nat.mod_eq_of_lt (a := a) (by omega), Nat.mod_eq_of_lt (a := b) (by omega)]
  omega

/-- The word that a rebase writes. -/
theorem rebaseWord_toNat (v : BitVec 48) (k : Bool) :
    (fields [(0, 48, v.toNat), (48, 1, 1), (49, 1, b1 k)] : Word).toNat = v.toNat + 2 ^ 48 + b1 k * 2 ^ 49 := by
  rw [fields_value_flags v.isLt (Nat.le_refl 1) (b1_le k), Nat.one_mul]

theorem rebaseWord_bit48 (v : BitVec 48) (k : Bool) : bit (fields [(0, 48, v.toNat), (48, 1, 1), (49, 1, b1 k)]) 48 = true := by
  have := v.isLt
  rw [bit, rebaseWord_toNat, Nat.testBit_eq_decide_div_mod_eq]
  cases k <;> simp only [b1] <;> simp <;> omega

theorem rebaseWord_bit49 (v : BitVec 48) (k : Bool) : bit (fields [(0, 48, v.toNat), (48, 1, 1), (49, 1, b1 k)]) 49 = k := by
  have := v.isLt
  rw [bit, rebaseWord_toNat, Nat.testBit_eq_decide_div_mod_eq]
  cases k <;> simp only [b1] <;> simp <;> omega

theorem rebaseWord_value (v : BitVec 48) (k : Bool) :
    signedN 48 (bits (fields [(0, 48, v.toNat), (48, 1, 1), (49, 1, b1 k)]) 47 0) = v.toInt := by
  have := v.isLt
  have low : bits (fields [(0, 48, v.toNat), (48, 1, 1), (49, 1, b1 k)]) 47 0 = v.toNat := by
    rw [bits, rebaseWord_toNat, bitsN, Nat.shiftRight_zero]
    omega
  rw [low, signedN, BitVec.toInt_eq_toNat_cond, Nat.mod_eq_of_lt this]
  split <;> split <;> omega

theorem clrqWord_bit48 : bit (fields [(49, 1, 1)]) 48 = false := by decide

theorem clrqWord_bit49 : bit (fields [(49, 1, 1)]) 49 = true := by decide

theorem State.wrEncCtl_accepts {u : State} {n c : Nat} {v : Word} (ha : (u.ses n).cls ≠ .observer)
    (h : bit v 48 = false ∨ u.placedFrom c = []) :
    (u.wrEncCtl n c v).1 = u.after ((u.now + 4) / 5 * 5 + 10)
      (.rebase c (if bit v 48 then some (signedN 48 (bits v 47 0)) else none) (bit v 49) n u.now) := by
  have may : u.acting n = true := by simpa [State.acting] using ha
  have free : (bit v 48 && !(u.placedFrom c).isEmpty) = false := by rcases h with h | h <;> simp [h]
  simp only [State.wrEncCtl, State.ifRight, may, free, ↓reduceIte, Bool.false_eq_true]

theorem State.wrEncCtl_refuses {u : State} {n c : Nat} {v : Word} (ha : (u.ses n).cls ≠ .observer) (h : bit v 48 = true)
    (hp : u.placedFrom c ≠ []) : (u.wrEncCtl n c v).1 = (u.refuse n 0x070B c).1 := by
  have may : u.acting n = true := by simpa [State.acting] using ha
  have bound : (bit v 48 && !(u.placedFrom c).isEmpty) = true := by simp [h, hp]
  simp only [State.wrEncCtl, State.ifRight, may, bound, ↓reduceIte]

theorem State.modEnc_modEnc (s : State) (c : Nat) (f g : Enc → Enc) :
    (s.modEnc c f).modEnc c g = s.modEnc c (fun x => g (f x)) := by
  simp only [State.modEnc, vmod_vmod]

theorem vmod_self {α : Type} {n : Nat} [Inhabited α] (v : Vector α n) (i : Nat) : vmod v i (fun _ => vget v i) = v := by
  refine Vector.ext fun j hj => ?_
  rw [vmod, vset, Vector.getElem_setIfInBounds]
  split
  · next h =>
    subst h
    rw [vget, dif_pos hj]
  · rfl

theorem State.modEnc_same (s : State) (c : Fin 4) : s.modEnc c (fun _ => vget s.enc c) = s := by
  rw [State.modEnc, vmod_self]

/-- The bits of an SSI frame, read: what their check and the difference from the previous value decide. -/
theorem State.ssiDone_bits {u y z : State} {c : Fin 4} {t m : Nat} {d : Int} {v : BitVec 32} {low : Bool}
    (clk : (vget u.enc c).ssi = .clocking t) (due : t + (u.ssiBits c + 1) * u.ssiClk c ≤ u.now) (hg : u.ssiGray c = false)
    (hm : m = v.toNat % 2 ^ u.ssiBits c) (hd : d = wrapN (u.ssiBits c) ((m : Int) - ((vget u.enc c).ssiPrev.getD m : Nat)))
    (hy : y = u.modEnc c (fun _ => { vget u.enc c with ssiPrev := some m, ssi := .idle }))
    (hz : z = u.modEnc c (fun _ => { vget u.enc c with ssiPrev := some m, ssi := .idle, ssiErr := false })) :
    u.ssiDone c v low =
      if !low then y.ssiFail c 0x0709
      else if u.ssiMax c ≠ 0 && u.ssiMax c < d.natAbs then y.ssiFail c 0x070A
      else if (vget u.enc c).los || d = 0 then z.toLclk c else z.encMove c d t true := by
  have hy' : u.modEnc c (fun x => { x with ssiPrev := some m, ssi := .idle }) = y :=
    (State.modEnc_congr u c rfl).trans hy.symm
  have hz' : y.modEnc c (fun x => { x with ssiErr := false }) = z := by
    rw [hy, hz, State.modEnc_modEnc]
  have max : y.ssiMax c = u.ssiMax c := by rw [hy]; rfl
  simp only [State.ssiDone, clk, due, hg, ↓reduceIte, Bool.false_eq_true, ← hm, hy', ← hd, hz', max]

/-- Settles O20. -/
theorem encoderRebaseAndSsi : Obligations.EncoderRebaseAndSsi := by
  unfold Obligations.EncoderRebaseAndSsi
  refine ⟨⟨?write, ?applies⟩, ?ssi⟩
  case write =>
    rintro e s u c w n v k hu hr hw ha
    rw [exec_encRebase, execEncRebase, exec_encClrq, execEncClrq, ← hu, State.asWriter_of_ready hr hw,
      State.asWriter_of_ready hr hw]
    refine ⟨fun free => ?_, fun bound => ?_, ?_⟩
    · rw [State.wrEncCtl_accepts ha (.inr free), rebaseWord_bit48, rebaseWord_bit49, rebaseWord_value]
      rfl
    · rw [State.wrEncCtl_refuses ha (rebaseWord_bit48 v k) bound]
    · rw [State.wrEncCtl_accepts ha (.inl clrqWord_bit48), clrqWord_bit48, clrqWord_bit49]
      rfl
  case applies =>
    rintro u c n at_ x y v k rfl hy
    have merged : (match v with
          | some m => u.modEnc c (fun x => { x with count := m, ext := m, lastAdvCount := x.lastAdvCount + (m - x.count) })
          | none => u).when k (fun s => s.modEnc c (fun x => { x with qerr := 0 })) = u.modEnc c (fun _ => y) := by
      subst hy
      cases v with
      | none => cases k with
        | false => exact (State.modEnc_same u c).symm
        | true => exact State.modEnc_congr u c rfl
      | some m => cases k with
        | false => exact State.modEnc_congr u c rfl
        | true => exact (State.modEnc_modEnc u c _ _).trans (State.modEnc_congr u c rfl)
    show State.toLclk (State.when _ k _) c = _
    refine Eq.trans (congrArg (State.toLclk · c) merged) ?_
    exact State.toLclk_eq (State.vget_modEnc _ _ _) rfl _ _ _ _ _
  case ssi =>
    rintro e s u c _ hu rfl
    rw [exec_ssiFrameStart, execSsiFrameStart, exec_ssiDataReady, execSsiDataReady, exec_ssiTimeout, execSsiTimeout, ← hu]
    refine ⟨fun up on idle due => ?_, fun t wait inTime => ?_, fun t wait late => ?_, ?done⟩
    · rw [State.ssiStart, if_pos (by simp [up, on, idle, due]), State.modEnc_congr]
      rfl
    · simp only [State.ssiReady, wait, inTime, ↓reduceIte]
      exact congrArg (fun v => Host.Outcome.next (State.emit v _)) (State.modEnc_congr u c rfl)
    · simp only [State.ssiTimedOut, wait, late, ↓reduceIte]
    · rintro t v low m d y z clk due hg hm hd hy hz
      have he := State.ssiDone_bits (v := v) (low := low) clk due hg hm hd hy hz
      have count : (vget (z.encMove c d t true).enc c).count = wrapN 48 ((vget u.enc c).count + d) := by
        rw [State.encMove_channel, Enc.edge_count, hz, State.vget_modEnc]
      have inMax (h : u.ssiMax c = 0 ∨ d.natAbs ≤ u.ssiMax c) :
          ¬ (u.ssiMax c ≠ 0 && decide (u.ssiMax c < d.natAbs)) = true := by
        rcases h with h | h
        · simp [h]
        · simp [Nat.not_lt.2 h]
      rw [exec_ssiFrameDone, execSsiFrameDone, ← hu, he]
      refine ⟨fun hl => by simp [hl], fun hl h0 h1 => by simp [hl, h0, h1], fun hl h0 h1 => ?_, fun hl h0 h1 h2 => ⟨?_, count⟩⟩
      · rw [hl, if_neg (by decide), if_neg (inMax h0), if_pos (by simpa using h1), hz]
        exact congrArg _ (State.toLclk_eq (State.vget_modEnc _ _ _) rfl _ _ _ _ _)
      · rw [hl, if_neg (by decide), if_neg (inMax h0), if_neg (by simp [h1, h2])]

/-- Settles O21. -/
theorem boundariesReached : Obligations.BoundariesReached := by
  unfold Obligations.BoundariesReached
  rintro x m k d first p hp hs
  refine ⟨fun hb => ?_, fun h0 h1 => ?_, fun h1 => ?_, fun h0 h => ?_, fun h0 h1 hn hm hb => ?_⟩
  · simp [hp, Seq.past, hb]
  · simp only [Seq.reach, ← hp, if_pos h0, hs, if_neg (Int.not_lt.2 h1)]
    rfl
  · have h0 : 0 ≤ p := by omega
    simp only [Seq.reach, ← hp, if_pos h0, hs, if_pos h1]
    rfl
  · have far : (x.interp m && decide (-p < 2 ^ 40)) = false := by
      rw [Seq.interp]
      rcases h with h | h | h | h
      · simp [h]
      · simp [h]
      · simp [beq_eq_false_iff_ne.2 h]
      · simp; omega
    simp only [Seq.reach, ← hp, if_neg (Int.not_le.2 h0), far, Bool.false_eq_true, ↓reduceIte]
  · have near : (x.interp m && decide (-p < 2 ^ 40)) = true := by
      have : -p < 2 ^ 40 := by omega
      rw [Seq.interp, hs, hm, hb, hn, decide_eq_true this]
      simp
    simp only [Seq.reach, ← hp, if_neg (Int.not_le.2 h0), near, ↓reduceIte]
    rfl

end Sys2Proof.Machine
end

section
/-! The lines of a swath (04 R106-R108; 05 R156-R163; 06 R172-R177) -/
namespace Sys2Proof.Machine
open Sys2Proof

theorem State.modSeq_congr (s : State) (q : Nat) {f g : Seq → Seq} (h : f (vget s.seq q) = g (vget s.seq q)) :
    s.modSeq q f = s.modSeq q g := by
  rw [State.modSeq, State.modSeq, vmod_congr s.seq q h]

theorem State.settleLines_place (s : State) (q : Fin 16) (d : Sched) (h : d ∈ (vget (s.settleLines q).place q).sched) :
    d ∈ (vget s.place q).sched := by
  have same (v : State) (b : Bool) (f : State → Seq → Seq) : (v.when b fun s => s.modSeq q (f s)).place = v.place := by cases b <;> rfl
  have lines (l : List Nat) (v : State) (f : FirePort → FirePort) : (v.each l fun s p => s.modFp p f).place = v.place := by
    refine State.each_field (g := State.place) ?_ l v
    exact fun _ _ => rfl
  unfold State.settleLines at h
  dsimp only at h
  rw [lines, State.modPlace_place, vget_vmod_fin] at h
  replace h := (List.mem_filter.1 h).1
  rw [same] at h
  exact h

/-- Settles O22. -/
theorem linesArePlacedReadAndFired : Obligations.LinesArePlacedReadAndFired := by
  unfold Obligations.LinesArePlacedReadAndFired
  rintro e s u q p hu
  simp only [exec_lineEvent, execLineEvent, exec_fireInstant, execFireInstant, exec_rowTrigger, execRowTrigger,
    exec_readPoint, execReadPoint, ← hu]
  refine ⟨fun m l hi ho hg due => ?sample, fun hi => ?noSample, fun d hd due hg ht => ?fires, fun hd => ?noFire,
    fun d d' r hd hr hd' hg hl => ?row, fun d r k g hk h0 hlt hr hgs => ?sends, fun hd => ?noRow, fun hd => ?noRead,
    fun n n0 l v y r hd hv hq hn hy hr => ?reads⟩
  case sample =>
    have due' : u.due m.at_ (decideTicks * qTick) = true :=
      decide_eq_true due
    simp only [State.lineEvents, hi, ho, hg, due']
    rfl
  case noSample => simp only [State.lineEvents, hi]
  case fires =>
    have go : (decide (u.now + 8 * qTick < d.fireAt) || u.sameTick d.at_ || u.pws.gap.isSome) = false := by
      have late : ¬ u.now + 8 * qTick < d.fireAt := Nat.not_lt.2 due
      rw [hg, ht, decide_eq_false late]
      rfl
    simp only [State.fireInstant, hd, go, Bool.false_eq_true, ↓reduceIte]
    refine ⟨_, rfl, fun y hy hl => ?_⟩
    have sent := State.settleLines_place _ q y hy
    rw [State.modPlace_place, vget_vmod_fin] at sent
    obtain ⟨c, -, hc⟩ := List.mem_map.1 sent
    split at hc
    · subst hc
      rfl
    · next other =>
      subst hc
      simpa [hl] using other
  case noFire => simp only [State.fireInstant, hd]
  case row =>
    replace hd : u.rowBefore q p (u.now + 8 * qTick + 1) = some d := hd
    replace hd' : u.rowBefore q p (r.1 + 2 * qTick) = some d' := hd'
    simp only [State.rowTrigger, hg, hl, hd, Option.bind_some, hr, hd']
    rfl
  case sends =>
    have next : u.nextRow p d = some r := by simp only [State.nextRow, ← hk, h0, hlt, hr]; rfl
    subst hgs hk
    simp only [State.sendRow, next, Bool.and_eq_true, Bool.not_eq_true']
  case noRow =>
    have none' : u.rowBefore q p (u.now + 8 * qTick + 1) = none := hd
    simp only [State.rowTrigger, none', Option.bind_none, ite_self]
  case noRead => simp only [State.readPoint, hd]
  case reads =>
    have begun : v.modSeq q (fun z => { z with readLn := some n, underrun := none }) =
        v.modSeq q (fun z => { z with readLn := some n }) := by
      have same : ∀ x : Seq, x.underrun = none → { x with readLn := some n, underrun := none } = { x with readLn := some n } := by
        rintro x h
        rw [← h]
      exact State.modSeq_congr v q (same _ hn)
    have he : u.calFirst.readPoint q =
        if r.2.1 then r.1.modSeq q (fun z => { z with nLate := z.nLate + 1, otherLn := some n })
        else if r.2.2 || (n0.kind != .blank && !(vget v.seq q).gone.isEmpty) then r.1.noteOther q n else r.1 := by
      subst hr hy
      simp only [State.readPoint, hd, ← hv, hq, List.head?_cons, hn, runStep, State.postRun, begun]
    rw [he]
    exact ⟨fun h => by rw [if_pos h], fun h h' => by simp [h, h'], fun h h' h'' => by simp [h, h', h'']⟩



end Sys2Proof.Machine
end

section
/-! Where a read completes, a TLB_INVAL that waited for it is answered too (11 R351) -/
namespace Sys2Proof.Machine
open Sys2Proof

/-- A read of port 9's stream, in flight since before a TLB_INVAL of its session. -/
def oldRead : DmaRead := { va := 0x10000, len := 32, addr := 0x30000, old := true }

/-- Session 7 holds port 9, whose stream waits for one read; a TLB_INVAL of the session waits for that read. -/
def invalidateWaits : State :=
  (Tests.strAt (fun x => { x with reads := [oldRead] })).modSess 7 (fun x => { x with invals := [(0x0203, {})] })

/-- The read's bytes alone, taken up by the stream. -/
def invalidateRead : State :=
  ((invalidateWaits.arrive {}).modStr 9 (fun y => { y with
    reads := [], fetched := y.fetched ++ memRead (vget (invalidateWaits.arrive {}).hostMem oldRead.fn) oldRead.addr oldRead.len,
    lastByte := (invalidateWaits.arrive {}).now })).strSettle 9

/-- How many INVALIDATEs of session 7 wait. -/
def invalsLeft : Host.Outcome State Fault Refusal → Nat
  | .next t => (t.ses 7).invals.length
  | _ => 0

/-! ## The sessions that have nothing to settle -/

/-- A session has nothing that a read's completion settles. -/
def State.nothingOld (s : State) (n : Nat) : Bool :=
  (s.ses n).invals.isEmpty && (s.ses n).kennel.isNone && !s.mgt.revs.any (fun r => r.session == n)

/-- What a read's completion settles for session n. -/
def State.settleReads (s : State) (n : Nat) : State :=
  let s := if !(s.ses n).invals.isEmpty && !s.oldReads n then
      let l := (s.ses n).invals
      (s.modSess n (fun x => { x with invals := [] })).each l (fun s r => s.reply n r.1 r.2 0 [] true)
    else s
  if (s.ses n).kennel.isSome || s.mgt.revs.any (fun r => r.session == n) then s.drainIf n else s

theorem State.readSettled_each (s : State) : s.readSettled = s.each (List.range 256) State.settleReads := rfl

theorem State.settleReads_idle {s : State} {n : Nat} (h : s.nothingOld n = true) : s.settleReads n = s := by
  simp only [State.nothingOld, Bool.and_eq_true, Bool.not_eq_true', Option.isNone_iff_eq_none] at h
  obtain ⟨⟨invals, kennel⟩, revs⟩ := h
  simp [State.settleReads, invals, kennel, revs]

theorem State.each_append {α : Type} (l k : List α) (f : State → α → State) (s : State) :
    s.each (l ++ k) f = (s.each l f).each k f := List.foldl_append

theorem State.each_idle {l : List Nat} {s : State} (h : l.all s.nothingOld = true) : s.each l State.settleReads = s := by
  induction l with
  | nil => rfl
  | cons n l ih =>
    obtain ⟨hn, hl⟩ := Bool.and_eq_true_iff.1 h
    rw [State.each_cons, State.settleReads_idle hn]
    exact ih hl

/-- Where the other sessions have nothing to settle, one session settles. -/
theorem State.readSettled_one {s : State} {n : Nat} (hn : n < 256) (before : (List.range n).all s.nothingOld = true)
    (after : (List.range' (n + 1) (255 - n)).all (s.settleReads n).nothingOld = true) :
    s.readSettled = s.settleReads n := by
  have parts : List.range 256 = List.range n ++ n :: List.range' (n + 1) (255 - n) := by
    have split : 256 = n + (255 - n + 1) := by omega
    rw [split, List.range_eq_range', ← List.range'_append_1, Nat.zero_add, List.range'_succ, ← List.range_eq_range']
  rw [State.readSettled_each, parts, State.each_append, State.each_idle before, State.each_cons, State.each_idle after]

/-! ## The counterexample -/

/-- The state after the read, before anything is settled. -/
def invalidateDone : State := (invalidateWaits.arrive {}).readDone 9 .ok

theorem invalidateDone_before : (List.range 7).all invalidateDone.nothingOld = true := by decide +kernel

theorem invalidateDone_after :
    (List.range' (7 + 1) (255 - 7)).all (invalidateDone.settleReads 7).nothingOld = true := by decide +kernel

theorem invalidateDone_answered : ((invalidateDone.settleReads 7).ses 7).invals.length = 0 := by decide +kernel

theorem invalidateWaits_answered : invalsLeft (exec (.dmaReadCompletion {} 9 .ok) invalidateWaits) = 0 := by
  have settled := State.readSettled_one (by decide) invalidateDone_before invalidateDone_after
  rw [exec_dmaReadCompletion, execDmaReadCompletion]
  show ((invalidateDone.readSettled).ses 7).invals.length = 0
  rw [settled, invalidateDone_answered]

theorem invalidateWaits_reads : (vget (invalidateWaits.arrive {}).str 9).reads = [oldRead] := by decide +kernel

/-- The read alone leaves the TLB_INVAL waiting. -/
theorem invalidateRead_waits : (invalidateRead.ses 7).invals.length = 1 := by decide +kernel

/-- Refutes O23: a DMA read's completion also answers the TLB_INVAL that waited for the read, which the statement leaves out. -/
theorem not_streamsReadTheirChains : ¬ Obligations.StreamsReadTheirChains := by
  unfold Obligations.StreamsReadTheirChains
  rintro ⟨chains, -⟩
  obtain ⟨-, -, -, -, reads⟩ := chains {} invalidateWaits _ 9 _ rfl rfl
  obtain ⟨completes, -⟩ := reads oldRead [] invalidateWaits_reads rfl rfl
  have left := congrArg invalsLeft completes
  rw [invalidateWaits_answered] at left
  have wait : invalsLeft (.next invalidateRead) = 1 := invalidateRead_waits
  exact absurd (left.trans wait) (by decide)

end Sys2Proof.Machine
end

section
/-! A Dune from its header to the ring (04 R98-R124) -/
namespace Sys2Proof.Machine
open Sys2Proof

theorem State.ringStore_now (s : State) (p : Nat) (d : Dune) (b : List Byte) (i : Nat) : (s.ringStore p d b i).now = s.now := by
  unfold State.ringStore
  dsimp only
  split
  · rfl
  · simp only [State.modRing_now, State.sramWrite_now]

theorem State.ringStores_now (l : List Nat) (s : State) (p : Nat) (d : Dune) (b : List Byte) :
    (s.each l fun y i => y.ringStore p d b i).now = s.now := by
  refine State.each_field (g := State.now) ?_ l s
  exact fun u i => u.ringStore_now p d b i

/-- The decoded lines of a Dune in the ring, and its stream past it. -/
def State.duneStored (u : State) (p : Nat) (d : Dune) (o : List Byte) : State :=
  let s := (u.engFree p u.now).each (List.range d.lines) (fun s i => s.ringStore p d o i)
  let s := (s.strAccept p d).modStr p (fun x => { x with doneAt := s.now, doneFirst := d.first, doneLines := d.lines })
  let s := s.when d.slow (fun s =>
    (s.modStr p (fun x => { x with slow := satAdd 16 x.slow 1 })).postUnit p (s.lineRec p 0x040A d.first))
  (s.strAdvance p d.len).strStop p false

/-- The lines are stored in the instant at which the engine is done. -/
theorem State.duneStored_eq {u y : State} {p : Nat} {d : Dune} {o : List Byte}
    (hy : y = ((((u.engFree p u.now).each (List.range d.lines) (fun y i => y.ringStore p d o i)).strAccept p d).modStr p
      (fun z => { z with doneAt := u.now, doneFirst := d.first, doneLines := d.lines }))) :
    u.duneStored p d o = ((y.when d.slow (fun s => (s.modStr p (fun x => { x with slow := satAdd 16 x.slow 1 })).postUnit p
      (s.lineRec p 0x040A d.first))).strAdvance p d.len).strStop p false := by
  subst hy
  rw [State.duneStored, State.ringStores_now]
  rfl

theorem Dune.decode_stored {d : Dune} {b : List Byte} (h : d.stored = true) :
    d.decode b = if crc32c b = d.ucrc then .ok b else .error 0x0404 := by
  rw [Dune.decode, h]
  rfl

/-- Settles O24. -/
theorem dunesReachTheRing : Obligations.DunesReachTheRing := by
  unfold Obligations.DunesReachTheRing
  refine ⟨?dunes, ?stored⟩
  case stored =>
    intro d b h
    rw [Dune.decode_stored h]
    exact ⟨fun hc => if_pos hc, fun hc => if_neg hc⟩
  case dunes =>
    rintro e s u p _ hu rfl
    simp only [exec_duneHeader, execDuneHeader, exec_engineGrant, execEngineGrant, exec_duneDecodeDone, execDuneDecodeDone,
      exec_engineAbandon, execEngineAbandon, ← hu]
    refine ⟨fun pos left hstep hst hd hl hb => ⟨fun c rest hc => ?checked, fun hc ho => ?taken, fun hm => ?magic⟩,
      fun g d ho hout ht hf hr hd hb ha => ?grants, fun g hr => ?noGrant,
      fun d hd hst hb hg => ⟨fun hf => ?flushed, fun c hf hc => ?bad, fun o y hf hc hy => ?good⟩,
      fun d hd hst => ⟨fun hb ht hc => ?starves, fun h => ?fed, fun h => ?ecc, fun h => ?eccTwice⟩⟩
    case checked =>
      simp only [State.readHeader, hstep, hst, hd, Option.any_some, Nat.not_lt.2 hl, Nat.not_lt.2 hb, hc]
      rfl
    case taken =>
      simp only [State.readHeader, hstep, hst, hd, Option.any_some, Nat.not_lt.2 hl, Nat.not_lt.2 hb, hc, ho]
      rfl
    case magic =>
      simp only [State.duneCheck, hm, decide_false, Bool.false_and, Bool.not_false, ↓reduceIte]
    case grants =>
      have room : ¬ d.first + d.lines ≤ (vget u.ring p).base := by omega
      have he : u.grant g = ((({ u with engLast := p.val } : State).modEng g (fun x => { x with
          owner := some p.val, doneAt := u.now + 4 * d.ticks })).modStr p (fun x => { x with
            st := .decode, eng := g.val, lastByte := u.now })).modRing p (fun r => (List.range d.lines).foldl (fun r i =>
              r.put (d.first + i) { st := .pending, line := d.first + i, pack := d.pack }) r) := by
        simp only [State.grant, ho, hout, ht, Nat.not_lt.2 hf, hr, hd, room, ha]
        rfl
      rw [he]
      refine ⟨_, rfl, ?_, ?_, rfl, fun i hi => ⟨?_, ?_⟩, fun i hi => ?_, rfl, rfl, rfl, rfl⟩
      · rw [State.modRing_eng, State.modStr_eng, State.modEng_eng, vget_vmod_fin]
      · rw [State.modRing_str, State.modStr_str, vget_vmod_fin]
        rfl
      · have away : p.val ≠ i := fun h => hi (Fin.ext h.symm)
        rw [State.modRing_str, State.modStr_str, vget_vmod_ne _ _ _ _ away]
        rfl
      · have away : p.val ≠ i := fun h => hi (Fin.ext h.symm)
        rw [State.modRing_ring, vget_vmod_ne _ _ _ _ away]
        rfl
      · have away : g.val ≠ i := fun h => hi (Fin.ext h.symm)
        rw [State.modRing_eng, State.modStr_eng, State.modEng_eng, vget_vmod_ne _ _ _ _ away]
    case noGrant =>
      simp only [State.grant, hr, ite_self]
    case flushed =>
      simp only [State.decodeDone, hd, hf, Bool.or_true, ↓reduceIte]
    case bad =>
      simp only [State.decodeDone, hd, hst, Nat.not_lt.2 hb, Nat.not_lt.2 hg, hf, hc]
      rfl
    case good =>
      have he : u.decodeDone p = u.duneStored p d o := by
        simp only [State.decodeDone, hd, hst, Nat.not_lt.2 hb, Nat.not_lt.2 hg, hf, hc]
        rfl
      rw [he, State.duneStored_eq hy]
      exact ⟨fun hs => by rw [hs]; rfl, fun hs z hz => by rw [hs, hz]; rfl⟩
    case starves =>
      have due : u.due (vget u.str p).lastByte (2048 * qTick) = true := decide_eq_true ht
      simp only [State.starve, hd, hst, hb, due, hc]
      rfl
    case fed =>
      have off : (u.due (vget u.str p).lastByte (2048 * qTick) && !u.byteComes p) = false := by
        rcases h with h | h
        · rw [h, Bool.not_true, Bool.and_false]
        · have early : u.due (vget u.str p).lastByte (2048 * qTick) = false :=
            decide_eq_false (by show ¬ _ + 8192 + _ ≤ _; omega)
          rw [early, Bool.false_and]
      simp only [State.starve, hd, Bool.and_assoc, off, Bool.and_false, Bool.false_eq_true, ↓reduceIte]
    case ecc =>
      simp only [State.engineEcc, hd, hst, h, ↓reduceIte]
      rfl
    case eccTwice =>
      simp only [State.engineEcc, hd, hst, h, ↓reduceIte]
      rfl

end Sys2Proof.Machine
end

section
/-! Motion commands of a host, and what they do at their edge (10 R314-R328) -/
namespace Sys2Proof.Machine
open Sys2Proof

theorem State.asWriter_of_auth {s : State} {w : Writer} {n : Nat} (hr : s.phase = .ready) (hw : s.writer w = some n)
    (ha : writerAuth w = true) (op : State → Nat → State × Nat) : s.asWriter w true op = (op s n).1 := by
  simp [State.asWriter, hr, hw, ha]

/-! ## The word of MOT.CMD -/

section
variable {v op sel : Nat} (hv : v < 2 ^ 48) (ho : op < 16) (hs : sel < 4)
include hv ho hs

theorem motWord_toNat : (fields [(0, 48, v), (48, 4, op), (52, 2, sel)] : Word).toNat = v + op * 2 ^ 48 + sel * 2 ^ 52 := by
  have h4 : op % 2 ^ 4 = op := Nat.mod_eq_of_lt ho
  have h2 : sel % 2 ^ 2 = sel := Nat.mod_eq_of_lt hs
  rw [fields_three, Nat.mod_eq_of_lt hv, h4, h2]
  omega

theorem motWord_value : bits (fields [(0, 48, v), (48, 4, op), (52, 2, sel)]) 47 0 = v := by
  rw [bits, motWord_toNat hv ho hs, bitsN, Nat.shiftRight_zero]
  omega

theorem motWord_op : bits (fields [(0, 48, v), (48, 4, op), (52, 2, sel)]) 51 48 = op := by
  rw [bits, motWord_toNat hv ho hs, bitsN, Nat.shiftRight_eq_div_pow]
  omega

theorem motWord_sel : bits (fields [(0, 48, v), (48, 4, op), (52, 2, sel)]) 53 52 = sel := by
  rw [bits, motWord_toNat hv ho hs, bitsN, Nat.shiftRight_eq_div_pow]
  omega

theorem motWord_low (h32 : v < 2 ^ 32) : bits (fields [(0, 48, v), (48, 4, op), (52, 2, sel)]) 31 0 = v := by
  rw [bits, motWord_toNat hv ho hs, bitsN, Nat.shiftRight_zero]
  omega

end

theorem signedN_toNat {w : Nat} (v : BitVec w) : signedN w v.toNat = v.toInt := by
  have := v.isLt
  rw [signedN, BitVec.toInt_eq_toNat_cond, Nat.mod_eq_of_lt this]
  cases w with
  | zero => simp [show v.toNat = 0 by simpa using this]
  | succ w =>
    have two : (2 : Nat) ^ (w + 1) = 2 * 2 ^ w := by rw [Nat.pow_succ, Nat.mul_comm]
    rw [Nat.add_sub_cancel, two]
    split <;> split <;> omega

/-! ## A host's command -/

section
variable {u : State} {w : Writer} {n : Nat} {a : Fin 8} (hr : u.phase = .ready) (hw : u.writer w = some n)
  (ha : writerAuth w = true)
include hr hw ha

theorem State.motCmd_refused (held : u.holds n (uAx a) = false) (op v sel : Nat) :
    u.motCmd w a op v sel = u.postErr n 0x0804 a := by
  rw [State.motCmd, State.asWriter_of_auth hr hw ha, State.wrMotCmd, held]
  rfl

theorem State.axCtl_refused (held : u.holds n (uAx a) = false) (v : Word) :
    u.asWriter w true (fun s n => s.wrAxCtl n a v) = u.postErr n 0x0804 a := by
  rw [State.asWriter_of_auth hr hw ha, State.wrAxCtl, held]
  rfl

theorem State.motCmd_held (held : u.holds n (uAx a) = true) (free : (vget u.ax a).cmdBusy = false) (op v sel : Nat) {m : MotOp}
    (hm : ∀ s : State, s.wrMotCmd n a (fields [(0, 48, v), (48, 4, op), (52, 2, sel)]) =
      if !s.holds n (uAx a) then s.refuse n 0x0804 a
      else if (vget s.ax a).cmdBusy then s.refuse n 0x0801 a else s.hostMotion a n m) :
    u.motCmd w a op v sel = (u.hostMotion a n m).1 := by
  rw [State.motCmd, State.asWriter_of_auth hr hw ha, hm, held, free]
  rfl

end

/-- A command that reaches the motion block is accepted or refused by its rules. -/
theorem State.hostMotion_commands (u : State) (n : Nat) (a : Fin 8) (m : MotOp) :
    u.HostCommands n a m (.next (u.hostMotion a n m).1) := by
  refine ⟨fun ok => ?_, fun k hk bad => ?_⟩
  · simp only [State.hostMotion, State.motion, ok, ↓reduceIte]
  · subst hk
    simp only [State.hostMotion, State.motion, if_neg bad]
    rfl

/-! ## An axis changed -/

theorem State.modAx_congr (s : State) (a : Nat) {f g : Axis → Axis} (h : f (vget s.ax a) = g (vget s.ax a)) :
    s.modAx a f = s.modAx a g := by
  rw [State.modAx, State.modAx, vmod_congr s.ax a h]

/-- A change after which the axis does not newly stand still. -/
theorem State.modAxis_eq {s : State} {a : Nat} {f : Axis → Axis} {y : Axis} (hy : f (vget s.ax a) = y)
    (hs : (y.still && !(vget s.ax a).still) = false) : s.modAxis a f = s.modAx a (fun _ => y) := by
  refine State.modAx_congr s a ?_
  dsimp only
  rw [hy, hs]
  rfl

theorem State.modAxis_congr (s : State) (a : Nat) {f g : Axis → Axis} (h : f (vget s.ax a) = g (vget s.ax a)) :
    s.modAxis a f = s.modAxis a g := by
  refine State.modAx_congr s a ?_
  dsimp only
  rw [h]

theorem State.modAxis_same {s : State} {a : Nat} {f : Axis → Axis} (hf : f (vget s.ax a) = vget s.ax a) :
    s.modAxis a f = s := by
  rw [State.modAxis_eq hf (by simp), State.modAx, vmod_self]

theorem Axis.still_of_moving {x : Axis} (h : x.moving = true) : x.still = false := by simp [Axis.still, h]

/-- A change that neither stops an axis nor empties its queue. -/
theorem Axis.not_newly_still {x y : Axis} (hm : y.moving = x.moving) (hq : y.queued = x.queued) :
    (y.still && !x.still) = false := by
  rw [Axis.still, Axis.still, hm, hq, Bool.and_not_self]

theorem Axis.not_still_of_moving {x y : Axis} (h : y.moving = true) : (y.still && !x.still) = false := by
  rw [Axis.still_of_moving h, Bool.false_and]

/-- A move from standstill to another position. -/
theorem Axis.start_eq {x : Axis} {t : Int} (h : t ≠ x.pos) (vs vel lead : Nat) : x.start vs vel t lead = { x with
    st := .accel, back := decide (t < x.pos), riseFrom := if decide (t < x.pos) = x.back then x.riseFrom else max x.riseFrom lead,
    target := t, floor := min vs vel, v := min vs vel * 65536, stopping := false, travelled := 0 } := by
  rw [Axis.start, if_neg h]
  simp only [Axis.face, beq_iff_eq]

/-- An axis that is taken up by a command: neither HELD nor DISABLED. -/
theorem State.motApply_off {u : State} {a : Nat} (h : (vget u.ax a).st = .held ∨ (vget u.ax a).st = .disabled) (m : MotOp) :
    u.motApply a m = u := by
  unfold State.motApply
  dsimp only
  rw [if_pos]
  rcases h with h | h <;> simp [h]

section
variable {u : State} {n : Nat} {a : Fin 8} (held : u.holds n (uAx a) = true)
include held

theorem State.wrAxCtl_en : (u.wrAxCtl n a 1).1 = (u.axisEn a).1 := by
  rw [State.wrAxCtl, held]
  rfl

theorem State.wrAxCtl_dis : (u.wrAxCtl n a 2).1 = (u.axisDis a n).1 := by
  rw [State.wrAxCtl, held]
  rfl

theorem State.wrAxCtl_release : (u.wrAxCtl n a 4).1 = (u.axisRelease a n).1 := by
  rw [State.wrAxCtl, held]
  rfl

end

/-- Settles O25. -/
theorem hostMotionCommands : Obligations.HostMotionCommands := by
  unfold Obligations.HostMotionCommands
  refine ⟨⟨?commands, ?applies⟩, ?enables⟩
  case commands =>
    rintro e w a s u n d v sel hu hr hw ha free
    refine ⟨fun held => ?_, fun other cmd hc => ?_⟩
    · have zero : (0 : Nat) < 4 := by decide
      have narrow : v.toNat < 2 ^ 48 := Nat.lt_trans v.isLt (by decide)
      simp only [exec_motCmdMove, execMotCmdMove, exec_motCmdMoveA, execMotCmdMoveA, exec_motCmdVel, execMotCmdVel,
        exec_motCmdAcc, execMotCmdAcc, exec_motCmdStop, execMotCmdStop, exec_motCmdHome, execMotCmdHome, ← hu]
      refine ⟨?_, ?_, ?_, ?_, ?_, ?_⟩
      · rw [State.motCmd_held hr hw ha held free 1 d.toNat 0 (m := .move false d.toInt) fun s => ?_]
        · exact u.hostMotion_commands n a _
        · simp only [State.wrMotCmd, motWord_op d.isLt (show 1 < 16 by decide) zero,
            motWord_value d.isLt (show 1 < 16 by decide) zero, signedN_toNat]
      · rw [State.motCmd_held hr hw ha held free 2 d.toNat 0 (m := .move true d.toInt) fun s => ?_]
        · exact u.hostMotion_commands n a _
        · simp only [State.wrMotCmd, motWord_op d.isLt (show 2 < 16 by decide) zero,
            motWord_value d.isLt (show 2 < 16 by decide) zero, signedN_toNat]
      · rw [State.motCmd_held hr hw ha held free 3 v.toNat 0 (m := .vel v.toNat) fun s => ?_]
        · exact u.hostMotion_commands n a _
        · simp only [State.wrMotCmd, motWord_op narrow (show 3 < 16 by decide) zero,
            motWord_low narrow (show 3 < 16 by decide) zero v.isLt]
      · rw [State.motCmd_held hr hw ha held free 4 v.toNat 0 (m := .acc v.toNat) fun s => ?_]
        · exact u.hostMotion_commands n a _
        · simp only [State.wrMotCmd, motWord_op narrow (show 4 < 16 by decide) zero,
            motWord_low narrow (show 4 < 16 by decide) zero v.isLt]
      · rw [State.motCmd_held hr hw ha held free 5 0 0 (m := .stop) fun s => ?_]
        · exact u.hostMotion_commands n a _
        · simp only [State.wrMotCmd, motWord_op (show 0 < 2 ^ 48 by decide) (show 5 < 16 by decide) zero]
      · rw [State.motCmd_held hr hw ha held free 6 0 sel (m := .home sel) fun s => ?_]
        · exact u.hostMotion_commands n a _
        · simp only [State.wrMotCmd, motWord_op (show 0 < 2 ^ 48 by decide) (show 6 < 16 by decide) sel.isLt,
            motWord_sel (show 0 < 2 ^ 48 by decide) (show 6 < 16 by decide) sel.isLt]
    · have motion (op v sel : Nat) : .next ((s.arrive e).motCmd w a op v sel) =
          (.next (u.postErr n 0x0804 a) : Host.Outcome State Fault Refusal) := by
        rw [← hu, State.motCmd_refused hr hw ha other]
      have control (v : Word) : .next ((s.arrive e).asWriter w true (fun s n => s.wrAxCtl n a v)) =
          (.next (u.postErr n 0x0804 a) : Host.Outcome State Fault Refusal) := by
        rw [← hu, State.axCtl_refused hr hw ha other]
      simp only [List.mem_cons, List.not_mem_nil, or_false] at hc
      obtain rfl | rfl | rfl | rfl | rfl | rfl | rfl | rfl | rfl := hc
      · exact motion 1 d.toNat 0
      · exact motion 2 d.toNat 0
      · exact motion 3 v.toNat 0
      · exact motion 4 v.toNat 0
      · exact motion 5 0 0
      · exact motion 6 0 sel
      · exact control 1
      · exact control 2
      · exact control 4
  case applies =>
    rintro u a _ v lead d rfl rfl
    refine ⟨fun off m => State.motApply_off off m, fun h1 h2 => ?_⟩
    have on : ((vget u.ax a).st == .held || (vget u.ax a).st == .disabled) = false := by simp [h1, h2]
    simp only [State.happen, State.motApply, on]
    refine ⟨?vel, ?acc, ?accNext, ?stop, ?move, ?relative, ?here, ?home⟩
    case vel =>
      refine State.modAxis_eq rfl (Axis.not_newly_still ?_ rfl)
      dsimp only [Axis.moving]
      split
      · next h => simp [eq_of_beq (Bool.and_eq_true_iff.1 h).1]
      · rfl
    case acc =>
      intro hst
      refine State.modAxis_eq ?_ (Axis.not_newly_still rfl rfl)
      simp [hst]
    case accNext =>
      intro hst
      refine State.modAxis_eq ?_ (Axis.not_newly_still rfl rfl)
      simp [hst]
    case stop =>
      intro hst hend
      refine State.modAxis_eq ?_ (Axis.not_still_of_moving rfl)
      have going : ((vget u.ax a).st == .accel || (vget u.ax a).st == .cruise) = true := by simpa using hst
      have far : Axis.atEnd { vget u.ax a with queued := none } = false := hend
      simp only [going, far]
      rfl
    case move =>
      intro hm hd
      refine State.modAxis_eq ?_ (Axis.not_still_of_moving rfl)
      simp only [hm]
      exact Axis.start_eq hd _ _ _
    case relative =>
      intro hm hd
      refine State.modAxis_congr u a ?_
      simp [hm, hd]
    case here => exact State.modAxis_eq rfl (Axis.not_newly_still rfl rfl)
    case home =>
      intro hv hm dist hdist
      simp only [if_neg hv]
      refine State.modAxis_eq ?_ (Axis.not_still_of_moving rfl)
      subst hdist
      simp only [Axis.homeLeg, Axis.face, beq_iff_eq]
      rfl
  case enables =>
    rintro e w a s u n _ hu rfl hr hw ha held
    simp only [exec_axisEn, execAxisEn, exec_axisDis, execAxisDis, exec_axisRelease, execAxisRelease, ← hu,
      State.asWriter_of_auth hr hw ha, State.wrAxCtl_en held, State.wrAxCtl_dis held, State.wrAxCtl_release held]
    refine ⟨fun hd => ?en, fun hd => ?enAlready, fun hm haw => ?dis, fun h => ?disMoving, fun hst hc => ?release,
      fun hst hc => ?causeHolds, fun hst => ?notHeld⟩
    case en =>
      refine congrArg Host.Outcome.next (State.modAxis_eq ?_ (Axis.not_newly_still ?_ rfl))
      · simp only [hd, beq_self_eq_true, if_true]
      · simp only [Axis.moving, hd]
        split <;> rfl
    case enAlready =>
      refine congrArg Host.Outcome.next (State.modAxis_same (if_neg ?_))
      simpa using hd
    case dis =>
      have free : ((vget u.ax a).moving || !(u.axAwaits a).isEmpty) = false := by simp [hm, haw]
      simp only [State.axisDis, free]
      refine congrArg Host.Outcome.next (State.modAx_congr u a ?_)
      have was : (vget u.ax a).still = decide ((vget u.ax a).queued = none) := by
        rw [Axis.still, hm, Bool.not_false, Bool.true_and]
        cases (vget u.ax a).queued <;> rfl
      dsimp only
      rw [was]
      by_cases hq : (vget u.ax a).queued = none
      · simp [hq]
      · simp [hq, Axis.still, Axis.moving]
    case disMoving =>
      have busy : ((vget u.ax a).moving || !(u.axAwaits a).isEmpty) = true := by
        rcases h with h | h <;> simp [h]
      simp only [State.axisDis, busy]
      rfl
    case release =>
      simp only [State.axisRelease, hst, hc]
      refine congrArg Host.Outcome.next (State.modAxis_eq rfl (Axis.not_newly_still ?_ rfl))
      simp only [Axis.moving, hst]
      rfl
    case causeHolds =>
      simp only [State.axisRelease, hst, hc]
      rfl
    case notHeld =>
      have other : ((vget u.ax a).st != .held) = true := by simpa using hst
      simp only [State.axisRelease, other]
      rfl

end Sys2Proof.Machine
end

section
/-! The phases of a move and its end (10 R309-R320) -/
namespace Sys2Proof.Machine
open Sys2Proof

/-- Standstill with no queued move. -/
theorem Axis.finish_of_empty {x : Axis} (h : x.queued = none) (vs lead : Nat) : x.finish vs lead =
    { x with st := .idle, v := 0, stopping := false, zPos := none, acc := x.accNext.getD x.acc, accNext := none } := by
  simp only [Axis.finish, Axis.nextAcc, h]

/-- A change after which the axis stands still, and did not before. -/
theorem State.modAxis_stops {s : State} {a : Nat} {f : Axis → Axis} {y : Axis} (hy : f (vget s.ax a) = y)
    (hs : y.still = true) (hm : (vget s.ax a).still = false) : s.modAxis a f = s.modAx a (fun _ => { y with stillAt := s.now }) := by
  refine State.modAx_congr s a ?_
  dsimp only
  rw [hy, hs, hm]
  rfl

/-- Axes changed one after another, each by a function that the change of another axis does not move. -/
theorem State.each_modAx {f : State → Nat → Axis → Axis} (hf : ∀ s i g j, f (s.modAx i g) j = f s j) (a : Fin 8) :
    ∀ (l : List Nat) (s : State), l.Nodup →
      vget (s.each l fun s i => s.modAx i (f s i)).ax a = if a.val ∈ l then f s a (vget s.ax a) else vget s.ax a
  | [], _, _ => rfl
  | i :: l, s, h => by
    obtain ⟨hi, hl⟩ := List.nodup_cons.1 h
    rw [State.each_cons, State.each_modAx hf a l _ hl, hf]
    by_cases e : i = a
    · subst e
      rw [if_neg hi, if_pos List.mem_cons_self, State.modAx_ax, vget_vmod_fin]
    · have other : (a.val ∈ i :: l) ↔ a.val ∈ l := by simp [List.mem_cons, Ne.symm e]
      rw [State.modAx_ax, vget_vmod_ne _ _ _ _ e]
      simp only [other]

/-- A Z edge of encoder c at axis a. -/
theorem State.zedgeIn_axis (u : State) (c : Nat) (a : Fin 8) : vget (u.zedgeIn c).ax a =
    if (vget u.ax a).st == .homing && 2 ≤ (vget u.ax a).homeSeq && !(vget u.ax a).stopping &&
        u.rf (0x03500240 + 8 * a) 2 1 == c && (vget u.ax a).zPos.isNone then
      { vget u.ax a with zPos := some (vget u.ax a).pos } else vget u.ax a := by
  have member : a.val ∈ List.range 8 := List.mem_range.2 a.isLt
  unfold State.zedgeIn
  rw [State.each_modAx (f := fun s i x => if x.st == .homing && 2 ≤ x.homeSeq && !x.stopping &&
    s.rf (0x03500240 + 8 * i) 2 1 == c && x.zPos.isNone then { x with zPos := some x.pos } else x) (fun _ _ _ _ => rfl) a _ _
    List.nodup_range, if_pos member]

/-- Settles O26. -/
theorem axisPhases : Obligations.AxisPhases := by
  unfold Obligations.AxisPhases
  rintro e a s u _ hu rfl
  simp only [exec_cruise, execCruise, exec_decelStart, execDecelStart, exec_microstepSwitch, execMicrostepSwitch,
    exec_moveEnd, execMoveEnd, exec_homeIndex, execHomeIndex, exec_homeFail, execHomeFail, ← hu]
  refine ⟨fun hst hv => ?cruise, fun hs hl => ⟨fun hst => ?decel, fun hst hb => ?slow⟩,
    fun hm ha => ⟨fun hl h0 hup => ?up, fun hn hl hd => ?down⟩, fun h => ?noSwitch, fun hst hs hp hq => ?ends,
    fun c v hv hst hs hp hc hz => ?zEdge, fun z hst hseq hleg hs hz => ⟨?index, ?found⟩, fun hz => ?noIndex,
    fun hst hseq hleg hs ht hz => ?fails⟩
  case cruise =>
    refine congrArg Host.Outcome.next (State.modAx_congr u a (if_pos ?_))
    simp [hst, hv]
  case decel =>
    refine congrArg Host.Outcome.next (State.modAx_congr u a ?_)
    have near : (decide ((vget u.ax a).left ≤ (vget u.ax a).braking (vget u.ax a).acc) && !(vget u.ax a).stopping) = true := by
      simp [hs, hl]
    have going : ((vget u.ax a).st == .accel || (vget u.ax a).st == .cruise) = true := by simpa using hst
    simp only [near, going, ↓reduceIte]
  case slow =>
    refine congrArg Host.Outcome.next (State.modAx_congr u a ?_)
    have near : (decide ((vget u.ax a).left ≤ (vget u.ax a).braking (vget u.ax a).acc) && !(vget u.ax a).stopping) = true := by
      simp [hs, hl]
    have leg : (decide ((vget u.ax a).homeSeq = 1) || (vget u.ax a).leg == .back) = true := by simpa using hb
    simp only [near, hst, leg, ↓reduceIte]
    rfl
  case up =>
    have level : (decide ((vget u.ax a).level < 3) && decide (u.axThRaw a ((vget u.ax a).level + 1) ≠ 0) &&
        decide (u.axThRaw a ((vget u.ax a).level + 1) * 4096 ≤ (vget u.ax a).v / 65536)) = true := by simp [hl, h0, hup]
    simp only [State.axLevel, hm, ha, level]
    exact congrArg Host.Outcome.next (State.modAx_congr u a rfl)
  case down =>
    have level : (decide ((vget u.ax a).level < 3) && decide (u.axThRaw a ((vget u.ax a).level + 1) ≠ 0) &&
        decide (u.axThRaw a ((vget u.ax a).level + 1) * 4096 ≤ (vget u.ax a).v / 65536)) = false := by
      rcases hn with h | h | h
      · simp [h]
      · simp [h]
      · simp [Nat.not_le.2 h]
    have below : (decide (0 < (vget u.ax a).level) && decide ((vget u.ax a).v / 65536 <
        (u.axThRaw a (vget u.ax a).level - u.axThRaw a (vget u.ax a).level / 20) * 4096)) = true := by simp [hl, hd]
    simp only [State.axLevel, hm, ha, level, below]
    exact congrArg Host.Outcome.next (State.modAx_congr u a rfl)
  case noSwitch =>
    have off : (!(vget u.ax a).moving || !u.axAligned a) = true := by
      rcases h with h | h
      · simp [h]
      · simp [State.axAligned, h]
    simp only [State.axLevel, off, ↓reduceIte]
  case ends =>
    have moving : (vget u.ax a).moving = true := by simp [Axis.moving, hst]
    have there : ¬ (!(vget u.ax a).moving || !(vget u.ax a).atEnd) = true := by simp [moving, Axis.atEnd, hs, hp]
    have noHoming : ((vget u.ax a).st != .homing) = true := by simp [hst]
    have arrived : ({ vget u.ax a with target := (vget u.ax a).pos } : Axis) = vget u.ax a := by rw [hp]
    refine congrArg Host.Outcome.next (State.modAxis_stops (y := { vget u.ax a with
      st := .idle, v := 0, stopping := false, zPos := none, acc := (vget u.ax a).accNext.getD (vget u.ax a).acc, accNext := none }) ?_ ?_ (Axis.still_of_moving moving))
    · exact (if_neg there).trans ((if_pos noHoming).trans (by rw [arrived, Axis.finish_of_empty hq]))
    · simp [Axis.still, Axis.moving, hq]
  case zEdge =>
    rw [hv, State.happen, State.zedgeIn_axis, if_pos]
    simp [hst, hs, hp, hc, hz]
  case index =>
    refine congrArg Host.Outcome.next (State.modAx_congr u a ?_)
    simp [hst, hseq, hleg, hs, hz]
  case found =>
    simp [State.axHomeFail, hz]
  case noIndex =>
    refine congrArg Host.Outcome.next (State.modAx_congr u a ?_)
    simp [hz]
  case fails =>
    simp only [State.axHomeFail]
    rw [if_pos (by simp [hst, hseq, hleg, hs, ht, hz]), State.modAx_congr u a (g := fun _ => { vget u.ax a with
        st := .decel, stopping := true, homed := false, homeSeq := 0, err := 0x0806 }) rfl]

end Sys2Proof.Machine
end

section
/-! Time passes, and the axes move with it (10 R307-R309, R322; 14 R421) -/
namespace Sys2Proof.Machine
open Sys2Proof

/-! ## What comes up in its turn does not move time -/

theorem State.each_now {α : Type} {f : State → α → State} (hf : ∀ u a, (f u a).now = u.now) (l : List α) (s : State) :
    (s.each l f).now = s.now := State.each_field (g := State.now) hf l s

theorem State.when_now {s : State} {b : Bool} {f : State → State} (hf : ∀ u, (f u).now = u.now) : (s.when b f).now = s.now := by
  cases b
  · rfl
  · exact hf s

theorem State.restamp_now (s : State) (q n t : Nat) : (s.restamp q n t).now = s.now := by
  unfold State.restamp
  refine (State.each_now ?_ _ _).trans rfl
  exact fun _ _ => rfl

theorem State.restampAll_now (s : State) (q : Nat) (l : List Sched) : (s.restampAll q l).now = s.now :=
  State.each_now (fun u _ => u.restamp_now q _ _) _ s

theorem State.pullIn_now (s : State) (c t : Nat) : (s.pullIn c t).now = s.now := by
  refine State.each_now ?_ _ s
  exact fun u q => (State.restampAll_now (u.modPlace q fun p => p.pull t) q _).trans rfl

theorem State.qerrCount_now (s : State) (c : Nat) : (s.qerrCount c).now = s.now := by
  refine State.each_now (fun u q => ?_) _ s
  dsimp only
  split
  · exact State.makeDoubt_now _ q
  · rfl

theorem State.seenIn_now (s : State) (c : Nat) (v : EncVal) (bits : Nat) (qerr doubt wrap : Bool) (smp : Option Sample) :
    (s.seenIn c v bits qerr doubt wrap smp).now = s.now := by
  have sets (u : State) : (if bits = 0 then u else u.each (u.boundTo c) (fun s q => s.setEv q bits)).now = u.now := by
    split
    · rfl
    · exact State.each_now (fun u q => u.setEv_now q bits) _ u
  have counts (u : State) : (u.when qerr (fun s => s.qerrCount c)).now = u.now := State.when_now fun u => u.qerrCount_now c
  have doubts (u : State) : (u.when doubt (fun s => s.each (s.placedFrom c) State.makeDoubt)).now = u.now :=
    State.when_now fun u => State.each_now State.makeDoubt_now _ u
  have wraps (u : State) : (u.when wrap (fun s => s.each (s.placedFrom c) (fun s q =>
      (s.makeDoubt q).postUnit (uSeq q) (s.ev 2 0x070D q (some q))))).now = u.now :=
    State.when_now fun u => State.each_now (fun v q => by rw [State.postUnit_now, State.makeDoubt_now]) _ u
  unfold State.seenIn
  dsimp only
  split
  · rw [wraps, doubts, counts, sets, State.modEnc_now]
  · next m =>
    have queues (u : State) : ((u.each (u.placedFrom c) (fun s q => s.queueSample q m)).when (m.adv && !m.ssi)
        (fun s => s.after (s.now + 5 * qTick) (.pull c m.fixed))).now = u.now := by
      refine (State.when_now ?_).trans (State.each_now ?_ _ u)
      · exact fun _ => rfl
      · exact fun _ _ => rfl
    rw [queues, wraps, doubts, counts, sets, State.modEnc_now]

theorem State.zSample_now (s : State) (c : Nat) (b : Bool) : (s.zSample c b).now = s.now := by
  unfold State.zSample
  dsimp only
  split
  · rfl
  · split <;> rfl

theorem State.motApply_now (s : State) (a : Nat) (m : MotOp) : (s.motApply a m).now = s.now := by
  unfold State.motApply
  dsimp only
  split
  · rfl
  · split
    case h_5 => split <;> rfl
    all_goals rfl

theorem State.flush_now (s : State) (n : Nat) (l : List Nat) (b : Bool) : (s.flush n l b).now = s.now := by
  have drops (u : State) (c : Bool) : (u.when c (fun s => s.dropReq n 3 0x0315)).now = u.now :=
    State.when_now fun v => v.dropReq_now n 3 0x0315
  have frees (k : List (Nat × Nat)) (u : State) : (u.each k (fun s x => s.freeCtx x.1 x.2)).now = u.now := by
    refine State.each_now ?_ k u
    exact fun _ _ => rfl
  have aborts (hit : State → Nat → Bool) (u : State) :
      (u.each (List.range 16) (fun s q => s.when (hit s q) (fun s => s.abortSwath q 0x030B))).now = u.now :=
    State.each_now (fun v q => State.when_now fun w => w.abortSwath_now q 0x030B) _ u
  unfold State.flush
  dsimp only
  rw [State.modSess_now, State.dropUnits, State.modMgt_now, drops, frees, aborts]

theorem State.happen_now (s : State) (d : Due) : (s.happen d).now = s.now := by
  cases d with
  | signal targets mask => exact State.each_now (fun u q => u.setEv_now q mask) _ s
  | pins c a b => exact (congrArg State.now (State.encSample_only s c a b).1).trans rfl
  | zpin c level => exact s.zSample_now c level
  | seen c v bits qerr doubt wrap smp => exact s.seenIn_now c v bits qerr doubt wrap smp
  | pull c t => exact s.pullIn_now c t
  | rebase c v clrq n t => cases v <;> cases clrq <;> rfl
  | motion a op => exact s.motApply_now a op
  | zedge c =>
    refine State.each_now ?_ _ s
    exact fun _ _ => rfl
  | flush n units whole => exact s.flush_now n units whole
  | frameIn c no => rfl
  | reqEnd c r done =>
    show (State.reqEnd s c r done).now = s.now
    unfold State.reqEnd
    dsimp only
    split
    · split
      · exact State.setEv_now _ _ _
      · rfl
    · rfl

theorem State.runDue_now (t k : Nat) : ∀ s : State, s.now ≤ t → (s.runDue t k).now ≤ t := by
  induction k with
  | zero => exact fun s h => h
  | succ k ih =>
    intro s h
    unfold State.runDue
    split
    · exact h
    · next d hd =>
      refine ih _ ?_
      have due : d.at_ ≤ t := by
        have := List.find?_some hd
        simp only [Bool.and_eq_true, decide_eq_true_eq] at this
        exact this.1
      rw [State.happen_now, State.passTo_now]
      exact Nat.max_le.2 ⟨h, due⟩

/-! ## Records that reach DRAM do not move time either -/

theorem State.dramCeHit_now (s : State) (a : Nat) (b : Bool) : (s.dramCeHit a b).now = s.now := by
  unfold State.dramCeHit
  exact (State.when_now fun u => u.postAll_now _).trans rfl

theorem State.dramUeHit_now (s : State) (a : Nat) (b : Bool) (n : Option Nat) : (s.dramUeHit a b n).now = s.now := by
  have memo (u : State) (r : EvRec) : (u.postMem n r).now = u.now := by
    cases n with
    | none => exact u.postAll_now r
    | some k => exact u.postTo_now k r
  have retires (u : State) (pg : Nat) : (u.retirePage pg).now = u.now := by
    unfold State.retirePage
    split
    · rfl
    · exact (State.postAll_now _ _).trans rfl
  unfold State.dramUeHit
  dsimp only
  split
  · rw [memo]
    rfl
  · split
    · rw [retires, memo]
      rfl
    · rw [State.modMem_now, memo]
      rfl

theorem State.rmwRead_now (s : State) (w : Nat) : (s.rmwRead w).now = s.now := by
  unfold State.rmwRead
  split
  · exact s.dramUeHit_now _ _ _
  · split
    · exact s.dramCeHit_now _ _
    · rfl

theorem State.flipDramWord_now (s : State) (w : Nat) : (s.flipDramWord w).now = s.now := by
  unfold State.flipDramWord
  dsimp only
  split
  · exact s.flipUse_now _
  · split
    · exact s.flipUse_now _
    · split <;> exact s.flipUse_now _

theorem State.dramWrite_now (s : State) (a : Nat) (l : List Byte) : (s.dramWrite a l).now = s.now := by
  have touch (u : State) (n : Nat) : (u.dramTouch a n).now = u.now := by
    refine State.each_now ?_ _ u
    exact fun _ _ => rfl
  have reads (k : List Nat) (u : State) : (u.each k State.rmwRead).now = u.now := State.each_now State.rmwRead_now k u
  unfold State.dramWrite
  dsimp only
  split
  · show (State.each _ _ _).now = _
    rw [reads, touch]
  · split
    · split
      · rw [State.flipDramWord_now]
        show (State.each _ _ _).now = _
        rw [reads, touch]
      · show (State.each _ _ _).now = _
        rw [reads, touch]
    · rw [State.flipDramWord_now]
      show (State.each _ _ _).now = _
      rw [reads, touch]

theorem State.evFlushAll_now (s : State) : s.evFlushAll.now = s.now := by
  refine State.each_now (fun u n => ?_) _ s
  unfold State.evFlush
  dsimp only
  refine (State.each_now (fun v j => ?_) _ _).trans rfl
  unfold State.evStore
  exact v.dramWrite_now _ _

/-- Whatever comes up on the way, a command finds the instant that its time takes it to. -/
theorem State.arrive_now (s : State) (e : Env) : (s.arrive e).now = s.now + e.dt := by
  have begun (u : State) : (if u.sameTick (s.now + e.dt) then u else u.evFlushAll).now = u.now := by
    split
    · rfl
    · exact u.evFlushAll_now
  have passed (v : State) (hv : v.now = s.now) : ((v.settle (s.now + e.dt)).passTo (s.now + e.dt)).now = s.now + e.dt := by
    rw [State.passTo_now]
    exact Nat.max_eq_right (State.runDue_now _ _ v (hv ▸ Nat.le_add_right _ _))
  unfold State.arrive
  dsimp only
  exact passed _ (begun _)

/-! ## The axes while time passes -/

/-- An axis n STEPCLK cycles after cycle k0, by the settings of s. -/
def State.axPassed (s : State) (k0 n a : Nat) (x : Axis) : Axis :=
  let r := s.rf (0x03500140 + 8 * a) (3 * x.level + 2) (3 * x.level)
  if x.moving then x.cycles (s.homeVel a) r (s.axStepW a) n k0
  else if 0 < x.stepsDue then x.cycles 0 r (s.axStepW a) (min n 8192) k0 else x

theorem State.advanceAxes_axis (s : State) (k0 : Nat) (a : Fin 8) :
    vget (s.advanceAxes k0).ax a = s.axPassed k0 (s.stepCyc - k0) a (vget s.ax a) := by
  have member : a.val ∈ List.range 8 := List.mem_range.2 a.isLt
  have each := State.each_modAx (f := fun u i x => u.axPassed k0 (s.stepCyc - k0) i x) (fun _ _ _ _ => rfl) a (List.range 8) s
    List.nodup_range
  rw [if_pos member] at each
  rw [← each]
  have body (u : State) (i : Nat) : (let x := vget u.ax i
      if x.moving then u.modAx i (fun _ => x.cycles (u.homeVel i) (u.axRes i) (u.axStepW i) (s.stepCyc - k0) k0)
      else if 0 < x.stepsDue then
        u.modAx i (fun _ => x.cycles 0 (u.axRes i) (u.axStepW i) (min (s.stepCyc - k0) 8192) k0)
      else u) = u.modAx i (u.axPassed k0 (s.stepCyc - k0) i) := by
    dsimp only
    split
    · next h => exact State.modAx_congr u i (if_pos h).symm
    · next h =>
      split
      · next h' => exact State.modAx_congr u i ((if_neg h).trans (if_pos h')).symm
      · next h' =>
        have same : u.axPassed k0 (s.stepCyc - k0) i (vget u.ax i) = vget u.ax i := (if_neg h).trans (if_neg h')
        rw [State.modAx_congr u i (g := fun _ => vget u.ax i) same, State.modAx, vmod_self]
  unfold State.advanceAxes
  exact congrArg (fun f => vget (State.each s (List.range 8) f).ax a) (funext fun u => funext fun i => body u i)

theorem State.axPassed_of_mgt {s t : State} (h : t.mgt = s.mgt) : t.axPassed = s.axPassed := by
  funext k0 n a x
  simp only [State.axPassed, State.rf, State.reg, State.homeVel, State.axStepW, h]

theorem State.stepCyc_of {s t : State} (hp : t.pws = s.pws) (hn : t.now = s.now) (hg : t.gapTime = s.gapTime) :
    t.stepCyc = s.stepCyc := by
  simp only [State.stepCyc, State.axTime, hp, hn, hg]

theorem State.advanceAxes_stepCyc (s : State) (k : Nat) : (s.advanceAxes k).stepCyc = s.stepCyc :=
  State.stepCyc_of ((congrArg State.pws (s.advanceAxes_ax k)).trans rfl) ((congrArg State.now (s.advanceAxes_ax k)).trans rfl)
    ((congrArg State.gapTime (s.advanceAxes_ax k)).trans rfl)

theorem State.passTo_runs (s : State) (t : Nat) :
    ∃ u : State, s.passTo t = u.advanceAxes s.stepCyc ∧ u.mgt = s.mgt ∧ u.ax = s.ax := by
  have clock (v : State) (f g : Tim → Tim) (a b : Bool) : ∃ u : State,
      (if a then v else if b then v.modTim f else v.modTim g) = u ∧ u.mgt = v.mgt ∧ u.ax = v.ax := by
    refine ⟨_, rfl, ?_, ?_⟩ <;> cases a <;> cases b <;> rfl
  unfold State.passTo
  dsimp only
  obtain ⟨u, hu, hm, hx⟩ := clock { s with now := max s.now t } (fun x => { x with
      t := x.t + (({ s with now := max s.now t } : State).ticks - s.ticks) * 2 ^ 40 })
    (fun x => x.advance s.ticks ({ s with now := max s.now t } : State).ticks) (s.phase != .ready) s.pws.gap.isSome
  exact ⟨u, by rw [← hu], hm, hx⟩

/-- While time passes an axis runs the STEPCLK cycles of that time. -/
theorem State.passTo_axis (s : State) (t : Nat) (a : Fin 8) :
    vget (s.passTo t).ax a = s.axPassed s.stepCyc ((s.passTo t).stepCyc - s.stepCyc) a (vget s.ax a) := by
  obtain ⟨u, hu, hm, hx⟩ := s.passTo_runs t
  rw [hu, State.advanceAxes_axis, State.advanceAxes_stepCyc, State.axPassed_of_mgt hm, hx]

section
variable {s : State} (hc : s.Calm) (e : Env)
include hc

/-- A command that finds nothing on its way: each axis has run the cycles of the time that has passed. -/
theorem State.arrive_axis (a : Fin 8) : vget (s.arrive e).ax a =
    s.axPassed s.stepCyc ((s.arrive e).stepCyc - s.stepCyc) a (vget s.ax a) := by
  have passed := State.passTo_axis { s with out := [] } (s.now + e.dt) a
  rw [State.axPassed_of_mgt (s := s) (t := { s with out := [] }) rfl] at passed
  rw [State.arrive_calm hc]
  generalize State.passTo { s with out := [] } (s.now + e.dt) = v at passed ⊢
  exact passed

theorem State.arrive_stepCyc : (s.arrive e).stepCyc =
    ((match s.pws.gap with | some g => g.since | none => s.now + e.dt) - s.gapTime) / 50 := by
  rw [State.stepCyc, State.axTime, State.arrive_now, State.arrive_pws_calm hc, State.arrive_gapTime_calm hc] <;> rfl

end

/-- A unit is the only thing that moves a position. -/
theorem Axis.rise_pos (r w k : Nat) (x : Axis) : (x.rise r w k).pos = x.pos := by
  simp only [Axis.rise, apply_ite Axis.pos, ite_self]

/-- Settles O27. -/
theorem timePassesAndAxesMove : Obligations.TimePassesAndAxesMove := by
  unfold Obligations.TimePassesAndAxesMove
  intro e s
  refine ⟨s.arrive_now e, fun hc hr hg => ?time, fun hc a hm hs => ?stands, fun hc a hm => ?moves, fun hg hc h0 => ?clock,
    fun hc hg => ?gap, ?position, ?carry, ?rise⟩
  case time =>
    have time (u : State) : u.phase = .ready → u.pws.gap = none → (u.passTo (s.now + e.dt)).tim =
        u.tim.advance u.ticks (u.passTo (s.now + e.dt)).ticks := by
      intro hr hg
      have ticks : (u.passTo (s.now + e.dt)).ticks = (max u.now (s.now + e.dt) - u.tickBase) / 4 := by
        rw [State.ticks, State.passTo_now, State.passTo_tickBase]
      rw [ticks, State.passTo]
      dsimp only
      rw [State.advanceAxes_ax]
      simp only [hr, hg]
      rfl
    have here := time { s with out := [] } hr hg
    rw [State.arrive_calm hc]
    generalize State.passTo { s with out := [] } (s.now + e.dt) = v at here ⊢
    exact here
  case stands =>
    rw [State.arrive_axis hc, State.axPassed]
    simp [hm, hs]
  case moves =>
    rw [State.arrive_axis hc, State.axPassed]
    simp only [hm, ↓reduceIte]
    rfl
  case clock =>
    rw [State.arrive_stepCyc hc, hg, h0]
    rfl
  case gap =>
    have same : (s.arrive e).stepCyc = s.stepCyc := by
      obtain ⟨g, hg⟩ := Option.isSome_iff_exists.1 hg
      rw [State.arrive_stepCyc hc, State.stepCyc, State.axTime, hg]
    refine ⟨same, fun a => ?_⟩
    rw [State.arrive_axis hc, same, Nat.sub_self, State.axPassed]
    split
    · rfl
    · split
      · rw [Nat.zero_min]
        rfl
      · rfl
  case position =>
    intro hv r w k x
    unfold Axis.cycle
    dsimp only
    split
    · exact .inl (Axis.rise_pos r w k x)
    · rw [Axis.rise_pos]
      split
      · exact .inl rfl
      · cases hb : x.back <;> simp [Axis.unit, Int.sub_eq_add_neg]
  case carry =>
    intro hv r w k x he hc
    unfold Axis.cycle
    dsimp only
    rw [if_neg (by simp [he]), Axis.rise_pos, if_neg (Nat.not_lt.2 hc)]
    rfl
  case rise =>
    intro r w k x
    refine ⟨Axis.rise_pos r w k x, fun early => ?_, fun j hj low => ?_⟩
    · simp only [Axis.rise, Nat.not_le.2 early]
      simp
    · simp only [Axis.rise, hj, Nat.not_le.2 low]
      simp

end Sys2Proof.Machine
end

section
/-! The high-voltage enables (06 R200, R205) -/
namespace Sys2Proof.Machine
open Sys2Proof

theorem vget_ofFn {α : Type} {n : Nat} [Inhabited α] (f : Fin n → α) (i : Fin n) : vget (Vector.ofFn f) i = f i := by
  simp [vget]

theorem vector_ofFn_vget {α : Type} {n : Nat} [Inhabited α] (v : Vector α n) : Vector.ofFn (fun i : Fin n => vget v i) = v := by
  ext i hi
  simp [vget]

/-- Dropping no group drops nothing. -/
theorem State.hvDrop_zero (s : State) : s.hvDrop 0 = s := by
  simp only [State.hvDrop, Nat.zero_testBit, Bool.not_false, Bool.and_true, vector_ofFn_vget]

/-- The one group that a mask of one bit names. -/
theorem hvOn_one (g : Fin 8) : bits (wd (2 ^ g.val)) 15 8 = 0 ∧
    those 8 (fun i => bit (wd (2 ^ g.val)) i && !(0 : Nat).testBit i) = [g.val] := by
  revert g
  decide

theorem hvOff_mask (m : Fin 256) : bits (wd (256 * m)) 15 8 = m := by
  have := m.isLt
  simp only [bits, bitsN, wd, BitVec.toNat_ofNat, Nat.shiftRight_eq_div_pow]
  omega

/-- A write that drops groups raises none. -/
theorem hvOff_none (m : Fin 256) (k : Nat) : those 8 (fun i => bit (wd (256 * m)) i && !k.testBit i) = [] := by
  refine List.filter_eq_nil_iff.2 fun i hi => ?_
  have hi : i < 8 := List.mem_range.1 hi
  have := m.isLt
  have word : (wd (256 * m)).toNat = 2 ^ 8 * m.val + 0 := by
    rw [wd, BitVec.toNat_ofNat]
    omega
  rw [bit, word, Nat.testBit_two_pow_mul_add _ (by decide), if_pos hi, Nat.zero_testBit]
  simp

theorem State.hvOn_refused {s : State} {g n : Nat} (h : s.hvRefusal g n ≠ 0) :
    s.hvOn g n = (s.postErr n 0x0507 g (wd (s.hvRefusal g n)), 0x0507) := by
  simp only [State.hvOn, if_pos h]

theorem State.hvOn_rises {s : State} {g n : Nat} (h : s.hvRefusal g n = 0) (hd : vget s.fire.hven g = false)
    (ht : s.safe.tmax.testBit g = false) : s.hvOn g n = ({ s with fire := { s.fire with
      hven := vset s.fire.hven g true, roseAt := vset s.fire.roseAt g s.now } }, 0) := by
  simp only [State.hvOn, h, hd, Bool.not_false, State.when_true, ne_eq, not_true, ↓reduceIte, ht, State.when_false]

/-- Settles O28. -/
theorem highVoltageEnables : Obligations.HighVoltageEnables := by
  unfold Obligations.HighVoltageEnables
  rintro e w s u n g hu
  simp only [exec_hvctlOn, execHvctlOn, exec_hvctlOff, execHvctlOff, exec_hvsettleExpiry, execHvsettleExpiry, ← hu]
  refine ⟨fun hr hw ha may => ?_, fun hup hs => ?settles⟩
  case settles =>
    have settled : (vget u.fire.hven g && decide (vget u.fire.roseAt g + u.hvSettle * qMs ≤ u.now)) = true := by
      rw [hup, decide_eq_true hs]
      rfl
    simp only [State.hvSettled, settled, ↓reduceIte]
  have one (on : Fin 256) (h : on.val = 2 ^ g.val) : (u.wrHvCtl n (wd on)).1 = (u.hvOn g n).1 := by
    obtain ⟨none, only⟩ := hvOn_one g
    rw [State.wrHvCtl, State.ifRight, may, h, none]
    dsimp only
    rw [State.hvDrop_zero, only]
    rfl
  simp only [State.asWriter_of_auth hr hw ha]
  refine ⟨fun on hon ok down cool => ?_, fun on hon bad => ?_, fun m => ?_⟩
  · rw [one on hon, State.hvOn_rises ok down cool]
  · rw [one on hon, State.hvOn_refused bad]
  · rw [State.wrHvCtl, State.ifRight, may, hvOff_mask]
    dsimp only
    rw [hvOff_none]
    rfl

end Sys2Proof.Machine
end

section
/-! What a fail-safe cause leaves alone (06 R201; 08 R259; 17 R490, R491) -/
namespace Sys2Proof.Machine
open Sys2Proof

/-- From s to t records were posted, outputs driven, axes and camera queues halted, and flags T written; nothing else
happened. -/
structure HaltOnly (s t : State) : Prop where
  only : t = { s with sess := t.sess, msix := t.msix, out := t.out, ax := t.ax, cam := t.cam, ctx := t.ctx }
  flagT : ∀ (q : Fin 16) (c : Fin 64), { t.ctxOf q c with t := (s.ctxOf q c).t } = s.ctxOf q c

namespace HaltOnly
variable {s t v : State}

theorem of_ctx (h : t = { s with sess := t.sess, msix := t.msix, out := t.out, ax := t.ax, cam := t.cam }) : HaltOnly s t where
  only := by rw [h]
  flagT q c := by rw [show t.ctxOf q c = s.ctxOf q c from (congrArg (fun x : State => x.ctxOf q c) h).trans rfl]

theorem refl (s : State) : HaltOnly s s := of_ctx rfl

theorem of_posts (h : Posts s t) : HaltOnly s t := of_ctx (by rw [h])

theorem trans (h : HaltOnly s t) (k : HaltOnly t v) : HaltOnly s v where
  only := by rw [k.only, h.only]
  flagT q c := by
    have hq := h.flagT q c
    rw [← k.flagT q c] at hq
    exact hq

theorem each {α : Type} {f : State → α → State} (hf : ∀ u a, HaltOnly u (f u a)) :
    ∀ (l : List α) (s : State), HaltOnly s (s.each l f)
  | [], s => refl s
  | a :: l, s => (hf s a).trans (each hf l (f s a))

theorem when {b : Bool} {f : State → State} (h : HaltOnly s t) (hf : ∀ u, HaltOnly u (f u)) : HaltOnly s (t.when b f) := by
  unfold State.when
  split
  · exact h.trans (hf t)
  · exact h

theorem modSafe (h : HaltOnly s t) (f : Safe → Safe) : HaltOnly (s.modSafe f) (t.modSafe f) where
  only := by
    unfold State.modSafe
    rw [h.only]
  flagT := h.flagT

/-- A field that a halt does not change. -/
theorem field {β : Type} (g : State → β) (h : HaltOnly s t)
    (hg : ∀ x a b c d e f, g { x with sess := a, msix := b, out := c, ax := d, cam := e, ctx := f } = g x) : g t = g s :=
  (congrArg g h.only).trans (hg ..)

end HaltOnly

theorem State.haltAxis_only (s : State) (a : Nat) (q : Option Nat) : HaltOnly s (s.haltAxis a q) := by
  unfold State.haltAxis
  dsimp only
  split
  · exact .refl s
  · exact HaltOnly.when (.of_ctx rfl) fun u => .of_posts (u.postUnit_posts _ _)

theorem State.haltAll_only (s : State) : HaltOnly s s.haltAll := HaltOnly.each (fun u a => u.haltAxis_only a none) _ s

theorem State.modCtx_flagT (s : State) (a b : Nat) (x : Bool) : HaltOnly s (s.modCtx a b fun y => { y with t := x }) where
  only := rfl
  flagT q c := by
    show { vget (vget (vmod s.ctx a fun v => vmod v b fun y => { y with t := x }) q) c with t := (vget (vget s.ctx q) c).t } =
      vget (vget s.ctx q) c
    by_cases ha : a = q
    · subst ha
      rw [vget_vmod_fin]
      by_cases hb : b = c
      · subst hb
        rw [vget_vmod_fin]
      · rw [vget_vmod_ne _ _ _ _ hb]
    · rw [vget_vmod_ne _ _ _ _ ha]

theorem State.camPost_posts (s : State) (c : Nat) (src : TrigSrc) (code : Nat) (d : Word) : Posts s (s.camPost c src code d) := by
  unfold State.camPost
  split
  · exact s.postOr_posts _ _
  · exact s.postUnit_posts _ _

theorem State.trigCut_only (s : State) (c : Nat) : HaltOnly s (s.trigCut c) := by
  unfold State.trigCut
  split
  · exact .of_ctx rfl
  · exact .refl s

theorem State.trigStop_only (s : State) (c : Nat) : HaltOnly s (s.trigStop c) := by
  unfold State.trigStop
  split
  · exact .refl s
  · refine ((s.trigCut_only c).trans (.of_ctx rfl)).trans (HaltOnly.each (fun u r => ?_) _ _)
    split
    · split
      · exact (HaltOnly.of_posts (u.camPost_posts _ _ _ _)).trans (State.modCtx_flagT _ _ _ _)
      · exact .of_posts (u.camPost_posts _ _ _ _)
    · exact .of_posts (u.camPost_posts _ _ _ _)

theorem State.trigStop_ax (s : State) (c : Nat) : (s.trigStop c).ax = s.ax := by
  unfold State.trigStop
  split
  · rfl
  · refine (State.each_field (g := State.ax) (fun u r => ?_) _ _).trans ?_
    · split
      · split
        · exact (u.camPost_posts _ _ _ _).ax
        · exact (u.camPost_posts _ _ _ _).ax
      · exact (u.camPost_posts _ _ _ _).ax
    · show (s.trigCut c).ax = s.ax
      unfold State.trigCut
      split <;> rfl

theorem State.trigStopAll_only (s : State) : HaltOnly s s.trigStopAll := HaltOnly.each State.trigStop_only _ s

theorem State.trigStopAll_ax (s : State) : s.trigStopAll.ax = s.ax := by
  unfold State.trigStopAll
  refine State.each_field (g := State.ax) ?_ _ _
  exact State.trigStop_ax

theorem State.safeVecs_posts (s s0 : State) : Posts s (s.safeVecs s0) := by
  unfold State.safeVecs
  exact Posts.when (Posts.when (Posts.refl s) fun u => u.raiseAll_posts _) fun u => u.raiseAll_posts _

theorem State.causeSet_posts (s : State) (code source latch : Nat) (q : Option Nat) (f : Safe → Safe) :
    Posts (s.modSafe fun x => { f x with latch := x.latch ||| latch }) (s.causeSet code source latch q f) := by
  unfold State.causeSet
  exact (State.postAll_posts _ _).trans (State.safeVecs_posts _ _)

theorem State.causeClear_posts (s : State) (code source : Nat) (q : Option Nat) (f : Safe → Safe) :
    Posts (s.modSafe f) (s.causeClear code source q f) := by
  unfold State.causeClear
  exact (State.postAll_posts _ _).trans (State.safeVecs_posts _ _)

/-- Every enabled axis holds, whatever it did. -/
theorem State.haltAxis_held {s : State} {a : Fin 8} (h : (vget s.ax a).st ≠ .disabled) (q : Option Nat) :
    (vget (s.haltAxis a q).ax a).st = .held ∧ (vget (s.haltAxis a q).ax a).v = 0 := by
  have en : ((vget s.ax a).st == .disabled) = false := by simpa using h
  have posted (b : Bool) (x : State) (c : Nat) (r : EvRec) : (x.when b fun s => s.postUnit c r).ax = x.ax :=
    (Posts.when (Posts.refl x) fun u => u.postUnit_posts c r).ax
  simp only [State.haltAxis, en, Bool.false_eq_true, if_false]
  rw [State.when]
  split
  all_goals simp only [State.postUnit_ax, State.modAxis, State.modAx_ax, vget_vmod_fin, and_self]

theorem State.haltAxis_ne {s : State} {i a : Nat} (h : i ≠ a) (q : Option Nat) :
    vget (s.haltAxis i q).ax a = vget s.ax a := by
  simp only [State.haltAxis]
  split
  · rfl
  · rw [State.when]
    split
    all_goals simp only [State.postUnit_ax, State.modAxis, State.modAx_ax, vget_vmod_ne _ _ _ _ h]

/-- A list of axes halted, those in it that are enabled hold. -/
theorem State.haltEach_held {a : Fin 8} (q : Option Nat) : ∀ (l : List Nat) (s : State), (vget s.ax a).st ≠ .disabled →
    (a.val ∈ l ∨ (vget s.ax a).st = .held ∧ (vget s.ax a).v = 0) →
    (vget (s.each l fun s a => s.haltAxis a q).ax a).st = .held ∧ (vget (s.each l fun s a => s.haltAxis a q).ax a).v = 0
  | [], _, _, h => h.resolve_left (by simp)
  | i :: l, s, en, h => by
    rw [State.each_cons]
    by_cases e : i = a
    · subst e
      have held := State.haltAxis_held en q
      exact haltEach_held q l _ (by rw [held.1]; decide) (.inr held)
    · have same : vget (s.haltAxis i q).ax a = vget s.ax a := State.haltAxis_ne e q
      refine haltEach_held q l _ (same ▸ en) ?_
      rw [same]
      exact h.imp_left fun m => (List.mem_cons.1 m).resolve_left (Ne.symm e)

theorem State.haltAll_held {s : State} {a : Fin 8} (h : (vget s.ax a).st ≠ .disabled) :
    (vget s.haltAll.ax a).st = .held ∧ (vget s.haltAll.ax a).v = 0 :=
  State.haltEach_held none _ s h (.inl (List.mem_range.2 a.isLt))

theorem State.hvDrop_ax (s : State) (mask : Nat) : (s.hvDrop mask).ax = s.ax := rfl

theorem State.hvDrop_safeIn (s : State) (mask : Nat) : (s.hvDrop mask).fire.safeIn = s.fire.safeIn := rfl

theorem State.hvDrop_safeHighAt (s : State) (mask : Nat) : (s.hvDrop mask).fire.safeHighAt = s.fire.safeHighAt := rfl

/-- A cause set with every axis and trigger stopped. -/
theorem State.haltCause_only (v : State) (code latch : Nat) (f : Safe → Safe) :
    HaltOnly (v.modSafe fun x => { f x with latch := x.latch ||| latch })
      (v.haltAll.causeSet code 0 latch none f).trigStopAll :=
  ((v.haltAll_only.modSafe _).trans (.of_posts (v.haltAll.causeSet_posts code 0 latch none f))).trans
    (State.trigStopAll_only _)

theorem State.haltCause_ax (v : State) (code latch : Nat) (f : Safe → Safe) :
    (v.haltAll.causeSet code 0 latch none f).trigStopAll.ax = v.haltAll.ax := by
  rw [State.trigStopAll_ax, (v.haltAll.causeSet_posts code 0 latch none f).ax, State.modSafe_ax]

theorem State.globalCause_drop (s : State) (code latch : Nat) (f : Safe → Safe) :
    s.globalCause code latch true f = ((s.hvDrop 0xFF).haltAll.causeSet code 0 latch none f).trigStopAll := by
  unfold State.globalCause State.when
  rw [if_pos rfl]

/-- What a device-wide cause leaves, but for axes, cameras, records and the cause itself. -/
theorem State.globalCause_only (s : State) (code latch : Nat) (f : Safe → Safe) :
    HaltOnly ((s.hvDrop 0xFF).modSafe fun x => { f x with latch := x.latch ||| latch }) (s.globalCause code latch true f) := by
  rw [State.globalCause_drop]
  exact State.haltCause_only _ code latch f

theorem State.globalCause_held {s : State} {a : Fin 8} (h : (vget s.ax a).st ≠ .disabled) (code latch : Nat) (f : Safe → Safe) :
    (vget (s.globalCause code latch true f).ax a).st = .held ∧ (vget (s.globalCause code latch true f).ax a).v = 0 := by
  rw [State.globalCause_drop, State.haltCause_ax]
  exact State.haltAll_held (by rwa [State.hvDrop_ax])

theorem State.globalCause_fire (s : State) (code latch : Nat) (f : Safe → Safe) :
    (s.globalCause code latch true f).fire = (s.hvDrop 0xFF).fire :=
  (s.globalCause_only code latch f).field State.fire fun _ _ _ _ _ _ _ => rfl

theorem State.globalCause_fp (s : State) (code latch : Nat) (f : Safe → Safe) :
    (s.globalCause code latch true f).fp = (s.hvDrop 0xFF).fp :=
  (s.globalCause_only code latch f).field State.fp fun _ _ _ _ _ _ _ => rfl

theorem State.globalCause_safe (s : State) (code latch : Nat) (f : Safe → Safe) :
    (s.globalCause code latch true f).safe = { f s.safe with latch := s.safe.latch ||| latch } :=
  (s.globalCause_only code latch f).field State.safe fun _ _ _ _ _ _ _ => rfl

theorem State.hvDrop_all (s : State) (g : Fin 8) :
    vget (s.hvDrop 0xFF).fire.hven g = false ∧ vget (s.hvDrop 0xFF).fire.hvok g = false := by
  have all : (0xFF : Nat).testBit g = true := by revert g; decide
  exact ⟨(vget_ofFn _ g).trans (by simp [all]), (vget_ofFn _ g).trans (by simp [all])⟩

theorem State.hvDrop_blank (s : State) (p : Fin 64) : vget (s.hvDrop 0xFF).fp p = { vget s.fp p with hv := false } := by
  have all : (0xFF : Nat).testBit (p.val / 8) = true := by revert p; decide
  exact (vget_ofFn _ p).trans (by simp [all])

/-- What a device-wide cause does not touch. -/
theorem State.globalCause_kept (s : State) (code latch : Nat) (f : Safe → Safe) :
    let t := s.globalCause code latch true f
    t.seq = s.seq ∧ t.str = s.str ∧ t.ring = s.ring ∧ t.eng = s.eng ∧ t.enc = s.enc ∧ t.place = s.place ∧ t.kl = s.kl ∧ t.head = s.head ∧ t.dram = s.dram ∧ t.hostMem = s.hostMem ∧ t.mgt = s.mgt ∧ t.mem = s.mem ∧ t.tim = s.tim ∧ t.pws = s.pws ∧ t.cal = s.cal ∧ t.nv = s.nv := by
  have only := s.globalCause_only code latch f
  generalize s.globalCause code latch true f = t at only
  rw [only.only]
  exact ⟨rfl, rfl, rfl, rfl, rfl, rfl, rfl, rfl, rfl, rfl, rfl, rfl, rfl, rfl, rfl, rfl⟩

/-- SAFE_n asserted and seen. -/
def State.safeSeen (s : State) : State := { s with fire := { s.fire with safeIn := true, safeHighAt := none } }

/-- SAFE_n released and seen. -/
def State.safeGone (s : State) : State :=
  { s with fire := { s.fire with safeIn := false, safeHighAt := some (s.now - 10 * qMs) } }

theorem State.safeAssert_of {s : State} (h : s.fire.safeIn = false) :
    s.safeAssert = s.safeSeen.globalCause 0x0F01 (2 ^ 24) true (fun x => { x with safeN := true }) := by
  rw [State.safeAssert, if_neg (by rw [h]; decide)]
  rfl

theorem State.safeRelease_of {s : State} (h : s.fire.safeIn = true) :
    s.safeRelease = s.safeGone.causeClear 0x0F01 0 none (fun x => { x with safeN := false }) := by
  rw [State.safeRelease, if_neg (by rw [h]; decide)]
  rfl

/-- Settles O29: a cause posts, halts and blanks; each field that it leaves is read through `HaltOnly`. -/
theorem safeInput : Obligations.SafeInput := by
  intro e s u hu
  constructor
  · intro h
    rw [exec_safeNAssert, execSafeNAssert, ← hu, State.safeAssert_of h]
    refine ⟨_, rfl, ?_⟩
    have only := State.globalCause_only u.safeSeen 0x0F01 (2 ^ 24) (fun x => { x with safeN := true })
    have fire := State.globalCause_fire u.safeSeen 0x0F01 (2 ^ 24) (fun x => { x with safeN := true })
    obtain ⟨seq, rest⟩ := State.globalCause_kept u.safeSeen 0x0F01 (2 ^ 24) (fun x => { x with safeN := true })
    refine ⟨?_, ?_, fun g => ?_, fun p => ?_, fun a ha => ?_, State.globalCause_safe _ _ _ _, seq, only.flagT, rest⟩
    · rw [fire, State.hvDrop_safeIn]
      rfl
    · rw [fire, State.hvDrop_safeHighAt]
      rfl
    · rw [fire]
      exact State.hvDrop_all _ g
    · rw [State.globalCause_fp]
      exact State.hvDrop_blank _ p
    · exact State.globalCause_held (s := u.safeSeen) ha _ _ _
  · intro h
    have posts := State.causeClear_posts u.safeGone 0x0F01 0 none (fun x => { x with safeN := false })
    rw [exec_safeNRelease, execSafeNRelease, ← hu, State.safeRelease_of h]
    refine ⟨_, rfl, ?_⟩
    exact ⟨posts.fire, posts.safe, posts.fp, posts.ax, posts.seq, posts.ctx, posts.kl, posts.dram, posts.mgt⟩

end Sys2Proof.Machine
end

section
/-! Telemetry in the firing block: temperature limits, head status and silence (06 R186-R199; 07 R232, R233) -/
namespace Sys2Proof.Machine
open Sys2Proof

/-! ## What a telemetry frame may change -/

/-- From s to t a telemetry frame was taken up: the parts that no telemetry frame changes are as they were. -/
def TelemOnly (s t : State) : Prop :=
  t = { s with sess := t.sess, msix := t.msix, out := t.out, hlt := t.hlt, draws := t.draws, kl := t.kl, fp := t.fp,
               fire := t.fire, safe := t.safe }

namespace TelemOnly
variable {s t v : State}

theorem refl (s : State) : TelemOnly s s := rfl

theorem of_posts (h : Posts s t) : TelemOnly s t := by
  unfold Posts at h
  unfold TelemOnly
  rw [h]

theorem trans (h : TelemOnly s t) (k : TelemOnly t v) : TelemOnly s v := by
  unfold TelemOnly at *
  rw [k, h]

theorem when {b : Bool} {f : State → State} (h : TelemOnly s t) (hf : ∀ u, TelemOnly u (f u)) : TelemOnly s (t.when b f) := by
  unfold State.when
  split
  · exact h.trans (hf t)
  · exact h

theorem now (h : TelemOnly s t) : t.now = s.now := (congrArg State.now h).trans rfl
theorem mgt (h : TelemOnly s t) : t.mgt = s.mgt := (congrArg State.mgt h).trans rfl

end TelemOnly

/-! ## The sense window of a telemetry frame changes the health engine alone -/

/-- From s to t records were posted and the health engine's state changed, and nothing else. -/
def HealthOnly (s t : State) : Prop := t = { s with sess := t.sess, msix := t.msix, out := t.out, hlt := t.hlt }

namespace HealthOnly
variable {s t v : State}

theorem refl (s : State) : HealthOnly s s := rfl

theorem of_posts (h : Posts s t) : HealthOnly s t := by
  unfold Posts at h
  unfold HealthOnly
  rw [h]

theorem trans (h : HealthOnly s t) (k : HealthOnly t v) : HealthOnly s v := by
  unfold HealthOnly at *
  rw [k, h]

theorem each {α : Type} {f : State → α → State} (hf : ∀ u a, HealthOnly u (f u a)) :
    ∀ (l : List α) (s : State), HealthOnly s (s.each l f)
  | [], s => refl s
  | a :: l, s => (hf s a).trans (each hf l (f s a))

theorem telem (h : HealthOnly s t) : TelemOnly s t := by
  unfold HealthOnly at h
  unfold TelemOnly
  rw [h]

theorem fp (h : HealthOnly s t) : t.fp = s.fp := (congrArg State.fp h).trans rfl
theorem kl (h : HealthOnly s t) : t.kl = s.kl := (congrArg State.kl h).trans rfl
theorem fire (h : HealthOnly s t) : t.fire = s.fire := (congrArg State.fire h).trans rfl
theorem safe (h : HealthOnly s t) : t.safe = s.safe := (congrArg State.safe h).trans rfl

end HealthOnly

theorem State.outLimit_posts (s : State) (l : List Nat) : Posts s (s.outLimit l) :=
  Posts.each (fun u _ => u.postUnit_posts _ _) l (Posts.refl s)

theorem State.modHlt_health (s : State) (f : Health → Health) : HealthOnly s (s.modHlt f) := rfl

theorem State.senseWindow_health (s : State) (p w : Nat) (codes : SMap Nat) : HealthOnly s (s.senseWindow p w codes) := by
  unfold State.senseWindow
  dsimp only
  have sensed (l : List Nat) (f : Nat → Nozzle → Nozzle) : HealthOnly s (s.each l fun s i => s.modNz p (1024 * w + i) (f i)) :=
    HealthOnly.each (fun u _ => u.modHlt_health _) l s
  split
  · exact (sensed _ _).trans (.of_posts (State.outLimit_posts _ _))
  · exact ((sensed _ _).trans (.of_posts (State.outLimit_posts _ _))).trans (State.modHlt_health _ _)

/-! ## The link's part of a telemetry frame -/

/-- What a field of a port's link state shows after a counted record, where the record's window is not part of it. -/
theorem State.klRecord_seen {β : Type} (g : KlPort → β) {put : KlPort → Window → KlPort} (hg : ∀ k w, g (put k w) = g k)
    (s : State) (p : Fin 64) (code : Nat) (w : Window) (line : Option Nat) :
    g (vget (s.klRecord p code w put line).kl p) = g (vget s.kl p) := by
  unfold State.klRecord State.when
  dsimp only
  split
  · rw [State.postUnit_kl, State.modKl_kl, vget_vmod_fin, hg]
  · rw [State.modKl_kl, vget_vmod_fin, hg]

theorem State.klRecord_ne {p r : Fin 64} (h : r ≠ p) (s : State) (code : Nat) (w : Window)
    (put : KlPort → Window → KlPort) (line : Option Nat) : vget (s.klRecord p code w put line).kl r = vget s.kl r := by
  have ne : p.val ≠ r.val := fun e => h (Fin.ext e.symm)
  unfold State.klRecord State.when
  dsimp only
  split
  · rw [State.postUnit_kl, State.modKl_kl, vget_vmod_ne _ _ _ _ ne]
  · rw [State.modKl_kl, vget_vmod_ne _ _ _ _ ne]

/-- From s to t records were posted, values drawn, and link states of ports changed. -/
def LinkOnly (s t : State) : Prop :=
  t = { s with sess := t.sess, msix := t.msix, out := t.out, draws := t.draws, kl := t.kl }

namespace LinkOnly
variable {s t v : State}

theorem refl (s : State) : LinkOnly s s := rfl

theorem of_posts (h : Posts s t) : LinkOnly s t := by
  unfold Posts at h
  unfold LinkOnly
  rw [h]

theorem trans (h : LinkOnly s t) (k : LinkOnly t v) : LinkOnly s v := by
  unfold LinkOnly at *
  rw [k, h]

theorem when {b : Bool} {f : State → State} (h : LinkOnly s t) (hf : ∀ u, LinkOnly u (f u)) : LinkOnly s (t.when b f) := by
  unfold State.when
  split
  · exact h.trans (hf t)
  · exact h

theorem telem (h : LinkOnly s t) : TelemOnly s t := by
  unfold LinkOnly at h
  unfold TelemOnly
  rw [h]

theorem fp (h : LinkOnly s t) : t.fp = s.fp := (congrArg State.fp h).trans rfl
theorem fire (h : LinkOnly s t) : t.fire = s.fire := (congrArg State.fire h).trans rfl
theorem safe (h : LinkOnly s t) : t.safe = s.safe := (congrArg State.safe h).trans rfl
theorem now (h : LinkOnly s t) : t.now = s.now := (congrArg State.now h).trans rfl
theorem head (h : LinkOnly s t) : t.head = s.head := (congrArg State.head h).trans rfl
theorem mgt (h : LinkOnly s t) : t.mgt = s.mgt := (congrArg State.mgt h).trans rfl
theorem seq (h : LinkOnly s t) : t.seq = s.seq := (congrArg State.seq h).trans rfl

end LinkOnly

theorem State.klRecord_link (s : State) (p code : Nat) (w : Window) (put : KlPort → Window → KlPort) (line : Option Nat) :
    LinkOnly s (s.klRecord p code w put line) := by
  unfold State.klRecord
  exact LinkOnly.when rfl fun u => .of_posts (u.postUnit_posts _ _)

/-- The link state of a port after telemetry m, but for the equaliser and the windows of its records. -/
def KlPort.telem (k : KlPort) (m : Telem) : KlPort :=
  { k with
    dseq := m.dseq, hbank := m.liveBank % 2 == 1, bank0v := m.bank0v, bank1v := m.bank1v, doubt := m.doubt,
    miss := satAdd 16 k.miss (countRise k.prevMiss m.missCnt), downErr := satAdd 16 k.downErr (countRise k.prevDerr m.derr),
    prevMiss := some m.missCnt, prevDerr := some m.derr }

/-- The record of missed lines, where their count has risen. -/
def State.telemMiss (s : State) (p : Nat) (m : Telem) (rise : Bool) : State :=
  s.when rise (fun s => s.klRecord p 0x0602 (vget s.kl p).wMiss (fun k w => { k with wMiss := w })
    ((s.segOf p).map (fun q => missLine (vget s.seq q).ln m.missTag)))

/-- The record of downstream errors, where their count has risen. -/
def State.telemDown (s : State) (p : Nat) (rise : Bool) : State :=
  s.when rise (fun s => s.klRecord p 0x0604 (vget s.kl p).wDown (fun k w => { k with wDown := w }))

/-- The record of a head in doubt. -/
def State.telemDoubt (s : State) (p : Nat) (b : Bool) : State :=
  s.when b (fun s => s.postUnit p (s.ev 2 0x0607 p (s.segOf p)))

/-- What the link does with a telemetry frame, before the firing block sees it. -/
def State.telemLink (s : State) (p : Nat) (m : Telem) : State :=
  let k := vget s.kl p
  ((((((s.upFrame p (.telem m)).rxAdapt p).modKl p (fun y => { y with
      dseq := m.dseq, hbank := m.liveBank % 2 == 1, bank0v := m.bank0v, bank1v := m.bank1v, doubt := m.doubt,
      miss := satAdd 16 y.miss (countRise k.prevMiss m.missCnt),
      downErr := satAdd 16 y.downErr (countRise k.prevDerr m.derr),
      prevMiss := some m.missCnt, prevDerr := some m.derr }))).telemMiss p m (countRise k.prevMiss m.missCnt != 0)).telemDown p
    (countRise k.prevDerr m.derr != 0)).telemDoubt p (m.doubt && !k.doubt)

theorem State.telemetry_eq {s : State} {p : Nat} {m : Telem} (hr : (vget s.kl p).receives = true) (hf : m.fault = false) :
    s.telemetry p m = (((s.telemLink p m).firSample p (telemTemp m) m.vsup).modFp p
      (fun f => { f with stale := (telemTemp m).isNone })).when m.senseV
        (fun s => s.senseWindow p (m.senseWin % 8) m.sense) := by
  unfold State.telemetry
  rw [if_neg (by rw [hr]; decide)]
  dsimp only
  rw [if_neg (by simp [hf])]
  rfl

theorem State.telemMiss_link (s : State) (p : Nat) (m : Telem) (b : Bool) : LinkOnly s (s.telemMiss p m b) :=
  LinkOnly.when (.refl s) fun u => u.klRecord_link _ _ _ _ _

theorem State.telemDown_link (s : State) (p : Nat) (b : Bool) : LinkOnly s (s.telemDown p b) :=
  LinkOnly.when (.refl s) fun u => u.klRecord_link _ _ _ _ _

theorem State.telemDoubt_posts (s : State) (p : Nat) (b : Bool) : Posts s (s.telemDoubt p b) :=
  Posts.when (.refl s) fun u => u.postUnit_posts _ _

theorem State.telemLink_link (s : State) (p : Nat) (m : Telem) : LinkOnly s (s.telemLink p m) := by
  unfold State.telemLink
  refine LinkOnly.trans ?_ (.of_posts (State.telemDoubt_posts _ _ _))
  refine LinkOnly.trans ?_ (State.telemDown_link _ _ _)
  refine LinkOnly.trans ?_ (State.telemMiss_link _ _ _ _)
  rfl

theorem State.telemMiss_seen {β : Type} (g : KlPort → β) (hg : ∀ k w, g { k with wMiss := w } = g k) (s : State) (p : Fin 64)
    (m : Telem) (b : Bool) : g (vget (s.telemMiss p m b).kl p) = g (vget s.kl p) := by
  cases b
  · rfl
  · exact State.klRecord_seen g hg _ _ _ _ _

theorem State.telemDown_seen {β : Type} (g : KlPort → β) (hg : ∀ k w, g { k with wDown := w } = g k) (s : State) (p : Fin 64)
    (b : Bool) : g (vget (s.telemDown p b).kl p) = g (vget s.kl p) := by
  cases b
  · rfl
  · exact State.klRecord_seen g hg _ _ _ _ _

/-- A field of the link state that is neither the equaliser, the awaited frames nor a window shows the telemetry. -/
theorem State.telemLink_seen {β : Type} (g : KlPort → β) (hm : ∀ k w, g { k with wMiss := w } = g k)
    (hd : ∀ k w, g { k with wDown := w } = g k) (hx : ∀ k r, g { k with rxeq := r } = g k)
    (hu : ∀ k l a, g { k with up := l, lastUp := a } = g k) (s : State) (p : Fin 64) (m : Telem) :
    g (vget (s.telemLink p m).kl p) = g ((vget s.kl p).telem m) := by
  unfold State.telemLink
  dsimp only
  rw [(State.telemDoubt_posts _ _ _).kl, State.telemDown_seen g hd, State.telemMiss_seen g hm, State.modKl_kl,
    vget_vmod_fin]
  have link : vget ((s.upFrame p (.telem m)).rxAdapt p).kl p = { vget (s.upFrame p (.telem m)).kl p with
      rxeq := (vget ((s.upFrame p (.telem m)).rxAdapt p).kl p).rxeq } := by
    rw [State.rxAdapt, State.modKl_kl, vget_vmod_fin]
    rfl
  have up : vget (s.upFrame p (.telem m)).kl p = { vget s.kl p with
      up := (vget (s.upFrame p (.telem m)).kl p).up, lastUp := (vget (s.upFrame p (.telem m)).kl p).lastUp } := by
    rw [State.upFrame, State.modKl_kl, vget_vmod_fin]
  rw [link, up]
  exact (hx ((({ vget s.kl p with up := _, lastUp := _ } : KlPort)).telem m) _).trans (hu ((vget s.kl p).telem m) _ _)

theorem State.telemLink_ne {p r : Fin 64} (h : r ≠ p) (s : State) (m : Telem) :
    vget (s.telemLink p m).kl r = vget s.kl r := by
  have ne : p.val ≠ r.val := fun e => h (Fin.ext e.symm)
  have miss (v : State) (b : Bool) : vget (v.telemMiss p m b).kl r = vget v.kl r := by
    cases b
    · rfl
    · rw [State.telemMiss, State.when_true]
      exact State.klRecord_ne h _ _ _ _ _
  have down (v : State) (b : Bool) : vget (v.telemDown p b).kl r = vget v.kl r := by
    cases b
    · rfl
    · rw [State.telemDown, State.when_true]
      exact State.klRecord_ne h _ _ _ _ _
  unfold State.telemLink
  dsimp only
  rw [(State.telemDoubt_posts _ _ _).kl, down, miss, State.modKl_kl, vget_vmod_ne _ _ _ _ ne, State.rxAdapt, State.modKl_kl,
    vget_vmod_ne _ _ _ _ ne]
  show vget (s.upFrame p (.telem m)).kl r = _
  rw [State.upFrame, State.modKl_kl, vget_vmod_ne _ _ _ _ ne]

end Sys2Proof.Machine
end

section
/-! The firing block's samples (06 R188, R197-R199) -/
namespace Sys2Proof.Machine
open Sys2Proof

/-- A head that has become hot. -/
def FirePort.heat (f : FirePort) : FirePort := if f.hot then f else { f with hot := true, hotNew := true }

/-- A port with a temperature sample. -/
def FirePort.sample (f : FirePort) (h : Option Int) (vsup now : Nat) : FirePort :=
  { f with tempValid := h.isSome, htemp := h.getD f.htemp, vsup := vsup, lastTel := some now }

/-- A sample with temperature h taken up, its band and TLIM decided. -/
def State.firTaken (s : State) (p : Nat) (h : Int) (vsup : Nat) : State :=
  let s := s.modFp p (fun f => f.sample (some h) vsup s.now)
  let s := s.modFp p (fun f => if f.mode = 0 then { f with target := s.bandMove p h f.target } else f)
  s.when (h ≥ 16 * s.firTLIM p) (fun s => s.modFp p FirePort.heat)

/-- What TMAX does (06 R199). -/
def State.firOver (s : State) (p : Nat) : State :=
  let s := (s.modFp p FirePort.heat).hvDrop (2 ^ (p / 8))
  let s := s.postUnit p (s.ev 2 0x0502 p (s.segOf p))
  if s.safe.tmax.testBit (p / 8) then s
  else s.causeSet 0x0502 (p / 8) (2 ^ (16 + p / 8)) none (fun x => { x with tmax := x.tmax ||| 2 ^ (p / 8) })

theorem State.firSample_none (s : State) (p vsup : Nat) :
    s.firSample p none vsup = s.modFp p (fun f => f.sample none vsup s.now) := rfl

theorem State.firSample_some (s : State) (p : Nat) (h : Int) (vsup : Nat) : s.firSample p (some h) vsup =
    if h ≥ 16 * s.firTMAX p then (s.firTaken p h vsup).firOver p else s.firTaken p h vsup := by
  have max : (s.firTaken p h vsup).firTMAX p = s.firTMAX p := by
    unfold State.firTaken State.when
    dsimp only
    split <;> rfl
  rw [← max]
  rfl

theorem FirePort.heat_hot (f : FirePort) : f.heat.hot = true := by
  unfold FirePort.heat
  split
  · assumption
  · rfl

/-- What a field that no limit decides shows after a sample. -/
theorem State.firTaken_seen {β : Type} (g : FirePort → β) (ht : ∀ f b, g { f with target := b } = g f)
    (hh : ∀ f, g (FirePort.heat f) = g f) (s : State) (p : Fin 64) (h : Int) (vsup : Nat) :
    g (vget (s.firTaken p h vsup).fp p) = g ((vget s.fp p).sample (some h) vsup s.now) := by
  have band (f : FirePort) (b : Nat) : g (if f.mode = 0 then { f with target := b } else f) = g f := by
    split
    · exact ht f b
    · rfl
  unfold State.firTaken State.when
  dsimp only
  split
  · rw [State.modFp_fp, vget_vmod_fin, hh, State.modFp_fp, vget_vmod_fin, band, State.modFp_fp, vget_vmod_fin]
  · rw [State.modFp_fp, vget_vmod_fin, band, State.modFp_fp, vget_vmod_fin]

theorem State.modFp_firTLIM (s : State) (p : Nat) (f : FirePort → FirePort) (r : Nat) :
    (s.modFp p f).firTLIM r = s.firTLIM r := rfl

theorem State.firTaken_hot {s : State} {p : Fin 64} {h : Int} (hl : 16 * s.firTLIM p ≤ h) (vsup : Nat) :
    (vget (s.firTaken p h vsup).fp p).hot = true := by
  unfold State.firTaken
  dsimp only
  rw [State.modFp_firTLIM, State.modFp_firTLIM, decide_eq_true (show h ≥ _ from hl), State.when_true, State.modFp_fp, vget_vmod_fin]
  exact FirePort.heat_hot _

theorem State.firTaken_fp_only (s : State) (p : Nat) (h : Int) (vsup : Nat) :
    s.firTaken p h vsup = { s with fp := (s.firTaken p h vsup).fp } := by
  unfold State.firTaken State.when
  dsimp only
  split <;> rfl

theorem State.hvDrop_fp (s : State) (mask : Nat) (p : Fin 64) : vget (s.hvDrop mask).fp p =
    { vget s.fp p with hv := (vget s.fp p).hv && !mask.testBit (p.val / 8) } := vget_ofFn _ p

theorem State.hvDrop_hven (s : State) (mask : Nat) (g : Fin 8) : vget (s.hvDrop mask).fire.hven g =
    (vget s.fire.hven g && !mask.testBit g) := vget_ofFn _ g

/-- The group dropped, without its record and its cause. -/
def State.firDrop (s : State) (p : Nat) : State := (s.modFp p FirePort.heat).hvDrop (2 ^ (p / 8))

theorem Posts.modSafe {s t : State} (h : Posts s t) (f : Safe → Safe) : Posts (s.modSafe f) (t.modSafe f) := by
  unfold Posts State.modSafe at *
  rw [h]

/-- What TMAX leaves but for records and the cause. -/
theorem State.firOver_posts (s : State) (p : Nat) :
    ∃ x : Safe, x.tmax.testBit (p / 8) = true ∧ Posts ((s.firDrop p).modSafe fun _ => x) (s.firOver p) := by
  let v := s.firDrop p
  unfold State.firOver
  dsimp only
  split
  · next on =>
    rw [State.postUnit_safe] at on
    exact ⟨s.safe, on, State.postUnit_posts _ _ _⟩
  · refine ⟨{ s.safe with tmax := s.safe.tmax ||| 2 ^ (p / 8), latch := s.safe.latch ||| 2 ^ (16 + p / 8) }, ?_, ?_⟩
    · simp [Nat.testBit_or]
    · refine Posts.trans ?_ (State.causeSet_posts _ _ _ _ _ _)
      exact Posts.modSafe (State.postUnit_posts v p (v.ev 2 0x0502 p (v.segOf p))) _

theorem State.firOver_seen {β : Type} (g : FirePort → β) (hv : ∀ f b, g { f with hv := b } = g f)
    (hh : ∀ f, g (FirePort.heat f) = g f) (s : State) (p : Fin 64) : g (vget (s.firOver p).fp p) = g (vget s.fp p) := by
  obtain ⟨x, -, posts⟩ := s.firOver_posts p
  rw [posts.fp, State.modSafe_fp, State.firDrop, State.hvDrop_fp, hv, State.modFp_fp, vget_vmod_fin, hh]

theorem State.firOver_acts (s : State) (p : Fin 64) : (vget (s.firOver p).fp p).hot = true ∧
    vget (s.firOver p).fire.hven (p.val / 8) = false ∧ (s.firOver p).safe.tmax.testBit (p.val / 8) = true := by
  obtain ⟨x, on, posts⟩ := s.firOver_posts p
  refine ⟨?_, ?_, by rw [posts.safe]; exact on⟩
  · rw [posts.fp, State.modSafe_fp, State.firDrop, State.hvDrop_fp, State.modFp_fp, vget_vmod_fin]
    exact FirePort.heat_hot _
  · rw [posts.fire, State.modSafe_fire, State.firDrop]
    exact (State.hvDrop_hven _ _ ⟨p.val / 8, by omega⟩).trans (by simp)

theorem State.firOver_telem (s : State) (p : Nat) : TelemOnly s (s.firOver p) := by
  obtain ⟨x, -, posts⟩ := s.firOver_posts p
  exact TelemOnly.trans (t := (s.firDrop p).modSafe fun _ => x) rfl (.of_posts posts)

theorem State.firOver_kl (s : State) (p : Nat) : (s.firOver p).kl = s.kl := by
  obtain ⟨x, -, posts⟩ := s.firOver_posts p
  rw [posts.kl, State.modSafe_kl]
  rfl

theorem State.firSample_telem (s : State) (p : Nat) (h : Option Int) (vsup : Nat) : TelemOnly s (s.firSample p h vsup) := by
  cases h with
  | none => rfl
  | some h =>
    have taken : TelemOnly s (s.firTaken p h vsup) := by
      unfold TelemOnly
      rw [State.firTaken_fp_only]
    rw [State.firSample_some]
    split
    · exact taken.trans (State.firOver_telem _ p)
    · exact taken

theorem State.firSample_kl (s : State) (p : Nat) (h : Option Int) (vsup : Nat) : (s.firSample p h vsup).kl = s.kl := by
  cases h with
  | none => rfl
  | some h =>
    have taken : (s.firTaken p h vsup).kl = s.kl := (congrArg State.kl (State.firTaken_fp_only ..)).trans rfl
    rw [State.firSample_some]
    split
    · rw [State.firOver_kl, taken]
    · exact taken

/-- What a field that no limit decides shows after a sample, with or without a temperature. -/
theorem State.firSample_seen {β : Type} (g : FirePort → β) (ht : ∀ f b, g { f with target := b } = g f)
    (hv : ∀ f b, g { f with hv := b } = g f) (hh : ∀ f, g (FirePort.heat f) = g f) (s : State) (p : Fin 64) (h : Option Int)
    (vsup : Nat) : g (vget (s.firSample p h vsup).fp p) = g ((vget s.fp p).sample h vsup s.now) := by
  cases h with
  | none => rw [State.firSample_none, State.modFp_fp, vget_vmod_fin]
  | some h =>
    rw [State.firSample_some]
    split
    · rw [State.firOver_seen g hv hh, State.firTaken_seen g ht hh]
    · exact State.firTaken_seen g ht hh _ _ _ _

theorem State.firSample_hot {s : State} {p : Fin 64} {h : Int} (hl : 16 * s.firTLIM p ≤ h) (vsup : Nat) :
    (vget (s.firSample p (some h) vsup).fp p).hot = true := by
  rw [State.firSample_some]
  split
  · exact (State.firOver_acts _ p).1
  · exact State.firTaken_hot hl vsup

theorem State.firSample_over {s : State} {p : Fin 64} {h : Int} (hm : 16 * s.firTMAX p ≤ h) (vsup : Nat) :
    s.firSample p (some h) vsup = (s.firTaken p h vsup).firOver p := by
  rw [State.firSample_some, if_pos hm]

/-! ## A telemetry frame -/

theorem State.firTLIM_of_mgt {s t : State} (h : t.mgt = s.mgt) (p : Nat) : t.firTLIM p = s.firTLIM p := by
  unfold State.firTLIM State.rf State.reg
  rw [h]

theorem State.firTMAX_of_mgt {s t : State} (h : t.mgt = s.mgt) (p : Nat) : t.firTMAX p = s.firTMAX p := by
  unfold State.firTMAX State.rf State.reg
  rw [h]

/-- A telemetry frame taken up, up to the sense window. -/
def State.telemTaken (s : State) (p : Nat) (m : Telem) : State :=
  ((s.telemLink p m).firSample p (telemTemp m) m.vsup).modFp p (fun f => { f with stale := (telemTemp m).isNone })

theorem State.telemetry_health {s : State} {p : Nat} {m : Telem} (hr : (vget s.kl p).receives = true) (hf : m.fault = false) :
    HealthOnly (s.telemTaken p m) (s.telemetry p m) := by
  rw [State.telemetry_eq hr hf, State.when]
  split
  · exact State.senseWindow_health _ _ _ _
  · exact .refl _

theorem State.telemTaken_telem (s : State) (p : Nat) (m : Telem) : TelemOnly s (s.telemTaken p m) :=
  ((s.telemLink_link p m).telem.trans (State.firSample_telem _ p _ _)).trans rfl

theorem State.telemTaken_kl (s : State) (p : Nat) (m : Telem) : (s.telemTaken p m).kl = (s.telemLink p m).kl := by
  rw [State.telemTaken, State.modFp_kl, State.firSample_kl]

/-- Stored samples, whether a limit was met or not. -/
theorem State.telemTaken_seen {β : Type} (g : FirePort → β) (ht : ∀ f b, g { f with target := b } = g f)
    (hv : ∀ f b, g { f with hv := b } = g f) (hh : ∀ f, g (FirePort.heat f) = g f)
    (hs : ∀ f b, g { f with stale := b } = g f) (s : State) (p : Fin 64) (m : Telem) :
    g (vget (s.telemTaken p m).fp p) = g ((vget s.fp p).sample (telemTemp m) m.vsup s.now) := by
  have link := s.telemLink_link p m
  rw [State.telemTaken, State.modFp_fp, vget_vmod_fin, hs, State.firSample_seen g ht hv hh, link.fp, link.now]

theorem FirePort.heat_vsup (f : FirePort) : f.heat.vsup = f.vsup := by
  unfold FirePort.heat
  split <;> rfl

theorem FirePort.heat_lastTel (f : FirePort) : f.heat.lastTel = f.lastTel := by
  unfold FirePort.heat
  split <;> rfl

theorem FirePort.heat_htemp (f : FirePort) : f.heat.htemp = f.htemp := by
  unfold FirePort.heat
  split <;> rfl

theorem FirePort.heat_tempValid (f : FirePort) : f.heat.tempValid = f.tempValid := by
  unfold FirePort.heat
  split <;> rfl

/-- Settles O30: the fields that a sample or the link's part shows are read through projections that the rest of the frame
does not touch. -/
theorem telemetryActs : Obligations.TelemetryActs := by
  intro e p rx m s u hu
  constructor
  · intro hr hx hf
    have eq : exec (.telemetryFrame e p rx) s = .next (u.telemetry p m) := by
      rw [exec_telemetryFrame, execTelemetryFrame, ← hu, State.upSymbols, if_neg (by rw [hr]; decide), hx]
    refine ⟨_, eq, ?_⟩
    have health := State.telemetry_health (m := m) hr hf
    have taken := u.telemTaken_telem p m
    generalize u.telemetry p m = t at health
    have only : TelemOnly u t := taken.trans health.telem
    have seen {β : Type} (g : FirePort → β) (ht : ∀ f b, g { f with target := b } = g f) (hv : ∀ f b, g { f with hv := b } = g f)
        (hh : ∀ f, g (FirePort.heat f) = g f) (hs : ∀ f b, g { f with stale := b } = g f) :
        g (vget t.fp p) = g ((vget u.fp p).sample (telemTemp m) m.vsup u.now) := by
      rw [health.fp, State.telemTaken_seen g ht hv hh hs]
    have link {β : Type} (g : KlPort → β) (hm : ∀ k w, g { k with wMiss := w } = g k)
        (hd : ∀ k w, g { k with wDown := w } = g k) (hx : ∀ k r, g { k with rxeq := r } = g k)
        (hu : ∀ k l a, g { k with up := l, lastUp := a } = g k) : g (vget t.kl p) = g ((vget u.kl p).telem m) := by
      rw [health.kl, State.telemTaken_kl, State.telemLink_seen g hm hd hx hu]
    have firlink := u.telemLink_link p m
    have tmax (h : Int) (ht : telemTemp m = some h) (hm : 16 * u.firTMAX p ≤ h) :
        (vget t.fp p).hot = true ∧ vget t.fire.hven (p.val / 8) = false ∧ t.safe.tmax.testBit (p.val / 8) = true := by
      have hm' : 16 * (u.telemLink p m).firTMAX p ≤ h := by rwa [State.firTMAX_of_mgt firlink.mgt]
      have acts := State.firOver_acts ((u.telemLink p m).firTaken p h m.vsup) p
      rw [← State.firSample_over hm', ← ht] at acts
      rw [health.fp, health.fire, health.safe, State.telemTaken, State.modFp_fp, vget_vmod_fin]
      exact acts
    have hot (h : Int) (ht : telemTemp m = some h) (hl : 16 * u.firTLIM p ≤ h) : (vget t.fp p).hot = true := by
      have hl' : 16 * (u.telemLink p m).firTLIM p ≤ h := by rwa [State.firTLIM_of_mgt firlink.mgt]
      have acts := State.firSample_hot hl' m.vsup
      rw [← ht] at acts
      rw [health.fp, State.telemTaken, State.modFp_fp, vget_vmod_fin]
      exact acts
    have cold (ht : telemTemp m = none) : (vget t.fp p).target = (vget u.fp p).target ∧ t.fire = u.fire ∧ t.safe = u.safe := by
      rw [health.fp, health.fire, health.safe, State.telemTaken, ht, State.firSample_none, State.modFp_fp, vget_vmod_fin,
        State.modFp_fp, vget_vmod_fin, firlink.fp]
      exact ⟨rfl, firlink.fire, firlink.safe⟩
    refine ⟨?_, ?_, ?_, ?_, ?_, ?_, ?_, ?_, ?_, ?_, hot, tmax, cold, ?_⟩
    · exact seen FirePort.vsup (fun _ _ => rfl) (fun _ _ => rfl) FirePort.heat_vsup (fun _ _ => rfl)
    · exact seen FirePort.lastTel (fun _ _ => rfl) (fun _ _ => rfl) FirePort.heat_lastTel (fun _ _ => rfl)
    · exact seen FirePort.htemp (fun _ _ => rfl) (fun _ _ => rfl) FirePort.heat_htemp (fun _ _ => rfl)
    · exact seen FirePort.tempValid (fun _ _ => rfl) (fun _ _ => rfl) FirePort.heat_tempValid (fun _ _ => rfl)
    · rw [health.fp, State.telemTaken, State.modFp_fp, vget_vmod_fin]
    · exact link KlPort.dseq (fun _ _ => rfl) (fun _ _ => rfl) (fun _ _ => rfl) (fun _ _ _ => rfl)
    · exact link KlPort.doubt (fun _ _ => rfl) (fun _ _ => rfl) (fun _ _ => rfl) (fun _ _ _ => rfl)
    · exact link KlPort.hbank (fun _ _ => rfl) (fun _ _ => rfl) (fun _ _ => rfl) (fun _ _ _ => rfl)
    · exact link KlPort.miss (fun _ _ => rfl) (fun _ _ => rfl) (fun _ _ => rfl) (fun _ _ _ => rfl)
    · exact link KlPort.downErr (fun _ _ => rfl) (fun _ _ => rfl) (fun _ _ => rfl) (fun _ _ _ => rfl)
    · have others (r : Fin 64) (h : r ≠ p) : vget t.kl r = vget u.kl r := by
        rw [health.kl, State.telemTaken_kl, State.telemLink_ne h]
      clear seen link tmax hot cold
      unfold TelemOnly at only
      rw [only]
      exact ⟨rfl, rfl, rfl, rfl, rfl, rfl, rfl, rfl, rfl, rfl, rfl, others⟩
  · intro h
    rw [exec_teltoExpiry, execTeltoExpiry, ← hu, State.teltoExpiry, if_pos h]

end Sys2Proof.Machine
end

section
/-! Pushes of the width table (06 R189-R196) -/
namespace Sys2Proof.Machine
open Sys2Proof

theorem State.modFp_congr (s : State) (p : Nat) {f g : FirePort → FirePort} (h : f (vget s.fp p) = g (vget s.fp p)) :
    s.modFp p f = s.modFp p g := by
  unfold State.modFp
  rw [vmod_congr _ _ h]

theorem State.modKl_congr (s : State) (p : Nat) {f g : KlPort → KlPort} (h : f (vget s.kl p) = g (vget s.kl p)) :
    s.modKl p f = s.modKl p g := by
  unfold State.modKl
  rw [vmod_congr _ _ h]

theorem State.modFp_modFp (s : State) (p : Nat) (f g : FirePort → FirePort) :
    (s.modFp p f).modFp p g = s.modFp p (fun x => g (f x)) := by
  unfold State.modFp
  rw [vmod_vmod]

theorem State.modKl_modKl (s : State) (p : Nat) (f g : KlPort → KlPort) :
    (s.modKl p f).modKl p g = s.modKl p (fun x => g (f x)) := by
  unfold State.modKl
  rw [vmod_vmod]

/-- A change at one place, read there. -/
theorem vmod_eq_vset {α : Type} {n : Nat} [Inhabited α] (v : Vector α n) (i : Fin n) (f : α → α) :
    vmod v i f = vset v i (vget (vmod v i f) i) := by
  rw [vget_vmod_fin]
  rfl

/-- From s to t words of the die's memory were written, a flip mask used, and records posted. -/
def SramOnly (s t : State) : Prop :=
  t = { s with sess := t.sess, msix := t.msix, out := t.out, mgt := t.mgt, mem := t.mem }

theorem SramOnly.refl (s : State) : SramOnly s s := rfl

theorem SramOnly.of_posts {s t : State} (h : Posts s t) : SramOnly s t := by
  unfold Posts at h
  unfold SramOnly
  rw [h]

theorem SramOnly.trans {s t v : State} (h : SramOnly s t) (k : SramOnly t v) : SramOnly s v := by
  unfold SramOnly at *
  rw [k, h]

theorem State.setReg_sram (s : State) (a : Nat) (v : Word) : SramOnly s (s.setReg a v) := rfl

theorem State.modMem_sram (s : State) (f : MemSt → MemSt) : SramOnly s (s.modMem f) := rfl

theorem State.flipUse_sram (s : State) (a : Nat) : SramOnly s (s.flipUse a) := by
  unfold State.flipUse
  exact (s.setReg_sram _ _).trans (.of_posts (State.postAll_posts _ _))

theorem State.flipSram_sram (s : State) (w n : Nat) : SramOnly s (s.flipSram w n).1 := by
  unfold State.flipSram
  dsimp only
  generalize hb : (!s.flipArmed false || _) = b
  cases b
  · rw [if_neg (by decide)]
    have used := s.flipUse_sram (if s.flipFilter = true then s.flipAddr else w)
    split
    · exact used
    · split
      · exact used
      · split
        · exact used
        · exact used
  · exact .refl s

theorem State.sramWrite_sram (s : State) (w n : Nat) : SramOnly s (s.sramWrite w n).1 := by
  unfold State.sramWrite
  dsimp only
  exact (s.flipSram_sram w n).trans (State.modMem_sram _ _)

theorem State.sramWrite_fp (s : State) (w n : Nat) : (s.sramWrite w n).1.fp = s.fp :=
  (congrArg State.fp (s.sramWrite_sram w n)).trans rfl

/-! ## How each step of a push behaves -/

/-- Table frame i acknowledged. -/
def Push.ack (y : Push) (i : Nat) : Push :=
  { y with frames := vmod y.frames i (fun w => { w with acked := true, sentAt := none }) }

theorem State.pushDone_band {u : State} {p : Fin 64} {y : Push} (hp : (vget u.fp p).push = some y) (why : y.why = .band)
    (want : (vget u.fp p).target = y.band) (good : (vget u.fp p).stagedBad = []) :
    u.pushDone p = u.modFp p (fun f => f.switch y) := by
  have eq : u.pushDone p = u.modFp p (fun f => if f.target = y.band then f.switch y else { f with push := none }) := by
    simp [State.pushDone, hp, why, good]
  rw [eq]
  exact State.modFp_congr _ _ (if_pos want)

section
variable {u : State} {p : Fin 64} {f : FirePort} {y : Push} (hf : f = vget u.fp p)
include hf

theorem State.pushStart_band (want : u.pushWanted p = some .band) (idle : f.push = none)
    (free : f.bankFree (1 - f.bank) u.now = true) : u.pushStart p = u.modFp p (fun _ => { f with
      staged := [], stagedBad := [], retryAt := none,
      push := some { why := .band, band := f.target, bank := 1 - f.bank, since := u.now } }) := by
  subst hf
  simp only [State.pushStart, want, idle]
  rw [if_pos (by simpa using free)]
  exact State.modFp_congr _ _ rfl

section
variable (hp : f.push = some y)
include hp

theorem State.bandLoadDone_bad (load : y.loaded = false) (base : y.newBase = none) (why : y.why ≠ .release)
    (on : bit (u.reg (etBase p)) 0 = true) (bad : u.bandBad f.pins y.band = true) : u.bandLoadDone p = u.pushFail p := by
  have why' : (y.why != .release) = true := by simpa using why
  subst hf
  simp [State.bandLoadDone, hp, load, base, why', on, bad]

theorem State.bandLoadDone_good (load : y.loaded = false) (base : y.newBase = none) (why : y.why ≠ .release)
    (on : bit (u.reg (etBase p)) 0 = true) (good : u.bandBad f.pins y.band = false) :
    u.bandLoadDone p = (u.sramWrite (Config.energyIndex p !f.copy) 16384).1.modFp p (fun _ => { f with
      staged := u.loadBand f.pins y.band, stagedBad := (u.sramWrite (Config.energyIndex p !f.copy) 16384).2,
      push := some { y with loaded := true } }) := by
  have why' : (y.why != .release) = true := by simpa using why
  subst hf
  have eq : u.bandLoadDone p = (u.sramWrite (Config.energyIndex p !(vget u.fp p).copy) 16384).1.modFp p (fun f => { f with
      staged := u.loadBand (vget u.fp p).pins y.band,
      stagedBad := (u.sramWrite (Config.energyIndex p !(vget u.fp p).copy) 16384).2, push := some { y with loaded := true } }) := by
    simp [State.bandLoadDone, hp, load, base, why', on, good]
  rw [eq]
  refine State.modFp_congr _ _ ?_
  rw [State.sramWrite_fp]

theorem State.ackTimeout_again {i : Fin 64} {a : Nat} (sent : (vget y.frames i).sentAt = some a)
    (due : u.due a (50 * qUs) = true) (few : (vget y.frames i).attempts < 4)
    (first : ∀ j : Fin 64, j < i → (vget y.frames j).sentAt = none) : u.ackTimeout p = u.modFp p (fun _ => { f with
      push := some { y with frames := vmod y.frames i (fun w => { w with sentAt := none }) } }) := by
  subst hf
  have none (j : Nat) (hj : j < i) : (vget y.frames j).sentAt = Option.none := first ⟨j, by omega⟩ hj
  unfold State.ackTimeout
  simp only [hp]
  split
  · next j found =>
    obtain ⟨hj, -, before⟩ := List.find?_range_eq_some.1 found
    have same : j = i := by
      rcases Nat.lt_trichotomy j i with h | h | h
      · simp [none j h] at hj
      · exact h
      · have := before i h
        simp [sent, due] at this
    subst same
    simp only [State.frameRetry, hp]
    rw [if_neg (by omega)]
    exact State.modFp_congr _ _ rfl
  · next found =>
    have := List.find?_range_eq_none.1 found i i.isLt
    simp [sent, due] at this

theorem State.tableFrameSend_sends {i : Nat} (next : y.nextFrame = some i) (st : (vget u.kl p).st ∈ [.ready, .push, .cal])
    (fits : u.gapFits p 2070 = true) (turn : u.ctlReady p = false ∨ (vget u.kl p).slotLast = 1) (good : f.stagedBad = []) :
    u.tableFrameSend p = ((u.sendFrame p (.table (f.tableFrame y i))).modKl p (fun k => { k with slotLast := 0 })).modFp p
      (fun x => { x with push := some { y with frames := vmod y.frames i (fun w => { w with
        attempts := w.attempts + 1,
        sentAt := some (((u.sendFrame p (.table (f.tableFrame y i))).modKl p (fun k => { k with slotLast := 0 })).laneFree p)
        }) } }) := by
  have on : ((vget u.kl p).st == .ready || (vget u.kl p).st == .push || (vget u.kl p).st == .cal) = true := by
    simpa [or_assoc] using st
  have mine : (u.ctlReady p && (vget u.kl p).slotLast == 0) = false := by
    rcases turn with h | h <;> simp [h]
  subst hf
  unfold State.tableFrameSend
  dsimp only
  simp only [hp, next, on, fits, mine, good, List.find?_nil, Bool.not_true, Bool.or_false, Bool.false_eq_true, if_false]

/-- The last acknowledgement of a band change that is still wanted: the head switches. -/
theorem State.pushAck_last {a : Ack} {i : Fin 64} (why : y.why = .band) (want : f.target = y.band) (load : y.loaded = true)
    (done : y.done = false) (good : f.stagedBad = []) (bank : a.bank = y.bank) (idx : a.index = i) (ok : a.status = 0)
    (due : (vget y.frames i).acked = false) (sent : (vget y.frames i).attempts ≠ 0)
    (rest : ∀ j : Fin 64, j ≠ i → (vget y.frames j).acked = true) :
    u.pushAck p a = u.modFp p (fun _ => f.switch (y.ack i)) := by
  have all : (List.range 64).all (fun j => (vget (y.ack i).frames j).acked) = true := by
    refine List.all_eq_true.2 fun j hj => ?_
    by_cases e : j = i
    · subst e
      rw [Push.ack, vget_vmod_fin]
    · rw [Push.ack, vget_vmod_ne _ _ _ _ (Ne.symm e)]
      exact rest ⟨j, List.mem_range.1 hj⟩ (fun h => e (congrArg Fin.val h))
  subst hf
  unfold State.pushAck
  simp only [hp, idx]
  rw [if_neg (by simp [load, done, bank, due, sent]), if_neg (by simp [ok])]
  refine (if_pos all).trans ?_
  have mine : vget (u.modFp p fun x => { x with push := some (y.ack i) }).fp p = { vget u.fp p with push := some (y.ack i) } := by
    rw [State.modFp_fp, vget_vmod_fin]
  refine (State.pushDone_band (y := y.ack i) ?_ why ?_ ?_).trans ?_
  · exact congrArg FirePort.push mine
  · exact (congrArg FirePort.target mine).trans want
  · exact (congrArg FirePort.stagedBad mine).trans good
  · rw [State.modFp_modFp]
    exact State.modFp_congr _ _ rfl

end
end

/-- A frame sent takes the next SEQ and a place on the lane. -/
theorem State.sendFrame_eq (s : State) (p : Nat) (it : DownItem) : ∃ i, s.sendFrame p it = s.modKl p (fun k => { k with
    seqNo := (k.seqNo + 1) % 65536, lane := laneInsert i k.lane }) := ⟨_, rfl⟩

theorem State.modFp_laneFree (s : State) (p : Nat) (f : FirePort → FirePort) (r : Nat) :
    (s.modFp p f).laneFree r = s.laneFree r := rfl

/-- Settles O31, one lemma for each step of a push. -/
theorem pushesOfTheWidthTable : Obligations.PushesOfTheWidthTable := by
  intro e p s u f y hu hf
  refine ⟨fun want idle free => ?_, fun hp load base why on => ⟨fun good r hr => ?_, fun bad => ?_⟩,
    fun i hp next st fits turn good => ?_,
    fun i rx a hx hp why want load done good bank idx ok due sent rest ready => ?_,
    fun i a hp sent due few first => ?_, fun a ha hd => ?_⟩
  · rw [exec_pushStart, execPushStart, ← hu, State.pushStart_band hf want idle free]
  · rw [exec_bandLoadDone, execBandLoadDone, ← hu, State.bandLoadDone_good hf hp load base why on good, hr]
  · rw [exec_bandLoadDone, execBandLoadDone, ← hu, State.bandLoadDone_bad hf hp load base why on bad]
  · rw [exec_tableFrameSend, execTableFrameSend, ← hu, State.tableFrameSend_sends hf hp next st fits turn good]
    obtain ⟨placed, sends⟩ := u.sendFrame_eq p (.table (f.tableFrame y i))
    rw [sends, State.modKl_modKl]
    refine ⟨_, rfl, ?_, ?_, ?_, ?_, ?_⟩
    · rw [State.modFp_fp, vget_vmod_fin, State.modFp_laneFree]
    · rw [State.modFp_kl, State.modKl_kl, vget_vmod_fin]
    · rw [State.modFp_kl, State.modKl_kl, vget_vmod_fin]
    · rw [State.modFp_fp, State.modKl_fp]
      exact vmod_eq_vset u.fp p _
    · rw [State.modFp_kl, State.modKl_kl]
      exact vmod_eq_vset u.kl p _
  · have on : (vget u.kl p).receives = true := by simp [KlPort.receives, ready]
    have eq : exec (.ackFrame e p rx) s = .next ((u.upFrame p (.ack a)).modFp p fun _ => f.switch (y.ack i)) := by
      have acked := State.pushAck_last (u := u.upFrame p (.ack a)) hf hp why want load done good bank idx ok due sent rest
      have stays : ((vget u.kl p).st != .ready) = false := by simp [ready]
      rw [exec_ackFrame, execAckFrame, ← hu, State.upSymbols, if_neg (by rw [on]; decide), hx]
      simp only [State.ackFrame, on, acked, stays, Bool.false_and, State.when_false, Bool.not_true, Bool.false_eq_true,
        if_false]
    refine ⟨_, eq, ?_, ?_, ?_, ?_, ?_, ?_, ?_⟩
    · rw [State.modFp_fp, vget_vmod_fin]
      rfl
    · rw [State.modFp_fp, vget_vmod_fin]
      rfl
    · rw [State.modFp_fp, vget_vmod_fin]
      rfl
    · rw [State.modFp_fp, vget_vmod_fin]
      rfl
    · rw [State.modFp_kl, State.upFrame, State.modKl_kl, vget_vmod_fin]
    · rw [State.modFp_fp, State.upFrame, State.modKl_fp]
      exact vmod_eq_vset u.fp p _
    · rw [State.modFp_kl, State.upFrame, State.modKl_kl]
      exact vmod_eq_vset u.kl p _
  · rw [exec_ackTimeout, execAckTimeout, ← hu, State.ackTimeout_again hf hp sent due few first]
  · subst hf
    rw [exec_pushRetry, execPushRetry, ← hu]
    simp only [State.pushRetry, ha]
    rw [if_pos hd]

end Sys2Proof.Machine
end

section
/-! The state of one port: what taking it out of service and losing it change (07 R240, R241) -/
namespace Sys2Proof.Machine
open Sys2Proof

/-- From s to t records were posted, swaths that bind port p noted its loss, and the link and firing state of port p changed;
nothing else happened. -/
structure PortOnly (p : Fin 64) (s t : State) : Prop where
  only : t = { s with sess := t.sess, msix := t.msix, out := t.out, kl := t.kl, fp := t.fp, seq := t.seq, place := t.place }
  kl : ∀ r : Fin 64, r ≠ p → vget t.kl r = vget s.kl r
  fp : ∀ r : Fin 64, r ≠ p → vget t.fp r = vget s.fp r

namespace PortOnly
variable {p : Fin 64} {s t v : State}

theorem refl (s : State) : PortOnly p s s := ⟨rfl, fun _ _ => rfl, fun _ _ => rfl⟩

theorem of_posts (h : Posts s t) : PortOnly p s t where
  only := by
    unfold Posts at h
    rw [h]
  kl r _ := by rw [h.kl]
  fp r _ := by rw [h.fp]

theorem trans (h : PortOnly p s t) (k : PortOnly p t v) : PortOnly p s v where
  only := by rw [k.only, h.only]
  kl r n := (k.kl r n).trans (h.kl r n)
  fp r n := (k.fp r n).trans (h.fp r n)

theorem each {α : Type} {f : State → α → State} (hf : ∀ u a, PortOnly p u (f u a)) :
    ∀ (l : List α) (s : State), PortOnly p s (s.each l f)
  | [], s => refl s
  | a :: l, s => (hf s a).trans (each hf l (f s a))

theorem when {b : Bool} {f : State → State} (h : PortOnly p s t) (hf : ∀ u, PortOnly p u (f u)) : PortOnly p s (t.when b f) := by
  unfold State.when
  split
  · exact h.trans (hf t)
  · exact h

theorem now (h : PortOnly p s t) : t.now = s.now := (congrArg State.now h.only).trans rfl
theorem mgt (h : PortOnly p s t) : t.mgt = s.mgt := (congrArg State.mgt h.only).trans rfl
theorem head (h : PortOnly p s t) : t.head = s.head := (congrArg State.head h.only).trans rfl

end PortOnly

theorem State.modKl_port (s : State) (p : Fin 64) (f : KlPort → KlPort) : PortOnly p s (s.modKl p f) where
  only := rfl
  kl r h := vget_vmod_ne _ _ _ _ fun e => h (Fin.ext e.symm)
  fp _ _ := rfl

theorem State.modFp_port (s : State) (p : Fin 64) (f : FirePort → FirePort) : PortOnly p s (s.modFp p f) where
  only := rfl
  kl _ _ := rfl
  fp r h := vget_vmod_ne _ _ _ _ fun e => h (Fin.ext e.symm)

theorem State.modSeq_port (p : Fin 64) (s : State) (q : Nat) (f : Seq → Seq) : PortOnly p s (s.modSeq q f) :=
  ⟨rfl, fun _ _ => rfl, fun _ _ => rfl⟩

theorem State.modPlace_port (p : Fin 64) (s : State) (q : Nat) (f : Placer → Placer) : PortOnly p s (s.modPlace q f) :=
  ⟨rfl, fun _ _ => rfl, fun _ _ => rfl⟩

theorem State.laneCut_port (s : State) (p : Fin 64) (f : DownItem → Bool) : PortOnly p s (s.laneCut p f) := by
  unfold State.laneCut
  dsimp only
  split
  · exact .refl s
  · refine (s.modKl_port p _).trans (PortOnly.each (fun u i => ?_) _ _)
    split
    · exact u.modFp_port p _
    · split
      · exact u.modKl_port p _
      · exact .refl u
    · exact .refl u

theorem State.laneDown_port (s : State) (p : Fin 64) : PortOnly p s (s.laneDown p) :=
  (s.laneCut_port p _).trans (State.modKl_port _ p _)

theorem State.sendFrame_port (s : State) (p : Fin 64) (i : DownItem) : PortOnly p s (s.sendFrame p i) := s.modKl_port p _

theorem State.hregLost_port (s : State) (p : Fin 64) : PortOnly p s (s.hregLost p) := by
  unfold State.hregLost
  split
  · exact .refl s
  · split
    · exact ((s.modKl_port p _).trans (State.modKl_port _ p _)).trans (.of_posts (State.postUnit_posts _ _ _))
    · exact s.modKl_port p _

/-! ## The swaths that a port quits -/

theorem State.noteOther_swaths_kept (s : State) (i n : Nat) (q : Fin 16) :
    ∃ a b, vget (s.noteOther i n).seq q = { vget s.seq q with nOther := a, otherLn := b } := by
  unfold State.noteOther
  by_cases e : i = q
  · subst e
    rw [State.modSeq_seq, vget_vmod_fin]
    split
    · exact ⟨_, _, rfl⟩
    · exact ⟨_, _, rfl⟩
  · rw [State.modSeq_seq, vget_vmod_ne _ _ _ _ e]
    exact ⟨_, _, rfl⟩

/-- Lines cut as a port leaves count as defects; a swath is otherwise as it was. -/
theorem State.cutLines_seq (s : State) (i p : Nat) (q : Fin 16) :
    ∃ a b, vget (s.cutLines i p).seq q = { vget s.seq q with nOther := a, otherLn := b } := by
  have counted (k : Nat) (f : Placer → Placer) : ∃ a b,
      vget ((s.modSeq i (fun x => { x with nOther := x.nOther + k })).modPlace i f).seq q =
        { vget s.seq q with nOther := a, otherLn := b } := by
    rw [State.modPlace_seq]
    by_cases e : i = q
    · subst e
      rw [State.modSeq_seq, vget_vmod_fin]
      exact ⟨_, _, rfl⟩
    · rw [State.modSeq_seq, vget_vmod_ne _ _ _ _ e]
      exact ⟨_, _, rfl⟩
  unfold State.cutLines
  dsimp only
  split
  · split
    · obtain ⟨a, b, h⟩ := counted _ _
      obtain ⟨c, d, k⟩ := State.noteOther_swaths_kept (State.modPlace _ i _) i _ q
      refine ⟨c, d, k.trans ?_⟩
      rw [h]
    · exact counted _ _
  · exact counted _ _

theorem State.cutLines_port (p : Fin 64) (s : State) (i : Nat) : PortOnly p s (s.cutLines i p) := by
  have counted (k : Nat) (f : Placer → Placer) :
      PortOnly p s ((s.modSeq i (fun x => { x with nOther := x.nOther + k })).modPlace i f) :=
    (s.modSeq_port p i _).trans (State.modPlace_port p _ i _)
  unfold State.cutLines
  dsimp only
  split
  · split
    · exact (counted _ _).trans (State.modSeq_port p _ i _)
    · exact counted _ _
  · exact counted _ _

/-- One swath goes on without port p. -/
def State.quitOne (s : State) (p q : Nat) : State :=
  (s.cutLines q p).modSeq q (fun x => { x with excluded := addOnce p x.excluded, gone := addOnce p x.gone })

theorem State.quitSwath_eq (s : State) (p : Nat) : s.quitSwath p =
    s.each (those 16 (fun q => (vget s.seq q).swst == .opened && (vget s.seq q).live.contains p)) (fun s q => s.quitOne p q) := rfl

theorem State.quitOne_port (p : Fin 64) (s : State) (i : Nat) : PortOnly p s (s.quitOne p i) :=
  (s.cutLines_port p i).trans (State.modSeq_port p _ i _)

theorem State.quitSwath_port (s : State) (p : Fin 64) : PortOnly p s (s.quitSwath p) := by
  rw [State.quitSwath_eq]
  exact PortOnly.each (fun u i => u.quitOne_port p i) _ s

theorem State.quitSwath_kl (s : State) (p : Nat) : (s.quitSwath p).kl = s.kl := by
  rw [State.quitSwath_eq]
  refine State.each_field (g := State.kl) (fun u i => ?_) _ _
  unfold State.quitOne State.cutLines
  dsimp only
  (repeat' split) <;> rfl

theorem State.quitSwath_fp (s : State) (p : Nat) : (s.quitSwath p).fp = s.fp := by
  rw [State.quitSwath_eq]
  refine State.each_field (g := State.fp) (fun u i => ?_) _ _
  unfold State.quitOne State.cutLines
  dsimp only
  (repeat' split) <;> rfl

theorem mem_addOnce (a : Nat) (l : List Nat) : a ∈ addOnce a l := by
  unfold addOnce
  split
  · next h => simpa using h
  · simp

theorem State.quitOne_swst (s : State) (p i : Nat) (q : Fin 16) : (vget (s.quitOne p i).seq q).swst = (vget s.seq q).swst := by
  obtain ⟨a, b, h⟩ := s.cutLines_seq i p q
  unfold State.quitOne
  by_cases e : i = q
  · subst e
    rw [State.modSeq_seq, vget_vmod_fin, h]
  · rw [State.modSeq_seq, vget_vmod_ne _ _ _ _ e, h]

theorem State.quitOne_excluded (s : State) (p i : Nat) (q : Fin 16) (h : i = q ∨ p ∈ (vget s.seq q).excluded) :
    p ∈ (vget (s.quitOne p i).seq q).excluded := by
  obtain ⟨a, b, hc⟩ := s.cutLines_seq i p q
  unfold State.quitOne
  by_cases e : i = q
  · subst e
    rw [State.modSeq_seq, vget_vmod_fin]
    exact mem_addOnce p _
  · rw [State.modSeq_seq, vget_vmod_ne _ _ _ _ e, hc]
    exact h.resolve_left e

theorem State.quitEach (p : Nat) (q : Fin 16) : ∀ (l : List Nat) (s : State), (q.val ∈ l ∨ p ∈ (vget s.seq q).excluded) →
    p ∈ (vget (s.each l fun s i => s.quitOne p i).seq q).excluded ∧
      (vget (s.each l fun s i => s.quitOne p i).seq q).swst = (vget s.seq q).swst
  | [], s, h => ⟨h.resolve_left (by simp), rfl⟩
  | i :: l, s, h => by
    rw [State.each_cons, ← s.quitOne_swst p i q]
    refine quitEach p q l _ ?_
    rcases h with h | h
    · rcases List.mem_cons.1 h with e | m
      · exact .inr (s.quitOne_excluded p i q (.inl e.symm))
      · exact .inl m
    · exact .inr (s.quitOne_excluded p i q (.inr h))

/-- A swath that bound port p goes on without it. -/
theorem State.quitSwath_excluded {s : State} {p : Fin 64} {q : Fin 16} (h : (vget s.seq q).swst = .opened)
    (live : (vget s.seq q).live.contains p.val = true) :
    p.val ∈ (vget (s.quitSwath p).seq q).excluded ∧ (vget (s.quitSwath p).seq q).swst = .opened := by
  have mem : q.val ∈ those 16 (fun q => (vget s.seq q).swst == .opened && (vget s.seq q).live.contains p.val) := by
    refine List.mem_filter.2 ⟨List.mem_range.2 q.isLt, ?_⟩
    simp only [h, live, beq_self_eq_true, Bool.and_self]
  obtain ⟨out, st⟩ := State.quitEach p q _ s (.inl mem)
  exact ⟨out, st.trans h⟩

end Sys2Proof.Machine
end

section
/-! Bringing up a port, and its loss (07 R232, R233, R240-R250) -/
namespace Sys2Proof.Machine
open Sys2Proof

/-! ## Leaving service -/

theorem State.leaveReady_port (s : State) (p : Fin 64) (st : KlSt) : PortOnly p s (s.leaveReady p st) := by
  unfold State.leaveReady
  exact PortOnly.when (((s.laneDown_port p).trans (State.modKl_port _ p _)).trans (State.modFp_port _ p _))
    fun u => u.quitSwath_port p

theorem State.leaveReady_kl (s : State) (p : Fin 64) (st : KlSt) : vget (s.leaveReady p st).kl p =
    { vget (s.laneDown p).kl p with st := st, since := s.now } := by
  have left : vget (((s.laneDown p).modKl p (fun k => { k with st := st, since := (s.laneDown p).now })).modFp p
      (fun f => { f with push := none, retryAt := none })).kl p = { vget (s.laneDown p).kl p with st := st, since := s.now } := by
    rw [State.modFp_kl, State.modKl_kl, vget_vmod_fin, (s.laneDown_port p).now]
  unfold State.leaveReady State.when
  dsimp only
  split
  · rw [State.quitSwath_kl]
    exact left
  · exact left

theorem State.leaveReady_push (s : State) (p : Fin 64) (st : KlSt) : (vget (s.leaveReady p st).fp p).push = none := by
  unfold State.leaveReady State.when
  dsimp only
  split
  · rw [State.quitSwath_fp, State.modFp_fp, vget_vmod_fin]
  · rw [State.modFp_fp, vget_vmod_fin]

/-- A port in FAULT, but for the swath that binds it. -/
def State.faulted (s : State) (p det : Nat) : State :=
  let t := ((s.laneDown p).modKl p (fun k => { k with st := .fault, since := (s.laneDown p).now, faultDet := det })).modFp p
    (fun f => { f with push := none, retryAt := none })
  t.postUnit p (t.ev 2 (if s.inService p then 0x0601 else 0x0606) p (t.segOf p) (wd det))

theorem State.portFault_eq (s : State) (p det : Nat) :
    s.portFault p det = (s.faulted p det).when (s.inService p) (fun s => s.quitSwath p) := rfl

theorem State.faulted_port (s : State) (p : Fin 64) (det : Nat) : PortOnly p s (s.faulted p det) := by
  unfold State.faulted
  exact (((s.laneDown_port p).trans (State.modKl_port _ p _)).trans (State.modFp_port _ p _)).trans
    (.of_posts (State.postUnit_posts _ _ _))

theorem State.faulted_seq (s : State) (p : Fin 64) (det : Nat) : (s.faulted p det).seq = s.seq := by
  unfold State.faulted
  dsimp only
  rw [State.postUnit_seq, State.modFp_seq, State.modKl_seq]
  exact (s.laneDown_lane p).seq

theorem State.faulted_kl (s : State) (p : Fin 64) (det : Nat) : vget (s.faulted p det).kl p =
    { vget (s.laneDown p).kl p with st := .fault, since := s.now, faultDet := det } := by
  unfold State.faulted
  dsimp only
  rw [State.postUnit_kl, State.modFp_kl, State.modKl_kl, vget_vmod_fin, (s.laneDown_port p).now]

theorem State.faulted_push (s : State) (p : Fin 64) (det : Nat) : (vget (s.faulted p det).fp p).push = none := by
  unfold State.faulted
  dsimp only
  rw [State.postUnit_fp, State.modFp_fp, vget_vmod_fin]

theorem State.portFault_port (s : State) (p : Fin 64) (det : Nat) : PortOnly p s (s.portFault p det) := by
  rw [State.portFault_eq]
  exact PortOnly.when (s.faulted_port p det) fun u => u.quitSwath_port p

theorem State.portFault_kl (s : State) (p : Fin 64) (det : Nat) : vget (s.portFault p det).kl p =
    { vget (s.laneDown p).kl p with st := .fault, since := s.now, faultDet := det } := by
  rw [State.portFault_eq, ← s.faulted_kl p det, State.when]
  split
  · rw [State.quitSwath_kl]
  · rfl

theorem State.portFault_push (s : State) (p : Fin 64) (det : Nat) : (vget (s.portFault p det).fp p).push = none := by
  rw [State.portFault_eq, ← s.faulted_push p det, State.when]
  split
  · rw [State.quitSwath_fp]
  · rfl

/-- A READY port lost: the swath that bound it goes on without it. -/
theorem State.portFault_excluded {s : State} {p : Fin 64} {q : Fin 16} (ready : (vget s.kl p).st = .ready) (det : Nat)
    (h : (vget s.seq q).swst = .opened) (live : (vget s.seq q).live.contains p.val = true) :
    p.val ∈ (vget (s.portFault p det).seq q).excluded ∧ (vget (s.portFault p det).seq q).swst = .opened := by
  have on : s.inService p = true := by simp [State.inService, ready]
  have same := s.faulted_seq p det
  rw [State.portFault_eq, on, State.when_true]
  exact State.quitSwath_excluded (by rwa [same]) (by rwa [same])

theorem State.hregLost_kl (s : State) (p : Fin 64) : ∃ b c, vget (s.hregLost p).kl p =
    { vget s.kl p with acc := none, hbusy := b, hstatus := c } := by
  unfold State.hregLost
  split
  · next h => exact ⟨(vget s.kl p).hbusy, (vget s.kl p).hstatus, by rw [← h]⟩
  · split
    · rw [State.postUnit_kl, State.modKl_kl, vget_vmod_fin, State.modKl_kl, vget_vmod_fin]
      exact ⟨_, _, rfl⟩
    · rw [State.modKl_kl, vget_vmod_fin]
      exact ⟨_, _, rfl⟩

theorem State.hregLost_fp (s : State) (p : Nat) : (s.hregLost p).fp = s.fp := by
  unfold State.hregLost
  split
  · rfl
  · split
    · rw [State.postUnit_fp]
      rfl
    · rfl

theorem State.hregLost_seq (s : State) (p : Nat) : (s.hregLost p).seq = s.seq := by
  unfold State.hregLost
  split
  · rfl
  · split
    · rw [State.postUnit_seq]
      rfl
    · rfl

/-! ## Waking -/

theorem State.wake_port (s : State) (p : Fin 64) : PortOnly p s (s.wake p) :=
  ((s.leaveReady_port p .wake).trans (State.hregLost_port _ p)).trans (State.modKl_port _ p _)

theorem ctleWord (x : Nat) : bits (fields [(0, 5, 8), (16, 48, x)]) 4 0 = 8 := by
  rw [bits, bitsN, fields, BitVec.toNat_ofNat]
  simp only [List.foldl]
  omega

theorem State.klCTLEFRZ_of_mgt {s t : State} (h : t.mgt = s.mgt) (p : Nat) : t.klCTLEFRZ p = s.klCTLEFRZ p := by
  unfold State.klCTLEFRZ State.reg
  rw [h]

theorem State.wake_kl (s : State) (p : Fin 64) : (vget (s.wake p).kl p).st = .wake ∧ (vget (s.wake p).kl p).since = s.now ∧
    (vget (s.wake p).kl p).seqNo = 0 ∧ (vget (s.wake p).kl p).lane = [] ∧
    (s.klCTLEFRZ p = false → bits (vget (s.wake p).kl p).rxeq 4 0 = 8) := by
  obtain ⟨b, c, lost⟩ := (s.leaveReady p .wake).hregLost_kl p
  have frozen := State.klCTLEFRZ_of_mgt ((s.leaveReady_port p .wake).trans (State.hregLost_port _ p)).mgt p
  unfold State.wake
  dsimp only
  rw [State.modKl_kl, vget_vmod_fin, lost, s.leaveReady_kl, frozen]
  refine ⟨rfl, rfl, rfl, rfl, fun h => ?_⟩
  rw [h]
  exact ctleWord _

/-- The words that UP, DOWN and CLRCNT write. -/
theorem State.wrKlPortCtl_up {s : State} {p n : Nat} (h : s.holds n p = true) : (s.wrKlPortCtl p n 1).1 = s.portUp p := by
  unfold State.wrKlPortCtl State.klHolder State.ifRight
  rw [if_pos h]
  rfl

theorem State.wrKlPortCtl_down {s : State} {p n : Nat} (h : s.holds n p = true) : (s.wrKlPortCtl p n 2).1 = s.portDown p := by
  unfold State.wrKlPortCtl State.klHolder State.ifRight
  rw [if_pos h]
  rfl

theorem State.wrKlPortCtl_clear {s : State} {p n : Nat} (h : s.holds n p = true) : (s.wrKlPortCtl p n 8).1 = s.klClear p := by
  unfold State.wrKlPortCtl State.klHolder State.ifRight
  rw [if_pos h]
  rfl

theorem State.portDown_port (s : State) (p : Fin 64) (r : Fin 64) (h : r ≠ p) : vget (s.portDown p).kl r = vget s.kl r ∧
    vget (s.portDown p).head r = vget s.head r ∧ vget (s.portDown p).fp r = vget s.fp r := by
  have left := (s.leaveReady_port p .down).trans (State.hregLost_port _ p)
  have ne : p.val ≠ r.val := fun e => h (Fin.ext e.symm)
  unfold State.portDown
  refine ⟨?_, ?_, left.fp r h⟩
  · rw [State.modKl_kl, vget_vmod_ne _ _ _ _ ne]
    exact left.kl r h
  · rw [State.modKl_head, State.modHead_head, vget_vmod_ne _ _ _ _ ne, left.head]

theorem State.portDown_acts (s : State) (p : Fin 64) : (vget (s.portDown p).kl p).st = .down ∧
    (vget (s.portDown p).kl p).since = s.now ∧ (vget (s.portDown p).head p).aligned = false ∧
    (vget (s.portDown p).fp p).push = none ∧ (vget (s.portDown p).kl p).acc = none := by
  obtain ⟨b, c, lost⟩ := (s.leaveReady p .down).hregLost_kl p
  have kl : vget (s.portDown p).kl p = { vget ((s.leaveReady p .down).hregLost p).kl p with
      prbs := (vget ((s.leaveReady p .down).hregLost p).kl p).prbs &&& 0xE, prbsSince := none } := by
    unfold State.portDown
    rw [State.modKl_kl, vget_vmod_fin]
    rfl
  rw [kl, lost, s.leaveReady_kl]
  refine ⟨rfl, rfl, ?_, ?_, rfl⟩
  · unfold State.portDown
    rw [State.modKl_head, State.modHead_head, vget_vmod_fin]
  · unfold State.portDown
    rw [State.modKl_fp, State.modHead_fp, State.hregLost_fp]
    exact s.leaveReady_push p .down

end Sys2Proof.Machine
end

section
/-! The bring-up of a port and its loss, settled (07 R232, R233, R240-R250) -/
namespace Sys2Proof.Machine
open Sys2Proof

theorem State.rxAdapt_kl (s : State) (p : Fin 64) : ∃ x, vget (s.rxAdapt p).kl p = { vget s.kl p with rxeq := x } := by
  rw [State.rxAdapt, State.modKl_kl, vget_vmod_fin]
  exact ⟨_, rfl⟩

theorem State.rxAdapt_ne {p r : Fin 64} (h : r ≠ p) (s : State) : vget (s.rxAdapt p).kl r = vget s.kl r := by
  rw [State.rxAdapt, State.modKl_kl, vget_vmod_ne _ _ _ _ fun e => h (Fin.ext e.symm)]
  rfl

theorem State.due_eq_true {s : State} {t d : Nat} (h : t + d + s.heldFrom t ≤ s.now) : s.due t d = true := decide_eq_true h

/-- The identification of a head that the spec allows. -/
theorem State.identified_good {s : State} {p : Fin 64} {d : List Byte} (some_ : bits (wd (leAt d 0 8)) 47 32 ≠ 0)
    (few : bits (wd (leAt d 0 8)) 47 32 ≤ 8192) (rows : bits (wd (leAt d 0 8)) 51 48 ≤ 8) (ver : bits (wd (leAt d 0 8)) 63 56 = 1) :
    s.identified p d = (s.modKl p (fun k => { k with
      headId := wd (leAt d 0 8), hid1 := wd (leAt d 8 8), hcap := wd (leAt d 16 8), st := .config, since := s.now })).sendFrame p
        (.ctl { op := .drop }) := by
  have ok : ¬(bits (wd (leAt d 0 8)) 47 32 = 0 ∨ 8192 < bits (wd (leAt d 0 8)) 47 32 ∨ 8 < bits (wd (leAt d 0 8)) 51 48 ∨
      bits (wd (leAt d 0 8)) 63 56 ≠ 1) := by omega
  unfold State.identified
  dsimp only
  rw [if_neg (by simpa only [Bool.or_eq_true, decide_eq_true_eq, or_assoc] using ok)]

/-- A frame of the awaited response, in IDENT. -/
theorem State.respFrame_ident {u : State} {p : Fin 64} {r : Resp} {h : HeadAcc} (st : (vget u.kl p).st = .ident)
    (acc : (vget u.kl p).acc = some h) (mine : h.host = false) (sent : h.sentAt.isSome = true) (id : r.id = h.id)
    (wr : r.write = h.write) (ad : r.addr = h.addr) (ok : r.status = 0) :
    u.respFrame p r = ((u.upFrame p (.resp r)).modKl p (fun k => { k with acc := none })).identified p r.data := by
  have on : (vget u.kl p).receives = true := by simp [KlPort.receives, st]
  have waits : h.sentAt.isNone = false := by simpa [Option.isSome_iff_ne_none, Option.isNone_iff_eq_none] using sent
  simp [State.respFrame, on, acc, mine, waits, id, wr, ad, ok, st]

/-- Settles O32: each step of the bring-up is one change of the port's own state. -/
theorem portBringUp : Obligations.PortBringUp := by
  intro e w p s u n k hu hk
  refine ⟨fun hr hw ha held => ⟨fun st tx => ?_, ?_⟩, fun st => ?_, fun st due => ?_, fun st due => ?_, fun st due => ?_,
    fun st auto tx due => ?_, fun h rx r hx st acc mine sent id wr ad ok some_ few rows ver => ?_⟩
  · have act : (((vget u.kl p).st == .down || (vget u.kl p).st == .fault) && u.klTXEN p) = true := by
      rw [← hk]
      rcases st with st | st <;> simp [st, tx]
    have eq : exec (.portUp e w p) s = .next (u.wake p) := by
      rw [exec_portUp, execPortUp, ← hu, State.asWriter_of_auth hr hw ha, State.wrKlPortCtl_up held, State.portUp, if_pos act]
    obtain ⟨hst, hsince, hseq, hlane, heq⟩ := u.wake_kl p
    exact ⟨_, eq, hst, hsince, hseq, hlane, heq, (u.wake_port p).kl⟩
  · have eq : exec (.portDown e w p) s = .next (u.portDown p) := by
      rw [exec_portDown, execPortDown, ← hu, State.asWriter_of_auth hr hw ha, State.wrKlPortCtl_down held]
    obtain ⟨hst, hsince, hal, hpush, hacc⟩ := u.portDown_acts p
    exact ⟨_, eq, hst, hsince, hal, hpush, hacc, u.portDown_port p⟩
  · have wakes : ¬((vget u.kl p).st != .wake) = true := by simp [← hk, st]
    obtain ⟨x, adapted⟩ := u.rxAdapt_kl p
    refine ⟨u.wakeDone p, by rw [exec_wakeDone, execWakeDone, ← hu], ?_⟩
    rw [State.wakeDone, if_neg wakes, State.modKl_kl, vget_vmod_fin, adapted, ← hk]
    refine ⟨rfl, rfl, rfl, fun r h => ?_⟩
    rw [vget_vmod_ne _ _ _ _ fun e => h (Fin.ext e.symm), State.rxAdapt_ne h]
  · have acts : ((vget u.kl p).st == .wake && u.due (vget u.kl p).since (500 * qUs)) = true := by
      rw [← hk, st, State.due_eq_true due]
      rfl
    rw [exec_wakeTimeout, execWakeTimeout, ← hu, State.bringupTimeout, if_pos acts]
  · have acts : ((vget u.kl p).st == .ident && u.due (vget u.kl p).since (50 * qUs)) = true := by
      rw [← hk, st, State.due_eq_true due]
      rfl
    rw [exec_identTimeout, execIdentTimeout, ← hu, State.bringupTimeout, if_pos acts]
  · have acts : ((vget u.kl p).st == .config && u.due (vget u.kl p).since qUs) = true := by
      rw [← hk, st, State.due_eq_true due]
      rfl
    rw [exec_configDone, execConfigDone, ← hu, State.configDone, if_pos acts]
    refine congrArg (fun x : State => Host.Outcome.next (x.pushStart p)) (State.modKl_congr _ _ ?_)
    rw [← hk]
  · have acts : ((vget u.kl p).st == .fault && u.klAUTO p && u.klTXEN p && u.due (vget u.kl p).since (100 * qMs)) = true := by
      rw [← hk, st, auto, tx, State.due_eq_true due]
      rfl
    obtain ⟨hst, hsince, -⟩ := u.wake_kl p
    exact ⟨_, by rw [exec_portAutoRetry, execPortAutoRetry, ← hu, State.autoRetry, if_pos acts], hst, hsince⟩
  · have on : (vget u.kl p).receives = true := by simp [KlPort.receives, ← hk, st]
    rw [hk] at st acc
    have eq : exec (.responseFrame e p rx) s = .next (((u.upFrame p (.resp r)).modKl p (fun k => { k with acc := none })).identified
        p r.data) := by
      rw [exec_responseFrame, execResponseFrame, ← hu, State.upSymbols, if_neg (by rw [on]; decide), hx]
      exact congrArg Host.Outcome.next (State.respFrame_ident st acc mine sent id wr ad ok)
    refine ⟨_, eq, ?_⟩
    obtain ⟨i, sends⟩ := State.sendFrame_eq (State.modKl ((u.upFrame p (.resp r)).modKl p (fun k => { k with acc := none })) p
      (fun k => { k with headId := wd (leAt r.data 0 8), hid1 := wd (leAt r.data 8 8), hcap := wd (leAt r.data 16 8),
                         st := .config, since := u.now })) p (.ctl { op := .drop })
    rw [State.identified_good some_ few rows ver]
    have same : ((u.upFrame p (.resp r)).modKl p (fun k => { k with acc := none })).now = u.now := rfl
    rw [same, sends, State.modKl_kl, vget_vmod_fin, State.modKl_kl, vget_vmod_fin, State.modKl_kl, vget_vmod_fin]
    exact ⟨rfl, rfl, rfl, rfl, rfl⟩

end Sys2Proof.Machine
end

section
/-! Link loss, void frames and the counts of a port (06 R204, R207; 07 R233, R240-R243, R248) -/
namespace Sys2Proof.Machine
open Sys2Proof

/-- A void frame taken up: counted, and recorded in its window. -/
theorem State.upVoid_acts {u : State} {p : Fin 64} (on : (vget u.kl p).receives = true) :
    (vget (u.upVoid p).kl p).upCrc = satAdd 16 (vget u.kl p).upCrc 1 ∧ (vget (u.upVoid p).kl p).st = (vget u.kl p).st ∧
      (vget (u.upVoid p).kl p).lastUp = (vget u.kl p).lastUp ∧ LinkOnly u (u.upVoid p) := by
  unfold State.upVoid
  rw [if_neg (by rw [on]; decide)]
  refine ⟨?_, ?_, ?_, LinkOnly.trans (t := u.modKl p _) rfl (State.klRecord_link _ _ _ _ _ _)⟩
  · refine (State.klRecord_seen KlPort.upCrc ?_ _ p _ _ _).trans ?_
    · exact fun _ _ => rfl
    · rw [State.modKl_kl, vget_vmod_fin]
  · refine (State.klRecord_seen KlPort.st ?_ _ p _ _ _).trans ?_
    · exact fun _ _ => rfl
    · rw [State.modKl_kl, vget_vmod_fin]
  · refine (State.klRecord_seen KlPort.lastUp ?_ _ p _ _ _).trans ?_
    · exact fun _ _ => rfl
    · rw [State.modKl_kl, vget_vmod_fin]

/-- The end of a window with more records than the first. -/
theorem State.klWindowEnd_counts {s : State} {p : Fin 64} {code a n : Nat} (put : KlPort → Window → KlPort) (hn : n ≠ 0)
    (due : a + qMs ≤ s.now) : s.klWindowEnd p code { since := some a, more := n } put =
      (s.modKl p (fun k => put k {})).postUnit p (s.ev 2 code p (s.segOf p) (wd n) 0x400) := by
  have more : (n != 0) = true := by simpa using hn
  unfold State.klWindowEnd
  dsimp only
  rw [if_neg (Nat.not_lt.2 due), more, State.when_true]
  rfl

theorem State.klWindowEnd_idle (s : State) (p code : Nat) (put : KlPort → Window → KlPort) : s.klWindowEnd p code {} put = s := rfl

theorem State.linkLost_lost {u : State} {p : Fin 64} {a : Nat} (up : (vget u.kl p).lastUp = some a)
    (due : a + u.klLOSTO p * qUs + u.heldFrom a ≤ u.now) (ready : (vget u.kl p).st = .ready) :
    u.linkLost p = (u.hregLost p).portFault p 5 := by
  simp only [State.linkLost, up, ready, State.due_eq_true due, beq_self_eq_true, Bool.true_or, Bool.and_self, if_true]

/-- A telemetry frame with the head's FAULT ends in the port's FAULT. -/
theorem State.telemetry_fault {u : State} {p : Fin 64} {m : Telem} (ready : (vget u.kl p).st = .ready) (hf : m.fault = true) :
    ∃ v, u.telemetry p m = State.portFault v p 6 := by
  have on : (vget u.kl p).receives = true := by simp [KlPort.receives, ready]
  have both : (m.fault && (vget u.kl p).st == .ready) = true := by simp [hf, ready]
  unfold State.telemetry
  rw [if_neg (by rw [on]; decide)]
  dsimp only
  rw [if_pos both]
  exact ⟨_, rfl⟩

/-- The word that clears FIR's counts. -/
theorem State.wrFirPortCtl_clear {s : State} {p n : Nat} (h : s.holds n p = true) : (s.wrFirPortCtl p n 1).1 =
    s.modFp p (fun f => { f with hotLn := 0, vln := 0, rowOvr := 0, bandChg := 0 }) := by
  unfold State.wrFirPortCtl State.ifRight
  rw [if_pos h]
  rfl

theorem State.wrFirPortCtl_refused {s : State} {p n : Nat} (h : s.holds n p = false) (v : Word) :
    (s.wrFirPortCtl p n v).1 = s.postErr n 0x0102 p := by
  unfold State.wrFirPortCtl State.ifRight
  rw [if_neg (by rw [h]; decide)]
  rfl

theorem State.wrKlPortCtl_refused {s : State} {p n : Nat} (h : s.holds n p = false) (v : Word) :
    (s.wrKlPortCtl p n v).1 = s.postErr n 0x0102 p := by
  unfold State.wrKlPortCtl State.klHolder State.ifRight
  rw [if_neg (by rw [h]; decide)]
  rfl

/-- Settles O33: a loss ends in `portFault`, whose last act is that the swath quits the port. -/
theorem linkLossAndVoidFrames : Obligations.LinkLossAndVoidFrames := by
  constructor
  · intro e p s u k hu hk
    refine ⟨fun a up due ready => ?_, fun rx m hx ready hf => ?_, fun rx on hx => ?_, fun rx on hx => ?_,
      fun a miss up down due => ?_⟩
    · rw [hk] at up ready
      obtain ⟨b, c, lost⟩ := u.hregLost_kl p
      have ready' : (vget (u.hregLost p).kl p).st = .ready := by rw [lost, ready]
      have eq : exec (.linkLost e p) s = .next ((u.hregLost p).portFault p 5) := by
        rw [exec_linkLost, execLinkLost, ← hu, State.linkLost_lost up due ready]
      have only := (u.hregLost_port p).trans (State.portFault_port _ p 5)
      refine ⟨_, eq, ?_, ?_, ?_, State.portFault_push _ p 5, fun q sw live => ?_, fun r h => ⟨only.kl r h, only.fp r h⟩⟩
      · rw [State.portFault_kl]
      · rw [State.portFault_kl]
      · rw [State.portFault_kl, (u.hregLost_port p).now]
      · exact State.portFault_excluded ready' 5 (by rwa [State.hregLost_seq]) (by rwa [State.hregLost_seq])
    · rw [hk] at ready
      have on : (vget u.kl p).receives = true := by simp [KlPort.receives, ready]
      obtain ⟨v, ends⟩ := State.telemetry_fault ready hf
      have eq : exec (.telemetryFrame e p rx) s = .next (v.portFault p 6) := by
        rw [exec_telemetryFrame, execTelemetryFrame, ← hu, State.upSymbols, if_neg (by rw [on]; decide), hx]
        exact congrArg Host.Outcome.next ends
      refine ⟨_, eq, ?_, ?_⟩
      · rw [State.portFault_kl]
      · rw [State.portFault_kl]
    · rw [hk] at on ⊢
      have eq : exec (.upstreamVoid e p rx) s = .next (u.upVoid p) := by
        rw [exec_upstreamVoid, execUpstreamVoid, ← hu, State.upSymbols, if_neg (by rw [on]; decide), hx]
      obtain ⟨crc, st, last, only⟩ := State.upVoid_acts on
      exact ⟨_, eq, crc, st, last, only.fp, only.head⟩
    · rw [hk] at on
      rw [exec_upstreamVoid, execUpstreamVoid, ← hu, State.upSymbols, if_neg (by rw [on]; decide), hx, hk]
      exact congrArg Host.Outcome.next (State.modKl_congr _ _ rfl)
    · subst hk
      rw [exec_missWindowEnd, execMissWindowEnd, ← hu, State.missWindowEnd]
      rw [miss, up, down, State.klWindowEnd_counts _ (by decide) due, State.klWindowEnd_idle, State.klWindowEnd_idle]
      refine congrArg (fun x : State => Host.Outcome.next (x.postUnit p (u.ev 2 0x0602 p (u.segOf p) (wd 2) 0x400))) ?_
      exact State.modKl_congr _ _ (by rw [up, down])
  · intro e w p s u n hu hr hw
    refine ⟨fun held => ?_, fun held ha => ?_, fun held => ?_, fun held ha => ?_⟩
    · rw [exec_firClrcnt, execFirClrcnt, ← hu, State.asWriter_of_ready hr hw, State.wrFirPortCtl_clear held]
    · rw [exec_klClrcnt, execKlClrcnt, ← hu, State.asWriter_of_auth hr hw ha, State.wrKlPortCtl_clear held]
      rfl
    · rw [exec_firClrcnt, execFirClrcnt, ← hu, State.asWriter_of_ready hr hw, State.wrFirPortCtl_refused held]
    · rw [exec_klClrcnt, execKlClrcnt, ← hu, State.asWriter_of_auth hr hw ha, State.wrKlPortCtl_refused held]

end Sys2Proof.Machine
end

section
/-! A host's access to a head's registers (07 R231, R244, R245, R250) -/
namespace Sys2Proof.Machine
open Sys2Proof

/-! ## The word of KL.HREGCMD -/

section
variable {ad len : Nat} (had : ad < 2 ^ 24) (wr : Bool) (hlen : len < 2 ^ 7)
include had hlen

theorem hregWord_toNat : (fields [(0, 24, ad), (24, 1, b1 wr), (32, 7, len)] : Word).toNat = ad + b1 wr * 2 ^ 24 + len * 2 ^ 32 := by
  have hw := b1_le wr
  have h1 : b1 wr % 2 ^ 1 = b1 wr := Nat.mod_eq_of_lt (by omega)
  rw [fields_three, Nat.mod_eq_of_lt had, Nat.mod_eq_of_lt hlen, h1]
  omega

theorem hregWord_addr : bits (fields [(0, 24, ad), (24, 1, b1 wr), (32, 7, len)]) 23 0 = ad := by
  rw [bits, bitsN, hregWord_toNat had wr hlen]
  omega

theorem hregWord_len : bits (fields [(0, 24, ad), (24, 1, b1 wr), (32, 7, len)]) 38 32 = len := by
  have hw := b1_le wr
  rw [bits, bitsN, hregWord_toNat had wr hlen]
  omega

theorem hregWord_write : bit (fields [(0, 24, ad), (24, 1, b1 wr), (32, 7, len)]) 24 = wr := by
  rw [bit, hregWord_toNat had wr hlen, Nat.testBit_eq_decide_div_mod_eq]
  cases wr <;> simp only [b1] <;> simp <;> omega

end

/-- KL.HREGCMD written by the holder of the port. -/
theorem State.wrHregCmd_held {s : State} {p n : Nat} (held : s.holds n p = true) (ad : BitVec 24) (wr : Bool) (len : Fin 128) :
    s.wrHregCmd p n (fields [(0, 24, ad.toNat), (24, 1, b1 wr), (32, 7, len)]) = s.hregCmd p n ad.toNat wr len := by
  unfold State.wrHregCmd State.klHolder State.ifRight
  rw [if_pos held, hregWord_addr ad.isLt wr len.isLt, hregWord_len ad.isLt wr len.isLt, hregWord_write ad.isLt wr len.isLt]

/-- The frame that an access sends. -/
def HeadAcc.frame (a : HeadAcc) : DownItem :=
  .ctl { op := if a.write then .hwrite else .hread, id := a.id, addr := a.addr, len := a.len, data := a.data }

/-! ## One lemma for each step of an access -/

section
variable {u : State} {p : Fin 64}

theorem State.hregCmd_refused {n ad len : Nat} {wr : Bool} (h : (vget u.kl p).hbusy = true ∨ (vget u.kl p).st ≠ .ready ∨
    (wr = true ∧ u.inSwath p = true)) : (u.hregCmd p n ad wr len).1 = u.postErr n 0x0609 p := by
  have no : ((vget u.kl p).hbusy || (vget u.kl p).st != .ready || (wr && u.inSwath p)) = true := by
    rcases h with h | h | ⟨h, k⟩
    · simp [h]
    · simp [h]
    · simp [h, k]
  unfold State.hregCmd
  dsimp only
  rw [if_pos no]
  rfl

theorem State.hregCmd_waits {n ad len : Nat} {wr : Bool} (busy : (vget u.kl p).hbusy = false) (st : (vget u.kl p).st = .ready)
    (may : wr = true → u.inSwath p = false ∧ 0x10000 ≤ ad) (some_ : len ≠ 0) (few : len ≤ 64) (al : ad % 4 = 0) :
    (u.hregCmd p n ad wr len).1 = u.modKl p (fun k => { k with
      hbusy := true, hdone := false, nextId := (k.nextId + 1) % 256,
      acc := some { addr := ad, write := wr, len := len, id := k.nextId,
                    data := if wr then k.hdat.take (4 * len) else [] } }) := by
  have go : ((vget u.kl p).hbusy || (vget u.kl p).st != .ready || (wr && u.inSwath p)) = false := by
    cases wr
    · simp [busy, st]
    · simp [busy, st, (may rfl).1]
  have good : (len = 0 || 64 < len || ad % 4 ≠ 0 || (wr && ad < 0x10000)) = false := by
    have some' : decide (len = 0) = false := decide_eq_false some_
    have few' : decide (64 < len) = false := decide_eq_false (by omega)
    cases wr
    · simp [some_, few, al]
    · simp [some_, few, al, (may rfl).2]
  unfold State.hregCmd
  dsimp only
  rw [if_neg (by rw [go]; decide), if_neg (by rw [good]; decide)]

theorem State.modKl_laneFree (s : State) (f : KlPort → KlPort) (hl : ∀ k, (f k).lane = k.lane) (hb : ∀ k, (f k).busyTo = k.busyTo) :
    (s.modKl p f).laneFree p = s.laneFree p := by
  unfold State.laneFree
  dsimp only
  rw [State.modKl_kl, vget_vmod_fin, hl, hb]
  rfl

theorem State.ctlFrameSend_sends {a : HeadAcc} (acc : (vget u.kl p).acc = some a) (waits : a.sentAt = none)
    (st : (vget u.kl p).st = .ready) (fits : u.gapFits p (14 + a.data.length) = true) (idle : (vget u.fp p).push = none) :
    u.ctlFrameSend p = (u.sendFrame p a.frame).modKl p (fun k => { k with
      slotLast := 1, acc := some { a with sentAt := some ((u.sendFrame p a.frame).laneFree p) } }) := by
  have on : u.ctlReady p = true := by simp [State.ctlReady, acc, waits, st, fits]
  simp only [State.ctlFrameSend, acc, idle, on, Bool.not_true, Bool.false_and, Bool.or_self, Bool.false_eq_true, if_false]
  rfl

theorem State.respFrame_host {a : HeadAcc} {r : Resp} (st : (vget u.kl p).st = .ready) (acc : (vget u.kl p).acc = some a)
    (host : a.host = true) (sent : a.sentAt.isSome = true) (id : r.id = a.id) (wr : r.write = a.write) (ad : r.addr = a.addr)
    (ok : r.status = 0) : u.respFrame p r = u.modKl p (fun k => { k with
      up := if k.up.contains (.resp r) then (k.up.dropWhile (· != .resp r)).tail else k.up, lastUp := some u.now, acc := none,
      hbusy := false, hdone := true, hstatus := 0,
      hdat := if a.write then k.hdat else padTo (4 * a.len) r.data ++ k.hdat.drop (4 * a.len) }) := by
  have on : (vget u.kl p).receives = true := by simp [KlPort.receives, st]
  have waits : a.sentAt.isNone = false := by simpa [Option.isSome_iff_ne_none, Option.isNone_iff_eq_none] using sent
  have eq : u.respFrame p r = ((u.upFrame p (.resp r)).modKl p (fun k => { k with acc := none })).modKl p (fun k => { k with
      hbusy := false, hdone := true, hstatus := 0,
      hdat := if !a.write then padTo (4 * a.len) r.data ++ k.hdat.drop (4 * a.len) else k.hdat }) := by
    simp [State.respFrame, on, acc, host, waits, id, wr, ad, ok]
  rw [eq, State.upFrame, State.modKl_modKl, State.modKl_modKl]
  cases a.write <;> rfl

theorem State.respTimeout_lost {a : HeadAcc} {b : Nat} (acc : (vget u.kl p).acc = some a) (host : a.host = true)
    (sent : a.sentAt = some b) (due : b + 50 * qUs + u.heldFrom b ≤ u.now) : u.respTimeout p =
      (u.modKl p (fun k => { k with acc := none, hbusy := false, hstatus := 0xFF })).postUnit p
        (u.ev 2 0x060B p (u.segOf p) (wd 0xFF)) := by
  have eq : u.respTimeout p = u.hregLost p := by
    simp only [State.respTimeout, acc, sent, host, State.due_eq_true due, Bool.and_self, if_true]
  rw [eq, State.hregLost, acc]
  simp only [host, if_true]
  rw [State.modKl_modKl]
  rfl

end

/-- Settles O34. -/
theorem headRegisterAccess : Obligations.HeadRegisterAccess := by
  intro e w p s u n k a hu hk
  refine ⟨fun ad wr len hr hw held busy st may some_ few al => ?_, fun ad wr len hr hw held no => ?_,
    fun acc waits st fits idle => ?_, fun rx r hx st acc host sent id wr ad ok => ?_, fun b acc host sent due => ?_⟩
  · rw [hk] at busy st
    have some' : len.val ≠ 0 := fun h => some_ (Fin.ext h)
    rw [exec_hregAccess, execHregAccess, ← hu, State.asWriter_of_ready hr hw, State.wrHregCmd_held held,
      State.hregCmd_waits busy st may some' few al, hk]
    exact congrArg Host.Outcome.next (State.modKl_congr _ _ rfl)
  · rw [hk] at no
    rw [exec_hregAccess, execHregAccess, ← hu, State.asWriter_of_ready hr hw, State.wrHregCmd_held held, State.hregCmd_refused no]
  · rw [hk] at acc st ⊢
    have sends := State.ctlFrameSend_sends acc waits st fits idle
    obtain ⟨i, placed⟩ := u.sendFrame_eq p a.frame
    generalize hv : u.sendFrame p a.frame = v at sends placed
    refine ⟨u.ctlFrameSend p, by rw [exec_controlFrameSend, execControlFrameSend, ← hu], ?_⟩
    rw [sends]
    refine ⟨?_, ?_, ?_, ?_, ?_⟩
    · have free := State.modKl_laneFree (p := p) v (fun k => { k with
        slotLast := 1, acc := some { a with sentAt := some (v.laneFree p) } }) (fun _ => rfl) (fun _ => rfl)
      rw [free, State.modKl_kl, vget_vmod_fin]
    · rw [State.modKl_kl, vget_vmod_fin]
    · rw [placed, State.modKl_modKl, State.modKl_kl, vget_vmod_fin]
    · rw [placed, State.modKl_modKl, State.modKl_kl]
      exact vmod_eq_vset u.kl p _
    · rw [placed]
      rfl
  · have on : (vget u.kl p).receives = true := by simp [KlPort.receives, ← hk, st]
    rw [hk] at acc st
    rw [exec_responseFrame, execResponseFrame, ← hu, State.upSymbols, if_neg (by rw [on]; decide), hx, hk]
    refine congrArg Host.Outcome.next ((State.respFrame_host st acc host sent id wr ad ok).trans ?_)
    exact State.modKl_congr _ _ rfl
  · rw [hk] at acc
    rw [exec_responseTimeout, execResponseTimeout, ← hu, State.respTimeout_lost acc host sent due, hk]
    refine congrArg (fun x : State => Host.Outcome.next (x.postUnit p _)) (State.modKl_congr _ _ rfl)

end Sys2Proof.Machine
end

section
/-! Link tests and the lane calibration of a port (07 R238, R239, R242, R248, R249) -/
namespace Sys2Proof.Machine
open Sys2Proof

/-! ## The word of KL.PRBS -/

theorem prbsWord_toNat (pat : Fin 4) (inv : Bool) :
    (fields [(0, 1, 1), (1, 2, pat.val), (3, 1, b1 inv)] : Word).toNat = 1 + 2 * pat.val + 8 * b1 inv := by
  have hw := b1_le inv
  rw [fields_three]
  omega

theorem prbsWord_run (pat : Fin 4) (inv : Bool) : bit (fields [(0, 1, 1), (1, 2, pat.val), (3, 1, b1 inv)]) 0 = true := by
  rw [bit, prbsWord_toNat, Nat.testBit_eq_decide_div_mod_eq]
  simp
  omega

theorem prbsWord_pat (pat : Fin 4) (inv : Bool) : bits (fields [(0, 1, 1), (1, 2, pat.val), (3, 1, b1 inv)]) 2 1 = pat := by
  rw [bits, bitsN, prbsWord_toNat]
  omega

theorem prbsWord_all (pat : Fin 4) (inv : Bool) :
    bits (fields [(0, 1, 1), (1, 2, pat.val), (3, 1, b1 inv)]) 3 0 = 1 + 2 * pat.val + 8 * b1 inv := by
  have hw := b1_le inv
  rw [bits, bitsN, prbsWord_toNat]
  omega

/-- What KL.PRBS reads after the test began. -/
theorem prbsKept (pat : Fin 4) (inv : Bool) :
    bits (wd ((1 + 2 * pat.val + 8 * b1 inv) % 16)) 2 1 = pat ∧ bit (wd ((1 + 2 * pat.val + 8 * b1 inv) % 16)) 0 = true ∧
      bit (wd ((1 + 2 * pat.val + 8 * b1 inv) % 16)) 3 = inv := by
  revert pat inv
  decide

/-- The pattern is kept by the write that stops a test. -/
theorem prbsStop_word (x : Word) : bits (wd (bits x 3 1 * 2)) 2 1 = bits x 2 1 ∧ bit (wd (bits x 3 1 * 2)) 0 = false := by
  have kept : (wd (bits x 3 1 * 2)).toNat = bits x 3 1 * 2 := by
    simp only [wd, bits, bitsN, BitVec.toNat_ofNat]
    omega
  constructor
  · rw [bits, kept]
    simp only [bits, bitsN]
    omega
  · rw [bit, kept, Nat.testBit_eq_decide_div_mod_eq]
    simp

/-! ## The HWRITE that arms a run -/

theorem State.sendFrom_eq (s : State) (p t : Nat) (it : DownItem) : ∃ i, s.sendFrom p t it = s.modKl p (fun k => { k with
    seqNo := (k.seqNo + 1) % 65536, lane := laneInsert i k.lane }) := ⟨_, rfl⟩

theorem State.prbsArm_port (s : State) (p : Fin 64) (v d t : Nat) : PortOnly p s (s.prbsArm p v d t) :=
  (s.modKl_port p _).trans (State.modKl_port _ p _)

theorem State.prbsArm_fp (s : State) (p v d t : Nat) : (s.prbsArm p v d t).fp = s.fp := rfl

/-- The HWRITE of HD.HCTL that starts a run. -/
def State.prbsWrite (s : State) (p v d : Nat) : DownItem :=
  .ctl { op := .hwrite, id := (vget s.kl p).nextId, addr := 0x18, len := 2, data := toLE 8 (v + d * 256) }

theorem State.prbsArm_eq (s : State) (p v d t : Nat) : s.prbsArm p v d t = (s.sendFrom p t (s.prbsWrite p v d)).modKl p
    (fun k => { k with
      prbsAt := some ((s.sendFrom p t (s.prbsWrite p v d)).laneFree p), nextId := (k.nextId + 1) % 256 }) := rfl

/-- An armed run waits for the end of its HWRITE; the port is otherwise as it was, but for its lane. -/
theorem State.prbsArm_kl (s : State) (p : Fin 64) (v d t : Nat) : ∃ n l i, vget (s.prbsArm p v d t).kl p = { vget s.kl p with
    seqNo := n, lane := l, nextId := i, prbsAt := some ((s.prbsArm p v d t).laneFree p) } := by
  obtain ⟨i, placed⟩ := s.sendFrom_eq p t (s.prbsWrite p v d)
  have free : (s.prbsArm p v d t).laneFree p = (s.sendFrom p t (s.prbsWrite p v d)).laneFree p := by
    rw [State.prbsArm_eq]
    exact State.modKl_laneFree _ _ (fun _ => rfl) (fun _ => rfl)
  rw [free, State.prbsArm_eq]
  generalize (s.sendFrom p t (s.prbsWrite p v d)).laneFree p = x
  rw [placed, State.modKl_modKl, State.modKl_kl, vget_vmod_fin]
  exact ⟨_, _, _, rfl⟩

/-! ## Tests -/

section
variable {u : State} {p : Fin 64} {n : Nat}

theorem State.prbsBegin_port (s : State) (p : Fin 64) (v : Nat) : PortOnly p s (s.prbsBegin p v) :=
  ((s.leaveReady_port p .test).trans (State.modKl_port _ p _)).trans (State.prbsArm_port _ p _ _ _)

theorem State.prbsBegin_kl (s : State) (p : Fin 64) (v : Nat) : (vget (s.prbsBegin p v).kl p).st = .test ∧
    (vget (s.prbsBegin p v).kl p).prbs = wd (v % 16) ∧
    (vget (s.prbsBegin p v).kl p).prbsAt = some ((s.prbsBegin p v).laneFree p) ∧
    (vget (s.prbsBegin p v).kl p).prbsSince = none := by
  unfold State.prbsBegin
  dsimp only
  generalize hv : State.modKl (s.leaveReady p .test) p _ = x
  have kl : (vget x.kl p).st = .test ∧ (vget x.kl p).prbs = wd (v % 16) ∧ (vget x.kl p).prbsSince = none := by
    rw [← hv, State.modKl_kl, vget_vmod_fin, State.leaveReady_kl]
    exact ⟨rfl, rfl, rfl⟩
  obtain ⟨st, prbs, since⟩ := kl
  obtain ⟨n, l, i, armed⟩ := x.prbsArm_kl p (v % 16) 250 x.now
  rw [armed]
  exact ⟨st, prbs, rfl, since⟩

/-- KL.PRBS written by the holder of the port. -/
theorem State.wrPrbs_held (held : u.holds n p = true) (v : Word) : u.wrPrbs p n v =
    if bit v 0 && ((vget u.kl p).st != .ready || u.inSwath p) then u.refuse n 0x0609 p
    else if !(vget u.kl p).patOk (bits v 2 1) then u.refuse n 0x060C p
    else if bit v 0 then (u.prbsBegin p (bits v 3 0), 0)
    else
      let s := u.modKl p (fun k => { k with prbs := wd (bits v 3 0), prbsAt := none, prbsSince := none })
      (if (vget u.kl p).st == .test then s.wake p else s, 0) := by
  unfold State.wrPrbs State.klHolder State.ifRight
  rw [if_pos held]

theorem State.wrPrbs_busy (held : u.holds n p = true) (busy : (vget u.kl p).st ≠ .ready ∨ u.inSwath p = true) (pat : Fin 4)
    (inv : Bool) : (u.wrPrbs p n (fields [(0, 1, 1), (1, 2, pat.val), (3, 1, b1 inv)])).1 = u.postErr n 0x0609 p := by
  have no : ((vget u.kl p).st != .ready || u.inSwath p) = true := by
    rcases busy with h | h <;> simp [h]
  rw [State.wrPrbs_held held, if_pos (by rw [prbsWord_run, no]; rfl)]
  rfl

section
variable (held : u.holds n p = true) (st : (vget u.kl p).st = .ready) (free : u.inSwath p = false) (pat : Fin 4) (inv : Bool)
include held st free

theorem State.wrPrbs_pattern (bad : (vget u.kl p).patOk pat = false) :
    (u.wrPrbs p n (fields [(0, 1, 1), (1, 2, pat.val), (3, 1, b1 inv)])).1 = u.postErr n 0x060C p := by
  rw [State.wrPrbs_held held, if_neg (by simp [st, free]), if_pos (by rw [prbsWord_pat, bad]; rfl)]
  rfl

theorem State.wrPrbs_begins (good : (vget u.kl p).patOk pat = true) :
    (u.wrPrbs p n (fields [(0, 1, 1), (1, 2, pat.val), (3, 1, b1 inv)])).1 = u.prbsBegin p (1 + 2 * pat.val + 8 * b1 inv) := by
  rw [State.wrPrbs_held held, if_neg (by simp [st, free]), if_neg (by rw [prbsWord_pat, good]; decide),
    if_pos (prbsWord_run pat inv), prbsWord_all]

end

theorem State.wrPrbs_stops (held : u.holds n p = true) (st : (vget u.kl p).st = .test)
    (good : (vget u.kl p).patOk (bits (vget u.kl p).prbs 2 1) = true) :
    ∃ v : State, (u.wrPrbs p n (wd (bits (vget u.kl p).prbs 3 1 * 2))).1 = v.wake p := by
  obtain ⟨kept, off⟩ := prbsStop_word (vget u.kl p).prbs
  rw [State.wrPrbs_held held, if_neg (by simp [off]), if_neg (by rw [kept, good]; decide),
    if_neg (by rw [off]; decide)]
  dsimp only
  rw [if_pos (by rw [st]; rfl)]
  exact ⟨_, rfl⟩

theorem State.prbsRunStart_runs {a : Nat} (st : (vget u.kl p).st = .test ∨ (vget u.kl p).st = .cal)
    (at_ : (vget u.kl p).prbsAt = some a) (due : a + 2 * qUs + u.heldFrom a ≤ u.now) :
    u.prbsRunStart p = u.modKl p (fun k => { k with prbsAt := none, prbsSince := some u.now }) := by
  have on : ((vget u.kl p).st == .test || (vget u.kl p).st == .cal) = true := by
    rcases st with h | h <;> simp [h]
  simp only [State.prbsRunStart, at_, on, State.due_eq_true due, Bool.and_self, if_true]

/-! ## The end of a run -/

/-- A run over at both ends: the head's errors are asked for. -/
def State.prbsOver (s : State) (p : Nat) (y : Checker) : State :=
  ((s.modHead p (fun _ => (vget s.head p).prbsDone y)).modKl p (fun k => { k with
    prbsSince := none, nextId := (k.nextId + 1) % 256,
    acc := some { addr := 0x20, len := 2, id := k.nextId, sentAt := some (s.now + 5 * qUs), host := false } })).sendFrom p
      (s.now + 5 * qUs) (.ctl { op := .hread, id := (vget s.kl p).nextId, addr := 0x20, len := 2 })

theorem State.prbsOver_kl (s : State) (p : Fin 64) (y : Checker) : ∃ m l i, vget (s.prbsOver p y).kl p = { vget s.kl p with
    seqNo := m, lane := l, nextId := i, prbsSince := none,
    acc := some { addr := 0x20, len := 2, id := (vget s.kl p).nextId, sentAt := some (s.now + 5 * qUs), host := false } } := by
  unfold State.prbsOver
  obtain ⟨i, placed⟩ := State.sendFrom_eq ((s.modHead p (fun _ => (vget s.head p).prbsDone y)).modKl p (fun k => { k with
    prbsSince := none, nextId := (k.nextId + 1) % 256,
    acc := some { addr := 0x20, len := 2, id := k.nextId, sentAt := some (s.now + 5 * qUs), host := false } })) p
      (s.now + 5 * qUs) (.ctl { op := .hread, id := (vget s.kl p).nextId, addr := 0x20, len := 2 })
  rw [placed, State.modKl_modKl, State.modKl_kl, vget_vmod_fin]
  exact ⟨_, _, _, rfl⟩

theorem State.prbsOver_head (s : State) (p : Nat) (y : Checker) :
    (s.prbsOver p y).head = vmod s.head p (fun _ => (vget s.head p).prbsDone y) := rfl

theorem State.prbsOver_ne {p r : Fin 64} (s : State) (y : Checker) (h : r ≠ p) : vget (s.prbsOver p y).kl r = vget s.kl r := by
  have only : PortOnly p (s.modHead p (fun _ => (vget s.head p).prbsDone y)) (s.prbsOver p y) :=
    (State.modKl_port _ p _).trans (State.modKl_port _ p _)
  exact only.kl r h

/-- What the end of a run leaves to the port alone. -/
theorem State.prbsOver_frame {y : Checker} {t : State} (only : PortOnly p (u.prbsOver p y) t) :
    vget t.head p = (vget u.head p).prbsDone y ∧
      ∀ r : Fin 64, r ≠ p → vget t.kl r = vget u.kl r ∧ vget t.head r = vget u.head r := by
  refine ⟨?_, fun r h => ⟨?_, ?_⟩⟩
  · rw [only.head, State.prbsOver_head, vget_vmod_fin]
  · rw [only.kl r h]
    exact u.prbsOver_ne y h
  · rw [only.head, State.prbsOver_head, vget_vmod_ne _ _ _ _ fun e => h (Fin.ext e.symm)]

section
variable {a us : Nat} {fu fd : List Nat} {x y : Checker} (since : (vget u.kl p).prbsSince = some a)
  (due : a + us * qUs + u.heldFrom a ≤ u.now)
include since due

theorem State.prbsRunEnd_test (st : (vget u.kl p).st = .test) (hus : us = 250)
    (hx : x = prbsRun (bits (vget u.kl p).prbs 2 1) (3125 * us) fu)
    (hy : y = prbsRun (bits (vget u.kl p).prbs 2 1) (12500 * us) fd) :
    ∃ t, u.prbsRunEnd p fu fd = ((u.prbsOver p y).modKl p (fun k => { k with
      upErr := satAdd 32 k.upErr x.errs, lockUp := x.locked })).prbsArm p (bits (vget u.kl p).prbs 3 0) 250 t := by
  have dur : (vget u.kl p).prbsDur = us := by rw [KlPort.prbsDur, st, hus]; rfl
  have pat : (if (vget u.kl p).st == .cal then 3 else bits (vget u.kl p).prbs 2 1) = bits (vget u.kl p).prbs 2 1 := by
    rw [st]; rfl
  unfold State.prbsRunEnd
  dsimp only
  simp only [since]
  rw [dur, pat, ← hx, ← hy, if_neg (by rw [st, State.due_eq_true due]; decide), if_pos (by rw [st]; rfl)]
  exact ⟨_, rfl⟩

/-- A calibration's run: its result is kept, and the next run is armed while a preset is left. -/
theorem State.prbsRunEnd_cal (st : (vget u.kl p).st = .cal) (hus : us = 40) (hx : x = prbsRun 3 (3125 * us) fu)
    (hy : y = prbsRun 3 (12500 * us) fd) : ∃ z : CalRes, ∃ t, z.upOk = (x.lockAt.isSome && x.errs == 0) ∧
      u.prbsRunEnd p fu fd = if (vget u.kl p).calRes.length < 2 then
          ((u.prbsOver p y).modKl p (fun k => { k with calRes := k.calRes ++ [z] })).prbsArm p 7 40 t
        else (u.prbsOver p y).modKl p (fun k => { k with calRes := k.calRes ++ [z] }) := by
  have dur : (vget u.kl p).prbsDur = us := by rw [KlPort.prbsDur, st, hus]; rfl
  have pat : (if (vget u.kl p).st == .cal then 3 else bits (vget u.kl p).prbs 2 1) = 3 := by
    rw [st]; rfl
  unfold State.prbsRunEnd
  dsimp only
  simp only [since]
  rw [dur, pat, ← hx, ← hy, if_neg (by rw [st, State.due_eq_true due]; decide), if_neg (by rw [st]; decide)]
  exact ⟨_, _, rfl, rfl⟩

end

theorem State.eyeSweep_due (st : (vget u.kl p).st = .ready)
    (due : max (vget u.kl p).since (vget u.kl p).eyeAt + qMs + u.heldFrom (max (vget u.kl p).since (vget u.kl p).eyeAt) ≤ u.now)
    (w h : Nat) : u.eyeSweep p w h =
      u.modKl p (fun k => { k with eye := fields [(0, 7, w), (7, 1, 1), (8, 8, h)], eyeAt := u.now }) := by
  have on : u.inService p = true := by simp [State.inService, st]
  unfold State.eyeSweep
  dsimp only
  rw [if_pos (by rw [on, State.due_eq_true due]; rfl)]

theorem State.eyeSweep_idle (no : (vget u.kl p).st ≠ .ready ∨ u.now < max (vget u.kl p).since (vget u.kl p).eyeAt + qMs)
    (w h : Nat) : u.eyeSweep p w h = u := by
  have off : (u.inService p && u.due (max (vget u.kl p).since (vget u.kl p).eyeAt) qMs) = false := by
    rcases no with h | h
    · simp [State.inService, h]
    · have late : u.due (max (vget u.kl p).since (vget u.kl p).eyeAt) qMs = false := decide_eq_false (by omega)
      rw [late, Bool.and_false]
  unfold State.eyeSweep
  dsimp only
  rw [if_neg (by rw [off]; decide)]

/-! ## Calibration -/

theorem State.wrKlPortCtl_cal (held : u.holds n p = true) (ok : u.calOk p = true) : (u.wrKlPortCtl p n 4).1 = u.calBegin p := by
  have eq : (u.wrKlPortCtl p n 4) = if u.calOk p then (u.calBegin p, 0) else u.refuse n 0x0609 p := by
    unfold State.wrKlPortCtl State.klHolder State.ifRight
    rw [if_pos held]
    rfl
  rw [eq, if_pos ok]

theorem State.wrKlPortCtl_noCal (held : u.holds n p = true) (ok : u.calOk p = false) :
    (u.wrKlPortCtl p n 4).1 = u.postErr n 0x0609 p := by
  have eq : (u.wrKlPortCtl p n 4) = if u.calOk p then (u.calBegin p, 0) else u.refuse n 0x0609 p := by
    unfold State.wrKlPortCtl State.klHolder State.ifRight
    rw [if_pos held]
    rfl
  rw [eq, if_neg (by rw [ok]; decide)]
  rfl

/-- The port out of service with DROP sent, before the first run is armed. -/
def State.calOut (s : State) (p : Nat) : State :=
  ((s.leaveReady p .cal).sendFrame p (.ctl { op := .drop })).modKl p (fun k => { k with
    calRes := [], prbsSince := none, acc := none })

theorem State.calBegin_eq (s : State) (p : Nat) : s.calBegin p = (s.calOut p).prbsArm p 7 40 (s.calOut p).now := rfl

theorem State.calBegin_port (s : State) (p : Fin 64) : PortOnly p s (s.calBegin p) :=
  (((s.leaveReady_port p .cal).trans (State.sendFrame_port _ p _)).trans (State.modKl_port _ p _)).trans
    (State.prbsArm_port _ p _ _ _)

theorem State.calBegin_kl (s : State) (p : Fin 64) : (vget (s.calBegin p).kl p).st = .cal ∧
    (vget (s.calBegin p).kl p).since = s.now ∧ (vget (s.calBegin p).kl p).calRes = [] ∧
    (vget (s.calBegin p).kl p).prbsAt = some ((s.calBegin p).laneFree p) := by
  obtain ⟨i, placed⟩ := (s.leaveReady p .cal).sendFrame_eq p (.ctl { op := .drop })
  have kl : (vget (s.calOut p).kl p).st = .cal ∧ (vget (s.calOut p).kl p).since = s.now ∧
      (vget (s.calOut p).kl p).calRes = [] := by
    rw [State.calOut, placed, State.modKl_modKl, State.modKl_kl, vget_vmod_fin, State.leaveReady_kl]
    exact ⟨rfl, rfl, rfl⟩
  obtain ⟨st, since, res⟩ := kl
  rw [State.calBegin_eq]
  obtain ⟨n, l, i, armed⟩ := (s.calOut p).prbsArm_kl p 7 40 (s.calOut p).now
  rw [armed]
  exact ⟨st, since, res, rfl⟩

theorem State.calBegin_push (s : State) (p : Fin 64) : (vget (s.calBegin p).fp p).push = none := by
  rw [State.calBegin_eq, State.prbsArm_fp, State.calOut, State.modKl_fp]
  obtain ⟨i, placed⟩ := (s.leaveReady p .cal).sendFrame_eq p (.ctl { op := .drop })
  rw [placed, State.modKl_fp]
  exact s.leaveReady_push p .cal

/-- The head's answer about a test's run. -/
theorem State.respFrame_prbs {a : HeadAcc} {r : Resp} (st : (vget u.kl p).st = .test) (idle : (vget u.kl p).prbsSince = none)
    (acc : (vget u.kl p).acc = some a) (mine : a.host = false) (sent : a.sentAt.isSome = true) (id : r.id = a.id)
    (wr : r.write = a.write) (ad : r.addr = a.addr) (ok : r.status = 0) :
    u.respFrame p r = ((u.upFrame p (.resp r)).modKl p (fun k => { k with acc := none })).prbsAnswer p r.data := by
  have on : (vget u.kl p).receives = true := by simp [KlPort.receives, st, idle]
  have waits : a.sentAt.isNone = false := by simpa [Option.isSome_iff_ne_none, Option.isNone_iff_eq_none] using sent
  simp [State.respFrame, on, acc, mine, waits, id, wr, ad, ok, st]

theorem State.prbsAnswer_test (st : (vget u.kl p).st = .test) (d : List Byte) :
    vget (u.prbsAnswer p d).kl p = { vget u.kl p with
      downBits := satAdd 32 (vget u.kl p).downBits (leAt d 0 4), lockDn := (leAt d 4 4).testBit 0 } := by
  rw [State.prbsAnswer, State.modKl_kl, vget_vmod_fin, if_pos (by rw [st]; rfl)]

end

/-- Settles O35. -/
theorem linkTestsAndCalibration : Obligations.LinkTestsAndCalibration := by
  intro e w p s u n k hu hk
  subst hk
  refine ⟨fun hr hw held => ⟨fun pat inv st free good => ?_, fun pat inv => ⟨fun busy => ?_, fun st free bad => ?_⟩,
    fun st good => ?_, fun ha ok => ?_, fun ha ok => ?_⟩, fun a st at_ due => ?_, fun a pat us fu fd x y since due kind hx hy => ?_,
    fun rx r a hx st idle acc mine sent id wr ad ok => ?_, fun x y => ⟨fun st due => ?_, fun no => ?_⟩⟩
  · have eq : exec (.prbsStart e w p pat inv) s = .next (u.prbsBegin p (1 + 2 * pat.val + 8 * b1 inv)) := by
      rw [exec_prbsStart, execPrbsStart, ← hu, State.asWriter_of_ready hr hw, State.wrPrbs_begins held st free pat inv good]
    obtain ⟨hst, prbs, at_, since⟩ := u.prbsBegin_kl p (1 + 2 * pat.val + 8 * b1 inv)
    obtain ⟨kept, on, neg⟩ := prbsKept pat inv
    exact ⟨_, eq, hst, by rw [prbs, kept], by rw [prbs, on], by rw [prbs, neg], at_, since, (u.prbsBegin_port p _).kl⟩
  · rw [exec_prbsStart, execPrbsStart, ← hu, State.asWriter_of_ready hr hw, State.wrPrbs_busy held busy]
  · rw [exec_prbsStart, execPrbsStart, ← hu, State.asWriter_of_ready hr hw, State.wrPrbs_pattern held st free pat inv bad]
  · obtain ⟨v, stops⟩ := State.wrPrbs_stops held st good
    have eq : exec (.prbsStop e w p) s = .next (v.wake p) := by
      rw [exec_prbsStop, execPrbsStop, ← hu, State.asWriter_of_ready hr hw, stops]
    refine ⟨_, eq, (v.wake_kl p).1, ?_⟩
    unfold State.wake
    rw [State.modKl_kl, vget_vmod_fin]
  · have eq : exec (.portCal e w p) s = .next (u.calBegin p) := by
      rw [exec_portCal, execPortCal, ← hu, State.asWriter_of_auth hr hw ha, State.wrKlPortCtl_cal held ok]
    obtain ⟨st, since, res, at_⟩ := u.calBegin_kl p
    exact ⟨_, eq, st, since, res, at_, u.calBegin_push p, (u.calBegin_port p).kl⟩
  · rw [exec_portCal, execPortCal, ← hu, State.asWriter_of_auth hr hw ha, State.wrKlPortCtl_noCal held ok]
  · rw [exec_prbsRunStart, execPrbsRunStart, ← hu, State.prbsRunStart_runs st at_ due]
    exact congrArg Host.Outcome.next (State.modKl_congr _ _ rfl)
  · obtain ⟨m, l, i, ended⟩ := u.prbsOver_kl p y
    rcases kind with ⟨st, hus, hp⟩ | ⟨st, hus, hp⟩
    · subst hp
      obtain ⟨t, ends⟩ := State.prbsRunEnd_test since due st hus hx hy
      obtain ⟨m', l', i', armed⟩ := State.prbsArm_kl ((u.prbsOver p y).modKl p (fun k => { k with
        upErr := satAdd 32 k.upErr x.errs, lockUp := x.locked })) p (bits (vget u.kl p).prbs 3 0) 250 t
      obtain ⟨head, others⟩ := State.prbsOver_frame ((State.modKl_port (u.prbsOver p y) p (fun k => { k with
        upErr := satAdd 32 k.upErr x.errs, lockUp := x.locked })).trans
          (State.prbsArm_port _ p (bits (vget u.kl p).prbs 3 0) 250 t))
      refine ⟨_, by rw [exec_prbsRunEnd, execPrbsRunEnd, ← hu, ends], ?_⟩
      rw [armed, State.modKl_kl, vget_vmod_fin, ended]
      exact ⟨rfl, rfl, head, rfl, fun _ => ⟨rfl, rfl⟩, fun h => absurd (st.symm.trans h) (by decide), others⟩
    · subst hp
      obtain ⟨z, t, ok, ends⟩ := State.prbsRunEnd_cal since due st hus hx hy
      have kept := State.modKl_port (u.prbsOver p y) p (fun k => { k with calRes := k.calRes ++ [z] })
      refine ⟨_, by rw [exec_prbsRunEnd, execPrbsRunEnd, ← hu, ends], ?_⟩
      split
      · obtain ⟨m', l', i', armed⟩ := State.prbsArm_kl ((u.prbsOver p y).modKl p (fun k => { k with
          calRes := k.calRes ++ [z] })) p 7 40 t
        obtain ⟨head, others⟩ := State.prbsOver_frame (kept.trans (State.prbsArm_port _ p 7 40 t))
        rw [armed, State.modKl_kl, vget_vmod_fin, ended]
        exact ⟨rfl, rfl, head, rfl, fun h => absurd (st.symm.trans h) (by decide), fun _ => ⟨z, rfl, ok⟩, others⟩
      · obtain ⟨head, others⟩ := State.prbsOver_frame kept
        rw [State.modKl_kl, vget_vmod_fin, ended]
        exact ⟨rfl, rfl, head, rfl, fun h => absurd (st.symm.trans h) (by decide), fun _ => ⟨z, rfl, ok⟩, others⟩
  · have on : (vget u.kl p).receives = true := by simp [KlPort.receives, st, idle]
    have eq : exec (.responseFrame e p rx) s =
        .next (((u.upFrame p (.resp r)).modKl p (fun k => { k with acc := none })).prbsAnswer p r.data) := by
      rw [exec_responseFrame, execResponseFrame, ← hu, State.upSymbols, if_neg (by rw [on]; decide), hx]
      exact congrArg Host.Outcome.next (State.respFrame_prbs st idle acc mine sent id wr ad ok)
    have kl : vget ((u.upFrame p (.resp r)).modKl p (fun k => { k with acc := none })).kl p =
        { vget (u.upFrame p (.resp r)).kl p with acc := none } := by rw [State.modKl_kl, vget_vmod_fin]
    have up : vget (u.upFrame p (.resp r)).kl p = { vget u.kl p with
        up := (vget (u.upFrame p (.resp r)).kl p).up, lastUp := (vget (u.upFrame p (.resp r)).kl p).lastUp } := by
      rw [State.upFrame, State.modKl_kl, vget_vmod_fin]
    refine ⟨_, eq, ?_⟩
    rw [State.prbsAnswer_test (by rw [kl, up]; exact st), kl, up]
    exact ⟨rfl, rfl, rfl⟩
  · rw [exec_eyeSweep, execEyeSweep, ← hu, State.eyeSweep_due st due]
    exact congrArg Host.Outcome.next (State.modKl_congr _ _ rfl)
  · rw [exec_eyeSweep, execEyeSweep, ← hu, State.eyeSweep_idle no]

end Sys2Proof.Machine
end

section
/-! What a head does with the symbols and frames of its lane (07 R211-R231) -/
namespace Sys2Proof.Machine
open Sys2Proof

theorem State.modHead_congr (s : State) (p : Nat) {f g : Head → Head} (h : f (vget s.head p) = g (vget s.head p)) :
    s.modHead p f = s.modHead p g := by
  unfold State.modHead
  rw [vmod_congr _ _ h]

theorem State.modHead_modHead (s : State) (p : Nat) (f g : Head → Head) :
    (s.modHead p f).modHead p g = s.modHead p (fun x => g (f x)) := by
  unfold State.modHead
  rw [vmod_vmod]

/-! ## Items off the lane -/

section
variable {u : State} {p : Fin 64} {noise : List (Nat × Nat)} {want : DownItem → Bool} {void : Head → Head}
  {act : State → DownItem → State} {i : LaneItem} {r : Option DownItem × Nat} {h : Head}
  (first : u.laneItem p = some i) (wanted : want i.item = true) (hr : r = u.headRead? p i noise)
  (hh : h = (vget u.head p).bad r.2)
include first wanted hr hh

/-- An unaligned head takes no notice. -/
theorem State.headTake_unaligned (off : h.aligned = false) : u.headTake p noise want void act = u.laneTake p i := by
  have off' : (vget (u.laneTake p i).head p).aligned = false := by rw [hh] at off; exact off
  simp only [State.headTake, first, wanted, off', Bool.not_true, Bool.false_eq_true, if_false, Bool.not_false, if_true]

theorem State.headTake_counted : (u.laneTake p i).modHead p (fun x => x.bad (u.headRead? p i noise).2) =
    (u.laneTake p i).modHead p (fun _ => h) := by
  refine State.modHead_congr _ _ ?_
  rw [hh, hr]
  rfl

theorem State.headTake_valid (on : h.aligned = true) {x : DownItem} (hx : r.1 = some x) :
    u.headTake p noise want void act = act ((u.laneTake p i).modHead p (fun _ => h)) x := by
  have on' : (vget (u.laneTake p i).head p).aligned = true := by rw [hh] at on; exact on
  have counted := State.headTake_counted first wanted hr hh
  rw [hr] at hx
  simp only [State.headTake, first, wanted, on', counted, hx, Bool.not_true, Bool.false_eq_true, if_false]

theorem State.headTake_void (on : h.aligned = true) (hx : r.1 = none) :
    u.headTake p noise want void act = (u.laneTake p i).modHead p (fun _ => void h) := by
  have on' : (vget (u.laneTake p i).head p).aligned = true := by rw [hh] at on; exact on
  have counted := State.headTake_counted first wanted hr hh
  rw [hr] at hx
  simp only [State.headTake, first, wanted, on', counted, hx, Bool.not_true, Bool.false_eq_true, if_false]
  exact State.modHead_modHead _ _ _ _

end

/-- A change of the head after its errors were counted. -/
theorem State.modHead_const (s : State) (p : Nat) (h : Head) (f : Head → Head) :
    (s.modHead p (fun _ => h)).modHead p f = s.modHead p (fun _ => f h) := State.modHead_modHead _ _ _ _

/-! ## Fire symbols -/

section
variable {h : Head} {b : Bool} {t : Nat}

theorem Head.fireSymbol_doubt (d : h.doubt = true) : h.fireSymbol b t = { h with pulses := [] } := by
  unfold Head.fireSymbol
  dsimp only
  rw [if_pos d]

/-- A symbol that is no legal next one. -/
theorem Head.fireSymbol_illegal (d : h.doubt = false)
    (no : (SMap.get h.k 0 t = 0 ∧ t ≠ h.e) ∨ h.rt ≤ SMap.get h.k 0 t ∧ SMap.get h.k 0 t ≠ 0) :
    h.fireSymbol b t = { h with pulses := [], doubt := true, held := [], cur := [] } := by
  have first : (SMap.get h.k 0 t = 0 && t = h.e) = false := by
    rcases no with ⟨-, e⟩ | ⟨-, k⟩ <;> simp [*]
  have later : (0 < SMap.get h.k 0 t && SMap.get h.k 0 t < h.rt) = false := by
    rcases no with ⟨k, -⟩ | ⟨l, -⟩
    · simp [k]
    · simp [Nat.not_lt.2 l]
  unfold Head.fireSymbol
  dsimp only
  rw [if_neg (by rw [d]; decide), if_neg (by simp only [first]; decide), if_neg (by simp only [later]; decide)]
  rfl

theorem Head.countRow_lt {k : Nat} (lt : k < h.rt) : h.countRow t k = { h with k := SMap.put h.k t k } := if_pos lt

/-- A later row trigger of a line in hand. -/
theorem Head.fireSymbol_row {f : LineFrame} (d : h.doubt = false) (some_ : 0 < SMap.get h.k 0 t)
    (more : SMap.get h.k 0 t + 1 < h.rt) (cur : SMap.find h.cur t = some f) : h.fireSymbol false t = { h with
      liveBank := frameBank f, k := SMap.put h.k t (SMap.get h.k 0 t + 1),
      pulses := f.codes.filterMap (fun x => { h with pulses := [] }.pulse f (SMap.get h.k 0 t) x.1 (x.2 % 8)) } := by
  have first : (SMap.get h.k 0 t = 0 && t = h.e) = false := by simp [Nat.ne_of_gt some_]
  have later : (0 < SMap.get h.k 0 t && SMap.get h.k 0 t < h.rt) = true := by simp [some_, Nat.lt_of_succ_lt more]
  have fires : ({ h with pulses := [] } : Head).fireRow t (SMap.get h.k 0 t) = { h with
      liveBank := frameBank f,
      pulses := f.codes.filterMap (fun x => { h with pulses := [] }.pulse f (SMap.get h.k 0 t) x.1 (x.2 % 8)) } := by
    unfold Head.fireRow
    dsimp only
    simp only [cur]
  unfold Head.fireSymbol
  dsimp only
  rw [if_neg (by rw [d]; decide), if_neg (by simp only [first]; decide), if_pos (by simp only [later]),
    if_neg (by decide), fires]
  exact Head.countRow_lt more

section
variable (d : h.doubt = false) (mine : t = h.e) (new : SMap.get h.k 0 t = 0) (rt : 1 < h.rt)
include d mine new rt

theorem Head.fireSymbol_first : h.fireSymbol true t =
    { ({ h with pulses := [] } : Head).openLine t with k := SMap.put h.k t 1 } := by
  have first : (SMap.get h.k 0 t = 0 && t = h.e) = true := by
    rw [decide_eq_true new, decide_eq_true mine]
    rfl
  have same : (({ h with pulses := [] } : Head).openLine t).rt = h.rt ∧ (({ h with pulses := [] } : Head).openLine t).k = h.k := by
    unfold Head.openLine
    dsimp only
    split <;> exact ⟨rfl, rfl⟩
  obtain ⟨hrt, hk⟩ := same
  unfold Head.fireSymbol
  dsimp only
  rw [if_neg (by rw [d]; decide), if_pos (by simp only [first]), if_pos rfl, Head.countRow_lt (by rwa [hrt]), hk]

theorem Head.fireSymbol_opens {f : LineFrame}
    (hf : h.held.find? (fun f => f.line % 256 == t && (h.bank (frameBank f)).valid) = some f) : h.fireSymbol true t =
      { h with pulses := [], e := (t + 1) % 256, cur := SMap.put h.cur t f, k := SMap.put h.k t 1 } := by
  have opened : ({ h with pulses := [] } : Head).openLine t = { h with
      pulses := [], e := (t + 1) % 256, cur := SMap.put h.cur t f } := by
    unfold Head.openLine
    dsimp only
    split
    · next g hg => rw [Option.some.inj (hf.symm.trans hg)]
    · next hg => exact absurd (hf.symm.trans hg) (by simp)
  rw [Head.fireSymbol_first d mine new rt, opened]

theorem Head.fireSymbol_miss
    (hf : h.held.find? (fun f => f.line % 256 == t && (h.bank (frameBank f)).valid) = none) : h.fireSymbol true t = { h with
      pulses := [], e := (t + 1) % 256, miss := (h.miss + 1) % 65536, missTag := t, k := SMap.put h.k t 1 } := by
  have opened : ({ h with pulses := [] } : Head).openLine t = { h with
      pulses := [], e := (t + 1) % 256, miss := (h.miss + 1) % 65536, missTag := t } := by
    unfold Head.openLine
    dsimp only
    split
    · next g hg => exact absurd (hf.symm.trans hg) (by simp)
    · rfl
  rw [Head.fireSymbol_first d mine new rt, opened]

end
end

/-! ## Frames -/

theorem Head.lineFrame_held {h : Head} {f : LineFrame} (d : h.doubt = false) (early : h.late (f.line % 256) = false)
    (room : (h.held.filter (fun g => g.line % 256 != f.line % 256)).length < 20) : h.lineFrame f = { h with
      dseq := f.seq, held := h.held.filter (fun g => g.line % 256 != f.line % 256) ++ [f] } := by
  have late : ({ h with dseq := f.seq } : Head).late (f.line % 256) = h.late (f.line % 256) := rfl
  unfold Head.lineFrame
  dsimp only
  rw [if_neg]
  rw [late, early, d]
  simpa using room

theorem Head.lineFrame_gone {h : Head} {f : LineFrame} (no : h.doubt = true ∨ h.late (f.line % 256) = true) :
    h.lineFrame f = { h with dseq := f.seq } := by
  have late : ({ h with dseq := f.seq } : Head).late (f.line % 256) = h.late (f.line % 256) := rfl
  unfold Head.lineFrame
  dsimp only
  rw [if_pos]
  rw [late]
  rcases no with n | n <;> simp [n]

theorem Head.tableStatus_bad {h : Head} {f : TableFrame} (no : 64 ≤ f.index ∨ f.reserved ≠ 0) : h.tableStatus f = 2 := by
  unfold Head.tableStatus
  rw [if_pos (by rcases no with n | n <;> simp [n])]

theorem Head.tableStatus_of {h : Head} {f : TableFrame} (idx : f.index < 64) (res : f.reserved = 0) :
    h.tableStatus f = if h.held.any (fun g => frameBank g == f.bank) then 1 else 0 := by
  unfold Head.tableStatus
  rw [if_neg (by simp [idx, res])]

/-- A run of bytes read below the maker's own space. -/
theorem State.headRead_bytes (s : State) (p : Nat) : ∀ (n a : Nat), a + n ≤ 0x800000 →
    s.headRead p a n = (s, (List.range n).map (fun i => (vget s.head p).byte (a + i)))
  | 0, _, _ => rfl
  | n + 1, a, h => by
    rw [State.headRead, if_neg (by omega), headRead_bytes s p n (a + 1) (by omega), List.range_succ_eq_map, List.map_cons, List.map_map]
    refine Prod.ext rfl (congrArg (List.cons _) (List.map_congr_left fun i _ => ?_))
    simp only [Function.comp, Nat.succ_eq_add_one, Nat.add_assoc, Nat.add_comm 1 i]

section
variable {u v : State} {p : Fin 64} {noise : List (Nat × Nat)} {i : LaneItem} {r : Option DownItem × Nat} {h : Head}
  (first : u.laneItem p = some i) (hr : r = u.headRead? p i noise) (hv : v = u.laneTake p i)
  (hh : h = (vget u.head p).bad r.2) (on : h.aligned = true)
include first hr hv hh on

theorem State.headLine_valid {f : LineFrame} (line : itemLine i.item = true) (hx : r.1 = some (.line f)) :
    u.headLine p noise = v.modHead p (fun _ => h.lineFrame f) := by
  rw [State.headLine, State.headTake_valid first line hr hh on hx, hv]
  exact State.modHead_const _ _ _ _

theorem State.headTable_valid {g f : TableFrame} (table : i.item = .table g) (hx : r.1 = some (.table f)) :
    u.headTable p noise = (v.modHead p (fun _ => if h.tableStatus f = 0 then
        ({ h with dseq := f.seq } : Head).setBank f.bank ((h.bank f.bank).accept f) else { h with dseq := f.seq })).modKl p
      (fun k => { k with up := k.up ++ [.ack { index := f.index, bank := f.bank, status := h.tableStatus f, seq := f.seq }] }) := by
  have mine : vget ((u.laneTake p i).modHead p (fun _ => h)).head p = h := by rw [State.modHead_head, vget_vmod_fin]
  rw [State.headTable, State.headTake_valid first (by rw [table]) hr hh on hx, hv]
  dsimp only
  rw [mine, State.modHead_modHead]
  rfl

theorem State.headCtl_valid {g f : CtlFrame} (ctl : i.item = .ctl g) (hx : r.1 = some (.ctl f)) (op : f.op = g.op)
    (act : Head → CtlFrame → Head) : u.headCtl p f.op noise act = v.modHead p (fun _ => act h f) := by
  unfold State.headCtl
  refine (State.headTake_valid first ?_ hr hh on hx).trans ?_
  · rw [ctl]
    show (g.op == f.op) = true
    rw [op, beq_self_eq_true]
  · dsimp only
    rw [if_pos (beq_self_eq_true _), hv]
    exact State.modHead_const _ _ _ _

/-- The bytes of a read. -/
theorem State.headAccess_read {g f : CtlFrame} (ctl : i.item = .ctl g) (hx : r.1 = some (.ctl f)) (same : f.op = g.op)
    (op : f.op = .hread) (ok : headStatus false f.addr f.len = 0) (low : f.addr + 4 * f.len ≤ 0x800000) :
    u.headAccess p noise false = (v.modHead p (fun _ => { h with dseq := f.seq })).modKl p (fun k => { k with
      up := k.up ++ [.resp ⟨false, f.id, 0, f.addr, (List.range (4 * f.len)).map (fun i => h.byte (f.addr + i))⟩] }) := by
  have bytes := State.headRead_bytes (v.modHead p (fun _ => { h with dseq := f.seq })) p (4 * f.len) f.addr low
  have mine (a : Nat) : (vget (v.modHead p (fun _ => { h with dseq := f.seq })).head p).byte a = h.byte a := by
    rw [State.modHead_head, vget_vmod_fin]
    rfl
  simp only [mine] at bytes
  unfold State.headAccess
  refine (State.headTake_valid first ?_ hr hh on hx).trans ?_
  · rw [ctl]
    show (g.op == .hwrite || g.op == .hread) = true
    rw [← same, op]
    rfl
  · have read : (f.op == .hwrite) = false := by rw [op]; rfl
    dsimp only
    simp only [read, ok, ← hv, State.modHead_modHead, bytes, ne_eq, not_true_eq_false, if_false, Bool.false_and, Bool.false_eq_true,
      decide_true, Bool.not_false, Bool.and_self, if_true]

/-- A write that is refused, or that the head cannot serve. -/
theorem State.headAccess_refused {g f : CtlFrame} {busy : Bool} {n : Nat} (ctl : i.item = .ctl g) (hx : r.1 = some (.ctl f))
    (same : f.op = g.op) (op : f.op = .hwrite)
    (st : n = (if headStatus true f.addr f.len ≠ 0 then headStatus true f.addr f.len else if busy then 3 else 0)) (bad : n ≠ 0) :
    u.headAccess p noise busy = (v.modHead p (fun _ => { h with dseq := f.seq })).modKl p (fun k => { k with
      up := k.up ++ [.resp ⟨true, f.id, n, f.addr, []⟩] }) := by
  unfold State.headAccess
  refine (State.headTake_valid first ?_ hr hh on hx).trans ?_
  · rw [ctl]
    show (g.op == .hwrite || g.op == .hread) = true
    rw [← same, op]
    rfl
  · have write : (f.op == .hwrite) = true := by rw [op]; rfl
    dsimp only
    simp only [write, ← st, ← hv, State.modHead_modHead, bad, decide_false, Bool.and_false, Bool.false_eq_true, if_false,
      Bool.not_true]

end

/-! ## What a head does by itself -/

section
variable {u : State} {p : Fin 64} {h : Head} (hh : h = vget u.head p)
include hh

theorem State.headTelemetry_sends {l : List (Option Int)} {vs vl n : Nat} {g : SMap Nat} {b : Bool} (on : h.aligned = true)
    (due : ∀ a : Nat, h.telAt = some a → a + 47500 ≤ u.now) : u.headTelemetry p l vs vl n g b =
      (u.modHead p (fun _ => { h with tseq := (h.tseq + 1) % 65536, telAt := some u.now })).modKl p
        (fun k => { k with up := k.up ++ [.telem (h.telem l vs vl n g b)] }) := by
  subst hh
  have one : u.modHead p (fun h => { h with tseq := (h.tseq + 1) % 65536, telAt := some u.now }) =
      u.modHead p (fun _ => { vget u.head p with tseq := ((vget u.head p).tseq + 1) % 65536, telAt := some u.now }) :=
    State.modHead_congr _ _ rfl
  unfold State.headTelemetry
  dsimp only
  cases tel : (vget u.head p).telAt with
  | none => rw [if_neg (by simp [on]), one]
  | some a => rw [if_neg (by simp [on, State.dueFree, due a tel]), one]

theorem State.headTelemetry_idle {l : List (Option Int)} {vs vl n : Nat} {g : SMap Nat} {b : Bool}
    (no : h.aligned = false ∨ ∃ a : Nat, h.telAt = some a ∧ u.now < a + 47500) : u.headTelemetry p l vs vl n g b = u := by
  subst hh
  unfold State.headTelemetry
  dsimp only
  rcases no with off | ⟨a, tel, early⟩
  · rw [if_pos (by simp [off])]
  · rw [tel, if_pos (by simp [State.dueFree, early])]

theorem State.headAlign_aligns (off : h.aligned = false) (wake : (vget u.kl p).st = .wake) (o : Nat) :
    u.headAlign p o = u.modHead p (fun _ => { h with aligned := true, telAt := none }) := by
  subst hh
  unfold State.headAlign
  rw [if_neg (by rw [off]; decide), if_pos (by rw [wake]; rfl)]
  exact State.modHead_congr _ _ rfl

theorem State.headAlign_waits (off : h.aligned = false) (awake : (vget u.kl p).st ≠ .wake) (o : Nat) : u.headAlign p o = u := by
  subst hh
  unfold State.headAlign
  rw [if_neg (by rw [off]; decide), if_neg (by simpa using awake)]

theorem State.headAlign_counts (on : h.aligned = true) {o : Nat} (ho : o ≠ 0) :
    u.headAlign p o = u.modHead p (fun _ => { h with derr := (h.derr + 1) % 65536 }) := by
  subst hh
  unfold State.headAlign
  rw [if_pos on, if_neg ho]
  exact State.modHead_congr _ _ rfl

end

/-- Settles O36: symbols by the row count of their tag, frames by what the head reads of them. -/
theorem headsTakeFramesAndSymbols : Obligations.HeadsTakeFramesAndSymbols := by
  constructor
  · intro e p noise s u i r h hu first fire hr hh
    have run : exec (.headFireSymbol e p noise) s = .next (u.headFire p noise) := by
      rw [exec_headFireSymbol, execHeadFireSymbol, ← hu]
    rw [run, State.headFire]
    refine ⟨fun quiet => ?_, fun off => ?_, fun on hx => ?_, fun b t on hx => ?_⟩
    · rw [hr, quiet]
      rfl
    · rw [State.headTake_unaligned first fire hr hh off]
    · rw [State.headTake_void first fire hr hh on hx]
      rfl
    · rw [State.headTake_valid first fire hr hh on hx]
      dsimp only
      rw [State.modHead_const]
      refine ⟨fun d mine new rt => ⟨fun f hf hb => ?_, fun hf hb => ?_⟩, fun f d hb some_ more cur => ?_, fun d no => ?_, fun d => ?_⟩
      · rw [hb, Head.fireSymbol_opens d mine new rt hf]
      · rw [hb, Head.fireSymbol_miss d mine new rt hf]
      · rw [hb, Head.fireSymbol_row d some_ more cur]
      · rw [Head.fireSymbol_illegal d no]
      · rw [Head.fireSymbol_doubt d]
  · intro e p s u hu
    refine ⟨fun noise i r h v first hr hv hh on => ⟨fun line => ⟨fun f hx => ⟨fun d early room => ?_, fun no => ?_⟩, fun hx => ?_⟩,
      fun g table => ⟨fun f hx idx res => ⟨fun free => ?_, fun busy => ?_⟩, fun f hx no => ?_, fun hx => ?_⟩,
      fun g f ctl hx same => ⟨fun op => ?_, fun op => ?_, fun a op ok low ha => ?_, fun a busy n op st bad ha => ?_⟩⟩,
      fun h l vs vl n g b hh => ⟨fun on due => ?_, fun no => ?_⟩,
      fun h o hh => ⟨fun off wake => ?_, fun off awake => ?_, fun on ho => ?_⟩, fun a b c m => ?_⟩
    · rw [exec_headLineFrame, execHeadLineFrame, ← hu, State.headLine_valid first hr hv hh on line hx,
        Head.lineFrame_held d early room]
    · rw [exec_headLineFrame, execHeadLineFrame, ← hu, State.headLine_valid first hr hv hh on line hx, Head.lineFrame_gone no]
    · rw [exec_headLineFrame, execHeadLineFrame, ← hu, State.headLine, State.headTake_void first line hr hh on hx, hv]
      rfl
    · have st : h.tableStatus f = 0 := by rw [Head.tableStatus_of idx res, free]; rfl
      rw [exec_headTableFrame, execHeadTableFrame, ← hu, State.headTable_valid first hr hv hh on table hx, st, if_pos rfl]
    · have st : h.tableStatus f = 1 := by rw [Head.tableStatus_of idx res, busy]; rfl
      rw [exec_headTableFrame, execHeadTableFrame, ← hu, State.headTable_valid first hr hv hh on table hx, st,
        if_neg (by decide)]
    · rw [exec_headTableFrame, execHeadTableFrame, ← hu, State.headTable_valid first hr hv hh on table hx,
        Head.tableStatus_bad no, if_neg (by decide)]
    · rw [exec_headTableFrame, execHeadTableFrame, ← hu, State.headTable,
        State.headTake_void first (by rw [table]) hr hh on hx, hv]
      rfl
    · rw [exec_headSync, execHeadSync, ← hu, ← op, State.headCtl_valid first hr hv hh on ctl hx same]
      rfl
    · rw [exec_headDrop, execHeadDrop, ← hu, ← op, State.headCtl_valid first hr hv hh on ctl hx same]
      rfl
    · rw [exec_headControlFrame, execHeadControlFrame, ← hu, State.headAccess_read first hr hv hh on ctl hx same op ok low, ha]
    · rw [exec_headControlFrame, execHeadControlFrame, ← hu, State.headAccess_refused first hr hv hh on ctl hx same op st bad, ha]
    · rw [exec_headTelemetrySend, execHeadTelemetrySend, ← hu, State.headTelemetry_sends hh on due]
    · rw [exec_headTelemetrySend, execHeadTelemetrySend, ← hu, State.headTelemetry_idle hh no]
    · rw [exec_headSymbolAlignment, execHeadSymbolAlignment, ← hu, State.headAlign_aligns hh off wake]
    · rw [exec_headSymbolAlignment, execHeadSymbolAlignment, ← hu, State.headAlign_waits hh off awake]
    · rw [exec_headSymbolAlignment, execHeadSymbolAlignment, ← hu, State.headAlign_counts hh on fun h => ho (Fin.ext h)]
    · rw [exec_headPowerUp, execHeadPowerUp, ← hu, State.headPower]

end Sys2Proof.Machine
end

section
/-! One camera changed, and a line that enters the input buffer (08 R252, R263) -/
namespace Sys2Proof.Machine
open Sys2Proof

theorem State.modCam_congr (s : State) (c : Nat) {f g : Cam → Cam} (h : f (vget s.cam c) = g (vget s.cam c)) :
    s.modCam c f = s.modCam c g := by
  unfold State.modCam
  rw [vmod_congr _ _ h]

theorem State.modCam_modCam (s : State) (c : Nat) (f g : Cam → Cam) :
    (s.modCam c f).modCam c g = s.modCam c (fun x => g (f x)) := by
  unfold State.modCam
  rw [vmod_vmod]

/-! ## Lines -/

section
variable {u : State} {c : Fin 4}
variable {f : Frame} {l : List CamCycle} (st : (vget u.cam c).st = .run) (high : (vget u.cam c).fval = true)
  (rx : (vget u.cam c).receiving = some f)
include st high rx

theorem State.camLine_of (seen : lineSeen f.port l = true) : u.camLine c l =
    if lineStray f.port l || (linePixels f.port l).length ≠ f.W then u.malformed c f
    else (u.highMark c).modFrame c f.no (fun x => { x with buf := x.buf ++ [linePixels f.port l] }) := by
  unfold State.camLine
  dsimp only
  rw [if_neg (by rw [rx]; simp [st, seen]), if_neg (by rw [high]; decide)]
  simp only [rx]

theorem State.camLine_enters (seen : lineSeen f.port l = true) (straight : lineStray f.port l = false)
    (len : (linePixels f.port l).length = f.W) (room : (vget u.cam c).frames.foldl (fun a f => a + f.buf.length) 0 < 7) :
    u.camLine c l = u.modFrame c f.no (fun x => { x with buf := x.buf ++ [linePixels f.port l] }) := by
  have calm : u.highMark c = u := by
    unfold State.highMark
    dsimp only
    rw [if_pos (by simp [room])]
  rw [State.camLine_of st high rx seen, if_neg (by simp [straight, len]), calm]

end

end Sys2Proof.Machine
end

section
/-! Camera frames and triggers, settled (08 R252-R276) -/
namespace Sys2Proof.Machine
open Sys2Proof

theorem State.modFrame_cam (s : State) (c : Fin 4) (no : Nat) (g : Frame → Frame) : vget (s.modFrame c no g).cam c =
    { vget s.cam c with frames := (vget s.cam c).frames.map (fun f => if f.no = no && f.gap.isNone then g f else f) } := by
  rw [State.modFrame, State.modCam_cam, vget_vmod_fin]

/-! ## Two frames of one number

Camera 2 holds two frames numbered 1 whose port settings differ: the older one was begun under settings that sample the
pixels where DVAL is high. A line that the younger one receives enters the buffer of both with the pixels of the younger
one's settings; the statement gives each frame the pixels of its own. -/

/-- The older frame. -/
def otherPortFrame : Frame := { Tests.frame4x2 with port := fields [(4, 1, 1), (16, 15, 4), (32, 16, 2)] }

/-- The line that arrives. -/
def fourPixels : List CamCycle := List.replicate 4 Tests.inLine

def twoFrames : State :=
  Tests.camAt (fun x => { x with st := .run, fval := true, frames := [otherPortFrame, Tests.frame4x2] })

/-- The buffered lines of camera 2's oldest frame. -/
def oldestLines : Host.Outcome State Fault Refusal → List (List Nat)
  | .next t => ((vget t.cam (2 : Fin 4)).frames.headD {}).buf
  | _ => []

theorem twoFrames_cam : (vget (twoFrames.arrive {}).cam (2 : Fin 4)).st = .run ∧ (vget (twoFrames.arrive {}).cam (2 : Fin 4)).fval = true ∧
    (vget (twoFrames.arrive {}).cam (2 : Fin 4)).frames = [otherPortFrame, Tests.frame4x2] := by decide +kernel

theorem fourPixels_seen : lineSeen Tests.frame4x2.port fourPixels = true ∧ lineStray Tests.frame4x2.port fourPixels = false ∧
    linePixels Tests.frame4x2.port fourPixels = [0, 0, 0, 0] ∧ linePixels otherPortFrame.port fourPixels = [] := by
  decide +kernel

/-- What a change of frame 1 leaves in the older frame's buffer. -/
theorem oldestLines_modFrame (g : Frame → Frame) :
    oldestLines (.next ((twoFrames.arrive {}).modFrame (2 : Fin 4) 1 g)) = (g otherPortFrame).buf := by
  obtain ⟨-, -, frames⟩ := twoFrames_cam
  have cam := State.modFrame_cam (twoFrames.arrive {}) 2 1 g
  show ((vget ((twoFrames.arrive {}).modFrame (2 : Fin 4) 1 g).cam (2 : Fin 4)).frames.headD {}).buf = _
  rw [cam, frames]
  rfl

/-- Refutes O37: a line enters every frame of the receiving frame's number with the pixels that the receiving frame's settings
sample; the statement's changed frame shadows the receiving one and so takes its own settings. -/
theorem not_cameraFrames : ¬ Obligations.CameraFrames := by
  unfold Obligations.CameraFrames
  intro h
  obtain ⟨st, high, frames⟩ := twoFrames_cam
  obtain ⟨seen, straight, sampled, others⟩ := fourPixels_seen
  have rx : (vget (twoFrames.arrive {}).cam (2 : Fin 4)).receiving = some Tests.frame4x2 := by
    rw [Cam.receiving, frames]
    rfl
  have room : (vget (twoFrames.arrive {}).cam (2 : Fin 4)).frames.foldl (fun a f => a + f.buf.length) 0 < 7 := by
    rw [frames]
    decide
  have len : (linePixels Tests.frame4x2.port fourPixels).length = Tests.frame4x2.W := by
    rw [sampled]
    decide +kernel
  obtain ⟨-, lines, -⟩ := h {} 2 twoFrames _ _ rfl rfl
  obtain ⟨enters, -⟩ := lines Tests.frame4x2 fourPixels st high rx
  have claimed := congrArg oldestLines (enters seen straight len room)
  rw [exec_camLine, execCamLine, State.camLine_enters st high rx seen straight len room] at claimed
  have both := (oldestLines_modFrame _).symm.trans (claimed.trans (oldestLines_modFrame _))
  have pixels : linePixels Tests.frame4x2.port fourPixels = linePixels otherPortFrame.port fourPixels := by
    simpa using both
  rw [sampled, others] at pixels
  exact absurd pixels (by decide)

/-! ## Triggers -/

section
variable {u : State} {c : Fin 4} {n : Nat}

/-- The word that requests a frame. -/
theorem State.wrCamCtl_trig (held : u.holds n (uCam c) = true) : (u.wrCamCtl c n 1).1 =
    if u.trigRefusal c .host ≠ 0 then u.postErr n 0x0904 c (wd (u.trigRefusal c .host)) else u.trigAccept c .host (u.camSEQ c) := by
  have eq : u.wrCamCtl c n 1 = if u.trigRefusal c .host ≠ 0 then u.refuse n 0x0904 c (wd (u.trigRefusal c .host))
      else (u.trigAccept c .host (u.camSEQ c), 0) := by
    unfold State.wrCamCtl State.ifRight
    rw [if_pos held]
    rfl
  rw [eq]
  split <;> rfl

theorem State.wrCamCtl_refused (free : u.holds n (uCam c) = false) (v : Word) : (u.wrCamCtl c n v).1 = u.postErr n 0x0102 c := by
  unfold State.wrCamCtl State.ifRight
  rw [if_neg (by rw [free]; decide)]
  rfl

theorem State.modCam_trigRefusal (f : Cam → Cam) (src : TrigSrc) (hf : (f (vget u.cam c)).occupied src = (vget u.cam c).occupied src) :
    (u.modCam c f).trigRefusal c src = u.trigRefusal c src := by
  have stopped : (u.modCam c f).trigStopped c = u.trigStopped c := rfl
  unfold State.trigRefusal
  rw [stopped, State.modCam_cam, vget_vmod_fin, hf]

section
variable {d : Int} {i : Nat} (on : bit (u.reg (camTrigAddr c)) 32 = true) (hi : i = bits (u.reg (camTrigAddr c)) 63 40)
  (some_ : i ≠ 0) (hd : d = (if bit (u.reg (camTrigAddr c)) 35
    then signedN 48 (u.rf (0x03600140 + 8 * c) 47 0) - (vget u.enc (bits (u.reg (camTrigAddr c)) 34 33)).seen.count
    else (vget u.enc (bits (u.reg (camTrigAddr c)) 34 33)).seen.count - signedN 48 (u.rf (0x03600140 + 8 * c) 47 0)))
include on hi some_ hd

theorem State.positionTrigger_early (early : d < ((vget u.cam c).ptK * i : Nat)) : u.positionTrigger c = u := by
  unfold State.positionTrigger
  dsimp only
  rw [← hi, ← hd, if_neg (by simp [on, some_]), if_pos early]

theorem State.positionTrigger_meets {r : TrigReq} (reached : ((vget u.cam c).ptK * i : Nat) ≤ d)
    (next : d < (((vget u.cam c).ptK + 1) * i : Nat)) (free : u.trigRefusal c .position = 0)
    (hr : r = ⟨.position, u.now, (vget u.seq (u.camSEQ c)).sw, (vget u.seq (u.camSEQ c)).ln,
      (vget u.enc (bits (u.reg (camTrigAddr c)) 34 33)).seen.count⟩) :
    u.positionTrigger c = u.modCam c (fun x => { x with ptK := x.ptK + 1, queue := x.queue ++ [r] }) := by
  have last : d.toNat / i = (vget u.cam c).ptK := by
    refine Nat.div_eq_of_lt_le ?_ ?_
    · exact Int.le_toNat (by omega) |>.2 reached
    · exact (Int.toNat_lt (by omega)).2 next
  have accepts : (u.modCam c (fun x => { x with ptK := (vget u.cam c).ptK + 1 })).trigRefusal c .position = 0 := by
    rw [State.modCam_trigRefusal _ _ rfl, free]
  unfold State.positionTrigger
  dsimp only
  rw [← hi, ← hd, if_neg (by simp [on, some_]), if_neg (Int.not_lt.2 reached), last]
  simp only [accepts, Nat.sub_self]
  rw [State.ptSkipped, if_pos rfl, State.trigAccept, State.modCam_modCam, hr]
  exact State.modCam_congr _ _ rfl

end

theorem State.trigPulse_leaves {r : TrigReq} {l : List TrigReq} (queue : (vget u.cam c).queue = r :: l)
    (idle : (vget u.cam c).pulse = none) (due : r.at_ + 10 * qTick + u.heldFrom r.at_ ≤ u.now) (on : (vget u.cam c).st ≠ .off)
    (go : u.trigStopped c = false) : u.trigPulse c = (u.modCam c (fun x => { x with
      queue := l, pulse := some r, answered := false, pulseAt := u.now,
      trigEnd := u.now + 500 * u.rf (camTrigAddr c) 15 8 })).emit (.trig c (!bit (u.reg (camTrigAddr c)) 0)) := by
  have on' : ((vget u.cam c).st != .off) = true := by simpa using on
  simp only [State.trigPulse, queue, idle, on', go, State.due_eq_true due, Bool.not_false, Bool.and_self, if_true]

section
variable {r : TrigReq} {k : Nat} (pulse : (vget u.cam c).pulse = some r) (hk : k = u.rf (camTrigAddr c) 31 16)
include pulse hk

theorem State.trigTimeout_idle (no : (vget u.cam c).answered = true ∨ k = 0 ∨ u.now < (vget u.cam c).pulseAt + k * 20000 ∨
    u.startsNow c = true) : u.trigTimeout c = u := by
  unfold State.trigTimeout
  simp only [pulse]
  rw [← hk, if_pos]
  rcases no with h | h | h | h
  · simp [h]
  · simp [h]
  · have early : u.due (vget u.cam c).pulseAt (k * 20000) = false := decide_eq_false (by omega)
    simp [early]
  · simp [h]

theorem State.trigTimeout_expires (free : (vget u.cam c).answered = false) (some_ : k ≠ 0)
    (due : (vget u.cam c).pulseAt + k * 20000 + u.heldFrom (vget u.cam c).pulseAt ≤ u.now) (no : u.startsNow c = false) :
    u.trigTimeout c = ((u.modCam c (fun x => { x with pulse := none, trigTo := satAdd 16 x.trigTo 1 })).camPost c r.src
      0x0902).endRequest c false pclkOut r := by
  unfold State.trigTimeout
  simp only [pulse]
  rw [← hk, if_neg]
  simp [free, some_, State.due_eq_true due, no]

end
end

/-- Settles O38. -/
theorem cameraTriggers : Obligations.CameraTriggers := by
  intro e w c s u n x hu hx
  subst hx
  refine ⟨fun hr hw => ⟨fun held ok => ?_, fun held no => ?_, fun free => ?_⟩,
    fun d i on hi some_ hd => ⟨fun early => ?_, fun r reached next free hr => ?_⟩, fun r l queue idle due on go => ?_,
    fun r k pulse hk => ⟨fun free some_ due no => ?_, fun no => ?_⟩, fun a m skip due => ?_⟩
  · rw [exec_camTrig, execCamTrig, ← hu, State.asWriter_of_ready hr hw, State.wrCamCtl_trig held, if_neg (by simp [ok])]
    exact congrArg Host.Outcome.next (State.modCam_congr _ _ rfl)
  · rw [exec_camTrig, execCamTrig, ← hu, State.asWriter_of_ready hr hw, State.wrCamCtl_trig held, if_pos no]
  · rw [exec_camTrig, execCamTrig, ← hu, State.asWriter_of_ready hr hw, State.wrCamCtl_refused free]
  · rw [exec_positionTrigger, execPositionTrigger, ← hu, State.positionTrigger_early on hi some_ hd early]
  · rw [exec_positionTrigger, execPositionTrigger, ← hu, State.positionTrigger_meets on hi some_ hd reached next free hr]
    exact congrArg Host.Outcome.next (State.modCam_congr _ _ rfl)
  · rw [exec_trigPulse, execTrigPulse, ← hu, State.trigPulse_leaves queue idle due on go]
    exact congrArg (fun v : State => Host.Outcome.next (v.emit _)) (State.modCam_congr _ _ rfl)
  · rw [exec_trigTimeout, execTrigTimeout, ← hu, State.trigTimeout_expires pulse hk free some_ due no]
    have one : u.modCam c (fun x => { x with pulse := none, trigTo := satAdd 16 x.trigTo 1 }) =
        u.modCam c (fun _ => { vget u.cam c with pulse := none, trigTo := satAdd 16 (vget u.cam c).trigTo 1 }) :=
      State.modCam_congr _ _ rfl
    rw [one]
  · rw [exec_trigTimeout, execTrigTimeout, ← hu, State.trigTimeout_idle pulse hk no]
  · rw [exec_ptrigSkipWindow, execPtrigSkipWindow, ← hu, State.ptSkipWindow]
    simp only [skip, State.due_eq_true due, if_true]
    exact congrArg (fun v : State => Host.Outcome.next (v.postUnit (uCam c) _)) (State.modCam_congr _ _ rfl)

end Sys2Proof.Machine
end

section
/-! Camera settings, I2C and the host's other commands to a camera (08 R261-R283) -/
namespace Sys2Proof.Machine
open Sys2Proof

/-! ## The words that the commands write -/

section
variable {a b d : Nat} (ha : a < 2 ^ 7) (hb : b < 2 ^ 3) (hd : d < 2 ^ 48) (r : Bool)
include ha hb hd

theorem i2cWord_toNat : (fields [(0, 7, a), (7, 1, b1 r), (8, 3, b), (16, 48, d)] : Word).toNat =
    a + b1 r * 2 ^ 7 + b * 2 ^ 8 + d * 2 ^ 16 := by
  have hr := b1_le r
  rw [fields, BitVec.toNat_ofNat]
  simp only [List.foldl, Nat.zero_add]
  omega

theorem i2cWord_addr : bits (fields [(0, 7, a), (7, 1, b1 r), (8, 3, b), (16, 48, d)]) 6 0 = a := by
  rw [bits, bitsN, i2cWord_toNat ha hb hd]
  omega

theorem i2cWord_bytes : bits (fields [(0, 7, a), (7, 1, b1 r), (8, 3, b), (16, 48, d)]) 10 8 = b := by
  have hr := b1_le r
  rw [bits, bitsN, i2cWord_toNat ha hb hd]
  omega

theorem i2cWord_data : bits (fields [(0, 7, a), (7, 1, b1 r), (8, 3, b), (16, 48, d)]) 63 16 = d := by
  have hr := b1_le r
  rw [bits, bitsN, i2cWord_toNat ha hb hd]
  omega

theorem i2cWord_read : bit (fields [(0, 7, a), (7, 1, b1 r), (8, 3, b), (16, 48, d)]) 7 = r := by
  rw [bit, i2cWord_toNat ha hb hd, Nat.testBit_eq_decide_div_mod_eq]
  cases r
  · have b1_false : b1 false = 0 := rfl
    exact decide_eq_false (by omega)
  · have b1_true : b1 true = 1 := rfl
    exact decide_eq_true (by omega)

end

theorem setWord_record {r : Nat} (hr : r < 256) : bits (wd (2 + 256 * r)) 15 8 = r := by
  rw [bits, bitsN, wd, BitVec.toNat_ofNat]
  omega

theorem setWord_flags {r : Nat} (hr : r < 256) : bit (wd (2 + 256 * r)) 0 = false ∧ bit (wd (2 + 256 * r)) 1 = true ∧
    bit (wd (2 + 256 * r)) 2 = false ∧ bit (wd (2 + 256 * r)) 3 = false := by
  simp only [bit, wd, BitVec.toNat_ofNat, Nat.testBit_eq_decide_div_mod_eq, decide_eq_false_iff_not, decide_eq_true_iff]
  omega

/-! ## The host's commands -/

section
variable {u : State} {c : Fin 4} {n : Nat} (held : u.holds n (uCam c) = true)
include held

theorem State.wrCamCtl_set {v : Word} {r : Nat} (record : bits v 15 8 = r) (trig : bit v 0 = false) (set : bit v 1 = true)
    (pop : bit v 2 = false) (clear : bit v 3 = false) : (u.wrCamCtl c n v).1 =
    if (vget u.cam c).pend.isSome then u.postErr n 0x0904 c 2 else u.setAccept c r .host := by
  unfold State.wrCamCtl State.ifRight
  rw [if_pos held]
  dsimp only
  rw [trig, set, pop, clear, record]
  show ((if (vget u.cam c).pend.isSome then u.refuse n 0x0904 c 2 else (u.setAccept c r .host, 0)) : State × Nat).1 = _
  cases (vget u.cam c).pend.isSome <;> rfl

theorem State.wrCamCtl_pop : (u.wrCamCtl c n 4).1 = u.modCam c (fun x => { x with rq := x.rq.tail }) := by
  unfold State.wrCamCtl State.ifRight
  rw [if_pos held]
  rfl

theorem State.wrCamCtl_clear : (u.wrCamCtl c n 8).1 =
    u.modCam c (fun x => { x with dropped := 0, format := 0, trigTo := 0, ringFull := 0 }) := by
  unfold State.wrCamCtl State.ifRight
  rw [if_pos held]
  rfl

section
variable {a b d : Nat} {r : Bool} {v : Word} (addr : bits v 6 0 = a) (bytes : bits v 10 8 = b) (data : bits v 63 16 = d) (read : bit v 7 = r)
include addr bytes data read

theorem State.wrI2c_starts (off : u.camEN c = false) (idle : (vget u.cam c).i2cBusy = false) : (u.wrI2c c n v).1 =
    (u.modCam c (fun x => { x with
      i2cBusy := true, i2cDone := false, i2cNack := false, i2cTo := false, i2cAt := u.now, i2cRd := r, i2cN := min 6 b })).emit (.i2c c a r (min 6 b) (if r then [] else toLE (min 6 b) d)) := by
  unfold State.wrI2c State.ifRight
  rw [if_pos held]
  dsimp only
  rw [if_neg (by simp [off, idle]), addr, bytes, data, read]

omit addr bytes data read in
theorem State.wrI2c_refused (busy : u.camEN c = true ∨ (vget u.cam c).i2cBusy = true) : (u.wrI2c c n v).1 = u.postErr n 0x090A c := by
  unfold State.wrI2c State.ifRight
  rw [if_pos held]
  dsimp only
  rw [if_pos (by rcases busy with h | h <;> simp [h])]
  rfl

end
end

/-! ## The settings window -/

section
variable {u : State} {c : Fin 4}

theorem State.settingsWindow_idle (no : u.windowDue c = false) : u.settingsWindow c = u := by
  unfold State.settingsWindow
  rw [if_pos (by simp [no])]

theorem State.settingsWindow_none (due : u.windowDue c = true) (pend : (vget u.cam c).pend = none) :
    u.settingsWindow c = u.modCam c (fun x => { x with winFrom := x.winFrom.tail }) := by
  unfold State.settingsWindow
  rw [if_neg (by simp [due])]
  simp only [State.modCam_cam, vget_vmod_fin, pend]

theorem State.settingsWindow_writes {q : SetReq} (due : u.windowDue c = true) (pend : (vget u.cam c).pend = some q)
    (fresh : q.writing = none) (st : (vget u.cam c).st = .run) (old : q.at_ + 40 + u.heldFrom q.at_ ≤ u.now)
    (some_ : u.setRecord c q.record ≠ []) : u.settingsWindow c = u.modCam c (fun x => { x with
      winFrom := x.winFrom.tail, pend := some { q with writing := some (u.setRecord c q.record), begun := u.now } }) := by
  have tx : ∀ f, (u.modCam c f).setRecord c q.record = u.setRecord c q.record := fun _ => rfl
  have ripe : ∀ f, (u.modCam c f).due q.at_ pclkIn = true := fun _ => State.due_eq_true old
  unfold State.settingsWindow
  rw [if_neg (by simp [due])]
  simp only [State.modCam_cam, vget_vmod_fin, pend, st, fresh, ripe, tx]
  rw [if_neg (by decide), if_neg (by simpa using some_), State.modCam_modCam]
  rfl

end

/-! ## The end of a settings write and of an I2C transaction -/

/-- The records that a settings write sends. -/
def State.sendsI2c (s : State) (c addr : Nat) (l : List (List Byte)) : State :=
  s.each l (fun s b => s.emit (.i2c c addr false b.length b))

theorem State.sendsI2c_now (s : State) (c addr : Nat) (l : List (List Byte)) : (s.sendsI2c c addr l).now = s.now :=
  State.each_field (f := fun s (b : List Byte) => s.emit (.i2c c addr false b.length b)) (g := State.now) (fun _ _ => rfl) l s

theorem State.sendsI2c_cam (s : State) (c addr : Nat) (l : List (List Byte)) : (s.sendsI2c c addr l).cam = s.cam :=
  State.each_field (f := fun s (b : List Byte) => s.emit (.i2c c addr false b.length b)) (g := State.cam) (fun _ _ => rfl) l s

theorem State.sendsI2c_out (c addr : Nat) : ∀ (l : List (List Byte)) (s : State),
    (s.sendsI2c c addr l).out = s.out ++ l.map (fun b => .i2c c addr false b.length b)
  | [], s => (List.append_nil s.out).symm
  | a :: l, s => by
    rw [State.sendsI2c, State.each_cons, ← State.sendsI2c, sendsI2c_out c addr l, State.emit, List.append_assoc]
    rfl

/-- Camera c after the settings of request q were written, k frame starts ahead. -/
def Cam.written (x : Cam) (q : SetReq) (k t : Nat) : Cam := { x with
  pend := none, setFail := false, setDoubt := false,
  nextGens := x.nextGens.map (fun g => { g with doubt := false }) ++ [{ left := k, gen := q.gen, at_ := t }] }

/-- Camera c after the write of request q failed at record i. -/
def Cam.writeFailed (x : Cam) (q : SetReq) (i k t : Nat) : Cam := { x with
  pend := none, setFail := true, failIdx := i,
  nextGens := x.nextGens ++ [{ left := k, gen := q.gen, doubt := true, at_ := t }] }

/-- A camera whose I2C transaction ended with r. -/
def Cam.i2cEnds (x : Cam) : I2cEnd → Cam
  | .ok d => { x with
    i2cBusy := false, i2cDone := true, i2cData := if x.i2cRd then d % 2 ^ (8 * x.i2cN) else x.i2cData }
  | .nack => { x with i2cBusy := false, i2cDone := true, i2cNack := true }
  | .timeout => { x with i2cBusy := false, i2cDone := true, i2cTo := true }

section
variable {u : State} {c : Fin 4}

section
variable {q : SetReq} {l : List (List Byte)} (pend : (vget u.cam c).pend = some q) (writing : q.writing = some l)
include pend writing

theorem State.setDone_good (due : q.begun + writeBits l none * u.bitTime c + u.heldFrom q.begun ≤ u.now) : u.setDone c none =
    (u.sendsI2c c (u.rf (0x03600160 + 8 * c) 6 0) l).modCam c
      (fun x => x.written q (u.rf (0x03600160 + 8 * c) 18 16 + 1) u.now) := by
  have now := u.sendsI2c_now c (u.rf (0x03600160 + 8 * c) 6 0) l
  unfold State.setDone
  simp only [pend, writing, State.due_eq_true due, Bool.not_true, Bool.false_eq_true, if_false]
  rw [← now]
  rfl

theorem State.setDone_failed {i : Nat} (due : q.begun + writeBits l (some i) * u.bitTime c + u.heldFrom q.begun ≤ u.now) :
    vget (u.setDone c (some i)).cam c = (vget u.cam c).writeFailed q i (u.rf (0x03600160 + 8 * c) 18 16 + 1) u.now := by
  have now := u.sendsI2c_now c (u.rf (0x03600160 + 8 * c) 6 0) (l.take (max 1 i))
  have cam := u.sendsI2c_cam c (u.rf (0x03600160 + 8 * c) 6 0) (l.take (max 1 i))
  unfold State.setDone
  simp only [pend, writing, State.due_eq_true due, Bool.not_true, Bool.false_eq_true, if_false]
  rw [(State.camPost_posts _ _ _ _ _).cam, ← State.sendsI2c, State.modCam_cam, vget_vmod_fin, now, cam]
  rfl

end

theorem State.i2cDone_due {r : I2cEnd} (busy : (vget u.cam c).i2cBusy = true)
    (due : (vget u.cam c).i2cAt + u.i2cTime c r + u.heldFrom (vget u.cam c).i2cAt ≤ u.now) :
    u.i2cDone c r = u.modCam c (fun x => x.i2cEnds r) := by
  refine State.modCam_congr _ _ ?_
  rw [if_neg (by simp [busy, State.due_eq_true due])]
  cases r with
  | ok d => cases h : (vget u.cam c).i2cRd <;> simp [h, Cam.i2cEnds]
  | nack => rfl
  | timeout => rfl

end

/-- Settles O39. -/
theorem cameraSettings : Obligations.CameraSettings := by
  intro e w c s u n x hu hx
  subst hx
  refine ⟨fun hr hw held => ⟨fun r pend => ?_, fun r pend => ?_, ?_, ?_, fun a r b d off idle => ?_, fun a r b d busy => ?_⟩,
    fun y due hy => ⟨fun pend => ?_, fun q pend fresh st old some_ => ?_⟩, fun no => ?_,
    fun q l k pend writing hk => ⟨fun due => ?_, fun i due => ?_⟩, fun busy v hv => ⟨fun d due => ?_, fun due => ?_, fun due => ?_⟩⟩
  · obtain ⟨f0, f1, f2, f3⟩ := setWord_flags r.isLt
    rw [exec_camSetreq, execCamSetreq, ← hu, State.asWriter_of_ready hr hw,
      State.wrCamCtl_set held (setWord_record r.isLt) f0 f1 f2 f3, pend]
    exact congrArg Host.Outcome.next (State.modCam_congr _ _ rfl)
  · obtain ⟨f0, f1, f2, f3⟩ := setWord_flags r.isLt
    rw [exec_camSetreq, execCamSetreq, ← hu, State.asWriter_of_ready hr hw,
      State.wrCamCtl_set held (setWord_record r.isLt) f0 f1 f2 f3, if_pos (Option.isSome_iff_ne_none.2 pend)]
  · rw [exec_camPop, execCamPop, ← hu, State.asWriter_of_ready hr hw, State.wrCamCtl_pop held]
    exact congrArg Host.Outcome.next (State.modCam_congr _ _ rfl)
  · rw [exec_camClrcnt, execCamClrcnt, ← hu, State.asWriter_of_ready hr hw, State.wrCamCtl_clear held]
    exact congrArg Host.Outcome.next (State.modCam_congr _ _ rfl)
  · rw [exec_i2cCommand, execI2cCommand, ← hu, State.asWriter_of_ready hr hw,
      State.wrI2c_starts held (i2cWord_addr a.isLt b.isLt d.isLt r) (i2cWord_bytes a.isLt b.isLt d.isLt r)
        (i2cWord_data a.isLt b.isLt d.isLt r) (i2cWord_read a.isLt b.isLt d.isLt r) off idle]
    exact congrArg (fun v : State => Host.Outcome.next (v.emit _)) (State.modCam_congr _ _ rfl)
  · rw [exec_i2cCommand, execI2cCommand, ← hu, State.asWriter_of_ready hr hw, State.wrI2c_refused held busy]
  · rw [exec_settingsWindow, execSettingsWindow, ← hu, State.settingsWindow_none due pend, hy]
    exact congrArg Host.Outcome.next (State.modCam_congr _ _ rfl)
  · rw [exec_settingsWindow, execSettingsWindow, ← hu, State.settingsWindow_writes due pend fresh st old some_, hy]
    exact congrArg Host.Outcome.next (State.modCam_congr _ _ rfl)
  · rw [exec_settingsWindow, execSettingsWindow, ← hu, State.settingsWindow_idle no]
  · refine ⟨u.setDone c none, by rw [exec_settingsWriteDone, execSettingsWriteDone, ← hu]; rfl, ?_, ?_⟩
    · rw [State.setDone_good pend writing due, State.modCam_cam, vget_vmod_fin, State.sendsI2c_cam, hk]
      rfl
    · rw [State.setDone_good pend writing due]
      exact State.sendsI2c_out _ _ _ _
  · refine ⟨u.setDone c (some i.val), by rw [exec_settingsWriteDone, execSettingsWriteDone, ← hu]; rfl, ?_⟩
    rw [State.setDone_failed pend writing due, hk]
    rfl
  · have ends : (vget u.cam c).i2cAt + u.i2cTime c (.ok d) + u.heldFrom (vget u.cam c).i2cAt ≤ u.now := by
      rw [State.i2cTime]
      omega
    rw [exec_i2cDone, execI2cDone, ← hu, State.i2cDone_due busy ends]
    exact congrArg Host.Outcome.next (State.modCam_congr _ _ rfl)
  · have ends : (vget u.cam c).i2cAt + u.i2cTime c .nack + u.heldFrom (vget u.cam c).i2cAt ≤ u.now := by
      rw [State.i2cTime]
      omega
    rw [exec_i2cDone, execI2cDone, ← hu, State.i2cDone_due busy ends]
    exact congrArg Host.Outcome.next (State.modCam_congr _ _ rfl)
  · have ends : (vget u.cam c).i2cAt + u.i2cTime c .timeout + u.heldFrom (vget u.cam c).i2cAt ≤ u.now := by
      rw [State.i2cTime]
      omega
    rw [exec_i2cDone, execI2cDone, ← hu, State.i2cDone_due busy ends]
    exact congrArg Host.Outcome.next (State.modCam_congr _ _ rfl)

end Sys2Proof.Machine
end

section
/-! Nozzle health: nozzles put OUT and returned, tests and alignment armed (09 R290-R301) -/
namespace Sys2Proof.Machine
open Sys2Proof

/-! ## Sorted maps stay sorted -/

section
variable {β : Type}

/-- The keys of a map ascend. -/
def SMap.Sorted (m : SMap β) : Prop := m.Pairwise (fun x y => x.1 < y.1)

theorem SMap.mem_put {k : Nat} {v : β} {x : Nat × β} : ∀ {m : SMap β}, x ∈ SMap.put m k v → x.1 = k ∨ x ∈ m
  | [], h => .inl (by rw [SMap.put, List.mem_singleton] at h; rw [h])
  | (a, w) :: l, h => by
    unfold SMap.put at h
    split at h
    · rcases List.mem_cons.1 h with h | h
      · exact .inl (by rw [h])
      · exact .inr (List.mem_cons_of_mem _ h)
    · split at h
      · rcases List.mem_cons.1 h with h | h
        · exact .inl (by rw [h])
        · exact .inr h
      · rcases List.mem_cons.1 h with h | h
        · exact .inr (by rw [h]; exact List.mem_cons_self)
        · exact (SMap.mem_put h).imp_right (List.mem_cons_of_mem _)

theorem SMap.Sorted.put {k : Nat} {v : β} : ∀ {m : SMap β}, SMap.Sorted m → SMap.Sorted (SMap.put m k v)
  | [], _ => List.pairwise_singleton _ _
  | (a, w) :: l, h => by
    obtain ⟨below, rest⟩ := List.pairwise_cons.1 h
    unfold SMap.put
    split
    · next e => exact List.pairwise_cons.2 ⟨fun x hx => e ▸ below x hx, rest⟩
    · split
      · next lt =>
        refine List.pairwise_cons.2 ⟨fun x hx => ?_, h⟩
        rcases List.mem_cons.1 hx with hx | hx
        · rw [hx]
          exact lt
        · exact Nat.lt_trans lt (below x hx)
      · next ne ge =>
        refine List.pairwise_cons.2 ⟨fun x hx => ?_, SMap.Sorted.put rest⟩
        rcases SMap.mem_put hx with hx | hx
        · rw [hx]
          omega
        · exact below x hx

theorem SMap.del_sublist (k : Nat) : ∀ m : SMap β, (SMap.del m k).Sublist m
  | [] => .slnil
  | (a, w) :: l => by
    unfold SMap.del
    split
    · exact List.sublist_cons_self _ _
    · split
      · exact .refl _
      · exact (SMap.del_sublist k l).cons_cons _

section
variable [DecidableEq β] {m : SMap β} (sorted : SMap.Sorted m) (d v : β)
include sorted

theorem SMap.Sorted.set (k : Nat) : SMap.Sorted (SMap.set m d k v) := by
  unfold SMap.set
  split
  · exact sorted.sublist (SMap.del_sublist k m)
  · exact sorted.put

theorem SMap.get_set_same (k : Nat) : SMap.get (SMap.set m d k v) d k = v := by
  unfold SMap.set
  split
  · next e => rw [SMap.get_del_same d k 0 m (fun _ _ _ _ => Nat.zero_le _) sorted, e]
  · exact SMap.get_put_same d v k m

theorem SMap.get_set_ne {k j : Nat} (h : j ≠ k) : SMap.get (SMap.set m d k v) d j = SMap.get m d j := by
  unfold SMap.set
  split
  · exact SMap.get_del_ne d k j h m sorted
  · exact SMap.get_put_ne d v k j h m

end
end

/-! ## One nozzle changed -/

/-- Every port and nozzle has its own key. -/
theorem nozzleKey_ne {p r : Fin 64} {j k : Fin 8192} (h : (r, k) ≠ (p, j)) : 8192 * r.val + k.val ≠ 8192 * p.val + j.val := by
  intro e
  refine h (Prod.ext (Fin.ext ?_) (Fin.ext ?_)) <;> dsimp only <;> omega

section
variable {s : State} (p : Fin 64) (j : Fin 8192) (f : Nozzle → Nozzle)

theorem State.nz_of_hlt {s t : State} (h : t.hlt.nz = s.hlt.nz) (p j : Nat) : t.nz p j = s.nz p j := by
  rw [State.nz, State.nz, h]

section
variable (sorted : SMap.Sorted s.hlt.nz)
include sorted

theorem State.modNz_sorted : SMap.Sorted (s.modNz p j f).hlt.nz := sorted.set _ _ _

theorem State.modNz_nz : (s.modNz p j f).nz p j = f (s.nz p j) := SMap.get_set_same sorted _ _ _

theorem State.modNz_nz_ne {r : Fin 64} {k : Fin 8192} (h : (r, k) ≠ (p, j)) : (s.modNz p j f).nz r k = s.nz r k :=
  SMap.get_set_ne sorted _ _ (nozzleKey_ne h)

end

/-- A nozzle that goes OUT is kept in any map, sorted or not. -/
theorem State.modNz_nz_out (out : (f (s.nz p j)).hout = true) : (s.modNz p j f).nz p j = f (s.nz p j) := by
  have ne : f (s.nz p j) ≠ {} := by
    intro e
    rw [e] at out
    exact absurd out (by decide)
  show SMap.get (SMap.set s.hlt.nz {} (8192 * p.val + j.val) (f (s.nz p j))) {} (8192 * p.val + j.val) = f (s.nz p j)
  rw [SMap.set, if_neg ne]
  exact SMap.get_put_same _ _ _ _

end

/-! ## Nozzles put OUT and returned -/

section
variable (s : State) (p : Fin 64) (j : Fin 8192)

theorem State.putOut_hlt {k : Nat} (h : (s.nz p j).hout = false) : (s.putOut p [j] k).hlt =
    { (s.modNz p j (fun x => { x with hout := true, cause := k })).hlt with flips := vmod s.hlt.flips p (fun n => satAdd 16 n 1) } := by
  unfold State.putOut
  have one : [j.val].filter (fun j => !(s.nz p j).hout) = [j.val] := by simp [h]
  simp only [one]
  rw [if_neg (by simp), (State.postUnit_posts _ _ _).hlt]
  split
  · rw [State.setEv_hlt]
    rfl
  · rfl

theorem State.putIn_idle (h : (s.nz p j).hout = false) : s.putIn p [j] = s := by
  unfold State.putIn
  simp [h]

theorem State.putIn_hlt (h : (s.nz p j).hout = true) : (s.putIn p [j]).hlt =
    { (s.modNz p j (fun x => { x with hout := false, cause := 0 })).hlt with
      returns := vmod s.hlt.returns p (fun n => satAdd 16 n 1) } := by
  unfold State.putIn
  have one : [j.val].filter (fun j => (s.nz p j).hout) = [j.val] := by simp [h]
  simp only [one]
  rw [if_neg (by simp), (State.postUnit_posts _ _ _).hlt]
  rfl

end

end Sys2Proof.Machine
end

section
/-! The words of the commands to the health engine (09 R293-R299) -/
namespace Sys2Proof.Machine
open Sys2Proof

/-! ## Words of many fields -/

/-- The number that fields (offset, width, value) add up to. -/
def fieldSum : List (Nat × Nat × Nat) → Nat
  | [] => 0
  | (a, w, v) :: l => v % 2 ^ w * 2 ^ a + fieldSum l

theorem foldl_fieldSum : ∀ (l : List (Nat × Nat × Nat)) (n : Nat),
    l.foldl (fun acc f => acc + (f.2.2 % 2 ^ f.2.1) * 2 ^ f.1) n = n + fieldSum l
  | [], n => rfl
  | (a, w, v) :: l, n => by
    rw [List.foldl_cons, foldl_fieldSum l, fieldSum, Nat.add_assoc]

theorem fields_toNat (l : List (Nat × Nat × Nat)) : (fields l).toNat = fieldSum l % 2 ^ 64 := by
  rw [fields, BitVec.toNat_ofNat, foldl_fieldSum, Nat.zero_add]

/-! ## Words whose fields fit -/

section
variable {p j op : Nat} (hp : p < 64) (hj : j < 8192) (hop : op < 4)
include hp hj hop

theorem nzWord_toNat : (fields [(0, 13, j), (16, 6, p), (24, 2, op)] : Word).toNat = j + p * 2 ^ 16 + op * 2 ^ 24 := by
  rw [fields_toNat]
  simp only [fieldSum]
  omega

theorem nzWord_fields : bits (fields [(0, 13, j), (16, 6, p), (24, 2, op)]) 12 0 = j ∧
    bits (fields [(0, 13, j), (16, 6, p), (24, 2, op)]) 21 16 = p ∧
    bits (fields [(0, 13, j), (16, 6, p), (24, 2, op)]) 25 24 = op := by
  simp only [bits, bitsN, nzWord_toNat hp hj hop]
  omega

end

/-- HLT.TESTCTL as TEST_ARM writes it. -/
def testWord (c q a b bg th : Nat) : Word :=
  fields [(0, 1, 1), (1, 2, c), (4, 4, q), (8, 7, a), (15, 7, b), (32, 16, bg), (48, 16, th)]

/-- HLT.ALCTL as ALIGN_ARM writes it. -/
def alignWord (c q m bg th : Nat) : Word :=
  fields [(0, 1, 1), (1, 2, c), (4, 4, q), (8, 11, m), (32, 16, bg), (48, 16, th)]

section
variable {c q bg th : Nat} (hc : c < 4) (hq : q < 16) (hbg : bg < 65536) (hth : th < 65536)

section
variable {a b : Nat} (ha : a < 128) (hb : b < 128)
include hc hq hbg hth ha hb

theorem testWord_toNat : (testWord c q a b bg th).toNat =
    1 + c * 2 ^ 1 + q * 2 ^ 4 + a * 2 ^ 8 + b * 2 ^ 15 + bg * 2 ^ 32 + th * 2 ^ 48 := by
  rw [testWord, fields_toNat]
  simp only [fieldSum]
  omega

theorem testWord_arms : bit (testWord c q a b bg th) 0 = true := by
  rw [bit, testWord_toNat hc hq hbg hth ha hb, Nat.testBit_eq_decide_div_mod_eq]
  exact decide_eq_true (by omega)

theorem testWord_fields :
    bits (testWord c q a b bg th) 2 1 = c ∧ bits (testWord c q a b bg th) 7 4 = q ∧ bits (testWord c q a b bg th) 14 8 = a ∧
    bits (testWord c q a b bg th) 21 15 = b ∧ bits (testWord c q a b bg th) 47 32 = bg ∧ bits (testWord c q a b bg th) 63 48 = th := by
  simp only [bits, bitsN, testWord_toNat hc hq hbg hth ha hb]
  omega

end

variable {m : Nat} (hm : m < 2048)
include hc hq hbg hth hm

theorem alignWord_toNat : (alignWord c q m bg th).toNat = 1 + c * 2 ^ 1 + q * 2 ^ 4 + m * 2 ^ 8 + bg * 2 ^ 32 + th * 2 ^ 48 := by
  rw [alignWord, fields_toNat]
  simp only [fieldSum]
  omega

theorem alignWord_arms : bit (alignWord c q m bg th) 0 = true := by
  rw [bit, alignWord_toNat hc hq hbg hth hm, Nat.testBit_eq_decide_div_mod_eq]
  exact decide_eq_true (by omega)

theorem alignWord_fields : bits (alignWord c q m bg th) 2 1 = c ∧ bits (alignWord c q m bg th) 7 4 = q ∧
    bits (alignWord c q m bg th) 18 8 = m ∧ bits (alignWord c q m bg th) 47 32 = bg ∧ bits (alignWord c q m bg th) 63 48 = th := by
  simp only [bits, bitsN, alignWord_toNat hc hq hbg hth hm]
  omega

end

end Sys2Proof.Machine
end

section
/-! The commands to the health engine (09 R290-R301) -/
namespace Sys2Proof.Machine
open Sys2Proof

/-! ## The commands -/

section
variable {u : State} {n : Nat}

section
variable {p : Fin 64} {j : Fin 8192} {op : Nat} {v : Word} (hp : bits v 21 16 = p.val) (hop : bits v 25 24 = op)
include hp hop

theorem State.wrNzCtl_allowed (hj : bits v 12 0 = j.val) (act : (u.isSteward n || u.holds n p) = true)
    (some_ : j.val < bits (vget u.kl p).headId 47 32) (works : op = 1 ∨ op = 2) : (u.wrNzCtl n v).1 =
    if op = 1 then (if (u.nz p j).hout then u.modNz p j (fun x => { x with cause := 3 }) else u.putOut p [j] 3)
    else if u.healthBefore.justOut p j then u.healthBefore.modNz p j (fun x => { x with nrcnt := 0 })
    else (u.healthBefore.putIn p [j]).modNz p j (fun x => { x with hout := false, cause := 0, nrcnt := 0 }) := by
  have may : ¬(!u.isSteward n && !u.holds n p) = true := by
    rcases Bool.or_eq_true_iff.1 act with a | a <;> simp [a]
  unfold State.wrNzCtl
  dsimp only
  rw [hj, hp, hop, if_neg (by rcases works with h | h <;> simp [h]), if_neg may, if_neg (Nat.not_le.2 some_)]
  split
  · split <;> rfl
  · split <;> rfl

theorem State.wrNzCtl_noRight (works : op = 1 ∨ op = 2) (no : (u.isSteward n || u.holds n p) = false) :
    (u.wrNzCtl n v).1 = u.postErr n 0x0A0A p 1 := by
  obtain ⟨stew, free⟩ := Bool.or_eq_false_iff.1 no
  unfold State.wrNzCtl
  dsimp only
  rw [hp, hop, if_neg (by rcases works with h | h <;> simp [h]), if_pos (by rw [stew, free]; rfl)]
  rfl

theorem State.wrNzCtl_noNozzle (hj : bits v 12 0 = j.val) (works : op = 1 ∨ op = 2)
    (act : (u.isSteward n || u.holds n p) = true) (none_ : bits (vget u.kl p).headId 47 32 ≤ j.val) :
    (u.wrNzCtl n v).1 = u.postErr n 0x0A0A p 2 := by
  have may : ¬(!u.isSteward n && !u.holds n p) = true := by
    rcases Bool.or_eq_true_iff.1 act with a | a <;> simp [a]
  unfold State.wrNzCtl
  dsimp only
  rw [hj, hp, hop, if_neg (by rcases works with h | h <;> simp [h]), if_neg may, if_pos none_]
  rfl

end

section
variable {c : Fin 4} {q : Fin 16} {v : Word} (hc : bits v 2 1 = c.val) (hq : bits v 7 4 = q.val) (arms : bit v 0 = true)
include hc hq arms

theorem State.wrTestCtl_arms {a b bg th : Nat} (ha : bits v 14 8 = a) (hb : bits v 21 15 = b) (hbg : bits v 47 32 = bg)
    (hth : bits v 63 48 = th) (idle : u.hlt.test = none) (cam : u.holds n (uCam c) = true) (seq : u.holds n (uSeq q) = true) :
    ∃ nz m, (u.wrTestCtl n v).1 = u.modHlt (fun h => { h with
      test := some { cam := c, seq := q, a := a + 1, b := b, bg := bg, th := th, at_ := u.now }, testDone := false, nz := nz,
      sensePorts := m }) := by
  unfold State.wrTestCtl
  dsimp only
  rw [hc, hq, ha, hb, hbg, hth, arms, if_neg (by decide), if_neg (by simp [idle, cam, seq])]
  exact ⟨_, _, rfl⟩

theorem State.wrTestCtl_refused (no : u.hlt.test ≠ none ∨ u.holds n (uCam c) = false ∨ u.holds n (uSeq q) = false) :
    (u.wrTestCtl n v).1 = u.postErr n 0x0A08 c := by
  unfold State.wrTestCtl
  dsimp only
  rw [hc, hq, arms, if_neg (by decide), if_pos]
  · rfl
  · rcases no with h | h | h
    · simp [Option.isSome_iff_ne_none.2 h]
    · simp [h]
    · simp [h]

theorem State.wrAlCtl_arms {m bg th : Nat} (hm : bits v 18 8 = m) (hbg : bits v 47 32 = bg) (hth : bits v 63 48 = th)
    (idle : u.hlt.al = none) (cam : u.holds n (uCam c) = true) (seq : u.holds n (uSeq q) = true) :
    (u.wrAlCtl n v).1 = u.modHlt (fun h => { h with
      al := some { cam := c, seq := q, a := m, bg := bg, th := th, at_ := u.now }, alDone := false }) := by
  unfold State.wrAlCtl
  dsimp only
  rw [hc, hq, hm, hbg, hth, arms, if_neg (by decide), if_neg (by simp [idle, cam, seq])]

theorem State.wrAlCtl_refused (no : u.hlt.al ≠ none ∨ u.holds n (uCam c) = false ∨ u.holds n (uSeq q) = false) :
    (u.wrAlCtl n v).1 = u.postErr n 0x0A08 c := by
  unfold State.wrAlCtl
  dsimp only
  rw [hc, hq, arms, if_neg (by decide), if_pos]
  · rfl
  · rcases no with h | h | h
    · simp [Option.isSome_iff_ne_none.2 h]
    · simp [h]
    · simp [h]

end

theorem State.wrTestCtl_disarm : (u.wrTestCtl n 0).1 =
    if u.acting n then u.modHlt (fun h => { h with test := none }) else u.postErr n 0x0102 0 := by
  show ((if u.acting n then (u.modHlt (fun h => { h with test := none }), 0) else u.refuse n 0x0102 0) : State × Nat).1 = _
  split <;> rfl

theorem State.wrAlCtl_disarm : (u.wrAlCtl n 0).1 =
    if u.acting n then u.modHlt (fun h => { h with al := none }) else u.postErr n 0x0102 0 := by
  show ((if u.acting n then (u.modHlt (fun h => { h with al := none }), 0) else u.refuse n 0x0102 0) : State × Nat).1 = _
  split <;> rfl

end

end Sys2Proof.Machine
end

section
/-! Nozzle health: what the commands and the engine's ticks leave (09 R285-R301) -/
namespace Sys2Proof.Machine
open Sys2Proof

/-! ## A nozzle put OUT or returned by a host -/

section
variable {u : State} (p : Fin 64) (j : Fin 8192)

/-- The nozzle after NZCTL_OUT, the others and the count. -/
theorem State.hostOut_nz (sorted : SMap.Sorted u.hlt.nz) {t : State}
    (ht : t = if (u.nz p j).hout then u.modNz p j (fun x => { x with cause := 3 }) else u.putOut p [j] 3) :
    t.nz p j = { u.nz p j with hout := true, cause := 3 } ∧
    (∀ (r : Fin 64) (k : Fin 8192), (r, k) ≠ (p, j) → t.nz r k = u.nz r k) ∧
    vget t.hlt.flips p = (if (u.nz p j).hout then vget u.hlt.flips p else satAdd 16 (vget u.hlt.flips p) 1) := by
  cases out : (u.nz p j).hout
  case true =>
    rw [out, if_pos rfl] at ht
    subst ht
    refine ⟨?_, fun r k h => State.modNz_nz_ne p j _ sorted h, rfl⟩
    rw [State.modNz_nz p j _ sorted, ← out]
  case false =>
    rw [out, if_neg (by decide)] at ht
    have hlt := u.putOut_hlt p j (k := 3) out
    rw [← ht] at hlt
    have nz : t.hlt.nz = (u.modNz p j (fun x => { x with hout := true, cause := 3 })).hlt.nz := (congrArg Health.nz hlt).trans rfl
    have flips : t.hlt.flips = vmod u.hlt.flips p (fun n => satAdd 16 n 1) := (congrArg Health.flips hlt).trans rfl
    refine ⟨?_, fun r k h => ?_, ?_⟩
    · rw [State.nz_of_hlt nz, State.modNz_nz p j _ sorted]
    · rw [State.nz_of_hlt nz, State.modNz_nz_ne p j _ sorted h]
    · rw [flips, vget_vmod_fin]
      rfl

/-- The nozzle after NZCTL_RELEASE, the others and the count. -/
theorem State.hostIn_nz (sorted : SMap.Sorted u.hlt.nz) {t : State}
    (ht : t = (u.putIn p [j]).modNz p j (fun x => { x with hout := false, cause := 0, nrcnt := 0 })) :
    t.nz p j = { u.nz p j with hout := false, cause := 0, nrcnt := 0 } ∧
    (∀ (r : Fin 64) (k : Fin 8192), (r, k) ≠ (p, j) → t.nz r k = u.nz r k) ∧
    vget t.hlt.returns p = (if (u.nz p j).hout then satAdd 16 (vget u.hlt.returns p) 1 else vget u.hlt.returns p) := by
  subst ht
  cases out : (u.nz p j).hout
  case false =>
    rw [State.putIn_idle u p j out]
    refine ⟨?_, fun r k h => State.modNz_nz_ne p j _ sorted h, rfl⟩
    rw [State.modNz_nz p j _ sorted]
  case true =>
    have hlt := u.putIn_hlt p j out
    have nz : (u.putIn p [j]).hlt.nz = (u.modNz p j (fun x => { x with hout := false, cause := 0 })).hlt.nz := (congrArg Health.nz hlt).trans rfl
    have returns : (u.putIn p [j]).hlt.returns = vmod u.hlt.returns p (fun n => satAdd 16 n 1) := (congrArg Health.returns hlt).trans rfl
    have still : SMap.Sorted (u.putIn p [j]).hlt.nz := by
      rw [nz]
      exact State.modNz_sorted p j _ sorted
    refine ⟨?_, fun r k h => ?_, ?_⟩
    · rw [State.modNz_nz p j _ still, State.nz_of_hlt nz, State.modNz_nz p j _ sorted]
    · rw [State.modNz_nz_ne p j _ still h, State.nz_of_hlt nz, State.modNz_nz_ne p j _ sorted h]
    · show vget (u.putIn p [j]).hlt.returns p = _
      rw [returns, vget_vmod_fin]
      rfl

theorem State.putOut_out {k : Nat} (in_ : (u.nz p j).hout = false) : (u.putOut p [j] k).nz p j = { u.nz p j with hout := true, cause := k } ∧
    vget (u.putOut p [j] k).hlt.flips p = satAdd 16 (vget u.hlt.flips p) 1 := by
  have hlt := u.putOut_hlt p j (k := k) in_
  have nz : (u.putOut p [j] k).hlt.nz = (u.modNz p j (fun x => { x with hout := true, cause := k })).hlt.nz := (congrArg Health.nz hlt).trans rfl
  have flips : (u.putOut p [j] k).hlt.flips = vmod u.hlt.flips p (fun n => satAdd 16 n 1) := (congrArg Health.flips hlt).trans rfl
  refine ⟨?_, ?_⟩
  · rw [State.nz_of_hlt nz, State.modNz_nz_out p j _ rfl]
  · rw [flips, vget_vmod_fin]

end

/-! ## The engine's queue -/

section
variable {s : State}

theorem State.engineNext_busy (h : s.engineBusy = true) : s.engineNext = s := by
  unfold State.engineNext
  cases s.hlt.waitq.length with
  | zero => rfl
  | succ n => rw [State.engineRun, if_pos h]

theorem State.engineNext_idle (h : s.hlt.waitq = []) : s.engineNext = s := by
  rw [State.engineNext, h]
  rfl

theorem State.engineTake_busy {r : VisRes} (h : s.engineBusy = true) :
    s.engineTake r = s.modHlt (fun x => { x with waitq := x.waitq ++ [r] }) := State.engineNext_busy h

theorem State.engineTake_idle {r : VisRes} (h : s.engineBusy = false) (wait : s.hlt.waitq = []) (arm : r.arm = none) :
    s.engineTake r = s.scoreFrame r := by
  have queued : (s.modHlt (fun x => { x with waitq := x.waitq ++ [r] })).hlt.waitq = [r] := by
    show s.hlt.waitq ++ [r] = [r]
    rw [wait]
    rfl
  have back : (s.modHlt (fun x => { x with waitq := x.waitq ++ [r] })).modHlt (fun x => { x with waitq := [] }) = s := by
    show { s with hlt := { s.hlt with waitq := [] } } = s
    rw [← wait]
  have one : [r].length = 0 + 1 := rfl
  rw [State.engineTake, State.engineNext, queued, one, State.engineRun]
  rw [if_neg (show ¬(s.modHlt _).engineBusy = true from by rw [show (s.modHlt _).engineBusy = s.engineBusy from rfl, h]; decide)]
  simp only [queued, arm, back]
  rfl

end

end Sys2Proof.Machine
end

section
/-! Nozzle health: results, apply ticks and tests, settled (09 R285-R301) -/
namespace Sys2Proof.Machine
open Sys2Proof

/-! ## What changes nozzles leaves the engine's queues -/

/-- Of the health engine only nozzles and their counts may change. -/
def NozzlesOnly (s t : State) : Prop := t.hlt = { s.hlt with nz := t.hlt.nz, flips := t.hlt.flips, returns := t.hlt.returns }

namespace NozzlesOnly
variable {s t u : State}

theorem refl (s : State) : NozzlesOnly s s := rfl

theorem of_hlt (h : t.hlt = s.hlt) : NozzlesOnly s t := by
  unfold NozzlesOnly
  rw [h]

theorem trans (h : NozzlesOnly s t) (k : NozzlesOnly t u) : NozzlesOnly s u := by
  unfold NozzlesOnly at *
  rw [k, h]

theorem each {α : Type} {f : State → α → State} (hf : ∀ u a, NozzlesOnly u (f u a)) : ∀ (l : List α) (s : State),
    NozzlesOnly s (s.each l f)
  | [], s => refl s
  | a :: l, s => (hf s a).trans (each hf l (f s a))

theorem waitq (h : NozzlesOnly s t) : t.hlt.waitq = s.hlt.waitq := (congrArg Health.waitq h).trans rfl
theorem test (h : NozzlesOnly s t) : t.hlt.test = s.hlt.test := (congrArg Health.test h).trans rfl

end NozzlesOnly

section
variable (s : State)

theorem State.modNz_only (p j : Nat) (f : Nozzle → Nozzle) : NozzlesOnly s (s.modNz p j f) := rfl

theorem State.putOut_only (p : Nat) (js : List Nat) (k : Nat) : NozzlesOnly s (s.putOut p js k) := by
  unfold State.putOut
  dsimp only
  split
  · exact .refl s
  · refine .trans ?_ (.of_hlt (State.postUnit_posts _ _ _).hlt)
    have outs : NozzlesOnly s ((s.each (js.filter fun j => !(s.nz p j).hout) fun s j =>
        s.modNz p j fun x => { x with hout := true, cause := k }).modHlt fun h => { h with
        flips := vmod h.flips p (fun n => satAdd 16 n (js.filter fun j => !(s.nz p j).hout).length) }) :=
      .trans (.each (fun u j => u.modNz_only p j _) _ s) rfl
    split
    · exact outs.trans (.of_hlt (State.setEv_hlt _ _ _))
    · exact outs

theorem State.putIn_only (p : Nat) (js : List Nat) : NozzlesOnly s (s.putIn p js) := by
  unfold State.putIn
  dsimp only
  split
  · exact .refl s
  · refine .trans ?_ (.of_hlt (State.postUnit_posts _ _ _).hlt)
    exact .trans (.each (fun u j => u.modNz_only p j _) _ s) rfl

theorem State.applyOuts_waitq (a : Apply) : (s.applyOuts a).hlt.waitq = s.hlt.waitq := by
  have kept : NozzlesOnly s (s.putOutAll a.outs a.cause) := .each (fun u p => u.putOut_only p _ _) _ s
  exact kept.waitq

/-- A test's outcome, but for the registers that report it. -/
def State.testNozzles (y : TestEnd) (back : List (Nat × Nat)) : State :=
  ((s.each y.failed (fun s x => s.modNz x.1 x.2 (fun z => { z with tfail := min 7 (z.tfail + 1) }))).each
    (those 64 (fun p => back.any (fun x => x.1 == p))) (fun s p => s.putIn p ((back.filter (fun x => x.1 == p)).map (·.2)))).each
    back (fun s x => s.modNz x.1 x.2 (fun z => { z with nrcnt := 0 }))

theorem State.testNozzles_only (y : TestEnd) (back : List (Nat × Nat)) : NozzlesOnly s (s.testNozzles y back) :=
  ((NozzlesOnly.each (fun u _ => u.modNz_only _ _ _) _ s).trans (.each (fun u p => u.putIn_only p _) _ _)).trans
    (.each (fun u _ => u.modNz_only _ _ _) _ _)

/-- What a test's outcome leaves in the health engine. -/
theorem State.testResult_hlt (y : TestEnd) : (s.testResult y).hlt.test = s.hlt.test.filter (fun a => a != y.arm) ∧
    (s.testResult y).hlt.testEnd = none ∧ (s.testResult y).hlt.testDone = true ∧
    (s.testResult y).hlt.failed = sat 16 y.failed.length ∧ (s.testResult y).hlt.ambig = sat 16 y.ambig ∧
    (s.testResult y).hlt.returned = sat 16 (y.returned.filter (fun x => (s.nz x.1 x.2).hout && (s.nz x.1 x.2).cause != 3)).length ∧
    (s.testResult y).hlt.waitq = s.hlt.waitq := by
  have kept := s.testNozzles_only y (y.returned.filter (fun x => (s.nz x.1 x.2).hout && (s.nz x.1 x.2).cause != 3))
  unfold State.testResult
  dsimp only
  rw [← State.testNozzles, (State.postUnit_posts _ _ _).hlt]
  refine ⟨?_, rfl, rfl, rfl, rfl, rfl, kept.waitq⟩
  exact congrArg (Option.filter (fun a => a != y.arm)) kept.test

end

/-! ## The ticks -/

section
variable {u : State}

theorem State.healthApply_due {a : Apply} {l : List Apply} (queue : u.hlt.applies = a :: l) (due : a.at_ ≤ u.now) :
    u.healthApply = ((u.modHlt (fun h => { h with applies := l })).applyOuts a).engineNext := by
  unfold State.healthApply State.frameApply
  simp only [queue, due, if_true]

theorem State.senseApply_due {p : Fin 64} {a : Apply} {l : List Apply} (queue : u.hlt.senses = a :: l) (due : a.at_ ≤ u.now)
    (mine : a.outs.any (fun x => x.1 == p.val) = true) (idle : u.hlt.applies = []) :
    u.senseApply p = (u.modHlt (fun h => { h with senses := l })).applyOuts a := by
  have found : u.hlt.senses.find? (fun a => a.at_ ≤ u.now && a.outs.any (fun x => x.1 == p.val)) = some a := by
    rw [queue, List.find?_cons_of_pos]
    rw [mine, decide_eq_true due]
    rfl
  have first : u.hlt.senses.erase a = l := by
    rw [queue, List.erase_cons_head]
  unfold State.senseApply
  simp only [found, first]
  unfold State.frameApply
  have none_ : (u.modHlt (fun h => { h with senses := h.senses.erase a })).hlt.applies = [] := idle
  simp only [none_]
  show (u.modHlt (fun h => { h with senses := u.hlt.senses.erase a })).applyOuts a = _
  rw [first]

theorem State.senseApply_none {p : Fin 64} (none_ : u.hlt.senses = []) : u.senseApply p = u := by
  rw [State.senseApply, none_]
  rfl

theorem State.testApply_due {y : TestEnd} (some_ : u.hlt.testEnd = some y) (due : y.at_ ≤ u.now) (idle : u.hlt.waitq = []) :
    u.testApply = u.testResult y := by
  obtain ⟨-, -, -, -, -, -, waitq⟩ := u.testResult_hlt y
  unfold State.testApply State.testApplyBy
  simp only [some_, due, if_true]
  exact State.engineNext_idle (waitq.trans idle)

theorem State.testApply_none (none_ : u.hlt.testEnd = none) : u.testApply = u := by
  unfold State.testApply State.testApplyBy
  rw [none_]

/-! ## Vision results -/

theorem State.visionResult_none (none_ : u.hlt.visq = []) : u.visionResult = u := by
  rw [State.visionResult, none_]

section
variable {h r : VisRes} {l : List VisRes} (queue : u.hlt.visq = h :: l)
include queue

theorem State.visionResult_early (early : u.ticks < u.arrivalTick h) : u.visionResult = u := by
  unfold State.visionResult
  simp only [queue, early, if_true]

section
variable (come : u.arrivalTick h ≤ u.ticks)
  (first : r = (u.hlt.visq.find? (fun r => r.cam < 2 && u.arrivalTick r == u.arrivalTick h)).getD h) {v : State}
  (hv : v = (u.modHlt (fun x => { x with visq := x.visq.erase r })).healthBefore)
include come first hv

theorem State.visionResult_useless (no : r.doubt = true ∨ r.align = true ∨ r.nbins = 0) : u.visionResult = v := by
  rw [queue] at first
  unfold State.visionResult
  simp only [queue]
  rw [if_neg (Nat.not_lt.2 come), ← first, if_pos (by rcases no with h | h | h <;> simp [h]), hv]

theorem State.visionResult_scored (test : v.hlt.test = none) (good : ¬(r.doubt = true ∨ r.align = true ∨ r.nbins = 0)) :
    u.visionResult = if v.rf (0x03800100 + 8 * r.seq) 0 0 = 1 then v.engineTake { r with at_ := v.now } else v := by
  rw [queue] at first
  unfold State.visionResult
  simp only [queue]
  rw [if_neg (Nat.not_lt.2 come), ← first, if_neg (by simpa [not_or, and_assoc] using good), ← hv, test]
  rfl

end
end
end

/-! ## The obligation, part by part -/

section
variable {e : Env} {w : Writer} {s u : State} (hu : u = s.arrive e)
include hu

section
variable {n : Nat} (hr : u.phase = .ready) (hw : u.writer w = some n)
include hr hw

section
variable (p : Fin 64) (j : Fin 8192) (auth : writerAuth w = true)
include auth

theorem exec_nzctlOut_of : exec (.nzctlOut e w p j) s = .next (State.nzOp p j 1 u n).1 := by
  rw [exec_nzctlOut, execNzctlOut, ← hu, State.asWriter_of_auth hr hw auth]

theorem exec_nzctlRelease_of : exec (.nzctlRelease e w p j) s = .next (State.nzOp p j 2 u n).1 := by
  rw [exec_nzctlRelease, execNzctlRelease, ← hu, State.asWriter_of_auth hr hw auth]

theorem nzctlOut_refused {k : Word} (h : ∀ op v, bits v 12 0 = j.val → bits v 21 16 = p.val → bits v 25 24 = op → op = 1 ∨ op = 2 →
    (u.wrNzCtl n v).1 = u.postErr n 0x0A0A p k) : exec (.nzctlOut e w p j) s = .next (u.postErr n 0x0A0A p k) ∧
    exec (.nzctlRelease e w p j) s = .next (u.postErr n 0x0A0A p k) := by
  obtain ⟨hj, hp, out⟩ := nzWord_fields p.isLt j.isLt (show 1 < 4 by omega)
  obtain ⟨hj', hp', back⟩ := nzWord_fields p.isLt j.isLt (show 2 < 4 by omega)
  rw [exec_nzctlOut_of hu hr hw p j auth, exec_nzctlRelease_of hu hr hw p j auth]
  exact ⟨congrArg _ (h 1 _ hj hp out (.inl rfl)), congrArg _ (h 2 _ hj' hp' back (.inr rfl))⟩

section
variable (act : (u.isSteward n || u.holds n p) = true) (some_ : j.val < bits (vget u.kl p).headId 47 32)
include act some_

theorem exec_nzctlOut_allowed : exec (.nzctlOut e w p j) s = .next (if (u.nz p j).hout
    then u.modNz p j (fun x => { x with cause := 3 }) else u.putOut p [j] 3) := by
  obtain ⟨hj, hp, hop⟩ := nzWord_fields p.isLt j.isLt (show 1 < 4 by omega)
  rw [exec_nzctlOut_of hu hr hw p j auth, State.nzOp, State.wrNzCtl_allowed hp hop hj act some_ (.inl rfl), if_pos rfl]

theorem exec_nzctlRelease_allowed : exec (.nzctlRelease e w p j) s = .next (if u.healthBefore.justOut p j
    then u.healthBefore.modNz p j (fun x => { x with nrcnt := 0 })
    else (u.healthBefore.putIn p [j]).modNz p j (fun x => { x with hout := false, cause := 0, nrcnt := 0 })) := by
  obtain ⟨hj, hp, hop⟩ := nzWord_fields p.isLt j.isLt (show 2 < 4 by omega)
  rw [exec_nzctlRelease_of hu hr hw p j auth, State.nzOp, State.wrNzCtl_allowed hp hop hj act some_ (.inr rfl),
    if_neg (by omega)]

end
end

section
variable (c : Fin 4) (q : Fin 16) (bg th : Fin 65536)

theorem exec_testArm_of (a b : Fin 128) : exec (.testArm e w c q a b bg th) s = .next (u.wrTestCtl n (testWord c q a b bg th)).1 := by
  rw [exec_testArm, execTestArm, ← hu, State.asWriter_of_ready hr hw, State.testOp, ← testWord]

theorem exec_alignArm_of (m : Fin 2048) : exec (.alignArm e w c q m bg th) s = .next (u.wrAlCtl n (alignWord c q m bg th)).1 := by
  rw [exec_alignArm, execAlignArm, ← hu, State.asWriter_of_ready hr hw, State.alignOp, ← alignWord]

end
end
end

/-- Settles O40. -/
theorem healthCommandsAndTicks : Obligations.HealthCommandsAndTicks := by
  refine ⟨fun e w s u v n hu hv hr hw => ⟨fun p j auth => ⟨fun act some_ => ⟨fun sorted => ?_, fun sorted in_ => ?_, fun just => ?_⟩,
    fun no => ?_, fun act none_ => ?_⟩, fun c q a b bg th => ⟨fun idle cam seq => ?_, fun no => ?_⟩,
    fun c q m bg th => ⟨fun idle cam seq => ?_, fun no => ?_⟩, fun act => ?_, fun act => ?_⟩, fun e s u hu => ⟨fun h r l v queue first hv =>
    ⟨fun early => ?_, fun come => ⟨fun no => ?_, fun off test => ?_, fun on test doubt align bins => ⟨fun busy => ?_, fun free wait arm => ?_⟩⟩⟩,
    fun none_ => ?_, fun a l v queue due hv => ?_, fun p a l queue due mine idle => ?_, fun p none_ => ?_,
    fun y some_ due idle => ?_, fun none_ => ?_, fun p j k in_ => u.putOut_out p j in_⟩⟩
  · exact ⟨_, exec_nzctlOut_allowed hu hr hw p j auth act some_, State.hostOut_nz p j sorted rfl⟩
  · rw [exec_nzctlRelease_allowed hu hr hw p j auth act some_, ← hv, if_neg (by rw [in_]; decide)]
    exact ⟨_, rfl, State.hostIn_nz p j sorted rfl⟩
  · rw [exec_nzctlRelease_allowed hu hr hw p j auth act some_, ← hv, if_pos just]
  · exact nzctlOut_refused hu hr hw p j auth fun op w hj hp hop works => State.wrNzCtl_noRight hp hop works no
  · exact nzctlOut_refused hu hr hw p j auth fun op w hj hp hop works => State.wrNzCtl_noNozzle hp hop hj works act none_
  · obtain ⟨hc, hq, ha, hb, hbg, hth⟩ := testWord_fields c.isLt q.isLt bg.isLt th.isLt a.isLt b.isLt
    have arms := testWord_arms c.isLt q.isLt bg.isLt th.isLt a.isLt b.isLt
    obtain ⟨nz, m, armed⟩ := State.wrTestCtl_arms hc hq arms ha hb hbg hth idle cam seq
    exact ⟨_, (exec_testArm_of hu hr hw c q bg th a b).trans (congrArg _ armed), rfl, rfl, rfl, rfl, rfl, rfl⟩
  · obtain ⟨hc, hq, -⟩ := testWord_fields c.isLt q.isLt bg.isLt th.isLt a.isLt b.isLt
    have arms := testWord_arms c.isLt q.isLt bg.isLt th.isLt a.isLt b.isLt
    rw [exec_testArm_of hu hr hw, State.wrTestCtl_refused hc hq arms no]
  · obtain ⟨hc, hq, hm, hbg, hth⟩ := alignWord_fields c.isLt q.isLt bg.isLt th.isLt m.isLt
    have arms := alignWord_arms c.isLt q.isLt bg.isLt th.isLt m.isLt
    rw [exec_alignArm_of hu hr hw, State.wrAlCtl_arms hc hq arms hm hbg hth idle cam seq]
  · obtain ⟨hc, hq, -⟩ := alignWord_fields c.isLt q.isLt bg.isLt th.isLt m.isLt
    have arms := alignWord_arms c.isLt q.isLt bg.isLt th.isLt m.isLt
    rw [exec_alignArm_of hu hr hw, State.wrAlCtl_refused hc hq arms no]
  · rw [exec_testDisarm, execTestDisarm, exec_alignDisarm, execAlignDisarm, ← hu, State.asWriter_of_ready hr hw,
      State.asWriter_of_ready hr hw, State.wrTestCtl_disarm, State.wrAlCtl_disarm, if_pos act, if_pos act]
    exact ⟨rfl, rfl⟩
  · rw [exec_testDisarm, execTestDisarm, exec_alignDisarm, execAlignDisarm, ← hu, State.asWriter_of_ready hr hw,
      State.asWriter_of_ready hr hw, State.wrTestCtl_disarm, State.wrAlCtl_disarm, if_neg (by simp [act]), if_neg (by simp [act])]
    exact ⟨rfl, rfl⟩
  · rw [exec_visionResult, execVisionResult, ← hu, State.visionResult_early queue early]
  · rw [exec_visionResult, execVisionResult, ← hu, State.visionResult_useless queue come first hv no]
  · rw [exec_visionResult, execVisionResult, ← hu]
    by_cases no : r.doubt = true ∨ r.align = true ∨ r.nbins = 0
    · rw [State.visionResult_useless queue come first hv no]
    · rw [State.visionResult_scored queue come first hv test no, if_neg (by omega)]
  · rw [exec_visionResult, execVisionResult, ← hu, State.visionResult_scored queue come first hv test (by simp [doubt, align, bins]),
      if_pos on, State.engineTake_busy busy]
  · rw [exec_visionResult, execVisionResult, ← hu, State.visionResult_scored queue come first hv test (by simp [doubt, align, bins]),
      if_pos on, State.engineTake_idle (r := { r with at_ := v.now }) free wait arm]
  · rw [exec_visionResult, execVisionResult, ← hu, State.visionResult_none none_]
  · rw [exec_healthApply, execHealthApply, ← hu, State.healthApply_due queue due, ← hv]
    refine ⟨rfl, fun wait => ?_⟩
    rw [State.engineNext_idle]
    rw [hv, State.applyOuts_waitq]
    exact wait
  · rw [exec_senseApply, execSenseApply, ← hu, State.senseApply_due queue due mine idle]
  · rw [exec_senseApply, execSenseApply, ← hu, State.senseApply_none none_]
  · obtain ⟨test, ended, done, failed, ambig, returned, -⟩ := u.testResult_hlt y
    exact ⟨_, by rw [exec_testApply, execTestApply, ← hu, State.testApply_due some_ due idle], test, ended, done, failed, ambig, returned⟩
  · rw [exec_testApply, execTestApply, ← hu, State.testApply_none none_]

end Sys2Proof.Machine
end

section
/-! Of the sessions only their event queues change: records, streams that stop, and the entry of the quarantine (12 R383) -/
namespace Sys2Proof.Machine
open Sys2Proof

/-- Of the sessions only event queues changed; claims, translation, keys and addresses are as they were, and what the agenda
held is still to come. -/
structure EvqOnly (s t : State) : Prop where
  ses : ∀ n, t.ses n = { s.ses n with evq := (t.ses n).evq }
  xlt : t.xlt = s.xlt
  keys : t.keys = s.keys
  net : t.net = s.net
  claims : t.mgt.claims = s.mgt.claims
  agenda : ∀ d ∈ s.agenda, d ∈ t.agenda

namespace EvqOnly
variable {s t u : State}

theorem refl (s : State) : EvqOnly s s := ⟨fun _ => rfl, rfl, rfl, rfl, rfl, fun _ h => h⟩

theorem of_posts (h : Posts s t) (ses : ∀ n, t.ses n = { s.ses n with evq := (t.ses n).evq }) : EvqOnly s t :=
  ⟨ses, h.xlt, h.keys, h.net, by rw [h.mgt], fun d hd => by rw [h.agenda]; exact hd⟩

theorem of_rest (sess : t.sess = s.sess) (rest : (t.xlt, t.keys, t.net, t.mgt.claims) = (s.xlt, s.keys, s.net, s.mgt.claims))
    (agenda : ∀ d ∈ s.agenda, d ∈ t.agenda) : EvqOnly s t := by
  obtain ⟨xlt, keys, net, claims⟩ : t.xlt = s.xlt ∧ t.keys = s.keys ∧ t.net = s.net ∧ t.mgt.claims = s.mgt.claims := by
    simpa using rest
  refine ⟨fun n => ?_, xlt, keys, net, claims, agenda⟩
  rw [State.ses, sess]
  rfl

theorem trans (h : EvqOnly s t) (k : EvqOnly t u) : EvqOnly s u where
  ses n := by rw [k.ses n, h.ses n]
  xlt := k.xlt.trans h.xlt
  keys := k.keys.trans h.keys
  net := k.net.trans h.net
  claims := k.claims.trans h.claims
  agenda d hd := k.agenda d (h.agenda d hd)

theorem each {α : Type} {f : State → α → State} (hf : ∀ u a, EvqOnly u (f u a)) : ∀ (l : List α) (s : State),
    EvqOnly s (s.each l f)
  | [], s => refl s
  | a :: l, s => (hf s a).trans (each hf l (f s a))

theorem when {b : Bool} {f : State → State} (h : EvqOnly s t) (hf : ∀ u, EvqOnly u (f u)) : EvqOnly s (t.when b f) := by
  unfold State.when
  split
  · exact h.trans (hf t)
  · exact h

theorem str (h : EvqOnly s t) (p : Nat) (f : Stream → Stream) : EvqOnly s (t.modStr p f) :=
  h.trans (of_rest rfl rfl fun _ hd => hd)
theorem ring (h : EvqOnly s t) (p : Nat) (f : Ring → Ring) : EvqOnly s (t.modRing p f) :=
  h.trans (of_rest rfl rfl fun _ hd => hd)
theorem cam (h : EvqOnly s t) (c : Nat) (f : Cam → Cam) : EvqOnly s (t.modCam c f) :=
  h.trans (of_rest rfl rfl fun _ hd => hd)
theorem mem (h : EvqOnly s t) (f : MemSt → MemSt) : EvqOnly s (t.modMem f) :=
  h.trans (of_rest rfl rfl fun _ hd => hd)
theorem go (h : EvqOnly s t) (p : Nat) (a : StrStep) (b : StrSt) : EvqOnly s (t.strGo p a b) := h.str p _

/-- What was on its way before stays; the new entry is added. -/
theorem after (h : EvqOnly s t) (n : Nat) (d : Due) : EvqOnly s (t.after n d) := by
  refine h.trans (of_rest rfl rfl fun x hx => ?_)
  show x ∈ t.agenda.filter (fun x => x.at_ ≤ n) ++ [{ at_ := n, what := d }] ++ t.agenda.filter (fun x => n < x.at_)
  by_cases early : x.at_ ≤ n
  · simp [hx, early]
  · simp [hx, Nat.not_le.1 early]

theorem st (h : EvqOnly s t) (n : Nat) : (t.ses n).st = (s.ses n).st := by rw [h.ses n]

end EvqOnly

/-- A session changed at one place. -/
theorem State.modSess_ses_same (s : State) (n : Fin 256) (f : Sess → Sess) : (s.modSess n f).ses n = f (s.ses n) := by
  rw [State.ses, State.modSess_sess, vget_vmod_fin]
  rfl

theorem State.modSess_ses_ne (s : State) {n k : Nat} (h : k ≠ n) (f : Sess → Sess) : (s.modSess n f).ses k = s.ses k := by
  rw [State.ses, State.modSess_sess, vget_vmod_ne _ _ _ _ h.symm]
  rfl

theorem State.modSess_ses_out (s : State) {n : Nat} (h : 256 ≤ n) (f : Sess → Sess) : s.modSess n f = s := by
  have same : vmod s.sess n f = s.sess := by
    refine Vector.ext fun i hi => ?_
    have ne : n ≠ i := by omega
    have eq := vget_vmod_ne s.sess n i f ne
    simpa [vget, hi] using eq
  rw [State.modSess, same]

section
variable (s : State)

theorem State.setEvq_evq (n : Nat) (q : EvQueue) : EvqOnly s (s.setEvq n q) := by
  refine .of_posts (s.setEvq_posts n q) fun k => ?_
  have ses : (s.setEvq n q).ses k = (s.modSess n (fun x => { x with evq := q })).ses k := by
    rw [State.ses, State.ses, State.setEvq_sess, State.modSess_sess]
  rw [ses]
  by_cases e : k = n
  · subst e
    by_cases h : k < 256
    · rw [State.modSess_ses_same s ⟨k, h⟩]
    · rw [State.modSess_ses_out s (Nat.not_lt.1 h)]
  · rw [State.modSess_ses_ne s e]

theorem State.rdFirst_evq (n : Nat) : EvqOnly s (s.rdFirst n) := by
  refine .each (fun u c => ?_) _ s
  split
  · split
    · exact u.setEvq_evq _ _
    · exact .refl u
  · split
    · split
      · exact u.setEvq_evq _ _
      · exact .refl u
    · exact .refl u
  · exact .refl u

theorem State.postTo_evq (n : Nat) (r : EvRec) : EvqOnly s (s.postTo n r) := by
  unfold State.postTo
  split
  · exact ((EvqOnly.refl s).when fun u => u.rdFirst_evq n).trans (State.setEvq_evq _ _ _)
  · exact .refl s

theorem State.postOr_evq (n : Option Nat) (r : EvRec) : EvqOnly s (s.postOr n r) := by
  unfold State.postOr
  split
  · exact s.postTo_evq _ r
  · exact .refl s

theorem State.postUnit_evq (n : Nat) (r : EvRec) : EvqOnly s (s.postUnit n r) := s.postOr_evq _ r

theorem State.postAll_evq (r : EvRec) : EvqOnly s (s.postAll r) := .each (fun u n => u.postTo_evq n r) _ s

theorem State.flipUse_evq (a : Nat) : EvqOnly s (s.flipUse a) := by
  unfold State.flipUse
  exact .trans (t := s.setReg _ _) (.of_rest rfl rfl fun _ h => h) (State.postAll_evq _ _)

theorem State.flipSram_evq (w n : Nat) : EvqOnly s (s.flipSram w n).1 := by
  unfold State.flipSram
  dsimp only
  generalize hb : (!s.flipArmed false || _) = b
  have used := s.flipUse_evq (if s.flipFilter = true then s.flipAddr else w)
  cases b
  case true => exact .refl s
  case false =>
    rw [if_neg (by decide)]
    split
    · exact used
    · split
      · exact used
      · split
        · exact used
        · exact used

theorem State.sramWrite_evq (w n : Nat) : EvqOnly s (s.sramWrite w n).1 := by
  unfold State.sramWrite
  dsimp only
  exact (s.flipSram_evq w n).mem _

/-! ## A stream that stops -/

theorem State.strEnd_evq (p : Nat) : EvqOnly s (s.strEnd p) := ((EvqOnly.refl s).go p _ _).str p _

theorem State.strNext_evq (p next : Nat) : EvqOnly s (s.strNext p next) := by
  unfold State.strNext
  split
  · exact (EvqOnly.refl s).go p _ _
  · split
    · exact ((EvqOnly.refl s).str p _).go p _ _
    · exact s.strEnd_evq p

theorem State.strConsume_evq (p : Nat) (b : Bool) : EvqOnly s (s.strConsume p b) := by
  unfold State.strConsume
  split
  · exact .refl s
  · exact (((EvqOnly.refl s).str p _).when fun u => u.postUnit_evq _ _).trans (State.strNext_evq _ _ _)

theorem State.nextEntry_evq (p : Nat) : EvqOnly s (s.nextEntry p) := by
  unfold State.nextEntry
  dsimp only
  split
  · split
    · exact s.strConsume_evq p true
    · exact ((EvqOnly.refl s).str p _).go p _ _
  · split
    · exact s.strConsume_evq p true
    · exact (EvqOnly.refl s).go p _ _
  · exact .refl s

theorem State.strAdvance_evq (p n : Nat) : EvqOnly s (s.strAdvance p n) := by
  unfold State.strAdvance
  split
  · split
    · exact s.strConsume_evq p true
    · exact (EvqOnly.refl s).go p _ _
  · exact s.nextEntry_evq p
  · exact .refl s

theorem State.dropDune_evq (p code first len : Nat) : EvqOnly s (s.dropDune p code first len) := by
  unfold State.dropDune State.strErr State.strStop
  exact (((((EvqOnly.refl s).str p _).trans (State.postUnit_evq _ _ _)).str p _).trans (State.strAdvance_evq _ _ _)).str p _

theorem State.ringStore_evq (p : Nat) (d : Dune) (data : List Byte) (i : Nat) : EvqOnly s (s.ringStore p d data i) := by
  unfold State.ringStore
  dsimp only
  split
  · exact ((EvqOnly.refl s).ring p _).str p _
  · exact ((s.sramWrite_evq _ _).trans (State.sramWrite_evq _ _ _)).ring p _

/-- The lines of a decoded Dune as they reach the ring. -/
theorem State.ringStores_evq (p : Nat) (d : Dune) (data : List Byte) (l : List Nat) :
    EvqOnly s (s.each l fun s i => s.ringStore p d data i) := .each (fun u i => u.ringStore_evq p d data i) l s

theorem State.engFree_evq (p t : Nat) : EvqOnly s (s.engFree p t) :=
  .of_rest rfl rfl fun _ h => h

theorem State.decodeDone_evq (p : Nat) : EvqOnly s (s.decodeDone p) := by
  unfold State.decodeDone
  dsimp only
  split
  · exact .refl s
  · next d _ =>
    split
    · exact .refl s
    · split
      · exact (((s.engFree_evq p s.now).ring p _).str p _).trans (State.dropDune_evq _ _ _ _ _)
      · next data _ =>
        have stored := (s.engFree_evq p s.now).trans (State.ringStores_evq _ p d data (List.range d.lines))
        refine (EvqOnly.trans (.when ?_ fun u => ((EvqOnly.refl u).str p _).trans (State.postUnit_evq _ _ _)) (State.strAdvance_evq _ _ _)).str p _
        exact (stored.str p _).str p _

theorem State.strAbandon_evq (p : Nat) : EvqOnly s (s.strAbandon p) := by
  unfold State.strAbandon State.engDrop
  exact ((s.engFree_evq p s.nextTick).ring p _).go p _ _

theorem State.strCancel_evq (p : Nat) : EvqOnly s (s.strCancel p) := by
  unfold State.strCancel
  dsimp only
  split
  · exact (((s.decodeDone_evq p).trans (State.strAbandon_evq _ p)).go p _ _).str p _
  · exact ((s.decodeDone_evq p).go p _ _).str p _

/-! ## The quarantine's entry -/

theorem State.calCut_evq (n : Nat) (whole : Bool) (us : List Nat) : EvqOnly s (s.calCut n whole us) :=
  .of_rest rfl rfl fun _ h => h

theorem State.stopAxis_evq (a : Nat) :
    EvqOnly s (if s.motRefusal a .production .stop = 0 then s.after (s.stepEdge 0) (.motion a .stop) else s) := by
  split
  · exact (EvqOnly.refl s).after _ _
  · exact .refl s

theorem State.quarantine_evq (n : Nat) (us : List Nat) (whole : Bool) : EvqOnly s (s.quarantine n us whole) := by
  unfold State.quarantine
  have streams : EvqOnly s ((s.after (s.now + 8 * qTick) (.flush n us whole)).each (us.filter (· < 64)) State.strCancel) :=
    ((EvqOnly.refl s).after _ _).trans (.each (fun u p => u.strCancel_evq p) _ _)
  have axes := streams.trans (.each (fun u a => u.stopAxis_evq a) (those 8 (fun a => us.contains (uAx a))) _)
  exact (axes.trans (.each (fun u c => (EvqOnly.refl u).cam c _) (List.range 4) _)).trans (State.calCut_evq _ _ _ _)

/-- The state in which a session has left its page, before its units stop. -/
def State.leaves (n : Nat) : State :=
  (s.modSess n (fun x => { x with st := .kennel, kennel := some { entry := s.now }, invals := [] })).modXlt (fun x => { x with
    direct := x.direct.map (fun d => if d == some n then none else d) })

theorem State.kennelEnter_closed_same {n : Nat} (h : (s.ses n).st = .free ∨ (s.ses n).st = .kennel) : s.kennelEnter n = s := by
  unfold State.kennelEnter
  rw [if_pos]
  rcases h with h | h <;> rw [h] <;> rfl

theorem State.kennelEnter_open {n : Nat} (h : ¬((s.ses n).st = .free ∨ (s.ses n).st = .kennel)) :
    s.kennelEnter n = (s.leaves n).quarantine n ((s.leaves n).unitsOf n) true := by
  unfold State.kennelEnter
  rw [if_neg (by simpa using h)]
  rfl

theorem State.kennelEnter_evq {n : Nat} (h : ¬((s.ses n).st = .free ∨ (s.ses n).st = .kennel)) :
    EvqOnly (s.leaves n) (s.kennelEnter n) := by
  rw [s.kennelEnter_open h]
  exact State.quarantine_evq _ _ _ _

theorem State.leaves_st (n : Fin 256) : ((s.leaves n).ses n).st = .kennel :=
  (congrArg Sess.st (State.modSess_ses_same s n _)).trans rfl

/-- A session that enters the quarantine is open no longer. -/
theorem State.kennelEnter_closed (n : Fin 256) : ((s.kennelEnter n).ses n).st = .kennel ∨ ((s.kennelEnter n).ses n).st = .free := by
  by_cases h : (s.ses n).st = .free ∨ (s.ses n).st = .kennel
  · rw [s.kennelEnter_closed_same h]
    exact h.symm
  · exact .inl (((s.kennelEnter_evq h).st n).trans (s.leaves_st n))

theorem State.kennelEnter_kennel {n : Fin 256} (h : s.isOpen n = true) : ((s.kennelEnter n).ses n).st = .kennel := by
  refine ((s.kennelEnter_evq ?_).st n).trans (s.leaves_st n)
  rcases Bool.or_eq_true_iff.1 h with h | h <;> rw [beq_iff_eq.1 h] <;> decide

/-- The other sessions' states stand. -/
theorem State.kennelEnter_others {n k : Nat} (h : k ≠ n) : ((s.kennelEnter n).ses k).st = (s.ses k).st := by
  by_cases c : (s.ses n).st = .free ∨ (s.ses n).st = .kennel
  · rw [s.kennelEnter_closed_same c]
  · exact ((s.kennelEnter_evq c).st k).trans (congrArg Sess.st (State.modSess_ses_ne s h _))

theorem State.kennelEnter_keys (n : Nat) : (s.kennelEnter n).keys = s.keys := by
  by_cases c : (s.ses n).st = .free ∨ (s.ses n).st = .kennel
  · rw [s.kennelEnter_closed_same c]
  · exact (s.kennelEnter_evq c).keys.trans rfl

theorem State.kennelEnter_net (n : Nat) : (s.kennelEnter n).net = s.net := by
  by_cases c : (s.ses n).st = .free ∨ (s.ses n).st = .kennel
  · rw [s.kennelEnter_closed_same c]
  · exact (s.kennelEnter_evq c).net.trans rfl

end

end Sys2Proof.Machine
end

section
/-! The checks of a request in their order (11 R338-R347; 18 R511) -/
namespace Sys2Proof.Machine
open Sys2Proof

/-! ## A request on its way to its session -/

section
variable {u : State} {n : Fin 256} {m : Msg} {op sub : Nat} {act : State → Nat → Answer}

/-- An open session is neither free nor in the quarantine. -/
theorem open_not_closed {x : Sess} (h : x.st = .opening ∨ x.st = .confirmed) : (x.st == .kennel || x.st == .free) = false := by
  rcases h with h | h <;> rw [h] <;> rfl

theorem State.command_notReady (h : u.phase ≠ .ready) : u.command op m sub act = u := by
  unfold State.command
  dsimp only
  rw [if_pos (by simpa using h)]

/-- A session's request meets it: it is taken, where no interruption holds it. -/
theorem State.command_meets (ready : u.phase = .ready) (mine : m.session = n.val)
    (open_ : (u.ses n).st = .opening ∨ (u.ses n).st = .confirmed) (path : pathMeets m.path (u.ses n) = true) :
    u.command op m sub act = u.takeMsg n op sub m act := by
  have notFree : ((u.ses n).st == .free) = false := by rcases open_ with h | h <;> rw [h] <;> rfl
  have notKennel : ((u.ses n).st == .kennel) = false := by rcases open_ with h | h <;> rw [h] <;> rfl
  have some_ := n.isLt
  unfold State.command
  dsimp only
  rw [if_neg (by rw [ready]; decide), mine]
  cases hp : m.path with
  | pcie f o =>
    simp only [hp, pathMeets, Bool.and_eq_true, Bool.not_eq_true'] at path
    obtain ⟨⟨⟨ho, net⟩, fn⟩, busy⟩ := path
    subst ho
    simp [notFree, net, fn, busy, Nat.not_le.2 some_]
    exact fun h => absurd (by simpa using fn) h
  | net q a udp =>
    simp only [hp, pathMeets, Bool.and_eq_true] at path
    obtain ⟨⟨net, peer⟩, port⟩ := path
    simp [notFree, notKennel, net, Nat.not_le.2 some_, bne, peer, port]

theorem State.command_reaches (h : u.Reaches m n) : u.command op m sub act = u.decideMsg n op m (m.bodyOk op sub) act := by
  obtain ⟨ready, up, mine, open_, path⟩ := h
  rw [State.command_meets ready mine open_ path, State.takeMsg, up]
  rfl

theorem State.command_busy {f : Fin 4} (ready : u.phase = .ready) (mine : m.session = n.val) (st : (u.ses n).st = .confirmed)
    (net : (u.ses n).net = false) (fn : (u.ses n).fn = f.val) (busy : (u.ses n).busy = true) (path : m.path = .pcie f false) :
    u.command op m sub act = u.postErr n 0x010B n := by
  unfold State.command
  dsimp only
  rw [if_neg (by rw [ready]; decide), mine, path]
  simp [st, net, fn, busy, Nat.not_le.2 n.isLt, State.overrun]

theorem State.command_stranger {q : Fin 8} {a udp : Nat} (ready : u.phase = .ready) (path : m.path = .net q a udp)
    (mine : m.session = n.val) (net : (u.ses n).net = true) (st : (u.ses n).st = .confirmed)
    (other : (u.ses n).peer ≠ a ∨ (u.ses n).peerPort ≠ udp) :
    u.command op m sub act = u.modXlt (fun t => { t with netDropped := satAdd 32 t.netDropped 1 }) := by
  unfold State.command
  dsimp only
  rw [if_neg (by rw [ready]; decide), mine, path]
  dsimp only
  rw [if_neg (by simp [st, net, Nat.not_le.2 n.isLt]), if_pos (by simpa using other)]
  rfl

theorem State.modSess_congr (s : State) (n : Nat) {f g : Sess → Sess} (h : f (s.ses n) = g (s.ses n)) :
    s.modSess n f = s.modSess n g := by
  unfold State.modSess
  rw [vmod_congr _ _ h]

theorem State.modSess_modSess (s : State) (n : Nat) (f g : Sess → Sess) :
    (s.modSess n f).modSess n g = s.modSess n (fun x => g (f x)) := by
  unfold State.modSess
  rw [vmod_vmod]

theorem State.command_held {f : Fin 4} (ready : u.phase = .ready) (down : u.safe.mgmtDown.isSome = true) (mine : m.session = n.val)
    (st : (u.ses n).st = .confirmed) (net : (u.ses n).net = false) (fn : (u.ses n).fn = f.val) (idle : (u.ses n).busy = false)
    (path : m.path = .pcie f false) (room : (u.xlt.held.filter (fun r => r.2.2.session == n.val)).length < 64) :
    u.command op m sub act = (u.modXlt (fun t => { t with held := t.held ++ [(op, sub, m)] })).modSess n
      (fun x => { x with busy := true }) := by
  have meets : pathMeets m.path (u.ses n) = true := by
    rw [path, pathMeets, net, fn, idle]
    simp
  rw [State.command_meets ready mine (.inr st) meets, State.takeMsg, if_pos down, State.holdMsg, if_neg (Nat.not_le.2 room)]
  refine State.modSess_congr _ _ ?_
  have same : ((u.modXlt (fun t => { t with held := t.held ++ [(op, sub, m)] })).ses n).net = false := net
  rw [same]
  rfl

/-! ## The decision -/

theorem State.sessionEcc_closed (u : State) (n : Fin 256) : ((u.sessionEcc n).ses n).st = .kennel ∨ ((u.sessionEcc n).ses n).st = .free := by
  unfold State.sessionEcc
  have kept (t : State) (f : MemSt → MemSt) : ((t.modMem f).ses n).st = (t.ses n).st := rfl
  rw [kept]
  exact State.kennelEnter_closed _ n

theorem State.decideMsg_ecc {form : Bool} (bad : u.mem.sessBad.contains n.val = true) :
    u.decideMsg n op m form act = (u.sessionEcc n).reply n op m 0x0101 [] false := by
  have closed : (((u.sessionEcc n).ses n).st == .kennel || ((u.sessionEcc n).ses n).st == .free) = true := by
    rcases u.sessionEcc_closed n with h | h <;> rw [h] <;> rfl
  unfold State.decideMsg
  rw [bad, State.when_true]
  dsimp only
  rw [if_pos closed]

section
variable {form : Bool} (open_ : (u.ses n).st = .opening ∨ (u.ses n).st = .confirmed) (good : u.mem.sessBad.contains n.val = false)
include open_ good

theorem State.decideMsg_refused {w : State} {c : Nat} {k : Bool} (check : u.checkMsg n op m form = (w, .refuse c k)) :
    u.decideMsg n op m form act = w.reply n op m c [] k := by
  have closed := open_not_closed open_
  unfold State.decideMsg
  rw [good, State.when_false]
  dsimp only
  rw [if_neg (by rw [closed]; decide), check]

theorem State.decideMsg_again {w : State} {r : Rsp} {q : Fin 8} {a udp : Nat} (check : u.checkMsg n op m form = (w, .again r))
    (path : m.path = .net q a udp) : u.decideMsg n op m form act =
      (w.modXlt (fun x => { x with netResent := satAdd 32 x.netResent 1 })).emit (.datagram r a udp) := by
  have closed := open_not_closed open_
  unfold State.decideMsg
  rw [good, State.when_false]
  dsimp only
  rw [if_neg (by rw [closed]; decide), check]
  simp only [path]

/-- What a request that passes leads to, once its command has answered. -/
theorem State.decideMsg_answers {w t : State} {c : Nat} {l : List Byte} (check : u.checkMsg n op m form = (w, .pass))
    (answer : act (w.mgmtWrites n) n = (t, some (c, l))) :
    u.decideMsg n op m form act = t.reply n op m c (if c = 0 || !l.isEmpty then l else []) true := by
  have closed := open_not_closed open_
  unfold State.decideMsg
  rw [good, State.when_false]
  dsimp only
  rw [if_neg (by rw [closed]; decide), check]
  simp only [answer]

end
end

/-! ## The checks, one by one -/

section
variable {u : State} {n : Fin 256} {m : Msg} {op : Nat} {form : Bool}

/-- The counter that a request takes changes no right. -/
theorem State.mayCommand_counts {v : State} (hv : v = u.modSess n (fun x => { x with lastCtr := m.counter, badTags := 0 })) :
    v.mayCommand n op m = u.mayCommand n op m := by
  have ses : v.ses n = { u.ses n with lastCtr := m.counter, badTags := 0 } := by
    rw [hv, State.ses, State.modSess_sess, vget_vmod_fin]
    rfl
  rw [State.mayCommand, State.mayCommand, ses]

theorem State.checkMsg_form (h : (m.headOk op && form) = false) : u.checkMsg n op m form = (u, .refuse 0x010C false) := by
  unfold State.checkMsg
  rw [h]
  rfl

section
variable (formed : (m.headOk op && form) = true)
include formed

theorem State.checkMsg_unsigned (auth : m.auth = false) (keyed : (u.ses n).keyed = true)
    (must : (critical op || (u.ses n).net) = true) : u.checkMsg n op m form = (u, .refuse 0x010A false) := by
  unfold State.checkMsg
  dsimp only
  rw [formed, auth, keyed, must]
  rfl

section
variable (auth : m.auth = true)
include auth

theorem State.checkMsg_signed : u.checkMsg n op m form = (let a := u.authStep n op m
    if a.2 != .pass then a
    else if (u.ses n).st != .confirmed && op != 2 then (a.1, .refuse 0x0109 true)
    else if !a.1.mayCommand n op m then (a.1, .refuse 0x0102 true)
    else (a.1.modSess n (fun x => { x with renewAt := u.now }), .pass)) := by
  unfold State.checkMsg
  dsimp only
  rw [formed, auth]
  rfl

theorem State.checkMsg_stops {w : State} {d : Verdict} (step : u.authStep n op m = (w, d)) (no : (d != .pass) = true) :
    u.checkMsg n op m form = (w, d) := by
  rw [State.checkMsg_signed formed auth, step]
  dsimp only
  rw [if_pos no]

theorem State.checkMsg_badTag (bad : ((u.ses n).keyed && m.tagOk (u.ses n).key op) = false) :
    u.checkMsg n op m form = (u.badTag n, .refuse 0x0103 false) := by
  refine State.checkMsg_stops formed auth ?_ rfl
  unfold State.authStep
  dsimp only
  rw [auth, bad]
  rfl

section
variable (tag : ((u.ses n).keyed && m.tagOk (u.ses n).key op) = true)
include tag

theorem State.checkMsg_again {k : Kept} (net : (u.ses n).net = true)
    (kept : (u.ses n).kept.find? (fun k => k.xid == m.xid && k.counter == m.counter && k.tag == m.tag) = some k) :
    u.checkMsg n op m form = (u, .again k.rsp) := by
  refine State.checkMsg_stops formed auth ?_ rfl
  unfold State.authStep
  dsimp only
  rw [auth, tag, net, if_neg (by decide), if_pos rfl, kept]

section
variable (net : (u.ses n).net = false) (last : (u.ses n).lastCtr ≠ 2 ^ 64 - 1)
include net last

theorem State.checkMsg_old (old : m.counter ≤ (u.ses n).lastCtr) : u.checkMsg n op m form = (u, .refuse 0x0104 false) := by
  refine State.checkMsg_stops formed auth ?_ rfl
  unfold State.authStep
  dsimp only
  rw [auth, tag, net, if_neg (by decide), if_neg (by decide)]
  dsimp only
  rw [if_neg (by decide), if_neg last, if_pos old]

section
variable (new : (u.ses n).lastCtr < m.counter) {v : State}
  (hv : v = u.modSess n (fun x => { x with lastCtr := m.counter, badTags := 0 }))
include new hv

omit formed in
theorem State.authStep_counts : u.authStep n op m = (v, .pass) := by
  unfold State.authStep
  dsimp only
  rw [auth, tag, net, if_neg (by decide), if_neg (by decide)]
  dsimp only
  rw [if_neg (by decide), if_neg last, if_neg (Nat.not_le.2 new), hv]

theorem State.checkMsg_opening (st : (u.ses n).st = .opening) (other : op ≠ 2) :
    u.checkMsg n op m form = (v, .refuse 0x0109 true) := by
  have state : ((u.ses n).st != .confirmed && op != 2) = true := by simp [st, other]
  rw [State.checkMsg_signed formed auth, State.authStep_counts auth tag net last new hv]
  dsimp only
  rw [if_neg (by decide), if_pos state]

section
variable (st : (u.ses n).st = .confirmed)
include st

theorem State.checkMsg_noRight (no : u.mayCommand n op m = false) : u.checkMsg n op m form = (v, .refuse 0x0102 true) := by
  have state : ((u.ses n).st != .confirmed && op != 2) = false := by simp [st]
  have right := State.mayCommand_counts hv (op := op)
  rw [State.checkMsg_signed formed auth, State.authStep_counts auth tag net last new hv]
  dsimp only
  rw [if_neg (by decide), if_neg (by rw [state]; decide), right, no]
  rfl

theorem State.checkMsg_passes (may : u.mayCommand n op m = true) :
    u.checkMsg n op m form = (v.modSess n (fun x => { x with renewAt := u.now }), .pass) := by
  have state : ((u.ses n).st != .confirmed && op != 2) = false := by simp [st]
  have right := State.mayCommand_counts hv (op := op)
  rw [State.checkMsg_signed formed auth, State.authStep_counts auth tag net last new hv]
  dsimp only
  rw [if_neg (by decide), if_neg (by rw [state]; decide), right, may]
  rfl

end
end
end
end
end
end
end

/-! ## Every message command -/

/-- A message command but SESSION_OPEN runs the shared path of requests. -/
theorem msgRows_command (e : Env) (m : Msg) (s : State) : ∀ r ∈ msgRows e m, ∃ act,
    exec r.1 s = .next ((s.arrive e).command r.2.1 m r.2.2 act) := by
  simp only [msgRows, List.cons_append, List.nil_append, List.forall_mem_cons]
  exact ⟨⟨_, rfl⟩, ⟨_, rfl⟩, ⟨_, rfl⟩, ⟨_, rfl⟩, ⟨_, rfl⟩, ⟨_, rfl⟩, ⟨_, rfl⟩, ⟨_, rfl⟩, ⟨_, rfl⟩, ⟨_, rfl⟩, ⟨_, rfl⟩, ⟨_, rfl⟩,
    ⟨_, rfl⟩, ⟨_, rfl⟩, ⟨_, rfl⟩, ⟨_, rfl⟩, ⟨_, rfl⟩, ⟨_, rfl⟩, ⟨_, rfl⟩, ⟨_, rfl⟩, ⟨_, rfl⟩, ⟨_, rfl⟩, ⟨_, rfl⟩, ⟨_, rfl⟩,
    ⟨_, rfl⟩, ⟨_, rfl⟩, ⟨_, rfl⟩, ⟨_, rfl⟩, ⟨_, rfl⟩, ⟨_, rfl⟩, ⟨_, rfl⟩, ⟨_, rfl⟩, ⟨_, rfl⟩, ⟨_, rfl⟩, ⟨_, rfl⟩, ⟨_, rfl⟩,
    ⟨_, rfl⟩, ⟨_, rfl⟩, ⟨_, rfl⟩, ⟨_, rfl⟩, ⟨_, rfl⟩, fun _ h => absurd h List.not_mem_nil⟩

theorem State.counted_eq (u : State) (n : Fin 256) (m : Msg) :
    u.modSess n (fun _ => { u.ses n with lastCtr := m.counter, badTags := 0 }) =
      u.modSess n (fun x => { x with lastCtr := m.counter, badTags := 0 }) :=
  State.modSess_congr u n rfl

/-- Settles O41. -/
theorem requestsAreChecked : Obligations.RequestsAreChecked := by
  intro e m s u n r x hu hr hx
  obtain ⟨act, run⟩ := msgRows_command e m s r hr
  rw [run, ← hu]
  subst hx
  refine ⟨fun no => ?_, fun reach bad => ?_, fun reach good => ⟨fun no => ?_, fun formed => ⟨fun auth keyed must => ?_,
    fun auth no => ?_, fun auth tag net => ⟨fun last old => ?_, fun last new v hv => ⟨fun st other => ?_, fun st no => ?_,
    fun st may => ?_⟩⟩, fun k q a udp path auth tag kept => ?_⟩⟩, fun f ready down mine st net fn idle path room => ?_,
    fun f ready mine st net fn busy path => ?_, fun q a udp ready path mine net st other => ?_⟩
  · rw [State.command_notReady no]
  · rw [State.command_reaches reach, State.decideMsg_ecc bad]
  · obtain ⟨-, -, -, open_, -⟩ := id reach
    rw [State.command_reaches reach, State.decideMsg_refused open_ good (State.checkMsg_form no)]
  · obtain ⟨-, -, -, open_, -⟩ := id reach
    rw [State.command_reaches reach, State.decideMsg_refused open_ good (State.checkMsg_unsigned formed auth keyed must)]
  · obtain ⟨-, -, -, open_, -⟩ := id reach
    rw [State.command_reaches reach, State.decideMsg_refused open_ good (State.checkMsg_badTag formed auth no)]
  · obtain ⟨-, -, -, open_, -⟩ := id reach
    rw [State.command_reaches reach, State.decideMsg_refused open_ good (State.checkMsg_old formed auth tag net last old)]
  · obtain ⟨-, -, -, open_, -⟩ := id reach
    have hv := hv.trans (u.counted_eq n m)
    rw [State.command_reaches reach,
      State.decideMsg_refused open_ good (State.checkMsg_opening formed auth tag net last new hv st other)]
  · obtain ⟨-, -, -, open_, -⟩ := id reach
    have hv := hv.trans (u.counted_eq n m)
    rw [State.command_reaches reach,
      State.decideMsg_refused open_ good (State.checkMsg_noRight formed auth tag net last new hv st no)]
  · have hv := hv.trans (u.counted_eq n m)
    refine ⟨reach, good, _, State.checkMsg_passes formed auth tag net last new hv st may, ?_⟩
    rw [hv, State.modSess_modSess]
    exact congrArg (fun t => State.mgmtWrites t n) (State.modSess_congr _ _ rfl)
  · obtain ⟨-, -, -, open_, meets⟩ := id reach
    have net : (u.ses n).net = true := by
      rw [path, pathMeets, Bool.and_eq_true, Bool.and_eq_true] at meets
      obtain ⟨⟨net, -⟩, -⟩ := meets
      exact net
    rw [State.command_reaches reach, State.decideMsg_again open_ good (State.checkMsg_again formed auth tag net kept) path]
  · rw [State.command_held ready down mine st net fn idle path room]
  · rw [State.command_busy ready mine st net fn busy path]
  · rw [State.command_stranger ready path mine net st other]

end Sys2Proof.Machine
end

section
/-! Session commands (11 R340-R346; 12 R383; 18 R512, R515) -/
namespace Sys2Proof.Machine
open Sys2Proof

/-! ## A request that passes -/

section
variable {u v t : State} {n : Fin 256} {m : Msg} {op sub : Nat} {act : State → Nat → Answer} (pass : u.Passes op sub m n v)
include pass

theorem State.command_answers {c : Nat} {l : List Byte} (answer : act v n = (t, some (c, l))) :
    u.command op m sub act = t.reply n op m c (if c = 0 || !l.isEmpty then l else []) true := by
  obtain ⟨reach, good, w, check, hv⟩ := pass
  obtain ⟨-, -, -, open_, -⟩ := id reach
  rw [hv] at answer
  rw [State.command_reaches reach, State.decideMsg_answers open_ good check answer]

theorem State.command_says {c : Nat} (answer : act v n = t.say c) : u.command op m sub act = t.reply n op m c [] true := by
  rw [State.command_answers pass answer]
  congr 1
  split <;> rfl

/-- A request that passes has its form. -/
theorem State.Passes.formed : (m.headOk op && m.bodyOk op sub) = true := by
  obtain ⟨-, -, w, check, -⟩ := pass
  refine Decidable.byContradiction fun no => ?_
  rw [State.checkMsg_form (by simpa using no)] at check
  exact absurd (congrArg Prod.snd check) (by simp)

theorem State.Passes.body : m.bodyOk op sub = true := by
  have formed := pass.formed
  rw [Bool.and_eq_true] at formed
  obtain ⟨-, body⟩ := formed
  exact body

end

/-! ## Opening -/

/-- The session that an open makes, before its answer. -/
def State.withSession (u : State) (m : Msg) (n : Nat) (f : Fin 4) (x : Sess) : State :=
  ({ u with draws := u.draws + 1, sess := vset u.sess n x } : State).when m.direct
    (fun s => s.modXlt (fun t => { t with direct := vset t.direct f (some n) }))

theorem State.withSession_sess (u : State) (m : Msg) (n : Nat) (f : Fin 4) (x : Sess) :
    (u.withSession m n f x).sess = vset u.sess n x := by
  unfold State.withSession
  cases m.direct <;> rfl

theorem State.withSession_direct (u : State) {m : Msg} (n : Nat) (f : Fin 4) (x : Sess) (d : m.direct = true) :
    vget (u.withSession m n f x).xlt.direct f = some n := by
  unfold State.withSession
  rw [d]
  exact vget_vset _ _ _ f.isLt

theorem State.withSession_rest (u : State) (m : Msg) (n : Nat) (f : Fin 4) (x : Sess) : (u.withSession m n f x).mgt = u.mgt ∧
    (u.withSession m n f x).ctx = u.ctx ∧ (u.withSession m n f x).dram = u.dram := by
  unfold State.withSession
  cases m.direct <;> exact ⟨rfl, rfl, rfl⟩

section
variable {u : State} {m : Msg} {f : Fin 4} (ready : u.phase = .ready) (path : m.path = .pcie f true)
  (idle : (vget u.xlt.openPage f).busy = false) (up : u.safe.mgmtDown = none)
include ready path idle up

theorem State.sessionOpen_decided : u.sessionOpen m = (u.openSession m).1.modXlt (fun x => { x with
    openPage := vset x.openPage f ⟨false, true, (u.openSession m).2.1,
      response 1 (u.openSession m).2.2.1 false 0 m.xid (u.openSession m).2.1 (u.openSession m).2.2.2 []⟩ }) := by
  unfold State.sessionOpen
  rw [if_neg (by rw [ready]; decide), path]
  dsimp only
  rw [if_neg (by rw [idle]; decide), if_neg (by rw [up]; decide), State.decideOpen, path]

theorem State.sessionOpen_refused (no : u.openRefusal m ≠ 0) : u.sessionOpen m = u.modXlt (fun t => { t with
    openPage := vset t.openPage f ⟨false, true, u.openRefusal m, response 1 0xFFFF false 0 m.xid (u.openRefusal m) [] []⟩ }) := by
  have refused : u.openSession m = (u, u.openRefusal m, 0xFFFF, []) := by
    unfold State.openSession
    dsimp only
    rw [if_pos no]
  rw [State.sessionOpen_decided ready path idle up, refused]

/-- An open that is not refused. -/
theorem State.sessionOpen_opens {n : Nat} (ok : u.openRefusal m = 0)
    (first : (List.range 256).find? (fun n => (u.ses n).st == .free) = some n) : ∃ d r, u.sessionOpen m =
      (u.withSession m n f (u.opened m n d)).modXlt (fun x => { x with openPage := vset x.openPage f ⟨false, true, 0, r⟩ }) := by
  have opened : ∃ l, u.openSession m = (u.withSession m n f (u.opened m n (toLE 16 (Config.nonce u.draws).toNat)), 0, n, l) := by
    unfold State.openSession
    dsimp only
    rw [if_neg (by rw [ok]; decide), first, path]
    exact ⟨_, rfl⟩
  obtain ⟨l, opened⟩ := opened
  rw [State.sessionOpen_decided ready path idle up, opened]
  exact ⟨_, _, rfl⟩

end

/-- The fields of a session opened along function f's page. -/
theorem State.opened_fields (u : State) {m : Msg} {f : Fin 4} (path : m.path = .pcie f true) (n : Nat) (d : List Byte) :
    (u.opened m n d).cls = classOf (m.b 0) ∧ (u.opened m n d).net = false ∧ (u.opened m n d).fn = f.val ∧
    (u.opened m n d).st = (if m.b 1 < 16 then .opening else .confirmed) ∧ (u.opened m n d).keyed = decide (m.b 1 < 16) ∧
    (u.opened m n d).lease = (if m.f 2 2 = 0 then 500 else m.f 2 2) ∧ (u.opened m n d).lastCtr = 0 ∧
    (u.opened m n d).openAt = u.now ∧ (u.opened m n d).crec = (u.ses n).crec := by
  unfold State.opened
  rw [path]
  refine ⟨rfl, rfl, rfl, ?_, rfl, rfl, rfl, rfl, rfl⟩
  by_cases h : m.b 1 < 16
  · simp [h]
  · simp [h]

/-! ## Keys -/

section
variable {v : State} {n : Nat} {m : Msg}

theorem State.doKeyInstall_installs {key : List Byte} {w : State} (comm : (v.ses n).commissioning = false)
    (some_ : v.keyOf n m = some key) (rate : v.nvRate (m.b 0) = false)
    (write : v.nvWrite (m.b 0) (toLE 1 (m.b 1) ++ key) (some n) = (w, true)) :
    v.doKeyInstall n m = ({ w with keys := vset w.keys (m.b 0) ⟨true, key, m.b 1⟩ } : State).say 0 := by
  unfold State.doKeyInstall
  dsimp only
  rw [comm, if_neg (by simp), some_]
  dsimp only
  rw [rate, write, if_neg (by decide), if_neg (by simp), State.when_false]

theorem State.doKeyInstall_rate {key : List Byte} (comm : (v.ses n).commissioning = false) (some_ : v.keyOf n m = some key)
    (rate : v.nvRate (m.b 0) = true) : v.doKeyInstall n m = v.say 0x0B12 := by
  unfold State.doKeyInstall
  dsimp only
  rw [comm, if_neg (by simp), some_]
  dsimp only
  rw [rate, if_pos rfl]

/-- The state in which a key slot has been erased. -/
def State.keyErased (v : State) (k : Nat) : State := { v.nvErase k with keys := vset v.keys k {} }

/-- The sessions that KEY_ERASE revokes. -/
def State.derived (v : State) (n k : Nat) : List Nat :=
  those 256 (fun j => j != n && v.isOpen j && (v.ses j).keyed && (v.ses j).slot == k)

theorem State.doKeyErase_eq : v.doKeyErase n m =
    ((v.keyErased (m.b 0)).each (v.derived n (m.b 0)) State.kennelEnter).say 0 := rfl

end

/-! ## Sessions that enter the quarantine together -/

theorem State.kennelEnters_keys : ∀ (l : List Nat) (s : State), (s.each l State.kennelEnter).keys = s.keys
  | [], _ => rfl
  | n :: l, s => (kennelEnters_keys l _).trans (s.kennelEnter_keys n)

theorem State.kennelEnters_net : ∀ (l : List Nat) (s : State), (s.each l State.kennelEnter).net = s.net
  | [], _ => rfl
  | n :: l, s => (kennelEnters_net l _).trans (s.kennelEnter_net n)

theorem State.kennelEnters_others {k : Nat} : ∀ {l : List Nat} (s : State), k ∉ l →
    ((s.each l State.kennelEnter).ses k).st = (s.ses k).st
  | [], _, _ => rfl
  | n :: l, s, h => by
    rw [State.each_cons, kennelEnters_others _ (List.not_mem_of_not_mem_cons h)]
    exact s.kennelEnter_others (List.ne_of_not_mem_cons h)

/-- A session that is open no longer stays so. -/
theorem State.kennelEnters_stay {k : Nat} (l : List Nat) {s : State} {x : SessSt} (closed : x = .kennel ∨ x = .free)
    (h : (s.ses k).st = x) : ((s.each l State.kennelEnter).ses k).st = x := by
  induction l generalizing s with
  | nil => exact h
  | cons n l ih =>
    refine ih ?_
    by_cases e : k = n
    · subst e
      rw [s.kennelEnter_closed_same (by rw [h]; exact closed.symm), h]
    · rw [s.kennelEnter_others e, h]

theorem State.kennelEnters_open {k : Fin 256} {l : List Nat} {s : State} (mem : k.val ∈ l) (h : s.isOpen k = true) :
    ((s.each l State.kennelEnter).ses k).st = .kennel := by
  induction l generalizing s with
  | nil => exact absurd mem List.not_mem_nil
  | cons n l ih =>
    rw [State.each_cons]
    by_cases e : k.val = n
    · subst e
      exact State.kennelEnters_stay l (.inl rfl) (s.kennelEnter_kennel h)
    · refine ih ((List.mem_cons.1 mem).resolve_left e) ?_
      rw [State.isOpen, s.kennelEnter_others e]
      exact h

theorem mem_those {n k : Nat} {p : Nat → Bool} : k ∈ those n p ↔ k < n ∧ p k = true := by
  rw [those, List.mem_filter, List.mem_range]

/-- Settles O42. -/
theorem sessionCommands : Obligations.SessionCommands := by
  intro e m s u v n hu
  refine ⟨fun f ready path idle up => ⟨fun no => ?_, fun ok first => ?_⟩, fun pass => ?_, fun pass => ?_, fun pass => ?_,
    fun pass => ⟨fun other open_ => ?_, fun own => ?_⟩, fun pass => ?_, fun key w pass comm some_ => ⟨fun rate write => ?_,
    fun rate => ?_⟩, fun pass => ?_, fun pass => ?_⟩
  · rw [exec_sessionOpen, execSessionOpen, ← hu, State.sessionOpen_refused ready path idle up no]
  · obtain ⟨d, r, opens⟩ := State.sessionOpen_opens ready path idle up ok first
    obtain ⟨mgt, ctx, dram⟩ := u.withSession_rest m n f (u.opened m n d)
    have sess := u.withSession_sess m n f (u.opened m n d)
    have ses : (u.sessionOpen m).ses n = u.opened m n d := by
      rw [opens, State.ses, State.modXlt_sess, sess]
      exact vget_vset _ _ _ n.isLt
    obtain ⟨cls, net, fn, st, keyed, lease, lastCtr, openAt, crec⟩ := u.opened_fields path n d
    refine ⟨u.sessionOpen m, by rw [exec_sessionOpen, execSessionOpen, ← hu], ?_⟩
    rw [ses]
    refine ⟨cls, net, fn, st, keyed, lease, lastCtr, openAt, crec, ?_⟩
    rw [opens]
    have page : vget (vset (u.withSession m n f (u.opened m n d)).xlt.openPage f ⟨false, true, 0, r⟩) f = ⟨false, true, 0, r⟩ :=
      vget_vset _ _ _ f.isLt
    refine ⟨congrArg OpenPage.status page, congrArg OpenPage.done page, u.withSession_direct n f _, fun k hk => ?_, mgt, ctx, dram⟩
    rw [State.ses, State.modXlt_sess, sess, vget_vset_ne _ _ _ _ (fun h => hk (Fin.ext h.symm))]
    rfl
  · rw [exec_sessionConfirm, execSessionConfirm, ← hu]
    exact congrArg Host.Outcome.next (State.command_says pass rfl)
  · rw [exec_sessionClose, execSessionClose, ← hu]
    exact congrArg Host.Outcome.next (State.command_says pass rfl)
  · rw [exec_heartbeat, execHeartbeat, ← hu]
    exact congrArg Host.Outcome.next (State.command_says pass rfl)
  · have answer : v.doRevokeSession n m = (v.kennelEnter (m.b 1)).say 0 := by
      rw [State.doRevokeSession, if_neg other, if_neg (by rw [open_]; decide)]
    rw [exec_revokeSession, execRevokeSession, ← hu, State.command_says pass answer]
  · have answer : v.doRevokeSession n m = v.say 0x0102 := by
      rw [State.doRevokeSession, if_pos own]
    rw [exec_revokeSession, execRevokeSession, ← hu, State.command_says pass answer]
  · rw [exec_revokeUnit, execRevokeUnit, ← hu]
    exact congrArg Host.Outcome.next (State.command_says pass rfl)
  · rw [exec_keyInstall, execKeyInstall, ← hu, State.command_says pass (State.doKeyInstall_installs comm some_ rate write)]
  · rw [exec_keyInstall, execKeyInstall, ← hu, State.command_says pass (State.doKeyInstall_rate comm some_ rate)]
  · have body := pass.body
    have slot : m.b 0 < 16 := by
      simp [Msg.bodyOk] at body
      obtain ⟨⟨-, slot⟩, -⟩ := body
      exact slot
    refine ⟨(v.keyErased (m.b 0)).each (v.derived n (m.b 0)) State.kennelEnter, ?_, ?_, fun k hk => ?_, ?_, fun k hk open_ keyed hs => ?_⟩
    · rw [exec_keyErase, execKeyErase, ← hu, State.command_says pass State.doKeyErase_eq]
    · rw [State.kennelEnters_keys]
      exact vget_vset _ _ _ slot
    · rw [State.kennelEnters_keys]
      exact vget_vset_ne _ _ _ _ (fun h => hk h.symm)
    · rw [State.kennelEnters_others]
      · rfl
      · rw [State.derived, mem_those]
        simp
    · refine State.kennelEnters_open ?_ open_
      rw [State.derived, mem_those]
      have ne : k.val ≠ n.val := fun h => hk (Fin.ext h)
      simp [k.isLt, ne, open_, keyed, hs]
  · rw [exec_netSet, execNetSet, ← hu]
    exact congrArg Host.Outcome.next (State.command_says pass rfl)

end Sys2Proof.Machine
end

section
/-! A quarantine's flush leaves a freed context's T flag set (12 R383; 03 R94, R95) -/
namespace Sys2Proof.Machine
open Sys2Proof

/-! ## The counterexample

Session 7 waits for a commit that a program requested on sequencer 0, whose swath is open without an owner and has taken its
last instruction from context 0 in this very tick. The flush frees context 0, which is session 7's; then it drops the
request, which sets event bit 9, which starts the armed emergency context 1 of another session, which aborts the swath and
so sets T in context 0. -/

/-- The sequencer, its emergency registers and its two contexts. -/
def ownerlessSwath : State :=
  ((((Tests.ready 1000).modSeq 0 (fun x => { x with swst := .opened, printed := some (1000, 0) })).setReg 0x01000600
    0x200).setReg 0x01000100 (fields [(32, 6, 1)])).modCtx 0 1 (fun x => { x with st := .armed, session := 9 })

def flushFirst : State :=
  (ownerlessSwath.modCtx 0 0 (fun x => { x with st := .loaded, session := 7 })).modSess 7 (fun x => { x with
    st := .confirmed, req := some { program := true } })

theorem flushFirst_ctx : ((flushFirst.arrive {}).ctxOf 0 0).st = .loaded ∧ (flushFirst.arrive {}).ctxSess 0 0 = 7 := by
  decide +kernel

theorem flushFirst_flag : (((flushFirst.arrive {}).happen (.flush 7 [] true)).ctxOf 0 0).t = true := by decide +kernel

/-- Refutes O43: the dropped commit request of the flush can start an emergency context that aborts the sequencer's swath and
sets T in a context that the flush has freed. -/
theorem not_sessionsInTime : ¬ Obligations.SessionsInTime := by
  unfold Obligations.SessionsInTime
  intro h
  obtain ⟨-, -, -, -, -, -, -, -, -, flush⟩ := h {} flushFirst _ 7 _ rfl rfl
  obtain ⟨-, freed⟩ := flush []
  obtain ⟨st, session⟩ := flushFirst_ctx
  have empty := freed 0 0 (by rw [Fin.val_zero, Fin.val_zero, st]; decide) session
  have cleared : (((flushFirst.arrive {}).happen (.flush 7 [] true)).ctxOf 0 0).t = false := (congrArg Ctx.t empty).trans rfl
  rw [flushFirst_flag] at cleared
  exact absurd cleared (by decide)

end Sys2Proof.Machine
end

section
/-! Claims, memory, translation and DMA by command (11 R348-R354; 12 R382, R385; 13 R392; 18 R513) -/
namespace Sys2Proof.Machine
open Sys2Proof

/-! ## Claims -/

theorem State.claimUnit_claims (s : State) (n u : Nat) : (s.claimUnit n u).mgt.claims = vset s.mgt.claims u (some n) := by
  unfold State.claimUnit
  dsimp only
  split
  · rw [State.postTo_mgt]
    rfl
  · rfl

theorem State.claimUnit_holder_same (s : State) (n : Nat) {u : Nat} (h : u < 101) : (s.claimUnit n u).holder u = some n := by
  rw [State.holder, State.claimUnit_claims]
  exact vget_vset _ _ _ h

theorem State.claimUnit_holder_ne (s : State) (n : Nat) {u k : Nat} (h : u ≠ k) : (s.claimUnit n u).holder k = s.holder k := by
  rw [State.holder, State.claimUnit_claims]
  exact vget_vset_ne _ _ _ _ h

theorem State.claimUnits_others {α : Type} (f : α → Nat) (n k : Nat) : ∀ (l : List α) (s : State), (∀ x ∈ l, f x ≠ k) →
    (s.each l (fun s x => s.claimUnit n (f x))).holder k = s.holder k
  | [], _, _ => rfl
  | x :: l, s, h => by
    rw [State.each_cons, claimUnits_others f n k l _ fun y hy => h y (List.mem_cons_of_mem _ hy)]
    exact s.claimUnit_holder_ne n (h x List.mem_cons_self)

theorem State.claimUnits_claimed {α : Type} (f : α → Nat) (n : Nat) {k : Nat} (hk : k < 101) : ∀ (l : List α) (s : State),
    s.holder k = some n ∨ (∃ x ∈ l, f x = k) → (s.each l (fun s x => s.claimUnit n (f x))).holder k = some n
  | [], _, h => h.resolve_right fun ⟨_, hx, _⟩ => List.not_mem_nil hx
  | x :: l, s, h => by
    rw [State.each_cons]
    refine claimUnits_claimed f n hk l _ ?_
    by_cases e : f x = k
    · exact .inl (e ▸ s.claimUnit_holder_same n (e ▸ hk))
    · rcases h with h | ⟨y, hy, hf⟩
      · exact .inl ((s.claimUnit_holder_ne n e).trans h)
      · exact .inr ⟨y, (List.mem_cons.1 hy).resolve_left (fun h => e (h ▸ hf)), hf⟩

theorem kindUnit_lt {k i : Nat} (h : i < kindCount k) : kindUnit k i < 101 := by
  unfold kindCount at h
  unfold kindUnit uSeq uAx uCam
  split at h
  · rw [if_pos ‹_›]
    omega
  · rw [if_neg ‹_›]
    split at h
    · rw [if_pos ‹_›]
      omega
    · rw [if_neg ‹_›]
      split at h
      · rw [if_pos ‹_›]
        omega
      · rw [if_neg ‹_›]
        split at h <;> omega

/-- The units that a claim or a release names exist. -/
theorem claimUnits_lt {m : Msg} {op : Nat} (hop : op = 0x0100 ∨ op = 0x0101) (body : m.bodyOk op 0 = true) :
    ∀ x ∈ claimUnits m, x.1 < 101 := by
  have named : (List.range (m.b 0)).all (fun i => m.b (5 + 2 * i) < kindCount (m.b (4 + 2 * i))) = true := by
    rcases hop with h | h <;> subst h <;> simp [Msg.bodyOk] at body ⊢ <;> exact body.2
  intro x hx
  obtain ⟨i, hi, rfl⟩ := List.mem_map.1 hx
  exact kindUnit_lt (of_decide_eq_true (List.all_eq_true.1 named i hi))

/-! ## Releases -/

theorem vget_foldl_vset (k : Nat) : ∀ (l : List Nat) (v : Vector (Option Nat) 101),
    vget (l.foldl (fun c u => vset c u none) v) k = if k ∈ l then none else vget v k
  | [], v => by simp
  | u :: l, v => by
    rw [List.foldl_cons, vget_foldl_vset k l]
    by_cases e : u = k
    · subst e
      by_cases h : u < 101
      · simp [vget_vset _ _ _ h]
      · simp [vget, h]
        intro _
        rfl
    · rw [vget_vset_ne _ _ _ _ e]
      simp [Ne.symm e]

/-- The state in which a session has released units. -/
def State.released (v : State) (n : Nat) (l : List Nat) : State :=
  ((v.dropUnits l).modSess n (fun x => { x with stage := { x.stage with
    units := x.stage.units.filter (fun u => !l.contains u) } })).modMgt (fun g => { g with
      claims := l.foldl (fun c u => vset c u none) g.claims })

theorem State.released_claims (v : State) (n : Nat) (l : List Nat) :
    (v.released n l).mgt.claims = l.foldl (fun c u => vset c u none) v.mgt.claims := by
  rw [State.released, State.modMgt_mgt, State.modSess_mgt, State.dropUnits, State.modMgt_mgt]

theorem State.released_holder (v : State) (n : Nat) (l : List Nat) (k : Nat) :
    (v.released n l).holder k = if k ∈ l then none else v.holder k := by
  rw [State.holder, State.released_claims, vget_foldl_vset]
  rfl

section
variable {v : State} {n : Nat} {m : Msg} {l : List Nat} (hl : l = ((claimUnits m).map (·.1)).filter (v.holds n))
include hl

theorem State.doRelease_releases (free : l.any (v.ses n).stage.sealedUnits.contains = false) (unbound : l.any (v.boundBy n) = false) :
    v.doRelease n m = (v.released n l).say 0 := by
  unfold State.doRelease
  dsimp only
  rw [← hl, free, unbound]
  rfl

theorem State.doRelease_sealed (sealed_ : l.any (v.ses n).stage.sealedUnits.contains = true) : v.doRelease n m = v.say 0x0114 := by
  unfold State.doRelease
  dsimp only
  rw [← hl, sealed_]
  rfl

end

/-! ## Pages given and taken back -/

theorem foldl_put_get_of_mem {k x : Nat} : ∀ (l : List Nat) (o : SMap Nat), k ∈ l ∨ SMap.get o 0 k = x →
    SMap.get (l.foldl (fun o pg => SMap.put o pg x) o) 0 k = x
  | [], _, h => h.resolve_left List.not_mem_nil
  | a :: l, o, h => by
    rw [List.foldl_cons]
    refine foldl_put_get_of_mem l _ ?_
    by_cases e : k = a
    · subst e
      exact .inr (SMap.get_put_same _ _ _ _)
    · rcases h with h | h
      · exact .inl ((List.mem_cons.1 h).resolve_left e)
      · exact .inr ((SMap.get_put_ne _ _ _ _ e _).trans h)

theorem foldl_put_get_of_not_mem {k x : Nat} : ∀ (l : List Nat) (o : SMap Nat), k ∉ l →
    SMap.get (l.foldl (fun o pg => SMap.put o pg x) o) 0 k = SMap.get o 0 k
  | [], _, _ => rfl
  | a :: l, o, h => by
    rw [List.foldl_cons, foldl_put_get_of_not_mem l _ (List.not_mem_of_not_mem_cons h)]
    exact SMap.get_put_ne _ _ _ _ (List.ne_of_not_mem_cons h) _

/-- A key that no entry has reads as the default. -/
theorem SMap.get_of_absent {β : Type} {d : β} {k : Nat} : ∀ {m : SMap β}, (∀ x ∈ m, x.1 ≠ k) → SMap.get m d k = d
  | [], _ => rfl
  | (a, w) :: l, h => by
    unfold SMap.get
    rw [if_neg (h (a, w) List.mem_cons_self)]
    split
    · rfl
    · exact SMap.get_of_absent fun x hx => h x (List.mem_cons_of_mem _ hx)

/-- What a map answers is the default or an entry's value. -/
theorem SMap.get_mem {β : Type} {d : β} {k : Nat} : ∀ m : SMap β, SMap.get m d k = d ∨ ∃ x ∈ m, SMap.get m d k = x.2
  | [] => .inl rfl
  | (a, w) :: l => by
    unfold SMap.get
    split
    · exact .inr ⟨(a, w), List.mem_cons_self, rfl⟩
    · split
      · exact .inl rfl
      · exact (SMap.get_mem l).imp_right fun ⟨x, hx, h⟩ => ⟨x, List.mem_cons_of_mem _ hx, h⟩

theorem memByte_memClear {m : List Host.Cell} {a n i : Nat} (lo : a ≤ i) (hi : i < a + n) : memByte (memClear m a n) i = 0 := by
  refine SMap.get_of_absent fun x hx e => ?_
  have out := (List.mem_filter.1 hx).2
  simp [e, lo, hi] at out

/-- The free pages of an allocation filled with zeros. -/
def State.fillPages (v : State) (l : List Nat) : State :=
  v.each l (fun s pg => s.when (!s.mem.filled.contains pg) (fun s => s.fillPage pg))

theorem State.fillPages_mem : ∀ (l : List Nat) (v : State), (v.fillPages l).mem = v.mem
  | [], _ => rfl
  | a :: l, v => by
    rw [State.fillPages, State.each_cons, ← State.fillPages, fillPages_mem l]
    cases v.mem.filled.contains a <;> rfl

/-- Pages not filled yet hold no cell after the fill. -/
theorem State.fillPages_empty {i : Nat} : ∀ (l : List Nat) (v : State),
    (i / 65536 ∈ l ∧ i / 65536 ∉ v.mem.filled) ∨ (∀ x ∈ v.dram, x.1 ≠ i) → ∀ x ∈ (v.fillPages l).dram, x.1 ≠ i
  | [], _, h => h.resolve_left fun h => List.not_mem_nil h.1
  | a :: l, v, h => by
    rw [State.fillPages, State.each_cons, ← State.fillPages]
    have mem : (v.when (!v.mem.filled.contains a) (fun s => s.fillPage a)).mem = v.mem := by
      cases v.mem.filled.contains a <;> rfl
    refine fillPages_empty l _ ?_
    rw [mem]
    rcases h with ⟨here, new⟩ | none_
    · by_cases e : i / 65536 = a
      · refine .inr ?_
        subst e
        have fresh : v.mem.filled.contains (i / 65536) = false := by simpa using new
        rw [fresh]
        intro x hx e
        have out := (List.mem_filter.1 hx).2
        simp [e] at out
        omega
      · exact .inl ⟨(List.mem_cons.1 here).resolve_left e, new⟩
    · refine .inr fun x hx => ?_
      revert hx
      cases v.mem.filled.contains a
      · exact fun hx => none_ x ((List.mem_filter.1 hx).1)
      · exact fun hx => none_ x hx

/-- The pages that an allocation gives. -/
def State.allocated (v : State) (n : Nat) (l : List Nat) : State :=
  (v.fillPages l).modMem (fun x => { x with
    owner := l.foldl (fun o pg => SMap.put o pg (n + 1)) x.owner, filled := x.filled.filter (fun p => !l.contains p) })

theorem State.allocated_owner (v : State) (n : Nat) (l : List Nat) :
    (v.allocated n l).mem.owner = l.foldl (fun o pg => SMap.put o pg (n + 1)) v.mem.owner := by
  show l.foldl (fun o pg => SMap.put o pg (n + 1)) (v.fillPages l).mem.owner = _
  rw [State.fillPages_mem]

section
variable {v : State} {n k : Nat} {m : Msg} {l : List Nat} (hk : k = m.f 0 4)
include hk

theorem State.doMemAlloc_gives (hl : l = v.freePagesFrom (v.dramTop / 65536 - 4096) k 4096) (ok : v.mem.dok = true)
    (quota : (v.pagesOf n).length + k ≤ (v.ses n).quota) (room : k ≤ l.length) :
    v.doMemAlloc n m = (v.allocated n l, some (0, toLE 4 k ++ l.flatMap (toLE 4))) := by
  unfold State.doMemAlloc
  dsimp only
  rw [← hk, ← hl, if_neg (by simp [ok, Nat.not_lt.2 quota, Nat.not_lt.2 room])]
  rfl

theorem State.doMemAlloc_quota (quota : (v.ses n).quota < (v.pagesOf n).length + k) : v.doMemAlloc n m = v.say 0x0110 := by
  unfold State.doMemAlloc
  dsimp only
  rw [← hk, if_pos (by simp [quota])]

end

/-! ## Pages taken back -/

theorem State.retirePage_owner (s : State) (pg : Nat) : (s.retirePage pg).mem.owner = s.mem.owner := by
  unfold State.retirePage
  split
  · rfl
  · rw [(State.postAll_posts _ _).mem]
    rfl

theorem State.freePages_owner (s : State) (l : List Nat) :
    (s.freePages l).mem.owner = s.mem.owner.filter (fun x => !l.contains x.1) := by
  unfold State.freePages
  exact State.each_field (g := fun u => u.mem.owner) State.retirePage_owner _ _

theorem State.freePages_pageHeld (s : State) {l : List Nat} {pg : Nat} (h : pg ∈ l) (n : Nat) : (s.freePages l).pageHeld n pg = false := by
  have none_ : SMap.get (s.freePages l).mem.owner 0 pg = 0 := by
    rw [State.freePages_owner]
    refine SMap.get_of_absent fun x hx e => ?_
    have out := (List.mem_filter.1 hx).2
    simp [e, h] at out
  rw [State.pageHeld, none_]
  simp

section
variable {v : State} {n : Nat} {m : Msg} {l : List Nat} (hl : l = (List.range (m.f 0 4)).map (fun i => m.f (4 + 4 * i) 4))
include hl

theorem State.doMemFree_frees (mine : l.all (v.pageHeld n) = true)
    (free : l.any (fun pg => v.pinned pg || (v.rootPages n).contains pg) = false) : ∃ w : State, v.doMemFree n m = (w.freePages l).say 0 := by
  unfold State.doMemFree
  dsimp only
  rw [← hl, mine, free]
  exact ⟨_, rfl⟩

theorem State.doMemFree_refused (no : l.all (v.pageHeld n) = false) : v.doMemFree n m = v.say 0x0204 := by
  unfold State.doMemFree
  dsimp only
  rw [← hl, no]
  rfl

end

/-! ## Translations dropped -/

section
variable (v : State) (n : Nat) (f : Nat → Bool)

/-- The reads of stream p through an invalidated page are old. -/
def State.markOld (s : State) (p : Nat) : State := s.modStr p (fun x => { x with
  reads := x.reads.map (fun r => if f (r.va / 65536) then { r with old := true } else r) })

/-- The translations and walks of a session dropped. -/
def State.forgets : State :=
  (v.tlbDrop n f).modXlt (fun x => { x with walks := x.walks.filter (fun w => !(w.session == n && f (w.va / 65536))) })

theorem State.invalidate_eq : v.invalidate n f = (v.forgets n f).each (those 64 (v.holds n)) (fun s p => s.markOld f p) := rfl

theorem State.invalidate_sess : (v.invalidate n f).sess = v.sess := by
  rw [State.invalidate_eq, State.each_field (g := State.sess) (f := fun s p => s.markOld f p) fun _ _ => rfl]
  rfl

theorem State.invalidate_xlt : (v.invalidate n f).xlt = (v.forgets n f).xlt := by
  rw [State.invalidate_eq, State.each_field (g := State.xlt) (f := fun s p => s.markOld f p) fun _ _ => rfl]

theorem State.invalidate_mgt : (v.invalidate n f).mgt = v.mgt := by
  rw [State.invalidate_eq, State.each_field (g := State.mgt) (f := fun s p => s.markOld f p) fun _ _ => rfl]
  rfl

/-- Every translation of the session is gone. -/
theorem State.invalidate_tlbHit (va : Nat) (wr : Bool) : (v.invalidate n (fun _ => true)).tlbHit n va wr = none := by
  rw [State.tlbHit, State.tlbWays, State.invalidate_xlt, List.find?_eq_none]
  intro e he
  have gone : e.session ≠ n := by
    rcases SMap.get_mem (d := []) (k := tlbSet n (va / 65536)) (v.forgets n (fun _ => true)).xlt.sets with h | ⟨x, hx, h⟩
    · rw [h] at he
      exact absurd he List.not_mem_nil
    · rw [h] at he
      obtain ⟨y, -, rfl⟩ := List.mem_map.1 ((List.mem_filter.1 hx).1)
      have kept := (List.mem_filter.1 he).2
      simpa using kept
  simp [gone]

theorem State.markOld_idle {k : Fin 64} (p : Nat) (h : (vget v.str k).reads = []) : (vget (v.markOld f p).str k).reads = [] := by
  rw [State.markOld, State.modStr_str]
  by_cases e : p = k.val
  · subst e
    rw [vget_vmod_fin, h]
    rfl
  · rw [vget_vmod_ne _ _ _ _ e, h]

theorem State.marksOld_idle {k : Fin 64} : ∀ (l : List Nat) (s : State), (vget s.str k).reads = [] →
    (vget (s.each l (fun s p => s.markOld f p)).str k).reads = []
  | [], _, h => h
  | p :: l, s, h => marksOld_idle l _ (s.markOld_idle f p h)

/-- Where no read is in flight, none is old. -/
theorem State.invalidate_oldReads (idle : ∀ p : Fin 64, v.holds n p = true → (vget v.str p).reads = []) :
    (v.invalidate n f).oldReads n = false := by
  rw [State.oldReads, List.any_eq_false]
  intro p hp
  obtain ⟨lt, held⟩ := mem_those.1 hp
  rw [State.holds, State.holder, State.invalidate_mgt, ← State.holder, ← State.holds] at held
  have none_ := State.marksOld_idle (k := ⟨p, lt⟩) f (those 64 (v.holds n)) (v.forgets n f) (idle ⟨p, lt⟩ held)
  rw [State.invalidate_eq]
  show ¬((vget ((v.forgets n f).each (those 64 (v.holds n)) (fun s p => s.markOld f p)).str p).reads.any _) = true
  rw [none_]
  simp

/-- An invalidation without reads in flight is answered at once. -/
theorem State.invalAnswer_now {op : Nat} {m : Msg} (idle : v.oldReads n = false) : v.invalAnswer n op m = v.say 0 := by
  rw [State.invalAnswer, if_neg (by rw [idle]; decide)]

end

/-! ## The obligation -/

/-- Settles O44. -/
theorem resourceCommands : Obligations.ResourceCommands := by
  intro e m s u v n hu
  refine ⟨fun pass o ho => ⟨fun free => ?_, fun x hx => ?_⟩, fun pass l hl => ⟨fun unsealed unbound => ?_, fun sealed_ => ?_⟩,
    fun pass k l hk hl => ⟨fun ok quota room => ?_, fun quota => ?_⟩, fun pass l hl => ⟨fun mine free => ?_, fun no => ?_⟩,
    fun pass idle => ?_, fun pass idle => ?_, fun pass => ⟨fun held => ?_, fun free => ?_⟩, fun pass r hr => ?_,
    fun pass limit w b read => ?_⟩
  · have answer : v.doClaim n m = (v.releaseFirst.each (claimUnits m) (fun s x => s.claimUnit n x.1)).say 0 := by
      unfold State.doClaim
      dsimp only
      rw [← ho, free]
    refine ⟨_, by rw [exec_claim, execClaim, ← hu, State.command_says pass answer], fun x hx => ?_, fun un other => ?_⟩
    · exact State.claimUnits_claimed _ n (claimUnits_lt (.inl rfl) pass.body x hx) _ _ (.inr ⟨x, hx, rfl⟩)
    · exact State.claimUnits_others _ n un _ _ other
  · have answer : v.doClaim n m = (v.releaseFirst, some (0x010F, toLE 1 x.2.1 ++ toLE 1 x.2.2)) := by
      unfold State.doClaim
      dsimp only
      rw [← ho, hx]
    rw [exec_claim, execClaim, ← hu, State.command_answers pass answer]
    rfl
  · refine ⟨v.released n l, ?_, fun un mem => ?_, fun un other => ?_⟩
    · rw [exec_release, execRelease, ← hu, State.command_says pass (State.doRelease_releases hl unsealed unbound)]
    · rw [State.released_holder, if_pos mem]
    · rw [State.released_holder, if_neg other]
  · rw [exec_release, execRelease, ← hu, State.command_says pass (State.doRelease_sealed hl sealed_)]
  · refine ⟨v.allocated n l, ?_, fun pg mem => ?_, fun pg other => ?_, fun pg mem new a ha => ?_⟩
    · rw [exec_memAlloc, execMemAlloc, ← hu, State.command_answers pass (State.doMemAlloc_gives hk hl ok quota room)]
      rfl
    · rw [State.pageHeld, State.allocated_owner, foldl_put_get_of_mem l _ (.inl mem), beq_self_eq_true]
    · rw [State.allocated_owner, foldl_put_get_of_not_mem l _ other]
    · subst ha
      exact SMap.get_of_absent (State.fillPages_empty l v (.inl ⟨mem, new⟩))
  · rw [exec_memAlloc, execMemAlloc, ← hu, State.command_says pass (State.doMemAlloc_quota hk quota)]
  · obtain ⟨w, answer⟩ := State.doMemFree_frees hl mine free
    exact ⟨w.freePages l, by rw [exec_memFree, execMemFree, ← hu, State.command_says pass answer],
      fun pg mem => w.freePages_pageHeld mem n⟩
  · rw [exec_memFree, execMemFree, ← hu, State.command_says pass (State.doMemFree_refused hl no)]
  · have answer : v.doPtSet n m = ((v.modSess n (fun x => { x with root := wd (m.f 0 8) })).invalidate n (fun _ => true)).say 0 :=
      State.invalAnswer_now _ _ (State.invalidate_oldReads _ _ _ idle)
    refine ⟨_, by rw [exec_ptSet, execPtSet, ← hu, State.command_says pass answer], ?_, fun va wr => State.invalidate_tlbHit _ _ va wr⟩
    rw [State.ses, State.invalidate_sess]
    exact (congrArg Sess.root (State.modSess_ses_same v n _)).trans rfl
  · have answer : v.doTlbInval n m = (v.invalidate n (fun p => m.f 8 8 / 65536 == 0 ||
        (decide (m.f 0 8 / 65536 ≤ p) && decide (p < m.f 0 8 / 65536 + m.f 8 8 / 65536)))).say 0 :=
      State.invalAnswer_now _ _ (State.invalidate_oldReads _ _ _ idle)
    rw [exec_tlbInval, execTlbInval, ← hu, State.command_says pass answer]
  · have answer : v.doFaultResume n m = (v.strResume (m.b 0)).say 0 := if_pos held
    rw [exec_faultResume, execFaultResume, ← hu, State.command_says pass answer]
  · have answer : v.doFaultResume n m = v.say 0x0102 := if_neg (by rw [free]; decide)
    rw [exec_faultResume, execFaultResume, ← hu, State.command_says pass answer]
  · have answer : v.doMemWrite n m = r.1.say r.2 := by rw [hr]; rfl
    rw [exec_memWrite, execMemWrite, ← hu, State.command_says pass answer]
  · have answer : v.doMemRead n m = (w, some (0, b)) := by
      unfold State.doMemRead
      rw [if_neg (Nat.not_lt.2 limit), read]
    rw [exec_memRead, execMemRead, ← hu, State.command_answers pass answer]
    rfl

end Sys2Proof.Machine
end

section
/-! The context commands: load, arm, start, stop (02 R29-R31; 03 R94, R95; 18 R516, R517) -/
namespace Sys2Proof.Machine
open Sys2Proof

/-! ## Words found in a map -/

section
variable {β : Type}

theorem SMap.find_put_same (k : Nat) (v : β) : ∀ m : SMap β, SMap.find (SMap.put m k v) k = some v
  | [] => by simp [SMap.put, SMap.find]
  | (a, w) :: l => by
    unfold SMap.put
    split
    · simp [SMap.find]
    · next ne =>
      split
      · simp [SMap.find]
      · next ge =>
        unfold SMap.find
        rw [if_neg ne, if_neg ge]
        exact SMap.find_put_same k v l

theorem SMap.find_put_ne {k j : Nat} (v : β) (h : j ≠ k) : ∀ m : SMap β, SMap.find (SMap.put m k v) j = SMap.find m j
  | [] => by
    unfold SMap.put SMap.find
    rw [if_neg h.symm]
    simp [SMap.find]
  | (a, w) :: l => by
    unfold SMap.put
    split
    · next e =>
      subst e
      unfold SMap.find
      rw [if_neg h.symm, if_neg h.symm]
    · next ne =>
      split
      · next lt =>
        rw [SMap.find, if_neg h.symm]
        split
        · rw [SMap.find, if_neg (by omega), if_pos (by omega)]
        · rfl
      · rw [SMap.find, SMap.find, SMap.find_put_ne v h l]

end

/-! ## A loaded image -/

/-- The code words of an image in the program store, before the flip mask is asked. -/
def State.putCode (s : State) (q c : Nat) (l : List (Nat × Word)) : State :=
  s.each l (fun s x => { s with pstore := SMap.put s.pstore (pKey q c x.1) x.2 })

theorem State.putCode_ctx (q c : Nat) (l : List (Nat × Word)) (s : State) : (s.putCode q c l).ctx = s.ctx :=
  State.each_field (f := fun s (x : Nat × Word) => { s with pstore := SMap.put s.pstore (pKey q c x.1) x.2 }) (g := State.ctx)
    (fun _ _ => rfl) l s

theorem State.putCode_find (q c : Nat) {i : Nat} : ∀ (l : List (Nat × Word)) (s : State) (r : Option Word),
    (∀ x ∈ l, x.1 = i → some x.2 = r) → (i ∈ l.map (·.1) ∨ SMap.find s.pstore (pKey q c i) = r) →
    SMap.find (s.putCode q c l).pstore (pKey q c i) = r
  | [], _, _, _, h => h.resolve_left (by simp)
  | (j, w) :: l, s, r, same, h => by
    rw [State.putCode, State.each_cons, ← State.putCode]
    refine putCode_find q c l _ r (fun x hx => same x (List.mem_cons_of_mem _ hx)) ?_
    by_cases e : j = i
    · exact .inr (e ▸ (SMap.find_put_same _ _ _).trans (same (j, w) List.mem_cons_self e))
    · refine (h.imp_left fun mem => ?_).imp_right fun found => (SMap.find_put_ne _ ?_ _).trans found
      · exact (List.mem_cons.1 mem).resolve_left (Ne.symm e)
      · unfold pKey
        omega

/-- The flip mask asked about the words of a program. -/
def State.askFlips (s : State) (q c : Nat) (l : List Nat) : State :=
  s.each l (fun s i =>
    let r := s.sramWrite (Config.storeIndex (pKey q c i) false) 1
    if r.2.isEmpty then r.1 else { r.1 with pstoreBad := addOnce (pKey q c i) r.1.pstoreBad })

theorem State.askFlips_kept (q c : Nat) : ∀ (l : List Nat) (s : State),
    (s.askFlips q c l).ctx = s.ctx ∧ (s.askFlips q c l).pstore = s.pstore
  | [], _ => ⟨rfl, rfl⟩
  | i :: l, s => by
    rw [State.askFlips, State.each_cons, ← State.askFlips]
    obtain ⟨ctx, pstore⟩ := askFlips_kept q c l (if (s.sramWrite (Config.storeIndex (pKey q c i) false) 1).2.isEmpty
      then (s.sramWrite (Config.storeIndex (pKey q c i) false) 1).1
      else { (s.sramWrite (Config.storeIndex (pKey q c i) false) 1).1 with
        pstoreBad := addOnce (pKey q c i) (s.sramWrite (Config.storeIndex (pKey q c i) false) 1).1.pstoreBad })
    have sram := s.sramWrite_sram (Config.storeIndex (pKey q c i) false) 1
    have ctx0 : (s.sramWrite (Config.storeIndex (pKey q c i) false) 1).1.ctx = s.ctx := (congrArg State.ctx sram).trans rfl
    have store0 : (s.sramWrite (Config.storeIndex (pKey q c i) false) 1).1.pstore = s.pstore := (congrArg State.pstore sram).trans rfl
    refine ⟨ctx.trans ?_, pstore.trans ?_⟩
    · split
      · exact ctx0
      · exact ctx0
    · split
      · exact store0
      · exact store0

theorem State.storeProgram_eq (s : State) (q c : Nat) (words : List Word) : s.storeProgram q c words =
    (s.putCode q c ((List.range words.length).zip words)).askFlips q c (List.range words.length) := rfl

theorem State.storeProgram_ctx (s : State) (q c : Nat) (words : List Word) : (s.storeProgram q c words).ctx = s.ctx := by
  obtain ⟨ctx, -⟩ := State.askFlips_kept q c (List.range words.length) (s.putCode q c ((List.range words.length).zip words))
  rw [State.storeProgram_eq, ctx, State.putCode_ctx]

/-- Every code word is found in the program store. -/
theorem State.storeProgram_find (s : State) (q c : Nat) (words : List Word) {i : Nat} (h : i < words.length) :
    SMap.find (s.storeProgram q c words).pstore (pKey q c i) = some words[i] := by
  obtain ⟨-, pstore⟩ := State.askFlips_kept q c (List.range words.length) (s.putCode q c ((List.range words.length).zip words))
  rw [State.storeProgram_eq, pstore]
  refine State.putCode_find q c _ s _ (fun x hx e => ?_) (.inl ?_)
  · obtain ⟨j, hj, rfl⟩ := List.mem_iff_getElem.1 hx
    simp only [List.getElem_zip, List.getElem_range] at e ⊢
    subst e
    rfl
  · rw [List.map_fst_zip (by simp)]
    exact List.mem_range.2 h

end Sys2Proof.Machine
end

section
/-! What the context commands leave, settled (02 R29-R31; 18 R516, R517) -/
namespace Sys2Proof.Machine
open Sys2Proof

theorem Ctx.stopped_not_armed {x : Ctx} (h : x.stopped = true) : x.st ≠ .armed := by
  intro e
  rw [Ctx.stopped, e] at h
  exact absurd h (by decide)

/-- A sequencer's program memory with an image loaded for context c at session n's request. -/
def State.imageLoaded (s : State) (n q c level k : Nat) (h b : List Byte) : State :=
  (s.modCtx q c (fun _ => ⟨.loaded, level, bitsN (leAt h 8 8) 39 38, n, 0, k, bitsN (leAt h 8 8) 37 19,
    bitsN (leAt h 8 8) 37 19, Vector.replicate 16 0, false, false, false, false, [], none, 0, []⟩)).storeProgram q c
      (wordsOfBytes k (b.drop 64))

/-- A stopped context started at its entry with the payload's registers. -/
def State.restarted (v : State) (q c : Nat) (m : Msg) : State :=
  (v.modCtx q c (fun x => x.restart m .ready v.now)).modSeq q
    (fun y => if y.resident == some c then { y with resident := none } else y)

section
variable {v : State} {n q c : Nat} {m : Msg} (hq : m.b 0 = q) (hc : m.b 1 = c)
include hq hc

/-! ## CTX_LOAD -/

omit hq hc in
theorem State.loadImage_loads {s : State} {level len : Nat} {h b : List Byte} {k : Nat} (hk : k = bitsN (leAt h 8 8) 18 0)
    (image : imageOk h len = true) (crc : crc32c (b.drop 64) = leAt h 24 4) (room : k ≤ s.pFree) :
    s.loadImage n q c level len h b = (s.imageLoaded n q c level k h b, some (0, toLE 4 k)) := by
  unfold State.loadImage
  dsimp only
  rw [image, ← hk, if_neg (by decide), if_neg (Classical.not_not.2 crc), if_neg (Nat.not_lt.2 room)]
  rfl

theorem State.doCtxLoad_loads {h b : List Byte} {v1 v2 : State} (right : (v.ses n).cls = .production → m.b 2 < 2)
    (level : v.levelOk n q (m.b 2) = true) (header : v.vread n 3 0 (m.f 8 8) 64 = (v1, .ok h))
    (attr : attrOk (m.b 2) (bitsN (leAt h 8 8) 39 38) = true) (free : (v.ctxOf q c).st = .free) (long : 72 ≤ m.f 4 4)
    (short : m.f 4 4 ≤ 64 + 8 * 524280) (image : v1.vread n 3 0 (m.f 8 8) (m.f 4 4) = (v2, .ok b)) :
    v.doCtxLoad n m = v2.loadImage n q c (m.b 2) (m.f 4 4) h b := by
  have may : ¬((v.ses n).cls == .production && 2 ≤ m.b 2) = true := by
    simp only [Bool.and_eq_true, beq_iff_eq, decide_eq_true_eq, not_and]
    exact fun p => Nat.not_le.2 (right p)
  unfold State.doCtxLoad
  dsimp only
  rw [hq, hc, if_neg may, if_neg (by rw [level]; decide), header]
  dsimp only
  rw [if_neg (by rw [attr]; decide), if_neg (by rw [free]; decide), if_neg (by simp [Nat.not_lt.2 long, Nat.not_lt.2 short]), image]

/-! ## CTX_ARM -/

/-- The other armed contexts of a sequencer stand down. -/
def State.standDown (v : State) (q : Nat) : State :=
  v.each ((List.range 64).filter (fun k => (v.ctxOf q k).st == .armed)) (fun s k => s.modCtx q k (fun x => { x with st := .loaded }))

/-- Context c of sequencer q armed with the payload's registers. -/
def State.arms (v : State) (q c : Nat) (m : Msg) : State :=
  (v.standDown q).modCtx q c (fun x => x.restart m .armed (v.standDown q).now)

/-- An EMERG_FAULT of sequencer q ended. -/
def State.endEmerg (s : State) (q : Nat) : State :=
  if s.safe.emerg.testBit q then s.causeClear 0x0316 q (some q) (fun k => { k with emerg := k.emerg - 2 ^ q }) else s

theorem State.doCtxArm_arms (class_ : (v.ses n).cls ≠ .production) (mine : (v.ctxOf q c).session = n)
    (level : v.levelOk n q 3 = true) (attr : (v.ctxOf q c).attr = 2) (emerg : v.ectx q = c)
    (stopped : (v.ctxOf q c).stopped = true) : v.doCtxArm n m = ((v.arms q c m).endEmerg q).say 0 := by
  unfold State.doCtxArm
  dsimp only
  rw [hq, hc, if_neg (by simpa using class_), if_neg (by simp [mine]), if_neg (by rw [level]; decide),
    if_neg (by simp [attr, emerg, stopped])]
  rfl

/-! ## CTX_START and CTX_STOP -/

theorem State.doCtxStart_stopped (held : v.holds n (uSeq q) = true) (mine : (v.ctxOf q c).session = n)
    (stopped : (v.ctxOf q c).stopped = true) : v.doCtxStart n m = (v.restarted q c m).say 0 := by
  have still := Ctx.stopped_not_armed stopped
  unfold State.doCtxStart
  dsimp only
  rw [hq, hc, if_neg (by simp [held, mine]), if_neg (by simpa using still), if_pos stopped]
  rfl

theorem State.doCtxStart_armed (held : v.holds n (uSeq q) = true) (mine : (v.ctxOf q c).session = n)
    (armed : (v.ctxOf q c).st = .armed) : v.doCtxStart n m = (v.emergCore q c).say 0 := by
  unfold State.doCtxStart
  dsimp only
  rw [hq, hc, if_neg (by simp [held, mine]), if_pos (by rw [armed]; rfl)]

theorem State.doCtxStart_refused (free : v.holds n (uSeq q) = false) : v.doCtxStart n m = v.say 0x0102 := by
  unfold State.doCtxStart
  dsimp only
  rw [hq, if_pos (by simp [free])]

theorem State.doCtxStop_stops (held : v.holds n (uSeq q) = true) (mine : (v.ctxOf q c).session = n) (keep : m.b 2 = 0)
    (run : (v.ctxOf q c).st = .ready ∨ (v.ctxOf q c).st = .waiting) (free : v.ownsSwath q c = false) :
    v.doCtxStop n m = (v.modCtx q c (fun x => { x with st := .halted, wait := none })).say 0 := by
  have halts : v.modCtx q c (fun x => if x.st == .faulted || x.st == .halted then { x with st := .halted }
      else { x with st := .halted, wait := none }) = v.modCtx q c (fun x => { x with st := .halted, wait := none }) := by
    refine State.modCtx_congr _ _ _ (if_neg ?_)
    rcases run with h | h <;> rw [h] <;> decide
  unfold State.doCtxStop
  dsimp only
  rw [hq, hc, if_neg (by simp [held, mine]), if_neg (by rcases run with h | h <;> rw [h] <;> decide), free, Bool.and_false,
    State.when_false, keep, if_neg (by decide), halts]

theorem State.doCtxStop_frees (held : v.holds n (uSeq q) = true) (mine : (v.ctxOf q c).session = n) (gone : m.b 2 = 1)
    (halted : (v.ctxOf q c).st = .halted) : ∃ w : State, v.doCtxStop n m = (w.freeCtx q c).say 0 := by
  unfold State.doCtxStop
  dsimp only
  rw [hq, hc, if_neg (by simp [held, mine]), if_neg (by rw [halted]; decide), if_pos gone]
  exact ⟨_, rfl⟩

end

/-! ## What the commands leave -/

section
variable (v : State) (q : Fin 16) (c : Fin 64) (m : Msg)

theorem State.freeCtx_ctxOf : (v.freeCtx q c).ctxOf q c = {} := by
  unfold State.freeCtx
  exact State.ctxOf_modCtx _ q c _

/-- The contexts after the armed ones of a list stood down. -/
theorem State.standsDown_ctxOf {d : Fin 64} : ∀ (l : List Nat) (s : State),
    (s.each l (fun s k => s.modCtx q k (fun x => { x with st := .loaded }))).ctxOf q d =
      if d.val ∈ l then { s.ctxOf q d with st := .loaded } else s.ctxOf q d
  | [], s => rfl
  | k :: l, s => by
    rw [State.each_cons, standsDown_ctxOf l]
    by_cases e : k = d.val
    · subst e
      rw [State.ctxOf_modCtx]
      simp
    · rw [State.ctxOf_modCtx_ne s q _ e]
      simp [Ne.symm e]

theorem State.standDown_ctxOf (d : Fin 64) : (v.standDown q).ctxOf q d =
    if (v.ctxOf q d).st = .armed then { v.ctxOf q d with st := .loaded } else v.ctxOf q d := by
  rw [State.standDown, State.standsDown_ctxOf]
  simp

theorem State.standDown_kept : (v.standDown q).now = v.now ∧ (v.standDown q).seq = v.seq ∧ (v.standDown q).fire = v.fire ∧
    (v.standDown q).safe = v.safe := by
  unfold State.standDown
  refine ⟨?_, ?_, ?_, ?_⟩
  · exact State.each_field (f := fun s k => s.modCtx q k (fun x => { x with st := .loaded })) (g := State.now) (fun _ _ => rfl) _ _
  · exact State.each_field (f := fun s k => s.modCtx q k (fun x => { x with st := .loaded })) (g := State.seq) (fun _ _ => rfl) _ _
  · exact State.each_field (f := fun s k => s.modCtx q k (fun x => { x with st := .loaded })) (g := State.fire) (fun _ _ => rfl) _ _
  · exact State.each_field (f := fun s k => s.modCtx q k (fun x => { x with st := .loaded })) (g := State.safe) (fun _ _ => rfl) _ _

theorem State.endEmerg_kept : (v.endEmerg q).ctx = v.ctx ∧ (v.endEmerg q).seq = v.seq ∧ (v.endEmerg q).fire = v.fire := by
  unfold State.endEmerg
  split
  · have posts := v.causeClear_posts 0x0316 q (some q.val) (fun k => { k with emerg := k.emerg - 2 ^ q.val })
    exact ⟨posts.ctx, posts.seq, posts.fire⟩
  · exact ⟨rfl, rfl, rfl⟩

/-- Taking 2^i from a number whose bit i is set clears that bit. -/
theorem testBit_sub_two_pow {k i : Nat} (h : k.testBit i = true) : (k - 2 ^ i).testBit i = false := by
  rw [Nat.testBit_eq_decide_div_mod_eq, decide_eq_true_eq] at h
  rw [Nat.testBit_eq_decide_div_mod_eq, decide_eq_false_iff_not]
  have sub := Nat.sub_mul_div k (2 ^ i) 1
  rw [Nat.mul_one] at sub
  rw [sub]
  omega

theorem State.endEmerg_clears : (v.endEmerg q).safe.emerg.testBit q = false := by
  unfold State.endEmerg
  cases h : v.safe.emerg.testBit q
  · rw [if_neg (by decide), h]
  · rw [if_pos rfl, (v.causeClear_posts 0x0316 q (some q.val) (fun k => { k with emerg := k.emerg - 2 ^ q.val })).safe]
    exact testBit_sub_two_pow h

/-- A stopped context that is armed, the others stood down. -/
theorem State.arms_ctxOf (still : (v.ctxOf q c).st ≠ .armed) : (v.arms q c m).ctxOf q c = (v.ctxOf q c).restart m .armed v.now := by
  obtain ⟨now, -⟩ := v.standDown_kept q
  rw [State.arms, State.ctxOf_modCtx, v.standDown_ctxOf, if_neg still, now]

theorem State.arms_ctxOf_ne {d : Fin 64} (h : d ≠ c) : (v.arms q c m).ctxOf q d =
    if (v.ctxOf q d).st = .armed then { v.ctxOf q d with st := .loaded } else v.ctxOf q d := by
  rw [State.arms, State.ctxOf_modCtx_ne _ q _ (fun e => h (Fin.ext e.symm)), v.standDown_ctxOf]

end

/-- Settles O45. -/
theorem contextCommands : Obligations.ContextCommands := by
  intro e m s u v n q c x hu hq hc hx
  subst hx
  refine ⟨fun h b v1 v2 k pass hk right level header attr free long short image ok crc room => ?_,
    fun pass class_ mine level attr emerg stopped => ?_, fun pass held mine stopped => ?_, fun pass held mine armed => ?_,
    fun pass free => ?_, fun pass held mine keep run free => ?_, fun pass held mine gone halted => ?_⟩
  · have answer := (State.doCtxLoad_loads hq hc right level header attr free long short image).trans
      (State.loadImage_loads (n := n) (level := m.b 2) hk ok crc room)
    refine ⟨v2.imageLoaded n q c (m.b 2) k h b, ?_, ?_, fun i hi => ?_, fun d hd => ?_⟩
    · rw [exec_ctxLoad, execCtxLoad, ← hu, State.command_answers pass answer]
      rfl
    · rw [State.imageLoaded, State.ctxOf_eq (State.storeProgram_ctx _ _ _ _), State.ctxOf_modCtx]
    · have len : i < (wordsOfBytes k (b.drop 64)).length := by simpa [wordsOfBytes] using hi
      rw [State.imageLoaded, State.storeProgram_find _ _ _ _ len]
      simp [wordsOfBytes]
    · rw [State.imageLoaded, State.ctxOf_eq (State.storeProgram_ctx _ _ _ _), State.ctxOf_modCtx_ne _ q _ (fun h => hd (Fin.ext h.symm))]
  · obtain ⟨ctx, seq, fire⟩ := (v.arms q c m).endEmerg_kept q
    obtain ⟨-, seq0, fire0, -⟩ := v.standDown_kept q
    refine ⟨(v.arms q c m).endEmerg q, ?_, ?_, State.endEmerg_clears _ q, fun d hd => ?_, seq.trans seq0, fire.trans fire0⟩
    · rw [exec_ctxArm, execCtxArm, ← hu,
        State.command_says pass (State.doCtxArm_arms hq hc class_ mine level attr emerg stopped)]
    · rw [State.ctxOf_eq ctx, v.arms_ctxOf q c m (Ctx.stopped_not_armed stopped)]
    · rw [State.ctxOf_eq ctx, v.arms_ctxOf_ne q c m hd]
  · have ctx : (v.restarted q c m).ctxOf q c = (v.ctxOf q c).restart m .ready v.now := State.ctxOf_modCtx v q c _
    refine ⟨v.restarted q c m, ?_, ctx, (congrArg Ctx.pc ctx).trans rfl, (congrArg Ctx.g ctx).trans rfl, fun d hd => ?_⟩
    · rw [exec_ctxStart, execCtxStart, ← hu, State.command_says pass (State.doCtxStart_stopped hq hc held mine stopped)]
    · rw [State.restarted, State.modSeq_ctxOf, State.ctxOf_modCtx_ne _ q _ (fun h => hd (Fin.ext h.symm))]
  · rw [exec_ctxStart, execCtxStart, ← hu, State.command_says pass (State.doCtxStart_armed hq hc held mine armed)]
  · rw [exec_ctxStart, execCtxStart, ← hu, State.command_says pass (State.doCtxStart_refused hq hc free)]
  · rw [exec_ctxStop, execCtxStop, ← hu, State.command_says pass (State.doCtxStop_stops hq hc held mine keep run free)]
    exact congrArg (fun w : State => Host.Outcome.next (w.reply n 0x0303 m 0 [] true)) (State.modCtx_congr _ _ _ rfl)
  · obtain ⟨w, answer⟩ := State.doCtxStop_frees hq hc held mine gone halted
    exact ⟨w.freeCtx q c, by rw [exec_ctxStop, execCtxStop, ← hu, State.command_says pass answer], w.freeCtx_ctxOf q c⟩

end Sys2Proof.Machine
end

section
/-! A commit of table words can use up the flip mask (12 R374; 13 R407) -/
namespace Sys2Proof.Machine
open Sys2Proof

/-! ## The counterexample

Session 7's sealed set holds one word of the bin map, its commit is ready, and the flip mask is armed for the die's memory. The
commit writes the word into the staged bank of the table, which the flip mask hits: it disarms, so that its register does not
keep its value although the set does not name it. -/

/-- The address of the staged word, a word of the bin map. -/
def stagedTableWord : Nat := 0x03900000

def flipMeetsCommit : State :=
  ((Tests.sessAt .production (fun x => { x with
    req := some Tests.req, stage := { sealedUnits := [unitAt stagedTableWord] } })).modMgt (fun g => { g with
      staged := [(stagedTableWord, (0 : Word))] })).setReg 0x04000048 0x100

/-- The state that the commit point meets. -/
def commitDue : State := (flipMeetsCommit.arrive {}).calFirst

theorem commitDue_request : (commitDue.ses (7 : Fin 256)).req = some Tests.req ∧ commitDue.swOpen Tests.req.seq = false ∧
    commitDue.setReady (7 : Fin 256) = true ∧ commitDue.entryComes (7 : Fin 256) = false ∧ ∀ k : Fin 256, k < 7 → (commitDue.ses k).req = none := by
  decide +kernel

theorem commitDue_set : commitDue.wordsOf (commitDue.ses (7 : Fin 256)).stage.sealedUnits = [(stagedTableWord, (0 : Word))] ∧
    commitDue.mgt.badTab.any (fun b => b.2 && (commitDue.ses (7 : Fin 256)).stage.sealedUnits.contains (unitAt b.1)) = false ∧
    commitDue.mgt.live = [(0x04000048, (0x100 : Word))] := by decide +kernel

theorem commitDue_flip : (commitDue.goLive (commitDue.ses (7 : Fin 256)).stage.sealedUnits (commitDue.ses (7 : Fin 256)).stage.sealedUnits
    [(stagedTableWord, (0 : Word))]).reg 0x04000048 = 0x800 ∧ commitDue.reg 0x04000048 = 0x100 := by decide +kernel

/-- Refutes O46: a committed table word meets an armed flip mask, whose register changes though the set does not hold it. -/
theorem not_commitCommands : ¬ Obligations.CommitCommands := by
  unfold Obligations.CommitCommands
  intro h
  obtain ⟨request, closed, ready, calm, first⟩ := commitDue_request
  obtain ⟨words, clean, live⟩ := commitDue_set
  obtain ⟨flipped, before⟩ := commitDue_flip
  obtain ⟨-, -, -, commits, -⟩ := h {} {} flipMeetsCommit _ default commitDue 7 _ Tests.req rfl
  have table : [(stagedTableWord, (0 : Word))].any (fun c => inr c.1 0x01000180 0x010001FF) = false := by decide
  have point := commits rfl rfl request closed ready rfl first calm clean [(stagedTableWord, 0)] _ _ words.symm (.inl table) rfl rfl
  obtain ⟨t, -, -, -, -, keeps, -⟩ := point
  have kept := keeps (List.pairwise_singleton _ _) (by rw [live]; exact List.pairwise_singleton _ _) 0x04000048
  rw [flipped, before] at kept
  exact absurd kept (by decide)

end Sys2Proof.Machine
end

section
/-! Calibration requests (15 R439-R442) -/
namespace Sys2Proof.Machine
open Sys2Proof

/-! ## The holds of the run slots -/

section
variable {v : State} {r : Fin 4} {un : Fin 101}

theorem run_modRun_same (f : CalRun → CalRun) : (v.modRun r f).run r = f (v.run r) :=
  vget_vmod_fin ..

theorem run_modRun_ne {k : Nat} (f : CalRun → CalRun) (other : k ≠ r.val) : (v.modRun r f).run k = v.run k :=
  vget_vmod_ne _ _ _ _ other.symm

theorem calHolds_slot (here : (v.run r).st ≠ .free ∧ un.val ∈ (v.run r).held)
    (before : ∀ k : Fin 4, k < r → (v.run k).st = .free ∨ un.val ∉ (v.run k).held) :
    vget v.calHolds.mgt.holds un = some (256 + r.val) := by
  have found : (List.range 4).find? (fun k => (v.run k).st != .free && (v.run k).held.contains un.val) = some r.val := by
    rw [List.find?_range_eq_some]
    refine ⟨by simpa using here, List.mem_range.mpr r.isLt, fun k hk => ?_⟩
    have := before ⟨k, by omega⟩ hk
    simpa [Classical.or_iff_not_imp_left] using this
  refine (vget_ofFn _ un).trans ?_
  simp only [found]

theorem calHolds_none (none_ : ∀ k : Fin 4, (v.run k).st = .free ∨ un.val ∉ (v.run k).held)
    (session : (vget v.mgt.holds un).all (· < 256) = true) : vget v.calHolds.mgt.holds un = vget v.mgt.holds un := by
  have found : (List.range 4).find? (fun k => (v.run k).st != .free && (v.run k).held.contains un.val) = none := by
    rw [List.find?_range_eq_none]
    intro k hk
    have := none_ ⟨k, hk⟩
    simpa [Classical.or_iff_not_imp_left] using this
  refine (vget_ofFn _ un).trans ?_
  simp only [found]
  exact if_pos session

end

/-! ## The answers of CAL -/

/-- The run slot of an accepted calibration (15 R440). -/
def State.acceptedRun (v : State) (n : Nat) (m : Msg) (proc : Nat) : CalRun :=
  { st := .running, proc := proc, target := m.b 1, target2 := m.b 2, session := n, save := (m.b 3).testBit 0,
    since := v.now, timeout := m.f 4 4, param := m.payload.drop 8, held := v.calUnits proc (m.b 1) (m.f 8 2) }

section
variable {v : State} {n proc : Nat} {m : Msg} {r : Fin 4}

theorem doCal_form (form : calForm m proc = false) : v.doCal n m proc = v.say 0x010C :=
  if_pos (by rw [form]; rfl)

variable (form : calForm m proc = true)
include form

theorem doCal_rights (rights : (calClaims proc (m.b 1) (m.b 2) (m.f 8 2)).all (v.holds n) = false) :
    v.doCal n m proc = v.say 0x0102 :=
  (if_neg (by rw [form]; decide)).trans (if_pos (by rw [rights]; rfl))

variable (rights : (calClaims proc (m.b 1) (m.b 2) (m.f 8 2)).all (v.holds n) = true)
include rights

theorem doCal_slots : v.doCal n m proc =
    match (List.range 4).find? (fun r => (v.run r).st == .free) with
    | none => v.say 0x0E01
    | some r =>
      if v.calTaken (calTargets proc (m.b 1) (m.b 2) (m.f 8 2)) || v.calRival n (calTargets proc (m.b 1) (m.b 2) (m.f 8 2)) then
        v.say 0x0E01
      else (if v.calPre proc (m.b 1) (v.calUnits proc (m.b 1) (m.f 8 2)) (m.f 8 2) = 0 then
          ((v.modRun r (fun _ => v.acceptedRun n m proc)).calHolds).calStart r
        else ((v.modRun r (fun _ => v.acceptedRun n m proc)).calHolds).calEndOpen r
          (v.calPre proc (m.b 1) (v.calUnits proc (m.b 1) (m.f 8 2)) (m.f 8 2)), some (0, toLE 4 r)) :=
  (if_neg (by rw [form]; decide)).trans ((if_neg (by rw [rights]; decide)).trans rfl)

omit rights form in
theorem doCal_answers (v : State) (n : Nat) (m : Msg) (proc : Nat) : ∃ x a, v.doCal n m proc = (x, some a) := by
  cases form : calForm m proc
  case false => exact ⟨_, _, doCal_form form⟩
  cases rights : (calClaims proc (m.b 1) (m.b 2) (m.f 8 2)).all (v.holds n)
  case false => exact ⟨_, _, doCal_rights form rights⟩
  rw [doCal_slots form rights]
  split
  · exact ⟨_, _, rfl⟩
  · split
    · exact ⟨_, _, rfl⟩
    · exact ⟨_, _, rfl⟩

theorem doCal_full (full : ∀ k : Fin 4, (v.run k).st ≠ .free) : v.doCal n m proc = v.say 0x0E01 := by
  have found : (List.range 4).find? (fun r => (v.run r).st == .free) = none := by
    rw [List.find?_range_eq_none]
    exact fun k hk => by simpa using full ⟨k, hk⟩
  rw [doCal_slots form rights, found]

variable (before : ∀ k : Fin 4, k < r → (v.run k).st ≠ .free) (free : (v.run r).st = .free)
include before free

theorem slot_found : (List.range 4).find? (fun r => (v.run r).st == .free) = some r.val := by
  rw [List.find?_range_eq_some]
  exact ⟨by simpa using free, List.mem_range.mpr r.isLt, fun k hk => by simpa using before ⟨k, by omega⟩ hk⟩

theorem doCal_taken (taken : v.calTaken (calTargets proc (m.b 1) (m.b 2) (m.f 8 2)) = true ∨
    v.calRival n (calTargets proc (m.b 1) (m.b 2) (m.f 8 2)) = true) : v.doCal n m proc = v.say 0x0E01 := by
  rw [doCal_slots form rights, slot_found form rights before free]
  exact if_pos (by simpa using taken)

variable (untaken : v.calTaken (calTargets proc (m.b 1) (m.b 2) (m.f 8 2)) = false)
  (alone : v.calRival n (calTargets proc (m.b 1) (m.b 2) (m.f 8 2)) = false)
include untaken alone

theorem doCal_accepted : v.doCal n m proc =
    (if v.calPre proc (m.b 1) (v.calUnits proc (m.b 1) (m.f 8 2)) (m.f 8 2) = 0 then
        ((v.modRun r (fun _ => v.acceptedRun n m proc)).calHolds).calStart r
      else ((v.modRun r (fun _ => v.acceptedRun n m proc)).calHolds).calEndOpen r
        (v.calPre proc (m.b 1) (v.calUnits proc (m.b 1) (m.f 8 2)) (m.f 8 2)), some (0, toLE 4 r)) := by
  rw [doCal_slots form rights, slot_found form rights before free]
  exact if_neg (by rw [untaken, alone]; decide)

end

/-! ## The seven commands -/

theorem exec_cal {e : Env} {m : Msg} {s : State} {c : Instr × Nat}
    (h : c ∈ [(Instr.calRestore e m, 0), (.calLane e m, 1), (.calAlign e m, 2), (.calDark e m, 3), (.calFlat e m, 4),
      (.calTemptrim e m, 5), (.calDramrt e m, 6)]) :
    exec c.1 s = .next ((s.arrive e).command 0x0403 m c.2 (fun s n => s.doCal n m c.2)) := by
  simp only [List.mem_cons, List.not_mem_nil, or_false] at h
  rcases h with rfl | rfl | rfl | rfl | rfl | rfl | rfl <;> rfl

/-- Settles O48: CAL asks for the form, the rights, a free slot and free targets in this order, and answers at once; the
slot's holds are recomputed from the run slots. -/
theorem calibrationsAreAccepted : Obligations.CalibrationsAreAccepted := by
  unfold Obligations.CalibrationsAreAccepted
  rintro e m s u v w n r held ts rfl
  refine ⟨fun z answers => ?_, fun c member pass => ?_⟩
  · have one {k : Nat} (pass : (s.arrive e).Passes 0x0403 k m n v) :
        (s.arrive e).command 0x0403 m k (fun s n => s.doCal n m k) = z k := by
      obtain ⟨x, a, eq⟩ := doCal_answers v n m k
      rw [answers k x a eq]
      exact State.command_answers pass eq
    exact ⟨fun p => congrArg Host.Outcome.next (one p), fun p => congrArg Host.Outcome.next (one p),
      fun p => congrArg Host.Outcome.next (one p), fun p => congrArg Host.Outcome.next (one p),
      fun p => congrArg Host.Outcome.next (one p), fun p => congrArg Host.Outcome.next (one p),
      fun p => congrArg Host.Outcome.next (one p)⟩
  · rw [exec_cal member]
    refine ⟨fun form => ?_, fun form rights => ?_, fun form rights => ⟨fun full => ?_, fun before free hts => ⟨fun taken => ?_,
      fun untaken alone hheld hw => ?_⟩⟩⟩
    · exact congrArg Host.Outcome.next (State.command_says pass (doCal_form form))
    · exact congrArg Host.Outcome.next (State.command_says pass (doCal_rights form rights))
    · exact congrArg Host.Outcome.next (State.command_says pass (doCal_full form rights full))
    · subst hts
      exact congrArg Host.Outcome.next (State.command_says pass (doCal_taken form rights before free taken))
    · subst hts hheld
      have hw' : w = (v.modRun r (fun _ => v.acceptedRun n m c.2)).calHolds := hw
      have accepted := doCal_accepted form rights before free untaken alone
      rw [← hw'] at accepted
      have slot : (v.modRun r (fun _ => v.acceptedRun n m c.2)).run r = v.acceptedRun n m c.2 := run_modRun_same _
      have others {k : Fin 4} (ne : k ≠ r) : (v.modRun r (fun _ => v.acceptedRun n m c.2)).run k = v.run k :=
        run_modRun_ne _ (fun h => ne (Fin.ext h))
      refine ⟨fun none_ => ?_, fun some_ => ?_, fun un inHeld first => ?_, fun un notHeld none_ session => ?_⟩
      · rw [if_pos none_] at accepted
        exact congrArg Host.Outcome.next (State.command_answers pass accepted)
      · rw [if_neg some_] at accepted
        exact congrArg Host.Outcome.next (State.command_answers pass accepted)
      · rw [hw']
        refine calHolds_slot ⟨by rw [slot]; exact CalSt.noConfusion, by rw [slot]; exact inHeld⟩ fun k before_ => ?_
        rw [others (Fin.ne_of_lt before_)]
        exact first k before_
      · rw [hw']
        refine calHolds_none (v := v.modRun r _) (fun k => ?_) session
        by_cases same : k = r
        · subst same
          rw [slot]
          exact .inr notHeld
        · rw [others same]
          exact none_ k

end Sys2Proof.Machine
end

section
/-! What calibrations begin with and measure (15 R441, R443, R444) -/
namespace Sys2Proof.Machine
open Sys2Proof

/-! ## A set made live -/

theorem SramOnly.each {α : Type} {f : State → α → State} (hf : ∀ u a, SramOnly u (f u a)) :
    ∀ (l : List α) (s : State), SramOnly s (s.each l f)
  | [], s => SramOnly.refl s
  | a :: l, s => (hf s a).trans (SramOnly.each hf l (f s a))

theorem State.setReg_gen (s : State) (a : Nat) (v : Word) : (s.setReg a v).mgt.gen = s.mgt.gen := rfl

theorem State.flipUse_gen (s : State) (a : Nat) : (s.flipUse a).mgt.gen = s.mgt.gen := by
  unfold State.flipUse
  dsimp only
  rw [(State.postAll_posts _ _).mgt]
  exact s.setReg_gen _ _

theorem State.flipSram_gen (s : State) (w n : Nat) : (s.flipSram w n).1.mgt.gen = s.mgt.gen := by
  unfold State.flipSram
  dsimp only
  generalize hb : (!s.flipArmed false || _) = b
  cases b
  · rw [if_neg (by decide)]
    have used := s.flipUse_gen (if s.flipFilter = true then s.flipAddr else w)
    split
    · exact used
    split
    · exact used
    split
    · exact used
    · exact used
  · rfl

theorem State.sramWrite_gen (s : State) (w n : Nat) : (s.sramWrite w n).1.mgt.gen = s.mgt.gen := s.flipSram_gen w n

theorem State.flipStaged_gen (s : State) (a : Nat) : (s.flipStaged a).mgt.gen = s.mgt.gen := by
  unfold State.flipStaged
  dsimp only
  split
  · rfl
  split
  · exact s.sramWrite_gen _ _
  · exact s.sramWrite_gen _ _

theorem State.flipStaged_sram (s : State) (a : Nat) : SramOnly s (s.flipStaged a) := by
  unfold State.flipStaged
  dsimp only
  split
  · exact .refl s
  split
  · exact s.sramWrite_sram _ _
  · exact (s.sramWrite_sram _ _).trans rfl

/-- The banks of the units change places (12 R374). -/
def State.banksChange (s : State) (units : List Nat) : State :=
  s.modMgt (fun m => { m with
    gen := m.gen + 1, cTick := s.ticks,
    unitGen := Vector.ofFn (fun u : Fin 101 => if units.contains u then m.gen + 1 else vget m.unitGen u),
    badTab := m.badTab.filter (fun b => !units.contains (unitAt b.1)),
    catchups := m.catchups ++ units.map (fun u => { unit := u, since := s.now }) })

/-- The words of the units are in force. -/
def State.wordsLive (s : State) (units : List Nat) (words : SMap Word) : State :=
  (s.banksChange units).each words (fun s x => s.setReg x.1 x.2)

/-- One word written into the staged bank. -/
def State.stagedWord (s : State) (x : Nat × Word) : State := s.flipStaged x.1

theorem State.goLive_eq (s : State) (units drop : List Nat) (words : SMap Word) : s.goLive units drop words =
    ((s.wordsLive units words).dropUnits drop).each words State.stagedWord := rfl

theorem State.stagedWord_gen (s : State) (x : Nat × Word) : (s.stagedWord x).mgt.gen = s.mgt.gen := s.flipStaged_gen x.1

theorem State.stagedWord_sram (s : State) (x : Nat × Word) : SramOnly s (s.stagedWord x) := s.flipStaged_sram x.1

theorem State.wordsLive_gen (s : State) (units : List Nat) (words : SMap Word) : (s.wordsLive units words).mgt.gen = s.mgt.gen + 1 :=
  State.each_field (g := fun t => t.mgt.gen) (f := fun s (x : Nat × Word) => s.setReg x.1 x.2) (fun t x => t.setReg_gen x.1 x.2) words _

theorem State.wordsLive_sram (s : State) (units : List Nat) (words : SMap Word) : SramOnly s (s.wordsLive units words) :=
  SramOnly.trans (t := s.banksChange units) rfl (.each (fun t x => t.setReg_sram x.1 x.2) words _)

theorem State.modMgt_gen {f : Mgt → Mgt} (s : State) (same : ∀ m, (f m).gen = m.gen) : (s.modMgt f).mgt.gen = s.mgt.gen := same s.mgt

theorem State.modMgt_sram (s : State) (f : Mgt → Mgt) : SramOnly s (s.modMgt f) := rfl

theorem State.dropUnits_gen (s : State) (units : List Nat) : (s.dropUnits units).mgt.gen = s.mgt.gen := by
  unfold State.dropUnits
  exact s.modMgt_gen fun _ => rfl

theorem State.dropUnits_sram (s : State) (units : List Nat) : SramOnly s (s.dropUnits units) := by
  unfold State.dropUnits
  exact s.modMgt_sram _

theorem State.stagedWords_gen (words : SMap Word) (s : State) : (s.each words State.stagedWord).mgt.gen = s.mgt.gen :=
  State.each_field (g := fun t => t.mgt.gen) (f := State.stagedWord) State.stagedWord_gen words s

theorem State.stagedWords_sram (words : SMap Word) (s : State) : SramOnly s (s.each words State.stagedWord) :=
  SramOnly.each (f := State.stagedWord) State.stagedWord_sram words s

theorem State.goLive_gen (s : State) (units drop : List Nat) (words : SMap Word) :
    (s.goLive units drop words).mgt.gen = s.mgt.gen + 1 := by
  rw [State.goLive_eq, State.stagedWords_gen, State.dropUnits_gen]
  exact s.wordsLive_gen units words

theorem State.goLive_sram (s : State) (units drop : List Nat) (words : SMap Word) : SramOnly s (s.goLive units drop words) := by
  rw [State.goLive_eq]
  exact ((s.wordsLive_sram units words).trans (State.dropUnits_sram _ drop)).trans (State.stagedWords_sram words _)

theorem State.relatch_cal (s : State) (c : Nat) : (s.relatch c).cal = s.cal := rfl

/-- No more than the cameras' latches follow from a word at or past the camera tables. -/
theorem State.commitHook_cal {a : Nat} (s : State) (old new : Word) (far : 0x06000000 ≤ a) : (s.commitHook a old new).cal = s.cal := by
  unfold State.commitHook inr ptpAddr feedCfgAddr
  simp only [show ¬ a ≤ 0x02800AFF by omega, show ¬ a ≤ 0x030002FF by omega, show a ≠ 0x03000008 by omega,
    show ¬ a ≤ 0x0340001F by omega, show ¬ a ≤ 0x0360011F by omega, show ¬ a ≤ 0x0360013F by omega, show ¬ a ≤ 0x0360015F by omega,
    show a ≠ 0x05000008 by omega, show a ≠ 0x05100008 by omega, decide_false, Bool.and_false, if_false, Bool.false_eq_true]
  exact State.each_field (g := State.cal) (f := State.relatch) (fun t c => t.relatch_cal c) _ s

theorem State.makeLive_corr_cal (s : State) (units : List Nat) (c : Nat) (v : Word) :
    (s.makeLive units [(corrAddr c, v)]).cal = s.cal :=
  (State.commitHook_cal _ _ _ (show 0x06000000 ≤ corrAddr c by unfold corrAddr; omega)).trans
    ((congrArg State.cal (s.goLive_sram units units [(corrAddr c, v)])).trans rfl)

/-! ## A lane calibration begins -/

theorem State.quitSwath_closed {s : State} (p : Nat) (closed : ∀ q : Fin 16, (vget s.seq q).swst ≠ .opened) :
    s.quitSwath p = s := by
  have nobody : those 16 (fun q => (vget s.seq q).swst == .opened && (vget s.seq q).live.contains p) = [] := by
    unfold those
    rw [List.filter_eq_nil_iff]
    intro q hq
    have := closed ⟨q, List.mem_range.mp hq⟩
    simp [this]
  rw [State.quitSwath_eq, nobody]
  rfl

theorem State.leaveReady_seq {s : State} (p : Nat) (st : KlSt) (closed : ∀ q : Fin 16, (vget s.seq q).swst ≠ .opened) :
    (s.leaveReady p st).seq = s.seq := by
  have lane : ∀ f g, (((s.laneDown p).modKl p f).modFp p g).seq = s.seq := fun f g => (s.laneDown_lane p).seq
  unfold State.leaveReady State.when
  dsimp only
  split
  · rw [State.quitSwath_closed p (by rw [lane]; exact closed)]
    exact lane _ _
  · exact lane _ _

theorem State.calBegin_seq {s : State} (p : Nat) (closed : ∀ q : Fin 16, (vget s.seq q).swst ≠ .opened) :
    (s.calBegin p).seq = s.seq := by
  have armed : ∀ (t : State) (v d i : Nat), (t.prbsArm p v d i).seq = t.seq := fun _ _ _ _ => rfl
  have dropped : ∀ (t : State) (f : KlPort → KlPort), ((t.sendFrame p (.ctl { op := .drop })).modKl p f).seq = t.seq := fun _ _ => rfl
  rw [State.calBegin_eq, armed, State.calOut, dropped]
  exact s.leaveReady_seq p .cal closed

/-! ## RESTORE -/

section
variable {u w : State} {r : Nat} {b : List Byte}

theorem State.calRestore_none (no : nvCal (u.run r).rid = false) : u.calRestore r = u.calEndOpen r 0x0E0E :=
  if_pos (by rw [no]; rfl)

variable (cal : nvCal (u.run r).rid = true)
include cal

theorem State.calRestore_absent (read : u.nvRead (u.run r).rid = (w, none)) : u.calRestore r = w.calEndOpen r 0x0E0E := by
  refine (if_neg (by rw [cal]; decide)).trans ?_
  rw [read]

variable (read : u.nvRead (u.run r).rid = (w, some b))
include read

theorem State.calRestore_other (other : w.sameIdent (u.run r).rid b = false) : u.calRestore r = w.calEndOpen r 0x0E09 := by
  refine (if_neg (by rw [cal]; decide)).trans ?_
  rw [read]
  exact if_pos (by rw [other]; rfl)

theorem State.calRestore_same (same : w.sameIdent (u.run r).rid b = true) (words : (u.run r).rid ≠ 0x1200) :
    u.calRestore r = (w.makeLive (w.run r).held (recordWords (u.run r).rid b)).calEndOpen r 0 := by
  refine (if_neg (by rw [cal]; decide)).trans ?_
  rw [read]
  refine (if_neg (by rw [same]; decide)).trans ?_
  exact congrArg (fun t : State => t.calEndOpen r 0) (if_neg words)

end

/-! ## The beginning of each procedure -/

section
variable {u : State} {r : Nat}

theorem State.calStart_restore (h : (u.run r).proc = 0) : u.calStart r = u.calRestore r := by
  simp only [State.calStart, h]
theorem State.calStart_lane (h : (u.run r).proc = 1) : u.calStart r = u.calBegin (u.run r).target := by
  simp only [State.calStart, h]
theorem State.calStart_align (h : (u.run r).proc = 2) : u.calStart r = u.modHlt (fun h => { h with
    al := some { cam := (u.run r).target2, seq := (u.run r).target, a := (u.run r).item 0 % 2048,
                 bg := (u.run r).item 1 % 65536, th := (u.run r).item 2 % 65536, at_ := u.now },
    alDone := false }) := by
  simp only [State.calStart, h]
theorem State.calStart_frames (h : (u.run r).proc = 3 ∨ (u.run r).proc = 4) : u.calStart r =
    u.modCam (u.run r).target (fun x => { x with frames := x.frames.map (fun f => { f with cal := false }) }) := by
  rcases h with h | h <;> simp only [State.calStart, h]
theorem State.calStart_trim (h : (u.run r).proc = 5) : u.calStart r = u := by
  simp only [State.calStart, h]
theorem State.calStart_dram (h : (u.run r).proc = 6) : u.calStart r =
    u.modCh (u.run r).target (fun c => { c with st := .retrain }) := by
  simp only [State.calStart, h]

/-! ## DARK and FLAT -/

theorem State.darkEnd_bright (over_ : leAt (u.run r).param 2 2 < (darkResult (u.run r).taken u.draw.2).1.foldl max 0) :
    u.darkEnd r = u.draw.1.calEnd r 0x0E08 ((darkResult (u.run r).taken u.draw.2).1.foldl max 0)
      (darkResult (u.run r).taken u.draw.2).2 := if_pos over_

variable (dark : (darkResult (u.run r).taken u.draw.2).1.foldl max 0 ≤ leAt (u.run r).param 2 2)
include dark

theorem State.darkEnd_spread (wide : 2048 < (darkResult (u.run r).taken u.draw.2).2) :
    u.darkEnd r = u.draw.1.calEnd r 0x0E09 ((darkResult (u.run r).taken u.draw.2).1.foldl max 0)
      (darkResult (u.run r).taken u.draw.2).2 :=
  (if_neg (Nat.not_lt.mpr dark)).trans (if_pos wide)

theorem State.darkEnd_live (narrow : (darkResult (u.run r).taken u.draw.2).2 ≤ 2048) (unsaved : (u.run r).save = false) :
    u.darkEnd r = (u.draw.1.makeLive (u.run r).held [(corrAddr (u.run r).target,
      fields ((darkResult (u.run r).taken u.draw.2).1.zipIdx.map (fun x => (16 * x.2, 16, x.1))))]).calEnd r 0
        ((darkResult (u.run r).taken u.draw.2).1.foldl max 0) (darkResult (u.run r).taken u.draw.2).2 := by
  refine ((if_neg (Nat.not_lt.mpr dark)).trans (if_neg (Nat.not_lt.mpr narrow))).trans ?_
  refine congrArg (fun t : State => t.calEnd r 0 _ _) (if_pos ?_)
  have kept : ((u.draw.1.calCommit r [(corrAddr (u.run r).target,
      fields ((darkResult (u.run r).taken u.draw.2).1.zipIdx.map (fun x => (16 * x.2, 16, x.1))))]).run r) = u.run r :=
    congrArg (fun c : CalSys => vget c.runs r) (State.makeLive_corr_cal _ _ _ _)
  rw [kept, unsaved]
  rfl

end

theorem State.flatEnd_saturated {u : State} {r : Nat}
    (full : (u.run r).taken.any (fun f => f.sumPx (fun x y => f.sample x y == 2 ^ f.dw - 1) (fun _ _ => 1) != 0) = true) :
    ∃ a b : Nat, u.flatEnd r = u.draw.1.calEnd r 0x0E08 a b := ⟨_, _, if_pos full⟩

/-- Settles O49: each procedure begins on its own resource alone, and the results of DARK and FLAT are decided in the order
of their limits. -/
theorem calibrationsBeginAndMeasure : Obligations.CalibrationsBeginAndMeasure := by
  unfold Obligations.CalibrationsBeginAndMeasure
  constructor
  · rintro u r c rfl
    refine ⟨fun lane => ⟨State.calStart_lane lane, fun port => ⟨?_, fun closed => u.calBegin_seq _ closed⟩⟩,
      fun align => ⟨_, rfl, ?_⟩, fun frames cam => ?_, State.calStart_trim, fun dram channel => ?_, fun restore => ?_⟩
    · obtain ⟨st, -⟩ := u.calBegin_kl ⟨_, port⟩
      exact st
    · rw [State.calStart_align align]
      exact ⟨rfl, rfl, rfl, rfl, rfl⟩
    · rw [State.calStart_frames frames]
      refine ⟨rfl, fun f hf => ?_⟩
      have here : vget (u.modCam (u.run r).target (fun x => { x with
          frames := x.frames.map (fun f => { f with cal := false }) })).cam (u.run r).target = _ :=
        vget_vmod_fin u.cam ⟨_, cam⟩ _
      rw [here] at hf
      obtain ⟨g, -, rfl⟩ := List.mem_map.mp hf
      rfl
    · rw [State.calStart_dram dram]
      refine ⟨congrArg Chan.st (vget_vmod_fin u.mem.ch ⟨_, channel⟩ _), fun k other => vget_vmod_ne _ _ _ _ other.symm⟩
    · rw [State.calStart_restore restore]
      exact ⟨State.calRestore_none, fun w b cal => ⟨State.calRestore_absent cal, State.calRestore_other cal,
        State.calRestore_same cal⟩⟩
  · rintro u w r c z q1 rfl rfl rfl rfl
    exact ⟨State.darkEnd_bright, State.darkEnd_spread, fun dark narrow unsaved _ => State.darkEnd_live dark narrow unsaved,
      State.flatEnd_saturated, fun words units => u.goLive_gen units [] words⟩

end Sys2Proof.Machine
end

section
/-! How calibrations end (15 R441-R447, R455; 07 R243) -/
namespace Sys2Proof.Machine
open Sys2Proof

/-! ## The end of a run slot -/

theorem State.modMgt_live {f : Mgt → Mgt} (s : State) (same : ∀ m, (f m).live = m.live) : (s.modMgt f).mgt.live = s.mgt.live :=
  same s.mgt

theorem State.calHolds_mem (s : State) : s.calHolds.mem = s.mem := by
  unfold State.calHolds
  exact s.modMgt_mem _

theorem State.calHolds_gen (s : State) : s.calHolds.mgt.gen = s.mgt.gen := by
  unfold State.calHolds
  exact s.modMgt_gen fun _ => rfl

theorem State.calHolds_live (s : State) : s.calHolds.mgt.live = s.mgt.live := by
  unfold State.calHolds
  exact s.modMgt_live fun _ => rfl

/-- A run slot that has ended, with its holds. -/
def State.slotEnds (s : State) (r code q1 q2 y0 : Nat) : State :=
  (s.modRun r (fun _ => { resCode := code, q1 := sat 16 q1, q2 := sat 16 q2, y0 := sat 16 y0 })).calHolds

theorem State.calEnd_posts (s : State) (r code q1 q2 y0 : Nat) : Posts (s.slotEnds r code q1 q2 y0) (s.calEnd r code q1 q2 y0) :=
  State.postTo_posts _ _ _

theorem State.calEnd_cal (s : State) (r code q1 q2 y0 : Nat) : (s.calEnd r code q1 q2 y0).cal =
    { s.cal with runs := vmod s.cal.runs r (fun _ =>
      { resCode := code, q1 := sat 16 q1, q2 := sat 16 q2, y0 := sat 16 y0 }) } :=
  (s.calEnd_posts r code q1 q2 y0).cal

theorem State.calEnd_run (s : State) (r : Fin 4) (code q1 q2 y0 : Nat) : (s.calEnd r code q1 q2 y0).run r =
    { resCode := code, q1 := sat 16 q1, q2 := sat 16 q2, y0 := sat 16 y0 } := by
  unfold State.run
  rw [State.calEnd_cal]
  exact vget_vmod_fin ..

theorem State.calEnd_others (s : State) {r : Fin 4} (code q1 q2 y0 : Nat) {k : Fin 4} (other : k ≠ r) :
    (s.calEnd r code q1 q2 y0).run k = s.run k := by
  unfold State.run
  rw [State.calEnd_cal]
  exact vget_vmod_ne _ _ _ _ (fun h => other (Fin.ext h.symm))

theorem State.calEnd_trim (s : State) (r code q1 q2 y0 : Nat) : (s.calEnd r code q1 q2 y0).cal.dtTrim = s.cal.dtTrim := by
  rw [State.calEnd_cal]

theorem State.calEnd_mem (s : State) (r code q1 q2 y0 : Nat) : (s.calEnd r code q1 q2 y0).mem = s.mem :=
  (s.calEnd_posts r code q1 q2 y0).mem.trans (State.calHolds_mem _)

theorem State.calEnd_gen (s : State) (r code q1 q2 y0 : Nat) : (s.calEnd r code q1 q2 y0).mgt.gen = s.mgt.gen :=
  (congrArg Mgt.gen (s.calEnd_posts r code q1 q2 y0).mgt).trans (State.calHolds_gen _)

theorem State.calEnd_live (s : State) (r code q1 q2 y0 : Nat) : (s.calEnd r code q1 q2 y0).mgt.live = s.mgt.live :=
  (congrArg Mgt.live (s.calEnd_posts r code q1 q2 y0).mgt).trans (State.calHolds_live _)

/-! ## CAL_DONE -/

section
variable {u : State} {r : Nat} {lanes : List (BitVec 256 × BitVec 256)}

theorem State.calDone_down (down : u.safe.mgmtDown.isSome = true) : u.calDone r lanes = u :=
  if_pos (by rw [down, Bool.or_true])

variable (up : u.safe.mgmtDown = none)
include up

theorem State.calDone_closing (st : (u.run r).st = .closing) (proc : (u.run r).proc ≠ 1) :
    u.calDone r lanes = (u.calReturn r).calEndOpen r (u.run r).cutCode := by
  refine (if_neg (by rw [up, st]; decide)).trans ((if_neg proc).trans (if_pos ?_))
  rw [st]
  rfl

variable (st : (u.run r).st = .running)
include st

theorem State.calDone_align (proc : (u.run r).proc = 2) (disarmed : u.hlt.al = none) (done : u.hlt.alDone = true) :
    u.calDone r lanes = u.alignEnd r := by
  simp [State.calDone, st, up, proc, disarmed, done]

theorem State.calDone_dark (proc : (u.run r).proc = 3) (frames : leAt (u.run r).param 0 1 ≤ (u.run r).frames.length) :
    u.calDone r lanes = u.darkEnd r := by
  simp [State.calDone, st, up, proc, frames]

theorem State.calDone_flat (proc : (u.run r).proc = 4) (frames : leAt (u.run r).param 0 1 ≤ (u.run r).frames.length) :
    u.calDone r lanes = u.flatEnd r := by
  simp [State.calDone, st, up, proc, frames]

theorem State.calDone_trim (proc : (u.run r).proc = 5) (due : u.due (u.run r).since (1000 * qMs) = true)
    (samples : (u.run r).tCnt ≠ 0) : u.calDone r lanes = u.trimEnd r := by
  simp [State.calDone, st, up, proc, due, samples]

theorem State.calDone_dram (proc : (u.run r).proc = 6) : u.calDone r lanes = u.retrainEnd r lanes := by
  simp [State.calDone, st, up, proc]

end

/-! ## A calibration that was cut gives its resource back -/

theorem State.calReturn_cases (u : State) (r : Nat) :
    (∃ f, u.calReturn r = u.modHlt f) ∨ (∃ f, u.calReturn r = u.modCh (u.run r).target f) ∨ u.calReturn r = u := by
  unfold State.calReturn
  dsimp only
  split
  · exact .inl ⟨_, rfl⟩
  · exact .inr (.inl ⟨_, rfl⟩)
  · exact .inr (.inr rfl)

theorem State.calReturn_kept (u : State) (r : Nat) : (u.calReturn r).cal = u.cal ∧ (u.calReturn r).mgt = u.mgt := by
  rcases u.calReturn_cases r with ⟨f, h⟩ | ⟨f, h⟩ | h <;> rw [h] <;> exact ⟨rfl, rfl⟩

theorem State.calReturn_dram {u : State} {r : Nat} (proc : (u.run r).proc = 6) : u.calReturn r =
    u.modCh (u.run r).target (fun c => { c with st := if c.st == .retrain then .trained else c.st }) := by
  simp only [State.calReturn, proc]

theorem State.calReturn_channel {u : State} {r : Nat} (proc : (u.run r).proc = 6) (channel : (u.run r).target < 4) :
    vget (u.calReturn r).mem.ch (u.run r).target = { vget u.mem.ch (u.run r).target with
      st := if (vget u.mem.ch (u.run r).target).st == .retrain then .trained else (vget u.mem.ch (u.run r).target).st } := by
  rw [State.calReturn_dram proc]
  exact vget_vmod_fin u.mem.ch ⟨_, channel⟩ _

/-! ## TEMPTRIM -/

/-- The sum of what the second's samples lie below the target. -/
def CalRun.trimSum (c : CalRun) : Int := signedN 16 (leAt c.param 0 2) * c.tCnt - c.tSum

/-- The spread of the second's samples. -/
def CalRun.trimSpread (c : CalRun) : Nat := (c.tHi - c.tLo).toNat

/-- The trim that TEMPTRIM measures in slot r. -/
def State.trimFound (u : State) (r : Nat) : Int :=
  (u.run r).trimSum / ((u.run r).tCnt : Int) +
    (if (u.run r).trimSum % ((u.run r).tCnt : Int) = 0 then 0 else b1 (bit u.draw.2 0))

theorem State.trimFound_rounds (u : State) (r : Nat) : u.trimFound r = (u.run r).trimSum / ((u.run r).tCnt : Int) ∨
    ((u.run r).trimSum % ((u.run r).tCnt : Int) ≠ 0 ∧ u.trimFound r = (u.run r).trimSum / ((u.run r).tCnt : Int) + 1) := by
  unfold State.trimFound
  split
  · exact .inl (Int.add_zero _)
  · next rest =>
    cases bit u.draw.2 0
    · exact .inl (Int.add_zero _)
    · exact .inr ⟨rest, rfl⟩

theorem State.nvWrite_kept (s : State) (rid : Nat) (payload : List Byte) (n : Option Nat) :
    (s.nvWrite rid payload n).1.cal.dtTrim = s.cal.dtTrim ∧ (s.nvWrite rid payload n).1.mgt = s.mgt := by
  unfold State.nvWrite
  dsimp only
  generalize hw : s.nvPutChecked rid _ _ payload = w
  have kept : w.1.cal = s.cal ∧ w.1.mgt = s.mgt := by
    rw [← hw]
    exact ⟨rfl, rfl⟩
  obtain ⟨cal, mgt⟩ := kept
  have trim : w.1.cal.dtTrim = s.cal.dtTrim := congrArg CalSys.dtTrim cal
  split
  · exact ⟨trim, mgt⟩
  · cases n with
    | some n => exact ⟨(congrArg CalSys.dtTrim (State.postTo_posts _ _ _).cal).trans trim, (State.postTo_posts _ _ _).mgt.trans mgt⟩
    | none => exact ⟨(congrArg CalSys.dtTrim (State.postAll_posts _ _).cal).trans trim, (State.postAll_posts _ _).mgt.trans mgt⟩

theorem State.calSave_kept (s : State) (r rid : Nat) (payload : List Byte) :
    (s.calSave r rid payload).cal.dtTrim = s.cal.dtTrim ∧ (s.calSave r rid payload).mgt = s.mgt := by
  unfold State.calSave
  dsimp only
  split
  · exact ⟨rfl, rfl⟩
  split
  · exact ⟨congrArg CalSys.dtTrim (State.postTo_posts _ _ _).cal, (State.postTo_posts _ _ _).mgt⟩
  · exact s.nvWrite_kept _ _ _

/-- The state with the measured trim in force. -/
def State.trimmed (u : State) (r : Nat) : State :=
  { u.draw.1.calCommit r [] with cal := { (u.draw.1.calCommit r []).cal with dtTrim := u.trimFound r } }

theorem State.calCommit_nil (s : State) (r : Nat) : s.calCommit r [] = s.goLive (s.run r).held (s.run r).held [] := rfl

theorem State.calCommit_nil_gen (s : State) (r : Nat) : (s.calCommit r []).mgt.gen = s.mgt.gen + 1 := by
  rw [State.calCommit_nil]
  exact s.goLive_gen _ _ []

theorem State.trimmed_gen (u : State) (r : Nat) : (u.trimmed r).mgt.gen = u.mgt.gen + 1 := by
  have same : (u.trimmed r).mgt = (u.draw.1.calCommit r []).mgt := rfl
  rw [same]
  exact u.draw.1.calCommit_nil_gen r

/-- The measured trim in force, saved where that is asked for. -/
def State.trimLive (u : State) (r : Nat) : State := (u.trimmed r).calSave r 0x1200 ((u.trimmed r).recordOf 0x1200 0)

theorem State.trimLive_kept (u : State) (r : Nat) : (u.trimLive r).cal.dtTrim = u.trimFound r ∧
    (u.trimLive r).mgt.gen = u.mgt.gen + 1 := by
  obtain ⟨trim, mgt⟩ := (u.trimmed r).calSave_kept r 0x1200 ((u.trimmed r).recordOf 0x1200 0)
  exact ⟨trim, (congrArg Mgt.gen mgt).trans (u.trimmed_gen r)⟩

section
variable {u : State} {r : Nat}

theorem State.trimEnd_spread (wide : 16 < (u.run r).trimSpread) :
    u.trimEnd r = u.draw.1.calEnd r 0x0E0B (cutN 16 (u.trimFound r)) (u.run r).trimSpread := if_pos wide

variable (narrow : (u.run r).trimSpread ≤ 16)
include narrow

theorem State.trimEnd_limits (far : u.trimFound r < -80 ∨ 80 < u.trimFound r) :
    u.trimEnd r = u.draw.1.calEnd r 0x0E09 (cutN 16 (u.trimFound r)) (u.run r).trimSpread :=
  (if_neg (Nat.not_lt.mpr narrow)).trans (if_pos (by
    rw [Bool.or_eq_true, decide_eq_true_eq, decide_eq_true_eq]
    exact far))

theorem State.trimEnd_live (low : -80 ≤ u.trimFound r) (high : u.trimFound r ≤ 80) :
    u.trimEnd r = (u.trimLive r).calEnd r 0 (cutN 16 (u.trimFound r)) (u.run r).trimSpread :=
  (if_neg (Nat.not_lt.mpr narrow)).trans (if_neg (by
    rw [Bool.or_eq_true, decide_eq_true_eq, decide_eq_true_eq]
    exact not_or.mpr ⟨Int.not_lt.mpr low, Int.not_lt.mpr high⟩))

end

theorem sat_cutN (x : Int) : sat 16 (cutN 16 x) = cutN 16 x := by
  refine if_pos ?_
  unfold cutN
  omega

end Sys2Proof.Machine
end

section
/-! DRAM retraining, lane calibrations, and how every procedure ends (13 R393; 15 R443, R444; 07 R242, R243) -/
namespace Sys2Proof.Machine
open Sys2Proof

/-! ## DRAMRT -/

section
variable (u : State) (r : Nat) (lanes : List (BitVec 256 × BitVec 256))

/-- The results of the ten lanes' sweeps. -/
def State.laneResults : List Word := (List.range 10).map (fun i => laneResult (u.rf chCfgAddr 30 24) (lanes.getD i (0, 0)))

/-- How far the centres have moved from those of the channel in slot r. -/
def State.centresMoved (l : List Word) : Nat :=
  (l.zipIdx.map (fun w => centreMove (vget (vget u.mem.ch (u.run r).target).trres w.2) w.1)).foldl max 0

/-- The smallest eye of the lanes. -/
def smallestEye (l : List Word) : Nat := (l.flatMap (fun w => [bits w 6 0, bits w 22 16])).foldl min 127

/-- The channel in service again, its retraining counted. -/
def State.retrained : State :=
  (u.calReturn r).modCh (u.run r).target (fun c => { c with retrains := (c.retrains + 1) % 2 ^ 32 })

/-- The channel with the new results in force. -/
def State.resultsLive (l : List Word) : State :=
  ((u.retrained r).calCommit r []).modCh (u.run r).target (fun c => { c with
    minEye := smallestEye l, trres := Vector.ofFn (fun i : Fin 10 => l.getD i 0) })

theorem State.retrainEnd_eq : u.retrainEnd r lanes =
    if !(u.laneResults lanes).all (fun w => bit w 32) then
      (u.retrained r).calEnd r 0x0E0A (smallestEye (u.laneResults lanes)) (u.centresMoved r (u.laneResults lanes))
    else if 16 < u.centresMoved r (u.laneResults lanes) then
      (u.retrained r).calEnd r 0x0E09 (smallestEye (u.laneResults lanes)) (u.centresMoved r (u.laneResults lanes))
    else (u.resultsLive r (u.laneResults lanes)).calEnd r 0 (smallestEye (u.laneResults lanes))
      (u.centresMoved r (u.laneResults lanes)) := rfl

/-- The code of a retraining with these results. -/
def State.retrainCode (l : List Word) : Nat :=
  if l.all (fun w => bit w 32) = false then 0x0E0A else if 16 < u.centresMoved r l then 0x0E09 else 0

end

theorem State.dropUnits_mem (s : State) (units : List Nat) : (s.dropUnits units).mem = s.mem := by
  unfold State.dropUnits
  exact s.modMgt_mem _

theorem State.banksChange_mem (s : State) (units : List Nat) : (s.banksChange units).mem = s.mem := by
  unfold State.banksChange
  exact s.modMgt_mem _

theorem State.goLive_nil (s : State) (units drop : List Nat) : s.goLive units drop [] = (s.banksChange units).dropUnits drop := rfl

theorem State.goLive_nil_mem (s : State) (units drop : List Nat) : (s.goLive units drop []).mem = s.mem := by
  rw [State.goLive_nil, State.dropUnits_mem, State.banksChange_mem]

section
variable {u : State} {r : Nat} (proc : (u.run r).proc = 6) (channel : (u.run r).target < 4)
include proc channel

theorem State.retrained_counts : (vget (u.retrained r).mem.ch (u.run r).target).retrains =
    ((vget u.mem.ch (u.run r).target).retrains + 1) % 2 ^ 32 := by
  have counted : vget (u.retrained r).mem.ch (u.run r).target = { vget (u.calReturn r).mem.ch (u.run r).target with
      retrains := ((vget (u.calReturn r).mem.ch (u.run r).target).retrains + 1) % 2 ^ 32 } :=
    vget_vmod_fin (u.calReturn r).mem.ch ⟨_, channel⟩ _
  rw [counted, State.calReturn_channel proc channel]

omit proc in
theorem State.resultsLive_channel (l : List Word) : vget (u.resultsLive r l).mem.ch (u.run r).target =
    { vget (u.retrained r).mem.ch (u.run r).target with
      minEye := smallestEye l, trres := Vector.ofFn (fun i : Fin 10 => l.getD i 0) } := by
  have live : vget (u.resultsLive r l).mem.ch (u.run r).target =
      { vget ((u.retrained r).calCommit r []).mem.ch (u.run r).target with
        minEye := smallestEye l, trres := Vector.ofFn (fun i : Fin 10 => l.getD i 0) } :=
    vget_vmod_fin ((u.retrained r).calCommit r []).mem.ch ⟨_, channel⟩ _
  rw [live, State.calCommit_nil, State.goLive_nil_mem]

end

/-- How a retraining ends: its code, the count, and the new results where it succeeds. -/
theorem State.retrainEnd_outcome {u : State} {r : Fin 4} (lanes : List (BitVec 256 × BitVec 256)) (proc : (u.run r).proc = 6)
    (channel : (u.run r).target < 4) :
    ((u.retrainEnd r lanes).run r).st = .free ∧
    (vget (u.retrainEnd r lanes).mem.ch (u.run r).target).retrains = ((vget u.mem.ch (u.run r).target).retrains + 1) % 2 ^ 32 ∧
    ((u.retrainEnd r lanes).run r).resCode = u.retrainCode r (u.laneResults lanes) ∧
    (((u.retrainEnd r lanes).run r).resCode = 0 → ∀ i : Fin 10,
      vget (vget (u.retrainEnd r lanes).mem.ch (u.run r).target).trres i = (u.laneResults lanes).getD i 0) := by
  have counts := State.retrained_counts proc channel
  rw [State.retrainEnd_eq, State.retrainCode]
  cases good : (u.laneResults lanes).all (fun w => bit w 32)
  case false =>
    rw [if_pos (c := (!false) = true) rfl, if_pos rfl, State.calEnd_run, State.calEnd_mem]
    exact ⟨rfl, counts, rfl, fun no => absurd (show (0x0E0A : Nat) = 0 from no) (by decide)⟩
  rw [if_neg (c := (!true) = true) (by decide), if_neg (c := true = false) (by decide)]
  by_cases far : 16 < u.centresMoved r (u.laneResults lanes)
  · rw [if_pos far, if_pos far, State.calEnd_run, State.calEnd_mem]
    exact ⟨rfl, counts, rfl, fun no => absurd (show (0x0E09 : Nat) = 0 from no) (by decide)⟩
  · rw [if_neg far, if_neg far, State.calEnd_run, State.calEnd_mem, State.resultsLive_channel channel]
    exact ⟨rfl, counts, rfl, fun _ i => vget_ofFn _ i⟩

/-! ## LANE_CAL_DONE -/

section
variable {u : State} {p : Fin 64}

theorem State.laneCalDone_idle (idle : (vget u.kl p).st ≠ .cal ∨ u.safe.mgmtDown.isSome = true) : u.laneCalDone p = u := by
  refine if_pos ?_
  rcases idle with idle | down
  · simp [idle]
  · simp [down]

variable (alone : ∀ k : Fin 4, (u.run k).st = .free ∨ (u.run k).proc ≠ 1 ∨ (u.run k).target ≠ p.val)
include alone

theorem no_lane_run :
    (List.range 4).find? (fun r => (u.run r).st != .free && (u.run r).proc == 1 && (u.run r).target == p.val) = none := by
  rw [List.find?_range_eq_none]
  intro k hk
  rcases alone ⟨k, hk⟩ with free | proc | target
  · simp [show (u.run k).st = .free from free]
  · simp [show (u.run k).proc ≠ 1 from proc]
  · simp [show (u.run k).target ≠ p.val from target]

theorem State.laneCalDone_early (early : u.due (vget u.kl p).since (175 * qUs) = false) : u.laneCalDone p = u := by
  unfold State.laneCalDone
  dsimp only
  rw [no_lane_run alone]
  exact if_pos (by simp [early])

variable (st : (vget u.kl p).st = .cal) (up : u.safe.mgmtDown = none) (due : u.due (vget u.kl p).since (175 * qUs) = true)
include st up due

theorem State.laneCalDone_chosen {x : Nat × Nat} (locked : (vget u.kl p).calLocked = true)
    (choice : (vget u.kl p).calChoice = some x) {w : State} (hw : w = (u.draw.1.goLive [p.val] [] [(txeqAddr p, fields [(0, 4, 2 * x.1), (8, 5, 8 + 4 * x.1)])]).laneReturn p) :
    u.laneCalDone p = w.postUnit p (w.ev 11 0 p (w.segOf p)
      (fields [(0, 32, sat 16 x.2), (32, 32, bits (vget u.kl p).eye 6 0)])) := by
  unfold State.laneCalDone
  dsimp only
  rw [no_lane_run alone, if_neg (by simp [st, up, due]), hw]
  simp only [locked, choice, Bool.false_or, Bool.not_true, Bool.false_eq_true, if_false, Option.isNone_some, calPreset]

theorem State.laneCalDone_unlocked (unlocked : (vget u.kl p).calLocked = false) : ∃ r : EvRec,
    u.laneCalDone p = (u.draw.1.laneReturn p).postUnit p r := by
  unfold State.laneCalDone
  dsimp only
  rw [no_lane_run alone, if_neg (by simp [st, up, due])]
  simp only [unlocked, Bool.false_or, Bool.not_false, if_true]
  exact ⟨_, rfl⟩

end

/-! ## A port goes on to its push -/

theorem State.sramUeHit_kept (s : State) (w k : Nat) : (s.sramUeHit w k).mgt = s.mgt ∧ (s.sramUeHit w k).seq = s.seq := by
  have posted := State.postAll_posts (s.modMem (fun m => { m with
    secUe := vmod m.secUe k (fun c => satAdd 16 c 1),
    serr := fields [(0, 24, w), (24, 7, 127), (31, 1, 1), (32, 3, k)] })) ((s.modMem (fun m => { m with
    secUe := vmod m.secUe k (fun c => satAdd 16 c 1),
    serr := fields [(0, 24, w), (24, 7, 127), (31, 1, 1), (32, 3, k)] })).ev 2 0x0B02 k none (wd w))
  exact ⟨posted.mgt, posted.seq⟩

theorem State.sliceEcc_kept (s : State) (p : Nat) (words : List Nat) :
    (s.sliceEcc p words).mgt = s.mgt ∧ (s.sliceEcc p words).seq = s.seq := by
  have hit : (s.each words (fun s w => s.sramUeHit w (sramPart w))).mgt = s.mgt ∧
      (s.each words (fun s w => s.sramUeHit w (sramPart w))).seq = s.seq :=
    ⟨State.each_field (g := State.mgt) (f := fun s w => s.sramUeHit w (sramPart w)) (fun t w => (t.sramUeHit_kept w _).1) words s,
     State.each_field (g := State.seq) (f := fun s w => s.sramUeHit w (sramPart w)) (fun t w => (t.sramUeHit_kept w _).2) words s⟩
  unfold State.sliceEcc State.when
  dsimp only
  split
  · exact ⟨rfl, rfl⟩
  split
  · exact ⟨(State.postUnit_posts _ _ _).mgt.trans hit.1, (State.postUnit_posts _ _ _).seq.trans hit.2⟩
  · exact hit

theorem State.startPush_kept (s : State) (p : Nat) (why : PushWhy) :
    (s.startPush p why).mgt = s.mgt ∧ (s.startPush p why).seq = s.seq := by
  unfold State.startPush
  dsimp only
  split
  · exact s.sliceEcc_kept p _
  · exact ⟨rfl, rfl⟩

theorem State.pushStart_cases (s : State) (p : Nat) : s.pushStart p = s ∨ ∃ why, s.pushStart p = s.startPush p why := by
  unfold State.pushStart
  dsimp only
  split
  · exact .inl rfl
  · next why _ =>
    generalize (_ && _ : Bool) = free
    cases free
    · exact .inl rfl
    · exact .inr ⟨why, rfl⟩

theorem State.laneReturn_kept (s : State) (p : Nat) : (s.laneReturn p).mgt = s.mgt ∧ (s.laneReturn p).seq = s.seq := by
  unfold State.laneReturn
  rcases (s.modKl p (fun k => { k with st := .push, since := s.now })).pushStart_cases p with none_ | ⟨why, starts⟩
  · rw [none_]
    exact ⟨rfl, rfl⟩
  · rw [starts]
    exact State.startPush_kept _ p why

/-! ## ABORT and the timeout -/

theorem doCalAbort_aborts {v : State} {m : Msg} {r : Fin 4} (target : m.b 1 = r.val) (unused : zeroAt m.payload 8 63 = true) :
    v.doCalAbort m = ((if ((v.resultFirst r).run r).st = .free then v.resultFirst r
      else (v.resultFirst r).modRun r (fun z => { z with st := .closing, aborted := true })), some (0, toLE 4 r)) := by
  have form : calForm m 0xFF = true := by
    have small : m.b 1 < 4 := by omega
    simp [calForm, small, unused]
  refine (if_neg (by rw [form]; decide)).trans ?_
  rw [target]
  simp only [beq_iff_eq]

section
variable {u y : State} {r : Nat} (first : y = u.resultFirst r)
include first

theorem State.calTimeout_cuts (st : (y.run r).st = .running) (due : y.due (y.run r).since ((y.run r).timeout * qMs) = true) :
    u.calTimeout r = y.modRun r (fun z => { z with st := .closing, timedOut := true }) := by
  simp only [State.calTimeout, ← first, st, due, beq_self_eq_true, Bool.and_self, if_true]

theorem State.calTimeout_waits (other : (y.run r).st ≠ .running ∨
    y.due (y.run r).since ((y.run r).timeout * qMs) = false) : u.calTimeout r = y := by
  rcases other with other | early
  · simp [State.calTimeout, ← first, other]
  · simp [State.calTimeout, ← first, early]

end

/-! ## The outcomes of TEMPTRIM and of a calibration that was cut -/

section
variable {u : State} {r : Fin 4} (lanes : List (BitVec 256 × BitVec 256)) (up : u.safe.mgmtDown = none)
include up

theorem State.calDone_cut (st : (u.run r).st = .closing) (proc : (u.run r).proc ≠ 1) :
    ((u.calDone r lanes).run r).st = .free ∧ ((u.calDone r lanes).run r).resCode = (u.run r).cutCode ∧
    (u.calDone r lanes).mgt.gen = u.mgt.gen ∧ (u.calDone r lanes).mgt.live = u.mgt.live ∧
    ((u.run r).proc = 6 → (u.run r).target < 4 → (vget (u.calDone r lanes).mem.ch (u.run r).target).st ≠ .retrain) ∧
    ∀ k : Fin 4, k ≠ r → (u.calDone r lanes).run k = u.run k := by
  obtain ⟨cal, mgt⟩ := u.calReturn_kept r
  rw [State.calDone_closing up st proc]
  unfold State.calEndOpen
  dsimp only
  rw [State.calEnd_run, State.calEnd_mem, State.calEnd_gen, State.calEnd_live]
  refine ⟨rfl, rfl, congrArg Mgt.gen mgt, congrArg Mgt.live mgt, fun dram channel => ?_, fun k other => ?_⟩
  · have drawn : (u.calReturn r).draw.1.mem = (u.calReturn r).mem := rfl
    rw [drawn, State.calReturn_channel dram channel]
    dsimp only
    split
    · exact ChSt.noConfusion
    · next no => simpa using no
  · rw [State.calEnd_others _ _ _ _ _ other]
    exact congrArg (fun c : CalSys => vget c.runs k) cal

variable (st : (u.run r).st = .running) (proc : (u.run r).proc = 5) (due : u.due (u.run r).since (1000 * qMs) = true)
  (samples : (u.run r).tCnt ≠ 0)
include st proc due samples

theorem State.calDone_trims : ((u.calDone r lanes).run r).st = .free ∧
    ((u.calDone r lanes).run r).q1 = cutN 16 (u.trimFound r) ∧ ((u.calDone r lanes).run r).q2 = sat 16 (u.run r).trimSpread ∧
    (16 < (u.run r).trimSpread → ((u.calDone r lanes).run r).resCode = 0x0E0B ∧
      (u.calDone r lanes).cal.dtTrim = u.cal.dtTrim ∧ (u.calDone r lanes).mgt.gen = u.mgt.gen) ∧
    ((u.run r).trimSpread ≤ 16 → u.trimFound r < -80 ∨ 80 < u.trimFound r → ((u.calDone r lanes).run r).resCode = 0x0E09 ∧
      (u.calDone r lanes).cal.dtTrim = u.cal.dtTrim) ∧
    ((u.run r).trimSpread ≤ 16 → -80 ≤ u.trimFound r → u.trimFound r ≤ 80 → ((u.calDone r lanes).run r).resCode = 0 ∧
      (u.calDone r lanes).cal.dtTrim = u.trimFound r ∧ (u.calDone r lanes).mgt.gen = u.mgt.gen + 1) := by
  rw [State.calDone_trim up st proc due samples]
  rcases Nat.lt_or_ge 16 (u.run r).trimSpread with wide | narrow
  · rw [State.trimEnd_spread wide, State.calEnd_run, State.calEnd_trim, State.calEnd_gen]
    exact ⟨rfl, sat_cutN _, rfl, fun _ => ⟨rfl, rfl, rfl⟩, fun no => absurd wide (Nat.not_lt.mpr no),
      fun no => absurd wide (Nat.not_lt.mpr no)⟩
  by_cases far : u.trimFound r < -80 ∨ 80 < u.trimFound r
  · rw [State.trimEnd_limits narrow far, State.calEnd_run, State.calEnd_trim]
    exact ⟨rfl, sat_cutN _, rfl, fun no => absurd no (Nat.not_lt.mpr narrow), fun _ _ => ⟨rfl, rfl⟩,
      fun _ low high => absurd far (by omega)⟩
  · have inside : -80 ≤ u.trimFound r ∧ u.trimFound r ≤ 80 := by omega
    obtain ⟨low, high⟩ := inside
    obtain ⟨trim, gen⟩ := u.trimLive_kept r
    rw [State.trimEnd_live narrow low high, State.calEnd_run, State.calEnd_trim, State.calEnd_gen]
    exact ⟨rfl, sat_cutN _, rfl, fun no => absurd no (Nat.not_lt.mpr narrow), fun _ no => absurd no far,
      fun _ _ _ => ⟨rfl, trim, gen⟩⟩

end

/-- Settles O50: the end of each procedure is the end of its run slot, with the code that its measurement gives; a port whose
lanes have a best preset goes on to its push with that preset in force. -/
theorem calibrationsEnd : Obligations.CalibrationsEnd := by
  unfold Obligations.CalibrationsEnd
  rintro e m s u v y n r c hu rfl
  refine ⟨fun pass target unused hy => ?_, fun hy => ⟨fun st due => ?_, fun other => ?_⟩, fun lanes => ⟨fun down => ?_,
    fun up => ⟨fun st proc => ?_, fun st proc due samples num spread hnum hspread => ?_, fun st proc disarmed done => ?_,
      fun st proc frames => ?_, fun st proc frames => ?_, fun st proc channel l hl => ?_⟩⟩,
    fun p => ⟨fun idle => ?_, fun alone => ⟨fun early => ?_, fun st up due => ⟨fun x locked choice w hw => ?_, fun unlocked => ?_⟩⟩⟩⟩
  · subst hy
    have answered := State.command_answers (act := fun s _ => s.doCalAbort m) pass (doCalAbort_aborts target unused)
    rw [exec_calAbort, execCalAbort, ← hu]
    exact congrArg Host.Outcome.next answered
  · rw [exec_calTimeout, execCalTimeout, ← hu, State.calTimeout_cuts hy st due]
  · rw [exec_calTimeout, execCalTimeout, ← hu, State.calTimeout_waits hy other]
  · rw [exec_calDone, execCalDone, ← hu, State.calDone_down down]
  · rw [exec_calDone, execCalDone, ← hu]
    exact ⟨_, rfl, State.calDone_cut lanes up st proc⟩
  · subst hnum hspread
    rw [exec_calDone, execCalDone, ← hu]
    exact ⟨u.trimFound r, _, u.trimFound_rounds r, rfl, State.calDone_trims lanes up st proc due samples⟩
  · rw [exec_calDone, execCalDone, ← hu, State.calDone_align up st proc disarmed done]
  · rw [exec_calDone, execCalDone, ← hu, State.calDone_dark up st proc frames]
  · rw [exec_calDone, execCalDone, ← hu, State.calDone_flat up st proc frames]
  · subst hl
    rw [exec_calDone, execCalDone, ← hu, State.calDone_dram up st proc]
    exact ⟨_, rfl, State.retrainEnd_outcome lanes proc channel⟩
  · rw [exec_laneCalDone, execLaneCalDone, ← hu, State.laneCalDone_idle idle]
  · rw [exec_laneCalDone, execLaneCalDone, ← hu, State.laneCalDone_early alone early]
  · rw [exec_laneCalDone, execLaneCalDone, ← hu, State.laneCalDone_chosen alone st up due locked choice hw]
  · obtain ⟨rec, ends⟩ := State.laneCalDone_unlocked alone st up due unlocked
    obtain ⟨mgt, seq⟩ := u.draw.1.laneReturn_kept p
    rw [exec_laneCalDone, execLaneCalDone, ← hu, ends]
    exact ⟨_, rfl, (State.postUnit_posts _ _ _).mgt.trans mgt, (State.postUnit_posts _ _ _).seq.trans seq⟩

end Sys2Proof.Machine
end

section
/-! Event queues and interrupt vectors (11 R332-R336; 13 R400; 17 R486-R489; 18 R518, R519) -/
namespace Sys2Proof.Machine
open Sys2Proof

/-! ## The count of records with an uncorrectable word -/

@[simp] theorem EvQueue.settle_ue (q : EvQueue) : q.settle.ue = q.ue := by
  unfold EvQueue.settle
  split
  · split <;> rfl
  · rfl

@[simp] theorem EvQueue.push_ue (q : EvQueue) (r : EvRec) : (q.push r).ue = q.ue := by
  unfold EvQueue.push
  dsimp only
  split
  · exact q.settle_ue
  · exact q.settle_ue

@[simp] theorem EvQueue.moveRd_ue (q : EvQueue) (i : Nat) : (q.moveRd i).ue = q.ue := by
  unfold EvQueue.moveRd
  dsimp only
  split
  · rfl
  · exact EvQueue.settle_ue _

theorem State.setEvq_others (s : State) {k n : Nat} (other : k ≠ n) (q : EvQueue) : (s.setEvq n q).ses k = s.ses k := by
  have ses : (s.setEvq n q).ses k = (s.modSess n (fun x => { x with evq := q })).ses k := by
    rw [State.ses, State.ses, State.setEvq_sess, State.modSess_sess]
  rw [ses, State.modSess_ses_ne s other]

/-- How many records of session n's queue were read with an uncorrectable word. -/
def State.evUe (s : State) (n : Nat) : Nat := (s.ses n).evq.ue

section
variable (s : State) (n : Fin 256)

theorem State.setEvq_evUe (k : Nat) (q : EvQueue) (same : q.ue = s.evUe k) : (s.setEvq k q).evUe n = s.evUe n := by
  unfold State.evUe
  by_cases e : n.val = k
  · subst e
    rw [State.setEvq_ses s n.isLt]
    exact same
  · rw [State.setEvq_others s e]

theorem State.rdFirst_evUe (k : Nat) : (s.rdFirst k).evUe n = s.evUe n := by
  refine State.each_field (g := fun u => u.evUe n) (fun u c => ?_) _ s
  split
  · split
    · exact u.setEvq_evUe n _ _ (EvQueue.moveRd_ue _ _)
    · rfl
  · split
    · split
      · exact u.setEvq_evUe n _ _ (EvQueue.moveRd_ue _ _)
      · rfl
    · rfl
  · rfl

theorem State.postTo_evUe (k : Nat) (r : EvRec) : (s.postTo k r).evUe n = s.evUe n := by
  unfold State.postTo State.when
  dsimp only
  split
  · rw [State.setEvq_evUe _ n _ _ (EvQueue.push_ue _ _)]
    split
    · exact s.rdFirst_evUe n k
    · rfl
  · rfl

theorem State.postAll_evUe (r : EvRec) : (s.postAll r).evUe n = s.evUe n :=
  State.each_field (g := fun u => u.evUe n) (f := fun s k => s.postTo k r) (fun u k => u.postTo_evUe n k r) _ s

theorem State.retirePage_evUe (pg : Nat) : (s.retirePage pg).evUe n = s.evUe n := by
  unfold State.retirePage
  dsimp only
  split
  · rfl
  · exact State.postAll_evUe _ n _

theorem State.dramUeHit_evUe (a : Nat) (patrol : Bool) : (s.dramUeHit a patrol none).evUe n = s.evUe n := by
  unfold State.dramUeHit
  dsimp only
  have posted (u : State) (r : EvRec) : (u.postMem none r).evUe n = u.evUe n := u.postAll_evUe n r
  split
  · exact posted _ _
  split
  · exact (State.retirePage_evUe _ n _).trans (posted _ _)
  · exact posted _ _

theorem State.dramCeHit_evUe (a : Nat) (patrol : Bool) : (s.dramCeHit a patrol).evUe n = s.evUe n := by
  unfold State.dramCeHit State.when
  dsimp only
  split
  · exact State.postAll_evUe _ n _
  · rfl

theorem State.dramCeHit_dramUe (a : Nat) (patrol : Bool) : (s.dramCeHit a patrol).dramUe = s.dramUe := by
  unfold State.dramCeHit State.when
  dsimp only
  split
  · exact (State.postAll_posts _ _).dramUe
  · rfl

/-- The channels that a transfer wakes. -/
theorem State.dramTouch_mem (a k : Nat) : s.dramTouch a k = { s with mem := (s.dramTouch a k).mem } := by
  have step : ∀ (l : List Nat) (u : State), u.each l (fun v ch => v.modCh ch (fun c => { c with
      pd := c.pd &&& (3 - 2 ^ s.dramRank a), lastReq := vset c.lastReq (s.dramRank a) v.now })) =
    { u with mem := (u.each l (fun v ch => v.modCh ch (fun c => { c with
      pd := c.pd &&& (3 - 2 ^ s.dramRank a), lastReq := vset c.lastReq (s.dramRank a) v.now }))).mem } := by
    intro l
    induction l with
    | nil => exact fun _ => rfl
    | cons ch l ih => exact fun u => (ih (u.modCh ch _)).trans rfl
  exact step _ s

/-- A read that meets an uncorrectable word. -/
theorem State.dramRead_bad {a len : Nat} (bad : wordsIn s.dramUe a len ≠ []) :
    (s.dramRead a len none).2 = none ∧ (s.dramRead a len none).1.evUe n = s.evUe n := by
  have sess : (s.dramTouch a len).sess = s.sess := (congrArg State.sess (s.dramTouch_mem a len)).trans rfl
  have words : (s.dramTouch a len).dramUe = s.dramUe := (congrArg State.dramUe (s.dramTouch_mem a len)).trans rfl
  have counted : ((s.dramTouch a len).each (wordsIn (s.dramTouch a len).dramCe a len)
      (fun s w => s.dramCeHit (4 * w) false)).evUe n = s.evUe n :=
    (State.each_field (g := fun u => u.evUe n) (f := fun s w => s.dramCeHit (4 * w) false)
      (fun u w => u.dramCeHit_evUe n _ _) _ _).trans (congrArg (fun x => (vget x n.val : Sess).evq.ue) sess)
  have ue : ((s.dramTouch a len).each (wordsIn (s.dramTouch a len).dramCe a len)
      (fun s w => s.dramCeHit (4 * w) false)).dramUe = s.dramUe :=
    (State.each_field (g := State.dramUe) (f := fun s w => s.dramCeHit (4 * w) false)
      (fun u w => u.dramCeHit_dramUe _ _) _ _).trans words
  unfold State.dramRead
  dsimp only
  rw [ue]
  split
  · next h => exact absurd h bad
  · exact ⟨rfl, (State.dramUeHit_evUe _ n _ _).trans counted⟩

/-- A read that meets no error. -/
theorem State.dramRead_good {a len : Nat} (ue : s.dramUe = []) (ce : s.dramCe = []) :
    (s.dramRead a len none).1 = s.dramTouch a len ∧ (s.dramRead a len none).2.isNone = false := by
  have touch := s.dramTouch_mem a len
  have words : (s.dramTouch a len).dramUe = [] := ((congrArg State.dramUe touch).trans rfl).trans ue
  have none_ : (s.dramTouch a len).dramCe = [] := ((congrArg State.dramCe touch).trans rfl).trans ce
  unfold State.dramRead
  dsimp only
  have empty : wordsIn [] a len = [] := rfl
  rw [none_, empty]
  have same : (s.dramTouch a len).each [] (fun s w => s.dramCeHit (4 * w) false) = s.dramTouch a len := rfl
  rw [same, words, empty]
  have corrected (v : State) (sound : v.dramUe = []) (clean : v.dramCe = []) :
      { v with dramUe := [], dramCe := v.dramCe.filter (fun w => !([] : List Nat).contains w) } = v := by
    have filtered : v.dramCe.filter (fun w => !([] : List Nat).contains w) = v.dramCe := by rw [clean]; rfl
    rw [filtered, ← sound]
  exact ⟨corrected _ words none_, rfl⟩

/-- A record with an uncorrectable word is read as a GAP and counted. -/
theorem State.evFetch_bad {j : Nat} (bad : wordsIn s.dramUe (evAddr n ((s.ses n).evq.rd + j)) 32 ≠ []) :
    (s.evFetch n j).2 = eccRec ∧ ((s.evFetch n j).1.ses n).evq.ue = satAdd 16 (s.ses n).evq.ue 1 := by
  obtain ⟨absent, ue⟩ := s.dramRead_bad n bad
  constructor
  · exact if_neg (by simpa using bad)
  · unfold State.evFetch
    dsimp only
    rw [State.modSess_ses_same, absent]
    exact congrArg (fun c => satAdd 16 c 1) ue

end

/-! ## Records sent -/

/-- From s to t records of session n's queue were read without an error. -/
structure RecordsRead (n : Fin 256) (s t : State) : Prop where
  only : t = { s with sess := t.sess, mem := t.mem }
  self : t.ses n = { s.ses n with evq := { (s.ses n).evq with ce := (t.ses n).evq.ce, ue := (t.ses n).evq.ue } }
  others : ∀ k : Fin 256, k ≠ n → t.ses k = s.ses k

namespace RecordsRead

theorem refl (n : Fin 256) (s : State) : RecordsRead n s s := ⟨rfl, rfl, fun _ _ => rfl⟩

theorem trans {n : Fin 256} {s t v : State} (h : RecordsRead n s t) (k : RecordsRead n t v) : RecordsRead n s v := by
  refine ⟨?_, ?_, fun i other => (k.others i other).trans (h.others i other)⟩
  · rw [k.only, h.only]
  · rw [k.self, h.self]

end RecordsRead

section
variable {u : State} {n : Fin 256} (ue : u.dramUe = []) (ce : u.dramCe = [])
include ue ce

theorem State.evFetch_good (j : Nat) : RecordsRead n u (u.evFetch n j).1 ∧ (u.evFetch n j).2 = (u.ses n).evq.held.getD j {} := by
  obtain ⟨touched, -⟩ := u.dramRead_good (a := evAddr n ((u.ses n).evq.rd + j)) (len := 32) ue ce
  have touch := u.dramTouch_mem (evAddr n ((u.ses n).evq.rd + j)) 32
  refine ⟨⟨?_, ?_, fun k other => ?_⟩, ?_⟩
  · unfold State.evFetch
    dsimp only
    rw [touched, touch]
    rfl
  · unfold State.evFetch
    dsimp only
    rw [State.modSess_ses_same, touched, touch]
    rfl
  · unfold State.evFetch
    dsimp only
    rw [State.modSess_ses_ne _ (fun e => other (Fin.ext e)), touched, touch]
    rfl
  · refine if_pos ?_
    rw [ue]
    rfl

/-- The first m records from the j-th. -/
theorem State.evFetch_many (j m : Nat) : ∃ t, RecordsRead n u t ∧
    (List.range m).foldl (fun (a : State × List EvRec) i => ((a.1.evFetch n (j + i)).1, a.2 ++ [(a.1.evFetch n (j + i)).2])) (u, []) =
      (t, (List.range m).map (fun i => (u.ses n).evq.held.getD (j + i) {})) := by
  induction m with
  | zero => exact ⟨u, .refl n u, rfl⟩
  | succ m ih =>
    obtain ⟨t, read, eq⟩ := ih
    have tue : t.dramUe = [] := ((congrArg State.dramUe read.only).trans rfl).trans ue
    have tce : t.dramCe = [] := ((congrArg State.dramCe read.only).trans rfl).trans ce
    obtain ⟨next_, rec⟩ := State.evFetch_good (n := n) tue tce (j + m)
    have held : (t.ses n).evq.held = (u.ses n).evq.held := by rw [read.self]
    refine ⟨_, read.trans next_, ?_⟩
    rw [List.range_succ, List.foldl_append, eq, List.map_append]
    simp only [List.foldl_cons, List.foldl_nil, rec, held, List.map_cons, List.map_nil]

end

theorem taken_records (l : List EvRec) {j k : Nat} (inside : j + k ≤ l.length) :
    (List.range k).map (fun i => l.getD (j + i) {}) = (l.drop j).take k := by
  refine List.ext_getElem (by simp; omega) fun i hi hj => ?_
  have small : i < k := by simpa using hi
  simp [List.getD_eq_getElem?_getD, List.getElem?_eq_getElem (show j + i < l.length by omega)]

section
variable {u : State} {n : Fin 256} (ue : u.dramUe = []) (ce : u.dramCe = []) (net : (u.ses n).net = true)
  (open_ : (u.ses n).st = .confirmed)
include ue ce net open_

/-- k records from the j-th held are sent. -/
theorem State.evSend_sent {j k m : Nat} (hk : k = min m ((u.ses n).evq.held.length - (u.ses n).evq.fresh - j)) (some_ : k ≠ 0) :
    u.Sent n j k (u.evSend n j m) := by
  obtain ⟨t, read, eq⟩ := State.evFetch_many (n := n) ue ce j k
  have sends : u.evSend n j m = (t.modSess n (fun x => { x with evq := { x.evq with
      sent := max x.evq.sent (j + k), sentAt := u.now } })).emit (.events n (((u.ses n).evq.rd + j) % 4096)
        ((List.range k).map (fun i => (u.ses n).evq.held.getD (j + i) {})) (eventsMsg (u.ses n) n (((u.ses n).evq.rd + j) % 4096)
          ((List.range k).map (fun i => (u.ses n).evq.held.getD (j + i) {})))) := by
    unfold State.evSend
    dsimp only
    rw [← hk, if_neg (by simp [net, open_, some_, State.isOpen]), eq]
  have inside : j + k ≤ (u.ses n).evq.held.length := by omega
  have out : t.out = u.out := (congrArg State.out read.only).trans rfl
  rw [sends, taken_records _ inside]
  have self : ∀ f : Sess → Sess, (t.modSess n f).ses n = f (t.ses n) := t.modSess_ses_same n
  have emitted (o : Out) (v : State) : (v.emit o).ses n = v.ses n := rfl
  refine ⟨congrArg (· ++ _) out, ?_, ?_, ?_, ?_, fun i other => ?_, (congrArg State.mgt read.only).trans rfl,
    (congrArg State.dram read.only).trans rfl⟩
  · rw [emitted, self, read.self]
  · rw [emitted, self]
  · rw [emitted, self, read.self]
  · rw [emitted, self, read.self]
  · exact (t.modSess_ses_ne (fun e => other (Fin.ext e)) _).trans (read.others i other)

end

/-! ## The read index -/

section
variable {u : State} {n : Fin 256} {i : Nat} (open_ : (u.ses n).st = .confirmed)
include open_

theorem State.evRead_beyond (beyond : (u.ses n).evq.held.length - (u.ses n).evq.fresh < (i + 4096 - (u.ses n).evq.rd) % 4096) :
    u.evRead n i = u := if_pos (by simp [State.isOpen, open_, beyond])

variable (inside : (i + 4096 - (u.ses n).evq.rd) % 4096 ≤ (u.ses n).evq.held.length - (u.ses n).evq.fresh)
include inside

theorem State.evRead_inside : u.evRead n i = (u.setEvq n ((u.ses n).evq.moveRd i)).when
    (!((u.ses n).evq.moveRd i).held.isEmpty) (fun s => s.raiseSess n 1) :=
  if_neg (by simp [State.isOpen, open_, inside])

omit open_ in
theorem EvQueue.moveRd_inside (whole : (u.ses n).evq.loss = none) : (u.ses n).evq.moveRd i = { (u.ses n).evq with
    rd := i, held := (u.ses n).evq.held.drop ((i + 4096 - (u.ses n).evq.rd) % 4096),
    sent := (u.ses n).evq.sent - (i + 4096 - (u.ses n).evq.rd) % 4096 } := by
  unfold EvQueue.moveRd
  dsimp only
  rw [if_neg (Nat.not_lt.mpr inside)]
  unfold EvQueue.settle
  dsimp only
  rw [whole]

theorem State.evRead_posts : Posts u (u.evRead n i) := by
  rw [State.evRead_inside open_ inside]
  exact Posts.when (u.setEvq_posts _ _) fun v => v.raiseSess_posts n 1

theorem State.evRead_sess : (u.evRead n i).sess = (u.modSess n (fun x => { x with evq := (u.ses n).evq.moveRd i })).sess := by
  rw [State.evRead_inside open_ inside, State.when_sess (fun v => v.raiseSess_sess n 1), State.setEvq_sess, State.modSess_sess]

/-- An Ifeud session has no vectors. -/
theorem State.evRead_net (net : (u.ses n).net = true) (whole : (u.ses n).evq.loss = none) :
    u.evRead n i = u.modSess n (fun x => { x with evq := (u.ses n).evq.moveRd i }) := by
  have quiet (v : State) (k : Nat) (same : (v.ses n).net = true) : v.raiseSess n k = v := if_pos same
  have moved : ((u.modSess n (fun x => { x with evq := (u.ses n).evq.moveRd i })).ses n).net = true := by
    rw [State.modSess_ses_same]
    exact net
  have unraised (b : Bool) (k : Nat) (v : State) (same : (v.ses n).net = true) : v.when b (fun s => s.raiseSess n k) = v := by
    cases b
    · rfl
    · exact quiet v k same
  have written : u.setEvq n ((u.ses n).evq.moveRd i) = u.modSess n (fun x => { x with evq := (u.ses n).evq.moveRd i }) := by
    unfold State.setEvq
    dsimp only
    rw [unraised _ 1 _ moved, unraised _ 3 _ moved]
  rw [State.evRead_inside open_ inside, written, unraised _ 1 _ moved]

end

/-! ## A queue that lost records -/

section
variable {u : State} {n : Fin 256} {l : Loss} (lost : (u.ses n).evq.loss = some l)
include lost

theorem EvQueue.settle_room (room : (u.ses n).evq.held.length + 2 ≤ 4095) : (u.ses n).evq.settle =
    { (u.ses n).evq with held := (u.ses n).evq.held ++ [gapRec l], fresh := (u.ses n).evq.fresh + 1, loss := none } := by
  unfold EvQueue.settle
  rw [lost]
  exact if_pos room

theorem EvQueue.settle_full (full : 4095 < (u.ses n).evq.held.length + 2) : (u.ses n).evq.settle = (u.ses n).evq := by
  unfold EvQueue.settle
  rw [lost]
  exact if_neg (Nat.not_le.mpr full)

end

/-! ## Interrupt vectors -/

/-- The record of a vector that is sent. -/
def Msix.shot (m : Msix) (f v : Nat) : Out :=
  .msix f v (SMap.get m.table ({} : Vec) v).addr (SMap.get m.table ({} : Vec) v).data

/-- The pending vectors whose masks are clear. -/
def Msix.ready (m : Msix) : List Nat := m.pending.filter (fun v => !(SMap.get m.table ({} : Vec) v).masked)

theorem State.emits (m : Msix) (f : Nat) : ∀ (l : List Nat) (s : State),
    s.each l (fun s v => s.emit (m.shot f v)) = { s with out := s.out ++ l.map (m.shot f) }
  | [], s => by simp [State.each]
  | v :: l, s => (State.emits m f l (s.emit (m.shot f v))).trans (by simp [State.emit])

/-- What a flush leaves, and what it sends. -/
theorem State.msixFlush_eq (s : State) (f : Nat) : s.msixFlush f =
    if !(vget s.msix f).enabled || (vget s.msix f).fmask then s
    else { s with
      msix := vset s.msix f { vget s.msix f with
        pending := (vget s.msix f).pending.filter (fun v => !(vget s.msix f).ready.contains v) },
      out := s.out ++ (vget s.msix f).ready.map ((vget s.msix f).shot f) } := by
  unfold State.msixFlush
  dsimp only
  split
  · rfl
  · exact State.emits (vget s.msix f) f (vget s.msix f).ready { s with
      msix := vset s.msix f { vget s.msix f with
        pending := (vget s.msix f).pending.filter (fun v => !(vget s.msix f).ready.contains v) } }

theorem State.msixFlush_kept (s : State) (f : Fin 4) : (s.msixFlush f).sess = s.sess ∧ (s.msixFlush f).mgt = s.mgt ∧
    (vget (s.msixFlush f).msix f).enabled = (vget s.msix f).enabled ∧
    (vget (s.msixFlush f).msix f).fmask = (vget s.msix f).fmask ∧
    (vget (s.msixFlush f).msix f).table = (vget s.msix f).table := by
  rw [State.msixFlush_eq]
  split
  · exact ⟨rfl, rfl, rfl, rfl, rfl⟩
  · refine ⟨rfl, rfl, ?_⟩
    dsimp only
    rw [vget_vset (h := f.isLt)]
    exact ⟨rfl, rfl, rfl⟩

/-- A pending vector that is not masked is sent. -/
theorem State.msixFlush_sends {s : State} {f : Fin 4} {v : Nat} (on : (vget s.msix f).enabled = true)
    (clear : (vget s.msix f).fmask = false) (pending : v ∈ (vget s.msix f).pending)
    (unmasked : (SMap.get (vget s.msix f).table ({} : Vec) v).masked = false) :
    v ∉ (vget (s.msixFlush f).msix f).pending ∧ (vget s.msix f).shot f v ∈ (s.msixFlush f).out := by
  have ready : v ∈ (vget s.msix f).ready := List.mem_filter.mpr ⟨pending, by simp [unmasked]⟩
  rw [State.msixFlush_eq, if_neg (by simp [on, clear])]
  dsimp only
  rw [vget_vset (h := f.isLt)]
  refine ⟨fun still => ?_, List.mem_append_right _ (List.mem_map_of_mem ready)⟩
  have gone := (List.mem_filter.mp still).2
  simp [ready] at gone

/-- A function with vector v unmasked. -/
def Msix.unmask (m : Msix) (v : Nat) : Msix :=
  { m with table := SMap.set m.table {} v { SMap.get m.table ({} : Vec) v with masked := false } }

theorem Msix.unmask_entry (m : Msix) (v : Nat) :
    SMap.get (m.unmask v).table ({} : Vec) v = { SMap.get m.table ({} : Vec) v with masked := false } := by
  have other : { SMap.get m.table ({} : Vec) v with masked := false } ≠ ({} : Vec) := 
    fun e => Bool.false_ne_true (congrArg Vec.masked e)
  unfold Msix.unmask SMap.set
  rw [if_neg other, SMap.get_put_same]

/-- Vector v of function f unmasked. -/
def State.vectorOn (u : State) (f v : Nat) : State := { u with msix := vmod u.msix f (fun m => m.unmask v) }

/-- Function f enabled, its mask clear. -/
def State.functionOn (u : State) (f : Nat) : State :=
  { u with msix := vmod u.msix f (fun m => { m with enabled := true, fmask := false }) }

/-- Settles O52: a read index is the queue moved, a fetch without an error leaves the records alone, and a flush sends every
pending vector that is not masked. -/
theorem eventQueues : Obligations.EventQueues := by
  unfold Obligations.EventQueues
  rintro e s u n x hu rfl
  refine ⟨fun busy => ?_, fun idle => ?_, fun i k hk open_ => ⟨fun pcie inside whole => ?_, fun pcie beyond => ?_,
    fun m q hm ready net path whole inside => ?_, fun m q a udp hm ready net path away => ?_⟩,
    fun net open_ ue ce => ⟨fun k hk some_ => ?_, fun k hk some_ due => ?_⟩, fun none_ => ?_, fun j bad => u.evFetch_bad n bad,
    fun l lost => ⟨fun room => ?_, fun full => ?_⟩, fun f v => ?_, fun f => ?_⟩
  · rw [exec_cmdOverrun, execCmdOverrun, ← hu, busy]
    rfl
  · rw [exec_cmdOverrun, execCmdOverrun, ← hu, idle]
    rfl
  · subst hk
    have posts := State.evRead_posts open_ inside
    have sess := State.evRead_sess open_ inside
    have self : ((u.evRead n i).ses n) = { u.ses n with evq := (u.ses n).evq.moveRd i } :=
      (congrArg (fun l => (vget l n.val : Sess)) sess).trans (u.modSess_ses_same n _)
    have reads : u.evrdWrite n i = u.evRead n i := if_neg (by simp [pcie])
    rw [exec_evrdWrite, execEvrdWrite, ← hu, reads]
    refine ⟨_, rfl, ?_, ?_, fun j other => ?_, posts.mgt, posts.dram⟩
    · rw [self, EvQueue.moveRd_inside inside whole]
    · rw [self, EvQueue.moveRd_inside inside whole]
    · exact (congrArg (fun l => (vget l j.val : Sess)) sess).trans (u.modSess_ses_ne (fun h => other (Fin.ext h)) _)
  · subst hk
    have reads : u.evrdWrite n i = u.evRead n i := if_neg (by simp [pcie])
    rw [exec_evrdWrite, execEvrdWrite, ← hu, reads, State.evRead_beyond open_ beyond]
  · subst hk
    have acks : u.evack m i = u.evRead n i := by
      simp [State.evack, path, ready, hm, net, open_, State.isOpen, Nat.not_le.2 n.isLt]
    rw [exec_evack, execEvack, ← hu, acks, State.evRead_net open_ inside net whole, EvQueue.moveRd_inside inside whole]
    exact congrArg Host.Outcome.next (u.modSess_congr n rfl)
  · have drops : u.evack m i = u.netDrop := by
      rcases away with away | away <;> simp [State.evack, path, ready, hm, net, open_, State.isOpen, away]
    rw [exec_evack, execEvack, ← hu, drops]
    rfl
  · rw [exec_eventsSend, execEventsSend, ← hu]
    exact ⟨_, rfl, State.evSend_sent ue ce net open_ hk some_⟩
  · have unacked : (u.ses n).evq.sent ≠ 0 := by omega
    have resends : u.eventsResend n = u.evSend n 0 (min (u.ses n).evq.sent (u.evMax n)) := if_neg (by simp [unacked, due])
    rw [exec_eventsResend, execEventsResend, ← hu, resends]
    exact ⟨_, rfl, State.evSend_sent ue ce net open_ hk some_⟩
  · have silent (j m : Nat) : u.evSend n j m = u := by
      refine if_pos ?_
      rcases none_ with free | pcie
      · simp [State.isOpen, free]
      · simp [pcie]
    rw [exec_eventsSend, execEventsSend, exec_eventsResend, execEventsResend, ← hu]
    refine ⟨congrArg Host.Outcome.next (silent _ _), congrArg Host.Outcome.next ?_⟩
    unfold State.eventsResend
    dsimp only
    split
    · rfl
    · exact silent _ _
  · rw [exec_evqGap, execEvqGap, ← hu]
    refine ⟨_, rfl, ?_⟩
    unfold State.evqGap
    rw [State.setEvq_ses u n.isLt, EvQueue.settle_room lost room]
    exact ⟨rfl, rfl, fun j other => u.setEvq_others (fun h => other (Fin.ext h)) _⟩
  · rw [exec_evqGap, execEvqGap, ← hu]
    refine ⟨_, rfl, ?_⟩
    unfold State.evqGap
    rw [State.setEvq_ses u n.isLt, EvQueue.settle_full lost full]
  · have unmasked : vget (u.vectorOn f v).msix f = (vget u.msix f).unmask v := vget_vmod_fin ..
    obtain ⟨sess, mgt, -, -, table⟩ := (u.vectorOn f v).msixFlush_kept f
    rw [exec_msixUnmask, execMsixUnmask, ← hu]
    refine ⟨(u.vectorOn f v).msixFlush f, rfl, ?_, fun pending on clear => ?_, sess, mgt⟩
    · rw [table, unmasked, Msix.unmask_entry]
    · have sends := State.msixFlush_sends (s := u.vectorOn f v) (f := f) (v := v) (by rw [unmasked]; exact on) (by rw [unmasked]; exact clear)
        (by rw [unmasked]; exact pending) (by rw [unmasked, Msix.unmask_entry])
      rwa [unmasked, Msix.shot, Msix.unmask_entry] at sends
  · have enabled : vget (u.functionOn f).msix f = { vget u.msix f with enabled := true, fmask := false } := vget_vmod_fin ..
    obtain ⟨sess, mgt, on, clear, table⟩ := (u.functionOn f).msixFlush_kept f
    rw [exec_msixUnmask, execMsixUnmask, ← hu]
    rw [enabled] at on clear table
    exact ⟨(u.functionOn f).msixFlush f, rfl, on, clear, table, sess, mgt⟩

end Sys2Proof.Machine
end

section
/-! DRAM in service (13 R392, R397-R401) -/
namespace Sys2Proof.Machine
open Sys2Proof

/-! ## Refresh, temperature and power-down -/

section
variable {u : State} {ch : Fin 4}

/-- A channel refreshed: its ranks are awake. -/
def Chan.refreshed (c : Chan) (now : Nat) : Chan :=
  { c with lastRef := now, postponed := 0, pd := 0, lastReq := Vector.replicate 2 now }

variable (st : (vget u.mem.ch ch).st = .trained)
include st

section
variable (due : u.due (vget u.mem.ch ch).lastRef (if (vget u.mem.ch ch).hotRef = true then 9750 else 19500) = true)
include due

theorem State.refresh_due (busy : Bool) : u.refresh ch busy =
    if (busy || u.pws.gap.isSome) && (vget u.mem.ch ch).postponed < u.rf chCfgAddr 12 10 then
      u.modCh ch (fun c => { c with lastRef := u.now, postponed := c.postponed + 1 })
    else u.modCh ch (fun c => c.refreshed u.now) := by
  have runs : (vget u.mem.ch ch).runs = true := by simp [Chan.runs, st]
  have interval : u.due (vget u.mem.ch ch).lastRef (vget u.mem.ch ch).interval = true := due
  exact if_neg (by rw [runs, interval]; decide)

theorem State.refresh_postponed (room : (vget u.mem.ch ch).postponed < u.rf chCfgAddr 12 10) :
    u.refresh ch true = u.modCh ch (fun c => { c with lastRef := u.now, postponed := c.postponed + 1 }) := by
  rw [State.refresh_due st due]
  exact if_pos (by simpa using room)

theorem State.refresh_idle (gap : u.pws.gap = none) : u.refresh ch false = u.modCh ch (fun c => c.refreshed u.now) := by
  rw [State.refresh_due st due]
  exact if_neg (by simp [gap])

theorem State.refresh_forced (full : u.rf chCfgAddr 12 10 ≤ (vget u.mem.ch ch).postponed) (busy : Bool) :
    u.refresh ch busy = u.modCh ch (fun c => c.refreshed u.now) := by
  rw [State.refresh_due st due]
  refine if_neg ?_
  rw [Bool.and_eq_true, decide_eq_true_eq]
  exact fun both => absurd both.2 (Nat.not_lt.mpr full)

end

theorem State.powerDown_idle {r : Fin 2} (rank : r.val ≤ u.mem.ranks) (on : u.rf chCfgAddr 9 0 ≠ 0)
    (due : u.due (vget (vget u.mem.ch ch).lastReq r) (50 * u.rf chCfgAddr 9 0) = true) :
    u.powerDown ch r = u.modCh ch (fun c => { c with pd := c.pd ||| 2 ^ r.val }) := by
  refine if_pos ?_
  simp [Chan.runs, st, rank, on, due]

end

/-! ## Corrected errors -/

theorem satAdd_min (n x k : Nat) : satAdd n x k = min (x + k) (2 ^ n - 1) := by
  have room := Nat.two_pow_pos n
  unfold satAdd sat
  split
  · next fits => exact (Nat.min_eq_left (by omega)).symm
  · next beyond => exact (Nat.min_eq_right (by omega)).symm

theorem satAdd_satAdd (n x j k : Nat) : satAdd n (satAdd n x j) k = satAdd n x (j + k) := by
  have room := Nat.two_pow_pos n
  rw [satAdd_min, satAdd_min, satAdd_min]
  omega

theorem satAdd_zero {n x : Nat} (h : x < 2 ^ n) : satAdd n x 0 = x := if_pos h

theorem satAdd_lt (n x k : Nat) : satAdd n x k < 2 ^ n := by
  have room := Nat.two_pow_pos n
  rw [satAdd_min]
  omega

/-- What a change of channels leaves of each. -/
theorem State.modCh_field {β : Type} (s : State) (ch : Nat) {f : Chan → Chan} (g : Chan → β) (same : ∀ c, g (f c) = g c) (k : Nat) :
    g (vget (s.modCh ch f).mem.ch k) = g (vget s.mem.ch k) := by
  by_cases e : ch = k
  · subst e
    by_cases small : ch < 4
    · exact (congrArg g (vget_vmod s.mem.ch ch f small)).trans (same _)
    · have none_ (v : Vector Chan 4) : vget v ch = default := dif_neg small
      exact congrArg g ((none_ _).trans (none_ _).symm)
  · exact congrArg g (vget_vmod_ne s.mem.ch ch k f e)

theorem State.dramTouch_field {β : Type} (s : State) (a n : Nat) (g : Chan → β)
    (same : ∀ c p l, g { c with pd := p, lastReq := l } = g c) (k : Nat) :
    g (vget (s.dramTouch a n).mem.ch k) = g (vget s.mem.ch k) := by
  unfold State.dramTouch
  dsimp only
  refine State.each_field (g := fun t => g (vget t.mem.ch k)) (fun u ch => ?_) _ s
  exact u.modCh_field ch g (fun c => same c _ _) k

/-- From s to t channels counted errors and records were posted. -/
structure ErrorsCounted (s t : State) : Prop where
  dram : t.dram = s.dram
  dramUe : t.dramUe = s.dramUe
  dramCe : t.dramCe = s.dramCe
  retired : t.mem.retired = s.mem.retired
  owner : t.mem.owner = s.mem.owner
  ue : ∀ ch : Nat, (vget t.mem.ch ch).ue = (vget s.mem.ch ch).ue

namespace ErrorsCounted

theorem refl (s : State) : ErrorsCounted s s := ⟨rfl, rfl, rfl, rfl, rfl, fun _ => rfl⟩

theorem trans {s t v : State} (h : ErrorsCounted s t) (k : ErrorsCounted t v) : ErrorsCounted s v :=
  ⟨k.dram.trans h.dram, k.dramUe.trans h.dramUe, k.dramCe.trans h.dramCe, k.retired.trans h.retired, k.owner.trans h.owner,
    fun ch => (k.ue ch).trans (h.ue ch)⟩

theorem each {α : Type} {f : State → α → State} (hf : ∀ u a, ErrorsCounted u (f u a)) :
    ∀ (l : List α) (s : State), ErrorsCounted s (s.each l f)
  | [], s => refl s
  | a :: l, s => (hf s a).trans (each hf l (f s a))

theorem of_posts {s t : State} (h : Posts s t) : ErrorsCounted s t :=
  ⟨h.dram, h.dramUe, h.dramCe, congrArg MemSt.retired h.mem, congrArg MemSt.owner h.mem,
    fun ch => congrArg (fun m : MemSt => (vget m.ch ch).ue) h.mem⟩

theorem modCh (s : State) (ch : Nat) {f : Chan → Chan} (same : ∀ c, (f c).ue = c.ue) : ErrorsCounted s (s.modCh ch f) :=
  ⟨rfl, rfl, rfl, rfl, rfl, fun k => s.modCh_field ch Chan.ue same k⟩

end ErrorsCounted

/-- The channel's counts after a corrected error, before its record. -/
def State.errorCounted (s : State) (a : Nat) (patrol : Bool) : State :=
  s.modCh (dramCh a) (fun c => { c with
    ce := satAdd 32 c.ce 1, patrol := if patrol then satAdd 16 c.patrol 1 else c.patrol,
    derr := derrWord a false patrol, wCe := ((vget s.mem.ch (dramCh a)).wCe.hit s.now).1 })

theorem State.dramCeHit_posts (s : State) (a : Nat) (patrol : Bool) : Posts (s.errorCounted a patrol) (s.dramCeHit a patrol) := by
  unfold State.dramCeHit State.errorCounted
  dsimp only
  exact Posts.when (Posts.refl _) fun u => u.postAll_posts _

theorem State.dramCeHit_counted (s : State) (a : Nat) (patrol : Bool) : ErrorsCounted s (s.dramCeHit a patrol) := by
  refine ErrorsCounted.trans ?_ (.of_posts (s.dramCeHit_posts a patrol))
  exact ErrorsCounted.modCh s _ fun _ => rfl

theorem State.dramTouch_counted (s : State) (a k : Nat) : ErrorsCounted s (s.dramTouch a k) := by
  unfold State.dramTouch
  dsimp only
  refine ErrorsCounted.each (fun u ch => ?_) _ s
  exact ErrorsCounted.modCh u ch fun _ => rfl

/-! ## How many errors a channel has counted -/

/-- From s to t patrol counted k corrected errors of channel ch. -/
structure Scrubbed (ch k : Nat) (s t : State) : Prop where
  ce : (vget t.mem.ch ch).ce = satAdd 32 (vget s.mem.ch ch).ce k
  patrol : (vget t.mem.ch ch).patrol = satAdd 16 (vget s.mem.ch ch).patrol k

section
variable {ch : Fin 4}

theorem Scrubbed.trans {j k : Nat} {s t v : State} (h : Scrubbed ch j s t) (g : Scrubbed ch k t v) : Scrubbed ch (j + k) s v := by
  refine ⟨?_, ?_⟩
  · rw [g.ce, h.ce, satAdd_satAdd]
  · rw [g.patrol, h.patrol, satAdd_satAdd]

theorem State.dramCeHit_scrubbed (s : State) {a : Nat} (here : dramCh a = ch) : Scrubbed ch 1 s (s.dramCeHit a true) := by
  have counted : vget (s.errorCounted a true).mem.ch ch = { vget s.mem.ch ch with
      ce := satAdd 32 (vget s.mem.ch ch).ce 1, patrol := satAdd 16 (vget s.mem.ch ch).patrol 1,
      derr := derrWord a false true, wCe := ((vget s.mem.ch ch).wCe.hit s.now).1 } := by
    unfold State.errorCounted
    rw [here]
    exact vget_vmod_fin s.mem.ch ch _
  have mem := (s.dramCeHit_posts a true).mem
  refine ⟨?_, ?_⟩
  · rw [mem, counted]
  · rw [mem, counted]

/-- Errors whose words lie in channel ch are counted one by one. -/
theorem Scrubbed.each {α : Type} {f : State → α → State} : ∀ (l : List α) (s : State),
    (∀ u, ∀ a ∈ l, Scrubbed ch 1 u (f u a)) → (vget s.mem.ch ch).ce < 2 ^ 32 → (vget s.mem.ch ch).patrol < 2 ^ 16 →
    Scrubbed ch l.length s (s.each l f)
  | [], s, _, ce, patrol => ⟨(satAdd_zero ce).symm, (satAdd_zero patrol).symm⟩
  | a :: l, s, one, ce, patrol => by
    have first := one s a (by simp)
    have rest := Scrubbed.each l (f s a) (fun u b hb => one u b (by simp [hb])) (by rw [first.ce]; exact satAdd_lt ..)
      (by rw [first.patrol]; exact satAdd_lt ..)
    have both := first.trans rest
    rwa [Nat.add_comm] at both

end

/-! ## The patrol of a burst -/

theorem burst_channel {a w : Nat} {l : List Nat} (aligned : a % 64 = 0) (here : w ∈ wordsIn l a 64) : dramCh (4 * w) = dramCh a := by
  have inside := (List.mem_filter.1 here).2
  simp only [Bool.and_eq_true, decide_eq_true_eq] at inside
  unfold dramCh
  omega

/-- The burst at a read, its corrected words written back. -/
def State.burstRead (s : State) (a : Nat) : State :=
  let t := s.dramTouch a 64
  let ce := wordsIn t.dramCe a 64
  let t := t.each ce (fun s w => s.dramCeHit (4 * w) true)
  { t with dramCe := t.dramCe.filter (fun w => !ce.contains w) }

/-- The burst with k more corrected errors counted. -/
def State.burstScrubbed (s : State) (a k : Nat) : State := (s.burstRead a).each (List.range k) (fun s _ => s.dramCeHit a true)

/-- Uncorrectable words of the burst are found. -/
def State.burstChecked (s : State) (a : Nat) : State :=
  match wordsIn s.dramUe a 64 with
  | [] => s
  | w :: _ => s.dramUeHit (4 * w) true none

theorem State.patrol_eq {s : State} {b : Nat} (ok : s.mem.dok = true) (inside : 64 * b < s.dramTop) (k : Nat) (ue : Bool) :
    s.patrol b k ue = ((s.burstScrubbed (64 * b) k).when ue
      (fun s => { s with dramUe := addOnce (64 * b / 4) s.dramUe })).burstChecked (64 * b) :=
  (if_neg (by simp [ok, inside])).trans rfl

section
variable (s : State) (a k : Nat)

theorem State.burstRead_kept : (s.burstRead a).dram = s.dram ∧ (s.burstRead a).dramUe = s.dramUe ∧
    wordsIn (s.burstRead a).dramCe a 64 = [] ∧ (s.burstRead a).mem.retired = s.mem.retired ∧
    (s.burstRead a).mem.owner = s.mem.owner ∧ ∀ ch : Nat, (vget (s.burstRead a).mem.ch ch).ue = (vget s.mem.ch ch).ue := by
  have touched := s.dramTouch_counted a 64
  have counted := touched.trans (.each (f := fun s w => s.dramCeHit (4 * w) true) (fun u w => u.dramCeHit_counted (4 * w) true)
    (wordsIn (s.dramTouch a 64).dramCe a 64) (s.dramTouch a 64))
  refine ⟨counted.dram, counted.dramUe, ?_, counted.retired, counted.owner, counted.ue⟩
  have ce : ((s.dramTouch a 64).each (wordsIn (s.dramTouch a 64).dramCe a 64)
      (fun s w => s.dramCeHit (4 * w) true)).dramCe = (s.dramTouch a 64).dramCe := counted.dramCe.trans touched.dramCe.symm
  unfold State.burstRead
  dsimp only
  rw [ce]
  refine List.filter_eq_nil_iff.mpr fun w hw inside => ?_
  obtain ⟨member, absent⟩ := List.mem_filter.mp hw
  have here : w ∈ wordsIn (s.dramTouch a 64).dramCe a 64 := List.mem_filter.mpr ⟨member, inside⟩
  simp [here] at absent

theorem State.burstScrubbed_kept : (s.burstScrubbed a k).dram = s.dram ∧ (s.burstScrubbed a k).dramUe = s.dramUe ∧
    wordsIn (s.burstScrubbed a k).dramCe a 64 = [] ∧ (s.burstScrubbed a k).mem.retired = s.mem.retired ∧
    (s.burstScrubbed a k).mem.owner = s.mem.owner ∧
    ∀ ch : Nat, (vget (s.burstScrubbed a k).mem.ch ch).ue = (vget s.mem.ch ch).ue := by
  obtain ⟨dram, dramUe, dramCe, retired, owner, ue⟩ := s.burstRead_kept a
  have counted := ErrorsCounted.each (f := fun s (_ : Nat) => s.dramCeHit a true) (fun u _ => u.dramCeHit_counted a true)
    (List.range k) (s.burstRead a)
  refine ⟨counted.dram.trans dram, counted.dramUe.trans dramUe, ?_, counted.retired.trans retired, counted.owner.trans owner,
    fun ch => (counted.ue ch).trans (ue ch)⟩
  rw [State.burstScrubbed, counted.dramCe]
  exact dramCe

variable {s a} {ch : Fin 4} (aligned : a % 64 = 0) (here : dramCh a = ch) (ce : (vget s.mem.ch ch).ce < 2 ^ 32)
  (patrol : (vget s.mem.ch ch).patrol < 2 ^ 16)
include aligned here ce patrol

theorem State.burstScrubbed_counts : Scrubbed ch (k + (wordsIn s.dramCe a 64).length) s (s.burstScrubbed a k) := by
  have touch := s.dramTouch_counted a 64
  have sameCe : (vget (s.dramTouch a 64).mem.ch ch).ce = (vget s.mem.ch ch).ce :=
    s.dramTouch_field a 64 Chan.ce (fun _ _ _ => rfl) ch
  have samePatrol : (vget (s.dramTouch a 64).mem.ch ch).patrol = (vget s.mem.ch ch).patrol :=
    s.dramTouch_field a 64 Chan.patrol (fun _ _ _ => rfl) ch
  have words : Scrubbed ch (wordsIn (s.dramTouch a 64).dramCe a 64).length (s.dramTouch a 64) (s.burstRead a) := by
    obtain ⟨ces, patrols⟩ := Scrubbed.each (ch := ch) (f := fun s w => s.dramCeHit (4 * w) true)
      (wordsIn (s.dramTouch a 64).dramCe a 64) (s.dramTouch a 64)
      (fun u w hw => u.dramCeHit_scrubbed ((burst_channel aligned hw).trans here)) (by rw [sameCe]; exact ce)
      (by rw [samePatrol]; exact patrol)
    exact ⟨ces, patrols⟩
  have more : Scrubbed ch (List.range k).length (s.burstRead a) (s.burstScrubbed a k) :=
    Scrubbed.each (f := fun s (_ : Nat) => s.dramCeHit a true) (List.range k) (s.burstRead a)
      (fun u _ _ => u.dramCeHit_scrubbed here) (by rw [words.ce]; exact satAdd_lt ..) (by rw [words.patrol]; exact satAdd_lt ..)
  have both := words.trans more
  rw [touch.dramCe, List.length_range, Nat.add_comm] at both
  exact ⟨both.ce.trans (by rw [sameCe]), both.patrol.trans (by rw [samePatrol])⟩

end

/-! ## An uncorrectable word found by patrol -/

/-- From s to t an uncorrectable word was recorded or a page retired, no count changed. -/
structure PageMarked (s t : State) : Prop where
  dram : t.dram = s.dram
  dramUe : t.dramUe = s.dramUe
  dramCe : t.dramCe = s.dramCe
  ch : t.mem.ch = s.mem.ch

theorem PageMarked.trans {s t v : State} (h : PageMarked s t) (k : PageMarked t v) : PageMarked s v :=
  ⟨k.dram.trans h.dram, k.dramUe.trans h.dramUe, k.dramCe.trans h.dramCe, k.ch.trans h.ch⟩

theorem PageMarked.of_posts {s t : State} (h : Posts s t) : PageMarked s t :=
  ⟨h.dram, h.dramUe, h.dramCe, congrArg MemSt.ch h.mem⟩

theorem State.retirePage_marked (s : State) (pg : Nat) : PageMarked s (s.retirePage pg) := by
  unfold State.retirePage
  dsimp only
  split
  · exact ⟨rfl, rfl, rfl, rfl⟩
  · refine PageMarked.trans ?_ (.of_posts (State.postAll_posts _ _))
    exact ⟨rfl, rfl, rfl, rfl⟩

theorem State.retirePage_retired (s : State) (pg : Nat) : pg ∈ (s.retirePage pg).mem.retired := by
  unfold State.retirePage
  dsimp only
  split
  · next already => exact List.contains_iff_mem.mp already
  · rw [(State.postAll_posts _ _).mem]
    exact List.mem_append_right _ (List.mem_singleton_self pg)

/-- The channel's counts after an uncorrectable word, and the record. -/
def State.ueRecorded (s : State) (a : Nat) : State :=
  let t := s.modCh (dramCh a) (fun c => { c with ue := satAdd 16 c.ue 1, derr := derrWord a true true })
  t.postAll (t.ev 2 0x0B04 (dramCh a) none (wd a))

theorem State.ueRecorded_mem (s : State) (a : Nat) : (s.ueRecorded a).mem =
    (s.modCh (dramCh a) (fun c => { c with ue := satAdd 16 c.ue 1, derr := derrWord a true true })).mem :=
  (State.postAll_posts _ _).mem

theorem State.dramUeHit_eq (s : State) (a : Nat) : s.dramUeHit a true none =
    if a / 65536 < 4096 then s.ueRecorded a
    else if SMap.get (s.ueRecorded a).mem.owner 0 (a / 65536) = 0 then (s.ueRecorded a).retirePage (a / 65536)
    else (s.ueRecorded a).modMem (fun m => { m with retireDue := addOnce (a / 65536) m.retireDue }) := rfl

theorem State.dramUeHit_marked (s : State) (a : Nat) : PageMarked (s.ueRecorded a) (s.dramUeHit a true none) := by
  rw [State.dramUeHit_eq]
  split
  · exact ⟨rfl, rfl, rfl, rfl⟩
  split
  · exact State.retirePage_marked _ _
  · exact ⟨rfl, rfl, rfl, rfl⟩

theorem State.ueRecorded_words (s : State) (a : Nat) : (s.ueRecorded a).dram = s.dram ∧ (s.ueRecorded a).dramUe = s.dramUe ∧
    (s.ueRecorded a).dramCe = s.dramCe :=
  ⟨(State.postAll_posts _ _).dram, (State.postAll_posts _ _).dramUe, (State.postAll_posts _ _).dramCe⟩

/-- The words of memory stay as they were. -/
theorem State.dramUeHit_words (s : State) (a : Nat) : (s.dramUeHit a true none).dram = s.dram ∧
    (s.dramUeHit a true none).dramUe = s.dramUe ∧ (s.dramUeHit a true none).dramCe = s.dramCe := by
  obtain ⟨dram, dramUe, dramCe⟩ := s.ueRecorded_words a
  have marked := s.dramUeHit_marked a
  exact ⟨marked.dram.trans dram, marked.dramUe.trans dramUe, marked.dramCe.trans dramCe⟩

theorem State.dramUeHit_channel (s : State) {a : Nat} {ch : Fin 4} (here : dramCh a = ch) :
    vget (s.dramUeHit a true none).mem.ch ch = { vget s.mem.ch ch with
      ue := satAdd 16 (vget s.mem.ch ch).ue 1, derr := derrWord a true true } := by
  rw [(s.dramUeHit_marked a).ch, State.ueRecorded_mem, here]
  exact vget_vmod_fin s.mem.ch ch _

theorem State.dramUeHit_retires (s : State) {a : Nat} (high : 4096 ≤ a / 65536) (free : SMap.get s.mem.owner 0 (a / 65536) = 0) :
    a / 65536 ∈ (s.dramUeHit a true none).mem.retired := by
  have owner : (s.ueRecorded a).mem.owner = s.mem.owner := (congrArg MemSt.owner (s.ueRecorded_mem a)).trans rfl
  rw [State.dramUeHit_eq, if_neg (Nat.not_lt.mpr high), owner, if_pos free]
  exact State.retirePage_retired _ _

/-! ## The outcomes of a patrol and of a fill -/

section
variable {u : State} {a : Nat}

theorem State.burstChecked_words (s : State) : (s.burstChecked a).dram = s.dram ∧ (s.burstChecked a).dramUe = s.dramUe ∧
    (s.burstChecked a).dramCe = s.dramCe := by
  unfold State.burstChecked
  split
  · exact ⟨rfl, rfl, rfl⟩
  · exact s.dramUeHit_words _

theorem State.burstChecked_good {s : State} (good : wordsIn s.dramUe a 64 = []) : s.burstChecked a = s := by
  unfold State.burstChecked
  rw [good]

theorem wordsIn_addOnce {l : List Nat} (aligned : a % 64 = 0) (good : wordsIn l a 64 = []) : wordsIn (addOnce (a / 4) l) a 64 = [a / 4] := by
  have here : ¬ a / 4 ∈ l := fun mem => by
    have : a / 4 ∈ wordsIn l a 64 := List.mem_filter.mpr ⟨mem, by simp; omega⟩
    rw [good] at this
    exact absurd this (by simp)
  have absent : l.contains (a / 4) = false := by simpa using here
  unfold addOnce
  rw [if_neg (by rw [absent]; decide)]
  unfold wordsIn at good ⊢
  rw [List.filter_append, good, List.nil_append]
  refine List.filter_eq_self.mpr fun w hw => ?_
  obtain rfl := List.mem_singleton.mp hw
  simp
  omega

/-- A new uncorrectable word of the burst is its first. -/
theorem State.burstChecked_first {s : State} (aligned : a % 64 = 0) (good : wordsIn s.dramUe a 64 = []) :
    ({ s with dramUe := addOnce (a / 4) s.dramUe } : State).burstChecked a =
      ({ s with dramUe := addOnce (a / 4) s.dramUe } : State).dramUeHit a true none := by
  unfold State.burstChecked
  dsimp only
  rw [wordsIn_addOnce aligned good]
  have whole : 4 * (a / 4) = a := by omega
  dsimp only
  rw [whole]

end

/-! ## A range cleared -/

theorem SMap.get_below {i : Nat} : ∀ {lo : Nat} {m : List Host.Cell}, Memory.wfFrom lo m = true → i < lo → SMap.get m 0 i = 0
  | _, [], _, _ => rfl
  | lo, (a, v) :: l, wf, low => by
    simp only [Memory.wfFrom, Bool.and_eq_true, decide_eq_true_eq] at wf
    obtain ⟨⟨above, -⟩, -⟩ := wf
    simp only [SMap.get]
    rw [if_neg (by omega), if_pos (by omega)]

/-- A range cleared leaves every byte outside it. -/
theorem memByte_memClear_outside {a n i : Nat} (out : i < a ∨ a + n ≤ i) : ∀ {lo : Nat} {m : List Host.Cell},
    Memory.wfFrom lo m = true → memByte (memClear m a n) i = memByte m i
  | _, [], _ => rfl
  | lo, (x, v) :: l, wf => by
    simp only [Memory.wfFrom, Bool.and_eq_true] at wf
    obtain ⟨-, rest⟩ := wf
    have ih := memByte_memClear_outside out rest
    unfold memByte memClear at ih ⊢
    rw [List.filter_cons]
    split
    · simp only [SMap.get]
      rw [ih]
    · next gone =>
      have inside : a ≤ x ∧ x < a + n := by simpa using gone
      rw [ih]
      simp only [SMap.get]
      rw [if_neg (by omega)]
      split
      · next low => exact SMap.get_below rest (by omega)
      · rfl

theorem State.zeroFill_filled {u : State} {pg : Nat} (ok : u.mem.dok = true) (free : u.pageFree pg = true) :
    ∃ b : Bool, u.zeroFill pg = ((u.fillPage pg).modMem (fun m => { m with filled := addOnce pg m.filled })).modMem
      (fun m => { m with zfDone := m.zfDone || b }) :=
  ⟨_, if_neg (by rw [ok, free]; decide)⟩

/-- Settles O53: an instant that is due changes its channel alone; patrol counts what it corrects, and a burst with an
uncorrectable word loses its page. -/
theorem dramInService : Obligations.DramInService := by
  unfold Obligations.DramInService
  rintro e s u ch c hu rfl
  refine ⟨fun st due => ⟨fun room => ?_, fun gap => ?_, fun full busy => ?_⟩, fun hot => ⟨fun due => ?_, fun early => ?_⟩,
    fun r st rank on due => ?_, fun r off => ?_, fun b k a ha ok inside here => ?_, fun b a ha ok inside here good => ?_,
    fun pg ok free => ?_, fun pg taken => ?_⟩
  · rw [exec_dramRefresh, execDramRefresh, ← hu, State.refresh_postponed st due room]
    rfl
  · rw [exec_dramRefresh, execDramRefresh, ← hu, State.refresh_idle st due gap]
    rfl
  · rw [exec_dramRefresh, execDramRefresh, ← hu, State.refresh_forced st due full]
    rfl
  · rw [exec_dramTempPoll, execDramTempPoll, ← hu]
    exact congrArg Host.Outcome.next (if_pos due)
  · rw [exec_dramTempPoll, execDramTempPoll, ← hu]
    exact congrArg Host.Outcome.next (if_neg (by rw [early]; decide))
  · rw [exec_dramPowerdown, execDramPowerdown, ← hu, State.powerDown_idle st rank on due]
    rfl
  · rw [exec_dramPowerdown, execDramPowerdown, ← hu]
    exact congrArg Host.Outcome.next (if_neg (by simp [off]))
  · subst ha
    have aligned : 64 * b.toNat % 64 = 0 := by omega
    obtain ⟨dram, dramUe, dramCe, retired, -, ue⟩ := u.burstScrubbed_kept (64 * b.toNat) (min 16 k)
    obtain ⟨dram', dramUe', dramCe'⟩ := (u.burstScrubbed (64 * b.toNat) (min 16 k)).burstChecked_words (a := 64 * b.toNat)
    have patrols : u.patrol b.toNat (min 16 k) false = (u.burstScrubbed (64 * b.toNat) (min 16 k)).burstChecked (64 * b.toNat) :=
      State.patrol_eq ok inside _ false
    rw [exec_patrolScrub, execPatrolScrub, ← hu, patrols]
    refine ⟨_, rfl, dram'.trans dram, dramUe'.trans dramUe, by rw [dramCe', dramCe], fun good ce patrol => ?_⟩
    have counts := State.burstScrubbed_counts (min 16 k) aligned here ce patrol
    rw [State.burstChecked_good (by rw [dramUe, good])]
    exact ⟨counts.ce, counts.patrol, ue ch, retired⟩
  · subst ha
    have aligned : 64 * b.toNat % 64 = 0 := by omega
    obtain ⟨-, dramUe, -, -, owner, ue⟩ := u.burstScrubbed_kept (64 * b.toNat) 0
    have good' : wordsIn (u.burstScrubbed (64 * b.toNat) 0).dramUe (64 * b.toNat) 64 = [] := by rw [dramUe, good]
    have patrols : u.patrol b.toNat (min 16 0) true = ({ u.burstScrubbed (64 * b.toNat) 0 with
        dramUe := addOnce (64 * b.toNat / 4) (u.burstScrubbed (64 * b.toNat) 0).dramUe } : State).dramUeHit (64 * b.toNat) true none :=
      (State.patrol_eq ok inside _ true).trans (State.burstChecked_first aligned good')
    rw [exec_patrolScrub, execPatrolScrub, ← hu, patrols]
    refine ⟨_, rfl, ?_, ?_, ?_, fun high free => ?_⟩
    · rw [(State.dramUeHit_words _ _).2.1]
      exact mem_addOnce _ _
    · rw [State.dramUeHit_channel _ here]
      exact congrArg (fun x => satAdd 16 x 1) (ue ch)
    · rw [State.dramUeHit_channel _ here]
    · exact State.dramUeHit_retires _ high ((congrArg (fun o => SMap.get o 0 _) owner).trans free)
  · obtain ⟨done, fills⟩ := State.zeroFill_filled ok free
    rw [exec_zeroFill, execZeroFill, ← hu, fills]
    refine ⟨_, rfl, mem_addOnce _ _, fun wf a => ?_, fun before => ?_, rfl⟩
    · split
      · next same => exact memByte_memClear (by omega) (by omega)
      · next other => exact memByte_memClear_outside (by omega) wf
    · exact congrArg (· || done) before
  · rw [exec_zeroFill, execZeroFill, ← hu]
    exact congrArg Host.Outcome.next (if_pos (by simp [taken]))

end Sys2Proof.Machine
end

section
/-! What keeps the in-service tests of the SRAM as they are (13 R405, R410-R413) -/
namespace Sys2Proof.Machine
open Sys2Proof

/-- The in-service tests and repairs, and the memories that they leave alone. -/
structure Tests where
  win : Option TestWin
  slice : Nat
  lastWin : Nat
  turn : Nat
  repairs : List Repair
  rows : SMap Nat
  fails : Nat
  bistRec : Word
  soft : Nat
  dram : List Host.Cell
  pstore : SMap Word

def State.tests (s : State) : Tests :=
  { win := s.mem.win, slice := s.mem.slice, lastWin := s.mem.lastWin, turn := s.mem.turn, repairs := s.mem.repairs,
    rows := s.mem.rows, fails := s.mem.fails, bistRec := s.mem.bistRec, soft := s.mem.soft, dram := s.dram, pstore := s.pstore }

theorem Posts.tests {s t : State} (h : Posts s t) : t.tests = s.tests := by
  unfold State.tests
  rw [h.mem, h.dram, h.pstore]

theorem State.when_tests {s t : State} {b : Bool} {f : State → State} (h : t.tests = s.tests) (hf : ∀ u, (f u).tests = u.tests) :
    (t.when b f).tests = s.tests := by
  unfold State.when
  split
  · exact (hf t).trans h
  · exact h

theorem State.each_tests {α : Type} {f : State → α → State} (hf : ∀ u a, (f u a).tests = u.tests) (l : List α) (s : State) :
    (s.each l f).tests = s.tests := State.each_field (g := State.tests) hf l s

section
variable (s : State)

theorem State.modSafe_tests (f : Safe → Safe) : (s.modSafe f).tests = s.tests := rfl
theorem State.modStr_tests (p : Nat) (f : Stream → Stream) : (s.modStr p f).tests = s.tests := rfl
theorem State.modRing_tests (p : Nat) (f : Ring → Ring) : (s.modRing p f).tests = s.tests := rfl
theorem State.strGo_tests (p : Nat) (a : StrStep) (b : StrSt) : (s.strGo p a b).tests = s.tests := rfl
theorem State.strStop_tests (p : Nat) (err : Bool) : (s.strStop p err).tests = s.tests := rfl
theorem State.strAccept_tests (p : Nat) (d : Dune) : (s.strAccept p d).tests = s.tests := rfl
theorem State.engFree_tests (p t : Nat) : (s.engFree p t).tests = s.tests := rfl
theorem State.strAbandon_tests (p : Nat) : (s.strAbandon p).tests = s.tests := rfl
theorem State.calCut_tests (n : Nat) (whole : Bool) (us : List Nat) : (s.calCut n whole us).tests = s.tests := rfl
theorem State.camCut_tests (c : Nat) (cs : List (Nat × Nat)) (b : Bool) : (s.camCut c cs b).tests = s.tests := rfl

/-! ## Words of the die's memory -/

theorem State.setReg_tests (a : Nat) (v : Word) : (s.setReg a v).tests = s.tests := rfl

theorem State.flipUse_tests (a : Nat) : (s.flipUse a).tests = s.tests := by
  unfold State.flipUse
  exact (State.postAll_posts _ _).tests.trans (State.setReg_tests _ _ _)

theorem State.flipSram_tests (w n : Nat) : (s.flipSram w n).1.tests = s.tests := by
  unfold State.flipSram
  dsimp only
  generalize hb : (!s.flipArmed false || _) = b
  have used := s.flipUse_tests (if s.flipFilter = true then s.flipAddr else w)
  cases b
  case true => rfl
  case false =>
    rw [if_neg (by decide)]
    split
    · exact used
    · split
      · exact used
      · split
        · exact used
        · exact used

theorem State.sramWrite_tests (w n : Nat) : (s.sramWrite w n).1.tests = s.tests := s.flipSram_tests w n

theorem State.sramUeHit_tests (w k : Nat) : (s.sramUeHit w k).tests = s.tests := by
  unfold State.sramUeHit
  exact (State.postAll_posts _ _).tests

theorem State.sramCeHit_tests (w k b : Nat) : (s.sramCeHit w k b).tests = s.tests := by
  unfold State.sramCeHit
  dsimp only
  exact State.when_tests rfl fun u => (u.postAll_posts _).tests

theorem State.sramRead_tests (w n : Nat) : (s.sramRead w n).tests = s.tests := by
  unfold State.sramRead
  dsimp only
  exact State.each_tests (f := fun s (x : Nat × Nat) => s.sramCeHit x.1 (sramPart x.1) x.2) (fun u x => u.sramCeHit_tests _ _ _) _ s

theorem State.spoilPort_tests (w p : Nat) : (s.spoilPort w p).tests = s.tests := rfl

theorem State.spoilTab_tests (w : Nat) : (s.spoilTab w).tests = s.tests := rfl

theorem State.spoilStore_tests (w : Nat) : (s.spoilStore w).tests = s.tests := rfl

theorem State.spoil_tests (w : Nat) : (s.spoil w).tests = s.tests := by
  have spoilt : ((((s.each (List.range 64) (fun s p => s.spoilPort w p)).spoilTab w).spoilStore w)).tests = s.tests :=
    ((State.spoilStore_tests _ w).trans (State.spoilTab_tests _ w)).trans
      (State.each_tests (f := fun s p => s.spoilPort w p) (fun u p => u.spoilPort_tests w p) _ s)
  unfold State.spoil
  dsimp only
  split
  · exact (State.modSafe_tests _ _).trans ((State.sramUeHit_tests _ w _).trans spoilt)
  · exact spoilt

theorem State.sramPut_tests (w n : Nat) : (s.sramPut w n).tests = s.tests := by
  unfold State.sramPut
  exact (State.each_tests (f := State.spoil) State.spoil_tests _ _).trans (s.sramWrite_tests w n)

/-! ## A stream that stops -/

theorem State.postUnit_tests (n : Nat) (r : EvRec) : (s.postUnit n r).tests = s.tests := (s.postUnit_posts n r).tests

theorem State.strNext_tests (p next : Nat) : (s.strNext p next).tests = s.tests := by
  unfold State.strNext
  split
  · rfl
  · split <;> rfl

theorem State.strConsume_tests (p : Nat) (b : Bool) : (s.strConsume p b).tests = s.tests := by
  unfold State.strConsume
  split
  · rfl
  · exact (State.strNext_tests _ _ _).trans (State.when_tests rfl fun u => u.postUnit_tests _ _)

theorem State.nextEntry_tests (p : Nat) : (s.nextEntry p).tests = s.tests := by
  unfold State.nextEntry
  dsimp only
  split
  · split
    · exact s.strConsume_tests p true
    · rfl
  · split
    · exact s.strConsume_tests p true
    · rfl
  · rfl

theorem State.strAdvance_tests (p n : Nat) : (s.strAdvance p n).tests = s.tests := by
  unfold State.strAdvance
  split
  · split
    · exact s.strConsume_tests p true
    · rfl
  · exact s.nextEntry_tests p
  · rfl

theorem State.dropDune_tests (p code first len : Nat) : (s.dropDune p code first len).tests = s.tests := by
  unfold State.dropDune State.strErr
  exact (State.strAdvance_tests _ p len).trans (State.postUnit_tests _ p _)

theorem State.ringStore_tests (p : Nat) (d : Dune) (data : List Byte) (i : Nat) : (s.ringStore p d data i).tests = s.tests := by
  unfold State.ringStore
  dsimp only
  split
  · rfl
  · exact (State.sramWrite_tests _ _ _).trans (s.sramWrite_tests _ _)

theorem State.dropped_tests (p : Nat) (d : Dune) (code : Nat) :
    ((((s.engFree p s.now).modRing p (fun r => r.drop (fun x => x.st == .pending))).strAccept p d).dropDune p code d.first d.len).tests =
      s.tests :=
  (State.dropDune_tests _ p _ _ _).trans ((State.strAccept_tests _ p d).trans ((State.modRing_tests _ p _).trans (s.engFree_tests p _)))

theorem State.stored_tests (p : Nat) (d : Dune) (data : List Byte) :
    ((s.engFree p s.now).each (List.range d.lines) (fun s i => s.ringStore p d data i)).tests = s.tests :=
  (State.each_tests (f := fun s i => s.ringStore p d data i) (fun u i => u.ringStore_tests p d data i) _ _).trans (s.engFree_tests p _)

theorem State.decodeDone_tests (p : Nat) : (s.decodeDone p).tests = s.tests := by
  unfold State.decodeDone
  dsimp only
  split
  · rfl
  · next d _ =>
    split
    · rfl
    · split
      · exact s.dropped_tests p d _
      · next data _ =>
        refine (State.strStop_tests _ p _).trans ((State.strAdvance_tests _ p _).trans (State.when_tests ?_ fun u => ?_))
        · exact (State.modStr_tests _ p _).trans ((State.strAccept_tests _ p d).trans (s.stored_tests p d data))
        · exact (State.postUnit_tests _ p _).trans (u.modStr_tests p _)

theorem State.strCancel_tests (p : Nat) : (s.strCancel p).tests = s.tests := by
  unfold State.strCancel
  dsimp only
  refine (State.modStr_tests _ p _).trans ((State.strGo_tests _ p _ _).trans ?_)
  split
  · exact (State.strAbandon_tests _ p).trans (s.decodeDone_tests p)
  · exact s.decodeDone_tests p

/-! ## A session's state with an uncorrectable word -/

theorem State.stopAxis_tests (a : Nat) :
    (if s.motRefusal a .production .stop = 0 then s.after (s.stepEdge 0) (.motion a .stop) else s).tests = s.tests := by
  split <;> rfl

theorem State.quarantine_tests (n : Nat) (us : List Nat) (whole : Bool) : (s.quarantine n us whole).tests = s.tests := by
  have streams : ((s.after (s.now + 8 * qTick) (.flush n us whole)).each (us.filter (· < 64)) State.strCancel).tests = s.tests :=
    State.each_tests (f := State.strCancel) State.strCancel_tests _ _
  have axes := (State.each_tests (f := fun u a => if u.motRefusal a .production .stop = 0 then u.after (u.stepEdge 0) (.motion a .stop)
    else u) State.stopAxis_tests (those 8 (fun a => us.contains (uAx a))) _).trans streams
  unfold State.quarantine
  dsimp only
  exact (State.calCut_tests _ n whole us).trans ((State.each_tests (fun u c => u.camCut_tests c _ _) (List.range 4) _).trans axes)

theorem State.kennelEnter_tests (n : Nat) : (s.kennelEnter n).tests = s.tests := by
  unfold State.kennelEnter
  dsimp only
  split
  · rfl
  · exact State.quarantine_tests _ n _ true

theorem State.sessionEcc_tests (n : Nat) : (s.sessionEcc n).tests = s.tests :=
  (State.kennelEnter_tests _ n).trans (s.sramUeHit_tests _ _)

/-! ## What a window's save finds -/

theorem State.sliceEcc_tests (p : Nat) (words : List Nat) : (s.sliceEcc p words).tests = s.tests := by
  have hit := State.each_tests (f := fun s w => s.sramUeHit w (sramPart w)) (fun u w => u.sramUeHit_tests w _) words s
  unfold State.sliceEcc
  dsimp only
  split
  · rfl
  · exact State.when_tests hit fun u => u.postUnit_tests _ _

theorem State.startPush_tests (p : Nat) (why : PushWhy) : (s.startPush p why).tests = s.tests := by
  unfold State.startPush
  dsimp only
  split
  · exact s.sliceEcc_tests p _
  · rfl

theorem State.stagedEcc_tests (p : Nat) (words : List Nat) : (s.stagedEcc p words).tests = s.tests := by
  have hit := State.each_tests (f := fun s w => s.sramUeHit w (sramPart w)) (fun u w => u.sramUeHit_tests w _) words s
  unfold State.stagedEcc State.pushAgain
  split
  · rfl
  · split
    · exact hit
    · exact (State.startPush_tests _ p _).trans hit

theorem State.nzEcc_tests (k : Nat) : (s.nzEcc k).tests = s.tests := s.sramUeHit_tests _ _

theorem State.windowSave_tests (slice : Nat) : (s.windowSave slice).tests = s.tests := by
  unfold State.windowSave
  dsimp only
  refine (State.each_tests (fun u b => ?_) _ _).trans ?_
  · exact (State.postUnit_tests _ _ _).trans (u.sramUeHit_tests _ _)
  refine (State.each_tests State.nzEcc_tests _ _).trans ?_
  refine (State.each_tests (fun u p => ?_) _ _).trans ?_
  · exact (State.stagedEcc_tests _ p _).trans (u.sliceEcc_tests p _)
  refine (State.each_tests (fun u p => ?_) _ _).trans (s.sramRead_tests _ _)
  exact State.each_tests (f := fun s w => s.sramUeHit w (sramPart w)) (fun v w => v.sramUeHit_tests w _) _ u

end

end Sys2Proof.Machine
end

section
/-! SRAM in service (13 R403, R405-R414, R417) -/
namespace Sys2Proof.Machine
open Sys2Proof

/-! ## A test window opens -/

section
variable {u : State}

theorem State.sheepdogStart_tests (s : State) : s.sheepdogStart.tests = s.sheepdog.tests := by
  unfold State.sheepdogStart
  dsimp only
  split
  · split
    · rfl
    · exact State.each_tests State.sessionEcc_tests _ _
  · rfl

/-- A window open on slice i. -/
def State.windowOpen (u : State) (i : Nat) (repair : Option Repair) (turn : Nat) : State :=
  u.modMem (fun m => { m with
    win := some { slice := i, since := u.now, repair := repair }, slice := i, lastWin := u.now, turn := turn })

theorem State.windowOpen_keeps (u : State) (i : Nat) (repair : Option Repair) : u.modMem (fun m => { m with
    win := some { slice := i, since := u.now, repair := repair }, slice := i, lastWin := u.now }) =
      u.windowOpen i repair u.mem.turn := rfl

variable (shut : u.mem.win = none) (ready : u.phase = .ready) (due : u.due u.mem.lastWin (u.rf sdCfgAddr 23 8 * qUs) = true)
include shut ready due

theorem State.sheepdog_closed : (u.mem.win.isSome || u.phase != .ready || !u.due u.mem.lastWin (bits (u.reg sdCfgAddr) 23 8 * qUs)) = false := by
  have late : u.due u.mem.lastWin (bits (u.reg sdCfgAddr) 23 8 * qUs) = true := due
  rw [shut, ready, late]
  rfl

theorem State.sheepdog_repair {r : Repair} (pending : u.mem.repairs.head? = some r) :
    u.sheepdog = (u.windowOpen (r.word / 512) (some r) u.mem.turn).windowSave (r.word / 512) := by
  unfold State.sheepdog State.nextRepair
  dsimp only
  rw [State.sheepdog_closed shut ready due, pending, if_neg (by decide)]
  dsimp only
  rw [State.windowOpen_keeps]

theorem State.sheepdog_turn (none_ : u.mem.repairs = []) (on : bit (u.reg sdCfgAddr) 0 = true) :
    u.sheepdog = (u.windowOpen u.mem.turn none ((u.mem.turn + 1) % 24576)).windowSave u.mem.turn := by
  unfold State.sheepdog State.nextRepair
  dsimp only
  rw [State.sheepdog_closed shut ready due, none_, on, if_neg (by decide)]
  dsimp only [List.head?_nil]
  rw [if_neg (by decide), State.windowOpen]

theorem State.sheepdog_off (none_ : u.mem.repairs = []) (off : bit (u.reg sdCfgAddr) 0 = false) : u.sheepdog = u := by
  unfold State.sheepdog State.nextRepair
  dsimp only
  rw [State.sheepdog_closed shut ready due, none_, off]
  rfl

theorem State.sheepdogStart_off (none_ : u.mem.repairs = []) (off : bit (u.reg sdCfgAddr) 0 = false) : u.sheepdogStart = u := by
  unfold State.sheepdogStart
  dsimp only
  rw [State.sheepdog_off shut ready due none_ off, shut]

end

/-! ## A row repaired -/

section
variable {u : State} {word : Nat}

theorem State.nvWrite_tests (s : State) (rid : Nat) (payload : List Byte) (n : Option Nat) :
    (s.nvWrite rid payload n).1.tests = s.tests := by
  unfold State.nvWrite
  dsimp only
  generalize hw : s.nvPutChecked rid _ _ payload = w
  have kept : w.1.tests = s.tests := by
    rw [← hw]
    rfl
  split
  · exact kept
  · cases n with
    | some n => exact (State.postTo_posts _ _ _).tests.trans kept
    | none => exact (State.postAll_posts _ _).tests.trans kept

theorem State.repairRow_full (full : 4 ≤ u.sparesUsed word) :
    (u.repairRow word none).2 = false ∧ (u.repairRow word none).1.tests = u.tests := by
  unfold State.repairRow
  dsimp only
  rw [if_pos full]
  exact ⟨rfl, (State.postAll_posts _ _).tests⟩

theorem State.repairRow_free (room : u.sparesUsed word < 4) : (u.repairRow word none).2 = true ∧
    (u.repairRow word none).1.tests = { u.tests with
      rows := SMap.put u.mem.rows (rowKey word) (u.sparesUsed word),
      soft := if (SMap.find u.mem.rows (rowKey word)).isSome then u.mem.soft else u.mem.soft + 1 } := by
  unfold State.repairRow
  dsimp only
  rw [if_neg (Nat.not_le.mpr room)]
  exact ⟨rfl, (State.nvWrite_tests _ _ _ _).trans (State.postAll_posts _ _).tests⟩

end

/-! ## A test window ends -/

/-- A window shut, its failure counted and posted. -/
def State.failNoted (u : State) (word b : Nat) : State :=
  let s := (u.modMem (fun m => { m with win := none })).modMem (fun m => { m with fails := satAdd 16 m.fails 1 })
  s.postAll (s.ev 2 0x0B05 0 none (fields [(0, 24, word), (24, 7, b)]))

/-- The row of a failure repaired where AUTOREP asks for it. -/
def State.rowTried (u : State) (word : Nat) (auto : Bool) : State × Bool := if auto then u.repairRow word none else (u, false)

/-- BISTREC of a failure. -/
def bistWord (word b el : Nat) (checker auto repaired : Bool) : Word :=
  fields [(0, 24, word), (24, 7, b), (32, 3, el), (35, 1, b1 checker), (36, 2, if !auto then 3 else if repaired then 1 else 2)]

/-- The failure of a window that serves no repair, recorded. -/
def State.failRecorded (u : State) (word b el : Nat) : State :=
  let r := (u.failNoted word b).rowTried word (bit (u.reg sdCfgAddr) 1)
  let s := if r.2 then r.1 else r.1.modMem (fun m => { m with defects := (word, b) :: m.defects.filter (· != (word, b)) })
  s.modMem (fun m => { m with bistRec := bistWord word b el u.checkerPass (bit (u.reg sdCfgAddr) 1) r.2 })

section
variable {u : State} {w : TestWin} (win : u.mem.win = some w)
include win

theorem State.windowEnd_early (early : u.due w.since (1552 * qTick) = false) (f : Option (Nat × Nat × Nat)) :
    u.windowEnd f = (u, none) := by
  unfold State.windowEnd
  rw [win]
  exact if_pos (by rw [early]; rfl)

variable (due : u.due w.since (1552 * qTick) = true)
include due

theorem State.windowEnd_pass (serves : w.repair = none) : u.windowEnd none = ((u.modMem (fun m => { m with
    win := none, passes := if w.slice = 24575 then (m.passes + 1) % 2 ^ 32 else m.passes })).sramPut (512 * w.slice) 512, none) := by
  unfold State.windowEnd
  rw [win]
  dsimp only
  rw [if_neg (by rw [due]; decide), serves]
  simp only [Option.isSome_none, Option.isNone_none, Bool.and_true, decide_eq_true_eq]
  rfl

theorem State.windowEnd_fail (serves : w.repair = none) (x b el : Nat) : ∃ p : Nat, u.windowEnd (some (x, b, el)) =
    (((u.failRecorded (512 * w.slice + x % 512) b el).modMem (fun m => { m with passes := p })).sramPut (512 * w.slice) 512, none) := by
  unfold State.windowEnd
  rw [win]
  dsimp only
  rw [if_neg (by rw [due]; decide), serves]
  simp only [Option.isSome_none, Option.isNone_none, Option.map_none, Bool.or_false, Bool.false_eq_true, if_false]
  exact ⟨_, rfl⟩

theorem State.windowEnd_retest {r : Repair} (serves : w.repair = some r) (retest : r.op = 2) : ∃ p : Nat,
    u.windowEnd none = ((u.modMem (fun m => { m with win := none, repairs := m.repairs.tail, passes := p })).sramPut (512 * w.slice) 512,
      some r) := by
  unfold State.windowEnd
  rw [win]
  dsimp only
  rw [if_neg (by rw [due]; decide), serves]
  dsimp only
  rw [if_neg (by rw [retest]; decide)]
  exact ⟨_, rfl⟩

end

/-! ## What is recorded of a failure -/

section
variable (u : State) (word b el : Nat)

theorem State.failNoted_tests : (u.failNoted word b).tests = { u.tests with win := none, fails := satAdd 16 u.mem.fails 1 } := by
  unfold State.failNoted
  exact (State.postAll_posts _ _).tests

theorem State.failNoted_spares : (u.failNoted word b).sparesUsed word = u.sparesUsed word := by
  have mem : (u.failNoted word b).mem.spares = u.mem.spares := by
    unfold State.failNoted
    dsimp only
    rw [(State.postAll_posts _ _).mem]
    rfl
  unfold State.sparesUsed State.macroSpares
  rw [mem]

theorem State.failRecorded_tests : (u.failRecorded word b el).tests =
    { ((u.failNoted word b).rowTried word (bit (u.reg sdCfgAddr) 1)).1.tests with
      bistRec := bistWord word b el u.checkerPass (bit (u.reg sdCfgAddr) 1)
        ((u.failNoted word b).rowTried word (bit (u.reg sdCfgAddr) 1)).2 } := by
  unfold State.failRecorded
  dsimp only
  split <;> rfl

end

theorem bistWord_word (word b el : Nat) (checker auto repaired : Bool) :
    bits (bistWord word b el checker auto repaired) 23 0 = word % 2 ^ 24 := by
  unfold bistWord bits bitsN
  rw [fields_toNat]
  simp only [fieldSum, Nat.shiftRight_eq_div_pow]
  generalize b1 checker = c
  generalize (if !auto then 3 else if repaired then 1 else 2 : Nat) = out
  omega

theorem bistWord_outcome (word b el : Nat) (checker auto repaired : Bool) :
    bits (bistWord word b el checker auto repaired) 37 36 = if !auto then 3 else if repaired then 1 else 2 := by
  have code : (if !auto then 3 else if repaired then 1 else 2 : Nat) < 4 := by
    cases auto <;> cases repaired <;> decide
  unfold bistWord bits bitsN
  rw [fields_toNat]
  simp only [fieldSum, Nat.shiftRight_eq_div_pow]
  generalize b1 checker = c
  generalize (if !auto then 3 else if repaired then 1 else 2 : Nat) = out at code ⊢
  omega

/-! ## The restore at a window's end -/

section
variable {v : State} {a n : Nat} (idle : v.flipArmed false = false) (sound : ∀ d ∈ v.mem.defects, ¬ (a ≤ d.1 ∧ d.1 < a + n))
include idle sound

theorem State.sramPut_clean : v.sramPut a n = v.modMem (fun m => { m with
    sramOne := m.sramOne.filter (fun x => !(decide (a ≤ x.1) && decide (x.1 < a + n))),
    sramCe := m.sramCe.filter (fun x => !(decide (a ≤ x) && decide (x < a + n))) }) := by
  have flip : v.flipSram a n = (v, .none) := if_pos (by rw [idle]; rfl)
  have cells : v.mem.defects.filter (fun x => decide (a ≤ x.1) && decide (x.1 < a + n)) = [] := by
    rw [List.filter_eq_nil_iff]
    intro d hd here
    exact sound d hd (by simpa using here)
  unfold State.sramPut State.sramWrite
  dsimp only
  rw [flip]
  dsimp only
  rw [cells]
  rfl

end

/-! ## The healing of a table word -/

theorem State.heal_eq (u : State) (w : Nat) (bad : List (Nat × Bool)) (h : bad = u.mgt.badTab.filter (fun b =>
    !(Config.tableIndex b.1 b.2 == w && u.banksEqual (unitAt b.1) && !u.mgt.badTab.contains (b.1, !b.2)))) :
    u.heal w = if bad = u.mgt.badTab then u else (u.modMgt (fun m => { m with badTab := bad })).sramPut w 1 := by
  unfold State.heal
  dsimp only
  by_cases any_ : u.mgt.badTab.any (fun b =>
      Config.tableIndex b.1 b.2 == w && u.banksEqual (unitAt b.1) && !u.mgt.badTab.contains (b.1, !b.2)) = true
  · have differ : bad ≠ u.mgt.badTab := by
      intro same
      rw [h, List.filter_eq_self] at same
      obtain ⟨b, member, ok⟩ := List.any_eq_true.mp any_
      have no := same b member
      rw [ok] at no
      exact absurd no (by decide)
    rw [if_pos any_, if_neg differ, h]
    rfl
  · have same : bad = u.mgt.badTab := by
      rw [h, List.filter_eq_self]
      intro b member
      have no := mt (fun ok => List.any_eq_true.mpr ⟨b, member, ok⟩) any_
      rw [eq_false_of_ne_true no]
      rfl
    rw [if_neg any_, if_pos same]

/-! ## The sessions at a window's end -/

section
variable (s : State)

theorem State.sramUeHit_evq (w k : Nat) : EvqOnly s (s.sramUeHit w k) := by
  unfold State.sramUeHit
  exact ((EvqOnly.refl s).mem _).trans (State.postAll_evq _ _)

theorem State.spoilPort_evq (w p : Nat) : EvqOnly s (s.spoilPort w p) := .of_rest rfl rfl fun _ h => h

theorem State.spoilTab_evq (w : Nat) : EvqOnly s (s.spoilTab w) := .of_rest rfl rfl fun _ h => h

theorem State.spoilStore_evq (w : Nat) : EvqOnly s (s.spoilStore w) := .of_rest rfl rfl fun _ h => h

theorem State.modSafe_evq (f : Safe → Safe) : EvqOnly s (s.modSafe f) := .of_rest rfl rfl fun _ h => h

theorem State.spoil_evq (w : Nat) : EvqOnly s (s.spoil w) := by
  have spoilt := ((EvqOnly.each (fun u p => u.spoilPort_evq w p) (List.range 64) s).trans (State.spoilTab_evq _ w)).trans
    (State.spoilStore_evq _ w)
  unfold State.spoil
  dsimp only
  split
  · exact (spoilt.trans (State.sramUeHit_evq _ w _)).trans (State.modSafe_evq _ _)
  · exact spoilt

theorem State.sramPut_evq (w n : Nat) : EvqOnly s (s.sramPut w n) := by
  unfold State.sramPut
  exact (s.sramWrite_evq w n).trans (.each State.spoil_evq _ _)

theorem State.sramPut_open (w n k : Nat) : (s.sramPut w n).isOpen k = s.isOpen k := by
  unfold State.isOpen
  rw [(s.sramPut_evq w n).st k]

end

/-! ## Engines' tests and windows of corrected errors -/

section
variable {u : State} {g : Fin 16}

theorem State.dictTest_due (idle : ∀ i : Fin 16, (vget u.eng i).testing = none) (in_ : (vget u.eng g).out = false)
    (free : (vget u.eng g).owner = none)
    (due : u.due (vget u.eng g).dictAt (u.rf sdCfgAddr 31 24 * 3600 * 1000 * qMs) = true) :
    u.dictTest g = u.modEng g (fun x => { x with out := true, testing := some u.now, dictAt := u.now }) := by
  have quiet : (List.range 16).any (fun i => (vget u.eng i).testing.isSome) = false := by
    rw [List.any_eq_false]
    intro i hi
    have := idle ⟨i, List.mem_range.mp hi⟩
    simp [show (vget u.eng i).testing = none from this]
  exact if_neg (by rw [quiet, in_, free, due]; decide)

theorem State.dictDone_pass (testing : (vget u.eng g).testing.isSome = true) :
    u.dictDone g true = u.modEng g (fun x => { x with out := false, testing := none }) := by
  refine (if_neg ?_).trans (if_pos rfl)
  rw [Option.isNone_iff_eq_none]
  exact fun none_ => by simp [none_] at testing

theorem State.dictDone_fail (testing : (vget u.eng g).testing.isSome = true) :
    Posts (u.modEng g (fun x => { x with testing := none })) (u.dictDone g false) := by
  unfold State.dictDone
  rw [if_neg (by rw [Option.isNone_iff_eq_none]; exact fun none_ => by simp [none_] at testing), if_neg (by decide)]
  exact State.postAll_posts _ _

theorem State.eccWindowEnd_sram {k : Nat} {t : Nat} (since : (vget u.mem.wSec k).since = some t) (due : u.due t qMs = true) :
    u.eccWindowEnd true k = (u.modMem (fun m => { m with wSec := vset m.wSec k {} })).when ((vget u.mem.wSec k).more != 0)
      (fun s => s.postAll (s.ev 2 0x0B01 k none (wd (vget u.mem.wSec k).more) 0x400)) := by
  unfold State.eccWindowEnd
  dsimp only
  rw [if_pos rfl, since]
  dsimp only
  rw [if_neg (by rw [due]; decide)]
  rfl

theorem State.eccWindowEnd_dram {k : Nat} {t : Nat} (since : (vget u.mem.ch k).wCe.since = some t) (due : u.due t qMs = true) :
    u.eccWindowEnd false k = (u.modCh k (fun c => { c with wCe := {} })).when ((vget u.mem.ch k).wCe.more != 0)
      (fun s => s.postAll (s.ev 2 0x0B03 k none (wd (vget u.mem.ch k).wCe.more) 0x400)) := by
  unfold State.eccWindowEnd
  dsimp only
  rw [if_neg (by decide), since]
  dsimp only
  rw [if_neg (by rw [due]; decide)]
  rfl

theorem State.when_some (v : State) (more : Nat) (f : State → State) : v.when (more != 0) f = if more = 0 then v else f v := by
  unfold State.when
  by_cases e : more = 0
  · rw [if_pos e, if_neg (by simp [e])]
  · rw [if_neg e, if_pos (by simp [e])]

end

end Sys2Proof.Machine
end

section
/-! The in-service tests of the SRAM (13 R403, R405-R414, R417) -/
namespace Sys2Proof.Machine
open Sys2Proof

theorem bits_single (w : Word) (i : Nat) : bits w i i = if bit w i then 1 else 0 := by
  have one : i + 1 - i = 1 := by omega
  unfold bits bitsN bit
  rw [one, Nat.shiftRight_eq_div_pow, Nat.pow_one, ← Nat.toNat_testBit]
  cases w.toNat.testBit i <;> rfl

theorem bit_of_bits {w : Word} {i : Nat} (on : bits w i i = 1) : bit w i = true := by
  rw [bits_single] at on
  refine Decidable.byContradiction fun off => ?_
  rw [if_neg off] at on
  exact absurd on (by decide)

theorem bit_of_bits_zero {w : Word} {i : Nat} (off : bits w i i = 0) : bit w i = false := by
  rw [bits_single] at off
  refine Decidable.byContradiction fun on => ?_
  rw [if_pos (by simpa using on)] at off
  exact absurd off (by decide)

/-! ## A failure of a window that serves no repair -/

/-- What the tests hold after a failure, whatever AUTOREP does. -/
def State.testsFailed (u : State) (word b el : Nat) (repaired : Bool) : Tests :=
  { u.tests with
    win := none, fails := satAdd 16 u.mem.fails 1,
    bistRec := bistWord word b el u.checkerPass (bit (u.reg sdCfgAddr) 1) repaired }

section
variable {u : State} {word b el : Nat}

theorem State.failRecorded_manual (off : bit (u.reg sdCfgAddr) 1 = false) :
    (u.failRecorded word b el).tests = u.testsFailed word b el false := by
  rw [State.failRecorded_tests, off, State.rowTried, if_neg (by decide), State.failNoted_tests, State.testsFailed, off]

theorem State.failRecorded_full (on : bit (u.reg sdCfgAddr) 1 = true) (full : 4 ≤ u.sparesUsed word) :
    (u.failRecorded word b el).tests = u.testsFailed word b el false := by
  obtain ⟨unrepaired, same⟩ := State.repairRow_full (u := u.failNoted word b) (word := word) (by rwa [State.failNoted_spares])
  rw [State.failRecorded_tests, on, State.rowTried, if_pos rfl, unrepaired, same, State.failNoted_tests, State.testsFailed, on]

theorem State.failRecorded_free (on : bit (u.reg sdCfgAddr) 1 = true) (room : u.sparesUsed word < 4) :
    (u.failRecorded word b el).tests = { u.testsFailed word b el true with
      rows := SMap.put u.mem.rows (rowKey word) (u.sparesUsed word),
      soft := if (SMap.find u.mem.rows (rowKey word)).isSome then u.mem.soft else u.mem.soft + 1 } := by
  obtain ⟨repaired, same⟩ := State.repairRow_free (u := u.failNoted word b) (word := word) (by rwa [State.failNoted_spares])
  have noted := u.failNoted_tests word b
  have rows : (u.failNoted word b).mem.rows = u.mem.rows := congrArg Tests.rows noted
  have soft : (u.failNoted word b).mem.soft = u.mem.soft := congrArg Tests.soft noted
  rw [State.failRecorded_tests, on, State.rowTried, if_pos rfl, repaired, same, noted, rows, soft, State.failNoted_spares,
    State.testsFailed, on]

end

theorem State.passes_tests (s : State) (p : Nat) : (s.modMem (fun m => { m with passes := p })).tests = s.tests := rfl

theorem State.sheepdogEnd_unserved {u v : State} {f : Option (Nat × Nat × Nat)} (ends : u.windowEnd f = (v, none)) :
    u.sheepdogEnd f = v := by
  unfold State.sheepdogEnd
  rw [ends]

/-- The tests after a failure that ends a window without a repair. -/
theorem State.sheepdogEnd_fail {u : State} {w : TestWin} (win : u.mem.win = some w) (due : u.due w.since (1552 * qTick) = true)
    (serves : w.repair = none) (x b el : Nat) :
    (u.sheepdogEnd (some (x, b, el))).tests = (u.failRecorded (512 * w.slice + x % 512) b el).tests := by
  obtain ⟨p, ends⟩ := State.windowEnd_fail win due serves x b el
  rw [State.sheepdogEnd_unserved ends, State.sramPut_tests, State.passes_tests]

section
variable {u t : State} {word b el : Nat} (tests : t.tests = (u.failRecorded word b el).tests)
include tests

/-- What a failure leaves whatever AUTOREP does. -/
theorem failure_counted : t.mem.win = none ∧ t.mem.fails = satAdd 16 u.mem.fails 1 ∧
    bits t.mem.bistRec 23 0 = word % 2 ^ 24 := by
  have common (repaired : Bool) (rows : SMap Nat) (soft : Nat)
      (same : t.tests = { u.testsFailed word b el repaired with rows := rows, soft := soft }) :
      t.mem.win = none ∧ t.mem.fails = satAdd 16 u.mem.fails 1 ∧ bits t.mem.bistRec 23 0 = word % 2 ^ 24 := by
    have recorded : t.mem.bistRec = bistWord word b el u.checkerPass (bit (u.reg sdCfgAddr) 1) repaired := congrArg Tests.bistRec same
    exact ⟨congrArg Tests.win same, congrArg Tests.fails same, by rw [recorded, bistWord_word]⟩
  cases auto : bit (u.reg sdCfgAddr) 1
  · exact common false u.mem.rows u.mem.soft (tests.trans (State.failRecorded_manual auto))
  rcases Nat.lt_or_ge (u.sparesUsed word) 4 with room | full
  · exact common true _ _ (tests.trans (State.failRecorded_free auto room))
  · exact common false u.mem.rows u.mem.soft (tests.trans (State.failRecorded_full auto full))

theorem failure_manual (off : bit (u.reg sdCfgAddr) 1 = false) : bits t.mem.bistRec 37 36 = 3 ∧ t.mem.rows = u.mem.rows := by
  rw [State.failRecorded_manual off] at tests
  have recorded : t.mem.bistRec = bistWord word b el u.checkerPass (bit (u.reg sdCfgAddr) 1) false := congrArg Tests.bistRec tests
  exact ⟨by rw [recorded, bistWord_outcome, off]; rfl, congrArg Tests.rows tests⟩

variable (on : bit (u.reg sdCfgAddr) 1 = true)
include on

theorem failure_full (full : 4 ≤ u.sparesUsed word) : bits t.mem.bistRec 37 36 = 2 ∧ t.mem.rows = u.mem.rows := by
  rw [State.failRecorded_full on full] at tests
  have recorded : t.mem.bistRec = bistWord word b el u.checkerPass (bit (u.reg sdCfgAddr) 1) false := congrArg Tests.bistRec tests
  exact ⟨by rw [recorded, bistWord_outcome, on]; rfl, congrArg Tests.rows tests⟩

theorem failure_repaired (room : u.sparesUsed word < 4) : bits t.mem.bistRec 37 36 = 1 ∧
    SMap.find t.mem.rows (rowKey word) = some (u.sparesUsed word) ∧
    (SMap.find u.mem.rows (rowKey word) = none → t.mem.soft = u.mem.soft + 1) := by
  rw [State.failRecorded_free on room] at tests
  have recorded : t.mem.bistRec = bistWord word b el u.checkerPass (bit (u.reg sdCfgAddr) 1) true := congrArg Tests.bistRec tests
  have rows : t.mem.rows = SMap.put u.mem.rows (rowKey word) (u.sparesUsed word) := congrArg Tests.rows tests
  have soft : t.mem.soft = if (SMap.find u.mem.rows (rowKey word)).isSome then u.mem.soft else u.mem.soft + 1 :=
    congrArg Tests.soft tests
  refine ⟨by rw [recorded, bistWord_outcome, on]; rfl, by rw [rows, SMap.find_put_same], fun fresh => ?_⟩
  rw [soft, fresh]
  rfl

end

/-- A window shut after a retest. -/
def State.retested (u : State) (p : Nat) : State :=
  u.modMem (fun m => { m with win := none, repairs := m.repairs.tail, passes := p })

theorem State.sheepdogEnd_retest {u : State} {w : TestWin} {r : Repair} (win : u.mem.win = some w)
    (due : u.due w.since (1552 * qTick) = true) (serves : w.repair = some r) (retest : r.op = 2) (open_ : u.isOpen r.session = true) :
    ∃ v : State, u.sheepdogEnd none = v.reply r.session 0x0404 r.msg 0 [] true ∧ v.mem.win = none ∧
      v.mem.repairs = u.mem.repairs.tail ∧ v.mem.rows = u.mem.rows := by
  obtain ⟨p, ends⟩ := State.windowEnd_retest win due serves retest
  have tests := State.sramPut_tests (u.retested p) (512 * w.slice) 512
  have still : ((u.retested p).sramPut (512 * w.slice) 512).isOpen r.session = true := by
    rw [State.sramPut_open]
    exact open_
  refine ⟨(u.retested p).sramPut (512 * w.slice) 512, ?_, congrArg Tests.win tests, congrArg Tests.repairs tests,
    congrArg Tests.rows tests⟩
  unfold State.sheepdogEnd
  rw [ends]
  exact if_pos still

/-- Settles O54: windows, repairs and self-tests change the records of the tests alone; the restore of a slice without new
defects clears what was wrong in it. -/
theorem sramTestedAndRepaired : Obligations.SramTestedAndRepaired := by
  unfold Obligations.SramTestedAndRepaired
  refine ⟨fun e s u hu => ⟨fun w => ?_, fun w bad hbad => ?_, fun v a n idle sound => State.sramPut_clean idle sound,
    fun shut ready due => ⟨fun r pending => ?_, fun none_ on => ?_, fun none_ off => ?_⟩,
    fun w win => ⟨fun early f => ?_, fun due serves => ⟨?_, fun x b el word hword => ?_⟩, fun r due serves retest open_ => ?_⟩⟩,
    fun e s u g hu => ⟨fun idle in_ free due => ?_, fun testing => ⟨?_, ?_⟩, fun w n v ready writer => ⟨fun other => ?_, fun steward => ?_⟩,
      fun k w t hw since due v hv => ?_, fun k w t hw since due v hv => ?_⟩⟩
  · rw [exec_eccWriteback, execEccWriteback, ← hu]
    rfl
  · rw [exec_tableHeal, execTableHeal, ← hu, State.heal_eq u w.toNat bad hbad]
  · have tests := u.sheepdogStart_tests
    rw [State.sheepdog_repair shut ready due pending, State.windowSave_tests] at tests
    rw [exec_sheepdogWindow, execSheepdogWindow, ← hu]
    exact ⟨_, rfl, congrArg Tests.win tests, congrArg Tests.slice tests, congrArg Tests.lastWin tests,
      congrArg Tests.turn tests, congrArg Tests.repairs tests⟩
  · have tests := u.sheepdogStart_tests
    rw [State.sheepdog_turn shut ready due none_ (bit_of_bits on), State.windowSave_tests] at tests
    rw [exec_sheepdogWindow, execSheepdogWindow, ← hu]
    exact ⟨_, rfl, congrArg Tests.win tests, congrArg Tests.turn tests, congrArg Tests.lastWin tests,
      congrArg Tests.dram tests, congrArg Tests.pstore tests⟩
  · rw [exec_sheepdogWindow, execSheepdogWindow, ← hu,
      State.sheepdogStart_off shut ready due none_ (bit_of_bits_zero off)]
  · rw [exec_sheepdogWindowEnd, execSheepdogWindowEnd, ← hu, State.sheepdogEnd_unserved (State.windowEnd_early win early _)]
  · rw [exec_sheepdogWindowEnd, execSheepdogWindowEnd, ← hu]
    exact congrArg Host.Outcome.next (State.sheepdogEnd_unserved (State.windowEnd_pass win due serves))
  · subst hword
    have tests := State.sheepdogEnd_fail win due serves x.toNat b el
    obtain ⟨shut, fails, here⟩ := failure_counted tests
    rw [exec_sheepdogWindowEnd, execSheepdogWindowEnd, ← hu]
    exact ⟨_, rfl, shut, fails, here, fun off => failure_manual tests (bit_of_bits_zero off),
      fun on full => failure_full tests (bit_of_bits on) full, fun on room => failure_repaired tests (bit_of_bits on) room⟩
  · obtain ⟨v, closed, shut, repairs, rows⟩ := State.sheepdogEnd_retest win due serves retest open_
    rw [exec_sheepdogWindowEnd, execSheepdogWindowEnd, ← hu]
    exact ⟨v, congrArg Host.Outcome.next closed, shut, repairs, rows⟩
  · rw [exec_dictTest, execDictTest, ← hu, State.dictTest_due idle in_ free due]
  · rw [exec_dictTestDone, execDictTestDone, ← hu, State.dictDone_pass testing]
  · have posts := State.dictDone_fail testing
    rw [exec_dictTestDone, execDictTestDone, ← hu]
    refine ⟨_, rfl, ?_⟩
    have here : vget (u.dictDone g false).eng g = { vget u.eng g with testing := none } := by
      rw [posts.eng]
      exact vget_vmod_fin u.eng g _
    rw [here]
    refine ⟨rfl, rfl, fun i other => ?_⟩
    rw [posts.eng]
    exact vget_vmod_ne _ _ _ _ (fun h => other (Fin.ext h.symm))
  · rw [exec_flipArm, execFlipArm, ← hu, State.asWriter_of_ready ready writer]
    exact congrArg Host.Outcome.next (congrArg Prod.fst (if_neg (by rw [other]; decide)))
  · rw [exec_flipArm, execFlipArm, ← hu, State.asWriter_of_ready ready writer]
    exact congrArg Host.Outcome.next (congrArg Prod.fst (if_pos steward))
  · subst hw hv
    rw [exec_eccWindowEnd, execEccWindowEnd, ← hu, State.eccWindowEnd_sram since due, State.when_some]
  · subst hw hv
    rw [exec_eccWindowEnd, execEccWindowEnd, ← hu]
    exact congrArg Host.Outcome.next ((State.eccWindowEnd_dram since due).trans (State.when_some _ _ _))

end Sys2Proof.Machine
end

section
/-! PTP and device time (14 R421-R431; 18 R437) -/
namespace Sys2Proof.Machine
open Sys2Proof

/-! ## The port's states -/

theorem State.timPost_posts (s : State) (code : Nat) : Posts s (s.timPost code) := s.postAll_posts _

/-- The clock while HOLDOVER begins. -/
def Tim.heldOver (t : Tim) (now : Nat) : Tim :=
  { t with st := .holdover, locks := 0, holds := satAdd 16 t.holds 1, holdSince := some now }

theorem State.holdover_slave {s : State} (st : s.tim.st = .slave) : s.holdover.tim = s.tim.heldOver s.now := by
  have enters : s.holdover = (s.modTim (fun t => t.heldOver s.now)).timPost 0x0C03 := if_pos (by rw [st]; rfl)
  rw [enters]
  exact (State.timPost_posts _ _).tim

section
variable {s : State} {o : Int}

/-- The clock while an offset is judged: HOLDOVER has ended. -/
def State.judged (s : State) : State := s.when (s.tim.st == .holdover) State.holdEnd

theorem State.judged_kept (s : State) : s.judged.tim.t = s.tim.t ∧ s.judged.tim.offset = s.tim.offset ∧
    s.judged.tim.lastSync = s.tim.lastSync ∧ s.judged.tim.integ = s.tim.integ ∧ s.judged.tim.rateNext = s.tim.rateNext ∧
    s.judged.tim.rateAt = s.tim.rateAt ∧ s.judged.mgt = s.mgt ∧ (s.tim.st = .slave → s.judged = s) := by
  unfold State.judged State.when
  split
  · next held => exact ⟨rfl, rfl, rfl, rfl, rfl, rfl, rfl, fun st => by rw [st] at held; exact absurd held (by decide)⟩
  · exact ⟨rfl, rfl, rfl, rfl, rfl, rfl, rfl, fun _ => rfl⟩

theorem State.judged_lockth (s : State) : s.judged.rf servoAddr 39 24 = s.rf servoAddr 39 24 := by
  obtain ⟨-, -, -, -, -, -, mgt, -⟩ := s.judged_kept
  unfold State.rf State.reg
  rw [mgt]

theorem State.lockStep_far (out : s.rf servoAddr 39 24 * 65536 < o.natAbs) :
    s.lockStep o = s.judged.modTim (fun t => { t with locks := 0, st := .uncalibrated }) := by
  rw [← State.judged_lockth] at out
  have outside : (!decide (o.natAbs ≤ s.judged.rf servoAddr 39 24 * 65536)) = true := by
    rw [decide_eq_false (Nat.not_le.mpr out)]
    rfl
  exact if_pos outside

theorem State.lockStep_near (inside : o.natAbs ≤ s.rf servoAddr 39 24 * 65536) : s.lockStep o =
    if s.judged.tim.st == .uncalibrated && 16 ≤ s.judged.tim.locks + 1 then
      (s.judged.modTim (fun t => { t with locks := s.judged.tim.locks + 1, st := .slave })).timPost 0x0C02
    else s.judged.modTim (fun t => { t with locks := min 16 (s.judged.tim.locks + 1) }) := by
  rw [← State.judged_lockth] at inside
  have within_ : decide (o.natAbs ≤ s.judged.rf servoAddr 39 24 * 65536) = true := decide_eq_true inside
  have unfolded : s.lockStep o =
      if !decide (o.natAbs ≤ s.judged.rf servoAddr 39 24 * 65536) then
        s.judged.modTim (fun t => { t with locks := 0, st := .uncalibrated })
      else if s.judged.tim.st == .uncalibrated &&
          16 ≤ (if decide (o.natAbs ≤ s.judged.rf servoAddr 39 24 * 65536) then s.judged.tim.locks + 1 else 0) then
        (s.judged.modTim (fun t => { t with
          locks := if decide (o.natAbs ≤ s.judged.rf servoAddr 39 24 * 65536) then s.judged.tim.locks + 1 else 0, st := .slave })).timPost
            0x0C02
      else s.judged.modTim (fun t => { t with
        locks := min 16 (if decide (o.natAbs ≤ s.judged.rf servoAddr 39 24 * 65536) then s.judged.tim.locks + 1 else 0) }) := rfl
  rw [unfolded, within_]
  rfl

/-- An offset changes the port's state and the count of locks alone. -/
theorem State.lockStep_tim (s : State) (o : Int) : ∃ (st : PtpSt) (k : Nat), (s.lockStep o).tim = { s.judged.tim with st := st, locks := k } := by
  rcases Nat.lt_or_ge (s.rf servoAddr 39 24 * 65536) o.natAbs with out | inside
  · rw [State.lockStep_far out]
    exact ⟨_, _, rfl⟩
  · rw [State.lockStep_near inside]
    split
    · exact ⟨_, _, (State.timPost_posts _ _).tim⟩
    · exact ⟨_, _, rfl⟩

theorem State.lockStep_slave (inside : o.natAbs ≤ s.rf servoAddr 39 24 * 65536) (st : s.tim.st = .slave) :
    (s.lockStep o).tim.st = .slave := by
  obtain ⟨-, -, -, -, -, -, -, same⟩ := s.judged_kept
  rw [State.lockStep_near inside, same st, if_neg (by simp [st])]
  exact st

end

/-! ## The servo -/

section
variable {s : State} {o k : Int}

/-- The clock stepped back by the offset. -/
def Tim.steppedBack (t : Tim) (o : Int) : Tim :=
  { t with t := ((t.t : Int) + -o * uFrac).toNat, steps := satAdd 16 t.steps 1 }

theorem State.stepTime_tim (s : State) (o : Int) : (s.stepTime (-o) none).tim = s.tim.steppedBack o := by
  unfold State.stepTime
  dsimp only
  exact (State.postAll_posts _ _).tim

/-- A new rate on its way. -/
def Tim.newRate (t : Tim) (r : Int) (at_ : Nat) (limit : Option Nat) : Tim :=
  { t with rateNext := max (-rateMax) (min rateMax r), rateAt := at_, rateLimitAt := limit }

theorem State.setRate_tim (s : State) (r : Int) (force : Bool) : ∃ limit : Option Nat,
    (s.setRate r force).tim = s.tim.newRate r (s.ticks + 8) limit := by
  unfold State.setRate
  dsimp only
  generalize (_ && _ : Bool) = posted
  cases posted
  · exact ⟨_, rfl⟩
  · exact ⟨_, (State.timPost_posts _ _).tim⟩

/-- STEPTH in 2^-16 ns. -/
theorem steps_beyond {n m : Nat} (h : n * 65536000 < m) : n * 1000 * 65536 < m := by
  rw [Nat.mul_assoc]
  exact h

theorem steers_within {n m : Nat} (h : m ≤ n * 65536000) : ¬ n * 1000 * 65536 < m := by
  rw [Nat.mul_assoc]
  exact Nat.not_lt.mpr h

theorem State.servo_far (far : s.rf servoAddr 23 8 * 65536000 < o.natAbs) (noback : bit (s.reg servoAddr) 40 = false) :
    (s.servo o k).tim = { s.tim.steppedBack o with integ := 0 } := by
  have beyond : decide (bits (s.reg servoAddr) 23 8 * 1000 * 65536 < o.natAbs) = true := decide_eq_true (steps_beyond far)
  unfold State.servo
  dsimp only
  rw [beyond, noback, if_pos (by rfl)]
  exact congrArg (fun t : Tim => { t with integ := 0 }) (s.stepTime_tim o)

theorem State.servo_near (near : o.natAbs ≤ s.rf servoAddr 23 8 * 65536000) : ∃ limit : Option Nat, (s.servo o k).tim =
    Tim.newRate { s.tim with integ := s.tim.integ + o * 2 ^ (15 - s.rf servoAddr 7 4) }
      (servoRate (o * 2 ^ (15 - s.rf servoAddr 3 0) + (s.tim.integ + o * 2 ^ (15 - s.rf servoAddr 7 4))) k) (s.ticks + 8) limit := by
  have within_ : decide (bits (s.reg servoAddr) 23 8 * 1000 * 65536 < o.natAbs) = false := decide_eq_false (steers_within near)
  unfold State.servo
  dsimp only
  rw [within_, if_neg (by rw [Bool.false_and]; decide), if_neg (by decide)]
  exact State.setRate_tim _ _ false

theorem State.setRate_mgt (s : State) (r : Int) (force : Bool) : (s.setRate r force).mgt = s.mgt := by
  unfold State.setRate
  dsimp only
  generalize (_ && _ : Bool) = posted
  cases posted
  · rfl
  · exact (State.timPost_posts _ _).mgt

theorem State.stepTime_mgt (s : State) (d : Int) : (s.stepTime d none).mgt = s.mgt := by
  unfold State.stepTime
  dsimp only
  exact (State.postAll_posts _ _).mgt

theorem State.servo_mgt (s : State) (o k : Int) : (s.servo o k).mgt = s.mgt := by
  unfold State.servo
  dsimp only
  split
  · exact s.stepTime_mgt (-o)
  split
  · exact State.setRate_mgt _ _ true
  · exact State.setRate_mgt _ _ false

/-- The servo leaves the offset, the time of the last Sync and the port's state. -/
theorem State.servo_kept (s : State) (o k : Int) : (s.servo o k).tim.offset = s.tim.offset ∧
    (s.servo o k).tim.lastSync = s.tim.lastSync ∧ (s.servo o k).tim.st = s.tim.st := by
  have rated (i : Int) (r : Int) (force : Bool) : ((s.modTim (fun t => { t with integ := i })).setRate r force).tim.offset = s.tim.offset ∧
      ((s.modTim (fun t => { t with integ := i })).setRate r force).tim.lastSync = s.tim.lastSync ∧
      ((s.modTim (fun t => { t with integ := i })).setRate r force).tim.st = s.tim.st := by
    obtain ⟨limit, tim⟩ := (s.modTim (fun t => { t with integ := i })).setRate_tim r force
    rw [tim]
    exact ⟨rfl, rfl, rfl⟩
  unfold State.servo
  dsimp only
  split
  · have stepped := s.stepTime_tim o
    have offset := congrArg Tim.offset stepped
    have sync := congrArg Tim.lastSync stepped
    have st := congrArg Tim.st stepped
    exact ⟨offset, sync, st⟩
  split
  · exact rated _ _ true
  · exact rated _ _ false

end

/-! ## Messages of the PTP port -/

section
variable {u : State} {q : Fin 8} {d : Fin 256} (on : u.ptpEN = true) (port : u.ptpPORT = q) (ready : u.phase = .ready)
  (domain : d.val = u.rf ptpAddr 15 8)
include on port ready domain

theorem State.ptpMsg_here (f : State → State) : u.ptpMsg q d f = f u := by
  have here : u.ptpHere q = true := by simp [State.ptpHere, on, port, ready]
  unfold State.ptpMsg
  rw [here, if_neg (by decide), if_neg (fun other => other domain)]

theorem State.ptpSync_other {i : Word} {pn : Nat} {k o ing c : Int}
    (other : ∀ p : PtpMaster, u.tim.parent = some p → p.ident ≠ i ∨ p.port ≠ pn) : u.ptpSync q d i pn k o ing c = u := by
  unfold State.ptpSync
  rw [State.ptpMsg_here on port ready domain]
  split
  · rfl
  · next p parent => exact if_pos (by simpa using other p parent)

/-- The state in which a Sync of the parent is counted. -/
def State.syncCounted (u : State) (k : Int) : State :=
  u.modTim (fun t => { t with syncs := satAdd 16 t.syncs 1, lastSync := u.now, syncInt := k, oddSync := k < -7 || 1 < k })

section
variable {i : Word} {pn : Nat} {k o ing c : Int} {p : PtpMaster} (parent : u.tim.parent = some p) (ident : p.ident = i)
  (number : p.port = pn)
include parent ident number

theorem State.ptpSync_unmeasured (unmeasured : u.tim.mpdValid = false) : u.ptpSync q d i pn k o ing c = u.syncCounted k := by
  unfold State.ptpSync
  rw [State.ptpMsg_here on port ready domain, parent]
  dsimp only
  rw [if_neg (by simp [ident, number])]
  exact if_pos (congrArg not unmeasured)

theorem State.ptpSync_measured (measured : u.tim.mpdValid = true) {x : Int}
    (hx : x = ing + u.latIn - o - c - u.tim.mpd - u.asym) : u.ptpSync q d i pn k o ing c =
      (((u.syncCounted k).modTim (fun t => { t with offset := x })).servo x k).lockStep x := by
  unfold State.ptpSync
  rw [State.ptpMsg_here on port ready domain, parent, hx]
  dsimp only
  rw [if_neg (by simp [ident, number])]
  exact if_neg (fun no => absurd ((congrArg not measured).symm.trans no) (by decide))

end

end

end Sys2Proof.Machine
end

section
/-! The time base (14 R421-R431; 18 R437) -/
namespace Sys2Proof.Machine
open Sys2Proof

/-! ## A Sync of the parent -/

section
variable {u : State} {x k : Int}

/-- The state in which the servo meets an offset. -/
def State.offsetKnown (u : State) (x k : Int) : State := (u.syncCounted k).modTim (fun t => { t with offset := x })

/-- The outcome of a Sync of the parent. -/
def State.synced (u : State) (x k : Int) : State := ((u.offsetKnown x k).servo x k).lockStep x

theorem State.synced_lockth (u : State) (x k : Int) :
    ((u.offsetKnown x k).servo x k).rf servoAddr 39 24 = u.rf servoAddr 39 24 := by
  unfold State.rf State.reg
  rw [State.servo_mgt]
  rfl

theorem State.synced_offset (u : State) (x k : Int) : (u.synced x k).tim.offset = x ∧ (u.synced x k).tim.lastSync = u.now := by
  obtain ⟨st, locks, tim⟩ := ((u.offsetKnown x k).servo x k).lockStep_tim x
  obtain ⟨-, offset, sync, -⟩ := ((u.offsetKnown x k).servo x k).judged_kept
  obtain ⟨offset', sync', -⟩ := (u.offsetKnown x k).servo_kept x k
  unfold State.synced
  rw [tim]
  exact ⟨offset.trans offset', sync.trans sync'⟩

theorem State.synced_slave (inside : x.natAbs ≤ u.rf servoAddr 39 24 * 65536) (st : u.tim.st = .slave) :
    (u.synced x k).tim.st = .slave := by
  obtain ⟨-, -, same⟩ := (u.offsetKnown x k).servo_kept x k
  exact State.lockStep_slave (by rwa [State.synced_lockth]) (same.trans st)

theorem State.synced_unlocked (out : u.rf servoAddr 39 24 * 65536 < x.natAbs) :
    (u.synced x k).tim.st = .uncalibrated ∧ (u.synced x k).tim.locks = 0 := by
  unfold State.synced
  rw [State.lockStep_far (by rwa [State.synced_lockth])]
  exact ⟨rfl, rfl⟩

theorem State.synced_steps (far : u.rf servoAddr 23 8 * 65536000 < x.natAbs) (noback : bit (u.reg servoAddr) 40 = false) :
    (u.synced x k).tim.t = ((u.tim.t : Int) - x * uFrac).toNat ∧ (u.synced x k).tim.integ = 0 := by
  have servo : ((u.offsetKnown x k).servo x k).tim = { (u.offsetKnown x k).tim.steppedBack x with integ := 0 } :=
    State.servo_far far noback
  obtain ⟨st, locks, tim⟩ := ((u.offsetKnown x k).servo x k).lockStep_tim x
  obtain ⟨time, -, -, integ, -⟩ := ((u.offsetKnown x k).servo x k).judged_kept
  unfold State.synced
  rw [tim]
  dsimp only
  rw [time, integ, servo]
  refine ⟨congrArg Int.toNat ?_, rfl⟩
  rw [Int.sub_eq_add_neg, ← Int.neg_mul]
  rfl

theorem State.synced_steers (near : x.natAbs ≤ u.rf servoAddr 23 8 * 65536000) :
    (u.synced x k).tim.t = u.tim.t ∧ (u.synced x k).tim.rateAt = u.ticks + 8 ∧
    (u.synced x k).tim.rateNext = max (-rateMax) (min rateMax (servoRate (x * 2 ^ (15 - u.rf servoAddr 3 0) +
      (u.tim.integ + x * 2 ^ (15 - u.rf servoAddr 7 4))) k)) := by
  obtain ⟨limit, servo⟩ := State.servo_near (s := u.offsetKnown x k) (o := x) (k := k) near
  obtain ⟨st, locks, tim⟩ := ((u.offsetKnown x k).servo x k).lockStep_tim x
  obtain ⟨time, -, -, -, next_, at_, -⟩ := ((u.offsetKnown x k).servo x k).judged_kept
  unfold State.synced
  rw [tim]
  dsimp only
  rw [time, next_, at_, servo]
  exact ⟨rfl, rfl, rfl⟩

end

/-! ## The best master -/

section
variable {i : Word} {pn : Nat} {prio : List Nat} {st : Nat} {k : Int}

/-- A master heard for the second time. -/
def heardTwice (i : Word) (pn : Nat) (prio : List Nat) (st : Nat) (now : Nat) (k : Int) : PtpMaster :=
  { ident := i, port := pn, prio := prio, steps := st, heard := 2, seenAt := now, interval := k }

theorem bestMaster_one (now : Nat) : bestMaster [heardTwice i pn prio st now k] = some (heardTwice i pn prio st now k) := rfl

theorem State.selectMaster_only {w : State} {now : Nat} (listening : w.tim.st = .listening)
    (only : w.tim.masters = [heardTwice i pn prio st now k]) : w.selectMaster =
      (w.newParent (heardTwice i pn prio st now k)).modTim (fun t => { t with st := .uncalibrated, locks := 0 }) := by
  unfold State.selectMaster
  rw [only, bestMaster_one]
  exact if_pos (by rw [listening]; rfl)

/-- The masters once the one heard before is heard again. -/
def State.heardAgain (u : State) (i : Word) (pn : Nat) (prio : List Nat) (st : Nat) (k : Int) : State :=
  u.modTim (fun t => { t with masters := [heardTwice i pn prio st u.now k] })

/-- The state once the only master has been chosen. -/
def State.masterChosen (u : State) (i : Word) (pn : Nat) (prio : List Nat) (st : Nat) (k : Int) : State :=
  ((u.heardAgain i pn prio st k).newParent (heardTwice i pn prio st u.now k)).modTim (fun t => { t with st := .uncalibrated, locks := 0 })

end

/-! ## The other messages -/

section
variable {u : State} {q : Fin 8} {d : Fin 256} (on : u.ptpEN = true) (ready : u.phase = .ready)
include on ready

theorem State.ptpDiscard_on : u.ptpDiscard = u.modTim (fun t => { t with discards := satAdd 16 t.discards 1 }) :=
  if_pos (by rw [on, ready]; rfl)

variable (port : u.ptpPORT = q) (domain : d.val = u.rf ptpAddr 15 8)
include port domain

theorem State.ptpDelayResp_mine {sq : Nat} (t1 t2 t3 t4 : Int) (asked : u.tim.reqOut = true) (mine : sq = u.tim.reqSeq) :
    u.ptpDelayResp q d sq t1 t2 t3 t4 = u.modTim (fun t => { t with
      mpd := ((t2 - t1) + (t4 - t3) + u.latIn - u.latOut) / 2, mpdValid := true, reqOut := false }) := by
  unfold State.ptpDelayResp
  rw [State.ptpMsg_here on port ready domain]
  exact if_neg (by simp [asked, mine])

theorem State.ptpPdelayReq_peer (sq : Nat) (ing : Int) (peer : u.ptpP2P = true) : u.ptpPdelayReq q d sq ing =
    u.emit (.ptp (u.ptpTx 2 sq (cutN 64 ((u.devF : Int) + u.latOut - (ing + u.latIn))))) := by
  unfold State.ptpPdelayReq
  rw [State.ptpMsg_here on port ready domain]
  exact if_neg (by rw [peer]; decide)

theorem State.ptpPdelayReq_end (sq : Nat) (ing : Int) (ends : u.ptpP2P = false) : u.ptpPdelayReq q d sq ing =
    u.modTim (fun t => { t with discards := satAdd 16 t.discards 1 }) := by
  unfold State.ptpPdelayReq
  rw [State.ptpMsg_here on port ready domain]
  exact (if_pos (by rw [ends]; rfl)).trans (State.ptpDiscard_on on ready)

section
variable {i : Word} {pn : Nat} {prio : List Nat} {st : Nat} {k uo : Int} {ts : Bool} {m : PtpMaster}

/-- What the parent's Announce leaves. -/
def State.announced (u w : State) (k uo : Int) (ts : Bool) : State :=
  w.modTim (fun t => { t with lastAnn := u.now, annInt := k, oddAnn := k < -3 || 3 < k, utcOff := uo, ptpTs := ts })

theorem State.ptpAnnounce_qualifies (listening : u.tim.st = .listening) (only : u.tim.masters = [m]) (ident : m.ident = i)
    (number : m.port = pn) (once : m.heard = 1) (fresh : u.due m.seenAt (4 * secPow k) = true → u.now = m.seenAt + 4 * secPow k) :
    u.ptpAnnounce q d i pn prio st k uo ts = u.announced (u.masterChosen i pn prio st k) k uo ts := by
  have mine : (m.ident == i && m.port == pn) = true := by simp [ident, number]
  have in_time : (u.due m.seenAt (4 * secPow k) && decide (u.now ≠ m.seenAt + 4 * secPow k)) = false := by
    cases late : u.due m.seenAt (4 * secPow k)
    · rfl
    · simp [← fresh late]
  have again : u.modTim (fun t => { t with masters := t.masters.filter (fun x => !(x.ident == i && x.port == pn)) ++
      [heardTwice i pn prio st u.now k] }) = u.heardAgain i pn prio st k := by
    have none_left : u.tim.masters.filter (fun x => !(x.ident == i && x.port == pn)) = [] := by
      rw [only]
      exact List.filter_cons_of_neg (by rw [mine]; decide)
    exact congrArg (fun l => u.modTim (fun t => { t with masters := l ++ [heardTwice i pn prio st u.now k] })) none_left
  have select : (u.heardAgain i pn prio st k).selectMaster = u.masterChosen i pn prio st k :=
    State.selectMaster_only listening rfl
  have found : [m].find? (fun m => m.ident == i && m.port == pn) = some m := List.find?_cons_of_pos mine
  have own : ((heardTwice i pn prio st u.now k).ident == i && (heardTwice i pn prio st u.now k).port == pn) = true := by
    simp [heardTwice]
  unfold State.ptpAnnounce
  rw [State.ptpMsg_here on port ready domain, only]
  dsimp only
  rw [found]
  dsimp only
  rw [in_time, once]
  refine (congrArg (fun w : State => match w.selectMaster.tim.parent with
    | some p => if p.ident == i && p.port == pn then w.selectMaster.modTim (fun t => { t with
        lastAnn := w.selectMaster.now, annInt := k, oddAnn := k < -3 || 3 < k, utcOff := uo, ptpTs := ts }) else w.selectMaster
    | none => w.selectMaster) again).trans ?_
  rw [select]
  exact if_pos own

end

end

/-! ## Requests and timeouts -/

section
variable {u : State}

theorem State.ptpReqSend_due (on : u.ptpEN = true) (st : u.tim.st ≠ .disabled) (whom : u.ptpP2P = true ∨ u.tim.parent.isSome = true)
    (due : ∀ t : Nat, u.tim.reqAt = some t → u.due t (secPow (signedN 8 (u.rf ptpAddr 23 16))) = true) :
    u.ptpReqSend = (u.modTim (fun t => { t with reqAt := some u.now, reqSeq := (u.tim.reqSeq + 1) % 65536, reqOut := true })).emit
      (.ptp (u.ptpTx (b1 u.ptpP2P) ((u.tim.reqSeq + 1) % 65536) (cutN 80 ((u.devF : Int) + u.latOut)))) := by
  have free : (!u.ptpP2P && u.tim.parent.isNone) = false := by
    rcases whom with peer | parent
    · rw [peer]; rfl
    · cases p : u.tim.parent
      · rw [p] at parent; exact absurd parent (by decide)
      · exact Bool.and_false _
  have here : (u.tim.st == .disabled) = false := by simpa using st
  unfold State.ptpReqSend
  dsimp only
  cases asked : u.tim.reqAt with
  | none => exact if_neg (by simp [on, here, free])
  | some t => exact if_neg (by simp [on, here, free, due t asked])

theorem State.syncTimeout_due (due : u.due u.tim.lastSync (u.rf ptpAddr 31 28 * secPow u.tim.syncInt) = true)
    (alone : u.syncComes = false) : u.syncTimeout = u.holdover := if_pos (by rw [due, alone]; rfl)

theorem State.syncTimeout_sync (comes : u.syncComes = true) : u.syncTimeout = u := if_neg (by simp [comes])

theorem State.annTimeout_announce (comes : u.annComes = true) : u.annTimeout = u := if_neg (by simp [comes])

/-- The parent is no candidate any more. -/
def Tim.orphaned (t : Tim) : Tim :=
  { t with masters := t.masters.filter (fun m => match t.parent with
      | some p => !(m.ident == p.ident && m.port == p.port) | none => true) }

theorem State.annTimeout_due (due : u.due u.tim.lastAnn (u.rf ptpAddr 27 24 * secPow u.tim.annInt) = true)
    (alone : u.annComes = false) (parent : u.tim.parent.isSome = true) : u.annTimeout = (u.modTim Tim.orphaned).holdover :=
  if_pos (by rw [due, alone, parent]; rfl)

theorem Tim.orphaned_masters {t : Tim} {p : PtpMaster} (parent : t.parent = some p) :
    ∀ m ∈ t.orphaned.masters, m.ident ≠ p.ident ∨ m.port ≠ p.port := by
  intro m listed
  obtain ⟨-, other⟩ := List.mem_filter.mp listed
  rw [parent] at other
  rw [← Classical.not_and_iff_not_or_not]
  rintro ⟨ident, number⟩
  simp [ident, number] at other

end

/-- Settles O56: a Sync of the parent is judged by the servo and the lock count apart; every other message, timeout and
loss has one outcome. -/
theorem timeBase : Obligations.TimeBase := by
  intro e s u q d hu
  refine ⟨by rw [exec_nowsecRead, execNowsecRead, ← hu]; rfl, fun on port ready domain => ⟨?_, ?_, ?_, ?_, ?_, ?_⟩, ?_, ?_, ?_⟩
  · intro i pn k o ing c p parent ident number
    refine ⟨fun unmeasured => ?_, fun measured x hx => ⟨u.synced x k, ?_, ?_⟩⟩
    · rw [exec_ptpSync, execPtpSync, ← hu, State.ptpSync_unmeasured on port ready domain parent ident number unmeasured]
      rfl
    · rw [exec_ptpSync, execPtpSync, ← hu, State.ptpSync_measured on port ready domain parent ident number measured hx]
      rfl
    · obtain ⟨offset, sync⟩ := u.synced_offset x k
      exact ⟨offset, sync, State.synced_slave, State.synced_unlocked, State.synced_steps, State.synced_steers⟩
  · intro i pn k o ing c other
    rw [exec_ptpSync, execPtpSync, ← hu, State.ptpSync_other on port ready domain other]
  · intro sq t1 t2 t3 t4 asked mine
    rw [exec_ptpDelayResp, execPtpDelayResp, ← hu, State.ptpDelayResp_mine on ready port domain _ _ _ _ asked mine]
  · intro sq ing peer
    rw [exec_ptpPdelayReq, execPtpPdelayReq, ← hu, State.ptpPdelayReq_peer on ready port domain sq ing peer]
  · intro sq ing ends
    rw [exec_ptpPdelayReq, execPtpPdelayReq, ← hu, State.ptpPdelayReq_end on ready port domain sq ing ends]
  · intro i pn prio st k uo ts m listening only ident number once fresh
    refine ⟨u.announced (u.masterChosen i pn prio st k) k uo ts, ?_, ?_⟩
    · rw [exec_ptpAnnounce, execPtpAnnounce, ← hu,
        State.ptpAnnounce_qualifies on ready port domain listening only ident number once fresh]
    · exact ⟨rfl, rfl, rfl, rfl, rfl⟩
  · intro on ready
    rw [exec_ptpDiscard, execPtpDiscard, ← hu, State.ptpDiscard_on on ready]
  · rintro on st whom due k rfl
    rw [exec_ptpDelayReqSend, execPtpDelayReqSend, ← hu, State.ptpReqSend_due on st whom due]
  · intro st
    have held : u.holdover.tim = u.tim.heldOver u.now := State.holdover_slave st
    refine ⟨fun due alone => ⟨u.holdover, ?_, ?_⟩, fun comes => ?_, fun comes => ?_, fun due alone parent =>
      ⟨(u.modTim Tim.orphaned).holdover, ?_, ?_⟩, u.holdover, ?_, ?_⟩
    · rw [exec_syncTimeout, execSyncTimeout, ← hu, State.syncTimeout_due due alone]
    · rw [held]
      exact ⟨rfl, rfl, rfl, rfl⟩
    · rw [exec_syncTimeout, execSyncTimeout, ← hu, State.syncTimeout_sync comes]
    · rw [exec_announceTimeout, execAnnounceTimeout, ← hu, State.annTimeout_announce comes]
    · rw [exec_announceTimeout, execAnnounceTimeout, ← hu, State.annTimeout_due due alone parent]
    · rw [State.holdover_slave (s := u.modTim Tim.orphaned) st]
      exact ⟨rfl, fun p known => Tim.orphaned_masters known⟩
    · rw [exec_ptpLinkLoss, execPtpLinkLoss, ← hu]
    · rw [held]
      exact ⟨rfl, rfl, rfl⟩

end Sys2Proof.Machine
end

section
/-! A commit at a line of a switch-over gap can change the feeds (12 R373; 16 R461, R465) -/
namespace Sys2Proof.Machine
open Sys2Proof

/-! ## The counterexample

Both feeds of VDDC carry, a gap ends with one sample held for the open swath of sequencer 0, and session 7's sealed set puts
VDDC into STANDBY mode. The sample places a line; at its boundary the set commits, and feed 1 becomes STANDBY. -/

def carrying : Feed := { st := .active }

/-- A set of one word, FEEDCFG with VDDC in STANDBY mode, waits for the boundary of a line of sequencer 0. -/
def feedModeStaged : State :=
  (Tests.sessAt .production (fun x => { x with
    req := some { Tests.req with seq := 0 }, stage := { sealedUnits := [unitAt feedCfgAddr] } })).modMgt (fun g => { g with
      staged := [(feedCfgAddr, (1 : Word))] })

/-- Sequencer 0 has an open swath, and a sample at its first boundary waits for the end of the gap. -/
def gapMeetsCommit : State :=
  { ((feedModeStaged.modSeq 0 (fun x => { x with swst := .opened, swPitch := 256 })).modPlace 0 (fun x => { x with
      inq := [default] })).modPws (fun x => { x with gap := some {}, feeds := vset (vset x.feeds 0 carrying) 1 carrying }) with
    now := 1000 }

/-- The state that the end of the gap meets. -/
def gapEnding : State := gapMeetsCommit.arrive {}

theorem gapEnding_gap : gapEnding.pws.gap = some {} ∧ ({} : Gap).trip + 1000 ≤ gapEnding.now := by decide +kernel

theorem gapEnding_feed : (gapEnding.feed 1).st = .active ∧ (gapEnding.gapRelease.feed 1).st = .standby := by decide +kernel

/-- Refutes O57: the end of a gap places a line, at whose boundary a commit of FEEDCFG takes feed 1 from ACTIVE to STANDBY. -/
theorem not_powerFeeds : ¬ Obligations.PowerFeeds := by
  unfold Obligations.PowerFeeds
  intro h
  obtain ⟨gap, due⟩ := gapEnding_gap
  obtain ⟨before, after⟩ := gapEnding_feed
  obtain ⟨feeds, -⟩ := h
  obtain ⟨-, -, releases, -⟩ := feeds {} gapMeetsCommit gapEnding _ 0 0 _ _ _ rfl rfl rfl rfl rfl rfl
  obtain ⟨-, ends⟩ := releases {} gap
  obtain ⟨t, released, -, -, -, -, -, kept, -⟩ := ends due
  rw [exec_gapRelease, execGapRelease] at released
  have same : gapEnding.gapRelease = t := Host.Outcome.next.inj released
  unfold State.feed at before after
  rw [same, kept, before] at after
  exact absurd after (by decide)

end Sys2Proof.Machine
end

section
/-! A device-wide cause refuses a camera request of its own tick (03 R93; 08 R259, R277; 17 R493) -/
namespace Sys2Proof.Machine
open Sys2Proof

/-! ## The counterexample

A `camtrig` of context 0 of sequencer 0 was accepted in this very tick, in which the management plane is lost. The cause stops
the triggers, and the request is refused after all: the context's flag T is set. -/

def requestMeetsCause : State := (Tests.ready 0).modCam 0 (fun x => { x with queue := [{ src := .program 0 0 }] })

/-- The state that the loss meets. -/
def managementFails : State := requestMeetsCause.arrive {}

theorem managementFails_ready : managementFails.phase = .ready ∧ managementFails.safe.mgmt = false := by decide +kernel

theorem managementFails_flag : (managementFails.ctxOf 0 0).t = false ∧ (managementFails.mgmtLost.ctxOf 0 0).t = true := by decide +kernel

/-- Refutes O58: the loss of the management plane sets flag T of a context whose camera request of that tick is refused. -/
theorem not_deviceWideCauses : ¬ Obligations.DeviceWideCauses := by
  unfold Obligations.DeviceWideCauses
  intro h
  obtain ⟨ready, held⟩ := managementFails_ready
  obtain ⟨before, after⟩ := managementFails_flag
  obtain ⟨-, -, -, -, -, -, -, -, -, loss, -⟩ := h {} requestMeetsCause managementFails rfl ready
  obtain ⟨t, lost, -, -, -, -, -, -, contexts⟩ := loss held
  rw [exec_mgmtLost, execMgmtLost] at lost
  have same : managementFails.mgmtLost = t := Host.Outcome.next.inj lost
  unfold State.ctxOf at before after
  rw [same, contexts, before] at after
  exact absurd after (by decide)

end Sys2Proof.Machine
end

section
/-! What the boot steps change (13 R408, R415; 15 R450-R453; 16 R472) -/
namespace Sys2Proof.Machine
open Sys2Proof

/-- The boot steps write the non-volatile store, the key slots, the calibration values and the repairs of the memories alone. -/
structure Boots (s t : State) : Prop where
  only : t = { s with nv := t.nv, cal := t.cal, keys := t.keys, mem := t.mem, draws := t.draws }
  trained : t.mem.dok = s.mem.dok ∧ t.mem.ch = s.mem.ch ∧ t.mem.chFail = s.mem.chFail

/-- No session takes records. -/
def State.unheard (s : State) : Prop := those 256 s.confirmed = []

theorem State.postAll_unheard {s : State} (h : s.unheard) (r : EvRec) : s.postAll r = s := by
  unfold State.postAll
  rw [h]
  rfl

namespace Boots

theorem refl (s : State) : Boots s s := ⟨rfl, rfl, rfl, rfl⟩

theorem trans {s t u : State} (h : Boots s t) (k : Boots t u) : Boots s u := by
  obtain ⟨only, dok, ch, fail⟩ := h
  obtain ⟨only', dok', ch', fail'⟩ := k
  refine ⟨?_, dok'.trans dok, ch'.trans ch, fail'.trans fail⟩
  rw [only']
  dsimp only
  rw [only]

section
variable {s t : State} (h : Boots s t)
include h

theorem unheard (quiet : s.unheard) : t.unheard := by
  rw [h.only]
  exact quiet

theorem fire : t.fire = s.fire := (congrArg State.fire h.only).trans rfl
theorem pws : t.pws = s.pws := (congrArg State.pws h.only).trans rfl
theorem safe : t.safe = s.safe := (congrArg State.safe h.only).trans rfl
theorem phase : t.phase = s.phase := (congrArg State.phase h.only).trans rfl
theorem sess : t.sess = s.sess := (congrArg State.sess h.only).trans rfl
theorem mgt : t.mgt = s.mgt := (congrArg State.mgt h.only).trans rfl

end

theorem each {α : Type} {f : State → α → State} (hf : ∀ u a, u.unheard → Boots u (f u a)) :
    ∀ (l : List α) {s : State}, s.unheard → Boots s (s.each l f)
  | [], s, _ => refl s
  | a :: l, s, quiet => (hf s a quiet).trans (each hf l ((hf s a quiet).unheard quiet))

end Boots

section
variable {s : State}

theorem State.postAll_boots (quiet : s.unheard) (r : EvRec) : Boots s (s.postAll r) := by
  rw [State.postAll_unheard quiet]
  exact Boots.refl s

theorem State.modMem_boots (s : State) (f : MemSt → MemSt)
    (kept : ∀ m, (f m).dok = m.dok ∧ (f m).ch = m.ch ∧ (f m).chFail = m.chFail) : Boots s (s.modMem f) := ⟨rfl, kept s.mem⟩

theorem State.calSet_boots (s : State) (c : CalSys) : Boots s { s with cal := c } := ⟨rfl, rfl, rfl, rfl⟩

theorem State.nvPutChecked_boots (s : State) (rid : Nat) (b : Bool) (v : Nat) (l : List Byte) : Boots s (s.nvPutChecked rid b v l).1 :=
  ⟨rfl, rfl, rfl, rfl⟩

theorem State.nvStamp_boots (s : State) (rid : Nat) : Boots s (s.nvStamp rid) := ⟨rfl, rfl, rfl, rfl⟩

theorem State.nvRead_boots (quiet : s.unheard) (rid : Nat) : Boots s (s.nvRead rid).1 := by
  unfold State.nvRead
  dsimp only
  split
  · exact Boots.refl s
  · generalize (!_ : Bool) = good
    cases good
    · have counted := s.calSet_boots ({ s.cal with nvCrc := satAdd 16 s.cal.nvCrc 1 } : CalSys)
      exact (counted.trans (State.postAll_boots (counted.unheard quiet) _)).trans (State.nvPutChecked_boots _ _ _ _ _)
    · exact Boots.refl s

theorem State.nvWrite_boots (quiet : s.unheard) (rid : Nat) (l : List Byte) : Boots s (s.nvWrite rid l none).1 := by
  unfold State.nvWrite
  extract_lets r ver toB w s1 c1 s2 c2 s3 e3
  have stamped : Boots s s1 := (State.nvPutChecked_boots s rid toB ver l).trans (State.nvStamp_boots _ _)
  have counted : Boots s s2 := stamped.trans (State.calSet_boots _ _)
  have failed : Boots s s3 := counted.trans (State.calSet_boots _ _)
  split
  · exact counted
  · exact failed.trans (State.postAll_boots (failed.unheard quiet) _)

theorem State.repairRow_boots (quiet : s.unheard) (w : Nat) : Boots s (s.repairRow w none).1 := by
  unfold State.repairRow State.postMem
  dsimp only
  split
  · exact State.postAll_boots quiet _
  · have spared := s.modMem_boots (fun m => { m with
      defects := m.defects.filter (fun d => rowKey d.1 != rowKey w), rows := SMap.put m.rows (rowKey w) (s.sparesUsed w),
      spares := SMap.put m.spares (w / 8192) (SMap.get m.spares 0 (w / 8192) + 1),
      soft := if (SMap.find m.rows (rowKey w)).isSome then m.soft else m.soft + 1 }) fun _ => ⟨rfl, rfl, rfl⟩
    refine spared.trans (Boots.trans (State.postAll_boots (spared.unheard quiet) _) (State.nvWrite_boots ?_ _ _))
    exact (State.postAll_boots (spared.unheard quiet) _).unheard (spared.unheard quiet)

theorem State.bistRow_boots (quiet : s.unheard) (key : Nat) : Boots s (s.bistRow key) := by
  have drawn : Boots s s.draw.1 := ⟨rfl, rfl, rfl, rfl⟩
  have repaired := drawn.trans (State.repairRow_boots (drawn.unheard quiet) (key / 512 * 8192 + key % 512 * 16))
  unfold State.bistRow
  extract_lets w d r rec
  have noted : Boots r.1 (r.1.modMem (fun m => { m with bistRec := rec })) := State.modMem_boots _ _ fun _ => ⟨rfl, rfl, rfl⟩
  exact repaired.trans noted

/-! ## The NV load -/

theorem State.nvLoad_boots (quiet : s.unheard) : Boots s s.nvLoad := by
  unfold State.nvLoad
  extract_lets s1 s2 r
  have repairs : Boots s s1 := by
    refine Boots.each (fun u k h => ?_) _ quiet
    exact (State.nvRead_boots h _).trans (State.modMem_boots _ _ fun _ => ⟨rfl, rfl, rfl⟩)
  have keys : Boots s1 s2 := by
    refine Boots.each (fun u k h => ?_) _ (repairs.unheard quiet)
    exact (State.nvRead_boots h k).trans ⟨rfl, rfl, rfl, rfl⟩
  have loaded : Boots s s2 := repairs.trans keys
  have read : Boots s2 r.1 := State.nvRead_boots (loaded.unheard quiet) _
  exact (loaded.trans read).trans (State.calSet_boots r.1 _)

/-- The rows that the destructive test finds failing. -/
def State.rowsTested (s : State) (rows : List Nat) : State := s.each rows (fun s k => if k < 786432 then s.bistRow k else s)

theorem State.rowsTested_boots (quiet : s.unheard) (rows : List Nat) : Boots s (s.rowsTested rows) := by
  refine Boots.each (fun u k h => ?_) rows quiet
  split
  · exact State.bistRow_boots h k
  · exact Boots.refl u

theorem State.booted (quiet : s.unheard) (rows : List Nat) : Boots s (s.nvLoad.rowsTested rows) :=
  (State.nvLoad_boots quiet).trans (State.rowsTested_boots ((State.nvLoad_boots quiet).unheard quiet) rows)

end

end Sys2Proof.Machine
end

section
/-! Start-up and the two resets (13 R389-R394; 16 R471-R473; 17 R498-R500) -/
namespace Sys2Proof.Machine
open Sys2Proof

namespace Boots

section
variable {s t : State} (h : Boots s t)
include h

theorem ctx : t.ctx = s.ctx := (congrArg State.ctx h.only).trans rfl
theorem seq : t.seq = s.seq := (congrArg State.seq h.only).trans rfl
theorem str : t.str = s.str := (congrArg State.str h.only).trans rfl
theorem enc : t.enc = s.enc := (congrArg State.enc h.only).trans rfl
theorem head : t.head = s.head := (congrArg State.head h.only).trans rfl
theorem kl : t.kl = s.kl := (congrArg State.kl h.only).trans rfl
theorem ax : t.ax = s.ax := (congrArg State.ax h.only).trans rfl
theorem now : t.now = s.now := (congrArg State.now h.only).trans rfl

end

end Boots

/-! ## What the resets have in common -/

theorem State.unheard_of_reset {s : State} (h : s.sess = State.reset.sess) : s.unheard := by
  have none_confirmed : those 256 State.reset.confirmed = [] := by decide +kernel
  have same : s.confirmed = State.reset.confirmed := by
    funext n
    unfold State.confirmed State.ses
    rw [h]
  unfold State.unheard
  rw [same, none_confirmed]

theorem State.ses_of_reset {s : State} (h : s.sess = State.reset.sess) (n : Fin 256) : s.ses n = {} := by
  unfold State.ses
  rw [h]
  exact vget_replicate 256 _ n n.isLt

theorem State.hven_of_reset {s : State} (h : s.fire.hven = State.reset.fire.hven) (g : Fin 8) : vget s.fire.hven g = false := by
  rw [h]
  exact vget_replicate 8 _ g g.isLt

/-! ## Cold start -/

/-- Power is on, and the boot ROM runs. -/
def State.powerOn (s : State) (pins : Nat) (va : Bool) : State :=
  let s1 : State := { s.unpowered with phase := .cold }
  let f := if va then 12 else 13
  let s2 := s1.modPws (fun x => { x with
    tripLatch := false, bootTrip := s.pws.tripLatch, bootAt := s1.now, safeFeed := f - 12, refOk := true })
  let s3 := (s2.modFeed f (fun x => { x with st := .active, inWin := true, since := s2.now })).modSafe
    (fun x => { x with colds := satAdd 16 x.colds 1 })
  s3.modXlt (fun x => { x with bifurc := if pins = 3 then 0 else pins, bifBad := pins == 3 })

theorem State.powerOn_sess (s : State) (pins : Nat) (va : Bool) : (s.powerOn pins va).sess = State.reset.sess := rfl

theorem State.powerOn_unheard (s : State) (pins : Nat) (va : Bool) : (s.powerOn pins va).unheard :=
  State.unheard_of_reset (s.powerOn_sess pins va)

/-- The state in which the boot ROM chooses a bank. -/
def State.booting (s : State) (pins : Nat) (va : Bool) (rows : List Nat) : State := (s.powerOn pins va).nvLoad.rowsTested rows

theorem State.booting_boots (s : State) (pins : Nat) (va : Bool) (rows : List Nat) : Boots (s.powerOn pins va) (s.booting pins va rows) :=
  State.booted (s.powerOn_unheard pins va) rows

/-- No bank boots. -/
def State.bootFailed (s : State) : State := { s with phase := .bootFail }.modPws (fun x => { x with step := 4, bootFail := true })

/-- Bank b boots. -/
def State.bankChosen (s : State) (b : Nat) (ver : Vector (Fin 65536) 2) : State :=
  s.modPws (fun x => { x with
    bank := b, fallback := b != x.fwSel, fwBank := b, fwVer := (vget ver b).val, fwOther := (vget ver (1 - b)).val, step := 11 })

section
variable {s : State} {pins : Nat} {cap ranks mts : Nat} {lanes : List (BitVec 256 × BitVec 256)} {va : Bool} {ok : Vector Bool 2}
  {ver : Vector (Fin 65536) 2} {rows : List Nat}

theorem State.coldStart_running (on : s.phase = .ready ∨ s.phase = .warm) : s.coldStart pins cap ranks mts lanes va ok ver rows = s := by
  refine if_pos ?_
  rcases on with h | h <;> rw [h] <;> rfl

theorem State.booting_bank (s : State) (pins : Nat) (va : Bool) (rows : List Nat) :
    bootBank (s.booting pins va rows).pws.fwSel (s.booting pins va rows).pws.fwMin ok ver = bootBank s.pws.fwSel s.pws.fwMin ok ver := by
  rw [(s.booting_boots pins va rows).pws]
  rfl

theorem State.coldStart_boots (off : s.phase = .off ∨ s.phase = .cold ∧ s.pws.step = 0) :
    s.coldStart pins cap ranks mts lanes va ok ver rows = (match bootBank s.pws.fwSel s.pws.fwMin ok ver with
      | none => (s.booting pins va rows).bootFailed
      | some b => ((s.booting pins va rows).bankChosen b ver).train cap ranks mts lanes) := by
  have starts : (!(s.phase == .off || (s.phase == .cold && s.pws.step == 0))) = false := by
    rcases off with h | ⟨h, k⟩
    · rw [h]; rfl
    · rw [h, k]; rfl
  rw [← s.booting_bank pins va rows]
  unfold State.coldStart
  rw [starts]
  rfl

end

end Sys2Proof.Machine
end

section
/-! DRAM training, READY and the warm reset (13 R389-R394; 16 R472; 17 R498, R500) -/
namespace Sys2Proof.Machine
open Sys2Proof

/-! ## Training -/

section
variable {s : State} {lanes : List (BitVec 256 × BitVec 256)} {cap ranks mts : Nat}

/-- Training changes the memories and the flag of its failure alone. -/
structure Trains (s t : State) : Prop where
  only : t = { s with mem := t.mem, safe := { s.safe with trainFail := t.safe.trainFail } }

namespace Trains

theorem mem (s : State) (f : MemSt → MemSt) : Trains s (s.modMem f) := ⟨rfl⟩

theorem trans {s t u : State} (h : Trains s t) (k : Trains t u) : Trains s u := by
  obtain ⟨only⟩ := h
  obtain ⟨only'⟩ := k
  refine ⟨?_⟩
  rw [only']
  dsimp only
  rw [only]

theorem each {α : Type} {f : State → α → State} (hf : ∀ u a, Trains u (f u a)) : ∀ (l : List α) (s : State), Trains s (s.each l f)
  | [], _ => ⟨rfl⟩
  | a :: l, s => (hf s a).trans (each hf l (f s a))

variable {s t : State} (h : Trains s t)
include h

theorem fire : t.fire = s.fire := (congrArg State.fire h.only).trans rfl
theorem phase : t.phase = s.phase := (congrArg State.phase h.only).trans rfl
theorem pws : t.pws = s.pws := (congrArg State.pws h.only).trans rfl
theorem sess : t.sess = s.sess := (congrArg State.sess h.only).trans rfl
theorem colds : t.safe.colds = s.safe.colds := (congrArg (fun u : State => u.safe.colds) h.only).trans rfl

end Trains

theorem State.trainChan_trains (s : State) (lanes : List (BitVec 256 × BitVec 256)) (ch : Nat) : Trains s (s.trainChan lanes ch) := by
  unfold State.trainChan
  extract_lets trmin l ok eye
  have set : Trains s (s.modCh ch (fun c => { c with
    st := if ok then .trained else .failed, minEye := eye, lastRef := s.now, lastReq := Vector.replicate 2 s.now,
    trres := Vector.ofFn (fun i : Fin 10 => l.getD i 0) })) := Trains.mem s _
  exact set.trans (Trains.mem _ _)

theorem State.train_trains (s : State) (cap ranks mts : Nat) (lanes : List (BitVec 256 × BitVec 256)) :
    Trains s (s.train cap ranks mts lanes) := by
  have failed (u : State) : Trains u (u.modSafe (fun x => { x with trainFail := true })) := ⟨rfl⟩
  unfold State.train
  extract_lets s1 s2
  have sized : Trains s s1 := Trains.mem s _
  have swept : Trains s s2 := sized.trans (Trains.each (fun u ch => u.trainChan_trains lanes ch) _ s1)
  split
  · exact sized.trans (failed s1)
  · split
    · exact swept.trans (Trains.mem s2 _)
    · exact swept.trans (failed s2)

theorem State.train_unsupported (unsupported : dramSupported cap mts = false) :
    (s.train cap ranks mts lanes).mem.dok = s.mem.dok ∧ (s.train cap ranks mts lanes).safe.trainFail = true := by
  unfold State.train
  dsimp only
  rw [unsupported]
  exact ⟨rfl, rfl⟩

/-- Every lane of channel ch passes at least trmin codes. -/
def lanesPass (trmin : Nat) (lanes : List (BitVec 256 × BitVec 256)) (ch : Nat) : Prop :=
  ∀ i : Nat, i < 10 → bit (laneResult trmin (lanes.getD (10 * ch + i) (0, 0))) 32 = true

theorem State.modMem_same {f : MemSt → MemSt} (same : f s.mem = s.mem) : s.modMem f = s := by
  unfold State.modMem
  rw [same]

theorem State.trainChan_passes {ch : Nat} (pass : lanesPass (s.rf chCfgAddr 30 24) lanes ch) :
    ∃ f : Chan → Chan, (∀ c, (f c).st = .trained) ∧ s.trainChan lanes ch = s.modCh ch f := by
  unfold State.trainChan
  extract_lets trmin l ok eye
  have passed : ok = true := by
    show l.all (fun w => bit w 32) = true
    rw [List.all_eq_true]
    intro w hw
    obtain ⟨i, hi, rfl⟩ := List.mem_map.mp hw
    exact pass i (List.mem_range.mp hi)
  have kept (m : MemSt) : { m with chFail := if ok then m.chFail else m.chFail ||| 2 ^ ch } = m := by rw [if_pos passed]
  refine ⟨_, fun c => ?_, State.modMem_same ?_⟩
  · exact if_pos passed
  · exact kept _

theorem State.modCh_trained (s : State) {k ch : Nat} (hk : k < 4) {f : Chan → Chan} (trained : ∀ c, (f c).st = .trained)
    (h : ch = k ∨ (vget s.mem.ch ch).st = .trained) : (vget (s.modCh k f).mem.ch ch).st = .trained := by
  have memory : (s.modCh k f).mem.ch = vmod s.mem.ch k f := rfl
  rw [memory]
  by_cases here : k = ch
  · rw [← here, vget_vmod _ _ _ hk]
    exact trained _
  · rw [vget_vmod_ne _ _ _ _ here]
    exact h.resolve_left fun other => here other.symm

theorem State.trainChan_each (l : List Nat) : ∀ {s : State}, (∀ ch ∈ l, ch < 4 ∧ lanesPass (s.rf chCfgAddr 30 24) lanes ch) →
    (s.each l (fun s ch => s.trainChan lanes ch)).mem.chFail = s.mem.chFail ∧
    ∀ ch : Nat, ch ∈ l ∨ (vget s.mem.ch ch).st = .trained →
      (vget (s.each l (fun s ch => s.trainChan lanes ch)).mem.ch ch).st = .trained := by
  induction l with
  | nil => exact fun _ => ⟨rfl, fun ch h => h.resolve_left (List.not_mem_nil)⟩
  | cons k l ih =>
    intro s passes
    obtain ⟨hk, pass⟩ := passes k List.mem_cons_self
    obtain ⟨f, trained, sweeps⟩ := State.trainChan_passes pass
    obtain ⟨fail, rest⟩ := ih (s := s.modCh k f) fun ch listed => passes ch (List.mem_cons_of_mem _ listed)
    have first : s.each (k :: l) (fun s ch => s.trainChan lanes ch) = (s.modCh k f).each l (fun s ch => s.trainChan lanes ch) :=
      congrArg (fun t : State => t.each l (fun s ch => s.trainChan lanes ch)) sweeps
    rw [first]
    refine ⟨fail, fun ch h => rest ch ?_⟩
    rcases h with listed | before
    · rcases List.mem_cons.mp listed with own | later
      · exact .inr (State.modCh_trained s hk trained (.inl own))
      · exact .inl later
    · exact .inr (State.modCh_trained s hk trained (.inr before))

/-- The DRAM is in service. -/
theorem State.dok_set (u : State) : (u.modMem (fun m => { m with dok := true })).mem.dok = true ∧
    (u.modMem (fun m => { m with dok := true })).mem.ch = u.mem.ch := ⟨rfl, rfl⟩

theorem State.train_passes (supported : dramSupported cap mts = true) (clean : s.mem.chFail = 0)
    (pass : ∀ ch < 4, lanesPass (s.rf chCfgAddr 30 24) lanes ch) : (s.train cap ranks mts lanes).mem.dok = true ∧
      ∀ ch : Fin 4, (vget (s.train cap ranks mts lanes).mem.ch ch).st = .trained := by
  unfold State.train
  extract_lets s1 s2
  have sized : s1.mem.chFail = s.mem.chFail ∧ s1.rf chCfgAddr 30 24 = s.rf chCfgAddr 30 24 := ⟨rfl, rfl⟩
  obtain ⟨sameFail, trmin⟩ := sized
  obtain ⟨fail, trained⟩ := State.trainChan_each (lanes := lanes) (List.range 4) (s := s1) fun ch listed =>
    ⟨List.mem_range.mp listed, by rw [trmin]; exact pass ch (List.mem_range.mp listed)⟩
  have none_failed : s2.mem.chFail = 0 := (fail.trans sameFail).trans clean
  rw [if_neg (by rw [supported]; decide), if_pos none_failed]
  obtain ⟨dok, channels⟩ := s2.dok_set
  refine ⟨dok, fun ch => ?_⟩
  rw [channels]
  exact trained ch (.inl (List.mem_range.mpr ch.isLt))

end

end Sys2Proof.Machine
end

section
/-! READY, the warm reset and PORST_n (16 R471-R473; 17 R498-R500) -/
namespace Sys2Proof.Machine
open Sys2Proof

/-! ## The vectors of the interrupt -/

theorem State.raiseAll_sess (s : State) (v : Nat) : (s.raiseAll v).sess = s.sess :=
  State.each_field (g := State.sess) (f := fun s f => s.raise f v) (fun u f => u.raise_sess f v) (List.range 4) s

theorem State.safeVecs_sess (s s0 : State) : (s.safeVecs s0).sess = s.sess := by
  have raises (u : State) (b : Bool) (v : Nat) : (u.when b (fun s => s.raiseAll v)).sess = u.sess := by
    cases b
    · rfl
    · exact u.raiseAll_sess v
  unfold State.safeVecs
  exact (raises _ _ _).trans (raises _ _ _)

/-! ## What a reset starts anew -/

theorem State.free_of_reset {s : State} (h : s.ctx = State.reset.ctx) (q : Fin 16) (c : Fin 64) : (s.ctxOf q c).st = .free := by
  have row : vget s.ctx q = Vector.replicate 64 {} := by
    rw [h]
    exact vget_replicate _ _ _ q.isLt
  unfold State.ctxOf
  rw [row]
  exact congrArg Ctx.st (vget_replicate _ _ _ c.isLt)

theorem State.closed_of_reset {s : State} (h : s.seq = State.reset.seq) (q : Fin 16) : (vget s.seq q).swst = .closed := by
  rw [h]
  exact congrArg Seq.swst (vget_replicate _ _ _ q.isLt)

theorem State.down_of_reset {s : State} (h : s.kl = State.reset.kl) (p : Fin 64) : (vget s.kl p).st = .down := by
  rw [h]
  exact congrArg KlPort.st (vget_replicate _ _ _ p.isLt)

/-! ## READY -/

/-- The state as a cold start ends. -/
def State.coldReady (s : State) : State :=
  { s.readyTimers with phase := .ready }.modPws (fun x => { x with step := 15, bootMs := sat 16 ((s.now - s.pws.bootAt) / qMs) })

/-- The state as a warm reset ends. -/
def State.warmReady (s : State) : State :=
  ({ s.readyTimers with phase := .ready }.modPws (fun x => { x with step := 15 })).modSafe
    (fun x => { x with warms := satAdd 16 x.warms 1, warmMs := sat 16 ((s.now - s.pws.bootAt) / qMs) })

theorem State.deviceReady_cold {s : State} (cold : s.phase = .cold) (step : s.pws.step = 11) :
    ∃ t, s.deviceReady = t ∧ Posts s.coldReady t :=
  ⟨_, if_pos (by rw [cold, step]; rfl), (s.coldReady.raiseAll_posts 1024).trans (State.safeVecs_posts _ s)⟩

theorem State.deviceReady_warm {s : State} (warm : s.phase = .warm) : ∃ t, s.deviceReady = t ∧ Posts s.warmReady t := by
  refine ⟨_, ?_, (s.warmReady.raiseAll_posts 1024).trans (State.safeVecs_posts _ s)⟩
  exact (if_neg (by simp [warm])).trans (if_pos (by rw [warm]; rfl))

/-! ## The warm reset -/

/-- The state as the boot steps of a warm reset leave it. -/
def State.rebooted (s : State) (rows : List Nat) : State := s.warmed.nvLoad.rowsTested rows

theorem State.warmed_sess (s : State) : s.warmed.sess = State.reset.sess := rfl

theorem State.rebooted_boots (s : State) (rows : List Nat) : Boots s.warmed (s.rebooted rows) :=
  State.booted (State.unheard_of_reset s.warmed_sess) rows

theorem State.warmReset_on {s : State} (on : s.phase = .ready ∨ s.phase = .warm) (rows : List Nat) :
    s.warmReset rows = (s.rebooted rows).safeVecs s := by
  refine if_neg ?_
  rcases on with h | h <;> rw [h] <;> decide

theorem Axis.warm_kept (x : Axis) : x.warm.pos = x.pos ∧ x.warm.st = if x.st = .disabled then .disabled else .held := by
  refine ⟨rfl, ?_⟩
  unfold Axis.warm
  cases x.st <;> rfl

theorem State.warmed_axis (s : State) (a : Fin 8) : vget s.warmed.ax a = (vget s.ax a).warm := vget_map s.ax Axis.warm a a.isLt

/-! ## The statement -/

section
variable {u : State}

theorem State.coldStart_fails {pins : Nat} {cap ranks mts : Nat} {lanes : List (BitVec 256 × BitVec 256)} {va : Bool} {ok : Vector Bool 2}
    {ver : Vector (Fin 65536) 2} {rows : List Nat} (off : u.phase = .off ∨ u.phase = .cold ∧ u.pws.step = 0)
    (bank : bootBank u.pws.fwSel u.pws.fwMin ok ver = none) :
    ∃ t, u.coldStart pins cap ranks mts lanes va ok ver rows = t ∧ t.phase = .bootFail ∧ t.pws.step = 4 ∧
      t.pws.bootFail = true ∧ ∀ g : Fin 8, vget t.fire.hven g = false := by
  refine ⟨(u.booting pins va rows).bootFailed, ?_, rfl, rfl, rfl, fun g => ?_⟩
  · rw [State.coldStart_boots off, bank]
  · have fire : (u.booting pins va rows).bootFailed.fire = (u.powerOn pins va).fire := (u.booting_boots pins va rows).fire
    exact State.hven_of_reset ((congrArg Fire.hven fire).trans rfl) g

/-- The memories and registers as the boot ROM trains the DRAM. -/
theorem State.bankChosen_fresh (u : State) (pins : Nat) (va : Bool) (rows : List Nat) (b : Nat) (ver : Vector (Fin 65536) 2) :
    ((u.booting pins va rows).bankChosen b ver).mem.dok = false ∧ ((u.booting pins va rows).bankChosen b ver).mem.chFail = 0 ∧
    ((u.booting pins va rows).bankChosen b ver).rf chCfgAddr 30 24 = bits (resetWord chCfgAddr) 30 24 := by
  obtain ⟨dok, -, fail⟩ := (u.booting_boots pins va rows).trained
  have mgt : ((u.booting pins va rows).bankChosen b ver).mgt = (u.powerOn pins va).mgt := (u.booting_boots pins va rows).mgt
  refine ⟨dok.trans rfl, fail.trans rfl, ?_⟩
  unfold State.rf State.reg
  rw [mgt]
  rfl

theorem State.coldStart_runs {pins : Nat} {cap ranks mts : Nat} {lanes : List (BitVec 256 × BitVec 256)} {va : Bool} {ok : Vector Bool 2}
    {ver : Vector (Fin 65536) 2} {rows : List Nat} {b : Nat} (off : u.phase = .off ∨ u.phase = .cold ∧ u.pws.step = 0)
    (bank : bootBank u.pws.fwSel u.pws.fwMin ok ver = some b) : u.coldStart pins cap ranks mts lanes va ok ver rows =
      ((u.booting pins va rows).bankChosen b ver).train cap ranks mts lanes := by
  rw [State.coldStart_boots off, bank]

/-- What a cold start leaves, whatever the training finds. -/
theorem State.coldStart_leaves (u : State) (pins : Nat) (cap ranks mts : Nat) (lanes : List (BitVec 256 × BitVec 256)) (va : Bool)
    (ver : Vector (Fin 65536) 2) (rows : List Nat) (b : Nat) :
    ∃ t, ((u.booting pins va rows).bankChosen b ver).train cap ranks mts lanes = t ∧ t.phase = .cold ∧
      t.pws.step = 11 ∧ t.pws.fwBank = b ∧ t.pws.fallback = (b != u.pws.fwSel) ∧ t.pws.bootAt = u.now ∧
      t.safe.colds = satAdd 16 u.safe.colds 1 ∧ (∀ g : Fin 8, vget t.fire.hven g = false) ∧ ∀ n : Fin 256, (t.ses n).st = .free := by
  have trains := ((u.booting pins va rows).bankChosen b ver).train_trains cap ranks mts lanes
  have boots := u.booting_boots pins va rows
  have pws : ((u.booting pins va rows).bankChosen b ver).pws = ((u.powerOn pins va).bankChosen b ver).pws :=
    congrArg (fun x : Pws => { x with
      bank := b, fallback := b != x.fwSel, fwBank := b, fwVer := (vget ver b).val, fwOther := (vget ver (1 - b)).val, step := 11 }) boots.pws
  refine ⟨_, rfl, trains.phase.trans (boots.phase.trans rfl), ?_, ?_, ?_, ?_, ?_, fun g => ?_, fun n => ?_⟩
  · rw [trains.pws, pws]; rfl
  · rw [trains.pws, pws]; rfl
  · rw [trains.pws, pws]; rfl
  · rw [trains.pws, pws]; rfl
  · exact trains.colds.trans ((congrArg Safe.colds boots.safe).trans rfl)
  · exact State.hven_of_reset ((congrArg Fire.hven (trains.fire.trans boots.fire)).trans rfl) g
  · rw [State.ses_of_reset ((trains.sess.trans boots.sess).trans rfl) n]

end

/-- Settles O59: the boot steps change the store, the keys and the repairs alone, training the memories alone, and the resets
fix everything else. -/
theorem startUpAndResets : Obligations.StartUpAndResets := by
  intro e s u hu
  refine ⟨fun pins cap ranks mts lanes va ok ver bad off => ⟨fun bank => ?_, fun b bank => ?_⟩,
    fun pins cap ranks mts lanes va ok ver bad on => ?_, fun cold step => ?_, fun warm => ?_, fun b rows on => ?_, ?_⟩
  · obtain ⟨t, fails, facts⟩ := State.coldStart_fails (pins := pins) (cap := cap) (ranks := ranks) (mts := mts) (lanes := lanes)
      (va := va) (rows := bad) off bank
    exact ⟨t, by rw [exec_coldStart, execColdStart, ← hu, fails], facts⟩
  · obtain ⟨t, trains, phase, step, fwBank, fallback, bootAt, colds, hven, sessions⟩ :=
      u.coldStart_leaves pins cap ranks mts lanes va ver bad b
    obtain ⟨dok, clean, trmin⟩ := u.bankChosen_fresh pins va bad b ver
    refine ⟨t, ?_, phase, step, fwBank, fallback, bootAt, colds, hven, sessions, fun unsupported => ?_, fun supported pass => ?_⟩
    · rw [exec_coldStart, execColdStart, ← hu, State.coldStart_runs off bank, trains]
    · obtain ⟨same, failed⟩ := State.train_unsupported (s := (u.booting pins va bad).bankChosen b ver) (lanes := lanes) (ranks := ranks) unsupported
      rw [trains] at same failed
      exact ⟨same.trans dok, failed⟩
    · have channels : ∀ ch < 4, lanesPass (((u.booting pins va bad).bankChosen b ver).rf chCfgAddr 30 24) lanes ch := by
        intro ch hch i hi
        rw [trmin]
        exact pass ⟨10 * ch + i, by omega⟩
      have trained := State.train_passes (ranks := ranks) supported clean channels
      rw [trains] at trained
      exact trained
  · rw [exec_coldStart, execColdStart, ← hu, State.coldStart_running on]
  · obtain ⟨t, ready, posts⟩ := State.deviceReady_cold cold step
    refine ⟨t, by rw [exec_deviceReady, execDeviceReady, ← hu, ready], ?_⟩
    rw [posts.phase, posts.pws, posts.tickBase, posts.fire, posts.ctx]
    exact ⟨rfl, rfl, rfl, rfl, rfl, rfl⟩
  · obtain ⟨t, ready, posts⟩ := State.deviceReady_warm warm
    refine ⟨t, by rw [exec_deviceReady, execDeviceReady, ← hu, ready], ?_⟩
    rw [posts.phase, posts.pws, posts.safe, posts.enc, posts.ax]
    exact ⟨rfl, rfl, rfl, rfl, rfl, rfl⟩
  · have posts := State.safeVecs_posts (u.rebooted rows) u
    have boots := u.rebooted_boots rows
    obtain ⟨dok, -, -⟩ := boots.trained
    have sessions : ((u.rebooted rows).safeVecs u).sess = State.reset.sess := (State.safeVecs_sess _ _).trans (boots.sess.trans u.warmed_sess)
    refine ⟨(u.rebooted rows).safeVecs u, by rw [exec_warmReset, execWarmReset, ← hu, State.warmReset_on on], ?_, fun g => ?_,
      State.ses_of_reset sessions, ?_, ?_, fun q c => ?_, fun q => ?_, ?_, ?_, fun p => ?_, fun a => ?_, ?_, ?_, ?_, ?_⟩
    · rw [posts.phase, boots.phase]; rfl
    · exact State.hven_of_reset ((congrArg Fire.hven (posts.fire.trans boots.fire)).trans rfl) g
    · rw [posts.mgt, boots.mgt]; rfl
    · rw [posts.str, boots.str]; rfl
    · exact State.free_of_reset ((posts.ctx.trans boots.ctx).trans rfl) q c
    · exact State.closed_of_reset ((posts.seq.trans boots.seq).trans rfl) q
    · rw [posts.enc, boots.enc]; rfl
    · rw [posts.head, boots.head]; rfl
    · exact State.down_of_reset ((posts.kl.trans boots.kl).trans rfl) p
    · rw [posts.ax, boots.ax, State.warmed_axis]
      exact (vget u.ax a).warm_kept
    · rw [posts.mem, dok]; rfl
    · rw [posts.safe, boots.safe]; rfl
    · rw [posts.safe, boots.safe]; rfl
    · rw [posts.now, boots.now]; rfl
  · refine ⟨u.unpowered, by rw [exec_porstNLow, execPorstNLow, ← hu]; rfl, rfl, rfl, rfl, rfl, rfl, rfl, fun g => ?_, rfl, rfl, rfl,
      State.ses_of_reset rfl, rfl⟩
    exact State.hven_of_reset rfl g

end Sys2Proof.Machine
end

section
/-! The codes of characters, and frames read back (07 R209-R213) -/
namespace Sys2Proof.Machine
open Sys2Proof

/-! ## Characters -/

/-- The code table, row by row: each control symbol reads back. -/
theorem decSym_ctl (rd : Bool) (c : Ctl) : decSym rd (encSym rd (.ctl c)).1 = some (.ctl c) := by
  cases rd <;> cases c <;> decide +kernel

/-- The code table, row by row: each byte reads back. -/
theorem decSym_byte : ∀ (rd : Bool) (b : Byte), decSym rd (encSym rd (.byte b)).1 = some (.byte b) := by decide +kernel

theorem rdAfter_ctl (rd : Bool) (c : Ctl) : rdAfter rd (encSym rd (.ctl c)).1 = (encSym rd (.ctl c)).2 := by
  cases rd <;> cases c <;> decide +kernel

theorem rdAfter_byte : ∀ (rd : Bool) (b : Byte), rdAfter rd (encSym rd (.byte b)).1 = (encSym rd (.byte b)).2 := by decide +kernel

theorem decSym_encSym (rd : Bool) (c : Sym) : decSym rd (encSym rd c).1 = some c := by
  cases c with
  | byte b => exact decSym_byte rd b
  | ctl c => exact decSym_ctl rd c

theorem rdAfter_encSym (rd : Bool) (c : Sym) : rdAfter rd (encSym rd c).1 = (encSym rd c).2 := by
  cases c with
  | byte b => exact rdAfter_byte rd b
  | ctl c => exact rdAfter_ctl rd c

theorem decSyms_encSyms (rd : Bool) (l : List Sym) : decSyms rd (encSyms rd l) = l.map some := by
  induction l generalizing rd with
  | nil => rfl
  | cons c l ih =>
    unfold encSyms decSyms
    rw [decSym_encSym, rdAfter_encSym, ih, List.map_cons]

/-! ## Bytes -/

theorem leNat_toLE (n v : Nat) : leNat (toLE n v) = v % 2 ^ (8 * n) := by
  induction n generalizing v with
  | zero => exact (Nat.mod_one v).symm
  | succ n ih =>
    have byte : (BitVec.ofNat 8 v).toNat = v % 2 ^ 8 := BitVec.toNat_ofNat v 8
    unfold toLE leNat
    rw [ih, byte, Nat.mul_add, Nat.add_comm (8 * n), Nat.pow_add]
    exact (Nat.mod_mul).symm

@[simp] theorem length_toLE (n v : Nat) : (toLE n v).length = n := Tests.toLE_len n v

@[simp] theorem length_zeros (n : Nat) : (zeros n).length = n := List.length_replicate

theorem leNat_zeros (n : Nat) : leNat (zeros n) = 0 := by
  induction n with
  | zero => rfl
  | succ n ih =>
    show (0 : Byte).toNat + 256 * leNat (zeros n) = 0
    rw [ih]
    rfl

section
variable {a b : List Byte} {lo n : Nat}

/-- A field behind the bytes of `a`. -/
theorem leAt_skip (h : a.length ≤ lo) : leAt (a ++ b) lo n = leAt b (lo - a.length) n := by
  unfold leAt
  rw [List.drop_append, List.drop_of_length_le h, List.nil_append]

theorem leAt_front (h : a.length = n) : leAt (a ++ b) 0 n = leNat a := by
  unfold leAt
  rw [List.drop_zero, ← h, List.take_left]

theorem leAt_all (h : a.length = n) : leAt a 0 n = leNat a := by
  unfold leAt
  rw [List.drop_zero, ← h, List.take_length]

end

/-! ## The CRC of a frame -/

theorem ieeeStep_lt {c : Nat} (h : c < 2 ^ 32) : ∀ k : Nat, ieeeStep k c < 2 ^ 32 := by
  intro k
  induction k generalizing c with
  | zero => exact h
  | succ k ih =>
    have half : c / 2 < 2 ^ 32 := by omega
    refine ih ?_
    split
    · exact Nat.xor_lt_two_pow half (by decide)
    · exact half

theorem crc32_lt (l : List Byte) : crc32 l < 2 ^ 32 := by
  have register (l : List Byte) : ∀ c < 2 ^ 32, l.foldl (fun c b => ieeeStep 8 (c ^^^ b.toNat)) c < 2 ^ 32 := by
    induction l with
    | nil => exact fun c h => h
    | cons b l ih => exact fun c h => ih _ (ieeeStep_lt (Nat.xor_lt_two_pow h (by have := b.isLt; omega)) 8)
  exact Nat.xor_lt_two_pow (register l _ (by decide)) (by decide)

/-! ## Frames -/

theorem readFrame_frameSyms (start : Ctl) (body : List Byte) : readFrame ((frameSyms start body).map some) = .frame start body := by
  have symbols : (frameSyms start body).map some =
      some (.ctl start) :: ((body ++ toLE 4 (crc32 body)).map (fun b => some (Sym.byte b)) ++ [some (.ctl .eof)]) := by
    unfold frameSyms
    rw [List.map_append, List.map_cons, List.map_map]
    rfl
  have bytes (l : List Byte) : (l.map (fun b => some (Sym.byte b))).filterMap symByte = l := by
    rw [List.filterMap_map]
    exact List.filterMap_some
  have crc : leNat (toLE 4 (crc32 body)) = crc32 body := (leNat_toLE 4 _).trans (Nat.mod_eq_of_lt (crc32_lt body))
  have payload : (body ++ toLE 4 (crc32 body)).length - 4 = body.length := by simp
  rw [symbols]
  unfold readFrame
  dsimp only
  rw [List.dropLast_concat, bytes, List.getLast?_concat, payload, List.take_left, List.drop_left, crc]
  simp

theorem readFrame_encSyms (rd : Bool) (start : Ctl) (body : List Byte) :
    readFrame (decSyms rd (encSyms rd (frameSyms start body))) = .frame start body := by
  rw [decSyms_encSyms, readFrame_frameSyms]

/-- A start symbol tells the running disparity that it is sent at. -/
theorem decSym_start (rd : Bool) (start : Ctl) (h : start = .sol ∨ start = .sot ∨ start = .soc) :
    (decSym false (encSym rd (.ctl start)).1).isNone = rd := by
  rcases h with rfl | rfl | rfl <;> cases rd <;> decide +kernel

theorem readUp_encSyms (rd : Bool) {start : Ctl} (h : start = .sol ∨ start = .sot ∨ start = .soc) {body : List Byte} {f : UpFrame}
    (parses : parseUp start body = some f) : readUp (encSyms rd (frameSyms start body)) = .frame f := by
  have first : (encSyms rd (frameSyms start body)).head? = some (encSym rd (.ctl start)).1 := rfl
  unfold readUp
  rw [first]
  dsimp only
  rw [decSym_start rd start h, readFrame_encSyms]
  dsimp only
  rw [parses]

end Sys2Proof.Machine
end

section
/-! Sparse maps packed into numbers, and read back (04 R111; 07 R215, R216, R229) -/
namespace Sys2Proof.Machine
open Sys2Proof

section
variable {w a n : Nat} {m : SMap Nat}

theorem packMap_from (w : Nat) (m : SMap Nat) (z : Nat) :
    m.foldl (fun a x => a + x.2 % 2 ^ w * 2 ^ (w * x.1)) z = z + packMap w m := by
  unfold packMap
  induction m generalizing z with
  | nil => rfl
  | cons x m ih =>
    rw [List.foldl_cons, List.foldl_cons, ih, ih (0 + _)]
    omega

theorem packMap_cons (w k v : Nat) (m : SMap Nat) : packMap w ((k, v) :: m) = v % 2 ^ w * 2 ^ (w * k) + packMap w m := by
  have first : packMap w ((k, v) :: m) = m.foldl (fun a x => a + x.2 % 2 ^ w * 2 ^ (w * x.1)) (0 + v % 2 ^ w * 2 ^ (w * k)) := rfl
  rw [first, packMap_from, Nat.zero_add]

/-- Where no key lies below `a`, the digits below `a` are 0. -/
theorem dvd_packMap (above : ∀ x ∈ m, a ≤ x.1) : 2 ^ (w * a) ∣ packMap w m := by
  induction m with
  | nil => exact Nat.dvd_zero _
  | cons x m ih =>
    obtain ⟨k, v⟩ := x
    have later : a ≤ k := above _ List.mem_cons_self
    rw [packMap_cons]
    refine Nat.dvd_add (Nat.dvd_mul_left_of_dvd (Nat.pow_dvd_pow 2 (Nat.mul_le_mul_left w later)) _) (ih fun x hx => ?_)
    exact above x (List.mem_cons_of_mem _ hx)

/-- Digit `a`, and what follows it, of a map whose keys begin at `a`. -/
theorem packMap_digit (v : Nat) (fits : v < 2 ^ w) (above : ∀ x ∈ m, a + 1 ≤ x.1) :
    packMap w ((a, v) :: m) / 2 ^ (w * a) % 2 ^ w = v ∧
    packMap w ((a, v) :: m) / 2 ^ (w * (a + 1)) = packMap w m / 2 ^ (w * (a + 1)) := by
  obtain ⟨r, rest⟩ := dvd_packMap (w := w) above
  have next : 2 ^ (w * (a + 1)) = 2 ^ (w * a) * 2 ^ w := by rw [Nat.mul_succ, Nat.pow_add]
  have whole : packMap w ((a, v) :: m) = 2 ^ (w * a) * (v + 2 ^ w * r) := by
    rw [packMap_cons, Nat.mod_eq_of_lt fits, rest, next, Nat.mul_add, Nat.mul_comm v, Nat.mul_assoc]
  have unit : 0 < 2 ^ (w * a) := Nat.two_pow_pos _
  have base : 0 < 2 ^ w := Nat.two_pow_pos _
  rw [whole, rest, next]
  refine ⟨?_, ?_⟩
  · rw [Nat.mul_div_cancel_left _ unit, Nat.add_mul_mod_self_left, Nat.mod_eq_of_lt fits]
  · rw [Nat.mul_div_mul_left _ _ unit, Nat.add_mul_div_left _ _ base, Nat.div_eq_of_lt fits, Nat.zero_add,
      Nat.mul_div_cancel_left _ (Nat.mul_pos unit base)]

/-- Digit `a` of a map whose keys begin behind it. -/
theorem packMap_gap (above : ∀ x ∈ m, a + 1 ≤ x.1) : packMap w m / 2 ^ (w * a) % 2 ^ w = 0 := by
  obtain ⟨r, rest⟩ := dvd_packMap (w := w) above
  rw [rest, Nat.mul_succ, Nat.pow_add, Nat.mul_assoc, Nat.mul_div_cancel_left _ (Nat.two_pow_pos _)]
  exact Nat.mul_mod_right _ _

/-- The value of digit j. -/
def digitAt (w v j : Nat) : Nat × Nat := (j, v >>> (w * j) % 2 ^ w)

/-- The digits from `a` on give back a map whose keys lie there. -/
theorem digits_packMap (n : Nat) : ∀ {a v : Nat} {m : SMap Nat}, m.Pairwise (fun x y => x.1 < y.1) →
    (∀ x ∈ m, a ≤ x.1 ∧ x.1 < a + n ∧ 0 < x.2 ∧ x.2 < 2 ^ w) → v / 2 ^ (w * a) = packMap w m / 2 ^ (w * a) →
    ((List.range' a n).map (digitAt w v)).filter (fun x => x.2 != 0) = m := by
  induction n with
  | zero =>
    intro a v m sorted fits same
    cases m with
    | nil => rfl
    | cons x m =>
      obtain ⟨low, high, -⟩ := fits x List.mem_cons_self
      omega
  | succ n ih =>
    intro a v m sorted fits same
    have further (x y : Nat) (h : x / 2 ^ (w * a) = y / 2 ^ (w * a)) : x / 2 ^ (w * (a + 1)) = y / 2 ^ (w * (a + 1)) := by
      rw [Nat.mul_succ, Nat.pow_add, ← Nat.div_div_eq_div_mul, ← Nat.div_div_eq_div_mul, h]
    have digit : (digitAt w v a).2 = packMap w m / 2 ^ (w * a) % 2 ^ w := by
      rw [← same, ← Nat.shiftRight_eq_div_pow]
      rfl
    have skips (above : ∀ x ∈ m, a + 1 ≤ x.1) :
        ((List.range' a (n + 1)).map (digitAt w v)).filter (fun x => x.2 != 0) = m := by
      rw [packMap_gap above] at digit
      rw [List.range'_succ, List.map_cons, List.filter_cons_of_neg (by rw [digit]; decide)]
      refine ih sorted (fun x hx => ?_) (further _ _ same)
      obtain ⟨-, high, pos, lt⟩ := fits x hx
      exact ⟨above x hx, by omega, pos, lt⟩
    cases m with
    | nil => exact skips fun x hx => absurd hx List.not_mem_nil
    | cons x m =>
      obtain ⟨k, y⟩ := x
      obtain ⟨behind, sorted'⟩ := List.pairwise_cons.mp sorted
      obtain ⟨low, high, pos, lt⟩ := fits (k, y) List.mem_cons_self
      rcases Nat.eq_or_lt_of_le low with here | later
      · dsimp only at here
        subst here
        obtain ⟨first, rest⟩ := packMap_digit y lt behind
        rw [first] at digit
        have entry : digitAt w v a = (a, y) := Prod.ext rfl digit
        rw [List.range'_succ, List.map_cons, List.filter_cons_of_pos (by rw [digit]; exact bne_iff_ne.mpr (Nat.ne_of_gt pos)), entry]
        refine congrArg _ (ih sorted' (fun x hx => ?_) ((further _ _ same).trans rest))
        obtain ⟨-, high', pos', lt'⟩ := fits x (List.mem_cons_of_mem _ hx)
        exact ⟨behind x hx, by omega, pos', lt'⟩
      · refine skips fun x hx => ?_
        rcases List.mem_cons.mp hx with rfl | inside
        · exact later
        · exact Nat.succ_le_of_lt (Nat.lt_trans later (behind x inside))

theorem unpackMap_packMap (fits : MapFits w n m) : unpackMap w n (packMap w m) = m := by
  obtain ⟨sorted, values⟩ := fits
  unfold unpackMap
  rw [List.range_eq_range']
  refine digits_packMap n sorted (fun x hx => ?_) rfl
  obtain ⟨key, pos, lt⟩ := values x hx
  exact ⟨Nat.zero_le _, by omega, pos, lt⟩

/-- Digits from n on do not matter. -/
theorem unpackMap_mod (w n v : Nat) : unpackMap w n (v % 2 ^ (w * n)) = unpackMap w n v := by
  unfold unpackMap
  refine congrArg _ (List.map_congr_left fun j hj => Prod.ext rfl ?_)
  have below : j < n := List.mem_range.mp hj
  obtain ⟨d, rfl⟩ := Nat.exists_eq_add_of_lt below
  have split : 2 ^ (w * (j + d + 1)) = 2 ^ (w * j) * (2 ^ w * 2 ^ (w * d)) := by
    rw [Nat.mul_succ, Nat.mul_add, Nat.add_assoc, Nat.pow_add, Nat.pow_add, Nat.mul_comm (2 ^ (w * d))]
  dsimp only
  rw [Nat.shiftRight_eq_div_pow, Nat.shiftRight_eq_div_pow, split, Nat.mod_mul_right_div_self, Nat.mod_mul_right_mod]

/-- A map read back from the bytes that hold it. -/
theorem unpackMap_bytes {k : Nat} (size : 8 * k = w * n) (fits : MapFits w n m) :
    unpackMap w n (leNat (toLE k (packMap w m))) = m := by
  rw [leNat_toLE, size, unpackMap_mod, unpackMap_packMap fits]

end

end Sys2Proof.Machine
end

section
/-! Downstream frames read back (07 R215, R216, R218) -/
namespace Sys2Proof.Machine
open Sys2Proof

/-! ## Fields of a body -/

section
variable {k n v lo m : Nat} {l : List Byte}

@[simp] theorem leAt_toLE (k v : Nat) (l : List Byte) : leAt (toLE k v ++ l) 0 k = v % 2 ^ (8 * k) := by
  rw [leAt_front (length_toLE k v), leNat_toLE]

@[simp] theorem leAt_zeros (k : Nat) (l : List Byte) : leAt (zeros k ++ l) 0 k = 0 := by
  rw [leAt_front (length_zeros k), leNat_zeros]

@[simp] theorem leAt_toLE_skip (h : k ≤ lo) : leAt (toLE k v ++ l) lo m = leAt l (lo - k) m := by
  rw [leAt_skip (by rwa [length_toLE]), length_toLE]

@[simp] theorem leAt_zeros_skip (h : k ≤ lo) : leAt (zeros k ++ l) lo m = leAt l (lo - k) m := by
  rw [leAt_skip (by rwa [length_zeros]), length_zeros]

end

/-! ## Lines -/

/-- The body of a line frame. -/
def lineBody (f : LineFrame) : List Byte :=
  toLE 4 f.line ++ (toLE 2 (b1 f.spit) ++ (toLE 2 f.energy ++ (toLE 2 f.seq ++ (zeros 6 ++ toLE 3072 (packMap 3 f.codes)))))

theorem itemChars_line (f : LineFrame) : itemChars (.line f) = frameSyms .sol (lineBody f) := by
  unfold itemChars lineBody
  simp only [List.append_assoc]

theorem length_lineBody (f : LineFrame) : (lineBody f).length = 3088 := by
  unfold lineBody
  simp only [List.length_append, length_toLE, length_zeros]

theorem spit_read (b : Bool) : (b1 b % 65536 % 2 == 1) = b := by cases b <;> rfl

theorem parseDown_line {f : LineFrame} (fits : DownFits (.line f)) : parseDown .sol (lineBody f) = some (.line f) := by
  obtain ⟨line, energy, seq, codes⟩ := fits
  have line_ : leAt (lineBody f) 0 4 = f.line := (leAt_toLE 4 _ _).trans (Nat.mod_eq_of_lt line)
  have spit_ : (leAt (lineBody f) 4 2 % 2 == 1) = f.spit := by
    simp only [lineBody, leAt_toLE_skip, leAt_toLE, Nat.reduceLeDiff, Nat.reduceSub]
    exact spit_read f.spit
  have energy_ : leAt (lineBody f) 6 2 = f.energy := by simp [lineBody, Nat.mod_eq_of_lt energy]
  have seq_ : leAt (lineBody f) 8 2 = f.seq := by simp [lineBody, Nat.mod_eq_of_lt seq]
  have codes_ : unpackMap 3 8192 (leAt (lineBody f) 16 3072) = f.codes := by
    simp only [lineBody, leAt_toLE_skip, leAt_zeros_skip, Nat.reduceLeDiff, Nat.reduceSub]
    rw [leAt_all (length_toLE _ _), unpackMap_bytes (by decide) codes]
  unfold parseDown
  dsimp only
  rw [if_neg (by rw [length_lineBody]; decide), line_, spit_, energy_, seq_, codes_]

/-! ## Tables -/

/-- The body of a table frame. -/
def tableBody (f : TableFrame) : List Byte :=
  toLE 1 (f.bank % 2 + 2 * f.reserved) ++ (toLE 1 f.index ++ (toLE 1 f.band ++ (zeros 1 ++ (toLE 2 f.seq ++
    (zeros 10 ++ toLE 2048 (packMap 16 f.points))))))

theorem itemChars_table (f : TableFrame) : itemChars (.table f) = frameSyms .sot (tableBody f) := by
  unfold itemChars tableBody
  simp only [List.append_assoc]

theorem length_tableBody (f : TableFrame) : (tableBody f).length = 2064 := by
  unfold tableBody
  simp only [List.length_append, length_toLE, length_zeros]

theorem parseDown_table {f : TableFrame} (fits : DownFits (.table f)) : parseDown .sot (tableBody f) = some (.table f) := by
  obtain ⟨bank, index, band, seq, reserved, points⟩ := fits
  have first : leAt (tableBody f) 0 1 = f.bank + 2 * f.reserved := by
    refine (leAt_toLE 1 _ _).trans ?_
    rw [Nat.mod_eq_of_lt bank, Nat.mod_eq_of_lt (by omega)]
  have index_ : leAt (tableBody f) 1 1 = f.index := by simp [tableBody, Nat.mod_eq_of_lt index]
  have band_ : leAt (tableBody f) 2 1 = f.band := by simp [tableBody, Nat.mod_eq_of_lt (show f.band < 256 by omega)]
  have zero_ : leAt (tableBody f) 3 1 = 0 := by simp [tableBody]
  have seq_ : leAt (tableBody f) 4 2 = f.seq := by simp [tableBody, Nat.mod_eq_of_lt seq]
  have zeros_ : leAt (tableBody f) 6 10 = 0 := by simp [tableBody]
  have points_ : unpackMap 16 1024 (leAt (tableBody f) 16 2048) = f.points := by
    simp only [tableBody, leAt_toLE_skip, leAt_zeros_skip, Nat.reduceLeDiff, Nat.reduceSub]
    rw [leAt_all (length_toLE _ _), unpackMap_bytes (by decide) points]
  have bank_ : (f.bank + 2 * f.reserved) % 2 = f.bank := by omega
  have reserved_ : (f.bank + 2 * f.reserved) / 2 + f.band / 8 + 0 + 0 = f.reserved := by omega
  unfold parseDown
  dsimp only
  rw [if_neg (by rw [length_tableBody]; decide), first, index_, band_, zero_, seq_, zeros_, points_, bank_, reserved_, Nat.mod_eq_of_lt band]

/-! ## Control frames -/

/-- The body of a control frame. -/
def ctlBody (f : CtlFrame) : List Byte :=
  toLE 1 (ctlCode f.op) ++ (toLE 1 f.id ++ (toLE 2 f.seq ++ (toLE 3 f.addr ++ (toLE 1 f.len ++ f.data))))

theorem itemChars_ctl (f : CtlFrame) : itemChars (.ctl f) = frameSyms .soc (ctlBody f) := by
  unfold itemChars ctlBody
  simp only [List.append_assoc]

theorem length_ctlBody (f : CtlFrame) : (ctlBody f).length = 8 + f.data.length := by
  unfold ctlBody
  simp only [List.length_append, length_toLE]
  omega

theorem ctlCode_read (o : CtlOp) :
    ([.hwrite, .hread, .sync, .drop] : List CtlOp).find? (fun p => ctlCode p == ctlCode o % 256) = some o := by cases o <;> rfl

theorem ctlData_size {f : CtlFrame} (fits : DownFits (.ctl f)) :
    f.data.length = if (f.op == .hwrite || f.op == .sync) then 4 * f.len else 0 := by
  obtain ⟨-, -, -, -, data⟩ := fits
  rw [data]
  cases f.op <;> rfl

theorem drop_ctlBody (f : CtlFrame) : (ctlBody f).drop 8 = f.data := by
  have header : ctlBody f = (toLE 1 (ctlCode f.op) ++ toLE 1 f.id ++ toLE 2 f.seq ++ toLE 3 f.addr ++ toLE 1 f.len) ++ f.data := by
    unfold ctlBody
    simp only [List.append_assoc]
  rw [header]
  exact List.drop_left' (by simp only [List.length_append, length_toLE])

theorem parseDown_ctl {f : CtlFrame} (fits : DownFits (.ctl f)) : parseDown .soc (ctlBody f) = some (.ctl f) := by
  have size := ctlData_size fits
  obtain ⟨id, seq, addr, len, -⟩ := fits
  have op_ : leAt (ctlBody f) 0 1 = ctlCode f.op % 256 := leAt_toLE 1 _ _
  have id_ : leAt (ctlBody f) 1 1 = f.id := by simp [ctlBody, Nat.mod_eq_of_lt id]
  have seq_ : leAt (ctlBody f) 2 2 = f.seq := by simp [ctlBody, Nat.mod_eq_of_lt seq]
  have addr_ : leAt (ctlBody f) 4 3 = f.addr := by simp [ctlBody, Nat.mod_eq_of_lt (show f.addr < 16777216 from addr)]
  have len_ : leAt (ctlBody f) 7 1 = f.len := by simp [ctlBody, Nat.mod_eq_of_lt len]
  unfold parseDown
  dsimp only
  rw [op_, len_, ctlCode_read]
  dsimp only
  rw [if_neg (by rw [length_ctlBody, size]; exact fun h => h rfl), id_, seq_, addr_, drop_ctlBody]

end Sys2Proof.Machine
end

section
/-! Upstream frames read back (07 R229-R231) -/
namespace Sys2Proof.Machine
open Sys2Proof

/-! ## Acknowledgements and responses -/

/-- The body of an acknowledgement. -/
def ackBody (a : Ack) : List Byte :=
  toLE 1 a.index ++ (toLE 1 a.bank ++ (toLE 1 a.status ++ (zeros 1 ++ (toLE 2 a.seq ++ zeros 2))))

theorem upChars_ack (a : Ack) : upChars (.ack a) = frameSyms .sot (ackBody a) := by
  unfold upChars ackBody
  simp only [List.append_assoc]

theorem parseUp_ack {a : Ack} (fits : UpFits (.ack a)) : parseUp .sot (ackBody a) = some (.ack a) := by
  obtain ⟨index, bank, status, seq⟩ := fits
  have size : (ackBody a).length = 8 := by simp [ackBody]
  have index_ : leAt (ackBody a) 0 1 = a.index := (leAt_toLE 1 _ _).trans (Nat.mod_eq_of_lt index)
  have bank_ : leAt (ackBody a) 1 1 = a.bank := by simp [ackBody, Nat.mod_eq_of_lt bank]
  have status_ : leAt (ackBody a) 2 1 = a.status := by simp [ackBody, Nat.mod_eq_of_lt status]
  have seq_ : leAt (ackBody a) 4 2 = a.seq := by simp [ackBody, Nat.mod_eq_of_lt seq]
  unfold parseUp
  dsimp only
  rw [if_neg (by rw [size]; decide), index_, bank_, status_, seq_]

/-- The body of a response. -/
def respBody (r : Resp) : List Byte :=
  toLE 1 (if r.write then 1 else 2) ++ (toLE 1 r.id ++ (toLE 1 r.status ++ (zeros 1 ++ (toLE 3 r.addr ++ (zeros 1 ++ r.data)))))

theorem upChars_resp (r : Resp) : upChars (.resp r) = frameSyms .soc (respBody r) := by
  unfold upChars respBody
  simp only [List.append_assoc]

theorem drop_respBody (r : Resp) : (respBody r).drop 8 = r.data := by
  have header : respBody r = (toLE 1 (if r.write then 1 else 2) ++ toLE 1 r.id ++ toLE 1 r.status ++ zeros 1 ++ toLE 3 r.addr ++ zeros 1) ++
      r.data := by
    unfold respBody
    simp only [List.append_assoc]
  rw [header]
  exact List.drop_left' (by simp only [List.length_append, length_toLE, length_zeros])

theorem parseUp_resp {r : Resp} (fits : UpFits (.resp r)) : parseUp .soc (respBody r) = some (.resp r) := by
  obtain ⟨id, status, addr⟩ := fits
  have size : 8 ≤ (respBody r).length := by simp [respBody]; omega
  have op_ : leAt (respBody r) 0 1 = if r.write then 1 else 2 := by
    refine (leAt_toLE 1 _ _).trans ?_
    cases r.write <;> rfl
  have id_ : leAt (respBody r) 1 1 = r.id := by simp [respBody, Nat.mod_eq_of_lt id]
  have status_ : leAt (respBody r) 2 1 = r.status := by simp [respBody, Nat.mod_eq_of_lt status]
  have addr_ : leAt (respBody r) 4 3 = r.addr := by simp [respBody, Nat.mod_eq_of_lt (show r.addr < 16777216 from addr)]
  have valid : ¬ (decide ((respBody r).length < 8) || (decide ((if r.write then 1 else 2) ≠ 1) && decide ((if r.write then 1 else 2) ≠ 2))) = true := by
    rw [decide_eq_false (Nat.not_lt.mpr size)]
    cases r.write <;> decide
  have write_ : ((if r.write then 1 else 2) == 1) = r.write := by cases r.write <;> rfl
  unfold parseUp
  dsimp only
  rw [op_, if_neg valid, id_, status_, addr_, drop_respBody, write_]

/-! ## Telemetry -/

theorem maskN_succ (n : Nat) (p : Nat → Bool) : maskN (n + 1) p = maskN n p + if p n then 2 ^ n else 0 := by
  unfold maskN those
  rw [List.range_succ, List.filter_append, List.foldl_append]
  cases h : p n <;> simp [h]

theorem maskN_lt (n : Nat) (p : Nat → Bool) : maskN n p < 2 ^ n := by
  induction n with
  | zero => exact Nat.one_pos
  | succ n ih =>
    rw [maskN_succ, Nat.pow_succ]
    split <;> omega

theorem testBit_maskN {n : Nat} (p : Nat → Bool) {i : Nat} (h : i < n) : (maskN n p).testBit i = p i := by
  induction n with
  | zero => omega
  | succ n ih =>
    rw [maskN_succ]
    rcases Nat.lt_succ_iff_lt_or_eq.mp h with below | rfl
    · cases p n
      · exact ih below
      · rw [if_pos rfl, Nat.add_comm, Nat.testBit_two_pow_add_gt below]
        exact ih below
    · have clear : (maskN i p).testBit i = false := Nat.testBit_lt_two_pow (maskN_lt i p)
      cases p i
      · exact clear
      · rw [if_pos rfl, Nat.add_comm, Nat.testBit_two_pow_add_eq, clear]
        rfl

/-- A temperature read back. -/
theorem signedN_tempField {x : Int} (low : -32768 ≤ x) (high : x < 32768) : signedN 16 (tempField (some x)) = x := by
  have cut : (tempField (some x) : Int) = x % 65536 := Int.toNat_of_nonneg (Int.emod_nonneg _ (by decide))
  generalize tempField (some x) = n at cut
  show (if n % 65536 < 32768 then ((n % 65536 : Nat) : Int) else ((n % 65536 : Nat) : Int) - 65536) = x
  split <;> omega

/-- The temperatures of a telemetry frame. -/
def tempBytes (l : List (Option Int)) : List Byte := l.flatMap (fun x => toLE 2 (tempField x))

theorem length_tempBytes (l : List (Option Int)) : (tempBytes l).length = 2 * l.length := by
  induction l with
  | nil => rfl
  | cons x l ih =>
    have first : tempBytes (x :: l) = toLE 2 (tempField x) ++ tempBytes l := List.flatMap_cons
    rw [first, List.length_append, length_toLE, ih, List.length_cons]
    omega

theorem tempField_lt (x : Option Int) : tempField x < 65536 :=
  (Int.toNat_lt (Int.emod_nonneg _ (by decide))).mpr (Int.emod_lt_of_pos _ (by decide))

theorem leAt_tempBytes (l : List (Option Int)) (r : List Byte) : ∀ {i : Nat} (h : i < l.length),
    leAt (tempBytes l ++ r) (2 * i) 2 = tempField l[i] := by
  induction l with
  | nil => exact fun h => absurd h (Nat.not_lt_zero _)
  | cons x l ih =>
    intro i h
    have first : tempBytes (x :: l) ++ r = toLE 2 (tempField x) ++ (tempBytes l ++ r) := by
      rw [← List.append_assoc]
      rfl
    rw [first]
    cases i with
    | zero => exact (leAt_toLE 2 _ _).trans (Nat.mod_eq_of_lt (tempField_lt x))
    | succ i =>
      rw [leAt_toLE_skip (by omega)]
      exact ih (Nat.lt_of_succ_lt_succ h)

/-- The status byte of a telemetry frame. -/
def statusByte (t : Telem) : Nat :=
  t.liveBank % 2 + 2 * b1 t.bank0v + 4 * b1 t.bank1v + 8 * b1 t.doubt + 16 * b1 t.fault + 32 * b1 t.senseV

/-- Which temperatures of a telemetry frame are valid. -/
def tempMask (t : Telem) : Nat := maskN 8 (fun i => (t.temps.getD i none).isSome)

/-- What follows the temperatures of a telemetry frame. -/
def telemTail (t : Telem) : List Byte :=
  toLE 2 t.vsup ++ (toLE 2 t.vlog ++ (toLE 2 t.missCnt ++ (toLE 1 t.missTag ++ (toLE 1 t.senseWin ++ (toLE 2 t.derr ++
    toLE 256 (packMap 2 t.sense))))))

/-- The body of a telemetry frame. -/
def telemBody (t : Telem) : List Byte :=
  toLE 2 t.tseq ++ (toLE 2 t.dseq ++ (toLE 1 (statusByte t) ++ (toLE 1 (tempMask t) ++ (tempBytes t.temps ++ telemTail t))))

theorem upChars_telem (t : Telem) : upChars (.telem t) = frameSyms .sol (telemBody t) := by
  unfold upChars telemBody telemTail tempBytes
  simp only [List.append_assoc]
  rfl

theorem statusByte_read : ∀ (l : Fin 2) (a b c d e : Bool), ∀ x, x = l.val % 2 + 2 * b1 a + 4 * b1 b + 8 * b1 c + 16 * b1 d + 32 * b1 e →
    x < 256 ∧ x % 2 = l ∧ x.testBit 1 = a ∧ x.testBit 2 = b ∧ x.testBit 3 = c ∧ x.testBit 4 = d ∧ x.testBit 5 = e := by
  rintro l a b c d e x rfl
  revert l a b c d e
  decide

section
variable {t : Telem} (count : t.temps.length = 8)
include count

theorem length_telemBody : (telemBody t).length = 288 := by
  unfold telemBody telemTail
  simp only [List.length_append, length_toLE, length_tempBytes, count]

/-- A field behind the temperatures. -/
theorem leAt_telemTail {lo n : Nat} (h : 22 ≤ lo) : leAt (telemBody t) lo n = leAt (telemTail t) (lo - 22) n := by
  unfold telemBody
  rw [leAt_toLE_skip (by omega), leAt_toLE_skip (by omega), leAt_toLE_skip (by omega), leAt_toLE_skip (by omega),
    leAt_skip (by rw [length_tempBytes, count]; omega), length_tempBytes, count]
  congr 1

theorem telem_temperature {i : Nat} (h : i < t.temps.length) : leAt (telemBody t) (6 + 2 * i) 2 = tempField t.temps[i] := by
  unfold telemBody
  rw [leAt_toLE_skip (by omega), leAt_toLE_skip (by omega), leAt_toLE_skip (by omega), leAt_toLE_skip (by omega),
    ← leAt_tempBytes t.temps (telemTail t) h]
  congr 1
  omega

theorem telem_mask {i : Nat} (h : i < t.temps.length) : (leAt (telemBody t) 5 1).testBit i = t.temps[i].isSome := by
  have eight : i < 8 := count ▸ h
  have byte : leAt (telemBody t) 5 1 = tempMask t := by simp [telemBody, Nat.mod_eq_of_lt (show tempMask t < 256 from maskN_lt 8 _)]
  rw [byte]
  refine (testBit_maskN _ eight).trans ?_
  rw [List.getD_eq_getElem?_getD, List.getElem?_eq_getElem h, Option.getD_some]

theorem telem_temps (range : ∀ x : Int, some x ∈ t.temps → -32768 ≤ x ∧ x < 32768) :
    (List.range 8).map (fun i => if (leAt (telemBody t) 5 1).testBit i then some (signedN 16 (leAt (telemBody t) (6 + 2 * i) 2)) else none) =
      t.temps := by
  refine List.ext_getElem (by simp [count]) fun i _ h => ?_
  rw [List.getElem_map, List.getElem_range, telem_mask count h, telem_temperature count h]
  cases value : t.temps[i] with
  | none => rfl
  | some x =>
    obtain ⟨low, high⟩ := range x (value ▸ List.getElem_mem h)
    exact congrArg some (signedN_tempField low high)

end

theorem parseUp_telem {t : Telem} (fits : UpFits (.telem t)) : parseUp .sol (telemBody t) = some (.telem t) := by
  obtain ⟨tseq, dseq, bank, count, range, vsup, vlog, missCnt, missTag, window, derr, sense⟩ := fits
  obtain ⟨byte, bank_, b0, b1_, doubt_, fault_, senseV_⟩ :=
    statusByte_read ⟨t.liveBank, bank⟩ t.bank0v t.bank1v t.doubt t.fault t.senseV (statusByte t) rfl
  have tseq_ : leAt (telemBody t) 0 2 = t.tseq := (leAt_toLE 2 _ _).trans (Nat.mod_eq_of_lt tseq)
  have dseq_ : leAt (telemBody t) 2 2 = t.dseq := by simp [telemBody, Nat.mod_eq_of_lt dseq]
  have status_ : leAt (telemBody t) 4 1 = statusByte t := by simp [telemBody, Nat.mod_eq_of_lt byte]
  have tail_ {lo n : Nat} (h : 22 ≤ lo) := leAt_telemTail (n := n) count h
  have vsup_ : leAt (telemTail t) 0 2 = t.vsup := (leAt_toLE 2 _ _).trans (Nat.mod_eq_of_lt vsup)
  have vlog_ : leAt (telemTail t) 2 2 = t.vlog := by simp [telemTail, Nat.mod_eq_of_lt vlog]
  have missCnt_ : leAt (telemTail t) 4 2 = t.missCnt := by simp [telemTail, Nat.mod_eq_of_lt missCnt]
  have missTag_ : leAt (telemTail t) 6 1 = t.missTag := by simp [telemTail, Nat.mod_eq_of_lt missTag]
  have window_ : leAt (telemTail t) 7 1 = t.senseWin := by simp [telemTail, Nat.mod_eq_of_lt (show t.senseWin < 256 by omega)]
  have derr_ : leAt (telemTail t) 8 2 = t.derr := by simp [telemTail, Nat.mod_eq_of_lt derr]
  have sense_ : unpackMap 2 1024 (leAt (telemTail t) 10 256) = t.sense := by
    simp only [telemTail, leAt_toLE_skip, Nat.reduceLeDiff, Nat.reduceSub]
    rw [leAt_all (length_toLE _ _), unpackMap_bytes (by decide) sense]
  unfold parseUp
  dsimp only
  rw [if_neg (by rw [length_telemBody count]; decide), tseq_, dseq_, status_, telem_temps count range, bank_, b0, b1_, doubt_, fault_, senseV_,
    tail_ (by decide), tail_ (by decide), tail_ (by decide), tail_ (by decide), tail_ (by decide), tail_ (by decide), tail_ (by decide),
    vsup_, vlog_, missCnt_, missTag_, window_, derr_, sense_, Nat.mod_eq_of_lt window]

/-! ## The statement -/

theorem readUp_upChars (rd : Bool) {f : UpFrame} (fits : UpFits f) : readUp (encSyms rd (upChars f)) = .frame f := by
  cases f with
  | telem t =>
    rw [upChars_telem]
    exact readUp_encSyms rd (.inl rfl) (parseUp_telem fits)
  | ack a =>
    rw [upChars_ack]
    exact readUp_encSyms rd (.inr (.inl rfl)) (parseUp_ack fits)
  | resp r =>
    rw [upChars_resp]
    exact readUp_encSyms rd (.inr (.inr rfl)) (parseUp_resp fits)

theorem readFrame_itemChars (rd : Bool) {d : DownItem} (fits : DownFits d) : ∃ (start : Ctl) (body : List Byte),
    readFrame (decSyms rd (encSyms rd (itemChars d))) = .frame start body ∧ parseDown start body = some d := by
  cases d with
  | fire b t => exact absurd fits id
  | line f =>
    rw [itemChars_line]
    exact ⟨.sol, lineBody f, readFrame_encSyms rd _ _, parseDown_line fits⟩
  | table f =>
    rw [itemChars_table]
    exact ⟨.sot, tableBody f, readFrame_encSyms rd _ _, parseDown_table fits⟩
  | ctl f =>
    rw [itemChars_ctl]
    exact ⟨.soc, ctlBody f, readFrame_encSyms rd _ _, parseDown_ctl fits⟩

/-- Settles O60: every character reads back from its code, so a frame's symbols come back, its CRC holds, and each field of its
body is read where it was written. -/
theorem kwadyCodesReadBack : Obligations.KwadyCodesReadBack :=
  ⟨fun rd c => ⟨decSym_encSym rd c, rdAfter_encSym rd c⟩, fun rd _ fits => readUp_upChars rd fits, fun rd _ fits => readFrame_itemChars rd fits⟩

end Sys2Proof.Machine
end
